-- ==== Sys2Proof/Word.lean ====
section
/-! DEFINITION. The words, byte strings, ports and tables that every other file is written over. -/
namespace Sys2Proof

/-- One byte (R4). -/
abbrev Byte := BitVec 8

/-- One 32-bit register value (R5). -/
abbrev Word := BitVec 32

/-- A byte string, first byte at the lowest address (R4). -/
abbrev Bytes := List Byte

/-- A table over numbers, in one canonical form: keys strictly rising, no entry holding the table's default value.
An unlisted key reads as the default. -/
abbrev Tbl (α : Type) := List (Nat × α)

/-- The two host ports. -/
inductive Port where
  | a
  | b
deriving DecidableEq, Repr

/-- The other host port. -/
def Port.other : Port → Port
  | .a => .b
  | .b => .a

/-- The port's number: 0 is port A, 1 is port B. -/
def Port.num : Port → Nat
  | .a => 0
  | .b => 1

/-- One value for each host port. -/
structure Both (α : Type) where
  a : α
  b : α
deriving DecidableEq, Repr

/-- The value of port `p`. -/
def Both.get {α : Type} (x : Both α) : Port → α
  | .a => x.a
  | .b => x.b

/-- The pair with port `p`'s value replaced. -/
def Both.set {α : Type} (x : Both α) (p : Port) (v : α) : Both α :=
  match p with
  | .a => { x with a := v }
  | .b => { x with b := v }

/-- The pair with port `p`'s value changed by `f`. -/
def Both.upd {α : Type} (x : Both α) (p : Port) (f : α → α) : Both α :=
  x.set p (f (x.get p))

end Sys2Proof
end

