-- ==== Sys2Proof/Parts/Host.lean ====
section
/-! DEFINITION. State of the host ports, the turntables and the per-port register copies
(03_host_ports_and_turntables.md, 21_register_reference.md). Every structure's field defaults are its reset values. -/
namespace Sys2Proof

/-- Causes of a port loss (R64); the code is LOSS_CAUSE. -/
inductive LossCause where
  | none | dlDown | perst | hotReset | linkDisable | flr
deriving DecidableEq, Repr

/-- One MSI-X table entry (R50); masked at reset, as PCIe has it (PRESUMED, log entry 8). -/
structure MsixEntry where
  addr : Nat := 0
  data : Nat := 0
  masked : Bool := true
deriving DecidableEq, Repr

/-- A port's PCIe configuration space: what the HPT block mirrors (R410), and the standard header's memory enable and base
addresses of the BARs (R50; PRESUMED, log entry 33). -/
structure PortCfg where
  mps : Nat := 0
  mrrs : Nat := 2
  roEn : Bool := true
  tag10 : Bool := false
  pasidEn : Bool := false
  msixEn : Bool := false
  fnMask : Bool := false
  bme : Bool := false
  ctoValue : Nat := 0
  ctoDis : Bool := false
  uncorStat : Nat := 0
  uncorMask : Nat := 0
  uncorSev : Nat := 0x462030
  corStat : Nat := 0
  corMask : Nat := 0x2000
  capCtrl : Nat := 0
  hdr : List Nat := [0, 0, 0, 0]
  mse : Bool := false
  bars : List Nat := [0, 0, 0, 0, 0, 0]
deriving DecidableEq, Repr

/-- One host port's link, HPT block and MSI-X table (R48, R204 table, R410). -/
structure HptPort where
  up : Bool := false
  flit : Bool := false
  width : Nat := 0
  speed : Nat := 0
  perst : Bool := true
  training : Bool := false
  dlUpAt : Nat := 0
  ready : Bool := false
  lossCnt : Nat := 0
  lossCause : LossCause := .none
  lossAborts : Nat := 0
  discardCnt : Nat := 0
  guardCnt : Nat := 0
  dmaErrCnt : Nat := 0
  sizeErrCnt : Nat := 0
  rangeCnt : Nat := 0
  intStat : BitVec 32 := 0
  intEn : BitVec 32 := 0
  ttbFreed : BitVec 64 := 0
  inOcc : Nat := 0
  inHwm : Nat := 0
  inStall : Nat := 0
  outOcc : Nat := 0
  outHwm : Nat := 0
  outStall : Nat := 0
deriving DecidableEq, Repr

/-- What a device DMA read was issued for (R52, R53). -/
inductive DmaRead where
  | descriptor (sq pos : Nat)
  | chain (tag : Nat)
  | ticket (tag : Nat)
  | data (tag seg : Nat)
  | record (tag : Nat)
  | anchor (p : Port)
  | lattice (p : Port)
  | ucpSrc
  | ucpAad
  | debugResp
  | stage
deriving DecidableEq, Repr

/-- One read request of the device (R45): what it is for, its PASID, address and length, and whether it has been sent. -/
structure ReadReq where
  what : DmaRead
  pasid : Option Nat
  addr : Nat
  len : Nat
  sent : Bool := false
deriving DecidableEq, Repr

/-- One host port's statistics, configuration mirrors and MSI-X table (R50, R410). `reads` are its read requests, oldest
first: those outstanding, and those that wait for a place among the 768 (R45). -/
structure HptStats where
  cfg : PortCfg := {}
  dmaRd : Nat := 0
  dmaWr : Nat := 0
  regRd : Nat := 0
  regWr : Nat := 0
  dbRx : Nat := 0
  cqeTx : Nat := 0
  msixTx : Nat := 0
  scrubWr : Nat := 0
  reads : List ReadReq := []
  npHwm : Nat := 0
  replay : Nat := 0
  recovery : Nat := 0
  laneErr : Tbl Nat := []
  msix : Tbl MsixEntry := []
  pba : Tbl Bool := []
deriving DecidableEq, Repr

/-- A ring setup window with its abort staging (04 ring setup window table, R122): 64 staged bytes. -/
structure RsWin where
  data : Bytes := List.replicate 64 0
  result : Nat := 0
  busyUntil : Nat := 0
  abortCookie : Nat := 0
deriving DecidableEq, Repr

/-- The latched _HI halves of one port (R30, R403). -/
structure Latches where
  csnHi : Nat := 0
  timeHi : Nat := 0
  epochHi : Nat := 0
  floorHi : Nat := 0
  scrubHi : Nat := 0
  actTimeHi : Nat := 0
deriving DecidableEq, Repr

/-- The SLC window of one port (13 SLC window table); `prev…` are what the binding registers show while BIND_BUSY is 1. -/
structure SlcWin where
  data : Bytes := List.replicate 32 0
  result : Nat := 0
  busyUntil : Nat := 0
  bindOwner : Nat := 0
  bindRes : Nat := 0
  bindBusyUntil : Nat := 0
  boundTo : Nat := 0
  bound : Bool := false
  prevRes : Nat := 0
  prevTo : Nat := 0
  prevBound : Bool := false
  mbxSel : Nat := 0
deriving DecidableEq, Repr

/-- The lattice command block of one port (12 lattice table). -/
structure LatBlk where
  op : Nat := 0
  ctxLen : Nat := 0
  wx : Bool := false
  handle : Nat := 0
  owner : Nat := 0
  scope : Nat := 0x2000
  srcLo : Nat := 0
  srcHi : Nat := 0
  srcLen : Nat := 0
  dstLo : Nat := 0
  dstHi : Nat := 0
  dstLen : Nat := 0
  busy : Bool := false
  status : Nat := 0
  result : Nat := 0
deriving DecidableEq, Repr

/-- The trust-anchor staging of one port (12 anchor table). -/
structure AncBlk where
  index : Nat := 0
  alg : Nat := 0
  addrLo : Nat := 0
  addrHi : Nat := 0
  len : Nat := 0
  busy : Bool := false
  result : Nat := 0
  pendIndex : Nat := 0
  pendAlg : Nat := 0
  pendLen : Nat := 0
deriving DecidableEq, Repr

/-- The event window of one port (R332). -/
structure EvrWin where
  cursor : Nat := 0
  busy : Bool := false
  winLen : Nat := 0
  window : Bytes := []
deriving DecidableEq, Repr

/-- The register copies that exist once for each host port (R404). -/
structure PortWin where
  lat64 : Latches := {}
  rs : RsWin := {}
  diagSel : Nat := 0
  slotSel : Nat := 0
  replSrc : Nat := 0
  replDst : Nat := 0
  replStat : Nat := 0
  slc : SlcWin := {}
  lat : LatBlk := {}
  anc : AncBlk := {}
  evr : EvrWin := {}
  tblSel : Nat := 0
deriving DecidableEq, Repr

/-- One turntable (R58-R62). `grants` is the 16-bit grant counter, whose value is the ticket. -/
structure Turntable where
  holder : Option Port := none
  waiter : Bool := false
  forced : Bool := false
  grants : Nat := 0
  leaseLen : Nat := 0
  leaseFrom : Nat := 0
  lease : Nat := 0
deriving DecidableEq, Repr

/-- The turntables and their bad-release counts (R58, R60). -/
structure Ttb where
  tables : Tbl Turntable := []
  badRel : Both Nat := ⟨0, 0⟩
deriving DecidableEq, Repr

end Sys2Proof
end

