-- ==== Sys2Proof/Parts/Engines.lean ====
section
/-! DEFINITION. State of the random number subsystem, the lattice unit, the big-number verifier and the utility cipher
(11_random_numbers.md, 12_lattice_bignum_utility.md). -/
namespace Sys2Proof

/-- RNG_STAT.STATE (11 RNG table). -/
inductive RngState where
  | stopped | starting | seeded | failed
deriving DecidableEq, Repr

/-- Who waits for tender bytes (R254). -/
inductive Consumer where
  | carriage (tag : Nat)
  | lattice (p : Port)
  | debug
  | remask (slot : Nat)
  | quorum (proposal : Nat)
deriving DecidableEq, Repr

/-- One waiting consumer: who, the bytes it needs, those it holds, its observation point as stamp and CSN, and the wait
limit that held then (R255, R256). -/
structure Waiter where
  who : Consumer
  need : Nat
  got : Bytes := []
  at_ : Nat := 0
  csn : Nat := 0
  limit : Nat := 0
deriving DecidableEq, Repr

/-- The random chain (11 RNG table, R244-R258). `bits` are the conditioned bits collected for seeding, in sample order: each
with the place of its sample pair, which is (window of its cell × 512 + pair) × 4 + cell. `wins` counts the windows each
cell has ended since the start, `last` holds whether its last one passed and that window's stamp. -/
structure Rng where
  state : RngState := .stopped
  cause : Nat := 0
  kat : Nat := 0
  debias : Bool := false
  debiasCfg : Bool := false
  failLimit : Nat := 3
  wait : Nat := 0xFA
  failCnt : Nat := 0
  failStamps : List Nat := []
  cellFail : List Nat := [0, 0, 0, 0]
  tender : Bytes := []
  tenderLow : Nat := 0x10000
  waiters : List Waiter := []
  reseedCnt : Nat := 0
  reqSince : Nat := 0
  notSeeded : Nat := 0
  declared : Nat := 0
  starts : Nat := 0
  instTime : Nat := 0
  pers : Bytes := List.replicate 48 0
  persLen : Nat := 16
  key : Nat := 0
  v : Nat := 0
  bits : List (Nat × Bool) := []
  runs : List Nat := [0, 0, 0, 0]
  lastRun : List (Nat × Nat) := [(0, 0), (0, 0), (0, 0), (0, 0)]
  wins : List Nat := [0, 0, 0, 0]
  last : List (Bool × Nat) := [(false, 0), (false, 0), (false, 0), (false, 0)]
  startAt : Nat := 0
  reseedDue : Bool := false
deriving DecidableEq, Repr

/-- A request for the lattice unit (R260): `sign` is the attestation signature over a proposal's output. -/
inductive LatReq where
  | port (p : Port)
  | carriage (tag : Nat)
  | debug
  | sign (proposal : Nat)
deriving DecidableEq, Repr

/-- The lattice unit (R259-R266): its queue, the command block that each port's command was issued with, the operands fetched
for it, and the tender bytes held for it. -/
structure Lat where
  queue : List LatReq := []
  opsCnt : Nat := 0
  run : Both LatBlk := ⟨{}, {}⟩
  src : Both (Option Bytes) := ⟨none, none⟩
  rnd : Both Bytes := ⟨[], []⟩
  slot : Both (Option (Nat × Nat)) := ⟨none, none⟩
deriving DecidableEq, Repr

/-- One trust anchor (R268). -/
structure Anchor where
  valid : Bool := false
  alg : Nat := 0
  key : Bytes := []
deriving DecidableEq, Repr

/-- A privileged big-number channel, 6 or 7 (R270-R273); `pend` is the running operation's OP, CURVE, LEN and slots. -/
structure BnvChan where
  op : Nat := 0
  curve : Nat := 0
  len : Nat := 0
  slots : Nat := 0
  busy : Bool := false
  status : Nat := 0
  reason : Nat := 0
  time : Nat := 0
  conflict : Nat := 0
  mem : Tbl Byte := []
  pend : Option (Nat × Nat × Nat × Nat) := none
deriving DecidableEq, Repr

/-- The big-number verifier (R267-R273): channels 0-5 with the carriage each runs and its copied anchor, the queue, the
anchors and the privileged channels. -/
structure Bnv where
  chans : Tbl (Option Nat) := []
  queue : List Nat := []
  anchorOf : Tbl Anchor := []
  verifyCnt : Nat := 0
  rejectCnt : Nat := 0
  anchors : Tbl Anchor := []
  priv : Both BnvChan := ⟨{}, {}⟩
deriving DecidableEq, Repr

/-- A user of the utility cipher (R274). -/
inductive UcpUser where
  | port (p : Port)
  | secure
deriving DecidableEq, Repr

/-- The command that the utility cipher's running operation was issued with (R276). -/
structure UcpRun where
  op : Nat := 0
  srcLen : Nat := 0
  aadLen : Nat := 0
  dst : Nat := 0
  dstLen : Nat := 0
  iv : Bytes := []
  tag : Bytes := []
deriving DecidableEq, Repr

/-- The utility cipher (R274-R276): the lock, the command registers, the running operation with its fetched data, and
what the internal DMA wrote for the secure world's last operation. -/
structure Ucp where
  holder : Option UcpUser := none
  ticket : Nat := 0
  waiter : Bool := false
  forced : Bool := false
  idle : Nat := 0x3E8
  idleFrom : Nat := 0
  badRel : Nat := 0
  denyCnt : Nat := 0
  op : Nat := 0
  handle : Nat := 0
  srcLo : Nat := 0
  srcHi : Nat := 0
  srcLen : Nat := 0
  aadLo : Nat := 0
  aadHi : Nat := 0
  aadLen : Nat := 0
  dstLo : Nat := 0
  dstHi : Nat := 0
  dstLen : Nat := 0
  iv : Bytes := List.replicate 12 0
  tag : Bytes := List.replicate 16 0
  busy : Bool := false
  status : Nat := 0
  outLen : Nat := 0
  run : UcpRun := {}
  slot : Option (Nat × Nat) := none
  src : Option Bytes := none
  aad : Option Bytes := none
  world : Bytes := []
deriving DecidableEq, Repr

end Sys2Proof
end

