-- ==== Sys2Proof/Parts/Tamper.lean ====
section
/-! DEFINITION. State of the tamper monitors and the backup domain (15_tamper_and_backup_domain.md, R412). -/
namespace Sys2Proof

/-- Alarm classes (R311). -/
inductive AlarmClass where
  | a | b | c
deriving DecidableEq, Repr

/-- One alarm of a response whose record is still to be written (R312, R319, R321). -/
structure AlarmNote where
  source : Nat
  cls : AlarmClass
  value : Nat
deriving DecidableEq, Repr

/-- A response (R314, R319): the stamp of its first detection, when it completes, and its alarms in the order of
detection. -/
structure AlarmResp where
  first : Nat := 0
  endAt : Nat := 0
  notes : List AlarmNote := []
deriving DecidableEq, Repr

/-- The light agreement window (R312): its start, the detectors that fired, and a completed response whose records wait for
its end. -/
structure LightWin where
  openAt : Option Nat := none
  pd : Bool := false
  can : Bool := false
  done : Option AlarmResp := none
deriving DecidableEq, Repr

/-- An active source (R311), with the stamp at which its condition was last seen. -/
structure ActiveSrc where
  source : Nat
  cls : AlarmClass
  at_ : Nat
deriving DecidableEq, Repr

/-- The TMP block (15 TMP table, R412). `readings`, `mins` and `maxs` are by the sensor index of R412, 16 bits each; `lastAB`
is the stamp from which no class A or B source has been active; `resp` is the response in progress. -/
structure Tmp where
  dataStop : Bool := false
  lastClass : Nat := 0
  vaultLocked : Bool := false
  active : List ActiveSrc := []
  latch : BitVec 12 := 0
  holdoff : Nat := 0x3E8
  resumeDeny : Nat := 0
  cntA : Nat := 0
  cntB : Nat := 0
  cntC : Nat := 0
  disPd : Nat := 0
  disCan : Nat := 0
  testPd : Nat := 0
  testCan : Nat := 0
  loopEn : BitVec 2 := 0
  loopAt : List Nat := [0, 0]
  readings : Tbl Nat := []
  mins : Tbl (Option Nat) := []
  maxs : Tbl (Option Nat) := []
  regTj : Tbl Nat := []
  eraseNs : Nat := 0
  bdLost : Bool := false
  alarmedBoot : Bool := false
  light : LightWin := {}
  resp : Option AlarmResp := none
  lastAB : Nat := 0
  rngRestart : Bool := false
deriving DecidableEq, Repr

/-- The backup domain (R320-R323): it survives PORST_N. `buffer` is the alarm buffer, oldest first, `copied` whether it has
been copied to the event recorder; `loops` are the tamper loops it senses, `active` the sources active in reset, each with its last
detection by `clock`, the microseconds that the domain counts in reset, `aon` the microseconds since the main feed fell and `lastTime` the device time then. -/
structure Backup where
  share0 : Nat := 0
  share1 : Nat := 0
  floor : Nat := 0
  dseal : Nat := 0
  markOk : Bool := false
  area : Tbl Byte := []
  counter : Nat := 0
  buffer : List Bytes := []
  bufSeq : Nat := 0
  abufLost : Nat := 0
  copied : Bool := false
  loops : BitVec 2 := 0
  active : List (Nat × Nat) := []
  clock : Nat := 0
  aon : Nat := 0
  lastTime : Nat := 0
  onVbat : Bool := false
deriving DecidableEq, Repr

end Sys2Proof
end

