-- ==== Sys2Proof/Parts/Worlds.lean ====
section
/-! DEFINITION. State of the control complex and its two worlds (14_control_worlds.md). -/
namespace Sys2Proof

/-- The two firmware worlds (R296). -/
inductive World where
  | secure | normal
deriving DecidableEq, Repr

/-- The functions that belong to a world (R296): the secure world's own, and the normal world's six, of which five may be assigned to
the secure world (R297). -/
inductive WorldFn where
  | secureOwn | shelves | smbus | drawbar | govPolicy | eventFormat | nvmeAdmin
deriving DecidableEq, Repr

/-- What a debugger may do with a world, or reads of it (R308). -/
inductive DebugUse where
  | trace | counters | halt | step | read (address : Nat) | write (address : Nat)
deriving DecidableEq, Repr

/-- The state of a world (WLD_STAT). -/
inductive WorldState where
  | starting | running | restarting | halted | failed
deriving DecidableEq, Repr

/-- The five blocks whose gates the monitor applies (R302), in the bit order of WLD_GATE_REQ. -/
inductive GateBlock where
  | ucp | lat | rng | bnv | kst
deriving DecidableEq, Repr

/-- One world: its state, watchdog, restarts and measurements (R304-R307); `haltAt` is when a debugger last halted it
(R310); `wiped` from step 4 of a restart, which zeroises its pages, until it runs again (R305). -/
structure WorldSt where
  state : WorldState := .starting
  wdt : Nat := 0x3E8
  kickAt : Nat := 0
  rstCnt : Nat := 0
  cause : Nat := 0
  aborts : Nat := 0
  failAt : Nat := 0
  haltAt : Nat := 0
  restarts : List Nat := []
  wiped : Bool := false
  meas : Bytes := List.replicate 48 0
deriving DecidableEq, Repr

/-- One gate: the secure world's mark, a request, whether it is deferred and since when, and whether it is applied. -/
structure Gate where
  mark : Bool := false
  req : Bool := false
  deferred : Bool := false
  since : Nat := 0
  late : Bool := false
  on : Bool := false
deriving DecidableEq, Repr

/-- The WLD block (14 WLD table). `regions` are the 16 ownership regions of each memory port (mode 0: base, limit, code)
and `pages` the page owner table (mode 1); `zeroed` are the pages that the monitor zeroised before it let the normal world at them
(R300). -/
structure Wld where
  memMode : Bool := false
  predMode : Bool := false
  assignLock : Bool := false
  secure : WorldSt := {}
  normal : WorldSt := {}
  cpuStat : Nat := 0
  assign : Nat := 0
  mcallCnt : Nat := 0
  violCnt : Nat := 0
  violAddr : Nat := 0
  gates : Tbl Gate := []
  gateLate : Nat := 0
  dbg : Nat := 0
  regions : Tbl (Nat × Nat × Nat) := []
  pages : Tbl Nat := []
  zeroed : List Nat := []
deriving DecidableEq, Repr

end Sys2Proof
end

