-- ==== Sys2Proof/Parts/Operand.lean ====
section
/-! DEFINITION. The operand types of the commands: which window an access hits, and the readings
that the outside world supplies. -/
namespace Sys2Proof

/-- The memory windows of a port (R50): BAR0, a slice page of BAR2 with its slice, BAR4. -/
inductive Bar where
  | bar0
  | page (slice : Nat)
  | bar4
deriving DecidableEq, Repr

/-- A place in a port's memory windows. -/
structure BarPlace where
  bar : Bar
  off : Nat
deriving DecidableEq, Repr

/-- An access as R51 judges it: the PASID of its request, its place, and whether it reads. -/
structure Access where
  pasid : Option Nat := none
  place : BarPlace
  read : Bool := true
deriving DecidableEq, Repr

/-- What a write carries (R399, R400): the four bytes of one register, or the bytes from its place on, none where a byte enable is
off. -/
inductive WriteData where
  | word (value : Nat)
  | bytes (data : List (Option Byte))
deriving DecidableEq, Repr

/-- What a read asks for (R399, R400): one register's four bytes, or the bytes from a place on, each with its byte enable. -/
inductive RegRead where
  | word (place : BarPlace)
  | bytes (place : BarPlace) (enables : List Bool)
deriving DecidableEq, Repr

/-- The supply rails whose voltage raises alarms (R311). -/
inductive Rail where
  | core | sram | io | vbat
deriving DecidableEq, Repr

/-- The clock conditions that raise alarms (R311): a short pulse, a frequency error of TIMEREF or of the fabric clock in
ppm, or TIMEREF absent. -/
inductive ClockCond where
  | glitch
  | freq (ppm : Int)
  | fabric (ppm : Int)
  | absent
deriving DecidableEq, Repr

/-- How a program on a vault device ends (R226): written after some tries that failed, failed on every block tried, or no
answer. -/
inductive ProgResult where
  | written (fails : Nat)
  | failed
  | silent
deriving DecidableEq, Repr

/-- What a drive returns with a completion (R189): its data, and whether the completion or a DMA of its command was poisoned or
ended in Unsupported Request or Completer Abort. -/
structure NvReturn where
  poisoned : Bool := false
  data : Bytes := []
deriving DecidableEq, Repr

/-- The command that the secure world writes into the utility cipher's registers (R276): its slot, the bytes its source
and AAD hold in the device's memory, the IV, the tag, and the room at its destination. -/
structure UcpArgs where
  handle : Nat := 0
  src : Bytes := []
  aad : Bytes := []
  iv : Bytes := List.replicate 12 0
  tag : Bytes := List.replicate 16 0
  dstLen : Nat := 0
deriving DecidableEq, Repr

/-- Who writes GO (R276): a port, on the command its registers hold, or the secure world with its own command. -/
inductive UcpCmd where
  | port (p : Port)
  | secure (c : UcpArgs)
deriving DecidableEq, Repr

/-- What the world shows the device at a boot (R419, R380, R48): the straps, whether PFAIL_N is asserted, the memory
found, and each port's PERST. -/
structure BootEnv where
  haClkmode : Bool := false
  hbClkmode : Bool := false
  drbHead : Bool := false
  selIn : Bool := false
  pfail : Bool := false
  memOk : Bool := true
  capacity : Nat := 1
  perst : Both Bool := ⟨false, false⟩
deriving DecidableEq, Repr

/-- What a drive reports while it is initialised (R186): controller readiness, its limits, the namespace and the queues. -/
structure InitReport where
  topoOk : Bool := true
  mdts : Nat := 0
  rtd3e : Nat := 0
  nsPresent : Bool := true
  nsze : Nat := 0
  dataBytes : Nat := 4096
  metaBytes : Nat := 0
  pi : Bool := false
  formats : List (Nat × Nat) := []
  queues : Nat := 4
  ok : Bool := true
deriving DecidableEq, Repr

/-- One region's measurement over a governor interval (R388). -/
structure GovReading where
  busy : Nat := 0
  waited : Bool := false
  work : Bool := false
deriving DecidableEq, Repr

end Sys2Proof
end

