-- ==== Sys2Proof/Syntax.lean ====
section
/-! DEFINITION. The block's commands: one constructor for each row of the spec's table of operations and events. -/
namespace Sys2Proof

/-- A command: a register access, a protocol or pin event, or a step of the device's own engines, with the operands it
carries and, where the outside world answers within the step, that answer. -/
inductive Instr where
  /-- INGEST (R111). An admitted INGEST encrypts its segments under the write session and writes them, then its train trailer, with FUA. -/
  | ingest (tag : Nat)
  /-- RETRIEVE (R136). An admitted RETRIEVE reads and checks the trailer, then reads, decrypts, releases and verifies each segment in position order. -/
  | retrieve (tag : Nat)
  /-- AUDIT (R137). An admitted AUDIT verifies segment tags in verify-only mode and writes no byte anywhere. -/
  | audit (tag : Nat)
  /-- REKEY (R138). An admitted REKEY decrypts source segments and re-encrypts them into a destination train under the destination write session. -/
  | rekey (tag : Nat)
  /-- SEAL_OBJECT (R114). SEAL_OBJECT waits for earlier carriages on its session slot, writes a SEALED ticket and releases the slot. -/
  | sealObject (tag : Nat)
  /-- LEGACY_READ (R113). LEGACY_READ decrypts forerunner XTS units on global cell 0 into the destination buffer. -/
  | legacyRead (tag : Nat)
  /-- LEGACY_WRITE (R113). LEGACY_WRITE encrypts host data as XTS units on global cell 0 and writes them with FUA, if the manifest enables it. -/
  | legacyWrite (tag : Nat)
  /-- KEY_GENERATE_DEK (R114). KEY_GENERATE_DEK draws a DEK and nonce base from the tender, wraps a ticket for the owner and optionally opens a write session. -/
  | keyGenerateDek (tag : Nat)
  /-- KEY_LOAD_TICKET (R114). KEY_LOAD_TICKET unwraps a SEALED ticket into a new working slot with read-only usages. -/
  | keyLoadTicket (tag : Nat)
  /-- KEY_RELEASE_SLOT (R206). KEY_RELEASE_SLOT marks a slot PENDING, so that it is zeroised once its use count reaches 0. -/
  | keyReleaseSlot (tag : Nat)
  /-- RANDOM_BYTES (R257). RANDOM_BYTES takes LENGTH tender bytes and writes them to the destination buffer. -/
  | randomBytes (tag : Nat)
  /-- SHELF_WAKE (R183). SHELF_WAKE powers a shelf, releases its bay groups, initialises its drives and makes it AWAKE. -/
  | shelfWake (tag : Nat)
  /-- SHELF_SLEEP (R185). SHELF_SLEEP drains the shelf's carriages, shuts its drives down and powers the shelf off. -/
  | shelfSleep (tag : Nat)
  /-- DRIVE_ADMIN (R115). DRIVE_ADMIN sends one permitted NVMe admin or I/O command to a drive and returns dword 0. -/
  | driveAdmin (tag : Nat)
  /-- PROPOSE (R235). PROPOSE checks a quorum proposal, assigns a proposal id, opens its approval window and writes the digest. -/
  | propose (tag : Nat)
  /-- APPROVE (R238). APPROVE judges an officer's signature on a proposal, counts it, and starts the vault commit when quorum is reached. -/
  | approve (tag : Nat)
  /-- QUERY_PROPOSAL (R124). QUERY_PROPOSAL reports whether a proposal is pending, committed, expired or unknown. -/
  | queryProposal (tag : Nat)
  /-- VERIFY_SIGNATURE (R269). VERIFY_SIGNATURE checks a signature record against a trust anchor on the big-number verifier or the lattice unit. -/
  | verifySignature (tag : Nat)
  /-- KEY_IMPORT (R263). KEY_IMPORT decapsulates and unwraps a 256-bit key into a new utility-cipher slot. -/
  | keyImport (tag : Nat)
  /-- ATTEST (R265). ATTEST writes an attestation report over a host challenge, signed with the attestation key. -/
  | attest (tag : Nat)
  /-- SLICE_FREEZE (R286). SLICE_FREEZE freezes a slice's SQs, aborts its carriages, seals its open sessions and makes the slice FROZEN. -/
  | sliceFreeze (tag : Nat)
  /-- SLICE_SAVE (R292). SLICE_SAVE writes a GCM-sealed image of a frozen slice under a custody key. -/
  | sliceSave (tag : Nat)
  /-- SLICE_RESTORE (R293). SLICE_RESTORE checks a slice image and applies its bindings, rings and slots to an empty frozen slice at one CSN. -/
  | sliceRestore (tag : Nat)
  /-- FENCE (R98). FENCE completes only after every earlier carriage of its SQ has completed. -/
  | fence (tag : Nat)
  /-- NOP (R109). NOP completes DONE with no effect. -/
  | nop (tag : Nat)
  /-- SQ_DOORBELL (R80). A doorbell write to an SQ checks the new producer position and advances PRODUCER or sets the ring to ERROR. -/
  | sqDoorbell (p : Port) (slice : Option Nat) (ring value : Nat)
  /-- CQ_DOORBELL (R81). A doorbell write to a CQ advances the consumer and frees the CQ entries passed over. -/
  | cqDoorbell (p : Port) (slice : Option Nat) (ring value : Nat)
  /-- DOORBELL_QUEUE_EVAL (R100). A doorbell queued for an uncached ring is evaluated once the ring's context is loaded. -/
  | doorbellQueueEval (ring : Nat)
  /-- CONTEXT_LOAD (R99). A ring context load from LPDDR5X into the on-chip cache completes. -/
  | contextLoad (ring : Nat) (macOk : Bool)
  /-- DESCRIPTOR_PREFETCH (R84). The device speculatively fetches up to eight SQ entries beyond PRODUCER. -/
  | descriptorPrefetch (sq count : Nat)
  /-- SQ_ENTRY_TAKE (R86). The device takes a covered SQ entry once a tag, quota room and a completion credit are available, and reserves them. -/
  | sqEntryTake (sq : Nat)
  /-- BRAKE_ALERT (R94). A CQ braked for CAR_BRAKE_ALERT sets BRAKE_ALERT on both ports and writes an event record. -/
  | brakeAlert (cq : Nat)
  /-- ADMISSION (R118). A taken carriage runs the ordered admission checks against one CSN and is admitted or refused. -/
  | admission (tag : Nat)
  /-- LEGACY_ADMIT (R113). A waiting legacy carriage goes to admission once no other legacy carriage is admitted. -/
  | legacyAdmit
  /-- ORDERED_COMPLETION (R97). A finished carriage on an ORDERED SQ takes its completion CSN once every earlier carriage of the SQ has one. -/
  | orderedCompletion (tag : Nat)
  /-- COAL_TIME_EXPIRY (R95). COAL_TIME after the first counted entry, the CQ's MSI-X message is sent and the count is reset. -/
  | coalTimeExpiry (cq : Nat)
  /-- RS_READ (R74). The ring setup READ command copies a ring context into RS_DATA. -/
  | rsRead (p : Port) (slice : Option Nat) (ring : Nat)
  /-- RS_WRITE (R74). The ring setup WRITE command applies RS_DATA to a disabled ring's context and zeroes its positions. -/
  | rsWrite (p : Port) (slice : Option Nat) (ring : Nat)
  /-- RS_ENABLE (R74). The ring setup ENABLE command moves a ring from DISABLED to ACTIVE, or to FROZEN for an SQ of a frozen slice. -/
  | rsEnable (p : Port) (slice : Option Nat) (ring : Nat)
  /-- RS_DISABLE (R74). The ring setup DISABLE command moves an ACTIVE or BRAKED ring to DISABLED. -/
  | rsDisable (p : Port) (slice : Option Nat) (ring : Nat)
  /-- RS_RESET (R74). The ring setup RESET command moves an ERROR ring to DISABLED and zeroes its positions. -/
  | rsReset (p : Port) (slice : Option Nat) (ring : Nat)
  /-- ABORT_BY_COOKIE (R122). An abort write with MODE 1 marks the taken carriages of an SQ whose COOKIE matches. -/
  | abortByCookie (p : Port) (slice : Option Nat) (ring : Nat)
  /-- ABORT_ALL (R122). An abort write with MODE 2 marks every taken, uncompleted carriage of an SQ. -/
  | abortAll (p : Port) (slice : Option Nat) (ring : Nat)
  /-- TTB_ACQUIRE (R59). A read of TTB_ACQ_n takes a free turntable and returns a grant, or returns 0 and may set WAITER. -/
  | ttbAcquire (p : Port) (n : Nat)
  /-- TTB_RENEW (R60). A write of the holder's ticket to TTB_ACQ_n from the holder's port restarts the lease. -/
  | ttbRenew (p : Port) (n value : Nat)
  /-- TTB_RELEASE (R60). A write of the holder's ticket to TTB_REL_n from the holder's port releases the turntable. -/
  | ttbRelease (p : Port) (n value : Nat)
  /-- TTB_LEASE_EXPIRY (R61). The end of a turntable's lease releases it by force and sets FORCED. -/
  | ttbLeaseExpiry (n : Nat)
  /-- LINK_DOWN (R64). A host link leaving DL_Active is a port loss. -/
  | linkDown (p : Port)
  /-- PERST_ASSERT (R48). Assertion of a port's PERST resets that port and is a port loss. -/
  | perstAssert (p : Port)
  /-- HOT_RESET (R64). A Hot Reset of a host port is a port loss. -/
  | hotReset (p : Port)
  /-- LINK_DISABLE (R64). A Link Disable of a host port is a port loss. -/
  | linkDisable (p : Port)
  /-- FLR (R64). A Function Level Reset of a port's function is a port loss. -/
  | flr (p : Port)
  /-- PERST_DEASSERT (R48). Deassertion of a port's PERST starts its link training, or wakes the device from Dormant. -/
  | perstDeassert (p : Port)
  /-- HOST_READY (R67). A port reaching host-ready ends CRS and sets PEER_UP on the other port. -/
  | hostReady (p : Port)
  /-- DMA_READ_ERROR (R53). A failed or timed-out DMA read ends its carriage with FRAGMENT_ERROR, or puts its ring in ERROR for a descriptor fetch. -/
  | dmaReadError (what : DmaRead)
  /-- ACCESS_DISCARD (R51). An access from a requester the BAR location does not accept is discarded, and HPT_DISCARD_CNT is incremented. -/
  | accessDiscard (p : Port) (x : Access)
  /-- REQUEST_TOO_LONG (R399). A BAR request longer than 128 bytes is discarded whole and counted in HPT_SIZE_ERR_CNT. -/
  | requestTooLong (p : Port) (read : Bool)
  /-- PARTIAL_WRITE (R400). A register write whose byte enables do not cover all four bytes is ignored and counted. -/
  | partialWrite (p : Port) (place : BarPlace)
  /-- REGISTER_WRITE (R401). A write to a register with no row of its own is sequenced, range-checked and guarded as applicable. -/
  | registerWrite (p : Port) (pasid : Option Nat) (place : BarPlace) (data : WriteData)
  /-- RC_READ (R6). A read of an RC field returns its value and clears it to its reset value at the read's CSN. -/
  | rcRead (p : Port) (pasid : Option Nat) (req : RegRead)
  /-- LATCHED_LO_READ (R403). A read of a _LO register latches the matching _HI half for the reading port. -/
  | latchedLoRead (p : Port) (off : Nat)
  /-- HPT_INT_STAT_CLEAR (R408). A W1C write to HPT_INT_STAT clears the cause bits written as 1. -/
  | hptIntStatClear (p : Port) (value : Nat)
  /-- SLC_READ (R279). The slice READ command copies a slice entry into SLC_DATA. -/
  | slcRead (p : Port) (slice : Nat)
  /-- SLC_WRITE (R278). The slice WRITE command applies SLC_DATA to an ACTIVE or FROZEN slice under R278. -/
  | slcWrite (p : Port) (slice : Nat)
  /-- SLC_CREATE (R279). The slice CREATE command fills an EMPTY slice entry and makes it ACTIVE or FROZEN. -/
  | slcCreate (p : Port) (slice : Nat)
  /-- UNFREEZE (R288). UNFREEZE makes a FROZEN slice and its FROZEN SQs ACTIVE. -/
  | unfreeze (p : Port) (slice : Nat)
  /-- REMOVE (R289). REMOVE disables a frozen slice's rings, marks its slots PENDING, removes its bindings and empties the entry. -/
  | remove (p : Port) (slice : Nat)
  /-- BIND (R281). BIND binds an ACTIVE owner to a slice. -/
  | bind (p : Port) (slice : Nat)
  /-- UNBIND (R281). UNBIND removes an owner's live or revoked binding to a slice. -/
  | unbind (p : Port) (slice : Nat)
  /-- QUERY (R281). QUERY reports which slice, if any, an owner is bound to. -/
  | query (p : Port)
  /-- IN_POST (R284). A tenant posts its inbound mailbox, which sets IN_FULL and raises MBOX_IN on both ports. -/
  | inPost (p : Port) (slice len : Nat)
  /-- IN_ACK (R284). A manager acknowledges the inbound mailbox, which zeroes it and clears IN_FULL. -/
  | inAck (p : Port)
  /-- OUT_POST (R285). A manager posts the outbound mailbox, which sets OUT_FULL and sends the slice's VEC_BASE message. -/
  | outPost (p : Port) (len : Nat)
  /-- OUT_ACK (R285). The tenant acknowledges the outbound mailbox, which zeroes it and clears OUT_FULL. -/
  | outAck (p : Port) (slice : Nat)
  /-- FREEZE_DRAIN_DONE (R286). Once every SQ of a FREEZING slice has OUTSTANDING 0, the freeze seals the slice's sessions and completes. -/
  | freezeDrainDone (slice : Nat)
  /-- SHARE_EPOCH (R139). A 1 ms share epoch boundary applies new weights and restarts share accounting for cells and tags. -/
  | shareEpoch
  /-- SEGMENT_START (R139). A ready segment with reserved staging starts on a free cell of a block that holds or loads its key. -/
  | segmentStart (tag seg block cell release : Nat)
  /-- KEY_STAGING_LOAD (R140). A block's key-staging load of an expanded key from the key store completes. -/
  | keyStagingLoad (region block tag : Nat) (dst : Bool)
  /-- SEGMENT_VERDICT (R136). A segment's tag verdict is reached: PASS makes its bytes verified, FAIL ends the carriage with TAG_FAIL. -/
  | segmentVerdict (tag seg : Nat)
  /-- CELL_PARITY_ERROR (R145). A round parity error fences the cell and shunts its segment to another cell of the block. -/
  | cellParityError (region block cell newBlock newCell : Nat)
  /-- KSTG_CORRECTED_ERROR (R146). A corrected key-staging ECC error increments KSTG_CE_CNT. -/
  | kstgCorrectedError (region : Nat)
  /-- BLOCK_RETIRE (R146). An uncorrectable key-staging error retires the block and shunts its segments. -/
  | blockRetire (region block : Nat)
  /-- REGION_DEGRADED (R147). An uncorrectable crossbar or staging error makes the region DEGRADED and moves its work to serving regions. -/
  | regionDegraded (region : Nat)
  /-- D2D_RETRY (R20). A die-to-die transfer corrected by retry increments the corrected count. -/
  | d2dRetry (region : Nat)
  /-- D2D_UNDELIVERABLE (R20). A die-to-die transfer that retry cannot deliver is handled as an uncorrectable crossbar error. -/
  | d2dUndeliverable (region : Nat)
  /-- D2D_RETRAIN_TIMEOUT (R20). A die-to-die link not retrained within 1 ms loses the region's media ports until reset. -/
  | d2dRetrainTimeout (region : Nat)
  /-- STRAGGLER_SPILL (R144). A media port becoming a straggler has its waiting ciphertext moved to spill granules. -/
  | stragglerSpill (drive granules : Nat)
  /-- SPECULATIVE_UNWRAP (R166). The device unwraps a fetched RETRIEVE or AUDIT ticket into a free shadow slot. -/
  | speculativeUnwrap (sq pos : Nat) (ticket : Bytes)
  /-- SHADOW_EXPIRY (R168). A shadow slot not admitted within 10 ms of its unwrap is zeroised. -/
  | shadowExpiry (shadow : Nat)
  /-- IDENTIFY (R173). The sideband IDENTIFY exchange returns the expander identity. -/
  | identify (link : Nat) (resp : Option Bytes)
  /-- READ_PRESENCE (R173). The sideband READ_PRESENCE exchange returns the drive presence bitmap. -/
  | readPresence (link : Nat) (resp : Option Bytes)
  /-- SET_POWER (R173). The sideband SET_POWER exchange turns a shelf half on or off. -/
  | setPower (link : Nat) (resp : Option Bytes)
  /-- SET_PERST (R173). The sideband SET_PERST exchange asserts or deasserts PERST# for the masked bays. -/
  | setPerst (link : Nat) (resp : Option Bytes)
  /-- READ_CLKREQ (R173). The sideband READ_CLKREQ exchange returns the drives' CLKREQ# bitmap. -/
  | readClkreq (link : Nat) (resp : Option Bytes)
  /-- READ_STATUS (R173). The sideband READ_STATUS exchange returns power good, fault and temperature. -/
  | readStatus (link : Nat) (resp : Option Bytes)
  /-- READ_EVENTS (R173). The sideband READ_EVENTS exchange returns and clears the target's event latches. -/
  | readEvents (link : Nat) (resp : Option Bytes)
  /-- SET_CLKREQ (R173). The sideband SET_CLKREQ exchange drives the root-side CLKREQ# for the masked bays. -/
  | setClkreq (link : Nat) (resp : Option Bytes)
  /-- SIDEBAND_RETRY (R174). 100 µs after a failed exchange the device retries it; a fourth failure marks the link lost. -/
  | sidebandRetry (link : Nat) (resp : Option Bytes)
  /-- SBN_INT (R175). SBn_INT going low makes READ_EVENTS the next exchange on the link. -/
  | sbnInt (link : Nat)
  /-- KEEPALIVE_POLL (R175). Every 100 ms the device issues READ_STATUS on each link of a powered shelf. -/
  | keepalivePoll (link : Nat)
  /-- SHELF_WAKE_BEGIN (R182). A waiting SHELF_WAKE starts its first step once fewer than MAX_SHELVES shelves are powered. -/
  | shelfWakeBegin (shelf : Nat)
  /-- POWER_GOOD_POLL (R183). During a wake, READ_STATUS is issued every 1 ms until both halves report power good. -/
  | powerGoodPoll (shelf : Nat)
  /-- POWER_GOOD_TIMEOUT (R183). Power good not arriving within 500 ms fails the wake with MEDIA_TIMEOUT. -/
  | powerGoodTimeout (shelf : Nat)
  /-- GROUP_RELEASE (R183). A bay group's PERST# is deasserted after the power-good delay or stagger, once the lane budget can place it. -/
  | groupRelease (shelf : Nat)
  /-- DRIVE_DL_UP (R183). A drive reaching DL_Up is enumerated and NVMe initialisation begins. -/
  | driveDlUp (drive speed : Nat) (topoOk : Bool) (capTo mqes : Nat)
  /-- DL_UP_TIMEOUT (R183). A drive not reaching DL_Up within 100 ms becomes FAILED. -/
  | dlUpTimeout (drive : Nat)
  /-- DRIVE_READY_TIMEOUT (R183). A controller not ready within the readiness limit makes the drive FAILED. -/
  | driveReadyTimeout (drive : Nat)
  /-- DRIVE_INIT (R186). The device initialises a drive's admin queue, namespace check and I/O queues, making it READY or UNUSABLE. -/
  | driveInit (drive : Nat) (report : InitReport)
  /-- SLEEP_DRAIN_DONE (R185). Once earlier carriages on a sleeping shelf have completed, its drives are flushed and shut down. -/
  | sleepDrainDone (shelf : Nat)
  /-- DRIVE_SHUTDOWN_DONE (R185). A drive reports shutdown complete, or its shutdown deadline passes, during SHELF_SLEEP. -/
  | driveShutdownDone (drive : Nat) (reported : Bool)
  /-- PORT_PARK (R179). A media port idle for MDF_IDLE_PARK, or needed for a waiting command, is parked in L1.2. -/
  | portPark (drive : Nat)
  /-- L12_EXIT (R181). A parked media port exits L1.2 to L0 for a waiting command. -/
  | l12Exit (drive : Nat)
  /-- DRIVE_CLKREQ_WAKE (R181). A drive-initiated CLKREQ# assertion brings its port from L1.2 to L0. -/
  | driveClkreqWake (drive : Nat)
  /-- NVME_COMPLETION (R189). A drive completes an NVMe command, successfully or with an error status. -/
  | nvmeCompletion (drive cid status dword0 : Nat) (ret : NvReturn)
  /-- NVME_COMMAND_TIMEOUT (R189). A command with no completion within MDF_CMD_TIMEOUT ends its carriage with MEDIA_TIMEOUT and is aborted. -/
  | nvmeCommandTimeout (drive cid : Nat)
  /-- NVME_ABORT_TIMEOUT (R189). An Abort not answered within 1 s triggers a controller reset. -/
  | nvmeAbortTimeout (drive cid : Nat)
  /-- CONTROLLER_RESET (R190). A controller reset disables and re-initialises a drive, which becomes READY again or FAILED. -/
  | controllerReset (drive : Nat) (cfs : Bool) (report : Option InitReport)
  /-- DRIVE_DMA_BLOCKED (R190). Drive DMA outside its commands' granules is blocked and counted. -/
  | driveDmaBlocked (drive : Nat) (cid : Option Nat)
  /-- DRIVE_LINK_DOWN (R189). A media link going down holds its commands while it retrains. -/
  | driveLinkDown (drive : Nat)
  /-- DRIVE_RETRAIN_TIMEOUT (R189). A media link not retrained within 100 ms makes the drive FAILED and its carriages SHELF_OFFLINE. -/
  | driveRetrainTimeout (drive : Nat)
  /-- ASYNC_EVENT (R187). A drive's asynchronous event is recorded and a new Asynchronous Event Request is issued. -/
  | asyncEvent (drive dword0 : Nat)
  /-- PRESENCE_CHANGE (R192). A removal makes a drive FAILED, and an insertion leaves the new drive OFF. -/
  | presenceChange (drive : Nat) (present : Bool)
  /-- SHELF_DROP (R191). A lost link or power fault drops a shelf: its drives fail, its carriages end SHELF_OFFLINE, and it goes ASLEEP. -/
  | shelfDrop (shelf cause : Nat)
  /-- DRIVE_ADMIN_ISSUE (R188). A waiting DRIVE_ADMIN is issued once earlier carriages on the drive complete and a per-drive place is free. -/
  | driveAdminIssue (tag : Nat)
  /-- REPL_GO (R204). A replace moves a source slot's material into a destination slot and retains the old generation. -/
  | replGo (p : Port)
  /-- RETAINED_EXPIRY (R204). 100 ms after a replace, the retained generation is zeroised and its users complete KEY_ERASED. -/
  | retainedExpiry (slot : Nat)
  /-- ERASE_PENDING_EXPIRY (R206). 100 ms after a PENDING or ORPHANED mark, a slot still in use is zeroised and its users complete KEY_ERASED. -/
  | erasePendingExpiry (slot : Nat)
  /-- TICKET_KEY_EXPIRY (R207). A ticket-keyed carriage not finished 100 ms after its owner's revocation completes KEY_ERASED. -/
  | ticketKeyExpiry (tag : Nat)
  /-- REMASK (R208). The key store re-masks a slot, retained generation or key-staging entry with fresh tender bits. -/
  | remask (slot : Nat)
  /-- MASK_RESERVE_REFILL (R209). The tender refills the key store's mask reserve in the background. -/
  | maskReserveRefill
  /-- LEG_KEY0_WRITE (R212). A write of LEG_KEY0 erases the legacy key register and starts a new load. -/
  | legKey0Write (p : Port) (value : Nat)
  /-- LEG_KEY_WORD_WRITE (R212). A write of LEG_KEY1 to LEG_KEY15 continues a load, or abandons it if out of order. -/
  | legKeyWordWrite (p : Port) (n value : Nat)
  /-- LEG_COMMIT (R212). LEG_COMMIT ends a load and commits the key if the two halves differ. -/
  | legCommit (p : Port) (value : Nat)
  /-- LEGACY_LOAD_TIMEOUT (R212). A load not committed within 1,000 µs of its LEG_KEY0 write is abandoned. -/
  | legacyLoadTimeout
  /-- VAULT_COMMIT (R35). The vault engine journals a change to both vaults, advances the epoch and takes the change's CSN. -/
  | vaultCommit (proposal : Nat) (a b void : ProgResult)
  /-- VAULT_OPEN (R227). The vault opens, recovers its journal, sets its mode and admits the carriages held for it. -/
  | vaultOpen
  /-- VAULT_REBUILD_DONE (R227). A rebuild of a stale or blank vault device completes, and the vault becomes NORMAL. -/
  | vaultRebuildDone
  /-- VAULT_SETTLE (R230). Committed patches are settled into the record area, a SETTLED record is written and journal space is reclaimed. -/
  | vaultSettle
  /-- VAULT_SCRUB (R231). The scrubber rewrites vault pages within each refresh pass. -/
  | vaultScrub (percent : Nat)
  /-- QRM_WINDOW_END (R239). A proposal whose approval window ends without quorum closes. -/
  | qrmWindowEnd (proposal : Nat)
  /-- RESTART (R251). A manager write of RNG_CTRL.RESTART starts the random chain. -/
  | restart (p : Port)
  /-- RESEED (R249). A manager write of RNG_CTRL.RESEED requests a DRBG reseed. -/
  | reseed (p : Port)
  /-- KAT (R253). A manager write of RNG_CTRL.KAT runs the known-answer tests. -/
  | kat (p : Port) (pass : Bool)
  /-- HEALTH_WINDOW_END (R247). The end of a 1,024-sample raw window applies the health tests, and a failure is counted. -/
  | healthWindowEnd (cell : Nat) (samples : List Bool)
  /-- DRBG_INSTANTIATE (R251). After start-up testing, 512 conditioned bits instantiate the DRBG and the chain becomes SEEDED. -/
  | drbgInstantiate
  /-- RNG_START_TIMEOUT (R252). A DRBG not instantiated within 40 ms of the start declares the source failed with CAUSE 3. -/
  | rngStartTimeout
  /-- AUTOMATIC_RESEED (R249). The DRBG reseeds before its 2^20th generate request. -/
  | automaticReseed
  /-- TENDER_FILL (R255). A 64-byte generate request enters the tender and serves the waiting consumers in order. -/
  | tenderFill
  /-- RNG_WAIT_EXPIRY (R256). A consumer not served within RNG_WAIT_MAX completes RNG_NOT_SEEDED, or is skipped as a re-mask. -/
  | rngWaitExpiry
  /-- RNG_AUTO_RESTART (R317). After a class A alarm the random chain restarts once no class A or B source has been active for 100 ms. -/
  | rngAutoRestart
  /-- KEYGEN_KEM (R261). The lattice KEYGEN_KEM command generates an ML-KEM key in a new slot and outputs its encapsulation key. -/
  | keygenKem (p : Port)
  /-- KEYGEN_DSA (R261). The lattice KEYGEN_DSA command generates an ML-DSA key in a new slot and outputs its public key. -/
  | keygenDsa (p : Port)
  /-- PUBKEY (R261). The lattice PUBKEY command outputs the public key of a lattice slot. -/
  | pubkey (p : Port)
  /-- SIGN (R261). The lattice SIGN command makes an ML-DSA-87 signature with a lattice slot. -/
  | sign (p : Port)
  /-- LAT_ABORT (R266). A LAT_ABORT write aborts the port's lattice command, and the unit zeroises its memory. -/
  | latAbort (p : Port)
  /-- LATTICE_OP_DONE (R260). A lattice unit operation completes, and the next queued request starts. -/
  | latticeOpDone
  /-- ANC_LOAD (R268). A trust-anchor LOAD reads the key from host memory and marks the anchor VALID. -/
  | ancLoad (p : Port)
  /-- ANC_CLEAR (R268). A trust-anchor CLEAR makes the anchor invalid. -/
  | ancClear (p : Port)
  /-- MODMUL (R270). The raw MODMUL operation on a privileged channel computes a·b mod n. -/
  | modmul (p : Port)
  /-- MODEXP (R270). The raw MODEXP operation on a privileged channel computes a^e mod n. -/
  | modexp (p : Port)
  /-- ECADD (R270). The raw ECADD operation on a privileged channel adds two curve points. -/
  | ecadd (p : Port)
  /-- ECMUL (R270). The raw ECMUL operation on a privileged channel multiplies a curve point by a scalar. -/
  | ecmul (p : Port)
  /-- BNV_ABORT (R273). A BNV_P_GO.ABORT write aborts the channel's operation and zeroises its operand memory. -/
  | bnvAbort (p : Port)
  /-- BNV_OP_DONE (R272). A big-number channel operation completes and writes its result. -/
  | bnvOpDone (channel : Nat)
  /-- OPERAND_ACCESS (R270). A BAR4 operand memory access to a busy channel reads 0 or is discarded, and is counted in CONFLICT. -/
  | operandAccess (p : Port) (off : Nat) (enables : List Bool) (write : Option (List (Option Byte)))
  /-- UCP_LOCK_ACQUIRE (R274). A read of UCP_LOCK takes the free utility-cipher lock and returns a grant, or returns 0 and may set WAITER. -/
  | ucpLockAcquire (u : UcpUser)
  /-- UCP_LOCK_RELEASE (R274). A write of the holder's ticket to UCP_LOCK releases the lock and zeroises the engine. -/
  | ucpLockRelease (u : UcpUser) (value : Nat)
  /-- UCP_IDLE_EXPIRY (R275). UCP_IDLE ms without an operation releases the utility-cipher lock by force. -/
  | ucpIdleExpiry
  /-- KW_WRAP (R276). The utility-cipher KW_WRAP operation wraps data with AES-KW. -/
  | kwWrap (u : UcpCmd)
  /-- KWP_WRAP (R276). The utility-cipher KWP_WRAP operation wraps data with AES-KWP. -/
  | kwpWrap (u : UcpCmd)
  /-- KWP_UNWRAP (R276). The utility-cipher KWP_UNWRAP operation unwraps AES-KWP data after its integrity check. -/
  | kwpUnwrap (u : UcpCmd)
  /-- CMAC_GEN (R276). The utility-cipher CMAC_GEN operation produces a CMAC tag. -/
  | cmacGen (u : UcpCmd)
  /-- CMAC_VER (R276). The utility-cipher CMAC_VER operation verifies a CMAC tag. -/
  | cmacVer (u : UcpCmd)
  /-- GCM_ENC (R276). The utility-cipher GCM_ENC operation encrypts and tags data with GCM. -/
  | gcmEnc (u : UcpCmd)
  /-- GCM_DEC (R276). The utility-cipher GCM_DEC operation decrypts data once its tag verifies. -/
  | gcmDec (u : UcpCmd)
  /-- GCM_VER (R276). The utility-cipher GCM_VER operation verifies a GCM tag without output. -/
  | gcmVer (u : UcpCmd)
  /-- WATCHDOG_EXPIRY (R304). A world's watchdog expires, the world is failed and it is restarted alone. -/
  | watchdogExpiry (w : World)
  /-- WORLD_EXCEPTION (R304). An unrecoverable processor exception fails its world. -/
  | worldException (w : World)
  /-- MONITOR_CHECK_FAIL (R304). Inconsistent control structures found by the monitor at a world switch fail the world. -/
  | monitorCheckFail (w : World)
  /-- RESTART_COMPLETE (R307). A restarted world starts running, and its restart is recorded and counted. -/
  | restartComplete (w : World)
  /-- RESTART_TIMEOUT (R305). A world restart not complete within 250 ms enters FAULT. -/
  | restartTimeout (w : World)
  /-- GATE_REQUEST (R302). A gate request for a secure-used block is applied, or DEFERRED while an in-use mark is set. -/
  | gateRequest (block : GateBlock)
  /-- UNGATE_REQUEST (R302). An ungate request ungates a block within 5 µs and cancels a deferred gate. -/
  | ungateRequest (block : GateBlock)
  /-- GATE_APPLY (R302). A deferred gate is applied at the CSN at which the block's last in-use mark clears. -/
  | gateApply (block : GateBlock)
  /-- WORK_UNGATE (R302). Work arriving for a gated block ungates it within 20 µs and clears the gate request. -/
  | workUngate (block : GateBlock)
  /-- GATE_LATE (R303). A gate request DEFERRED for 500 ms writes an event record and increments WLD_GATE_LATE. -/
  | gateLate (block : GateBlock)
  /-- BLOCKED_ACCESS (R301). A control-complex access that its page's code forbids is blocked, counted and logged. -/
  | blockedAccess (address : Nat) (write : Bool)
  /-- ASSIGNMENT_CHANGE_REFUSED (R297). A firmware attempt to change a world assignment after boot lock is refused and logged. -/
  | assignmentChangeRefused (w : World)
  /-- LIGHT_DETECT (R312). A light detector firing raises a class A alarm and its erase response. -/
  | lightDetect (photodiode : Bool)
  /-- LIGHT_AGREEMENT_END (R312). 100 µs after a light detection, disagreement is counted and the light alarm records are written. -/
  | lightAgreementEnd
  /-- LOOP_MEASURE (R313). Every 1 ms each enabled tamper loop is measured, and a reading outside 2–50 kΩ raises a class A alarm. -/
  | loopMeasure (loop tenOhms : Nat)
  /-- VOLTAGE_ALARM (R311). A supply outside its threshold raises a class B or advisory class C alarm. -/
  | voltageAlarm (rail : Rail) (millivolts : Nat)
  /-- CLOCK_ALARM (R311). A clock glitch or frequency error raises a class B or advisory class C alarm. -/
  | clockAlarm (cond : ClockCond)
  /-- TEMPERATURE_ALARM (R311). Tj beyond its threshold raises a class B or advisory class C alarm. -/
  | temperatureAlarm (tenths : Int)
  /-- SOURCE_INACTIVE (R311). An alarm source becomes inactive once its condition has been absent for 1 ms. -/
  | sourceInactive (source : Nat) (cls : AlarmClass)
  /-- TMP_RESUME (R316). A manager write of TMP_RESUME restarts the stopped data path if the hold-off is met. -/
  | tmpResume (p : Port)
  /-- TMP_SELFTEST (R312). A secure-world write of TMP_SELFTEST.GO tests the light detectors one at a time. -/
  | tmpSelftest (photodiodesOk canariesOk : Bool)
  /-- BACKUP_ALARM (R322). A class A alarm with main power off zeroises the vault shares and seal value and records itself. -/
  | backupAlarm (source reading : Nat)
  /-- FLUSH (R328). A manager write of EVR_CTRL.FLUSH starts a flush of the event buffer. -/
  | flush (p : Port)
  /-- FLUSH_PERIOD_EXPIRY (R328). EVR_FLUSH_PERIOD after the previous flush start, a flush starts. -/
  | flushPeriodExpiry
  /-- BUFFER_THRESHOLD_FLUSH (R328). The event buffer reaching 128 KiB starts a flush. -/
  | bufferThresholdFlush
  /-- FLUSH_DONE (R329). A flush writes its pages to the vault devices and completes. -/
  | flushDone (aOk bOk : Bool) (page : Nat)
  /-- CURSOR (R332). A write of EVR_CURSOR loads the port's event window from the cursor's SEQ. -/
  | cursor (p : Port) (seq : Nat)
  /-- EVENT_WINDOW_LOADED (R332). An event window load completes and BUSY clears. -/
  | eventWindowLoaded (p : Port)
  /-- TRANS (R339). A life-cycle transition checks, erases the legacy register and starts burning the fuse copies. -/
  | trans (target key : Nat)
  /-- FUSE_BURN_DONE (R339). A transition's fuse burn ends, the vault is locked and PENDING sets. -/
  | fuseBurnDone
  /-- TOKEN_USE (R342). Presenting a test token burns its USED bit and unlocks or enters a TEST state, or counts a failure. -/
  | tokenUse (index : Nat) (token : Bytes)
  /-- DBG_GO (R343). A debug grant request draws tender bytes and places a 64-byte challenge. -/
  | dbgGo (p : Port) (scope : Nat)
  /-- RESP_GO (R344). RESP_GO reads and verifies the signed response and applies the debug scope if it verifies. -/
  | respGo (p : Port)
  /-- CHALLENGE_EXPIRY (R343). A debug challenge expires 600 s after its issue. -/
  | challengeExpiry
  /-- PORST_N_ASSERT (R405). Assertion of PORST_N resets every register and all volatile state. -/
  | porstNAssert
  /-- BOOT (R355). Deassertion of PORST_N runs the boot sequence up to host-ready. -/
  | boot (env : BootEnv)
  /-- STAGE_IMAGE (R361). A stage with TARGET 0 writes a firmware image into the inactive slot and checks it. -/
  | stageImage (p : Port)
  /-- STAGE_MANIFEST (R362). A stage with TARGET 1 checks a manifest and writes copy B, then copy A. -/
  | stageManifest (p : Port)
  /-- STAGE_ABORT (R361). ABORT stops a running stage and leaves the slot without a valid header. -/
  | stageAbort (p : Port)
  /-- STAGE_DONE (R361). A stage completes with STAGE done or failed and its result. -/
  | stageDone (flashOk : Bool)
  /-- ACTIVATION_BARRIER (R364). A pending activation begins at the first time mark at or past ACT_TIME and loads the new image. -/
  | activationBarrier (mark : Nat)
  /-- ACTIVATION_CONFIRM (R365). Once migration is complete, slot control becomes CONFIRMED and ADVANCE_ARB is applied. -/
  | activationConfirm
  /-- ACTIVATION_FALLBACK (R365). A new world failing before confirmation without a migration commit reloads the PREVIOUS slot. -/
  | activationFallback
  /-- TIME (R370). The head sends a TIME mark at each multiple of 1,000 µs of chain time. -/
  | time
  /-- TIME_RECEIVE (R375). A member applying a valid TIME mark steps forward or slews its device time. -/
  | timeReceive (frame : Bytes)
  /-- ASSIGN (R371). A unit with DRB_SEL_IN asserted and no address answers ASSIGN, takes the address and asserts DRB_SEL_OUT. -/
  | assign (frame : Bytes)
  /-- ASSIGN_REPLY (R371). The head receives an ASSIGN_REPLY, records the member and measures its delay. -/
  | assignReply (frame : Bytes) (rho : Nat)
  /-- ASSIGN_TIMEOUT (R371). An ASSIGN unanswered for 20 µs is resent, and the third miss ends enumeration. -/
  | assignTimeout
  /-- DELAY (R374). A member receiving DELAY applies the one-way delay to later TIME marks. -/
  | delay (frame : Bytes)
  /-- BEACON (R370). A member sends its BEACON in its slot once per superframe, and the head records it. -/
  | beacon (frame : Option Bytes)
  /-- BEACON_MISS (R373). Three consecutive missed beacons mark a member absent and reserve its address. -/
  | beaconMiss (address : Nat)
  /-- RESERVATION_EXPIRY (R373). An absent member's address reservation is freed after 3,600 s. -/
  | reservationExpiry (address : Nat)
  /-- JOIN_REQ (R372). An unaddressed unit sends JOIN_REQ in the join slot, and the head answers the first clean one. -/
  | joinReq (frame : Option Bytes)
  /-- RELEASE (R373). A unit named in RELEASE drops its address and deasserts DRB_SEL_OUT. -/
  | release (frame : Bytes)
  /-- CLEAR (R371). CLEAR makes every member drop its address and deassert DRB_SEL_OUT. -/
  | clear (frame : Bytes)
  /-- REENUM (R371). A write of DRB_CTRL.REENUM on a head starts enumeration. -/
  | reenum (p : Port)
  /-- HEAD_START (R377). A starting head enumerates the chain and adopts the largest member time before its first TIME. -/
  | headStart
  /-- HEAD_LOST (R373). A member with no valid TIME for three cycles enters HEAD_LOST and stops beaconing. -/
  | headLost
  /-- FOREIGN_HEAD_FRAME (R378). A head receiving a frame from address 1 that it did not send stops driving and enters CONFLICT. -/
  | foreignHeadFrame (frame : Bytes)
  /-- MEM_RETRAIN (R381). A channel whose DQS drift exceeds 3 % of a unit interval is retrained. -/
  | memRetrain (channel : Nat)
  /-- MEM_LINE_ERROR (R384). An LPDDR5X line failing its MAC or ECC is handled by the region that holds it. -/
  | memLineError (line : Nat) (mac : Bool)
  /-- MEM_CONFIG_FAULT (R381). LPDDR5X packages that differ, are absent or fail training send the device to FAULT after host-ready. -/
  | memConfigFault
  /-- GOV_INTERVAL (R388). Every 100 µs the governor recomputes limits and moves each region by at most one step. -/
  | govInterval (power : Nat) (projection : List Nat) (readings : List GovReading)
  /-- THERMAL_STEP (R390). The thermal step falls every 10 ms at or above 100 °C and rises every 100 ms below 95 °C. -/
  | thermalStep (tenths : Int)
  /-- AVS_TIMEOUT (R421). A regulator silent for 10 ms holds every region at its step and writes a GOV_CLAMP record. -/
  | avsTimeout
  /-- GOV_DORM (R393). A Dormant request is refused or accepted, and an accepted one stops taking entries and sets READY. -/
  | govDorm (p : Port) (key : Nat)
  /-- DORMANT_ENTRY (R393). Once both links are down, the device closes proposals, seals slots, flushes events and gates its core. -/
  | dormantEntry
  /-- DORMANT_LAPSE (R393). A Dormant request whose links are not down within 10 s lapses, and taking resumes. -/
  | dormantLapse
  /-- WAKE_FROM_DORMANT (R394). PERST deassertion in Dormant ungates the core, restores slots and the CSN, and restarts the random chain. -/
  | wakeFromDormant (p : Port)
  /-- PFAIL_ASSERT (R395). PFAIL_N assertion stops new flash work, starts a flush and drops every region to step 0. -/
  | pfailAssert
  /-- PFAIL_DEASSERT (R395). PFAIL_N deassertion with rails intact restores HW_LIMIT and releases deferred work. -/
  | pfailDeassert
  /-- VDD_AON_SWITCH (R397). VDD_AON switches between its main feed and VBAT as the main feed falls or recovers. -/
  | vddAonSwitch (mainFeed : Bool)
  /-- FAULT_ENTRY (R19). A chip-level fatal error enters FAULT, completes every carriage INTERNAL_FAULT and flushes the event recorder. -/
  | faultEntry (cause : Nat)
  /-- UCP_OP_DONE (R276). A utility-cipher operation completes, writes its outputs, clears BUSY and restarts the UCP_IDLE count. -/
  | ucpOpDone
  /-- SEGMENT_ENCRYPTED (R135). A cell finishes encrypting an INGEST or REKEY destination segment, and the region issues its NVMe Writes with FUA. -/
  | segmentEncrypted (tag seg : Nat)
  /-- HOST_DMA_READ_DONE (R52). A device DMA read of a descriptor, fragment table, ticket, record or source data completes successfully, and the data it returns is used. -/
  | hostDmaReadDone (what : DmaRead) (data : Bytes)
  /-- CONFIG_REQUEST (R49). A PCIe configuration request reaches a host port and is answered with CRS before host-ready, or served afterwards. -/
  | configRequest (p : Port) (off : Nat) (write : Option Nat)
  /-- DEBUG_HALT (R310). A debugger holding an invasive enable halts a world, which enters HALTED and pauses its watchdog. -/
  | debugHalt (w : World)
  /-- DEBUG_RESUME (R310). A debugger resumes a halted world, which runs again and restarts its watchdog. -/
  | debugResume (w : World)
  /-- DRIVE_LINK_RETRAINED (R189). A media link that went down retrains within 100 ms, and its held commands resume. -/
  | driveLinkRetrained (drive speed : Nat)
  /-- HOST_LINK_DL_UP (R48). A host link finishes training and reaches DL_Up, which sets HPT_LINK and starts the 10 ms CRS interval before host-ready. -/
  | hostLinkDlUp (p : Port) (flit : Bool) (width speed : Nat)
  /-- SLEW_END (R375). A member's half-rate slew brings e to 0, and the member leaves SLEWING. -/
  | slewEnd
deriving DecidableEq, Repr

end Sys2Proof
end

