-- ==== Sys2Proof/Decode.lean ====
section
/-! DEFINITION. The block's commands have no binary encoding: the spec's table gives no row any bits. -/
namespace Sys2Proof

/-- The command that a word spells by the table's bits: none, because no row of the table has bits. -/
def decodeTableWord (_nbits _w : Nat) : Option Instr := none

end Sys2Proof
end

