-- ==== Sys2Proof/Machine/Flags.lean ====
section
/-! DEFINITION. Status codes of completions (R11), the flags of a completion entry (R88), and the causes of interrupts,
FAULT and legacy-register events. -/
namespace Sys2Proof.Machine

/-- Completion status codes (R11). -/
def stDone : Nat := 0x00
/-- A segment failed GCM verification. -/
def stTagFail : Nat := 0x10
/-- A train trailer was missing, malformed or inconsistent. -/
def stTrailerBad : Nat := 0x11
/-- The write session's counter is exhausted. -/
def stNonceExhausted : Nat := 0x12
/-- The key reference names no valid slot or owner. -/
def stKeyNotFound : Nat := 0x20
/-- The key was zeroised while the carriage used it. -/
def stKeyErased : Nat := 0x21
/-- The key's owner was revoked before admission. -/
def stParentRevoked : Nat := 0x22
/-- The attributes forbid this use. -/
def stKeyAttrDenied : Nat := 0x23
/-- The handle's generation is older than the slot's. -/
def stKeyGenStale : Nat := 0x24
/-- A drive reported an error. -/
def stMediaError : Nat := 0x30
/-- A drive did not answer in time. -/
def stMediaTimeout : Nat := 0x31
/-- The target shelf or drive is not awake. -/
def stShelfOffline : Nat := 0x32
/-- Reserved opcode, reserved bit or field out of range. -/
def stFormatError : Nat := 0x40
/-- The buffer reference or fragment table is invalid. -/
def stFragmentError : Nat := 0x41
/-- The submitter lacks the right. -/
def stAccessDenied : Nat := 0x42
/-- The ring's slice was frozen before the carriage ran. -/
def stRingFrozen : Nat := 0x43
/-- Aborted on request. -/
def stAborted : Nat := 0x50
/-- An alarm erased the key in use. -/
def stAlarmAbort : Nat := 0x51
/-- Random data was not available in time. -/
def stRngNotSeeded : Nat := 0x60
/-- The noise source was declared failed. -/
def stRngFailed : Nat := 0x61
/-- The proposal awaits further approvals. -/
def stQuorumPending : Nat := 0x70
/-- The approval window closed without quorum. -/
def stQuorumExpired : Nat := 0x71
/-- An approval or the proposal was invalid. -/
def stQuorumRejected : Nat := 0x72
/-- The signature did not verify. -/
def stVerifyReject : Nat := 0x80
/-- The public key is invalid. -/
def stVerifyBadKey : Nat := 0x81
/-- An operand was out of range. -/
def stVerifyBadInput : Nat := 0x82
/-- The device entered FAULT. -/
def stInternalFault : Nat := 0xF0
/-- A degraded resource cannot serve the carriage. -/
def stDegradedRefused : Nat := 0xF1
/-- The secure world restarted during a mediated carriage. -/
def stSecureRestarted : Nat := 0xF2

/-- The flag bits of a completion entry's byte 6 (R88): SCRUBBED, REPLAYED, DEGRADED; SIDING is set at placement. -/
def cqeFlags (scrubbed replayed degraded : Bool) : Nat :=
  (if scrubbed then 0x10 else 0) + (if replayed then 0x20 else 0) + (if degraded then 0x80 else 0)

end Sys2Proof.Machine
end

