-- ==== Sys2Proof/Machine/Bits.lean ====
section
/-! DEFINITION. Bit fields, byte order and saturating counts: the helpers of every layout of the spec. -/
namespace Sys2Proof.Machine

/-- The little-endian value of a byte string (R4). -/
def leNat : Bytes → Nat
  | [] => 0
  | b :: bs => b.toNat + 256 * leNat bs

/-- The `n`-byte little-endian string of a value (R4). -/
def natLe : Nat → Nat → Bytes
  | 0, _ => []
  | n + 1, x => BitVec.ofNat 8 x :: natLe n (x / 256)

/-- The big-endian value of a byte string, the order the cryptographic standards use. -/
def beNat (bs : Bytes) : Nat := leNat bs.reverse

/-- The `n`-byte big-endian string of a value. -/
def natBe (n x : Nat) : Bytes := (natLe n x).reverse

/-- Bytes `off` to `off + n - 1`. -/
def sub (bs : Bytes) (off n : Nat) : Bytes := (bs.drop off).take n

/-- The little-endian field of `n` bytes at `off`. -/
def fld (bs : Bytes) (off n : Nat) : Nat := leNat (sub bs off n)

/-- Bits `lo` to `lo + n - 1` of a value (LSB0). -/
def bits (x lo n : Nat) : Nat := x / 2 ^ lo % 2 ^ n

/-- Bit `i` of a value. -/
def bit (x i : Nat) : Bool := bits x i 1 == 1

/-- One bit as a number. -/
def b2n (b : Bool) : Nat := if b then 1 else 0

/-- Every byte of the string is 0. -/
def allZero (bs : Bytes) : Bool := bs.all (· == 0)

/-- `n` zero bytes. -/
def zeros (n : Nat) : Bytes := List.replicate n 0

/-- A count of `w` bits after `k` more events, saturating. -/
def satAdd (w x k : Nat) : Nat := if x + k < 2 ^ w then x + k else 2 ^ w - 1

/-- A count of `w` bits after one more event, saturating. -/
def satInc (w x : Nat) : Nat := satAdd w x 1

/-- A value held to the nearer bound of `lo` to `hi`. -/
def clamp (lo hi x : Nat) : Nat := if x < lo then lo else if hi < x then hi else x

/-- The least whole number of `d`-sized pieces that hold `n`. -/
def ceilDiv (n d : Nat) : Nat := (n + d - 1) / d

/-- Byte-wise exclusive or. -/
def xorBytes (x y : Bytes) : Bytes := List.zipWith (· ^^^ ·) x y

/-- The string cut to `n` bytes or filled with 0 up to `n`. -/
def padTo (n : Nat) (bs : Bytes) : Bytes := (bs ++ zeros (n - bs.length)).take n

/-- The string with bytes `off` onward replaced by `new`. -/
def splice (bs : Bytes) (off : Nat) (new : Bytes) : Bytes :=
  bs.take off ++ new ++ bs.drop (off + new.length)

/-- The string in pieces of `n` bytes, the last one shorter; `fuel` bounds the number of pieces. -/
def chunksFuel : Nat → Nat → Bytes → List Bytes
  | 0, _, _ => []
  | k + 1, n, bs => if bs.isEmpty then [] else bs.take n :: chunksFuel k n (bs.drop n)

/-- The string in pieces of `n` bytes, the last one shorter. -/
def chunks (n : Nat) (bs : Bytes) : List Bytes := chunksFuel bs.length n bs

end Sys2Proof.Machine
end

