-- ==== Sys2Proof/Machine/Crypto.lean ====
section
/-! DEFINITION. The ciphers and hashes that the spec names by their standards: AES-256 (FIPS 197), GCM (SP 800-38D), XTS (SP
800-38E), KW and KWP (SP 800-38F), CMAC (SP 800-38B), SHA3-256 (FIPS 202), SHA-384 (FIPS 180-4), and the three checksums.
SHA-256, SHA-512, SHA3-512 and SHAKE are those that the signature schemes are built on. The standards are outside the spec:
their arithmetic here is PRESUMED (log entry 6). -/
namespace Sys2Proof.Machine

/-! ## AES-256 -/

/-- Doubling in GF(2^8), modulus 0x11B. -/
def xtime (x : Byte) : Byte := if x.getLsbD 7 then (x <<< 1) ^^^ 0x1B else x <<< 1

/-- Product in GF(2^8), over the low `n` bits of `y`. -/
def gmulBits : Nat → Byte → Byte → Byte
  | 0, _, _ => 0
  | n + 1, x, y => (if y.getLsbD 0 then x else 0) ^^^ gmulBits n (xtime x) (y >>> 1)

/-- Product in GF(2^8). -/
def gmul (x y : Byte) : Byte := gmulBits 8 x y

/-- `x` to the power `2^n`. -/
def gsq : Nat → Byte → Byte
  | 0, x => x
  | n + 1, x => gsq n (gmul x x)

/-- Inverse in GF(2^8), 0 for 0: the power 254. -/
def ginv (x : Byte) : Byte := (List.range 7).foldl (fun acc i => gmul acc (gsq (i + 1) x)) 1

/-- The S-box of FIPS 197: the inverse, then the affine map. -/
def subByte (x : Byte) : Byte :=
  let y := ginv x
  y ^^^ y.rotateLeft 1 ^^^ y.rotateLeft 2 ^^^ y.rotateLeft 3 ^^^ y.rotateLeft 4 ^^^ 0x63

/-- The S-box as a table. -/
@[irreducible] def sboxTable : Array Byte := Array.ofFn (n := 256) (fun i => subByte (BitVec.ofNat 8 i.val))

/-- The inverse S-box as a table. -/
@[irreducible] def invSboxTable : Array Byte :=
  (List.range 256).foldl (fun t i => t.set! (sboxTable[i]!).toNat (BitVec.ofNat 8 i)) (Array.replicate 256 0)

/-- The S-box by table. -/
def sbox (x : Byte) : Byte := sboxTable[x.toNat]!

/-- The inverse S-box by table. -/
def invSbox (x : Byte) : Byte := invSboxTable[x.toNat]!

/-- The key schedule: `n` more words after the words so far (newest first, `i` of them). -/
def expandWords : Nat → Nat → List Bytes → List Bytes
  | 0, _, ws => ws
  | n + 1, i, ws =>
    let prev := ws.headD []
    let temp :=
      if i % 8 = 0 then
        xorBytes ((prev.drop 1 ++ prev.take 1).map sbox) [gsqPow (i / 8 - 1), 0, 0, 0]
      else if i % 8 = 4 then prev.map sbox else prev
    expandWords n (i + 1) (xorBytes (ws.getD 7 []) temp :: ws)
where
  /-- The round constant: 2 to the power `j` in GF(2^8). -/
  gsqPow (j : Nat) : Byte := (List.range j).foldl (fun x _ => xtime x) 1

/-- The fifteen 16-byte round keys of AES-256. -/
def roundKeys (key : Bytes) : List Bytes :=
  let ws := (expandWords 52 8 ((chunks 4 (padTo 32 key)).reverse)).reverse
  chunks 16 ws.flatten

/-- The row shift of a 16-byte state in column order. -/
def shiftRows (s : Bytes) : Bytes := [0, 5, 10, 15, 4, 9, 14, 3, 8, 13, 2, 7, 12, 1, 6, 11].map (s.getD · 0)

/-- The inverse row shift. -/
def invShiftRows (s : Bytes) : Bytes := [0, 13, 10, 7, 4, 1, 14, 11, 8, 5, 2, 15, 12, 9, 6, 3].map (s.getD · 0)

/-- One column times a circulant row `r`. -/
def mixColumn (r : List Byte) (c : Bytes) : Bytes :=
  (List.range 4).map (fun i => (List.range 4).foldl (fun acc j => acc ^^^ gmul (r.getD ((j + 4 - i) % 4) 0) (c.getD j 0)) 0)

/-- Column mixing. -/
def mixColumns (r : List Byte) (s : Bytes) : Bytes := ((chunks 4 s).map (mixColumn r)).flatten

/-- AES-256 encryption of one 16-byte block under expanded round keys. -/
def aesEncRk (rks : List Bytes) (blk : Bytes) : Bytes :=
  let s0 := xorBytes blk (rks.getD 0 [])
  let s := (List.range 13).foldl
    (fun s i => xorBytes (mixColumns [2, 3, 1, 1] (shiftRows (s.map sbox))) (rks.getD (i + 1) [])) s0
  xorBytes (shiftRows (s.map sbox)) (rks.getD 14 [])

/-- AES-256 decryption of one 16-byte block under expanded round keys. -/
def aesDecRk (rks : List Bytes) (blk : Bytes) : Bytes :=
  let s0 := (invShiftRows (xorBytes blk (rks.getD 14 []))).map invSbox
  let s := (List.range 13).foldl
    (fun s i => (invShiftRows (mixColumns [14, 11, 13, 9] (xorBytes s (rks.getD (13 - i) [])))).map invSbox) s0
  xorBytes s (rks.getD 0 [])

/-- AES-256 encryption of one block. -/
@[irreducible] def aesEnc (key blk : Bytes) : Bytes := aesEncRk (roundKeys key) (padTo 16 blk)

/-- AES-256 decryption of one block. -/
@[irreducible] def aesDec (key blk : Bytes) : Bytes := aesDecRk (roundKeys key) (padTo 16 blk)

/-! ## GCM -/

/-- Product in GF(2^128) with GCM's bit order: bit 127 of the number is the leading coefficient's place 0. -/
def ghashMulFuel : Nat → Nat → Nat → Nat → Nat
  | 0, _, _, acc => acc
  | n + 1, x, v, acc =>
    ghashMulFuel n x (if v % 2 = 1 then (v / 2) ^^^ (0xE1 * 2 ^ 120) else v / 2)
      (if x.testBit n then acc ^^^ v else acc)

/-- Product of two GHASH blocks. -/
def ghashMul (x y : Nat) : Nat := ghashMulFuel 128 x y 0

/-- GHASH over 16-byte blocks, the last one filled with 0. -/
def ghashBlocks (h : Nat) (acc : Nat) (data : Bytes) : Nat :=
  (chunks 16 data).foldl (fun y b => ghashMul (y ^^^ beNat (padTo 16 b)) h) acc

/-- GHASH of additional data and ciphertext with their length block. -/
def ghash (h : Nat) (aad ct : Bytes) : Nat :=
  ghashBlocks h (ghashBlocks h (ghashBlocks h 0 aad) ct) (natBe 8 (8 * aad.length) ++ natBe 8 (8 * ct.length))

/-- The counter-mode stream of GCM from pre-counter block IV ‖ 1 (R127): block `i` uses counter `i + 2`. -/
def gcmStream (rks : List Bytes) (iv : Bytes) (data : Bytes) : Bytes :=
  ((chunks 16 data).zipIdx.map (fun (b, i) => xorBytes b (aesEncRk rks (iv ++ natBe 4 (i + 2))))).flatten

/-- The GCM tag of additional data and ciphertext (R127). -/
@[irreducible] def gcmTag (key iv aad ct : Bytes) : Bytes :=
  let rks := roundKeys key
  let h := beNat (aesEncRk rks (zeros 16))
  xorBytes (natBe 16 (ghash h aad ct)) (aesEncRk rks (iv ++ natBe 4 1))

/-- GCM's counter-mode pass, the same for both directions. -/
@[irreducible] def gcmCrypt (key iv data : Bytes) : Bytes := gcmStream (roundKeys key) iv data

/-! ## XTS, CMAC, KW and KWP -/

/-- Doubling of an XTS tweak, a little-endian number, modulus 2^128 + 0x87. -/
def xtsDouble (t : Nat) : Nat := if t.testBit 127 then (2 * t % 2 ^ 128) ^^^ 0x87 else 2 * t

/-- The XTS pass over a unit's blocks; `op` is the block cipher's direction. -/
def xtsBlocks (op : Bytes → Bytes) : Nat → List Bytes → Bytes
  | _, [] => []
  | t, b :: bs => xorBytes (op (xorBytes b (natLe 16 t))) (natLe 16 t) ++ xtsBlocks op (xtsDouble t) bs

/-- XTS of one data unit under key 1 and key 2 with its tweak (R134). -/
@[irreducible] def xtsUnit (enc : Bool) (key1 key2 : Bytes) (tweak : Nat) (data : Bytes) : Bytes :=
  let t0 := leNat (aesEncRk (roundKeys key2) (natLe 16 tweak))
  let rks := roundKeys key1
  xtsBlocks (if enc then aesEncRk rks else aesDecRk rks) t0 (chunks 16 data)

/-- Doubling of a CMAC subkey, a big-endian number. -/
def cmacDouble (x : Nat) : Nat := if x.testBit 127 then (2 * x % 2 ^ 128) ^^^ 0x87 else 2 * x

/-- The AES-256 CMAC of a message. -/
@[irreducible] def cmac (key msg : Bytes) : Bytes :=
  let rks := roundKeys key
  let k1 := cmacDouble (beNat (aesEncRk rks (zeros 16)))
  let k2 := cmacDouble k1
  let n := (ceilDiv msg.length 16) - 1
  let last := msg.drop (16 * n)
  let lastBlk := if last.length = 16 then xorBytes last (natBe 16 k1) else xorBytes (padTo 16 (last ++ [0x80])) (natBe 16 k2)
  let y := (chunks 16 (msg.take (16 * n))).foldl (fun y b => aesEncRk rks (xorBytes y b)) (zeros 16)
  aesEncRk rks (xorBytes y lastBlk)

/-- The wrapping function W of SP 800-38F over 8-byte semiblocks: integrity half and the rest. -/
def kwSteps (rks : List Bytes) (n : Nat) : Nat → Nat → Bytes → List Bytes → Bytes × List Bytes
  | 0, _, a, r => (a, r)
  | k + 1, t, a, r =>
    let i := (t - 1) % n
    let b := aesEncRk rks (a ++ r.getD i [])
    kwSteps rks n k (t + 1) (xorBytes (b.take 8) (natBe 8 t)) (r.set i (b.drop 8))

/-- The inverse of `kwSteps`, from step `t` down. -/
def kwUnsteps (rks : List Bytes) (n : Nat) : Nat → Bytes → List Bytes → Bytes × List Bytes
  | 0, a, r => (a, r)
  | t + 1, a, r =>
    let i := t % n
    let b := aesDecRk rks (xorBytes a (natBe 8 (t + 1)) ++ r.getD i [])
    kwUnsteps rks n t (b.take 8) (r.set i (b.drop 8))

/-- W of SP 800-38F: wraps `data`, a multiple of 8 bytes, under the integrity value `icv`. -/
def kwCore (key icv data : Bytes) : Bytes :=
  let r := chunks 8 data
  let (a, r') := kwSteps (roundKeys key) r.length (6 * r.length) 1 icv r
  a ++ r'.flatten

/-- W inverse: the integrity value and the data. -/
def kwUncore (key ct : Bytes) : Bytes × Bytes :=
  let r := chunks 8 (ct.drop 8)
  let (a, r') := kwUnsteps (roundKeys key) r.length (6 * r.length) (ct.take 8) r
  (a, r'.flatten)

/-- AES-KW wrap. -/
@[irreducible] def kwWrap (key data : Bytes) : Bytes := kwCore key (List.replicate 8 0xA6) data

/-- AES-KW unwrap: the data where the integrity check holds. -/
@[irreducible] def kwUnwrap (key ct : Bytes) : Option Bytes :=
  if ct.length % 8 = 0 ∧ 24 ≤ ct.length then
    let (a, d) := kwUncore key ct
    if a = List.replicate 8 0xA6 then some d else none
  else none

/-- AES-KWP wrap. -/
@[irreducible] def kwpWrap (key data : Bytes) : Bytes :=
  let icv : Bytes := [0xA6, 0x59, 0x59, 0xA6] ++ natBe 4 data.length
  let p := padTo (8 * ceilDiv data.length 8) data
  if p.length = 8 then aesEncRk (roundKeys key) (icv ++ p) else kwCore key icv p

/-- AES-KWP unwrap: the data where every integrity check holds. -/
@[irreducible] def kwpUnwrap (key ct : Bytes) : Option Bytes :=
  if ct.length % 8 = 0 ∧ 16 ≤ ct.length then
    let (a, d) :=
      if ct.length = 16 then
        let b := aesDecRk (roundKeys key) ct
        (b.take 8, b.drop 8)
      else kwUncore key ct
    let n := beNat (a.drop 4)
    if a.take 4 = [0xA6, 0x59, 0x59, 0xA6] ∧ ceilDiv n 8 * 8 = d.length ∧ allZero (d.drop n) then some (d.take n) else none
  else none

/-! ## SHA3-256 and SHA-384 -/

/-- The rotation of Keccak's lane (x, y), from the walk of its definition. -/
def keccakRot (x y : Nat) : Nat :=
  if x = 0 ∧ y = 0 then 0
  else ((List.range 24).foldl
    (fun (p : Nat × Nat × Nat) t =>
      let (cx, cy, r) := p
      (cy, (2 * cx + 3 * cy) % 5, if cx = x ∧ cy = y then ((t + 1) * (t + 2) / 2) % 64 else r)) (1, 0, 0)).2.2

/-- The bit stream of Keccak's round constants: bit `t`. -/
def keccakRc (t : Nat) : Bool :=
  ((List.range (t % 255)).foldl
    (fun r _ => let r2 := 2 * r; if r2.testBit 8 then (r2 ^^^ 0x171) % 256 else r2) 1).testBit 0

/-- Keccak's round constant of round `i`. -/
def keccakRoundConst (i : Nat) : BitVec 64 :=
  (List.range 7).foldl (fun c j => if keccakRc (7 * i + j) then c ^^^ (1#64 <<< (2 ^ j - 1)) else c) 0

/-- One round of Keccak-f[1600] over 25 lanes, lane (x, y) at place x + 5y. -/
def keccakRound (a : List (BitVec 64)) (i : Nat) : List (BitVec 64) :=
  let c := (List.range 5).map (fun x => (List.range 5).foldl (fun acc y => acc ^^^ a.getD (x + 5 * y) 0) 0)
  let d := (List.range 5).map (fun x => c.getD ((x + 4) % 5) 0 ^^^ (c.getD ((x + 1) % 5) 0).rotateLeft 1)
  let th := (List.range 25).map (fun k => a.getD k 0 ^^^ d.getD (k % 5) 0)
  let b := (List.range 25).map (fun k =>
    let y' := k / 5; let x' := k % 5
    let x := (x' + 3 * y') % 5
    (th.getD (x + 5 * x') 0).rotateLeft (keccakRot x x'))
  let ch := (List.range 25).map (fun k =>
    let y := k / 5; let x := k % 5
    b.getD k 0 ^^^ (~~~(b.getD ((x + 1) % 5 + 5 * y) 0) &&& b.getD ((x + 2) % 5 + 5 * y) 0))
  (List.range 25).map (fun k => if k = 0 then ch.getD 0 0 ^^^ keccakRoundConst i else ch.getD k 0)

/-- Keccak-f[1600]. -/
def keccakF (a : List (BitVec 64)) : List (BitVec 64) := (List.range 24).foldl keccakRound a

/-- The sponge of Keccak[1600] (FIPS 202): `n` blocks of output at the rate of `r` bytes, the message closed by the suffix
byte. -/
def sponge (r : Nat) (suffix : Byte) (msg : Bytes) (n : Nat) : Bytes :=
  let k := r - msg.length % r
  let pad : Bytes := if k = 1 then [suffix ^^^ 0x80] else [suffix] ++ zeros (k - 2) ++ [0x80]
  let st := (chunks r (msg ++ pad)).foldl
    (fun a blk => keccakF ((List.range 25).map (fun j =>
      a.getD j 0 ^^^ (if 8 * j < r then BitVec.ofNat 64 (fld blk (8 * j) 8) else 0)))) (List.replicate 25 0)
  ((List.range n).foldl (fun (x : Bytes × List (BitVec 64)) _ =>
    (x.1 ++ (((x.2.take (r / 8)).map (fun l => natLe 8 l.toNat)).flatten), keccakF x.2)) ([], st)).1

/-- SHA3-256 of a byte string. -/
@[irreducible] def sha3_256 (msg : Bytes) : Bytes := (sponge 136 0x06 msg 1).take 32

/-- SHA3-512 of a byte string. -/
@[irreducible] def sha3_512 (msg : Bytes) : Bytes := (sponge 72 0x06 msg 1).take 64

/-- `n` bytes of SHAKE128 over a byte string. -/
@[irreducible] def shake128 (msg : Bytes) (n : Nat) : Bytes := (sponge 168 0x1F msg (ceilDiv n 168)).take n

/-- `n` bytes of SHAKE256 over a byte string. -/
@[irreducible] def shake256 (msg : Bytes) (n : Nat) : Bytes := (sponge 136 0x1F msg (ceilDiv n 136)).take n

/-- The largest number of `bits` bits whose `e`-th power is at most `n`. -/
def intRoot (e n : Nat) : Nat → Nat → Nat
  | 0, acc => acc
  | k + 1, acc => intRoot e n k (if (acc + 2 ^ k) ^ e ≤ n then acc + 2 ^ k else acc)

/-- The first `n` primes from `from` on, by trial division. -/
def primesFuel : Nat → Nat → Nat → List Nat
  | 0, _, _ => []
  | _, 0, _ => []
  | k + 1, n + 1, p =>
    if (List.range (p - 2)).all (fun d => p % (d + 2) != 0) then p :: primesFuel k n (p + 1) else primesFuel k (n + 1) (p + 1)

/-- The round constants of SHA-384: fractions of cube roots of the first 80 primes. -/
@[irreducible] def sha512K : List (BitVec 64) := (primesFuel 500 80 2).map (fun p => BitVec.ofNat 64 (intRoot 3 (p * 2 ^ 192) 68 0))

/-- The start value of SHA-384: fractions of square roots of the ninth to sixteenth primes. -/
@[irreducible] def sha384H0 : List (BitVec 64) := ((primesFuel 500 16 2).drop 8).map (fun p => BitVec.ofNat 64 (intRoot 2 (p * 2 ^ 128) 68 0))

/-- The message schedule of one block: `n` more words (newest first). -/
def sha512Sched : Nat → List (BitVec 64) → List (BitVec 64)
  | 0, w => w
  | n + 1, w =>
    let x := w.getD 1 0; let y := w.getD 14 0
    let s1 := x.rotateRight 19 ^^^ x.rotateRight 61 ^^^ (x >>> 6)
    let s0 := y.rotateRight 1 ^^^ y.rotateRight 8 ^^^ (y >>> 7)
    sha512Sched n ((s1 + w.getD 6 0 + s0 + w.getD 15 0) :: w)

/-- One round over the working variables a to h. -/
def sha512Round (v : List (BitVec 64)) (kw : BitVec 64) : List (BitVec 64) :=
  let g := fun i => v.getD i 0
  let e := g 4; let a := g 0
  let t1 := g 7 + (e.rotateRight 14 ^^^ e.rotateRight 18 ^^^ e.rotateRight 41) + ((e &&& g 5) ^^^ (~~~e &&& g 6)) + kw
  let t2 := (a.rotateRight 28 ^^^ a.rotateRight 34 ^^^ a.rotateRight 39) + ((a &&& g 1) ^^^ (a &&& g 2) ^^^ (g 1 &&& g 2))
  [t1 + t2, a, g 1, g 2, g 3 + t1, e, g 5, g 6]

/-- SHA-512's compression over a padded message from a start value (FIPS 180-4). -/
def sha512Core (h0 : List (BitVec 64)) (msg : Bytes) : Bytes :=
  let pad := [(0x80 : Byte)] ++ zeros ((239 - msg.length % 128) % 128) ++ natBe 16 (8 * msg.length)
  let st := (chunks 128 (msg ++ pad)).foldl
    (fun h blk =>
      let w := (sha512Sched 64 ((chunks 8 blk).map (fun b => BitVec.ofNat 64 (beNat b))).reverse).reverse
      List.zipWith (· + ·) h ((List.zipWith (· + ·) sha512K w).foldl sha512Round h)) h0
  (st.map (fun x => natBe 8 x.toNat)).flatten

/-- SHA-384 of a byte string. -/
@[irreducible] def sha384 (msg : Bytes) : Bytes := (sha512Core sha384H0 msg).take 48

/-- The start value of SHA-512: fractions of square roots of the first eight primes. -/
@[irreducible] def sha512H0 : List (BitVec 64) := (primesFuel 500 8 2).map (fun p => BitVec.ofNat 64 (intRoot 2 (p * 2 ^ 128) 68 0))

/-- SHA-512 of a byte string. -/
@[irreducible] def sha512 (msg : Bytes) : Bytes := sha512Core sha512H0 msg

/-- The round constants of SHA-256: fractions of cube roots of the first 64 primes. -/
@[irreducible] def sha256K : List (BitVec 32) := (primesFuel 500 64 2).map (fun p => BitVec.ofNat 32 (intRoot 3 (p * 2 ^ 96) 36 0))

/-- The start value of SHA-256: fractions of square roots of the first eight primes. -/
@[irreducible] def sha256H0 : List (BitVec 32) := (primesFuel 500 8 2).map (fun p => BitVec.ofNat 32 (intRoot 2 (p * 2 ^ 64) 36 0))

/-- SHA-256's message schedule: `n` more words (newest first). -/
def sha256Sched : Nat → List (BitVec 32) → List (BitVec 32)
  | 0, w => w
  | n + 1, w =>
    let x := w.getD 1 0; let y := w.getD 14 0
    let s1 := x.rotateRight 17 ^^^ x.rotateRight 19 ^^^ (x >>> 10)
    let s0 := y.rotateRight 7 ^^^ y.rotateRight 18 ^^^ (y >>> 3)
    sha256Sched n ((s1 + w.getD 6 0 + s0 + w.getD 15 0) :: w)

/-- One round of SHA-256 over the working variables a to h. -/
def sha256Round (v : List (BitVec 32)) (kw : BitVec 32) : List (BitVec 32) :=
  let g := fun i => v.getD i 0
  let e := g 4; let a := g 0
  let t1 := g 7 + (e.rotateRight 6 ^^^ e.rotateRight 11 ^^^ e.rotateRight 25) + ((e &&& g 5) ^^^ (~~~e &&& g 6)) + kw
  let t2 := (a.rotateRight 2 ^^^ a.rotateRight 13 ^^^ a.rotateRight 22) + ((a &&& g 1) ^^^ (a &&& g 2) ^^^ (g 1 &&& g 2))
  [t1 + t2, a, g 1, g 2, g 3 + t1, e, g 5, g 6]

/-- SHA-256 of a byte string. -/
@[irreducible] def sha256 (msg : Bytes) : Bytes :=
  let pad := [(0x80 : Byte)] ++ zeros ((119 - msg.length % 64) % 64) ++ natBe 8 (8 * msg.length)
  let st := (chunks 64 (msg ++ pad)).foldl
    (fun h blk =>
      let w := (sha256Sched 48 ((chunks 4 blk).map (fun b => BitVec.ofNat 32 (beNat b))).reverse).reverse
      List.zipWith (· + ·) h ((List.zipWith (· + ·) sha256K w).foldl sha256Round h)) sha256H0
  (st.map (fun x => natBe 4 x.toNat)).flatten

/-! ## Checksums -/

/-- A CRC of width `w` over bytes, most significant bit first, polynomial `poly`, from `init`. -/
def crcMsb (w poly init : Nat) (bs : Bytes) : Nat :=
  bs.foldl (fun c b =>
    (List.range 8).foldl (fun c _ => if c.testBit (w - 1) then (2 * c % 2 ^ w) ^^^ poly else 2 * c)
      (c ^^^ (b.toNat * 2 ^ (w - 8)))) init

/-- A reflected CRC of width `w`, least significant bit first, reflected polynomial `rpoly`. -/
def crcLsb (rpoly init : Nat) (bs : Bytes) : Nat :=
  bs.foldl (fun c b => (List.range 8).foldl (fun c _ => if c % 2 = 1 then (c / 2) ^^^ rpoly else c / 2) (c ^^^ b.toNat)) init

/-- CRC-8, polynomial 0x07, start 0. -/
def crc8 (bs : Bytes) : Nat := crcMsb 8 0x07 0 bs

/-- CRC-16/CCITT-FALSE: polynomial 0x1021, start 0xFFFF. -/
def crc16 (bs : Bytes) : Nat := crcMsb 16 0x1021 0xFFFF bs

/-- CRC-32 (reflected 0xEDB8_8320, start and final 0xFFFF_FFFF). -/
def crc32 (bs : Bytes) : Nat := crcLsb 0xEDB88320 0xFFFFFFFF bs ^^^ 0xFFFFFFFF

end Sys2Proof.Machine
end

