-- ==== Sys2Proof/Machine/Operands.lean ====
section
/-! DEFINITION. The operand forms: the fields of a submission entry (R103-R116), of a fragment table (R106, R107) and of a
ticket (R201). -/
namespace Sys2Proof.Machine

/-! ### The submission entry -/

/-- OPCODE. -/
def eOp (e : Bytes) : Nat := fld e 0 1
/-- TABLE: BUFFER points to a fragment table. -/
def eTable (e : Bytes) : Bool := bit (fld e 1 1) 0
/-- IMMEDIATE (R108). -/
def eImmediate (e : Bytes) : Bool := bit (fld e 1 1) 1
/-- SIZE_CODE. -/
def eSize (e : Bytes) : Nat := bits (fld e 2 2) 0 4
/-- OPTIONS[n], n from 4. -/
def eOption (e : Bytes) (n : Nat) : Bool := bit (fld e 2 2) n
/-- COOKIE. -/
def eCookie (e : Bytes) : Nat := fld e 4 4
/-- KEYREF. -/
def eKeyref (e : Bytes) : Nat := fld e 8 8
/-- TARGET. -/
def eTarget (e : Bytes) : Nat := fld e 16 8
/-- LENGTH. -/
def eLength (e : Bytes) : Nat := fld e 24 8
/-- BUFFER's address, inline or of the fragment table. -/
def eBufAddr (e : Bytes) : Nat := fld e 32 8
/-- The inline fragment's length. -/
def eBufLen (e : Bytes) : Nat := fld e 40 4
/-- The fragment table's entry count. -/
def eBufCount (e : Bytes) : Nat := fld e 40 2
/-- PHASE (R83). -/
def ePhase (e : Bytes) : Bool := bit (fld e 63 1) 7

/-- A carriage's LBA (R105). -/
def tLba (t : Nat) : Nat := bits t 0 48
/-- A carriage's DRIVE (R105). -/
def tDrive (t : Nat) : Nat := bits t 48 9

/-- KEYREF's KIND (R104): 0 NONE, 1 SLOT, 2 TICKET, 3 LEGACY, 4 OWNER, 5 ANCHOR. -/
def kKind (k : Nat) : Nat := bits k 60 4
/-- A slot handle's index. -/
def hIndex (k : Nat) : Nat := bits k 0 15
/-- A slot handle's generation. -/
def hGen (k : Nat) : Nat := bits k 15 16
/-- A slot handle's WRITE_SESSION bit. -/
def hSession (k : Nat) : Bool := bit k 31
/-- A slot handle (R104). -/
def handle (index gen : Nat) (session : Bool) : Nat := index + gen * 2 ^ 15 + b2n session * 2 ^ 31

/-- A key reference with a defined KIND and no unused bit set (R104). -/
def keyrefOk (k : Nat) : Bool :=
  match kKind k with
  | 0 => bits k 0 60 == 0
  | 1 => bits k 32 28 == 0
  | 2 => bits k 0 6 == 0
  | 3 => bits k 0 60 == 0
  | 4 => bits k 22 38 == 0
  | 5 => bits k 10 50 == 0
  | _ => false

/-- The destination KEYREF of a REKEY (R112). -/
def eDstKeyref (e : Bytes) : Nat := fld e 32 8
/-- The destination TARGET of a REKEY (R112). -/
def eDstTarget (e : Bytes) : Nat := fld e 40 8
/-- TRAILER_LBA, or SECTOR_BASE of a legacy carriage. -/
def eTrailerLba (e : Bytes) : Nat := fld e 48 6
/-- TRAIN_INDEX. -/
def eTrainIndex (e : Bytes) : Nat := fld e 54 4
/-- FIRST_SEG. -/
def eFirstSeg (e : Bytes) : Nat := fld e 58 4
/-- TRAIN_POS. -/
def eTrainPos (e : Bytes) : Nat := fld e 62 1
/-- ENGINE of the slot attribute field (R114). -/
def eEngine (e : Bytes) : Nat := fld e 48 1
/-- USAGE of the slot attribute field (R114). -/
def eUsage (e : Bytes) : Nat := fld e 49 1

/-- The entry names the legacy register: LEGACY_READ, LEGACY_WRITE or a LEGACY-source REKEY (R113). -/
def isLegacy (e : Bytes) : Bool :=
  eOp e == 0x08 || eOp e == 0x09 || (eOp e == 0x04 && kKind (eKeyref e) == 3)

/-- The bytes of one data unit of a legacy carriage (R113). -/
def legacyUnit (e : Bytes) : Nat := if eOption e 4 then 4096 else 512

/-- INGEST, RETRIEVE, AUDIT or REKEY. -/
def isTrain (e : Bytes) : Bool := 0x01 ≤ eOp e && eOp e ≤ 0x04

/-- Bytes of a segment of this size code (R126). -/
def segSize (code : Nat) : Nat := 4096 * 2 ^ code

/-- n, the segments a data carriage covers (R110). -/
def eSegs (e : Bytes) : Nat := ceilDiv (eLength e) (segSize (eSize e))

/-- The length of segment `i` of the carriage: full size but for the last (R110). -/
def segLen (e : Bytes) (i : Nat) : Nat := min (segSize (eSize e)) (eLength e - i * segSize (eSize e))

/-- The segment's first byte in the carriage. -/
def segOff (e : Bytes) (i : Nat) : Nat := i * segSize (eSize e)

/-- The world that mediates an opcode (R109): none, normal or secure. -/
def isSecureOp (op : Nat) : Bool :=
  op == 0x30 || op == 0x31 || op == 0x32 || op == 0x41 || op == 0x42 || op == 0x51 || op == 0x52
/-- The opcodes the normal world mediates (R109). -/
def isNormalOp (op : Nat) : Bool := op == 0x20 || op == 0x21 || op == 0x22

/-- The opcodes accepted on manager rings only (R109). -/
def mgrOnly (op : Nat) : Bool :=
  op == 0x08 || op == 0x09 || op == 0x20 || op == 0x21 || op == 0x22 || op == 0x30 || op == 0x31 || op == 0x32 ||
  op == 0x50 || op == 0x51 || op == 0x52

/-- The defined opcodes (R109). -/
def opDefined (op : Nat) : Bool :=
  [0x01, 0x02, 0x03, 0x04, 0x05, 0x08, 0x09, 0x10, 0x11, 0x12, 0x13, 0x20, 0x21, 0x22, 0x30, 0x31, 0x32, 0x40, 0x41,
   0x42, 0x50, 0x51, 0x52, 0x7E, 0x7F].contains op

/-- The KEYREF kinds an opcode takes (R109). -/
def opKinds (op : Nat) : List Nat :=
  match op with
  | 0x01 | 0x05 | 0x12 | 0x41 => [1]
  | 0x02 | 0x03 => [1, 2]
  | 0x04 => [1, 3]
  | 0x08 | 0x09 => [3]
  | 0x10 => [4]
  | 0x11 => [2]
  | 0x30 => [0, 4]
  | 0x40 => [5]
  | _ => [0]

/-- The opcode's BUFFER is a host buffer (R109). -/
def opBuffer (op : Nat) : Bool :=
  [0x01, 0x02, 0x05, 0x08, 0x09, 0x10, 0x13, 0x22, 0x30, 0x31, 0x40, 0x41, 0x42, 0x51, 0x52].contains op

/-- The bytes the opcode's host buffer must hold (R107, R109). -/
def bufBytes (e : Bytes) : Nat := if eOp e == 0x05 || eOp e == 0x10 then 64 else eLength e

/-- The opcode's buffer is a source that the device reads whole after admission (R109). -/
def opSource (op : Nat) : Bool := op == 0x30 || op == 0x31 || op == 0x40 || op == 0x41 || op == 0x52

/-! ### Host buffers -/

/-- The host pieces of bytes `off` to `off + n - 1` of a buffer given by its fragments (address, length). -/
def bufPieces : List (Nat × Nat) → Nat → Nat → List (Nat × Nat)
  | [], _, _ => []
  | (a, l) :: fs, off, n =>
    if n == 0 then []
    else if off < l then (a + off, min n (l - off)) :: bufPieces fs 0 (n - min n (l - off))
    else bufPieces fs (off - l) n

/-- One fragment table entry: address, length, CHAIN, and whether its reserved bits are 0 (R106). -/
structure FragEntry where
  addr : Nat
  len : Nat
  chain : Bool
  ok : Bool
deriving DecidableEq, Repr

/-- The entry in 16 bytes (R106). -/
def fragEntry (b : Bytes) : FragEntry :=
  { addr := fld b 0 8, len := fld b 8 4, chain := bit (fld b 12 1) 0, ok := bits (fld b 12 4) 1 31 == 0 }

/-- Two fragments share a byte. -/
def fragsMeet (x y : Nat × Nat) : Bool := x.1 < y.1 + y.2 && y.1 < x.1 + x.2

/-- No two fragments overlap (R107). -/
def fragsApart : List (Nat × Nat) → Bool
  | [] => true
  | f :: fs => !fs.any (fragsMeet f) && fragsApart fs

/-- The fragments form a host buffer of exactly `n` bytes; no entry of a fragment table is empty, and an `inline` buffer
only where nothing is asked for (R106, R107). -/
def fragsOk (inline_ : Bool) (fs : List (Nat × Nat)) (n : Nat) : Bool :=
  (fs.map (·.2)).sum == n && ((inline_ && n == 0) || fs.all (fun f => f.2 != 0)) && fragsApart (fs.filter (fun f => f.2 != 0))

/-! ### Tickets (R201) -/

/-- The ticket's flag word. -/
def tkWord (t : Bytes) : Nat := fld t 0 4
/-- VERSION. -/
def tkVersion (t : Bytes) : Nat := bits (tkWord t) 0 4
/-- WRITE_OPEN. -/
def tkOpen (t : Bytes) : Bool := bit (tkWord t) 4
/-- SEALED. -/
def tkSealed (t : Bytes) : Bool := bit (tkWord t) 5
/-- SIZE_CODE. -/
def tkSize (t : Bytes) : Nat := bits (tkWord t) 6 4
/-- OWNER. -/
def tkOwner (t : Bytes) : Nat := bits (tkWord t) 10 22
/-- SEALED_COUNT. -/
def tkCount (t : Bytes) : Nat := fld t 4 4
/-- NONCE_BASE. -/
def tkBase (t : Bytes) : Nat := fld t 8 8

/-- The header conditions of an unwrap (R202). -/
def tkHeaderOk (t : Bytes) : Bool := tkVersion t == 1 && (tkOpen t != tkSealed t) && tkSize t ≤ 10

/-- The clear 16 bytes of a ticket. -/
def tkHeader (isSealed : Bool) (size owner count base : Nat) : Bytes :=
  natLe 4 (1 + (if isSealed then 2 ^ 5 else 2 ^ 4) + size * 2 ^ 6 + owner * 2 ^ 10) ++ natLe 4 count ++ natLe 8 base

end Sys2Proof.Machine
end

