-- ==== Sys2Proof/Config.lean ====
section
/-! DEFINITION. What one unit fixes and what the spec leaves open. Every constant here is opaque: it has no body, so no
proof can see its value (log entries 3, 7). -/
namespace Sys2Proof.Config

/-- A free value: the `n`-th number the spec leaves open, drawn with the counter `State.free`. -/
opaque freeNat : Nat → Nat

/-- The TYPE of the event record of a memory error, which R384 demands and R327 does not list (log entry 3). -/
opaque memErrorType : Nat
/-- The unit id, 16 bytes, fused per unit (R2). -/
opaque unitId : Bytes

/-! The device's own keys and the vendor's (R259, R265, R291, R344, R358). -/

/-- Krovward's JEP106 identity, eleven bits (R346). -/
opaque jep106 : Nat
/-- The device root, from which the memory keys are derived (R382, R383). -/
opaque deviceRoot : Bytes
/-- The dormant key, derived from the device root and the DSEAL it is given; the derivation is not stated (R320). -/
opaque dormantKey : Nat → Bytes
/-- The seed of the attestation key of a life-cycle state's code. -/
opaque attestSeed : Nat → Bytes
/-- The seed of the transport key of a life-cycle state's code. -/
opaque transportSeed : Nat → Bytes
/-- The public key of Krovward's debug key, in the boot ROM. -/
opaque debugKey : Bytes

/-- Krovward's manufacturing root key, which signs unit certificates (R241). -/
opaque mfgRoot : Bytes
/-- Krovward's manifest key (R350). -/
opaque manifestKey : Bytes
/-- Krovward's production image key (R358). -/
opaque imageKey : Bytes
/-- Krovward's test image key (R358). -/
opaque testImageKey : Bytes

end Sys2Proof.Config
end

