-- ==== Sys2Proof/Parts/Array.lean ====
section
/-! DEFINITION. State of the cipher array's regions (06_cipher_array.md, R411). -/
namespace Sys2Proof

/-- Region states (CAY STATE). -/
inductive RegionState where
  | normal | degraded | lost
deriving DecidableEq, Repr

/-- The identity of a key in key staging (R140): slot index and generation, the tag of a carriage served by a shadow
slot or a ticket, or the legacy register. -/
inductive KeyId where
  | slot (index gen : Nat)
  | carriage (tag : Nat)
  | legacy
deriving DecidableEq, Repr

/-- One key-staging entry (R140, R208): the key it is tagged with, the two shares it is held in and the stamp of its last
re-mask. -/
structure KeyEntry where
  id : KeyId
  share0 : Nat := 0
  share1 : Nat := 0
  maskStamp : Nat := 0
deriving DecidableEq, Repr

/-- One block: its key-staging entries, most recently used first, and the segments it has run to their end (BLK_SEG). -/
structure Block where
  keys : List KeyEntry := []
  segCnt : Nat := 0
deriving DecidableEq, Repr

/-- One region: status, fault counts, staging and spill (06 register table, R411). -/
structure Region where
  state : RegionState := .normal
  blkRetired : BitVec 8 := 0
  cellFenced : BitVec 32 := 0
  shuntCnt : Nat := 0
  kstgCe : Nat := 0
  kstgUe : Nat := 0
  xbarUe : Nat := 0
  d2dCe : Nat := 0
  d2dUe : Nat := 0
  d2dDown : Option Nat := none
  stgHwm : Nat := 0
  spillLow : Nat := 4
  spillAge : Nat := 0x14
  spillEn : Bool := true
  spillCnt : Nat := 0
  spillHwm : Nat := 0
  f2rOcc : Nat := 0
  f2rHwm : Nat := 0
  f2rStall : Nat := 0
  segCnt : Nat := 0
  tagFailCnt : Nat := 0
  keyLoads : Nat := 0
  keyEvict : Nat := 0
  degSegCnt : Nat := 0
deriving DecidableEq, Repr

/-- The rest of one region: cell occupancy, blocks and the counts of R411. -/
structure RegionWork where
  blocks : Tbl Block := []
  busyCyc : Nat := 0
  waitCyc : Nat := 0
  readyHwm : Nat := 0
  holdSeg : Nat := 0
  rekeyXbar : Nat := 0
  legacyUnits : Nat := 0
deriving DecidableEq, Repr

/-- The cipher array: four regions, and the share accounting of the current epoch by slice (R139, R282). -/
structure Cay where
  regions : Tbl Region := []
  work : Tbl RegionWork := []
  charge : Tbl Nat := []
  tagCharge : Tbl Nat := []
  epoch : Nat := 0
deriving DecidableEq, Repr

end Sys2Proof
end

