-- ==== Sys2Proof/Parts/Chain.lean ====
section
/-! DEFINITION. State of the drawbar, the memory controller, the governor, Dormant and the pins
(19_drawbar_chain.md, 20_memory_clocks_power.md, 22_package_pins_electrical.md). -/
namespace Sys2Proof

/-- DRB_STAT.STATE (19 DRB table). -/
inductive DrbState where
  | off | enumerating | locked | slewing | headLost | conflict
deriving DecidableEq, Repr

/-- An entry of the head's member table (R371-R374): `state` 0 free, 1 present, 2 absent and reserved; `judged` the last
superframe in which its beacon was heard or missed. -/
structure Member where
  state : Nat := 0
  missed : Nat := 0
  id : Nat := 0
  delay : Nat := 0
  absentAt : Nat := 0
  judged : Nat := 0
deriving DecidableEq, Repr

/-- The drawbar (19). `cycleAt`, `mark` and `cycle` are the stamp, the chain time and the number of the cycle that the last
TIME began, `sent` says that this unit has used its slot of it, `missRun` is how many missed cycles since then are counted
already. `offer` is the ASSIGN in flight (address, misses, stamp), `join` the address that the next command window offers,
`first` the first enumeration after a start, `heard` the member times collected with the stamps of their replies (R377), `queue`
the frames to send, each with its time (R370, R371). -/
structure Drb where
  head : Bool := false
  state : DrbState := .off
  timeValid : Bool := false
  addr : Nat := 0
  lastE : Int := 0
  delay : Nat := 0
  marksRx : Nat := 0
  marksMissed : Nat := 0
  missRun : Nat := 0
  crcErr : Nat := 0
  steps : Nat := 0
  stepMax : Nat := 0
  slewLeft : Nat := 0
  halfTick : Bool := false
  cycle : Nat := 0
  cycleAt : Nat := 0
  mark : Nat := 0
  sent : Bool := false
  joinRefused : Nat := 0
  selIn : Bool := false
  selOut : Bool := false
  members : Tbl Member := []
  offer : Option (Nat × Nat × Nat) := none
  first : Bool := false
  started : Bool := false
  heard : List (Nat × Nat) := []
  join : Option Nat := none
  joinTry : Nat := 0
  queue : List (Nat × Bytes) := []
deriving DecidableEq, Repr

/-- The LPDDR5X controller (20 MEM table). -/
structure Mem where
  capacity : Nat := 0
  trained : Bool := false
  cfgErr : Bool := false
  selfRefresh : Bool := false
  retrainCnt : Nat := 0
  ceCnt : Nat := 0
  ueCnt : Nat := 0
  macRc : Nat := 0
  macNq : Nat := 0
  macTc : Nat := 0
  macVw : Nat := 0
  mr4Max : Nat := 0
  f2mOcc : Nat := 0
  f2mHwm : Nat := 0
  f2mStall : Nat := 0
  rdBytes : Nat := 0
  wrBytes : Nat := 0
deriving DecidableEq, Repr

/-- One region's governor state (R388, 20 GOV table). -/
structure GovRegion where
  step : Nat := 0
  rail : Nat := 750
  busy : Nat := 0
  changes : Nat := 0
  below : Nat := 0
  idle : Nat := 0
deriving DecidableEq, Repr

/-- The energy governor and the Dormant request (20 GOV table). `capLimit` is the limit that an average above the cap left on
the cap step, and `lowSince` since when the projection has been low enough to lift it (R389); `thermAt` and `warmAt` are the
stamps of the thermal step's last fall, and of its last rise or reading of 95 °C or more (R390). -/
structure Gov where
  floor : Nat := 0
  ceil : Nat := 7
  pwrCap : Nat := 85
  capStep : Nat := 7
  capLimit : Nat := 7
  thermStep : Nat := 7
  pfail : Bool := false
  clampCnt : Nat := 0
  clampRecAt : Option Nat := none
  power : Nat := 0
  powerMax : Nat := 0
  powers : List Nat := []
  up : Nat := 0x5A
  down : Nat := 0x3C
  hold : Nat := 0x0A
  regions : Tbl GovRegion := []
  lowSince : Option Nat := none
  thermAt : Nat := 0
  warmAt : Nat := 0
  intervalAt : Nat := 0
  avsHold : Bool := false
  dormReady : Bool := false
  dormAt : Nat := 0
  dormCause : Nat := 0
  wakes : Nat := 0
  dormant : Bool := false
deriving DecidableEq, Repr

/-- The straps and pins the device samples (R419, R48, R395). -/
structure Pins where
  pfail : Bool := false
  haClkmode : Bool := false
  hbClkmode : Bool := false
  drbHead : Bool := false
deriving DecidableEq, Repr

end Sys2Proof
end

