-- ==== Sys2Proof/Parts/Chip.lean ====
section
/-! DEFINITION. The chip's own state: mode, fault, sequencer (01, 02, R409). -/
namespace Sys2Proof

/-- CHP_STAT.MODE (R409). -/
inductive Mode where
  | booting | running | service | recovery | fault
deriving DecidableEq, Repr

/-- The CHP block and the sequencer (02 CHP table, R409). `inReset` is PORST_N asserted; `opened` says that this
boot's vault-open step is done (R322); `waitEnv` is what a boot that waits for a token, or for PFAIL_N to deassert, sampled
(R342, R355, R395). -/
structure Chp where
  mode : Mode := .booting
  inReset : Bool := true
  bootLock : Bool := false
  vaultOpen : Bool := false
  woke : Bool := false
  opened : Bool := false
  faultCause : Nat := 0
  bootCnt : Nat := 0
  f2cOcc : Nat := 0
  f2cHwm : Nat := 0
  f2cStall : Nat := 0
  waitEnv : Option BootEnv := none
deriving DecidableEq, Repr

end Sys2Proof
end

