-- ==== Sys2Proof/Parts/Event.lean ====
section
/-! DEFINITION. Event records and the event recorder's state (16_event_recorder.md), and what the device sends out. -/
namespace Sys2Proof

/-- The record types of R327, and the record of a memory error, which R384 demands and R327's table does not list (log entry 3). -/
inductive RecType where
  | boot | seal | sealSig | overflow | overflowEnd | floorRaised | flushFail | ringError | brakeAlert | portLoss
  | arrayFault | shelfState | drive | legacy | vault | shred | rng | world | alarm | manifest | fault | govClamp
  | lifeCycle | firmware | drawbar | memError
deriving DecidableEq, Repr

/-- One record (R325): type, sequence number, stamp and payload. -/
structure EvRec where
  type : RecType := .boot
  seq : Nat := 0
  time : Nat := 0
  payload : Bytes := []
deriving DecidableEq, Repr

/-- The event recorder (16 EVR table): the buffer oldest first, the flushed records each with the number of its page since
the unit's first, the pages written so far, the chain with what it counts since the last seal, and the end of the running
flush. `flushFrom` is the stamp at which the running flush began. `tornPages` are the pages cut by a loss of supply, each
with the first SEQ it would have held (R329). `booted` is set once this boot's BOOT record is written; the events of before wait in
`early`, without a SEQ (R326). -/
structure Evr where
  buf : List EvRec := []
  flushed : List (Nat × EvRec) := []
  page : Nat := 0
  nextSeq : Nat := 0
  flushedSeq : Nat := 0
  floor : Nat := 0
  bufHwm : Nat := 0
  ovfCnt : Nat := 0
  freeBlocks : Nat := 0
  lastSeal : Nat := 0
  flushCnt : Nat := 0
  flushLat : Nat := 0
  torn : Nat := 0
  flushing : Bool := false
  flushTo : Nat := 0
  flushFrom : Nat := 0
  full : Bool := false
  displacing : Bool := false
  devs : Nat := 0
  period : Nat := 0x3E8
  flushAt : Nat := 0
  chain : Bytes := []
  sealCnt : Nat := 0
  sinceSeal : Nat := 0
  sealFirst : Nat := 0
  lastChained : Nat := 0
  sig : Bytes := []
  ovfFirst : Nat := 0
  ovfLast : Nat := 0
  ovfSpell : Nat := 0
  ovfEndDue : Bool := false
  floorDue : Bool := false
  tornPages : List (Nat × Nat) := []
  booted : Bool := false
  early : List EvRec := []
deriving DecidableEq, Repr

/-- What leaves the device: every effect a host, a drive, an expander, a chain neighbour or a board part can observe. -/
inductive Output where
  /-- A posted host write: port, PASID, Relaxed Ordering, address and bytes (R52). -/
  | dmaWrite (p : Port) (pasid : Option Nat) (relaxed : Bool) (addr : Nat) (data : Bytes)
  /-- A host read request: port, PASID, address and length (R52). -/
  | dmaRead (p : Port) (pasid : Option Nat) (addr len : Nat)
  /-- An MSI-X message (R54). -/
  | msix (p : Port) (vector addr data : Nat)
  /-- The answer to a register read (R31). -/
  | answer (p : Port) (value : Nat)
  /-- The answer to a memory window read. -/
  | answerBytes (p : Port) (data : Bytes)
  /-- The answer to a configuration request: none is CRS (R49). -/
  | config (p : Port) (value : Option Nat)
  /-- A sideband request frame on a link (R173). -/
  | sideband (link : Nat) (frame : Bytes)
  /-- An NVMe command (R115, R187): drive, queue (0 the admin queue, else the I/O queue pair and 1), command id, opcode,
  namespace, whether FUA is set, its CDW10 and CDW11 as one number (the first block of a Read or Write), blocks, its data
  pointers as granules of the staging window (R15: region and place), and the data it carries. -/
  | nvme (drive queue cid opcode nsid : Nat) (fua : Bool) (lba blocks : Nat) (prp : List (Nat × Nat)) (data : Bytes)
  /-- An NVMe controller action: 0 disable, 1 enable, 2 shutdown (R185, R186, R190). -/
  | nvmeCtl (drive action : Nat)
  /-- Step 1 of a drive's initialisation (R186): its BAR assigned in the port's private address space, bus mastering enabled, and
  MSI-X enabled with this many vectors, one per CQ, delivered to the port's interrupt collector. -/
  | driveConfig (drive vectors : Nat)
  /-- A drawbar frame (R369). -/
  | drawbar (frame : Bytes)
  /-- A vault page or journal record written to a vault flash device: 0 A, 1 B (R224). -/
  | vaultWrite (dev : Nat) (data : Bytes)
  /-- A page of the event partition written to a vault flash device, with its block of the device and its page of the block
  (R222, R329). -/
  | eventWrite (dev block page : Nat) (data : Bytes)
  /-- A block of the event partition erased on a vault flash device (R329). -/
  | eventErase (dev block : Nat)
  /-- Bytes written to the manifest flash (R348). -/
  | manifestWrite (addr : Nat) (data : Bytes)
  /-- The answer to a read of a control complex memory port that its page's code blocks: address and bytes (R301). -/
  | portRead (address data : Nat)
  /-- An AVSBus command: VDD_REGn of a region to this many millivolts (R391, R421). -/
  | avs (region millivolts : Nat)
  /-- A region's cipher clock switched to the frequency of a step (R149, R391). -/
  | clock (region step : Nat)
  /-- A host link action: 1 training starts (R48). -/
  | link (p : Port) (action : Nat)
deriving DecidableEq, Repr

end Sys2Proof
end

