-- ==== Sys2Proof/Parts/Keys.lean ====
section
/-! DEFINITION. State of the key store, the legacy key register, the owner vault, the quorum engine and the slices
(09_key_slots_tickets_legacy.md, 10_owners_vault_dual_control.md, 13_slices_and_migration.md). -/
namespace Sys2Proof

/-- Working slot states (R194). -/
inductive SlotState where
  | free | live | pending | orphaned
deriving DecidableEq, Repr

/-- One working slot (R194). Material is held as two shares; `retained` is the previous generation's shares and use
count, with its generation and the stamp of the replace; `maskPeriod` is the KST_REMASK_PERIOD that held at its last re-mask
(R208). -/
structure Slot where
  state : SlotState := .free
  gen : Nat := 0
  share0 : Nat := 0
  share1 : Nat := 0
  mlen : Bool := false
  engine : BitVec 4 := 0
  usage : BitVec 5 := 0
  session : Bool := false
  sizeCode : Nat := 0
  owner : Nat := 0
  scope : Nat := 0
  base : Nat := 0
  count : Nat := 0
  use : Nat := 0
  retained : Bool := false
  retGen : Nat := 0
  retUse : Nat := 0
  retShare0 : Nat := 0
  retShare1 : Nat := 0
  retBase : Nat := 0
  retAt : Nat := 0
  unmasked : Bool := false
  maskStamp : Nat := 0
  maskPeriod : Nat := 0
  pendStamp : Nat := 0
deriving DecidableEq, Repr

/-- The key store (09 KST table; `remaskNext` is the index at which the re-mask pass stands, `remaskAt` when its next
re-mask is due, `remaskSkipped` the indices it has skipped): slots, the order in which they
became FREE, reservations, the mask reserve, the KEK cache and the sealed slot image of Dormant in LPDDR5X, its ciphertext
with the tag behind it, with the CSN saved beside (R26, R210). -/
structure Kst where
  slots : Tbl Slot := []
  freed : List Nat := []
  reservedBy : Tbl Nat := []
  slotsHwm : Nat := 0
  remaskPeriod : Nat := 0x3C
  remaskLate : Nat := 0
  remaskPasses : Nat := 0
  remaskNext : Nat := 0
  remaskAt : Nat := 0
  remaskSkipped : List Nat := []
  masks : List Nat := []
  kek : List Nat := []
  unwrapCnt : Nat := 0
  unwrapFail : Nat := 0
  orphanCnt : Nat := 0
  eraseTmo : Nat := 0
  image : Bytes := []
  sealedCsn : Nat := 0
deriving DecidableEq, Repr

/-- The legacy key register (R211-R217). -/
structure Legacy where
  key : Bytes := []
  stage : Bytes := []
  loaded : Bool := false
  loading : Bool := false
  next : Nat := 0
  last : Nat := 0
  port : Option Port := none
  startAt : Nat := 0
  commits : Nat := 0
  abandonCnt : Nat := 0
deriving DecidableEq, Repr

/-- Owner record states (R218). -/
inductive OwnerState where
  | absent | active | revoked
deriving DecidableEq, Repr

/-- One owner record (R218). -/
structure Owner where
  state : OwnerState := .absent
  cls : Nat := 0
  incarnation : Nat := 0
  createEpoch : Nat := 0
  revokeEpoch : Nat := 0
  kekWrap : Bytes := []
  exported : Bool := false
  exportCnt : Nat := 0
  label : Bytes := []
  revokedAt : Nat := 0
deriving DecidableEq, Repr

/-- Officer states (R232). -/
inductive OfficerState where
  | empty | active | retired
deriving DecidableEq, Repr

/-- One officer of the roster (R232). -/
structure Officer where
  state : OfficerState := .empty
  alg : Nat := 0
  key : Bytes := []
  label : Bytes := []
deriving DecidableEq, Repr

/-- One quorum policy (R233); m = 0 governs nothing. -/
structure Policy where
  m : Nat := 0
  officers : List Nat := []
deriving DecidableEq, Repr

/-- What the vault holds durably (R222): owners, officers, policies, custody keys, the ledgers (the next entry of the shred
ledger's ring with it), the id ceiling and the settled epoch, the event floor (R333), the pending activation record (R363), an
ENTER_RETURN whose transition is still to be made (R339), and a migration's progress (R365). -/
structure VaultImg where
  owners : Tbl Owner := []
  roster : Tbl Officer := []
  policies : Tbl Policy := []
  custody : Tbl (Option Bytes) := []
  idCeiling : Nat := 0
  settledEpoch : Nat := 0
  shredLedger : List Bytes := []
  shredNext : Nat := 0
  propLedger : List Nat := []
  evrFloor : Nat := 0
  activation : Bytes := []
  returnDue : Bool := false
  migrated : Nat := 0
deriving DecidableEq, Repr

/-- The kinds of journal record (R224). -/
inductive JKind where
  | commit | void | reserve | settled
deriving DecidableEq, Repr

/-- One patch of a journal record: new bytes at an offset of a logical page (R224). -/
structure Patch where
  page : Nat
  off : Nat
  data : Bytes
deriving DecidableEq, Repr

/-- One journal record (R224): the epoch it advances to, its kind and proposal, the boot count, and its BODY. -/
structure JRec where
  epoch : Nat := 0
  kind : JKind := .commit
  proposal : Nat := 0
  boot : Nat := 0
  body : List Patch := []
deriving DecidableEq, Repr

/-- One programmed page of a vault device (R221): its data and spare bytes, and whether it reads without an uncorrectable
error. -/
structure FlashPage where
  data : Bytes := []
  spare : Bytes := []
  readable : Bool := true
deriving DecidableEq, Repr

/-- A journal record as read from a device (R224): the places of its pages, its bytes, and whether it is complete. -/
structure FoundRec where
  places : List Nat := []
  bytes : Bytes := []
  complete : Bool := false
deriving DecidableEq, Repr

/-- One vault flash device (R221, R222) but for its event partition: whether it answers, its programmed pages by their place
in the layout (64 times the block and the page in it), the journal ring's next page, the replacement block of each bad one
and how many are used, its bad blocks, and the counts of reads corrected and of failures. -/
structure VaultDev where
  answers : Bool := true
  pages : Tbl FlashPage := []
  head : Nat := 0
  repl : Tbl Nat := []
  replUsed : Nat := 0
  ce : Nat := 0
  fail : Nat := 0
  bad : Nat := 0
deriving DecidableEq, Repr

/-- Vault modes (R228). -/
inductive VaultMode where
  | closed | normal | single | rebuilding | locked | empty
deriving DecidableEq, Repr

/-- Where a proposal stands (R238, R239). -/
inductive PropState where
  | open_ | committed | closed
deriving DecidableEq, Repr

/-- A proposal of this power cycle (R236), kept under its id: its record, the policy recorded for it, the approvals counted,
its window's end, the port of its ring, its digest, and the key drawn for it as two shares (R235); `committing` once quorum
is reached, `by_` the tag of the APPROVE that waits for the commit, `begun` once that commit has begun in the vault engine,
at stamp `begunAt`, `mute` where the secure world has restarted since (R121); `outs` are outputs that wait for their
signature, each with its offset from DEST_ADDR, and `rnd` the tender bytes for it (R234, R260); `closedCsn` is the last CSN
before it closed. -/
structure Proposal where
  used : Bool := false
  state : PropState := .open_
  record : Bytes := []
  m : Nat := 0
  officers : List Nat := []
  approvals : List Nat := []
  end_ : Nat := 0
  port : Port := .a
  digest : Bytes := []
  drawn : Bytes := []
  mask : Bytes := []
  committing : Bool := false
  by_ : Option Nat := none
  begun : Bool := false
  begunAt : Nat := 0
  mute : Bool := false
  outs : List (Nat × Bytes) := []
  rnd : Bytes := []
  closedCsn : Nat := 0
deriving DecidableEq, Repr

/-- The policies, the roster and the owners as they stood at an admission (R236, R238). -/
structure QuorumSnap where
  policies : Tbl Policy
  roster : Tbl Officer
  owners : Tbl Owner
deriving DecidableEq, Repr

/-- The vault engine and the quorum engine (10 register table, R225-R231, R235-R239). Ids from `firstId` up to `nextId`
were issued in this power cycle, those of `spent` in earlier ones; `snap` keeps, for a carriage admitted before a commit
changed them, the policies, the roster and the owners as of its admission; `commitAts` are the stamps of the last commits,
`passAt` that of the refresh pass's start. -/
structure Vault where
  mode : VaultMode := .closed
  cause : Nat := 0
  devA : Nat := 0
  devB : Nat := 0
  id : Nat := 0
  epoch : Nat := 0
  img : VaultImg := {}
  a : VaultDev := {}
  b : VaultDev := {}
  props : Tbl Proposal := []
  nextId : Nat := 1
  firstId : Nat := 1
  spent : List (Nat × Nat) := []
  snap : Tbl (Option QuorumSnap) := []
  window : Nat := 0x12C
  commitCnt : Nat := 0
  commitAts : List Nat := []
  replayed : Nat := 0
  discarded : Nat := 0
  passPct : Nat := 0
  passes : Nat := 0
  passAt : Nat := 0
  purge : Nat := 0
  commitLat : Nat := 0
  reload : Bool := false
deriving DecidableEq, Repr

/-- Slice states (R277). -/
inductive SliceState where
  | empty | active | freezing | frozen
deriving DecidableEq, Repr

/-- One slice entry (R277) with its mailboxes, ring setup window and counts (13 slice page table), the tickets of its last
freeze, the SLICE_FREEZEs that wait for the freeze in progress, and that freeze's admission CSN. -/
structure Slice where
  state : SliceState := .empty
  pasid : Nat := 0
  home : Port := .a
  ringBase : Nat := 0
  ringCnt : Nat := 0
  vecBase : Nat := 0
  vecCnt : Nat := 0
  weight : Nat := 0
  inflightQuota : Nat := 0
  slotQuota : Nat := 0
  sidingCap : Nat := 0
  retAddr : Nat := 0
  weightNow : Nat := 0
  inBox : Bytes := List.replicate 256 0
  inFull : Bool := false
  inLen : Nat := 0
  inDisc : Nat := 0
  outBox : Bytes := List.replicate 256 0
  outFull : Bool := false
  outLen : Nat := 0
  outDisc : Nat := 0
  retSealed : Nat := 0
  retMapped : Nat := 0
  freezes : Nat := 0
  retLost : Nat := 0
  tickets : List Bytes := []
  freezers : List Nat := []
  frzCsn : Nat := 0
  rs : RsWin := {}
deriving DecidableEq, Repr

/-- One owner's binding (R281). -/
structure Binding where
  bound : Bool := false
  slice : Nat := 0
  revoked : Bool := false
deriving DecidableEq, Repr

/-- The slice manager (13). -/
structure Slc where
  slices : Tbl Slice := []
  binds : Tbl Binding := []
deriving DecidableEq, Repr

end Sys2Proof
end

