-- ==== Sys2Proof/Parts/Media.lean ====
section
/-! DEFINITION. State of the media fabric: sideband links, shelves, drives and NVMe commands
(08_media_fabric_and_shelves.md). -/
namespace Sys2Proof

/-- Shelf states (R176). -/
inductive ShelfState where
  | asleep | waking | awake | sleeping
deriving DecidableEq, Repr

/-- Drive states (R177). -/
inductive DriveState where
  | absent | off | init | ready | unusable | failed
deriving DecidableEq, Repr

/-- Lane states (MDP LSTATE). -/
inductive LaneState where
  | down | l0 | l12 | training
deriving DecidableEq, Repr

/-- Sideband commands (R173). -/
inductive SbOp where
  | identify | readPresence | setPower | setPerst | readClkreq | readStatus | readEvents | setClkreq
deriving DecidableEq, Repr

/-- One sideband link (R174, R175): the sequence number of the next new request and that of the request sent last, the
exchanges still to run (the first may be waiting for its retry), and the counts. -/
structure SbLink where
  seq : Nat := 0
  cur : Nat := 0
  queue : List (SbOp × Bytes) := []
  tries : Nat := 0
  failedAt : Option Nat := none
  retries : Nat := 0
  lost : Nat := 0
  down : Bool := false
  int : Bool := false
  pollAt : Nat := 0
deriving DecidableEq, Repr

/-- The step a shelf's wake or sleep has reached (R183, R185). -/
inductive ShelfStep where
  | idle | wakeWait | identify | presence | perst | power | powerGood | groups | drives | sleepWait | shutdown | perstOff | powerOff
deriving DecidableEq, Repr

/-- One shelf: state, last cause, and the step in progress with the tag of the carriage that waits for it and its clocks. -/
structure Shelf where
  state : ShelfState := .asleep
  dropped : Bool := false
  cause : Nat := 0
  step : ShelfStep := .idle
  tag : Option Nat := none
  since : Nat := 0
  pollAt : Nat := 0
  good : List Nat := []
  answered : List Nat := []
  goodAt : Nat := 0
  stagger : Nat := 0
  released : Nat := 0
  lastRelease : Nat := 0
deriving DecidableEq, Repr

/-- The commands of a drive's initialisation (R186). -/
inductive InitCmd where
  | identifyController | identifyNamespace | numberOfQueues | createCq (q : Nat) | createSq (q : Nat) | eventConfig
deriving DecidableEq, Repr

/-- What an NVMe command is issued for (R187); `queueDelete` deletes an I/O SQ, or a CQ. -/
inductive CmdKind where
  | trailerRead | segRead (seg off : Nat) | segWrite (seg off : Nat) | trailerWrite
  | legacyRead (off : Nat) | legacyWrite (off : Nat) | admin | abort (cid : Nat) | flush
  | initStep (step : InitCmd) | asyncEvent | errorLog | queueDelete (sq : Bool)
deriving DecidableEq, Repr

/-- One NVMe command: its carriage (none for the device's own, and once the carriage has ended), its kind, its blocks, the
window granules it addresses (R15, R143) and its issue stamp. -/
structure NvCmd where
  used : Bool := false
  kind : CmdKind := .asyncEvent
  tag : Option Nat := none
  queue : Nat := 0
  lba : Nat := 0
  blocks : Nat := 0
  hold : List (Nat × Nat) := []
  issuedAt : Nat := 0
  timedOut : Bool := false
deriving DecidableEq, Repr

/-- One drive and its media port (R177, MDP table), with its Identify data (R115, R186). `clkreq` is that the drive asserts
CLKREQ#, `rootClk` that the root side does (R181); `disabling` that a controller reset waits for CSTS.RDY = 0 (R190); `master` and `vectors` that its BAR and bus mastering are set, and
its MSI-X vectors (R186 step 1);
`shutStep` the step of a shelf's sleep the drive has reached: 1 Flush, 2 its SQs deleted, 3 its CQs deleted, 4 shutdown
(R185). -/
structure Drive where
  state : DriveState := .absent
  lane : LaneState := .down
  speed : Nat := 0
  present : Bool := false
  perst : Bool := true
  clkreq : Bool := false
  rootClk : Bool := false
  ioq : Nat := 0
  depth : Nat := 0
  cmds : Tbl NvCmd := []
  waitCmds : List (CmdKind × Option Nat × Nat × Nat) := []
  nextCid : Nat := 0
  idleAt : Nat := 0
  relAt : Nat := 0
  dlUpAt : Option Nat := none
  enableAt : Nat := 0
  linkDownAt : Option Nat := none
  resetting : Bool := false
  disabling : Bool := false
  capTo : Nat := 0
  mqes : Nat := 0
  mdts : Nat := 0
  nsze : Nat := 0
  formats : List (Nat × Nat) := []
  rtd3e : Nat := 0
  master : Bool := false
  vectors : Nat := 0
  shutStep : Nat := 0
  shutAt : Option Nat := none
  shutDone : Bool := false
  topoBad : Bool := false
deriving DecidableEq, Repr

/-- The diagnostic counts of one media port (MDF DIAG registers, MDP 0x04); `latSum` and `latNum` are those of the 100 ms
window `latWin`, `lat` the mean of the window before it. -/
structure DriveDiag where
  cmds : Nat := 0
  latSum : Nat := 0
  latNum : Nat := 0
  lat : Nat := 0
  latWin : Nat := 0
  err : Nat := 0
  tmo : Nat := 0
  reset : Nat := 0
  dmaBlk : Nat := 0
  fail : Nat := 0
  r2mOcc : Nat := 0
  r2mHwm : Nat := 0
  r2mStall : Nat := 0
deriving DecidableEq, Repr

/-- The media fabric (08 MDF table). -/
structure Mdf where
  laneBudget : Nat := 128
  l0Hwm : Nat := 0
  idlePark : Nat := 0x3E8
  hot : BitVec 512 := 0
  maxShelves : Nat := 2
  stagger : Nat := 0x19
  readyMax : Nat := 0x12C
  cmdTimeout : Nat := 0x1F40
  qpairs : Nat := 4
  depth : Nat := 0xFF
  maxXfer : Nat := 5
  links : Tbl SbLink := []
  shelves : Tbl Shelf := []
  drives : Tbl Drive := []
  diag : Tbl DriveDiag := []
  shelfQueue : List Nat := []
  adminWait : List Nat := []
deriving DecidableEq, Repr

end Sys2Proof
end

