-- ==== Sys2Proof/Parts/Platform.lean ====
section
/-! DEFINITION. State of the life-cycle controller, the fuses, the manifest flash and the firmware update
(17_life_cycle_and_debug.md, 18_manifest_boot_update.md). -/
namespace Sys2Proof

/-- Life-cycle states (R335); the code is the place in this list, with the TEST states 1 to 4. -/
inductive LifeState where
  | raw | test0 | test1 | test2 | test3 | mfg | field | return_ | terminal
deriving DecidableEq, Repr

/-- The fuse array (R336, R337, R342, R347, R323): it survives every reset. `tokenHash` are the 128-bit token hashes,
`arb` the 64 steps of three bits, `cert` the certificate area with the operator digest. -/
structure Fuses where
  copyA : BitVec 32 := 0
  copyB : BitVec 32 := 0
  copyC : BitVec 32 := 0
  tokenHash : Tbl Bytes := []
  tokenUsed : BitVec 16 := 0
  arb : BitVec 192 := 0
  bdEpoch : Nat := 0
  certBurned : Bool := false
  cert : Bytes := []
  digestBurned : Bool := false
deriving DecidableEq, Repr

/-- The JTAG instructions of R346's table, the LCS TAP by its reads and its writes. -/
inductive JtagInstr where
  | bypass | idcode | sample | extest | intest | preload | lcsRead | lcsWrite | debug
deriving DecidableEq, Repr

/-- The LCS block (17 LCS table), the JTAG instruction last selected (R346), with a token presented for the next transition (R342) and an outstanding challenge. -/
structure Lcs where
  state : LifeState := .raw
  unlocked : Bool := false
  pending : Bool := false
  burning : Bool := false
  burnFrom : Nat := 0
  repaired : Bool := false
  mismatch : Bool := false
  pendState : Nat := 0
  transStat : Nat := 0
  tokenFails : Nat := 0
  chal : Nat := 0
  dbgResult : Nat := 0
  granted : Nat := 0
  reqScope : Nat := 0
  reqPort : Port := .a
  chalBytes : Bytes := List.replicate 64 0
  chalAt : Nat := 0
  chalLive : Bool := false
  respLo : Nat := 0
  respHi : Nat := 0
  resp : Option Bytes := none
  grants : Nat := 0
  chalExpired : Bool := false
  tokenReady : Bool := false
  jtag : JtagInstr := .bypass
deriving DecidableEq, Repr

/-- One entry of MNF_REPORT (R354). -/
structure MnfReport where
  field : Nat
  reason : Nat
  read : Nat
  applied : Nat
deriving DecidableEq, Repr

/-- The MNF block with the applied values that have no other register (18 MNF table, R413), and the manifest's final key,
under which images are co-signed (R357). -/
structure Mnf where
  copy : Nat := 0
  service : Bool := false
  aFail : Nat := 0
  bFail : Nat := 0
  reports : List MnfReport := []
  reportOvf : Bool := false
  signer : Nat := 0
  depth : Nat := 0
  serial : Nat := 0
  format : Nat := 0
  digest : Bytes := List.replicate 32 0
  legacyWrite : Bool := false
  fwCosign : Bool := false
  refreshDays : Nat := 182
  nsid : Nat := 1
  smbAddr : Nat := 0x5A
  subsysVid : Nat := 0x1E9D
  subsysId : Nat := 0x7416
  keyAlg : Nat := 0
  key : Bytes := []
deriving DecidableEq, Repr

/-- The manifest flash (R348): it survives every reset. Firmware slots and manifest copies are byte strings; none is
unreadable, an empty string is erased. -/
structure Flash where
  manA : Option Bytes := some []
  manB : Option Bytes := some []
  slot0 : Bytes := []
  slot1 : Bytes := []
  ctl0 : Bytes := []
  ctl1 : Bytes := []
deriving DecidableEq, Repr

/-- The FWU block (18 FWU table), with the running stage and activation. `vaultFmt`, `migCommits`, `arbDue` and `actDone`,
the activation record last carried out, are kept in flash (R364-R367); `arbAt` is when the running anti-rollback step began,
`firstMark` the first time mark that lets the pending activation begin. -/
structure Fwu where
  active : Nat := 0
  trial : Bool := false
  fallback : Bool := false
  recovery : Bool := false
  migrating : Bool := false
  stage : Nat := 0
  stageResult : Nat := 0
  addrLo : Nat := 0
  addrHi : Nat := 0
  len : Nat := 0
  stagePort : Port := .a
  stageTarget : Nat := 0
  stageLen : Nat := 0
  stageData : Option Bytes := none
  migFrom : Nat := 0
  migTo : Nat := 0
  migPct : Nat := 0
  migCommits : Nat := 0
  vaultFmt : Nat := 0
  actDone : Bytes := []
  actResult : Nat := 0
  actCnt : Nat := 0
  fallbacks : Nat := 0
  activating : Bool := false
  arbDue : Bool := false
  arbAt : Option Nat := none
  firstMark : Option Nat := none
  ver : Bytes := List.replicate 8 0
deriving DecidableEq, Repr

end Sys2Proof
end

