-- ==== Sys2Proof/Parts/Ring.lean ====
section
/-! DEFINITION. State of the rings, the carriages and the release counters
(04_rings_doorbells_completions.md, 05_carriages.md, 07_provisional_release.md). -/
namespace Sys2Proof

/-- Ring states (R71, R73). -/
inductive RingState where
  | disabled | active | braked | frozen | error
deriving DecidableEq, Repr

/-- Ring types (R71). -/
inductive RingType where
  | none | sq | cq
deriving DecidableEq, Repr

/-- A fetched copy of an SQ entry (R84): whether its read is outstanding, its bytes, whether its phase was the expected
one, and whether it is final. -/
structure EntryCopy where
  asked : Bool := false
  bytes : Bytes := []
  phaseOk : Bool := false
  final : Bool := false
deriving DecidableEq, Repr

/-- A ring context (R71), with the device's bookkeeping beside it: entries taken since the last write-back (R87), the
coalescing count and the stamp of the first counted entry (R95), copies fetched (R84), siding credits held (R90), whether
this braking's alert was raised (R94), the sided entries (R91), each with its IMMEDIATE flag (R108), and the FENCE that
blocks taking (R98). -/
structure Ring where
  base : Nat := 0
  sizeK : Nat := 0
  type : RingType := .none
  state : RingState := .disabled
  error : Nat := 0
  hold : Bool := false
  ordered : Bool := false
  wbEn : Bool := false
  slice : Nat := 0
  mgr : Bool := false
  home : Port := .a
  cq : Nat := 0
  producer : Nat := 0
  consumer : Nat := 0
  sidingQuota : Nat := 0
  scrubByte : Nat := 0
  vector : Nat := 0
  vecEn : Bool := false
  coalCount : Nat := 0
  coalTime : Nat := 0
  outstanding : Nat := 0
  wbAddr : Nat := 0
  brakeStamp : Nat := 0
  sinceWb : Nat := 0
  coalCnt : Nat := 0
  coalAt : Nat := 0
  copies : Tbl EntryCopy := []
  sidingCr : Nat := 0
  alerted : Bool := false
  siding : List (Bytes × Bool) := []
  fence : Option Nat := none
deriving DecidableEq, Repr

/-- Where a carriage stands between its take and its completion (R86, R118, R97). -/
inductive Stage where
  | free | taken | admitted | running | finished
deriving DecidableEq, Repr

/-- The key a carriage is bound to at its admission (R104, R204, R205). -/
inductive KeyBind where
  | none
  | slot (index gen : Nat)
  | ticket (owner : Nat) (dek : Nat) (base count : Nat) (shadow : Bool)
  | legacy
  | owner (id : Nat)
  | anchor (index : Nat)
deriving DecidableEq, Repr

/-- Where one segment of a data carriage stands (R135-R139). -/
inductive SegState where
  | idle | fetching | ready | running | encrypted | writing | done
deriving DecidableEq, Repr

/-- One segment of a data carriage: its staged input, its output, the cell it runs on, its released prefix (R151),
the commands still outstanding for it, for REKEY the destination's serving region and whether the source verdict is PASS,
the block it has been sent to (R140), the staging granules it holds for its source and its destination, each with its region
and its place in the region's window, spill from 2,048 on, and the stamp of the reservation (R143, R144). -/
structure Seg where
  st : SegState := .idle
  data : Bytes := []
  out : Bytes := []
  tag : Bytes := []
  region : Nat := 0
  block : Nat := 0
  cell : Nat := 0
  released : Nat := 0
  left : Nat := 0
  dst : Bool := false
  dstRegion : Nat := 0
  queue : Option Nat := none
  hold : List (Nat × Nat) := []
  dstHold : List (Nat × Nat) := []
  at_ : Nat := 0
deriving DecidableEq, Repr

/-- Progress of a carriage's trailer (R129, R130). -/
inductive TrailerState where
  | none | reading | checked | writing | done
deriving DecidableEq, Repr

/-- One carriage: the entry taken, its ring and place in the take order, the admission it holds, the key it is bound to, its
segments, and what has been fetched for it. `fin` is the decided status and result word, waiting for R97; `refused` that it
was refused at admission, `stopped` that a stop cause has given its status (R158), `trailerHold` and `trailerAt` the granule and stamp of its trailer,
`sigs` how many signatures an engine has still to check for a quorum carriage, once it is asked to. -/
structure Carriage where
  stage : Stage := .free
  sq : Nat := 0
  pos : Nat := 0
  entry : Bytes := []
  order : Nat := 0
  sidingCredit : Bool := false
  admCsn : Nat := 0
  admAt : Nat := 0
  frags : List (Nat × Nat) := []
  asked : Bool := false
  chain : Nat := 0
  nextTable : Nat := 0
  nextCount : Nat := 0
  chainOk : Bool := true
  chainDone : Bool := false
  dmaFail : Bool := false
  ticket : Option Bytes := none
  record : Option Bytes := none
  key : KeyBind := .none
  dstKey : KeyBind := .none
  reserved : Option Nat := none
  firstIndex : Nat := 0
  segs : Tbl Seg := []
  trailer : TrailerState := .none
  trailerHold : List (Nat × Nat) := []
  trailerAt : Nat := 0
  tags : List Bytes := []
  scrubbed : Bool := false
  replayed : Bool := false
  degraded : Bool := false
  started : Bool := false
  held : Bool := false
  rnd : Bytes := []
  rngWait : Bool := false
  aux : Nat := 0
  sigs : Option Nat := none
  fin : Option (Nat × Nat) := none
  refused : Bool := false
  stopped : Bool := false
deriving DecidableEq, Repr

/-- A shadow slot (R40, R166): the carriage's ring and position it was unwrapped for, the ticket bytes and the key. `tag` is
the carriage's tag once its entry is taken. -/
structure Shadow where
  used : Bool := false
  tag : Option Nat := none
  sq : Nat := 0
  pos : Nat := 0
  addr : Nat := 0
  ticket : Bytes := []
  owner : Nat := 0
  dek : Nat := 0
  at_ : Nat := 0
deriving DecidableEq, Repr

/-- A doorbell write held in a port's inbound coupling (R100): the slice whose page it went to, none for a manager's, the ring
it names there, and its value. -/
structure HeldDb where
  port : Port
  slice : Option Nat
  ring : Nat
  value : Nat
deriving DecidableEq, Repr

/-- The carriage engine: rings, tags, siding, context cache, doorbell queue and counters (04, 05 and 07 register tables).
`tagShort` is that entries have waited for a tag, `lastSq` the SQ served last of each slice (R282). -/
structure Car where
  rings : Tbl Ring := []
  cars : Tbl Carriage := []
  shadows : Tbl Shadow := []
  takes : Nat := 0
  legWait : List Nat := []
  brakeAlert : Nat := 0x3E8
  sidingHwm : Nat := 0
  ctxHit : Nat := 0
  ctxMiss : Nat := 0
  badDb : Nat := 0
  dbq : List (Nat × Nat) := []
  dbqHwm : Nat := 0
  dbHeld : List HeldDb := []
  overrunCnt : Nat := 0
  sidingDrop : Nat := 0
  tagsHwm : Nat := 0
  refusedCnt : Nat := 0
  abortedCnt : Nat := 0
  scrubCarr : Nat := 0
  scrubBytes : Nat := 0
  shadowHits : Nat := 0
  shadowReread : Nat := 0
  unscrubCnt : Nat := 0
  cached : List Nat := []
  tagShort : Bool := false
  lastSq : Tbl Nat := []
deriving DecidableEq, Repr

end Sys2Proof
end

