-- ==== Sys2Proof/Machine/State.lean ====
section
/-! DEFINITION. The machine's state, assembled from the parts of every chapter, the reasons a step can stop, and the
state right after reset. -/
namespace Sys2Proof.Machine

/-- Why a step faults. The spec names no behaviour that stops the block, so no meaning raises it; safe. -/
inductive Fault where
  /-- Raised by nothing: every command of the block has an effect. Safe. -/
  | unreachable
deriving DecidableEq, Repr

/-- Why a step is refused. -/
inductive Refusal where
  /-- The command has no meaning in the model yet. Raised by Dispatch only. Safe. -/
  | notModelled (mnemonic : String)
deriving DecidableEq, Repr

/-- What the registers keep showing in FAULT: the parts of the state as they stood at the last CSN (R29). -/
structure Shown where
  hpt : Both HptPort
  stats : Both HptStats
  ttb : Ttb
  car : Car
  cay : Cay
  mdf : Mdf
  kst : Kst
  leg : Legacy
  vlt : Vault
  slc : Slc
  evr : Evr
  rng : Rng
  lat : Lat
  bnv : Bnv
  ucp : Ucp
  wld : Wld
  tmp : Tmp
  bbr : Backup
  lcs : Lcs
  fuses : Fuses
  mnf : Mnf
  fwu : Fwu
  drb : Drb
  mem : Mem
  gov : Gov
deriving DecidableEq, Repr

/-- The block's state. `pending` is the queue of commands, `out` everything the device has sent (oldest first), `free`
the model's own counter of free values drawn (log entry 3), `shown` what reads in FAULT return (R29); every other field is the
spec's. -/
structure State where
  pending : List Instr := []
  out : List Output := []
  free : Nat := 0
  now : Nat := 0
  csn : Nat := 0
  chp : Chp := {}
  pins : Pins := {}
  hpt : Both HptPort := ⟨{}, {}⟩
  stats : Both HptStats := ⟨{}, {}⟩
  win : Both PortWin := ⟨{}, {}⟩
  ttb : Ttb := {}
  car : Car := {}
  cay : Cay := {}
  mdf : Mdf := {}
  kst : Kst := {}
  leg : Legacy := {}
  vlt : Vault := {}
  slc : Slc := {}
  evr : Evr := {}
  rng : Rng := {}
  lat : Lat := {}
  bnv : Bnv := {}
  ucp : Ucp := {}
  wld : Wld := {}
  tmp : Tmp := {}
  bbr : Backup := {}
  lcs : Lcs := {}
  fuses : Fuses := {}
  mnf : Mnf := {}
  flash : Flash := {}
  fwu : Fwu := {}
  drb : Drb := {}
  mem : Mem := {}
  gov : Gov := {}
  shown : Option Shown := none
deriving DecidableEq, Repr

/-- The state right after reset: PORST_N asserted, every field at its reset value. The durable parts (fuses, flash,
vault devices, backup domain) are those of a new unit, which the spec does not give (log entry 5). -/
def State.reset : State := {}

end Sys2Proof.Machine
end

