-- ==== Sys2Proof/Machine/Tbl.lean ====
section
/-! DEFINITION. Tables: the value at a key, and a write that keeps the canonical form. -/
namespace Sys2Proof.Machine

/-- The value at key `k`; `d` where nothing is listed. -/
def tget {α : Type} (d : α) : Tbl α → Nat → α
  | [], _ => d
  | (j, v) :: t, k => if j = k then v else tget d t k

/-- The table with an entry at `k` listed, in key order; an entry already at `k` is replaced. -/
def tput {α : Type} (t : Tbl α) (k : Nat) (v : α) : Tbl α :=
  match t with
  | [] => [(k, v)]
  | (j, w) :: t => if k < j then (k, v) :: (j, w) :: t else if k = j then (k, v) :: t else (j, w) :: tput t k v

/-- The table with no entry at `k`. -/
def tdel {α : Type} (t : Tbl α) (k : Nat) : Tbl α :=
  match t with
  | [] => []
  | (j, w) :: t => if j = k then t else (j, w) :: tdel t k

/-- The table with the value at `k` set: writing the default removes the entry. -/
def tset {α : Type} [DecidableEq α] (d : α) (t : Tbl α) (k : Nat) (v : α) : Tbl α :=
  if v = d then tdel t k else tput t k v

/-- The table with the value at `k` changed by `f`. -/
def tupd {α : Type} [DecidableEq α] (d : α) (t : Tbl α) (k : Nat) (f : α → α) : Tbl α :=
  tset d t k (f (tget d t k))

/-- Every key of the table is above `k`. -/
def tabove {α : Type} (k : Nat) (t : Tbl α) : Bool := t.all (fun e => k < e.1)

/-- The canonical form: keys strictly rising, no entry equal to the default. -/
def twf {α : Type} [DecidableEq α] (d : α) : Tbl α → Bool
  | [] => true
  | (k, v) :: t => tabove k t && v != d && twf d t

/-- The keys whose value passes the test, in rising order. -/
def tkeys {α : Type} (t : Tbl α) (f : Nat → α → Bool) : List Nat :=
  (t.filter (fun e => f e.1 e.2)).map (·.1)

/-- How many listed values pass the test. -/
def tcount {α : Type} (t : Tbl α) (f : Nat → α → Bool) : Nat := (tkeys t f).length

/-- Some listed value passes the test. -/
def tany {α : Type} (t : Tbl α) (f : Nat → α → Bool) : Bool := t.any (fun e => f e.1 e.2)

/-- Every listed value changed by `f` (with its key); entries that become the default leave the table. -/
def tmap {α : Type} [DecidableEq α] (d : α) (f : Nat → α → α) : Tbl α → Tbl α
  | [] => []
  | (k, v) :: t => if f k v = d then tmap d f t else (k, f k v) :: tmap d f t

/-- The least number from `i` on, among `k` of them, at which the test holds. -/
def firstFrom : Nat → Nat → (Nat → Bool) → Option Nat
  | 0, _, _ => none
  | k + 1, i, f => if f i then some i else firstFrom k (i + 1) f

/-- The least number below `n` at which the test holds. -/
def firstBelow (n : Nat) (f : Nat → Bool) : Option Nat := firstFrom n 0 f

end Sys2Proof.Machine
end

