-- ==== Sys2Proof/Machine/Ops.lean ====
section
/-! DEFINITION. The named operations every meaning is written over: updates of one part of the state, the commit
sequencer, outputs, interrupts, event records and free values. -/
namespace Sys2Proof.Machine

/-- The outcome of a command. -/
abbrev Res := Host.Outcome State Fault Refusal

/-! ### Updates of one part -/

/-- The carriage engine changed by `f`. -/
def updCar (f : Car → Car) (s : State) : State := { s with car := f s.car }
/-- The cipher array changed by `f`. -/
def updCay (f : Cay → Cay) (s : State) : State := { s with cay := f s.cay }
/-- The media fabric changed by `f`. -/
def updMdf (f : Mdf → Mdf) (s : State) : State := { s with mdf := f s.mdf }
/-- The key store changed by `f`. -/
def updKst (f : Kst → Kst) (s : State) : State := { s with kst := f s.kst }
/-- The vault and quorum engines changed by `f`. -/
def updVlt (f : Vault → Vault) (s : State) : State := { s with vlt := f s.vlt }
/-- The slice manager changed by `f`. -/
def updSlc (f : Slc → Slc) (s : State) : State := { s with slc := f s.slc }
/-- The event recorder changed by `f`. -/
def updEvr (f : Evr → Evr) (s : State) : State := { s with evr := f s.evr }
/-- The random chain changed by `f`. -/
def updRng (f : Rng → Rng) (s : State) : State := { s with rng := f s.rng }
/-- The tamper block changed by `f`. -/
def updTmp (f : Tmp → Tmp) (s : State) : State := { s with tmp := f s.tmp }
/-- The world block changed by `f`. -/
def updWld (f : Wld → Wld) (s : State) : State := { s with wld := f s.wld }
/-- The life-cycle block changed by `f`. -/
def updLcs (f : Lcs → Lcs) (s : State) : State := { s with lcs := f s.lcs }
/-- The firmware update block changed by `f`. -/
def updFwu (f : Fwu → Fwu) (s : State) : State := { s with fwu := f s.fwu }
/-- The drawbar changed by `f`. -/
def updDrb (f : Drb → Drb) (s : State) : State := { s with drb := f s.drb }
/-- The governor changed by `f`. -/
def updGov (f : Gov → Gov) (s : State) : State := { s with gov := f s.gov }
/-- The utility cipher changed by `f`. -/
def updUcp (f : Ucp → Ucp) (s : State) : State := { s with ucp := f s.ucp }
/-- The big-number verifier changed by `f`. -/
def updBnv (f : Bnv → Bnv) (s : State) : State := { s with bnv := f s.bnv }
/-- The lattice unit changed by `f`. -/
def updLat (f : Lat → Lat) (s : State) : State := { s with lat := f s.lat }
/-- The turntable block changed by `f`. -/
def updTtb (f : Ttb → Ttb) (s : State) : State := { s with ttb := f s.ttb }
/-- Port `p`'s HPT block changed by `f`. -/
def updHpt (p : Port) (f : HptPort → HptPort) (s : State) : State := { s with hpt := s.hpt.upd p f }
/-- Port `p`'s statistics, configuration mirrors and MSI-X table changed by `f`. -/
def updStats (p : Port) (f : HptStats → HptStats) (s : State) : State := { s with stats := s.stats.upd p f }
/-- Port `p`'s register copies (R404) changed by `f`. -/
def updWin (p : Port) (f : PortWin → PortWin) (s : State) : State := { s with win := s.win.upd p f }

/-- The share epoch that holds the current stamp: at its start the weights written before it take effect and the accounting
starts afresh (R43, R139, R282). -/
def shareSync (s : State) : State :=
  if s.now / 1000 > s.cay.epoch then
    updSlc (fun x => { x with slices := tmap {} (fun _ y => { y with weightNow := y.weight }) x.slices })
      (updCay (fun c => { c with charge := [], tagCharge := [], epoch := s.now / 1000 }) s)
  else s

/-! ### One entry of a table -/

/-- The context of ring `g` (R71). -/
def ringOf (s : State) (g : Nat) : Ring := tget {} s.car.rings g
/-- Ring `g`'s context changed by `f`. -/
def updRing (g : Nat) (f : Ring → Ring) (s : State) : State :=
  updCar (fun c => { c with rings := tupd {} c.rings g f }) s
/-- The carriage that holds tag `t` (R117). -/
def carrOf (s : State) (t : Nat) : Carriage := tget {} s.car.cars t
/-- The carriage of tag `t` changed by `f`. -/
def updCarr (t : Nat) (f : Carriage → Carriage) (s : State) : State :=
  updCar (fun c => { c with cars := tupd {} c.cars t f }) s
/-- Slice `n`'s table entry (R277). -/
def sliceOf (s : State) (n : Nat) : Slice := tget {} s.slc.slices n
/-- Slice `n`'s entry changed by `f`. -/
def updSlice (n : Nat) (f : Slice → Slice) (s : State) : State :=
  updSlc (fun c => { c with slices := tupd {} c.slices n f }) s
/-- Working slot `i` (R194). -/
def slotOf (s : State) (i : Nat) : Slot := tget {} s.kst.slots i
/-- Working slot `i` changed by `f`. -/
def updSlot (i : Nat) (f : Slot → Slot) (s : State) : State :=
  updKst (fun k => { k with slots := tupd {} k.slots i f }) s
/-- Owner `i`'s record (R218). -/
def ownerOf (s : State) (i : Nat) : Owner := tget {} s.vlt.img.owners i
/-- Drive `d`, 0 to 511. -/
def driveOf (s : State) (d : Nat) : Drive := tget {} s.mdf.drives d
/-- Drive `d` changed by `f`. -/
def updDrive (d : Nat) (f : Drive → Drive) (s : State) : State :=
  updMdf (fun m => { m with drives := tupd {} m.drives d f }) s
/-- Drive `d`'s diagnostic counts. -/
def diagOf (s : State) (d : Nat) : DriveDiag := tget {} s.mdf.diag d
/-- Drive `d`'s diagnostic counts changed by `f`. -/
def updDiag (d : Nat) (f : DriveDiag → DriveDiag) (s : State) : State :=
  updMdf (fun m => { m with diag := tupd {} m.diag d f }) s
/-- Shelf `n`. -/
def shelfOf (s : State) (n : Nat) : Shelf := tget {} s.mdf.shelves n
/-- Shelf `n` changed by `f`. -/
def updShelf (n : Nat) (f : Shelf → Shelf) (s : State) : State :=
  updMdf (fun m => { m with shelves := tupd {} m.shelves n f }) s
/-- Sideband link `n`. -/
def linkOf (s : State) (n : Nat) : SbLink := tget {} s.mdf.links n
/-- Sideband link `n` changed by `f`. -/
def updLink (n : Nat) (f : SbLink → SbLink) (s : State) : State :=
  updMdf (fun m => { m with links := tupd {} m.links n f }) s
/-- Region `r` of the cipher array. -/
def regionOf (s : State) (r : Nat) : Region := tget {} s.cay.regions r
/-- Region `r` changed by `f`. -/
def updRegion (r : Nat) (f : Region → Region) (s : State) : State :=
  updCay (fun c => { c with regions := tupd {} c.regions r f }) s
/-- The working part of region `r`: its blocks and further counts. -/
def workOf (s : State) (r : Nat) : RegionWork := tget {} s.cay.work r
/-- The working part of region `r` changed by `f`. -/
def updWork (r : Nat) (f : RegionWork → RegionWork) (s : State) : State :=
  updCay (fun c => { c with work := tupd {} c.work r f }) s
/-- Block `b` of region `r`. -/
def blockOf (s : State) (r b : Nat) : Block := tget {} (workOf s r).blocks b
/-- Block `b` of region `r` changed by `f`. -/
def updBlock (r b : Nat) (f : Block → Block) (s : State) : State :=
  updWork r (fun w => { w with blocks := tupd {} w.blocks b f }) s
/-- Turntable `n` (R58). -/
def tableOf (s : State) (n : Nat) : Turntable := tget {} s.ttb.tables n
/-- Turntable `n` changed by `f`. -/
def updTable (n : Nat) (f : Turntable → Turntable) (s : State) : State :=
  updTtb (fun t => { t with tables := tupd {} t.tables n f }) s
/-- Open proposal place `i` (R236). -/
def propOf (s : State) (i : Nat) : Proposal := tget {} s.vlt.props i
/-- Proposal `i` changed by `f`. -/
def updProp (i : Nat) (f : Proposal → Proposal) (s : State) : State :=
  updVlt (fun v => { v with props := tupd {} v.props i f }) s

/-! ### Modes -/

/-- Core power is on, PORST_N is deasserted and the device is not Dormant. -/
def powered (s : State) : Bool := !s.chp.inReset && !s.gov.dormant

/-- The device is in FAULT (R29). -/
def inFault (s : State) : Bool := s.chp.mode == .fault

/-- The device's engines run: powered, booted, neither in FAULT nor in firmware recovery. -/
def live (s : State) : Bool := powered s && (s.chp.mode == .running || s.chp.mode == .service)

/-- The outcome of a command that acts only where `g` holds: elsewhere its trigger does not hold and nothing changes
(log entry 1). -/
def onlyIf (g : Bool) (s t : State) : Res := .next (if g then t else s)

/-- The unit id's 16 bytes (R2). -/
def unitId16 : Bytes := padTo 16 Config.unitId

/-- The code of a life-cycle state (R335). -/
def lifeCode : LifeState → Nat
  | .raw => 0 | .test0 => 1 | .test1 => 2 | .test2 => 3 | .test3 => 4 | .mfg => 5 | .field => 6 | .return_ => 7
  | .terminal => 8

/-- What the registers show is kept from now on: the device enters FAULT (R29). -/
def keepShown (s : State) : State :=
  { s with
    shown := some {
      hpt := s.hpt, stats := s.stats, ttb := s.ttb, car := s.car, cay := s.cay, mdf := s.mdf, kst := s.kst
      leg := s.leg, vlt := s.vlt, slc := s.slc, evr := s.evr, rng := s.rng, lat := s.lat, bnv := s.bnv, ucp := s.ucp
      wld := s.wld, tmp := s.tmp, bbr := s.bbr, lcs := s.lcs, fuses := s.fuses, mnf := s.mnf, fwu := s.fwu
      drb := s.drb, mem := s.mem, gov := s.gov } }

/-- The state that register reads see: in FAULT that of the last CSN, but for TMP_LATCH and the class counters (R29, R31). -/
def seen (s : State) : State :=
  match s.shown with
  | none => s
  | some v =>
    { s with
      hpt := v.hpt, stats := v.stats, ttb := v.ttb, car := v.car, cay := v.cay, mdf := v.mdf, kst := v.kst
      leg := v.leg, vlt := v.vlt, slc := v.slc, evr := v.evr, rng := v.rng, lat := v.lat, bnv := v.bnv, ucp := v.ucp
      wld := v.wld, bbr := v.bbr, lcs := v.lcs, fuses := v.fuses, mnf := v.mnf, fwu := v.fwu, drb := v.drb
      mem := v.mem, gov := v.gov
      tmp := { v.tmp with latch := s.tmp.latch, cntA := s.tmp.cntA, cntB := s.tmp.cntB, cntC := s.tmp.cntC } }

/-! ### The commit sequencer -/

/-- One sequenced action takes the next CSN (R24). In FAULT none is assigned here (R29). -/
def seqd (s : State) : State := if inFault s then s else { s with csn := s.csn + 1 }

/-- A register write takes a CSN only where it changes state (R25). -/
def seqIf (changes : Bool) (s : State) : State := if changes then seqd s else s

/-- The CSN of a completion of FAULT (R29), assigned in every mode. -/
def seqdAlways (s : State) : State := { s with csn := s.csn + 1 }

/-! ### Free values -/

/-- The next free value (log entry 3). -/
def drawn (s : State) : Nat := Config.freeNat s.free

/-- The state with the next free value drawn. -/
def draw (s : State) : State := { s with free := s.free + 1 }

/-- A duration the device takes, of at most `most` µs: the spec gives only the limit (log entry 4). -/
def within (most : Nat) (s : State) : Nat := s.now + min most (drawn s)

/-! ### Outputs, interrupts -/

/-- The state with `o` sent. -/
def emit (o : Output) (s : State) : State := { s with out := s.out ++ [o] }

/-- The answer to a register read (R31). -/
def answer (p : Port) (v : Nat) (s : State) : State := emit (.answer p v) s

/-- A host write through port `p` (R52); nothing leaves a port whose link is down (R162). -/
def dmaWrite (p : Port) (pasid : Option Nat) (relaxed : Bool) (addr : Nat) (data : Bytes) (s : State) : State :=
  if (s.hpt.get p).up && !data.isEmpty then
    updStats p (fun h => { h with dmaWr := h.dmaWr + data.length })
      (emit (.dmaWrite p pasid relaxed addr data) s)
  else s

/-- The most bytes one read request of port `p` asks for: 4 KiB, and the port's Max Read Request Size (R45, R410; the codes
are PCIe's, log entry 33). -/
def mrrsBytes (s : State) (p : Port) : Nat := min 4096 (128 * 2 ^ (s.stats.get p).cfg.mrrs)

/-- A range of host memory in requests of at most `m` bytes, none of which crosses a multiple of `m`; `k` bounds their
number. -/
def readCuts : Nat → Nat → Nat → Nat → List (Nat × Nat)
  | 0, _, _, _ => []
  | k + 1, m, addr, len =>
    if len == 0 then []
    else
      let n := min len (m - addr % m)
      (addr, n) :: readCuts k m (addr + n) (len - n)

/-- Requests of port `p` that are outstanding (R45). -/
def readsOut (h : HptStats) : Nat := (h.reads.filter (·.sent)).length

/-- The first `n` requests that wait are sent. -/
def markSent : Nat → List ReadReq → List ReadReq
  | _, [] => []
  | n, r :: rs => if r.sent then r :: markSent n rs else if n == 0 then r :: rs else { r with sent := true } :: markSent (n - 1) rs

/-- Waiting requests of port `p` go out in order while fewer than 768 are outstanding (R45). -/
def issueReads (p : Port) (s : State) : State :=
  let h := s.stats.get p
  let n := 768 - readsOut h
  let now := (h.reads.filter (!·.sent)).take n
  let l := markSent n h.reads
  updStats p (fun h => { h with reads := l, npHwm := max h.npHwm (readsOut h + now.length) })
    { s with out := s.out ++ now.map (fun r => Output.dmaRead p r.pasid r.addr r.len) }

/-- Host reads through port `p` for one purpose (R52); earlier requests for it are forgotten (log entry 80). -/
def dmaReads (w : DmaRead) (p : Port) (pasid : Option Nat) (parts : List (Nat × Nat)) (s : State) : State :=
  if (s.hpt.get p).up then
    let m := mrrsBytes s p
    let new := parts.flatMap (fun x => (readCuts (x.2 / m + 2) m x.1 x.2).map (fun y =>
      ({ what := w, pasid := pasid, addr := y.1, len := y.2 } : ReadReq)))
    issueReads p (updStats p (fun h => { h with reads := h.reads.filter (·.what != w) ++ new }) s)
  else s

/-- One host read through port `p` (R52). -/
def dmaRead (w : DmaRead) (p : Port) (pasid : Option Nat) (addr len : Nat) (s : State) : State :=
  dmaReads w p pasid [(addr, len)] s

/-- A read whose answer comes within the command that asks (R45, R166): nothing of it stays outstanding. -/
def readAtOnce (p : Port) (pasid : Option Nat) (addr len : Nat) (s : State) : State :=
  if (s.hpt.get p).up then
    updStats p (fun h => { h with npHwm := max h.npHwm (readsOut h + 1) }) (emit (.dmaRead p pasid addr len) s)
  else s

/-- A request for purpose `w` of port `p` still waits to be sent. -/
def readWaits (w : DmaRead) (p : Port) (s : State) : Bool := (s.stats.get p).reads.any (fun r => r.what == w && !r.sent)

/-- The requests of port `p` for purpose `w` are no longer outstanding; others that waited may go (R45). -/
def dropReads (w : DmaRead) (p : Port) (s : State) : State :=
  issueReads p (updStats p (fun h => { h with reads := h.reads.filter (·.what != w) }) s)

/-- MSI-X vector `v` of port `p` fires, or sets its pending bit where it is masked (R54). -/
def msixFire (p : Port) (v : Nat) (s : State) : State :=
  let h := s.stats.get p
  let e := tget {} h.msix v
  if !(s.hpt.get p).up || !h.cfg.msixEn then s
  else if h.cfg.fnMask || e.masked then updStats p (fun h => { h with pba := tset false h.pba v true }) s
  else updStats p (fun h => { h with msixTx := satInc 32 h.msixTx }) (emit (.msix p v e.addr e.data) s)

/-- The port's HPT block is held at reset: from a port loss until it is host-ready again (R48). -/
def held (h : HptPort) : Bool := h.lossCnt != 0 && !h.ready

/-- Cause `i` of port `p`'s HPT_INT_STAT is set (R408): it fires vector 0 where it was clear and is enabled (R54).
A port that is lost collects no cause (R48, R55). -/
def setInt (p : Port) (i : Nat) (s : State) : State :=
  let h := s.hpt.get p
  if held h then s
  else
    let t := updHpt p (fun h => { h with intStat := h.intStat ||| (1 <<< i) }) s
    if !h.intStat.getLsbD i && h.intEn.getLsbD i then msixFire p 0 t else t

/-- A cause marked "both" (R55, R408). -/
def setIntBoth (i : Nat) (s : State) : State := setInt .b i (setInt .a i s)

/-! ### Event records (16) -/

/-- The TYPE field of a record (R327). -/
def recCode : RecType → Nat
  | .boot => 0x0001 | .seal => 0x0002 | .sealSig => 0x0003 | .overflow => 0x0004 | .overflowEnd => 0x0005
  | .floorRaised => 0x0006 | .flushFail => 0x0007 | .ringError => 0x0101 | .brakeAlert => 0x0102
  | .portLoss => 0x0201 | .arrayFault => 0x0301 | .shelfState => 0x0401 | .drive => 0x0402 | .legacy => 0x0501
  | .vault => 0x0601 | .shred => 0x0602 | .rng => 0x0701 | .world => 0x0801 | .alarm => 0x0901
  | .manifest => 0x0A01 | .fault => 0x0B01 | .govClamp => 0x0B02 | .lifeCycle => 0x0C01 | .firmware => 0x0D01
  | .drawbar => 0x0E01
  | .memError => Config.memErrorType

/-- LEN of a record: its header and its payload, in multiples of 8 (R325). -/
def recLen (r : EvRec) : Nat := 16 + 8 * ceilDiv r.payload.length 8

/-- The bytes of a record (R325). -/
def recBytes (r : EvRec) : Bytes :=
  natLe 2 (recLen r) ++ natLe 2 (recCode r.type) ++ natLe 4 r.seq ++ natLe 8 r.time ++ padTo (recLen r - 16) r.payload

/-- Bytes in the buffer (BUF_OCC). -/
def bufOcc (e : Evr) : Nat := (e.buf.map recLen).sum

/-- The records that are never displaced (R334). -/
def keeps (r : EvRec) : Bool :=
  match r.type with
  | .alarm | .fault | .overflow | .seal | .sealSig => true
  | _ => false

/-- The size of the event buffer: 256 KiB. -/
def bufSize : Nat := 262144

/-- A buffer without its oldest displaceable record, and that record. -/
def takeOldest : List EvRec → Option (EvRec × List EvRec)
  | [] => none
  | r :: rs => if keeps r then (takeOldest rs).map (fun x => (x.1, r :: x.2)) else some (r, rs)

/-- One displacement or drop counted, of the record with SEQ `q` (R334). -/
def countLost (q : Nat) (e : Evr) : Evr :=
  { e with
    ovfCnt := satInc 32 e.ovfCnt
    displacing := true
    ovfFirst := if e.displacing then e.ovfFirst else q
    ovfLast := q
    ovfSpell := (if e.displacing then e.ovfSpell else 0) + 1
    ovfEndDue := true }

/-- Room of `n` bytes in the buffer: the oldest records are displaced until it is free; whether it is. -/
def makeRoom : Nat → Nat → Evr → Bool × Evr
  | 0, n, e => (bufOcc e + n ≤ bufSize, e)
  | k + 1, n, e =>
    if bufOcc e + n ≤ bufSize then (true, e)
    else
      match takeOldest e.buf with
      | none => (false, e)
      | some (r, rest) => makeRoom k n (countLost r.seq { e with buf := rest })

/-- A record created and put into the buffer, displacing older ones where there is no room (R326, R334). -/
def push (t : RecType) (time : Nat) (payload : Bytes) (e : Evr) : Evr :=
  let r : EvRec := { type := t, seq := e.nextSeq, time := time, payload := payload }
  let e1 := { e with nextSeq := (e.nextSeq + 1) % 2 ^ 32 }
  let m := makeRoom 64 (recLen r) e1
  let e2 := if m.1 then { m.2 with buf := m.2.buf ++ [r] } else countLost r.seq m.2
  { e2 with bufHwm := max e2.bufHwm (bufOcc e2) }

/-- A record created; the first displacement of a spell is followed by an OVERFLOW record (R334). -/
def create (t : RecType) (now time : Nat) (payload : Bytes) (e : Evr) : Evr :=
  let x := push t time payload e
  if x.displacing && !e.displacing then push .overflow now (natLe 4 x.ovfFirst ++ zeros 4) x else x

/-- A record written at stamp `time`; before this boot's BOOT record it waits, and takes its SEQ after that one (R326). -/
def recordAt (t : RecType) (time : Nat) (payload : Bytes) (s : State) : State :=
  if s.evr.booted then { s with evr := create t s.now time payload s.evr }
  else { s with evr := { s.evr with early := s.evr.early ++ [{ type := t, time := time, payload := payload }] } }

/-- A record written now. -/
def record (t : RecType) (payload : Bytes) (s : State) : State := recordAt t s.now payload s

/-- A record of a sequenced action: its payload begins with the CSN (R326). -/
def recordSeq (t : RecType) (payload : Bytes) (s : State) : State := record t (natLe 8 s.csn ++ payload) s

/-! ### Register accesses -/

/-- The blocks of the register map (R398) with the pages of BAR2 and the windows of BAR4. -/
inductive Blk where
  | chp | ttb | hpt | car | slc | cay | mdf | kst | ucp | lat | bnv | rng | tmp | evr | lcs | mnf | fwu | drb | mem | wld
  | gov | page | bar4
deriving DecidableEq, Repr

/-- The block answers in the device's mode (R406). -/
def blkAnswers (b : Blk) (s : State) : Bool :=
  if s.lcs.state == .terminal then b == .chp || b == .lcs
  else if s.chp.mode == .recovery then b == .chp || b == .lcs || b == .mnf || b == .fwu
  else true

/-- Port `p` can be reached by host requests: its link is up and it is host-ready (R48, R49). -/
def reach (p : Port) (s : State) : Bool := powered s && (s.hpt.get p).up && (s.hpt.get p).ready

/-- A register write of port `p` reaches block `b`; in FAULT writes are ignored (R29, R406). -/
def wr (p : Port) (b : Blk) (s : State) : Bool :=
  reach p s && blkAnswers b s && !inFault s && s.lcs.state != .terminal

/-- A register read of port `p` that changes state: outside FAULT only (R29). -/
def rdLive (p : Port) (b : Blk) (s : State) : Bool := wr p b s

/-- The write is counted in REG_WR (R410). -/
def cntWr (p : Port) (s : State) : State := updStats p (fun h => { h with regWr := satInc 32 h.regWr }) s

/-- The read is counted in REG_RD (R410); in FAULT counts stand still (R29). -/
def cntRd (p : Port) (s : State) : State :=
  if inFault s then s else updStats p (fun h => { h with regRd := satInc 32 h.regRd }) s

/-- A write ignored under R401 is counted. -/
def rangeErr (p : Port) (s : State) : State := updHpt p (fun h => { h with rangeCnt := satInc 32 h.rangeCnt }) s

/-- A guarded write from the wrong port is counted (R57). -/
def guardErr (p : Port) (s : State) : State := updHpt p (fun h => { h with guardCnt := satInc 32 h.guardCnt }) s

/-- Port `p` holds turntable `n` (R57). -/
def holds (p : Port) (n : Nat) (s : State) : Bool := (tableOf s n).holder == some p

/-! ### Where an offset lies (R398) -/

/-- A register's block and its offset in it: MDP keeps MDF's block with `mdp` set; `peer` is the other port's HPT block. -/
structure Place where
  blk : Blk
  off : Nat
  mdp : Bool := false
  peer : Bool := false
deriving DecidableEq, Repr

/-- The block of a BAR0 offset; none outside every block (R398). -/
def barBlock (off : Nat) : Option Place :=
  let at_ (b : Blk) (base : Nat) : Option Place := some { blk := b, off := off - base }
  if off < 0x1000 then at_ .chp 0
  else if off < 0x2000 then at_ .ttb 0x1000
  else if off < 0x3000 then at_ .hpt 0x2000
  else if off < 0x4000 then some { blk := .hpt, off := off - 0x3000, peer := true }
  else if off < 0x10000 then none
  else if off < 0x20000 then at_ .car 0x10000
  else if off < 0x40000 then at_ .slc 0x20000
  else if off < 0x50000 then at_ .cay 0x40000
  else if off < 0x60000 then none
  else if off < 0x70000 then at_ .mdf 0x60000
  else if off < 0x80000 then none
  else if off < 0x88000 then some { blk := .mdf, off := off - 0x80000, mdp := true }
  else if off < 0x100000 then none
  else if off < 0x110000 then at_ .kst 0x100000
  else if off < 0x120000 then at_ .ucp 0x110000
  else if off < 0x130000 then at_ .lat 0x120000
  else if off < 0x140000 then at_ .bnv 0x130000
  else if off < 0x180000 then none
  else if off < 0x190000 then at_ .rng 0x180000
  else if off < 0x1A0000 then at_ .tmp 0x190000
  else if off < 0x1B0000 then at_ .evr 0x1A0000
  else if off < 0x1C0000 then none
  else if off < 0x1D0000 then at_ .lcs 0x1C0000
  else if off < 0x1E0000 then at_ .mnf 0x1D0000
  else if off < 0x1F0000 then at_ .fwu 0x1E0000
  else if off < 0x200000 then at_ .drb 0x1F0000
  else if off < 0x210000 then at_ .mem 0x200000
  else if off < 0x220000 then at_ .wld 0x210000
  else if off < 0x230000 then at_ .gov 0x220000
  else none

/-- The offset lies in one of the ranges, each named by its first and last register. -/
def among (l : List (Nat × Nat)) (off : Nat) : Bool := l.any (fun r => r.1 ≤ off && off < r.2 + 4)

/-- The registers of a block that a field table defines, as ranges of their offsets (R398). -/
def fieldRanges (b : Blk) : List (Nat × Nat) :=
  match b with
  | .chp => [(0, 8), (0x10, 0x1C), (0x40, 0x48), (0x50, 0x54), (0x60, 0x68)]
  | .ttb => [(0, 0x3FC), (0x400, 0x400)]
  | .hpt => [(0, 0x2C), (0x40, 0x68), (0x80, 0xA4), (0x100, 0x128), (0x140, 0x17C)]
  | .car => [(0, 0x90), (0xA0, 0xB4), (0x8000, 0x9FFC)]
  | .slc => [(0, 0x24), (0x30, 0x38), (0x40, 0x50), (0x1000, 0x11FC)]
  | .cay => [(0, 0x9C)]
  | .mdf => [(0, 8), (0x10, 0x50), (0x60, 0x68), (0x80, 0xF0)]
  | .kst => [(0, 0x14), (0x20, 0x24), (0x40, 0x54), (0x60, 0x6C), (0x80, 0x90), (0x100, 0x14C), (0x200, 0x234), (0x240, 0x24C)]
  | .ucp => [(0, 0x38), (0x40, 0x48), (0x50, 0x5C), (0x60, 0x68)]
  | .lat => [(0, 0x18), (0x20, 0x34), (0x3C, 0x44)]
  | .bnv => [(0, 0x0C), (0x20, 0x3C), (0x100, 0x114), (0x140, 0x154)]
  | .rng => [(0, 0x40), (0x60, 0x90)]
  | .tmp => [(0, 0x34), (0x40, 0x54), (0x80, 0xEC)]
  | .evr => [(0, 0x40)]
  | .lcs => [(0, 0x30), (0x40, 0x94), (0xA0, 0xA4)]
  | .mnf => [(0, 8), (0x10, 0x2C), (0x40, 0x4C), (0x1000, 0x1FFC)]
  | .fwu => [(0, 0x34)]
  | .drb => [(0, 0x28), (0x40, 0x5C)]
  | .mem => [(0, 0x14), (0x20, 0x30)]
  | .wld => [(0, 0x28), (0x30, 0x38), (0x40, 0x9C)]
  | .gov => [(0, 0x18), (0x20, 0x2C), (0x40, 0x44)]
  | .page => [(0, 0x11FC), (0x1200, 0x1204), (0x1300, 0x134C), (0x1400, 0x1418)]
  | .bar4 => [(0, 0x1FFFC), (0x80000, 0x80FFC), (0xC0000, 0xC80FC)]

/-- A field table defines the register at this place (R398). -/
def isDefined (x : Place) : Bool :=
  match x.blk with
  | .cay => among (fieldRanges .cay) (x.off % 0x4000)
  | .mdf => if x.mdp then x.off % 0x40 < 8 else among (fieldRanges .mdf) x.off
  | .mnf => among (fieldRanges .mnf) x.off && (x.off < 0x1000 || x.off % 16 < 12)
  | b => among (fieldRanges b) x.off

/-- The register at a BAR0 offset; none where the offset is reserved: outside every block, or with no field table in its block
(R398). -/
def placeOf (off : Nat) : Option Place := (barBlock off).filter isDefined

end Sys2Proof.Machine
end

