-- ==== Sys2Proof/Machine/Pqc.lean ====
section
/-! DEFINITION. ML-KEM-1024 (FIPS 203) and ML-DSA-65 and ML-DSA-87 (FIPS 204), which the lattice unit performs (R259). The
standards are outside the spec: their arithmetic here is PRESUMED (log entry 7). -/
namespace Sys2Proof.Machine

/-- A polynomial by its 256 coefficients, least degree first. -/
abbrev Poly := List Nat

/-- Coefficient `i`. -/
def coef (f : Poly) (i : Nat) : Nat := f.getD i 0

/-- The sum of two polynomials modulo `q`. -/
def polyAdd (q : Nat) (f g : Poly) : Poly := List.zipWith (fun x y => (x + y) % q) f g

/-- The difference of two polynomials modulo `q`. -/
def polySub (q : Nat) (f g : Poly) : Poly := List.zipWith (fun x y => (x + q - y) % q) f g

/-- `i` of `n` bits with its bits in reverse. -/
def bitRev : Nat → Nat → Nat
  | 0, _ => 0
  | n + 1, i => (i % 2) * 2 ^ n + bitRev n (i / 2)

/-- The powers of `z` modulo `q`, `n` of them. -/
def powers (q z n : Nat) : Array Nat := ((List.range n).foldl (fun (x : Array Nat × Nat) _ => (x.1.push x.2, x.2 * z % q)) (#[], 1)).1

/-- The values of `n` bits each in a byte string, least significant bit first. -/
def unpack (n : Nat) (b : Bytes) : List Nat :=
  let x := leNat b
  (List.range (8 * b.length / n)).map (fun i => x / 2 ^ (n * i) % 2 ^ n)

/-- The values packed at `n` bits each, least significant bit first. -/
def pack (n : Nat) (xs : List Nat) : Bytes :=
  natLe (ceilDiv (n * xs.length) 8) (xs.foldr (fun x acc => x % 2 ^ n + 2 ^ n * acc) 0)

/-! ### ML-KEM-1024 (FIPS 203) -/

/-- The modulus of ML-KEM. -/
def kq : Nat := 3329

/-- The powers of 17, a 256th root of unity modulo 3329. -/
@[irreducible] def kPow : Array Nat := powers kq 17 256

/-- The power of the root that belongs to pair `i` of an ML-KEM transform. -/
def kExp (i : Nat) : Nat := 2 * bitRev 7 i + 1

/-- The transform: pair `i` is the remainder modulo X² minus the root's power. -/
def kNtt (f : Poly) : Poly :=
  let a := f.toArray
  (List.range 256).map (fun m =>
    ((List.range 128).foldl (fun acc j => acc + a.getD (2 * j + m % 2) 0 * kPow.getD (kExp (m / 2) * j % 256) 0) 0) % kq)

/-- The inverse transform. -/
def kInv (f : Poly) : Poly :=
  let a := f.toArray
  (List.range 256).map (fun m =>
    ((List.range 128).foldl (fun acc i =>
      acc + a.getD (2 * i + m % 2) 0 * kPow.getD ((256 - kExp i * (m / 2) % 256) % 256) 0) 0) * 3303 % kq)

/-- The product of two transforms. -/
def kMul (f g : Poly) : Poly :=
  (List.range 256).map (fun m =>
    let i := m / 2
    let a0 := coef f (2 * i); let a1 := coef f (2 * i + 1); let b0 := coef g (2 * i); let b1 := coef g (2 * i + 1)
    if m % 2 = 0 then (a0 * b0 + a1 * b1 % kq * kPow.getD (kExp i % 256) 0) % kq else (a0 * b1 + a1 * b0) % kq)

/-- The inner product of two vectors of transforms. -/
def kDot (x y : List Poly) : Poly := (List.zipWith kMul x y).foldl (polyAdd kq) (List.replicate 256 0)

/-- The accepted numbers of SampleNTT among three-byte groups. -/
def kReject (b : Bytes) : List Nat :=
  ((chunks 3 b).flatMap (fun c => [fld c 0 1 + 256 * (fld c 1 1 % 16), fld c 1 1 / 16 + 16 * fld c 2 1])).filter (· < kq)

/-- SampleNTT, from 2,520 bytes of SHAKE128 (log entry 7). -/
def kSample (seed : Bytes) : Poly := (kReject (shake128 seed 2520)).take 256

/-- The matrix of ρ, row `i` and column `j`. -/
def kMatrix (rho : Bytes) (i j : Nat) : Poly := kSample (rho ++ natLe 1 j ++ natLe 1 i)

/-- SamplePolyCBD with η = 2 over the PRF of a seed and a number. -/
def kNoise (seed : Bytes) (n : Nat) : Poly :=
  (chunks 4 (unpack 1 (shake256 (seed ++ natLe 1 n) 128 )) |>.map (fun b =>
    (b.getD 0 0 + b.getD 1 0 + kq - b.getD 2 0 - b.getD 3 0) % kq))
where
  /-- Pieces of `n` numbers. -/
  chunks (n : Nat) (xs : List Nat) : List (List Nat) :=
    (List.range (ceilDiv xs.length n)).map (fun i => (xs.drop (n * i)).take n)

/-- Compress to `d` bits. -/
def kCompress (d x : Nat) : Nat := (2 ^ (d + 1) * x + kq) / (2 * kq) % 2 ^ d

/-- Decompress from `d` bits. -/
def kDecompress (d y : Nat) : Nat := (2 * kq * y + 2 ^ d) / 2 ^ (d + 1)

/-- ByteDecode of a polynomial of `d` bits. -/
def kDecode (d : Nat) (b : Bytes) : Poly := (unpack d b).map (fun x => if d = 12 then x % kq else x)

/-- A vector of four polynomials of `d` bits. -/
def kDecodeVec (d : Nat) (b : Bytes) : List Poly := (List.range 4).map (fun i => kDecode d (sub b (32 * d * i) (32 * d)))

/-- K-PKE's key pair of seed `d`: the encapsulation key and the secret vector's transform. -/
def kKeys (d : Bytes) : Bytes × List Poly :=
  let g := sha3_512 (d ++ [4])
  let rho := g.take 32
  let sigma := g.drop 32
  let s := (List.range 4).map (fun i => kNtt (kNoise sigma i))
  let t := (List.range 4).map (fun i =>
    polyAdd kq (kDot ((List.range 4).map (kMatrix rho i)) s) (kNtt (kNoise sigma (4 + i))))
  ((t.map (pack 12)).flatten ++ rho, s)

/-- K-PKE encryption of 32 bytes under an encapsulation key with 32 bytes of randomness. -/
def kEncrypt (ek m r : Bytes) : Bytes :=
  let t := kDecodeVec 12 (ek.take 1536)
  let rho := ek.drop 1536
  let y := (List.range 4).map (fun i => kNtt (kNoise r i))
  let u := (List.range 4).map (fun i =>
    polyAdd kq (kInv (kDot ((List.range 4).map (fun j => kMatrix rho j i)) y)) (kNoise r (4 + i)))
  let v := polyAdd kq (polyAdd kq (kInv (kDot t y)) (kNoise r 8)) ((unpack 1 m).map (kDecompress 1))
  (u.map (fun f => pack 11 (f.map (kCompress 11)))).flatten ++ pack 5 (v.map (kCompress 5))

/-- K-PKE decryption of a ciphertext with the secret vector's transform. -/
def kDecrypt (s : List Poly) (c : Bytes) : Bytes :=
  let u := (kDecodeVec 11 (c.take 1408)).map (fun f => kNtt (f.map (kDecompress 11)))
  let v := (kDecode 5 (c.drop 1408)).map (kDecompress 5)
  pack 1 ((polySub kq v (kInv (kDot s u))).map (kCompress 1))

/-- The encapsulation key of the 64-byte seed d ‖ z (R259). -/
@[irreducible] def mlkemEk (seed : Bytes) : Bytes := (kKeys (seed.take 32)).1

/-- Encapsulation to a public key with 32 bytes of randomness: shared secret and ciphertext. -/
@[irreducible] def mlkemEncaps (ek m : Bytes) : Bytes × Bytes :=
  let g := sha3_512 (m ++ sha3_256 ek)
  (g.take 32, kEncrypt ek m (g.drop 32))

/-- Decapsulation of a ciphertext with the seed's key, implicit rejection included (R260). -/
@[irreducible] def mlkemDecaps (seed ct : Bytes) : Bytes :=
  let k := kKeys (seed.take 32)
  let m := kDecrypt k.2 ct
  let g := sha3_512 (m ++ sha3_256 k.1)
  if kEncrypt k.1 m (g.drop 32) = ct then g.take 32 else shake256 (seed.drop 32 ++ ct) 32

/-! ### ML-DSA (FIPS 204) -/

/-- The modulus of ML-DSA. -/
def dq : Nat := 8380417

/-- A parameter set: k, l, η, τ, ω and the bytes of the commitment hash. -/
structure DsaSet where
  k : Nat
  l : Nat
  eta : Nat
  tau : Nat
  omega : Nat
  hash : Nat
deriving DecidableEq, Repr

/-- ML-DSA-65 and, for every other number of R116, ML-DSA-87. -/
def dsaSet (alg : Nat) : DsaSet :=
  if alg == 8 then { k := 6, l := 5, eta := 4, tau := 49, omega := 55, hash := 48 }
  else { k := 8, l := 7, eta := 2, tau := 60, omega := 75, hash := 64 }

/-- γ1 of both sets. -/
def dGamma1 : Nat := 2 ^ 19
/-- γ2 of both sets. -/
def dGamma2 : Nat := (dq - 1) / 32

/-- The powers of 1753, a 512th root of unity. -/
@[irreducible] def dPow : Array Nat := powers dq 1753 512

/-- The power of the root at which value `i` of a transform is taken. -/
def dExp (i : Nat) : Nat := 2 * bitRev 8 i + 1

/-- The transform: the polynomial's values at the odd powers of the root. -/
def dNtt (f : Poly) : Poly :=
  let a := f.toArray
  (List.range 256).map (fun i =>
    ((List.range 256).foldl (fun acc j => acc + a.getD j 0 * dPow.getD (dExp i * j % 512) 0) 0) % dq)

/-- The inverse transform. -/
def dInv (f : Poly) : Poly :=
  let a := f.toArray
  (List.range 256).map (fun j =>
    ((List.range 256).foldl (fun acc i => acc + a.getD i 0 * dPow.getD ((512 - dExp i * j % 512) % 512) 0) 0) % dq * 8347681 % dq)

/-- The product of two transforms. -/
def dMul (f g : Poly) : Poly := List.zipWith (fun x y => x * y % dq) f g

/-- The inner product of two vectors of transforms. -/
def dDot (x y : List Poly) : Poly := (List.zipWith dMul x y).foldl (polyAdd dq) (List.replicate 256 0)

/-- RejNTTPoly, from 1,344 bytes of SHAKE128 (log entry 7). -/
def dSample (seed : Bytes) : Poly :=
  (((chunks 3 (shake128 seed 1344)).map (fun c => fld c 0 3 % 2 ^ 23)).filter (· < dq)).take 256

/-- Row `i` of the matrix of ρ. -/
def dRow (p : DsaSet) (rho : Bytes) (i : Nat) : List Poly :=
  (List.range p.l).map (fun j => dSample (rho ++ natLe 1 j ++ natLe 1 i))

/-- RejBoundedPoly, from 680 bytes of SHAKE256 (log entry 7). -/
def dBounded (eta : Nat) (seed : Bytes) : Poly :=
  ((unpack 4 (shake256 seed 680)).filterMap (fun b =>
    if eta = 2 then (if b < 15 then some ((dq + 2 - b % 5) % dq) else none)
    else if b < 9 then some ((dq + 4 - b) % dq) else none)).take 256

/-- The matrix times a vector of transforms. -/
def dApply (p : DsaSet) (rho : Bytes) (v : List Poly) : List Poly := (List.range p.k).map (fun i => dDot (dRow p rho i) v)

/-- What a seed expands to: ρ, K, the secret vectors and t. -/
structure DsaKey where
  rho : Bytes
  key : Bytes
  s1 : List Poly
  s2 : List Poly
  t : List Poly
deriving DecidableEq, Repr

/-- The key of a 32-byte seed. -/
def dKey (p : DsaSet) (seed : Bytes) : DsaKey :=
  let h := shake256 (seed ++ natLe 1 p.k ++ natLe 1 p.l) 128
  let s1 := (List.range p.l).map (fun r => dBounded p.eta (sub h 32 64 ++ natLe 2 r))
  let s2 := (List.range p.k).map (fun r => dBounded p.eta (sub h 32 64 ++ natLe 2 (p.l + r)))
  let t := List.zipWith (polyAdd dq) ((dApply p (h.take 32) (s1.map dNtt)).map dInv) s2
  { rho := h.take 32, key := sub h 96 32, s1 := s1, s2 := s2, t := t }

/-- Power2Round's high part. -/
def dHigh13 (x : Nat) : Nat := (x + 4095) / 8192

/-- The public key. -/
def dPublic (k : DsaKey) : Bytes := k.rho ++ (k.t.map (fun f => pack 10 (f.map dHigh13))).flatten

/-- Decompose's high part. -/
def dHigh (x : Nat) : Nat := (x + dGamma2 - 1) / (2 * dGamma2) % 16

/-- Decompose's low part, modulo q. -/
def dLow (x : Nat) : Nat := (x + dq - dHigh x * (2 * dGamma2)) % dq

/-- The absolute value of a number modulo q. -/
def dAbs (x : Nat) : Nat := if x ≤ (dq - 1) / 2 then x else dq - x

/-- The largest absolute value in a vector. -/
def dNorm (v : List Poly) : Nat := v.foldl (fun m f => f.foldl (fun m x => max m (dAbs x)) m) 0

/-- The places SampleInBall takes from a stream: for each `i` the next byte that is at most `i`. -/
def dPlaces : Bytes → List Nat → List Nat
  | [], _ => []
  | _, [] => []
  | b :: bs, i :: is => if b.toNat ≤ i then b.toNat :: dPlaces bs is else dPlaces bs (i :: is)

/-- SampleInBall, from 1,088 bytes of SHAKE256 (log entry 7). -/
def dBall (tau : Nat) (seed : Bytes) : Poly :=
  let x := shake256 seed 1088
  let sign := leNat (x.take 8)
  let is := (List.range tau).map (fun j => 256 - tau + j)
  ((dPlaces (x.drop 8) is).zip is).foldl (fun c e =>
    (c.set e.2 (coef c e.1)).set e.1 (if sign.testBit (e.2 + tau - 256) then dq - 1 else 1)) (List.replicate 256 0)

/-- ExpandMask. -/
def dMask (p : DsaSet) (seed : Bytes) (kappa : Nat) : List Poly :=
  (List.range p.l).map (fun r =>
    (unpack 20 (shake256 (seed ++ natLe 2 (kappa + r)) 640)).map (fun x => (dq + dGamma1 - x) % dq))

/-- The message as signed: domain 0, the context's length, the context, the message. -/
def dMessage (ctx msg : Bytes) : Bytes := [0] ++ natLe 1 ctx.length ++ ctx ++ msg

/-- The hint of one polynomial: the places at which the high part changes. -/
def dHint (a b : Poly) : List Nat :=
  (List.range 256).filter (fun i => dHigh (coef a i) != dHigh (coef b i))

/-- HintBitPack. -/
def dPackHint (p : DsaSet) (hs : List (List Nat)) : Bytes :=
  padTo p.omega ((hs.flatten).map (BitVec.ofNat 8 ·)) ++
  (List.range p.k).map (fun i => BitVec.ofNat 8 ((hs.take (i + 1)).flatten.length))

/-- The signing loop: `n` iterations at most from counter `kappa` (log entry 7). -/
def dSignLoop (p : DsaSet) (k : DsaKey) (mu seed : Bytes) : Nat → Nat → Bytes
  | 0, _ => []
  | n + 1, kappa =>
    let y := dMask p seed kappa
    let w := (dApply p k.rho (y.map dNtt)).map dInv
    let ct := (shake256 (mu ++ (w.map (fun f => pack 4 (f.map dHigh))).flatten) p.hash)
    let c := dNtt (dBall p.tau ct)
    let times (v : List Poly) : List Poly := v.map (fun f => dInv (dMul c (dNtt f)))
    let z := List.zipWith (polyAdd dq) y (times k.s1)
    let r := List.zipWith (polySub dq) w (times k.s2)
    let t0 := k.t.map (fun f => f.map (fun x => (x + dq - 8192 * dHigh13 x) % dq))
    let ct0 := times t0
    let hs := List.zipWith dHint r (List.zipWith (polyAdd dq) r ct0)
    let beta := p.tau * p.eta
    if dNorm z ≥ dGamma1 - beta || dNorm (r.map (fun f => f.map dLow)) ≥ dGamma2 - beta || dNorm ct0 ≥ dGamma2 ||
        hs.flatten.length > p.omega then
      dSignLoop p k mu seed n (kappa + p.l)
    else
      ct ++ (z.map (fun f => pack 20 (f.map (fun x => (dGamma1 + dq - x) % dq)))).flatten ++ dPackHint p hs

/-- The ML-DSA-87 public key of a 32-byte seed (R259). -/
@[irreducible] def mldsaPk (seed : Bytes) : Bytes := dPublic (dKey (dsaSet 9) seed)

/-- ML-DSA-87 signing, hedged: seed, context, message, 32 random bytes (R260, R261). -/
@[irreducible] def mldsaSign (seed ctx msg rnd : Bytes) : Bytes :=
  let p := dsaSet 9
  let k := dKey p seed
  let mu := shake256 (shake256 (dPublic k) 64 ++ dMessage ctx msg) 64
  dSignLoop p k mu (shake256 (k.key ++ rnd ++ mu) 64) 1000 0

/-- The places of one polynomial's hint rise strictly. -/
def dRising : List Nat → Bool
  | x :: y :: r => x < y && dRising (y :: r)
  | _ => true

/-- HintBitUnpack: the places for each polynomial, where the hint is decodable; `from_` places are used so far. -/
def dUnpackHint (y : Bytes) (omega : Nat) : Nat → Nat → Nat → Option (List (List Nat))
  | 0, _, from_ => if allZero (sub y from_ (omega - from_)) then some [] else none
  | n + 1, i, from_ =>
    let to_ := fld y (omega + i) 1
    let h := (sub y from_ (to_ - from_)).map (·.toNat)
    if to_ < from_ || to_ > omega || !dRising h then none
    else (dUnpackHint y omega n (i + 1) to_).map (h :: ·)

/-- The hint of a signature. -/
def dHintOf (p : DsaSet) (sig : Bytes) : Option (List (List Nat)) :=
  dUnpackHint (sig.drop (p.hash + 640 * p.l)) p.omega p.k 0 0

/-- The hint of an ML-DSA signature is decodable (R271). -/
@[irreducible] def mldsaHintOk (alg : Nat) (sig : Bytes) : Bool := (dHintOf (dsaSet alg) sig).isSome

/-- UseHint of one coefficient. -/
def dUseHint (h : Bool) (x : Nat) : Nat :=
  let r1 := dHigh x
  let r0 := dLow x
  if !h then r1 else if 0 < r0 && r0 ≤ (dq - 1) / 2 then (r1 + 1) % 16 else (r1 + 15) % 16

/-- ML-DSA-65 or ML-DSA-87 (R116's number) verification: public key, context, message, signature. -/
@[irreducible] def mldsaVerify (alg : Nat) (pk ctx msg sig : Bytes) : Bool :=
  let p := dsaSet alg
  match dHintOf p sig with
  | none => false
  | some hs =>
    let ct := sig.take p.hash
    let z := (List.range p.l).map (fun i =>
      (unpack 20 (sub sig (p.hash + 640 * i) 640)).map (fun x => (dq + dGamma1 - x) % dq))
    let t1 := (List.range p.k).map (fun i => dNtt ((unpack 10 (sub pk (32 + 320 * i) 320)).map (· * 8192)))
    let mu := shake256 (shake256 pk 64 ++ dMessage ctx msg) 64
    let c := dNtt (dBall p.tau ct)
    let w := List.zipWith (fun a t => dInv (polySub dq a (dMul c t))) (dApply p (pk.take 32) (z.map dNtt)) t1
    let w1 := List.zipWith (fun f h => f.zipIdx.map (fun x => dUseHint (h.contains x.2) x.1)) w hs
    pk.length == 32 + 320 * p.k && sig.length == p.hash + 640 * p.l + p.omega + p.k && ctx.length ≤ 255 &&
      dNorm z < dGamma1 - p.tau * p.eta && ct == shake256 (mu ++ (w1.map (pack 4)).flatten) p.hash

end Sys2Proof.Machine
end

