-- ==== Sys2Proof/Machine/Keys.lean ====
section
/-! DEFINITION. The key store: shares and masks, handles, allocation, zeroisation, owner KEKs, tickets and key staging
(09_key_slots_tickets_legacy.md, 10_owners_vault_dual_control.md, R140, R141). -/
namespace Sys2Proof.Machine

/-- The code of a slot's state (R194). -/
def slotCode : SlotState → Nat
  | .free => 0 | .live => 1 | .pending => 2 | .orphaned => 3

/-! ### The tender, as its consumers see it -/

/-- `n` bytes from the tender at once, where it holds them (R254). -/
def tenderTake (n : Nat) (s : State) : Option (Bytes × State) :=
  if s.rng.state == .seeded && s.rng.tender.length ≥ n then
    some (s.rng.tender.take n, updRng (fun r =>
      let rest := r.tender.drop n
      { r with tender := rest, tenderLow := min r.tenderLow rest.length }) s)
  else none

/-- A mask for new material: 64 bytes of the tender where it holds them, else one of the reserve, else none, and the
slot is UNMASKED (R209; log entry 12). -/
def freshMask (s : State) : Nat × State :=
  match tenderTake 64 s with
  | some (b, t) => (leNat b, t)
  | none =>
    match s.kst.masks with
    | m :: rest => (m, updKst (fun k => { k with masks := rest }) s)
    | [] => (0, s)

/-! ### Handles -/

/-- The slot can be reached from a ring (R195). -/
def slotReach (r : Ring) (x : Slot) : Bool := r.mgr || (x.scope / 2 ^ 13 == 0 && x.scope % 2 ^ 13 == r.slice)

/-- The handle names a slot that is not FREE and is reachable from the ring (R195, admission step 6). -/
def handleFound (s : State) (r : Ring) (k : Nat) : Bool :=
  let x := slotOf s (hIndex k)
  x.state != .free && slotReach r x

/-- The SCOPE of a slot created from a ring (R197). -/
def ringScope (r : Ring) : Nat := if r.mgr then 2 ^ 13 else r.slice

/-- The material a handle's generation is bound to: the current one, or the retained one (R204). -/
def materialOf (s : State) (index gen : Nat) : Option Nat :=
  let x := slotOf s index
  if x.state == .free then none
  else if x.gen == gen then some (x.share0 ^^^ x.share1)
  else if x.retained && x.retGen == gen then some (x.retShare0 ^^^ x.retShare1)
  else none

/-- The first 32 bytes of material as a byte string. -/
def keyBytes (m : Nat) : Bytes := natLe 32 m

/-! ### Attributes (R198) -/

/-- Engine bits: CA, UC, LU, WX. -/
def engCA (e : Nat) : Bool := bit e 0
/-- Engine bit UC. -/
def engUC (e : Nat) : Bool := bit e 1
/-- Engine bit LU. -/
def engLU (e : Nat) : Bool := bit e 2
/-- Engine bit WX. -/
def engWX (e : Nat) : Bool := bit e 3
/-- Usage bit ENC. -/
def useENC (u : Nat) : Bool := bit u 0
/-- Usage bit DEC. -/
def useDEC (u : Nat) : Bool := bit u 1
/-- Usage bit VERIFY_ONLY. -/
def useVER (u : Nat) : Bool := bit u 2
/-- Usage bit REKEY_SRC. -/
def useSRC (u : Nat) : Bool := bit u 3
/-- Usage bit REKEY_DST. -/
def useDST (u : Nat) : Bool := bit u 4

/-- A usage is permitted with one engine of a slot that is no write session (R198). -/
def usagePermitted (e u : Nat) : Bool :=
  (!engCA e || (!useENC u && !useDST u)) &&
  (!engUC e || (!useSRC u && !useDST u)) &&
  (!engLU e || (!useVER u && !useSRC u && !useDST u)) &&
  !useDST u

/-- A slot may hold these attributes (R198): `session` for a write session. -/
def attrsPermitted (session : Bool) (e u : Nat) : Bool :=
  if session then e == 1 && (u == 1 || u == 16)
  else
    e != 0 && u != 0 && usagePermitted e u &&
    (!engLU e || (!engCA e && !engUC e))

/-! ### Allocation (R197) -/

/-- The slot is withheld by a reservation. -/
def isReserved (s : State) (i : Nat) : Bool := tget 0 s.kst.reservedBy i != 0

/-- The slot the device takes next: never-used slots in ascending index order, then the one FREE longest (R197). -/
def pickFree (s : State) : Option Nat :=
  match firstBelow 32768 (fun i => (slotOf s i).gen == 0 && (slotOf s i).state == .free && !isReserved s i) with
  | some i => some i
  | none => s.kst.freed.find? (fun i => !isReserved s i)

/-- The slots and reservations that count against a slice's slot quota (R197). -/
def slotsOfSlice (s : State) (n : Nat) : Nat :=
  tcount s.kst.slots (fun _ x => x.state != .free && x.scope == n) +
  tcount s.car.cars (fun _ c => c.reserved.isSome && !(ringOf s c.sq).mgr && (ringOf s c.sq).slice == n)

/-- Slots not FREE (SLOTS_USED). -/
def slotsUsed (s : State) : Nat := tcount s.kst.slots (fun _ x => x.state != .free)

/-- Slot `i` reserved for the carriage of tag `t` (R197). -/
def reserve (i t : Nat) (s : State) : State :=
  updCarr t (fun c => { c with reserved := some i })
    (updKst (fun k => { k with reservedBy := tset 0 k.reservedBy i (t + 1) }) s)

/-- The reservation of the carriage of tag `t` returned (R197). -/
def unreserve (t : Nat) (s : State) : State :=
  match (carrOf s t).reserved with
  | some i => updCarr t (fun c => { c with reserved := none })
      (updKst (fun k => { k with reservedBy := tset 0 k.reservedBy i 0 }) s)
  | none => s

/-- The next generation (R196). -/
def genNext (g : Nat) : Nat := if g == 0xFFFF then 1 else g + 1

/-- What a new slot holds: its material, attributes and parent. -/
structure NewSlot where
  material : Nat
  mlen : Bool := false
  engine : Nat
  usage : Nat
  session : Bool := false
  size : Nat := 0
  owner : Nat
  scope : Nat
  base : Nat := 0
  count : Nat := 0
deriving DecidableEq, Repr

/-- Slot `i` allocated: LIVE, GEN + 1, with a fresh mask (R196, R197, R209). -/
def allocSlot (i : Nat) (n : NewSlot) (s : State) : State :=
  let m := freshMask s
  let t := updSlot i (fun x =>
    { x with
      state := .live, gen := genNext x.gen, share0 := n.material ^^^ m.1, share1 := m.1, mlen := n.mlen
      engine := BitVec.ofNat 4 n.engine, usage := BitVec.ofNat 5 n.usage, session := n.session, sizeCode := n.size
      owner := n.owner, scope := n.scope, base := n.base, count := n.count, use := 0, retained := false
      unmasked := m.1 == 0, maskStamp := s.now, maskPeriod := s.kst.remaskPeriod, pendStamp := 0 }) m.2
  updKst (fun k => { k with
    freed := k.freed.erase i
    reservedBy := tset 0 k.reservedBy i 0
    slotsHwm := max k.slotsHwm (slotsUsed t) }) t

/-- The handle of slot `i` as it stands. -/
def slotHandle (s : State) (i : Nat) : Nat := handle i (slotOf s i).gen (slotOf s i).session

/-! ### Zeroisation (R206, R141) -/

/-- Every key-staging entry of an identity is zeroised. -/
def purgeStaging (f : KeyId → Bool) (s : State) : State :=
  updCay (fun c => { c with work := tmap {} (fun _ w =>
    { w with blocks := tmap {} (fun _ b =>
        { b with keys := b.keys.filter (fun k => !f k.id) }) w.blocks }) c.work }) s

/-- Slot `i` zeroised: FREE, its shares and its retained generation cleared, and its key-staging entries with them. -/
def zeroiseSlot (i : Nat) (s : State) : State :=
  let t := updSlot i (fun x =>
    { x with
      state := .free, share0 := 0, share1 := 0, session := false, use := 0, unmasked := false
      retained := false, retGen := 0, retUse := 0, retShare0 := 0, retShare1 := 0, retBase := 0, retAt := 0 }) s
  purgeStaging (fun k => match k with | .slot j _ => j == i | _ => false)
    (updKst (fun k => { k with freed := k.freed.erase i ++ [i] }) t)

/-- The retained generation of slot `i` zeroised (R204). -/
def zeroiseRetained (i : Nat) (s : State) : State :=
  let g := (slotOf s i).retGen
  purgeStaging (fun k => match k with | .slot j h => j == i && h == g | _ => false)
    (updSlot i (fun x =>
      { x with retained := false, retGen := 0, retUse := 0, retShare0 := 0, retShare1 := 0, retBase := 0, retAt := 0 }) s)

/-- Slot `i` marked PENDING (from LIVE only) or ORPHANED: the session ends, and the slot is zeroised at once where
nothing uses it (R132, R206). -/
def markSlot (st : SlotState) (i : Nat) (s : State) : State :=
  let x := slotOf s i
  if x.state == .free || (st == .pending && x.state != .live) then s
  else if x.use == 0 then zeroiseSlot i s
  else
    updSlot i (fun x =>
      { x with
        state := st, session := false
        pendStamp := if x.state == .live then s.now else x.pendStamp }) s

/-- One more carriage is bound to slot `i` (R205). -/
def useSlot (i : Nat) (s : State) : State := updSlot i (fun x => { x with use := x.use + 1 }) s

/-- A carriage bound to generation `g` of slot `i` ends: USE falls, and what nothing uses any more is zeroised
(R204-R206). -/
def unuseSlot (i g : Nat) (s : State) : State :=
  let x := slotOf s i
  if x.state == .free then s
  else if x.gen == g then
    let t := updSlot i (fun x => { x with use := x.use - 1 }) s
    if x.use ≤ 1 && (x.state == .pending || x.state == .orphaned) then seqd (zeroiseSlot i t) else t
  else if x.retained && x.retGen == g then
    let t := updSlot i (fun x => { x with retUse := x.retUse - 1 }) s
    if x.retUse ≤ 1 then seqd (zeroiseRetained i t) else t
  else s

/-! ### Owners -/

/-- The counter-mode KDF of SP 800-108 over CMAC, 256 bits out (R218, R291). -/
def kdf (key label ctx : Bytes) : Bytes :=
  let block (i : Nat) := cmac key (natBe 4 i ++ label ++ [0] ++ ctx ++ natBe 4 256)
  block 1 ++ block 2

/-- The same KDF, 512 bits out (R382). -/
def kdf512 (key label ctx : Bytes) : Bytes :=
  let block (i : Nat) := cmac key (natBe 4 i ++ label ++ [0] ++ ctx ++ natBe 4 512)
  block 1 ++ block 2 ++ block 3 ++ block 4

/-- The vault key: its two BBRAM shares combined (R225). -/
def vaultKey (s : State) : Bytes := natLe 32 (s.bbr.share0 ^^^ s.bbr.share1)

/-- The vault wrap key: label "WRAP" (R218). -/
def vaultWrapKey (s : State) : Bytes := kdf (vaultKey s) [0x57, 0x52, 0x41, 0x50] []

/-- The clear bytes that an owner record's BIND covers (R218). -/
def kekBind (owner incarnation : Nat) : Bytes := (sha3_256 (natLe 4 owner ++ natLe 4 incarnation)).take 8

/-- KEK_WRAP of an owner record (R218). -/
def wrapKek (s : State) (owner incarnation : Nat) (kek : Bytes) : Bytes :=
  kwpWrap (vaultWrapKey s) (kek ++ kekBind owner incarnation)

/-- The owner's KEK, unwrapped inside the wrap engine (R220). -/
def kekOf (s : State) (owner : Nat) : Option Bytes :=
  let o := ownerOf s owner
  if o.state != .active then none
  else
    match kwpUnwrap (vaultWrapKey s) o.kekWrap with
    | some p => if p.drop 32 == kekBind owner o.incarnation && p.length == 40 then some (p.take 32) else none
    | none => none

/-- The owner's KEK used last in the KEK cache of 4,096 owners (R220). -/
def cacheKek (owner : Nat) (s : State) : State :=
  updKst (fun k => { k with kek := (owner :: k.kek.erase owner).take 4096 }) s

/-- An owner's binding (R281). -/
def bindOf (s : State) (owner : Nat) : Binding := tget {} s.slc.binds owner

/-- The owner is bound to the ring's slice by a live or revoked binding, or the ring is a manager ring (step 3). -/
def ownerBound (s : State) (r : Ring) (owner : Nat) : Bool :=
  r.mgr || ((bindOf s owner).bound && (bindOf s owner).slice == r.slice)

/-! ### Tickets -/

/-- A ticket: its header and the wrap of the DEK with BIND (R201). -/
def makeTicket (kek : Bytes) (isSealed : Bool) (size owner count base : Nat) (dek : Bytes) : Bytes :=
  let h := tkHeader isSealed size owner count base
  h ++ kwpWrap kek (dek ++ (sha3_256 h).take 8)

/-- The DEK of a ticket whose unwrap succeeds (R202). -/
def openTicket (s : State) (t : Bytes) : Option Nat :=
  if !tkHeaderOk t then none
  else
    match kekOf s (tkOwner t) with
    | none => none
    | some kek =>
      match kwpUnwrap kek (t.drop 16) with
      | some p =>
        if p.length == 40 && p.drop 32 == (sha3_256 (t.take 16)).take 8 then some (leNat (p.take 32)) else none
      | none => none

end Sys2Proof.Machine
end

