-- ==== Sys2Proof/Machine/Rings.lean ====
section
/-! DEFINITION. Rings: positions, credits, braking, the siding, completion placement and ring errors
(04_rings_doorbells_completions.md). -/
namespace Sys2Proof.Machine

/-- The number of entries of a ring (R69). -/
def ringN (r : Ring) : Nat := 2 ^ r.sizeK

/-- The position value `p` in doorbell format (R78, R79). -/
def posWord (n p : Nat) : Nat := p / n * 2 ^ 31 + p % n

/-- Entries between two position values (R79). -/
def occupancy (n prod cons : Nat) : Nat := (prod + 2 * n - cons) % (2 * n)

/-- The occupancy of a ring. -/
def ringOcc (r : Ring) : Nat := occupancy (ringN r) r.producer r.consumer

/-- The next position value. -/
def posNext (n p : Nat) : Nat := (p + 1) % (2 * n)

/-- The phase expected at position `p`: 1 on lap 0, 0 on lap 1 (R83). -/
def phaseAt (n p : Nat) : Bool := p / n == 0

/-- The SQ holds a covered, untaken entry. -/
def hasWork (r : Ring) : Bool := r.producer != r.consumer

/-- The home port's PASID rule for a ring's DMA (R52). -/
def ringPasid (s : State) (r : Ring) : Option Nat := if r.mgr then none else some (sliceOf s r.slice).pasid

/-- Chip siding entries in use or reserved (SIDING_USED). -/
def sidingUsed (s : State) : Nat := (s.car.rings.map (fun e => e.2.siding.length + e.2.sidingCr)).sum

/-- The chip siding's size and the part kept from siding credits (R90). -/
def sidingSize : Nat := 65536
/-- The chip siding entries that siding credits may not use (R90). -/
def sidingKept : Nat := 4096

/-- Whether a credit of CQ `q` is available, and whether it is a siding credit (R90). -/
def credit (s : State) (q : Nat) : Option Bool :=
  let r := ringOf s q
  let t := ringOcc r + r.siding.length + r.outstanding
  if r.type != .cq || r.state != .active then none
  else if t < ringN r && sidingUsed s < sidingSize then some false
  else if t < ringN r + r.sidingQuota && r.sidingCr < r.sidingQuota && sidingUsed s < sidingSize - sidingKept then
    some true
  else none

/-- The SQs bound to CQ `q`. -/
def boundSqs (s : State) (q : Nat) : List Nat := tkeys s.car.rings (fun _ r => r.type == .sq && r.cq == q)

/-- The high-water mark of SIDING_USED kept. -/
def markSiding (s : State) : State := updCar (fun c => { c with sidingHwm := max c.sidingHwm (sidingUsed s) }) s

/-! ### Leaving ACTIVE -/

/-- Shadow slots that pass the test are zeroised (R168). -/
def dropShadows (f : Shadow → Bool) (s : State) : State :=
  updCar (fun c => { c with shadows := tmap {} (fun _ h => if f h then {} else h) c.shadows }) s

/-- Ring `g` leaves ACTIVE: prefetched copies that are not final are discarded (R84), and so are the shadow slots of its
untaken entries (R168). -/
def loseCopies (g : Nat) (s : State) : State :=
  dropShadows (fun h => h.sq == g && h.tag == none)
    (updRing g (fun r => { r with copies := tmap {} (fun _ c => if c.final then c else {}) r.copies }) s)

/-- Ring `g` takes state `st` (R73). -/
def setRing (g : Nat) (st : RingState) (s : State) : State :=
  let t := updRing g (fun r => { r with state := st }) s
  if (ringOf s g).state == .active && st != .active then loseCopies g t else t

/-! ### Braking (R93) -/

/-- One SQ of a CQ brakes or returns to ACTIVE; `blocked` where no credit is available. -/
def brakeOne (blocked : Bool) (s : State) (g : Nat) : State :=
  let r := ringOf s g
  if r.state == .active && blocked && hasWork r then setRing g .braked s
  else if r.state == .braked && !blocked then setRing g .active s
  else s

/-- The BRAKE_STAMP of a CQ: set while SQs of it are BRAKED, 0 otherwise (R93). -/
def stampBrake (q : Nat) (s : State) : State :=
  if (boundSqs s q).any (fun g => (ringOf s g).state == .braked) then
    updRing q (fun r => if r.brakeStamp == 0 then { r with brakeStamp := s.now % 2 ^ 32 } else r) s
  else updRing q (fun r => { r with brakeStamp := 0, alerted := false }) s

/-- CQ `q`'s SQs brake or return to ACTIVE as its credits stand; nothing changes while it is not ACTIVE (R93). -/
def rebrake (q : Nat) (s : State) : State :=
  if (ringOf s q).state == .active then
    stampBrake q ((boundSqs s q).foldl (brakeOne (credit s q).isNone) s)
  else stampBrake q s

/-- The CQs that have braked SQs (BRAKED_CQS). -/
def brakedCqs (s : State) : List Nat := tkeys s.car.rings (fun _ r => r.type == .cq && r.brakeStamp != 0)

/-- Every CQ looked at again: the room in the chip siding, which all credits share, has changed (R90, R93). -/
def relieve (s : State) : State := (tkeys s.car.rings (fun _ r => r.type == .cq)).foldl (fun s q => rebrake q s) s

/-! ### Completion entries -/

/-- The CQ's MSI-X message: sending it resets the count (R95). -/
def cqMessage (q : Nat) (s : State) : State :=
  let r := ringOf s q
  updRing q (fun r => { r with coalCnt := 0 }) (msixFire r.home r.vector s)

/-- One entry written to a CQ is counted, and the message sent at COAL_COUNT (R95). -/
def coalesce (q : Nat) (s : State) : State :=
  if (ringOf s q).vecEn then
    let t := updRing q (fun r => { r with coalCnt := r.coalCnt + 1, coalAt := if r.coalCnt == 0 then s.now else r.coalAt }) s
    if (ringOf t q).coalCnt ≥ (ringOf t q).coalCount then cqMessage q t else t
  else s

/-- The completion entry's bytes with the SIDING flag and the phase of the CQ's producer position (R88). -/
def sealEntry (r : Ring) (sided : Bool) (e : Bytes) : Bytes :=
  let b6 := fld e 6 1 ||| (if sided then 0x40 else 0)
  splice (splice e 6 (natLe 1 b6)) 15 (natLe 1 (if phaseAt (ringN r) r.producer then 0x80 else 0))

/-- A completion entry written to its CQ as one 16-byte posted write without Relaxed Ordering; PRODUCER advances (R89).
With IMMEDIATE its message follows at once (R108). -/
def writeCqe (q : Nat) (sided imm : Bool) (e : Bytes) (s : State) : State :=
  let r := ringOf s q
  let addr := r.base + 16 * (r.producer % ringN r)
  let t := dmaWrite r.home (ringPasid s r) false addr (sealEntry r sided e) s
  let u := updStats r.home (fun h => { h with cqeTx := satInc 32 h.cqeTx }) t
  let w := coalesce q (updRing q (fun r => { r with producer := posNext (ringN r) r.producer }) u)
  if imm && r.vecEn && (ringOf w q).coalCnt != 0 then cqMessage q w else w

/-- The CQ has a free entry. -/
def cqRoom (r : Ring) : Bool := ringOcc r < ringN r

/-- Siding entries move to the CQ while it has free entries (R91); `k` bounds their number. -/
def drainN : Nat → Nat → State → State
  | 0, _, s => s
  | k + 1, q, s =>
    let r := ringOf s q
    match r.siding with
    | [] => s
    | e :: rest =>
      if cqRoom r && r.state == .active then
        drainN k q (writeCqe q true e.2 e.1 (updRing q (fun r => { r with siding := rest }) s))
      else s

/-- The siding of CQ `q` drains as far as it can (R91). -/
def drain (q : Nat) (s : State) : State := drainN (ringOf s q).siding.length q s

/-- An entry placed: written to the CQ, or appended to the siding (R91), which cannot run out for it (R90; log entry 98);
discarded where the CQ is not ACTIVE (R102). -/
def place (q : Nat) (imm : Bool) (e : Bytes) (s : State) : State :=
  let r := ringOf s q
  if r.type != .cq || r.state != .active then updCar (fun c => { c with sidingDrop := satInc 32 c.sidingDrop }) s
  else if cqRoom r && r.siding.isEmpty then writeCqe q false imm e s
  else updRing q (fun r => { r with siding := r.siding ++ [(e, imm)] }) s

/-- CONSUMER written back to WB_ADDR where WB_EN is set (R87). -/
def writeBack (g : Nat) (s : State) : State :=
  let r := ringOf s g
  if r.wbEn && r.sinceWb > 0 then
    updRing g (fun r => { r with sinceWb := 0 })
      (dmaWrite r.home (ringPasid s r) false r.wbAddr (natLe 4 (posWord (ringN r) r.consumer)) s)
  else s

/-! ### Errors -/

/-- The siding entries of CQ `q` are discarded and counted (R102). -/
def dropSiding (q : Nat) (s : State) : State :=
  let n := (ringOf s q).siding.length
  updCar (fun c => { c with sidingDrop := satAdd 32 c.sidingDrop n }) (updRing q (fun r => { r with siding := [] }) s)

/-- Ring `g` enters ERROR with a code: a sequenced action with an event record and the home port's RING_ERROR
(R72, R102, R408). -/
def ringError (g code : Nat) (s : State) : State :=
  let r := ringOf s g
  let a := seqd (updRing g (fun r => { r with error := code }) (setRing g .error s))
  let b := if r.type == .cq then relieve (dropSiding g a) else stampBrake r.cq a
  setInt r.home 12 (recordSeq .ringError (natLe 4 g ++ natLe 1 code ++ zeros 3) b)

/-- Ring `g` can enter ERROR (R73). -/
def canErr (r : Ring) : Bool := r.state == .active || r.state == .braked || r.state == .frozen

/-! ### The context cache (R99, R100) -/

/-- The ring's context is cached. -/
def isCached (s : State) (g : Nat) : Bool := s.car.cached.contains g

/-- The context may not be replaced (R99). -/
def isPinned (r : Ring) : Bool := r.outstanding != 0 || !r.siding.isEmpty

/-- The cache with `g` used last, the least recently used unpinned context replaced where it is full; where every context is
pinned it grows (R99; what counts as a use, and the bounds on pinned contexts: log entry 98). -/
def useContext (g : Nat) (s : State) : State :=
  updCar (fun c =>
    let l := g :: c.cached.erase g
    { c with cached :=
        if l.length ≤ 65536 then l
        else match l.reverse.find? (fun x => x != g && !isPinned (tget {} c.rings x)) with
          | some x => l.erase x
          | none => l }) s

/-! ### Doorbells (R78-R82, R100) -/

/-- A doorbell ignored under R81 or R82 is counted. -/
def badDoorbell (s : State) : State := updCar (fun c => { c with badDb := satInc 32 c.badDb }) s

/-- A doorbell word with INDEX below N and no reserved bit set (R78). -/
def dbOk (r : Ring) (v : Nat) : Bool := bits v 16 15 == 0 && bits v 0 16 < ringN r

/-- The position value of a doorbell word (R79). -/
def dbPos (r : Ring) (v : Nat) : Nat := bits v 31 1 * ringN r + bits v 0 16

/-- An SQ in ERROR after a bad doorbell (R80). -/
def overrun (g code : Nat) (s : State) : State :=
  updCar (fun c => { c with overrunCnt := satInc 32 c.overrunCnt }) (ringError g code s)

/-- Copies covered by a new producer position stay; each becomes usable as it was fetched (R84). -/
def evalSq (g v : Nat) (s : State) : State :=
  let r := ringOf s g
  if r.state == .disabled || r.state == .error then badDoorbell s
  else if !dbOk r v then overrun g 0x02 s
  else
    let t := dbPos r v
    let a := occupancy (ringN r) t r.producer
    if ringOcc r + a > ringN r then overrun g 0x01 s
    else rebrake r.cq (updRing g (fun r => { r with producer := t }) s)

/-- A CQ doorbell evaluated: entries passed over become free, the siding drains and braked SQs may resume (R81, R91,
R93). -/
def evalCq (q v : Nat) (s : State) : State :=
  let r := ringOf s q
  if r.state == .disabled || r.state == .error || !dbOk r v then badDoorbell s
  else
    let t := dbPos r v
    if occupancy (ringN r) t r.consumer > ringOcc r then badDoorbell s
    else relieve (drain q (updRing q (fun r => { r with consumer := t }) s))

/-- A doorbell evaluated against the ring's positions (R80-R82). -/
def evalDoorbell (g v : Nat) (s : State) : State :=
  match (ringOf s g).type with
  | .sq => evalSq g v s
  | .cq => evalCq g v s
  | .none => badDoorbell s

/-- The doorbell queue holds a value of ring `g`. -/
def isQueued (s : State) (g : Nat) : Bool := s.car.dbq.any (fun x => x.1 == g)

/-- The queue, kept in CSN order, with a doorbell for ring `g`: a later one replaces the queued value and stands in its own
place (R100). -/
def queueDoorbell (g v : Nat) (s : State) : State :=
  updCar (fun c =>
    let l := c.dbq.filter (fun x => x.1 != g) ++ [(g, v)]
    { c with dbq := l, dbqHwm := max c.dbqHwm l.length }) s

/-- One queued doorbell evaluated, its ring's context loaded where it is not cached. -/
def evalQueued (s : State) (x : Nat × Nat) : State :=
  let a := updCar (fun c => { c with dbq := c.dbq.erase x }) s
  evalDoorbell x.1 x.2 (if isCached s x.1 then a else useContext x.1 (updCar (fun c => { c with ctxMiss := satInc 32 c.ctxMiss }) a))

/-- The queued doorbells up to ring `g`'s, in CSN order; none where it has none. -/
def queuedTo (g : Nat) (s : State) : List (Nat × Nat) :=
  if isQueued s g then s.car.dbq.takeWhile (fun x => x.1 != g) ++ (s.car.dbq.find? (fun x => x.1 == g)).toList else []

/-- Before anything else changes ring `g`, its queued doorbell and those queued before it are evaluated: so each is evaluated
against its ring's positions as of its CSN (R78, R100; log entry 102). -/
def flushDb (g : Nat) (s : State) : State := (queuedTo g s).foldl evalQueued s

end Sys2Proof.Machine
end

