-- ==== Sys2Proof/Machine/Carry.lean ====
section
/-! DEFINITION. How a carriage ends: scrub, completion, refusal, loss without a completion, and the users of keys that are
gone (05_carriages.md, 07_provisional_release.md). -/
namespace Sys2Proof.Machine

/-- The home port of a carriage's ring (R56). -/
def carrPort (s : State) (t : Nat) : Port := (ringOf s (carrOf s t).sq).home

/-- The bytes of one posted write: the port's Max Payload Size, at most 512 (R45, R410). -/
def mpsBytes (s : State) (p : Port) : Nat := min 512 (128 * 2 ^ (s.stats.get p).cfg.mps)

/-! ### Host buffers -/

/-- Bytes written through a port in posted writes of at most MPS, in ascending order. -/
def dmaWriteMps (p : Port) (pasid : Option Nat) (relaxed : Bool) (addr : Nat) (data : Bytes) (s : State) : State :=
  let m := mpsBytes s p
  ((chunks m data).foldl (fun (x : Nat × State) d => (x.1 + d.length, dmaWrite p pasid relaxed x.1 d x.2)) (addr, s)).2

/-- Pieces of a host buffer filled in turn from the data. -/
def writePieces (p : Port) (pasid : Option Nat) (relaxed : Bool) : List (Nat × Nat) → Bytes → State → State
  | [], _, s => s
  | (a, l) :: ps, data, s =>
    writePieces p pasid relaxed ps (data.drop l) (dmaWriteMps p pasid relaxed a (data.take l) s)

/-- Data written to the carriage's host buffer from byte `off`, with Relaxed Ordering as the port permits (R52). -/
def writeBuffer (t off : Nat) (data : Bytes) (s : State) : State :=
  let c := carrOf s t
  let r := ringOf s c.sq
  writePieces r.home (ringPasid s r) (s.stats.get r.home).cfg.roEn (bufPieces c.frags off data.length) data s

/-- A read of bytes of the carriage's host buffer, for purpose `w` (R56). -/
def readBuffer (w : DmaRead) (t off n : Nat) (s : State) : State :=
  let c := carrOf s t
  let r := ringOf s c.sq
  dmaReads w r.home (ringPasid s r) (bufPieces c.frags off n) s

/-! ### Scrub (R155) -/

/-- A piece put into a list in address order. -/
def insertPiece (x : Nat × Nat) : List (Nat × Nat) → List (Nat × Nat)
  | [] => [x]
  | y :: ys => if x.1 ≤ y.1 then x :: y :: ys else y :: insertPiece x ys

/-- Pieces in ascending address order. -/
def sortPieces (l : List (Nat × Nat)) : List (Nat × Nat) := l.foldr insertPiece []

/-- The released prefix that has no PASS: its first byte in the carriage and its length (R151, R152). -/
def provisional (c : Carriage) : Option (Nat × Nat) :=
  (c.segs.find? (fun x => x.2.st != .done && x.2.released != 0 && !x.2.dst)).map
    (fun x => (segOff c.entry x.1, x.2.released))

/-- The scrub writes of a carriage that stops: exactly its released prefix, in ascending address order, without Relaxed
Ordering (R155). -/
def scrub (t : Nat) (s : State) : State :=
  let c := carrOf s t
  match provisional c with
  | none => s
  | some (off, n) =>
    let r := ringOf s c.sq
    let pieces := sortPieces (bufPieces c.frags off n)
    if (s.hpt.get r.home).up then
      let a := pieces.foldl (fun s x =>
        dmaWriteMps r.home (ringPasid s r) false x.1 (List.replicate x.2 (BitVec.ofNat 8 r.scrubByte)) s) s
      let k := (pieces.map (fun x => ceilDiv x.2 (mpsBytes s r.home))).sum
      updCarr t (fun c => { c with scrubbed := true })
        (updCar (fun c => { c with scrubBytes := c.scrubBytes + n })
          (updStats r.home (fun h => { h with scrubWr := satAdd 32 h.scrubWr k }) a))
    else updCar (fun c => { c with unscrubCnt := satInc 16 c.unscrubCnt }) s

/-! ### Letting go of what a carriage holds -/

/-- Engines, queues and devices forget the carriage of tag `t` (R189, R255, R266, R273). -/
def forget (t : Nat) (s : State) : State :=
  let a := updMdf (fun m => { m with
    drives := tmap {} (fun _ d => { d with
      cmds := tmap {} (fun _ x => if x.tag == some t then { x with tag := none } else x) d.cmds
      waitCmds := d.waitCmds.filter (fun x => x.2.1 != some t) }) m.drives
    shelves := tmap {} (fun _ h => if h.tag == some t then { h with tag := none } else h) m.shelves
    shelfQueue := m.shelfQueue.erase t
    adminWait := m.adminWait.erase t }) s
  let b := updRng (fun r => { r with waiters := r.waiters.filter (fun w => w.who != .carriage t) }) a
  let c := updLat (fun l => { l with queue := l.queue.filter (· != .carriage t) }) b
  let d := updBnv (fun v => { v with
    queue := v.queue.erase t
    chans := tmap none (fun _ x => if x == some t then none else x) v.chans
    anchorOf := tdel v.anchorOf t }) c
  let e := updVlt (fun v => { v with
    props := tmap {} (fun _ p =>
      if p.by_ == some t then
        if p.begun || p.state == .committed then { p with by_ := none }
        else { p with by_ := none, committing := false, approvals := p.approvals.dropLast }
      else p) v.props
    snap := tdel v.snap t }) d
  updSlc (fun c => { c with slices := tmap {} (fun _ x => { x with freezers := x.freezers.erase t }) c.slices }) e

/-- A bound key's use ends (R205). -/
def unbind (k : KeyBind) (s : State) : State :=
  match k with
  | .slot i g => unuseSlot i g s
  | _ => s

/-- What the carriage of tag `t` holds is returned: its credit, its tag, its keys, its reservation, its shadow slot
(R90, R117, R197, R205, R168). -/
def release (t : Nat) (s : State) : State :=
  let c := carrOf s t
  let q := (ringOf s c.sq).cq
  let a := unbind c.dstKey (unbind c.key (unreserve t s))
  let b := purgeStaging (· == .carriage t) (dropShadows (fun h => h.tag == some t) (forget t a))
  let d := updRing c.sq (fun r => { r with
    outstanding := r.outstanding - 1, fence := if r.fence == some t then none else r.fence }) b
  let e := updRing q (fun r => { r with
    outstanding := r.outstanding - 1, sidingCr := r.sidingCr - b2n c.sidingCredit }) d
  updCar (fun x => { x with cars := tdel x.cars t, legWait := x.legWait.erase t }) e

/-! ### Completion -/

/-- The completion entry's bytes 0-14 and a zero byte for the phase (R88). -/
def cqeBytes (c : Carriage) (status result csn : Nat) : Bytes :=
  natLe 4 (eCookie c.entry) ++ natLe 3 (c.sq + cqeFlags c.scrubbed c.replayed c.degraded * 2 ^ 16) ++
  natLe 1 status ++ natLe 4 result ++ natLe 3 csn ++ [0]

/-- An earlier carriage of the same SQ has no completion CSN yet (R97, R98). -/
def earlierOpen (s : State) (t : Nat) : Bool :=
  let c := carrOf s t
  tany s.car.cars (fun _ x => x.stage != .free && x.sq == c.sq && x.order < c.order)

/-- The counts of a completion (R169, CAR table). -/
def countEnd (c : Carriage) (status : Nat) (s : State) : State :=
  updCar (fun x => { x with
    abortedCnt := if status == stAborted then satInc 32 x.abortedCnt else x.abortedCnt
    scrubCarr := if c.scrubbed then satInc 32 x.scrubCarr else x.scrubCarr }) s

/-- The carriage must wait for an earlier one of its ORDERED SQ before it takes its completion CSN (R97). -/
def waitsTurn (s : State) (t : Nat) : Bool := (ringOf s (carrOf s t).sq).ordered && earlierOpen s t

/-- The completion at a CSN that is assigned already: CONSUMER written back, the entry placed and everything returned (R32,
R87, R91). -/
def finishAt (t status result : Nat) (s : State) : State :=
  let c := carrOf s t
  let r := ringOf s c.sq
  let b := place r.cq (eImmediate c.entry) (cqeBytes c status result s.csn) (writeBack c.sq s)
  relieve (drain r.cq (markSiding (release t (countEnd c status b))))

/-- The completion CSN assigned, and the completion at it. -/
def finish (t status result : Nat) (s : State) : State :=
  finishAt t status result (if status == stInternalFault then seqdAlways s else seqd s)

/-- The carriage of tag `t` has finished and waits under R97 with its status. -/
def park (t status result : Nat) (s : State) : State :=
  updCarr t (fun c => { c with stage := .finished, fin := some (status, result) }) s

/-- The carriage of tag `t` ends with a status: on an ORDERED SQ it waits for its earlier carriages (R97). -/
def complete (t status result : Nat) (s : State) : State :=
  if (carrOf s t).stage == .free then s
  else if waitsTurn s t then park t status result s
  else finish t status result s

/-- The carriage of tag `t` ends at the CSN of the change that ends it (R114); on an ORDERED SQ with an earlier carriage open it
waits for its own (R97; log entry 97). -/
def completeAt (t status result : Nat) (s : State) : State :=
  if (carrOf s t).stage == .free then s
  else if waitsTurn s t then park t status result s
  else finishAt t status result s

/-- Steps 1 and 2 of a stop (R155): no more work for the carriage, what it has staged is discarded, and the tender bytes and
the unwrapped key it holds are zeroised (R207, R255). -/
def letGo (t : Nat) (s : State) : State :=
  updCarr t (fun c => { c with
    segs := [], rnd := [], rngWait := false, record := none, stopped := true
    key := match c.key with | .ticket o _ b n h => .ticket o 0 b n h | k => k })
    (purgeStaging (· == .carriage t) (forget t s))

/-- A stop cause can still reach the carriage: none has, and it was not refused (R158). -/
def inFlight (c : Carriage) : Bool := c.stage != .free && !c.refused && !c.stopped

/-- An admitted carriage that no stop cause has reached, waiting under R97 or not. -/
def bound (c : Carriage) : Bool := inFlight c && c.stage != .taken

/-- The carriage stops: nothing more is issued for it and its provisional bytes are scrubbed, before its completion and
before a wait under R97 (R120, R155, R159). The first cause gives the status (R158). -/
def stopOne (t status result : Nat) (s : State) : State :=
  if inFlight (carrOf s t) then complete t status result (letGo t (scrub t s)) else s

/-- The carriage stops at the CSN of the change that ends it (R114). -/
def stopAt (t status result : Nat) (s : State) : State :=
  if inFlight (carrOf s t) then completeAt t status result (letGo t (scrub t s)) else s

/-- A refusal at admission: status, failing step, offset of the failing field, detail (R119). -/
structure Refuse where
  status : Nat
  step : Nat
  off : Nat := 0xFF
  detail : Nat := 0
deriving DecidableEq, Repr

/-- The carriage is refused: its shadow slot goes at once (R118, R119, R168). A refused FENCE does not wait for the earlier
carriages of its SQ (log entry 97). -/
def refuse (t : Nat) (x : Refuse) (s : State) : State :=
  complete t x.status (x.step + x.off * 2 ^ 8 + x.detail * 2 ^ 16)
    (updCarr t (fun c => { c with refused := true }) (dropShadows (fun h => h.tag == some t)
      (updCar (fun c => { c with refusedCnt := satInc 32 c.refusedCnt }) s)))

/-- A FRAGMENT_ERROR of a DMA read that fails after admission (R119). -/
def fragWord : Nat := 0xFF * 2 ^ 8 + 2 ^ 16

/-! ### Keys that are gone -/

/-- The key a carriage is bound to has been zeroised. -/
def keyGone (s : State) (k : KeyBind) : Bool :=
  match k with
  | .slot i g => (materialOf s i g).isNone
  | _ => false

/-- The carriages that use a key that is gone, those that wait under R97 among them. A KEY_RELEASE_SLOT needs no key and
completes DONE (R200, R125; log entry 78). -/
def orphans (s : State) : List Nat :=
  tkeys s.car.cars (fun _ c =>
    bound c && eOp c.entry != 0x12 && (keyGone s c.key || keyGone s c.dstKey))

/-- Port `p`'s lattice command ends: its slot is let go and the unit forgets it (R262, R266). -/
def latEnd (p : Port) (status result : Nat) (s : State) : State :=
  let b := (s.win.get p).lat
  if !b.busy then s
  else
    let a := match s.lat.slot.get p with
      | some (i, g) => unuseSlot i g s
      | none => s
    let c := updLat (fun l => { l with
      queue := l.queue.erase (.port p), src := l.src.set p none, rnd := l.rnd.set p [], slot := l.slot.set p none }) a
    let d := updRng (fun r => { r with waiters := r.waiters.filter (fun w => w.who != .lattice p) }) c
    updWin p (fun w => { w with lat := { w.lat with busy := false, status := status, result := result } }) d

/-- The utility cipher's operation ends: its slot is let go and the idle count restarts (R275, R276). -/
def ucpEnd (status out : Nat) (s : State) : State :=
  if !s.ucp.busy then s
  else
    let a := match s.ucp.slot with
      | some (i, g) => unuseSlot i g s
      | none => s
    updUcp (fun u => { u with
      busy := false, status := status, outLen := out, run := {}, slot := none, src := none, aad := none
      idleFrom := s.now }) a

/-- A slot an engine command uses is gone. -/
def pairGone (s : State) (x : Option (Nat × Nat)) : Bool :=
  match x with
  | some (i, g) => (materialOf s i g).isNone
  | none => false

/-- The engine commands whose key is gone end with the status (R206, R262, R276). -/
def reapEngines (status : Nat) (s : State) : State :=
  let a := if pairGone s (s.lat.slot.get .a) then latEnd .a status 0 s else s
  let b := if pairGone a (a.lat.slot.get .b) then latEnd .b status 0 a else a
  if pairGone b b.ucp.slot then ucpEnd status 0 b else b

/-- Every carriage and every engine command whose key is gone stops with the status (R120, R206). -/
def reap (status : Nat) (s : State) : State :=
  reapEngines status ((orphans s).foldl (fun s t => stopOne t status 0 s) s)

/-- A stop, and the end of every carriage whose key went with it (R206). -/
def stop (t status result : Nat) (s : State) : State := reap stKeyErased (stopOne t status result s)

/-- A completion, and the end of every carriage whose key went with it (R206). -/
def done (t status result : Nat) (s : State) : State := reap stKeyErased (complete t status result s)

/-- Every carriage that passes the test stops with the status. -/
def stopAll (f : Nat → Carriage → Bool) (status : Nat) (s : State) : State :=
  (tkeys s.car.cars f).foldl (fun s t => stopOne t status 0 s) s

/-- A proposal's signature request is dropped with the outputs that wait for it (R260). -/
def dropSign (id : Nat) (s : State) : State :=
  if (propOf s id).outs.isEmpty then s else
  let a := updLat (fun l => { l with queue := l.queue.erase (.sign id) }) s
  let b := updRng (fun r => { r with waiters := r.waiters.filter (fun w => w.who != .quorum id) }) a
  updProp id (fun p => { p with outs := [], rnd := [] }) b

/-- The result word of APPROVE and QUERY_PROPOSAL (R123). -/
def quorumWord (p : Proposal) (reason : Nat) : Nat := p.approvals.length + p.m * 2 ^ 8 + reason * 2 ^ 16

/-- A proposal closes without committing: its drawn key is zeroised, and the APPROVE that waits for its commit ends
QUORUM_EXPIRED (R235, R238, R239). -/
def closeProp (id : Nat) (s : State) : State :=
  let p := propOf s id
  if !p.used || p.state != .open_ then s
  else
    let a := dropSign id (updProp id (fun p => { p with
      state := .closed, drawn := [], mask := [], committing := false, by_ := none, begun := false, closedCsn := s.csn }) s)
    match p.by_ with
    | some t => done t stQuorumExpired (quorumWord p 0) a
    | none => a

/-- A proposal's output has been signed and written, or cannot be: the APPROVE of its commit completes (R32, R238). -/
def outputDone (id : Nat) (s : State) : State :=
  let p := propOf s id
  let a := updProp id (fun p => { p with by_ := none }) (dropSign id s)
  match p.by_ with
  | some t => done t stDone (quorumWord p 0) a
  | none => a

/-- A proposal's signature cannot be made: before the commit point the commit is abandoned, after it the output is never
written (R260, R266; log entry 92). -/
def signLost (id : Nat) (s : State) : State :=
  if (propOf s id).state == .committed then outputDone id s else closeProp id s

/-- The carriage is marked by an abort request (R122): one not admitted always, a refused one that waits for its completion
CSN too; an admitted NOP or QUERY_PROPOSAL never ends ABORTED (R125; log entry 78). -/
def abortable (c : Carriage) : Bool :=
  let op := eOp c.entry
  if c.stage == .free then false
  else if c.stage == .taken || c.refused then true
  else
    !c.stopped &&
    !(op == 0x05 || op == 0x11 || op == 0x12 || op == 0x32 || op == 0x50 || op == 0x51 || op == 0x52 || op == 0x7F) &&
    !(op == 0x10 && c.rnd.length == 40) &&
    !((op == 0x20 || op == 0x21 || op == 0x31) && c.started)

/-- The carriage is an APPROVE that waits under R97 and whose approval was counted without reaching quorum (R238). -/
def counted (c : Carriage) : Bool := eOp c.entry == 0x31 && c.stage == .finished && (c.fin.map (·.1)) == some stQuorumPending

/-- The approval of a counted APPROVE taken back, where its proposal still collects them (R122; log entry 101). -/
def uncount (c : Carriage) (s : State) : State :=
  updProp (fld c.entry 48 4) (fun p => { p with approvals := p.approvals.filter (· != fld c.entry 52 1) }) s

/-- One marked carriage ends ABORTED: a FENCE at once, ahead of its turn under R97 too (log entry 97), a refused one with its
status changed (R122). A counted APPROVE gives its approval back; once its proposal commits with it, it is marked no more
(log entry 101). -/
def abortOne (s : State) (t : Nat) : State :=
  let c := carrOf s t
  let p := propOf s (fld c.entry 48 4)
  if c.stage == .free then s
  else if eOp c.entry == 0x7E then finish t stAborted 0 s
  else if counted c && p.used && (p.committing || p.state == .committed) then s
  else if counted c && !c.stopped then stopOne t stAborted 0 (if p.used then uncount c s else s)
  else if c.refused then complete t stAborted 0 s
  else stopOne t stAborted 0 s

/-- The SEAL_OBJECTs that wait on slot `i`, but for `own` (R114). -/
def sealsOn (i : Nat) (own : Option Nat) (s : State) : List Nat :=
  tkeys s.car.cars (fun t c =>
    bound c && eOp c.entry == 0x05 && some t != own &&
      (match c.key with | .slot j g => j == i && g == (slotOf s i).gen | _ => false))

/-- A slot is marked PENDING or ORPHANED at the CSN just assigned; seals that wait on it stop at that CSN, and carriages on a
generation zeroised with it after it (R114, R206). `own` is the seal that makes the mark. -/
def markBy (own : Option Nat) (st : SlotState) (i : Nat) (s : State) : State :=
  let lost := if (slotOf s i).state == .live then sealsOn i own s else []
  reap stKeyErased (lost.foldl (fun s t => stopAt t stKeyErased 0 s) (markSlot st i s))

/-- A mark that no seal makes. -/
def mark (st : SlotState) (i : Nat) (s : State) : State := markBy none st i s

/-- The carriage of tag `t` ends with its port: no entry is posted (R65 step 4, R162). -/
def vanish (t : Nat) (s : State) : State :=
  let c := carrOf s t
  let a := if (provisional c).isSome then updCar (fun x => { x with unscrubCnt := satInc 16 x.unscrubCnt }) s else s
  release t a

/-- Operation tags held (TAGS_USED). -/
def tagsUsed (s : State) : Nat := tcount s.car.cars (fun _ c => c.stage != .free)

/-- Carriages of a slice that hold tags (INFLIGHT). -/
def inflight (s : State) (n : Nat) : Nat :=
  tcount s.car.cars (fun _ c => c.stage != .free && !(ringOf s c.sq).mgr && (ringOf s c.sq).slice == n)

/-- A carriage of this opcode that is admitted and not yet ended. -/
def isAt (s : State) (t op : Nat) (st : Stage) : Bool :=
  live s && eOp (carrOf s t).entry == op && (carrOf s t).stage == st

/-- The carriage of tag `t` starts to run. -/
def begin_ (t : Nat) (s : State) : State := updCarr t (fun c => { c with stage := .running, started := true }) s

end Sys2Proof.Machine
end

