-- ==== Sys2Proof/Machine/Tender.lean ====
section
/-! DEFINITION. The tender's consumers: who waits for random bytes, in what order they are served and what becomes of one
that is not; and the re-masks they feed (R208, R209, R254-R256). -/
namespace Sys2Proof.Machine

/-! ### Re-masks (R208, R209) -/

/-- The index, after every slot's, under which the key-staging entries of no slot are re-masked (R208; log entry 63). -/
def stagedIndex : Nat := 32768

/-- The index under which a key-staging entry is re-masked: its slot's, or that of the entries of no slot. -/
def entryIndex (k : KeyId) : Nat :=
  match k with
  | .slot i _ => i
  | _ => stagedIndex

/-- Every key-staging entry of the array. -/
def stagedKeys (s : State) : List KeyEntry := s.cay.work.flatMap (fun w => w.2.blocks.flatMap (fun b => b.2.keys))

/-- Something is re-masked under index `i`: a slot that is not FREE, or key-staging entries of no slot (R208). -/
def maskable (s : State) (i : Nat) : Bool :=
  if i == stagedIndex then (stagedKeys s).any (fun e => entryIndex e.id == stagedIndex) else (slotOf s i).state != .free

/-- Every index under which something is re-masked, in ascending order. -/
def maskables (s : State) : List Nat :=
  (tkeys s.kst.slots (fun _ x => x.state != .free)).mergeSort ++ (if maskable s stagedIndex then [stagedIndex] else [])

/-- The end of the window in which index `i` is to be re-masked: the period after its MASK_STAMP (R42, R43, R208). -/
def maskLimit (s : State) (i : Nat) : Nat :=
  if i == stagedIndex then
    (((stagedKeys s).filter (fun e => entryIndex e.id == stagedIndex)).map (·.maskStamp)).foldl min s.now + 1000000 * s.kst.remaskPeriod
  else (slotOf s i).maskStamp + 1000000 * (slotOf s i).maskPeriod

/-- The index re-masked next: an UNMASKED slot first once the DRBG is seeded, then one whose window has ended, neither of them
skipped since the pass began, else the next of the pass once its time has come, each in ascending order (R208, R209; log entry
63). -/
def nextRemask (s : State) : Option Nat :=
  let l := maskables s
  let f := l.filter (fun i => !s.kst.remaskSkipped.contains i)
  let bare := if s.rng.state == .seeded then f.filter (fun i => i != stagedIndex && (slotOf s i).unmasked) else []
  let pass := if s.now ≥ s.kst.remaskAt then l.filter (· ≥ s.kst.remaskNext) ++ l else []
  (bare ++ f.filter (fun i => maskLimit s i ≤ s.now) ++ pass).head?

/-- The time between two re-masks of a pass: the period's ticks spread evenly over all that is re-masked, so that each comes
again within its window (R208). -/
def remaskSpace (s : State) : Nat := (1000000 * s.kst.remaskPeriod - 1) / (maskables s).length

/-- The pass moves on where index `i` was its next; one that has no index left is complete and counted in KST_REMASK_PASSES,
and what it skipped is tried again (R208, R209; log entry 63). -/
def passStep (i : Nat) (s : State) : State :=
  let l := maskables s
  let wrapped := i < s.kst.remaskNext && !l.any (· ≥ s.kst.remaskNext) && !l.any (· < i)
  let inOrder := wrapped || (s.kst.remaskNext ≤ i && !l.any (fun j => s.kst.remaskNext ≤ j && j < i))
  let wraps := !l.any (i < ·)
  if !inOrder then s
  else updKst (fun k => { k with
    remaskNext := if wraps then 0 else i + 1
    remaskAt := s.now + remaskSpace s
    remaskSkipped := if wrapped || wraps then k.remaskSkipped.filter (· == i) else k.remaskSkipped
    remaskPasses := (if wrapped then satInc 32 else id) ((if wraps then satInc 32 else id) k.remaskPasses) }) s

/-- The key-staging entries of index `i` re-masked with `m` (R208). -/
def remaskEntries (i m : Nat) (s : State) : State :=
  let f (e : KeyEntry) : KeyEntry :=
    if entryIndex e.id == i then { e with share0 := e.share0 ^^^ m, share1 := e.share1 ^^^ m, maskStamp := s.now } else e
  updCay (fun c => { c with work := tmap {} (fun _ w =>
    { w with blocks := tmap {} (fun _ b => { b with keys := b.keys.map f }) w.blocks }) c.work }) s

/-- A re-mask: `m` goes into both shares of a slot, of its retained generation and of its key-staging entries; the shares
are never combined. It starts, and is stamped, once its bytes are there (R43, R208; log entry 63). -/
def remaskWith (i m : Nat) (s : State) : State :=
  let a := remaskEntries i m s
  let b := if i == stagedIndex || (slotOf s i).state == .free then a
    else updSlot i (fun x => { x with
      share0 := x.share0 ^^^ m, share1 := x.share1 ^^^ m, unmasked := false, maskStamp := s.now, maskPeriod := s.kst.remaskPeriod
      retShare0 := if x.retained then x.retShare0 ^^^ m else x.retShare0
      retShare1 := if x.retained then x.retShare1 ^^^ m else x.retShare1 }) a
  passStep i (updKst (fun k => { k with remaskSkipped := k.remaskSkipped.filter (· != i) }) b)

/-! ### Consumers -/

/-- The debug challenge placed with its nonce (R343). -/
def placeChallenge (nonce : Bytes) (s : State) : State :=
  updLcs (fun l => { l with
    chal := 1, chalLive := true, chalAt := s.now
    chalBytes := natLe 4 0x43474244 ++ natLe 1 (lifeCode l.state) ++ natLe 1 l.reqScope ++ zeros 2 ++
      unitId16 ++ natLe 4 s.chp.bootCnt ++ zeros 4 ++ nonce }) s

/-- A served consumer has its bytes (R255). -/
def deliver (w : Waiter) (s : State) : State :=
  match w.who with
  | .carriage t => updCarr t (fun c => { c with rnd := w.got, rngWait := false }) s
  | .lattice p => updLat (fun l => { l with rnd := l.rnd.set p w.got }) s
  | .debug => placeChallenge w.got s
  | .remask i => remaskWith i (leNat w.got) s
  | .quorum i => updProp i (fun p => { p with rnd := w.got }) s

/-- A waiting consumer is not served and ends with status `st`; `atCsn` where that is at the CSN of the declaration in progress
(R248, R256). A re-mask is skipped, and counted in KST_REMASK_LATE where its wait was too long (R209). -/
def unserved (st : Nat) (atCsn : Bool) (w : Waiter) (s : State) : State :=
  let a := updRng (fun r => { r with
    waiters := r.waiters.filter (fun x => x.who != w.who), notSeeded := satInc 32 r.notSeeded }) s
  match w.who with
  | .carriage t =>
    let b := updCarr t (fun c => { c with rngWait := false }) a
    if atCsn then stopAt t st 0 b else stop t st 0 b
  | .lattice p => latEnd p st 0 a
  | .quorum i => signLost i a
  | .debug => updLcs (fun l => { l with chal := 3, dbgResult := 5 }) a
  | .remask i => passStep i (updKst (fun k => { k with
      remaskSkipped := i :: k.remaskSkipped
      remaskLate := if st == stRngNotSeeded then satInc 32 k.remaskLate else k.remaskLate }) a)

/-- The head of the waiters takes bytes until it holds its whole amount; then the next may (R255). One whose limit is over
takes no more: it fails; in the limit's own tick the order of events decides (R44, R256). -/
def serve : Nat → State → State
  | 0, s => s
  | k + 1, s =>
    match s.rng.waiters with
    | [] => s
    | w :: ws =>
      if s.now > w.at_ + w.limit then serve k (unserved stRngNotSeeded false w s)
      else
        let n := min (w.need - w.got.length) s.rng.tender.length
        let rest := s.rng.tender.drop n
        let v := { w with got := w.got ++ s.rng.tender.take n }
        let low := if s.rng.state == .seeded then min s.rng.tenderLow rest.length else s.rng.tenderLow
        if v.got.length ≥ v.need then
          serve k (deliver v (updRng (fun r => { r with tender := rest, tenderLow := low, waiters := ws }) s))
        else updRng (fun r => { r with tender := rest, tenderLow := low, waiters := v :: ws }) s

/-- Every waiting consumer served as far as the tender reaches. -/
def serveAll (s : State) : State := serve s.rng.waiters.length s

/-- A waiter put into the order of observation points (R255). -/
def insertWaiter (w : Waiter) : List Waiter → List Waiter
  | [] => [w]
  | x :: xs => if w.csn < x.csn then w :: x :: xs else x :: insertWaiter w xs

/-- A consumer asks for `n` bytes at its observation point, now, under the RNG_WAIT and the state of this moment (R43,
R254-R256): at once it is served where it can be, and a declared failure turns it away. -/
def ask (who : Consumer) (n : Nat) (s : State) : State :=
  let w : Waiter := { who := who, need := n, at_ := s.now, csn := s.csn, limit := 1000 * s.rng.wait }
  if s.rng.state == .failed then unserved stRngFailed false w s
  else serveAll (updRng (fun r => { r with waiters := insertWaiter w r.waiters }) s)

/-- The tender bytes an admitted carriage waits for (R254). -/
def tenderNeed (e : Bytes) : Nat :=
  match eOp e with
  | 0x10 => 40
  | 0x13 => eLength e
  | 0x42 => 32
  | _ => 0

/-- The tender bytes a proposal's record draws: a key, a vault's key, mask and id, or nothing (R235, R254). -/
def propDraw (r : Bytes) : Nat :=
  match fld r 0 1 with
  | 0x01 | 0x18 => 32
  | 0x30 => 80
  | _ => 0

/-- What an admission draws: a consumer that waits asks, at its admission CSN, for its bytes; a PROPOSE takes those of its
operation where the tender holds them (R43, R235, R254; log entry 87). -/
def askAdmitted (t : Nat) (s : State) : State :=
  let e := (carrOf s t).entry
  if tenderNeed e != 0 then ask (.carriage t) (tenderNeed e) (updCarr t (fun c => { c with rngWait := true }) s)
  else if eOp e == 0x30 then
    match tenderTake (propDraw ((carrOf s t).record.getD [])) s with
    | some (b, a) => updCarr t (fun c => { c with rnd := b }) a
    | none => s
  else s

end Sys2Proof.Machine
end

