-- ==== Sys2Proof/Machine/Admit.lean ====
section
/-! DEFINITION. Admission: the ordered checks of R118 on a taken carriage, and what passing them does. -/
namespace Sys2Proof.Machine

/-- What a check says: it passes, refuses, or first needs the ticket or the fragment chain read from host memory. -/
inductive Verdict where
  | pass
  | refuse (x : Refuse)
  | needTicket
  | needChain
  | needRecord
deriving DecidableEq, Repr

/-- The first verdict that is not a pass. -/
def firstOf : List Verdict → Verdict
  | [] => .pass
  | .pass :: vs => firstOf vs
  | v :: _ => v

/-- A refusal unless the condition holds. -/
def need (ok : Bool) (status step off : Nat) : Verdict :=
  if ok then .pass else .refuse { status := status, step := step, off := off }

/-! ### Step 2: fields (R104-R116) -/

/-- Bytes `off` to `off + n - 1` of the entry hold something. -/
def busy (e : Bytes) (off n : Nat) : Bool := fld e off n != 0

/-- OPTIONS holds only bits the opcode defines (R103, R112-R114). -/
def optionsOk (e : Bytes) : Bool :=
  let o := bits (fld e 2 2) 4 12
  o == 0 || (o == 1 && (isLegacy e || eOp e == 0x10))

/-- SIZE_CODE and OPTIONS (R103, R109, R110, R113). -/
def sizeOk (r : Ring) (e : Bytes) : Bool :=
  optionsOk e &&
  (if isTrain e && !isLegacy e then eSize e ≤ 10 && (!r.hold || eSize e ≤ 8)
   else if eOp e == 0x10 then eSize e ≤ 10
   else eSize e == 0)

/-- LENGTH within the opcode's range (R109-R116, R263, R265, R269). -/
def lengthOk (e : Bytes) : Bool :=
  let n := eLength e
  match eOp e with
  | 0x01 | 0x02 | 0x03 => n != 0 && n % 4096 == 0 && eSegs e ≤ 255
  | 0x04 => n != 0 && n % 4096 == 0 && eSegs e ≤ 255
  | 0x08 | 0x09 => n != 0 && n % 4096 == 0 && n ≤ 16 * 2 ^ 20
  | 0x13 => 1 ≤ n && n ≤ 65536
  | 0x22 => n ≤ 2 ^ 20
  | 0x30 => 64 ≤ n && n ≤ 16384
  | 0x31 => true
  | 0x40 => 17 ≤ n && n ≤ 70434
  | 0x41 => n == 1648
  | 0x42 => n == 13638
  | 0x51 | 0x52 => true
  | _ => n == 0

/-- TARGET (R105, R109). -/
def targetOk (e : Bytes) : Bool :=
  let t := eTarget e
  if isTrain e || eOp e == 0x08 || eOp e == 0x09 then bits t 57 7 == 0
  else if eOp e == 0x22 then bits t 57 7 == 0 && tLba t == 0
  else t == 0

/-- The drives and blocks of a REKEY's destination do not overlap its source (R112). -/
def rekeyApart (e : Bytes) : Bool :=
  let s := eTarget e
  let d := eDstTarget e
  let n := eLength e / 4096
  let meets (a la b lb : Nat) : Bool := a < b + lb && b < a + la
  tDrive s != tDrive d ||
    (!meets (tLba s) n (tLba d) (n + 1) && (isLegacy e || !meets (eTrailerLba e) 1 (tLba d) (n + 1)))

/-- The bad field of BUFFER, by its offset (R106, R109, R112); a DRIVE_ADMIN of LENGTH 0 moves no host data and names no buffer
(log entry 113). -/
def bufferBad (e : Bytes) : Option Nat :=
  if eOp e == 0x04 then
    if !(kKind (eDstKeyref e) == 1 && keyrefOk (eDstKeyref e)) then some 32
    else if bits (eDstTarget e) 57 7 != 0 then some 40
    else if !rekeyApart e then some 0xFF
    else none
  else if !opBuffer (eOp e) || (eOp e == 0x22 && eLength e == 0) then
    if busy e 32 16 then some 32 else none
  else if eTable e then
    if eBufCount e == 0 || eBufCount e > 4096 then some 40 else if busy e 42 6 then some 42 else none
  else if busy e 44 4 then some 44 else none

/-- TABLE and the reserved bits of byte 1 (R103, R106). -/
def flagsBad (e : Bytes) : Bool :=
  bits (fld e 1 1) 2 6 != 0 ||
    (eTable e && (!opBuffer (eOp e) || (eOp e == 0x22 && eLength e == 0)))

/-- The bad byte of the slot attribute field (R114). -/
def attrBad (e : Bytes) : Option Nat :=
  if bits (eEngine e) 4 4 != 0 then some 48
  else if bits (eUsage e) 5 3 != 0 then some 49
  else if busy e 50 2 then some 50
  else none

/-- A DRIVE_ADMIN's fields (R115, R187). A Dataset Management whose CDW11 asks for more than Deallocate is a FORMAT_ERROR too
(DESIGN CHOICE, log entry 21). -/
def adminBad (s : State) (e : Bytes) : Option Nat :=
  let op := fld e 48 1
  let cdw10 := fld e 52 4
  if op == 0 || op > 7 then some 48
  else if busy e 49 3 then some 49
  else if op == 4 && !([0x02, 0x04, 0x06, 0x0C].contains (bits cdw10 0 8)) then some 52
  else if op == 5 &&
      !((driveOf s (tDrive (eTarget e))).formats[bits cdw10 0 4]? == some (4096, 0) && bits cdw10 5 3 == 0 &&
        bits cdw10 9 3 ≤ 1) then some 52
  else if op == 6 && fld e 56 4 != 4 then some 56
  else if busy e 60 3 then some 60
  else none

/-- The bad field of SPECIFIC, by its offset (R109-R116). -/
def specificBad (s : State) (e : Bytes) : Option Nat :=
  match eOp e with
  | 0x01 => if busy e 48 6 then some 48 else if busy e 58 4 then some 58 else if busy e 62 1 then some 62 else none
  | 0x02 | 0x03 => if eTrainPos e > 254 then some 62 else none
  | 0x04 =>
    if isLegacy e then (if busy e 58 4 then some 58 else if busy e 62 1 then some 62 else none)
    else if eTrainPos e > 254 then some 62 else none
  | 0x08 | 0x09 => if busy e 54 9 then some 54 else none
  | 0x10 =>
    match attrBad e with
    | some o => some o
    | none =>
      if !eOption e 4 && busy e 48 4 then some 48 else if busy e 52 11 then some 52 else none
  | 0x11 => match attrBad e with
    | some o => some o
    | none => if busy e 52 11 then some 52 else none
  | 0x20 | 0x21 => if fld e 48 1 > 7 then some 48 else if busy e 49 14 then some 49 else none
  | 0x22 => adminBad s e
  | 0x30 => if busy e 56 7 then some 56 else none
  | 0x31 => if busy e 53 10 then some 53 else none
  | 0x32 => if busy e 52 11 then some 52 else none
  | 0x40 => if fld e 48 1 == 0 || fld e 48 1 > 9 then some 48 else if busy e 49 14 then some 49 else none
  | 0x41 => match attrBad e with
    | some o => some o
    | none => if bits (fld e 52 3) 22 2 != 0 then some 52 else if busy e 55 8 then some 55 else none
  | 0x42 => if busy e 56 7 then some 56 else none
  | 0x50 => if fld e 48 2 > 8191 then some 48 else if busy e 50 13 then some 50 else none
  | 0x51 | 0x52 => if fld e 48 2 > 8191 then some 48 else if busy e 52 11 then some 52 else none
  | _ => if busy e 48 15 then some 48 else none

/-- The bad field of the entry: the one at the lowest offset (R118 step 2; log entry 14). -/
def formatBad (s : State) (r : Ring) (e : Bytes) : Option Nat :=
  if flagsBad e then some 1
  else if !sizeOk r e then some 2
  else if !(keyrefOk (eKeyref e) && (opKinds (eOp e)).contains (kKind (eKeyref e))) then some 8
  else if !targetOk e then some 16
  else if !lengthOk e then some 24
  else
    match bufferBad e with
    | some o => some o
    | none =>
      match specificBad s e with
      | some o => some o
      | none => if bits (fld e 63 1) 0 7 != 0 then some 63 else none

/-! ### Step 3: rights -/

/-- The owner of a handle's slot is bound to the ring's slice, where the handle resolves (R281; log entry 15). -/
def slotOwnerBound (s : State) (r : Ring) (k : Nat) : Bool :=
  !handleFound s r k || ownerBound s r (slotOf s (hIndex k)).owner

/-- The vault mode admits this PROPOSE: an EMPTY or re-provisionable vault admits a VAULT_INIT only, which the record's OP
tells, so the record is read first (R228; log entry 91). -/
def proposeStep (s : State) (c : Carriage) : Verdict :=
  let initOnly := s.vlt.mode == .empty || (s.vlt.mode == .locked && (s.vlt.cause == 1 || s.vlt.cause == 2))
  if s.vlt.mode == .normal || s.vlt.mode == .rebuilding then .pass
  else if !initOnly then .refuse { status := stAccessDenied, step := 3, off := 0 }
  else
    match c.record with
    | none => if c.dmaFail then .refuse { status := stFragmentError, step := 11, off := 32, detail := 1 } else .needRecord
    | some r => need (fld r 0 1 == 0x30) stAccessDenied 3 0

/-- Step 3: the opcode is allowed on this ring (R109, R113, R228, R281, R286). -/
def step3 (s : State) (c : Carriage) (r : Ring) : Verdict :=
  let e := c.entry
  let op := eOp e
  let k := eKeyref e
  firstOf [
    need (r.mgr || (!mgrOnly op && !isLegacy e)) stAccessDenied 3 0,
    need (op != 0x09 || s.mnf.legacyWrite) stAccessDenied 3 0,
    (if op == 0x30 then proposeStep s c else .pass),
    need (op != 0x50 || (sliceOf s (fld e 48 2)).state != .empty) stAccessDenied 3 48,
    need (kKind k != 1 || slotOwnerBound s r k) stAccessDenied 3 8,
    need (op != 0x04 || slotOwnerBound s r (eDstKeyref e)) stAccessDenied 3 32,
    need (kKind k != 4 || ownerBound s r (bits k 0 22)) stAccessDenied 3 8,
    (if kKind k == 2 && !r.mgr then
      match c.ticket with
      | none => if c.dmaFail then .pass else .needTicket
      | some t => need (ownerBound s r (tkOwner t)) stAccessDenied 3 8
     else .pass),
    need (op != 0x41 || ownerBound s r (bits (fld e 52 3) 0 22)) stAccessDenied 3 52 ]

/-! ### Steps 4 and 5 -/

/-- Step 4: the ring's slice is not frozen. -/
def step4 (s : State) (r : Ring) : Verdict :=
  let st := (sliceOf s r.slice).state
  need (r.mgr || (st != .freezing && st != .frozen)) stRingFrozen 4 0xFF

/-- The regions that can run segments. -/
def healthy (s : State) : List Nat := (List.range 4).filter (fun r => (regionOf s r).state == .normal)

/-- The regions that serve the ports of region `r` (R147): both its neighbours, or, where one of them cannot, every region that
can. -/
def servers (s : State) (r : Nat) : List Nat :=
  match (regionOf s r).state with
  | .lost => []
  | .normal => [r]
  | .degraded =>
    let near := (healthy s).filter (fun x => x == (r + 1) % 4 || x == (r + 3) % 4)
    if near.length == 2 then near else healthy s

/-- A segment of this size code for this drive can be served (R19, R20, R147). -/
def canServe (s : State) (drive size : Nat) : Bool :=
  let r := drive / 128
  !(servers s r).isEmpty &&
    !((regionOf s r).state == .degraded && (healthy s).length == 1 && 2 ^ size > 512)

/-- The array serves every train and drive of the carriage (R147); a LEGACY source has cell 0's path instead (R134). -/
def pathServed (s : State) (e : Bytes) : Bool :=
  !isTrain e ||
    ((isLegacy e || canServe s (tDrive (eTarget e)) (eSize e)) &&
     (eOp e != 0x04 || canServe s (tDrive (eDstTarget e)) (eSize e)))

/-- Global cell 0 is available to the legacy path (R134). -/
def cell0Ok (s : State) : Bool :=
  let x := regionOf s 0
  x.state == .normal && !x.blkRetired.getLsbD 0 && !x.cellFenced.getLsbD 0

/-- The opcodes that step 5 tests. -/
def usesMedia (op : Nat) : Bool :=
  (0x01 ≤ op && op ≤ 0x04) || op == 0x08 || op == 0x09 || op == 0x20 || op == 0x21 || op == 0x22

/-- Step 5: the media path can serve the carriage (R19, R20, R134, R147, R184, R316, R339, R351). -/
def step5 (s : State) (e : Bytes) : Verdict :=
  let op := eOp e
  let ok :=
    s.chp.mode != .service &&
    (List.range 4).any (fun r => (regionOf s r).state != .lost) &&
    (op == 0x21 || (!s.tmp.dataStop && !s.lcs.pending)) &&
    pathServed s e &&
    (!isLegacy e || (cell0Ok s && (regionOf s (tDrive (eTarget e) / 128)).state != .lost)) &&
    (op != 0x22 || (regionOf s (tDrive (eTarget e) / 128)).state != .lost)
  need (!usesMedia op || ok) stDegradedRefused 5 0xFF

/-! ### Steps 6 to 10: keys -/

/-- Steps 6 to 9 of a handle (R195, R200, R206); `free` for KEY_RELEASE_SLOT. -/
def slotStep (s : State) (r : Ring) (k off i : Nat) (free : Bool) : Verdict :=
  let x := slotOf s (hIndex k)
  match i with
  | 6 => need (handleFound s r k) stKeyNotFound 6 off
  | 7 => need (hGen k == x.gen) stKeyGenStale 7 off
  | 8 => need (free || (x.state != .orphaned && (ownerOf s x.owner).state != .revoked)) stParentRevoked 8 off
  | _ => need (free || x.state != .pending) stKeyErased 9 off

/-- The use of a slot is permitted (R195, R199). -/
def slotUseOk (s : State) (e : Bytes) (k : Nat) (dst : Bool) : Bool :=
  let x := slotOf s (hIndex k)
  let en := x.engine.toNat
  let us := x.usage.toNat
  let last := eFirstSeg e + eSegs e
  let ws := hSession k == x.session
  if dst then ws && x.session && engCA en && useDST us && x.sizeCode == eSize e
  else
    match eOp e with
    | 0x01 => ws && x.session && engCA en && useENC us && x.sizeCode == eSize e
    | 0x02 => ws && engCA en && (useDEC us || (x.session && (useENC us || useDST us))) && last ≤ x.count
    | 0x03 => ws && engCA en && (useDEC us || useVER us || (x.session && (useENC us || useDST us))) && last ≤ x.count
    | 0x04 => ws && engCA en && useSRC us && last ≤ x.count
    | 0x05 => ws && engCA en && (useENC us || useDST us) && x.session
    | 0x41 => ws && engLU en && useDEC us && x.mlen
    | _ => true

/-- The attributes a creating carriage asks for are permitted (R114, R198, R264). -/
def wantedOk (e : Bytes) : Bool :=
  match eOp e with
  | 0x10 => !eOption e 4 || attrsPermitted true (eEngine e) (eUsage e)
  | 0x11 => attrsPermitted false (eEngine e) (eUsage e) && !engLU (eEngine e) && !useENC (eUsage e) &&
      !useDST (eUsage e)
  | 0x41 => attrsPermitted false (eEngine e) (eUsage e) && (eEngine e == 2 || eEngine e == 10)
  | _ => true

/-- Step 6, 8 or 10 of a TICKET key reference (R199, R202, R203). -/
def ticketStep (s : State) (c : Carriage) (i : Nat) : Verdict :=
  let e := c.entry
  match c.ticket with
  | none =>
    if c.dmaFail then .refuse { status := stFragmentError, step := 11, off := 8, detail := 1 } else .needTicket
  | some t =>
    let revoked := tkHeaderOk t && (ownerOf s (tkOwner t)).state == .revoked
    match i with
    | 6 => need (revoked || (openTicket s t).isSome) stKeyNotFound 6 8
    | 8 => need (!revoked) stParentRevoked 8 8
    | 10 =>
      need (tkSealed t && (eOp e == 0x11 || eFirstSeg e + eSegs e ≤ tkCount t)) stKeyAttrDenied 10 8
    | _ => .pass

/-- Owner `o`'s step 6 and step 8. -/
def ownerStep (s : State) (o off i : Nat) : Verdict :=
  match i with
  | 6 => need ((ownerOf s o).state != .absent) stKeyNotFound 6 off
  | 8 => need ((ownerOf s o).state != .revoked) stParentRevoked 8 off
  | _ => .pass

/-- Step `i`, 6 to 10, of the carriage's keys: the source first, then the destination (R118). -/
def keyStep (s : State) (c : Carriage) (r : Ring) (i : Nat) : Verdict :=
  let e := c.entry
  let k := eKeyref e
  let src : Verdict :=
    match kKind k with
    | 1 =>
      if i == 10 then need (slotUseOk s e k false) stKeyAttrDenied 10 8
      else slotStep s r k 8 i (eOp e == 0x12)
    | 2 => ticketStep s c i
    | 3 => if i == 6 then need s.leg.loaded stKeyNotFound 6 8 else .pass
    | 4 => ownerStep s (bits k 0 22) 8 i
    | 5 =>
      let a := tget {} s.bnv.anchors (bits k 0 10)
      if i == 6 then need a.valid stKeyNotFound 6 8
      else if i == 10 then need (a.alg == fld e 48 1) stKeyAttrDenied 10 8
      else .pass
    | _ => .pass
  let dst : Verdict :=
    if eOp e == 0x04 then
      if i == 10 then need (slotUseOk s e (eDstKeyref e) true) stKeyAttrDenied 10 32
      else slotStep s r (eDstKeyref e) 32 i false
    else if eOp e == 0x41 then ownerStep s (bits (fld e 52 3) 0 22) 52 i
    else .pass
  firstOf [src, dst, if i == 10 then need (wantedOk e) stKeyAttrDenied 10 48 else .pass]

/-! ### Steps 11 to 15 -/

/-- The opcode's destination must begin on a 64-byte boundary (R109). -/
def wantsAligned (op : Nat) : Bool := op == 0x05 || op == 0x10

/-- The carriage's fragments: its table's, or its one buffer. -/
def entryFrags (c : Carriage) : List (Nat × Nat) := if eTable c.entry then c.frags else [(eBufAddr c.entry, eBufLen c.entry)]

/-- Step 11 of the fragments (R107, R109). -/
def fragStep (c : Carriage) : Verdict :=
  let e := c.entry
  let bad (detail : Nat) : Verdict := .refuse { status := stFragmentError, step := 11, off := 32, detail := detail }
  if !opBuffer (eOp e) || (eOp e == 0x22 && eLength e == 0) then .pass
  else if eTable e && eBufAddr e % 16 != 0 then bad 0
  else if eTable e && c.dmaFail && !c.chainDone then bad 1
  else if eTable e && !c.chainDone then .needChain
  else
    let fs := entryFrags c
    if !(c.chainOk || !eTable e) || !fragsOk (!eTable e) fs (bufBytes e) then bad 0
    else if wantsAligned (eOp e) && (fs.headD (0, 0)).1 % 64 != 0 then bad 0
    else .pass

/-- Step 11: the buffer, then the digest's or challenge's address (R107, R109). -/
def step11 (c : Carriage) : Verdict :=
  firstOf [fragStep c, need (!((eOp c.entry == 0x30 || eOp c.entry == 0x42) && fld c.entry 48 8 % 32 != 0)) stFragmentError 11 48]

/-- Step 12 of one drive (R177). -/
def driveUsable (s : State) (d : Nat) (admin : Bool) : Bool :=
  let x := driveOf s d
  (shelfOf s (d % 128 / 16)).state == .awake && (x.state == .ready || (admin && x.state == .unusable))

/-- Step 12: every drive named is present in an awake shelf. -/
def step12 (s : State) (e : Bytes) : Verdict :=
  if isTrain e || isLegacy e || eOp e == 0x22 then
    firstOf [need (driveUsable s (tDrive (eTarget e)) (eOp e == 0x22)) stShelfOffline 12 16,
      need (eOp e != 0x04 || driveUsable s (tDrive (eDstTarget e)) false) stShelfOffline 12 40]
  else .pass

/-- The blocks lie in the drive's namespace. -/
def inSpace (s : State) (d lba n : Nat) : Bool := lba + n ≤ (driveOf s d).nsze

/-- Step 13: every block range lies within its drive's namespace (R111, R112). -/
def step13 (s : State) (e : Bytes) : Verdict :=
  let t := eTarget e
  let n := eLength e / 4096
  let d := eDstTarget e
  match eOp e with
  | 0x01 => need (inSpace s (tDrive t) (tLba t) (n + 1)) stMediaError 13 16
  | 0x02 | 0x03 => firstOf [need (inSpace s (tDrive t) (tLba t) n) stMediaError 13 16,
      need (inSpace s (tDrive t) (eTrailerLba e) 1) stMediaError 13 48]
  | 0x04 => firstOf [need (inSpace s (tDrive t) (tLba t) n) stMediaError 13 16,
      need (isLegacy e || inSpace s (tDrive t) (eTrailerLba e) 1) stMediaError 13 48,
      need (inSpace s (tDrive d) (tLba d) (n + 1)) stMediaError 13 40]
  | 0x08 | 0x09 => need (inSpace s (tDrive t) (tLba t) n) stMediaError 13 16
  | _ => .pass

/-- The session's counter can supply `n` indices, the last at most 2^32 - 2 (R131). -/
def canIndex (s : State) (k n : Nat) : Bool := (slotOf s (hIndex k)).count + n ≤ 2 ^ 32 - 1

/-- Step 14: the session counter. -/
def step14 (s : State) (e : Bytes) : Verdict :=
  match eOp e with
  | 0x01 => need (canIndex s (eKeyref e) (eSegs e)) stNonceExhausted 14 8
  | 0x04 => need (canIndex s (eDstKeyref e) (eSegs e)) stNonceExhausted 14 32
  | _ => .pass

/-- The carriage creates a slot (R197). -/
def createsSlot (e : Bytes) : Bool := (eOp e == 0x10 && eOption e 4) || eOp e == 0x11 || eOp e == 0x41

/-- Step 15: a slot for a carriage that creates one; the quota first, then the supply (R119). -/
def step15 (s : State) (r : Ring) (e : Bytes) : Verdict :=
  if !createsSlot e then .pass
  else if !r.mgr && slotsOfSlice s r.slice ≥ (sliceOf s r.slice).slotQuota then
    .refuse { status := stAccessDenied, step := 15, detail := 2 }
  else need (pickFree s).isSome stAccessDenied 15 0xFF

/-- The record of a PROPOSE is read before its admission, so that what its operation draws is taken at it (R43, R235; log entry
91). -/
def recordStep (c : Carriage) : Verdict :=
  if eOp c.entry == 0x30 && c.record.isNone && !c.dmaFail then .needRecord else .pass

/-- The admission checks in order (R118). -/
def admission (s : State) (c : Carriage) : Verdict :=
  let e := c.entry
  let r := ringOf s c.sq
  if !opDefined (eOp e) then .refuse { status := stFormatError, step := 1, off := 0 }
  else
    match formatBad s r e with
    | some o => .refuse { status := stFormatError, step := 2, off := o }
    | none =>
      firstOf ([step3 s c r, step4 s r, step5 s e] ++ [6, 7, 8, 9, 10].map (keyStep s c r) ++
        [step11 c, step12 s e, step13 s e, step14 s e, step15 s r e, recordStep c])

/-! ### Passing -/

/-- The carriage needs owner state, so a closed vault holds it (R229): it names an owner or a ticket, or asks the vault. -/
def needsVault (e : Bytes) : Bool :=
  kKind (eKeyref e) == 4 || kKind (eKeyref e) == 2 || (isSecureOp (eOp e) && eOp e != 0x42)

/-- Session indices handed out at admission (R131). -/
def takeIndices (k n : Nat) (s : State) : State := updSlot (hIndex k) (fun x => { x with count := x.count + n }) s

/-- The shadow slot tied to the carriage, within 10 ms of its unwrap (R42, R167, R168). -/
def shadowFor (s : State) (t : Nat) : Option Shadow :=
  (s.car.shadows.find? (fun h => h.2.tag == some t && s.now < h.2.at_ + 10000)).map (·.2)

/-- The ticket of an admitted carriage unwrapped, from its shadow slot where the bytes agree (R167, R205). -/
def bindTicket (t : Nat) (tk : Bytes) (s : State) : State :=
  let dek := (openTicket s tk).getD 0
  let a := updKst (fun k => { k with unwrapCnt := satInc 32 k.unwrapCnt }) (cacheKek (tkOwner tk) s)
  let b :=
    match shadowFor s t with
    | some h =>
      if h.ticket == tk then updCar (fun c => { c with shadowHits := satInc 32 c.shadowHits }) a
      else dropShadows (fun h => h.tag == some t)
        (updCar (fun c => { c with shadowReread := satInc 32 c.shadowReread }) a)
    | none => dropShadows (fun h => h.tag == some t) a
  let hit := (shadowFor b t).isSome
  updCarr t (fun c => { c with key := .ticket (tkOwner tk) dek (tkBase tk) (tkCount tk) hit }) b

/-- The keys of an admitted carriage bound, its session indices taken, its anchor copied (R131, R205, R216, R267). -/
def bindKeys (t : Nat) (s : State) : State :=
  let c := carrOf s t
  let e := c.entry
  let k := eKeyref e
  let i := hIndex k
  let a :=
    match kKind k with
    | 1 => updCarr t (fun c => { c with key := .slot i (slotOf s i).gen }) (useSlot i s)
    | 2 => match c.ticket with
      | some tk => bindTicket t tk s
      | none => s
    | 3 => updCarr t (fun c => { c with key := .legacy }) s
    | 4 => updCarr t (fun c => { c with key := .owner (bits k 0 22) }) s
    | 5 => updBnv (fun v => { v with anchorOf := tset {} v.anchorOf t (tget {} v.anchors (bits k 0 10)) })
        (updCarr t (fun c => { c with key := .anchor (bits k 0 10) }) s)
    | _ => s
  match eOp e with
  | 0x01 => takeIndices k (eSegs e) (updCarr t (fun c => { c with firstIndex := (slotOf a i).count }) a)
  | 0x04 =>
    let d := eDstKeyref e
    let j := hIndex d
    takeIndices d (eSegs e)
      (updCarr t (fun c => { c with dstKey := .slot j (slotOf a j).gen, firstIndex := (slotOf a j).count }) (useSlot j a))
  | _ => a

/-- The carriage is admitted at its admission CSN (R25, R118, R197); a PROPOSE notes QRM_WINDOW there (R236). -/
def admitOne (t : Nat) (s : State) : State :=
  let c := carrOf s t
  let e := c.entry
  let a := seqd s
  let b := bindKeys t a
  let d := if createsSlot e then (match pickFree b with | some i => reserve i t b | none => b) else b
  let fs := if !opBuffer (eOp e) || (eOp e == 0x22 && eLength e == 0) then []
    else entryFrags c
  updCarr t (fun c => { c with
    stage := .admitted, admCsn := a.csn, admAt := s.now, frags := fs, held := false
    aux := if eOp e == 0x30 then s.vlt.window else 0 }) d

/-- The rings of slice `n`'s range. -/
def sliceRings (s : State) (n : Nat) : List Nat :=
  let x := sliceOf s n
  tkeys s.car.rings (fun g _ => x.state != .empty && x.ringBase ≤ g && g < x.ringBase + x.ringCnt)

/-- The SQs of slice `n`. -/
def sliceSqs (s : State) (n : Nat) : List Nat := (sliceRings s n).filter (fun g => (ringOf s g).type == .sq)

/-- The carriages of slice `n` in the given stage. -/
def sliceCarrs (s : State) (n : Nat) (f : Carriage → Bool) : List Nat :=
  let q := sliceSqs s n
  tkeys s.car.cars (fun _ c => q.contains c.sq && f c)

/-- Step 1 of a freeze, at the admission CSN of its SLICE_FREEZE (R286): the slice is FREEZING, its ACTIVE and BRAKED SQs
FROZEN and its shadow slots zeroised with their staged keys; what is taken and not admitted is refused at step 4, and what is
admitted is marked as by an abort. -/
def freezeBegin (n csn : Nat) (s : State) : State :=
  let taken := sliceCarrs s n (fun c => c.stage == .taken)
  let a := updSlice n (fun x => { x with state := .freezing, frzCsn := csn, tickets := [], retSealed := 0 }) s
  let b := (sliceSqs a n).foldl (fun x g =>
    let s := flushDb g x
    let r := ringOf s g
    if r.state == .active || r.state == .braked then stampBrake r.cq (setRing g .frozen s) else s) a
  let d := dropShadows (fun h => (sliceSqs a n).contains h.sq) (purgeStaging (fun k => match k with
    | .carriage t => (sliceSqs a n).contains (carrOf a t).sq
    | _ => false) b)
  let c := taken.foldl (fun s t => refuse t { status := stRingFrozen, step := 4 } s) d
  reap stKeyErased ((sliceCarrs c n (fun x => bound x && abortable x)).foldl abortOne c)

/-- What an admitted SLICE_FREEZE does at its admission CSN (R286): it begins the freeze of an ACTIVE slice, waits for a
freeze in progress, and completes at once where the slice is FROZEN. -/
def freezeAdmitted (t : Nat) (s : State) : State :=
  let c := carrOf s t
  let n := fld c.entry 48 2
  let a := if (sliceOf s n).state == .active then freezeBegin n c.admCsn s else s
  if (sliceOf a n).state == .freezing then
    updCarr t (fun c => { c with stage := .running, started := true })
      (updSlice n (fun x => { x with freezers := x.freezers ++ [t] }) a)
  else done t stDone 0 a

/-- The ticket's 64 bytes requested (R104, R167). -/
def askTicket (t : Nat) (s : State) : State :=
  let c := carrOf s t
  let r := ringOf s c.sq
  updCarr t (fun c => { c with asked := true }) (dmaRead (.ticket t) r.home (ringPasid s r) (bits (eKeyref c.entry) 0 60) 64 s)

/-- The next fragment table requested (R107). -/
def askTable (t : Nat) (s : State) : State :=
  let c := carrOf s t
  let r := ringOf s c.sq
  let a := if c.chain == 0 then eBufAddr c.entry else c.nextTable
  let n := if c.chain == 0 then eBufCount c.entry else c.nextCount
  updCarr t (fun c => { c with asked := true, nextTable := a, nextCount := n })
    (dmaRead (.chain t) r.home (ringPasid s r) a (16 * n) s)

/-- The record of a PROPOSE requested before its admission, once its fragments are known (R228). -/
def askRecord (t : Nat) (s : State) : State :=
  let c := carrOf s t
  readBuffer (.record t) t 0 (eLength c.entry) (updCarr t (fun c => { c with asked := true, frags := entryFrags c }) s)

/-- One run of admission over a taken carriage: it is refused, admitted, or waits for what it reads first (R118). -/
def runAdmission (t : Nat) (s : State) : State :=
  let c := carrOf s t
  match admission s c with
  | .refuse x =>
    let a := if x.step == 6 && kKind (eKeyref c.entry) == 2 then
        updKst (fun k => { k with unwrapFail := satInc 32 k.unwrapFail }) s else s
    refuse t x a
  | .pass =>
    let a := askAdmitted t (admitOne t s)
    if eOp c.entry == 0x50 then freezeAdmitted t a
    else if eOp c.entry == 0x30 && c.record.isNone then stop t stFragmentError fragWord a
    else a
  | .needTicket => if c.asked then s else askTicket t s
  | .needChain => if c.asked then s else askTable t s
  | .needRecord =>
    if c.asked then s
    else
      match fragStep c with
      | .refuse x => refuse t x s
      | .needChain => askTable t s
      | _ => askRecord t s

end Sys2Proof.Machine
end

