-- ==== Sys2Proof/Machine/Legacy.lean ====
section
/-! DEFINITION. The legacy key register: load, commit, abandonment and erasure (R211-R217). -/
namespace Sys2Proof.Machine

/-- The port code of LEG_STAT.PORT. -/
def legPortCode (s : State) : Nat :=
  match s.leg.port with
  | none => 0
  | some .a => 1
  | some .b => 2

/-- Event `code` of the legacy register: LAST, its record, and LEGACY_ERASED for codes 7 to 10 (R215, R408). -/
def legEvent (code : Nat) (s : State) : State :=
  let a := { s with leg := { s.leg with last := code } }
  let b := recordSeq .legacy (natLe 1 (legPortCode s) ++ natLe 1 code ++ zeros 6) a
  if 7 ≤ code && code ≤ 10 then setIntBoth 11 b else b

/-- A load in progress is abandoned: the register stays empty (R212). -/
def legAbandon (code : Nat) (s : State) : State :=
  if s.leg.loading then
    legEvent code { s with leg := { s.leg with
      loading := false, stage := [], next := 0, abandonCnt := satInc 16 s.leg.abandonCnt } }
  else s

/-- The load in progress has run out of time (R212). -/
def legLate (s : State) : Bool := s.leg.loading && s.now ≥ s.leg.startAt + 1000

/-- A BAR0 write of port `p` that is not the next expected one abandons its load; where the time ran out first, that is the
cause (R212). -/
def legTouch (p : Port) (s : State) : State :=
  if legLate s then legAbandon 3 s else if s.leg.port == some p then legAbandon 2 s else s

/-- The carriages bound to the legacy register that are in flight. -/
def legacyUsers (s : State) : List Nat := tkeys s.car.cars (fun _ c => bound c && c.key == .legacy)

/-- The register erased: key and load gone, global cell 0's staging entry with them, and a legacy carriage in flight
ends with the status (R214). -/
def legErase (code status : Nat) (s : State) : State :=
  let cnt := if s.leg.loading then satInc 16 s.leg.abandonCnt else s.leg.abandonCnt
  let a := legEvent code (purgeStaging (· == .legacy) { s with leg := { s.leg with
    key := [], stage := [], loaded := false, loading := false, next := 0, abandonCnt := cnt } })
  (legacyUsers a).foldl (fun s t => stopOne t status 0 s) a

/-- LEG_KCV: the first 4 bytes of AES-256 of the zero block under key 1 (R213). -/
def legKcv (s : State) : Nat :=
  if s.leg.loaded then leNat ((aesEnc (s.leg.key.take 32) (zeros 16)).take 4) else 0

/-- The guard of turntable 0 on the legacy registers (R57, R211). -/
def legGuarded (p : Port) (s : State) (f : State → State) : Res :=
  if !wr p .kst s then .next s
  else if !holds p 0 s then .next (guardErr p (cntWr p s))
  else .next (f (seqd (cntWr p s)))

/-- LEG_KEY0_WRITE: the register is erased and a new load starts (R212). -/
def execLegKey0Write (p : Port) (value : Nat) (s : State) : Res :=
  legGuarded p s (fun s =>
    let a := legAbandon (if legLate s then 3 else 2) s
    let b := { a with leg := { a.leg with port := some p } }
    let c := legErase 6 stKeyErased b
    { c with leg := { c.leg with
      stage := natLe 4 value, loading := true, next := 1, port := some p, startAt := s.now } })

/-- LEG_KEY_WORD_WRITE: the next word continues a load, any other abandons it; a write without a load of the port's own
is ignored (R212). -/
def execLegKeyWordWrite (p : Port) (n value : Nat) (s : State) : Res :=
  legGuarded p s (fun s =>
    if !s.leg.loading || s.leg.port != some p then s
    else if legLate s then legAbandon 3 s
    else if n == s.leg.next && n ≤ 15 then
      { s with leg := { s.leg with stage := s.leg.stage ++ natLe 4 value, next := n + 1 } }
    else legAbandon 2 s)

/-- LEG_COMMIT: the load ends; the key takes effect where its halves differ (R212). -/
def execLegCommit (p : Port) (value : Nat) (s : State) : Res :=
  legGuarded p s (fun s =>
    if !s.leg.loading || s.leg.port != some p then s
    else if legLate s then legAbandon 3 s
    else if value % 2 ^ 32 != 1 then legAbandon 4 s
    else if s.leg.next != 16 then legAbandon 2 s
    else
      let a := { s with leg := { s.leg with loading := false, next := 0, stage := [] } }
      if s.leg.stage.take 32 == s.leg.stage.drop 32 then legEvent 5 a
      else legEvent 1 { a with leg := { a.leg with
        key := s.leg.stage, loaded := true, commits := satInc 16 s.leg.commits } })

/-- LEGACY_LOAD_TIMEOUT: 1,000 µs after its LEG_KEY0 write a load is abandoned (R212). -/
def execLegacyLoadTimeout (s : State) : Res := onlyIf (powered s && !inFault s && legLate s) s (legAbandon 3 s)

end Sys2Proof.Machine
end

