-- ==== Sys2Proof/Machine/RingCtx.lean ====
section
/-! DEFINITION. The ring context's layout (R71), the checks of the ring setup commands (R74-R77) and the abort's marks
(R122). -/
namespace Sys2Proof.Machine

/-- The STATE code of R71. -/
def ringStateCode : RingState → Nat
  | .disabled => 0 | .active => 1 | .braked => 2 | .frozen => 3 | .error => 4

/-- The TYPE code of R71. -/
def ringTypeCode : RingType → Nat
  | .none => 0 | .sq => 1 | .cq => 2

/-- EXP_PHASE: the phase expected at the next entry (R71). -/
def expPhase (r : Ring) : Bool :=
  match r.type with
  | .none => false
  | .sq => phaseAt (ringN r) r.consumer
  | .cq => phaseAt (ringN r) r.producer

/-- The 64 bytes of a ring context (R71). -/
def ctxBytes (r : Ring) : Bytes :=
  natLe 8 r.base ++ natLe 1 (r.sizeK + ringTypeCode r.type * 2 ^ 5) ++ natLe 1 (ringStateCode r.state) ++
  natLe 1 r.error ++ natLe 1 (b2n r.hold + b2n r.ordered * 2 + b2n r.wbEn * 4 + b2n (expPhase r) * 128) ++
  natLe 2 (r.slice + b2n r.mgr * 2 ^ 15) ++ natLe 1 r.home.num ++ [0] ++ natLe 4 r.cq ++
  natLe 4 (posWord (ringN r) r.producer) ++ natLe 4 (posWord (ringN r) r.consumer) ++
  natLe 1 r.sidingQuota ++ natLe 1 r.scrubByte ++ natLe 2 (r.vector + b2n r.vecEn * 2 ^ 15) ++
  natLe 1 r.coalCount ++ [0] ++ natLe 2 r.coalTime ++ natLe 4 r.outstanding ++ natLe 8 r.wbAddr ++
  natLe 1 r.siding.length ++ zeros 3 ++ natLe 4 r.brakeStamp ++ zeros 8

/-- TYPE of a staged context. -/
def ctxType (b : Bytes) : RingType :=
  match bits (fld b 8 1) 5 2 with
  | 1 => .sq
  | 2 => .cq
  | _ => .none

/-- The ring a WRITE stores: the staged fields, with both positions 0 and ERROR 0 (R74); HOME of a manager ring is the
port that issued the WRITE (R71). -/
def ctxRing (p : Port) (b : Bytes) : Ring :=
  let mgr := bit (fld b 12 2) 15
  { base := fld b 0 8, sizeK := bits (fld b 8 1) 0 5, type := ctxType b
    hold := bit (fld b 11 1) 0, ordered := bit (fld b 11 1) 1, wbEn := bit (fld b 11 1) 2
    slice := bits (fld b 12 2) 0 13, mgr := mgr
    home := if mgr then p else if bit (fld b 14 1) 0 then .b else .a
    cq := bits (fld b 16 4) 0 20, sidingQuota := fld b 28 1, scrubByte := fld b 29 1
    vector := bits (fld b 30 2) 0 11, vecEn := bit (fld b 30 2) 15, coalCount := fld b 32 1, coalTime := fld b 34 2
    wbAddr := fld b 40 8 }

/-- The reserved bits of a staged context are 0, those of an SQ's PRODUCER and a CQ's CONSUMER among them (R8, R71, R75, R78). -/
def ctxReservedOk (b : Bytes) : Bool :=
  bits (fld b 8 1) 7 1 == 0 && bits (fld b 9 1) 3 5 == 0 && bits (fld b 11 1) 3 4 == 0 &&
  bits (fld b 12 2) 13 2 == 0 && bits (fld b 14 1) 1 7 == 0 && fld b 15 1 == 0 && bits (fld b 16 4) 20 12 == 0 &&
  (ctxType b != .sq || bits (fld b 20 4) 16 15 == 0) && (ctxType b != .cq || bits (fld b 24 4) 16 15 == 0) &&
  bits (fld b 30 2) 11 4 == 0 && fld b 33 1 == 0 && bits (fld b 36 4) 17 15 == 0 && bits (fld b 48 1) 7 1 == 0 &&
  fld b 49 3 == 0 && fld b 56 8 == 0

/-- The smaller of the ring's size in bytes and 4 KiB (R69). -/
def ringAlign (r : Ring) : Nat := min 4096 ((if r.type == .sq then 64 else 16) * ringN r)

/-- The fields of a staged context are in range, aligned, and 0 where they do not apply (R69, R71); what is staged for a
position or a device field is not looked at but for its reserved bits (log entry 79). -/
def ctxFieldsOk (r : Ring) (b : Bytes) : Bool :=
  ctxReservedOk b && r.type != .none && 4 ≤ r.sizeK && r.sizeK ≤ 16 && r.base % ringAlign r == 0 &&
  (!r.mgr || r.slice == 0) &&
  (if r.type == .sq then
    r.sidingQuota == 0 && r.vector == 0 && !r.vecEn && r.coalCount == 0 && r.coalTime == 0 && r.wbAddr % 4 == 0
   else
    !r.hold && !r.ordered && !r.wbEn && r.cq == 0 && r.scrubByte == 0 && r.wbAddr == 0 && r.sidingQuota ≤ 64 &&
    r.coalTime ≤ 1000 && (!r.vecEn || (r.vector != 0 && r.coalCount != 0 && r.coalTime != 0)))

/-- Ring `g` lies in the slice's range. -/
def inRange (x : Slice) (g : Nat) : Bool := x.state != .empty && x.ringBase ≤ g && g < x.ringBase + x.ringCnt

/-- The staged MGR and SLICE match the ring number (R76). -/
def ringScopeOk (s : State) (g : Nat) (r : Ring) : Bool :=
  if g < 2048 then r.mgr && r.slice == 0 else !r.mgr && inRange (sliceOf s r.slice) g

/-- A tenant's staged context stays within its slice (R76). -/
def tenantOk (s : State) (n : Nat) (r : Ring) : Bool :=
  let x := sliceOf s n
  !r.mgr && r.slice == n &&
  (r.type != .sq || inRange x r.cq) &&
  (r.vector == 0 || (x.vecBase ≤ r.vector && r.vector < x.vecBase + x.vecCnt)) &&
  r.sidingQuota ≤ x.sidingCap

/-- Every SQ bound to CQ `q` is DISABLED or ERROR, and nothing of the CQ is outstanding (R77). -/
def cqIdle (s : State) (q : Nat) : Bool :=
  let r := ringOf s q
  (boundSqs s q).all (fun g => (ringOf s g).state == .disabled || (ringOf s g).state == .error) &&
    r.outstanding == 0 && r.siding.isEmpty

/-- The HOME a ring takes at ENABLE (R71). -/
def enableHome (s : State) (r : Ring) : Port := if r.mgr then r.home else (sliceOf s r.slice).home

/-- The bound CQ of an SQ is ACTIVE with the same MGR, SLICE and HOME (R77). -/
def bindingOk (s : State) (r : Ring) : Bool :=
  let q := ringOf s r.cq
  q.type == .cq && q.state == .active && q.mgr == r.mgr && q.slice == r.slice && q.home == enableHome s r

/-! ### The setup window -/

/-- The setup window of a port or of a slice page. -/
def rsWin (p : Port) (sl : Option Nat) (s : State) : RsWin :=
  match sl with
  | none => (s.win.get p).rs
  | some n => (sliceOf s n).rs

/-- The setup window changed by `f`. -/
def updRs (p : Port) (sl : Option Nat) (f : RsWin → RsWin) (s : State) : State :=
  match sl with
  | none => updWin p (fun w => { w with rs := f w.rs }) s
  | some n => updSlice n (fun x => { x with rs := f x.rs }) s

/-- The ring a window's RING field names: a global number, or an offset of the slice's range (R75). -/
def rsRing (sl : Option Nat) (ring : Nat) (s : State) : Option Nat :=
  match sl with
  | none => if ring < 2 ^ 20 then some ring else none
  | some n => if ring < (sliceOf s n).ringCnt then some ((sliceOf s n).ringBase + ring) else none

/-- A write through a window reaches it: the CAR block of a manager, or the page of a slice that is not EMPTY. -/
def rsReach (p : Port) (sl : Option Nat) (s : State) : Bool :=
  match sl with
  | none => wr p .car s
  | some n => wr p .page s && (sliceOf s n).state != .empty && n < 8192

/-- A write of a window counted, sequenced, and, in BAR0, abandoning a legacy load (R25, R212). -/
def rsWrote (p : Port) (sl : Option Nat) (s : State) : State :=
  match sl with
  | none => seqd (legTouch p (cntWr p s))
  | some _ => seqd (cntWr p s)

/-- An access to the page of an EMPTY slice is discarded and counted (R51, R280). -/
def pageDiscard (p : Port) (sl : Option Nat) (s : State) : State :=
  match sl with
  | some n =>
    if wr p .page s && (sliceOf s n).state == .empty then
      updHpt p (fun h => { h with discardCnt := satInc 32 h.discardCnt }) s
    else s
  | none => s

/-- The context's use by a command: a hit, or a load from LPDDR5X (R99). -/
def cmdContext (g : Nat) (s : State) : State :=
  useContext g (updCar (fun c =>
    if c.cached.contains g then { c with ctxHit := satInc 32 c.ctxHit } else { c with ctxMiss := satInc 32 c.ctxMiss }) s)

/-- A ring setup command: DISCARDED while BUSY, BAD_RING where the ring is out of reach, else the result of the checks;
its effect only on OK (R74, R75). -/
def rsCommand (p : Port) (sl : Option Nat) (ring : Nat) (check : Nat → State → Nat) (act : Nat → State → State)
    (s : State) : Res :=
  if !rsReach p sl s then .next (pageDiscard p sl s)
  else
    if s.now < (rsWin p sl s).busyUntil then .next (updRs p sl (fun w => { w with result := 5 }) (rsWrote p sl s))
    else
      match rsRing sl ring s with
      | none => .next (updRs p sl (fun w => { w with result := 1 }) (rsWrote p sl s))
      | some g =>
        let a := rsWrote p sl (flushDb g s)
        let until_ := within (if isCached s g then 4 else 10) a
        let b := updRs p sl (fun w => { w with result := check g a, busyUntil := until_ }) (draw (cmdContext g a))
        .next (if check g a == 0 then act g b else b)

/-- The tenant restriction on a command that stages no context: the MGR and SLICE of the stored one (R76; log entry 79). -/
def tenantCtx (sl : Option Nat) (g : Nat) (s : State) : Bool :=
  match sl with
  | none => true
  | some n => let r := ringOf s g; r.type == .none || (!r.mgr && r.slice == n)

/-! ### Aborts -/

/-- Every carriage of SQ `g` that matches is marked (R122). -/
def abortSq (g : Nat) (cookie : Option Nat) (s : State) : State :=
  reap stKeyErased ((tkeys s.car.cars (fun _ c =>
    c.sq == g && abortable c && (match cookie with | some k => eCookie c.entry == k | none => true))).foldl abortOne s)

/-- An abort write: a ring out of reach is counted in CAR_BAD_DB_CNT (R122). -/
def abortWrite (p : Port) (sl : Option Nat) (ring : Nat) (useCookie : Bool) (s : State) : Res :=
  if !rsReach p sl s then .next (pageDiscard p sl s)
  else
    let a := rsWrote p sl s
    match rsRing sl ring s with
    | none => .next (updCar (fun c => { c with badDb := satInc 32 c.badDb }) a)
    | some g => .next (abortSq g (if useCookie then some (rsWin p sl s).abortCookie else none) a)

end Sys2Proof.Machine
end

