-- ==== Sys2Proof/Machine/RingCmds.lean ====
section
/-! DEFINITION. The ring family: doorbells, the context cache, prefetch, taking, brake alerts, coalescing, ring setup and
aborts (04_rings_doorbells_completions.md, R122). -/
namespace Sys2Proof.Machine

/-! ### Doorbells -/

/-- A doorbell write to ring `g` at its CSN: it replaces a value that is queued still, is evaluated at once where the
context is cached, and is queued otherwise (R99, R100). -/
def doorbell (g v : Nat) (s : State) : State :=
  if isQueued s g then queueDoorbell g v s
  else if isCached s g then evalDoorbell g v (useContext g (updCar (fun c => { c with ctxHit := satInc 32 c.ctxHit }) s))
  else queueDoorbell g v s

/-- The ring a doorbell names: a manager ring, or the slice's ring at offset `j` (R68, R78). -/
def dbRing (sl : Option Nat) (ring : Nat) (s : State) : Option Nat :=
  match sl with
  | none => if ring < 2048 then some ring else none
  | some n => if ring < 1024 && ring < (sliceOf s n).ringCnt then some ((sliceOf s n).ringBase + ring) else none

/-- The doorbell queue is full and cannot take the ring's value (R100). -/
def dbFull (s : State) (g : Nat) : Bool := !isQueued s g && !isCached s g && s.car.dbq.length ≥ 8192

/-- A doorbell write that reaches the sequencer (R25, R78). -/
def doorbellAt (p : Port) (sl : Option Nat) (ring value : Nat) (s : State) : State :=
  let a := rsWrote p sl (updStats p (fun h => { h with dbRx := satInc 32 h.dbRx }) s)
  match dbRing sl ring s with
  | none => badDoorbell a
  | some g => doorbell g (value % 2 ^ 32) a

/-- The doorbell is held in the port's inbound coupling: the queue is full, or an earlier doorbell of the port is held
(R100). -/
def dbHolds (p : Port) (sl : Option Nat) (ring : Nat) (s : State) : Bool :=
  s.car.dbHeld.any (·.port == p) || (match dbRing sl ring s with | some g => dbFull s g | none => false)

/-- A doorbell held: no CSN until it leaves the coupling; the stall is counted, its length is free (R100). -/
def holdDoorbell (p : Port) (sl : Option Nat) (ring value : Nat) (s : State) : State :=
  draw (updHpt p (fun h => { h with inStall := satAdd 32 h.inStall (drawn s) })
    (updCar (fun c => { c with dbHeld := c.dbHeld ++ [{ port := p, slice := sl, ring := ring, value := value }] }) s))

/-- The first held doorbell, of those oldest of their port, that the queue can take. -/
def heldReady (s : State) : Option HeldDb :=
  [Port.a, Port.b].findSome? (fun p => (s.car.dbHeld.find? (·.port == p)).bind (fun h =>
    match dbRing h.slice h.ring s with
    | some g => if dbFull s g then none else some h
    | none => some h))

/-- Held doorbells enter in order as the queue has room (R100); `k` bounds their number. -/
def releaseDbN : Nat → State → State
  | 0, s => s
  | k + 1, s =>
    match heldReady s with
    | none => s
    | some h =>
      let a := updCar (fun c => { c with dbHeld := c.dbHeld.erase h }) s
      releaseDbN k (if rsReach h.port h.slice s then doorbellAt h.port h.slice h.ring h.value a else pageDiscard h.port h.slice a)

/-- Every held doorbell that can enter does. -/
def releaseDb (s : State) : State := releaseDbN s.car.dbHeld.length s

/-- A doorbell write reaching the device; `cq` tells the two rows apart by the ring's type. -/
def doorbellWrite (p : Port) (sl : Option Nat) (ring value : Nat) (cq : Bool) (s : State) : Res :=
  if !rsReach p sl s then .next (pageDiscard p sl s)
  else if ((dbRing sl ring s).map (fun g => (ringOf s g).type == .cq)).getD false != cq then .next s
  else if dbHolds p sl ring s then .next (holdDoorbell p sl ring value s)
  else .next (doorbellAt p sl ring value s)

/-- SQ_DOORBELL (R80). -/
def execSqDoorbell (p : Port) (slice : Option Nat) (ring value : Nat) (s : State) : Res :=
  doorbellWrite p slice ring value false s

/-- CQ_DOORBELL (R81). -/
def execCqDoorbell (p : Port) (slice : Option Nat) (ring value : Nat) (s : State) : Res :=
  doorbellWrite p slice ring value true s

/-- DOORBELL_QUEUE_EVAL: the oldest queued doorbell is evaluated where its ring's context is cached; held doorbells may enter
(R100). -/
def execDoorbellQueueEval (ring : Nat) (s : State) : Res :=
  onlyIf (live s) s (releaseDb (match s.car.dbq with
    | x :: _ => if x.1 == ring && isCached s ring then evalQueued s x else s
    | [] => s))

/-- A failed MAC of region ring contexts (R101, R384). -/
def macRing (s : State) : State :=
  setIntBoth 13 { s with mem := { s.mem with macRc := satInc 8 s.mem.macRc } }

/-- CONTEXT_LOAD: a context that is not pinned comes from LPDDR5X; one that fails its MAC puts the ring in ERROR with
CONTEXT_MAC, whatever its state was (R99, R101; log entry 61). -/
def execContextLoad (ring : Nat) (macOk : Bool) (s : State) : Res :=
  if !live s || isCached s ring || ring ≥ 2 ^ 20 || isPinned (ringOf s ring) then .next s
  else
    let a := useContext ring (updCar (fun c => { c with ctxMiss := satInc 32 c.ctxMiss }) s)
    .next (releaseDb (if macOk then a else ringError ring 0x06 (macRing a)))

/-! ### Fetching and taking -/

/-- The entry at position `p` of SQ `g` is read from host memory with one 64-byte read (R85); `final` where a doorbell
covers it (R84). -/
def fetchEntry (g p : Nat) (final : Bool) (s : State) : State :=
  let r := ringOf s g
  updRing g (fun r => { r with copies := tput r.copies p { asked := true, final := final } })
    (dmaRead (.descriptor g p) r.home (ringPasid s r) (r.base + 64 * (p % ringN r)) 64 s)

/-- Positions `p` onward, at most `k`, fetched unless a copy is there already. -/
def prefetchN : Nat → Nat → Nat → State → State
  | 0, _, _, s => s
  | k + 1, g, p, s =>
    let r := ringOf s g
    prefetchN k g (posNext (ringN r) p) (if tget {} r.copies p == {} then fetchEntry g p false s else s)

/-- DESCRIPTOR_PREFETCH: up to eight entries beyond PRODUCER, never more than the ring's free entries (R84). -/
def execDescriptorPrefetch (sq count : Nat) (s : State) : Res :=
  let a := flushDb sq s
  let r := ringOf a sq
  onlyIf (live s && r.type == .sq && r.state == .active) s
    (prefetchN (min (min count 8) (ringN r - ringOcc r)) sq r.producer a)

/-- The copy may be executed (R84). -/
def copyUsable (c : EntryCopy) : Bool := !c.asked && c.phaseOk

/-- The operation tag the device takes: the least free one (R117; log entry 16). -/
def freeTag (s : State) : Option Nat := firstBelow 16384 (fun t => (carrOf s t).stage == .free)

/-- The slice's in-flight quota has room (R117). -/
def quotaRoom (s : State) (r : Ring) : Bool := r.mgr || inflight s r.slice < (sliceOf s r.slice).inflightQuota

/-- The SQ may take an entry but for its credit and its copy (R73, R82, R98, R393). -/
def mayTake (s : State) (r : Ring) : Bool :=
  r.type == .sq && r.state == .active && hasWork r && r.fence == none && quotaRoom s r && !s.gov.dormReady

/-- The share charge of a taken carriage's slice in the epoch (R282). -/
def chargeTag (r : Ring) (s : State) : State :=
  if r.mgr then s else updCay (fun c => { c with tagCharge := tupd 0 c.tagCharge r.slice (· + 1) }) s

/-- The SQ has a covered, untaken entry that waits for nothing of its own but a tag (R282). -/
def wantsTag (s : State) (g : Nat) : Bool :=
  let r := ringOf s g
  mayTake s r && (credit s r.cq).isSome

/-- The SQ that a slice is served from next, round robin: the lowest-numbered one above the last, else the lowest (R282; log
entry 66). -/
def nextSq (s : State) (slice : Nat) : Option Nat :=
  let l := tkeys s.car.rings (fun g r => !r.mgr && r.slice == slice && wantsTag s g)
  let above := l.filter (fun g => g > tget 0 s.car.lastSq slice)
  (if above.isEmpty then l else above).foldl (fun b g => match b with | none => some g | some x => some (min x g)) none

/-- The slice's tags in this epoch. -/
def tagsOf (s : State) (slice : Nat) : Nat := tget 0 s.cay.tagCharge slice

/-- A freed tag goes to SQ `g`: while entries wait for tags, no slice that waits has had less of its share in this epoch,
and the slice's SQs are served in turn (R282; log entry 66). -/
def tagTurn (s : State) (g : Nat) : Bool :=
  let r := ringOf s g
  let w := (sliceOf s r.slice).weightNow
  r.mgr || !s.car.tagShort ||
    (nextSq s r.slice == some g &&
      !tany s.car.rings (fun h q => !q.mgr && q.slice != r.slice && wantsTag s h &&
        tagsOf s q.slice * w < tagsOf s r.slice * (sliceOf s q.slice).weightNow))

/-- The tag given to SQ `g`: its slice was served from it last. From the take of the last tag on, entries wait for tags for as
long as another SQ wants one (R282). -/
def tagGiven (g : Nat) (s : State) : State :=
  let r := ringOf s g
  updCar (fun c => { c with
    lastSq := if r.mgr then c.lastSq else tset 0 c.lastSq r.slice g
    tagShort := (freeTag s).isNone || (c.tagShort && tany c.rings (fun h q => !q.mgr && wantsTag s h)) }) s

/-- The entry taken: CONSUMER advances, tag and credit are reserved at the take's CSN (R86, R90, R117); the contexts of its
SQ and its CQ are in the cache from then on, pinned (R99). -/
def takeEntry (g t : Nat) (sided : Bool) (bytes : Bytes) (s : State) : State :=
  let r := ringOf s g
  let a := seqd (cmdContext r.cq (cmdContext g s))
  let b := updCar (fun c => { c with
    takes := c.takes + 1
    cars := tput c.cars t { stage := .taken, sq := g, pos := r.consumer, entry := bytes, order := c.takes + 1, sidingCredit := sided }
    shadows := tmap {} (fun _ h =>
      if h.used && h.tag == none && h.sq == g && h.pos == r.consumer then { h with tag := some t } else h) c.shadows }) a
  let d := updRing g (fun r => { r with
    consumer := posNext (ringN r) r.consumer, copies := tdel r.copies r.consumer, outstanding := r.outstanding + 1
    sinceWb := r.sinceWb + 1, fence := if eOp bytes == 0x7E then some t else r.fence }) b
  let e := updRing r.cq (fun q => { q with outstanding := q.outstanding + 1, sidingCr := q.sidingCr + b2n sided }) d
  let f := updStats r.home (fun h => { h with dmaRd := h.dmaRd + 64 }) (markSiding (chargeTag r e))
  let w := if (ringOf f g).sinceWb ≥ 8 || !hasWork (ringOf f g) then writeBack g f else f
  tagGiven g (relieve (updCar (fun c => { c with tagsHwm := max c.tagsHwm (tagsUsed w) }) w))

/-- SQ_ENTRY_TAKE: the covered entry at CONSUMER is taken; where no copy of it may be executed it is fetched first
(R84, R86); where no tag is free it waits, and tags are shared from then on (R282). -/
def execSqEntryTake (sq : Nat) (s : State) : Res :=
  let x := flushDb sq (shareSync s)
  let a := flushDb (ringOf x sq).cq x
  let r := ringOf a sq
  if !(live a && mayTake a r) then .next s
  else
    match freeTag a, credit a r.cq with
    | some t, some sided =>
      let c := tget {} r.copies r.consumer
      if copyUsable c then onlyIf (tagTurn a sq) s (takeEntry sq t sided c.bytes a)
      else if c.asked then .next s
      else .next (fetchEntry sq r.consumer true a)
    | _, none => .next (rebrake r.cq a)
    | none, some _ => .next (updCar (fun c => { c with tagShort := true }) a)

/-- BRAKE_ALERT: a CQ braked for CAR_BRAKE_ALERT raises its alert once per braking (R94). -/
def execBrakeAlert (cq : Nat) (s : State) : Res :=
  let r := ringOf s cq
  let due := r.type == .cq && r.brakeStamp != 0 && !r.alerted && s.car.brakeAlert != 0 &&
    (s.now + 2 ^ 32 - r.brakeStamp) % 2 ^ 32 ≥ 1000 * s.car.brakeAlert
  onlyIf (live s && due) s
    (let a := seqd (updRing cq (fun r => { r with alerted := true }) s)
     recordSeq .brakeAlert
      (natLe 4 cq ++ natLe 2 (if r.mgr then 0 else r.slice) ++ zeros 2 ++ natLe 4 (ringN r) ++ natLe 4 (ringOcc r) ++
        natLe 4 r.siding.length ++ natLe 4 r.outstanding)
      (setIntBoth 0 a))

/-- COAL_TIME_EXPIRY: COAL_TIME after the first counted entry the CQ's message is sent (R95). -/
def execCoalTimeExpiry (cq : Nat) (s : State) : Res :=
  let r := ringOf s cq
  onlyIf (powered s && r.type == .cq && r.vecEn && r.coalCnt != 0 && s.now ≥ r.coalAt + r.coalTime) s (cqMessage cq s)

/-! ### Ring setup -/

/-- RS_READ: the context is copied into RS_DATA (R74). -/
def execRsRead (p : Port) (slice : Option Nat) (ring : Nat) (s : State) : Res :=
  rsCommand p slice ring (fun g s => if tenantCtx slice g s then 0 else 4)
    (fun g s => updRs p slice (fun w => { w with data := ctxBytes (ringOf s g) }) s) s

/-- The result of a WRITE before it acts (R75). -/
def rsWriteCheck (p : Port) (slice : Option Nat) (g : Nat) (s : State) : Nat :=
  let old := ringOf s g
  let b := (rsWin p slice s).data
  let r := ctxRing p b
  if old.state != .disabled || old.outstanding != 0 || !old.siding.isEmpty then 2
  else if !ctxFieldsOk r b || (slice == none && !ringScopeOk s g r) then 3
  else
    match slice with
    | some n => if tenantOk s n r then 0 else 4
    | none => 0

/-- RS_WRITE: the staged context applied to a DISABLED ring, both positions 0; a CQ keeps its BRAKE_STAMP while SQs of it are
BRAKED, and its coalescing count starts at 0 (R71, R74, R93; log entry 98). -/
def execRsWrite (p : Port) (slice : Option Nat) (ring : Nat) (s : State) : Res :=
  rsCommand p slice ring (rsWriteCheck p slice)
    (fun g s => updRing g (fun old =>
      let r := ctxRing p (rsWin p slice s).data
      if r.type == .cq then { r with brakeStamp := old.brakeStamp, alerted := old.alerted } else r) s) s

/-- The result of an ENABLE before it acts (R75, R77). -/
def rsEnableCheck (slice : Option Nat) (g : Nat) (s : State) : Nat :=
  let r := ringOf s g
  if r.state != .disabled then 2
  else if r.type == .none || !ringScopeOk s g r then 3
  else if !tenantCtx slice g s then 4
  else if r.type == .sq && !bindingOk s r then 6
  else 0

/-- The state an ENABLE gives a ring: FROZEN for an SQ of a FREEZING or FROZEN slice (R73). -/
def enableState (s : State) (r : Ring) : RingState :=
  let st := (sliceOf s r.slice).state
  if r.type == .sq && !r.mgr && (st == .freezing || st == .frozen) then .frozen else .active

/-- RS_ENABLE: the ring leaves DISABLED with its positions as they are (R74). An SQ brakes where no credit is available; the
SQs of a CQ that is ACTIVE again brake or resume as its credits stand (R93). -/
def execRsEnable (p : Port) (slice : Option Nat) (ring : Nat) (s : State) : Res :=
  rsCommand p slice ring (rsEnableCheck slice)
    (fun g s =>
      let a := updRing g (fun r => { r with state := enableState s r, home := enableHome s r, error := 0 }) s
      if (ringOf s g).type == .cq then relieve a else rebrake (ringOf s g).cq a) s

/-- RS_DISABLE: an ACTIVE or BRAKED ring becomes DISABLED (R74, R77). -/
def execRsDisable (p : Port) (slice : Option Nat) (ring : Nat) (s : State) : Res :=
  rsCommand p slice ring
    (fun g s =>
      let r := ringOf s g
      if !(r.state == .active || r.state == .braked) then 2
      else if r.type == .cq && !cqIdle s g then 2
      else if tenantCtx slice g s then 0 else 4)
    (fun g s =>
      let r := ringOf s g
      let a := setRing g .disabled s
      if r.type == .sq then stampBrake r.cq a else a) s

/-- RS_RESET: an ERROR ring becomes DISABLED with both positions 0; its coalescing count starts afresh (R74; log entry 98). -/
def execRsReset (p : Port) (slice : Option Nat) (ring : Nat) (s : State) : Res :=
  rsCommand p slice ring
    (fun g s =>
      let r := ringOf s g
      if r.state != .error || r.outstanding != 0 || !r.siding.isEmpty then 2
      else if tenantCtx slice g s then 0 else 4)
    (fun g s => updRing g (fun r => { r with
      state := .disabled, error := 0, producer := 0, consumer := 0, copies := [], sinceWb := 0, coalCnt := 0 }) s) s

/-! ### Aborts -/

/-- ABORT_BY_COOKIE: an abort write with MODE 1 (R122). -/
def execAbortByCookie (p : Port) (slice : Option Nat) (ring : Nat) (s : State) : Res :=
  abortWrite p slice ring true s

/-- ABORT_ALL: an abort write with MODE 2 (R122). -/
def execAbortAll (p : Port) (slice : Option Nat) (ring : Nat) (s : State) : Res :=
  abortWrite p slice ring false s

end Sys2Proof.Machine
end

