-- ==== Sys2Proof/Machine/CarrCmds.lean ====
section
/-! DEFINITION. The carriage family that touches neither keys nor media: admission, the legacy wait, ordered completion,
FENCE and NOP (05_carriages.md). -/
namespace Sys2Proof.Machine

/-- Another legacy carriage is admitted, or was taken earlier and is neither done nor refused (R113). -/
def legacyBusy (s : State) (t : Nat) : Bool :=
  let c := carrOf s t
  tany s.car.cars (fun u x => u != t && x.stage != .free && !x.refused && isLegacy x.entry &&
    (x.stage != .taken || x.order < c.order))

/-- The legacy wait with tag `t` in its take order (R113). -/
def insertWait (s : State) (t : Nat) : List Nat → List Nat
  | [] => [t]
  | u :: us => if (carrOf s t).order < (carrOf s u).order then t :: u :: us else u :: insertWait s t us

/-- A carriage taken earlier is held for the vault too (R229). -/
def heldEarlier (s : State) (t : Nat) : Bool :=
  let c := carrOf s t
  tany s.car.cars (fun _ x => x.stage == .taken && x.held && x.order < c.order)

/-- ADMISSION: the ordered checks against one CSN; a carriage that needs owner state is held while the vault is CLOSED
or its working copy is reloaded, and a legacy carriage waits for the one before it (R113, R118, R229, R384). -/
def execAdmission (tag : Nat) (s : State) : Res :=
  let c := carrOf s tag
  if !(live s && c.stage == .taken) || s.car.legWait.contains tag then .next s
  else if needsVault c.entry && opDefined (eOp c.entry) && (s.vlt.mode == .closed || s.vlt.reload) then
    .next (updCarr tag (fun c => { c with held := true }) s)
  else if c.held && heldEarlier s tag then .next s
  else if isLegacy c.entry && legacyBusy s tag then
    .next (updCar (fun x => { x with legWait := insertWait s tag x.legWait }) s)
  else .next (runAdmission tag s)

/-- LEGACY_ADMIT: the first waiting legacy carriage goes to admission once no other is admitted (R113). -/
def execLegacyAdmit (s : State) : Res :=
  match s.car.legWait with
  | [] => .next s
  | t :: _ => onlyIf (live s && !legacyBusy s t) s
      (runAdmission t (updCar (fun x => { x with legWait := x.legWait.erase t }) s))

/-- ORDERED_COMPLETION: a finished carriage takes its completion CSN once every earlier one of its SQ has (R97). -/
def execOrderedCompletion (tag : Nat) (s : State) : Res :=
  let c := carrOf s tag
  match c.fin with
  | none => .next s
  | some (st, res) =>
    onlyIf (powered s && c.stage == .finished && !earlierOpen s tag) s (reap stKeyErased (finish tag st res s))

/-- FENCE: it completes once every earlier carriage of its SQ has (R98). -/
def execFence (tag : Nat) (s : State) : Res :=
  let c := carrOf s tag
  onlyIf (live s && c.stage == .admitted && eOp c.entry == 0x7E && !earlierOpen s tag) s (done tag stDone 0 s)

/-- NOP completes DONE with no effect (R109). -/
def execNop (tag : Nat) (s : State) : Res :=
  let c := carrOf s tag
  onlyIf (live s && c.stage == .admitted && eOp c.entry == 0x7F) s (done tag stDone 0 s)

end Sys2Proof.Machine
end

