-- ==== Sys2Proof/Machine/Flash.lean ====
section
/-! DEFINITION. The vault's two flash devices: what their pages hold, the journal ring and the record area, and what an open
reads back from them (R218, R221-R224, R226, R227, R230, R231). -/
namespace Sys2Proof.Machine

/-! ### Layouts (R218, R222) -/

/-- The vault MAC key: label "MAC" (R218). -/
def vaultMacKey (s : State) : Bytes := kdf (vaultKey s) [0x4D, 0x41, 0x43] []

/-- The number of an owner record's state. -/
def ownerStateCode : OwnerState → Nat
  | .absent => 0
  | .active => 1
  | .revoked => 2

/-- The 128 bytes of owner `o`'s record (R218). -/
def ownerBytes (o : Nat) (x : Owner) : Bytes :=
  if x.state == .absent then zeros 128
  else
    natLe 4 (o + ownerStateCode x.state * 2 ^ 24 + x.cls * 2 ^ 28) ++ natLe 4 x.incarnation ++ natLe 8 x.createEpoch ++
    natLe 8 x.revokeEpoch ++ padTo 48 x.kekWrap ++ natLe 4 (b2n x.exported) ++ natLe 4 x.exportCnt ++ padTo 32 x.label ++
    zeros 16

/-- The owner record in 128 bytes (R218); its revocation is of an earlier power cycle. -/
def ownerOfBytes (b : Bytes) : Owner :=
  let w := fld b 0 4
  if bits w 24 2 == 0 then {}
  else
    { state := if bits w 24 2 == 1 then .active else .revoked, cls := bits w 28 4, incarnation := fld b 4 4
      createEpoch := fld b 8 8, revokeEpoch := fld b 16 8, kekWrap := if allZero (sub b 24 48) then [] else sub b 24 48
      exported := bit (fld b 72 4) 0, exportCnt := fld b 76 4, label := sub b 80 32 }

/-- The bytes of a roster page (R232; log entry 31). -/
def officerBytes (x : Officer) : Bytes :=
  let st := match x.state with | .empty => 0 | .active => 1 | .retired => 2
  natLe 1 st ++ natLe 1 x.alg ++ padTo 32 x.label ++ x.key

/-- The officer of a roster page (R232; log entry 31). -/
def officerOfBytes (b : Bytes) : Officer :=
  let n := if fld b 1 1 == 1 then 1952 else 97
  if fld b 0 1 == 0 then {}
  else { state := if fld b 0 1 == 1 then .active else .retired, alg := fld b 1 1, key := sub b 34 n, label := sub b 2 32 }

/-- The 18 bytes of a policy (R233; log entry 31). -/
def policyBytes (p : Policy) : Bytes :=
  padTo 18 (natLe 1 p.m ++ natLe 1 p.officers.length ++ p.officers.map (BitVec.ofNat 8 ·))

/-- The policy in 18 bytes (R233; log entry 31). -/
def policyOfBytes (b : Bytes) : Policy := { m := fld b 0 1, officers := (sub b 2 (fld b 1 1)).map (·.toNat) }

/-- The bytes of the custody table under the vault wrap key, 64 for each group in rising order (log entry 31). -/
def custodyBytes (wk : Bytes) (t : Tbl (Option Bytes)) : Bytes :=
  padTo 4096 (t.flatMap (fun e => match e.2 with
    | some k => padTo 64 (natLe 2 e.1 ++ natLe 1 1 ++ zeros 5 ++ kwpWrap wk k)
    | none => []))

/-- The custody table in a page. -/
def custodyOfBytes (wk : Bytes) (b : Bytes) : Tbl (Option Bytes) :=
  ((chunks 64 b).filter (fun e => fld e 2 1 == 1)).foldl
    (fun t e => tset none t (fld e 0 2) (kwpUnwrap wk (sub e 8 40))) []

/-- The bytes of the counters page: the id ceiling, the settled epoch, and what else the vault must keep (R222, R333, R339,
R363, R365; log entry 31). -/
def counterBytes (v : VaultImg) : Bytes :=
  natLe 4 v.idCeiling ++ zeros 4 ++ natLe 8 v.settledEpoch ++ natLe 4 v.evrFloor ++ natLe 1 (b2n v.returnDue) ++
  natLe 1 (b2n (!v.activation.isEmpty)) ++ natLe 1 v.migrated ++ zeros 1 ++ padTo 80 v.activation

/-- The logical pages of the record area (R222): the roster's first. -/
def rosterPage : Nat := 131072
/-- The quorum policies. -/
def policyPage : Nat := 131328
/-- The custody table. -/
def custodyPage : Nat := 131329
/-- The counters. -/
def counterPage : Nat := 131330
/-- The shred ledger's first page. -/
def shredPage : Nat := 131584
/-- The proposal ledger's first page. -/
def ledgerPage : Nat := 133632

/-- The contents of logical pages; an unlisted one is all zero. -/
abbrev PageMap := Tbl Bytes

/-- The 4,096 bytes of a logical page. -/
def pageAt (m : PageMap) (n : Nat) : Bytes := padTo 4096 (tget [] m n)

/-- A patch applied (R224). -/
def applyPatch (m : PageMap) (p : Patch) : PageMap := tput m p.page (splice (pageAt m p.page) p.off p.data)

/-- The committed proposal ids (R222). -/
def ledgerIds (m : PageMap) : List Nat :=
  ((m.filter (fun e => ledgerPage ≤ e.1)).flatMap (fun e => (chunks 4 e.2).map leNat)).filter (· != 0)

/-- An id put into a list in ascending order. -/
def insertId (i : Nat) : List Nat → List Nat
  | [] => [i]
  | j :: js => if i < j then i :: j :: js else j :: insertId i js

/-- A committed proposal's id in the ledger (R222, R239). -/
def ledgerPut (i : Nat) (m : PageMap) : PageMap :=
  (chunks 4096 ((insertId i (ledgerIds m)).flatMap (natLe 4))).zipIdx.foldl (fun m x => tput m (ledgerPage + x.2) x.1) m

/-- The shred ledger's entries with their places in its ring. -/
def shredEntries (m : PageMap) : List (Nat × Bytes) :=
  ((m.filter (fun e => shredPage ≤ e.1 && e.1 < shredPage + 2048)).flatMap (fun e =>
    (chunks 64 e.2).zipIdx.map (fun x => (64 * (e.1 - shredPage) + x.2, x.1)))).filter (fun x => !allZero x.2)

/-- The place after the newest entry: the one of the highest epoch (R222, R240). -/
def shredNextOf (es : List (Nat × Bytes)) : Nat :=
  (es.foldl (fun b x => if fld x.2 16 8 ≥ b.1 then (fld x.2 16 8, (x.1 + 1) % 131072) else b) (0, 0)).2

/-- What the logical pages say the vault holds (R218, R222, R232, R233). -/
def imgOf (wk : Bytes) (m : PageMap) : VaultImg :=
  let es := shredEntries m
  let n := shredNextOf es
  let c := pageAt m counterPage
  { owners := (m.filter (fun e => e.1 < rosterPage)).foldl (fun t e =>
      (List.range 32).foldl (fun t j => tset {} t (32 * e.1 + j) (ownerOfBytes (sub e.2 (128 * j) 128))) t) []
    roster := (m.filter (fun e => rosterPage ≤ e.1 && e.1 < policyPage)).foldl (fun t e =>
      tset {} t (e.1 - rosterPage) (officerOfBytes e.2)) []
    policies := (List.range 17).foldl (fun t c => tset {} t c (policyOfBytes (sub (pageAt m policyPage) (18 * c) 18))) []
    custody := custodyOfBytes wk (pageAt m custodyPage)
    idCeiling := fld c 0 4, settledEpoch := fld c 8 8
    shredLedger := ((es.filter (fun x => n ≤ x.1)) ++ (es.filter (fun x => x.1 < n))).map (·.2)
    shredNext := n, propLedger := ledgerIds m, evrFloor := fld c 16 4, returnDue := fld c 20 1 != 0
    activation := if fld c 21 1 != 0 then sub c 24 80 else [], migrated := fld c 22 1 }

/-! ### Journal records (R224) -/

/-- The patches that take the record area's contents from `x` to `y`; the proposal ledger takes the record's PROPOSAL (R222,
R224; log entry 31). -/
def patchesOf (wk : Bytes) (x y : VaultImg) : List Patch :=
  (tkeys y.owners (fun o v => ownerBytes o (tget {} x.owners o) != ownerBytes o v)).map (fun o =>
    { page := o / 32, off := 128 * (o % 32), data := ownerBytes o (tget {} y.owners o) }) ++
  (tkeys y.roster (fun i v => tget {} x.roster i != v)).map (fun i =>
    { page := rosterPage + i, off := 0, data := officerBytes (tget {} y.roster i) }) ++
  (tkeys y.policies (fun c v => tget {} x.policies c != v)).map (fun c =>
    { page := policyPage, off := 18 * c, data := policyBytes (tget {} y.policies c) }) ++
  (if x.custody != y.custody then [{ page := custodyPage, off := 0, data := custodyBytes wk y.custody }] else []) ++
  (if counterBytes x != counterBytes y then [{ page := counterPage, off := 0, data := counterBytes y }] else []) ++
  (if x.shredNext != y.shredNext then
    [{ page := shredPage + x.shredNext / 64, off := 64 * (x.shredNext % 64), data := y.shredLedger.getLast?.getD [] }]
   else [])

/-- The number of a record's KIND. -/
def kindCode : JKind → Nat
  | .commit => 1
  | .void => 2
  | .reserve => 3
  | .settled => 4

/-- BODY: each patch's logical page, offset, length and bytes. -/
def bodyBytes (ps : List Patch) : Bytes :=
  ps.flatMap (fun p => natLe 4 p.page ++ natLe 2 p.off ++ natLe 2 p.data.length ++ p.data)

/-- The pages a record occupies (R224). -/
def jrecPages (r : JRec) : Nat := ceilDiv (48 + (bodyBytes r.body).length) 4096

/-- The record's bytes, with its CMAC under the vault MAC key (R224). -/
def jrecBytes (mk : Bytes) (r : JRec) : Bytes :=
  let b := bodyBytes r.body
  let h := natLe 4 0x31524A56 ++ natLe 8 r.epoch ++ natLe 1 (kindCode r.kind) ++ natLe 1 (jrecPages r) ++ zeros 2 ++
    natLe 4 r.proposal ++ natLe 4 b.length ++ natLe 8 r.boot ++ b
  h ++ cmac mk h

/-- The patches in a BODY. -/
def readBody : Nat → Bytes → List Patch
  | 0, _ => []
  | k + 1, b =>
    if b.length < 8 then []
    else
      { page := fld b 0 4, off := fld b 4 2, data := sub b 8 (fld b 6 2) } :: readBody k (b.drop (8 + fld b 6 2))

/-! ### Pages of a device (R221, R222) -/

/-- The places of the header's four copies, of the journal ring's 16,384 pages, and of the record area's 172,032 (R222). -/
def headerAt (i : Nat) : Nat := 128 * i
/-- Page `i` of the journal ring. -/
def ringAt (i : Nat) : Nat := 512 + i % 16384
/-- Page `i` of the record area. -/
def areaAt (i : Nat) : Nat := 16896 + i
/-- The place belongs to the journal ring. -/
def inRing (k : Nat) : Bool := 512 ≤ k && k < 16896
/-- The place belongs to the record area. -/
def inRecords (k : Nat) : Bool := 16896 ≤ k && k < 188928

/-- The header: format version, vault id and the CMAC check value of the vault MAC key (R222; log entry 31). -/
def headerPage (mk : Bytes) (fmt id : Nat) : FlashPage :=
  let h := natLe 2 fmt ++ zeros 14 ++ natLe 16 id
  { data := h ++ cmac mk h }

/-- A header copy reads and its check value is of this key. -/
def headerOk (mk : Bytes) (p : FlashPage) : Bool :=
  p.readable && p.data.length == 48 && p.data.drop 32 == cmac mk (p.data.take 32)

/-- The header copies that a device holds. -/
def headers (d : VaultDev) : List FlashPage :=
  ((List.range 4).map (fun i => tget {} d.pages (headerAt i))).filter (fun p => !p.data.isEmpty)

/-- The first header copy of this vault's key (R222). -/
def headerOf (mk : Bytes) (d : VaultDev) : Option FlashPage := (headers d).find? (headerOk mk)

/-- The vault id of a device's header; 0 where it has none of this vault. -/
def devId (mk : Bytes) (d : VaultDev) : Nat :=
  match headerOf mk d with
  | some p => fld p.data 16 16
  | none => 0

/-- The device holds no header: blank (R227). -/
def devBlank (d : VaultDev) : Bool := (headers d).isEmpty

/-- The device can be read and is of this vault. -/
def devGood (mk : Bytes) (d : VaultDev) : Bool := d.answers && (headerOf mk d).isSome

/-- The device with its four header copies written (R222). -/
def putHeader (mk : Bytes) (fmt id : Nat) (d : VaultDev) : VaultDev :=
  { d with pages := (List.range 4).foldl (fun t i => tput t (headerAt i) (headerPage mk fmt id)) d.pages }

/-- A block has failed: counted, and a replacement block, while there is one, takes its place (R222, R226). -/
def blockFails (block : Nat) (d : VaultDev) : VaultDev :=
  { d with
    fail := satInc 16 d.fail, bad := min 4095 (d.bad + 1), replUsed := min 120 (d.replUsed + 1)
    repl := if d.replUsed < 120 then tput d.repl block (3976 + d.replUsed) else d.repl }

/-- Blocks that fail one after another, at the same place of the layout. -/
def blocksFail : Nat → Nat → VaultDev → VaultDev
  | 0, _, d => d
  | n + 1, block, d => blocksFail n block (blockFails block d)

/-- A record programmed at the ring's next pages (R222, R224). -/
def putRing (bytes : Bytes) (readable : Bool) (d : VaultDev) : VaultDev :=
  let cs := chunks 4096 bytes
  { d with
    pages := cs.zipIdx.foldl (fun t x => tput t (ringAt (d.head + x.2)) { data := x.1, readable := readable }) d.pages
    head := (d.head + cs.length) % 16384 }

/-- A record programmed with its result: up to three retries on other blocks, or the failure of all of them (R226). -/
def devProgram (r : ProgResult) (bytes : Bytes) (d : VaultDev) : VaultDev :=
  match r with
  | .written n => putRing bytes true (blocksFail n (8 + d.head / 64) d)
  | .failed => blocksFail 4 (8 + d.head / 64) d
  | .silent => { d with answers := false }

/-- The program succeeded. -/
def progOk : ProgResult → Bool
  | .written _ => true
  | _ => false

/-- Pages of the ring that are programmed. -/
def ringUsed (d : VaultDev) : Nat := tcount d.pages (fun k _ => inRing k)

/-- The ring has room for `n` more pages, and a whole block besides for the next SETTLED record (R230; log entry 31). -/
def ringRoom (n : Nat) (d : VaultDev) : Bool := ringUsed d + n ≤ 16320

/-! ### What a device's journal holds (R224, R227) -/

/-- The record whose first page is at place `k`: its pages, bytes and whether it is complete. -/
def foundRec (mk : Bytes) (d : VaultDev) (k : Nat) (p : FlashPage) : FoundRec :=
  let two := fld p.data 13 1 == 2
  let q := ringAt (k - 512 + 1)
  let x := tget {} d.pages q
  let y := if two then p.data ++ x.data else p.data
  let n := 32 + fld y 20 4
  { places := if two then [k, q] else [k], bytes := y
    complete := p.readable && (!two || x.readable) && fld y 0 4 == 0x31524A56 && n + 16 ≤ y.length &&
      fld y 13 1 == ceilDiv (n + 16) 4096 && sub y n 16 == cmac mk (y.take n) }

/-- The records in the ring, torn ones among them (R224). -/
def ringRecs (mk : Bytes) (d : VaultDev) : List FoundRec :=
  (d.pages.filter (fun e => inRing e.1)).foldl (fun l e =>
    if l.any (fun f => f.places.contains e.1) then l
    else if !e.2.readable || fld e.2.data 0 4 == 0x31524A56 then l ++ [foundRec mk d e.1 e.2]
    else l) []

/-- EPOCH of a record found. -/
def recEpoch (f : FoundRec) : Nat := fld f.bytes 4 8
/-- KIND. -/
def recKind (f : FoundRec) : Nat := fld f.bytes 12 1

/-- The record of an epoch is followed by its VOID. -/
def isVoided (fs : List FoundRec) (epoch : Nat) : Bool := fs.any (fun f => f.complete && recKind f == 2 && recEpoch f == epoch)

/-- The record of an epoch that stands: complete, no VOID, and not cancelled by one. -/
def recordOf (fs : List FoundRec) (epoch : Nat) : Option FoundRec :=
  if isVoided fs epoch then none else fs.find? (fun f => f.complete && recKind f != 2 && recEpoch f == epoch)

/-- A record's patches applied, and a committed proposal's id put into the ledger (R222, R224). -/
def applyRec (m : PageMap) (f : FoundRec) : PageMap :=
  let a := (readBody (fld f.bytes 20 4) (sub f.bytes 32 (fld f.bytes 20 4))).foldl applyPatch m
  if recKind f == 1 && fld f.bytes 16 4 != 0 then ledgerPut (fld f.bytes 16 4) a else a

/-- The unbroken chain of complete records from epoch `e`: its last epoch and the contents there (R227). -/
def chainFrom : Nat → List FoundRec → Nat → PageMap → Nat × PageMap
  | 0, _, e, m => (e, m)
  | k + 1, fs, e, m =>
    match recordOf fs (e + 1) with
    | some f => chainFrom k fs (e + 1) (applyRec m f)
    | none => (e, m)

/-! ### The record area (R223) -/

/-- A page's copy with its spare bytes: logical page, epoch and CMAC (R223). -/
def copyPage (mk : Bytes) (n epoch : Nat) (data : Bytes) : FlashPage :=
  let h := natLe 4 n ++ natLe 8 epoch
  { data := data, spare := h ++ cmac mk (data ++ h) }

/-- The logical page of a copy. -/
def copyLogical (p : FlashPage) : Nat := fld p.spare 0 4
/-- The vault epoch of a copy's content. -/
def copyEpoch (p : FlashPage) : Nat := fld p.spare 4 8

/-- The copy reads and its CMAC is valid (R223). -/
def copyOk (mk : Bytes) (p : FlashPage) : Bool :=
  p.readable && p.spare.length == 28 && p.spare.drop 12 == cmac mk (p.data ++ p.spare.take 12)

/-- The valid copies of the record area, with their places. -/
def copies (mk : Bytes) (d : VaultDev) : List (Nat × FlashPage) := d.pages.filter (fun e => inRecords e.1 && copyOk mk e.2)

/-- A copy does not stand: one of a higher epoch does (R223). -/
def superseded (cs : List (Nat × FlashPage)) (p : FlashPage) : Bool :=
  cs.any (fun c => copyLogical c.2 == copyLogical p && copyEpoch c.2 > copyEpoch p)

/-- The copy with the highest epoch and a valid CMAC stands for each logical page (R223). -/
def devBase (mk : Bytes) (d : VaultDev) : PageMap :=
  let cs := copies mk d
  (cs.filter (fun c => !superseded cs c.2)).foldl (fun m c => tput m (copyLogical c.2) c.2.data) []

/-- What the device holds: the end of its journal's unbroken chain from the settled epoch, and the contents there (R227). -/
def devChain (mk : Bytes) (d : VaultDev) : Nat × PageMap :=
  let m := devBase mk d
  let fs := ringRecs mk d
  chainFrom fs.length fs (fld (pageAt m counterPage) 8 8) m

/-- An open discards the record: it is torn, voided or a VOID, or lies beyond the chain's end (R227). -/
def discards (fs : List FoundRec) (last : Nat) (f : FoundRec) : Bool :=
  !f.complete || recKind f == 2 || isVoided fs (recEpoch f) || recEpoch f > last

/-- The records an open discards, but for the VOIDs themselves (R227). -/
def devDiscards (mk : Bytes) (d : VaultDev) : Nat :=
  let fs := ringRecs mk d
  (fs.filter (fun f => !(f.complete && recKind f == 2) && discards fs (devChain mk d).1 f)).length

/-- The journal without what an open discards: its pages are erased (R227). -/
def devCleaned (mk : Bytes) (d : VaultDev) : VaultDev :=
  let fs := ringRecs mk d
  let gone := (fs.filter (discards fs (devChain mk d).1)).flatMap (·.places)
  { d with pages := d.pages.filter (fun e => !gone.contains e.1) }

/-- The record of an epoch replayed from one device to the other (R227). -/
def devReplay (mk : Bytes) (epoch : Nat) (src dst : VaultDev) : VaultDev :=
  match recordOf (ringRecs mk src) epoch with
  | some f => putRing f.bytes true dst
  | none => dst

/-- One device's contents written to the other; its own blocks and counts stay. -/
def devCopy (src dst : VaultDev) : VaultDev := { dst with answers := true, pages := src.pages, head := src.head }

/-- A device to be rebuilt: erased, its ring at the other's place, its header written last (R227; log entry 31). -/
def devEmptied (src dst : VaultDev) : VaultDev := { dst with answers := true, pages := [], head := src.head }

/-! ### Settling (R230) -/

/-- The first erased page of the record area outside the given blocks. -/
def freeRecord (blocks : List Nat) (d : VaultDev) : Nat :=
  areaAt ((firstBelow 172032 (fun i =>
    !blocks.contains (areaAt i / 64) && !tany d.pages (fun k _ => k == areaAt i))).getD 0)

/-- A copy programmed into the record area. -/
def putCopy (blocks : List Nat) (p : FlashPage) (d : VaultDev) : VaultDev :=
  { d with pages := tput d.pages (freeRecord blocks d) p }

/-- Superseded copies reclaimed: the copies that stand in their blocks are written elsewhere, then the blocks erased (R223). -/
def reclaim (mk : Bytes) (d : VaultDev) : VaultDev :=
  let cs := copies mk d
  let blocks := ((cs.filter (fun c => superseded cs c.2)).map (·.1 / 64)).eraseDups
  let keep := cs.filter (fun c => blocks.contains (c.1 / 64) && !superseded cs c.2)
  let a := keep.foldl (fun d c => putCopy blocks c.2 d) d
  { a with pages := a.pages.filter (fun e => !(inRecords e.1 && blocks.contains (e.1 / 64))) }

/-- A device settled at an epoch: every logical page that its journal changed gets a new copy, the superseded ones and the
journal behind are erased, and the ring goes on in the next block (R223, R230). -/
def devSettle (mk : Bytes) (epoch : Nat) (d : VaultDev) : VaultDev :=
  let base := devBase mk d
  let m := applyPatch (devChain mk d).2 { page := counterPage, off := 8, data := natLe 8 epoch }
  let a := (tkeys m (fun n b => tget [] base n != b)).foldl (fun d n => putCopy [] (copyPage mk n epoch (pageAt m n)) d) d
  let b := reclaim mk a
  { b with pages := b.pages.filter (fun e => !inRing e.1), head := (d.head / 64 + 1) * 64 % 16384 }

/-- The KEK_WRAPs in a logical page of owner records, with their owners. -/
def wrapsIn (n : Nat) (data : Bytes) : List (Nat × Bytes) :=
  if n < rosterPage then
    ((chunks 128 data).zipIdx.map (fun x => (32 * n + x.2, sub x.1 24 48))).filter (fun x => !allZero x.2)
  else []

/-- A KEK_WRAP is of an incarnation that has been revoked. -/
def staleWrap (v : VaultImg) (x : Nat × Bytes) : Bool := (tget {} v.owners x.1).kekWrap != x.2

/-- The copies on a device, pages and journal records, that hold the KEK_WRAP of a revoked incarnation (R230). -/
def staleCopies (mk : Bytes) (v : VaultImg) (d : VaultDev) : Nat :=
  ((copies mk d).filter (fun c => (wrapsIn (copyLogical c.2) c.2.data).any (staleWrap v))).length +
  ((ringRecs mk d).filter (fun f => f.complete &&
    (readBody (fld f.bytes 20 4) (sub f.bytes 32 (fld f.bytes 20 4))).any (fun p =>
      (wrapsIn p.page (zeros p.off ++ p.data)).any (staleWrap v)))).length

/-! ### The scrubber (R231) -/

/-- The pages of the header, the ring and the record area from `lo` to `hi` per cent of a pass. -/
def passPages (lo hi : Nat) (d : VaultDev) : List FlashPage :=
  (d.pages.filter (fun e => lo * 188928 / 100 ≤ e.1 && e.1 < hi * 188928 / 100)).map (·.2)

/-- A device takes part in commits: it is good, or is being rebuilt (R228). -/
def takesPart (code : Nat) : Bool := code == 0 || code == 3

end Sys2Proof.Machine
end

