-- ==== Sys2Proof/Machine/Drbg.lean ====
section
/-! DEFINITION. CTR_DRBG of SP 800-90A with AES-256 and the derivation function (R249); the standard is PRESUMED
(log entry 6). -/
namespace Sys2Proof.Machine

/-- `n` blocks of the counter stream after V (SP 800-90A 10.2.1). -/
def drbgBlocks (key : Bytes) (v : Nat) : Nat → Bytes
  | 0 => []
  | n + 1 => aesEnc key (natBe 16 ((v + 1) % 2 ^ 128)) ++ drbgBlocks key ((v + 1) % 2 ^ 128) n

/-- CTR_DRBG_Update: the new Key and V. -/
def drbgUpdate (data key : Bytes) (v : Nat) : Bytes × Nat :=
  let t := xorBytes (drbgBlocks key v 3) data
  (t.take 32, beNat (t.drop 32))

/-- BCC: the chained encryption of whole blocks. -/
def drbgBcc (key data : Bytes) : Bytes :=
  (chunks 16 data).foldl (fun c b => aesEnc key (xorBytes c b)) (zeros 16)

/-- The blocks X, E(X), E(E(X)). -/
def drbgChain (key : Bytes) : Nat → Bytes → Bytes
  | 0, _ => []
  | n + 1, x => aesEnc key x ++ drbgChain key n (aesEnc key x)

/-- Block_Cipher_df with 48 bytes out. -/
def drbgDf (input : Bytes) : Bytes :=
  let s := natBe 4 input.length ++ natBe 4 48 ++ input ++ [0x80]
  let p := padTo (16 * ceilDiv s.length 16) s
  let k := (List.range 32).map (BitVec.ofNat 8)
  let t := ((List.range 3).map (fun i => drbgBcc k (natBe 4 i ++ zeros 12 ++ p))).flatten
  drbgChain (t.take 32) 3 (t.drop 32)

/-- Instantiation from the entropy and nonce together and the personalisation string. -/
@[irreducible] def drbgInstantiate (entropy pers : Bytes) : Bytes × Nat := drbgUpdate (drbgDf (entropy ++ pers)) (zeros 32) 0

/-- Reseeding from further entropy. -/
@[irreducible] def drbgReseed (entropy key : Bytes) (v : Nat) : Bytes × Nat := drbgUpdate (drbgDf entropy) key v

/-- One request of 64 bytes without additional input: the bytes, and the new Key and V. -/
@[irreducible] def drbgGenerate (key : Bytes) (v : Nat) : Bytes × Bytes × Nat :=
  (drbgBlocks key v 4, drbgUpdate (zeros 48) key ((v + 4) % 2 ^ 128))

/-- Conditioned bits as bytes, the first bit most significant (PRESUMED, log entry 6). -/
def bitsBytes (l : List Bool) : Bytes :=
  natBe (l.length / 8) (l.foldl (fun a b => 2 * a + b2n b) 0)

end Sys2Proof.Machine
end

