-- ==== Sys2Proof/Machine/Turntables.lean ====
section
/-! DEFINITION. The turntables: grant, renewal, release and lease expiry (R58-R63). -/
namespace Sys2Proof.Machine

/-- The next ticket: the 16-bit grant counter skips 0 (R59). -/
def ticketNext (g : Nat) : Nat := if g == 0xFFFF then 1 else g + 1

/-- The grant word of port `p` with its ticket (R59). -/
def grantWord (p : Port) (t : Nat) : Nat := 2 ^ 31 + (p.num + 1) * 2 ^ 29 + t

/-- Turntable `n` taken by port `p` at its CSN (R59). -/
def takeTable (p : Port) (n : Nat) (s : State) : State :=
  seqd (updTable n (fun t => { t with
    holder := some p, waiter := false, forced := false, grants := ticketNext t.grants
    leaseLen := t.lease, leaseFrom := s.now }) s)

/-- The waiting port is told that turntable `n` is free (R62). -/
def tellWaiter (w : Port) (n : Nat) (s : State) : State :=
  if held (s.hpt.get w) then s
  else setInt w 2 (updHpt w (fun h => { h with ttbFreed := h.ttbFreed ||| (1 <<< n) }) s)

/-- Turntable `n` released, by its holder or by force; a forced release of turntable 0 erases the legacy key register
(R61-R63, R214). -/
def dropTable (n : Nat) (forced : Bool) (s : State) : State :=
  let t := tableOf s n
  match t.holder with
  | none => s
  | some h =>
    let a := seqd (updTable n (fun t => { t with holder := none, forced := forced, leaseLen := 0, leaseFrom := 0 }) s)
    let b := if t.waiter then tellWaiter h.other n a else a
    if forced && n == 0 then legErase 8 stKeyErased b else b

/-- A release or renewal that names the ticket of a hold of the writing port (R60). -/
def ticketOk (p : Port) (n value : Nat) (s : State) : Bool :=
  holds p n s && value % 2 ^ 16 == (tableOf s n).grants

/-- An ignored release or renewal counted (R60). -/
def badRelease (p : Port) (s : State) : State :=
  updTtb (fun t => { t with badRel := t.badRel.upd p (satInc 16) }) s

/-- TTB_ACQUIRE: a read of TTB_ACQ_n takes a free turntable; of a held one it returns 0 and may set WAITER (R59).
In FAULT, where no CSN can be assigned, it returns 0 and takes nothing (log entry 22). -/
def execTtbAcquire (p : Port) (n : Nat) (s : State) : Res :=
  if !reach p s then .next s
  else if n ≥ 64 || !rdLive p .ttb s then .next (answer p 0 (cntRd p s))
  else
    match (tableOf s n).holder with
    | none =>
      let t := takeTable p n (cntRd p s)
      .next (answer p (grantWord p (tableOf t n).grants) t)
    | some h =>
      .next (answer p 0 (if h == p then cntRd p s else updTable n (fun t => { t with waiter := true }) (cntRd p s)))

/-- TTB_RENEW: a write of the holder's ticket to TTB_ACQ_n restarts the lease (R60). -/
def execTtbRenew (p : Port) (n value : Nat) (s : State) : Res :=
  if !wr p .ttb s || n ≥ 64 then .next s
  else
    let a := legTouch p (cntWr p s)
    if ticketOk p n value a then .next (seqd (updTable n (fun t => { t with leaseFrom := s.now }) a))
    else .next (badRelease p a)

/-- TTB_RELEASE: a write of the holder's ticket to TTB_REL_n releases the turntable (R60). -/
def execTtbRelease (p : Port) (n value : Nat) (s : State) : Res :=
  if !wr p .ttb s || n ≥ 64 then .next s
  else
    let a := legTouch p (cntWr p s)
    if ticketOk p n value a then .next (dropTable n false a) else .next (badRelease p a)

/-- TTB_LEASE_EXPIRY: the end of a lease releases its turntable by force (R61). -/
def execTtbLeaseExpiry (n : Nat) (s : State) : Res :=
  let t := tableOf s n
  onlyIf (powered s && !inFault s && t.holder.isSome && t.leaseLen != 0 && s.now ≥ t.leaseFrom + 1000 * t.leaseLen) s
    (dropTable n true s)

end Sys2Proof.Machine
end

