-- ==== Sys2Proof/Machine/Random.lean ====
section
/-! DEFINITION. The random chain: health tests, start, reseed, the tender and its waiting consumers (R244-R258), with the
commands of its re-masks (R208, R209). -/
namespace Sys2Proof.Machine

/-! ### Declarations and starts -/

/-- RNG_CELL_FAIL (11 RNG table). -/
def cellFailWord (r : Rng) : Nat := (r.cellFail.zipIdx.map (fun x => x.1 * 2 ^ (8 * x.2))).sum

/-- The RNG record of a kind and a cause (R327). -/
def rngRecord (kind cause : Nat) (s : State) : State :=
  recordSeq .rng (natLe 1 kind ++ natLe 1 cause ++ zeros 2 ++ natLe 4 (cellFailWord s.rng)) s

/-- The DRBG, the tender, bytes taken for consumers not served, the collected bits and the mask reserve zeroised: steps 1
and 2 of R248. -/
def rngZeroise (s : State) : State :=
  updKst (fun k => { k with masks := [] })
    (updRng (fun r => { r with
      key := 0, v := 0, reqSince := 0, tender := [], bits := [], reseedDue := false
      waiters := r.waiters.map (fun w => { w with got := [] }) }) s)

/-- The consumer is a proposal's output that waits to be signed. -/
def isQuorum (w : Waiter) : Bool :=
  match w.who with
  | .quorum _ => true
  | _ => false

/-- The source declared failed with a cause: everything at the declaration's CSN, in the order of R248; those waiting for their
turn under R97, and the carriages that end with a waiting consumer, complete after it. -/
def declare_ (cause : Nat) (s : State) : State :=
  let a := rngZeroise (seqd s)
  let b := (a.rng.waiters.filter (fun w => !isQuorum w)).foldl (fun s w => unserved stRngFailed true w s) a
  let c := updRng (fun r => { r with state := .failed, cause := cause, declared := satInc 16 r.declared }) b
  let d := setIntBoth 8 (record .rng (natLe 8 a.csn ++ natLe 1 4 ++ natLe 1 cause ++ zeros 2 ++ natLe 4 (cellFailWord a.rng)) c)
  reap stKeyErased ((a.rng.waiters.filter isQuorum).foldl (fun s w => unserved stRngFailed true w s) d)

/-- The chain starts (R251): its known-answer tests begin, and the samples start afresh. -/
def rngStart (s : State) : State :=
  let a := rngZeroise (seqd s)
  let none4 : List (Nat × Nat) := [(0, 0), (0, 0), (0, 0), (0, 0)]
  rngRecord 1 0 (updRng (fun r => { r with
    state := .starting, failStamps := [], runs := [0, 0, 0, 0], wins := [0, 0, 0, 0], lastRun := none4
    last := none4.map (fun _ => (false, 0)), debias := r.debiasCfg, startAt := s.now, starts := satInc 16 r.starts, kat := 3 }) a)

/-- RNG_CTRL written by port `p` (11 RNG table). -/
def rngCtl (p : Port) (s : State) (f : State → State) : Res :=
  if wr p .rng s then .next (f (legTouch p (cntWr p s))) else .next s

/-- RESTART (R251). -/
def execRestart (p : Port) (s : State) : Res :=
  if wr p .rng s then .next (rngStart (legTouch p (cntWr p s))) else .next s

/-- 512 collected bits are there, of windows that every cell has passed for good: none of their places can still be filled, and
no run can still reach back into them (R244, R246, R247, R249; log entry 88). -/
def bitsReady (s : State) : Bool :=
  (s.rng.bits.filter (fun b => b.1 < 2048 * (s.rng.wins.foldl min (s.rng.wins.headD 0) - 1))).length ≥ 512

/-- The DRBG reseeded with the collected bits (R249). -/
def reseedNow (s : State) : State :=
  updRng (fun r =>
    let n := drbgReseed (bitsBytes ((r.bits.take 512).map (·.2))) (natBe 32 r.key) r.v
    { r with key := beNat n.1, v := n.2, bits := [], reqSince := 0, reseedCnt := satInc 32 r.reseedCnt, reseedDue := false }) s

/-- A requested reseed runs as soon as its bits are there (R249). -/
def reseedIfDue (s : State) : State :=
  if s.rng.reseedDue && s.rng.state == .seeded && bitsReady s then reseedNow s else s

/-- A reseed asked for; ignored unless SEEDED (R249). -/
def askReseed (s : State) : State :=
  if s.rng.state != .seeded then s
  else reseedIfDue (rngRecord 2 0 (updRng (fun r => { r with reseedDue := true }) (seqd s)))

/-- RESEED: a reseed is requested (R249). -/
def execReseed (p : Port) (s : State) : Res := rngCtl p s askReseed

/-- A run of the known-answer tests begins, within a sequenced write (R253). -/
def katBegin (s : State) : State := updRng (fun r => { r with kat := 3 }) s

/-- A run of the known-answer tests ends, with the outcome the hardware gives it; a failure declares the source failed
(R253). -/
def katEnd (pass : Bool) (s : State) : State :=
  let a := rngRecord 3 (if pass then 1 else 2) (updRng (fun r => { r with kat := if pass then 1 else 2 }) s)
  if pass then a else declare_ 2 a

/-- KAT: the run in progress, begun by a start or by a write of RNG_CTRL, ends; where none is, a manager's write of
RNG_CTRL.KAT runs the tests (R253; log entry 20). -/
def execKat (p : Port) (pass : Bool) (s : State) : Res :=
  if s.rng.kat == 3 then onlyIf (powered s && !inFault s) s (katEnd pass s)
  else rngCtl p s (fun s => katEnd pass (katBegin (seqd s)))

/-! ### Health tests and conditioning -/

/-- The longest run that reaches into a window, and the run at its end: value and length so far carried in. -/
def runScan : Nat × Nat → Nat → List Bool → Nat × (Nat × Nat)
  | cur, best, [] => (best, cur)
  | (v, n), best, b :: bs =>
    let m := if n != 0 && v == b2n b then n + 1 else 1
    runScan (b2n b, m) (max best m) bs

/-- The window fails a health test (R246): a run of 41, or its first value 800 times. -/
def windowFails (carry : Nat × Nat) (l : List Bool) : Bool :=
  (runScan carry 0 l).1 ≥ 41 || l.count (l.headD false) ≥ 800

/-- The conditioned bits of a window, each with the number of its pair (R244). -/
def conditioned (vonNeumann : Bool) : Nat → List Bool → List (Nat × Bool)
  | i, x :: y :: l =>
    let rest := conditioned vonNeumann (i + 1) l
    if vonNeumann then (if x == y then rest else (i, x) :: rest) else (i, x != y) :: rest
  | _, _ => []

/-- Bits put into sample order. -/
def mergeBits : Nat → List (Nat × Bool) → List (Nat × Bool) → List (Nat × Bool)
  | 0, xs, ys => xs ++ ys
  | _, [], ys => ys
  | _, xs, [] => xs
  | k + 1, x :: xs, y :: ys =>
    if x.1 ≤ y.1 then x :: mergeBits k xs (y :: ys) else y :: mergeBits k (x :: xs) ys

/-- The bits of window `k` of a cell collected for the next seeding, the four cells' in sample order; no more than 512 are
kept (R244, R249, R251). -/
def collect (cell k : Nat) (l : List Bool) (s : State) : State :=
  updRng (fun r =>
    let new := (conditioned r.debias 0 l).map (fun x => ((k * 512 + x.1) * 4 + cell, x.2))
    { r with bits := (mergeBits (r.bits.length + new.length) r.bits new).take 512 }) s

/-- The bits of window `k` of a cell discarded (R247). -/
def discardWindow (cell k : Nat) (s : State) : State :=
  updRng (fun r => { r with bits := r.bits.filter (fun b => !(b.1 % 4 == cell && b.1 / 2048 == k)) }) s

/-- The failures stamped within 1 s up to `t` are more than RNG_FAIL_LIMIT (R248). -/
def overLimit (r : Rng) (t : Nat) : Bool := r.failStamps.countP (fun u => u ≤ t && t < u + 1000000) > r.failLimit

/-- A failing window, stamped `at_` at its end, is counted; one that brings a second above the limit declares the source failed
(R247, R248, R252). -/
def windowFailed (cell at_ : Nat) (s : State) : State :=
  let a := updRng (fun r => { r with
    failCnt := satInc 32 r.failCnt
    cellFail := r.cellFail.set cell (satInc 8 (r.cellFail.getD cell 0))
    runs := r.runs.set cell 0
    failStamps := r.failStamps.filter (fun t => at_ < t + 1000000) ++ [at_] }) s
  if (a.rng.state == .seeded || a.rng.state == .starting) && a.rng.failStamps.any (fun t => at_ ≤ t && overLimit a.rng t) then
    declare_ 1 a
  else a

/-- A run that reaches into a window from the one before and has 41 samples there lies partly in both (R246). -/
def runReachesBack (carry : Nat × Nat) (l : List Bool) : Bool :=
  let lead := (l.takeWhile (fun b => b2n b == carry.1)).length
  carry.2 != 0 && lead != 0 && carry.2 + lead ≥ 41

/-- HEALTH_WINDOW_END: the tests of one window of a cell (R246, R247); a passing window's bits are collected. A window that
passed fails after all where a run that began in it grows to 41 in this one: its bits, held until then, are discarded (R246,
R247; log entry 88). -/
def execHealthWindowEnd (cell : Nat) (samples : List Bool) (s : State) : Res :=
  if !(powered s && !inFault s && cell < 4 && samples.length == 1024 && s.rng.state != .stopped) then .next s
  else
    let carry := s.rng.lastRun.getD cell (0, 0)
    let k := s.rng.wins.getD cell 0
    let was := s.rng.last.getD cell (false, 0)
    let bad := windowFails carry samples
    let z := if was.1 && runReachesBack carry samples then windowFailed cell was.2 (discardWindow cell (k - 1) s) else s
    let a := updRng (fun r => { r with
      lastRun := r.lastRun.set cell (runScan carry 0 samples).2, wins := r.wins.set cell (k + 1)
      last := r.last.set cell (!bad, s.now) }) z
    if bad then .next (windowFailed cell s.now a)
    else
      let b := updRng (fun r => { r with runs := r.runs.set cell (min 16 (r.runs.getD cell 0 + 1)) }) a
      if a.rng.state == .failed then .next b else .next (reseedIfDue (collect cell k samples b))

/-- DRBG_INSTANTIATE: the known-answer tests have passed, every cell has passed 16 windows and 512 bits are there, within 40
ms of the start (R250-R253). -/
def execDrbgInstantiate (s : State) : Res :=
  let ok := powered s && !inFault s && s.rng.state == .starting && s.rng.kat == 1 && s.rng.runs.all (· ≥ 16) &&
    bitsReady s && s.now < s.rng.startAt + 40000
  onlyIf ok s
    (setIntBoth 8 (updRng (fun r =>
      let n := drbgInstantiate (bitsBytes ((r.bits.take 512).map (·.2))) (r.pers.take r.persLen)
      { r with
        key := beNat n.1, v := n.2, bits := [], reqSince := 0, state := .seeded, tenderLow := 0
        instTime := min 0xFFFF (s.now - r.startAt) }) s))

/-- RNG_START_TIMEOUT: a start of 40 ms without instantiation declares the source failed (R252). -/
def execRngStartTimeout (s : State) : Res :=
  onlyIf (powered s && !inFault s && s.rng.state == .starting && s.now ≥ s.rng.startAt + 40000) s (declare_ 3 s)

/-- AUTOMATIC_RESEED before the request that would be the 2^20th (R249). -/
def execAutomaticReseed (s : State) : Res :=
  onlyIf (powered s && !inFault s && s.rng.state == .seeded && s.rng.reqSince + 1 ≥ 2 ^ 20 && bitsReady s) s (reseedNow s)

/-! ### The tender -/

/-- The tender takes a generate request now (R249). -/
def mayGenerate (s : State) : Bool :=
  powered s && !inFault s && s.rng.state == .seeded && s.rng.tender.length < 65536 && s.rng.reqSince + 1 < 2 ^ 20 &&
    !s.rng.reseedDue

/-- TENDER_FILL: one request of 64 bytes enters the tender, which holds 65,536 at most; its waiters are served (R249,
R255). -/
def execTenderFill (s : State) : Res :=
  onlyIf (mayGenerate s) s
    (serveAll (updRng (fun r =>
      let g := drbgGenerate (natBe 32 r.key) r.v
      { r with
        key := beNat g.2.1, v := g.2.2, reqSince := r.reqSince + 1, tender := (r.tender ++ g.1).take 65536 }) s))

/-- The first waiter whose limit has passed (R256). -/
def lateWaiter (s : State) : Option Waiter := s.rng.waiters.find? (fun w => s.now ≥ w.at_ + w.limit)

/-- RNG_WAIT_EXPIRY: a consumer not served in RNG_WAIT_MAX ends RNG_NOT_SEEDED; the bytes it took are zeroised (R255,
R256). -/
def execRngWaitExpiry (s : State) : Res :=
  match lateWaiter s with
  | none => .next s
  | some w => onlyIf (powered s && !inFault s) s (serveAll (unserved stRngNotSeeded false w s))

/-- REMASK: the slot whose turn it is, with its retained generation and its key-staging entries, gets fresh shares from 64
tender bytes, for which it waits; none while the source is declared failed (R208, R209, R256). -/
def execRemask (slot : Nat) (s : State) : Res :=
  let asked := s.rng.waiters.any (fun w => w.who == .remask slot)
  onlyIf (powered s && !inFault s && s.rng.state != .failed && nextRemask s == some slot && !asked) s (ask (.remask slot) 64 s)

/-- MASK_RESERVE_REFILL: one mask of 64 bytes that no waiting consumer needs joins the reserve of 256 (R209, R254). -/
def execMaskReserveRefill (s : State) : Res :=
  match tenderTake 64 s with
  | none => .next s
  | some (b, t) =>
    onlyIf (powered s && !inFault s && s.rng.waiters.isEmpty && s.kst.masks.length < 256) s
      (updKst (fun k => { k with masks := k.masks ++ [leNat b] }) t)

/-- RANDOM_BYTES: LENGTH tender bytes, asked for at its admission, to the destination (R254, R257). -/
def execRandomBytes (tag : Nat) (s : State) : Res :=
  let c := carrOf s tag
  let n := eLength c.entry
  onlyIf (isAt s tag 0x13 .admitted && !c.rngWait && c.rnd.length == n) s
    (done tag stDone n (writeBuffer tag 0 c.rnd (begin_ tag s)))

end Sys2Proof.Machine
end

