-- ==== Sys2Proof/Machine/Lattice.lean ====
section
/-! DEFINITION. The managers' lattice commands and the trust anchors (R259-R262, R266, R268). -/
namespace Sys2Proof.Machine

/-- A device write to a manager's memory through port `p`: no PASID, Relaxed Ordering as the port permits (R52). -/
def portWrite (p : Port) (addr : Nat) (data : Bytes) (s : State) : State :=
  dmaWriteMps p none (s.stats.get p).cfg.roEn addr data s

/-- A 64-bit address of two register halves. -/
def addr64 (lo hi : Nat) : Nat := lo + hi * 2 ^ 32

/-- The bytes of ML-KEM-1024 and ML-DSA-87 outputs (R261). -/
def ekLen : Nat := 1568
/-- An ML-DSA-87 public key. -/
def pkLen : Nat := 2592
/-- An ML-DSA-87 signature. -/
def sigLen : Nat := 4627

/-- Steps 6 to 9 of a handle, as on a manager ring (R262, R276); 0 where all pass. -/
def handleCheck (s : State) (h : Nat) : Nat :=
  let x := slotOf s (hIndex h)
  if x.state == .free then stKeyNotFound
  else if hGen h != x.gen then stKeyGenStale
  else if x.state == .orphaned || (ownerOf s x.owner).state == .revoked then stParentRevoked
  else if x.state == .pending then stKeyErased
  else 0

/-- Steps 6 and 8 of an owner; 0 where both pass. -/
def ownerCheck (s : State) (o : Nat) : Nat :=
  match (ownerOf s o).state with
  | .absent => stKeyNotFound
  | .revoked => stParentRevoked
  | .active => 0

/-- The tender bytes of a lattice command (R260). -/
def latTender (op : Nat) : Nat :=
  match op with
  | 1 => 64
  | 2 | 4 => 32
  | _ => 0

/-- The bytes a lattice command puts out (R261). -/
def latOut (s : State) (b : LatBlk) : Nat :=
  match b.op with
  | 1 => ekLen
  | 2 => pkLen
  | 3 => if (slotOf s (hIndex b.handle)).mlen then ekLen else pkLen
  | _ => sigLen

/-- The length fields of a lattice command are in range (R261, R262). -/
def latLensOk (s : State) (b : LatBlk) : Bool :=
  (b.op != 4 || (b.ctxLen ≤ b.srcLen && b.srcLen ≤ b.ctxLen + 65536)) && latOut s b ≤ b.dstLen

/-- The slot of PUBKEY and SIGN permits its use (R261, R262). -/
def latSlotOk (s : State) (b : LatBlk) : Bool :=
  let x := slotOf s (hIndex b.handle)
  hSession b.handle == x.session && engLU x.engine.toNat && (b.op == 3 || (useENC x.usage.toNat && !x.mlen))

/-- The check of a lattice command at its GO (R262); 0 where it is accepted. -/
def latCheck (s : State) (b : LatBlk) : Nat :=
  if b.op == 0 || b.op > 4 then stFormatError
  else if b.op ≤ 2 then
    if !latLensOk s b then stFormatError else ownerCheck s b.owner
  else if b.op == 4 && !latLensOk s b then stFormatError
  else if handleCheck s b.handle != 0 then handleCheck s b.handle
  else if !latSlotOk s b then stKeyAttrDenied
  else if !latLensOk s b then stFormatError
  else 0

/-- A lattice request joins the queue in the order of its issue (R260). -/
def latEnqueue (q : LatReq) (s : State) : State := updLat (fun l => { l with queue := l.queue ++ [q] }) s

/-- LAT_GO of port `p` (R261, R262): the command is checked, its slot counted, its source requested and its tender
bytes asked for. -/
def latGo (p : Port) (s : State) : State :=
  let b := (s.win.get p).lat
  if b.busy then s
  else
    let e := latCheck s b
    if e != 0 then updWin p (fun w => { w with lat := { w.lat with status := e, result := 0 } }) s
    else
      let a := updLat (fun l => { l with run := l.run.set p b }) (updWin p (fun w => { w with lat := { w.lat with busy := true } }) s)
      let c := if b.op ≥ 3 then
          updLat (fun l => { l with slot := l.slot.set p (some (hIndex b.handle, hGen b.handle)) }) (useSlot (hIndex b.handle) a)
        else a
      let d := latEnqueue (.port p) (updLat (fun l => { l with
        src := l.src.set p (if b.op == 4 && b.srcLen != 0 then none else some []) }) c)
      let f := if b.op == 4 && b.srcLen != 0 then dmaRead (.lattice p) p none (addr64 b.srcLo b.srcHi) b.srcLen d else d
      if latTender b.op == 0 then f else ask (.lattice p) (latTender b.op) f

/-- A LAT_GO write whose OP is `op`. -/
def latRow (p : Port) (op : Nat) (s : State) : Res :=
  if wr p .lat s && (s.win.get p).lat.op == op then .next (latGo p (seqIf (!(s.win.get p).lat.busy) (legTouch p (cntWr p s)))) else .next s

/-- KEYGEN_KEM (R261). -/
def execKeygenKem (p : Port) (s : State) : Res := latRow p 1 s
/-- KEYGEN_DSA (R261). -/
def execKeygenDsa (p : Port) (s : State) : Res := latRow p 2 s
/-- PUBKEY (R261). -/
def execPubkey (p : Port) (s : State) : Res := latRow p 3 s
/-- SIGN (R261). -/
def execSign (p : Port) (s : State) : Res := latRow p 4 s

/-- LAT_ABORT: the port's command ends ABORTED without output (R266). -/
def execLatAbort (p : Port) (s : State) : Res :=
  if wr p .lat s then .next (reap stKeyErased (latEnd p stAborted 0 (seqIf (s.win.get p).lat.busy (legTouch p (cntWr p s))))) else .next s

/-- The material of a lattice slot as its seed (R259). -/
def seedOf (s : State) (x : Option (Nat × Nat)) (n : Nat) : Bytes :=
  match x with
  | some (i, g) => natLe n ((materialOf s i g).getD 0)
  | none => zeros n

/-- The bytes a port's lattice command puts out (R261); the algorithms are FIPS 203 and 204 (log entry 7). -/
def latOutput (p : Port) (s : State) : Bytes :=
  let b := s.lat.run.get p
  let rnd := s.lat.rnd.get p
  let src := (s.lat.src.get p).getD []
  let slot := s.lat.slot.get p
  match b.op with
  | 1 => padTo ekLen (mlkemEk rnd)
  | 2 => padTo pkLen (mldsaPk rnd)
  | 3 =>
    if (slotOf s (hIndex b.handle)).mlen then padTo ekLen (mlkemEk (seedOf s slot 64))
    else padTo pkLen (mldsaPk (seedOf s slot 32))
  | _ => padTo sigLen (mldsaSign (seedOf s slot 32) (src.take b.ctxLen) (src.drop b.ctxLen) rnd)

/-- A slot can be created in this scope: one is free and the slice's quota has room (R197, R261). -/
def canCreate (s : State) (scope : Nat) : Bool :=
  (pickFree s).isSome && (scope ≥ 2 ^ 13 || slotsOfSlice s scope < (sliceOf s scope).slotQuota)

/-- The lattice unit counts a completed operation (OPS_CNT). -/
def latCount (s : State) : State := updLat (fun l => { l with opsCnt := satInc 32 l.opsCnt }) s

/-- The command of port `p` completes: it writes its output, and a key generation creates its slot (R261). -/
def latComplete (p : Port) (s : State) : State :=
  let b := s.lat.run.get p
  let out := latOutput p s
  let a := latCount s
  if b.op ≤ 2 then
    match pickFree a with
    | some i =>
      if canCreate a b.scope then
        let m := s.lat.rnd.get p
        let c := allocSlot i
          { material := leNat m, mlen := b.op == 1, engine := 4 + 8 * b2n b.wx, usage := if b.op == 1 then 2 else 1
            owner := b.owner, scope := b.scope } (seqd a)
        latEnd p stDone (slotHandle c i) (portWrite p (addr64 b.dstLo b.dstHi) out c)
      else latEnd p stAccessDenied 0 a
    | none => latEnd p stAccessDenied 0 a
  else reap stKeyErased (latEnd p stDone out.length (portWrite p (addr64 b.dstLo b.dstHi) out a))

/-- The command of port `p` has its operands and its tender bytes. -/
def latReady (p : Port) (s : State) : Bool :=
  (s.win.get p).lat.busy && (s.lat.src.get p).isSome && (s.lat.rnd.get p).length == latTender (s.lat.run.get p).op

/-! ### Trust anchors -/

/-- The length suits the algorithm (R268). -/
def anchorLenOk (alg len : Nat) : Bool :=
  match alg with
  | 1 | 2 => 260 ≤ len && len ≤ 1028 && (len - 4) % 8 == 0
  | 3 => len == 65
  | 4 => len == 97
  | 5 => len == 133
  | 6 => len == 32
  | 7 => len == 57
  | 8 => len == 1952
  | 9 => len == 2592
  | _ => false

/-- The anchor block of port `p` changed by `f`. -/
def updAnc (p : Port) (f : AncBlk → AncBlk) (s : State) : State := updWin p (fun w => { w with anc := f w.anc }) s

/-- An ANC_CMD of port `p`; one written while ANC_BUSY is ignored. -/
def ancCmd (p : Port) (s : State) (f : AncBlk → State → State) : Res :=
  if !wr p .bnv s then .next s
  else
    let a := legTouch p (cntWr p s)
    let b := (a.win.get p).anc
    .next (if b.busy then a else f b (seqd a))

/-- ANC_LOAD: the key is read from host memory; it becomes VALID when the read is done (R268). -/
def execAncLoad (p : Port) (s : State) : Res :=
  ancCmd p s (fun b s =>
    if b.alg == 0 || b.alg > 9 then updAnc p (fun b => { b with result := 1 }) s
    else if !anchorLenOk b.alg b.len then updAnc p (fun b => { b with result := 2 }) s
    else
      let addr := addr64 b.addrLo b.addrHi
      dmaRead (.anchor p) p none addr b.len (updAnc p (fun b => { b with
        busy := true, pendIndex := b.index, pendAlg := b.alg, pendLen := b.len }) s))

/-- ANC_CLEAR: the anchor becomes invalid (R268). -/
def execAncClear (p : Port) (s : State) : Res :=
  ancCmd p s (fun b s =>
    updBnv (fun v => { v with anchors := tset {} v.anchors b.index {} }) (updAnc p (fun b => { b with result := 0 }) s))

end Sys2Proof.Machine
end

