-- ==== Sys2Proof/Machine/Curves.lean ====
section
/-! DEFINITION. Modular arithmetic, the prime curves P-256, P-384 and P-521 and ECDSA: the mathematics the big-number
verifier names (R270, R271); the curve constants are PRESUMED from FIPS 186 (log entry 6). -/
namespace Sys2Proof.Machine

/-- `b ^ e mod n` by squaring over `k` bits of the exponent. -/
def powModBits : Nat → Nat → Nat → Nat → Nat → Nat
  | 0, _, _, _, acc => acc
  | k + 1, b, e, n, acc => powModBits k (b * b % n) (e / 2) n (if e % 2 = 1 then acc * b % n else acc)

/-- The bit length of a number. -/
def bitLen (x : Nat) : Nat := if x = 0 then 0 else Nat.log2 x + 1

/-- The number of 1 bits of a number of at most `k` bits. -/
def popBits : Nat → Nat → Nat
  | 0, _ => 0
  | k + 1, x => x % 2 + popBits k (x / 2)

/-- popcount (R272). -/
def popCount (x : Nat) : Nat := popBits (bitLen x) x

/-- `b ^ e mod n`. -/
def powMod (b e n : Nat) : Nat := powModBits (bitLen e) (b % n) e n (1 % n)

/-- A curve y² = x³ - 3x + b over a prime field, its base point and group order. -/
structure Curve where
  p : Nat
  b : Nat
  gx : Nat
  gy : Nat
  n : Nat
  words : Nat
  bytes : Nat
deriving DecidableEq, Repr

/-- P-256. -/
def p256 : Curve :=
  { p := 0xffffffff00000001000000000000000000000000ffffffffffffffffffffffff
    b := 0x5ac635d8aa3a93e7b3ebbd55769886bc651d06b0cc53b0f63bce3c3e27d2604b
    gx := 0x6b17d1f2e12c4247f8bce6e563a440f277037d812deb33a0f4a13945d898c296
    gy := 0x4fe342e2fe1a7f9b8ee7eb4a7c0f9e162bce33576b315ececbb6406837bf51f5
    n := 0xffffffff00000000ffffffffffffffffbce6faada7179e84f3b9cac2fc632551
    words := 4, bytes := 32 }

/-- P-384. -/
def p384 : Curve :=
  { p := 0xfffffffffffffffffffffffffffffffffffffffffffffffffffffffffffffffeffffffff0000000000000000ffffffff
    b := 0xb3312fa7e23ee7e4988e056be3f82d19181d9c6efe8141120314088f5013875ac656398d8a2ed19d2a85c8edd3ec2aef
    gx := 0xaa87ca22be8b05378eb1c71ef320ad746e1d3b628ba79b9859f741e082542a385502f25dbf55296c3a545e3872760ab7
    gy := 0x3617de4a96262c6f5d9e98bf9292dc29f8f41dbd289a147ce9da3113b5f0b8c00a60b1ce1d7e819d7a431d7c90ea0e5f
    n := 0xffffffffffffffffffffffffffffffffffffffffffffffffc7634d81f4372ddf581a0db248b0a77aecec196accc52973
    words := 6, bytes := 48 }

/-- P-521. -/
def p521 : Curve :=
  { p := 2 ^ 521 - 1
    b := 0x0051953eb9618e1c9a1f929a21a0b68540eea2da725b99b315f3b8b489918ef109e156193951ec7e937b1652c0bd3bb1bf073573df883d2c34f1ef451fd46b503f00
    gx := 0x00c6858e06b70404e9cd9e3ecb662395b4429c648139053fb521f828af606b4d3dbaa14b5e77efe75928fe1dc127a2ffa8de3348b3c1856a429bf97e7e31c2e5bd66
    gy := 0x011839296a789a3bc0045c8a5fb42c7d1bd998f54449579b446817afbd17273e662c97ee72995ef42640c550b9013fad0761353c7086a272c24088be94769fd16650
    n := 0x01fffffffffffffffffffffffffffffffffffffffffffffffffffffffffffffffffa51868783bf2f966b7fcc0148f709a5d03bb5c9b8899c47aebb6fb71e91386409
    words := 9, bytes := 66 }

/-- The curve of a CURVE code (BNV_P_CMD0). -/
def curveOf (code : Nat) : Option Curve :=
  match code with
  | 1 => some p256
  | 2 => some p384
  | 3 => some p521
  | _ => none

/-- A point is affine; (0, 0) encodes the identity (R270). -/
abbrev Point := Nat × Nat

/-- The point is on the curve. -/
def onCurve (c : Curve) (q : Point) : Bool :=
  q.1 < c.p && q.2 < c.p && q.2 * q.2 % c.p == (q.1 * q.1 * q.1 + c.b + 3 * (c.p - q.1)) % c.p

/-- The sum of two points that are on the curve or the identity. -/
def ecAdd (c : Curve) (q r : Point) : Point :=
  if q == (0, 0) then r
  else if r == (0, 0) then q
  else
    let inv (x : Nat) : Nat := powMod x (c.p - 2) c.p
    let third (l : Nat) : Point :=
      let x := (l * l + 2 * c.p - q.1 - r.1) % c.p
      (x, (l * (q.1 + c.p - x) + c.p - q.2) % c.p)
    if q.1 == r.1 then
      if (q.2 + r.2) % c.p == 0 then (0, 0)
      else third ((3 * q.1 * q.1 + c.p - 3) * inv (2 * q.2) % c.p)
    else third ((r.2 + c.p - q.2) * inv (r.1 + c.p - q.1) % c.p)

/-- Double and add over `k` bits of the scalar. -/
def ecMulBits (c : Curve) : Nat → Nat → Point → Point → Point
  | 0, _, _, acc => acc
  | k + 1, x, q, acc => ecMulBits c k (x / 2) (ecAdd c q q) (if x % 2 = 1 then ecAdd c acc q else acc)

/-- The multiple `x`·q of a point. -/
def ecMul (c : Curve) (x : Nat) (q : Point) : Point := ecMulBits c (bitLen x) x q (0, 0)

/-- The ECDSA equation of a signature in range over a digest. -/
def ecdsaOk (c : Curve) (q : Point) (digest : Bytes) (r s : Nat) : Bool :=
  let z := beNat digest
  let e := if 8 * digest.length > bitLen c.n then z / 2 ^ (8 * digest.length - bitLen c.n) else z
  let w := powMod s (c.n - 2) c.n
  let t := ecAdd c (ecMul c (e * w % c.n) (c.gx, c.gy)) (ecMul c (r * w % c.n) q)
  t != (0, 0) && t.1 % c.n == r

end Sys2Proof.Machine
end

