-- ==== Sys2Proof/Machine/Sigs.lean ====
section
/-! DEFINITION. RSA and EdDSA verification, which the big-number verifier performs (R116, R269, R271): RSASSA-PKCS1-v1_5 and
RSASSA-PSS with MGF1 of the same hash (RFC 8017), Ed25519 and Ed448 (RFC 8032). The standards are outside the spec: their
arithmetic here is PRESUMED (log entry 7). -/
namespace Sys2Proof.Machine

/-! ### RSA -/

/-- The hash that HASH names (R269). -/
def hashOf (h : Nat) (msg : Bytes) : Bytes :=
  match h with
  | 1 => sha256 msg
  | 2 => sha384 msg
  | _ => sha512 msg

/-- The digest length that HASH names. -/
def hashLen (h : Nat) : Nat :=
  match h with
  | 1 => 32
  | 2 => 48
  | 3 => 64
  | _ => 0

/-- The DER prefix of a DigestInfo. -/
def digestPrefix (h : Nat) : Bytes :=
  let n := hashLen h
  [0x30, BitVec.ofNat 8 (n + 17), 0x30, 0x0D, 0x06, 0x09, 0x60, 0x86, 0x48, 0x01, 0x65, 0x03, 0x04, 0x02, BitVec.ofNat 8 h, 0x05,
   0x00, 0x04, BitVec.ofNat 8 n]

/-- MGF1 over a hash: `n` bytes of mask. -/
def mgf1 (h : Nat) (seed : Bytes) (n : Nat) : Bytes :=
  ((List.range (ceilDiv n (hashLen h))).flatMap (fun i => hashOf h (seed ++ natBe 4 i))).take n

/-- The encoded message of `k` bytes is the PKCS #1 v1.5 encoding of a digest. -/
def pkcs1Ok (h k : Nat) (digest em : Bytes) : Bool :=
  let t := digestPrefix h ++ digest
  t.length + 11 ≤ k && em == [0, 1] ++ List.replicate (k - t.length - 3) 0xFF ++ [0] ++ t

/-- The encoded message of `k` bytes, its top bit clear, is a PSS encoding of a digest with a salt of `salt` bytes. -/
def pssOk (h salt k : Nat) (digest em : Bytes) : Bool :=
  let n := hashLen h
  let masked := em.take (k - n - 1)
  let x := sub em (k - n - 1) n
  let db := xorBytes masked (mgf1 h x (k - n - 1))
  let db := (db.headD 0 &&& 0x7F) :: db.drop 1
  n + salt + 2 ≤ k && em.getLast? == some 0xBC && masked.headD 0 &&& 0x80 == 0 &&
    allZero (db.take (k - n - salt - 2)) && db.getD (k - n - salt - 2) 0 == 1 &&
    hashOf h (zeros 8 ++ digest ++ db.drop (k - n - salt - 1)) == x

/-- An RSA signature's equation and encoding hold: R116's number, HASH, salt length, e, n, digest, signature (R271). -/
@[irreducible] def rsaVerify (alg h salt e n : Nat) (digest : Bytes) (sig : Nat) : Bool :=
  let k := ceilDiv (bitLen n) 8
  let em := natBe k (powMod sig e n)
  if alg == 1 then pkcs1Ok h k digest em else pssOk h salt k digest em

/-! ### EdDSA -/

/-- An Edwards curve a·x² + y² = 1 + d·x²y², with its group order, the cofactor and the bytes of a point. -/
structure EdCurve where
  p : Nat
  a : Nat
  d : Nat
  order : Nat
  cofactor : Nat
  bytes : Nat
deriving DecidableEq, Repr

/-- The inverse modulo a prime. -/
def invMod (p x : Nat) : Nat := powMod x (p - 2) p

/-- Ed25519. -/
def ed25519 : EdCurve :=
  let p := 2 ^ 255 - 19
  { p := p, a := p - 1, d := (p - 121665) * invMod p 121666 % p, order := 2 ^ 252 + 27742317777372353535851937790883648493
    cofactor := 8, bytes := 32 }

/-- Ed448. -/
def ed448 : EdCurve :=
  let p := 2 ^ 448 - 2 ^ 224 - 1
  { p := p, a := 1, d := p - 39081, cofactor := 4, bytes := 57
    order := 2 ^ 446 - 13818066809895115352007386748515426880336692474882178609894547503885 }

/-- The curve of R116's number 6 or 7. -/
def edCurve (alg : Nat) : EdCurve := if alg == 6 then ed25519 else ed448

/-- A square root modulo p, where there is one: p is 5 modulo 8, or 3 modulo 4. -/
def sqrtMod (p x : Nat) : Option Nat :=
  let r := if p % 4 == 3 then powMod x ((p + 1) / 4) p else powMod x ((p + 3) / 8) p
  let q := r * powMod 2 ((p - 1) / 4) p % p
  if r * r % p == x % p then some r else if p % 8 == 5 && q * q % p == x % p then some q else none

/-- The point of a y coordinate and the low bit of x. -/
def edPoint (c : EdCurve) (y sign : Nat) : Option Point :=
  let u := (y * y + c.p - 1) % c.p
  let v := (c.d * (y * y % c.p) + c.p - c.a) % c.p
  if y ≥ c.p then none
  else
    match sqrtMod c.p (u * invMod c.p v % c.p) with
    | none => none
    | some x => if x == 0 && sign == 1 then none else some (if x % 2 == sign then x else c.p - x, y)

/-- A point decoded (RFC 8032). -/
def edDecode (c : EdCurve) (b : Bytes) : Option Point :=
  let w := leNat b
  let top := 2 ^ (8 * c.bytes - 1)
  if b.length == c.bytes then edPoint c (w % top) (w / top) else none

/-- The sum of two points. -/
def edAdd (c : EdCurve) (p q : Point) : Point :=
  let t := c.d * (p.1 * q.1 % c.p * (p.2 * q.2 % c.p) % c.p) % c.p
  ((p.1 * q.2 + q.1 * p.2) % c.p * invMod c.p (1 + t) % c.p,
   (p.2 * q.2 + (c.p - c.a) * (p.1 * q.1 % c.p)) % c.p * invMod c.p (1 + c.p - t) % c.p)

/-- Double and add over `k` bits of the scalar. -/
def edMulBits (c : EdCurve) : Nat → Nat → Point → Point → Point
  | 0, _, _, acc => acc
  | k + 1, x, q, acc => edMulBits c k (x / 2) (edAdd c q q) (if x % 2 = 1 then edAdd c acc q else acc)

/-- A multiple of a point. -/
def edMul (c : EdCurve) (x : Nat) (q : Point) : Point := edMulBits c (bitLen x) x q (0, 1)

/-- The base point: y = 4/5 and x even for Ed25519, and RFC 8032's for Ed448. -/
def edBase (alg : Nat) : Point :=
  if alg == 6 then (edPoint ed25519 (4 * invMod ed25519.p 5 % ed25519.p) 0).getD (0, 1)
  else
    (224580040295924300187604334099896036246789641632564134246125461686950415467406032909029192869357953282578032075146446173674602635247710,
     298819210078481492676017930443930673437544040154080242095928241372331506189835876003536878655418784733982303233503462500531545062832660)

/-- The hash of R, key and message as a scalar: SHA-512 for Ed25519, SHAKE256 under dom4 with the context for Ed448. -/
def edHash (alg : Nat) (ctx r key msg : Bytes) : Nat :=
  if alg == 6 then leNat (sha512 (r ++ key ++ msg))
  else leNat (shake256 ([0x53, 0x69, 0x67, 0x45, 0x64, 0x34, 0x34, 0x38, 0] ++ natLe 1 ctx.length ++ ctx ++ r ++ key ++ msg) 114)

/-- An EdDSA public key is decodable and not of small order (R271). -/
@[irreducible] def edKeyOk (alg : Nat) (key : Bytes) : Bool :=
  let c := edCurve alg
  match edDecode c key with
  | some a => edMul c c.cofactor a != (0, 1)
  | none => false

/-- The R of an EdDSA signature is decodable (R271). -/
@[irreducible] def edROk (alg : Nat) (r : Bytes) : Bool := (edDecode (edCurve alg) r).isSome

/-- An EdDSA signature's equation holds, both sides times the cofactor: R116's number, key, context, message, signature
(log entry 7). -/
@[irreducible] def edVerify (alg : Nat) (key ctx msg sig : Bytes) : Bool :=
  let c := edCurve alg
  let n := c.bytes
  match edDecode c key, edDecode c (sig.take n) with
  | some a, some r =>
    let h := edHash alg ctx (sig.take n) key msg % c.order
    edMul c c.cofactor (edMul c (leNat (sig.drop n)) (edBase alg)) == edMul c c.cofactor (edAdd c r (edMul c h a))
  | _, _ => false

end Sys2Proof.Machine
end

