-- ==== Sys2Proof/Machine/Verifier.lean ====
section
/-! DEFINITION. The big-number verifier: privileged channels, signature records and their edge inputs (R267, R269-R273). -/
namespace Sys2Proof.Machine

/-! ### Privileged channels -/

/-- Port `p`'s channel, 6 or 7. -/
def chanOf (s : State) (p : Port) : BnvChan := s.bnv.priv.get p

/-- Port `p`'s channel changed by `f`. -/
def updChan (p : Port) (f : BnvChan → BnvChan) (s : State) : State := updBnv (fun v => { v with priv := v.priv.upd p f }) s

/-- The integer in the first 8 × `len` bytes of operand slot `j` (R270). -/
def bnSlot (c : BnvChan) (j len : Nat) : Nat :=
  leNat ((List.range (8 * len)).map (fun i => tget 0 c.mem (j * 1024 + i)))

/-- The integer stored there. -/
def bnStore (j len x : Nat) (c : BnvChan) : BnvChan :=
  { c with mem := ((natLe (8 * len) x).zipIdx).foldl (fun m b => tset 0 m (j * 1024 + b.2) b.1) c.mem }

/-- CMD1's slots: SA, SB, SN, SR (12 BNV table). -/
def slotSA (w : Nat) : Nat := bits w 0 6
/-- SB. -/
def slotSB (w : Nat) : Nat := bits w 8 6
/-- SN. -/
def slotSN (w : Nat) : Nat := bits w 16 6
/-- SR. -/
def slotSR (w : Nat) : Nat := bits w 24 6

/-- The form of a raw command (R270). -/
def rawOk (op curve len w : Nat) : Bool :=
  4 ≤ len && len ≤ 128 &&
  (match op with
   | 1 | 2 => true
   | 3 | 4 =>
     (match curveOf curve with
      | some c => len == c.words
      | none => false) && slotSN w == 0 && slotSB w < 63 && slotSR w < 63 && (op == 4 || slotSA w < 63)
   | _ => false)

/-- The point of two neighbouring slots. -/
def bnPoint (c : BnvChan) (j len : Nat) : Point := (bnSlot c j len, bnSlot c (j + 1) len)

/-- The operands of a raw operation. -/
def rawOperands (c : BnvChan) (op len w : Nat) : List Nat :=
  let a := bnSlot c (slotSA w) len
  let b := bnSlot c (slotSB w) len
  match op with
  | 1 | 2 => [a, b, bnSlot c (slotSN w) len]
  | 3 => [a, bnSlot c (slotSA w + 1) len, b, bnSlot c (slotSB w + 1) len]
  | _ => [a, b, bnSlot c (slotSB w + 1) len]

/-- The reason validation fails, 0 where it passes (R271). -/
def rawFault (c : BnvChan) (op curve len w : Nat) : Nat :=
  let a := bnSlot c (slotSA w) len
  let b := bnSlot c (slotSB w) len
  match op with
  | 1 | 2 =>
    let n := bnSlot c (slotSN w) len
    if n % 2 == 0 || n < 3 then 3 else if a ≥ n || b ≥ n then 1 else 0
  | _ =>
    match curveOf curve with
    | none => 3
    | some k =>
      let p := bnPoint c (slotSA w) len
      let q := bnPoint c (slotSB w) len
      let far (x : Point) : Bool := x.1 ≥ k.p || x.2 ≥ k.p
      let off (x : Point) : Bool := x != (0, 0) && !onCurve k x
      if far q || (if op == 3 then far p else a ≥ k.n) then 1
      else if off q || (op == 3 && off p) then 2
      else 0

/-- Validation time in ns (R271). -/
def rawCheckNs (c : BnvChan) (op len w : Nat) : Nat :=
  if (rawOperands c op len w).all (fun x => bitLen x ≤ 521) then 2000 else 8000

/-- t_mm in fifths of a ns (R272). -/
def tMm (len : Nat) : Nat := 500 + 24 * len * len

/-- t_dbl and t_add of a curve in ns (R272). -/
def curveNs (curve : Nat) : Nat × Nat :=
  match curve with
  | 1 => (550, 650)
  | 2 => (1000, 1200)
  | _ => (1900, 2300)

/-- Arithmetic time in fifths of a ns (R272). -/
def rawNs (c : BnvChan) (op curve len w : Nat) : Nat :=
  let a := bnSlot c (slotSA w) len
  let b := bnSlot c (slotSB w) len
  match op with
  | 1 => 3 * tMm len
  | 2 => max 2 (bitLen b + popCount b) * tMm len
  | 3 => 5 * (curveNs curve).2
  | _ =>
    if a == 0 || bnPoint c (slotSB w) len == (0, 0) then 0
    else 5 * ((bitLen a - 1) * (curveNs curve).1 + (popCount a - 1) * (curveNs curve).2)

/-- The result of a raw operation stored (R270). -/
def rawStore (c : BnvChan) (op curve len w : Nat) : BnvChan :=
  let a := bnSlot c (slotSA w) len
  let b := bnSlot c (slotSB w) len
  let n := bnSlot c (slotSN w) len
  let r := slotSR w
  match op with
  | 1 => bnStore r len (a * b % n) c
  | 2 => bnStore r len (powMod a b n) c
  | _ =>
    match curveOf curve with
    | none => c
    | some k =>
      let q := bnPoint c (slotSB w) len
      let x := if op == 3 then ecAdd k (bnPoint c (slotSA w) len) q else ecMul k a q
      bnStore (r + 1) len x.2 (bnStore r len x.1 c)

/-- GO on port `p`'s channel: a badly formed command ends at once with FORMAT_ERROR (R270). -/
def chanGo (p : Port) (s : State) : State :=
  let c := chanOf s p
  if c.busy then s
  else if !rawOk c.op c.curve c.len c.slots then updChan p (fun c => { c with status := stFormatError, reason := 0 }) s
  else updChan p (fun c => { c with busy := true, pend := some (c.op, c.curve, c.len, c.slots) }) s

/-- A GO write whose OP is `op`. -/
def chanRow (p : Port) (op : Nat) (s : State) : Res :=
  if wr p .bnv s && (chanOf s p).op == op then .next (chanGo p (seqIf (!(chanOf s p).busy) (legTouch p (cntWr p s)))) else .next s

/-- MODMUL (R270). -/
def execModmul (p : Port) (s : State) : Res := chanRow p 1 s
/-- MODEXP (R270). -/
def execModexp (p : Port) (s : State) : Res := chanRow p 2 s
/-- ECADD (R270). -/
def execEcadd (p : Port) (s : State) : Res := chanRow p 3 s
/-- ECMUL (R270). -/
def execEcmul (p : Port) (s : State) : Res := chanRow p 4 s

/-- Port `p`'s channel zeroised; a running operation ends with the status (R273). -/
def chanZeroise (p : Port) (status : Nat) (s : State) : State :=
  updChan p (fun c => { c with
    mem := [], pend := none, busy := false, status := if c.busy then status else c.status
    reason := if c.busy then 0 else c.reason }) s

/-- BNV_ABORT: a running operation is aborted and the channel's operand memory zeroised (R273). -/
def execBnvAbort (p : Port) (s : State) : Res :=
  if !wr p .bnv s then .next s
  else
    let a := legTouch p (cntWr p s)
    .next (if (chanOf a p).busy then chanZeroise p stAborted (seqd a) else a)

/-- A duration in ns within 2 % plus 0.1 µs of its formula, `t` fifths of a ns (R272); which, the spec leaves open (log
entry 4). -/
def nearNs (t : Nat) (s : State) : Nat :=
  let low := ceilDiv (49 * t - min (49 * t) 25000) 250
  let high := (51 * t + 25000) / 250
  if t == 0 then 0 else low + drawn s % (high + 1 - low)

/-- The privileged operation of port `p` completes (R270-R272). -/
def chanDone (p : Port) (s : State) : State :=
  let c := chanOf s p
  match c.pend with
  | none => s
  | some (op, curve, len, w) =>
    let chk := rawCheckNs c op len w
    let f := rawFault c op curve len w
    let a := draw s
    if f != 0 then
      updChan p (fun c => { c with busy := false, pend := none, status := stVerifyBadInput, reason := f, time := chk }) s
    else
      updChan p (fun c => { rawStore c op curve len w with
        busy := false, pend := none, status := stDone, reason := 0, time := chk + nearNs (rawNs c op curve len w) s }) a

/-- The bytes a BAR4 access of `n` bytes at `off` of a channel's memory reads. -/
def chanRead (c : BnvChan) (off n : Nat) : Bytes := (List.range n).map (fun i => tget 0 c.mem (off + i))

/-- The bytes that a read's byte enables ask for; the others are shown as 0 (R400, R415). -/
def askedBytes (enables : List Bool) (b : Bytes) : Bytes := (enables.zip b).map (fun x => if x.1 then x.2 else 0)

/-- The enabled bytes of a write put into an operand memory from offset `o` on (R415). -/
def putOperand (o : Nat) (b : List (Option Byte)) (m : Tbl Byte) : Tbl Byte :=
  (b.zipIdx).foldl (fun m x => match x.1 with
    | some v => tset 0 m (o + x.2) v
    | none => m) m

/-- OPERAND_ACCESS: a BAR4 access to an operand memory of up to 128 bytes, with any byte enables: the requester's own channel
only; a busy channel reads 0 or discards, and counts; where BAR4 does not answer a read is 0 (R51, R270, R406, R415). -/
def execOperandAccess (p : Port) (off : Nat) (enables : List Bool) (write : Option (List (Option Byte))) (s : State) : Res :=
  let home := if off < 0x10000 then Port.a else Port.b
  let o := off % 0x10000
  let n := match write with
    | some b => b.length
    | none => enables.length
  if !reach p s || off ≥ 0x20000 || n > 128 || n == 0 || o + n > 0x10000 then .next s
  else if !blkAnswers .bar4 s then .next (if write.isNone then emit (.answerBytes p (zeros n)) s else s)
  else if home != p then
    let a := if inFault s then s else updHpt p (fun h => { h with discardCnt := satInc 32 h.discardCnt }) s
    .next (if write.isNone then emit (.answerBytes p (zeros n)) a else a)
  else
    let c := chanOf s p
    let clash := updChan p (fun c => { c with conflict := satInc 16 c.conflict }) s
    match write with
    | none =>
      .next (if inFault s then emit (.answerBytes p (zeros n)) s
        else if c.busy then emit (.answerBytes p (zeros n)) clash
        else emit (.answerBytes p (askedBytes enables (chanRead c o n))) s)
    | some b =>
      .next (if inFault s then s
        else if c.busy then clash
        else updChan p (fun c => { c with mem := putOperand o b c.mem }) s)

/-! ### Signature records (R269, R271) -/

/-- The parts of a verification record (R269). -/
structure VerRec where
  msgLen : Nat
  sigLen : Nat
  hash : Nat
  param : Nat
  ctx : Bytes
  msg : Bytes
  sig : Bytes
  ok : Bool
deriving DecidableEq, Repr

/-- The record read; `ok` where its lengths and reserved bytes hold (R269). -/
def verRec (alg : Nat) (b : Bytes) : VerRec :=
  let m := fld b 0 4
  let n := fld b 4 2
  let p := fld b 7 1
  let c := if alg ≥ 7 then p else 0
  { msgLen := m, sigLen := n, hash := fld b 6 1, param := p
    ctx := sub b 16 c, msg := sub b (16 + c) m, sig := sub b (16 + c + m) n
    ok := m ≤ 65536 && b.length == 16 + c + m + n && fld b 8 8 == 0 }

/-- The curve of an ECDSA algorithm. -/
def verCurve (alg : Nat) : Curve := if alg == 3 then p256 else if alg == 4 then p384 else p521

/-- The signature length of an algorithm; `k` is the RSA modulus length. -/
def verSigLen (alg k : Nat) : Nat :=
  match alg with
  | 1 | 2 => k
  | 3 | 4 | 5 => 2 * (verCurve alg).bytes
  | 6 => 64
  | 7 => 114
  | 8 => 3309
  | _ => 4627

/-- The record suits its algorithm (R269, R271 row 1). -/
def verForm (alg k : Nat) (r : VerRec) : Bool :=
  r.ok && r.sigLen == verSigLen alg k &&
  (if alg ≤ 5 then 1 ≤ r.hash && r.hash ≤ 3 && r.msgLen == hashLen r.hash && (alg == 2 || r.param == 0)
   else r.hash == 0 && (alg != 6 || r.param == 0))

/-- The outcome of a verification: status and reason (R271). -/
def verifyOutcome (alg : Nat) (key rec : Bytes) : Nat × Nat :=
  let k := key.length - 4
  let r := verRec alg rec
  if !verForm alg k r then (stVerifyBadInput, 3)
  else if alg ≤ 2 then
    let e := beNat (key.take 4)
    let n := beNat (key.drop 4)
    let s := beNat r.sig
    if n % 2 == 0 || n < 2 ^ (8 * k - 1) || e % 2 == 0 || e < 3 || e ≥ n then (stVerifyBadKey, 3)
    else if s == 0 || s ≥ n then (stVerifyReject, 1)
    else if rsaVerify alg r.hash r.param e n r.msg s then (stDone, 0) else (stVerifyReject, 4)
  else if alg ≤ 5 then
    let c := verCurve alg
    let q : Point := (beNat (sub key 1 c.bytes), beNat (sub key (1 + c.bytes) c.bytes))
    let a := beNat (r.sig.take c.bytes)
    let b := beNat (r.sig.drop c.bytes)
    if key.take 1 != [0x04] || q == (0, 0) || !onCurve c q then (stVerifyBadKey, 2)
    else if a == 0 || a ≥ c.n || b == 0 || b ≥ c.n then (stVerifyReject, 1)
    else if ecdsaOk c q r.msg a b then (stDone, 0) else (stVerifyReject, 4)
  else if alg ≤ 7 then
    let half := r.sig.length / 2
    let v := leNat (r.sig.drop half)
    if !edKeyOk alg key then (stVerifyBadKey, 2)
    else if v == 0 || v ≥ (edCurve alg).order then (stVerifyReject, 1)
    else if !edROk alg (r.sig.take half) then (stVerifyReject, 3)
    else if edVerify alg key r.ctx r.msg r.sig then (stDone, 0) else (stVerifyReject, 4)
  else if !mldsaHintOk alg r.sig then (stVerifyReject, 3)
  else if mldsaVerify alg key r.ctx r.msg r.sig then (stDone, 0) else (stVerifyReject, 4)

/-! ### Channels 0 to 5 -/

/-- The lowest free channel of 0 to 5. -/
def freeChan (s : State) : Option Nat := firstBelow 6 (fun c => (tget none s.bnv.chans c).isNone)

/-- Waiting operations go to free channels in queue order (R267). -/
def assignChans : Nat → State → State
  | 0, s => s
  | k + 1, s =>
    match s.bnv.queue, freeChan s with
    | t :: ts, some c => assignChans k (updBnv (fun v => { v with queue := ts, chans := tput v.chans c (some t) }) s)
    | _, _ => s

/-- A carriage's operation put into the queue in admission-CSN order (R267). -/
def insertBnv (s : State) (t : Nat) : List Nat → List Nat
  | [] => [t]
  | u :: us => if (carrOf s t).admCsn < (carrOf s u).admCsn then t :: u :: us else u :: insertBnv s t us

/-- A carriage's operation joins the queue of channels 0 to 5. -/
def bnvEnqueue (t : Nat) (s : State) : State := assignChans 6 (updBnv (fun v => { v with queue := insertBnv s t v.queue }) s)

/-- A carriage's lattice request: the queue is in the order of issue (R260). -/
def latCarriage (t : Nat) (s : State) : State := latEnqueue (.carriage t) s

/-- A verification is counted (VERIFY_CNT, REJECT_CNT). -/
def countVerify (status : Nat) (s : State) : State :=
  updBnv (fun v => { v with
    verifyCnt := satInc 32 v.verifyCnt
    rejectCnt := if status == stDone then v.rejectCnt else satInc 32 v.rejectCnt }) s

/-- A VERIFY_SIGNATURE carriage completes with its outcome (R269, R271, R123). -/
def finishVerify (t : Nat) (s : State) : State :=
  let c := carrOf s t
  let o := verifyOutcome (fld c.entry 48 1) (tget {} s.bnv.anchorOf t).key (c.record.getD [])
  assignChans 6 (done t o.1 o.2 (if fld c.entry 48 1 < 8 then countVerify o.1 s else s))

/-- An engine has done its part for the carriage: a VERIFY_SIGNATURE completes, any other goes on at its own row. -/
def engineDone (t : Nat) (s : State) : State :=
  let op := eOp (carrOf s t).entry
  if op == 0x40 then finishVerify t s
  else if op == 0x30 || op == 0x31 then updCarr t (fun c => { c with sigs := c.sigs.map (· - 1) }) s
  else updCarr t (fun c => { c with aux := 1 }) s

/-- VERIFY_SIGNATURE: the record is read whole, then checked by the engine of its algorithm (R116, R267, R269). -/
def execVerifySignature (tag : Nat) (s : State) : Res :=
  let c := carrOf s tag
  if !(live s && eOp c.entry == 0x40) then .next s
  else if c.stage == .admitted then
    .next (readBuffer (.record tag) tag 0 (eLength c.entry) (updCarr tag (fun c => { c with stage := .running }) s))
  else if c.stage == .running && c.record.isSome && !c.started then
    let a := updCarr tag (fun c => { c with started := true }) s
    .next (if fld c.entry 48 1 ≥ 8 then latCarriage tag a else bnvEnqueue tag a)
  else .next s

/-- BNV_OP_DONE: the operation of a channel completes (R267, R272). -/
def execBnvOpDone (channel : Nat) (s : State) : Res :=
  if !(powered s && !inFault s) then .next s
  else if channel == 6 then .next (chanDone .a s)
  else if channel == 7 then .next (chanDone .b s)
  else
    match tget none s.bnv.chans channel with
    | none => .next (assignChans 6 s)
    | some t => .next (assignChans 6 (engineDone t (updBnv (fun v => { v with chans := tset none v.chans channel none }) s)))

end Sys2Proof.Machine
end

