-- ==== Sys2Proof/Machine/Utility.lean ====
section
/-! DEFINITION. The utility cipher: its lock and its operations (R274-R276). -/
namespace Sys2Proof.Machine

/-- The holder's code in a grant (R274). -/
def userCode : UcpUser → Nat
  | .port .a => 1
  | .port .b => 2
  | .secure => 3

/-- The user can reach the utility cipher. -/
def ucpReach (u : UcpUser) (s : State) : Bool :=
  match u with
  | .port p => wr p .ucp s
  | .secure => live s && s.wld.secure.state == .running

/-- An answer to a port's read; the secure world reads inside the device. -/
def ucpAnswer (u : UcpUser) (v : Nat) (s : State) : State :=
  match u with
  | .port p => answer p v (cntRd p s)
  | .secure => s

/-- A write of a port counted; the secure world's writes leave no trace outside. -/
def ucpWrote (u : UcpUser) (s : State) : State :=
  match u with
  | .port p => legTouch p (cntWr p s)
  | .secure => s

/-- The CSN of a port's write that changes state (R25). -/
def ucpSeq (u : UcpUser) (s : State) : State :=
  match u with
  | .port _ => seqd s
  | .secure => s

/-- The engine and the command registers zeroised at every release (R275). -/
def ucpClear (forced : Bool) (s : State) : State :=
  updUcp (fun u => { u with
    holder := none, forced := forced, op := 0, handle := 0, srcLo := 0, srcHi := 0, srcLen := 0, aadLo := 0, aadHi := 0
    aadLen := 0, dstLo := 0, dstHi := 0, dstLen := 0, iv := zeros 12, tag := zeros 16, idleFrom := 0
    src := none, aad := none }) s

/-- The lock released by force; a running operation ends with the status (R275). -/
def ucpForce (status : Nat) (s : State) : State :=
  if s.ucp.holder.isNone then s else seqd (ucpClear true (ucpEnd status 0 s))

/-- UCP_LOCK_ACQUIRE: a read of UCP_LOCK takes the free lock (R274). -/
def execUcpLockAcquire (u : UcpUser) (s : State) : Res :=
  if !ucpReach u s then
    match u with
    | .port p => .next (if reach p s then answer p 0 (cntRd p s) else s)
    | .secure => .next s
  else
    match s.ucp.holder with
    | none =>
      let a := seqd (updUcp (fun c => { c with
        holder := some u, ticket := ticketNext c.ticket, waiter := false, forced := false, idleFrom := s.now }) s)
      .next (ucpAnswer u (2 ^ 31 + userCode u * 2 ^ 29 + a.ucp.ticket) a)
    | some h => .next (ucpAnswer u 0 (if h == u then s else updUcp (fun c => { c with waiter := true }) s))

/-- UCP_LOCK_RELEASE: the holder's ticket written to UCP_LOCK while no operation runs (R274). -/
def execUcpLockRelease (u : UcpUser) (value : Nat) (s : State) : Res :=
  if !ucpReach u s then .next s
  else
    let a := ucpWrote u s
    if s.ucp.holder == some u && value % 2 ^ 16 == s.ucp.ticket && !s.ucp.busy then .next (ucpClear false (ucpSeq u a))
    else .next (updUcp (fun c => { c with badRel := satInc 16 c.badRel }) a)

/-- UCP_IDLE_EXPIRY: UCP_IDLE ms without an operation release the lock by force (R275). -/
def execUcpIdleExpiry (s : State) : Res :=
  onlyIf (powered s && !inFault s && s.ucp.holder.isSome && !s.ucp.busy && s.now ≥ s.ucp.idleFrom + 1000 * s.ucp.idle) s
    (ucpForce stAborted s)

/-! ### Operations (R276) -/

/-- The source length is in the operation's range. -/
def ucpLenOk (op n : Nat) : Bool :=
  match op with
  | 1 => 16 ≤ n && n ≤ 4096 && n % 8 == 0
  | 2 => 1 ≤ n && n ≤ 4096
  | 3 => 16 ≤ n && n ≤ 4104 && n % 8 == 0
  | 7 => n ≤ 65536
  | _ => n ≤ 16 * 2 ^ 20

/-- The bytes an operation writes to DST, where its operands alone decide them. -/
def ucpOutLen (op n : Nat) : Nat :=
  match op with
  | 1 => n + 8
  | 2 => 8 * ceilDiv n 8 + 8
  | 6 | 7 => n
  | _ => 0

/-- The operation is one of the GCM operations, which read AAD. -/
def ucpGcm (op : Nat) : Bool := op == 6 || op == 7 || op == 8

/-- The usage each operation requires. -/
def ucpUseOk (op us : Nat) : Bool :=
  match op with
  | 3 | 7 => useDEC us
  | 5 => useVER us || useENC us
  | 8 => useVER us || useDEC us
  | _ => useENC us

/-- The check of a GO (R276); 0 where it is accepted. -/
def ucpCheck (s : State) : Nat :=
  let u := s.ucp
  let x := slotOf s (hIndex u.handle)
  if u.op == 0 || u.op > 8 || !ucpLenOk u.op u.srcLen || (ucpGcm u.op && u.aadLen > 65536) ||
      ucpOutLen u.op u.srcLen > u.dstLen then stFormatError
  else if handleCheck s u.handle != 0 then handleCheck s u.handle
  else if !(hSession u.handle == x.session && engUC x.engine.toNat && ucpUseOk u.op x.usage.toNat) then stKeyAttrDenied
  else 0

/-- The port the holder's DMA goes through; the secure world's is internal. -/
def ucpPort (s : State) : Option Port :=
  match s.ucp.holder with
  | some (.port p) => some p
  | _ => none

/-- A read request of an operation's operand by the holder's port. -/
def ucpRead (w : DmaRead) (addr len : Nat) (s : State) : State :=
  match ucpPort s with
  | some p => if len == 0 then s else dmaRead w p none addr len s
  | none => s

/-- GO: the command is checked, its slot counted and its operands requested (R276). -/
def ucpGo (s : State) : State :=
  let e := ucpCheck s
  let u := s.ucp
  if u.busy then s
  else if e != 0 then updUcp (fun u => { u with status := e, outLen := 0, idleFrom := s.now }) s
  else
    let noAad := !ucpGcm u.op || u.aadLen == 0
    let run : UcpRun := {
      op := u.op, srcLen := u.srcLen, aadLen := u.aadLen, dst := addr64 u.dstLo u.dstHi, dstLen := u.dstLen, iv := u.iv
      tag := u.tag }
    let a := updUcp (fun c => { c with
      busy := true, outLen := 0, run := run, slot := some (hIndex u.handle, hGen u.handle)
      src := if u.srcLen == 0 then some [] else none, aad := if noAad then some [] else none }) (useSlot (hIndex u.handle) s)
    let b := ucpRead .ucpSrc (addr64 u.srcLo u.srcHi) u.srcLen a
    if noAad then b else ucpRead .ucpAad (addr64 u.aadLo u.aadHi) u.aadLen b

/-- The user that writes GO. -/
def ucpUser : UcpCmd → UcpUser
  | .port p => .port p
  | .secure _ => .secure

/-- The secure world's command written into the command registers; its operands lie in the device's own memory. -/
def ucpStage (op : Nat) (c : UcpArgs) (s : State) : State :=
  updUcp (fun u => { u with
    op := op, handle := c.handle, srcLen := c.src.length, aadLen := c.aad.length, dstLen := c.dstLen, iv := c.iv
    tag := c.tag }) s

/-- The internal DMA has fetched the operands of the operation that the secure world's GO started. -/
def ucpFetched (c : UcpArgs) (s : State) : State :=
  if s.ucp.busy then updUcp (fun u => { u with src := some c.src, aad := some (if ucpGcm u.run.op then c.aad else []) }) s
  else s

/-- A GO write with the operation `op`; one that is not the holder's is ignored and counted. -/
def ucpRow (u : UcpCmd) (op : Nat) (s : State) : Res :=
  if !ucpReach (ucpUser u) s then .next s
  else if s.ucp.holder != some (ucpUser u) then
    .next (updUcp (fun c => { c with denyCnt := satInc 16 c.denyCnt }) (ucpWrote (ucpUser u) s))
  else
    match u with
    | .port p =>
      if s.ucp.op != op then .next s
      else .next (ucpGo (if s.ucp.busy then ucpWrote (.port p) s else ucpSeq (.port p) (ucpWrote (.port p) s)))
    | .secure c => .next (if s.ucp.busy then s else ucpFetched c (ucpGo (ucpStage op c s)))

/-- KW_WRAP (R276). -/
def execKwWrap (u : UcpCmd) (s : State) : Res := ucpRow u 1 s
/-- KWP_WRAP (R276). -/
def execKwpWrap (u : UcpCmd) (s : State) : Res := ucpRow u 2 s
/-- KWP_UNWRAP (R276). -/
def execKwpUnwrap (u : UcpCmd) (s : State) : Res := ucpRow u 3 s
/-- CMAC_GEN (R276). -/
def execCmacGen (u : UcpCmd) (s : State) : Res := ucpRow u 4 s
/-- CMAC_VER (R276). -/
def execCmacVer (u : UcpCmd) (s : State) : Res := ucpRow u 5 s
/-- GCM_ENC (R276). -/
def execGcmEnc (u : UcpCmd) (s : State) : Res := ucpRow u 6 s
/-- GCM_DEC (R276). -/
def execGcmDec (u : UcpCmd) (s : State) : Res := ucpRow u 7 s
/-- GCM_VER (R276). -/
def execGcmVer (u : UcpCmd) (s : State) : Res := ucpRow u 8 s

/-- What a running operation gives: its status, the bytes for DST and the tag (R276). -/
def ucpResult (s : State) : Nat × Bytes × Bytes :=
  let u := s.ucp
  let r := u.run
  let key := keyBytes (match u.slot with
    | some (i, g) => (materialOf s i g).getD 0
    | none => 0)
  let src := u.src.getD []
  let aad := u.aad.getD []
  match r.op with
  | 1 => (stDone, kwWrap key src, u.tag)
  | 2 => (stDone, kwpWrap key src, u.tag)
  | 3 =>
    match kwpUnwrap key src with
    | some p => if p.length ≤ r.dstLen then (stDone, p, u.tag) else (stFormatError, [], u.tag)
    | none => (stTagFail, [], u.tag)
  | 4 => (stDone, [], cmac key src)
  | 5 => (if cmac key src == r.tag then stDone else stTagFail, [], u.tag)
  | 6 =>
    let ct := gcmCrypt key r.iv src
    (stDone, ct, gcmTag key r.iv aad ct)
  | 7 => if gcmTag key r.iv aad src == r.tag then (stDone, gcmCrypt key r.iv src, u.tag) else (stTagFail, [], u.tag)
  | _ => (if gcmTag key r.iv aad src == r.tag then stDone else stTagFail, [], u.tag)

/-- UCP_OP_DONE: the operation writes its outputs and the idle count restarts (R275, R276). -/
def execUcpOpDone (s : State) : Res :=
  let u := s.ucp
  if !(powered s && !inFault s && u.busy && u.src.isSome && u.aad.isSome) then .next s
  else
    let r := ucpResult s
    let a := match ucpPort s with
      | some p => portWrite p u.run.dst r.2.1 s
      | none => updUcp (fun c => { c with world := r.2.1 }) s
    .next (reap stKeyErased (ucpEnd r.1 r.2.1.length (updUcp (fun c => { c with tag := r.2.2 }) a)))

end Sys2Proof.Machine
end

