-- ==== Sys2Proof/Machine/KeyCmds.lean ====
section
/-! DEFINITION. The key carriages, replace, the 100 ms limits and shadow slots (R114, R166-R168, R203-R207, R263-R265). -/
namespace Sys2Proof.Machine

/-- The world that bit `i` of WLD_ASSIGN gives a function to (R297). -/
def assigned (s : State) (i : Nat) : World := if bit s.wld.assign i then .secure else .normal

/-- The world that a function belongs to; the interrupts of its peripherals go to that world (R296, R297). -/
def worldFor (s : State) (f : WorldFn) : World :=
  match f with
  | .secureOwn => .secure
  | .shelves => .normal
  | .smbus => assigned s 0
  | .drawbar => assigned s 1
  | .govPolicy => assigned s 2
  | .eventFormat => assigned s 3
  | .nvmeAdmin => assigned s 4

/-- World `w`. -/
def worldOf (s : State) (w : World) : WorldSt :=
  match w with
  | .secure => s.wld.secure
  | .normal => s.wld.normal

/-- The world that a function belongs to runs. -/
def fnRuns (s : State) (f : WorldFn) : Bool := (worldOf s (worldFor s f)).state == .running

/-- World `w` reaches the blocks of a function without a monitor call: the secure world all, the normal world its own (R296). -/
def reaches (s : State) (w : World) (f : WorldFn) : Bool := w == .secure || worldFor s f == w

/-- A read at SMB_ADDR is answered; while the telemetry's world restarts it gets NACK (R306). -/
def smbAnswers (s : State) : Bool := live s && fnRuns s .smbus

/-- The function that mediates an opcode (R109, R296). -/
def opFn (op : Nat) : WorldFn := if op == 0x22 then .nvmeAdmin else if isNormalOp op then .shelves else .secureOwn

/-- The world that mediates an opcode runs (R109, R297, R305, R306). -/
def worldServes (s : State) (op : Nat) : Bool := !(isSecureOp op || isNormalOp op) || fnRuns s (opFn op)

/-- A carriage that creates a slot completes DONE: the slot reserved for it is allocated at its completion CSN, and its handle
is the result (R123, R197). -/
def doneOpen (t : Nat) (n : NewSlot) (s : State) : State :=
  match (carrOf s t).reserved with
  | some i =>
    let a := updCarr t (fun c => { c with reserved := none }) (allocSlot i n (seqd s))
    reap stKeyErased (finishAt t stDone (slotHandle a i) a)
  | none => done t stDone 0 s

/-! ### KEY_GENERATE_DEK, KEY_LOAD_TICKET, KEY_RELEASE_SLOT, SEAL_OBJECT -/

/-- A KEY_GENERATE_DEK that holds its 40 tender bytes: the ticket, and the write session where it is asked for (R114). On an
ORDERED SQ it waits until its completion CSN is next (R97). -/
def generateDek (t : Nat) (s : State) : State :=
  let c := carrOf s t
  let e := c.entry
  let owner := bits (eKeyref e) 0 22
  match kekOf s owner with
  | none => done t stKeyErased 0 (updCarr t (fun c => { c with rnd := [] }) s)
  | some kek =>
    let dek := c.rnd.take 32
    let base := leNat (c.rnd.drop 32)
    let a := writeBuffer t 0 (makeTicket kek false (eSize e) owner 0 base dek) (cacheKek owner s)
    if eOption e 4 then
      doneOpen t
        { material := leNat dek, engine := eEngine e, usage := eUsage e, session := true, size := eSize e, owner := owner
          scope := ringScope (ringOf s c.sq), base := base } a
    else done t stDone 0 a

/-- KEY_GENERATE_DEK: once it has the 40 tender bytes asked for at its admission, it writes its ticket (R114, R254). -/
def execKeyGenerateDek (tag : Nat) (s : State) : Res :=
  let c := carrOf s tag
  onlyIf (isAt s tag 0x10 .admitted && !c.rngWait && c.rnd.length == 40 && !waitsTurn s tag) s (generateDek tag (begin_ tag s))

/-- KEY_LOAD_TICKET: the unwrapped ticket's key goes into the reserved slot, once its completion CSN is next (R97, R114,
R197). -/
def execKeyLoadTicket (tag : Nat) (s : State) : Res :=
  let c := carrOf s tag
  let e := c.entry
  match c.key with
  | .ticket owner dek base count _ =>
    let size := tkSize (c.ticket.getD [])
    onlyIf (isAt s tag 0x11 .admitted && !waitsTurn s tag) s (doneOpen tag
      { material := dek, engine := eEngine e, usage := eUsage e, size := size, owner := owner
        scope := ringScope (ringOf s c.sq), base := base, count := count } s)
  | _ => .next s

/-- KEY_RELEASE_SLOT: a LIVE slot is marked PENDING at a CSN; a PENDING or ORPHANED one stays as it is (R200, R206). -/
def execKeyReleaseSlot (tag : Nat) (s : State) : Res :=
  let c := carrOf s tag
  match c.key with
  | .slot i _ => onlyIf (isAt s tag 0x12 .admitted) s
      (done tag stDone 0 (mark .pending i (seqIf ((slotOf s i).state == .live) s)))
  | _ => .next s

/-- A carriage uses slot `i` at generation `g`. -/
def usesSlot (i g : Nat) (c : Carriage) : Bool := c.key == .slot i g || c.dstKey == .slot i g

/-- A carriage admitted earlier uses the same session slot (R114). -/
def sealWaits (s : State) (t i g : Nat) : Bool :=
  let c := carrOf s t
  tany s.car.cars (fun u x => u != t && (x.stage == .admitted || x.stage == .running || x.stage == .finished) &&
    usesSlot i g x && x.admCsn < c.admCsn)

/-- SEAL_OBJECT: once no earlier carriage uses the session and its completion CSN is next, the SEALED ticket is written, and at
that CSN the slot is released and the seal completes (R97, R114, R203). -/
def execSealObject (tag : Nat) (s : State) : Res :=
  let c := carrOf s tag
  match c.key with
  | .slot i g =>
    let x := slotOf s i
    if !(isAt s tag 0x05 .admitted && !sealWaits s tag i g && !waitsTurn s tag) then .next s
    else
      match kekOf s x.owner with
      | none => .next (done tag stKeyErased 0 s)
      | some kek =>
        let tk := makeTicket kek true x.sizeCode x.owner x.count x.base (keyBytes (x.share0 ^^^ x.share1))
        .next (reap stKeyErased (finishAt tag stDone x.count
          (markBy (some tag) .pending i (seqd (writeBuffer tag 0 tk (cacheKek x.owner s))))))
  | _ => .next s

/-! ### KEY_IMPORT and ATTEST -/

/-- The ASCII string of the import wrap key (R263). -/
def importLabel : Bytes := [0x55, 0x48, 0x37, 0x34, 0x31, 0x36, 0x2D, 0x49, 0x4D, 0x50, 0x31]

/-- The key a KEY_IMPORT record holds, where every check of R264 passes. -/
def importKey (s : State) (c : Carriage) : Option Bytes :=
  let r := c.record.getD []
  let seed := match c.key with
    | .slot i g => natLe 64 ((materialOf s i g).getD 0)
    | _ => []
  let ss := padTo 32 (mlkemDecaps seed (sub r 32 1568))
  let form := fld r 0 4 == 0x31504D49 && fld r 4 4 == bits (fld c.entry 52 3) 0 22 && fld r 8 1 == eEngine c.entry &&
    fld r 9 1 == eUsage c.entry && allZero (sub r 10 22)
  match kwpUnwrap (sha3_256 (importLabel ++ ss ++ r.take 32)) (sub r 1600 48) with
  | some p =>
    if form && p.length == 40 && p.drop 32 == (sha3_256 (r.take 32)).take 8 then some (p.take 32) else none
  | none => none

/-- KEY_IMPORT: the record is read, decapsulated on the lattice unit, and its key goes into the reserved slot
(R197, R263, R264). -/
def execKeyImport (tag : Nat) (s : State) : Res :=
  let c := carrOf s tag
  if !worldServes s 0x41 then .next s
  else if isAt s tag 0x41 .admitted then
    .next (readBuffer (.record tag) tag 0 1648 (updCarr tag (fun c => { c with stage := .running }) s))
  else if isAt s tag 0x41 .running && c.record.isSome && !c.started then .next (latCarriage tag (begin_ tag s))
  else if isAt s tag 0x41 .running && c.aux == 1 then
    match importKey s c with
    | none => .next (done tag stVerifyReject 0 s)
    | some k =>
      onlyIf (!waitsTurn s tag) s (doneOpen tag
        { material := leNat k, engine := eEngine c.entry, usage := eUsage c.entry
          owner := bits (fld c.entry 52 3) 0 22, scope := ringScope (ringOf s c.sq) } s)
  else .next s

/-- The vault mode's code (R228). -/
def vaultCode : VaultMode → Nat
  | .closed => 0 | .normal => 1 | .single => 2 | .rebuilding => 3 | .locked => 4 | .empty => 5

/-- The Krovward certificate of the unit: zero where the state has none (R265, R337). -/
def unitCert (s : State) : Bytes :=
  if s.lcs.state == .field && s.fuses.certBurned then padTo sigLen s.fuses.cert else zeros sigLen

/-- The attestation key's seed in the life-cycle state (R259). -/
def attestSeedOf (s : State) : Bytes := Config.attestSeed (lifeCode s.lcs.state)

/-- The transport key's seed in the life-cycle state (R259). -/
def transportSeedOf (s : State) : Bytes := Config.transportSeed (lifeCode s.lcs.state)

/-- Bytes 0 to 9,010 of an attestation report (R265). -/
def reportBody (s : State) (challenge : Bytes) : Bytes :=
  natLe 4 0x31545441 ++ natLe 4 (lifeCode s.lcs.state + vaultCode s.vlt.mode * 2 ^ 8) ++ unitId16 ++
  natLe 4 s.chp.bootCnt ++ zeros 4 ++ natLe 8 s.csn ++ natLe 8 s.now ++ natLe 8 s.vlt.epoch ++ padTo 8 s.fwu.ver ++
  padTo 48 s.wld.secure.meas ++ padTo 48 s.wld.normal.meas ++ padTo 32 s.mnf.digest ++ padTo 32 challenge ++
  padTo pkLen (mldsaPk (attestSeedOf s)) ++ padTo ekLen (mlkemEk (transportSeedOf s)) ++ unitCert s

/-- An attestation signature with an empty context (R265). -/
def attestSign (s : State) (msg rnd : Bytes) : Bytes := padTo sigLen (mldsaSign (attestSeedOf s) [] msg rnd)

/-- ATTEST: the challenge is read, the lattice unit signs with the 32 tender bytes asked for at its admission, and the
report is written (R254, R265). -/
def execAttest (tag : Nat) (s : State) : Res :=
  let c := carrOf s tag
  let r := ringOf s c.sq
  if !worldServes s 0x42 then .next s
  else if isAt s tag 0x42 .admitted then
    .next (dmaRead (.record tag) r.home (ringPasid s r) (fld c.entry 48 8) 32 (updCarr tag (fun c => { c with stage := .running }) s))
  else if isAt s tag 0x42 .running && c.record.isSome && !c.started then
    .next (latCarriage tag (begin_ tag s))
  else if isAt s tag 0x42 .running && c.aux == 1 then
    let body := reportBody s (c.record.getD [])
    let rep := body ++ attestSign s body c.rnd
    .next (done tag stDone rep.length (writeBuffer tag 0 rep s))
  else .next s

/-- A carriage at the head of the lattice queue has what its operation needs. -/
def latCarriageReady (s : State) (t : Nat) : Bool :=
  let c := carrOf s t
  eOp c.entry != 0x42 || c.rnd.length == 32

/-! ### Replace (R204) -/

/-- Whether a handle names a slot that is not FREE, at its generation; its WRITE_SESSION bit is not looked at (R204; log entry
100). -/
def handleLive (s : State) (h : Nat) : Bool :=
  (slotOf s (hIndex h)).state != .free && (slotOf s (hIndex h)).gen == hGen h

/-- The cause a replace stops on, 0 where it may run (R204, KST_REPL_STAT). -/
def replCheck (s : State) (src dst : Nat) : Nat :=
  let x := slotOf s (hIndex src)
  let d := slotOf s (hIndex dst)
  if !handleLive s src || !handleLive s dst then 1
  else if x.state != .live || d.state != .live || hIndex src == hIndex dst then 2
  else if x.owner != d.owner || x.scope != d.scope then 3
  else if x.session || d.session then 4
  else if x.use != 0 then 5
  else if d.retained then 6
  else 0

/-- The replace: D takes S's material and attributes, D's old generation is retained while it is used, S becomes FREE
and what it had retained is zeroised with it (R204, R206). -/
def replace (src dst : Nat) (s : State) : State :=
  let x := slotOf s (hIndex src)
  let a := updSlot (hIndex dst) (fun d => { x with
    gen := genNext d.gen, use := 0
    retained := d.use != 0, retGen := if d.use == 0 then 0 else d.gen, retUse := d.use
    retShare0 := if d.use == 0 then 0 else d.share0, retShare1 := if d.use == 0 then 0 else d.share1
    retBase := if d.use == 0 then 0 else d.base
    retAt := if d.use == 0 then 0 else s.now }) s
  let b := if (slotOf s (hIndex dst)).use == 0 then purgeStaging (· == .slot (hIndex dst) (slotOf s (hIndex dst)).gen) a else a
  updSlot (hIndex src) (fun x => { x with gen := genNext x.gen }) (zeroiseSlot (hIndex src) b)

/-- The replace, and the end of the carriages on a generation that its source retained (R204, R206). -/
def replaceSlot (src dst : Nat) (s : State) : State :=
  if (slotOf s (hIndex src)).retained then reap stKeyErased (replace src dst s) else replace src dst s

/-- REPL_GO: a manager's replace at the write's CSN (R204). -/
def execReplGo (p : Port) (s : State) : Res :=
  if !wr p .kst s then .next s
  else
    let a := seqd (legTouch p (cntWr p s))
    let w := a.win.get p
    let e := replCheck a w.replSrc w.replDst
    let b := updWin p (fun w => { w with replStat := e }) a
    .next (if e == 0 then replaceSlot w.replSrc w.replDst b else b)

/-! ### Limits (R204, R206, R207) -/

/-- A zeroisation at the 100 ms limit with users counted (ERASE_TMO_CNT). -/
def countTmo (used : Bool) (s : State) : State :=
  if used then updKst (fun k => { k with eraseTmo := satInc 32 k.eraseTmo }) s else s

/-- RETAINED_EXPIRY: 100 ms after a replace (R204). -/
def execRetainedExpiry (slot : Nat) (s : State) : Res :=
  let x := slotOf s slot
  onlyIf (powered s && !inFault s && x.retained && s.now ≥ x.retAt + 100000) s
    (reap stKeyErased (countTmo (x.retUse != 0) (seqd (zeroiseRetained slot s))))

/-- ERASE_PENDING_EXPIRY: 100 ms after a PENDING or ORPHANED mark (R206). -/
def execErasePendingExpiry (slot : Nat) (s : State) : Res :=
  let x := slotOf s slot
  onlyIf (powered s && !inFault s && (x.state == .pending || x.state == .orphaned) && s.now ≥ x.pendStamp + 100000) s
    (reap stKeyErased (countTmo (x.use != 0) (seqd (zeroiseSlot slot s))))

/-- TICKET_KEY_EXPIRY: a ticket-keyed carriage 100 ms after its owner's revocation (R207). -/
def execTicketKeyExpiry (tag : Nat) (s : State) : Res :=
  let c := carrOf s tag
  match c.key with
  | .ticket owner _ _ _ _ =>
    let o := ownerOf s owner
    onlyIf (powered s && !inFault s && bound c && o.state == .revoked &&
        s.now ≥ o.revokedAt + 100000) s (stop tag stKeyErased 0 (countTmo true s))
  | _ => .next s

/-! ### Shadow slots (R166-R168) -/

/-- The entry at position `pos` of SQ `sq` that may be unwrapped for: prefetched with the expected phase, or taken and
not admitted; with its tag (R166). -/
def unwrapTarget (s : State) (sq pos : Nat) : Option (Bytes × Option Nat) :=
  let c := tget {} (ringOf s sq).copies pos
  if !c.asked && c.phaseOk then some (c.bytes, none)
  else (s.car.cars.find? (fun x => x.2.stage == .taken && x.2.sq == sq && x.2.pos == pos)).map
    (fun x => (x.2.entry, some x.1))

/-- SPECULATIVE_UNWRAP: the ticket of a RETRIEVE or AUDIT is read and unwrapped into a free shadow slot; a failure has no
effect (R166). -/
def execSpeculativeUnwrap (sq pos : Nat) (ticket : Bytes) (s : State) : Res :=
  let r := ringOf s sq
  match unwrapTarget s sq pos, firstBelow 1024 (fun i => !(tget {} s.car.shadows i).used) with
  | some (e, tag), some i =>
    let ok := live s && r.type == .sq && r.state == .active && (eOp e == 0x02 || eOp e == 0x03) && kKind (eKeyref e) == 2 &&
      ticket.length == 64 && readsOut (s.stats.get r.home) < 768 && !tany s.car.shadows (fun _ h => h.used && h.sq == sq && h.pos == pos)
    if !ok then .next s
    else
      let a := readAtOnce r.home (ringPasid s r) (bits (eKeyref e) 0 60) 64 s
      match openTicket s ticket with
      | none => .next a
      | some dek =>
        let h : Shadow :=
          { used := true, tag := tag, sq := sq, pos := pos, addr := bits (eKeyref e) 0 60, ticket := ticket
            owner := tkOwner ticket, dek := dek, at_ := s.now }
        .next (updCar (fun c => { c with shadows := tput c.shadows i h }) a)
  | _, _ => .next s

/-- SHADOW_EXPIRY: a shadow slot not admitted within 10 ms of its unwrap is zeroised (R168). -/
def execShadowExpiry (shadow : Nat) (s : State) : Res :=
  let h := tget {} s.car.shadows shadow
  let admitted := match h.tag with
    | some t => (carrOf s t).admCsn != 0
    | none => false
  onlyIf (powered s && h.used && !admitted && s.now ≥ h.at_ + 10000) s
    (updCar (fun c => { c with shadows := tset {} c.shadows shadow {} }) s)

end Sys2Proof.Machine
end

