-- ==== Sys2Proof/Machine/MediaOps.lean ====
section
/-! DEFINITION. The initiator's shared operations: lane places, NVMe commands and staging (R143, R144, R178-R181, R187,
R188). -/
namespace Sys2Proof.Machine

/-! ### Places -/

/-- The region that owns a drive (R13). -/
def driveRegion (d : Nat) : Nat := d / 128

/-- The shelf of a drive (R170). -/
def driveShelf (d : Nat) : Nat := d % 128 / 16

/-- The drives of shelf `n`, in ascending port number (R170). -/
def shelfDrives (n : Nat) : List Nat :=
  (List.range 4).flatMap (fun g => (List.range 16).map (fun q => 128 * g + 16 * n + q))

/-- Ports counted against the lane budget (R178). -/
def l0Now (s : State) : Nat := tcount s.mdf.drives (fun _ d => d.lane == .l0 || d.lane == .training)

/-- The lane limit that the power cap imposes (R389). -/
def laneLimit (s : State) : Nat := 16 + (s.gov.pwrCap - 25) * 176 / 60

/-- The effective budget (R178). -/
def effBudget (s : State) : Nat := max 16 (min s.mdf.laneBudget (laneLimit s))

/-- The port asks to be held hot: its bit is set, its drive READY and its shelf AWAKE (R180). -/
def wantsHot (s : State) (d : Nat) : Bool :=
  s.mdf.hot.getLsbD d && (driveOf s d).state == .ready && (shelfOf s (driveShelf d)).state == .awake

/-- The port is held hot: places go in ascending port number up to the effective budget minus 16 (R180). -/
def heldHot (s : State) (d : Nat) : Bool :=
  wantsHot s d && ((List.range d).filter (wantsHot s)).length < effBudget s - 16

/-- L0_HWM kept. -/
def markL0 (s : State) : State := updMdf (fun m => { m with l0Hwm := max m.l0Hwm (l0Now s) }) s

/-! ### NVMe commands (R187) -/

/-- The command is the drive's open Asynchronous Event Request, which waits for nothing. -/
def isWaitingEvent (k : CmdKind) : Bool := k == .asyncEvent

/-- NVMe commands outstanding at a drive (CMD_OUT); a controller reset leaves none. -/
def cmdsOut (d : Drive) : Nat := if d.resetting then 0 else tcount d.cmds (fun _ c => c.used && !isWaitingEvent c.kind)

/-- A DRIVE_ADMIN's I/O command: Dataset Management or Flush (R115, R187). -/
def adminIsIo (e : Bytes) : Bool := fld e 48 1 == 6 || fld e 48 1 == 7

/-- The command goes on the admin queue: the device's own but Flush, and a DRIVE_ADMIN's but for its I/O commands (R186,
R187). -/
def isAdminKind (s : State) (k : CmdKind) (tag : Option Nat) : Bool :=
  match k with
  | .admin => !adminIsIo (carrOf s (tag.getD 0)).entry
  | .abort _ | .initStep _ | .asyncEvent | .errorLog | .queueDelete _ => true
  | _ => false

/-- A carriage that has been admitted and has no completion CSN yet (R97, R188). -/
def isOpen (c : Carriage) : Bool := c.stage != .free && c.stage != .taken && !c.refused

/-- The carriage is a Format NVM or Dataset Management on drive `d` that has not completed (R188). -/
def bars (d : Nat) (c : Carriage) : Bool :=
  isOpen c && eOp c.entry == 0x22 && tDrive (eTarget c.entry) == d && (fld c.entry 48 1 == 5 || fld c.entry 48 1 == 6)

/-- A carriage admitted after a Format NVM or Dataset Management of the drive waits for it (R188). -/
def barred (s : State) (d : Nat) (tag : Option Nat) : Bool :=
  match tag with
  | none => false
  | some t => tany s.car.cars (fun u c => u != t && bars d c && c.admCsn < (carrOf s t).admCsn)

/-- The I/O queue pair of a carriage, from 0 (R187). -/
def queueOf (x : Drive) (tag : Option Nat) : Nat := tag.getD 0 % max 1 x.ioq

/-- The command's queue: 0 the admin queue, else its I/O queue pair and 1 (R187). -/
def cmdQueue (s : State) (d : Nat) (k : CmdKind) (tag : Option Nat) : Nat :=
  if isAdminKind s k tag then 0 else queueOf (driveOf s d) tag + 1

/-- The depth of the admin queue pair (R186). -/
def adminDepth : Nat := 32

/-- The queue has a place for one more command (R186, R187). -/
def queueRoom (x : Drive) (q : Nat) : Bool :=
  tcount x.cmds (fun _ c => c.used && c.queue == q) + 1 < (if q == 0 then adminDepth else x.depth)

/-- The command may go to drive `d` now: its controller works, its link is in L0, and it is not held back. An I/O command of a
DRIVE_ADMIN to an UNUSABLE drive, which has no I/O queues, waits (DESIGN CHOICE, log entry 21). -/
def mayIssue (s : State) (d : Nat) (k : CmdKind) (tag : Option Nat) : Bool :=
  let x := driveOf s d
  (x.state == .ready || (x.state == .unusable && isAdminKind s k tag)) && x.lane == .l0 && x.linkDownAt.isNone &&
    !x.resetting && !barred s d tag && queueRoom x (cmdQueue s d k tag)

/-- The ADMIN_OP's NVMe opcode (R115); the numbers are the NVMe standard's, and the I/O commands' are told from the admin
commands' by their queue (PRESUMED, log entry 21). -/
def adminOpcode (op : Nat) : Nat :=
  match op with
  | 1 => 0x06
  | 2 => 0x02
  | 3 => 0x0A
  | 4 => 0x09
  | 5 => 0x80
  | 6 => 0x09
  | _ => 0x00

/-- The NVMe opcode of a step of R186 (PRESUMED, log entry 21): Identify, Set Features, Create I/O CQ and Create I/O SQ. -/
def initOpcode (i : InitCmd) : Nat :=
  match i with
  | .identifyController | .identifyNamespace => 0x06
  | .numberOfQueues | .eventConfig => 0x09
  | .createCq _ => 0x05
  | .createSq _ => 0x01

/-- The NVMe opcode of a command (PRESUMED, log entry 21). -/
def nvOpcode (s : State) (k : CmdKind) (tag : Option Nat) : Nat :=
  match k with
  | .trailerRead | .segRead _ _ | .legacyRead _ => 0x02
  | .segWrite _ _ | .trailerWrite | .legacyWrite _ => 0x01
  | .admin => adminOpcode (fld (carrOf s (tag.getD 0)).entry 48 1)
  | .abort _ => 0x08
  | .flush => 0x00
  | .initStep i => initOpcode i
  | .queueDelete sq => if sq then 0x00 else 0x04
  | .asyncEvent => 0x0C
  | .errorLog => 0x02

/-- FUA is set on every Write (R187). -/
def nvFua (k : CmdKind) : Bool :=
  match k with
  | .segWrite _ _ | .trailerWrite | .legacyWrite _ => true
  | _ => false

/-- A train trailer (R129). -/
def trailerBytes (owner train code : Nat) (tags : List Bytes) : Bytes :=
  padTo 4096 (natLe 4 0x54524C31 ++ natLe 4 owner ++ natLe 4 train ++ natLe 1 tags.length ++ natLe 1 code ++ zeros 2 ++
    tags.flatten)

/-- The owner of a bound key (R128). -/
def keyOwner (s : State) (k : KeyBind) : Nat :=
  match k with
  | .slot i _ => (slotOf s i).owner
  | .ticket o _ _ _ _ => o
  | _ => 0

/-- The session key a writing carriage encrypts under. -/
def writeKey (c : Carriage) : KeyBind := if eOp c.entry == 0x04 then c.dstKey else c.key

/-- The trailer a writing carriage writes (R111, R129). -/
def ownTrailer (s : State) (c : Carriage) : Bytes :=
  trailerBytes (keyOwner s (writeKey c)) (eTrainIndex c.entry) (eSize c.entry)
    ((List.range (eSegs c.entry)).map (fun p => padTo 16 (tget {} c.segs p).tag))

/-- The namespace a command names (R186): that of NVME_NSID for I/O commands, Identify and Format NVM; the others' is 0
(PRESUMED, log entry 21). -/
def nvNsid (s : State) (k : CmdKind) (tag : Option Nat) : Nat :=
  let all := match k with
    | .admin => [1, 5, 6, 7].contains (fld (carrOf s (tag.getD 0)).entry 48 1)
    | .initStep .identifyNamespace => true
    | _ => !isAdminKind s k tag
  if all then s.mnf.nsid else 0

/-- The bytes a command carries to the drive. -/
def nvData (s : State) (k : CmdKind) (tag : Option Nat) (blocks : Nat) : Bytes :=
  let c := carrOf s (tag.getD 0)
  match k with
  | .segWrite p off => sub (tget {} c.segs p).out (4096 * off) (4096 * blocks)
  | .legacyWrite off => sub (tget {} c.segs 0).out (4096 * off) (4096 * blocks)
  | .trailerWrite => ownTrailer s c
  | .admin => c.record.getD []
  | _ => []

/-- A free command id of the drive, counted up from the last. -/
def freeCid (x : Drive) : Nat :=
  ((List.range 1100).map (fun i => (x.nextCid + i) % 65536)).find? (fun i => !(tget {} x.cmds i).used) |>.getD x.nextCid

/-- The window granules a command of a carriage addresses (R15, R143, R187). -/
def cmdHold (c : Carriage) (k : CmdKind) (blocks : Nat) : List (Nat × Nat) :=
  match k with
  | .trailerRead | .trailerWrite => c.trailerHold
  | .segRead p off => ((tget {} c.segs p).hold.drop off).take blocks
  | .segWrite p off =>
    let g := tget {} c.segs p
    ((if eOp c.entry == 0x04 then g.dstHold else g.hold).drop off).take blocks
  | .legacyRead _ | .legacyWrite _ => (tget {} c.segs 0).hold.take blocks
  | .admin => (tget {} c.segs 0).hold
  | _ => []

/-! ### Staging (R143, R144, R147) -/

/-- The drive whose region a carriage's source side works for. -/
def srcDrive (c : Carriage) : Nat := tDrive (eTarget c.entry)

/-- The drive its train is written to. -/
def dstDrive (c : Carriage) : Nat := if eOp c.entry == 0x04 then tDrive (eDstTarget c.entry) else srcDrive c

/-- SRAM granules of a region, and all granules of its window: SRAM and spill (R143). -/
def sramSize : Nat := 2048
/-- The end of the window. -/
def windowSize : Nat := 16384

/-- The granule lies in SRAM. -/
def isSram (g : Nat × Nat) : Bool := g.2 < sramSize

/-- The granules that a carriage holds for its source side: its segments' and those of the trailer it reads. -/
def srcGran (c : Carriage) : List (Nat × Nat) :=
  (if eOp c.entry == 0x01 || c.trailer == .writing then [] else c.trailerHold) ++
    (if eOp c.entry == 0x01 then [] else c.segs.flatMap (fun g => g.2.hold))

/-- The granules that a carriage holds for the side that writes a train. -/
def dstGran (c : Carriage) : List (Nat × Nat) :=
  (if eOp c.entry == 0x01 || c.trailer == .writing then c.trailerHold else []) ++
    c.segs.flatMap (fun g => (if eOp c.entry == 0x01 then g.2.hold else []) ++ g.2.dstHold)

/-- Every granule that a carriage holds. -/
def carrGran (c : Carriage) : List (Nat × Nat) := srcGran c ++ dstGran c

/-- Granules still reserved to commands whose carriage has ended: a drive may still move their data (R143, R189). -/
def lateGran (s : State) : List (Nat × Nat) :=
  s.mdf.drives.flatMap (fun e => e.2.cmds.flatMap (fun c => if c.2.used && c.2.tag.isNone then c.2.hold else []))

/-- The places reserved in the window of region `x`. -/
def usedGran (s : State) (x : Nat) : List Nat :=
  ((s.car.cars.flatMap (fun e => carrGran e.2) ++ lateGran s).filter (·.1 == x)).map (·.2)

/-- SRAM granules reserved in region `x` (STG_OCC). -/
def stgOcc (s : State) (x : Nat) : Nat := ((usedGran s x).filter (· < sramSize)).length

/-- Spill granules in use in region `x` (SPILL_OCC). -/
def spillOcc (s : State) (x : Nat) : Nat := ((usedGran s x).filter (· ≥ sramSize)).length

/-- SRAM granules held for one carriage in region `x`. -/
def carrHolds (c : Carriage) (x : Nat) : Nat := ((carrGran c).filter (fun g => isSram g && g.1 == x)).length

/-- Granules of region `x` lent to a DEGRADED region's window (R147, LOAN_GRAN): those held for a drive of another region. -/
def loaned (s : State) (x : Nat) : Nat :=
  (s.car.cars.map (fun e =>
    (if driveRegion (srcDrive e.2) != x then ((srcGran e.2).filter (fun g => isSram g && g.1 == x)).length else 0) +
    (if driveRegion (dstDrive e.2) != x then ((dstGran e.2).filter (fun g => isSram g && g.1 == x)).length else 0))).sum

/-- The granules that a carriage holds for drive `d`. -/
def portGran (d : Nat) (c : Carriage) : List (Nat × Nat) :=
  (if srcDrive c == d then srcGran c else []) ++ (if dstDrive c == d then dstGran c else [])

/-- Spill granules in use for drive `d`. -/
def spillOf (s : State) (d : Nat) : Nat :=
  (s.car.cars.map (fun e => ((portGran d e.2).filter (fun g => !isSram g)).length)).sum

/-- The region a segment runs in for its next pass. -/
def passRegion (g : Seg) : Nat := if g.dst then g.dstRegion else g.region

/-- The segment is ready: its staging is reserved and its key resolved, be its data all there or not (R139). -/
def segReady (g : Seg) : Bool := g.st == .fetching || g.st == .ready

/-- Segments ready in region `x` (READY_Q). -/
def readyIn (s : State) (x : Nat) : Nat :=
  (s.car.cars.map (fun e => if isTrain e.2.entry then tcount e.2.segs (fun _ g => segReady g && passRegion g == x) else 0)).sum

/-- The region that serves a new segment for drive `d`: of the serving regions the one with fewest ready segments, the
lower-numbered where they are equal (R147). -/
def serverFor (s : State) (d : Nat) : Option Nat :=
  (servers s (driveRegion d)).foldl (fun b x =>
    match b with
    | none => some x
    | some y => if readyIn s x < readyIn s y || (readyIn s x == readyIn s y && x < y) then some x else some y) none

/-- The `n` lowest places from `i` on that are not in use, `k` places looked at. -/
def takeFree : Nat → Nat → Nat → List Nat → List Nat
  | 0, _, _, _ => []
  | k + 1, i, n, used =>
    if n == 0 then [] else if used.contains i then takeFree k (i + 1) n used else i :: takeFree k (i + 1) (n - 1) used

/-- `n` free spill granules of region `x`, or as many as there are. -/
def freeSpill (s : State) (x n : Nat) : List (Nat × Nat) :=
  (takeFree (windowSize - sramSize) sramSize n (usedGran s x)).map (fun i => (x, i))

/-- The loan of one serving region to a DEGRADED region's window: 2 MiB (R147), the last of its SRAM (log entry 82). -/
def loanSize : Nat := 512
/-- Its first granule. -/
def loanBase : Nat := 1536

/-- SRAM granules of region `x` that may still be reserved for drive `d`: any of its own region's, or what its loan has left
(R143, R147). -/
def roomFor (s : State) (d x : Nat) : List (Nat × Nat) :=
  let i := if driveRegion d == x then 0 else loanBase
  (takeFree (sramSize - i) i sramSize (usedGran s x)).map (fun i => (x, i))

/-- `n` SRAM granules for drive `d` from the regions in turn (R147: the loans of the serving regions make one window). -/
def gather (s : State) (d : Nat) : List Nat → Nat → List (Nat × Nat)
  | [], _ => []
  | x :: xs, n =>
    let l := (roomFor s d x).take n
    l ++ gather s d xs (n - l.length)

/-- `n` SRAM granules for drive `d`, served by region `x`; none where there is no room for all of them (R143, R147). -/
def window (s : State) (d x n : Nat) : Option (List (Nat × Nat)) :=
  let l := gather s d (x :: (servers s (driveRegion d)).erase x) n
  if l.length == n then some l else none

/-- Spill granules of drive `d`'s own region, where `n` are free (R143, R147). -/
def spillRoom (s : State) (d n : Nat) : Option (List (Nat × Nat)) :=
  let l := freeSpill s (driveRegion d) n
  if l.length == n then some l else none

/-- The granule of the window that a command of the device's own addresses: Identify's and the Error Information log's (R187). -/
def ownHold (s : State) (d : Nat) (k : CmdKind) : List (Nat × Nat) :=
  match k with
  | .errorLog | .initStep .identifyController | .initStep .identifyNamespace =>
    (((serverFor s d).bind (fun x => window s d x 1)).orElse (fun _ => spillRoom s d 1)).getD []
  | _ => []

/-- The place in drive `d`'s own window of a granule reserved for it (R15, R147): a DEGRADED region's window has the loan of
serving region `r + 1 + k` at its `k`-th 2 MiB. -/
def windowPlace (d : Nat) (g : Nat × Nat) : Nat × Nat :=
  if g.1 == driveRegion d then g else (driveRegion d, loanSize * ((g.1 + 7 - driveRegion d) % 4) + (g.2 - loanBase))

/-! ### Sending commands -/

/-- The command sent to drive `d` (R187): its data pointers address the drive's own region's window (R15). -/
def sendCmd (d : Nat) (k : CmdKind) (tag : Option Nat) (lba blocks : Nat) (s : State) : State :=
  let x := driveOf s d
  let cid := freeCid x
  let h := match tag with | some t => cmdHold (carrOf s t) k blocks | none => ownHold s d k
  let q := cmdQueue s d k tag
  let n : NvCmd := { used := true, kind := k, tag := tag, queue := q, lba := lba, blocks := blocks, hold := h, issuedAt := s.now }
  emit (.nvme d q cid (nvOpcode s k tag) (nvNsid s k tag) (nvFua k) lba blocks (h.map (windowPlace d)) (nvData s k tag blocks))
    (updDrive d (fun x => { x with cmds := tput x.cmds cid n, nextCid := (cid + 1) % 65536 }) s)

/-- Waiting commands of drive `d` that may go are sent, in order; `k` bounds their number. -/
def pumpN : Nat → Nat → List (CmdKind × Option Nat × Nat × Nat) → State → State
  | 0, _, _, s => s
  | _, _, [], s => s
  | k + 1, d, w :: ws, s =>
    if mayIssue s d w.1 w.2.1 then
      pumpN k d ws (sendCmd d w.1 w.2.1 w.2.2.1 w.2.2.2 (updDrive d (fun x => { x with waitCmds := x.waitCmds.erase w }) s))
    else pumpN k d ws s

/-- The commands that wait for drive `d` sent as far as they may be. -/
def pump (d : Nat) (s : State) : State := pumpN (driveOf s d).waitCmds.length d (driveOf s d).waitCmds s

/-- A command asked for: it waits until it may be sent (R181, R187, R188). -/
def issue (d : Nat) (k : CmdKind) (tag : Option Nat) (lba blocks : Nat) (s : State) : State :=
  pump d (updDrive d (fun x => { x with waitCmds := x.waitCmds ++ [(k, tag, lba, blocks)] }) s)

/-- Blocks of one command: at most MAX_XFER bytes and the drive's MDTS in 4 KiB units (R187). -/
def xferBlocks (s : State) (d : Nat) : Nat :=
  let m := 2 ^ s.mdf.maxXfer
  let x := driveOf s d
  if x.mdts == 0 then m else min m (2 ^ x.mdts)

/-- The pieces of `n` blocks: first block and count, at most `m` blocks each. -/
def pieces : Nat → Nat → Nat → Nat → List (Nat × Nat)
  | 0, _, _, _ => []
  | k + 1, off, n, m => if n == 0 then [] else (off, min m n) :: pieces k (off + min m n) (n - min m n) m

/-- The pieces of a segment's commands on drive `d`. -/
def segPieces (s : State) (d blocks : Nat) : List (Nat × Nat) := pieces blocks 0 blocks (max 1 (xferBlocks s d))

/-! ### Reserving (R143, R144, R147) -/

/-- STG_HWM, SPILL_HWM and READY_HWM kept. -/
def markStaging (x : Nat) (s : State) : State :=
  updWork x (fun w => { w with readyHwm := max w.readyHwm (readyIn s x) })
    (updRegion x (fun r => { r with stgHwm := max r.stgHwm (stgOcc s x), spillHwm := max r.spillHwm (spillOcc s x) }) s)

/-- The same of every region. -/
def markAll (s : State) : State := markStaging 3 (markStaging 2 (markStaging 1 (markStaging 0 s)))

/-- The segment of a carriage. -/
def segOf (s : State) (t p : Nat) : Seg := tget {} (carrOf s t).segs p

/-- A segment changed by `f`. -/
def updSeg (t p : Nat) (f : Seg → Seg) (s : State) : State :=
  updCarr t (fun c => { c with segs := tupd {} c.segs p f }) s

/-- Free SRAM of region `x` is below its threshold (R144). -/
def lowSram (s : State) (x : Nat) : Bool := sramSize - stgOcc s x < 64 * (regionOf s x).spillLow

/-- A granule of the port has been in SRAM for longer than AGE (R42, R144). -/
def oldGranule (s : State) (d : Nat) : Bool :=
  let age := 10 * (regionOf s (driveRegion d)).spillAge
  s.car.cars.any (fun e =>
    (s.now ≥ e.2.trailerAt + age && e.2.trailerHold.any isSram &&
      (if eOp e.2.entry == 0x01 || e.2.trailer == .writing then dstDrive e.2 else srcDrive e.2) == d) ||
    e.2.segs.any (fun g => s.now ≥ g.2.at_ + age &&
    ((srcDrive e.2 == d && eOp e.2.entry != 0x01 && g.2.hold.any isSram) ||
     (dstDrive e.2 == d && ((eOp e.2.entry == 0x01 && g.2.hold.any isSram) || g.2.dstHold.any isSram)))))

/-- The port straggles: both conditions hold, or it holds spill granules still (R144). -/
def straggles (s : State) (d : Nat) : Bool := (lowSram s (driveRegion d) && oldGranule s d) || spillOf s d != 0

/-- A straggling port may have nothing more reserved: spill is off or full (R144). -/
def portHeld (s : State) (d n : Nat) : Bool :=
  straggles s d && (!(regionOf s (driveRegion d)).spillEn || spillOcc s (driveRegion d) + n > windowSize - sramSize)

/-- What a carriage reads from drive `d` lands in spill: a straggling port's ciphertext, but an AUDIT's, which writes no byte to
LPDDR5X (R137, R143, R144), and a REKEY's for a DEGRADED region, whose loan its destination needs (R147; log entry 82). -/
def landsInSpill (s : State) (c : Carriage) (d : Nat) : Bool :=
  let op := eOp c.entry
  (straggles s d && (op == 0x02 || op == 0x04 || op == 0x08)) || (op == 0x04 && (regionOf s (driveRegion d)).state == .degraded)

/-- `n` granules for drive `d` with the region that serves it: none for a straggler that is held, or where there is no room
(R143, R144, R147). -/
def granules (s : State) (d n : Nat) (spill : Bool) : Option (Nat × List (Nat × Nat)) :=
  (serverFor s d).bind (fun x =>
    if portHeld s d n then none else (if spill then spillRoom s d n else window s d x n).map (fun l => (x, l)))

/-- Granules of `l` in spill counted for drive `d`'s region (SPILL_CNT). -/
def countSpill (d : Nat) (l : List (Nat × Nat)) (s : State) : State :=
  updRegion (driveRegion d) (fun r => { r with spillCnt := satAdd 32 r.spillCnt (l.filter (fun g => !isSram g)).length }) s

/-- The carriage of tag `t` has a segment served by other regions than its drive's (R147). -/
def markDegraded (t : Nat) (far : Bool) (s : State) : State := updCarr t (fun c => { c with degraded := c.degraded || far }) s

/-- Staging reserved for the source side of segment `p`: of an INGEST its plaintext's, else where its reads land (R143,
R144). None where there is no room. -/
def reserveSrc (t p : Nat) (s : State) : Option State :=
  let c := carrOf s t
  let d := srcDrive c
  (granules s d (segLen c.entry p / 4096) (landsInSpill s c d)).map (fun y =>
    countSpill d y.2 (markDegraded t (y.1 != driveRegion d)
      (updSeg t p (fun g => { g with region := y.1, hold := y.2, at_ := s.now }) s)))

/-- Staging reserved for the destination side of a REKEY's segment `p` (R138, R143). -/
def reserveDst (t p : Nat) (s : State) : Option State :=
  let c := carrOf s t
  let d := dstDrive c
  (granules s d (segLen c.entry p / 4096) false).map (fun y =>
    markDegraded t (y.1 != driveRegion d) (updSeg t p (fun g => { g with dstRegion := y.1, dstHold := y.2 }) s))

/-- Staging reserved for segment `p` of the carriage of tag `t`, for REKEY on both sides (R138, R143). None where there is no
room. -/
def reserveSeg (t p : Nat) (s : State) : Option State :=
  ((reserveSrc t p s).bind (fun a => if eOp (carrOf s t).entry == 0x04 then reserveDst t p a else some a)).map markAll

/-- A granule reserved for the trailer that the carriage reads from drive `d`, or writes to it (R143, R144). -/
def reserveTrailer (t d : Nat) (s : State) : Option State :=
  let c := carrOf s t
  (granules s d 1 (c.trailer == .reading && landsInSpill s c d)).map (fun y =>
    markAll (countSpill d y.2 (updCarr t (fun c => { c with trailerHold := y.2, trailerAt := s.now }) s)))

end Sys2Proof.Machine
end

