-- ==== Sys2Proof/Machine/DataPath.lean ====
section
/-! DEFINITION. The data flows: INGEST, RETRIEVE, AUDIT, REKEY and the legacy path, segment by segment
(06_cipher_array.md, 07_provisional_release.md). -/
namespace Sys2Proof.Machine

/-! ### Keys, IV and AAD (R127, R128) -/

/-- The DEK a bound key stands for. -/
def keyDek (s : State) (k : KeyBind) : Bytes :=
  match k with
  | .slot i g => keyBytes ((materialOf s i g).getD 0)
  | .ticket _ dek _ _ _ => keyBytes dek
  | _ => zeros 32

/-- The nonce base of a bound key: that of its generation (R204). -/
def keyBase (s : State) (k : KeyBind) : Nat :=
  match k with
  | .slot i g => if (slotOf s i).gen == g then (slotOf s i).base else (slotOf s i).retBase
  | .ticket _ _ base _ _ => base
  | _ => 0

/-- The IV of segment index `x` (R127). -/
def segIv (base x : Nat) : Bytes := natLe 8 base ++ natLe 4 x

/-- The AAD of segment index `x` (R128). -/
def segAad (owner base x code : Nat) : Bytes := natLe 4 owner ++ natLe 8 base ++ natLe 4 x ++ natLe 1 code ++ zeros 15

/-- The segment's key for this pass: the destination's where `dst`. -/
def passKey (c : Carriage) (dst : Bool) : KeyBind := if dst then c.dstKey else c.key

/-- The segment's index for this pass: the indices taken at admission where the carriage writes (R111, R112). -/
def passIndex (c : Carriage) (dst : Bool) (p : Nat) : Nat :=
  if eOp c.entry == 0x01 || dst then c.firstIndex + p else eFirstSeg c.entry + p

/-- The key-staging identity of a bound key (R140). -/
def keyIdent (t : Nat) (k : KeyBind) : KeyId :=
  match k with
  | .slot i g => .slot i g
  | .legacy => .legacy
  | _ => .carriage t

/-- GCM over a segment: its output bytes, and its tag over the ciphertext `ct` (R127, R128). -/
def segCrypt (s : State) (c : Carriage) (dst : Bool) (p : Nat) (data : Bytes) : Bytes :=
  let k := passKey c dst
  gcmCrypt (keyDek s k) (segIv (keyBase s k) (passIndex c dst p)) data

/-- The tag of segment `p`'s ciphertext. -/
def segTag (s : State) (c : Carriage) (dst : Bool) (p : Nat) (ct : Bytes) : Bytes :=
  let k := passKey c dst
  let x := passIndex c dst p
  gcmTag (keyDek s k) (segIv (keyBase s k) x) (segAad (keyOwner s k) (keyBase s k) x (eSize c.entry)) ct

/-! ### Progress of a carriage -/

/-- The carriage writes segments to media: INGEST, or REKEY's destination. -/
def writesTrain (c : Carriage) : Bool := eOp c.entry == 0x01 || eOp c.entry == 0x04

/-- The first block its train is written to. -/
def dstLba (c : Carriage) : Nat := if eOp c.entry == 0x04 then tLba (eDstTarget c.entry) else tLba (eTarget c.entry)

/-- The first block of segment `p` in its range. -/
def segBlock (c : Carriage) (p : Nat) : Nat := segOff c.entry p / 4096

/-- The segment is before its cell, or on it. -/
def beforeCell (g : Seg) : Bool := g.st == .idle || g.st == .fetching || g.st == .ready || g.st == .running

/-- The first segment not yet begun. -/
def nextIdle (c : Carriage) : Option Nat := firstBelow (eSegs c.entry) (fun p => (tget {} c.segs p).st == .idle)

/-- Every segment of the carriage is done. -/
def allDone (c : Carriage) : Bool := (List.range (eSegs c.entry)).all (fun p => (tget {} c.segs p).st == .done)

/-- A segment changed by `f` is ready: its region's mark is kept (READY_HWM). -/
def readySeg (t p : Nat) (f : Seg → Seg) (s : State) : State :=
  let a := updSeg t p f s
  markStaging (passRegion (segOf a t p)) a

/-- Step for an INGEST: the next plaintext is fetched once no segment is before its cell or on it (R135). -/
def fetchNext (t : Nat) (s : State) : State :=
  let c := carrOf s t
  match nextIdle c with
  | none => s
  | some p =>
    if (List.range p).any (fun q => beforeCell (tget {} c.segs q)) then s
    else
      match reserveSeg t p s with
      | none => s
      | some a => readBuffer (.data t p) t (segOff c.entry p) (segLen c.entry p)
          (readySeg t p (fun g => { g with st := .fetching, left := 1 }) a)

/-- The reads of segment `p` issued to its drive (R136, R187). -/
def readSeg (t p : Nat) (s : State) : State :=
  let c := carrOf s t
  let d := srcDrive c
  let ps := segPieces s d (segLen c.entry p / 4096)
  let a := readySeg t p (fun g => { g with st := .fetching, left := ps.length, data := zeros (segLen c.entry p) }) s
  ps.foldl (fun s x => issue d (.segRead p x.1) (some t) (tLba (eTarget c.entry) + segBlock c p + x.1) x.2 s) a

/-- Steps for a reading carriage: segment reads are issued in order while staging has room (R136, R143). -/
def readAhead : Nat → Nat → State → State
  | 0, _, s => s
  | k + 1, t, s =>
    match nextIdle (carrOf s t) with
    | none => s
    | some p =>
      match reserveSeg t p s with
      | none => s
      | some a => readAhead k t (readSeg t p a)

/-- The train's trailer written after every segment, once it has a granule (R135, R143). -/
def writeTrailer (t : Nat) (s : State) : State :=
  let c := carrOf s t
  match reserveTrailer t (dstDrive c) (updCarr t (fun c => { c with trailer := .writing }) s) with
  | none => s
  | some a => issue (dstDrive c) .trailerWrite (some t) (dstLba c + eLength c.entry / 4096) 1 a

/-- The source trailer read before any segment, once it has a granule (R130, R136, R143). -/
def readTrailer (t : Nat) (s : State) : State :=
  let c := carrOf s t
  match reserveTrailer t (srcDrive c) (updCarr t (fun c => { c with trailer := .reading }) s) with
  | none => s
  | some a => issue (srcDrive c) .trailerRead (some t) (eTrailerLba c.entry) 1 a

/-- What a running train carriage can do now is done: reads or fetches issued, and the trailer once every segment is
done. -/
def advance (t : Nat) (s : State) : State :=
  let c := carrOf s t
  if c.stage != .running then s
  else if writesTrain c && allDone c then (if c.trailer == .writing then s else writeTrailer t s)
  else if eOp c.entry == 0x01 then fetchNext t s
  else if c.trailer == .checked || isLegacy c.entry then readAhead (eSegs c.entry) t s
  else if c.trailer == .none then readTrailer t s
  else s

/-- A train carriage begins: a reader first reads its trailer (R136). -/
def beginTrain (t : Nat) (s : State) : State := advance t (begin_ t s)

/-- The row of a train opcode: it begins, and later goes on where room has become free. -/
def trainRow (t op : Nat) (s : State) : Res :=
  if isAt s t op .admitted then .next (beginTrain t s)
  else onlyIf (isAt s t op .running) s (advance t s)

/-- INGEST (R111, R135). -/
def execIngest (tag : Nat) (s : State) : Res := trainRow tag 0x01 s
/-- RETRIEVE (R136). -/
def execRetrieve (tag : Nat) (s : State) : Res := trainRow tag 0x02 s
/-- AUDIT (R137). -/
def execAudit (tag : Nat) (s : State) : Res := trainRow tag 0x03 s
/-- REKEY (R138). -/
def execRekey (tag : Nat) (s : State) : Res := trainRow tag 0x04 s

/-- The reason a trailer fails the checks of R111 and R130, 0 where it passes. -/
def trailerFault (s : State) (c : Carriage) (b : Bytes) : Nat :=
  let e := c.entry
  if fld b 0 4 != 0x54524C31 then 1
  else if fld b 4 4 != keyOwner s c.key then 2
  else if fld b 8 4 != eTrainIndex e then 3
  else if eTrainPos e + eSegs e > fld b 12 1 then 4
  else if fld b 13 1 != eSize e then 5
  else if (List.range (eSegs e)).any (fun i => allZero (sub b (16 + 16 * (eTrainPos e + i)) 16)) then 6
  else 0

/-- The source trailer has landed: it is checked, and the segment reads follow (R130, R136). -/
def trailerRead (t : Nat) (data : Bytes) (s : State) : State :=
  let c := carrOf s t
  let b := padTo 4096 data
  let f := trailerFault s c b
  if f != 0 then stop t stTrailerBad f s
  else
    advance t (updCarr t (fun c => { c with
      trailer := .checked, trailerHold := []
      tags := (List.range (eSegs c.entry)).map (fun i => sub b (16 + 16 * (eTrainPos c.entry + i)) 16) }) s)

/-- A segment whose data is all staged: one that a cell holds already goes on there (R142). -/
def stagedSeg (g : Seg) : Seg := { g with st := if g.left == 0 && g.st == .fetching then .ready else g.st }

/-- Data of a segment read has landed in staging. -/
def segRead (t p off : Nat) (data : Bytes) (s : State) : State :=
  updSeg t p (fun g => stagedSeg { g with
    data := (splice g.data (4096 * off) data).take g.data.length, left := g.left - 1 }) s

/-! ### Key staging (R140, R208) -/

/-- Every segment running on a cell. -/
def onCell (s : State) (x b k : Nat) : Bool :=
  s.car.cars.any (fun e => e.2.segs.any (fun g => g.2.st == .running && g.2.block == b && g.2.cell == k && passRegion g.2 == x))

/-- The segment is queued at a block of the region, or runs on one of its cells (R140). -/
def atBlock (x b : Nat) (g : Seg) : Bool :=
  passRegion g == x && ((g.st == .running && g.block == b) || (g.st != .running && g.queue == some b))

/-- A key of the block is in use by a queued or running segment (R140). -/
def keyInUse (s : State) (x b : Nat) (k : KeyId) : Bool :=
  s.car.cars.any (fun e => e.2.segs.any (fun g => atBlock x b g.2 && keyIdent e.1 (passKey e.2 g.2.dst) == k))

/-- The block holds the key. -/
def holdsKey (s : State) (x b : Nat) (k : KeyId) : Bool := (blockOf s x b).keys.any (·.id == k)

/-- The entry a full block evicts: the least recently used one not in use (R140). -/
def evictable (s : State) (x b : Nat) : Option KeyEntry := (blockOf s x b).keys.reverse.find? (fun e => !keyInUse s x b e.id)

/-- The block takes a segment with this key: it is not retired, and holds the key or has an entry for it (R140, R146). -/
def blockAccepts (s : State) (x b : Nat) (k : KeyId) : Bool :=
  b < 8 && !(regionOf s x).blkRetired.getLsbD b &&
    (holdsKey s x b k || (blockOf s x b).keys.length < 64 || (evictable s x b).isSome)

/-- Segments queued at the block or running there. -/
def queuedAt (s : State) (x b : Nat) : Nat := (s.car.cars.map (fun e => tcount e.2.segs (fun _ g => atBlock x b g))).sum

/-- The entry that stages a bound key: a slot's generation with that generation's shares and mask stamp; another key under a
mask the spec does not give, a free value (R140, R208; log entry 83). -/
def keyEntry (s : State) (t : Nat) (k : KeyBind) : KeyEntry :=
  let m := drawn s % 2 ^ 512
  let masked (v : Nat) : KeyEntry := { id := keyIdent t k, share0 := v ^^^ m, share1 := m, maskStamp := s.now }
  match k with
  | .slot i g =>
    let x := slotOf s i
    if x.gen == g then { id := .slot i g, share0 := x.share0, share1 := x.share1, maskStamp := x.maskStamp }
    else { id := .slot i g, share0 := x.retShare0, share1 := x.retShare1, maskStamp := x.maskStamp }
  | .ticket _ dek _ _ _ => masked dek
  | _ => masked (leNat s.leg.key)

/-- An entry loaded into the block, another evicted where it is full; none where every entry is in use. -/
def loadKey (x b : Nat) (e : KeyEntry) (s : State) : State :=
  let w := blockOf s x b
  let put (ks : List KeyEntry) (s : State) : State :=
    updRegion x (fun r => { r with keyLoads := satInc 32 r.keyLoads }) (updBlock x b (fun w => { w with keys := e :: ks }) s)
  if w.keys.length < 64 then put w.keys s
  else
    match evictable s x b with
    | some v => put (w.keys.erase v) (updRegion x (fun r => { r with keyEvict := satInc 32 r.keyEvict }) s)
    | none => s

/-- The block's entry for the key becomes its most recently used (R140). -/
def touchKey (x b : Nat) (k : KeyId) (s : State) : State :=
  updBlock x b (fun w => { w with keys := w.keys.filter (·.id == k) ++ w.keys.filter (·.id != k) }) s

/-! ### Cells -/

/-- A legacy carriage is admitted, so cell 0 serves no GCM segment (R134). -/
def legacyActive (s : State) : Bool :=
  tany s.car.cars (fun _ c => (c.stage == .admitted || c.stage == .running) && isLegacy c.entry)

/-- Segment `p` may start: it is ready, be its data all staged or not, the carriage runs none, and every earlier one has passed
its cell; a reader's earlier segments have their verdicts (R135, R136, R139, R142). -/
def startable (c : Carriage) (p : Nat) : Bool :=
  c.stage == .running && isTrain c.entry && segReady (tget {} c.segs p) && !c.segs.any (fun g => g.2.st == .running) &&
    (List.range p).all (fun q => !beforeCell (tget {} c.segs q))

/-- The cell can take a segment; global cell 0 takes none while a legacy carriage is admitted (R134). -/
def cellFree (s : State) (x b k : Nat) : Bool :=
  let r := regionOf s x
  b < 8 && k < 4 && r.state == .normal && !r.blkRetired.getLsbD b && !r.cellFenced.getLsbD (4 * b + k) && !onCell s x b k &&
    !(x == 0 && b == 0 && k == 0 && legacyActive s)

/-- A cell of the block can take a segment. -/
def blockFree (s : State) (x b : Nat) : Bool := [0, 1, 2, 3].any (cellFree s x b)

/-- Global cell 0 can take a unit of the legacy path: it is available, no GCM segment runs there, and block 0 holds the legacy
key (R134, R140). -/
def legacyCell (s : State) : Bool := cell0Ok s && !onCell s 0 0 0 && holdsKey s 0 0 .legacy

/-- Segment `p`'s next pass is that of a legacy source, on global cell 0 (R134, R138). -/
def legacyPassNext (c : Carriage) (p : Nat) : Bool := isLegacy c.entry && !(tget {} c.segs p).dst

/-- A block of region `x` takes the segment: the one it is queued at, or any that blockAccepts its key. -/
def hasBlock (s : State) (t p x : Nat) : Bool :=
  let c := carrOf s t
  let g := tget {} c.segs p
  match g.queue with
  | some _ => true
  | none => (List.range 8).any (fun b => blockAccepts s x b (keyIdent t (passKey c g.dst)))

/-- A cell is free for the segment in region `x`, at the block it is queued at or at one that blockAccepts its key. -/
def hasCell (s : State) (t p x : Nat) : Bool :=
  let c := carrOf s t
  let g := tget {} c.segs p
  match g.queue with
  | some b => blockFree s x b
  | none => (List.range 8).any (fun b => blockFree s x b && blockAccepts s x b (keyIdent t (passKey c g.dst)))

/-- Within its slice, a carriage admitted earlier has a segment ready to start in the region (R139). -/
def behindOther (s : State) (t x : Nat) : Bool :=
  let c := carrOf s t
  let r := ringOf s c.sq
  tany s.car.cars (fun u d =>
    u != t && d.admCsn < c.admCsn && (ringOf s d.sq).mgr == r.mgr && (ringOf s d.sq).slice == r.slice &&
      d.segs.any (fun g => passRegion g.2 == x && !legacyPassNext d g.1 && startable d g.1 && hasBlock s u g.1 x))

/-- The charge of a slice in region `x` in this epoch, in bytes (R139). -/
def chargeOf (s : State) (slice x : Nat) : Nat := tget 0 s.cay.charge (4 * slice + x)

/-- No other slice with a segment to start in the region has had less of its share in this epoch (R139; log entry 66). -/
def shareTurn (s : State) (t x : Nat) : Bool :=
  let r := ringOf s (carrOf s t).sq
  let w := (sliceOf s r.slice).weightNow
  r.mgr || !tany s.car.cars (fun u d =>
    let q := ringOf s d.sq
    !q.mgr && q.slice != r.slice && chargeOf s q.slice x * w < chargeOf s r.slice x * (sliceOf s q.slice).weightNow &&
      d.segs.any (fun g => passRegion g.2 == x && !legacyPassNext d g.1 && startable d g.1 && hasCell s u g.1 x))

/-- The pass begins: the cell is taken and the slice charged (R139); the cycles it waited are free (log entry 4). -/
def takeCell (t p b k : Nat) (s : State) : State :=
  let c := carrOf s t
  let g := tget {} c.segs p
  let x := passRegion g
  let r := ringOf s c.sq
  let n := segLen c.entry p
  let a := updSeg t p (fun g => { g with st := .running, block := b, cell := k, queue := none }) s
  let a := updWork x (fun w => { w with
    busyCyc := satAdd 32 w.busyCyc (n / 2048), waitCyc := satAdd 32 w.waitCyc (drawn s % 2 ^ 32) }) (draw a)
  if r.mgr then a else updCay (fun y => { y with charge := tupd 0 y.charge (4 * r.slice + x) (· + n) }) a

/-- Bytes counted in a port's DMA_WR_64K, the released ones of a segment once its verdict is PASS (R38). -/
def countWritten (p : Port) (n : Nat) (s : State) : State := updStats p (fun h => { h with dmaWr := h.dmaWr + n }) s

/-- Plaintext bytes `off` to `off + n - 1` of segment `p` released to the destination (R151). -/
def releaseBytes (t p off n : Nat) (plain : Bytes) (s : State) : State :=
  writeBuffer t (segOff (carrOf s t).entry p + off) (sub plain off n) s

/-- A prefix released before the verdict: no count shows it until the verdict is PASS (R38, R151). -/
def releaseAhead (t p n : Nat) (plain : Bytes) (s : State) : State :=
  let h := carrPort s t
  updStats h (fun x => { x with dmaWr := (s.stats.get h).dmaWr })
    (releaseBytes t p 0 n plain (updSeg t p (fun g => { g with released := n }) s))

/-- The segment of a LEGACY-source REKEY decrypted on global cell 0: it goes straight on to its destination pass (R134,
R138). -/
def xtsUnits (s : State) (c : Carriage) (enc : Bool) (byteOff : Nat) (data : Bytes) : Bytes :=
  let big := eOption c.entry 4
  let u := if big then 4096 else 512
  ((chunks u data).zipIdx.map (fun x =>
    let i := byteOff / u + x.2
    xtsUnit enc (s.leg.key.take 32) (s.leg.key.drop 32) (eTrailerLba c.entry + (if big then 8 * i else i)) x.1)).flatten

/-- Legacy data units counted (LEGACY_UNITS). -/
def countUnits (c : Carriage) (n : Nat) (s : State) : State :=
  updWork 0 (fun w => { w with legacyUnits := satAdd 32 w.legacyUnits (n / (if eOption c.entry 4 then 4096 else 512)) }) s

/-- A legacy source segment's pass on global cell 0. -/
def legacyPass (t p : Nat) (s : State) : State :=
  let c := carrOf s t
  let g := tget {} c.segs p
  let plain := xtsUnits s c false (segOff c.entry p) g.data
  readySeg t p (fun g => { g with st := .ready, dst := true, data := plain, hold := [], queue := none }) (countUnits c g.data.length s)

/-- SRAM for the whole plaintext of a hold-mode segment whose ciphertext has spilled; none where there is no room (R143,
R164). -/
def holdPlain (t p : Nat) (s : State) : Option State :=
  let c := carrOf s t
  let g := tget {} c.segs p
  if eOp c.entry == 0x02 && (ringOf s c.sq).hold && !g.hold.all isSram then
    (window s (srcDrive c) g.region (segLen c.entry p / 4096)).map (fun l =>
      markAll (updSeg t p (fun g => { g with dstHold := l }) s))
  else some s

/-- Segment `p` may start on this cell: its turn within its slice and among the slices has come, its block holds its key,
and it is the block it is queued at (R139, R140). -/
def mayStart (s : State) (t p b k : Nat) : Bool :=
  let c := carrOf s t
  let g := tget {} c.segs p
  let x := passRegion g
  cellFree s x b k && holdsKey s x b (keyIdent t (passKey c g.dst)) && g.queue.getD b == b && !behindOther s t x && shareTurn s t x

/-- Segment `p` started on its cell, and its first `release` plaintext bytes released, where its data is all staged (R142, R145,
R150, R151; log entry 4). -/
def startSeg (t p b k release : Nat) (s : State) : State :=
  let c := carrOf s t
  let g := tget {} c.segs p
  let a := touchKey (passRegion g) b (keyIdent t (passKey c g.dst)) (takeCell t p b k s)
  let n := max g.released (min release (segLen c.entry p))
  if g.left == 0 && eOp c.entry == 0x02 && !(ringOf s c.sq).hold && n != 0 && n % 16 == 0 then
    releaseAhead t p n (segCrypt s c false p g.data) a
  else a

/-- SEGMENT_START: a ready segment starts on a free cell of a block that holds its key, and waits there for data not yet staged
(R142). `release` is the prefix the
device releases before the verdict: whole 16-byte blocks of a RETRIEVE without HOLD; a replay writes at least what the
first attempt released (R139, R140, R145, R150, R151). -/
def execSegmentStart (tag seg block cell release : Nat) (s : State) : Res :=
  let a := shareSync s
  let c := carrOf a tag
  if !(live a && !a.tmp.dataStop && isTrain c.entry && startable c seg) then .next s
  else if legacyPassNext c seg then onlyIf (legacyCell a && block == 0 && cell == 0 && (segOf a tag seg).st == .ready) s (legacyPass tag seg (touchKey 0 0 .legacy a))
  else if !mayStart a tag seg block cell then .next s
  else
    match holdPlain tag seg a with
    | none => .next s
    | some b => .next (startSeg tag seg block cell release b)

/-- A segment has run to its end in block `b` (BLK_SEG). -/
def countRun (x b : Nat) (s : State) : State := updBlock x b (fun w => { w with segCnt := satInc 32 w.segCnt }) s

/-- A segment has its verdict or is written: it is counted in its region, and for a DEGRADED region's port (SEG_CNT,
DEG_SEG_CNT). -/
def countSeg (x home : Nat) (s : State) : State :=
  updRegion x (fun r => { r with
    segCnt := satInc 32 r.segCnt
    degSegCnt := if x == home then r.degSegCnt else satInc 32 r.degSegCnt }) s

/-- The verdict PASS of a source segment (R136-R138, R153). -/
def passSeg (t p : Nat) (s : State) : State :=
  let c := carrOf s t
  let g := tget {} c.segs p
  let e := c.entry
  let n := segLen e p
  let a := countSeg g.region (driveRegion (srcDrive c)) (countRun g.region g.block s)
  if eOp e == 0x04 then
    let plain := segCrypt s c false p g.data
    let b := if g.region == g.dstRegion then a
      else updWork g.region (fun w => { w with rekeyXbar := satInc 32 w.rekeyXbar }) a
    readySeg t p (fun g => { g with st := .ready, dst := true, data := plain, hold := [] }) b
  else
    let b := if eOp e == 0x02 then releaseBytes t p g.released (n - g.released) (segCrypt s c false p g.data)
        (countWritten (carrPort s t) g.released a) else a
    let h := if eOp e == 0x02 && (ringOf s c.sq).hold then updWork g.region (fun w => { w with holdSeg := satInc 32 w.holdSeg }) b else b
    let d := updSeg t p (fun g => { g with st := .done, hold := [], dstHold := [], data := [] }) h
    if allDone (carrOf d t) then done t stDone (eSegs e) d else advance t d

/-- SEGMENT_VERDICT: the computed tag is compared with the trailer's (R136, R137, R153, R155). -/
def execSegmentVerdict (tag seg : Nat) (s : State) : Res :=
  let c := carrOf s tag
  let g := tget {} c.segs seg
  if !(powered s && !inFault s && c.stage == .running && g.st == .running && g.left == 0 && !g.dst && eOp c.entry != 0x01) then
    .next s
  else if segTag s c false seg g.data == c.tags.getD seg [] then .next (passSeg tag seg s)
  else
    .next (stop tag stTagFail (seg + g.released * 2 ^ 8)
      (updRegion g.region (fun r => { r with tagFailCnt := satInc 32 r.tagFailCnt })
        (countSeg g.region (driveRegion (srcDrive c)) (countRun g.region g.block s))))

/-- SEGMENT_ENCRYPTED: the ciphertext and tag are there, and its Writes with FUA are issued (R135, R138). -/
def execSegmentEncrypted (tag seg : Nat) (s : State) : Res :=
  let c := carrOf s tag
  let g := tget {} c.segs seg
  if !(powered s && !inFault s && c.stage == .running && g.st == .running && g.left == 0 && (eOp c.entry == 0x01 || g.dst)) then
    .next s
  else
    let ct := segCrypt s c g.dst seg g.data
    let d := dstDrive c
    let ps := segPieces s d (segLen c.entry seg / 4096)
    let a := updSeg tag seg (fun y => { y with
      st := .writing, out := ct, tag := segTag s c g.dst seg ct, data := [], left := ps.length })
      (countRun (passRegion g) g.block s)
    let b := ps.foldl (fun s x => issue d (.segWrite seg x.1) (some tag) (dstLba c + segBlock c seg + x.1) x.2 s) a
    .next (advance tag b)

/-- One Write of segment `p` has completed (R135). -/
def segWritten (t p : Nat) (s : State) : State :=
  let a := updSeg t p (fun g => { g with left := g.left - 1 }) s
  let c := carrOf a t
  let g := tget {} c.segs p
  if g.left == 0 then
    let b := countSeg (passRegion g) (driveRegion (dstDrive c)) a
    advance t (updSeg t p (fun g => { g with st := .done, hold := [], dstHold := [], out := [] }) b)
  else a

/-- The trailer Write has completed: the carriage is DONE with its first index (R123, R135). -/
def trailerWritten (t : Nat) (s : State) : State :=
  done t stDone (carrOf s t).firstIndex (updCarr t (fun c => { c with trailer := .done }) s)

/-! ### The legacy path (R113, R134) -/

/-- Blocks of the next piece of a legacy carriage from block `off` on. -/
def pieceBlocks (s : State) (c : Carriage) (off : Nat) : Nat := min (max 1 (xferBlocks s (srcDrive c))) (eLength c.entry / 4096 - off)

/-- Staging reserved for the next piece of a legacy carriage: a straggler's LEGACY_READ lands in spill (R143, R144, R147); none
where there is no room. -/
def reservePiece (t off : Nat) (s : State) : Option State :=
  let c := carrOf s t
  let d := srcDrive c
  (granules s d (pieceBlocks s c off) (landsInSpill s c d)).map (fun y =>
    markAll (countSpill d y.2 (markDegraded t (y.1 != driveRegion d)
      (updSeg t 0 (fun g => { g with region := y.1, hold := y.2, at_ := s.now, left := off }) s))))

/-- The piece of a legacy carriage at block `off` begins once it has SRAM: a read from the drive, or a read of the host's
source. Until then the carriage's row is run again (R113, R143). -/
def legacyPiece (t off : Nat) (s : State) : State :=
  let c := carrOf s t
  let n := pieceBlocks s c off
  match reservePiece t off s with
  | none => updSeg t 0 (fun g => { g with st := .idle, left := off }) s
  | some a =>
    let b := updSeg t 0 (fun g => { g with st := .fetching }) a
    if eOp c.entry == 0x08 then issue (srcDrive c) (.legacyRead off) (some t) (tLba (eTarget c.entry) + off) n b
    else readBuffer (.data t 0) t (4096 * off) (4096 * n) b

/-- The data units of a legacy carriage (R123). -/
def legacyUnits (c : Carriage) : Nat := eLength c.entry / (if eOption c.entry 4 then 4096 else 512)

/-- The piece of a legacy carriage at block `off` is done: the next one follows, or the carriage completes (R113, R123). -/
def legacyNext (t : Nat) (s : State) : State :=
  let c := carrOf s t
  let off := (tget {} c.segs 0).left + pieceBlocks s c (tget {} c.segs 0).left
  let a := updSeg t 0 (fun g => { g with hold := [], data := [], out := [] }) s
  if off ≥ eLength c.entry / 4096 then done t stDone (legacyUnits c) a else legacyPiece t off a

/-- A staged piece of a LEGACY_READ decrypted on cell 0 and written to the destination (R134). -/
def legacyDecrypt (t : Nat) (s : State) : State :=
  let c := carrOf s t
  let g := segOf s t 0
  legacyNext t (writeBuffer t (4096 * g.left) (xtsUnits s c false (4096 * g.left) g.data) (countUnits c g.data.length s))

/-- A staged piece of a LEGACY_WRITE encrypted on cell 0 and written to the drive with FUA (R134). -/
def legacyEncrypt (t : Nat) (s : State) : State :=
  let c := carrOf s t
  let g := segOf s t 0
  let a := updSeg t 0 (fun y => { y with st := .writing, out := xtsUnits s c true (4096 * g.left) g.data, data := [] })
    (countUnits c g.data.length s)
  issue (srcDrive c) (.legacyWrite g.left) (some t) (tLba (eTarget c.entry) + g.left) (pieceBlocks s c g.left) a

/-- The row of a legacy carriage: it begins with its first piece; a piece that has no SRAM yet asks again, and a staged one
has its pass `f` once cell 0 can take it (R113, R134). -/
def legacyRow (t op : Nat) (f : Nat → State → State) (s : State) : Res :=
  if isAt s t op .admitted then .next (legacyPiece t 0 (begin_ t s))
  else if !isAt s t op .running then .next s
  else
    match (segOf s t 0).st with
    | .idle => .next (legacyPiece t (segOf s t 0).left s)
    | .ready => onlyIf (legacyCell s && !s.tmp.dataStop) s (f t (touchKey 0 0 .legacy s))
    | _ => .next s

/-- LEGACY_READ: piece by piece from the drive through cell 0 to the destination (R113, R134). -/
def execLegacyRead (tag : Nat) (s : State) : Res := legacyRow tag 0x08 legacyDecrypt s

/-- LEGACY_WRITE: piece by piece from the source through cell 0 to the drive (R113, R134). -/
def execLegacyWrite (tag : Nat) (s : State) : Res := legacyRow tag 0x09 legacyEncrypt s

/-- A piece of a LEGACY_READ has landed in staging. -/
def legacyLanded (t : Nat) (data : Bytes) (s : State) : State := updSeg t 0 (fun g => { g with st := .ready, data := data }) s

/-! ### Sending segments to blocks, epochs and array faults -/

/-- The first segment of the carriage that may start and is at no block yet. -/
def toSend (c : Carriage) (dst : Bool) : Option Nat :=
  firstBelow (eSegs c.entry) (fun p => startable c p && (tget {} c.segs p).dst == dst && (tget {} c.segs p).queue.isNone)

/-- No block that holds the key has a free cell, and of the blocks that accept it none has fewer segments (R140). -/
def sentHere (s : State) (x b : Nat) (k : KeyId) : Bool :=
  blockAccepts s x b k && (List.range 8).all (fun c =>
    !(holdsKey s x c k && blockFree s x c) && !(blockAccepts s x c k && queuedAt s x c < queuedAt s x b))

/-- KEY_STAGING_LOAD: the carriage's next segment is sent to a block without a free cell for its key, and the block loads
the key where it does not hold it (R139, R140). The legacy register's key is loaded by block 0 of region 0 alone (R134). -/
def execKeyStagingLoad (region block tag : Nat) (dst : Bool) (s : State) : Res :=
  let c := carrOf s tag
  let k := passKey c dst
  let id := keyIdent tag k
  let ok := live s && c.stage == .running && (isTrain c.entry || isLegacy c.entry) && (!dst || eOp c.entry == 0x04) &&
    region < 4 && (regionOf s region).state == .normal && k != .none && !keyGone s k
  let load (s : State) : State := if holdsKey s region block id then s else loadKey region block (keyEntry s tag k) (draw s)
  if !ok then .next s
  else if id == .legacy then
    onlyIf (region == 0 && block == 0 && blockAccepts s 0 0 .legacy && !holdsKey s 0 0 .legacy) s (load s)
  else
    match toSend c dst with
    | none => .next s
    | some p =>
      onlyIf (passRegion (tget {} c.segs p) == region && sentHere s region block id && !behindOther s tag region) s
        (updSeg tag p (fun g => { g with queue := some block }) (load s))

/-- SHARE_EPOCH: every 1,000 µs new weights take effect and the accounting starts afresh (R139, R282). -/
def execShareEpoch (s : State) : Res := onlyIf (powered s) s (shareSync s)

/-- The ARRAY_FAULT record and cause (R327, R408). -/
def arrayRecord (x b k kind : Nat) (s : State) : State :=
  setIntBoth 10 (recordSeq .arrayFault (natLe 1 x ++ natLe 1 b ++ natLe 1 k ++ natLe 1 kind) s)

/-- Segment `p` is shunted off its cell in region `x`: its carriage carries REPLAYED and the segment starts again from its
first byte, on a cell of the same block; an INGEST reads it from the host's source fragments again (R145). -/
def shuntSeg (x t p : Nat) (s : State) : State :=
  let y := (carrOf s t).entry
  let e := eOp y
  let a := updRegion x (fun r => { r with shuntCnt := satInc 32 r.shuntCnt }) (updCarr t (fun c => { c with replayed := true }) s)
  if e == 0x01 then
    readBuffer (.data t p) t (segOff y p) (segLen y p)
      (readySeg t p (fun g => { g with st := .fetching, left := 1, data := [], queue := some g.block }) a)
  else readySeg t p (fun g => stagedSeg { g with
    st := .fetching, queue := some g.block, dstHold := if e == 0x04 then g.dstHold else [] }) a

/-- The running segments that pass the test are shunted, on region `x`'s count (R145). -/
def shunt (x : Nat) (f : Seg → Bool) (s : State) : State :=
  s.car.cars.foldl (fun s e =>
    (e.2.segs.foldl (fun s g => if g.2.st == .running && f g.2 then shuntSeg x e.1 g.1 s else s) s)) s

/-- The granule lies in the SRAM of region `x`. -/
def inSram (x : Nat) (g : Nat × Nat) : Bool := isSram g && g.1 == x

/-- The segment runs in region `x`, or has data staged there. -/
def usesRegion (x : Nat) (g : Seg) : Bool := passRegion g == x || (g.hold ++ g.dstHold).any (inSram x)

/-- Work that a lost cell 0 leaves without a path: running legacy carriages end (R134). -/
def endLegacy (s : State) : State :=
  if cell0Ok s then s
  else reap stKeyErased (stopAll (fun _ c => (c.stage == .admitted || c.stage == .running) && isLegacy c.entry) stDegradedRefused s)

/-- Work for drives that no region serves any more ends DEGRADED_REFUSED (R147). -/
def endUnservable (s : State) : State :=
  stopAll (fun _ c => (c.stage == .admitted || c.stage == .running) && !pathServed s c.entry) stDegradedRefused s

/-- Segments that region `x` has staged, or is about to stage, for one side of a carriage. -/
def movable (g : Seg) : Bool := g.st != .idle && g.st != .done

/-- The commands of segment `p` of carriage `t`, or its trailer's, at drive `d` are its no more: those that were sent keep their
granules until they end, the others are not sent (R143). -/
def detach (d t : Nat) (f : CmdKind → Bool) (s : State) : State :=
  updDrive d (fun y => { y with
    cmds := tmap {} (fun _ k => if k.tag == some t && f k.kind then { k with tag := none } else k) y.cmds
    waitCmds := y.waitCmds.filter (fun w => !(w.2.1 == some t && f w.1)) }) s

/-- The command moves data of segment `p`. -/
def movesSeg (p : Nat) (k : CmdKind) : Bool :=
  match k with
  | .segRead q _ | .segWrite q _ => q == p
  | .legacyRead _ | .legacyWrite _ => true
  | _ => false

/-- Segment `p` starts again from its source, with nothing staged: it had no room left (R147; log entry 82). -/
def restartSeg (t p : Nat) (s : State) : State :=
  let c := carrOf s t
  let legacy := eOp c.entry == 0x08 || eOp c.entry == 0x09
  detach (dstDrive c) t (movesSeg p) (detach (srcDrive c) t (movesSeg p) (updSeg t p (fun g => { g with
    st := .idle, data := [], out := [], dst := false, hold := [], dstHold := [], queue := none
    left := if legacy then g.left else 0 }) s))

/-- `n` granules in the window that drive `d` has now: of the loans of its serving regions, or of its region's spill area where
the data may lie there. -/
def newRoom (s : State) (d y n : Nat) (spill : Bool) : Option (List (Nat × Nat)) :=
  (window s d y n).orElse (fun _ => if spill then spillRoom s d n else none)

/-- The source side of segment `p` leaves region `x`: its granules in SRAM there move into the loans of the serving regions, or,
where they have no room, ciphertext, and what a DRIVE_ADMIN moves, into its region's own spill area (R147; log entry 82). A
segment that can hold its data in neither is read again from its source. -/
def moveSrc (x t p : Nat) (s : State) : State :=
  let c := carrOf s t
  let g := segOf s t p
  let d := srcDrive c
  let y := (serverFor s d).getD (driveRegion d)
  let op := eOp c.entry
  let stays := !g.hold.any (inSram x)
  let far := markDegraded t true (updSeg t p (fun g => { g with
    region := y, queue := none, hold := if stays then g.hold else [], dstHold := if op == 0x04 then g.dstHold else [] }) s)
  let cipher := op == 0x02 || op == 0x04 || op == 0x08 || op == 0x22 || g.st == .writing
  if stays then far
  else match newRoom far d y g.hold.length cipher with
  | some l => updSeg t p (fun g => { g with hold := l }) far
  | none => if op == 0x22 then updSeg t p (fun h => { h with hold := g.hold }) far else restartSeg t p far

/-- The destination side of a REKEY's segment `p` moves likewise: its ciphertext may go to spill, its plaintext may not. -/
def moveDst (x t p : Nat) (s : State) : State :=
  let c := carrOf s t
  let g := segOf s t p
  let d := dstDrive c
  let y := (serverFor s d).getD (driveRegion d)
  let stays := !g.dstHold.any (inSram x)
  let far := markDegraded t true (updSeg t p (fun h => { h with
    dstRegion := y, queue := if h.dst then none else h.queue, dstHold := if stays then h.dstHold else [] }) s)
  if stays then far
  else match newRoom far d y g.dstHold.length (g.st == .writing) with
  | some l => updSeg t p (fun g => { g with dstHold := l }) far
  | none => restartSeg t p far

/-- A trailer's granule moves likewise; without room its command is asked for again. -/
def moveTrailer (t : Nat) (s : State) : State :=
  let c := carrOf s t
  let d := if c.trailer == .writing then dstDrive c else srcDrive c
  let far := updCarr t (fun c => { c with trailerHold := [] }) s
  match newRoom far d ((serverFor s d).getD (driveRegion d)) c.trailerHold.length true with
  | some l => updCarr t (fun c => { c with trailerHold := l }) far
  | none => detach d t (fun k => k == .trailerRead || k == .trailerWrite) (updCarr t (fun c => { c with trailer := .none }) far)

/-- What segment `p` of carriage `t` has staged in region `x`, or for it, moves. -/
def moveSeg (x t p : Nat) (s : State) : State :=
  let g := segOf s t p
  let a := if movable g && !g.hold.isEmpty && (g.region == x || g.hold.any (inSram x)) then moveSrc x t p s else s
  let h := segOf a t p
  if movable h && !h.dstHold.isEmpty && eOp (carrOf s t).entry == 0x04 && (h.dstRegion == x || h.dstHold.any (inSram x)) then
    moveDst x t p a
  else a

/-- The window of region `x` is remapped: what lay in its SRAM moves (R147). -/
def remap (x : Nat) (s : State) : State :=
  markAll (s.car.cars.foldl (fun s e =>
    let a := e.2.segs.foldl (fun s g => moveSeg x e.1 g.1 s) s
    if e.2.trailerHold.any (inSram x) then moveTrailer e.1 a else a) s)

/-- A region set DEGRADED: its running segments are shunted to serving regions, the segments it had staged move with its
window, and work that no region serves any more ends; its key staging is zeroised (R147; log entry 82). -/
def degrade (x : Nat) (s : State) : State :=
  let a := seqd (updRegion x (fun r => { r with state := .degraded }) s)
  let b := shunt x (usesRegion x) (arrayRecord x 0xFF 0xFF 3 a)
  let c := remap x b
  let d := updWork x (fun w => { w with blocks := tmap {} (fun _ b => { b with keys := [] }) w.blocks }) c
  reap stKeyErased (endUnservable (endLegacy d))

/-- The segments queued at the block are shunted: their carriages carry REPLAYED (R19, R146). -/
def shuntQueued (x b : Nat) (s : State) : State :=
  let here (g : Seg) : Bool := segReady g && passRegion g == x && g.queue == some b
  let n := (s.car.cars.map (fun e => tcount e.2.segs (fun _ g => here g))).sum
  updRegion x (fun r => { r with shuntCnt := satAdd 32 r.shuntCnt n })
    (updCar (fun k => { k with cars := tmap {} (fun _ c =>
      { c with replayed := c.replayed || tany c.segs (fun _ g => here g) }) k.cars }) s)

/-- Segments queued at the block are sent to another (R146). -/
def unqueue (x b : Nat) (s : State) : State :=
  updCar (fun k => { k with cars := tmap {} (fun _ c => { c with
    segs := tmap {} (fun _ g => if passRegion g == x && g.queue == some b then { g with queue := none } else g) c.segs }) k.cars }) s

/-- A block retired: its staging entries are zeroised and its segments shunted; the eighth makes its region DEGRADED
(R146). -/
def retireBlock (x b : Nat) (s : State) : State :=
  if (regionOf s x).blkRetired.getLsbD b then s
  else
    let a := seqd (updRegion x (fun r => { r with blkRetired := r.blkRetired ||| (1 <<< b) }) s)
    let d := arrayRecord x b 0xFF 2 (updBlock x b (fun w => { w with keys := [] }) a)
    let e := unqueue x b (shunt x (fun g => passRegion g == x && g.block == b) (shuntQueued x b d))
    if (regionOf e x).blkRetired == 0xFF && (regionOf e x).state == .normal then degrade x e else endLegacy e

/-- A legacy unit is on global cell 0: a piece or a LEGACY source is staged for its pass, and block 0 holds its key (R134,
R145). -/
def legacyOnCell (s : State) (x b k : Nat) : Bool :=
  x == 0 && b == 0 && k == 0 && legacyCell s && tany s.car.cars (fun _ c =>
    c.stage == .running && isLegacy c.entry && tany c.segs (fun _ g => g.st == .ready && !g.dst))

/-- The segment that runs on the cell, with its carriage's tag. -/
def segOn (s : State) (x b k : Nat) : Option (Nat × Nat) :=
  s.car.cars.findSome? (fun e => (e.2.segs.find? (fun g =>
    g.2.st == .running && passRegion g.2 == x && g.2.block == b && g.2.cell == k)).map (fun g => (e.1, g.1)))

/-- The shunted segment starts again at once on the given cell, where it is one of its block that may take it; what the first
attempt released is written again (R145). -/
def replayAt (t p b k : Nat) (s : State) : State :=
  let c := carrOf s t
  let g := segOf s t p
  let x := passRegion g
  if g.queue == some b && startable c p && cellFree s x b k && holdsKey s x b (keyIdent t (passKey c g.dst)) then
    match holdPlain t p s with
    | some a => startSeg t p b k g.released a
    | none => s
  else s

/-- CELL_PARITY_ERROR: the cell is fenced and its segment replayed, on a cell of its block where one is left; the fourth
fence retires the block (R145, R146). A replay from staging starts at the given cell at once and writes the released
prefix again; an INGEST's waits for its source. Legacy work on global cell 0 ends (R134). -/
def execCellParityError (region block cell newBlock newCell : Nat) (s : State) : Res :=
  let r := regionOf s region
  let ok := live s && region < 4 && block < 8 && cell < 4 && r.state == .normal && !r.blkRetired.getLsbD block &&
    !r.cellFenced.getLsbD (4 * block + cell) && (onCell s region block cell || legacyOnCell s region block cell)
  if !ok then .next s
  else
    let a := seqd (updRegion region (fun r => { r with cellFenced := r.cellFenced ||| (1 <<< (4 * block + cell)) }) s)
    let c := arrayRecord region block cell 1 a
    let all := (List.range 4).all (fun k => (regionOf c region).cellFenced.getLsbD (4 * block + k))
    let d := if all then retireBlock region block c
      else endLegacy (shunt region (fun g => passRegion g == region && g.block == block && g.cell == cell) c)
    match segOn s region block cell with
    | none => .next d
    | some v => .next (replayAt v.1 v.2 newBlock newCell d)

/-- KSTG_CORRECTED_ERROR (R146). -/
def execKstgCorrectedError (region : Nat) (s : State) : Res :=
  onlyIf (powered s && !inFault s && region < 4) s (updRegion region (fun r => { r with kstgCe := satInc 32 r.kstgCe }) s)

/-- BLOCK_RETIRE: an uncorrectable key-staging error (R146). -/
def execBlockRetire (region block : Nat) (s : State) : Res :=
  onlyIf (live s && region < 4 && block < 8 && (regionOf s region).state == .normal &&
      !(regionOf s region).blkRetired.getLsbD block) s
    (retireBlock region block (updRegion region (fun r => { r with kstgUe := satInc 8 r.kstgUe }) s))

/-- REGION_DEGRADED: an uncorrectable crossbar or staging error (R147). -/
def execRegionDegraded (region : Nat) (s : State) : Res :=
  onlyIf (live s && region < 4 && (regionOf s region).state == .normal) s
    (degrade region (updRegion region (fun r => { r with xbarUe := satInc 8 r.xbarUe }) s))

/-- D2D_RETRY: a transfer was delivered again, so the link works (R20). -/
def execD2dRetry (region : Nat) (s : State) : Res :=
  onlyIf (powered s && !inFault s && region < 4) s
    (updRegion region (fun r => { r with d2dCe := satInc 32 r.d2dCe, d2dDown := none }) s)

/-- The stamp from which a region's die-to-die link is down: that of the loss, or of an earlier one in the last 1 ms (R20). -/
def downSince (s : State) (r : Region) : Nat :=
  match r.d2dDown with
  | some t => if s.now < t + 1000 then t else s.now
  | none => s.now

/-- D2D_UNDELIVERABLE: counted, and handled as an uncorrectable crossbar error (R20, R147). -/
def execD2dUndeliverable (region : Nat) (s : State) : Res :=
  if !(live s && region < 4 && (regionOf s region).state != .lost) then .next s
  else
    let a := updRegion region (fun r => { r with
      d2dUe := satInc 16 r.d2dUe, xbarUe := satInc 8 r.xbarUe, d2dDown := some (downSince s r) }) s
    .next (if (regionOf a region).state == .normal then degrade region a else a)

/-- The places of an INGEST's segment whose ciphertext waits for its drive to be asked for it: those of its Writes not yet sent
(R144). -/
def waitingPlaces (s : State) (d t p : Nat) : List Nat :=
  (driveOf s d).waitCmds.flatMap (fun w =>
    match w.1, w.2.1 with
    | .segWrite q off, some u =>
      if u == t && q == p && eOp (carrOf s t).entry == 0x01 then (List.range w.2.2.2).map (off + ·) else []
    | _, _ => [])

/-- Up to `n` granules of a segment's waiting ciphertext moved to the spill area of region `x`. -/
def spillSeg (x d n t p : Nat) (s : State) : State :=
  let g := segOf s t p
  let here := (waitingPlaces s d t p).filter (fun i => isSram (g.hold.getD i (x, sramSize)))
  let spilt := freeSpill s x (min n here.length)
  updSeg t p (fun g => { g with hold := (here.zip spilt).foldl (fun l e => l.set e.1 e.2) g.hold }) s

/-- The waiting ciphertext of drive `d` moved to the spill area of region `x` until it has grown to `most` granules. -/
def spillPort (x d most : Nat) (s : State) : State :=
  s.car.cars.foldl (fun s e => e.2.segs.foldl (fun s g =>
    if dstDrive e.2 == d then spillSeg x d (most - spillOcc s x) e.1 g.1 s else s) s) s

/-- STRAGGLER_SPILL: up to `granules` granules of a straggling port's ingest ciphertext whose Writes wait move to spill, and
the Writes go to them there (R144). -/
def execStragglerSpill (drive granules : Nat) (s : State) : Res :=
  let x := driveRegion drive
  if !(live s && (regionOf s x).spillEn && straggles s drive) then .next s
  else
    let a := spillPort x drive (spillOcc s x + granules) s
    .next (markStaging x (updRegion x (fun r => { r with spillCnt := satAdd 32 r.spillCnt (spillOcc a x - spillOcc s x) }) a))

end Sys2Proof.Machine
end

