-- ==== Sys2Proof/Machine/Shelves.lean ====
section
/-! DEFINITION. Shelves, drives and sideband links: states, losses, the steps of a wake and a sleep (R172-R192). -/
namespace Sys2Proof.Machine

/-! ### Carriages at a drive -/

/-- The carriage names drive `d`. -/
def namesDrive (c : Carriage) (d : Nat) : Bool :=
  ((isTrain c.entry || isLegacy c.entry || eOp c.entry == 0x22) && srcDrive c == d) ||
    (eOp c.entry == 0x04 && tDrive (eDstTarget c.entry) == d)

/-- The carriage is admitted and has not ended. -/
def isLive (c : Carriage) : Bool := c.stage == .admitted || c.stage == .running

/-- The segment position of a command (R123): 0xFF where it has none. -/
def kindPos (k : CmdKind) : Nat :=
  match k with
  | .segRead p _ | .segWrite p _ => p
  | _ => 0xFF

/-- The command writes a train's segment or trailer. -/
def isTrainWrite (k : CmdKind) : Bool :=
  match k with
  | .segWrite _ _ | .trailerWrite => true
  | _ => false

/-- The result word of a media failure at drive `d` (R123): the position, and whether the destination drive of a REKEY
failed; where both its sides are that drive, the failing command `k` tells. A LEGACY-source REKEY's source has no position. -/
def mediaWord (c : Carriage) (d pos : Nat) (k : Option CmdKind) : Nat :=
  let dst := eOp c.entry == 0x04 && tDrive (eDstTarget c.entry) == d && (srcDrive c != d || k.any isTrainWrite)
  let p := if isLegacy c.entry && !dst then 0xFF else pos
  p * 2 ^ 16 + b2n dst * 2 ^ 24

/-- The carriage's first command at drive `d`. -/
def headKind (s : State) (t d : Nat) : Option CmdKind :=
  ((driveOf s d).cmds.find? (fun x => x.2.used && x.2.tag == some t)).map (·.2.kind)

/-- The position at which a carriage stands for drive `d`: that of its first command there, else its first segment not
done. -/
def posAt (s : State) (t d : Nat) : Nat :=
  let c := carrOf s t
  match headKind s t d with
  | some k => kindPos k
  | none =>
    if !isTrain c.entry || c.trailer == .reading || c.trailer == .writing then 0xFF
    else (firstBelow (eSegs c.entry) (fun p => (tget {} c.segs p).st != .done)).getD 0xFF

/-- Every carriage in flight that names drive `d` and passes the test stops (R189, R191). -/
def dropCarriages (d status : Nat) (f : Carriage → Bool) (s : State) : State :=
  (tkeys s.car.cars (fun _ c => isLive c && namesDrive c d && f c)).foldl
    (fun s t => stopOne t status (mediaWord (carrOf s t) d (posAt s t d) (headKind s t d)) s) s

/-! ### Drive states -/

/-- The DRIVE record (R327). -/
def driveRecord (d kind cause dword : Nat) (s : State) : State :=
  record .drive (natLe 2 d ++ natLe 1 kind ++ natLe 1 cause ++ natLe 4 dword) s

/-- Drive `d` takes a state: DRIVE_CHANGE on both ports (R177, R408). -/
def driveTo (d : Nat) (st : DriveState) (s : State) : State := setIntBoth 5 (updDrive d (fun x => { x with state := st }) s)

/-- Drive `d` loses its link and its queues. -/
def clearDrive (d : Nat) (s : State) : State :=
  updDrive d (fun x => { x with
    lane := .down, speed := 0, clkreq := false, rootClk := false, ioq := 0, cmds := [], waitCmds := [], dlUpAt := none
    linkDownAt := none, resetting := false, disabling := false, master := false, vectors := 0, shutStep := 0, shutAt := none, shutDone := false }) s

/-- Drive `d` becomes FAILED: a sequenced drive loss with its record and cause; its carriages end SHELF_OFFLINE
(R177, R189, DIAG_FAIL). -/
def loseDrive (d cause : Nat) (s : State) : State :=
  let a := driveTo d .failed (seqd s)
  let b := updDiag d (fun x => { x with fail := cause }) (driveRecord d 3 cause 0 a)
  reap stKeyErased (clearDrive d (dropCarriages d stShelfOffline (fun _ => true) b))

/-! ### Shelf states -/

/-- The code of a shelf state (SHELF_STAT). -/
def shelfCode : ShelfState → Nat
  | .asleep => 0 | .waking => 1 | .awake => 2 | .sleeping => 3

/-- Shelf `n` takes a state: sequenced, recorded, DRIVE_CHANGE on both ports (R176). -/
def shelfTo (n : Nat) (st : ShelfState) (s : State) : State :=
  let a := seqd (updShelf n (fun h => { h with state := st }) s)
  setIntBoth 5 (recordSeq .shelfState (natLe 1 n ++ natLe 1 (shelfCode st) ++ natLe 1 (shelfOf a n).cause ++ [0]) a)

/-- The shelf is powered (R182). -/
def isPowered (h : Shelf) : Bool := h.state != .asleep

/-- The READY drives of shelf `n`. -/
def readyDrives (s : State) (n : Nat) : List Nat := (shelfDrives n).filter (fun d => (driveOf s d).state == .ready)

/-- An exchange asked for on link `l` (R173). -/
def ask_ (l : Nat) (op : SbOp) (payload : Bytes) (s : State) : State :=
  if (linkOf s l).down then s else updLink l (fun x => { x with queue := x.queue ++ [(op, payload)] }) s

/-- An exchange asked for on both links of shelf `n`. -/
def askBoth (n : Nat) (op : SbOp) (payload : Bytes) (s : State) : State :=
  ask_ (2 * n + 1) op payload (ask_ (2 * n) op payload s)

/-- SET_PERST's payload: the masked bays asserted or not (R173). -/
def maskValue (mask : Nat) (on : Bool) : Bytes := natLe 4 mask ++ natLe 4 (if on then mask else 0)

/-- A change of the root side's CLKREQ# for one bay joins the SET_CLKREQ request that waits on its link, or a new one at the
end of its queue; a request already sent stays as it was (R174, R181). -/
def batchClkreq (sent : Bool) (bay : Nat) (on : Bool) : List (SbOp × Bytes) → List (SbOp × Bytes)
  | [] => [(.setClkreq, maskValue (2 ^ bay) on)]
  | (o, b) :: q =>
    if o == .setClkreq && !sent then
      (o, natLe 4 (fld b 0 4 ||| 2 ^ bay) ++
        natLe 4 (if on then fld b 4 4 ||| 2 ^ bay else fld b 4 4 - b2n (bit (fld b 4 4) bay) * 2 ^ bay)) :: q
    else (o, b) :: batchClkreq false bay on q

/-- The sideband link of drive `d` and its bit there (R170). -/
def driveLink (d : Nat) : Nat := 2 * driveShelf d + driveRegion d / 2
/-- The bit of drive `d` in its link's bitmaps (R170). -/
def driveBit (d : Nat) : Nat := 16 * (driveRegion d % 2) + d % 16

/-- The root side's CLKREQ# of drive `d` is to change (R181). -/
def askClkreq (d : Nat) (on : Bool) (s : State) : State :=
  if (linkOf s (driveLink d)).down then s
  else updLink (driveLink d) (fun x => { x with queue := batchClkreq (x.tries != 0) (driveBit d) on x.queue }) s

/-- The port of drive `d` enters L1.2 (R179, R181). -/
def parkPort (d : Nat) (s : State) : State := askClkreq d false (updDrive d (fun x => { x with lane := .l12, clkreq := false }) s)

/-- The port of drive `d` begins to leave L1.2, where the budget has a place for it: it asks for its reference clock first
(R178, R181). -/
def beginExit (d : Nat) (s : State) : State :=
  if (driveOf s d).lane == .l12 && (driveOf s d).linkDownAt.isNone && l0Now s < effBudget s then
    askClkreq d true (markL0 (updDrive d (fun x => { x with lane := .training }) s))
  else s

/-- The port is on its way from L1.2 to L0. -/
def isExiting (x : Drive) : Bool :=
  x.lane == .training && x.linkDownAt.isNone && (x.state == .ready || x.state == .unusable)

/-- The drive's link carries what the device and the drive send each other (R22, R181). -/
def linkUp (x : Drive) : Bool := x.lane == .l0 && x.linkDownAt.isNone

/-- The shelf is powered off: SET_PERST asserting every bay and SET_POWER off, on the links that answer (R185, R191). -/
def askOff (n : Nat) (s : State) : State :=
  askBoth n .setPower [0x00] (askBoth n .setPerst (maskValue (2 ^ 32 - 1) true) s)

/-- The shelf operation of shelf `n` ends with its carriage (R183, R185). -/
def endShelfOp (n status result : Nat) (s : State) : State :=
  let t := (shelfOf s n).tag
  let a := updShelf n (fun h => { h with step := .idle, tag := none }) s
  match t with
  | some t => done t status result a
  | none => a

/-- Every present drive of a shelf that lost power or its link becomes FAILED; its work ends SHELF_OFFLINE (R191). -/
def loseDrives (n : Nat) (s : State) : State :=
  (shelfDrives n).foldl (fun s d =>
    let x := driveOf s d
    if x.state == .absent then s
    else
      let a := dropCarriages d stShelfOffline (fun _ => true) s
      clearDrive d (updDiag d (fun y => { y with fail := if x.state == .failed then y.fail else 4 })
        (updDrive d (fun y => { y with state := .failed, perst := true }) a))) s

/-- Exchanges still waiting on the links of shelf `n` are given up. -/
def dropExchanges (n : Nat) (s : State) : State :=
  let f (x : SbLink) : SbLink := { x with queue := [], tries := 0, failedAt := none, int := false }
  updLink (2 * n + 1) f (updLink (2 * n) f s)

/-- A shelf drops (R191); a shelf operation in progress ends MEDIA_TIMEOUT. -/
def dropShelf (n cause : Nat) (s : State) : State :=
  let a := updShelf n (fun h => { h with cause := cause, dropped := true }) s
  let b := loseDrives n (shelfTo n .asleep a)
  reap stKeyErased (endShelfOp n stMediaTimeout 0 (askOff n (dropExchanges n b)))

/-- A wake fails: the shelf returns to ASLEEP as under R191, with its cause, and its carriage completes MEDIA_TIMEOUT (R183). -/
def wakeFail (n cause : Nat) (s : State) : State := dropShelf n cause s

/-- A step of a wake takes its own CSN (R183). -/
def wakeStep (n : Nat) (st : ShelfStep) (s : State) : State :=
  updShelf n (fun h => { h with step := st, answered := [] }) (seqd s)

/-- The wake's last step: READY drives that are not hot are parked and the shelf is AWAKE (R183 step 7). -/
def finishWake (n : Nat) (s : State) : State :=
  let k := (readyDrives s n).length
  if k == 0 then wakeFail n 4 s
  else
    let a := shelfTo n .awake s
    let b := (readyDrives a n).foldl (fun s d =>
      if heldHot s d || (driveOf s d).lane != .l0 || !(driveOf s d).waitCmds.isEmpty then s else parkPort d s) a
    endShelfOp n stDone k b

/-- Every drive that was told to shut down has done so, or its deadline has passed (R185 step 3). -/
def allShut (s : State) (n : Nat) : Bool :=
  (shelfDrives n).all (fun d => (driveOf s d).shutStep == 0 || (driveOf s d).shutDone)

/-- Step 4 of a sleep: PERST# asserted, then power off (R185). -/
def sleepPerst (n : Nat) (s : State) : State :=
  askBoth n .setPerst (maskValue (2 ^ 32 - 1) true) (wakeStep n .perstOff s)

/-- A drive of a waking or sleeping shelf has reached its outcome. The wake ends once every present drive has, a drive put in
after its group's release apart (R183 step 7, R192); the shutdown of a sleep ends once every drive has (R185 step 3). -/
def shelfCheck (n : Nat) (s : State) : State :=
  let h := shelfOf s n
  if h.state == .waking && h.step == .drives && (shelfDrives n).all (fun d =>
      let x := driveOf s d
      !x.present || x.state == .ready || x.state == .unusable || x.state == .failed || x.state == .off) then finishWake n s
  else if h.step == .shutdown && allShut s n then sleepPerst n s
  else s

/-- Drive `d` becomes FAILED, and its shelf's wake or sleep goes on without it (R177, R183, R185, R189). -/
def failDrive (d cause : Nat) (s : State) : State := shelfCheck (driveShelf d) (loseDrive d cause s)

/-- The wake of shelf `n` starts for the carriage of tag `t` (R182, R183 step 1). -/
def startWake (n t : Nat) (s : State) : State :=
  let a := updMdf (fun m => { m with shelfQueue := m.shelfQueue.erase t }) (begin_ t s)
  let b := updShelf n (fun h => { h with
    step := .identify, tag := some t, answered := [], good := [], stagger := s.mdf.stagger
    released := 0, lastRelease := 0 }) a
  let f (x : SbLink) : SbLink := { x with queue := [], tries := 0, failedAt := none, int := false, down := false, pollAt := s.now }
  askBoth n .identify [] (shelfTo n .waking (updLink (2 * n + 1) f (updLink (2 * n) f b)))

/-- Shelves powered now (R182). -/
def poweredShelves (s : State) : Nat := tcount s.mdf.shelves (fun _ h => isPowered h)

/-- The shelf a SHELF_WAKE or SHELF_SLEEP names (R109). -/
def eShelf (e : Bytes) : Nat := fld e 48 1

/-- A carriage was admitted before the SHELF_SLEEP of tag `t`; all were where that carriage is gone. -/
def beforeSleep (s : State) (t : Option Nat) (u : Nat) (c : Carriage) : Bool :=
  match t with
  | some t => u != t && c.admCsn < (carrOf s t).admCsn
  | none => true

/-- An earlier carriage that names a drive of the shelf has not completed (R185 step 2). -/
def sleepBusy (s : State) (n : Nat) : Bool :=
  s.car.cars.any (fun e => isOpen e.2 && beforeSleep s (shelfOf s n).tag e.1 e.2 && (shelfDrives n).any (fun d => namesDrive e.2 d))

/-- The command belongs to a shelf's sleep (R185 step 3). -/
def isShutCmd (k : CmdKind) : Bool :=
  match k with
  | .flush | .queueDelete _ => true
  | _ => false

/-- Commands of the drive's sleep are outstanding or wait to be sent. -/
def shutBusy (x : Drive) : Bool :=
  tany x.cmds (fun _ c => c.used && !c.timedOut && isShutCmd c.kind) || x.waitCmds.any (fun w => isShutCmd w.1)

/-- CC.SHN is set: the drive's time to shut down begins (R185 step 3). -/
def setShn (d : Nat) (s : State) : State :=
  emit (.nvmeCtl d 2) (updDrive d (fun x => { x with ioq := 0, shutStep := 4, shutAt := some s.now, shutDone := false }) s)

/-- The drive's I/O SQs deleted, or its CQs. -/
def deleteQueues (d : Nat) (sq : Bool) (s : State) : State :=
  (List.range (driveOf s d).ioq).foldl (fun s q => issue d (.queueDelete sq) none (q + 1) 0 s) s

/-- The next step of a drive's sleep, once the last one's commands are over: its SQs, its CQs, its shutdown (R185 step 3). -/
def shutNext (d : Nat) (s : State) : State :=
  let x := driveOf s d
  if shutBusy x then s
  else if x.shutStep == 1 && x.ioq != 0 then deleteQueues d true (updDrive d (fun x => { x with shutStep := 2 }) s)
  else if x.shutStep == 2 then deleteQueues d false (updDrive d (fun x => { x with shutStep := 3 }) s)
  else if x.shutStep == 1 || x.shutStep == 3 then setShn d s
  else s

/-- Step 3 of a sleep: each READY or UNUSABLE drive begins its shutdown, a READY one with a Flush (R185). -/
def shutDrives (n : Nat) (s : State) : State :=
  let ds := (shelfDrives n).filter (fun d => (driveOf s d).state == .ready || (driveOf s d).state == .unusable)
  let a := ds.foldl (fun s d =>
    let b := updDrive d (fun x => { x with shutStep := 1, shutAt := none, shutDone := false }) s
    if (driveOf s d).state == .ready then issue d .flush none 0 0 b else shutNext d b)
    (updShelf n (fun h => { h with step := .shutdown }) s)
  shelfCheck n a

/-- Every drive of a shelf without power is OFF; a FAILED one stays FAILED (R177). -/
def offDrives (n : Nat) (s : State) : State :=
  (shelfDrives n).foldl (fun s d =>
    let x := driveOf s d
    if x.state == .absent then s
    else clearDrive d (updDrive d (fun y => { y with state := if x.state == .failed then .failed else .off, perst := true }) s)) s

/-- The last step of a sleep: every drive OFF, the shelf ASLEEP, the carriage DONE (R185). -/
def finishSleep (n : Nat) (s : State) : State :=
  endShelfOp n stDone 0 (shelfTo n .asleep (updShelf n (fun h => { h with dropped := false }) (offDrives n s)))

/-! ### What an exchange's answer does -/

/-- The drive of bit `i` on link `l` (R170). -/
def linkDrive (l i : Nat) : Nat :=
  let q := 32 * (l % 2) + i
  128 * (q / 16) + 16 * (l / 2) + q % 16

/-- The presence of a bay changes: a drive put in is OFF until its shelf wakes. One removed is FAILED on an AWAKE shelf, and on
any other where it was in use or had failed; a bay that was only powered or unpowered is ABSENT (R177, R189, R192). -/
def presenceTo (d : Nat) (on : Bool) (s : State) : State :=
  let x := driveOf s d
  let gone := updDrive d (fun y => { y with present := false }) s
  if x.present == on then s
  else if on then driveTo d .off (seqd (updDrive d (fun y => { y with present := true, perst := true }) s))
  else if x.state == .failed then seqd gone
  else if (shelfOf s (driveShelf d)).state == .awake || (x.state != .off && x.state != .absent) then failDrive d 4 gone
  else driveTo d .absent (seqd gone)

/-- At a wake a bay becomes OFF or ABSENT; DRIVE_CHANGE where its drive had another state (R177, R183, R408). -/
def wakeBay (d : Nat) (on : Bool) (s : State) : State :=
  let st := if on then DriveState.off else .absent
  let a := clearDrive d (updDrive d (fun y => { y with present := on, state := st, perst := true }) s)
  if (driveOf s d).state == st then a else setIntBoth 5 a

/-- A presence bitmap of link `l`: at a wake every bay becomes OFF or ABSENT; later a change is handled per bay
(R183, R192). -/
def setPresence (l bitmap : Nat) (wake : Bool) (s : State) : State :=
  (List.range 32).foldl (fun s i =>
    let d := linkDrive l i
    let on := bit bitmap i
    if wake then wakeBay d on s else presenceTo d on s) s

/-- Both links of the shelf have answered the step. -/
def bothAnswered (s : State) (n : Nat) : Bool :=
  (shelfOf s n).answered.contains (2 * n) && (shelfOf s n).answered.contains (2 * n + 1)

/-- Link `l` has answered the step of its shelf. -/
def answered (l : Nat) (s : State) : State :=
  updShelf (l / 2) (fun h => { h with answered := if h.answered.contains l then h.answered else h.answered ++ [l] }) s

/-- A READ_STATUS answer (R183 step 4, R191): power good on both links within 500 ms ends step 4 at a CSN of its own (log entry
76). A power fault drops any powered shelf, power good lost one that has reached it and is not being switched off. -/
def gotStatus (l v : Nat) (s : State) : State :=
  let n := l / 2
  let h := shelfOf s n
  let good := bit v 0
  if isPowered h && bit v 1 then dropShelf n 3 s
  else if h.state == .waking && h.step == .powerGood then
    if s.now ≥ h.since + 500000 then wakeFail n 2 s
    else
      let a := updShelf n (fun h => { h with
        good := if good then (if h.good.contains l then h.good else h.good ++ [l]) else h.good.erase l }) s
      if (shelfOf a n).good.length == 2 then updShelf n (fun h => { h with step := .groups, goodAt := s.now }) (seqd a) else a
  else if isPowered h && !good && (h.step == .groups || h.step == .drives || h.state == .awake ||
      (h.state == .sleeping && h.step != .powerOff)) then dropShelf n 3 s
  else s

/-- A drive asserts its CLKREQ#: its parked port begins to leave L1.2 (R175, R181). -/
def driveWake (d : Nat) (s : State) : State := beginExit d (updDrive d (fun x => { x with clkreq := true }) s)

/-- What a successful exchange does (R173, R183, R185, R191, R192). -/
def exchanged (l : Nat) (op : SbOp) (req resp : Bytes) (s : State) : State :=
  let n := l / 2
  let h := shelfOf s n
  let a := answered l s
  match op with
  | .identify =>
    if h.step == .identify && bothAnswered a n then askBoth n .readPresence [] (wakeStep n .presence a) else a
  | .readPresence =>
    if h.step == .presence then
      let b := setPresence l (fld resp 0 4) true a
      if bothAnswered b n then
        askBoth n .setPerst (maskValue (2 ^ 32 - 1) true) (updShelf n (fun h => { h with step := .perst, answered := [] }) b)
      else b
    else if h.step != .identify then setPresence l (fld resp 0 4) false s
    else s
  | .setPerst =>
    if h.step == .perst then
      if bothAnswered a n then askBoth n .setPower [0x01] (wakeStep n .power a) else a
    else if h.step == .perstOff then
      if bothAnswered a n then askBoth n .setPower [0x00] (updShelf n (fun h => { h with step := .powerOff, answered := [] }) a)
      else a
    else s
  | .setPower =>
    if h.step == .power then
      if bothAnswered a n then
        updShelf n (fun h => { h with step := .powerGood, since := s.now, pollAt := s.now, good := [] }) a
      else a
    else if h.step == .powerOff then (if bothAnswered a n then finishSleep n a else a)
    else s
  | .readStatus => gotStatus l (fld resp 0 4) s
  | .readEvents =>
    let st := fld resp 8 4
    let b := updLink l (fun x => { x with int := false }) s
    let c := if fld resp 0 4 != 0 then ask_ l .readPresence [] b else b
    let d := (List.range 32).foldl (fun s i => if bit (fld resp 4 4) i then driveWake (linkDrive l i) s else s) c
    if bit st 1 then gotStatus l 2 d else if bit st 0 then ask_ l .readStatus [] d else d
  | .readClkreq =>
    (List.range 32).foldl (fun s i => updDrive (linkDrive l i) (fun x => { x with clkreq := bit (fld resp 0 4) i }) s) s
  | .setClkreq =>
    (List.range 32).foldl (fun s i =>
      if bit (fld req 0 4) i then updDrive (linkDrive l i) (fun x => { x with rootClk := bit (fld req 4 4) i }) s else s) s

/-- The code of a sideband command (R173). -/
def sbCode : SbOp → Nat
  | .identify => 1 | .readPresence => 2 | .setPower => 3 | .setPerst => 4 | .readClkreq => 5 | .readStatus => 6
  | .readEvents => 7 | .setClkreq => 8

/-- A request frame (R173). -/
def sbFrame (op : SbOp) (seq : Nat) (payload : Bytes) : Bytes :=
  let b := natLe 1 (sbCode op + seq % 16 * 16) ++ natLe 1 payload.length ++ payload
  b ++ natLe 1 (crc8 b)

/-- A response that stands: it came, its CRC is right and its SEQ echoed; its status and payload (R173, R174). -/
def sbParse (seq : Nat) (resp : Option Bytes) : Option (Nat × Bytes) :=
  match resp with
  | none => none
  | some b =>
    let n := fld b 1 1
    if b.length == n + 3 && n ≤ 12 && crc8 (b.take (n + 2)) == fld b (n + 2) 1 && bits (fld b 0 1) 4 4 == seq % 16 then
      some (bits (fld b 0 1) 0 4, sub b 2 n)
    else none

/-- A link is lost: a waking shelf in its first four steps fails to wake, any other powered shelf drops (R174, R183,
R191). -/
def loseLink (l : Nat) (s : State) : State :=
  let n := l / 2
  let h := shelfOf s n
  let a := updLink l (fun x => { x with
    queue := [], tries := 0, failedAt := none, int := false, lost := satInc 8 x.lost, down := true }) s
  if !isPowered h then a
  else if h.state == .waking && h.step != .groups && h.step != .drives then wakeFail n 1 a
  else dropShelf n 5 a

/-- The exchange belongs to the step its shelf's wake or sleep has reached; polls, events and clock requests belong to none. -/
def isStepOp (h : Shelf) (op : SbOp) : Bool :=
  match op with
  | .identify => h.step == .identify
  | .readPresence => h.step == .presence
  | .setPerst => h.step == .perst || h.step == .groups || h.step == .drives || h.step == .perstOff
  | .setPower => h.step == .power || h.step == .powerOff
  | .readStatus => h.step == .powerGood
  | _ => false

/-- An exchange answered with an error fails the step that issued it (R174; log entry 67): a wake fails with cause 1; a
sleep that cannot assert PERST# or switch off ends MEDIA_TIMEOUT, its shelf ASLEEP with cause 1 and its drives OFF; a lane
whose clock request fails stays parked. -/
def stepFails (l : Nat) (op : SbOp) (req : Bytes) (s : State) : State :=
  let n := l / 2
  let h := shelfOf s n
  if op == .setClkreq then
    (List.range 32).foldl (fun s i =>
      if bit (fld req 0 4) i && bit (fld req 4 4) i && isExiting (driveOf s (linkDrive l i)) then
        updDrive (linkDrive l i) (fun x => { x with lane := .l12 }) s
      else s) s
  else if op == .readEvents then updLink l (fun x => { x with int := false }) s
  else if !isStepOp h op then s
  else if h.state == .waking then wakeFail n 1 s
  else
    endShelfOp n stMediaTimeout 0 (shelfTo n .asleep (updShelf n (fun h => { h with cause := 1, dropped := false }) (offDrives n s)))

/-- A failed exchange waits 100 µs for its retry; the fourth failure loses the link (R174). -/
def exchangeFails (l : Nat) (s : State) : State :=
  if (linkOf s l).tries ≥ 3 then loseLink l s
  else updLink l (fun y => { y with tries := y.tries + 1, failedAt := some s.now }) s

/-- The exchange at the head of link `l` runs: the request goes out, a new one with the next SEQ, and its answer acts, or
the exchange fails and waits for its retry (R173, R174). A status that no table gives fails the step without a retry (log
entry 67). -/
def exchange (l : Nat) (resp : Option Bytes) (s : State) : State :=
  let x := linkOf s l
  match x.queue with
  | [] => s
  | (op, payload) :: rest =>
    let q := if x.tries == 0 then x.seq else x.cur
    let a := emit (.sideband l (sbFrame op q payload))
      (updLink l (fun y => { y with cur := q, seq := if x.tries == 0 then (q + 1) % 16 else y.seq }) s)
    match sbParse q resp with
    | some (st, body) =>
      if st == 1 || st == 4 then exchangeFails l a
      else
        let b := updLink l (fun y => { y with queue := rest, tries := 0, failedAt := none }) a
        if st == 0 then exchanged l op payload body b else stepFails l op payload b
    | none => exchangeFails l a

/-- The row of a sideband command: it runs the exchange at the head of its link, where that is its command and no retry
is due (R172, R173). -/
def sbRow (op : SbOp) (l : Nat) (resp : Option Bytes) (s : State) : Res :=
  let x := linkOf s l
  let head := match x.queue with
    | (o, _) :: _ => o == op
    | [] => false
  onlyIf (powered s && !inFault s && l < 16 && head && !x.down && x.failedAt.isNone) s (exchange l resp s)

end Sys2Proof.Machine
end

