-- ==== Sys2Proof/Machine/MediaCmds.lean ====
section
/-! DEFINITION. The media family: sideband exchanges, shelf wakes and sleeps, drives, lanes and NVMe completions
(08_media_fabric_and_shelves.md, R20). -/
namespace Sys2Proof.Machine

/-! ### Sideband -/

/-- IDENTIFY (R173). -/
def execIdentify (link : Nat) (resp : Option Bytes) (s : State) : Res := sbRow .identify link resp s
/-- READ_PRESENCE (R173). -/
def execReadPresence (link : Nat) (resp : Option Bytes) (s : State) : Res := sbRow .readPresence link resp s
/-- SET_POWER (R173). -/
def execSetPower (link : Nat) (resp : Option Bytes) (s : State) : Res := sbRow .setPower link resp s
/-- SET_PERST (R173). -/
def execSetPerst (link : Nat) (resp : Option Bytes) (s : State) : Res := sbRow .setPerst link resp s
/-- READ_STATUS (R173). -/
def execReadStatus (link : Nat) (resp : Option Bytes) (s : State) : Res := sbRow .readStatus link resp s
/-- READ_EVENTS (R173). -/
def execReadEvents (link : Nat) (resp : Option Bytes) (s : State) : Res := sbRow .readEvents link resp s
/-- SET_CLKREQ (R173). -/
def execSetClkreq (link : Nat) (resp : Option Bytes) (s : State) : Res := sbRow .setClkreq link resp s

/-- READ_CLKREQ: the device may read the bitmap on an idle link of a powered shelf (R173). -/
def execReadClkreq (link : Nat) (resp : Option Bytes) (s : State) : Res :=
  if (linkOf s link).queue.isEmpty && isPowered (shelfOf s (link / 2)) && powered s && !inFault s && link < 16 then
    sbRow .readClkreq link resp (ask_ link .readClkreq [] s)
  else sbRow .readClkreq link resp s

/-- SIDEBAND_RETRY: 100 µs after a failed exchange it is repeated with its SEQ (R174). -/
def execSidebandRetry (link : Nat) (resp : Option Bytes) (s : State) : Res :=
  let x := linkOf s link
  match x.failedAt with
  | none => .next s
  | some t =>
    onlyIf (powered s && !inFault s && link < 16 && s.now ≥ t + 100) s
      (exchange link resp (updLink link (fun x => { x with retries := satInc 16 x.retries, failedAt := none }) s))

/-- SBN_INT: READ_EVENTS becomes the next exchange of the link (R175). -/
def execSbnInt (link : Nat) (s : State) : Res :=
  let x := linkOf s link
  let q := match x.queue with
    | [] => [(SbOp.readEvents, ([] : Bytes))]
    | h :: rest => if x.tries != 0 then h :: (SbOp.readEvents, []) :: rest else (SbOp.readEvents, []) :: h :: rest
  onlyIf (powered s && !inFault s && link < 16 && !x.down && !x.int) s (updLink link (fun x => { x with int := true, queue := q }) s)

/-- KEEPALIVE_POLL: READ_STATUS every 100 ms on each link of a powered shelf (R175). -/
def execKeepalivePoll (link : Nat) (s : State) : Res :=
  let x := linkOf s link
  onlyIf (powered s && !inFault s && link < 16 && !x.down && isPowered (shelfOf s (link / 2)) && s.now ≥ x.pollAt + 100000) s
    (ask_ link .readStatus [] (updLink link (fun x => { x with pollAt := s.now }) s))

/-! ### Waking and sleeping -/

/-- SHELF_WAKE: DONE at once on an AWAKE shelf; it starts where no operation of the shelf runs and fewer than MAX_SHELVES
are powered, else it waits (R182, R183). -/
def execShelfWake (tag : Nat) (s : State) : Res :=
  let n := eShelf (carrOf s tag).entry
  let h := shelfOf s n
  if !(isAt s tag 0x20 .admitted && worldServes s 0x20) then .next s
  else if h.step != .idle then
    .next (updMdf (fun m => { m with shelfQueue := if m.shelfQueue.contains tag then m.shelfQueue else m.shelfQueue ++ [tag] }) s)
  else if h.state == .awake then .next (done tag stDone (readyDrives s n).length s)
  else if poweredShelves s < s.mdf.maxShelves then .next (startWake n tag s)
  else
    .next (updMdf (fun m => { m with shelfQueue := if m.shelfQueue.contains tag then m.shelfQueue else m.shelfQueue ++ [tag] }) s)

/-- The first waiting wake of shelf `n`. -/
def waitingWake (s : State) (n : Nat) : Option Nat :=
  s.mdf.shelfQueue.find? (fun t => eOp (carrOf s t).entry == 0x20 && eShelf (carrOf s t).entry == n)

/-- SHELF_WAKE_BEGIN: a waiting wake starts once fewer than MAX_SHELVES shelves are powered (R182). -/
def execShelfWakeBegin (shelf : Nat) (s : State) : Res :=
  let h := shelfOf s shelf
  match waitingWake s shelf with
  | none => .next s
  | some t =>
    onlyIf (isAt s t 0x20 .admitted && worldServes s 0x20 && h.step == .idle && h.state == .asleep &&
      poweredShelves s < s.mdf.maxShelves) s (startWake shelf t s)

/-- POWER_GOOD_POLL: READ_STATUS every 1 ms until both halves report power good (R183 step 4). -/
def execPowerGoodPoll (shelf : Nat) (s : State) : Res :=
  let h := shelfOf s shelf
  onlyIf (live s && worldServes s 0x20 && h.step == .powerGood && s.now ≥ h.pollAt + 1000) s
    (askBoth shelf .readStatus [] (updShelf shelf (fun h => { h with pollAt := s.now }) s))

/-- POWER_GOOD_TIMEOUT: 500 ms after step 3, but while the normal world is halted (R183, R310). -/
def execPowerGoodTimeout (shelf : Nat) (s : State) : Res :=
  let h := shelfOf s shelf
  onlyIf (powered s && !inFault s && worldServes s 0x20 && h.step == .powerGood && s.now ≥ h.since + 500000) s (wakeFail shelf 2 s)

/-- The present bays of group `g` of shelf `n`. -/
def groupBays (s : State) (n g : Nat) : List Nat :=
  ((List.range 16).map (fun q => 128 * g + 16 * n + q)).filter (fun d => (driveOf s d).present)

/-- The PERST# mask of a group's present bays on its link (R170). -/
def groupMask (s : State) (n g : Nat) : Nat :=
  ((groupBays s n g).map (fun d => 2 ^ (16 * (g % 2) + d % 16))).sum

/-- The drives of a released group train; those of a LOST region count as FAILED with cause 8 (R183, R184). -/
def releaseGroup (n g : Nat) (lost : Bool) (s : State) : State :=
  (groupBays s n g).foldl (fun s d =>
    if lost then updDiag d (fun x => { x with fail := 8 }) (driveRecord d 3 8 0 (driveTo d .failed (seqd s)))
    else driveTo d .init (updDrive d (fun x => { x with
      lane := .training, perst := false, rootClk := true
      relAt := s.now, dlUpAt := none }) s)) s

/-- GROUP_RELEASE: the next bay group's PERST# is deasserted, at least 100 ms after power good or STAGGER after the group
before, where the budget can place its present bays (R183 step 5). -/
def execGroupRelease (shelf : Nat) (s : State) : Res :=
  let h := shelfOf s shelf
  let g := h.released
  let lost := (regionOf s g).state == .lost
  let due := if g == 0 then h.goodAt + 100000 else h.lastRelease + 1000 * h.stagger
  let fits := lost || l0Now s + (groupBays s shelf g).length ≤ effBudget s
  if !(live s && worldServes s 0x20 && h.step == .groups && s.now ≥ due && fits) then .next s
  else
    let a := markL0 (releaseGroup shelf g lost (seqd s))
    let b := if lost || groupMask s shelf g == 0 then a
      else ask_ (2 * shelf + g / 2) .setPerst (maskValue (groupMask s shelf g) false) a
    .next (shelfCheck shelf (updShelf shelf (fun h => { h with
      released := g + 1, lastRelease := s.now, step := if g + 1 ≥ 4 then .drives else .groups }) b))

/-- SHELF_SLEEP: DONE at once on an ASLEEP shelf; else it starts where no operation of the shelf runs (R185). -/
def execShelfSleep (tag : Nat) (s : State) : Res :=
  let n := eShelf (carrOf s tag).entry
  let h := shelfOf s n
  if !(isAt s tag 0x21 .admitted && worldServes s 0x21 && h.step == .idle) then .next s
  else if h.state == .asleep then .next (done tag stDone 0 s)
  else
    .next (shelfTo n .sleeping (updShelf n (fun h => { h with step := .sleepWait, tag := some tag, answered := [] }) (begin_ tag s)))

/-- SLEEP_DRAIN_DONE: the earlier carriages have completed, and the drives are shut down (R185 steps 2 and 3). -/
def execSleepDrainDone (shelf : Nat) (s : State) : Res :=
  onlyIf (live s && worldServes s 0x21 && (shelfOf s shelf).step == .sleepWait && !sleepBusy s shelf) s (shutDrives shelf s)

/-- The time a drive has to shut down, in µs (R185 step 3). -/
def shutLimit (x : Drive) : Nat := if x.rtd3e == 0 then 10000000 else x.rtd3e

/-- DRIVE_SHUTDOWN_DONE: the drive has shut down, or its deadline has passed and it is recorded (R185 step 3). -/
def execDriveShutdownDone (drive : Nat) (reported : Bool) (s : State) : Res :=
  let x := driveOf s drive
  let n := driveShelf drive
  match x.shutAt with
  | none => .next s
  | some t =>
    if !(powered s && !inFault s && drive < 512 && (shelfOf s n).step == .shutdown && !x.shutDone &&
        (reported || s.now ≥ t + shutLimit x)) then .next s
    else
      let a := updDrive drive (fun x => { x with shutDone := true }) s
      .next (shelfCheck n (if reported then a else driveRecord drive 1 0 0 a))

/-! ### Bringing a drive up -/

/-- The controller-ready limit in µs: the smaller of CAP.TO (500 ms units, PRESUMED, log entry 21) and READY_MAX (R183). -/
def readyLimit (s : State) (d : Nat) : Nat :=
  min (500000 * (driveOf s d).capTo) (100000 * s.mdf.readyMax)

/-- A speed a media port trains to: 8, 16 or 32 GT/s, as MDP codes them (R171). -/
def speedOk (v : Nat) : Bool := v == 3 || v == 4 || v == 5

/-- DRIVE_DL_UP: within 100 ms the link is up, the drive is enumerated and its controller enabled (R171, R183 step 6, R186). -/
def execDriveDlUp (drive speed : Nat) (topoOk : Bool) (capTo mqes : Nat) (s : State) : Res :=
  let x := driveOf s drive
  onlyIf (live s && worldServes s 0x22 && drive < 512 && x.state == .init && x.lane == .training && x.dlUpAt.isNone &&
      x.linkDownAt.isNone && s.now < x.relAt + 100000 && speedOk speed) s
    (emit (.nvmeCtl drive 1) (emit (.driveConfig drive (s.mdf.qpairs + 1)) (updDrive drive (fun x => { x with
      master := true, vectors := s.mdf.qpairs + 1, lane := .l0, speed := speed, dlUpAt := some s.now, enableAt := s.now, capTo := capTo, mqes := mqes
      topoBad := !topoOk, idleAt := s.now }) s)))

/-- DL_UP_TIMEOUT: no DL_Up within 100 ms, but while the normal world is halted (R183 step 6, R310). -/
def execDlUpTimeout (drive : Nat) (s : State) : Res :=
  let x := driveOf s drive
  onlyIf (powered s && !inFault s && worldServes s 0x22 && drive < 512 && x.state == .init && x.lane == .training &&
      x.dlUpAt.isNone && x.linkDownAt.isNone && s.now ≥ x.relAt + 100000) s (failDrive drive 1 s)

/-- The controller has not become ready in time (R183, R190). -/
def execDriveReadyTimeout (drive : Nat) (s : State) : Res :=
  let x := driveOf s drive
  onlyIf (powered s && !inFault s && drive < 512 && x.state == .init && x.dlUpAt.isSome && !x.disabling &&
      worldServes s 0x22 && s.now ≥ x.enableAt + readyLimit s drive) s
    (failDrive drive (if x.resetting then 5 else 2) s)

/-- A drive UNUSABLE at a CSN of its own, with its record and cause; data and legacy carriages that wait for it, which step
12 would now refuse, end SHELF_OFFLINE (R171, R177, R186; log entries 67 and 76). -/
def makeUnusable (d cause : Nat) (s : State) : State :=
  let a := updDiag d (fun x => { x with fail := cause }) (driveRecord d 4 cause 0 (driveTo d .unusable (seqd s)))
  reap stKeyErased (dropCarriages d stShelfOffline (fun c => eOp c.entry != 0x22) a)

/-- The latency window in which stamp `t` lies (DIAG_LAT): the mean of the window just before it is kept. -/
def rollLat (t : Nat) (x : DriveDiag) : DriveDiag :=
  let w := t / 100000
  if w == x.latWin then x
  else { x with
    lat := if w == x.latWin + 1 && x.latNum != 0 then x.latSum / x.latNum else 0, latSum := 0, latNum := 0, latWin := w }

/-- The namespace check of R186 step 4. -/
def nsOk (r : InitReport) : Bool := r.nsPresent && r.dataBytes == 4096 && r.metaBytes == 0 && !r.pi

/-- An Asynchronous Event Request is open at every READY drive (R186 step 6, R187). -/
def askEvent (d : Nat) (s : State) : State :=
  let x := driveOf s d
  if tany x.cmds (fun _ k => k.used && k.kind == .asyncEvent) || x.waitCmds.any (fun w => w.1 == .asyncEvent) ||
      x.state != .ready then s
  else issue d .asyncEvent none 0 0 s

/-- CDW10 and CDW11 of a step of R186, as one number (PRESUMED, log entry 21): what Identify names, the queues asked for,
and each queue's number, size, vector and CQ. The events that Asynchronous Event Configuration enables are a free value. -/
def initDwords (s : State) (d : Nat) (i : InitCmd) : Nat :=
  let size := ((driveOf s d).depth - 1) * 2 ^ 16
  match i with
  | .identifyController => 1
  | .identifyNamespace => 0
  | .numberOfQueues => 0x07 + ((s.mdf.qpairs - 1) * 2 ^ 16 + (s.mdf.qpairs - 1)) * 2 ^ 32
  | .createCq q => size + q + (q * 2 ^ 16 + 3) * 2 ^ 32
  | .createSq q => size + q + (q * 2 ^ 16 + 1) * 2 ^ 32
  | .eventConfig => 0x0B + (drawn s % 2 ^ 32) * 2 ^ 32

/-- A step of R186 sent and completed: it is counted, its latency a free value (log entry 85). -/
def initStep (d : Nat) (i : InitCmd) (s : State) : State :=
  let x := driveOf s d
  let k := CmdKind.initStep i
  let a := emit (.nvme d 0 (freeCid x) (initOpcode i) (nvNsid s k none) false (initDwords s d i) 0 ((ownHold s d k).map (windowPlace d)) [])
    (updDrive d (fun x => { x with nextCid := (freeCid x + 1) % 65536 }) s)
  let b := updDiag d (fun x =>
    let y := rollLat s.now x
    { y with cmds := satInc 32 y.cmds, latSum := y.latSum + drawn a % 2 ^ 20, latNum := y.latNum + 1 }) (draw a)
  if i == .eventConfig then draw b else b

/-- Steps of R186 in order. -/
def initSteps (d : Nat) (l : List InitCmd) (s : State) : State := l.foldl (fun s i => initStep d i s) s

/-- Steps 5 and 6 of R186: `q` I/O queue pairs, each CQ before its SQ, and the asynchronous events. -/
def queueSteps (q : Nat) : List InitCmd :=
  .numberOfQueues :: (List.range q).flatMap (fun i => [.createCq (i + 1), .createSq (i + 1)]) ++ [.eventConfig]

/-- What Identify returned is kept (R115, R186). -/
def keepIdentify (d : Nat) (r : InitReport) (s : State) : State :=
  updDrive d (fun x => { x with
    mdts := r.mdts, rtd3e := r.rtd3e, formats := r.formats, nsze := if nsOk r then r.nsze else 0, idleAt := s.now }) s

/-- The drive READY once its queues stand and its events are configured (R186). -/
def makeReady (d q : Nat) (s : State) : State :=
  let a := updDrive d (fun x => { x with ioq := q, depth := min (s.mdf.depth + 1) (x.mqes + 1) }) s
  driveTo d .ready (seqd (initSteps d (queueSteps q) a))

/-- The outcome of an initialisation (R186), whose commands are sent as far as it gets: READY with its queues, UNUSABLE, or
FAILED. Commands of before a controller reset leave the drive with it (R189). -/
def initDrive (d failCause : Nat) (r : InitReport) (s : State) : State :=
  let x := driveOf s d
  if !r.ok then failDrive d failCause s
  else
    let a := keepIdentify d r (updDrive d (fun x => { x with resetting := false, ioq := 0, cmds := [] }) s)
    let b := if x.topoBad || !r.topoOk then makeUnusable d 7 a
      else
        let c := initSteps d [.identifyController, .identifyNamespace] a
        if nsOk r then makeReady d (min s.mdf.qpairs r.queues) c else makeUnusable d 6 c
    pump d (askEvent d b)

/-- The drive is identified again after a Format NVM: steps 3 and 4 of R186 decide whether it is READY or UNUSABLE; a READY
drive that has no queues yet gets them (R177, R188). -/
def identifyAgain (d : Nat) (r : InitReport) (s : State) : State :=
  let x := driveOf s d
  let a := initSteps d [.identifyController, .identifyNamespace]
    (keepIdentify d r (updDrive d (fun x => { x with dlUpAt := some x.enableAt }) s))
  let b := if !(r.ok && nsOk r && !x.topoBad) then makeUnusable d (if x.topoBad then 7 else 6) a
    else if x.ioq == 0 then makeReady d (min s.mdf.qpairs r.queues) a
    else driveTo d .ready (seqd a)
  pump d (askEvent d b)

/-- The drive is being identified again: INIT with its link up, and not since its DL_Up (R188). -/
def isIdentifying (x : Drive) : Bool := x.state == .init && x.dlUpAt.isNone && x.lane == .l0 && x.linkDownAt.isNone

/-- DRIVE_INIT: the six steps of R186 end (R183 step 6), or steps 3 and 4 after a Format NVM (R188). -/
def execDriveInit (drive : Nat) (report : InitReport) (s : State) : Res :=
  let x := driveOf s drive
  if live s && worldServes s 0x22 && drive < 512 && isIdentifying x then .next (identifyAgain drive report s)
  else
    onlyIf (live s && worldServes s 0x22 && drive < 512 && x.state == .init && x.dlUpAt.isSome && linkUp x && !x.resetting &&
        s.now < x.enableAt + readyLimit s drive) s
      (shelfCheck (driveShelf drive) (initDrive drive 2 report s))

/-! ### Lanes -/

/-- The port may be parked: L0, no command outstanding, not held hot; one that waits behind a Format NVM or Dataset
Management holds no place (R179). -/
def parkable (s : State) (d : Nat) : Bool :=
  let x := driveOf s d
  x.lane == .l0 && cmdsOut x == 0 && x.linkDownAt.isNone && !x.resetting &&
    (x.state == .ready || x.state == .unusable) && !heldHot s d

/-- A command waits for the port and nothing but its place holds it back (R179). -/
def wantsPlace (s : State) (d : Nat) : Bool := (driveOf s d).waitCmds.any (fun w => !barred s d w.2.1)

/-- A port waits for an L0 place: for a command, or to retrain (R178, R179). -/
def placeWanted (s : State) : Bool :=
  l0Now s ≥ effBudget s && tany s.mdf.drives (fun d x =>
    (x.lane == .l12 && wantsPlace s d) || (x.lane == .down && x.linkDownAt.isSome))

/-- PORT_PARK: the port has been idle for MDF_IDLE_PARK, or its place is wanted and it is the longest idle (R179). -/
def execPortPark (drive : Nat) (s : State) : Res :=
  let x := driveOf s drive
  let oldest := !tany s.mdf.drives (fun e y => e != drive && parkable s e && y.idleAt < x.idleAt)
  onlyIf (live s && drive < 512 && parkable s drive &&
      (s.now ≥ x.idleAt + s.mdf.idlePark || ((placeWanted s || l0Now s > effBudget s) && oldest))) s
    (parkPort drive s)

/-- L12_EXIT: a parked port begins to leave L1.2 for a waiting command, for its drive, or because it is held hot, within the
budget; once its reference clock runs it is in L0 and its commands go (R178-R181). -/
def execL12Exit (drive : Nat) (s : State) : Res :=
  let x := driveOf s drive
  if !(live s && drive < 512) then .next s
  else if isExiting x then
    onlyIf x.rootClk s (pump drive (updDrive drive (fun x => { x with lane := .l0, idleAt := s.now }) s))
  else onlyIf (x.lane == .l12 && (wantsPlace s drive || x.clkreq || heldHot s drive)) s (beginExit drive s)

/-- DRIVE_CLKREQ_WAKE: the drive asks for its link (R181). -/
def execDriveClkreqWake (drive : Nat) (s : State) : Res :=
  onlyIf (live s && drive < 512 && (driveOf s drive).lane == .l12) s (driveWake drive s)

/-! ### DRIVE_ADMIN -/

/-- A DRIVE_ADMIN whose data goes to the drive: Set Features and Dataset Management (R115). -/
def adminSends (e : Bytes) : Bool := (fld e 48 1 == 4 || fld e 48 1 == 6) && eLength e != 0

/-- A DRIVE_ADMIN that moves data between the host and the drive (R115). -/
def adminMoves (e : Bytes) : Bool := adminSends e || (fld e 48 1 ≤ 3 && eLength e != 0)

/-- DRIVE_ADMINs issued to drive `d` (R188). -/
def adminsOut (s : State) (d : Nat) : Nat :=
  tcount s.car.cars (fun _ c => c.stage == .running && c.started && eOp c.entry == 0x22 && srcDrive c == d)

/-- Earlier carriages that name the drive hold back this DRIVE_ADMIN (R188). -/
def adminHeld (s : State) (t : Nat) : Bool :=
  let c := carrOf s t
  let d := srcDrive c
  tany s.car.cars (fun u x => u != t && isOpen x && x.admCsn < c.admCsn && namesDrive x d &&
    (fld c.entry 48 1 == 5 || fld c.entry 48 1 == 6 || bars d x || (isLive x && eOp x.entry == 0x22 && !x.started)))

/-- Staging for a DRIVE_ADMIN's data, in the region that serves its drive (R15, R143, R144, R147): granule by granule, for its
whole length. What the drive receives is then read from the host. Where there is no room it is asked for again later. -/
def adminStage (t : Nat) (s : State) : State :=
  let c := carrOf s t
  let d := srcDrive c
  let n := ceilDiv (eLength c.entry) 4096
  if !adminMoves c.entry || (segOf s t 0).st != .idle then s
  else
    match granules s d n false with
    | none => s
    | some y =>
      let a := markAll (updSeg t 0 (fun g => { g with
        st := if adminSends c.entry then .fetching else .ready, region := y.1, hold := y.2, at_ := s.now }) s)
      if adminSends c.entry then readBuffer (.record t) t 0 (eLength c.entry) a else a

/-- The DRIVE_ADMIN of tag `t` may be issued. -/
def adminMay (s : State) (t : Nat) : Bool :=
  let c := carrOf s t
  live s && worldServes s 0x22 && eOp c.entry == 0x22 && c.stage == .running && !c.started &&
    (!adminMoves c.entry || (segOf s t 0).st != .idle) && (!adminSends c.entry || c.record.isSome) && !adminHeld s t &&
    adminsOut s (srcDrive c) < 4

/-- The DRIVE_ADMIN of tag `t` is issued to its drive, with its CDW10 and CDW11 (R115). -/
def adminIssue (t : Nat) (s : State) : State :=
  let c := carrOf s t
  issue (srcDrive c) .admin (some t) (fld c.entry 52 8) 0
    (updMdf (fun m => { m with adminWait := m.adminWait.erase t }) (updCarr t (fun c => { c with started := true }) s))

/-- A running DRIVE_ADMIN goes on: it gets its staging, and is issued once it may be (R115, R188). -/
def adminGo (t : Nat) (s : State) : State :=
  let c := carrOf s t
  if !(live s && worldServes s 0x22 && eOp c.entry == 0x22 && c.stage == .running) then s
  else
    let a := adminStage t s
    if adminMay a t then adminIssue t a else a

/-- DRIVE_ADMIN: its data is read where the drive receives it; then it is issued as soon as it may be (R115, R188). -/
def execDriveAdmin (tag : Nat) (s : State) : Res :=
  if !(isAt s tag 0x22 .admitted && worldServes s 0x22) then .next (adminGo tag s)
  else .next (adminGo tag
    (updMdf (fun m => { m with adminWait := m.adminWait ++ [tag] }) (updCarr tag (fun c => { c with stage := .running }) s)))

/-- DRIVE_ADMIN_ISSUE: a waiting DRIVE_ADMIN is issued once it may be (R188). -/
def execDriveAdminIssue (tag : Nat) (s : State) : Res := .next (adminGo tag s)

/-- A DRIVE_ADMIN's command is done: its data goes to the host, its result is dword 0; a Format NVM identifies the drive
again (R123, R188). -/
def adminDone (t d dword0 : Nat) (data : Bytes) (s : State) : State :=
  let c := carrOf s t
  let op := fld c.entry 48 1
  let a := if (op ≤ 3) && eLength c.entry != 0 then writeBuffer t 0 (padTo (eLength c.entry) data) s else s
  let b := if op == 5 then
      driveTo d .init (seqd (updDrive d (fun x => { x with dlUpAt := none }) a))
    else a
  done t stDone dword0 b

/-! ### Completions -/

/-- A command leaves the drive: its latency is counted, and an idle port's time begins (R179, DIAG). -/
def retire (d cid : Nat) (s : State) : State :=
  let n := tget {} (driveOf s d).cmds cid
  let a := updDiag d (fun x =>
    let y := rollLat s.now x
    { y with cmds := satInc 32 y.cmds, latSum := y.latSum + (s.now - n.issuedAt), latNum := y.latNum + 1 }) s
  updDrive d (fun x => { x with cmds := tdel x.cmds cid, idleAt := s.now }) a

/-- The carriage of a command fails with a media status (R123, R189). -/
def mediaFail (n : NvCmd) (d status low : Nat) (s : State) : State :=
  match n.tag with
  | none => s
  | some t => stop t status (low + mediaWord (carrOf s t) d (kindPos n.kind) (some n.kind)) s

/-- A successful completion does what its command was for (R135, R136, R138, R189). -/
def completed (n : NvCmd) (d dword0 : Nat) (data : Bytes) (s : State) : State :=
  match n.kind, n.tag with
  | .abort cid, _ => updDrive d (fun x => { x with cmds := tdel x.cmds cid }) s
  | .trailerRead, some t => trailerRead t data s
  | .segRead p off, some t => segRead t p off (padTo (4096 * n.blocks) data) s
  | .segWrite p _, some t => segWritten t p s
  | .trailerWrite, some t => trailerWritten t s
  | .legacyRead _, some t => legacyLanded t (padTo (4096 * n.blocks) data) s
  | .legacyWrite _, some t => legacyNext t s
  | .admin, some t => adminDone t d dword0 data s
  | .flush, _ | .queueDelete _, _ => shutNext d s
  | _, _ => s

/-- CDW10 of an Abort: the command's id and the queue it was sent on (PRESUMED, log entry 21). -/
def abortDword (s : State) (d cid : Nat) : Nat :=
  cid * 2 ^ 16 + (tget {} (driveOf s d).cmds cid).queue

/-- The command's time is limited by MDF_CMD_TIMEOUT: not an Abort's, nor an event request's, nor that of a carriage whose
world is halted (R189, R310). -/
def isTimed (s : State) (k : CmdKind) : Bool :=
  match k with
  | .abort _ | .asyncEvent => false
  | .admin => worldServes s 0x22
  | .flush | .queueDelete _ => worldServes s 0x21
  | _ => true

/-- MDF_CMD_TIMEOUT has passed since the command was issued (R42, R189). -/
def isLate (s : State) (n : NvCmd) : Bool := isTimed s n.kind && s.now ≥ n.issuedAt + 1000 * s.mdf.cmdTimeout

/-- A command times out: its carriage ends MEDIA_TIMEOUT and an Abort is issued; it stays reserved until that is answered
(R189). -/
def timeOut (d cid : Nat) (s : State) : State :=
  let n := tget {} (driveOf s d).cmds cid
  let a := updDiag d (fun x => { x with tmo := satInc 16 x.tmo })
    (updDrive d (fun x => { x with cmds := tupd {} x.cmds cid (fun c => { c with timedOut := true }) }) s)
  let b := issue d (.abort cid) none (abortDword s d cid) 0 a
  mediaFail n d stMediaTimeout 0 (if isShutCmd n.kind then shutNext d b else b)

/-- NVME_COMMAND_TIMEOUT (R189). -/
def execNvmeCommandTimeout (drive cid : Nat) (s : State) : Res :=
  let n := tget {} (driveOf s drive).cmds cid
  onlyIf (powered s && !inFault s && drive < 512 && n.used && !n.timedOut && !(driveOf s drive).resetting && isLate s n) s
    (timeOut drive cid s)

/-- A controller reset begins: CC.EN = 0, and the drive is INIT at a CSN of its own (R190 step 1; log entry 76). The
device's own commands that wait are given up; the granules of commands that were out stay reserved until the reset is over
(R189). -/
def beginReset (d : Nat) (s : State) : State :=
  let a := updDiag d (fun x => { x with reset := satInc 8 x.reset }) (emit (.nvmeCtl d 0) s)
  shelfCheck (driveShelf d) (driveTo d .init (updDrive d (fun x => { x with
    waitCmds := x.waitCmds.filter (fun w => w.2.1.isSome), ioq := 0, resetting := true, disabling := true
    shutStep := 0, shutAt := none, shutDone := false, dlUpAt := some s.now }) (seqd a)))

/-- The controller's CSTS.RDY is 0: every carriage that still holds a command on the drive ends MEDIA_TIMEOUT, and the
controller is enabled again (R190 steps 2 and 3). -/
def resetEnable (d : Nat) (s : State) : State :=
  let users := tkeys s.car.cars (fun t c => isLive c && tany (driveOf s d).cmds (fun _ k => k.used && k.tag == some t))
  let a := users.foldl (fun s t => stopOne t stMediaTimeout (mediaWord (carrOf s t) d (posAt s t d) (headKind s t d)) s) s
  emit (.nvmeCtl d 1) (reap stKeyErased (updDrive d (fun x => { x with disabling := false, enableAt := s.now }) a))

/-- CDW10 of the Get Log Page for Error Information: log page 1, one entry of 16 dwords (R187; PRESUMED, log entry 21). -/
def errorLogDword : Nat := 0x000F0001

/-- NVME_COMPLETION: a command completes while its link is up; an error ends its carriage MEDIA_ERROR and its Error
Information is read (R187, R189). A timed-out command stays reserved until its Abort is answered. A completion that is
`poisoned`, or whose command's DMA ended in Unsupported Request or Completer Abort, ends its carriage and resets the
controller; one that comes MDF_CMD_TIMEOUT or later after its command is too late (R42, R189, R190). -/
def execNvmeCompletion (drive cid status dword0 : Nat) (ret : NvReturn) (s : State) : Res :=
  let x := driveOf s drive
  let n := tget {} x.cmds cid
  if !(powered s && !inFault s && drive < 512 && n.used && !n.timedOut && n.kind != .asyncEvent && x.linkDownAt.isNone &&
      !x.resetting) then .next s
  else if isLate s n then .next (timeOut drive cid s)
  else if ret.poisoned then .next (beginReset drive (mediaFail n drive stMediaError 0x0660 s))
  else
    let a := retire drive cid s
    let st := status % 2 ^ 16
    if st == 0 then .next (pump drive (completed n drive dword0 ret.data a))
    else
      let b := updDiag drive (fun x => { x with err := satInc 16 x.err }) a
      let c := if n.kind == .errorLog then b else issue drive .errorLog none errorLogDword 0 b
      let d := match n.kind with
        | .abort k => updDrive drive (fun x => { x with cmds := tdel x.cmds k }) c
        | .flush | .queueDelete _ => shutNext drive c
        | _ => c
      .next (pump drive (mediaFail n drive stMediaError st d))

/-- NVME_ABORT_TIMEOUT: an Abort not answered within 1 s triggers a controller reset (R189). -/
def execNvmeAbortTimeout (drive cid : Nat) (s : State) : Res :=
  let n := tget {} (driveOf s drive).cmds cid
  match n.kind with
  | .abort _ =>
    onlyIf (powered s && !inFault s && drive < 512 && n.used && !(driveOf s drive).resetting && s.now ≥ n.issuedAt + 1000000) s
      (beginReset drive s)
  | _ => .next s

/-- CONTROLLER_RESET: the controller reports CSTS.RDY = 0 and is enabled again; then, within the readiness limit, its
initialisation ends with the drive READY again, UNUSABLE or FAILED; controller fatal status makes a drive FAILED at once
(R189, R190). -/
def execControllerReset (drive : Nat) (cfs : Bool) (report : Option InitReport) (s : State) : Res :=
  let x := driveOf s drive
  if !(live s && drive < 512 && linkUp x) then .next s
  else if cfs then onlyIf (x.state == .ready || x.state == .unusable || x.state == .init) s (failDrive drive 3 s)
  else if !(x.resetting && x.state == .init && worldServes s 0x22) then .next s
  else if x.disabling then .next (resetEnable drive s)
  else
    match report with
    | some r => .next (if s.now < x.enableAt + readyLimit s drive then shelfCheck (driveShelf drive) (initDrive drive 5 r s)
        else failDrive drive 5 s)
    | none => .next (failDrive drive 5 s)

/-- DRIVE_DMA_BLOCKED: blocked and counted; a DMA of a command ends its carriage MEDIA_ERROR and resets the controller
(R189, R190). -/
def execDriveDmaBlocked (drive : Nat) (cid : Option Nat) (s : State) : Res :=
  let a := updDiag drive (fun x => { x with dmaBlk := satInc 8 x.dmaBlk }) s
  if !(powered s && !inFault s && drive < 512 && linkUp (driveOf s drive)) then .next s
  else
    match cid with
    | none => .next a
    | some c =>
      let n := tget {} (driveOf s drive).cmds c
      if n.used && !(driveOf s drive).resetting then .next (beginReset drive (mediaFail n drive stMediaError 0x0660 a)) else .next a

/-- DRIVE_LINK_DOWN: the link retrains and the drive's commands are held (R189); a parked port retrains once the budget has
a place for it (R178). -/
def execDriveLinkDown (drive : Nat) (s : State) : Res :=
  let x := driveOf s drive
  let up := x.lane == .l0 || isExiting x
  onlyIf (powered s && !inFault s && drive < 512 && x.linkDownAt.isNone && (up || x.lane == .l12)) s
    (markL0 (updDrive drive (fun x => { x with
      lane := if up || l0Now s < effBudget s then .training else .down, linkDownAt := some s.now, speed := 0 }) s))

/-- DRIVE_LINK_RETRAINED: within 100 ms, in an L0 place, and the held commands resume (R171, R178, R189). -/
def execDriveLinkRetrained (drive speed : Nat) (s : State) : Res :=
  let x := driveOf s drive
  match x.linkDownAt with
  | none => .next s
  | some t =>
    onlyIf (powered s && !inFault s && drive < 512 && s.now < t + 100000 && speedOk speed &&
        (x.lane == .training || l0Now s < effBudget s)) s
      (pump drive (markL0 (updDrive drive (fun x => { x with
        lane := .l0, linkDownAt := none, speed := speed, rootClk := true, idleAt := s.now }) s)))

/-- DRIVE_RETRAIN_TIMEOUT: the link has not retrained within 100 ms (R189). -/
def execDriveRetrainTimeout (drive : Nat) (s : State) : Res :=
  match (driveOf s drive).linkDownAt with
  | none => .next s
  | some t =>
    onlyIf (powered s && !inFault s && drive < 512 && s.now ≥ t + 100000) s (failDrive drive 4 s)

/-- ASYNC_EVENT, over a link in L0: recorded, and a new request is issued (R181, R187). -/
def execAsyncEvent (drive dword0 : Nat) (s : State) : Res :=
  match ((driveOf s drive).cmds.find? (fun c => c.2.used && c.2.kind == .asyncEvent)).map (·.1) with
  | none => .next s
  | some cid =>
    onlyIf (powered s && !inFault s && drive < 512 && linkUp (driveOf s drive) && !(driveOf s drive).resetting) s
      (issue drive .asyncEvent none 0 0
        (driveRecord drive 2 0 dword0 (updDrive drive (fun x => { x with cmds := tdel x.cmds cid }) s)))

/-- PRESENCE_CHANGE on a shelf whose link answers, but before its wake has read its bays (R177, R183, R189, R192). -/
def execPresenceChange (drive : Nat) (present : Bool) (s : State) : Res :=
  let h := shelfOf s (driveShelf drive)
  onlyIf (powered s && !inFault s && drive < 512 && !(linkOf s (driveLink drive)).down && h.step != .identify &&
      h.step != .presence) s
    (presenceTo drive present s)

/-- SHELF_DROP: a power fault (3) or a lost link (5) drops a powered shelf (R191). -/
def execShelfDrop (shelf cause : Nat) (s : State) : Res :=
  onlyIf (powered s && !inFault s && shelf < 8 && isPowered (shelfOf s shelf) && (cause == 3 || cause == 5)) s (dropShelf shelf cause s)

/-- D2D_RETRAIN_TIMEOUT: the region's media ports are lost until reset; carriages targeting them end DEGRADED_REFUSED
(R20, R184). -/
def execD2dRetrainTimeout (region : Nat) (s : State) : Res :=
  match (regionOf s region).d2dDown with
  | none => .next s
  | some t =>
    if !(live s && region < 4 && (regionOf s region).state != .lost && s.now ≥ t + 1000) then .next s
    else
      let a := arrayRecord region 0xFF 0xFF 4 (seqd (updRegion region (fun r => { r with state := .lost }) s))
      let named (c : Carriage) : Bool := isLive c &&
        (List.range 128).any (fun i => namesDrive c (128 * region + i))
      let b := stopAll (fun _ c => named c) stDegradedRefused a
      let c := (List.range 128).foldl (fun s i =>
        let d := 128 * region + i
        let x := driveOf s d
        if x.state == .absent || x.state == .off then s
        else clearDrive d (updDiag d (fun y => { y with fail := 8 }) (driveTo d .failed s))) b
      .next ((List.range 8).foldl (fun s n => shelfCheck n s) (reap stKeyErased (endLegacy c)))

end Sys2Proof.Machine
end

