-- ==== Sys2Proof/Machine/Slices.lean ====
section
/-! DEFINITION. Slices: the slice table, owner bindings, mailboxes, freezing, saving and restoring
(13_slices_and_migration.md). -/
namespace Sys2Proof.Machine

/-! ### The slice entry (R277) -/

/-- STATE's code. -/
def sliceCode : SliceState → Nat
  | .empty => 0 | .active => 1 | .freezing => 2 | .frozen => 3

/-- The 32 bytes of a slice entry (R277). -/
def entryBytes (x : Slice) : Bytes :=
  natLe 4 (x.pasid + x.home.num * 2 ^ 20 + sliceCode x.state * 2 ^ 24) ++
  natLe 4 (x.ringBase + x.ringCnt * 2 ^ 20) ++ natLe 4 (x.vecBase + x.vecCnt * 2 ^ 16) ++
  natLe 2 x.weight ++ natLe 2 x.inflightQuota ++ natLe 2 x.slotQuota ++ natLe 1 x.sidingCap ++ [0] ++
  natLe 8 x.retAddr ++ zeros 4

/-- The staged entry applied over `x`; the device's own fields stay (R277). -/
def stagedSlice (b : Bytes) (x : Slice) : Slice :=
  { x with
    pasid := bits (fld b 0 4) 0 20, home := if bit (fld b 0 4) 20 then .b else .a
    ringBase := bits (fld b 4 4) 0 20, ringCnt := bits (fld b 4 4) 20 11
    vecBase := bits (fld b 8 4) 0 11, vecCnt := bits (fld b 8 4) 16 11
    weight := bits (fld b 12 2) 0 11, inflightQuota := bits (fld b 14 2) 0 15, slotQuota := fld b 16 2
    sidingCap := bits (fld b 18 1) 0 7, retAddr := fld b 20 8 }

/-- The staged fields are in range and aligned, and no reserved bit is set (R277, R278). -/
def stagedOk (b : Bytes) : Bool :=
  let x := stagedSlice b {}
  bits (fld b 0 4) 21 3 == 0 && bits (fld b 0 4) 27 5 == 0 && bits (fld b 4 4) 31 1 == 0 &&
  bits (fld b 8 4) 11 5 == 0 && bits (fld b 8 4) 27 5 == 0 && bits (fld b 12 2) 11 5 == 0 &&
  bits (fld b 14 2) 15 1 == 0 && bits (fld b 18 1) 7 1 == 0 && fld b 19 1 == 0 && fld b 28 4 == 0 &&
  2048 ≤ x.ringBase && 1 ≤ x.ringCnt && x.ringCnt ≤ 1024 && x.ringBase + x.ringCnt ≤ 2 ^ 20 &&
  1 ≤ x.vecBase && 1 ≤ x.vecCnt && x.vecBase + x.vecCnt ≤ 2048 &&
  1 ≤ x.weight && x.weight ≤ 1024 && 1 ≤ x.inflightQuota && x.inflightQuota ≤ 16384 && x.slotQuota ≤ 32768 &&
  x.sidingCap ≤ 64 && x.retAddr % 64 == 0

/-- Another entry that is not EMPTY has a ring of the staged range, or its PASID (R278). -/
def overlaps (s : State) (n : Nat) (b : Bytes) : Bool :=
  let x := stagedSlice b {}
  tany s.slc.slices (fun m y => m != n && y.state != .empty &&
    (y.pasid == x.pasid || (x.ringBase < y.ringBase + y.ringCnt && y.ringBase < x.ringBase + x.ringCnt)))

/-- The staged entry moves the slice: its PASID, HOME, ring range or vector range differs. -/
def moves (x : Slice) (b : Bytes) : Bool :=
  let y := stagedSlice b x
  y.pasid != x.pasid || y.home != x.home || y.ringBase != x.ringBase || y.ringCnt != x.ringCnt ||
    y.vecBase != x.vecBase || y.vecCnt != x.vecCnt

/-- Every ring of the range is DISABLED or ERROR with OUTSTANDING 0 (R278). -/
def ringsIdle (s : State) (n : Nat) : Bool :=
  (sliceRings s n).all (fun g =>
    let r := ringOf s g
    (r.state == .disabled || r.state == .error) && r.outstanding == 0)

/-! ### Slice commands (R279) -/

/-- One slice command: its guard, DISCARDED while BUSY, then the first cause that applies, and its effect on OK (R279). -/
def slcCommand (p : Port) (n most : Nat) (check : State → Nat) (act : State → State) (s : State) : Res :=
  if !wr p .slc s then .next s
  else
    let a := legTouch p (cntWr p s)
    if !holds p 1 s then .next (guardErr p a)
    else
      let b := seqd a
      if s.now < (s.win.get p).slc.busyUntil then
        .next (updWin p (fun w => { w with slc := { w.slc with result := 5 } }) b)
      else
        let res := if n ≥ 8192 then 1 else check b
        let until_ := within most b
        let c := updWin p (fun w => { w with slc := { w.slc with result := res, busyUntil := until_ } }) (draw b)
        .next (if res == 0 then act c else c)

/-- The entry staged by port `p`. -/
def staged (p : Port) (s : State) : Bytes := (s.win.get p).slc.data

/-- SLC_READ: the entry is copied into SLC_DATA (R279). -/
def execSlcRead (p : Port) (slice : Nat) (s : State) : Res :=
  slcCommand p slice 10 (fun _ => 0)
    (fun s => updWin p (fun w => { w with slc := { w.slc with data := entryBytes (sliceOf s slice) } }) s) s

/-- SLC_WRITE: the staged entry applied to an ACTIVE or FROZEN slice (R278, R279). -/
def execSlcWrite (p : Port) (slice : Nat) (s : State) : Res :=
  slcCommand p slice 10
    (fun s =>
      let x := sliceOf s slice
      let b := staged p s
      if !(x.state == .active || x.state == .frozen) || (moves x b && !ringsIdle s slice) then 2
      else if !stagedOk b then 3
      else if overlaps s slice b then 4
      else 0)
    (fun s => updSlice slice (stagedSlice (staged p s)) (shareSync s)) s

/-- SLC_CREATE: an EMPTY entry filled, ACTIVE or FROZEN as SLC_DATA0[24] says; refused in SERVICE mode (R279, R351). Its
WEIGHT takes effect at the next epoch (R282). -/
def execSlcCreate (p : Port) (slice : Nat) (s : State) : Res :=
  slcCommand p slice 10
    (fun s =>
      let b := staged p s
      if (sliceOf s slice).state != .empty || s.chp.mode == .service then 2
      else if !stagedOk b then 3
      else if overlaps s slice b then 4
      else 0)
    (fun s =>
      let b := staged p s
      updSlice slice (fun _ =>
        let x := stagedSlice b {}
        { x with state := if bit (fld b 0 4) 24 then .frozen else .active }) (shareSync s)) s

/-- UNFREEZE: the slice and its FROZEN SQs become ACTIVE (R288). -/
def execUnfreeze (p : Port) (slice : Nat) (s : State) : Res :=
  slcCommand p slice 10
    (fun s => if (sliceOf s slice).state == .frozen then 0 else 2)
    (fun s =>
      let a := updSlice slice (fun x => { x with state := .active }) s
      (sliceSqs a slice).foldl (fun s g =>
        if (ringOf s g).state == .frozen then rebrake (ringOf s g).cq (setRing g .active s) else s) a) s

/-- Ring `g` DISABLED with both positions 0 by the removal of its slice (R289). -/
def removeRing (s : State) (g : Nat) : State :=
  let r := ringOf s g
  let a := if r.type == .cq then dropSiding g s else s
  updRing g (fun r => { r with
    state := .disabled, error := 0, producer := 0, consumer := 0, copies := [], sinceWb := 0, coalCnt := 0
    brakeStamp := 0, alerted := false }) (loseCopies g a)

/-- REMOVE: a FROZEN slice's rings are DISABLED, its slots PENDING, its bindings removed and its entry EMPTY (R289). -/
def execRemove (p : Port) (slice : Nat) (s : State) : Res :=
  slcCommand p slice 200
    (fun s => if (sliceOf s slice).state == .frozen then 0 else 2)
    (fun s =>
      let a := relieve ((sliceRings s slice).foldl (fun s g => removeRing (flushDb g s) g) s)
      let b := (tkeys a.kst.slots (fun _ x => x.state != .free && x.scope == slice)).foldl
        (fun s i => mark .pending i s) a
      updSlice slice (fun _ => {})
        (updSlc (fun c => { c with binds := tmap {} (fun _ y => if y.bound && y.slice == slice then {} else y) c.binds })
          b)) s

/-! ### Owner bindings (R281) -/

/-- Bindings of a slice, live and revoked. -/
def bindCount (s : State) (n : Nat) : Nat := tcount s.slc.binds (fun _ b => b.bound && b.slice == n)

/-- The result of a BIND: the lowest code that applies, and OK for a binding that stands (R281). -/
def bindCheck (s : State) (n o : Nat) : Nat :=
  let b := bindOf s o
  let st := (sliceOf s n).state
  if b.bound && b.slice == n then 0
  else if (ownerOf s o).state != .active then 1
  else if b.bound then 2
  else if !(st == .active || st == .frozen) then 3
  else if bindCount s n ≥ 65536 then 4
  else 0

/-- The binding window's registers as they read: the previous command's while BIND_BUSY is 1 (R281). -/
def bindShown (s : State) (p : Port) : Nat × Nat × Bool :=
  let w := (s.win.get p).slc
  if s.now < w.bindBusyUntil then (w.prevRes, w.prevTo, w.prevBound) else (w.bindRes, w.boundTo, w.bound)

/-- A binding command's result put into the window, shown once BIND_BUSY clears (R281). -/
def bindAnswer (p : Port) (f : SlcWin → SlcWin) (s : State) : State :=
  let old := bindShown s p
  let until_ := within 4 s
  updWin p (fun w => { w with slc := { f w.slc with
    prevRes := old.1, prevTo := old.2.1, prevBound := old.2.2, bindBusyUntil := until_ } }) (draw s)

/-- BIND: an ACTIVE owner is bound to a slice (R281). -/
def execBind (p : Port) (slice : Nat) (s : State) : Res :=
  if !wr p .slc s then .next s
  else if !holds p 1 s then .next (guardErr p (legTouch p (cntWr p s)))
  else
    let a := seqd (legTouch p (cntWr p s))
    let o := (a.win.get p).slc.bindOwner
    let res := bindCheck a slice o
    let b := bindAnswer p (fun w => { w with bindRes := res }) a
    .next (if res == 0 && !(bindOf a o).bound then
      updSlc (fun c => { c with binds := tset {} c.binds o { bound := true, slice := slice } }) b else b)

/-- UNBIND: a live or revoked binding to the named slice is removed (R281). -/
def execUnbind (p : Port) (slice : Nat) (s : State) : Res :=
  if !wr p .slc s then .next s
  else if !holds p 1 s then .next (guardErr p (legTouch p (cntWr p s)))
  else
    let a := seqd (legTouch p (cntWr p s))
    let o := (a.win.get p).slc.bindOwner
    let ok := (bindOf a o).bound && (bindOf a o).slice == slice
    let b := bindAnswer p (fun w => { w with bindRes := if ok then 0 else 5 }) a
    .next (if ok then updSlc (fun c => { c with binds := tset {} c.binds o {} }) b else b)

/-- QUERY: which slice the owner is bound to (R281). -/
def execQuery (p : Port) (s : State) : Res :=
  if !wr p .slc s then .next s
  else
    let a := seqd (legTouch p (cntWr p s))
    let x := bindOf a (a.win.get p).slc.bindOwner
    .next (bindAnswer p (fun w => { w with bindRes := 0, boundTo := if x.bound then x.slice else 0, bound := x.bound }) a)

/-! ### Mailboxes (R284, R285) -/

/-- One mailbox command, at the CSN of its write: acknowledge (zeroes and clears), or post with its length. -/
inductive MbxOp where
  | ack
  | post (len : Nat)
deriving DecidableEq, Repr

/-- What the tenant of slice `n` does with one MBX_CTRL write of port `p`: OUT_ACK zeroes the outbound mailbox, IN_POST posts
the inbound one; a post while IN_FULL is 1 is counted (R284, R285). -/
def tenantMbx (p : Port) (n : Nat) (s : State) (o : MbxOp) : State :=
  let x := sliceOf s n
  match o with
  | .ack => updSlice n (fun x => { x with outFull := false, outLen := 0, outBox := zeros 256 }) s
  | .post len =>
    if len == 0 || len > 256 then rangeErr p s
    else if x.inFull then updSlice n (fun x => { x with inDisc := satInc 8 x.inDisc }) s
    else setIntBoth 1 (updSlice n (fun x => { x with inFull := true, inLen := len }) s)

/-- What a manager does with one MBX_CTRL write for slice `n`: IN_ACK zeroes the inbound mailbox, OUT_POST posts the outbound
one and the slice's first vector fires; a post while OUT_FULL is 1 is counted (R284, R285). -/
def managerMbx (p : Port) (n : Nat) (s : State) (o : MbxOp) : State :=
  let x := sliceOf s n
  match o with
  | .ack => updSlice n (fun x => { x with inFull := false, inLen := 0, inBox := zeros 256 }) s
  | .post len =>
    if len == 0 || len > 256 then rangeErr p s
    else if x.outFull then updSlice n (fun x => { x with outDisc := satInc 8 x.outDisc }) s
    else msixFire x.home x.vecBase (updSlice n (fun x => { x with outFull := true, outLen := len }) s)

/-- A mailbox command changes the mailbox that `full` describes (R25). -/
def mbxChanges (full : Bool) (o : MbxOp) : Bool :=
  match o with
  | .ack => true
  | .post len => !full && 1 ≤ len && len ≤ 256

/-- An MBX_CTRL write of a tenant's page with the commands `os` (R284, R285). -/
def tenantMbxWrite (p : Port) (slice : Nat) (os : List MbxOp) (s : State) : Res :=
  let x := sliceOf s slice
  if !wr p .page s || slice ≥ 8192 then .next s
  else if x.state == .empty then .next (pageDiscard p (some slice) s)
  else .next (os.foldl (tenantMbx p slice) (seqIf (os.any (mbxChanges x.inFull)) (cntWr p s)))

/-- An MBX_CTRL write of a manager with the commands `os`; one for an EMPTY slice is ignored (R284, R285). -/
def managerMbxWrite (p : Port) (os : List MbxOp) (s : State) : Res :=
  let n := (s.win.get p).slc.mbxSel
  let x := sliceOf s n
  let a := legTouch p (cntWr p s)
  onlyIf (wr p .slc s) s
    (if x.state == .empty then a else os.foldl (managerMbx p n) (seqIf (os.any (mbxChanges x.outFull)) a))

/-- IN_POST: the tenant posts its inbound mailbox (R284). -/
def execInPost (p : Port) (slice len : Nat) (s : State) : Res := tenantMbxWrite p slice [.post len] s

/-- IN_ACK: a manager acknowledges the inbound mailbox of the selected slice (R284). -/
def execInAck (p : Port) (s : State) : Res := managerMbxWrite p [.ack] s

/-- OUT_POST: a manager posts the outbound mailbox of the selected slice; the slice's first vector fires (R285). -/
def execOutPost (p : Port) (len : Nat) (s : State) : Res := managerMbxWrite p [.post len] s

/-- OUT_ACK: the tenant acknowledges the outbound mailbox (R285). -/
def execOutAck (p : Port) (slice : Nat) (s : State) : Res := tenantMbxWrite p slice [.ack] s

/-! ### Freezing (R286, R287) -/

/-- SLICE_FREEZE: an admitted one begins the freeze of an ACTIVE slice, waits for the freeze of a FREEZING slice, and
completes at once on a FROZEN one. ADMISSION runs this at the admission CSN, so the row finds nothing left to do after it
(R286). -/
def execSliceFreeze (tag : Nat) (s : State) : Res :=
  onlyIf (isAt s tag 0x50 .admitted) s (freezeAdmitted tag s)

/-- The session slots of slice `n` that a freeze seals, in ascending index (R286 step 3). -/
def sessions (s : State) (n : Nat) : List Nat :=
  tkeys s.kst.slots (fun _ x => x.state == .live && x.session && x.scope == n)

/-- A carriage admitted before the freeze uses session slot `i` (R114, R286). -/
def freezeWaits (s : State) (n i : Nat) : Bool :=
  let g := (slotOf s i).gen
  tany s.car.cars (fun _ x => (x.stage == .admitted || x.stage == .running || x.stage == .finished) &&
    usesSlot i g x && x.admCsn < (sliceOf s n).frzCsn)

/-- One ticket put at its place in the return buffer, or counted lost (R294). -/
def returnTicket (n : Nat) (tk : Bytes) (s : State) : State :=
  let x := sliceOf s n
  let k := x.tickets.length
  let ok := x.retAddr != 0 && (s.hpt.get x.home).up && k < x.slotQuota
  let a := updSlice n (fun x => { x with
    tickets := x.tickets ++ [tk]
    retSealed := if ok then x.retSealed + 1 else x.retSealed
    retLost := if ok then x.retLost else satInc 16 x.retLost }) s
  if ok then dmaWrite x.home (some x.pasid) (s.stats.get x.home).cfg.roEn (x.retAddr + 64 * k) tk a else a

/-- One session sealed by the freeze of slice `n` (R114, R203, R206, R286). -/
def freezeSeal (n i : Nat) (s : State) : State :=
  let x := slotOf s i
  match kekOf s x.owner with
  | none => mark .pending i (seqd s)
  | some kek =>
    let tk := makeTicket kek true x.sizeCode x.owner x.count x.base (keyBytes (x.share0 ^^^ x.share1))
    mark .pending i (returnTicket n tk (seqd (cacheKek x.owner s)))

/-- The sessions sealed in turn, up to the first that an earlier carriage still uses; whether all are sealed. -/
def freezeSeals (n : Nat) : List Nat → State → Bool × State
  | [], s => (true, s)
  | i :: is, s => if freezeWaits s n i then (false, s) else freezeSeals n is (freezeSeal n i s)

/-- FREEZE_DRAIN_DONE: once every SQ has OUTSTANDING 0 the sessions are sealed, the slice is FROZEN and every waiting
SLICE_FREEZE completes (R286 steps 2 to 4). -/
def execFreezeDrainDone (slice : Nat) (s : State) : Res :=
  let ok := live s && (sliceOf s slice).state == .freezing &&
    (sliceSqs s slice).all (fun g => (ringOf s g).outstanding == 0) && s.vlt.mode != .closed
  if !ok then .next s
  else
    let r := freezeSeals slice (sessions s slice) s
    if !r.1 then .next r.2
    else
      let ts := (sliceOf r.2 slice).freezers
      let a := updSlice slice (fun x => { x with state := .frozen, freezes := satInc 16 x.freezes, freezers := [] })
        (seqd r.2)
      .next (ts.foldl (fun s t => done t stDone 0 s) a)

/-! ### Slice images (R290-R293) -/

/-- The image key's label (R291). -/
def imageLabel : Bytes := [0x53, 0x4C, 0x43, 0x49, 0x4D, 0x47]

/-- The image key: the custody key's KDF over header bytes 8 to 39 (R291). -/
def imageKey (custody hdr : Bytes) : Bytes := kdf custody imageLabel (sub hdr 8 32)

/-- The custody key of a group the unit holds (R240). -/
def custodyKey (s : State) (g : Nat) : Option Bytes := tget none s.vlt.img.custody g

/-- The ring record of ring `g` of the slice (R290). -/
def ringRecord (x : Slice) (g : Nat) (r : Ring) : Bytes :=
  let y : Ring := { r with
    state := .disabled, error := 0, home := .a, slice := 0, producer := 0, consumer := 0, outstanding := 0, siding := []
    brakeStamp := 0
    cq := if r.type == .sq then (r.cq + 2 ^ 20 - x.ringBase) % 2 ^ 20 else 0
    vector := if r.vector == 0 then 0 else (r.vector + 2 ^ 11 - x.vecBase) % 2 ^ 11 }
  let b := ctxBytes y
  splice (splice b 11 (natLe 1 (fld b 11 1 % 128))) 56 (natLe 2 (g - x.ringBase))

/-- The slot record of slot `i` (R290). -/
def slotRecord (s : State) (i : Nat) : Bytes :=
  let x := slotOf s i
  natLe 4 (slotHandle s i) ++ natLe 1 x.engine.toNat ++ natLe 1 x.usage.toNat ++
  natLe 1 (x.sizeCode + b2n x.mlen * 16) ++ [0] ++ natLe 4 x.owner ++ natLe 4 x.count ++ natLe 8 x.base ++ zeros 40 ++
  natLe 64 (x.share0 ^^^ x.share1)

/-- The rings an image carries: those of the range whose TYPE is nonzero (R290). -/
def typedRings (s : State) (n : Nat) : List Nat := (sliceRings s n).filter (fun g => (ringOf s g).type != .none)

/-- The LIVE slots of the slice, with or without WX (R290, R291). -/
def liveSlots (s : State) (n : Nat) (wx : Bool) : List Nat :=
  tkeys s.kst.slots (fun _ x => x.state == .live && x.scope == n && engWX x.engine.toNat == wx)

/-- H, the bytes of an image before its tag (R290). -/
def imageLen (b r q t : Nat) : Nat := 128 + 64 + 64 * ceilDiv b 16 + 64 * r + 128 * q + 64 * t

/-- The image of slice `n` under the custody key (R290, R291). -/
def sliceImage (s : State) (n group : Nat) (custody : Bytes) : Bytes :=
  let x := sliceOf s n
  let owners := tkeys s.slc.binds (fun _ b => b.bound && b.slice == n)
  let rings := typedRings s n
  let slots := liveSlots s n true
  let hdr := natLe 4 0x31434C53 ++ natLe 2 1 ++ natLe 2 group ++ unitId16 ++ natLe 4 s.chp.bootCnt ++ zeros 4 ++
    natLe 8 s.csn ++ natLe 8 s.now ++ natLe 2 n ++ natLe 2 rings.length ++ natLe 4 owners.length ++
    natLe 4 slots.length ++ natLe 4 x.tickets.length ++ natLe 4 (liveSlots s n false).length ++ zeros 60
  let par := natLe 2 x.weight ++ natLe 2 x.inflightQuota ++ natLe 2 x.slotQuota ++ natLe 1 x.sidingCap ++ [0] ++
    natLe 2 x.vecCnt ++ natLe 2 x.ringCnt ++ zeros 52
  let body := par ++ padTo (64 * ceilDiv owners.length 16) (owners.map (natLe 4)).flatten ++
    (rings.map (fun g => ringRecord x g (ringOf s g))).flatten ++ (slots.map (slotRecord s)).flatten ++
    x.tickets.flatten
  let k := imageKey custody hdr
  let ct := gcmCrypt k (zeros 12) body
  hdr ++ ct ++ gcmTag k (zeros 12) hdr ct

/-- SLICE_SAVE: the sealed image of a FROZEN slice is written at the start of the destination (R292). -/
def execSliceSave (tag : Nat) (s : State) : Res :=
  let c := carrOf s tag
  let n := fld c.entry 48 2
  let g := fld c.entry 50 2
  if !worldServes s 0x51 then .next s
  else if isAt s tag 0x51 .admitted then .next (begin_ tag s)
  else if !isAt s tag 0x51 .running then .next s
  else if (sliceOf s n).state != .frozen then .next (done tag stAccessDenied 0 s)
  else
    match custodyKey s g with
    | none => .next (done tag stKeyNotFound 0 s)
    | some k =>
      let a := seqd s
      let img := sliceImage a n g k
      if eLength c.entry < img.length then .next (done tag stFormatError 0 s)
      else .next (done tag stDone img.length (writeBuffer tag 0 img a))

/-! ### Restore (R293) -/

/-- The parts of a decrypted image: owner ids, ring records, slot records, tickets. -/
structure ImageBody where
  vecCnt : Nat
  owners : List Nat
  rings : List Bytes
  slots : List Bytes
  tickets : List Bytes
deriving DecidableEq, Repr

/-- The body cut by the header's counts (R290). -/
def cutImage (hdr body : Bytes) : ImageBody :=
  let r := fld hdr 50 2
  let b := fld hdr 52 4
  let q := fld hdr 56 4
  let t := fld hdr 60 4
  let o1 := 64
  let o2 := o1 + 64 * ceilDiv b 16
  let o3 := o2 + 64 * r
  let o4 := o3 + 128 * q
  { vecCnt := fld body 8 2
    owners := (chunks 4 (sub body o1 (4 * b))).map leNat
    rings := chunks 64 (sub body o2 (64 * r))
    slots := chunks 128 (sub body o3 (128 * q))
    tickets := chunks 64 (sub body o4 (64 * t)) }

/-- The image's parts, where its length, MAGIC, VERSION and tag are right (R293 check 2). -/
def openImage (custody img : Bytes) : Option ImageBody :=
  let hdr := img.take 128
  let h := imageLen (fld hdr 52 4) (fld hdr 50 2) (fld hdr 56 4) (fld hdr 60 4)
  if img.length != h + 16 || fld hdr 0 4 != 0x31434C53 || fld hdr 4 2 != 1 then none
  else
    let k := imageKey custody hdr
    let ct := sub img 128 (h - 128)
    if gcmTag k (zeros 12) hdr ct == img.drop h then some (cutImage hdr (gcmCrypt k (zeros 12) ct)) else none

/-- Working slots that are FREE and not reserved. -/
def freeSlots (s : State) : Nat := 32768 - slotsUsed s - s.kst.reservedBy.length

/-- The largest offset a ring record carries: its own and, of an SQ, its CQ's (R290, R293). -/
def ringOffsets (b : Bytes) : Nat :=
  let r := ctxRing .a b
  if r.type == .sq then max (fld b 56 2) r.cq else fld b 56 2

/-- The target can take the image (R293 check 3). -/
def targetReady (s : State) (n : Nat) (m : ImageBody) : Bool :=
  let x := sliceOf s n
  let ids := m.owners ++ m.slots.map (fun r => fld r 8 4)
  x.state == .frozen && (typedRings s n).isEmpty && !tany s.kst.slots (fun _ y => y.state != .free && y.scope == n) &&
  bindCount s n == 0 && m.rings.all (fun r => ringOffsets r < x.ringCnt) && m.vecCnt ≤ x.vecCnt &&
  m.slots.length ≤ freeSlots s && m.slots.length + m.tickets.length ≤ x.slotQuota && x.retAddr != 0 &&
  ids.all (fun o => (ownerOf s o).state == .active && (!(bindOf s o).bound || (bindOf s o).slice == n))

/-- A ring record applied to the target's range, DISABLED with both positions 0 (R293). -/
def restoreRing (n : Nat) (s : State) (b : Bytes) : State :=
  let x := sliceOf s n
  let r := ctxRing .a b
  updRing (x.ringBase + fld b 56 2) (fun _ => { r with
    mgr := false, slice := n, home := .a
    cq := if r.type == .sq then r.cq + x.ringBase else 0
    vector := if r.vector == 0 && !r.vecEn then 0 else r.vector + x.vecBase }) s

/-- A slot record allocated for the target slice; its map entry goes to the end of the list (R293, R294). -/
def restoreSlot (n : Nat) (x : State × List Bytes) (b : Bytes) : State × List Bytes :=
  match pickFree x.1 with
  | none => x
  | some i =>
    let m := fld b 6 1
    let a := allocSlot i
      { material := fld b 64 64, mlen := bit m 4, engine := fld b 4 1, usage := fld b 5 1, size := bits m 0 4
        owner := fld b 8 4, scope := n, base := fld b 16 8, count := fld b 12 4 } x.1
    (a, x.2 ++ [sub b 0 4 ++ natLe 4 (slotHandle a i) ++ zeros 56])

/-- The whole image applied at one CSN, then the return buffer written (R293, R294). -/
def applyImage (n : Nat) (m : ImageBody) (s : State) : State :=
  let a := seqd s
  let b := updSlc (fun c => { c with
    binds := m.owners.foldl (fun t o => tset {} t o { bound := true, slice := n }) c.binds }) a
  let d := m.rings.foldl (restoreRing n) b
  let e := m.slots.foldl (restoreSlot n) (d, [])
  let x := sliceOf e.1 n
  let up := (e.1.hpt.get x.home).up
  let f := updSlice n (fun x => { x with
    retSealed := if up then m.tickets.length else 0, retMapped := if up then m.slots.length else 0 }) e.1
  (m.tickets ++ e.2).foldl (fun (y : Nat × State) d =>
    (y.1 + 64, dmaWrite x.home (some x.pasid) (s.stats.get x.home).cfg.roEn y.1 d y.2)) (x.retAddr, f) |>.2

/-- SLICE_RESTORE: the image is read, checked in order and applied whole, or not at all (R293). -/
def execSliceRestore (tag : Nat) (s : State) : Res :=
  let c := carrOf s tag
  let n := fld c.entry 48 2
  if !worldServes s 0x52 then .next s
  else if isAt s tag 0x52 .admitted then .next (readBuffer (.record tag) tag 0 (eLength c.entry) (begin_ tag s))
  else if !isAt s tag 0x52 .running then .next s
  else
    match c.record, custodyKey s (fld c.entry 50 2) with
    | none, _ => .next s
    | some _, none => .next (done tag stKeyNotFound 0 s)
    | some img, some k =>
      match openImage k img with
      | none => .next (done tag stVerifyReject 0 s)
      | some m =>
        if targetReady s n m then .next (done tag stDone 0 (applyImage n m s))
        else .next (done tag stAccessDenied 0 s)

end Sys2Proof.Machine
end

