-- ==== Sys2Proof/Machine/Events.lean ====
section
/-! DEFINITION. The event recorder: flushes, pages, the hash chain and its seals, the floor and the read window
(16_event_recorder.md). -/
namespace Sys2Proof.Machine

/-! ### Seals (R330, R331) -/

/-- H₀, or the chain value as it stands. -/
def chainNow (e : Evr) : Bytes := if e.chain.isEmpty then sha3_256 unitId16 else e.chain

/-- Bytes of the SEAL_SIG payload of piece `k` (R327, R331). -/
def sigPiece (sig : Bytes) (k : Nat) : Bytes :=
  let n := if k < 4 then 1000 else 627
  natLe 2 k ++ natLe 2 n ++ zeros 4 ++ padTo n (sub sig (1000 * k) n)

/-- A seal's six records reserved in the buffer, their contents still 0 (R330). -/
def reserveSeal (now : Nat) (e : Evr) : Evr :=
  [0, 1, 2, 3, 4].foldl (fun e k => create .sealSig now now (sigPiece [] k) e)
    (create .seal now now (zeros 72) { e with sealCnt := 0 })

/-- The contents of a SEAL record as it is flushed (R330). -/
def sealPayload (boot : Nat) (e : Evr) : Bytes :=
  natLe 4 e.sealFirst ++ natLe 4 e.lastChained ++ natLe 4 e.sinceSeal ++ zeros 4 ++ chainNow e ++ unitId16 ++
  natLe 4 boot ++ zeros 4

/-- One record as it is flushed: a seal's contents are filled in, and the chain takes its bytes (R330, R331). -/
def chainRec (seed : Bytes) (boot now : Nat) (e : Evr) (r : EvRec) : Evr × EvRec :=
  let r2 : EvRec := match r.type with
    | .seal => { r with payload := sealPayload boot e }
    | .sealSig => { r with payload := sigPiece e.sig (fld r.payload 0 2) }
    | _ => r
  let h := sha3_256 (chainNow e ++ recBytes r2)
  match r.type with
  | .seal =>
    ({ e with
        chain := h, sinceSeal := 0, lastSeal := r.seq
        sig := padTo sigLen (mldsaSign seed [] (recBytes r2) (zeros 32)) }, r2)
  | .sealSig => ({ e with chain := h }, r2)
  | _ =>
    let e2 := { e with
      chain := h, sinceSeal := e.sinceSeal + 1, sealCnt := e.sealCnt + 1, lastChained := r.seq
      sealFirst := if e.sinceSeal == 0 then r.seq else e.sealFirst }
    (if e2.sealCnt ≥ 4096 then reserveSeal now e2 else e2, r2)

/-! ### Pages and blocks (R329, R334) -/

/-- Sequence number `q` is at or after `f` in wrapping order (R326). -/
def seqFrom (f q : Nat) : Bool := (q + 2 ^ 32 - f) % 2 ^ 32 < 2 ^ 31

/-- Records packed into pages of 4,096 bytes in order; no record crosses a page (R329). -/
def paginate : List EvRec → List EvRec → Nat → List (List EvRec)
  | [], cur, _ => if cur.isEmpty then [] else [cur]
  | r :: rs, cur, n =>
    if n + recLen r ≤ 4096 then paginate rs (cur ++ [r]) (n + recLen r) else cur :: paginate rs [r] (recLen r)

/-- The page's bytes with its spare bytes: first SEQ, CHP_BOOT_CNT and their CRC (R329). -/
def pageBytes (boot : Nat) (rs : List EvRec) : Bytes :=
  let d := padTo 4096 (rs.map recBytes).flatten ++ natLe 4 (rs.headD {}).seq ++ natLe 4 boot
  d ++ natLe 4 (crc32 d)

/-- A block of the partition holds a record at or after the floor. -/
def blockKept (e : Evr) (b : Nat) : Bool := e.flushed.any (fun x => x.1 / 64 == b && seqFrom e.floor x.2.seq)

/-- The next page would begin a block that cannot be erased: the partition is full (R334). -/
def pageBlocked (e : Evr) : Bool := e.page % 64 == 0 && e.page ≥ 65536 && blockKept e (e.page / 64 - 1024)

/-- The distinct numbers of a list. -/
def distinct : List Nat → List Nat
  | [] => []
  | x :: xs => if xs.contains x then distinct xs else x :: distinct xs

/-- FREE_BLOCKS: the blocks erased or erasable (R334). -/
def countFree (e : Evr) : Nat :=
  1024 - (distinct ((e.flushed.filter (fun x => seqFrom e.floor x.2.seq)).map (fun x => x.1 / 64))).length

/-- The block of the next page is erased where that page begins it: what it held a ring ago is gone (R329). -/
def beginBlock (e : Evr) : Evr :=
  if e.page % 64 == 0 then
    { e with
      flushed := e.flushed.filter (fun x => x.1 / 64 + 1024 != e.page / 64)
      tornPages := e.tornPages.filter (fun x => x.1 / 64 + 1024 != e.page / 64) }
  else e

/-- The block of a device that holds page `n` of the stream: the partition is a ring of blocks 2,952 to 3,975 (R329). -/
def eventBlock (n : Nat) : Nat := 2952 + n / 64 % 1024

/-- One page written: its block is erased first where it is begun, and its records are chained and flushed. -/
def flushPage (seed : Bytes) (boot now : Nat) (rs : List EvRec) (e : Evr) : Evr × List EvRec :=
  let m := rs.foldl (fun (x : Evr × List EvRec) r =>
    let c := chainRec seed boot now x.1 r
    (c.1, x.2 ++ [c.2])) (beginBlock e, [])
  ({ m.1 with
      flushed := m.1.flushed ++ m.2.map (fun r => (e.page, r)), page := e.page + 1
      flushedSeq := (m.2.getLast?.map (·.seq)).getD e.flushedSeq }, m.2)

/-- Pages written in turn, each with its number; where the partition is full the rest goes back to the front of the buffer, and it
is full as soon as the block that the next page begins cannot be erased (R334). -/
def flushPages (seed : Bytes) (boot now : Nat) : List (List EvRec) → Evr → Evr × List (Nat × List EvRec)
  | [], e => ({ e with full := pageBlocked e }, [])
  | p :: ps, e =>
    if pageBlocked e then ({ e with full := true, buf := (p :: ps).flatten ++ e.buf }, [])
    else
      let m := flushPage seed boot now p e
      let rest := flushPages seed boot now ps m.1
      (rest.1, (e.page, m.2) :: rest.2)

/-! ### Flushes (R328) -/

/-- A flush starts, or joins the one that runs; the period restarts. One for PFAIL_N or FAULT seals first (R328, R330).
While the partition is full flushes stop (R334). -/
def flushStart (hold : Bool) (s : State) : State :=
  if s.evr.full then s
  else
    let e := if hold && s.evr.sinceSeal > 0 then reserveSeal s.now s.evr else s.evr
    { s with evr := { e with
        flushing := true, flushAt := s.now, flushTo := e.nextSeq, flushFrom := if e.flushing then e.flushFrom else s.now } }

/-- FLUSH: a manager starts a flush (R328). -/
def execFlush (p : Port) (s : State) : Res :=
  if wr p .evr s then .next (flushStart false (seqIf (!s.evr.full) (legTouch p (cntWr p s)))) else .next s

/-- The devices that take event pages: those still written, but for one out of use while the vault is SINGLE (R328, R329). -/
def evrDevs (s : State) : Nat :=
  if s.vlt.mode == .single then s.evr.devs &&& (if s.vlt.devA == 0 then 1 else 2) else s.evr.devs

/-- The partition is open: the boot has passed that step (R355). -/
def evrOpen (s : State) : Bool := powered s && s.evr.devs != 0

/-- FLUSH_PERIOD_EXPIRY: EVR_FLUSH_PERIOD after the previous flush start (R328). -/
def execFlushPeriodExpiry (s : State) : Res :=
  onlyIf (evrOpen s && s.now ≥ s.evr.flushAt + 1000 * s.evr.period) s (flushStart false s)

/-- BUFFER_THRESHOLD_FLUSH: the buffer holds 128 KiB or more (R328). -/
def execBufferThresholdFlush (s : State) : Res :=
  onlyIf (evrOpen s && !s.evr.flushing && bufOcc s.evr ≥ 131072) s (flushStart false s)

/-- OVERFLOW_END put ahead of the records being flushed, once displacement has stopped (R334). -/
def overflowEnd (s : State) : State :=
  let e := s.evr
  if e.ovfEndDue then
    let r : EvRec :=
      { type := .overflowEnd, seq := e.nextSeq, time := s.now
        payload := natLe 4 e.ovfFirst ++ natLe 4 e.ovfLast ++ natLe 4 e.ovfSpell ++ zeros 4 }
    { s with evr := { e with
        nextSeq := (e.nextSeq + 1) % 2 ^ 32, buf := r :: e.buf, ovfEndDue := false, displacing := false, ovfSpell := 0 } }
  else s

/-- The records a flush writes: those created before its start, or all of them once PFAIL_N is asserted (R328). -/
def flushSet (s : State) : List EvRec × List EvRec :=
  if s.gov.pfail then (s.evr.buf, [])
  else (s.evr.buf.filter (fun r => !seqFrom s.evr.flushTo r.seq || r.type == .overflowEnd),
    s.evr.buf.filter (fun r => seqFrom s.evr.flushTo r.seq && r.type != .overflowEnd))

/-- A page that one device could not take: the recorder goes on with the other (R329). -/
def flushFailed (dev seq : Nat) (s : State) : State :=
  record .flushFail (natLe 1 dev ++ zeros 3 ++ natLe 4 seq)
    (updEvr (fun e => { e with devs := e.devs - (if bit e.devs dev then 2 ^ dev else 0) }) s)

/-- The buffer of the backup domain is cleared once its records are flushed (R322). -/
def clearCopied (s : State) : State :=
  if s.bbr.copied && !s.evr.buf.any (fun r => r.type == .alarm) then
    { s with bbr := { s.bbr with buffer := [], copied := false } }
  else s

/-- The pages that a flush writes (R328, R329). -/
def flushPlan (s : State) : List (List EvRec) := paginate (flushSet (overflowEnd s)).1 [] 0

/-- Page `x` of the stream sent to device `dev`, its block erased first where it begins one (R329). -/
def sendPage (dev : Nat) (x : Nat × List EvRec) (s : State) : State :=
  let a := if x.1 % 64 == 0 then emit (.eventErase dev (eventBlock x.1)) s else s
  emit (.eventWrite dev (eventBlock x.1) (x.1 % 64) (pageBytes s.chp.bootCnt x.2)) a

/-- EVR_FULL is raised where the partition has become full (R334, R408). -/
def fullInt (was : Bool) (s : State) : State := if s.evr.full && !was then setIntBoth 14 s else s

/-- The first `k` pages of a flush written to the devices that take them; the records of the others stay at the buffer's front. -/
def flushPart (k : Nat) (aOk bOk : Bool) (s : State) : State :=
  let a := overflowEnd s
  let x := flushSet a
  let ps := paginate x.1 [] 0
  let m := flushPages (attestSeedOf a) a.chp.bootCnt a.now (ps.take k) { a.evr with buf := (ps.drop k).flatten ++ x.2 }
  let b := { a with evr := { m.1 with freeBlocks := countFree m.1 } }
  let d := m.2.foldl (fun s p =>
    let t := if aOk then sendPage 0 p s else s
    if bOk then sendPage 1 p t else t) b
  clearCopied (fullInt s.evr.full d)

/-- A whole flush written to the devices that take it. -/
def flushWrite (aOk bOk : Bool) (s : State) : State := flushPart (flushPlan s).length aOk bOk s

/-- FLUSH_DONE: the flush ends. A device that could not take page `page` of it got the pages before, and is left out from that page
on, where the other goes on (R328-R330, R334; log entry 90). -/
def execFlushDone (aOk bOk : Bool) (page : Nat) (s : State) : Res :=
  let failA := bit (evrDevs s) 0 && !aOk && page < (flushPlan s).length
  let failB := bit (evrDevs s) 1 && !bOk && page < (flushPlan s).length
  let first := (((flushPlan s).getD page []).headD {}).seq
  let a := if (failA || failB) && page != 0 then flushPart page (bit (evrDevs s) 0) (bit (evrDevs s) 1) s else s
  let b := if failA then flushFailed 0 first a else a
  let c := if failB then flushFailed 1 first b else b
  let useA := bit (evrDevs s) 0 && !failA
  let useB := bit (evrDevs s) 1 && !failB
  let d := if useA || useB then flushWrite useA useB c else c
  onlyIf (evrOpen s && s.evr.flushing) s
    (updEvr (fun e => { e with flushing := false, flushCnt := satInc 32 e.flushCnt, flushLat := min 0xFFFF (s.now - e.flushFrom) }) d)

/-! ### The floor (R333) -/

/-- The floor takes effect: blocks below it can be erased, and flushes go on (R333, R334). -/
def setFloor (f : Nat) (s : State) : State :=
  updEvr (fun e =>
    let e2 := { e with floor := f }
    { e2 with freeBlocks := countFree e2, full := e.full && pageBlocked e2 }) s

/-- A new floor is permitted: the SEQ of a flushed SEAL, not before the current floor (R333). -/
def floorOk (s : State) (f : Nat) : Bool :=
  s.evr.flushed.any (fun x => x.2.type == .seal && x.2.seq == f) && seqFrom s.evr.floor f

/-! ### The window (R332) -/

/-- The records still held, in the order of the stream. -/
def heldRecs (e : Evr) : List EvRec := e.flushed.map (·.2) ++ e.buf

/-- The first SEQ at or after the cursor among the records held. -/
def cursorSeq (q : Nat) (l : List EvRec) : Option Nat :=
  l.foldl (fun m r =>
    if !seqFrom q r.seq then m
    else match m with
      | some x => some (if seqFrom r.seq x then r.seq else x)
      | none => some r.seq) none

/-- The records from the one whose SEQ is the first at or after the cursor. -/
def fromCursor (q : Nat) (l : List EvRec) : List EvRec :=
  match cursorSeq q l with
  | some x => l.dropWhile (fun r => r.seq != x)
  | none => []

/-- Whole records within 4 KiB. -/
def windowRecs : List EvRec → Nat → List EvRec
  | [], _ => []
  | r :: rs, n => if n + recLen r ≤ 4096 then r :: windowRecs rs (n + recLen r) else []

/-- CURSOR: a write of EVR_CURSOR loads the port's window (R332). -/
def execCursor (p : Port) (seq : Nat) (s : State) : Res :=
  if wr p .evr s then
    .next (updWin p (fun w => { w with evr := { w.evr with cursor := seq % 2 ^ 32, busy := true, winLen := 0, window := [] } })
      (seqd (legTouch p (cntWr p s))))
  else .next s

/-- EVENT_WINDOW_LOADED: the window holds whole records from the first at or after the cursor (R332); in FAULT no load ends, since
reads show the state of the last CSN (R29). -/
def execEventWindowLoaded (p : Port) (s : State) : Res :=
  let w := (s.win.get p).evr
  let d := ((windowRecs (fromCursor w.cursor (heldRecs s.evr)) 0).map recBytes).flatten
  onlyIf (powered s && !inFault s && w.busy) s
    (updWin p (fun w => { w with evr := { w.evr with busy := false, winLen := d.length, window := d } }) s)

end Sys2Proof.Machine
end

