-- ==== Sys2Proof/Machine/Faults.lean ====
section
/-! DEFINITION. Entry to FAULT and the end of a debug grant and the JTAG port (R19, R29, R163, R345, R346, R409). -/
namespace Sys2Proof.Machine

/-- A world that a debugger had halted runs on, its watchdog from where the halt had paused it (R308, R310). -/
def unhalt (now : Nat) (w : WorldSt) : WorldSt :=
  if w.state == .halted then { w with state := .running, kickAt := w.kickAt + (now - w.haltAt) } else w

/-- A debug grant ends: every enable clears, and an outstanding challenge or the request of one is dropped; the verification
of a response goes on (R260, R343, R345). -/
def grantEnd (s : State) : State :=
  let a := updWld (fun w => { w with dbg := 0, secure := unhalt s.now w.secure, normal := unhalt s.now w.normal }) s
  let c := updRng (fun r => { r with waiters := r.waiters.filter (fun w => w.who != .debug) }) a
  updLcs (fun l =>
    { l with
      granted := 0, chalLive := false, chal := if l.chalLive then 0 else l.chal, chalExpired := l.chalExpired || l.chalLive
      chalBytes := if l.chalLive then zeros 64 else l.chalBytes }) c

/-- The verification of a debug response is ended: a bad signature (R260, R266). -/
def debugLost (s : State) : State :=
  if !s.lat.queue.contains .debug then s
  else
    updLcs (fun l => { l with chal := 3, dbgResult := 1, resp := none, chalBytes := zeros 64 })
      (updLat (fun l => { l with queue := l.queue.erase .debug }) s)

/-- A tag put into a list in take order. -/
def insertTake (s : State) (t : Nat) : List Nat → List Nat
  | [] => [t]
  | u :: us => if (carrOf s t).order < (carrOf s u).order then t :: u :: us else u :: insertTake s t us

/-- Every carriage that holds a tag, in take order (R86). -/
def takeOrder (s : State) : List Nat := (tkeys s.car.cars (fun _ c => c.stage != .free)).foldr (insertTake s) []

/-- Every carriage completes INTERNAL_FAULT, after the scrub writes of all of them (R19, R29, R163). -/
def faultCarriages (s : State) : State :=
  let ts := takeOrder s
  let a := ts.foldl (fun s t => if (carrOf s t).stage == .finished then s else scrub t s) s
  ts.foldl (fun s t => if (carrOf s t).stage == .free then s else finish t stInternalFault 0 s) a

/-- Every working slot and shadow slot zeroised, and every key-staging entry with them (R141, R168, R206). -/
def zeroiseKeys (s : State) : State :=
  let a := (tkeys s.kst.slots (fun _ x => x.state != .free)).foldl (fun s i => zeroiseSlot i s) s
  purgeStaging (fun _ => true) (dropShadows (fun _ => true) a)

/-- Entry to FAULT with a cause (R409): a sequenced action whose interrupt fires before the INTERNAL_FAULT completions; keys
are zeroised, engine operations end, a debug grant ends; what the registers show from then on is kept (R29), and the event
recorder flushes. No FAULT leaves a port whose link is up unable to carry DMA (R163; log entry 99). -/
def enterFault (cause : Nat) (s : State) : State :=
  if inFault s || !powered s then s
  else
    let a := seqd s
    let b := { a with chp := { a.chp with mode := .fault, faultCause := cause } }
    let c := faultCarriages (setIntBoth 17 (record .fault (natLe 4 cause ++ zeros 4) b))
    let d := ucpEnd stInternalFault 0 (latEnd .b stInternalFault 0 (latEnd .a stInternalFault 0 c))
    let e := chanZeroise .b stInternalFault (chanZeroise .a stInternalFault d)
    let f := legErase 10 stInternalFault (zeroiseKeys (updRng (fun r => { r with waiters := [] }) e))
    flushStart true (keepShown (grantEnd (debugLost f)))

/-- The causes of FAULT (R409). -/
def faultCause (c : Nat) : Bool := (1 ≤ c && c ≤ 7) || c == 0x10000 || (0x20000 ≤ c && c ≤ 0x2FFFF)

/-- FAULT_ENTRY: the device enters FAULT with a cause of R409's table (R19, R29). -/
def execFaultEntry (cause : Nat) (s : State) : Res := onlyIf (faultCause cause) s (enterFault cause s)

/-! ### The JTAG port (R346) -/

/-- What JTAG reads as IDCODE (R346). -/
def jtagIdcode : Nat := 0x17416001 + 2 * (Config.jep106 % 2 ^ 11)

/-- The life-cycle state offers the instruction; one it does not offer selects BYPASS. Debug access to a world is a matter
of its enables besides (R335, R343, R346). -/
def jtagOffers (s : State) (i : JtagInstr) : Bool :=
  match i, s.lcs.state with
  | .bypass, _ | .idcode, _ | .sample, _ | .lcsRead, _ => true
  | .lcsWrite, st => st != .field && st != .terminal
  | _, .raw | _, .terminal => false
  | _, .test0 | _, .test1 | _, .test2 | _, .test3 => s.lcs.unlocked
  | .debug, _ => true
  | _, st => st != .field

/-- The JTAG port is told an instruction: it selects it, or BYPASS where the state does not offer it (R346; log entry 111). -/
def jtagSelect (i : JtagInstr) (s : State) : State :=
  if powered s then updLcs (fun l => { l with jtag := if jtagOffers s i then i else .bypass }) s else s

end Sys2Proof.Machine
end

