-- ==== Sys2Proof/Machine/Worlds.lean ====
section
/-! DEFINITION. The two worlds: failures and restarts, gates, blocked accesses and debug halts (14_control_worlds.md). -/
namespace Sys2Proof.Machine

/-- World `w` changed by `f`. -/
def updWorld (w : World) (f : WorldSt → WorldSt) (s : State) : State :=
  match w with
  | .secure => updWld (fun x => { x with secure := f x.secure }) s
  | .normal => updWld (fun x => { x with normal := f x.normal }) s

/-- The world's number in a WORLD record (R327). -/
def worldNum : World → Nat
  | .secure => 0 | .normal => 1

/-- A WORLD record (R327). -/
def worldRecord (kind who cause outcome n : Nat) (s : State) : State :=
  record .world (natLe 1 kind ++ natLe 1 who ++ natLe 1 cause ++ natLe 1 outcome ++ natLe 4 n) s

/-! ### Restarts (R304-R307) -/

/-- The carriages a secure-world restart ends: those that reached the secure world and have not passed their commit point
(R121, R305). -/
def secureRunning (s : State) : List Nat :=
  tkeys s.car.cars (fun t c => c.stage == .running && isSecureOp (eOp c.entry) &&
    !tany s.vlt.props (fun _ p => p.state == .committed && p.by_ == some t))

/-- The shelves that a restart of world `w` takes to ASLEEP: those in a wake or sleep where it sequences them, and those of running
DRIVE_ADMINs where NVMe administration is its own (R297, R306; log entry 110). -/
def stopShelves (w : World) (s : State) : List Nat :=
  (List.range 8).filter (fun n =>
    (w == worldFor s .shelves && (shelfOf s n).step != .idle && (shelfOf s n).state != .asleep) ||
      (w == worldFor s .nvmeAdmin && (shelfOf s n).state != .asleep &&
        tany s.car.cars (fun _ c => c.stage == .running && eOp c.entry == 0x22 && driveShelf (srcDrive c) == n)))

/-- The media carriages that a restart of world `w` ends. -/
def stopMedia (w : World) (s : State) : List Nat :=
  tkeys s.car.cars (fun _ c => c.stage == .running && isNormalOp (eOp c.entry) && worldFor s (opFn (eOp c.entry)) == w)

/-- Step 2 of a restart for the media functions of world `w`: their carriages end MEDIA_TIMEOUT and the shelves go to ASLEEP
(R306). -/
def mediaStop (w : World) (s : State) : State :=
  let ts := stopMedia w s
  let hs := stopShelves w s
  let admins := ts.filter (fun t => eOp (carrOf s t).entry == 0x22)
  let a := admins.foldl (fun s t => stop t stMediaTimeout (0xFF * 2 ^ 16) s) s
  let b := hs.foldl (fun s n => wakeFail n 0 s) a
  ts.foldl (fun s t => if (carrOf s t).stage == .running then stop t stMediaTimeout 0 s else s) b

/-- The destination of a SLICE_SAVE that a restart ends holds undefined contents (R292): free bytes are written to it. -/
def saveTorn (t : Nat) (s : State) : State :=
  let c := carrOf s t
  if eOp c.entry == 0x51 && c.stage == .running then draw (writeBuffer t 0 (natLe (eLength c.entry) (drawn s)) s) else s

/-- Steps 1 to 4 of a secure-world restart; a vault commit that has begun runs on without its output (R121, R305). -/
def secureStop (s : State) : State :=
  let ts := secureRunning s
  let begun := tkeys s.vlt.props (fun _ p => p.begun)
  let m := begun.foldl (fun s i => updProp i (fun p => { p with mute := true }) (dropSign i s)) s
  let a := ts.foldl (fun s t => stop t stSecureRestarted 0 (saveTorn t s)) m
  let b := mediaStop .secure (if a.ucp.holder == some .secure then ucpForce stAborted a else a)
  updWld (fun w => { w with
    gates := tmap {} (fun _ g => { g with mark := false }) w.gates
    secure := { w.secure with aborts := ts.length + (stopMedia .secure s).length, wiped := true } }) b

/-- Steps 1 to 4 of a normal-world restart (R306). -/
def normalStop (s : State) : State :=
  updWld (fun w => { w with normal := { w.normal with aborts := (stopMedia .normal s).length, wiped := true } })
    (mediaStop .normal s)

/-- A world fails with a cause: it is stopped and restarts alone; a failure during its restart, and the fifth restart of
the secure world within 3,600 s, enter FAULT; in a trial the activation falls back (R304-R306, R365). -/
def worldFail (w : World) (cause : Nat) (s : State) : State :=
  let x := worldOf s w
  let recent := x.restarts.filter (fun t => s.now < t + 3600000000)
  if s.fwu.activating then
    grantEnd (updWorld w (fun x => { x with state := .failed, cause := cause, failAt := s.now }) s)
  else if x.state == .restarting then enterFault 7 (updWorld w (fun x => { x with state := .failed }) s)
  else if w == .secure && recent.length ≥ 4 then enterFault 4 (updWorld w (fun x => { x with state := .failed }) s)
  else
    let a := grantEnd (updWorld w (fun x => { x with
      state := .restarting, cause := cause, failAt := s.now, restarts := recent ++ [s.now] }) s)
    match w with
    | .secure => secureStop a
    | .normal => normalStop a

/-- WATCHDOG_EXPIRY: no kick within the world's period (R304). -/
def execWatchdogExpiry (w : World) (s : State) : Res :=
  let x := worldOf s w
  onlyIf (live s && x.state == .running && s.now ≥ x.kickAt + 1000 * x.wdt) s (worldFail w 1 s)

/-- WORLD_EXCEPTION: an unrecoverable processor exception (R304). -/
def execWorldException (w : World) (s : State) : Res :=
  let x := worldOf s w
  onlyIf (live s && (x.state == .running || x.state == .restarting)) s (worldFail w 2 s)

/-- MONITOR_CHECK_FAIL: inconsistent control structures at a world switch (R304). -/
def execMonitorCheckFail (w : World) (s : State) : Res :=
  let x := worldOf s w
  onlyIf (live s && (x.state == .running || x.state == .restarting)) s (worldFail w 3 s)

/-- The active firmware slot's image. -/
def slotImage (s : State) (n : Nat) : Bytes := if n == 0 then s.flash.slot0 else s.flash.slot1

/-- SHA-384 of a world's part of an image (R357). -/
def measureOf (w : World) (img : Bytes) : Bytes :=
  let body := sub img 8704 (fld img 32 4)
  match w with
  | .secure => sha384 (body.take (fld img 36 4))
  | .normal => sha384 (body.drop (fld img 36 4))

/-- A drive's initialisation or controller reset that was in progress starts again (R306). -/
def initAgain (s : State) (d : Nat) : State :=
  let x := driveOf s d
  if x.state != .init then s
  else if x.resetting then emit (.nvmeCtl d 0) (updDrive d (fun x => { x with disabling := true, dlUpAt := some s.now }) s)
  else if x.dlUpAt.isSome then emit (.nvmeCtl d 1) (updDrive d (fun x => { x with enableAt := s.now }) s)
  else s

/-- RESTART_COMPLETE: the reloaded image is measured; where it equals the boot measurement the world runs, and its restart
is counted and recorded, and the world of NVMe administration takes up the drives that were being initialised; otherwise the device enters FAULT
(R305-R307). -/
def execRestartComplete (w : World) (s : State) : Res :=
  let x := worldOf s w
  let same := measureOf w (slotImage s s.fwu.active) == x.meas
  let a := worldRecord 1 (worldNum w) x.cause (if same then 0 else 1) x.aborts s
  let b := updWorld w (fun x => { x with
    state := if same then .running else .failed, wiped := false, kickAt := s.now, rstCnt := satInc 16 x.rstCnt }) a
  let c := setIntBoth 9 b
  let d := if w == worldFor s .nvmeAdmin then (List.range 512).foldl initAgain c else c
  onlyIf (live s && x.state == .restarting && s.now < x.failAt + 250000) s
    (if same then d else enterFault (match w with | .secure => 1 | .normal => 2) c)

/-- RESTART_TIMEOUT: a restart not complete within 250 ms enters FAULT (R305, R306). -/
def execRestartTimeout (w : World) (s : State) : Res :=
  let x := worldOf s w
  onlyIf (live s && x.state == .restarting && s.now ≥ x.failAt + 250000) s
    (enterFault 3 (updWorld w (fun x => { x with state := .failed }) s))

/-! ### Gates (R302, R303) -/

/-- A block's bit in WLD_GATE_REQ. -/
def gateBit : GateBlock → Nat
  | .ucp => 0 | .lat => 1 | .rng => 2 | .bnv => 3 | .kst => 4

/-- A block's gate. -/
def gateOf (s : State) (b : GateBlock) : Gate := tget {} s.wld.gates (gateBit b)

/-- A block's gate changed by `f`. -/
def updGate (b : GateBlock) (f : Gate → Gate) (s : State) : State :=
  updWld (fun w => { w with gates := tupd {} w.gates (gateBit b) f }) s

/-- The hardware in-use mark of a block (R302). -/
def hwMark (s : State) (b : GateBlock) : Bool :=
  match b with
  | .ucp => s.ucp.holder.isSome
  | .lat => !s.lat.queue.isEmpty
  | .rng => s.rng.state == .starting || s.rng.state == .seeded
  | .bnv => tany s.bnv.chans (fun _ x => x.isSome) || !s.bnv.queue.isEmpty || s.bnv.priv.a.busy || s.bnv.priv.b.busy
  | .kst => slotsUsed s != 0 || s.vlt.mode != .closed

/-- A block is in use (R302). -/
def gateInUse (s : State) (b : GateBlock) : Bool := (gateOf s b).mark || hwMark s b

/-- What the secure world, while it runs, declares of its use of a block: no row of the table tells, so it is free (R302;
log entry 95). -/
def declared (b : GateBlock) (s : State) : State :=
  if s.wld.secure.state == .running then draw (updGate b (fun g => { g with mark := drawn s % 2 == 1 }) s) else s

/-- GATE_REQUEST: the gate is applied, or DEFERRED while a mark is set (R302). -/
def execGateRequest (block : GateBlock) (s : State) : Res :=
  let a := declared block s
  onlyIf (live s && !(gateOf s block).req) s
    (updGate block (fun g =>
      if gateInUse a block then { g with req := true, deferred := true, since := s.now, late := false }
      else { g with req := true, on := true }) a)

/-- UNGATE_REQUEST: the request is cancelled and the gate released (R302). -/
def execUngateRequest (block : GateBlock) (s : State) : Res :=
  onlyIf (live s) s
    (updGate block (fun g => { g with req := false, deferred := false, since := 0, late := false, on := false }) s)

/-- GATE_APPLY: a deferred gate is applied once the last mark has cleared (R302). -/
def execGateApply (block : GateBlock) (s : State) : Res :=
  let a := declared block s
  onlyIf (live s && (gateOf s block).deferred) s
    (if gateInUse a block then a
     else updGate block (fun g => { g with deferred := false, since := 0, late := false, on := true }) a)

/-- WORK_UNGATE: work that has arrived for a gated block ungates it and clears the request (R302). -/
def execWorkUngate (block : GateBlock) (s : State) : Res :=
  onlyIf (live s && (gateOf s block).on && hwMark s block) s (updGate block (fun g => { g with req := false, on := false }) s)

/-- What the hardware does by itself with the gates: a deferred one is applied once the last mark has cleared, and work that has
arrived ungates its block (R302; log entry 95). -/
def gatesDue (s : State) : State :=
  if !live s then s
  else [GateBlock.ucp, .lat, .rng, .bnv, .kst].foldl (fun s b =>
    let g := gateOf s b
    if g.deferred && !gateInUse s b then updGate b (fun g => { g with deferred := false, since := 0, late := false, on := true }) s
    else if g.on && hwMark s b then updGate b (fun g => { g with req := false, on := false }) s
    else s) s

/-- GATE_LATE: a request DEFERRED for 500 ms is recorded and counted once (R303). -/
def execGateLate (block : GateBlock) (s : State) : Res :=
  let g := gateOf s block
  onlyIf (live s && g.deferred && !g.late && s.now ≥ g.since + 500000) s
    (worldRecord 4 (gateBit block) (b2n g.mark + 2 * b2n (hwMark s block)) 0 0
      (updWld (fun w => { w with gateLate := satInc 16 w.gateLate }) (updGate block (fun g => { g with late := true }) s)))

/-! ### Memory division and assignments (R297, R300, R301) -/

/-- The ownership code of a page in region mode: the highest-numbered region that covers it, else 0b10 (R300). -/
def regionCode (rs : Tbl (Nat × Nat × Nat)) (page : Nat) : Nat :=
  match rs.reverse.find? (fun e => e.2.1 / 4096 ≤ page && page ≤ e.2.2.1 / 4096) with
  | some e => e.2.2.2
  | none => 2

/-- The page of an address of WLD_VIOL_ADDR's form: [28] the port, [27:0] the offset; the 512 pages of SRAM come first (R300). -/
def pageNo (address : Nat) : Nat := 512 * bits address 28 1 + bits address 12 16

/-- The ownership code of an address (R300). -/
def pageCode (s : State) (address : Nat) : Nat :=
  let port := bits address 28 1
  let page := bits address 12 16
  if s.wld.memMode then tget 0 s.wld.pages (pageNo address)
  else regionCode ((s.wld.regions.filter (fun e => e.1 / 16 == port)).map (fun e => (e.1 % 16, e.2))) page

/-- A code that lets the normal world read (R300). -/
def normalReads (code : Nat) : Bool := code == 1 || code == 3

/-- What the monitor has set for the page of an address: no command of the table writes the region registers or the page owner
table, so the code is free, held in the port's last region or in the table. A page that the normal world could not read until then
is zeroised before it gets access (R300; log entry 35). -/
def monitorSets (address : Nat) (s : State) : State :=
  let port := bits address 28 1
  let page := bits address 12 16
  let code := drawn s % 4
  let gives := normalReads code && !normalReads (pageCode s address)
  draw (updWld (fun w =>
    let w := if gives && !w.zeroed.contains (pageNo address) then { w with zeroed := w.zeroed ++ [pageNo address] } else w
    if w.memMode then { w with pages := tset 0 w.pages (pageNo address) code }
    else { w with regions := tput w.regions (16 * port + 15) (4096 * page, 4096 * page + 4095, code) }) s)

/-- The bytes of a page are zero as the monitor left them: zeroised for the normal world, or by step 4 of a restart, the secure world's
pages of codes 0b10 and 0b11 and the normal world's of code 0b01 (R300, R305, R306; log entry 35). -/
def pageZero (s : State) (address : Nat) : Bool :=
  let code := pageCode s address
  s.wld.zeroed.contains (pageNo address) || (s.wld.secure.wiped && (code == 2 || code == 3)) || (s.wld.normal.wiped && code == 1)

/-- The address lies in a memory port: 2 MiB of SRAM, or the 256 MiB control area (R300). -/
def inPort (address : Nat) : Bool := address < 2 ^ 21 || (2 ^ 28 ≤ address && address < 2 ^ 29)

/-- The code of a page permits an access of a world (R300). -/
def pagePermits (w : World) (code : Nat) (write : Bool) : Bool :=
  match w with
  | .secure => code != 0
  | .normal => code == 1 || (code == 3 && !write)

/-- BLOCKED_ACCESS: an access of the normal world that its page's code forbids is blocked, counted and recorded: a read returns 0, a
write is discarded and leaves every page as it was (R301). -/
def execBlockedAccess (address : Nat) (write : Bool) (s : State) : Res :=
  let a := monitorSets address s
  let b := if write then a else emit (.portRead address 0) a
  onlyIf (live s && inPort address && !pagePermits .normal (pageCode a address) write) s
    (worldRecord 3 1 0 0 address
      (updWld (fun w => { w with violCnt := satInc 16 w.violCnt, violAddr := address }) b))

/-- ASSIGNMENT_CHANGE_REFUSED: after boot lock a change is refused and recorded (R297). -/
def execAssignmentChangeRefused (w : World) (s : State) : Res :=
  onlyIf (live s && s.wld.assignLock) s (worldRecord 2 (worldNum w) 0 0 0 s)

/-! ### Debug halts (R308-R310, R335) -/

/-- The scopes that are open without a grant in the life-cycle state (R335). -/
def openScopes (s : State) : Nat :=
  match s.lcs.state with
  | .test0 | .test1 | .test2 | .test3 => if s.lcs.unlocked then 0xF else 0
  | .mfg => 0x7
  | .return_ => 0xF
  | _ => 0

/-- The enables in effect (R308). -/
def dbgEnables (s : State) : Nat := s.wld.dbg ||| openScopes s

/-- The invasive enable's bit of a world. -/
def invasiveBit : World → Nat
  | .secure => 3 | .normal => 1

/-- The non-invasive enable's bit of a world. -/
def noninvasiveBit : World → Nat
  | .secure => 2 | .normal => 0

/-- What the enables in effect let a debugger do with a world: the non-invasive one opens trace and performance counters, the invasive
one the rest, memory only as the page codes let that world at it (R308, R309). -/
def debugMay (s : State) (w : World) (u : DebugUse) : Bool :=
  let open_ := bit (dbgEnables s)
  live s && jtagOffers s .debug && (match u with
    | .trace | .counters => open_ (noninvasiveBit w)
    | .halt => open_ (invasiveBit w)
    | .step => open_ (invasiveBit w) && (worldOf s w).state == .halted
    | .read address => open_ (invasiveBit w) && inPort address && pagePermits w (pageCode s address) false
    | .write address => open_ (invasiveBit w) && inPort address && pagePermits w (pageCode s address) true)

/-- DEBUG_HALT: a debugger with the invasive enable halts a world; its watchdog is paused (R310). -/
def execDebugHalt (w : World) (s : State) : Res :=
  let s := jtagSelect .debug s
  onlyIf (debugMay s w .halt && (worldOf s w).state == .running) s
    (updWorld w (fun x => { x with state := .halted, haltAt := s.now }) s)

/-- DEBUG_RESUME: a halted world runs again (R310). -/
def execDebugResume (w : World) (s : State) : Res :=
  let s := jtagSelect .debug s
  onlyIf (live s && (worldOf s w).state == .halted) s (updWorld w (unhalt s.now) s)

end Sys2Proof.Machine
end

