-- ==== Sys2Proof/Machine/Images.lean ====
section
/-! DEFINITION. Signatures of officers and operators, the manifest's format and fields, and the checks of firmware images
(R232, R237, R349-R354, R357-R360). -/
namespace Sys2Proof.Machine

/-! ### Keys and signatures (R232, R237) -/

/-- Bytes of a public key of algorithm 1, ML-DSA-65, or 2, ECDSA P-384. -/
def pubLen (alg : Nat) : Nat := if alg == 1 then 1952 else 97

/-- Bytes of a signature of algorithm 1 or 2. -/
def sgnLen (alg : Nat) : Nat := if alg == 1 then 3309 else 96

/-- The algorithm's number is defined. -/
def algOk (alg : Nat) : Bool := alg == 1 || alg == 2

/-- A signature verifies: pure ML-DSA-65 with an empty context, or ECDSA P-384 over SHA-384 of the message (R237). -/
def signedBy (alg : Nat) (key msg sig : Bytes) : Bool :=
  if alg == 1 then sig.length == 3309 && mldsaVerify 8 key [] msg sig
  else
    let q : Point := (beNat (sub key 1 48), beNat (sub key 49 48))
    let r := beNat (sig.take 48)
    let v := beNat (sig.drop 48)
    alg == 2 && key.length == 97 && sig.length == 96 && key.take 1 == [0x04] && onCurve p384 q && r != 0 && r < p384.n &&
      v != 0 && v < p384.n && ecdsaOk p384 q (sha384 msg) r v

/-! ### Manifest copies (R349-R351) -/

/-- A manifest copy's key block: the first key, and each endorsement's algorithm, key and signature. -/
structure KeyBlock where
  first : Bytes := []
  chain : List (Nat × Bytes × Bytes) := []
  size : Nat := 0
deriving DecidableEq, Repr

/-- The endorsements read one after another; each is signed with the key before it, so its signature has that key's
length. -/
def readChain : Nat → Nat → Bytes → Option (List (Nat × Bytes × Bytes) × Nat)
  | 0, _, _ => some ([], 0)
  | k + 1, prev, b =>
    let alg := fld b 0 1
    let n := 1 + pubLen alg + sgnLen prev
    if !algOk alg || b.length < n then none
    else
      (readChain k alg (b.drop n)).map (fun x =>
        ((alg, sub b 1 (pubLen alg), sub b (1 + pubLen alg) (sgnLen prev)) :: x.1, x.2 + n))

/-- The key block at the start of `b`. -/
def readKeys (alg count : Nat) (b : Bytes) : Option KeyBlock :=
  if !algOk alg || b.length < pubLen alg || count > 4 then none
  else (readChain count alg (b.drop (pubLen alg))).map (fun x =>
    { first := b.take (pubLen alg), chain := x.1, size := pubLen alg + x.2 })

/-- Every endorsement is signed with the key before it (R349). -/
def chainSigned : Nat → Bytes → List (Nat × Bytes × Bytes) → Bool
  | _, _, [] => true
  | alg, key, (a, k, sig) :: rest => signedBy alg key (natLe 1 a ++ k) sig && chainSigned a k rest

/-- The last key of the chain, with its algorithm. -/
def lastKey (alg : Nat) (kb : KeyBlock) : Nat × Bytes :=
  (kb.chain.getLast?.map (fun x => (x.1, x.2.1))).getD (alg, kb.first)

/-- What the boot found of one manifest copy: its first failing check, 0 where it passes, and its contents (R351). -/
structure ManifestCheck where
  fail : Nat := 1
  bytes : Bytes := []
  tlv : Bytes := []
  signer : Nat := 0
  depth : Nat := 0
  keyAlg : Nat := 0
  key : Bytes := []
deriving DecidableEq, Repr

/-- The anchor a first key is, where the life-cycle state admits it: 0 Krovward's manifest key, 1 the operator's
(R350). -/
def anchorOf (st : LifeState) (unlocked : Bool) (f : Fuses) (key : Bytes) : Option Nat :=
  let krov := key == Config.manifestKey
  let oper := f.digestBurned && sha384 key == sub f.cert 4627 48
  match st with
  | .test0 | .test1 | .test2 | .test3 => if unlocked && krov then some 0 else none
  | .mfg => if f.digestBurned then (if oper then some 1 else none) else if krov then some 0 else none
  | .field => if oper then some 1 else none
  | .return_ => if oper then some 1 else if krov then some 0 else none
  | _ => none

/-- One manifest copy checked in the order of R351. -/
def checkManifest (anchor : Bytes → Option Nat) (fmtMax : Nat) (copy : Option Bytes) : ManifestCheck :=
  match copy with
  | none => { fail := 1 }
  | some b =>
    let len := fld b 8 4
    let tlv := fld b 20 4
    let alg := fld b 24 1
    if b.take 4 != [0x4B, 0x4D, 0x41, 0x4E] || fld b 4 2 == 0 || fld b 4 2 > fmtMax then { fail := 2 }
    else if fld b 6 2 != 32 || len > 65536 || b.length < len || tlv % 4 != 0 || 32 + tlv > len then { fail := 3 }
    else
      let c := b.take len
      match readKeys alg (fld b 25 1) (c.drop (32 + tlv)) with
      | none => { fail := 3 }
      | some kb =>
        let last := lastKey alg kb
        let at_ := 32 + tlv + kb.size
        if at_ + sgnLen last.1 != len then { fail := 3 }
        else if crc32 (c.drop 16) != fld b 12 4 then { fail := 4 }
        else
          match anchor kb.first with
          | none => { fail := 5 }
          | some who =>
            if !chainSigned alg kb.first kb.chain then { fail := 5 }
            else if !signedBy last.1 last.2 (c.take 12 ++ sub c 16 (at_ - 16)) (c.drop at_) then { fail := 6 }
            else
              { fail := 0, bytes := c, tlv := sub c 32 tlv, signer := who, depth := kb.chain.length, keyAlg := last.1
                key := last.2 }

/-! ### Manifest fields (R352-R354) -/

/-- One field of R353's table: id, bytes, range, default, and the defined bits of a bitmap (0 where it is none). -/
structure MnfField where
  id : Nat
  width : Nat
  lo : Nat
  hi : Nat
  dflt : Nat
  mask : Nat := 0
deriving DecidableEq, Repr

/-- The manifest fields but RNG_PERS (R353). -/
def mnfFields : List MnfField :=
  [ { id := 0x0001, width := 2, lo := 0, hi := 0xFFFF, dflt := 0x1E9D },
    { id := 0x0002, width := 2, lo := 0, hi := 0xFFFF, dflt := 0x7416 },
    { id := 0x0010, width := 1, lo := 16, hi := 192, dflt := 128 },
    { id := 0x0011, width := 4, lo := 1, hi := 0xFFFFFFFE, dflt := 1 },
    { id := 0x0012, width := 1, lo := 0, hi := 1, dflt := 0 },
    { id := 0x0013, width := 1, lo := 25, hi := 85, dflt := 85 },
    { id := 0x0014, width := 1, lo := 0, hi := 7, dflt := 0 },
    { id := 0x0015, width := 1, lo := 0, hi := 7, dflt := 7 },
    { id := 0x0020, width := 1, lo := 0, hi := 1, dflt := 0 } ] ++
  [ { id := 0x0030, width := 1, lo := 0, hi := 1, dflt := 0 },
    { id := 0x0031, width := 1, lo := 0, hi := 1, dflt := 0 },
    { id := 0x0032, width := 1, lo := 0, hi := 0x1F, dflt := 0, mask := 0x1F },
    { id := 0x0033, width := 2, lo := 50, hi := 5000, dflt := 1000 },
    { id := 0x0034, width := 2, lo := 50, hi := 5000, dflt := 1000 },
    { id := 0x0040, width := 1, lo := 0, hi := 3, dflt := 3, mask := 0x3 },
    { id := 0x0050, width := 2, lo := 30, hi := 365, dflt := 182 },
    { id := 0x0060, width := 1, lo := 0, hi := 1, dflt := 0 },
    { id := 0x0061, width := 1, lo := 0x08, hi := 0x77, dflt := 0x5A } ]

/-- What a manifest gives: the values of its fields, RNG_PERS where it is present, and the report. -/
structure Manifest where
  vals : Tbl (Option Nat) := []
  pers : Option Bytes := none
  reports : List MnfReport := []
  seen : List Nat := []
deriving DecidableEq, Repr

/-- One report entry added. -/
def report (id reason read applied : Nat) (m : Manifest) : Manifest :=
  { m with reports := m.reports ++ [{ field := id, reason := reason, read := read % 2 ^ 32, applied := applied % 2 ^ 32 }] }

/-- One complete TLV entry taken into account (R352, R353): reasons 1 clamped, 2 unknown, 3 duplicate, 4 bad length. -/
def takeTlv (id : Nat) (v : Bytes) (m : Manifest) : Manifest :=
  let x := leNat v
  if id ≥ 0xF000 then m
  else if id == 0x0021 then
    if m.seen.contains id then report id 3 x 0 m
    else
      let m1 := { m with seen := id :: m.seen, pers := some (v.take 48) }
      if v.length > 48 then report id 1 x (leNat (v.take 48)) m1 else m1
  else
    match mnfFields.find? (fun f => f.id == id) with
    | none => report id 2 x 0 m
    | some f =>
      if m.seen.contains id then report id 3 x 0 m
      else
        let m1 := { m with seen := id :: m.seen }
        if v.length != f.width then report id 4 x 0 m1
        else
          let y := if f.mask != 0 then x &&& f.mask else clamp f.lo f.hi x
          let m2 := { m1 with vals := tput m1.vals id (some y) }
          if y == x then m2 else report id 1 x y m2

/-- The TLV area read entry by entry (R352); `fuel` bounds their number. -/
def readTlv : Nat → Bytes → Manifest → Manifest
  | 0, _, m => m
  | k + 1, b, m =>
    if b.length < 4 then m
    else
      let id := fld b 0 2
      let n := fld b 2 2
      let v := sub b 4 n
      if b.length < 4 + n then report id 4 (leNat (sub b 4 4)) 0 m
      else readTlv k (b.drop (4 + 4 * ceilDiv n 4)) (takeTlv id v m)

/-- The manifest's fields. -/
def readManifest (tlv : Bytes) : Manifest := readTlv (tlv.length / 4 + 1) tlv {}

/-- The value a field applies: the manifest's, else its default (R353). -/
def mnfVal (m : Manifest) (id : Nat) : Nat :=
  match tget none m.vals id with
  | some v => v
  | none => ((mnfFields.find? (fun f => f.id == id)).map (·.dflt)).getD 0

/-! ### Firmware images (R357, R358) -/

/-- Bytes of an image header. -/
def hdrLen : Nat := 8704
/-- Bytes of a firmware slot. -/
def slotLen : Nat := 16646144

/-- An image's security version. -/
def imgSec (img : Bytes) : Nat := fld img 14 2

/-- Krovward's signature over an image's header, under the key that the life-cycle state admits (R358). -/
def imgSigned (st : LifeState) (unlocked : Bool) (img : Bytes) : Bool :=
  let test := bit (fld img 46 1) 0
  let ok (key : Bytes) : Bool := mldsaVerify 9 key [] (img.take 512) (sub img 512 4627)
  match st with
  | .test0 | .test1 | .test2 | .test3 => unlocked && ok (if test then Config.testImageKey else Config.imageKey)
  | .mfg | .field | .return_ => !test && ok Config.imageKey
  | _ => false

/-- LCS_ARB_COUNT: the burned steps counted from step 0, a step being burned with two of its three bits (R347). -/
def arbFrom : Nat → Nat → BitVec 192 → Nat
  | 0, _, _ => 0
  | k + 1, i, f =>
    if b2n (f.getLsbD (3 * i)) + b2n (f.getLsbD (3 * i + 1)) + b2n (f.getLsbD (3 * i + 2)) ≥ 2 then
      1 + arbFrom k (i + 1) f else 0

/-- The anti-rollback count (R347). -/
def arbCount (f : Fuses) : Nat := arbFrom 64 0 f.arb

/-- Anti-rollback steps burned up to a count, three bits a step (R347, R366). -/
def burnArb (n : Nat) (f : Fuses) : Fuses := { f with arb := f.arb ||| BitVec.ofNat 192 (2 ^ (3 * min 64 n) - 1) }

/-- The first failing check of an image's header but the co-signature, 0 where it passes; the codes are those of
STAGE_RESULT (R358). -/
def headerCheck (s : State) (img : Bytes) : Nat :=
  if fld img 0 4 != 0x4D49574B || fld img 4 2 != 1 || img.length < hdrLen then 2
  else if fld img 6 1 != 0x74 || !bit (fld img 7 1) 0 then 3
  else if !allZero (sub img 16 16) && sub img 16 16 != unitId16 then 4
  else if !imgSigned s.lcs.state s.lcs.unlocked img then 5
  else if imgSec img < arbCount s.fuses || imgSec img > 64 then 7
  else if hdrLen + fld img 32 4 > slotLen then 9
  else 0

/-- The operator's co-signature holds under the manifest's final key (R357, R358). -/
def cosigned (alg : Nat) (key img : Bytes) : Bool :=
  bit (fld img 46 1) 1 && signedBy alg key (img.take 512) (sub img 5139 (sgnLen alg))

/-- The body matches its three hashes (R358). -/
def bodyOk (img : Bytes) : Bool :=
  let body := sub img hdrLen (fld img 32 4)
  body.length == fld img 32 4 && sha384 body == sub img 48 48 && measureOf .secure img == sub img 96 48 &&
    measureOf .normal img == sub img 144 48

/-- The first failing check of an image, 0 where it is accepted (R358). -/
def imageCheck (s : State) (cosign : Bool) (img : Bytes) : Nat :=
  let h := headerCheck s img
  if h == 2 || h == 3 || h == 4 || h == 5 then h
  else if cosign && !cosigned s.mnf.keyAlg s.mnf.key img then 6
  else if h != 0 then h
  else if !bodyOk img then 8
  else 0

/-! ### Slot control (R359) -/

/-- Slot control's contents. -/
structure SlotCtl where
  gen : Nat
  active : Nat
  trial : Bool
  previous : Nat
deriving DecidableEq, Repr

/-- A slot control copy, where its MAGIC and CRC are right (R359). -/
def readCtl (b : Bytes) : Option SlotCtl :=
  if b.length ≥ 64 && fld b 0 4 == 0x4C43534B && crc32 (b.take 60) == fld b 60 4 then
    some { gen := fld b 4 4, active := fld b 8 1 % 2, trial := fld b 9 1 == 1, previous := fld b 10 1 % 2 }
  else none

/-- The bytes of a slot control copy (R359). -/
def ctlBytes (c : SlotCtl) : Bytes :=
  let d := natLe 4 0x4C43534B ++ natLe 4 c.gen ++ natLe 1 c.active ++ natLe 1 (b2n c.trial) ++ natLe 1 c.previous ++ zeros 49
  d ++ natLe 4 (crc32 d)

/-- The copy that stands, and whether it is copy 1 (R359). -/
def standingCtl (f : Flash) : Option (SlotCtl × Bool) :=
  match readCtl f.ctl0, readCtl f.ctl1 with
  | some x, some y => if y.gen > x.gen then some (y, true) else some (x, false)
  | some x, none => some (x, false)
  | none, some y => some (y, true)
  | none, none => none

/-- The manifest flash changed, with the bytes that go to it. -/
def flashWrite (addr : Nat) (b : Bytes) (f : Flash → Flash) (s : State) : State :=
  emit (.manifestWrite addr b) { s with flash := f s.flash }

/-- A new slot control record written over the other copy with GEN + 1 (R359). -/
def writeCtl (active : Nat) (trial : Bool) (previous : Nat) (s : State) : State :=
  let cur := standingCtl s.flash
  let b := ctlBytes
    { gen := ((cur.map (fun x => x.1.gen)).getD 0 + 1) % 2 ^ 32, active := active, trial := trial, previous := previous }
  if (cur.map (·.2)).getD true then flashWrite 0x00FF0000 b (fun f => { f with ctl0 := b }) s
  else flashWrite 0x01FF0000 b (fun f => { f with ctl1 := b }) s

/-- The inactive slot's number. -/
def otherSlot (s : State) : Nat := 1 - s.fwu.active

/-- SHA-384 of an image's header (R363). -/
def headerDigest (img : Bytes) : Bytes := sha384 (img.take hdrLen)

/-- A FIRMWARE record: kinds 1 staging, 2 activation, 3 migration (R327; log entry 30). -/
def fwRecord (kind slot : Nat) (version : Bytes) (s : State) : State :=
  record .firmware (natLe 1 kind ++ natLe 1 slot ++ zeros 2 ++ padTo 8 version) s

end Sys2Proof.Machine
end

