-- ==== Sys2Proof/Machine/VaultOps.lean ====
section
/-! DEFINITION. What the vault and the quorum engine share: modes, the closing of proposals, result words, the start of a
life-cycle transition, and the two-device journal (10_owners_vault_dual_control.md, R338, R339). -/
namespace Sys2Proof.Machine

/-- A response to a class A alarm is under way: no commit takes its CSN before the vault is locked (R315). -/
def alarmA (s : State) : Bool := s.tmp.resp.any (fun r => r.notes.any (fun n => n.cls == .a))

/-- The vault commits and takes proposals (R228). -/
def vaultLive (s : State) : Bool := s.vlt.mode == .normal || s.vlt.mode == .rebuilding

/-- Every open proposal closes (R239). -/
def closeProps (s : State) : State :=
  (tkeys s.vlt.props (fun _ p => p.used && p.state == .open_)).foldl (fun s i => closeProp i s) s

/-- A VAULT record of the mode as it stands (R327). -/
def vaultRecord (s : State) : State :=
  let v := s.vlt
  recordSeq .vault (natLe 8 v.epoch ++ natLe 1 (vaultCode v.mode) ++ natLe 1 v.cause ++ natLe 1 v.replayed ++
    natLe 1 v.discarded ++ zeros 4) s

/-- The vault takes a mode with a cause: recorded, VAULT_MODE on both ports, and its open proposals close where it leaves
NORMAL or REBUILDING. In LOCKED and EMPTY no owner exists and the KEK cache is zeroised (R228, R239, R327, R408). -/
def vaultTo (m : VaultMode) (cause : Nat) (s : State) : State :=
  if s.vlt.mode == m && s.vlt.cause == cause then s
  else
    let gone := m == .locked || m == .empty
    let a := updVlt (fun v => { v with
      mode := m, cause := cause
      id := if gone then 0 else v.id, img := if gone then {} else v.img }) s
    let b := if gone then updKst (fun k => { k with kek := [] }) a else a
    let c := vaultRecord b
    let d := if s.vlt.mode == m then c else setIntBoth 7 c
    if vaultLive s && !vaultLive d then closeProps d else d

/-! ### Life-cycle transitions (R336, R338, R339) -/

/-- The codeword of a state's code (R336). -/
def codeword : Nat → Nat
  | 0 => 0
  | k + 1 => codeword k * 16 + 0xA

/-- The state of a code. -/
def lifeOf (k : Nat) : LifeState :=
  match k with
  | 0 => .raw | 1 => .test0 | 2 => .test1 | 3 => .test2 | 4 => .test3 | 5 => .mfg | 6 => .field | 7 => .return_
  | _ => .terminal

/-- A LIFE_CYCLE record (R327). -/
def lifeRecord (old new scope : Nat) (s : State) : State :=
  record .lifeCycle (natLe 1 old ++ natLe 1 new ++ natLe 1 scope ++ zeros 5) s

/-- A transition starts: PFAIL_N and a burn in progress refuse it; otherwise the legacy register is erased and the burn
begins (R339 steps 1 to 3). -/
def transStart (target : Nat) (s : State) : State :=
  if s.gov.pfail then updLcs (fun l => { l with transStat := 3 }) s
  else if s.lcs.burning then updLcs (fun l => { l with transStat := 5 }) s
  else
    legErase 9 stKeyErased (seqd (updLcs (fun l => { l with
      burning := true, burnFrom := s.now, pendState := target, transStat := 0, tokenReady := false }) s))

/-! ### The journal (R222-R227) -/

/-- A journal record of the change that takes the working copy to `img`. -/
def jrec (kind : JKind) (proposal : Nat) (img : VaultImg) (s : State) : JRec :=
  { epoch := s.vlt.epoch + 1, kind := kind, proposal := proposal, boot := s.chp.bootCnt
    body := patchesOf (vaultWrapKey s) s.vlt.img img }

/-- A record's bytes sent to the devices that take part, vault A first (R35). -/
def sendRec (y : Bytes) (s : State) : State :=
  let a := if takesPart s.vlt.devA then emit (.vaultWrite 0 y) s else s
  if takesPart s.vlt.devB then emit (.vaultWrite 1 y) a else a

/-- A record programmed on a device, where it takes part. -/
def devAppend (code : Nat) (r : ProgResult) (y : Bytes) (d : VaultDev) : VaultDev :=
  if takesPart code then devProgram r y d else d

/-- Steps 1 to 4 of a change: the record to vault A, then to vault B, each after some tries that failed, the epoch and its
floor advanced, and the change's CSN (R35, R225, R226). `kind` and `proposal` name the record, `img` is the vault's contents
with the change. -/
def journalWith (ra rb : ProgResult) (kind : JKind) (proposal : Nat) (img : VaultImg) (s : State) : State :=
  let y := jrecBytes (vaultMacKey s) (jrec kind proposal img s)
  let a := sendRec y s
  let b := updVlt (fun v => { v with
    epoch := v.epoch + 1, img := img, a := devAppend v.devA ra y v.a, b := devAppend v.devB rb y v.b }) a
  seqd { b with bbr := { b.bbr with floor := b.vlt.epoch } }

/-- Steps 1 to 4 of a change whose record both devices take at once. -/
def journal (kind : JKind) (proposal : Nat) (img : VaultImg) (s : State) : State :=
  journalWith (.written 0) (.written 0) kind proposal img s

/-- The journals of the devices that take part have room for `n` more pages (R230). -/
def journalRoom (n : Nat) (s : State) : Bool :=
  (!takesPart s.vlt.devA || ringRoom n s.vlt.a) && (!takesPart s.vlt.devB || ringRoom n s.vlt.b)

/-- The next 65,536 proposal ids reserved (R236). -/
def reserveIds (s : State) : State :=
  journal .reserve 0 { s.vlt.img with idCeiling := s.vlt.img.idCeiling + 65536 } s

/-- KST_VAULT_PURGE: the copies on both devices that hold a revoked incarnation's KEK_WRAP (R230). -/
def countPurge (s : State) : State :=
  let mk := vaultMacKey s
  updVlt (fun v => { v with purge := min 65535 (staleCopies mk v.img v.a + staleCopies mk v.img v.b) }) s

/-- A commit is in progress: the vault engine runs one at a time (R35). -/
def commitRuns (s : State) : Bool := tany s.vlt.props (fun _ p => p.used && p.begun)

/-- A proposal id of the open vault was issued, in this power cycle or an earlier one (R124, R236). -/
def idIssued (s : State) (id : Nat) : Bool :=
  id != 0 && ((s.vlt.firstId ≤ id && id < s.vlt.nextId) || s.vlt.spent.any (fun x => x.1 ≤ id && id < x.2))

/-- A change that is about to replace policies, roster or an owner's class keeps them for the quorum carriages already admitted
(R236, R238). -/
def keepSnap (s : State) : State :=
  let ts := tkeys s.car.cars (fun _ c =>
    (c.stage == .admitted || c.stage == .running) && (eOp c.entry == 0x30 || eOp c.entry == 0x31))
  updVlt (fun v => { v with
    snap := ts.foldl (fun m t =>
      if (tget none m t).isSome then m
      else tput m t (some { policies := v.img.policies, roster := v.img.roster, owners := v.img.owners })) v.snap }) s

/-- The policies a carriage of tag `t` was admitted under. -/
def policiesAt (s : State) (t : Nat) : Tbl Policy :=
  match tget none s.vlt.snap t with
  | some x => x.policies
  | none => s.vlt.img.policies

/-- The class of owner `o` that a carriage of tag `t` was admitted under. -/
def classAt (s : State) (t o : Nat) : Nat :=
  match tget none s.vlt.snap t with
  | some x => (tget {} x.owners o).cls
  | none => (ownerOf s o).cls

/-- The roster a carriage of tag `t` was admitted under. -/
def rosterAt (s : State) (t : Nat) : Tbl Officer :=
  match tget none s.vlt.snap t with
  | some x => x.roster
  | none => s.vlt.img.roster

end Sys2Proof.Machine
end

