-- ==== Sys2Proof/Machine/Life.lean ====
section
/-! DEFINITION. Life-cycle transitions, debug grants, and the lattice unit's completions
(17_life_cycle_and_debug.md, R260). -/
namespace Sys2Proof.Machine

/-! ### Fuses (R336, R347) -/

/-- The bitwise majority of the three copies (R336). -/
def majority (f : Fuses) : Nat :=
  ((f.copyA &&& f.copyB) ||| (f.copyA &&& f.copyC) ||| (f.copyB &&& f.copyC)).toNat

/-- The state the fuses decode to: a codeword's, else TERMINAL (R336). -/
def decodeLife (f : Fuses) : LifeState :=
  match firstBelow 9 (fun k => codeword k == majority f) with
  | some k => lifeOf k
  | none => .terminal

/-- A codeword burned into the three copies: a burned bit never clears (R336, R339). -/
def burnCopies (k : Nat) (f : Fuses) : Fuses :=
  let w := BitVec.ofNat 32 (codeword k)
  { f with copyA := f.copyA ||| w, copyB := f.copyB ||| w, copyC := f.copyC ||| w }

/-- One copy of a burn that stops `run` µs after the copy's start: untouched before it, whole after 4.2 ms, and with a free
choice of the bits between (R339, R340). -/
def partCopy (run : Option Nat) (k free : Nat) (copy : BitVec 32) : BitVec 32 :=
  match run with
  | none => copy
  | some u =>
    let w := BitVec.ofNat 32 (codeword k)
    if u ≥ 4200 then copy ||| w else copy ||| (w &&& BitVec.ofNat 32 free)

/-- The fuses after a burn that loses its supply now (R339, R340). -/
def tornBurn (s : State) : Fuses :=
  let u := s.now - s.lcs.burnFrom
  let k := s.lcs.pendState
  let r := drawn s
  { s.fuses with
    copyA := partCopy (some u) k r s.fuses.copyA
    copyB := partCopy (if u < 4200 then none else some (u - 4200)) k r s.fuses.copyB
    copyC := partCopy (if u < 8400 then none else some (u - 8400)) k r s.fuses.copyC }

/-! ### Transitions (R338, R339) -/

/-- What the port shifts out under the instruction selected: BYPASS its one bit 0, IDCODE the identity, the LCS TAP the FIELD
attestation key that Krovward's station reads in MFG; the boundary cells and the worlds' memory are not held here (R337, R346). -/
def jtagShows (s : State) : Option Bytes :=
  match s.lcs.jtag with
  | .bypass => some [0]
  | .idcode => some (natLe 4 jtagIdcode)
  | .lcsRead | .lcsWrite => if s.lcs.state == .mfg then some (padTo pkLen (mldsaPk (Config.attestSeed 6))) else none
  | _ => none

/-- Krovward's station has burned the certificate area through the LCS TAP: its signature over the unit id and the FIELD attestation
key, and the operator digest. No row of the table is that burn: at a tick in MFG a free value tells whether it has happened, and what
was burned (R337, R350; log entry 111). -/
def stationBurns (s : State) : State :=
  if s.lcs.state == .mfg && powered s && !inFault s && !s.fuses.certBurned && !s.lcs.burning && !s.gov.pfail then
    let f := s.fuses
    let a := draw s
    draw (if drawn s % 2 == 1 then { s with
      free := a.free, fuses := { f with certBurned := true, digestBurned := true, cert := natLe 4736 (drawn a) } } else a)
  else s

/-- The LCS TAP takes writes in the state (R346). -/
def tapWrites (s : State) : Bool := powered s && !inFault s && jtagOffers s .lcsWrite

/-- A transition permitted through the LCS TAP (R338), the token apart. -/
def transPermitted (s : State) (target : Nat) : Bool :=
  match s.lcs.state with
  | .raw => target == 1
  | .test0 | .test1 | .test2 | .test3 =>
    s.lcs.unlocked && ((target == lifeCode s.lcs.state + 1 && target ≤ 4) || target == 5 || target == 8)
  | .mfg => (target == 6 && s.fuses.certBurned) || target == 8
  | .return_ => target == 8
  | _ => false

/-- TRANS: a transition asked for through the LCS TAP (R338, R339): one not permitted is refused, a TEST state needs a
token presented before. -/
def execTrans (target key : Nat) (s : State) : Res :=
  let s := jtagSelect .lcsWrite s
  onlyIf (tapWrites s && key == 0xC9) s
    (if !transPermitted s target then updLcs (fun l => { l with transStat := 2 }) s
     else if 1 ≤ target && target ≤ 4 && !s.lcs.tokenReady then updLcs (fun l => { l with transStat := 4 }) s
     else transStart target s)

/-- Steps 3 to 7 of a transition: the copies are burned, BBRAM bytes 0 to 103 are zeroised, the vault is LOCKED, every open proposal
closes, and the transition is recorded (R339). A TEST state is in force at once, unlocked; any other waits for PORST_N (R339,
R342; log entry 28). -/
def transEnd (s : State) : State :=
  let k := s.lcs.pendState
  let test := 1 ≤ k && k ≤ 4
  let a := { s with
    fuses := burnCopies k s.fuses
    bbr := { s.bbr with share0 := 0, share1 := 0, floor := 0, dseal := 0 } }
  lifeRecord (lifeCode s.lcs.state) k 0
    (updLcs (fun l => { l with
      burning := false, pending := true, transStat := 1
      state := if test then lifeOf k else l.state, unlocked := l.unlocked || test }) (closeProps (vaultTo .locked 1 a)))

/-! ### Debug grants (R343-R345) -/

/-- The scopes a grant may open in the state (R335). -/
def grantable (s : State) : Nat :=
  match s.lcs.state with
  | .field => 0xF
  | .mfg => 0x8
  | _ => 0

/-- Every bit of the scope can be granted. -/
def scopeOk (s : State) (scope : Nat) : Bool := grantable s != 0 && scope &&& grantable s == scope

/-- The outstanding challenge and what is done for it are dropped (R343). -/
def dropChallenge (s : State) : State :=
  let a := updLat (fun l => { l with queue := l.queue.erase .debug }) s
  let b := updRng (fun r => { r with waiters := r.waiters.filter (fun w => w.who != .debug) }) a
  updLcs (fun l => { l with chal := 0, chalLive := false, chalBytes := zeros 64, resp := none, chalExpired := false }) b

/-- A debug result shown (LCS_DBG_STAT). -/
def dbgEnd (result : Nat) (s : State) : State := updLcs (fun l => { l with chal := 3, dbgResult := result }) s

/-- DBG_GO: a grant request replaces the outstanding challenge and asks for the 32 bytes of its nonce; while a response is
verified it is ignored (R260, R343, R344; log entry 93). -/
def execDbgGo (p : Port) (scope : Nat) (s : State) : Res :=
  let sc := scope % 16
  let a := dropChallenge (seqd (legTouch p (cntWr p s)))
  onlyIf (wr p .lcs s) s
    (if s.lcs.chal == 2 then legTouch p (cntWr p s)
     else if s.lcs.pending || !scopeOk s sc then dbgEnd 4 a
     else ask .debug 32 (updLcs (fun l => { l with reqScope := sc, reqPort := p }) a))

/-- The challenge has expired: 600 s after its issue, or at an event of R345 (R343). -/
def chalOver (s : State) : Bool := s.lcs.chalExpired || (s.lcs.chalLive && s.now ≥ s.lcs.chalAt + 600000000)

/-- RESP_GO: the signature over the challenge is read through the request's port; the challenge is answered with it, and
its verification is a lattice request issued here (R260, R344). -/
def execRespGo (p : Port) (s : State) : Res :=
  let a := seqd (legTouch p (cntWr p s))
  let l := s.lcs
  onlyIf (wr p .lcs s) s
    (if l.chal == 2 then legTouch p (cntWr p s)
     else if chalOver s then dbgEnd 2 (dropChallenge a)
     else if !l.chalLive then dbgEnd 3 a
     else if l.pending then dbgEnd 4 (dropChallenge a)
     else
       dmaRead .debugResp l.reqPort none (addr64 l.respLo l.respHi) sigLen
         (latEnqueue .debug (updLcs (fun l => { l with chal := 2, chalLive := false, resp := none }) a)))

/-- CHALLENGE_EXPIRY: 600 s after its issue a challenge is no more (R343). -/
def execChallengeExpiry (s : State) : Res :=
  onlyIf (powered s && s.lcs.chalLive && s.now ≥ s.lcs.chalAt + 600000000) s
    (updLcs (fun l => { l with chal := 0, chalLive := false, chalExpired := true, chalBytes := zeros 64 }) s)

/-- A verified response applies its scope: secure invasive debug first erases the working slots and the legacy register
(R309, R344). -/
def grant (s : State) : State :=
  let sc := s.lcs.reqScope
  let a := seqd s
  let b := if bit sc 3 then reap stKeyErased (legErase 10 stKeyErased (zeroiseKeys a)) else a
  let c := updLcs (fun l => { l with granted := sc, grants := satInc 16 l.grants }) (updWld (fun w => { w with dbg := sc }) b)
  dbgEnd 0 (lifeRecord (lifeCode s.lcs.state) (lifeCode s.lcs.state) sc c)

/-- The lattice unit has verified a debug response (R344). -/
def debugVerified (s : State) : State :=
  let l := s.lcs
  let ok := mldsaVerify 9 Config.debugKey [] l.chalBytes (l.resp.getD [])
  let a := latCount (updLat (fun q => { q with queue := q.queue.erase .debug }) s)
  let b := updLcs (fun l => { l with resp := none, chalBytes := zeros 64 }) a
  if s.lcs.pending || !scopeOk s l.reqScope then dbgEnd 4 b
  else if ok then grant b
  else dbgEnd 1 b

end Sys2Proof.Machine
end

