-- ==== Sys2Proof/Machine/Quorum.lean ====
section
/-! DEFINITION. Proposal records, their checks, export packages, shred certificates, and what a committed operation does
(R232-R243). -/
namespace Sys2Proof.Machine

/-! ### The proposal record -/

/-- OP of a proposal record. -/
def rOp (r : Bytes) : Nat := fld r 0 1
/-- CLASS. -/
def rClass (r : Bytes) : Nat := fld r 1 1
/-- TARGET. -/
def rTarget (r : Bytes) : Nat := fld r 4 4
/-- DEST_ADDR. -/
def rDest (r : Bytes) : Nat := fld r 16 8
/-- DEST_LEN. -/
def rDestLen (r : Bytes) : Nat := fld r 24 4
/-- BODY. -/
def rBody (r : Bytes) : Bytes := r.drop 64

/-- What an operation's TARGET means: 1 owner, 2 officer, 3 policy, 4 custody group, 0 nothing (R234). -/
def targetKind (op : Nat) : Nat :=
  match op with
  | 0x01 | 0x02 | 0x03 | 0x04 | 0x05 | 0x06 => 1
  | 0x10 | 0x11 => 2
  | 0x12 => 3
  | 0x18 | 0x19 | 0x1A | 0x1B => 4
  | _ => 0

/-- The greatest TARGET of a kind. -/
def targetMax (kind : Nat) : Nat :=
  match kind with
  | 1 => 2 ^ 22 - 1
  | 2 => 255
  | 3 => 16
  | 4 => 65535
  | _ => 0

/-- The quorum operations (R234). -/
def quorumOps : List Nat :=
  [0x01, 0x02, 0x03, 0x04, 0x05, 0x06, 0x10, 0x11, 0x12, 0x18, 0x19, 0x1A, 0x1B, 0x20, 0x21, 0x22, 0x30]

/-- The operation is governed by the DEVICE policy (R234). -/
def isDevice (op : Nat) : Bool := op == 0x06 || op ≥ 0x10

/-- KEYREF is OWNER equal to TARGET (R234). -/
def wantsOwnerRef (op : Nat) : Bool := op == 0x02 || op == 0x03 || op == 0x04 || op == 0x06

/-- Bytes of a package, and of a certificate. -/
def pkgLen : Nat := 13526
/-- Bytes of a shred certificate. -/
def certLen : Nat := 4691

/-- The least DEST_LEN (R234). -/
def minDest (op : Nat) : Nat :=
  match op with
  | 0x02 => certLen
  | 0x03 | 0x1A => pkgLen
  | 0x04 => 18259
  | _ => 0

/-- The DEVICE policy and the officers of a VAULT_INIT body: roster entries, then the policy. -/
def readInit : Nat → Bytes → List Officer → Option (List Officer × Policy)
  | 0, _, _ => none
  | k + 1, b, os =>
    if b.length > 18 then
      let alg := fld b 0 1
      let n := 1 + pubLen alg + 32
      if !algOk alg || b.length < n then none
      else readInit k (b.drop n)
        (os ++ [{ state := .active, alg := alg, key := sub b 1 (pubLen alg), label := sub b (1 + pubLen alg) 32 }])
    else some (os, { m := fld b 0 1, officers := (b.drop 2).map (·.toNat) })

/-- A policy body: m, n and n distinct officer indices (R233). -/
def policyOk (b : Bytes) : Bool :=
  let m := fld b 0 1
  let n := fld b 1 1
  2 ≤ m && m ≤ 8 && 2 ≤ n && n ≤ 16 && m ≤ n && b.length == 2 + n && (b.drop 2).eraseDups.length == n

/-- The policy part of a VAULT_INIT body: its last bytes, fewer than any roster entry has. -/
def initPolicyBytes : Nat → Bytes → Bytes
  | 0, b => b
  | k + 1, b => if b.length > 18 then initPolicyBytes k (b.drop (1 + pubLen (fld b 0 1) + 32)) else b

/-- The body suits its operation (R234). -/
def bodyForm (op : Nat) (b : Bytes) : Bool :=
  match op with
  | 0x03 | 0x04 => (fld b 0 1 == 1 && b.length == 3) || (fld b 0 1 == 2 && b.length == 1585)
  | 0x05 | 0x19 => b.length == pkgLen
  | 0x10 => algOk (fld b 0 1) && b.length == 1 + pubLen (fld b 0 1) + 32
  | 0x12 => policyOk b
  | 0x1A => b.length == 1584
  | 0x20 => b.length == 4
  | 0x21 => b.length == 80
  | 0x30 =>
    match readInit 257 b [] with
    | some (os, p) =>
      os.length ≤ 256 && policyOk (initPolicyBytes 257 b) && p.officers.all (fun i => i < os.length)
    | none => false
  | _ => b.isEmpty

/-- The record is well formed for its OP, with its KEYREF and a sufficient DEST_LEN (R234, R235). -/
def recordForm (keyref : Nat) (r : Bytes) : Bool :=
  let op := rOp r
  quorumOps.contains op && fld r 2 2 == 0 && fld r 12 4 == 0 && fld r 28 4 == 0 && fld r 8 4 == r.length - 64 &&
  rClass r ≤ 15 && (rClass r == 0 || op == 0x01 || op == 0x05 || op == 0x06) &&
  (op == 0x01 || allZero (sub r 32 32)) &&
  rTarget r ≤ targetMax (targetKind op) && rDest r % 64 == 0 && minDest op ≤ rDestLen r &&
  (if wantsOwnerRef op then kKind keyref == 4 && bits keyref 0 22 == rTarget r else kKind keyref == 0) &&
  bodyForm op (rBody r)

/-- The policy that governs a proposal made by carriage `t` (R233, R234, R236). -/
def policyIndex (s : State) (t : Nat) (r : Bytes) : Nat :=
  if isDevice (rOp r) then 16
  else if rOp r == 0x01 || rOp r == 0x05 then rClass r
  else classAt s t (rTarget r)

/-- The key drawn for a proposal: its two shares combined (R235). -/
def propKey (p : Proposal) : Bytes := xorBytes p.drawn p.mask

/-! ### State of the target (R235) -/

/-- Officer `i` of a roster is ACTIVE. -/
def officerActive (roster : Tbl Officer) (i : Nat) : Bool := (tget {} roster i).state == .active

/-- The ACTIVE officers of a list. -/
def activeOf (roster : Tbl Officer) (is : List Nat) : Nat := (is.filter (officerActive roster)).length

/-- An owner may be created at stamp `t` (R219, R235); a revocation before this boot, stamp 0, is long past. -/
def ownerFree (s : State) (o t : Nat) : Bool :=
  let x := ownerOf s o
  x.state == .absent || (x.state == .revoked && (x.revokedAt == 0 || t ≥ x.revokedAt + 1000000))

/-- The custody groups the unit belongs to. -/
def groupsHeld (s : State) : Nat := tcount s.vlt.img.custody (fun _ k => k.isSome)

/-- The image an activation record names, the staged one or the running one (R363). -/
def namedImage (s : State) (digest : Bytes) : Option (Nat × Bytes) :=
  let other := slotImage s (otherSlot s)
  let cur := slotImage s s.fwu.active
  if other.length ≥ hdrLen && headerDigest other == digest then some (otherSlot s, other)
  else if cur.length ≥ hdrLen && headerDigest cur == digest then some (s.fwu.active, cur)
  else none

/-- The activation record is acceptable (R363). -/
def activationOk (s : State) (b : Bytes) : Bool :=
  fld b 0 4 == 0x5443414B && bits (fld b 4 4) 1 31 == 0 && allZero (sub b 72 8) &&
  match namedImage s (sub b 16 48) with
  | some (_, img) => sub b 64 8 == sub img 8 8 && imageCheck s s.mnf.fwCosign img == 0
  | none => false

/-- A vault can be created: the mode admits it and a BD_EPOCH step is left (R228, R323). -/
def initAllowed (s : State) : Bool :=
  s.fuses.bdEpoch < 255 &&
    (s.vlt.mode == .empty || (s.vlt.mode == .locked && (s.vlt.cause == 1 || s.vlt.cause == 2)))

/-- The target's state permits the operation, proposed at stamp `t` (R219, R233, R235, R333, R338, R363). -/
def permits (s : State) (t : Nat) (r : Bytes) : Bool :=
  let x := rTarget r
  let b := rBody r
  let roster := s.vlt.img.roster
  match rOp r with
  | 0x01 | 0x05 => ownerFree s x t
  | 0x02 | 0x06 => (ownerOf s x).state == .active
  | 0x03 | 0x04 => (ownerOf s x).state == .active && (fld b 0 1 != 1 || (custodyKey s (fld b 1 2)).isSome)
  | 0x10 => (tget {} roster x).state == .empty
  | 0x11 =>
    officerActive roster x &&
      !tany s.vlt.img.policies (fun _ p => p.officers.contains x && activeOf roster (p.officers.erase x) < p.m)
  | 0x12 => fld b 0 1 ≤ activeOf roster ((b.drop 2).map (·.toNat))
  | 0x18 => (custodyKey s x).isNone && groupsHeld s < 64
  | 0x19 => (custodyKey s x).isSome || groupsHeld s < 64
  | 0x1A | 0x1B => (custodyKey s x).isSome
  | 0x20 => floorOk s (leNat b)
  | 0x21 => activationOk s b
  | 0x22 => s.lcs.state == .field && !s.lcs.pending
  | _ => initAllowed s

/-! ### Packages (R241, R242) -/

/-- The ASCII string of the package wrap key. -/
def packageLabel : Bytes := [0x55, 0x48, 0x37, 0x34, 0x31, 0x36, 0x2D, 0x50, 0x4B, 0x47, 0x31]

/-- The wrap key of a package for a unit. -/
def packageKey (ss hdr : Bytes) : Bytes := sha3_256 (packageLabel ++ ss ++ hdr)

/-- The key in an imported package, where every check of R241 passes; `kind` and `target` are the proposal's. -/
def openPackage (s : State) (kind target : Nat) (b : Bytes) : Option Bytes :=
  let hdr := b.take 64
  let tk := fld b 5 1
  let signed :=
    mldsaVerify 9 Config.mfgRoot [] (sub b 16 16 ++ sub b 1680 pkLen) (sub b 4272 sigLen) &&
    mldsaVerify 9 (sub b 1680 pkLen) [] (b.take 8899) (sub b 8899 sigLen)
  let form := fld b 0 4 == 0x31504B4F && fld b 4 1 == kind && (tk == 1 || tk == 2) && (kind == 1 || tk == 2) &&
    (if kind == 1 then bits (fld b 8 4) 0 22 == target else fld b 6 2 == target)
  let key : Option Bytes :=
    if tk == 1 then custodyKey s (fld b 6 2)
    else if sub b 32 16 == unitId16 then
      some (packageKey (padTo 32 (mlkemDecaps (transportSeedOf s) (sub b 64 ekLen))) hdr)
    else none
  if !(b.length == pkgLen && signed && form) then none
  else
    match key with
    | none => none
    | some k =>
      match kwpUnwrap k (sub b 1632 48) with
      | some p => if p.length == 40 && p.drop 32 == (sha3_256 hdr).take 8 then some (p.take 32) else none
      | none => none

/-- Where a package goes: a custody group, or a unit with its transport key. -/
inductive PkgTarget where
  | group (id : Nat)
  | unit (id key : Bytes)
deriving DecidableEq, Repr

/-- The target in the body of an export. -/
def exportTarget (b : Bytes) : PkgTarget :=
  if fld b 0 1 == 1 then .group (fld b 1 2) else .unit (sub b 1 16) (sub b 17 ekLen)

/-- The package of a key up to its own signature: `kind`, `group`, `owner` word and incarnation are its header's (R241,
R242); the randomness of its encapsulation is a free value (log entry 7). -/
def packageBody (s : State) (kind group word inc : Nat) (key : Bytes) (dest : PkgTarget) : Bytes :=
  let tk := match dest with | .group _ => 1 | .unit _ _ => 2
  let unit := match dest with | .group _ => zeros 16 | .unit i _ => i
  let hdr := natLe 4 0x31504B4F ++ natLe 1 kind ++ natLe 1 tk ++ natLe 2 group ++ natLe 4 word ++ natLe 4 inc ++ unitId16 ++
    unit ++ natLe 8 s.vlt.epoch ++ zeros 8
  let ct := match dest with
    | .group _ => zeros ekLen
    | .unit _ k => padTo ekLen (mlkemEncaps k (natLe 32 (drawn s))).2
  let wk := match dest with
    | .group g => (custodyKey s g).getD []
    | .unit _ k => packageKey (padTo 32 (mlkemEncaps k (natLe 32 (drawn s))).1) hdr
  hdr ++ ct ++ kwpWrap wk (key ++ (sha3_256 hdr).take 8) ++ padTo pkLen (mldsaPk (attestSeedOf s)) ++ unitCert s

/-- The package of an owner's KEK up to its signature (R241). -/
def ownerPackage (s : State) (o : Nat) (b : Bytes) : Bytes :=
  let x := ownerOf s o
  let dest := exportTarget b
  let g := match dest with | .group g => g | .unit _ _ => 0
  packageBody s 1 g (o + x.cls * 2 ^ 28) x.incarnation ((kekOf s o).getD (zeros 32)) dest

/-! ### Certificates (R240) -/

/-- Bytes 0 to 63 of a shred certificate, for a revocation at a CSN and an epoch. -/
def certHead (s : State) (o kind id epoch csn : Nat) : Bytes :=
  natLe 4 0x43524853 ++ natLe 4 (o + kind * 2 ^ 24) ++ natLe 4 (ownerOf s o).incarnation ++ natLe 4 id ++ natLe 8 epoch ++
  natLe 8 csn ++ natLe 8 s.now ++ unitId16 ++ natLe 8 s.vlt.id

/-! ### What a commit changes in the vault (R218, R232-R234) -/

/-- A record after a creation: a new incarnation with its wrapped KEK. -/
def newOwner (s : State) (o cls inc epoch : Nat) (kek label : Bytes) : Owner :=
  { state := .active, cls := cls, incarnation := inc, createEpoch := epoch, kekWrap := wrapKek s o inc kek, label := label }

/-- An owner revoked by the commit of an epoch. -/
def revoked (epoch now : Nat) (x : Owner) : Owner :=
  { x with state := .revoked, revokeEpoch := epoch, kekWrap := [], revokedAt := now }

/-- An owner with one more package issued. -/
def exportedOwner (x : Owner) : Owner := { x with exported := true, exportCnt := x.exportCnt + 1 }

/-- The vault as it is once proposal `id` commits at `epoch`, with CSN `csn`. -/
def changeImg (s : State) (id epoch csn : Nat) (p : Proposal) : VaultImg :=
  let r := p.record
  let o := rTarget r
  let b := rBody r
  let v := { s.vlt.img with propLedger := insertId id s.vlt.img.propLedger }
  let own (f : Owner → Owner) (v : VaultImg) : VaultImg := { v with owners := tupd {} v.owners o f }
  let led (kind : Nat) (v : VaultImg) : VaultImg :=
    let l := v.shredLedger ++ [certHead s o kind id epoch csn]
    { v with shredLedger := l.drop (l.length - 131072), shredNext := (v.shredNext + 1) % 131072 }
  match rOp r with
  | 0x01 => own (fun x => newOwner s o (rClass r) (x.incarnation + 1) epoch (propKey p) (sub r 32 32)) v
  | 0x02 => led 1 (own (revoked epoch s.now) v)
  | 0x03 => own exportedOwner v
  | 0x04 => led 2 (own (fun x => revoked epoch s.now (exportedOwner x)) v)
  | 0x05 => own (fun _ => newOwner s o (rClass r) 1 epoch (propKey p) (zeros 32)) v
  | 0x06 => own (fun x => { x with cls := rClass r }) v
  | 0x10 =>
    let n := pubLen (fld b 0 1)
    let x : Officer := { state := .active, alg := fld b 0 1, key := sub b 1 n, label := sub b (1 + n) 32 }
    { v with roster := tput v.roster o x }
  | 0x11 => { v with roster := tupd {} v.roster o (fun x => { x with state := .retired }) }
  | 0x12 =>
    let x : Policy := { m := fld b 0 1, officers := (b.drop 2).map (·.toNat) }
    { v with policies := tput v.policies o x }
  | 0x18 | 0x19 => { v with custody := tput v.custody o (some (propKey p)) }
  | 0x1B => { v with custody := tdel v.custody o }
  | 0x20 => { v with evrFloor := leNat b }
  | 0x21 => { v with activation := if fld b 8 8 == 0 then [] else b }
  | 0x22 => { v with returnDue := true }
  | _ => v

/-- A vault created by VAULT_INIT (R236, R243): ids 1 to 65,535 reserved, id 1 committed. -/
def initImg (s : State) (b : Bytes) : VaultImg :=
  let x := (readInit 257 b []).getD ([], {})
  { roster := x.1.zipIdx.map (fun e => (e.2, e.1)), policies := [(16, x.2)], idCeiling := 65536, propLedger := [1]
    evrFloor := s.evr.floor }

/-! ### What follows a commit -/

/-- An owner's revocation at the commit's CSN: its slots ORPHANED, its shadow slots and cached KEK gone, its bindings
revoked, its superseded copies waiting for their erase (R36, R168, R206, R220, R230, R281). -/
def revokeFan (o : Nat) (s : State) : State :=
  let own := tkeys s.kst.slots (fun _ x => x.owner == o && (x.state == .live || x.state == .pending))
  let a := own.foldl (fun s i => mark .orphaned i s) s
  let b := updKst (fun k => { k with kek := k.kek.erase o, orphanCnt := satAdd 32 k.orphanCnt own.length }) a
  let c := dropShadows (fun h => h.owner == o) b
  let d := updSlc (fun c => { c with binds := tupd {} c.binds o (fun x => if x.bound then { x with revoked := true } else x) }) c
  countPurge d

/-- A signed output of a proposal written, through the home port of its PROPOSE (R234). -/
def putOut (p : Proposal) (off : Nat) (data : Bytes) (s : State) : State := portWrite p.port (rDest p.record + off) data s

/-- An output of a proposal is to be signed with the attestation key: a lattice request, and 32 tender bytes are asked for;
none where the secure world has restarted since its commit began or DEST_ADDR is 0 (R121, R234, R240, R260). -/
def askSign (id off : Nat) (body : Bytes) (s : State) : State :=
  let p := propOf s id
  if rDest p.record == 0 || p.mute then s
  else ask (.quorum id) 32 (latEnqueue (.sign id) (updProp id (fun p => { p with outs := p.outs ++ [(off, body)] }) s))

/-- The effects of a committed operation beside the vault's contents; `head` is the certificate's. -/
def afterCommit (id : Nat) (p : Proposal) (head : Bytes) (s : State) : State :=
  let r := p.record
  let o := rTarget r
  let b := rBody r
  match rOp r with
  | 0x01 | 0x05 => updSlc (fun c => { c with binds := tset {} c.binds o {} }) s
  | 0x02 => askSign id 0 head (record .shred head (revokeFan o s))
  | 0x03 => askSign id 0 (ownerPackage s o b) (draw s)
  | 0x04 => askSign id 13568 head (record .shred head (revokeFan o s))
  | 0x1A =>
    askSign id 0 (packageBody s 2 o 0 0 ((custodyKey s o).getD (zeros 32)) (.unit (b.take 16) (sub b 16 ekLen))) (draw s)
  | 0x20 =>
    setFloor (leNat b)
      (recordSeq .floorRaised (natLe 4 s.evr.floor ++ natLe 4 (leNat b) ++ natLe 4 id ++ zeros 4) s)
  | 0x21 => updFwu (fun f => { f with actDone := [], firstMark := none }) s
  | 0x22 => transStart 7 s
  | _ => s

/-- The lattice unit has signed a proposal's output: it is written, and after the commit point the APPROVE completes; a
package that goes ahead of its commit lets that commit end (R234, R260). -/
def outputSigned (id : Nat) (s : State) : State :=
  let p := propOf s id
  let a := p.outs.foldl (fun s x => putOut p x.1 (x.2 ++ attestSign s x.2 p.rnd) s) (latCount s)
  if p.state == .committed then outputDone id a else dropSign id a

/-- LATTICE_OP_DONE: the request at the head of the queue completes, once it has its operands (R260). -/
def execLatticeOpDone (s : State) : Res :=
  if !powered s || inFault s then .next s
  else
    match s.lat.queue with
    | [] => .next s
    | .port p :: _ => onlyIf (latReady p s) s (latComplete p s)
    | .carriage t :: _ =>
      onlyIf (latCarriageReady s t) s
        (engineDone t (latCount (updLat (fun l => { l with queue := l.queue.erase (.carriage t) }) s)))
    | .sign i :: _ => onlyIf ((propOf s i).rnd.length == 32) s (outputSigned i s)
    | .debug :: _ => onlyIf s.lcs.resp.isSome s (debugVerified s)

end Sys2Proof.Machine
end

