-- ==== Sys2Proof/Machine/Vault.lean ====
section
/-! DEFINITION. The vault's and the quorum engine's commands: proposals, approvals, commits, the vault open and its upkeep
(10_owners_vault_dual_control.md, R35-R37, R124). -/
namespace Sys2Proof.Machine

/-! ### PROPOSE (R235, R236) -/

/-- The proposals that are open. -/
def openProps (s : State) : List Nat := tkeys s.vlt.props (fun _ p => p.used && p.state == .open_)

/-- An open proposal stands in the way of the record (R235). -/
def propClash (s : State) (r : Bytes) : Bool :=
  let op := rOp r
  (openProps s).any (fun i =>
    let q := (propOf s i).record
    (targetKind op != 0 && targetKind (rOp q) == targetKind op && rTarget q == rTarget r) ||
      (isDevice op && op != 0x10 && rOp q == op))

/-- The policy recorded for a PROPOSE (R233, R236). -/
def governing (s : State) (t : Nat) (r : Bytes) : Policy :=
  if rOp r == 0x30 then ((readInit 257 (rBody r) []).getD ([], {})).2
  else tget {} (policiesAt s t) (policyIndex s t r)

/-- The vault's mode does not take the operation (R228). -/
def modeRefuses (s : State) (r : Bytes) : Bool :=
  !vaultLive s && !(rOp r == 0x30 && (s.vlt.mode == .empty || (s.vlt.mode == .locked && (s.vlt.cause == 1 || s.vlt.cause == 2))))

/-- The key an imported package holds; none for other operations (R235, R241). -/
def importedKey (s : State) (r : Bytes) : Option Bytes :=
  match rOp r with
  | 0x05 => openPackage s 1 (rTarget r) (rBody r)
  | 0x19 => openPackage s 2 (rTarget r) (rBody r)
  | _ => some []

/-- The checks of R235 before those of a package. -/
def propForm (s : State) (t : Nat) (r : Bytes) : Bool :=
  recordForm (eKeyref (carrOf s t).entry) r && permits s (carrOf s t).admAt r

/-- Every check of R235 passes. -/
def propPasses (s : State) (t : Nat) (r : Bytes) : Bool :=
  propForm s t r && (importedKey s r).isSome &&
    2 ≤ (governing s t r).m && (openProps s).length < 1024 && !propClash s r && s.vlt.img.propLedger.length < 16777216

/-- The state from which the next id is issued: a VAULT_INIT starts a vault's ids afresh, and a range used up is followed
by the next (R236). -/
def idsReady (op : Nat) (s : State) : State :=
  if op == 0x30 then updVlt (fun v => { v with props := [], firstId := 1, nextId := 1, spent := [] }) s
  else if s.vlt.nextId ≥ s.vlt.img.idCeiling then reserveIds s
  else s

/-- D, what officers sign (R236). -/
def propDigest (id : Nat) (r : Bytes) : Bytes := sha3_256 (unitId16 ++ natLe 4 id ++ sha3_256 r)

/-- A key drawn or decapsulated, held as two shares under a mask of the engine's own: a free value (R235; log entry 89). -/
def maskKey (key : Bytes) (s : State) : (Bytes × Bytes) × State :=
  if key.isEmpty then (([], []), s)
  else
    let m := natLe key.length (drawn s)
    ((xorBytes key m, m), draw s)

/-- A proposal takes its id, its window opens at its admission stamp, and its digest is written (R236). -/
def openProposal (t : Nat) (r key : Bytes) (pol : Policy) (s : State) : State :=
  let c := carrOf s t
  let ring := ringOf s c.sq
  let k := maskKey key s
  let a := idsReady (rOp r) k.2
  let id := a.vlt.nextId
  let p : Proposal :=
    { used := true, record := r, m := pol.m, officers := pol.officers, end_ := c.admAt + 1000000 * c.aux
      port := ring.home, digest := propDigest id r, drawn := k.1.1, mask := k.1.2 }
  let b := updVlt (fun v => { v with nextId := id + 1, props := tput v.props id p }) a
  done t stDone id (dmaWriteMps ring.home (ringPasid b ring) (b.stats.get ring.home).cfg.roEn (fld c.entry 48 8) p.digest b)

/-- The bytes that a PROPOSE took at its admission, and that a failed check leaves undrawn, stand at the tender's front again,
unless the chain has started afresh since (R235, R254; log entry 87). -/
def giveBack (t : Nat) (s : State) : State :=
  let c := carrOf s t
  if s.rng.state == .seeded && s.rng.startAt < c.admAt then
    serveAll (updRng (fun g => { g with tender := (c.rnd ++ g.tender).take 65536 }) s)
  else s

/-- An admitted PROPOSE whose record has been read (R235, R236); a mode that came after its admission and does not take the
operation ends it ACCESS_DENIED, with RESULT 0 (R123, R228). -/
def runPropose (t : Nat) (s : State) : State :=
  let r := (carrOf s t).record.getD []
  let n := propDraw r
  let b := (carrOf s t).rnd
  let pol := governing s t r
  if modeRefuses s r then done t stAccessDenied 0 (giveBack t s)
  else if !propPasses s t r then done t stQuorumRejected 0 (giveBack t s)
  else if b.length < n then done t stRngNotSeeded 0 s
  else if n == 0 then openProposal t r ((importedKey s r).getD []) pol s
  else openProposal t r b pol s

/-- A PROPOSE's package has its two signatures checked by the lattice unit, once the checks before it pass (R235, R241,
R260). -/
def wantsPackage (s : State) (t : Nat) (r : Bytes) : Bool :=
  (rOp r == 0x05 || rOp r == 0x19) && !modeRefuses s r && propForm s t r

/-- The next id can be issued: a VAULT_INIT's is id 1, the range reserved is not used up, or a RESERVE record can be written now (R225, R230, R236,
R395). -/
def idsOpen (s : State) : Bool :=
  !vaultLive s || s.vlt.nextId < s.vlt.img.idCeiling || (journalRoom 1 s && !s.gov.pfail && !commitRuns s && !alarmA s)

/-- PROPOSE: the record is checked, and opened as a proposal; on an ORDERED SQ in its turn, so that an abort finds nothing to
undo (R97, R122, R235, R236; log entry 101). -/
def execPropose (tag : Nat) (s : State) : Res :=
  let c := carrOf s tag
  if !worldServes s 0x30 || s.fwu.activating || !idsOpen s || waitsTurn s tag then .next s
  else if isAt s tag 0x30 .admitted then .next (updCarr tag (fun c => { c with stage := .running }) s)
  else if isAt s tag 0x30 .running && c.sigs.isNone && wantsPackage s tag (c.record.getD []) then
    .next (latCarriage tag (latCarriage tag (updCarr tag (fun c => { c with sigs := some 2 }) s)))
  else onlyIf (isAt s tag 0x30 .running && c.record.isSome && c.sigs.getD 0 == 0) s (runPropose tag s)

/-! ### APPROVE and QUERY_PROPOSAL (R124, R237, R238) -/

/-- An APPROVE of the proposal admitted before `csn` is not judged yet (R238). -/
def approvesBefore (s : State) (id csn : Nat) : Bool :=
  tany s.car.cars (fun t c =>
    (c.stage == .admitted || c.stage == .running) && eOp c.entry == 0x31 && fld c.entry 48 4 == id && c.admCsn < csn &&
      (propOf s id).by_ != some t)

/-- The officers an approval is checked against: those of its admission, or the body's of a VAULT_INIT (R238, R243). -/
def officersFor (s : State) (t : Nat) (p : Proposal) : Tbl Officer :=
  if rOp p.record == 0x30 then (initImg s (rBody p.record)).roster else rosterAt s t

/-- An outcome for an id of an earlier power cycle: committed, without quorum, or never issued; its counts are free
(R123, R124). -/
def oldOutcome (t id : Nat) (s : State) : State :=
  let w := drawn s % 2 ^ 16
  if s.vlt.img.propLedger.contains id then done t stDone w (draw s)
  else if idIssued s id then done t stQuorumExpired w (draw s)
  else done t stQuorumRejected (4 * 2 ^ 16) s

/-- The proposal had closed, or its window was over, when the APPROVE of carriage `c` was admitted (R238). -/
def tooLate (p : Proposal) (c : Carriage) : Bool := (p.state == .closed && p.closedCsn < c.admCsn) || c.admAt ≥ p.end_

/-- An APPROVE judged by the rules of R238 in their order, a proposal that closed since against its state at the admission
CSN; its quorum then finds the vault gone (R239). -/
def judge (t : Nat) (s : State) : State :=
  let c := carrOf s t
  let id := fld c.entry 48 4
  let o := fld c.entry 52 1
  let p := propOf s id
  let os := officersFor s t p
  let x := tget {} os o
  if !p.used then oldOutcome t id s
  else if p.state == .committed then done t stDone (quorumWord p 0) s
  else if tooLate p c then
    done t stQuorumExpired (quorumWord p 0) (closeProp id s)
  else if !p.officers.contains o || x.state != .active then done t stQuorumRejected (quorumWord p 2) s
  else if p.approvals.contains o then done t stQuorumRejected (quorumWord p 3) s
  else if eLength c.entry != sgnLen x.alg || !signedBy x.alg x.key p.digest (c.record.getD []) then
    done t stQuorumRejected (quorumWord p 1) s
  else
    let a := updProp id (fun p => { p with approvals := p.approvals ++ [o] }) s
    if p.approvals.length + 1 < p.m then done t stQuorumPending (quorumWord (propOf a id) 0) a
    else if p.state == .closed then done t stQuorumExpired (quorumWord (propOf a id) 0) a
    else updProp id (fun p => { p with committing := true, by_ := some t }) a

/-- The algorithm of the signature that an APPROVE has an engine check: 0 where the rules before it decide, or its LENGTH
does not match (R238, R260, R267). -/
def sigAlg (s : State) (t : Nat) : Nat :=
  let c := carrOf s t
  let p := propOf s (fld c.entry 48 4)
  let o := fld c.entry 52 1
  let x := tget {} (officersFor s t p) o
  if p.used && p.state != .committed && !tooLate p c && p.officers.contains o && x.state == .active &&
      !p.approvals.contains o && eLength c.entry == sgnLen x.alg then x.alg
  else 0

/-- APPROVE: the signature is read, checked by the lattice unit or the big-number verifier, and judged in the order of
admission; one that finds a commit in progress waits for it (R237, R238, R260, R267). -/
def execApprove (tag : Nat) (s : State) : Res :=
  let c := carrOf s tag
  let id := fld c.entry 48 4
  let p := propOf s id
  if !worldServes s 0x31 then .next s
  else if isAt s tag 0x31 .admitted then
    .next (if eLength c.entry == 0 then updCarr tag (fun c => { c with stage := .running, record := some [] }) s
      else readBuffer (.record tag) tag 0 (eLength c.entry) (updCarr tag (fun c => { c with stage := .running }) s))
  else if isAt s tag 0x31 .running && c.record.isSome && c.sigs.isNone && sigAlg s tag != 0 then
    let a := updCarr tag (fun c => { c with sigs := some 1 }) s
    .next (if sigAlg s tag == 1 then latCarriage tag a else bnvEnqueue tag a)
  else
    onlyIf (isAt s tag 0x31 .running && c.record.isSome && c.sigs.getD 0 == 0 && !approvesBefore s id c.admCsn &&
      !(p.used && p.state == .open_ && p.committing)) s (judge tag s)

/-- QUERY_PROPOSAL; where the window is over and an APPROVE of it admitted earlier is not judged yet, it waits for the outcome
(R124, R238). -/
def execQueryProposal (tag : Nat) (s : State) : Res :=
  let c := carrOf s tag
  let id := fld c.entry 48 4
  let p := propOf s id
  onlyIf (isAt s tag 0x32 .admitted && worldServes s 0x32) s
    (if !p.used then oldOutcome tag id s
     else if p.state == .committed then done tag stDone (quorumWord p 0) s
     else if p.state == .open_ && (c.admAt < p.end_ || p.committing) then done tag stQuorumPending (quorumWord p 0) s
     else if p.state == .open_ && approvesBefore s id c.admCsn then s
     else done tag stQuorumExpired (quorumWord p 0) s)

/-- QRM_WINDOW_END: a proposal whose window has ended closes, once every APPROVE admitted in it is judged (R238, R239). -/
def execQrmWindowEnd (proposal : Nat) (s : State) : Res :=
  let p := propOf s proposal
  let late := tany s.car.cars (fun _ c =>
    (c.stage == .admitted || c.stage == .running) && eOp c.entry == 0x31 && fld c.entry 48 4 == proposal && c.admAt < p.end_)
  onlyIf (live s && p.used && p.state == .open_ && !p.committing && s.now ≥ p.end_ && !late) s (closeProp proposal s)

/-! ### VAULT_COMMIT (R35, R225, R226) -/

/-- A record sent and programmed on one device, with its result: 0 A, 1 B (R226). -/
def progOne (b : Bool) (r : ProgResult) (y : Bytes) (s : State) : State :=
  let a := emit (.vaultWrite (b2n b) y) s
  updVlt (fun v => if b then { v with b := devProgram r y v.b } else { v with a := devProgram r y v.a }) a

/-- A device has failed: it takes no more part (R226). -/
def devFailed (b : Bool) (s : State) : State :=
  updVlt (fun v => if b then { v with devB := 2 } else { v with devA := 2 }) s

/-- Step 1 fails: the commit is abandoned and vault B stands alone (R226). -/
def commitFailA (id : Nat) (r : ProgResult) (y : Bytes) (s : State) : State :=
  let a := devFailed false (progOne false r y s)
  closeProp id (if vaultLive s then vaultTo .single 5 a else a)

/-- Step 2 fails: a VOID record cancels the commit on vault A, which stands alone; without one the device enters FAULT
(R226). -/
def commitFailB (id : Nat) (jr : JRec) (ra rb void : ProgResult) (s : State) : State :=
  let y := jrecBytes (vaultMacKey s) jr
  let v := jrecBytes (vaultMacKey s) { jr with kind := .void, body := [] }
  let a := progOne false void v (devFailed true (progOne true rb y (progOne false ra y s)))
  if progOk void then closeProp id (if vaultLive s then vaultTo .single 6 a else a)
  else enterFault 5 a

/-- A commit counted, with the time it took (R225). -/
def countCommit (latency : Nat) (s : State) : State :=
  updVlt (fun v => { v with
    commitCnt := satInc 32 v.commitCnt
    commitAts := v.commitAts.filter (fun t => s.now < t + 1000000) ++ [s.now]
    commitLat := min 20000 latency }) s

/-- The bookkeeping of a commit, and the end of the APPROVE that waits for it, unless an output of it is still to be signed
and written (R32, R234, R238, R239). -/
def commitDone (id : Nat) (s : State) : State :=
  let p := propOf s id
  let a := updProp id (fun p => { p with
    state := .committed, drawn := [], mask := [], committing := false, begun := false }) s
  let b := countCommit (s.now - p.begunAt) a
  let d := if rOp p.record == 0x21 then updFwu (fun f => { f with actDone := [], firstMark := none }) b else b
  if p.outs.isEmpty then outputDone id d else d

/-- A device of a new vault: erased, with its header, the roster's pages of epoch 1, and the record of the first commit
(R243; log entry 31). -/
def initDev (mk : Bytes) (fmt vid : Nat) (img : VaultImg) (r : ProgResult) (y : Bytes) (d : VaultDev) : VaultDev :=
  let a := putHeader mk fmt vid { d with answers := true, pages := [], head := 0 }
  devProgram r y (img.roster.foldl (fun d e => putCopy [] (copyPage mk (rosterPage + e.1) 1 (padTo 4096 (officerBytes e.2))) d) a)

/-- VAULT_INIT's commit: a new key in BBRAM, both devices erased but for the event partition, epoch 1 (R243). -/
def commitInit (id : Nat) (ra rb : ProgResult) (s : State) : State :=
  let p := propOf s id
  let key := propKey p
  let mask := fld key 32 32
  let vid := fld key 64 16
  let img := initImg s (rBody p.record)
  let fmt := fld (slotImage s s.fwu.active) 40 2
  let k := { s with bbr := { s.bbr with share0 := fld key 0 32 ^^^ mask, share1 := mask, floor := 1 } }
  let mk := vaultMacKey k
  let jr : JRec :=
    { epoch := 1, kind := .commit, proposal := id, boot := s.chp.bootCnt
      body := patchesOf (vaultWrapKey k) { img with policies := [], idCeiling := 0 } img }
  let y := jrecBytes mk jr
  let a := { k with
    vlt := { s.vlt with
      id := vid, epoch := 1, img := img, a := initDev mk fmt vid img ra y s.vlt.a, b := initDev mk fmt vid img rb y s.vlt.b
      devA := 0, devB := 0, firstId := 1, nextId := 2, spent := [], purge := 0 }
    evr := { s.evr with floorDue := true }
    fwu := { s.fwu with vaultFmt := fmt, actDone := [] } }
  commitDone id (vaultTo .normal 0 (seqd (sendRec y a)))

/-- The vault once proposal `id` commits at the next CSN. -/
def commitImg (id : Nat) (s : State) : VaultImg := changeImg s id (s.vlt.epoch + 1) (s.csn + 1) (propOf s id)

/-- The operation changes what a quorum carriage is judged by. -/
def changesQuorum (op : Nat) : Bool :=
  op == 0x01 || op == 0x05 || op == 0x06 || op == 0x10 || op == 0x11 || op == 0x12

/-- A commit through both devices: steps 1 to 4 of R35, then what the operation does at its CSN. -/
def commitNow (id : Nat) (ra rb : ProgResult) (s : State) : State :=
  let p := propOf s id
  let op := rOp p.record
  let head := certHead s (rTarget p.record) (if op == 0x02 then 1 else 2) id (s.vlt.epoch + 1) (s.csn + 1)
  let b := if changesQuorum op then keepSnap s else s
  commitDone id (afterCommit id p head (journalWith ra rb .commit id (commitImg id s) b))

/-- The journal record of a proposal's commit. -/
def commitRec (proposal : Nat) (s : State) : JRec := jrec .commit proposal (commitImg proposal s) s

/-- A commit can begin now: none is in progress, PFAIL_N is not asserted, no class A alarm is being answered, and fewer than 200
ran in the last second (R35, R225, R315). -/
def commitFree (s : State) : Bool :=
  !commitRuns s && !s.gov.pfail && !alarmA s && !s.vlt.reload && (s.vlt.commitAts.filter (fun t => s.now < t + 1000000)).length < 200

/-- The commit of a proposal that has its quorum can begin now, and the journals have room (R35, R225, R230, R243). -/
def commitDue (proposal : Nat) (s : State) : Bool :=
  let p := propOf s proposal
  let init := rOp p.record == 0x30
  live s && p.used && p.state == .open_ && p.committing && commitFree s && !s.fwu.activating &&
    (init || (vaultLive s && journalRoom (jrecPages (commitRec proposal s)) s)) && (!init || initAllowed s)

/-- A commit begins: from here on its APPROVE is not marked by an abort and stands through a restart. The package of an
export-and-remove is signed and written ahead of the commit point (R121, R122, R234, R238). -/
def beginCommit (proposal : Nat) (s : State) : State :=
  let r := (propOf s proposal).record
  let a := updProp proposal (fun p => { p with begun := true, begunAt := s.now }) s
  let b := match (propOf s proposal).by_ with
    | some t => updCarr t (fun c => { c with started := true }) a
    | none => a
  if rOp r == 0x04 then askSign proposal 0 (ownerPackage s (rTarget r) (rBody r)) (draw b) else b

/-- VAULT_COMMIT: the vault engine begins the commit of a proposal that has its quorum, and then, run once more, ends it: each
device answers the write with success or failure; a class A alarm keeps it from its CSN (R35, R225, R226, R243, R315; log
entry 90). -/
def execVaultCommit (proposal : Nat) (a b void : ProgResult) (s : State) : Res :=
  let p := propOf s proposal
  let init := rOp p.record == 0x30
  let y := jrecBytes (vaultMacKey s) (commitRec proposal s)
  if commitDue proposal s then .next (beginCommit proposal s)
  else
    onlyIf (live s && p.used && p.state == .open_ && p.begun && p.outs.isEmpty && !alarmA s) s
      (if rOp p.record == 0x04 && !(s.hpt.get p.port).up then closeProp proposal s
       else if init && !(progOk a && progOk b) then closeProp proposal s
       else if init then commitInit proposal a b s
       else if !progOk a then commitFailA proposal a y s
       else if !progOk b then commitFailB proposal (commitRec proposal s) a b void s
       else commitNow proposal a b s)

/-! ### VAULT_OPEN (R227, R229) -/

/-- What an open finds: the mode and cause, the states of the devices, the devices as they are left, the record chain's end
and contents, and the records replayed. -/
structure OpenResult where
  mode : VaultMode
  cause : Nat := 0
  devA : Nat := 0
  devB : Nat := 0
  a : VaultDev
  b : VaultDev
  epoch : Nat := 0
  img : VaultImg := {}
  replayed : Nat := 0
deriving DecidableEq, Repr

/-- DEV_A or DEV_B of a device as found. -/
def devCode (mk : Bytes) (d : VaultDev) : Nat := if devGood mk d then 0 else if d.answers && devBlank d then 1 else 2

/-- The vault-key shares are absent from BBRAM (R227, R320). -/
def noShares (s : State) : Bool := s.bbr.share0 == 0 && s.bbr.share1 == 0

/-- An open vault: the epoch and contents of a device's chain. -/
def openAt (wk : Bytes) (x : Nat × PageMap) (o : OpenResult) : OpenResult := { o with epoch := x.1, img := imgOf wk x.2 }

/-- The recovery table of R227, for two good devices with floor `f`. -/
def openBoth (mk wk : Bytes) (f : Nat) (a b : VaultDev) : OpenResult :=
  let x := devChain mk a
  let y := devChain mk b
  let ca := devCleaned mk a
  let cb := devCleaned mk b
  if max x.1 y.1 < f then { mode := .locked, cause := 3, a := a, b := b }
  else if x.1 == y.1 then openAt wk x { mode := .normal, a := ca, b := if x.2 == y.2 then cb else devCopy ca cb }
  else if x.1 == y.1 + 1 && y.1 ≥ f then
    openAt wk x { mode := .normal, a := ca, b := devReplay mk x.1 ca cb, replayed := 1 }
  else if y.1 == x.1 + 1 && x.1 ≥ f then
    openAt wk y { mode := .normal, a := devReplay mk y.1 cb ca, b := cb, replayed := 1 }
  else if x.1 > y.1 then openAt wk x { mode := .rebuilding, devB := 3, a := ca, b := devEmptied ca b }
  else openAt wk y { mode := .rebuilding, devA := 3, a := devEmptied cb a, b := cb }

/-- The recovery table of R227 with one good device, `other` being the other one's DEV code: the good one's cleaned device, the
other one as it is left, and whether it is rebuilt; none where the floor is above. -/
def openOne (mk : Bytes) (f other : Nat) (good rest : VaultDev) : Option (VaultDev × VaultDev × Bool) :=
  if (devChain mk good).1 < f then none
  else if other == 1 then some (devCleaned mk good, devEmptied (devCleaned mk good) rest, true)
  else some (devCleaned mk good, rest, false)

/-- The recovery table of R227. -/
def openVault (s : State) : OpenResult :=
  let a := s.vlt.a
  let b := s.vlt.b
  let f := s.bbr.floor
  let mk := vaultMacKey s
  let wk := vaultWrapKey s
  let da := devCode mk a
  let db := devCode mk b
  let shut (cause : Nat) : OpenResult := { mode := .locked, cause := cause, devA := da, devB := db, a := a, b := b }
  if s.fuses.bdEpoch ≥ 255 || s.lcs.state == .return_ || s.lcs.pending then shut 1
  else if noShares s && a.answers && b.answers && devBlank a && devBlank b && f == 0 then
    { mode := .empty, devA := da, devB := db, a := a, b := b }
  else if noShares s then shut (if s.tmp.alarmedBoot || s.tmp.vaultLocked then 2 else 1)
  else if da == 0 && db == 0 then openBoth mk wk f a b
  else if da == 0 then
    match openOne mk f db a b with
    | none => shut 3
    | some (x, y, true) => openAt wk (devChain mk a) { mode := .rebuilding, devB := 3, a := x, b := y }
    | some (x, y, false) => openAt wk (devChain mk a) { mode := .single, cause := 6, devB := 2, a := x, b := y }
  else if db == 0 then
    match openOne mk f da b a with
    | none => shut 3
    | some (y, x, true) => openAt wk (devChain mk b) { mode := .rebuilding, devA := 3, a := x, b := y }
    | some (y, x, false) => openAt wk (devChain mk b) { mode := .single, cause := 5, devA := 2, a := x, b := y }
  else shut 4

/-- The alarm buffer copied to the event recorder (R322). -/
def copyAlarms (s : State) : State :=
  if s.bbr.buffer.isEmpty then s
  else
    let a := s.bbr.buffer.foldl (fun s r => record .alarm r s) s
    { a with bbr := { a.bbr with copied := true } }

/-- The carriages held for the vault go through admission in take order; one that still reads its ticket, table or record keeps
the later ones waiting (R229). -/
def admitHeld (s : State) : State :=
  ((takeOrder s).filter (fun t => (carrOf s t).held && (carrOf s t).stage == .taken)).foldl
    (fun s t => if (carrOf s t).stage == .taken && !heldEarlier s t then runAdmission t s else s) s

/-- VAULT_OPEN: the journals are recovered, the mode set, the next ids reserved, the alarm buffer copied in the boot's first
open, and the carriages held are admitted (R227, R229, R236, R322, R333). -/
def execVaultOpen (s : State) : Res :=
  let o := openVault s
  let mk := vaultMacKey s
  let a := updVlt (fun v => { v with
    devA := o.devA, devB := o.devB, a := o.a, b := o.b, epoch := o.epoch, replayed := o.replayed
    id := if devGood mk o.a then devId mk o.a else devId mk o.b
    img := o.img, nextId := o.img.idCeiling, firstId := o.img.idCeiling, passAt := s.now
    discarded := min 255 ((if devGood mk s.vlt.a then devDiscards mk s.vlt.a else 0) +
      (if devGood mk s.vlt.b then devDiscards mk s.vlt.b else 0)) }) s
  let b := vaultTo o.mode o.cause a
  let c := if b.vlt.mode == .normal || b.vlt.mode == .rebuilding || b.vlt.mode == .single then
      countPurge (setFloor (if seqFrom o.img.evrFloor b.evr.floor then b.evr.floor else o.img.evrFloor) b) else b
  let d := if vaultLive c && !c.gov.pfail && journalRoom 1 c then reserveIds c else c
  let e := { d with chp := { d.chp with vaultOpen := true, opened := true } }
  onlyIf (live s && !s.chp.vaultOpen) s (admitHeld (if s.chp.opened then e else copyAlarms e))

/-! ### Upkeep (R227, R230, R231) -/

/-- VAULT_REBUILD_DONE: the device rebuilt holds every current page, and the vault is NORMAL (R227). -/
def execVaultRebuildDone (s : State) : Res :=
  let a := updVlt (fun v => { v with
    a := if v.devA == 3 then devCopy v.b v.a else v.a
    b := if v.devB == 3 then devCopy v.a v.b else v.b
    devA := 0, devB := 0 }) s
  onlyIf (live s && s.vlt.mode == .rebuilding) s (vaultTo .normal 0 (countPurge a))

/-- How many blocks of a device fail in its upkeep: a free value (R226; log entry 90). -/
def upkeepFails (s : State) : Nat := drawn s % 4096

/-- A device settled at an epoch after some blocks failed; of one that is being rebuilt only the journal goes (R226, R230). -/
def settleDev (mk : Bytes) (code fails epoch : Nat) (d : VaultDev) : VaultDev :=
  let x := blocksFail fails (8 + d.head / 64) d
  if code == 0 then devSettle mk epoch x
  else if code == 3 then
    { x with pages := x.pages.filter (fun e => !inRing e.1), head := (x.head / 64 + 1) * 64 % 16384 }
  else d

/-- A journal holds a record that is not settled. -/
def journalDue (mk : Bytes) (d : VaultDev) : Bool := (ringRecs mk d).any (fun f => f.complete && recKind f != 4)

/-- VAULT_SETTLE: committed patches go into the record area, a SETTLED record is written, the journal behind it reclaimed
and superseded copies erased, on the good device alone where the vault is SINGLE (R223, R230). -/
def execVaultSettle (s : State) : Res :=
  let ep := s.vlt.epoch
  let mk := vaultMacKey s
  let v := s.vlt
  let a := updVlt (fun v => { v with
    a := settleDev mk v.devA (upkeepFails s) ep v.a, b := settleDev mk v.devB (upkeepFails (draw s)) ep v.b }) (draw (draw s))
  onlyIf (live s && (vaultLive s || v.mode == .single) && !s.gov.pfail && !commitRuns s && !alarmA s &&
      ((takesPart v.devA && journalDue mk v.a) || (takesPart v.devB && journalDue mk v.b))) s
    (countPurge (journal .settled 0 { s.vlt.img with settledEpoch := ep } a))

/-- A pass completes within a quarter of VAULT_REFRESH_DAYS, in microseconds (R231). -/
def passBound (s : State) : Nat := s.mnf.refreshDays * 86400000000 / 4

/-- The pages that the scrubber has read and rewritten since its last report, on a device that is in use (R231). -/
def scrubDev (code dev lo hi : Nat) (d : VaultDev) (s : State) : State :=
  if takesPart code then (passPages lo hi d).foldl (fun s p => emit (.vaultWrite dev (p.data ++ p.spare)) s) s else s

/-- VAULT_SCRUB: the refresh pass has reached `percent`, its pages rewritten on both devices but for the blocks that failed
and were replaced; at 100 it is complete. A report after the bound of the pass in progress is of a new pass (R231; log entry
31). -/
def execVaultScrub (percent : Nat) (s : State) : Res :=
  let v := s.vlt
  let open_ := vaultLive s || v.mode == .single
  let fresh := v.passPct == 100 || percent < v.passPct || s.now ≥ v.passAt + passBound s
  let lo := if fresh then 0 else v.passPct
  let a := scrubDev v.devB 1 lo percent v.b (scrubDev v.devA 0 lo percent v.a (draw (draw s)))
  onlyIf (live s && open_ && percent ≤ 100 && !s.gov.pfail) s
    (updVlt (fun v => { v with
      passPct := percent, passAt := if fresh then s.now else v.passAt
      passes := if percent == 100 then satInc 16 v.passes else v.passes
      a := blocksFail (upkeepFails s) 0 v.a, b := blocksFail (upkeepFails (draw s)) 0 v.b }) a)

end Sys2Proof.Machine
end

