-- ==== Sys2Proof/Machine/Tamper.lean ====
section
/-! DEFINITION. Tamper monitors, alarm responses and the backup domain (15_tamper_and_backup_domain.md, R412). -/
namespace Sys2Proof.Machine

/-! ### Readings (R412) -/

/-- The low 16 bits of a signed reading. -/
def enc16 (x : Int) : Nat := (x % 65536).toNat

/-- The value of 16 bits read as two's complement. -/
def dec16 (x : Nat) : Int := if x < 32768 then x else (x : Int) - 65536

/-- A reading of sensor `i` comes before another in the sensor's order: sensors 4 and 5 are signed. -/
def readLess (i a b : Nat) : Bool := if i == 4 || i == 5 then dec16 a < dec16 b else a < b

/-- A reading of sensor `i`: the register and the extremes follow it, but not in FAULT (R29, R412). -/
def sense (i v : Nat) (s : State) : State :=
  if inFault s then s else updTmp (fun t =>
    let lo := match tget none t.mins i with | some x => if readLess i v x then v else x | none => v
    let hi := match tget none t.maxs i with | some x => if readLess i x v then v else x | none => v
    { t with
      readings := tset 0 t.readings i v, mins := tset none t.mins i (some lo), maxs := tset none t.maxs i (some hi) }) s

/-! ### Alarm records (R321) -/

/-- CLASS of an alarm record. -/
def classCode : AlarmClass → Nat
  | .a => 1 | .b => 2 | .c => 3

/-- CHP_BOOT_CNT as the fuses and the backup domain hold it (R323). -/
def bootCount (s : State) : Nat := s.fuses.bdEpoch * 2 ^ 24 + s.bbr.counter

/-- Room in the alarm buffer: the oldest class C record leaves a full one (R321). -/
def dropClassC : List Bytes → Option (List Bytes)
  | [] => none
  | r :: rs => if fld r 1 1 == 3 then some rs else (dropClassC rs).map (r :: ·)

/-- A record put into the alarm buffer of 64, or counted as lost (R321). -/
def bufferAlarm (r : Bytes) (s : State) : State :=
  let b := s.bbr
  let put (l : List Bytes) : Backup := { b with buffer := l ++ [r], bufSeq := (b.bufSeq + 1) % 2 ^ 16 }
  { s with bbr :=
      if b.buffer.length < 64 then put b.buffer
      else match dropClassC b.buffer with
        | some l => put l
        | none => { b with abufLost := satInc 8 b.abufLost } }

/-- The bytes of an alarm record: source, class, power state, flags, first detection, always-on ticks, value (R321). -/
def alarmBytes (s : State) (n : AlarmNote) (power flags time aon : Nat) : Bytes :=
  let d := natLe 1 n.source ++ natLe 1 (classCode n.cls) ++ natLe 1 power ++ natLe 1 flags ++ natLe 4 (bootCount s) ++
    natLe 8 time ++ natLe 8 aon ++ natLe 4 n.value ++ natLe 2 s.bbr.bufSeq
  d ++ natLe 2 (crc16 d)

/-- The priority of a source (R311). -/
def alarmPriority (source : Nat) : Nat :=
  if source == 1 then 1 else if source ≤ 3 then 2 else if source ≤ 7 then 3 else if source ≤ 9 then 4 else if source == 10 then 5
  else 6

/-- An alarm put into the order of the records (R319). -/
def insertNote (n : AlarmNote) : List AlarmNote → List AlarmNote
  | [] => [n]
  | x :: xs => if alarmPriority n.source < alarmPriority x.source then n :: x :: xs else x :: insertNote n xs

/-- The records of a completed response, in ascending priority, each to the alarm buffer and to the event recorder (R318,
R319, R321). -/
def writeAlarms (r : AlarmResp) (s : State) : State :=
  let joined := if r.notes.length > 1 then 4 else 0
  (r.notes.foldl (fun l n => insertNote n l) []).foldl (fun s n =>
    let light := if n.source == 1 then b2n s.tmp.light.pd + 2 * b2n s.tmp.light.can else 0
    let b := alarmBytes s n (b2n s.gov.dormant) (light + joined) r.first 0
    recordAt .alarm r.first b (bufferAlarm b s)) s

/-! ### Responses (R314-R319) -/

/-- The carriages an engine works for end with the alarm. -/
def stopTags (ts : List Nat) (s : State) : State := ts.foldl (fun s t => stopOne t stAlarmAbort 0 s) s

/-- The carriages queued at the lattice unit. -/
def latTags (s : State) : List Nat := s.lat.queue.filterMap (fun q => match q with | .carriage t => some t | _ => none)

/-- The proposals whose output waits at the lattice unit for its signature. -/
def signIds (s : State) : List Nat := s.lat.queue.filterMap (fun q => match q with | .sign i => some i | _ => none)

/-- The carriages on the big-number verifier's channels. -/
def bnvTags (s : State) : List Nat := s.bnv.chans.filterMap (·.2)

/-- The carriage is a PROPOSE or an APPROVE: R125 gives it no ALARM_ABORT, so an engine whose memory an alarm erases checks its
signatures again (log entry 78). -/
def asksAgain (s : State) (t : Nat) : Bool := eOp (carrOf s t).entry == 0x30 || eOp (carrOf s t).entry == 0x31

/-- What a class A or B alarm erases: slots, staging, shadow slots, ticket keys, the legacy register, the utility cipher, the
lattice unit's memory (R141, R206, R214, R266, R275, R314). -/
def eraseAB (s : State) : State :=
  let a := reap stAlarmAbort (zeroiseKeys s)
  let b := stopAll (fun _ c =>
    bound c &&
      match c.key with | .ticket _ _ _ _ _ => true | _ => false) stAlarmAbort a
  let c := latEnd .b stAlarmAbort 0 (latEnd .a stAlarmAbort 0 (stopTags ((latTags b).filter (fun t => !asksAgain b t)) b))
  let d := (signIds c).foldl (fun s i => signLost i s) (debugLost c)
  let e := if d.ucp.holder.isSome then ucpClear true (ucpEnd stAlarmAbort 0 d) else d
  legErase 7 stAlarmAbort e

/-- What a class A alarm erases beside: operand memories, the random chain, the KEK cache, held keys, the vault-key shares and
the dormant seal value (R220, R235, R248, R273, R314, R320). -/
def eraseA (s : State) : State :=
  let a := chanZeroise .b stAlarmAbort (chanZeroise .a stAlarmAbort (stopTags ((bnvTags s).filter (fun t => !asksAgain s t)) s))
  let b := updKst (fun k => { k with kek := [] }) (rngZeroise a)
  closeProps { b with bbr := { b.bbr with share0 := 0, share1 := 0, dseal := 0 } }

/-- How a response leaves the machine: the data path stopped, the vault locked and the random chain stopped (R314). -/
def stopAfter (isA isAB : Bool) (s : State) : State :=
  let a := updTmp (fun t => { t with
    dataStop := t.dataStop || isAB, vaultLocked := t.vaultLocked || isA, rngRestart := t.rngRestart || isA }) s
  if isA then vaultTo .locked 2 (updRng (fun r => { r with state := .stopped }) a) else a

/-- A response is complete: one CSN, the union of the erase sets, the stop of the highest class, the latches, the interrupt,
the count and the records (R314-R319). In FAULT it erases and records only. -/
def finishResponse (s : State) : State :=
  match s.tmp.resp with
  | none => s
  | some r =>
    let isA := r.notes.any (fun n => n.cls == .a)
    let isAB := isA || r.notes.any (fun n => n.cls == .b)
    let top := if isA then 1 else if isAB then 2 else 3
    let mark := r.notes.foldl (fun (m : BitVec 12) n => m ||| (1 <<< (n.source - 1))) 0
    let a := if powered s then seqd s else s
    let b := updTmp (fun t => { t with
      resp := none, latch := t.latch ||| mark, lastClass := if inFault s then t.lastClass else top
      cntA := if top == 1 then satInc 8 t.cntA else t.cntA
      cntB := if top == 2 then satInc 8 t.cntB else t.cntB
      cntC := if top == 3 then satInc 16 t.cntC else t.cntC
      eraseNs := if inFault s then t.eraseNs else min 65535 (1000 * (s.now - r.first)) }) a
    let c := if isAB then eraseAB b else legErase 7 stAlarmAbort b
    let d := if isA then eraseA c else c
    let e := if inFault s then d else setIntBoth 6 (stopAfter isA isAB d)
    if r.notes.any (fun n => n.source == 1) && e.tmp.light.openAt.isSome then
      updTmp (fun t => { t with light := { t.light with done := some r } }) e
    else writeAlarms r e

/-- The response in progress completes once its time has come. -/
def respDue (s : State) : State :=
  match s.tmp.resp with
  | some r => if s.now ≥ r.endAt then finishResponse s else s
  | none => s

/-- The source is active in the class (R311). -/
def isActive (s : State) (source : Nat) (cls : AlarmClass) : Bool :=
  s.tmp.active.any (fun x => x.source == source && x.cls == cls)

/-- The condition of a source is seen: an inactive source becomes active and raises its alarm, which joins the response in
progress or begins one of at most 10 µs; a class B source raises none while the data path is stopped. An alarm ends a
Dormant request (R311, R314, R318, R319, R393). -/
def raise (source : Nat) (cls : AlarmClass) (value : Nat) (s : State) : State :=
  if isActive s source cls then
    updTmp (fun t => { t with active := t.active.map (fun x =>
      if x.source == source && x.cls == cls then { x with at_ := s.now } else x) }) s
  else
    let a := updTmp (fun t => { t with active := t.active ++ [{ source := source, cls := cls, at_ := s.now }] }) s
    if cls == .b && s.tmp.dataStop then a
    else
      let r := s.tmp.resp.getD { first := s.now }
      let r2 : AlarmResp :=
        { r with endAt := within 10 s, notes := r.notes ++ [{ source := source, cls := cls, value := value % 2 ^ 32 }] }
      let b := if a.gov.dormReady then updGov (fun g => { g with dormReady := false, dormCause := 7 }) a else a
      respDue (draw (updTmp (fun t => { t with resp := some r2 }) b))

/-- The value of an alarm whose source has no reading: the spec states none. -/
def noReading (s : State) : Nat := drawn s

/-! ### Detections -/

/-- The light alarm's agreement window ends: a detector that stood alone is counted, and the records that waited are written
(R312). -/
def lightEnd (s : State) : State :=
  let w := s.tmp.light
  let a := updTmp (fun t => { t with
    disPd := if w.pd && !w.can then satInc 16 t.disPd else t.disPd
    disCan := if w.can && !w.pd then satInc 16 t.disCan else t.disCan
    light := { t.light with openAt := none, done := none } }) s
  match w.done with
  | some r => writeAlarms r a
  | none => a

/-- The agreement window is over: 100 µs have passed since the first detection (R42, R312). -/
def lightOver (s : State) : Bool := s.tmp.light.openAt.any (fun t => s.now ≥ t + 100)

/-- An agreement window whose time has come ends. -/
def lightDue (s : State) : State := if lightOver s then lightEnd s else s

/-- What an alarm has begun is brought to its end, as the hardware does in every state: the response, and the records of a light
alarm (R312, R314). -/
def settleAlarms (s : State) : State :=
  let a := finishResponse s
  if a.tmp.light.openAt.isSome then lightEnd a else a

/-- The tamper hardware runs: on main power, in Dormant too (R311). -/
def sensing (s : State) : Bool := !s.chp.inReset

/-- LIGHT_DETECT: a light detector fires; the alarm opens the window of 100 µs, stamped on its detection, in which the other may
agree (R42, R44, R312). -/
def execLightDetect (photodiode : Bool) (s : State) : Res :=
  let mark (l : LightWin) : LightWin := if photodiode then { l with pd := true } else { l with can := true }
  let a := lightDue s
  onlyIf (sensing s && (photodiode || powered s)) s
    (if a.tmp.light.openAt.isSome then updTmp (fun t => { t with light := mark t.light }) (raise 1 .a 0 a)
     else if isActive a 1 .a then raise 1 .a 0 a
     else
       raise 1 .a (noReading a)
         (updTmp (fun t => { t with light := mark { openAt := some a.now } }) (draw a)))

/-- LIGHT_AGREEMENT_END: 100 µs after the first detection a detector that stood alone is counted, and the records that waited
are written (R312). -/
def execLightAgreementEnd (s : State) : Res := onlyIf (sensing s && lightOver s) s (lightEnd s)

/-- LOOP_MEASURE: an enabled loop is measured every 1 ms; outside 2 to 50 kΩ it raises the loop alarm (R313). -/
def execLoopMeasure (loop tenOhms : Nat) (s : State) : Res :=
  let a := sense (6 + loop) (tenOhms % 2 ^ 16) (updTmp (fun t => { t with loopAt := t.loopAt.set loop s.now }) s)
  onlyIf (sensing s && loop < 2 && s.tmp.loopEn.getLsbD loop && s.now ≥ s.tmp.loopAt.getD loop 0 + 1000 &&
      tenOhms ≤ 0xFFFF) s
    (if tenOhms < 200 || tenOhms > 5000 then raise (2 + loop) .a (10 * tenOhms) a else a)

/-- A rail's source and sensor. -/
def railSource : Rail → Nat
  | .core => 4 | .sram => 5 | .io => 6 | .vbat => 7

/-- A rail beyond its class B threshold (R311). -/
def railB (r : Rail) (mv : Nat) : Bool :=
  match r with
  | .core => mv < 500 || mv > 880
  | .sram => mv < 680 || mv > 830
  | .io => mv < 1580 || mv > 2020
  | .vbat => false

/-- A rail beyond its advisory threshold (R311). -/
def railC (r : Rail) (mv : Nat) : Bool :=
  match r with
  | .io => mv < 1670 || mv > 1930
  | .vbat => mv < 2500
  | _ => false

/-- A reading beyond the class B threshold, then one beyond the class C threshold, each its own alarm (R311). -/
def raiseBoth (source value : Nat) (isB isC : Bool) (s : State) : State :=
  let a := if isB then raise source .b value s else s
  if isC then raise source .c value a else a

/-- VOLTAGE_ALARM: a reading of a supply (R311). -/
def execVoltageAlarm (rail : Rail) (millivolts : Nat) (s : State) : Res :=
  onlyIf (powered s) s
    (raiseBoth (railSource rail) millivolts (railB rail millivolts) (railC rail millivolts)
      (sense (railSource rail - 4) (millivolts % 2 ^ 16) s))

/-- CLOCK_ALARM: a short pulse on an internal clock, or a frequency error (R311). -/
def execClockAlarm (cond : ClockCond) (s : State) : Res :=
  onlyIf (powered s) s
    (match cond with
     | .glitch => raise 8 .b (noReading s) (draw s)
     | .freq ppm =>
       raiseBoth 9 (ppm % 2 ^ 32).toNat (ppm > 50000 || ppm < -50000) (ppm > 10000 || ppm < -10000)
         (sense 5 (enc16 ppm) s)
     | .fabric ppm => if ppm > 50000 || ppm < -50000 then raise 9 .b (ppm % 2 ^ 32).toNat s else s
     | .absent => raise 9 .b (noReading s) (draw s))

/-- TEMPERATURE_ALARM: a reading of the hottest die sensor, in 0.1 °C (R311). -/
def execTemperatureAlarm (tenths : Int) (s : State) : Res :=
  onlyIf (powered s) s
    (raiseBoth 10 (tenths % 2 ^ 32).toNat (tenths > 1250 || tenths < -450) (tenths > 1100) (sense 4 (enc16 tenths) s))

/-- SOURCE_INACTIVE: a source whose condition has been absent for 1 ms is no longer active, from then on; in reset the backup
domain times it by its own clock (R311, R322; log entry 50). -/
def execSourceInactive (source : Nat) (cls : AlarmClass) (s : State) : Res :=
  if !sensing s then
    onlyIf (cls == .a && s.bbr.active.all (fun x => x.1 != source || s.bbr.clock ≥ x.2 + 1000)) s
      { s with bbr := { s.bbr with active := s.bbr.active.filter (fun x => x.1 != source) } }
  else
    match s.tmp.active.find? (fun x => x.source == source && x.cls == cls) with
    | none => .next s
    | some x =>
      onlyIf (s.now ≥ x.at_ + 1000) s
        (updTmp (fun t => { t with
          active := t.active.filter (fun x => !(x.source == source && x.cls == cls))
          lastAB := if cls == .c then t.lastAB else max t.lastAB (x.at_ + 1000) }) s)

/-! ### Recovery -/

/-- No class A or B source has been active for `us` µs (R316, R317). -/
def quiet (s : State) (us : Nat) : Bool := !s.tmp.active.any (fun x => x.cls != .c) && s.now ≥ s.tmp.lastAB + us

/-- TMP_RESUME: a stopped data path runs again where the hold-off is met; otherwise the write is counted (R316). -/
def execTmpResume (p : Port) (s : State) : Res :=
  let a := legTouch p (cntWr p s)
  onlyIf (wr p .tmp s) s
    (if !s.tmp.dataStop then a
     else if quiet s (1000 * s.tmp.holdoff) then updTmp (fun t => { t with dataStop := false }) (seqd a)
     else updTmp (fun t => { t with resumeDeny := satInc 16 t.resumeDeny }) a)

/-- RNG_AUTO_RESTART: after a class A alarm the chain starts again once no class A or B source has been active for 100 ms
(R317). -/
def execRngAutoRestart (s : State) : Res :=
  onlyIf (powered s && !inFault s && s.tmp.rngRestart && s.rng.state == .stopped && quiet s 100000) s
    (rngStart (updTmp (fun t => { t with rngRestart := false }) s))

/-- TMP_SELFTEST: the secure world tests each light detector; one that does not respond raises a class C alarm (R312). -/
def execTmpSelftest (photodiodesOk canariesOk : Bool) (s : State) : Res :=
  let a := updTmp (fun t => { t with testPd := if photodiodesOk then 1 else 2, testCan := if canariesOk then 1 else 2 }) s
  onlyIf (live s && s.wld.secure.state == .running) s
    (if photodiodesOk && canariesOk then a else raise 11 .c (noReading a) (draw a))

/-- BACKUP_ALARM: with main power off, or in reset, a photodiode or a sensed loop zeroises the vault shares and the seal value,
and its record goes to the alarm buffer; a source that is active stays so (R311, R314, R322; log entry 50). -/
def execBackupAlarm (source reading : Nat) (s : State) : Res :=
  let b := s.bbr
  let sensed := source == 1 || (source == 2 && b.loops.getLsbD 0) || (source == 3 && b.loops.getLsbD 1)
  let old := b.active.any (fun x => x.1 == source)
  let now := (source, b.clock) :: b.active.filter (fun x => x.1 != source)
  let a := { s with bbr := { b with share0 := 0, share1 := 0, dseal := 0, active := now } }
  let seen := source == 1 || reading < 2000 || reading > 50000
  onlyIf (s.chp.inReset && sensed && seen) s
    (if old then { s with bbr := { b with active := now } }
     else
       bufferAlarm
         (alarmBytes s { source := source, cls := .a, value := reading } (if b.onVbat then 2 else 0)
           (if source == 1 then 1 else 0) b.lastTime (if b.onVbat then b.aon * 32768 / 1000000 else 0)) a)

end Sys2Proof.Machine
end

