-- ==== Sys2Proof/Machine/Boot.lean ====
section
/-! DEFINITION. PORST_N, the boot sequence and the test tokens that let it go on
(18_manifest_boot_update.md R350-R360, R335-R342, R320-R323, R405). -/
namespace Sys2Proof.Machine

/-! ### PORST_N (R405) -/

/-- A flush that loses its supply: a free number of its pages are written, and the next may be torn (R329). -/
def cutFlush (s : State) : Evr :=
  if !s.evr.flushing || s.evr.full then s.evr
  else
    let a := overflowEnd s
    let ps := paginate (flushSet a).1 [] 0
    let k := drawn s % (ps.length + 1)
    let e := (flushPages (attestSeedOf a) a.chp.bootCnt a.now (ps.take k) a.evr).1
    if k < ps.length && !pageBlocked e && Config.freeNat (s.free + 1) % 2 == 1 then
      let f := beginBlock e
      { f with tornPages := f.tornPages ++ [(f.page, ((ps.getD k []).headD {}).seq)], page := f.page + 1 }
    else e

/-- The SEQ after the highest one in the partition; 0 where it holds no record (R326). -/
def nextAfter (e : Evr) : Nat :=
  match e.flushed with
  | [] => 0
  | x :: xs => (xs.foldl (fun m y => if seqFrom m y.2.seq then y.2.seq else m) x.2.seq + 1) % 2 ^ 32

/-- What of the event recorder survives PORST_N: the partition and its chain (R326, R329-R331). -/
def evrKept (e : Evr) : Evr :=
  { flushed := e.flushed, page := e.page, flushedSeq := e.flushedSeq, floor := e.floor, chain := e.chain
    lastSeal := e.lastSeal, sealCnt := e.sinceSeal, sinceSeal := e.sinceSeal, sealFirst := e.sealFirst
    lastChained := e.lastChained, sig := e.sig, floorDue := e.floorDue, tornPages := e.tornPages
    nextSeq := nextAfter e }

/-- What of the vault survives PORST_N: the two devices but for the counts since it, and which ids were issued (R222, R236). -/
def vltKept (v : Vault) : Vault :=
  { a := { v.a with ce := 0, fail := 0 }, b := { v.b with ce := 0, fail := 0 }
    spent := if v.firstId < v.nextId then v.spent ++ [(v.firstId, v.nextId)] else v.spent }

/-- A commit that PORST_N cuts: its record is on neither device, torn or whole on vault A, or torn or whole on vault B too;
which is free (R35, R37, R224). VAULT_INIT's leaves no trace (log entry 34). -/
def cutCommit (s : State) : Vault :=
  match (tkeys s.vlt.props (fun _ p => p.used && p.begun)).head? with
  | none => s.vlt
  | some i =>
    let k := Config.freeNat (s.free + 2) % 5
    let y := jrecBytes (vaultMacKey s) (commitRec i s)
    let part (code : Nat) (whole : Bool) (d : VaultDev) : VaultDev := if takesPart code then putRing y whole d else d
    if rOp (propOf s i).record == 0x30 then s.vlt
    else
      { s.vlt with
        a := if k == 0 then s.vlt.a else part s.vlt.devA (k ≥ 2) s.vlt.a
        b := if k < 3 then s.vlt.b else part s.vlt.devB (k == 4) s.vlt.b }

/-- PORST_N_ASSERT: every register and all volatile state return to reset; fuses, flash, the vault devices and the backup
domain stay, a fuse burn in progress as far as it got; an alarm's response is hardware's and completes first (R314, R340, R347,
R405). -/
def execPorstNAssert (s : State) : Res :=
  let s := if s.chp.inReset then s else settleAlarms s
  let torn := if s.lcs.burning then tornBurn s else s.fuses
  let fuses := if s.fwu.arbAt.isSome && Config.freeNat (s.free + 3) % 2 == 1 then burnArb (arbCount torn + 1) torn else torn
  onlyIf (!s.chp.inReset) s
    { State.reset with
      pending := s.pending, out := s.out, free := s.free + 4, fuses := fuses, flash := s.flash
      bbr := { s.bbr with lastTime := s.now, copied := false }, evr := evrKept (cutFlush s), vlt := vltKept (cutCommit s)
      fwu := { vaultFmt := s.fwu.vaultFmt, migCommits := s.fwu.migCommits, arbDue := s.fwu.arbDue, actDone := s.fwu.actDone
               migPct := if s.fwu.migCommits > 0 then s.fwu.migPct else 0 } }

/-! ### Fuses at boot (R336, R341) -/

/-- The life-cycle state is decoded; copies that lack bits of its codeword are repaired unless PFAIL_N is asserted
(R336, R341, R356). -/
def fuseBoot (s : State) : State :=
  let st := decodeLife s.fuses
  let w := BitVec.ofNat 32 (codeword (lifeCode st))
  let f := s.fuses
  let lack (c : BitVec 32) : Bool := c &&& w != w
  let beyond (c : BitVec 32) : Bool := c ||| w != w
  let fix := st != .terminal && !s.gov.pfail && (lack f.copyA || lack f.copyB || lack f.copyC)
  let more := st != .terminal && (beyond f.copyA || beyond f.copyB || beyond f.copyC)
  { s with
    fuses := if fix then { f with copyA := f.copyA ||| w, copyB := f.copyB ||| w, copyC := f.copyC ||| w } else f
    lcs := { s.lcs with state := st, repaired := fix, mismatch := more } }

/-! ### The backup domain at boot (R320-R323) -/

/-- The alarm buffer holds a class A record. -/
def foundClassA (b : Backup) : Bool := b.buffer.any (fun r => fld r 1 1 == 1)

/-- The backup domain is checked and CHP_BOOT_CNT advanced (R320, R323). -/
def backupBoot (s : State) : State :=
  let b := s.bbr
  let lost := !b.markOk
  let wrap := !lost && b.counter ≥ 0xFFFFFF
  let b1 : Backup := if lost then
      { b with share0 := 0, share1 := 0, floor := 0, dseal := 0, area := [], markOk := true, counter := 0 }
    else { b with counter := if wrap then 0 else b.counter + 1 }
  let f := if lost || wrap then { s.fuses with bdEpoch := min 255 (s.fuses.bdEpoch + 1) } else s.fuses
  { s with
    bbr := { b1 with active := [] }, fuses := f
    chp := { s.chp with bootCnt := f.bdEpoch * 2 ^ 24 + b1.counter }
    tmp := { s.tmp with bdLost := lost, alarmedBoot := foundClassA b } }

/-! ### Image and manifest selection (R351, R359, R360) -/

/-- The manifest copy selected: 0 none, 1 A, 2 B, with the first failing check of each copy (R351). -/
structure MnfChoice where
  copy : Nat := 0
  man : ManifestCheck := {}
  aFail : Nat := 0
  bFail : Nat := 0
deriving DecidableEq, Repr

/-- Copy A, else copy B, against an image's MNF_FMT_MAX (R351). -/
def chooseManifest (s : State) (fmtMax : Nat) : MnfChoice :=
  let anchor := anchorOf s.lcs.state s.lcs.unlocked s.fuses
  let a := checkManifest anchor fmtMax s.flash.manA
  if a.fail == 0 then { copy := 1, man := a }
  else
    let b := checkManifest anchor fmtMax s.flash.manB
    if b.fail == 0 then { copy := 2, man := b, aFail := a.fail } else { aFail := a.fail, bFail := b.fail }

/-- The selected manifest's fields; none in SERVICE mode. -/
def choiceFields (c : MnfChoice) : Manifest := if c.copy == 0 then {} else readManifest c.man.tlv

/-- The checks of R360 on slot `n`; what they select where the slot passes. -/
def trySlot (s : State) (n : Nat) : Option MnfChoice :=
  let img := slotImage s n
  let m := chooseManifest s (fld img 44 2)
  if headerCheck s img != 0 then none
  else if mnfVal (choiceFields m) 0x0060 == 1 && !cosigned m.man.keyAlg m.man.key img then none
  else if !bodyOk img then none
  else some m

/-- The slot that starts, with its manifest: the ACTIVE one, else the other; none is firmware recovery (R359, R360). -/
def pickSlot (s : State) : Option (Nat × MnfChoice) :=
  let act := ((standingCtl s.flash).map (·.1.active)).getD 0
  match trySlot s act with
  | some m => some (act, m)
  | none => (trySlot s (1 - act)).map (fun m => (1 - act, m))

/-- The manifest's report and its registers outside the other blocks (R349, R353, R354, R413). -/
def mnfBlock (service : Bool) (c : MnfChoice) (m : Manifest) : Mnf :=
  { copy := c.copy, service := service, aFail := c.aFail, bFail := c.bFail
    reports := m.reports.take 256, reportOvf := m.reports.length > 256
    signer := c.man.signer, depth := c.man.depth
    serial := fld c.man.bytes 16 4, format := fld c.man.bytes 4 2
    digest := if c.copy == 0 then zeros 32 else sha3_256 c.man.bytes
    legacyWrite := mnfVal m 0x0012 == 1, fwCosign := mnfVal m 0x0060 == 1, refreshDays := mnfVal m 0x0050
    nsid := mnfVal m 0x0011, smbAddr := mnfVal m 0x0061, subsysVid := mnfVal m 0x0001, subsysId := mnfVal m 0x0002
    keyAlg := c.man.keyAlg, key := c.man.key }

/-- The manifest's values in the registers they reset (R353, R413). -/
def applyManifest (m : Manifest) (s : State) : State :=
  let v := mnfVal m
  let pers := m.pers.getD unitId16
  { s with
    mdf := { s.mdf with laneBudget := v 0x0010 }
    gov := { s.gov with pwrCap := v 0x0013, floor := v 0x0014, ceil := v 0x0015 }
    rng := { s.rng with debiasCfg := v 0x0020 == 1, pers := padTo 48 pers, persLen := pers.length }
    wld := { s.wld with
      memMode := v 0x0030 == 1, predMode := v 0x0031 == 1, assign := v 0x0032
      secure := { s.wld.secure with wdt := v 0x0033 }, normal := { s.wld.normal with wdt := v 0x0034 } }
    tmp := { s.tmp with loopEn := BitVec.ofNat 2 (v 0x0040) }
    bbr := { s.bbr with loops := BitVec.ofNat 2 (v 0x0040) } }

/-- The event partition opened, and the BOOT record, the first of the boot, with the records that waited for it behind it; after a
VAULT_INIT the floor is its SEQ (R326, R327, R333). -/
def openEvents (s : State) : State :=
  let e := { s.evr with
    devs := 3, torn := min 0xFFFF s.evr.tornPages.length, flushAt := s.now, booted := true, early := [], full := pageBlocked s.evr }
  let a := { s with evr := { e with freeBlocks := countFree e } }
  let torn := (s.evr.tornPages.head?.map (·.2)).getD 0xFFFFFFFF
  let b := record .boot
    (natLe 4 s.chp.bootCnt ++ natLe 4 0x7416A001 ++ padTo 8 s.fwu.ver ++ natLe 4 torn ++ zeros 4) a
  let c := s.evr.early.foldl (fun s r => recordAt r.type r.time r.payload s) b
  fullInt false
    (if s.evr.floorDue then updEvr (fun e => { e with floorDue := false }) (setFloor s.evr.nextSeq c) else c)

/-- A MANIFEST record for each report entry (R327, R354). -/
def mnfRecords (m : Manifest) (s : State) : State :=
  m.reports.foldl (fun s r =>
    record .manifest (natLe 2 r.field ++ zeros 2 ++ natLe 4 r.read ++ natLe 4 r.applied ++ zeros 4) s) s

/-- The worlds start on an image, measured as its header says (R355, R357). -/
def worldsStart (img : Bytes) (s : State) : State :=
  updWld (fun w => { w with
    secure := { w.secure with state := .running, kickAt := s.now, meas := padTo 48 (sub img 96 48) }
    normal := { w.normal with state := .running, kickAt := s.now, meas := padTo 48 (sub img 144 48) } }) s

/-- A burn of the anti-rollback counter that an earlier boot deferred, completed to the active image's version before host-ready;
deferred again while PFAIL_N is asserted (R366). -/
def advanceArb (s : State) : State :=
  if s.gov.pfail then updFwu (fun f => { f with arbDue := true }) s
  else
    let n := imgSec (slotImage s s.fwu.active)
    updFwu (fun f => { f with arbDue := false }) { s with fuses := burnArb n s.fuses }

/-- The vault's format is one that an image migrates (R365). -/
def migrates (s : State) (img : Bytes) : Bool :=
  s.fwu.vaultFmt != fld img 40 2 && fld img 42 2 ≤ s.fwu.vaultFmt && s.fwu.vaultFmt < fld img 40 2

/-- The host ports leave reset where their PERST is deasserted: link training starts (R48). -/
def startPorts (env : BootEnv) (s : State) : State :=
  let one (p : Port) (h : HptPort) : HptPort := { h with perst := env.perst.get p, training := !env.perst.get p }
  let a := { s with hpt := ⟨one .a (s.hpt.get .a), one .b (s.hpt.get .b)⟩ }
  let b := if env.perst.get .a then a else emit (.link .a 1) a
  if env.perst.get .b then b else emit (.link .b 1) b

/-- The LPDDR5X packages trained, or found unfit (R381). -/
def memTrained (env : BootEnv) (m : Mem) : Mem :=
  { m with capacity := if env.memOk then env.capacity else 0, trained := env.memOk, cfgErr := !env.memOk }

/-- A boot whose image starts (R355): the manifest applied, the recorder open, the random chain and both worlds started, boot
lock, then what an earlier boot had to defer (R339, R366). -/
def bootImage (env : BootEnv) (n : Nat) (c : MnfChoice) (s : State) : State :=
  let img := slotImage s n
  let ctl := (standingCtl s.flash).map (·.1)
  let service := c.copy == 0 || s.lcs.state == .return_
  let m := choiceFields c
  let onTrial := (ctl.map (fun x => x.trial && x.active == n)).getD false
  let vals : Manifest := if service then {} else m
  let a := applyManifest vals { s with
    mnf := { mnfBlock service c vals with reports := m.reports.take 256, reportOvf := m.reports.length > 256 }
    fwu := { s.fwu with
      active := n, trial := (ctl.map (·.trial)).getD false, fallback := (ctl.map (·.active)).getD 0 != n
      activating := onTrial, ver := sub img 8 8, migrating := onTrial && migrates s img
      migFrom := if onTrial && migrates s img then s.fwu.vaultFmt else 0
      migTo := if onTrial && migrates s img then fld img 40 2 else 0 }
    mem := memTrained env s.mem }
  let b := worldsStart img (rngStart (mnfRecords m (openEvents a)))
  let d := seqd { b with
    chp := { b.chp with mode := if service then .service else .running, bootLock := true }
    wld := { b.wld with assignLock := true } }
  let e := if d.fwu.arbDue then advanceArb d else d
  if e.lcs.state == .field && (openVault e).img.returnDue then transStart 7 e else e

/-- A boot in firmware recovery: the boot ROM alone, with the manifest that format 1 selects, memory trained as in any boot (R355,
R359, R360, R381). -/
def bootRecovery (env : BootEnv) (s : State) : State :=
  let c := chooseManifest s 1
  let m := choiceFields c
  { s with
    mnf := mnfBlock (c.copy == 0) c m
    fwu := { s.fwu with active := ((standingCtl s.flash).map (·.1.active)).getD 0, recovery := true }
    mem := memTrained env s.mem
    chp := { s.chp with mode := .recovery } }

/-- This boot has a BD_EPOCH step to burn: the backup domain is lost or its counter wraps (R323). -/
def epochDue (s : State) : Bool := !s.bbr.markOk || s.bbr.counter ≥ 0xFFFFFF

/-- The boot from the backup domain on (R355). -/
def bootRest (env : BootEnv) (s : State) : State :=
  let a := backupBoot s
  let b := match pickSlot a with
    | some (n, c) => bootImage env n c a
    | none => bootRecovery env a
  startPorts env b

/-- The boot goes on with what it sampled; while PFAIL_N is asserted, a boot that has a BD_EPOCH step to burn waits for its
deassertion (R323, R395; log entry 29). -/
def bootOn (env : BootEnv) (s : State) : State :=
  if s.gov.pfail && epochDue s then { s with chp := { s.chp with waitEnv := some env } }
  else bootRest env { s with chp := { s.chp with waitEnv := none } }

/-- The life-cycle state stops the boot before its firmware (R355). -/
def bootStops (s : State) : Bool :=
  match s.lcs.state with
  | .raw => true
  | .test0 | .test1 | .test2 | .test3 => !s.lcs.unlocked
  | _ => false

/-- BOOT: PORST_N is deasserted; straps are sampled, the fuses read, and the boot runs up to host-ready, or stops in RAW and in
a locked TEST state; in TERMINAL only the ports start (R335, R355, R419). -/
def execBoot (env : BootEnv) (s : State) : Res :=
  let a := { s with
    chp := { s.chp with inReset := false }
    pins := { pfail := env.pfail, haClkmode := env.haClkmode, hbClkmode := env.hbClkmode, drbHead := env.drbHead }
    gov := { s.gov with pfail := env.pfail }
    drb := { s.drb with head := env.drbHead, selIn := env.selIn } }
  let b := fuseBoot a
  onlyIf s.chp.inReset s
    (if b.lcs.state == .terminal then startPorts env b
     else if bootStops b then { b with chp := { b.chp with waitEnv := some env } }
     else bootOn env b)

/-! ### Test tokens (R342) -/

/-- The token matches the hash of its index. -/
def tokenMatches (s : State) (index : Nat) (token : Bytes) : Bool :=
  let h := tget [] s.fuses.tokenHash index
  !h.isEmpty && h == (sha3_256 (unitId16 ++ padTo 16 token ++ natLe 1 index)).take 16

/-- FUSE_BURN_DONE: a transition ends; where it brings a boot that stopped in RAW into an unlocked TEST state, the boot goes on
(R339, R342, R355). -/
def execFuseBurnDone (s : State) : Res :=
  let a := transEnd s
  onlyIf (powered s && s.lcs.burning && s.now ≥ s.lcs.burnFrom + 12600) s
    (match s.chp.waitEnv with
     | some env => if bootStops s && !bootStops a && !inFault s then bootOn env a else a
     | none => a)

/-- A token whose USED bit has been burned takes effect: a locked TEST state is unlocked and its boot goes on, elsewhere it
permits the next transition (R342, R355). -/
def tokenEffect (s : State) : State :=
  if s.lcs.state != .raw && !s.lcs.unlocked then
    let a := updLcs (fun l => { l with unlocked := true }) s
    match s.chp.waitEnv with
    | some env => if inFault s then a else bootOn env a
    | none => a
  else updLcs (fun l => { l with tokenReady := true }) s

/-- TOKEN_USE: a token presented through the LCS TAP burns its USED bit and takes effect; a wrong one is counted, a used one
refused; after eight wrong ones presentations are ignored (R342). -/
def execTokenUse (index : Nat) (token : Bytes) (s : State) : Res :=
  let s := jtagSelect .lcsWrite s
  let test := match s.lcs.state with | .raw | .test0 | .test1 | .test2 | .test3 => true | _ => false
  onlyIf (tapWrites s && test && index < 16 && s.lcs.tokenFails < 8) s
    (if s.fuses.tokenUsed.getLsbD index then updLcs (fun l => { l with transStat := 4 }) s
     else if !tokenMatches s index token then updLcs (fun l => { l with tokenFails := l.tokenFails + 1 }) s
     else if s.gov.pfail then updLcs (fun l => { l with transStat := 3 }) s
     else tokenEffect { s with fuses := { s.fuses with tokenUsed := s.fuses.tokenUsed ||| (1 <<< index) } })

end Sys2Proof.Machine
end

