-- ==== Sys2Proof/Machine/Firmware.lean ====
section
/-! DEFINITION. Staging and scheduled activation (18_manifest_boot_update.md R361-R367). -/
namespace Sys2Proof.Machine

/-! ### Staging (R361, R362) -/

/-- An activation record is pending: committed in the vault, and not begun yet (R363). -/
def actPending (s : State) : Bool := !s.vlt.img.activation.isEmpty && s.vlt.img.activation != s.fwu.actDone

/-- The manifest flash address of a firmware slot (R348). -/
def slotAddr (n : Nat) : Nat := if n == 0 then 0x00010000 else 0x01010000

/-- A firmware slot's contents replaced, with the bytes written to the flash. -/
def putSlot (n : Nat) (written kept : Bytes) (s : State) : State :=
  flashWrite (slotAddr n) written (fun f => if n == 0 then { f with slot0 := kept } else { f with slot1 := kept }) s

/-- The inactive slot's header sector erased: the slot holds no image any more (R361). -/
def eraseSlot (s : State) : State := putSlot (otherSlot s) (List.replicate 4096 0xFF) [] s

/-- A stage ends with a code of STAGE_RESULT: 0 is done (R361, R408). -/
def stageEnd (code : Nat) (s : State) : State :=
  setInt s.fwu.stagePort 16
    (updFwu (fun f => { f with stage := if code == 0 then 2 else 3, stageResult := code, stageData := none }) s)

/-- A stage starts through port `p`: refused while another runs, while an activation is pending or on trial, and while PFAIL_N
is asserted; otherwise its data is read through the port without a PASID (R361, R362). -/
def stageStart (p : Port) (target most : Nat) (s : State) : State :=
  let f := s.fwu
  let b := updFwu (fun f => { f with stagePort := p }) s
  if f.stage == 1 then updFwu (fun f => { f with stageResult := 12 }) s
  else if actPending s || f.trial || f.activating then stageEnd 11 b
  else if s.gov.pfail then stageEnd 13 b
  else if f.len > most then stageEnd 9 b
  else
    let a := updFwu (fun f => { f with
      stage := 1, stageResult := 0, stagePort := p, stageTarget := target, stageLen := f.len
      stageData := if f.len == 0 then some [] else none }) s
    if f.len == 0 then a else dmaRead .stage p none (addr64 f.addrLo f.addrHi) f.len a

/-- STAGE_IMAGE: FWU_STAGE_CMD with GO and TARGET 0 (R361). -/
def execStageImage (p : Port) (s : State) : Res :=
  let a := stageStart p 0 slotLen (seqd (legTouch p (cntWr p s)))
  onlyIf (wr p .fwu s) s (if s.fwu.stage != 1 && a.fwu.stage == 1 then eraseSlot a else a)

/-- STAGE_MANIFEST: FWU_STAGE_CMD with GO and TARGET 1 (R362). -/
def execStageManifest (p : Port) (s : State) : Res :=
  onlyIf (wr p .fwu s) s (stageStart p 1 65536 (seqd (legTouch p (cntWr p s))))

/-- STAGE_ABORT: a running stage stops; the slot has no valid header (R361). -/
def execStageAbort (p : Port) (s : State) : Res :=
  let a := seqd (legTouch p (cntWr p s))
  onlyIf (wr p .fwu s) s
    (if s.fwu.stage == 1 then updFwu (fun f => { f with stage := 0, stageResult := 0, stageData := none }) a else legTouch p (cntWr p s))

/-- A staged image written, its body first and its header last, and read back (R358, R361): its version is recorded. -/
def stageImageEnd (data : Bytes) (s : State) : State :=
  let n := otherSlot s
  let body := emit (.manifestWrite (slotAddr n + hdrLen) (data.drop hdrLen)) s
  let a := putSlot n (data.take hdrLen) data body
  fwRecord 1 n (sub data 8 8) (stageEnd (imageCheck a a.mnf.fwCosign data) a)

/-- The newest manifest format that staging accepts (R360, R362). -/
def fmtMaxNow (s : State) : Nat := if s.fwu.recovery then 1 else fld (slotImage s s.fwu.active) 44 2

/-- A staged manifest checked, then written to copy B, read back, and written to copy A; a flash failure loses the copy being
written, which of the two is open (R351, R362). -/
def stageManifestEnd (data : Bytes) (flashOk : Bool) (s : State) : State :=
  let c := checkManifest (anchorOf s.lcs.state s.lcs.unlocked s.fuses) (fmtMaxNow s) (some data)
  if c.fail != 0 then stageEnd 14 s
  else if flashOk then
    let a := flashWrite 0x01000000 data (fun f => { f with manB := some data }) s
    fwRecord 1 2 (natLe 4 (fld data 16 4)) (stageEnd 0 (flashWrite 0 data (fun f => { f with manA := some data }) a))
  else if drawn s % 2 == 0 then
    stageEnd 10 (draw (flashWrite 0x01000000 data (fun f => { f with manB := none }) s))
  else
    let a := flashWrite 0x01000000 data (fun f => { f with manB := some data }) s
    stageEnd 10 (draw (flashWrite 0 data (fun f => { f with manA := none }) a))

/-- STAGE_DONE: the data has arrived; the flash takes it, or fails (R361, R362). -/
def execStageDone (flashOk : Bool) (s : State) : Res :=
  let d := s.fwu.stageData.getD []
  onlyIf (powered s && (live s || s.chp.mode == .recovery) && s.fwu.stage == 1 && s.fwu.stageData.isSome && !s.gov.pfail) s
    (if s.fwu.stageTarget == 1 then stageManifestEnd d flashOk s
     else if flashOk then stageImageEnd d s
     else stageEnd 10 s)

/-! ### Activation (R363-R367) -/

/-- ACT_TIME of the record. -/
def actTime (s : State) : Nat := fld s.vlt.img.activation 8 8

/-- ADVANCE_ARB of the record that was begun last. -/
def wantsArb (s : State) : Bool := bit (fld s.fwu.actDone 4 4) 0

/-- An activation ends with a code of ACT_RESULT. -/
def actEnd (code : Nat) (s : State) : State := setIntBoth 15 (updFwu (fun f => { f with actResult := code }) s)

/-- Both worlds stopped as their restarts stop them; nothing is counted (R305, R306, R364). -/
def stopWorlds (s : State) : State :=
  updWld (fun w => { w with
    secure := { w.secure with aborts := s.wld.secure.aborts }
    normal := { w.normal with aborts := s.wld.normal.aborts } }) (normalStop (secureStop s))

/-- Both worlds run an image of slot `n`: measurements, version and running slot (R364). -/
def runSlot (n : Nat) (s : State) : State :=
  let img := slotImage s n
  worldsStart img (updFwu (fun f => { f with active := n, ver := sub img 8 8 }) s)

/-- The device falls back: PREVIOUS is reloaded, ACTIVE and CONFIRMED again (R365). -/
def fallBack (code : Nat) (s : State) : State :=
  let prev := ((standingCtl s.flash).map (·.1.previous)).getD s.fwu.active
  actEnd code (updFwu (fun f => { f with
    trial := false, activating := false, migrating := false, migFrom := 0, migTo := 0, migPct := 0
    fallbacks := satInc 16 f.fallbacks }) (writeCtl prev false prev (runSlot prev s)))

/-- The new image is loaded, measured and on trial (R364, R365). -/
def loadNew (n : Nat) (s : State) : State :=
  let img := slotImage s n
  let old := s.fwu.active
  let a := writeCtl n true old (runSlot n s)
  let mig := migrates s img
  if s.fwu.vaultFmt != fld img 40 2 && !mig then fallBack 4 a
  else
    updFwu (fun f => { f with
      trial := true, activating := true, migrating := mig, migFrom := if mig then f.vaultFmt else 0
      migTo := if mig then fld img 40 2 else 0, migPct := 0, migCommits := 0 }) a

/-- Slot control as it stands, with STATE CONFIRMED (R365, R367). -/
def confirmCtl (s : State) : State :=
  match standingCtl s.flash with
  | some (c, _) => writeCtl c.active false c.previous s
  | none => writeCtl s.fwu.active false s.fwu.active s

/-- The count that the running image's version asks for, of 64 steps (R347). -/
def arbTarget (s : State) : Nat := min 64 (imgSec (slotImage s s.fwu.active))

/-- The secure world begins to burn the anti-rollback counter up, one step at a time; PFAIL_N defers it to the next boot
(R347, R366). -/
def arbBegin (s : State) : State :=
  if arbTarget s ≤ arbCount s.fuses then s
  else updFwu (fun f => { f with arbDue := true, arbAt := if s.gov.pfail then none else some s.now }) s

/-- A confirm-only activation: nothing is stopped or loaded (R367). -/
def confirmOnly (s : State) : State :=
  let n := s.fwu.active
  let a := if s.fwu.trial then updFwu (fun f => { f with trial := false, activating := false }) (confirmCtl s) else s
  let b := if wantsArb a then arbBegin a else a
  actEnd 1 (fwRecord 2 n s.fwu.ver b)

/-- The pending activation can begin: the vault is open, PFAIL_N is not asserted, and while an image is on trial the record
confirms it (R364, R367). -/
def actReady (s : State) : Bool :=
  live s && s.chp.vaultOpen && actPending s && !s.gov.pfail &&
    (!s.fwu.activating ||
      (headerDigest (slotImage s s.fwu.active) == sub s.vlt.img.activation 16 48 && !s.fwu.migrating))

/-- A time mark that a unit in a chain receives or sends, or a tick of a unit without a chain, is the barrier where it is the
first at or past ACT_TIME that finds the activation ready (R43, R364, R379). -/
def markBarrier (mark : Nat) (s : State) : State :=
  if s.fwu.firstMark.isNone && actTime s ≤ mark && actReady s then updFwu (fun f => { f with firstMark := some mark }) s else s

/-- A unit strapped as head with no member has no chain (R379). -/
def standsAlone (s : State) : Bool := s.drb.head && !tany s.drb.members (fun _ m => m.state != 0)

/-- A tick of a unit without a chain is its time mark (R364, R379). -/
def aloneMark (s : State) : State := if standsAlone s then markBarrier s.now s else s

/-- ACTIVATION_BARRIER: the first time mark, or the first tick of a unit without a chain, at or past ACT_TIME begins the pending
activation (R364, R367); while an image is on trial only one that confirms it. -/
def execActivationBarrier (mark : Nat) (s : State) : Res :=
  let rec_ := s.vlt.img.activation
  let a := seqd (updFwu (fun f => { f with actDone := rec_, firstMark := none, actCnt := satInc 16 f.actCnt }) s)
  let n := otherSlot s
  let running := headerDigest (slotImage s s.fwu.active) == sub rec_ 16 48
  let b := stopWorlds a
  let stopped := updWld (fun w => { w with
    secure := { w.secure with state := .running, kickAt := s.now }
    normal := { w.normal with state := .running, kickAt := s.now } }) b
  onlyIf (actReady s && s.fwu.firstMark == some mark) s
    (if running then confirmOnly a
     else if imageCheck s s.mnf.fwCosign (slotImage s n) != 0 || headerDigest (slotImage s n) != sub rec_ 16 48 then
       actEnd 2 stopped
     else loadNew n b)

/-- The headers of the devices that take part, rewritten with the new format once a migration is complete (R222, R365). -/
def headersAt (all : Bool) (s : State) : State :=
  let w (code : Nat) (d : VaultDev) : VaultDev :=
    if all && takesPart code then putHeader (vaultMacKey s) s.fwu.migTo s.vlt.id d else d
  updVlt (fun v => { v with a := w v.devA v.a, b := w v.devB v.b }) s

/-- What a device answers to a write of the migration: free, as for every commit (R226; log entry 90). -/
def freeProg (s : State) : ProgResult :=
  match drawn s % 6 with
  | 4 => .failed
  | 5 => .silent
  | n => .written n

/-- How far the migration is after the next page group: a free amount (R365). -/
def migNext (s : State) : Nat := min 100 (s.fwu.migPct + 1 + drawn s % 100)

/-- The vault's contents once the migration has come to `p`. -/
def migImg (p : Nat) (s : State) : VaultImg := { s.vlt.img with migrated := p }

/-- The next commit of a migration can run: it keeps to the limits of every commit (R225, R230, R365). -/
def migFree (s : State) : Bool :=
  vaultLive s && commitFree s && journalRoom (jrecPages (jrec .commit 0 (migImg 100 s) s)) s

/-- One page group migrated by a commit of both journals, whose failures end as any commit's (R225, R226, R365). -/
def migrateOne (s : State) : State :=
  let p := migNext s
  let a := draw s
  let b := draw a
  let c := draw b
  let d := draw c
  let jr := jrec .commit 0 (migImg p s) s
  if !progOk (freeProg a) then commitFailA 0 (freeProg a) (jrecBytes (vaultMacKey s) jr) d
  else if !progOk (freeProg b) then commitFailB 0 jr (freeProg a) (freeProg b) (freeProg c) d
  else
    countCommit 0 (updFwu (fun f => { f with
      migPct := p, migCommits := f.migCommits + 1, migrating := p < 100, vaultFmt := if p < 100 then f.vaultFmt else f.migTo })
      (journalWith (freeProg a) (freeProg b) .commit 0 (migImg p d) (headersAt (p ≥ 100) d)))

/-- The next step of a running burn: a step lasts 2.1 ms, and the one after it starts unless PFAIL_N is asserted (R347, R366). -/
def arbNext (s : State) : State :=
  let f := burnArb (arbCount s.fuses + 1) s.fuses
  let enough := arbCount f ≥ arbTarget s
  updFwu (fun x => { x with arbDue := !enough, arbAt := if enough || s.gov.pfail then none else some s.now }) { s with fuses := f }

/-- Confirmation: CONFIRMED, the anti-rollback counter where it is wanted, the record and the result (R365, R366). -/
def confirm (s : State) : State :=
  let n := s.fwu.active
  let a := updFwu (fun f => { f with trial := false, activating := false, migCommits := 0 }) (confirmCtl s)
  let b := if wantsArb a then arbBegin a else a
  actEnd 1 (fwRecord (if s.fwu.migCommits > 0 then 3 else 2) n s.fwu.ver b)

/-- ACTIVATION_CONFIRM: the secure world of an image on trial migrates the vault one page group further, and confirms once
nothing is left to migrate; a burn that a confirmation began goes on by a step (R347, R365, R366). -/
def execActivationConfirm (s : State) : Res :=
  let ok := live s && s.chp.vaultOpen && s.fwu.activating && !s.gov.pfail && s.wld.secure.state == .running &&
    s.wld.normal.state == .running && (!s.fwu.migrating || migFree s)
  let a := if s.fwu.migrating then migrateOne s else s
  match s.fwu.arbAt with
  | some t => onlyIf (live s && s.now ≥ t + 2100) s (arbNext s)
  | none => onlyIf ok s (if inFault a || a.fwu.migrating then a else confirm a)

/-- ACTIVATION_FALLBACK: a new world has failed before confirmation; the PREVIOUS slot runs again, or the device enters FAULT
where the migration has begun; PFAIL_N defers the slot control write (R356, R365, R395). -/
def execActivationFallback (s : State) : Res :=
  let failed := s.wld.secure.state == .failed || s.wld.normal.state == .failed
  onlyIf (live s && s.fwu.activating && failed && (s.fwu.migCommits > 0 || !s.gov.pfail)) s
    (if s.fwu.migCommits > 0 then enterFault 6 s else fallBack 3 (stopWorlds s))

end Sys2Proof.Machine
end

