-- ==== Sys2Proof/Machine/Drawbar.lean ====
section
/-! DEFINITION. The drawbar chain: frames, addresses and chain time (19_drawbar_chain.md). -/
namespace Sys2Proof.Machine

/-! ### Frames (R369) -/

/-- A received frame that stands the checks of R369. -/
structure Frame where
  type : Nat
  dest : Nat
  src : Nat
  body : Bytes
deriving DecidableEq, Repr

/-- LEN of a frame type; none for a reserved one. -/
def frameLen (type : Nat) : Option Nat :=
  match type with
  | 1 => some 12 | 2 => some 4 | 3 => some 28 | 4 => some 4 | 5 => some 20 | 6 => some 16 | 7 => some 16 | 8 => some 0
  | _ => none

/-- A frame's bytes from TYPE to CRC. -/
def frameBytes (type dest src : Nat) (body : Bytes) : Bytes :=
  let d := natLe 1 type ++ natLe 1 dest ++ natLe 1 src ++ natLe 1 body.length ++ body
  d ++ natLe 2 (crc16 d)

/-- The frame in `b`; none where its CRC is bad, its TYPE reserved or its LEN above the type's (R369). -/
def readFrame (b : Bytes) : Option Frame :=
  let n := fld b 3 1
  match frameLen (fld b 0 1) with
  | none => none
  | some most =>
    if n > most || b.length != n + 6 || crc16 (b.take (4 + n)) != fld b (4 + n) 2 then none
    else some { type := fld b 0 1, dest := fld b 1 1, src := fld b 2 1, body := sub b 4 n }

/-- A frame sent. -/
def sendFrame (type dest src : Nat) (body : Bytes) (s : State) : State := emit (.drawbar (frameBytes type dest src body)) s

/-- A frame that leaves at stamp `t`: now, or queued until then (R370, R371). -/
def sendFrameAt (t type dest src : Nat) (body : Bytes) (s : State) : State :=
  if t ≤ s.now then sendFrame type dest src body s
  else updDrb (fun d => { d with queue := d.queue ++ [(t, frameBytes type dest src body)] }) s

/-- The queued frames whose time has come leave; a unit in CONFLICT drives the bus no more (R370, R371, R378). -/
def framesDue (s : State) : State :=
  let due := s.drb.queue.filter (fun x => x.1 ≤ s.now)
  if due.isEmpty then s
  else
    let a := if live s && s.drb.state != .conflict then due.foldl (fun s x => emit (.drawbar x.2) s) s else s
    updDrb (fun d => { d with queue := d.queue.filter (fun x => !(x.1 ≤ s.now)) }) a

/-- The first stamp from `t` on that lies in a command window, 20 to 180 µs after a cycle's start (R370). -/
def windowFrom (t : Nat) : Nat :=
  let o := t % 1000
  if o < 20 then t - o + 20 else if o < 180 then t else t - o + 1020

/-- A frame discarded and counted (R369). -/
def crcErr (s : State) : State := updDrb (fun d => { d with crcErr := satInc 32 d.crcErr }) s

/-- A frame received by a unit whose drawbar runs: discarded where it fails its checks, ignored where it is not of `type`,
is shorter than its type, or `ok` rejects it. -/
def onFrame (b : Bytes) (type : Nat) (ok : Frame → Bool) (f : Frame → State → State) (s : State) : Res :=
  onlyIf (live s) s
    (match readFrame b with
     | none => crcErr s
     | some x => if x.type == type && frameLen type == some x.body.length && ok x then f x s else s)

/-- DRB_STAT.STATE's code. -/
def drbCode : DrbState → Nat
  | .off => 0 | .enumerating => 1 | .locked => 2 | .slewing => 3 | .headLost => 4 | .conflict => 5

/-- A DRAWBAR record (R327, R373; log entry 30). -/
def drbRecord (kind addr : Nat) (id : Bytes) (s : State) : State :=
  record .drawbar (natLe 1 kind ++ zeros 1 ++ natLe 2 addr ++ padTo 16 id) s

/-- The world that the drawbar is assigned to runs (R297, R306). -/
def drbServed (s : State) : Bool := fnRuns s .drawbar

/-! ### The head's table (R371-R373) -/

/-- The head's entry of an address. -/
def memberOf (s : State) (a : Nat) : Member := tget {} s.drb.members a

/-- The entry of an address changed by `f`. -/
def updMember (a : Nat) (f : Member → Member) (s : State) : State :=
  updDrb (fun d => { d with members := tupd {} d.members a f }) s

/-- The member addresses. -/
def memberAddrs : List Nat := (List.range 125).map (· + 2)

/-- The lowest free address. -/
def lowestFree (s : State) : Option Nat := memberAddrs.find? (fun a => (memberOf s a).state == 0)

/-- The address that an id holds in the table, present or reserved. -/
def addrOfId (s : State) (id : Nat) : Option Nat :=
  memberAddrs.find? (fun a => (memberOf s a).state != 0 && (memberOf s a).id == id)

/-- An address freed, with its record (R373). -/
def freeAddr (a : Nat) (s : State) : State :=
  drbRecord 3 a (natLe 16 (memberOf s a).id) (updMember a (fun _ => {}) s)

/-- A device-time step forward by `e` µs (R375, R377). -/
def stepTime (e : Nat) (s : State) : State :=
  let a := { s with
    now := s.now + e
    drb := { s.drb with steps := satInc 16 s.drb.steps, stepMax := max s.drb.stepMax (min 0xFFFFFFFF e) } }
  if e > 1000 then drbRecord 8 a.drb.addr unitId16 a else a

/-- The stamps of three CLEARs: 100 µs apart from now on in the first enumeration, else in command windows (R371). -/
def clearTimes (s : State) : List Nat :=
  if s.drb.first then [s.now, s.now + 100, s.now + 200]
  else
    let a := windowFrom s.now
    let b := windowFrom (a + 100)
    [a, b, windowFrom (b + 100)]

/-- CLEAR sent three times, 100 µs apart: every member's address is free again; a reserved one stays reserved (R371). -/
def sendClear (s : State) : State :=
  let a := (clearTimes s).foldl (fun s t => sendFrameAt t 8 127 1 [] s) s
  (memberAddrs.filter (fun x => (memberOf s x).state == 1)).foldl (fun s x => freeAddr x s) a

/-- An ASSIGN offering an address goes out at `at_` (R371). -/
def sendAssign (a misses at_ : Nat) (s : State) : State :=
  updDrb (fun d => { d with offer := some (a, misses, at_), join := none }) (sendFrameAt at_ 2 0 1 (natLe 1 a ++ zeros 3) s)

/-- Enumeration ends; after the first one the head adopts the largest member time (R371, R377). -/
def enumEnd (s : State) : State :=
  let a := updDrb (fun d => { d with state := .locked, offer := none, join := none }) s
  if !s.drb.first then a
  else
    let best := s.drb.heard.foldl (fun m x => max m (x.1 + (s.now - x.2))) 0
    let b := updDrb (fun d => { d with first := false, heard := [] }) a
    let c := if best > s.now then stepTime (best - s.now) b else b
    updDrb (fun d => { d with members := tmap {} (fun _ m => { m with judged := c.now / 100000 }) d.members }) c

/-- Enumeration goes on with the lowest free address: at once in the first one, else in the next command window (R371). -/
def offerNext (s : State) : State :=
  match lowestFree s with
  | none => enumEnd s
  | some a =>
    if s.drb.first then sendAssign a 0 s.now s
    else updDrb (fun d => { d with offer := none, join := some a }) s

/-- The head names the id it did not expect: at once in the first enumeration, else in a command window (R370, R373). -/
def sendRelease (a id : Nat) (s : State) : State :=
  drbRecord 7 a (natLe 16 id) (sendFrameAt (if s.drb.first then s.now else windowFrom s.now) 7 127 1 (natLe 16 id) s)

/-- A head's drawbar drives the bus. -/
def headRuns (s : State) : Bool :=
  live s && s.drb.head && s.drb.started && (s.drb.state == .enumerating || s.drb.state == .locked)

/-! ### The head's commands -/

/-- HEAD_START: a head starts: it sends CLEAR three times, 100 µs apart, asserts DRB_SEL_OUT and offers the first address
(R371, R377). -/
def execHeadStart (s : State) : Res :=
  let a := updDrb (fun d => { d with started := true, first := true, state := .enumerating, addr := 1, selOut := true, heard := [] }) s
  onlyIf (live s && s.drb.head && !s.drb.started && s.drb.state != .conflict && drbServed s) s
    (sendAssign 2 0 (s.now + 200) (sendClear a))

/-- REENUM: a manager write of DRB_CTRL.REENUM starts enumeration on a head, the first one afresh too; on a member it is ignored
(R371). -/
def execReenum (p : Port) (s : State) : Res :=
  let a := legTouch p (cntWr p s)
  onlyIf (wr p .drb s) s
    (if headRuns a && a.drb.first then
       sendAssign 2 0 (s.now + 200) (sendClear (updDrb (fun d => { d with queue := [], heard := [] }) (seqd a)))
     else if headRuns a then
       offerNext (updDrb (fun d => { d with state := .enumerating, offer := none, join := none }) (sendClear (seqd a)))
     else a)

/-- TIME: the head sends a mark at each multiple of 1,000 µs, and in the command window that follows the ASSIGN that waits
(R370-R372). -/
def execTime (s : State) : Res :=
  let c := s.now / 1000 % 100
  let a := updDrb (fun d => { d with cycle := c, cycleAt := s.now, mark := s.now })
    (sendFrame 1 127 1 (natLe 8 s.now ++ natLe 1 c ++ zeros 3) s)
  let free := drbServed s && s.drb.offer.isNone && s.drb.queue.isEmpty
  let b := match s.drb.join with
    | some x => if free then sendAssign x 0 (s.now + 20) a else a
    | none => a
  onlyIf (headRuns s && !s.drb.first && s.now % 1000 == 0 && s.drb.cycleAt < s.now) s
    (if standsAlone s then b else markBarrier s.now b)

/-- ASSIGN_TIMEOUT: an ASSIGN unanswered for 20 µs is sent again; the third miss ends enumeration, or the join (R371, R372). -/
def execAssignTimeout (s : State) : Res :=
  match s.drb.offer with
  | none => .next s
  | some (a, misses, at_) =>
    onlyIf (headRuns s && drbServed s && s.now ≥ at_ + 20) s
      (if misses < 2 then sendAssign a (misses + 1) s.now s
       else if s.drb.state == .enumerating then enumEnd s
       else updDrb (fun d => { d with offer := none }) s)

/-- A new member recorded, with its delay (R371, R374). -/
def takeMember (a id rho : Nat) (s : State) : State :=
  let d := min 0xFFFF ((rho - 2000) / 2)
  let old := match addrOfId s id with
    | some x => if x != a then freeAddr x s else s
    | none => s
  let b := updMember a (fun _ => { state := 1, id := id, delay := d, judged := s.now / 100000 }) old
  sendFrame 4 a 1 (natLe 2 d ++ zeros 2) (drbRecord 1 a (natLe 16 id) b)

/-- ASSIGN_REPLY: the unit that answers the ASSIGN in flight becomes a member, `rho` ns after it; an id that the table
holds present elsewhere, or that is not the one the address is reserved for, is named in RELEASE (R371, R373, R374, R377). -/
def execAssignReply (frame : Bytes) (rho : Nat) (s : State) : Res :=
  let ok (x : Frame) : Bool :=
    headRuns s && drbServed s && x.dest == 1 && (s.drb.offer.map (·.1)).getD 0 == x.src && s.drb.offer.isSome
  onFrame frame 3 ok (fun x s =>
    let id := fld x.body 0 16
    let clash := match addrOfId s id with
      | some y => (memberOf s y).state == 1
      | none => false
    let kept := (memberOf s x.src).state == 2 && (memberOf s x.src).id != id
    if clash || kept then sendRelease x.src id s
    else
      let a := takeMember x.src id rho s
      let b := if s.drb.first && bit (fld x.body 24 1) 0 then
          updDrb (fun d => { d with heard := d.heard ++ [(fld x.body 16 8, s.now)] }) a
        else a
      if s.drb.state == .enumerating then offerNext b else updDrb (fun d => { d with offer := none }) b) s

/-- The first stamp after the beacon slot of an address in superframe `n` (R370). -/
def slotEnd (a n : Nat) : Nat := n * 100000 + (a - 2) / 2 * 1000 + 300 + 100 * ((a - 2) % 2)

/-- The number of the cycle that a member is in: where it missed marks, it counts on by itself (R370, R373). -/
def cycleNow (s : State) : Nat := (s.drb.cycle + (s.now - s.drb.cycleAt) / 1000) % 100

/-- The offset within that cycle. -/
def cycleOff (s : State) : Nat := (s.now - s.drb.cycleAt) % 1000

/-- BEACON: a member sends its beacon in its slot; the head records a beacon it receives, or names an id it did not expect
(R370, R373). -/
def execBeacon (frame : Option Bytes) (s : State) : Res :=
  match frame with
  | none =>
    let d := s.drb
    let t := 200 + 100 * ((d.addr - 2) % 2)
    onlyIf (live s && !d.head && 2 ≤ d.addr && (d.state == .locked || d.state == .slewing) && !d.sent &&
        cycleNow s == (d.addr - 2) / 2 && t ≤ cycleOff s && cycleOff s < t + 100) s
      (updDrb (fun d => { d with sent := true })
        (sendFrame 5 1 d.addr (unitId16 ++ natLe 1 (drbCode d.state) ++ zeros 3) s))
  | some b =>
    onFrame b 5 (fun x => headRuns s && x.dest == 1 && 2 ≤ x.src && x.src ≤ 126) (fun x s =>
      let m := memberOf s x.src
      if m.state == 0 || m.id != fld x.body 0 16 then sendRelease x.src (fld x.body 0 16) s
      else
        let a := updMember x.src (fun m => { m with state := 1, missed := 0, absentAt := 0, judged := s.now / 100000 }) s
        if m.state == 2 then drbRecord 4 x.src (natLe 16 m.id) a else a) s

/-- BEACON_MISS: a member's slot has passed without its beacon; the third in a row makes it absent (R373). -/
def execBeaconMiss (address : Nat) (s : State) : Res :=
  let m := memberOf s address
  let a := updMember address (fun m => { m with missed := m.missed + 1, judged := m.judged + 1 }) s
  onlyIf (headRuns s && !s.drb.first && m.state == 1 && s.now ≥ slotEnd address (m.judged + 1)) s
    (if m.missed < 2 then a
     else drbRecord 2 address (natLe 16 m.id) (updMember address (fun m => { m with state := 2, absentAt := s.now }) a))

/-- RESERVATION_EXPIRY: 3,600 s after a member's absence its address is freed (R373). -/
def execReservationExpiry (address : Nat) (s : State) : Res :=
  let m := memberOf s address
  onlyIf (headRuns s && drbServed s && m.state == 2 && s.now ≥ m.absentAt + 3600000000) s (freeAddr address s)

/-- FOREIGN_HEAD_FRAME: a head that receives a valid frame from address 1 stops driving until reset (R378). -/
def execForeignHeadFrame (frame : Bytes) (s : State) : Res :=
  onlyIf (live s && s.drb.head && s.drb.state != .conflict) s
    (match readFrame frame with
     | none => crcErr s
     | some x =>
       if x.src == 1 then
         drbRecord 7 1 unitId16 (updDrb (fun d => { d with
           state := .conflict, selOut := false, offer := none, join := none, queue := [] }) s)
       else s)

/-! ### The member's commands -/

/-- The unit is the named one (R373). -/
def isMe (id : Nat) : Bool := id == leNat unitId16

/-- The address is dropped and DRB_SEL_OUT deasserted (R371-R373). -/
def dropAddr (s : State) : State :=
  if s.drb.addr == 0 then s
  else drbRecord 3 s.drb.addr unitId16 (updDrb (fun d => { d with addr := 0, selOut := false, joinTry := 0 }) s)

/-- ASSIGN: a unit with DRB_SEL_IN asserted and no address takes the one offered and answers (R371). -/
def execAssign (frame : Bytes) (s : State) : Res :=
  onFrame frame 2 (fun x => !s.drb.head && x.dest == 0 && x.src == 1 && s.drb.selIn && s.drb.addr == 0 &&
      2 ≤ fld x.body 0 1 && fld x.body 0 1 ≤ 126) (fun x s =>
    let a := fld x.body 0 1
    let b := sendFrame 3 1 a (unitId16 ++ natLe 8 s.now ++ natLe 1 (b2n s.drb.timeValid) ++ zeros 3)
      (updDrb (fun d => { d with addr := a, selOut := true, joinTry := 0 }) s)
    drbRecord 1 a unitId16 b) s

/-- DELAY: the one-way delay for later marks (R374). -/
def execDelay (frame : Bytes) (s : State) : Res :=
  onFrame frame 4 (fun x => !s.drb.head && x.src == 1 && s.drb.addr != 0 && x.dest == s.drb.addr) (fun x s =>
    updDrb (fun d => { d with delay := fld x.body 0 2 }) s) s

/-- RELEASE: the unit named drops its address (R373). -/
def execRelease (frame : Bytes) (s : State) : Res :=
  onFrame frame 7 (fun x => !s.drb.head && x.src == 1 && isMe (fld x.body 0 16)) (fun _ s => dropAddr s) s

/-- CLEAR: every member drops its address (R371). -/
def execClear (frame : Bytes) (s : State) : Res :=
  onFrame frame 8 (fun x => !s.drb.head && x.src == 1) (fun _ s => dropAddr s) s

/-- Missed cycles since the last TIME, each counted from its half (R370, R373). -/
def missedSince (s : State) : Nat := (s.now - s.drb.cycleAt - 500) / 1000

/-- A valid TIME applied: device time steps forward by e, or slews; the mark may be the barrier (R364, R373, R375). -/
def applyMark (mark cycle : Nat) (s : State) : State :=
  let e : Int := (mark : Int) + ((s.drb.delay + 500) / 1000 : Nat) - (s.now : Int)
  let regained := s.drb.state == .headLost
  let a := updDrb (fun d => { d with
    marksRx := satInc 32 d.marksRx, marksMissed := satAdd 32 d.marksMissed (missedSince s - d.missRun), missRun := 0
    timeValid := true, lastE := max (-32768) (min 32767 e), cycle := cycle, mark := mark, sent := false
    state := if e ≤ -1 then .slewing else .locked, slewLeft := (-e).toNat, halfTick := false }) s
  let b := if e ≥ 1 then stepTime e.toNat a else a
  let c := updDrb (fun d => { d with cycleAt := b.now }) b
  markBarrier mark (if regained then drbRecord 6 s.drb.addr unitId16 c else c)

/-- TIME_RECEIVE: a member applies a valid mark (R375). -/
def execTimeReceive (frame : Bytes) (s : State) : Res :=
  onFrame frame 1 (fun x => !s.drb.head && x.src == 1) (fun x s =>
    applyMark (fld x.body 0 8) (fld x.body 8 1) s) s

/-- SLEW_END: the half-rate slew has brought e to 0 (R375). -/
def execSlewEnd (s : State) : Res :=
  onlyIf (live s && s.drb.state == .slewing && s.drb.slewLeft == 0) s (updDrb (fun d => { d with state := .locked }) s)

/-- HEAD_LOST: no valid TIME for three consecutive cycles (R373). -/
def execHeadLost (s : State) : Res :=
  onlyIf (live s && !s.drb.head && s.drb.state != .headLost && missedSince s ≥ 3) s
    (drbRecord 5 s.drb.addr unitId16 (updDrb (fun d => { d with state := .headLost, slewLeft := 0, halfTick := false }) s))

/-- The sub-slot of attempt `k` (R372). -/
def joinSlot (k : Nat) : Nat := bits (leNat unitId16) (3 * (k % 42)) 3

/-- JOIN_REQ: an unaddressed unit asks for an address in its sub-slot of cycle 99; the head answers the first clean request
of the slot in the next command window, unless no address is left (R370, R372). -/
def execJoinReq (frame : Option Bytes) (s : State) : Res :=
  match frame with
  | none =>
    let d := s.drb
    let t := 200 + 40 * joinSlot d.joinTry
    onlyIf (live s && !d.head && d.selIn && d.addr == 0 && (d.state == .locked || d.state == .slewing) &&
        cycleNow s == 99 && !d.sent && t ≤ cycleOff s && cycleOff s < t + 40) s
      (updDrb (fun d => { d with sent := true, joinTry := d.joinTry + 1 }) (sendFrame 6 1 0 unitId16 s))
  | some b =>
    onFrame b 6 (fun x => headRuns s && !s.drb.first && x.src == 0 && s.drb.cycle == 99) (fun x s =>
      let full := memberAddrs.all (fun a => (memberOf s a).state != 0)
      let mine := (addrOfId s (fld x.body 0 16)).filter (fun a => (memberOf s a).state == 2)
      if full then updDrb (fun d => { d with joinRefused := satInc 16 d.joinRefused }) s
      else if s.drb.state == .locked && s.drb.join.isNone && s.drb.offer.isNone && drbServed s then
        updDrb (fun d => { d with join := if mine.isSome then mine else lowestFree s }) s
      else s) s

end Sys2Proof.Machine
end

