-- ==== Sys2Proof/Machine/Memory.lean ====
section
/-! DEFINITION. The LPDDR5X array: its encryption and MACs, its map and its errors (R381-R385). -/
namespace Sys2Proof.Machine

/-! ### Encryption and MACs (R382, R383) -/

/-- CHP_BOOT_CNT as a KDF context: four bytes, little-endian (R4; log entry 94). -/
def bootCtx (s : State) : Bytes := natLe 4 s.chp.bootCnt

/-- The memory key, label "MEMX": the XTS key pair of this boot, 512 bits (R382). -/
def memKey (s : State) : Bytes := kdf512 Config.deviceRoot [0x4D, 0x45, 0x4D, 0x58] (bootCtx s)

/-- The key of the line MACs, label "MEMM" (R383). -/
def memMacKey (s : State) : Bytes := kdf Config.deviceRoot [0x4D, 0x45, 0x4D, 0x4D] (bootCtx s)

/-- The ciphertext of line `n`, counted in units of 64 bytes: its number is the tweak (R382). -/
def lineCipher (s : State) (n : Nat) (plain : Bytes) : Bytes :=
  xtsUnit true ((memKey s).take 32) ((memKey s).drop 32) n (padTo 64 plain)

/-- The bytes of line `n` decrypted (R382). -/
def linePlain (s : State) (n : Nat) (ct : Bytes) : Bytes :=
  xtsUnit false ((memKey s).take 32) ((memKey s).drop 32) n ct

/-- The MAC of line `n`: 8 bytes over its address and its ciphertext (R383). -/
def lineMac (s : State) (n : Nat) (ct : Bytes) : Bytes := (cmac (memMacKey s) (natLe 8 (64 * n) ++ ct)).take 8

/-- The place in the MAC store of the MAC of line `n` of the four MAC-protected regions (R383, R385; log entry 94). -/
def macAddr (n : Nat) : Nat := 0x32000000 + 8 * n

/-- What LPDDR5X holds for ring `g`: the ciphertext of its context at 64g and that line's MAC (R382, R383, R385). -/
def ringLine (s : State) (g : Nat) : Bytes × Bytes :=
  let ct := lineCipher s g (ctxBytes (ringOf s g))
  (ct, lineMac s g ct)

/-- What LPDDR5X holds of a granule's data that lies in region `r`'s spill area as granule `i` of it: the ciphertext of its
lines, with no MAC (R143, R382, R385). -/
def spillLines (s : State) (r i : Nat) (data : Bytes) : Bytes :=
  let n0 := 0xE80000 + r * 0xE0000 + 64 * i
  ((chunks 64 data).zipIdx.map (fun x => lineCipher s (n0 + x.2) x.1)).flatten

/-! ### The LPDDR5X array (R381-R385) -/

/-- The memory controller changed by `f`. -/
def updMem (f : Mem → Mem) (s : State) : State := { s with mem := f s.mem }

/-- MEM_RETRAIN: a channel's drift exceeds 3 % of a unit interval, and its timing is retrained (R381). -/
def execMemRetrain (channel : Nat) (s : State) : Res :=
  onlyIf (live s && s.mem.trained && channel < 16) s (updMem (fun m => { m with retrainCnt := satInc 32 m.retrainCnt }) s)

/-- MEM_CONFIG_FAULT: a boot that found the packages unfit enters FAULT once a port is host-ready (R381). -/
def execMemConfigFault (s : State) : Res :=
  onlyIf (powered s && !inFault s && s.mem.cfgErr && ((s.hpt.get .a).ready || (s.hpt.get .b).ready)) s (enterFault 0x10000 s)

/-- The regions of the LPDDR5X map (R385). -/
inductive MemRegion where
  | rings | queues | tickets | vault | macs | spill | control | dormant | none
deriving DecidableEq, Repr

/-- The region that holds line `n`, counted in units of 64 bytes (R385). -/
def memRegion (n : Nat) : MemRegion :=
  if n < 0x100000 then .rings
  else if n < 0x200000 then .queues
  else if n < 0x280000 then .tickets
  else if n < 0xC80000 then .vault
  else if n < 0xE80000 then .macs
  else if n < 0x1200000 then .spill
  else if n < 0x1600000 then .control
  else if n < 0x1640000 then .dormant
  else .none

/-- The line's region carries a MAC, or is sealed with GCM (R383, R385). -/
def hasMac (r : MemRegion) : Bool :=
  match r with
  | .rings | .queues | .tickets | .vault => true
  | _ => false

/-- A failure counted: MEM_MAC_ERR of its region or MEM_UE_CNT (R384, R408). -/
def countMemError (r : MemRegion) (mac : Bool) (s : State) : State :=
  setIntBoth 13 (updMem (fun m =>
    if !mac then { m with ueCnt := satInc 16 m.ueCnt }
    else match r with
      | .rings => { m with macRc := satInc 8 m.macRc }
      | .queues => { m with macNq := satInc 8 m.macNq }
      | .tickets => { m with macTc := satInc 8 m.macTc }
      | .vault => { m with macVw := satInc 8 m.macVw }
      | _ => m) s)

/-- The event record of a memory error: its type is left open, and it defines no payload (R325, R384; log entry 3). -/
def memRecord (s : State) : State := record .memError [] s

/-- Where in the ticket cache an anchor or a binding lies is open: a free value picks what the line held, an anchor or the
bindings of a run of owners (R268, R281, R384). -/
def loseTicketLine (s : State) : State :=
  let pick := drawn s
  let a := seqd (draw s)
  if pick % 2 == 0 then updBnv (fun v => { v with anchors := tset {} v.anchors (pick / 2 % 1024) {} }) a
  else
    let lo := pick / 2 % 2 ^ 22
    let n := 1 + drawn a % 64
    let gone := tkeys a.slc.binds (fun o x => x.bound && lo ≤ o && o < lo + n)
    draw (updSlc (fun c => { c with binds := gone.foldl (fun b o => tset {} b o {}) c.binds }) a)

/-- The place of the segment of a carriage that holds a granule, in its source's or its destination's staging. -/
def placeHolding (c : Carriage) (g : Nat × Nat) : Option Nat :=
  (c.segs.find? (fun e => e.2.hold.contains g || e.2.dstHold.contains g)).map (·.1)

/-- A spill line fails: the carriage that holds the granule in it ends MEDIA_ERROR (R123, R143, R384). -/
def loseSpillLine (x granule : Nat) (s : State) : State :=
  match (s.car.cars.find? (fun e => (placeHolding e.2 (x, granule)).isSome)).map (·.1) with
  | none => s
  | some t =>
    let c := carrOf s t
    stop t stMediaError (mediaWord c (srcDrive c) ((placeHolding c (x, granule)).getD 0) none + 0x0661) s

/-- The drive whose queue holds a line: the spec does not place the queues, so it is a free one (R186, R384). -/
def loseQueueLine (s : State) : State :=
  let d := drawn s % 512
  let a := draw s
  let x := (driveOf a d).state
  if x == .ready || x == .unusable || x == .init then beginReset d a else a

/-- The world that owns a line of the control area (R300). -/
def ownerWorld (s : State) (n : Nat) : World :=
  if pageCode s (2 ^ 28 + 64 * (n - 0x1200000)) == 1 then .normal else .secure

/-- MEM_LINE_ERROR: a line that fails its MAC or its ECC, handled by its region; in Dormant only the image is read, and a ring
context only where it is not in the cache (R99, R101, R210, R384). -/
def execMemLineError (line : Nat) (mac : Bool) (s : State) : Res :=
  let r := memRegion line
  let a := countMemError r mac s
  let served := match r with
    | .dormant => s.gov.dormant && !s.chp.inReset
    | .rings => live s && !isCached s line && !isPinned (ringOf s line)
    | .none => false
    | _ => live s
  onlyIf (served && (!mac || hasMac r)) s
    (match r with
     | .rings => ringError line 0x06 a
     | .queues => memRecord (loseQueueLine a)
     | .tickets => memRecord (loseTicketLine a)
     | .spill => memRecord (loseSpillLine ((line - 0xE80000) / 0xE0000) (sramSize + (line - 0xE80000) % 0xE0000 / 64) a)
     | .control =>
       let w := ownerWorld a line
       if (worldOf a w).state == .starting || (worldOf a w).state == .failed then memRecord a else memRecord (worldFail w 2 a)
     | .vault => memRecord (updVlt (fun v => { v with reload := true }) a)
     | .dormant => memRecord (updKst (fun k => { k with image := [] }) a)
     | _ => memRecord a)

end Sys2Proof.Machine
end

