-- ==== Sys2Proof/Machine/Power.lean ====
section
/-! DEFINITION. The energy governor, Dormant and the supply (20_memory_clocks_power.md, R210, R421). -/
namespace Sys2Proof.Machine

/-! ### The governor (R387-R391) -/

/-- HW_LIMIT (R387). -/
def hwLimit (s : State) : Nat := if s.gov.pfail then 0 else min s.gov.capStep s.gov.thermStep

/-- The effective ceiling (R387). -/
def effCeil (s : State) : Nat := min s.gov.ceil (hwLimit s)

/-- The effective floor (R387). -/
def effFloor (s : State) : Nat := min s.gov.floor (effCeil s)

/-- Governor region `r`. -/
def govOf (s : State) (r : Nat) : GovRegion := tget {} s.gov.regions r

/-- VDD_REGn at a step, in millivolts (R149). -/
def railOf (n : Nat) : Nat := [500, 520, 550, 570, 600, 640, 680, 750].getD n 750

/-- The regulator of a region's rail is commanded to the voltage of step `n`; a silent one keeps its last value (R391, R421). -/
def railTo (r n : Nat) (s : State) : State :=
  let a := updGov (fun g => { g with regions := tupd {} g.regions r (fun x => { x with rail := railOf n }) }) s
  if s.gov.avsHold then s else emit (.avs r (railOf n)) a

/-- The cipher clock of a region switched to step `n`, and the change counted (R149, R391). -/
def clockTo (r n : Nat) (s : State) : State :=
  emit (.clock r n) (updGov (fun g => { g with
    regions := tupd {} g.regions r (fun x => { x with step := n, changes := satInc 16 x.changes }) }) s)

/-- A region's step changed to `n`: on a rise first the rail and then the clock, on a fall first the clock and then the rail
(R391). -/
def stepTo (r n : Nat) (s : State) : State :=
  let old := (govOf s r).step
  if n == old then s else if n > old then clockTo r n (railTo r n s) else railTo r n (clockTo r n s)

/-- Measured power, as the mean of the ten readings of the last 1 ms, and the cap step; powers are in 10 mW units (R389). -/
def capLoop (power : Nat) (projection : List Nat) (s : State) : State :=
  let g := s.gov
  let cap := 100 * g.pwrCap
  let best := ((List.range 8).filter (fun i => projection.getD i 0 ≤ cap)).foldl max 0
  let low := 10 * projection.getD g.capStep 0 ≤ 9 * cap
  let readings := (power :: g.powers).take 10
  let mean := readings.sum / readings.length
  let since := if low && mean ≤ cap then some (g.lowSince.getD s.now) else none
  let lift : Bool := match since with
    | some t => s.now ≥ t + 10000
    | none => false
  let limit := if mean > cap then g.capStep - 1 else if lift then min 7 (g.capLimit + 1) else g.capLimit
  updGov (fun g => { g with
    powers := readings, power := mean % 2 ^ 16, powerMax := max g.powerMax (mean % 2 ^ 16), capLimit := limit, capStep := min best limit
    lowSince := if lift then some s.now else since }) s

/-- A GOV_CLAMP record (R327). -/
def clampRecord (s : State) : State :=
  record .govClamp (natLe 4 s.gov.clampCnt ++ natLe 1 s.gov.floor ++ natLe 1 s.gov.capStep ++ zeros 2)
    (updGov (fun g => { g with clampRecAt := some s.now }) s)

/-- A governor conflict recorded, at most one a second (R327, R387). -/
def clampNote (s : State) : State :=
  match s.gov.clampRecAt with
  | some t => if s.now ≥ t + 1000000 then clampRecord s else s
  | none => clampRecord s

/-- A floor that a hardware limit overrides is counted and recorded (R387). -/
def clampCheck (s : State) : State :=
  if s.gov.floor ≤ hwLimit s then s
  else clampNote (updGov (fun g => { g with clampCnt := satInc 32 g.clampCnt }) s)

/-- The step the loop chooses for a region, and its counts (R388). -/
def loopStep (g : Gov) (x : GovReading) (r : GovRegion) : Nat × GovRegion :=
  let below := if x.busy < g.down then r.below + 1 else 0
  let idle := if x.work then 0 else min 10 (r.idle + 1)
  let a := { r with busy := min 100 x.busy, below := below, idle := idle }
  if idle ≥ 10 then (0, a)
  else if x.busy ≥ g.up && x.waited then (r.step + 1, a)
  else if below ≥ g.hold then (r.step - 1, { a with below := 0 })
  else (r.step, a)

/-- One region moved by at most one step towards the step chosen within its range; a silent regulator holds it (R387, R388,
R421). -/
def moveRegion (r : Nat) (x : GovReading) (s : State) : State :=
  let old := govOf s r
  let m := loopStep s.gov x old
  let want := clamp (effFloor s) (effCeil s) m.1
  let next := if s.gov.avsHold then old.step
    else if want > old.step then old.step + 1
    else if want < old.step then old.step - 1
    else old.step
  stepTo r next (updGov (fun g => { g with regions := tset {} g.regions r m.2 }) s)

/-- GOV_INTERVAL: every 100 µs the governor reads the power, recomputes the limits and moves the regions (R387-R389). -/
def execGovInterval (power : Nat) (projection : List Nat) (readings : List GovReading) (s : State) : Res :=
  let a := clampCheck (capLoop power projection s)
  let b := (List.range 4).foldl (fun s r => moveRegion r (readings.getD r {}) s) a
  onlyIf (live s && s.now ≥ s.gov.intervalAt + 100) s (updGov (fun g => { g with intervalAt := s.now }) b)

/-- THERMAL_STEP: a reading of the hottest die sensor, in 0.1 °C (R390). -/
def execThermalStep (tenths : Int) (s : State) : Res :=
  let a := sense 4 (enc16 tenths) s
  let g := s.gov
  onlyIf (live s) s
    (if tenths ≥ 1000 then
       updGov (fun x => { x with
         warmAt := s.now
         thermStep := if s.now ≥ g.thermAt + 10000 then g.thermStep - 1 else g.thermStep
         thermAt := if s.now ≥ g.thermAt + 10000 then s.now else g.thermAt }) a
     else if tenths ≥ 950 then updGov (fun x => { x with warmAt := s.now }) a
     else if g.thermStep < 7 && s.now ≥ g.warmAt + 100000 then
       updGov (fun x => { x with thermStep := g.thermStep + 1, warmAt := s.now }) a
     else a)

/-- AVS_TIMEOUT: a regulator is silent for 10 ms: every region is held at its step (R421). -/
def execAvsTimeout (s : State) : Res :=
  onlyIf (live s && !s.gov.avsHold) s (clampNote (updGov (fun g => { g with avsHold := true }) s))

/-! ### Dormant (R393, R394) -/

/-- A Dormant request ends with a cause of GOV_DORM_STAT. -/
def dormEnd (cause : Nat) (s : State) : State := updGov (fun g => { g with dormReady := false, dormCause := cause }) s

/-- Flash or fuse work that refuses Dormant runs (R393). -/
def flashWork (s : State) : Bool :=
  commitRuns s || s.evr.flushing || s.fwu.stage == 1 || s.lcs.burning || s.fwu.arbAt.isSome

/-- Why a Dormant request is refused: 0 where it is accepted (R393). -/
def dormRefusal (s : State) : Nat :=
  if tagsUsed s != 0 then 1
  else if (List.range 8).any (fun n => (shelfOf s n).state != .asleep) then 2
  else if flashWork s then 3
  else if s.fwu.activating || (actPending s && actTime s < s.now + 60000000) then 4
  else if s.gov.pfail then 5
  else 0

/-- GOV_DORM: a manager requests Dormant; a write without the key is ignored (R393). -/
def execGovDorm (p : Port) (key : Nat) (s : State) : Res :=
  let a := seqd (legTouch p (cntWr p s))
  onlyIf (wr p .gov s) s
    (if key % 256 != 0x5D then legTouch p (cntWr p s)
     else if dormRefusal s != 0 then updGov (fun g => { g with dormCause := dormRefusal s }) a
     else if s.gov.dormReady then legTouch p (cntWr p s)
     else updGov (fun g => { g with dormReady := true, dormAt := s.now }) a)

/-- DORMANT_LAPSE: the links are not both down 10 s after READY: the request lapses (R393). -/
def execDormantLapse (s : State) : Res :=
  onlyIf (live s && s.gov.dormReady && s.now ≥ s.gov.dormAt + 10000000) s (dormEnd 6 s)

/-- One slot in the Dormant image, 128 bytes: its index and all its fields but USE, its shares as the material they mask (R194, R210;
log entry 112). -/
def slotBytes (i : Nat) (x : Slot) : Bytes :=
  padTo 128 (natLe 4 i ++ natLe 1 (slotCode x.state) ++ natLe 1 (b2n x.mlen) ++ natLe 2 x.gen ++ natLe 1 x.engine.toNat ++
    natLe 1 x.usage.toNat ++ natLe 1 x.sizeCode ++ natLe 1 (b2n x.unmasked) ++ natLe 4 x.scope ++ natLe 4 x.owner ++
    natLe 4 x.count ++ natLe 8 x.base ++ natLe 8 x.pendStamp ++ natLe 8 x.maskStamp ++ natLe 64 (x.share0 ^^^ x.share1))

/-- A slot as the image holds it: its index and its fields, the material in one share. -/
def slotAt (b : Bytes) : Nat × Slot :=
  (fld b 0 4,
    { state := match fld b 4 1 with | 1 => .live | 2 => .pending | 3 => .orphaned | _ => .free
      mlen := fld b 5 1 == 1, gen := fld b 6 2, engine := BitVec.ofNat 4 (fld b 8 1), usage := BitVec.ofNat 5 (fld b 9 1)
      sizeCode := fld b 10 1, unmasked := fld b 11 1 == 1, scope := fld b 12 4, owner := fld b 16 4, count := fld b 20 4
      base := fld b 24 8, pendStamp := fld b 32 8, maskStamp := fld b 40 8, share0 := fld b 48 64 })

/-- The slot image under the dormant key of seal value `v`, with AES-GCM: a key is used once, with an IV of zeros (R210, R320; log
entry 112). -/
def imageSeal (v : Nat) (l : List (Nat × Slot)) : Bytes :=
  let k := Config.dormantKey v
  let ct := gcmCrypt k (zeros 12) (l.map (fun e => slotBytes e.1 e.2)).flatten
  ct ++ gcmTag k (zeros 12) [] ct

/-- The slots of an image that passes its check under the seal value that stands: none where that is zeroised, or where the image or its
tag is not as it was sealed (R210, R320). -/
def imageOpen (v : Nat) (b : Bytes) : Option (List (Nat × Slot)) :=
  let k := Config.dormantKey v
  let n := b.length - 16
  if v == 0 || b.length < 16 || gcmTag k (zeros 12) [] (b.take n) != b.drop n then none
  else some ((chunks 128 (gcmCrypt k (zeros 12) (b.take n))).map slotAt)

/-- The slots sealed into LPDDR5X under a new seal value, and zeroised; sessions are freed first, each at its own CSN (R132,
R206, R210, R320). -/
def sealSlots (s : State) : State :=
  let sessions := tkeys s.kst.slots (fun _ x => x.state != .free && x.session)
  let a := sessions.foldl (fun s i => zeroiseSlot i (seqd s)) s
  let kept := (tkeys a.kst.slots (fun _ x => x.state != .free)).map (fun i => (i, { slotOf a i with use := 0 }))
  let v := drawn a % 2 ^ 256
  let b := draw { a with bbr := { a.bbr with dseal := v } }
  let c := updKst (fun k => { k with image := imageSeal v kept, sealedCsn := b.csn, kek := [] }) b
  purgeStaging (fun _ => true) (kept.foldl (fun s e => zeroiseSlot e.1 s) c)

/-- The event recorder's buffer written out before the core is gated (R328, R393). -/
def flushAll (s : State) : State :=
  let a := flushStart false s
  if evrDevs s == 0 || s.evr.full then a
  else
    let b := flushWrite (bit (evrDevs s) 0) (bit (evrDevs s) 1) a
    updEvr (fun e => { e with flushing := false, flushCnt := satInc 32 e.flushCnt }) b

/-- The core domains are gated: what is not saved is gone, and the drawbar's select output falls (R368, R392, R393). -/
def gateCore (s : State) : State :=
  let a := updRng (fun r => { r with state := .stopped, waiters := [] }) (rngZeroise s)
  let b := chanZeroise .b stAborted (chanZeroise .a stAborted a)
  updMem (fun m => { m with selfRefresh := true })
    (updDrb (fun d => { d with selOut := false, queue := [] }) (updGov (fun g => { g with dormReady := false, dormant := true }) b))

/-- DORMANT_ENTRY: both links are down: the steps of R393. A held utility cipher is let go first, so that the CSN its release
takes is among those saved (R26, R274). -/
def execDormantEntry (s : State) : Res :=
  let a := dropShadows (fun _ => true) (closeProps (ucpForce stAborted s))
  let b := grantEnd (debugLost (legErase 10 stKeyErased (seqd a)))
  onlyIf (live s && s.gov.dormReady && s.now < s.gov.dormAt + 10000000 && !(s.hpt.get .a).up && !(s.hpt.get .b).up &&
      !s.gov.pfail) s
    (gateCore (flushAll (sealSlots b)))

/-- Counts and high-water marks that read-clear, at their reset values, of the ports and the carriage engine (R405). -/
def wakeHost (s : State) : State :=
  let h (x : HptPort) : HptPort := { x with
    discardCnt := 0, guardCnt := 0, dmaErrCnt := 0, sizeErrCnt := 0, rangeCnt := 0, inHwm := 0, inStall := 0, outHwm := 0
    outStall := 0 }
  let c := s.car
  { s with
    hpt := ⟨h (s.hpt.get .a), h (s.hpt.get .b)⟩
    ttb := { s.ttb with badRel := ⟨0, 0⟩ }
    car := { c with
      sidingHwm := 0, ctxHit := 0, ctxMiss := 0, badDb := 0, dbqHwm := 0, overrunCnt := 0, sidingDrop := 0, tagsHwm := 0
      refusedCnt := 0, abortedCnt := 0, scrubCarr := 0, scrubBytes := 0, shadowHits := 0, shadowReread := 0 } }

/-- The same of the array, the media fabric and the keys (R405). -/
def wakeData (s : State) : State :=
  let r (x : Region) : Region := { x with
    shuntCnt := 0, kstgCe := 0, d2dCe := 0, stgHwm := 0, spillCnt := 0, spillHwm := 0, f2rHwm := 0, f2rStall := 0, segCnt := 0
    tagFailCnt := 0, keyLoads := 0, keyEvict := 0, degSegCnt := 0 }
  let w (x : RegionWork) : RegionWork := { x with
    blocks := tmap {} (fun _ b => { b with segCnt := 0 }) x.blocks, busyCyc := 0, waitCyc := 0, readyHwm := 0, holdSeg := 0
    rekeyXbar := 0, legacyUnits := 0 }
  let sl (x : Slice) : Slice := { x with inDisc := 0, outDisc := 0 }
  { s with
    cay := { s.cay with regions := tmap {} (fun _ x => r x) s.cay.regions, work := tmap {} (fun _ x => w x) s.cay.work }
    mdf := { s.mdf with l0Hwm := 0, diag := tmap {} (fun _ x => { x with r2mHwm := 0, r2mStall := 0 }) s.mdf.diag }
    kst := { s.kst with
      slotsHwm := 0, remaskLate := 0, remaskPasses := 0, unwrapCnt := 0, unwrapFail := 0, orphanCnt := 0, eraseTmo := 0 }
    leg := { s.leg with abandonCnt := 0 }
    vlt := { s.vlt with commitCnt := 0, a := { s.vlt.a with ce := 0 }, b := { s.vlt.b with ce := 0 } }
    slc := { s.slc with slices := tmap {} (fun _ x => sl x) s.slc.slices } }

/-- The same of the engines and the platform (R405). -/
def wakeRest (s : State) : State :=
  let p (x : BnvChan) : BnvChan := { x with conflict := 0 }
  { s with
    rng := { s.rng with failCnt := 0, cellFail := [0, 0, 0, 0], tenderLow := 0x10000, notSeeded := 0 }
    lat := { s.lat with opsCnt := 0 }
    bnv := { s.bnv with verifyCnt := 0, rejectCnt := 0, priv := ⟨p (s.bnv.priv.get .a), p (s.bnv.priv.get .b)⟩ }
    ucp := { s.ucp with badRel := 0, denyCnt := 0 }
    wld := { s.wld with
      mcallCnt := 0, violCnt := 0, gateLate := 0, secure := { s.wld.secure with kickAt := s.now }
      normal := { s.wld.normal with kickAt := s.now } }
    tmp := { s.tmp with resumeDeny := 0, disPd := 0, disCan := 0 }
    evr := { s.evr with bufHwm := 0, flushCnt := 0 }
    drb := { s.drb with marksRx := 0, marksMissed := 0, missRun := missedSince s, crcErr := 0, joinRefused := 0 }
    mem := { s.mem with retrainCnt := 0, ceCnt := 0, f2mHwm := 0, f2mStall := 0, rdBytes := 0, wrBytes := 0 }
    chp := { s.chp with f2cHwm := 0, f2cStall := 0 }
    gov := { s.gov with
      clampCnt := 0, powerMax := 0, intervalAt := s.now
      regions := tmap {} (fun _ x => { x with step := 0, changes := 0, below := 0, idle := 0 }) s.gov.regions } }

/-- One slot restored with fresh masks; PENDING and ORPHANED ones are zeroised at once (R197, R210). -/
def reviveSlot (e : Nat × Slot) (s : State) : State :=
  let x := e.2
  if x.state != .live then s
  else
    let m := freshMask s
    let y := { x with
      share0 := x.share0 ^^^ x.share1 ^^^ m.1, share1 := m.1, unmasked := m.1 == 0, maskStamp := s.now, maskPeriod := s.kst.remaskPeriod
      retained := false, retGen := 0, retUse := 0, retShare0 := 0, retShare1 := 0, retBase := 0, retAt := 0 }
    updKst (fun k => { k with freed := k.freed.erase e.1 }) (updSlot e.1 (fun _ => y) m.2)

/-- What a wake finds in the image: the slots restored, or, where its check fails, every slot left FREE and the wake recorded. The seal
value is zeroised, and the image is gone (R210, R320). -/
def reviveImage (found : Option (List (Nat × Slot))) (s : State) : State :=
  let a := match found with
    | some l => l.foldl (fun s e => reviveSlot e s) s
    | none => memRecord s
  { a with bbr := { a.bbr with dseal := 0 }, kst := { a.kst with image := [] } }

/-- The sealed image opened under the seal value and restored (R210, R320). -/
def reviveSlots (s : State) : State := reviveImage (imageOpen s.bbr.dseal s.kst.image) s

/-- An open vault is not as its flash now is: a device in use is not to be read, or the end of its journal is not the epoch
of the working copy (R394). -/
def vaultStale (s : State) : Bool :=
  let mk := vaultMacKey s
  let off (d : VaultDev) : Bool := !devGood mk d || (devChain mk d).1 != s.vlt.epoch
  (vaultLive s || s.vlt.mode == .single) && ((s.vlt.devA == 0 && off s.vlt.a) || (s.vlt.devB == 0 && off s.vlt.b))

/-- The wake's vault step: on a mismatch the vault is closed, and VAULT_OPEN reopens it (R227, R394). -/
def wakeVault (s : State) : State :=
  if vaultStale s then vaultTo .closed 0 { s with chp := { s.chp with vaultOpen := false } } else s

/-- WAKE_FROM_DORMANT: a PERST is deasserted in Dormant: the core is ungated, the slots and the CSN come back, the random
chain starts, and the port trains (R26, R210, R394, R405). -/
def execWakeFromDormant (p : Port) (s : State) : Res :=
  let a := { s with
    gov := { s.gov with dormant := false, wakes := satInc 16 s.gov.wakes }
    chp := { s.chp with woke := true }, mem := { s.mem with selfRefresh := false }, csn := s.kst.sealedCsn }
  let b := reviveSlots (wakeRest (wakeData (wakeHost a)))
  let c := updDrb (fun d => { d with
    selOut := d.addr != 0 && d.state != .conflict
    members := tmap {} (fun _ m => { m with judged := s.now / 100000 }) d.members }) (rngStart b)
  onlyIf (!s.chp.inReset && s.gov.dormant && (s.hpt.get p).perst) s
    (wakeVault (emit (.link p 1) (updHpt p (fun h => { h with perst := false, training := true }) c)))

/-! ### The supply (R395-R397) -/

/-- PFAIL_ASSERT: PFAIL_N is asserted: a flush starts, every region goes to step 0, and a Dormant request ends (R393,
R395). -/
def execPfailAssert (s : State) : Res :=
  let a := updFwu (fun f => { f with firstMark := none })
    { s with gov := { s.gov with pfail := true }, pins := { s.pins with pfail := true } }
  let b := if powered s && evrOpen s then flushStart true a else a
  let c := if live s then (List.range 4).foldl (fun s r => stepTo r 0 s) b else b
  onlyIf (!s.chp.inReset && !s.gov.pfail) s (if s.gov.dormReady then dormEnd 5 c else c)

/-- PFAIL_DEASSERT: PFAIL_N is deasserted with the rails intact: HW_LIMIT is what the other limits give, and deferred work goes
on, a boot that waited to burn its BD_EPOCH step too (R323, R395). -/
def execPfailDeassert (s : State) : Res :=
  let a := { s with gov := { s.gov with pfail := false }, pins := { s.pins with pfail := false } }
  onlyIf (!s.chp.inReset && s.gov.pfail) s
    (match s.chp.waitEnv with
     | some env => if bootStops a || inFault s then a else bootOn env a
     | none => a)

/-- VDD_AON_SWITCH: VDD_AON goes over to VBAT, or back to the main feed; the switch leaves the backup domain's contents, but
while it was on VBAT they may have been lost: a free value (R320, R324, R397; log entry 103). -/
def execVddAonSwitch (mainFeed : Bool) (s : State) : Res :=
  let b := s.bbr
  .next (if mainFeed then
      if b.onVbat then draw { s with bbr := { b with onVbat := false, markOk := b.markOk && drawn s % 2 == 0 } } else s
    else if b.onVbat then s
    else { s with bbr := { b with onVbat := true, aon := 0, lastTime := if s.chp.inReset then b.lastTime else s.now } })

end Sys2Proof.Machine
end

