-- ==== Sys2Proof/Machine/Ports.lean ====
section
/-! DEFINITION. The host ports: links, readiness, port loss, and the ends of the device's host reads
(03_host_ports_and_turntables.md). -/
namespace Sys2Proof.Machine

/-! ### Port loss (R64-R66, R162, R405) -/

/-- The code of a loss cause (HPT_LOSS_CAUSE). -/
def lossCode : LossCause → Nat
  | .none => 0 | .dlDown => 1 | .perst => 2 | .hotReset => 3 | .linkDisable => 4 | .flr => 5

/-- The link of port `p` after a loss: a Function Level Reset leaves it up; a link that went down trains again unless its PERST
is asserted. The port is not host-ready (R48, R49). -/
def linkLost (p : Port) (c : LossCause) (s : State) : State :=
  updHpt p (fun h =>
    if c == .flr then { h with ready := false, dlUpAt := s.now }
    else { h with
      ready := false, up := false, flit := false, width := 0, speed := 0, perst := h.perst || c == .perst
      training := !(h.perst || c == .perst) }) s

/-- Step 1: every turntable that the port holds is released by force, in the order of their numbers (R61, R65; log entry
26). -/
def dropTables (p : Port) (s : State) : State :=
  (tkeys s.ttb.tables (fun _ t => t.holder == some p)).foldl (fun s n => dropTable n true s) s

/-- Step 3: every ring homed on the port that is ACTIVE, BRAKED or FROZEN enters ERROR with HOST_LOST, in the
order of their numbers (R65, R72; log entry 26). -/
def loseRings (p : Port) (s : State) : State :=
  (tkeys s.car.rings (fun _ r => r.home == p && canErr r)).foldl
    (fun s g => let a := flushDb g s; if canErr (ringOf a g) then ringError g 4 a else a) s

/-- The carriages of the port's rings. -/
def portCarrs (p : Port) (s : State) : List Nat :=
  tkeys s.car.cars (fun _ c => c.stage != .free && (ringOf s c.sq).home == p)

/-- Step 2: the port's inbound coupling discards its contents, the doorbells held in it among them (R22, R65, R100). -/
def dropHeld (p : Port) (s : State) : State :=
  updCar (fun c => { c with dbHeld := c.dbHeld.filter (·.port != p) }) (seqd s)

/-- Step 4: the port's carriages are aborted without a completion; the CQs are looked at again, since chip siding room may have
become free (R65, R93, R162). -/
def loseCarrs (p : Port) (s : State) : State :=
  let ts := portCarrs p s
  let a := reap stKeyErased (ts.foldl (fun s t => vanish t s) (seqd s))
  relieve (updHpt p (fun h => { h with lossAborts := ts.length }) a)

/-- What the port's own engines were doing ends: its lattice command and its privileged channel, the utility cipher it
holds, a stage through it, and the removals whose PROPOSE came through it; a debug grant ends (R235, R266, R273, R275,
R345, R405). -/
def loseEngines (p : Port) (s : State) : State :=
  let a := latEnd p stAborted 0 s
  let b := updBnv (fun v => { v with priv := v.priv.set p {} }) a
  let c := if b.ucp.holder == some (.port p) then ucpForce stAborted b else b
  let d := if c.fwu.stage == 1 && c.fwu.stagePort == p && c.fwu.stageData.isNone then stageEnd 1 c else c
  let e := (tkeys d.vlt.props (fun _ x => x.used && x.state == .open_ && x.port == p && rOp x.record == 0x04)).foldl
    (fun s i => closeProp i s) d
  let f := if e.lcs.chal == 2 && e.lcs.resp.isNone && e.lcs.reqPort == p then dbgEnd 6 (dropChallenge e) else e
  reap stKeyErased (grantEnd f)

/-- The port's HPT block at reset but for the LOSS fields and the state of its link (R48). -/
def blockReset (p : Port) (s : State) : State :=
  updHpt p (fun h => {
    up := h.up, flit := h.flit, width := h.width, speed := h.speed, perst := h.perst, training := h.training, ready := h.ready
    dlUpAt := h.dlUpAt, lossCnt := h.lossCnt, lossCause := h.lossCause, lossAborts := h.lossAborts }) s

/-- Step 5: the port's HPT block but for the LOSS fields, its MSI-X table, configuration space and register copies return to
reset (R48, R65, R405). -/
def portReset (p : Port) (s : State) : State :=
  updWin p (fun _ => {}) (updStats p (fun _ => {}) (blockReset p s))

/-- A port loss, step by step, each step at its own CSN (R65). In FAULT, where no step has a CSN, the link goes down and what is the
port's own returns to reset: its block, its register copies and latches, its MSI-X table and its configuration space (R29, R48,
R403, R405; log entry 22). -/
def portLoss (p : Port) (c : LossCause) (s : State) : State :=
  let a := linkLost p c s
  if inFault s then portReset p a
  else
    let b := updHpt p (fun h => { h with lossCnt := satInc 16 h.lossCnt, lossCause := c, lossAborts := 0 }) a
    let d := loseEngines p (loseCarrs p (loseRings p (dropHeld p (dropTables p b))))
    let e := setInt p.other 3 (seqd (portReset p (seqd d)))
    recordSeq .portLoss
      (natLe 1 p.num ++ natLe 1 (lossCode c) ++ zeros 2 ++ natLe 4 (e.hpt.get p).lossAborts) (seqd e)

/-- LINK_DOWN: the link leaves DL_Active (R64). -/
def execLinkDown (p : Port) (s : State) : Res :=
  onlyIf (powered s && (s.hpt.get p).up) s (portLoss p .dlDown s)

/-- HOT_RESET of the port (R64). -/
def execHotReset (p : Port) (s : State) : Res :=
  onlyIf (powered s && (s.hpt.get p).up) s (portLoss p .hotReset s)

/-- LINK_DISABLE of the port (R64). -/
def execLinkDisable (p : Port) (s : State) : Res :=
  onlyIf (powered s && (s.hpt.get p).up) s (portLoss p .linkDisable s)

/-- FLR of the port's function: the link stays up (R64). -/
def execFlr (p : Port) (s : State) : Res :=
  onlyIf (powered s && (s.hpt.get p).up) s (portLoss p .flr s)

/-! ### PERST, training, readiness (R48, R49, R67) -/

/-- A PERST pin taken at level `v` by a port that cannot train: in Dormant, and where the boot has stopped (R48, R406). -/
def perstPin (p : Port) (v : Bool) (s : State) : State :=
  updHpt p (fun h => { h with perst := v, training := false })
    { s with chp := { s.chp with waitEnv := s.chp.waitEnv.map (fun e => { e with perst := e.perst.set p v }) } }

/-- A PERST asserted there is a port loss of a port that has nothing to lose: its LOSS fields, and its block, MSI-X table and
configuration space at reset; no CSN is assigned (R48, R64; log entry 26). -/
def idleLoss (p : Port) (s : State) : State :=
  updHpt p (fun h => { h with lossCnt := satInc 16 h.lossCnt, lossCause := .perst, lossAborts := 0, ready := false })
    (portReset p (perstPin p true s))

/-- PERST_ASSERT: the port is reset and lost (R48, R64). -/
def execPerstAssert (p : Port) (s : State) : Res :=
  onlyIf (!s.chp.inReset && !(s.hpt.get p).perst) s
    (if s.gov.dormant || s.chp.waitEnv.isSome then idleLoss p s else portLoss p .perst s)

/-- PERST_DEASSERT: link training starts, or the device wakes from Dormant (R48, R394). -/
def execPerstDeassert (p : Port) (s : State) : Res :=
  if s.gov.dormant then execWakeFromDormant p s
  else onlyIf (!s.chp.inReset && (s.hpt.get p).perst) s
    (if s.chp.waitEnv.isSome then perstPin p false s
     else emit (.link p 1) (updHpt p (fun h => { h with perst := false, training := true }) s))

/-- A width and speed that a host port trains to: 64 GT/s in FLIT mode only (R47). -/
def trainsTo (flit : Bool) (width speed : Nat) : Bool :=
  (width == 4 || width == 8 || width == 16) && 3 ≤ speed && speed ≤ 6 && (flit || speed ≤ 5)

/-- HOST_LINK_DL_UP: a training link reaches DL_Up (R47, R48). -/
def execHostLinkDlUp (p : Port) (flit : Bool) (width speed : Nat) (s : State) : Res :=
  let h := s.hpt.get p
  onlyIf (powered s && h.training && !h.perst && !h.up && trainsTo flit width speed) s
    (updHpt p (fun h => { h with
      up := true, training := false, flit := flit, width := width, speed := speed, dlUpAt := s.now }) s)

/-- The boot has reached the point from which ports become host-ready (R49, R355). -/
def bootDone (s : State) : Bool := s.chp.mode != .booting || s.lcs.state == .terminal

/-- HOST_READY: a port whose link is up becomes host-ready, and ends CRS; a port that returns from a loss leaves its reset,
with its block as it was held there, and sets PEER_UP on the other (R48, R49, R67). -/
def execHostReady (p : Port) (s : State) : Res :=
  let h := s.hpt.get p
  let a := updHpt p (fun h => { h with ready := true }) s
  let b := updStats p (fun t => { cfg := t.cfg, msix := t.msix, pba := t.pba, reads := t.reads }) (blockReset p a)
  onlyIf (powered s && h.up && !h.ready && bootDone s && !s.lcs.burning) s
    (if h.lossCnt != 0 && !inFault s then setInt p.other 4 (seqd b) else a)

/-! ### The ends of host reads (R52, R53) -/

/-- The port and the bytes of a host read that a consumer waits for; `counted` where it was made for a taken entry (R410). -/
structure ReadJob where
  port : Port
  len : Nat
  counted : Bool := false
deriving DecidableEq, Repr

/-- A read of `len` bytes. -/
def oneRead (p : Port) (len : Nat) (counted : Bool) : ReadJob := { port := p, len := len, counted := counted }

/-- The ticket of the carriage is being read at its admission (R167). -/
def ticketDue (c : Carriage) : Bool :=
  c.stage == .taken && c.asked && kKind (eKeyref c.entry) == 2 && c.ticket.isNone && !c.dmaFail

/-- A fragment table of the carriage is being read (R107). -/
def chainDue (c : Carriage) : Bool :=
  c.stage == .taken && c.asked && eTable c.entry && !c.chainDone && !c.dmaFail && !ticketDue c

/-- The bytes of the record an opcode reads whole (R109). -/
def recordLen (e : Bytes) : Nat :=
  match eOp e with
  | 0x42 => 32
  | 0x41 => 1648
  | _ => eLength e

/-- The carriage's record is being read. -/
def recordDue (c : Carriage) : Bool :=
  let op := eOp c.entry
  (c.stage == .taken && op == 0x30 && c.asked && c.record.isNone && !c.dmaFail && !chainDue c) ||
  c.stage == .running && c.record.isNone &&
    (op == 0x30 || op == 0x31 || op == 0x40 || op == 0x41 || op == 0x42 || op == 0x52 ||
      (op == 0x22 && adminSends c.entry && (tget {} c.segs 0).st == .fetching))

/-- The read that is outstanding for a purpose, if one is. -/
def readJob (s : State) : DmaRead → Option ReadJob
  | .descriptor sq pos =>
    let r := ringOf s sq
    if (tget {} r.copies pos).asked then some (oneRead r.home 64 false) else none
  | .chain t =>
    let c := carrOf s t
    if chainDue c then some (oneRead (carrPort s t) (16 * c.nextCount) true) else none
  | .ticket t => if ticketDue (carrOf s t) then some (oneRead (carrPort s t) 64 true) else none
  | .data t p =>
    let c := carrOf s t
    let op := eOp c.entry
    let g := segOf s t p
    if c.stage == .running && ((op == 0x01 && (g.st == .fetching || g.st == .running) && g.left != 0) || (op == 0x09 && g.st == .fetching)) then
      some (oneRead (carrPort s t) (if op == 0x01 then segLen c.entry p else 4096 * pieceBlocks s c (segOf s t p).left) true)
    else none
  | .record t =>
    let c := carrOf s t
    if !recordDue c then none
    else if eOp c.entry == 0x42 then some (oneRead (carrPort s t) 32 true)
    else some (oneRead (carrPort s t) (recordLen c.entry) true)
  | .anchor p =>
    let b := (s.win.get p).anc
    if b.busy then some (oneRead p b.pendLen false) else none
  | .lattice p =>
    let b := s.lat.run.get p
    if (s.win.get p).lat.busy && b.op == 4 && (s.lat.src.get p).isNone then some (oneRead p b.srcLen false) else none
  | .ucpSrc => if s.ucp.busy && s.ucp.src.isNone then (ucpPort s).map (fun p => oneRead p s.ucp.run.srcLen false) else none
  | .ucpAad => if s.ucp.busy && s.ucp.aad.isNone then (ucpPort s).map (fun p => oneRead p s.ucp.run.aadLen false) else none
  | .debugResp =>
    if s.lcs.chal == 2 && s.lcs.resp.isNone then some (oneRead s.lcs.reqPort sigLen false) else none
  | .stage =>
    if s.fwu.stage == 1 && s.fwu.stageData.isNone then some (oneRead s.fwu.stagePort s.fwu.stageLen false) else none

/-- A read has ended: its requests are no longer outstanding, and its bytes count where they were read for a taken entry
(R410). -/
def readOver (w : DmaRead) (j : ReadJob) (ok : Bool) (s : State) : State :=
  dropReads w j.port (updStats j.port (fun h => { h with dmaRd := if ok && j.counted then h.dmaRd + j.len else h.dmaRd }) s)

/-- The port of a read that has lost its consumer and is still outstanding. -/
def strayPort (s : State) (w : DmaRead) : Option Port :=
  if (s.stats.get .a).reads.any (·.what == w) then some .a
  else if (s.stats.get .b).reads.any (·.what == w) then some .b
  else none

/-- A fragment table has come: its fragments join the buffer's; a chain of more than 16 tables or 65,536 fragments, a CHAIN
entry that is not the last, a misaligned next table or a reserved bit breaks it (R106, R107). -/
def landTable (data : Bytes) (c : Carriage) : Carriage :=
  let es := (chunks 16 data).map fragEntry
  let link := (es.getLast?.map (·.chain)).getD false
  let frs := if link then es.dropLast else es
  let nxt := es.getLast?.getD { addr := 0, len := 0, chain := false, ok := true }
  let fs := c.frags ++ frs.map (fun e => (e.addr, e.len))
  let linkOk := nxt.addr % 16 == 0 && 1 ≤ nxt.len && nxt.len ≤ 4096 && c.chain < 15
  let ok := es.all (·.ok) && !frs.any (·.chain) && fs.length ≤ 65536 && (!link || linkOk)
  { c with
    asked := false, frags := fs, chain := c.chain + 1, chainOk := c.chainOk && ok, chainDone := !link || !ok
    nextTable := nxt.addr, nextCount := nxt.len }

/-- A descriptor copy has come: it is final only where it was fetched after its doorbell; a final copy of the wrong phase puts
its SQ in ERROR with PHASE_STALE (R84, R85). -/
def landEntry (sq pos : Nat) (data : Bytes) (s : State) : State :=
  let r := ringOf s sq
  let c := tget {} r.copies pos
  let ok := ePhase data == phaseAt (ringN r) pos
  if c.final && !ok then
    let a := flushDb sq (updRing sq (fun r => { r with copies := tdel r.copies pos }) s)
    if canErr (ringOf a sq) then ringError sq 5 a else a
  else updRing sq (fun r => { r with copies := tput r.copies pos { c with asked := false, bytes := data, phaseOk := ok } }) s

/-- A trust anchor's key has come: the anchor is VALID (R268). -/
def landAnchor (p : Port) (data : Bytes) (s : State) : State :=
  let b := (s.win.get p).anc
  seqd (updBnv (fun v => { v with anchors := tput v.anchors b.pendIndex { valid := true, alg := b.pendAlg, key := data } })
    (updAnc p (fun b => { b with busy := false, result := 0 }) s))

/-- What the data of a read is used for. -/
def land (w : DmaRead) (data : Bytes) (s : State) : State :=
  match w with
  | .descriptor sq pos => landEntry sq pos data s
  | .chain t => runAdmission t (updCarr t (landTable data) s)
  | .ticket t => runAdmission t (updCarr t (fun c => { c with asked := false, ticket := some data }) s)
  | .data t p =>
    let legacy := eOp (carrOf s t).entry == 0x09
    updSeg t p (fun g =>
      if legacy then { g with st := .ready, data := data } else stagedSeg { g with left := 0, data := data }) s
  | .record t =>
    let a := updCarr t (fun c => { c with record := some data, asked := false }) s
    if (carrOf s t).stage == .taken then runAdmission t a else a
  | .anchor p => landAnchor p data s
  | .lattice p => updLat (fun l => { l with src := l.src.set p (some data) }) s
  | .ucpSrc => updUcp (fun u => { u with src := some data }) s
  | .ucpAad => updUcp (fun u => { u with aad := some data }) s
  | .debugResp => updLcs (fun l => { l with resp := some data }) s
  | .stage => updFwu (fun f => { f with stageData := some data }) s

/-- HOST_DMA_READ_DONE: the data of a host read whose requests have all been sent arrives and is used (R45, R52); with its
consumer gone it is dropped. -/
def execHostDmaReadDone (what : DmaRead) (data : Bytes) (s : State) : Res :=
  match readJob s what with
  | none =>
    match strayPort s what with
    | some p => onlyIf (powered s && !readWaits what p s) s (dropReads what p s)
    | none => .next s
  | some j =>
    onlyIf (powered s && !inFault s && (s.hpt.get j.port).up && !readWaits what j.port s && data.length == j.len) s
      (land what data (readOver what j true s))

/-- What a failed read ends (R53, R119). -/
def landError (w : DmaRead) (s : State) : State :=
  match w with
  | .descriptor sq pos =>
    let a := flushDb sq (updRing sq (fun r => { r with copies := tdel r.copies pos }) s)
    if canErr (ringOf a sq) then ringError sq 3 a else a
  | .chain t | .ticket t => runAdmission t (updCarr t (fun c => { c with asked := false, dmaFail := true }) s)
  | .data t _ => stop t stFragmentError fragWord s
  | .record t =>
    if (carrOf s t).stage == .taken then runAdmission t (updCarr t (fun c => { c with asked := false, dmaFail := true }) s)
    else stop t stFragmentError fragWord s
  | .anchor p => updAnc p (fun b => { b with busy := false, result := 3 }) s
  | .lattice p => reap stKeyErased (latEnd p stFragmentError 0 s)
  | .ucpSrc | .ucpAad => reap stKeyErased (ucpEnd stFragmentError 0 s)
  | .debugResp => dbgEnd 6 (dropChallenge s)
  | .stage => stageEnd 1 s

/-- A failed read logged under AER (R53): its bit is poisoned data's, the timeout's, the Completer Abort's or, for an
Unsupported Request, that of the same name; which it was, and the header of poisoned data, is free (PRESUMED, log entry 33). -/
def aerRead (p : Port) (s : State) : State :=
  let n := drawn s
  let b := [0x1000, 0x4000, 0x8000, 0x100000].getD (n % 4) 0
  draw (updStats p (fun h => { h with cfg := { h.cfg with
    uncorStat := ((BitVec.ofNat 32 h.cfg.uncorStat) ||| BitVec.ofNat 32 b).toNat
    hdr := if b == 0x1000 then (List.range 4).map (fun i => bits (n / 4) (32 * i) 32) else h.cfg.hdr } }) s)

/-- A failed read counted and logged (R53), but where the port's block is held at reset (R48). -/
def badRead (p : Port) (s : State) : State :=
  if held (s.hpt.get p) then s
  else aerRead p (updHpt p (fun h => { h with dmaErrCnt := satInc 32 h.dmaErrCnt }) s)

/-- The read is a prefetch that no doorbell covers: what becomes of it shows nowhere (R38, R84). -/
def speculative (s : State) : DmaRead → Bool
  | .descriptor sq pos => !(tget {} (ringOf s sq).copies pos).final
  | _ => false

/-- DMA_READ_ERROR: a host read fails or times out; it is counted, and what it was made for ends (R53). A prefetch that
fails is discarded without a trace (R38). -/
def execDmaReadError (what : DmaRead) (s : State) : Res :=
  match readJob s what with
  | none =>
    match strayPort s what with
    | some p =>
      onlyIf (powered s && !inFault s) s
        (if speculative s what then dropReads what p s else badRead p (dropReads what p s))
    | none => .next s
  | some j =>
    onlyIf (powered s && !inFault s) s
      (match what, speculative s what with
       | .descriptor sq pos, true =>
         updRing sq (fun r => { r with copies := tdel r.copies pos }) (readOver what j false s)
       | w, _ => landError w (badRead j.port (readOver w j false s)))

/-! ### Requests that the port turns away (R51, R399, R400) -/

/-- A request turned away: a read of it returns bytes 0 (R51, R399). -/
def turnAway (p : Port) (read : Bool) (s : State) : State := if read then answer p 0 s else s

/-- A location of a BAR that no field table defines: it reads 0 and ignores writes, and no access to it is counted (R51, R398,
R414, R415). -/
def reservedAt (bar : Bar) (off : Nat) : Bool :=
  match bar with
  | .bar0 => (placeOf off).isNone
  | .page n => n ≥ 8192 || !among (fieldRanges .page) off
  | .bar4 => !among (fieldRanges .bar4) off

/-- The location accepts the requester (R50, R51): a manager sends no PASID, the tenant of slice `n` the slice's; each
operand memory accepts its own port's manager alone. -/
def accepts (p : Port) (pasid : Option Nat) (bar : Bar) (off : Nat) (s : State) : Bool :=
  match bar with
  | .bar0 => pasid == none
  | .page n =>
    n < 8192 && off < 0x2000 && (sliceOf s n).state != .empty && pasid == some (sliceOf s n).pasid
  | .bar4 => pasid == none && (off ≥ 0x20000 || off / 0x10000 == p.num)

/-- A discard counted; in FAULT counts stand still (R29, R51). -/
def discarded (p : Port) (s : State) : State :=
  if inFault s then s else updHpt p (fun h => { h with discardCnt := satInc 32 h.discardCnt }) s

/-- ACCESS_DISCARD: an access whose requester the location does not accept has no effect and, where the location is not
reserved, is counted; a read returns bytes 0 (R51). -/
def execAccessDiscard (p : Port) (x : Access) (s : State) : Res :=
  let bar := x.place.bar
  let off := x.place.off
  onlyIf (reach p s && !accepts p x.pasid bar off s) s (turnAway p x.read (if reservedAt bar off then s else discarded p s))

/-- REQUEST_TOO_LONG: a request of more than 128 bytes is discarded whole and counted (R399). -/
def execRequestTooLong (p : Port) (read : Bool) (s : State) : Res :=
  onlyIf (reach p s) s (turnAway p read
    (if inFault s then s else updHpt p (fun h => { h with sizeErrCnt := satInc 32 h.sizeErrCnt }) s))

/-- The place is one of BAR4 that takes any byte enables, or ignores writes uncounted: an operand memory, the event window
(R415). -/
def anyEnables (bar : Bar) (off : Nat) : Bool := bar == .bar4 && off < 0x81000

/-- PARTIAL_WRITE: a register write that does not cover its four bytes is ignored and counted; one to BAR0 abandons a legacy
load of its port (R212, R400). A reserved place counts nothing (R398), and an operand memory takes any byte enables (R415). -/
def execPartialWrite (p : Port) (place : BarPlace) (s : State) : Res :=
  let a := if reservedAt place.bar place.off then s
    else updHpt p (fun h => { h with sizeErrCnt := satInc 32 h.sizeErrCnt }) (cntWr p s)
  onlyIf (wr p .chp s && !anyEnables place.bar place.off) s (if place.bar == .bar0 then legTouch p a else a)

end Sys2Proof.Machine
end

