-- ==== Sys2Proof/Machine/RegHost.lean ====
section
/-! DEFINITION. What the registers of the host, ring, slice and turntable blocks read (03, 04, 05, 07, 13, R403, R404, R409,
R410, R414). -/
namespace Sys2Proof.Machine

/-- The low half of a 64-bit value. -/
def lo32 (x : Nat) : Nat := x % 2 ^ 32

/-- The high half of a 64-bit value. -/
def hi32 (x : Nat) : Nat := x / 2 ^ 32 % 2 ^ 32

/-- Word `i` of a byte string (R4). -/
def wordAt (b : Bytes) (i : Nat) : Nat := fld b (4 * i) 4

/-- A count of `w` bits, saturating. -/
def sat (w x : Nat) : Nat := min (2 ^ w - 1) x

/-- The code of CHP_STAT.MODE. -/
def modeCode : Mode → Nat
  | .booting => 0 | .running => 1 | .service => 2 | .recovery => 3 | .fault => 4

/-- CHP (R409, 02, 20). -/
def readChp (s : State) (p : Port) (off : Nat) : Nat :=
  let c := s.chp
  let l := (s.win.get p).lat64
  match off with
  | 0x00 => 0x7416A001
  | 0x04 => modeCode c.mode + b2n c.bootLock * 8 + b2n c.vaultOpen * 16 + b2n c.woke * 32
  | 0x08 => c.faultCause
  | 0x10 => wordAt unitId16 0
  | 0x14 => wordAt unitId16 1
  | 0x18 => wordAt unitId16 2
  | 0x1C => wordAt unitId16 3
  | 0x40 => lo32 s.csn
  | 0x44 => l.csnHi
  | 0x48 => c.bootCnt
  | 0x50 => lo32 s.now
  | 0x54 => l.timeHi
  | 0x60 => c.f2cOcc
  | 0x64 => c.f2cHwm
  | 0x68 => c.f2cStall
  | _ => 0

/-- PORT of a turntable's status: 1 port A, 2 port B, 0 none. -/
def holderCode (h : Option Port) : Nat :=
  match h with
  | none => 0
  | some p => p.num + 1

/-- Milliseconds left on a lease, rounded up (03 turntable table). -/
def leaseLeft (s : State) (t : Turntable) : Nat :=
  if t.holder.isSome && t.leaseLen != 0 then ceilDiv (t.leaseFrom + 1000 * t.leaseLen - s.now) 1000 else 0

/-- TTB but for TTB_ACQ, whose read acts (03). -/
def readTtb (s : State) (off : Nat) : Nat :=
  let t := tableOf s (off / 16)
  if off == 0x400 then s.ttb.badRel.a + s.ttb.badRel.b * 2 ^ 16
  else if off ≥ 0x400 then 0
  else if off % 16 == 8 then
    b2n t.holder.isSome * 2 ^ 31 + holderCode t.holder * 2 ^ 29 + b2n t.waiter * 2 ^ 28 + b2n t.forced * 2 ^ 27 + leaseLeft s t
  else if off % 16 == 12 then t.lease
  else 0

/-- HPT_LINK. -/
def linkShown (h : HptPort) : Nat := b2n h.up * 2 ^ 10 + b2n h.flit * 2 ^ 9 + h.width * 2 ^ 4 + h.speed

/-- A port's HPT block as its registers show it: one that is held at reset keeps the LOSS fields alone (R48). -/
def hptShown (h : HptPort) : HptPort :=
  if held h then { lossCnt := h.lossCnt, lossCause := h.lossCause, lossAborts := h.lossAborts } else h

/-- The same of its statistics and mirrors. -/
def statsShown (h : HptPort) (t : HptStats) : HptStats := if held h then {} else t

/-- The HPT block of port `q` (03, R410). -/
def readHpt (s : State) (q : Port) (off : Nat) : Nat :=
  let h := hptShown (s.hpt.get q)
  let t := statsShown (s.hpt.get q) (s.stats.get q)
  let c := t.cfg
  match off with
  | 0x00 => q.num
  | 0x04 => linkShown h
  | 0x08 => h.lossCnt
  | 0x0C => lossCode h.lossCause
  | 0x10 => h.lossAborts
  | 0x14 => h.discardCnt
  | 0x18 => h.guardCnt
  | 0x1C => h.dmaErrCnt
  | 0x20 => h.intStat.toNat
  | 0x24 => h.intEn.toNat
  | 0x28 => lo32 h.ttbFreed.toNat
  | 0x2C => hi32 h.ttbFreed.toNat
  | 0x40 => h.inOcc
  | 0x44 => h.inHwm
  | 0x48 => h.inStall
  | 0x4C => h.outOcc
  | 0x50 => h.outHwm
  | 0x54 => h.outStall
  | 0x58 => h.sizeErrCnt
  | 0x5C => h.rangeCnt
  | 0x60 => c.mps + c.mrrs * 2 ^ 4 + b2n c.roEn * 2 ^ 8 + b2n c.tag10 * 2 ^ 9
  | 0x64 => b2n c.pasidEn + b2n c.msixEn * 2 + b2n c.fnMask * 4 + b2n c.bme * 8
  | 0x68 => c.ctoValue + b2n c.ctoDis * 16
  | 0x80 => c.uncorStat
  | 0x84 => c.uncorMask
  | 0x88 => c.uncorSev
  | 0x8C => c.corStat
  | 0x90 => c.corMask
  | 0x94 => c.capCtrl
  | 0x98 => c.hdr.getD 0 0
  | 0x9C => c.hdr.getD 1 0
  | 0xA0 => c.hdr.getD 2 0
  | 0xA4 => c.hdr.getD 3 0
  | 0x100 => sat 32 (t.dmaRd / 65536)
  | 0x104 => sat 32 (t.dmaWr / 65536)
  | 0x108 => t.regRd
  | 0x10C => t.regWr
  | 0x110 => t.dbRx
  | 0x114 => t.cqeTx
  | 0x118 => t.msixTx
  | 0x11C => t.scrubWr
  | 0x120 => t.npHwm
  | 0x124 => t.replay
  | 0x128 => t.recovery
  | _ => if 0x140 ≤ off && off ≤ 0x17C then tget 0 t.laneErr ((off - 0x140) / 4) else 0

/-- A ring setup window with its abort cookie, at its own offsets 0x00 to 0x4C (04, R122). -/
def readRs (s : State) (w : RsWin) (off : Nat) : Nat :=
  if off < 0x40 then wordAt w.data (off / 4)
  else if off == 0x44 then w.result + b2n (s.now < w.busyUntil) * 2 ^ 31
  else if off == 0x48 then w.abortCookie
  else 0

/-- CAR (04, 05, 07). -/
def readCar (s : State) (p : Port) (off : Nat) : Nat :=
  let c := s.car
  match off with
  | 0x50 => c.brakeAlert
  | 0x54 => (brakedCqs s).length
  | 0x58 => sidingUsed s
  | 0x5C => c.sidingHwm
  | 0x60 => c.ctxHit
  | 0x64 => c.ctxMiss
  | 0x68 => tcount c.rings (fun _ r => isPinned r)
  | 0x6C => c.badDb
  | 0x70 => c.dbq.length
  | 0x74 => c.dbqHwm
  | 0x78 => c.overrunCnt
  | 0x7C => c.sidingDrop
  | 0x80 => tagsUsed s
  | 0x84 => c.tagsHwm
  | 0x88 => c.refusedCnt
  | 0x8C => c.abortedCnt
  | 0x90 => c.legWait.length
  | 0xA0 => c.scrubCarr
  | 0xA4 => lo32 c.scrubBytes
  | 0xA8 => (s.win.get p).lat64.scrubHi
  | 0xAC => c.shadowHits
  | 0xB0 => c.shadowReread
  | 0xB4 => c.unscrubCnt
  | _ => if off < 0x4C then readRs s (s.win.get p).rs off else 0

/-- SLC (13). -/
def readSlc (s : State) (p : Port) (off : Nat) : Nat :=
  let w := (s.win.get p).slc
  let x := sliceOf s w.mbxSel
  let b := bindShown s p
  match off with
  | 0x24 => w.result + b2n (s.now < w.busyUntil) * 2 ^ 31
  | 0x30 => w.bindOwner
  | 0x38 => b.1 + b2n (s.now < w.bindBusyUntil) * 8 + b.2.1 * 2 ^ 8 + b2n b.2.2 * 2 ^ 31
  | 0x40 => w.mbxSel
  | 0x48 => b2n x.inFull + b2n x.outFull * 2 + x.inLen * 2 ^ 8 + x.outDisc * 2 ^ 24
  | 0x4C =>
    match tkeys s.slc.slices (fun _ y => y.inFull) with
    | [] => 0
    | n :: _ => n + 2 ^ 31
  | 0x50 =>
    tcount s.slc.slices (fun _ y => y.state != .empty) +
      tcount s.slc.slices (fun _ y => y.state == .freezing || y.state == .frozen) * 2 ^ 16
  | _ =>
    if off < 0x20 then wordAt w.data (off / 4)
    else if 0x1000 ≤ off && off < 0x1100 then wordAt x.inBox ((off - 0x1000) / 4)
    else if 0x1100 ≤ off && off < 0x1200 then wordAt x.outBox ((off - 0x1100) / 4)
    else 0

/-- The page of slice `n` (R29, R414). -/
def readPage (t : State) (n off : Nat) : Nat :=
  let s := seen t
  let x := sliceOf (shareSync s) n
  match off with
  | 0x1204 => b2n x.inFull + b2n x.outFull * 2 + x.outLen * 2 ^ 8 + x.inDisc * 2 ^ 24
  | 0x1400 => sliceCode x.state + x.home.num * 8 + x.weightNow * 2 ^ 16
  | 0x1404 => x.ringBase + x.ringCnt * 2 ^ 20
  | 0x1408 => x.vecBase + x.vecCnt * 2 ^ 16
  | 0x140C => inflight s n + x.inflightQuota * 2 ^ 16
  | 0x1410 => slotsOfSlice s n + x.slotQuota * 2 ^ 16
  | 0x1414 => x.retSealed + x.retMapped * 2 ^ 16
  | 0x1418 => x.freezes + x.retLost * 2 ^ 16
  | _ =>
    if 0x1000 ≤ off && off < 0x1100 then wordAt x.inBox ((off - 0x1000) / 4)
    else if 0x1100 ≤ off && off < 0x1200 then wordAt x.outBox ((off - 0x1100) / 4)
    else if 0x1300 ≤ off && off < 0x134C then readRs s x.rs (off - 0x1300)
    else 0

end Sys2Proof.Machine
end

