-- ==== Sys2Proof/Machine/RegCore.lean ====
section
/-! DEFINITION. What the registers of the array, media, key, engine, tamper, event, life-cycle, manifest, update, drawbar,
memory, world and governor blocks read (06, 08 to 12, 14 to 20, R411-R413). -/
namespace Sys2Proof.Machine

/-- The code of a region's STATE (R411). -/
def regionCode_ : RegionState → Nat
  | .normal => 0 | .degraded => 1 | .lost => 2

/-- The region serves the ports of a DEGRADED one (SERVING). -/
def serving (s : State) (x : Nat) : Bool :=
  (List.range 4).any (fun r => r != x && (regionOf s r).state == .degraded && (servers s r).contains x)

/-- SRAM granules held by hold-mode segments of region `x` (R164). -/
def holdGranules (s : State) (x : Nat) : Nat :=
  (s.car.cars.map (fun e => if eOp e.2.entry == 0x02 && (ringOf s e.2.sq).hold then carrHolds e.2 x else 0)).sum

/-- Media ports of region `x` that straggle (R144). -/
def straggling (s : State) (x : Nat) : Nat :=
  (List.range 128).countP (fun i => straggles s (128 * x + i))

/-- CAY, one region (06, R411). -/
def readCay (s : State) (off : Nat) : Nat :=
  let x := off / 0x4000
  let r := regionOf s x
  let w := workOf s x
  match off % 0x4000 with
  | 0x00 => regionCode_ r.state + b2n (serving s x) * 4 + (govOf s x).step * 16 + r.blkRetired.toNat * 2 ^ 8
  | 0x04 => r.cellFenced.toNat
  | 0x08 => r.shuntCnt
  | 0x0C => r.kstgCe
  | 0x10 => r.kstgUe
  | 0x14 => r.xbarUe
  | 0x18 => r.d2dCe
  | 0x1C => r.d2dUe
  | 0x20 => stgOcc s x
  | 0x24 => r.stgHwm
  | 0x28 => r.spillLow + r.spillAge * 2 ^ 16 + b2n r.spillEn * 2 ^ 31
  | 0x2C => spillOcc s x
  | 0x30 => r.spillCnt
  | 0x34 => straggling s x
  | 0x38 => r.f2rOcc
  | 0x3C => r.f2rHwm
  | 0x40 => r.f2rStall
  | 0x44 => r.segCnt
  | 0x48 => r.tagFailCnt
  | 0x4C => r.keyLoads
  | 0x50 => r.keyEvict
  | 0x54 => r.degSegCnt
  | 0x58 => w.busyCyc
  | 0x5C => w.waitCyc
  | 0x80 => readyIn s x + w.readyHwm * 2 ^ 16
  | 0x84 => (w.blocks.map (fun b => b.2.keys.length)).sum
  | 0x88 => r.spillHwm
  | 0x8C => holdGranules s x
  | 0x90 => w.holdSeg
  | 0x94 => w.rekeyXbar
  | 0x98 => loaned s x
  | 0x9C => if x == 0 then w.legacyUnits else 0
  | o => if 0x60 ≤ o && o ≤ 0x7C then (blockOf s x ((o - 0x60) / 4)).segCnt else 0

/-- HOT_CLIP: hot ports of awake shelves that do not fit (R180). -/
def hotClip (s : State) : Nat := ((List.range 512).filter (wantsHot s)).length - (effBudget s - 16)

/-- SHELF_STAT of shelf `n` (08). -/
def shelfStat (s : State) (n : Nat) : Nat :=
  let h := shelfOf s n
  let ds := (shelfDrives n).map (driveOf s)
  shelfCode h.state + b2n h.dropped * 8 + h.cause * 16 + (readyDrives s n).length * 2 ^ 8 +
    ds.countP (fun d => d.state == .failed || d.state == .unusable) * 2 ^ 16 + ds.countP (·.present) * 2 ^ 24

/-- MDF (08). -/
def readMdf (s : State) (p : Port) (off : Nat) : Nat :=
  let m := s.mdf
  let d := rollLat s.now (diagOf s (s.win.get p).diagSel)
  match off with
  | 0x00 => m.laneBudget
  | 0x04 => l0Now s + effBudget s * 2 ^ 8 + m.l0Hwm * 2 ^ 16
  | 0x08 => m.idlePark
  | 0x50 => hotClip s
  | 0x60 => m.maxShelves + m.stagger * 2 ^ 8 + m.readyMax * 2 ^ 16
  | 0x64 => m.cmdTimeout
  | 0x68 => m.qpairs + m.depth * 2 ^ 8 + m.maxXfer * 2 ^ 16
  | 0xE0 => (s.win.get p).diagSel
  | 0xE4 => d.cmds
  | 0xE8 => d.lat
  | 0xEC => d.err + d.tmo * 2 ^ 16
  | 0xF0 => d.reset + d.dmaBlk * 2 ^ 8 + d.fail * 2 ^ 16
  | _ =>
    if 0x10 ≤ off && off < 0x50 then (m.hot.extractLsb' (8 * (off - 0x10)) 32).toNat
    else if 0x80 ≤ off && off < 0xA0 then shelfStat s ((off - 0x80) / 4)
    else if 0xA0 ≤ off && off < 0xE0 then
      let l := linkOf s ((off - 0xA0) / 4)
      l.retries + l.lost * 2 ^ 16 + b2n l.down * 2 ^ 24
    else 0

/-- The code of a drive's state (MDP). -/
def driveCode : DriveState → Nat
  | .absent => 0 | .off => 1 | .init => 2 | .ready => 3 | .unusable => 4 | .failed => 5

/-- The code of a port's lane state (MDP). -/
def laneCode : LaneState → Nat
  | .down => 0 | .l0 => 1 | .l12 => 2 | .training => 3

/-- MDP (08). -/
def readMdp (s : State) (off : Nat) : Nat :=
  let i := off / 0x40
  let d := driveOf s i
  let g := diagOf s i
  match off % 0x40 with
  | 0x00 =>
    driveCode d.state + laneCode d.lane * 8 + d.speed * 2 ^ 5 + b2n (heldHot s i) * 2 ^ 8 + b2n d.present * 2 ^ 9 +
      b2n d.perst * 2 ^ 10 + d.ioq * 2 ^ 11 + cmdsOut d * 2 ^ 16
  | 0x04 => g.r2mOcc + g.r2mHwm * 2 ^ 8 + g.r2mStall * 2 ^ 16
  | _ => 0

/-- KST: slots and the legacy register (09). -/
def readSlots (s : State) (p : Port) (off : Nat) : Nat :=
  let k := s.kst
  let w := s.win.get p
  let x := slotOf s w.slotSel
  match off with
  | 0x00 => slotsUsed s + k.slotsHwm * 2 ^ 16
  | 0x04 =>
    tcount k.slots (fun _ x => x.state == .pending || x.state == .orphaned) +
      tcount k.slots (fun _ x => x.state != .free && x.session) * 2 ^ 16
  | 0x08 => k.remaskPeriod
  | 0x0C => k.remaskLate
  | 0x10 => k.remaskPasses
  | 0x14 => tcount k.slots (fun _ x => x.unmasked) + min 255 k.masks.length * 2 ^ 16
  | 0x40 => w.slotSel
  | 0x44 => slotCode x.state + b2n x.session * 4 + b2n x.unmasked * 8 + b2n x.retained * 16 + x.gen * 2 ^ 16
  | 0x48 => x.engine.toNat + x.usage.toNat * 16 + x.sizeCode * 2 ^ 9 + b2n x.mlen * 2 ^ 13
  | 0x4C => x.owner
  | 0x50 => x.scope + x.use * 2 ^ 15
  | 0x54 => x.count
  | 0x60 => w.replSrc
  | 0x64 => w.replDst
  | 0x6C => w.replStat
  | 0x80 => k.unwrapCnt
  | 0x84 => k.unwrapFail
  | 0x88 => k.orphanCnt
  | 0x8C => k.eraseTmo
  | 0x90 => k.kek.length
  | 0x144 => legKcv s
  | 0x148 =>
    b2n s.leg.loaded + b2n s.leg.loading * 2 + s.leg.next * 4 + s.leg.last * 2 ^ 8 + legPortCode s * 2 ^ 12 +
      s.leg.commits * 2 ^ 16
  | 0x14C => s.leg.abandonCnt
  | _ => 0

/-- KST: the vault and quorum registers (10). -/
def readVault (s : State) (p : Port) (off : Nat) : Nat :=
  let v := s.vlt
  let l := (s.win.get p).lat64
  match off with
  | 0x20 => lo32 v.epoch
  | 0x24 => l.epochHi
  | 0x200 => vaultCode v.mode + v.cause * 8 + v.devA * 2 ^ 6 + v.devB * 2 ^ 8
  | 0x204 => tcount v.img.owners (fun _ o => o.state == .active)
  | 0x208 => (openProps s).length + tcount v.img.roster (fun _ o => o.state == .active) * 2 ^ 11
  | 0x20C => v.window
  | 0x210 => v.commitCnt
  | 0x214 => v.replayed + v.discarded * 2 ^ 8
  | 0x218 => lo32 s.bbr.floor
  | 0x21C => l.floorHi
  | 0x220 => v.passPct + v.passes * 2 ^ 16
  | 0x224 => v.a.ce + v.a.fail * 2 ^ 16
  | 0x228 => v.b.ce + v.b.fail * 2 ^ 16
  | 0x22C => v.a.bad + v.b.bad * 2 ^ 16
  | 0x230 => v.purge
  | 0x234 => v.commitLat
  | _ => if 0x240 ≤ off && off < 0x250 then wordAt (natLe 16 v.id) ((off - 0x240) / 4) else 0

/-- UCP but for UCP_LOCK, whose read acts (12). -/
def readUcp (s : State) (off : Nat) : Nat :=
  let u := s.ucp
  match off with
  | 0x04 =>
    b2n u.holder.isSome * 2 ^ 31 + (u.holder.map userCode).getD 0 * 2 ^ 29 + b2n u.waiter * 2 ^ 28 + b2n u.forced * 2 ^ 27 +
      (if u.holder.isSome then (if u.busy then u.idle else ceilDiv (u.idleFrom + 1000 * u.idle - s.now) 1000) else 0)
  | 0x08 => u.idle
  | 0x0C => u.badRel + u.denyCnt * 2 ^ 16
  | 0x10 => u.op
  | 0x14 => u.handle
  | 0x18 => u.srcLo
  | 0x1C => u.srcHi
  | 0x20 => u.srcLen
  | 0x24 => u.aadLo
  | 0x28 => u.aadHi
  | 0x2C => u.aadLen
  | 0x30 => u.dstLo
  | 0x34 => u.dstHi
  | 0x38 => u.dstLen
  | 0x64 => b2n u.busy + u.status * 2 ^ 8
  | 0x68 => u.outLen
  | _ =>
    if 0x40 ≤ off && off < 0x4C then wordAt u.iv ((off - 0x40) / 4)
    else if 0x50 ≤ off && off < 0x60 then wordAt u.tag ((off - 0x50) / 4)
    else 0

/-- LAT (12). -/
def readLat (s : State) (p : Port) (off : Nat) : Nat :=
  let b := (s.win.get p).lat
  match off with
  | 0x00 => b.op + b.ctxLen * 2 ^ 8 + b2n b.wx * 2 ^ 16
  | 0x04 => b.handle
  | 0x08 => b.owner
  | 0x0C => b.scope
  | 0x10 => b.srcLo
  | 0x14 => b.srcHi
  | 0x18 => b.srcLen
  | 0x20 => b.dstLo
  | 0x24 => b.dstHi
  | 0x28 => b.dstLen
  | 0x30 => b2n b.busy + b.status * 2 ^ 8
  | 0x34 => b.result
  | 0x40 => s.lat.queue.length - 1
  | 0x44 => s.lat.opsCnt
  | _ => 0

/-- A privileged channel's registers, at its own offsets (12). -/
def readChan (c : BnvChan) (off : Nat) : Nat :=
  match off with
  | 0x00 => c.op + c.curve * 2 ^ 4 + c.len * 2 ^ 8
  | 0x04 => c.slots
  | 0x0C => b2n c.busy + c.status * 2 ^ 8 + c.reason * 2 ^ 16
  | 0x10 => c.time
  | 0x14 => c.conflict
  | _ => 0

/-- BNV: a port reaches its own privileged channel only (12, R404). -/
def readBnv (s : State) (p : Port) (off : Nat) : Nat :=
  let b := (s.win.get p).anc
  let a := tget {} s.bnv.anchors b.index
  match off with
  | 0x00 =>
    ((List.range 6).map (fun c => b2n (tget none s.bnv.chans c).isSome * 2 ^ c)).sum + b2n s.bnv.priv.a.busy * 2 ^ 6 +
      b2n s.bnv.priv.b.busy * 2 ^ 7
  | 0x04 => s.bnv.queue.length
  | 0x08 => s.bnv.verifyCnt
  | 0x0C => s.bnv.rejectCnt
  | 0x20 => b.index
  | 0x24 => b.alg
  | 0x28 => b.addrLo
  | 0x2C => b.addrHi
  | 0x30 => b.len
  | 0x38 => b2n b.busy + b.result * 2 ^ 8
  | 0x3C => if a.valid then 1 + a.alg * 16 + a.key.length * 2 ^ 16 else 0
  | _ =>
    let base := 0x100 + 0x40 * p.num
    if base ≤ off && off < base + 0x18 then readChan (s.bnv.priv.get p) (off - base) else 0

/-- The code of RNG_STAT.STATE. -/
def rngCode : RngState → Nat
  | .stopped => 0 | .starting => 1 | .seeded => 2 | .failed => 3

/-- RNG (11). -/
def readRng (s : State) (off : Nat) : Nat :=
  let r := s.rng
  match off with
  | 0x04 => rngCode r.state + r.cause * 16 + r.kat * 2 ^ 6 + b2n r.debias * 2 ^ 8
  | 0x08 => b2n r.debiasCfg
  | 0x0C => r.failLimit
  | 0x10 => r.wait
  | 0x14 => r.failCnt
  | 0x18 => sat 8 (r.failStamps.countP (fun t => s.now < t + 1000000))
  | 0x1C => cellFailWord r
  | 0x20 => 0x03200029
  | 0x24 => r.tender.length
  | 0x28 => r.tenderLow
  | 0x2C => r.waiters.length
  | 0x30 => r.reseedCnt
  | 0x34 => r.reqSince
  | 0x38 => r.notSeeded
  | 0x3C => r.declared + r.starts * 2 ^ 16
  | 0x40 => r.instTime
  | 0x90 => r.persLen
  | _ => if 0x60 ≤ off && off < 0x90 then wordAt r.pers ((off - 0x60) / 4) else 0

/-- COND: the sources active now, on main power or on VBAT (15). -/
def condBits (s : State) : Nat :=
  ((List.range 12).map (fun i =>
    b2n (s.tmp.active.any (fun a => a.source == i + 1) || s.bbr.active.any (fun x => x.1 == i + 1)) * 2 ^ i)).sum

/-- A reading's extreme with its VALID bit (R412). -/
def extreme (x : Option Nat) : Nat :=
  match x with
  | none => 0
  | some v => v + 2 ^ 31

/-- TMP (15, R412). -/
def readTmp (s : State) (off : Nat) : Nat :=
  let t := s.tmp
  let rd (i : Nat) : Nat := tget 0 t.readings i
  match off with
  | 0x00 => b2n t.dataStop + t.lastClass * 2 + b2n t.vaultLocked * 16
  | 0x04 => condBits s
  | 0x08 => t.latch.toNat
  | 0x10 => t.holdoff + t.resumeDeny * 2 ^ 16
  | 0x14 => t.cntA + t.cntB * 2 ^ 8 + t.cntC * 2 ^ 16
  | 0x18 => t.disPd + t.disCan * 2 ^ 16
  | 0x1C => t.testPd * 4 + t.testCan * 16
  | 0x20 => t.loopEn.toNat
  | 0x24 => rd 6 + rd 7 * 2 ^ 16
  | 0x28 => rd 0 + rd 1 * 2 ^ 16
  | 0x2C => rd 2 + rd 3 * 2 ^ 16
  | 0x30 => rd 4 + rd 5 * 2 ^ 16
  | 0x34 => t.eraseNs
  | 0x40 =>
    b2n t.bdLost + b2n t.alarmedBoot * 2 + b2n (s.bbr.share0 != 0 || s.bbr.share1 != 0) * 4 + s.fuses.bdEpoch * 2 ^ 8
  | 0x44 => s.bbr.buffer.length + s.bbr.abufLost * 2 ^ 16
  | _ =>
    if 0x48 ≤ off && off < 0x58 then rd (8 + (off - 0x48) / 4) + tget 0 t.regTj ((off - 0x48) / 4) * 2 ^ 16
    else if 0x80 ≤ off && off < 0xF0 then
      (if off % 8 == 0 then extreme (tget none t.mins ((off - 0x80) / 8)) else extreme (tget none t.maxs ((off - 0x80) / 8)))
    else 0

/-- EVR (16). -/
def readEvr (s : State) (p : Port) (off : Nat) : Nat :=
  let e := s.evr
  let w := (s.win.get p).evr
  match off with
  | 0x00 => b2n w.busy + b2n e.full * 2 + b2n e.displacing * 4 + b2n e.flushing * 8 + evrDevs s * 16
  | 0x04 => e.period
  | 0x0C => w.cursor
  | 0x10 => ((heldRecs e).head?.map (·.seq)).getD e.nextSeq
  | 0x14 => e.nextSeq
  | 0x18 => e.flushedSeq
  | 0x1C => e.floor
  | 0x20 => bufOcc e
  | 0x24 => e.bufHwm
  | 0x28 => e.ovfCnt
  | 0x2C => e.freeBlocks
  | 0x30 => e.lastSeal
  | 0x34 => e.flushCnt
  | 0x38 => w.winLen
  | 0x3C => e.flushLat
  | 0x40 => e.torn
  | _ => 0

/-- LCS (17). -/
def readLcs (s : State) (off : Nat) : Nat :=
  let l := s.lcs
  match off with
  | 0x00 =>
    lifeCode l.state + b2n l.unlocked * 2 ^ 8 + b2n l.pending * 2 ^ 9 + b2n l.burning * 2 ^ 10 + b2n l.repaired * 2 ^ 11 +
      b2n l.mismatch * 2 ^ 12 + l.pendState * 2 ^ 16
  | 0x04 => s.fuses.copyA.toNat
  | 0x08 => s.fuses.copyB.toNat
  | 0x0C => s.fuses.copyC.toNat
  | 0x14 => l.transStat
  | 0x18 => s.fuses.tokenUsed.toNat
  | 0x1C => l.tokenFails
  | 0x44 => l.chal + l.dbgResult * 2 ^ 8 + l.granted * 2 ^ 16
  | 0x88 => l.respLo
  | 0x8C => l.respHi
  | 0x94 => l.grants
  | 0xA0 => arbCount s.fuses
  | 0xA4 => b2n s.fuses.certBurned
  | _ => if 0x48 ≤ off && off < 0x88 then wordAt l.chalBytes ((off - 0x48) / 4) else 0

/-- MNF (18, R413). -/
def readMnf (s : State) (off : Nat) : Nat :=
  let m := s.mnf
  match off with
  | 0x00 =>
    m.copy + b2n m.service * 4 + m.aFail * 16 + m.bFail * 2 ^ 8 + m.reports.length * 2 ^ 16 + b2n m.reportOvf * 2 ^ 25 +
      m.signer * 2 ^ 26 + m.depth * 2 ^ 28
  | 0x04 => m.serial
  | 0x08 => m.format
  | 0x40 => b2n m.legacyWrite + b2n m.fwCosign * 2 + m.refreshDays * 2 ^ 16
  | 0x44 => m.nsid
  | 0x48 => m.smbAddr
  | 0x4C => m.subsysVid + m.subsysId * 2 ^ 16
  | _ =>
    if 0x10 ≤ off && off < 0x30 then wordAt m.digest ((off - 0x10) / 4)
    else if 0x1000 ≤ off && off < 0x2000 then
      match m.reports[(off - 0x1000) / 16]? with
      | none => 0
      | some r =>
        match off % 16 with
        | 0 => r.field + r.reason * 2 ^ 16
        | 4 => lo32 r.read
        | 8 => lo32 r.applied
        | _ => 0
    else 0

/-- The version of the inactive slot's image: 0 where it holds none that is valid (FWU STG_VER). -/
def stagedVersion (s : State) : Bytes :=
  let img := slotImage s (otherSlot s)
  if imageCheck s s.mnf.fwCosign img == 0 then sub img 8 8 else zeros 8

/-- ACT_TIME of the pending record. -/
def pendingTime (s : State) : Nat := if actPending s then actTime s else 0

/-- FWU (18). -/
def readFwu (s : State) (p : Port) (off : Nat) : Nat :=
  let f := s.fwu
  match off with
  | 0x00 =>
    f.active + b2n f.trial * 2 + b2n f.fallback * 4 + b2n f.recovery * 8 + b2n (actPending s) * 16 + b2n f.migrating * 32 +
      f.stage * 2 ^ 6 + f.stageResult * 2 ^ 8
  | 0x04 => wordAt f.ver 0
  | 0x08 => wordAt f.ver 1
  | 0x0C => wordAt (stagedVersion s) 0
  | 0x10 => wordAt (stagedVersion s) 1
  | 0x14 => f.addrLo
  | 0x18 => f.addrHi
  | 0x1C => f.len
  | 0x24 => lo32 (pendingTime s)
  | 0x28 => (s.win.get p).lat64.actTimeHi
  | 0x2C => f.migFrom + f.migTo * 2 ^ 8 + f.migPct * 2 ^ 16
  | 0x30 => f.actResult
  | 0x34 => f.actCnt + f.fallbacks * 2 ^ 16
  | _ => 0

/-- MARKS_MISSED: a member counts the missed cycles of the present gap as they pass (19). -/
def marksMissedNow (s : State) : Nat :=
  if s.drb.head then s.drb.marksMissed else satAdd 32 s.drb.marksMissed (missedSince s - s.drb.missRun)

/-- DRB (19). -/
def readDrb (s : State) (p : Port) (off : Nat) : Nat :=
  let d := s.drb
  let m := memberOf s (s.win.get p).tblSel
  match off with
  | 0x00 =>
    b2n d.head + drbCode d.state * 2 + b2n d.timeValid * 16 + d.addr * 2 ^ 8 +
      (if d.head then tcount d.members (fun _ m => m.state == 1) else 0) * 2 ^ 16
  | 0x04 => enc16 d.lastE
  | 0x08 => d.delay
  | 0x0C => d.marksRx
  | 0x10 => marksMissedNow s
  | 0x14 => d.crcErr
  | 0x18 => d.steps
  | 0x1C => d.stepMax
  | 0x20 => sat 32 d.slewLeft
  | 0x24 => d.joinRefused
  | 0x40 => (s.win.get p).tblSel
  | 0x44 => m.state + m.missed * 2 ^ 8
  | 0x58 => m.delay
  | 0x5C => if m.state == 2 then min 3600 ((s.now - m.absentAt) / 1000000) else 0
  | _ => if 0x48 ≤ off && off < 0x58 then wordAt (natLe 16 m.id) ((off - 0x48) / 4) else 0

/-- MEM (20). -/
def readMem (s : State) (off : Nat) : Nat :=
  let m := s.mem
  match off with
  | 0x00 => m.capacity + b2n m.trained * 4 + b2n m.cfgErr * 8 + b2n m.selfRefresh * 16
  | 0x04 => m.retrainCnt
  | 0x08 => m.ceCnt
  | 0x0C => m.ueCnt
  | 0x10 => m.macRc + m.macNq * 2 ^ 8 + m.macTc * 2 ^ 16 + m.macVw * 2 ^ 24
  | 0x14 => m.mr4Max
  | 0x20 => m.f2mOcc
  | 0x24 => m.f2mHwm
  | 0x28 => m.f2mStall
  | 0x2C => m.rdBytes
  | 0x30 => m.wrBytes
  | _ => 0

/-- The code of a world's state (WLD_STAT). -/
def worldCode : WorldState → Nat
  | .starting => 0 | .running => 1 | .restarting => 2 | .halted => 3 | .failed => 4

/-- A bit for each gate that passes the test, in the order of GATE_REQ. -/
def gateBits (s : State) (f : Gate → Bool) : Nat :=
  ((List.range 5).map (fun i => b2n (f (tget {} s.wld.gates i)) * 2 ^ i)).sum

/-- WLD (14). -/
def readWld (s : State) (off : Nat) : Nat :=
  let w := s.wld
  match off with
  | 0x00 =>
    b2n w.memMode + b2n w.predMode * 2 + b2n w.assignLock * 4 + worldCode w.secure.state * 16 + worldCode w.normal.state * 2 ^ 8
  | 0x04 => w.cpuStat
  | 0x08 => w.secure.wdt
  | 0x0C => w.normal.wdt
  | 0x10 => w.secure.rstCnt + w.normal.rstCnt * 2 ^ 16
  | 0x14 => w.secure.cause + w.normal.cause * 16
  | 0x18 => w.secure.aborts + w.normal.aborts * 2 ^ 16
  | 0x1C => w.assign
  | 0x20 => w.mcallCnt
  | 0x24 => w.violCnt
  | 0x28 => w.violAddr
  | 0x30 => gateBits s (·.req) + gateBits s (·.deferred) * 2 ^ 8 + gateBits s (·.on) * 2 ^ 16
  | 0x34 => w.gateLate
  | 0x38 => dbgEnables s
  | _ =>
    if 0x40 ≤ off && off < 0x70 then wordAt w.secure.meas ((off - 0x40) / 4)
    else if 0x70 ≤ off && off < 0xA0 then wordAt w.normal.meas ((off - 0x70) / 4)
    else 0

/-- GOV (20). -/
def readGov (s : State) (off : Nat) : Nat :=
  let g := s.gov
  match off with
  | 0x00 => g.floor
  | 0x04 => g.ceil
  | 0x08 => g.pwrCap
  | 0x0C =>
    g.capStep + g.thermStep * 2 ^ 4 + hwLimit s * 2 ^ 8 + effFloor s * 2 ^ 12 + effCeil s * 2 ^ 16 + laneLimit s * 2 ^ 20 +
      b2n g.pfail * 2 ^ 28
  | 0x10 => g.clampCnt
  | 0x14 => g.power + g.powerMax * 2 ^ 16
  | 0x18 => g.up + g.down * 2 ^ 8 + g.hold * 2 ^ 16
  | 0x44 => b2n g.dormReady + g.dormCause * 16 + g.wakes * 2 ^ 16
  | _ =>
    if 0x20 ≤ off && off < 0x30 then
      let r := govOf s ((off - 0x20) / 4)
      r.step + r.busy * 2 ^ 8 + r.changes * 2 ^ 16
    else 0

end Sys2Proof.Machine
end

