-- ==== Sys2Proof/Machine/RegClear.lean ====
section
/-! DEFINITION. The registers that a read clears (R6), the counts that advance with no command of the table, and the latched
pairs (R30, R403). -/
namespace Sys2Proof.Machine

/-! ### Read-clear fields (R6): a register's RC fields at their reset value; none where it has no such field -/

/-- Port `q`'s HPT block. -/
def clearHpt (q : Port) (off : Nat) (s : State) : Option State :=
  let h (f : HptPort → HptPort) : Option State := some (updHpt q f s)
  let t (f : HptStats → HptStats) : Option State := some (updStats q f s)
  match off with
  | 0x14 => h (fun h => { h with discardCnt := 0 })
  | 0x18 => h (fun h => { h with guardCnt := 0 })
  | 0x1C => h (fun h => { h with dmaErrCnt := 0 })
  | 0x44 => h (fun h => { h with inHwm := 0 })
  | 0x48 => h (fun h => { h with inStall := 0 })
  | 0x50 => h (fun h => { h with outHwm := 0 })
  | 0x54 => h (fun h => { h with outStall := 0 })
  | 0x58 => h (fun h => { h with sizeErrCnt := 0 })
  | 0x5C => h (fun h => { h with rangeCnt := 0 })
  | 0x100 => t (fun t => { t with dmaRd := 0 })
  | 0x104 => t (fun t => { t with dmaWr := 0 })
  | 0x108 => t (fun t => { t with regRd := 0 })
  | 0x10C => t (fun t => { t with regWr := 0 })
  | 0x110 => t (fun t => { t with dbRx := 0 })
  | 0x114 => t (fun t => { t with cqeTx := 0 })
  | 0x118 => t (fun t => { t with msixTx := 0 })
  | 0x11C => t (fun t => { t with scrubWr := 0 })
  | 0x120 => t (fun t => { t with npHwm := 0 })
  | 0x124 => t (fun t => { t with replay := 0 })
  | 0x128 => t (fun t => { t with recovery := 0 })
  | _ =>
    if 0x140 ≤ off && off ≤ 0x17C then t (fun t => { t with laneErr := tset 0 t.laneErr ((off - 0x140) / 4) 0 }) else none

/-- CAR. -/
def clearCar (off : Nat) (s : State) : Option State :=
  let c (f : Car → Car) : Option State := some (updCar f s)
  match off with
  | 0x5C => c (fun c => { c with sidingHwm := 0 })
  | 0x60 => c (fun c => { c with ctxHit := 0 })
  | 0x64 => c (fun c => { c with ctxMiss := 0 })
  | 0x6C => c (fun c => { c with badDb := 0 })
  | 0x74 => c (fun c => { c with dbqHwm := 0 })
  | 0x78 => c (fun c => { c with overrunCnt := 0 })
  | 0x7C => c (fun c => { c with sidingDrop := 0 })
  | 0x84 => c (fun c => { c with tagsHwm := 0 })
  | 0x88 => c (fun c => { c with refusedCnt := 0 })
  | 0x8C => c (fun c => { c with abortedCnt := 0 })
  | 0xA0 => c (fun c => { c with scrubCarr := 0 })
  | 0xA4 => c (fun c => { c with scrubBytes := 0 })
  | 0xAC => c (fun c => { c with shadowHits := 0 })
  | 0xB0 => c (fun c => { c with shadowReread := 0 })
  | _ => none

/-- CAY, one region. -/
def clearCay (off : Nat) (s : State) : Option State :=
  let x := off / 0x4000
  let r (f : Region → Region) : Option State := some (updRegion x f s)
  let w (f : RegionWork → RegionWork) : Option State := some (updWork x f s)
  match off % 0x4000 with
  | 0x08 => r (fun r => { r with shuntCnt := 0 })
  | 0x0C => r (fun r => { r with kstgCe := 0 })
  | 0x18 => r (fun r => { r with d2dCe := 0 })
  | 0x24 => r (fun r => { r with stgHwm := 0 })
  | 0x30 => r (fun r => { r with spillCnt := 0 })
  | 0x3C => r (fun r => { r with f2rHwm := 0 })
  | 0x40 => r (fun r => { r with f2rStall := 0 })
  | 0x44 => r (fun r => { r with segCnt := 0 })
  | 0x48 => r (fun r => { r with tagFailCnt := 0 })
  | 0x4C => r (fun r => { r with keyLoads := 0 })
  | 0x50 => r (fun r => { r with keyEvict := 0 })
  | 0x54 => r (fun r => { r with degSegCnt := 0 })
  | 0x58 => w (fun w => { w with busyCyc := 0 })
  | 0x5C => w (fun w => { w with waitCyc := 0 })
  | 0x80 => w (fun w => { w with readyHwm := 0 })
  | 0x88 => r (fun r => { r with spillHwm := 0 })
  | 0x90 => w (fun w => { w with holdSeg := 0 })
  | 0x94 => w (fun w => { w with rekeyXbar := 0 })
  | 0x9C => if x == 0 then w (fun w => { w with legacyUnits := 0 }) else none
  | o => if 0x60 ≤ o && o ≤ 0x7C then some (updBlock x ((o - 0x60) / 4) (fun b => { b with segCnt := 0 }) s) else none

/-- KST with the legacy register, the vault and the quorum engine. -/
def clearKst (off : Nat) (s : State) : Option State :=
  let k (f : Kst → Kst) : Option State := some (updKst f s)
  let v (f : Vault → Vault) : Option State := some (updVlt f s)
  match off with
  | 0x00 => k (fun k => { k with slotsHwm := 0 })
  | 0x0C => k (fun k => { k with remaskLate := 0 })
  | 0x10 => k (fun k => { k with remaskPasses := 0 })
  | 0x80 => k (fun k => { k with unwrapCnt := 0 })
  | 0x84 => k (fun k => { k with unwrapFail := 0 })
  | 0x88 => k (fun k => { k with orphanCnt := 0 })
  | 0x8C => k (fun k => { k with eraseTmo := 0 })
  | 0x14C => some { s with leg := { s.leg with abandonCnt := 0 } }
  | 0x210 => v (fun v => { v with commitCnt := 0 })
  | 0x224 => v (fun v => { v with a := { v.a with ce := 0 } })
  | 0x228 => v (fun v => { v with b := { v.b with ce := 0 } })
  | _ => none

/-- UCP, LAT, BNV and RNG. -/
def clearEngine (p : Port) (b : Blk) (off : Nat) (s : State) : Option State :=
  match b, off with
  | .ucp, 0x0C => some (updUcp (fun u => { u with badRel := 0, denyCnt := 0 }) s)
  | .lat, 0x44 => some (updLat (fun l => { l with opsCnt := 0 }) s)
  | .bnv, 0x08 => some (updBnv (fun v => { v with verifyCnt := 0 }) s)
  | .bnv, 0x0C => some (updBnv (fun v => { v with rejectCnt := 0 }) s)
  | .bnv, o => if o == 0x114 + 0x40 * p.num then some (updChan p (fun c => { c with conflict := 0 }) s) else none
  | .rng, 0x14 => some (updRng (fun r => { r with failCnt := 0 }) s)
  | .rng, 0x1C => some (updRng (fun r => { r with cellFail := [0, 0, 0, 0] }) s)
  | .rng, 0x28 => some (updRng (fun r => { r with tenderLow := 0x10000 }) s)
  | .rng, 0x38 => some (updRng (fun r => { r with notSeeded := 0 }) s)
  | _, _ => none

/-- TMP. -/
def clearTmp (off : Nat) (s : State) : Option State :=
  let t (f : Tmp → Tmp) : Option State := some (updTmp f s)
  match off with
  | 0x10 => t (fun t => { t with resumeDeny := 0 })
  | 0x18 => t (fun t => { t with disPd := 0, disCan := 0 })
  | _ =>
    if 0x80 ≤ off && off < 0xF0 then
      let i := (off - 0x80) / 8
      t (fun t => if off % 8 == 0 then { t with mins := tset none t.mins i none } else { t with maxs := tset none t.maxs i none })
    else none

/-- EVR, DRB, MEM, WLD and GOV. -/
def clearRest (b : Blk) (off : Nat) (s : State) : Option State :=
  match b, off with
  | .evr, 0x24 => some (updEvr (fun e => { e with bufHwm := 0 }) s)
  | .evr, 0x34 => some (updEvr (fun e => { e with flushCnt := 0 }) s)
  | .drb, 0x0C => some (updDrb (fun d => { d with marksRx := 0 }) s)
  | .drb, 0x10 => some (updDrb (fun d => { d with marksMissed := 0, missRun := if d.head then d.missRun else missedSince s }) s)
  | .drb, 0x14 => some (updDrb (fun d => { d with crcErr := 0 }) s)
  | .drb, 0x24 => some (updDrb (fun d => { d with joinRefused := 0 }) s)
  | .mem, 0x04 => some (updMem (fun m => { m with retrainCnt := 0 }) s)
  | .mem, 0x08 => some (updMem (fun m => { m with ceCnt := 0 }) s)
  | .mem, 0x24 => some (updMem (fun m => { m with f2mHwm := 0 }) s)
  | .mem, 0x28 => some (updMem (fun m => { m with f2mStall := 0 }) s)
  | .mem, 0x2C => some (updMem (fun m => { m with rdBytes := 0 }) s)
  | .mem, 0x30 => some (updMem (fun m => { m with wrBytes := 0 }) s)
  | .wld, 0x20 => some (updWld (fun w => { w with mcallCnt := 0 }) s)
  | .wld, 0x24 => some (updWld (fun w => { w with violCnt := 0 }) s)
  | .wld, 0x34 => some (updWld (fun w => { w with gateLate := 0 }) s)
  | .gov, 0x10 => some (updGov (fun g => { g with clampCnt := 0 }) s)
  | .gov, 0x14 => some (updGov (fun g => { g with powerMax := 0 }) s)
  | .gov, o =>
    if 0x20 ≤ o && o < 0x30 then
      some (updGov (fun g => { g with regions := tupd {} g.regions ((o - 0x20) / 4) (fun r => { r with changes := 0 }) }) s)
    else none
  | _, _ => none

/-- What a BAR0 register reads for port `p`, on the state as it stands, or as FAULT keeps it (R29, R31). -/
def readPlace (t : State) (p : Port) (x : Place) : Nat :=
  let s := seen t
  match x.blk with
  | .chp => readChp s p x.off
  | .ttb => readTtb s x.off
  | .hpt => readHpt s (if x.peer then p.other else p) x.off
  | .car => readCar s p x.off
  | .slc => readSlc s p x.off
  | .cay => readCay s x.off
  | .mdf => if x.mdp then readMdp s x.off else readMdf s p x.off
  | .kst => if 0x20 ≤ x.off && x.off < 0x40 || 0x200 ≤ x.off then readVault s p x.off else readSlots s p x.off
  | .ucp => readUcp s x.off
  | .lat => readLat s p x.off
  | .bnv => readBnv s p x.off
  | .rng => readRng s x.off
  | .tmp => readTmp s x.off
  | .evr => readEvr s p x.off
  | .lcs => readLcs s x.off
  | .mnf => readMnf s x.off
  | .fwu => readFwu s p x.off
  | .drb => readDrb s p x.off
  | .mem => readMem s x.off
  | .wld => readWld s x.off
  | .gov => readGov s x.off
  | .page | .bar4 => 0

/-- The register with its RC fields cleared (R6). -/
def clearPlace (p : Port) (x : Place) (s : State) : Option State :=
  match x.blk with
  | .chp =>
    match x.off with
    | 0x64 => some { s with chp := { s.chp with f2cHwm := 0 } }
    | 0x68 => some { s with chp := { s.chp with f2cStall := 0 } }
    | _ => none
  | .ttb => if x.off == 0x400 then some (updTtb (fun t => { t with badRel := ⟨0, 0⟩ }) s) else none
  | .hpt => clearHpt (if x.peer then p.other else p) x.off s
  | .car => clearCar x.off s
  | .slc => if x.off == 0x48 then some (updSlice (s.win.get p).slc.mbxSel (fun y => { y with outDisc := 0 }) s) else none
  | .cay => clearCay x.off s
  | .mdf =>
    if x.mdp then
      (if x.off % 0x40 == 4 then some (updDiag (x.off / 0x40) (fun g => { g with r2mHwm := 0, r2mStall := 0 }) s) else none)
    else if x.off == 4 then some (updMdf (fun m => { m with l0Hwm := 0 }) s)
    else none
  | .kst => clearKst x.off s
  | .ucp | .lat | .bnv | .rng => clearEngine p x.blk x.off s
  | .tmp => clearTmp x.off s
  | .evr | .drb | .mem | .wld | .gov => clearRest x.blk x.off s
  | .lcs | .mnf | .fwu | .page | .bar4 => none

/-! ### Counts that advance by themselves -/

/-- The number the spec leaves open for a field of `w` bits (log entry 32). -/
def someOf (w : Nat) (s : State) : Nat := drawn s % 2 ^ w

/-- A free number of at most `m` (log entry 32). -/
def upTo (m : Nat) (s : State) : Nat := drawn s % (m + 1)

/-- Another free number of at most `m` from the same draw. -/
def upTo2 (m : Nat) (s : State) : Nat := drawn s / (m + 1) % (m + 1)

/-- The depths of the couplings in entries (R386). -/
def depthHost : Nat := 512
/-- Fabric to region. -/
def depthRegion : Nat := 256
/-- Region to media. -/
def depthMedia : Nat := 128
/-- Fabric to memory. -/
def depthMemory : Nat := 1024
/-- Fabric to control. -/
def depthControl : Nat := 128

/-- Entries that the doorbells held in the port's inbound coupling take (R100). -/
def heldEntries (p : Port) (s : State) : Nat := min depthHost (s.car.dbHeld.filter (·.port == p)).length

/-- The link of a media port is up (R22). -/
def mediaUp (d : Drive) : Bool := d.lane == .l0 || d.lane == .l12

/-- A count of `w` bits with a free number of further events, saturating (log entry 32). -/
def grown (w x : Nat) (s : State) : Nat := satAdd w x (someOf w s)

/-- A sensor that no command of the table reads takes a free reading (R412). -/
def senseFree (i : Nat) (s : State) : State := sense i (someOf 16 s) s

/-- The sampled registers of a port's HPT block. -/
def sampleHpt (q : Port) (o : Nat) (s : State) : State :=
  match o with
  | 0x40 =>
    let n := max (heldEntries q s) (upTo depthHost s)
    draw (updHpt q (fun h => { h with inOcc := n, inHwm := max h.inHwm n }) s)
  | 0x44 => draw (updHpt q (fun h => { h with inHwm := max h.inHwm (max (heldEntries q s) (upTo depthHost s)) }) s)
  | 0x48 => draw (updHpt q (fun h => { h with inStall := grown 32 h.inStall s }) s)
  | 0x4C => draw (updHpt q (fun h => { h with outOcc := upTo depthHost s, outHwm := max h.outHwm (upTo depthHost s) }) s)
  | 0x50 => draw (updHpt q (fun h => { h with outHwm := max h.outHwm (upTo depthHost s) }) s)
  | 0x54 => draw (updHpt q (fun h => { h with outStall := grown 32 h.outStall s }) s)
  | 0x124 => draw (updStats q (fun t => { t with replay := grown 32 t.replay s }) s)
  | 0x128 => draw (updStats q (fun t => { t with recovery := grown 16 t.recovery s }) s)
  | o =>
    if 0x140 ≤ o && o ≤ 0x17C then
      draw (updStats q (fun t => { t with laneErr := tupd 0 t.laneErr ((o - 0x140) / 4) (fun v => grown 16 v s) }) s)
    else s

/-- The couplings' occupancies as a media port shows them: a link that is down leaves its coupling empty (R22). -/
def sampleMedia (d : Nat) (s : State) : State :=
  let n := if mediaUp (driveOf s d) then upTo depthMedia s else 0
  let m := if mediaUp (driveOf s d) then upTo2 depthMedia s else 0
  draw (updDiag d (fun g => { g with
    r2mOcc := n, r2mHwm := max g.r2mHwm (max n m)
    r2mStall := if mediaUp (driveOf s d) then satAdd 16 g.r2mStall (drawn s / 65536 % 65536) else g.r2mStall }) s)

/-- WLD_CPU_STAT as drawn, but that a world that is stopped runs on no processor (R298, R305, R310). -/
def cpuShown (s : State) (v : Nat) : Nat :=
  let on (w : World) : Bool := (worldOf s w).state == .running || (worldOf s w).state == .starting
  ((List.range 4).map (fun i =>
    let c := bits v (2 * i) 2
    4 ^ i * (if (c == 1 && !on .normal) || (c == 2 && !on .secure) then 0 else c))).sum

/-- Occupancies of the couplings, link and fabric statistics, and readings that no command of the table moves: as a register
that shows one is read, it takes a free value within its coupling's depth (R386); counts and high-water marks only grow, and a
mark never lies below an occupancy that was read (log entry 32). A block held at reset, or whose link is down, shows nothing of
them (R22, R48). -/
def sample (p : Port) (x : Place) (s : State) : State :=
  let q := if x.peer then p.other else p
  match x.blk, x.off with
  | .chp, 0x60 => draw { s with chp := { s.chp with f2cOcc := upTo depthControl s, f2cHwm := max s.chp.f2cHwm (upTo depthControl s) } }
  | .chp, 0x64 => draw { s with chp := { s.chp with f2cHwm := max s.chp.f2cHwm (upTo depthControl s) } }
  | .chp, 0x68 => draw { s with chp := { s.chp with f2cStall := grown 32 s.chp.f2cStall s } }
  | .hpt, o => if held (s.hpt.get q) || !(s.hpt.get q).up then s else sampleHpt q o s
  | .cay, o =>
    let r := o / 0x4000
    match o % 0x4000 with
    | 0x38 => draw (updRegion r (fun g => { g with f2rOcc := upTo depthRegion s, f2rHwm := max g.f2rHwm (upTo depthRegion s) }) s)
    | 0x3C => draw (updRegion r (fun g => { g with f2rHwm := max g.f2rHwm (upTo depthRegion s) }) s)
    | 0x40 => draw (updRegion r (fun g => { g with f2rStall := grown 32 g.f2rStall s }) s)
    | 0x58 => draw (updWork r (fun w => { w with busyCyc := grown 32 w.busyCyc s }) s)
    | 0x5C => draw (updWork r (fun w => { w with waitCyc := grown 32 w.waitCyc s }) s)
    | _ => s
  | .mdf, o =>
    if x.mdp && o % 0x40 == 4 then sampleMedia (o / 0x40) s else s
  | .kst, 0x224 => draw (updVlt (fun v => { v with a := { v.a with ce := grown 16 v.a.ce s } }) s)
  | .kst, 0x228 => draw (updVlt (fun v => { v with b := { v.b with ce := grown 16 v.b.ce s } }) s)
  | .tmp, o =>
    if 0x48 ≤ o && o < 0x58 then
      let r := (o - 0x48) / 4
      draw (updTmp (fun t => { t with regTj := tset 0 t.regTj r (drawn s / 65536 % 65536) }) (senseFree (8 + r) s))
    else if 0xC0 ≤ o && o < 0xF0 then draw (senseFree ((o - 0x80) / 8) s)
    else s
  | .mem, 0x08 => draw (updMem (fun m => { m with ceCnt := grown 32 m.ceCnt s }) s)
  | .mem, 0x14 => draw (updMem (fun m => { m with mr4Max := max m.mr4Max (someOf 16 s) }) s)
  | .mem, 0x20 => draw (updMem (fun m => { m with f2mOcc := upTo depthMemory s, f2mHwm := max m.f2mHwm (upTo depthMemory s) }) s)
  | .mem, 0x24 => draw (updMem (fun m => { m with f2mHwm := max m.f2mHwm (upTo depthMemory s) }) s)
  | .mem, 0x28 => draw (updMem (fun m => { m with f2mStall := grown 32 m.f2mStall s }) s)
  | .mem, 0x2C => draw (updMem (fun m => { m with rdBytes := grown 32 m.rdBytes s }) s)
  | .mem, 0x30 => draw (updMem (fun m => { m with wrBytes := grown 32 m.wrBytes s }) s)
  | .wld, 0x04 => draw (updWld (fun w => { w with cpuStat := cpuShown s (someOf 8 s) }) s)
  | .wld, 0x20 => draw (updWld (fun w => { w with mcallCnt := grown 32 w.mcallCnt s }) s)
  | _, _ => s

/-! ### Latched pairs (R30, R403) -/

/-- Port `p`'s latches changed by `f`. -/
def updLatch (p : Port) (f : Latches → Latches) (s : State) : State := updWin p (fun w => { w with lat64 := f w.lat64 }) s

/-- The read of a _LO register: the _HI half is latched for the port, and SCRUB_BYTES is then cleared, but in FAULT (R29,
R169, R403). None where the offset is no _LO register. -/
def latchLo (p : Port) (off : Nat) (s : State) : Option State :=
  let v := seen s
  match off with
  | 0x40 => some (updLatch p (fun l => { l with csnHi := hi32 s.csn }) s)
  | 0x50 => some (updLatch p (fun l => { l with timeHi := hi32 s.now }) s)
  | 0x100020 => some (updLatch p (fun l => { l with epochHi := hi32 v.vlt.epoch }) s)
  | 0x100218 => some (updLatch p (fun l => { l with floorHi := hi32 v.bbr.floor }) s)
  | 0x1E0024 => some (updLatch p (fun l => { l with actTimeHi := hi32 (pendingTime v) }) s)
  | 0x100A4 =>
    let a := updLatch p (fun l => { l with scrubHi := hi32 v.car.scrubBytes }) s
    some (if inFault s then a else seqd (updCar (fun c => { c with scrubBytes := 0 }) a))
  | _ => none

end Sys2Proof.Machine
end

