-- ==== Sys2Proof/Machine/RegWrite.lean ====
section
/-! DEFINITION. What a write of a register without a row of its own stores: field widths, storing rules, ranges and guards (R6,
R57, R401, R404, R407). -/
namespace Sys2Proof.Machine

/-- What a register write comes to: nothing (a field that hosts only read), a count of R401, a count of a guard (R57, R270,
R276), or the state with the value stored. -/
inductive Store where
  | ignored
  | range
  | guarded
  | foreign
  | denied
  | sets (t : State)
deriving DecidableEq, Repr

/-- Accepted from the holder of turntable `n` only (R57, R407). -/
def guardedBy (p : Port) (n : Nat) (s : State) (w : Store) : Store := if holds p n s then w else .guarded

/-- Stored where the value is in its stated range (R401). -/
def ranged (ok : Bool) (t : State) : Store := if ok then .sets t else .range

/-- Word `i` of a byte string replaced. -/
def putWord (b : Bytes) (i v : Nat) : Bytes := splice b (4 * i) (natLe 4 v)

/-- TTB: the lease of the next grant; more than 60,000 stores 60,000 (R58). -/
def storeTtb (off v : Nat) (s : State) : Store :=
  if off < 0x400 && off % 16 == 12 then .sets (updTable (off / 16) (fun t => { t with lease := min 60000 (bits v 0 16) }) s)
  else .ignored

/-- The port's own HPT block; TTB_FREED is W1C (R408). -/
def storeHpt (p : Port) (off v : Nat) (s : State) : Store :=
  match off with
  | 0x24 => .sets (updHpt p (fun h => { h with intEn := BitVec.ofNat 32 v }) s)
  | 0x28 => .sets (updHpt p (fun h => { h with ttbFreed := h.ttbFreed &&& ~~~(BitVec.ofNat 64 v) }) s)
  | 0x2C => .sets (updHpt p (fun h => { h with ttbFreed := h.ttbFreed &&& ~~~(BitVec.ofNat 64 (v * 2 ^ 32)) }) s)
  | _ => .ignored

/-- A ring setup window: its staged context and its cookie (04, R122). -/
def storeRs (p : Port) (sl : Option Nat) (off v : Nat) (s : State) : Store :=
  if off < 0x40 then .sets (updRs p sl (fun w => { w with data := putWord w.data (off / 4) v }) s)
  else if off == 0x48 then .sets (updRs p sl (fun w => { w with abortCookie := v }) s)
  else .ignored

/-- CAR: the port's window and CAR_BRAKE_ALERT. -/
def storeCar (p : Port) (off v : Nat) (s : State) : Store :=
  if off == 0x50 then ranged (bits v 0 16 ≤ 60000) (updCar (fun c => { c with brakeAlert := bits v 0 16 }) s)
  else storeRs p none off v s

/-- SLC: the port's window and the outbound mailbox of the selected slice; a byte write while OUT_FULL is 1 is counted
(R285). -/
def storeSlc (p : Port) (off v : Nat) (s : State) : Store :=
  let put (f : SlcWin → SlcWin) : Store := .sets (updWin p (fun w => { w with slc := f w.slc }) s)
  let n := (s.win.get p).slc.mbxSel
  if off < 0x20 then put (fun w => { w with data := putWord w.data (off / 4) v })
  else if off == 0x30 then put (fun w => { w with bindOwner := bits v 0 22 })
  else if off == 0x40 then put (fun w => { w with mbxSel := bits v 0 13 })
  else if 0x1100 ≤ off && off < 0x1200 then
    (if (sliceOf s n).state == .empty then .ignored
     else .sets (updSlice n (fun x =>
      if x.outFull then { x with outDisc := satInc 8 x.outDisc }
      else { x with outBox := putWord x.outBox ((off - 0x1100) / 4) v }) s))
  else .ignored

/-- CAY: the spill settings of a region (06). -/
def storeCay (off v : Nat) (s : State) : Store :=
  if off % 0x4000 == 0x28 then
    .sets (updRegion (off / 0x4000) (fun r => { r with
      spillLow := clamp 1 16 (bits v 0 5), spillAge := clamp 5 500 (bits v 16 9), spillEn := bit v 31 }) s)
  else .ignored

/-- MDF (08). -/
def storeMdf (p : Port) (off v : Nat) (s : State) : Store :=
  let put (f : Mdf → Mdf) : Store := .sets (updMdf f s)
  match off with
  | 0x00 => guardedBy p 3 s (put (fun m => { m with laneBudget := clamp 16 192 (bits v 0 8) }))
  | 0x08 => put (fun m => { m with idlePark := clamp 10 1000000 (bits v 0 20) })
  | 0x60 =>
    guardedBy p 2 s (ranged (bits v 8 8 ≤ 250 && 10 ≤ bits v 16 16 && bits v 16 16 ≤ 1275)
      (updMdf (fun m => { m with maxShelves := clamp 1 8 (bits v 0 4), stagger := bits v 8 8, readyMax := bits v 16 16 }) s))
  | 0x64 => put (fun m => { m with cmdTimeout := clamp 100 60000 (bits v 0 16) })
  | 0x68 =>
    ranged (1 ≤ bits v 0 3 && bits v 0 3 ≤ 4 && 15 ≤ bits v 8 8 && bits v 16 4 ≤ 8)
      (updMdf (fun m => { m with qpairs := bits v 0 3, depth := bits v 8 8, maxXfer := bits v 16 4 }) s)
  | 0xE0 => .sets (updWin p (fun w => { w with diagSel := bits v 0 9 }) s)
  | _ =>
    if 0x10 ≤ off && off < 0x50 then
      guardedBy p 3 s (put (fun m =>
        let sh := 8 * (off - 0x10)
        { m with hot := (m.hot &&& ~~~(BitVec.ofNat 512 0xFFFFFFFF <<< sh)) ||| (BitVec.ofNat 512 v <<< sh) }))
    else .ignored

/-- KST with QRM_WINDOW (09, 10). -/
def storeKst (p : Port) (off v : Nat) (s : State) : Store :=
  match off with
  | 0x08 => .sets (updKst (fun k => { k with remaskPeriod := clamp 1 3600 (bits v 0 12) }) s)
  | 0x40 => .sets (updWin p (fun w => { w with slotSel := bits v 0 15 }) s)
  | 0x60 => .sets (updWin p (fun w => { w with replSrc := v }) s)
  | 0x64 => .sets (updWin p (fun w => { w with replDst := v }) s)
  | 0x20C => .sets (updVlt (fun x => { x with window := clamp 10 3600 (bits v 0 12) }) s)
  | _ => .ignored

/-- A command register of the utility cipher (12). -/
def ucpField (off v : Nat) (u : Ucp) : Option Ucp :=
  match off with
  | 0x10 => some { u with op := bits v 0 4 }
  | 0x14 => some { u with handle := v }
  | 0x18 => some { u with srcLo := v }
  | 0x1C => some { u with srcHi := v }
  | 0x20 => some { u with srcLen := bits v 0 25 }
  | 0x24 => some { u with aadLo := v }
  | 0x28 => some { u with aadHi := v }
  | 0x2C => some { u with aadLen := bits v 0 17 }
  | 0x30 => some { u with dstLo := v }
  | 0x34 => some { u with dstHi := v }
  | 0x38 => some { u with dstLen := bits v 0 25 }
  | _ =>
    if 0x40 ≤ off && off < 0x4C then some { u with iv := putWord u.iv ((off - 0x40) / 4) v }
    else if 0x50 ≤ off && off < 0x60 then some { u with tag := putWord u.tag ((off - 0x50) / 4) v }
    else none

/-- UCP: UCP_IDLE from either port, the command registers from the lock's holder only (R276, R407). -/
def storeUcp (p : Port) (off v : Nat) (s : State) : Store :=
  if off == 0x08 then .sets (updUcp (fun u => { u with idle := clamp 1 60000 (bits v 0 16) }) s)
  else
    match ucpField off v s.ucp with
    | none => .ignored
    | some u => if s.ucp.holder == some (.port p) then .sets { s with ucp := u } else .denied

/-- LAT: the port's command block (12). -/
def storeLat (p : Port) (off v : Nat) (s : State) : Store :=
  let put (f : LatBlk → LatBlk) : Store := .sets (updWin p (fun w => { w with lat := f w.lat }) s)
  match off with
  | 0x00 => put (fun b => { b with op := bits v 0 4, ctxLen := bits v 8 8, wx := bit v 16 })
  | 0x04 => put (fun b => { b with handle := v })
  | 0x08 => put (fun b => { b with owner := bits v 0 22 })
  | 0x0C => put (fun b => { b with scope := bits v 0 14 })
  | 0x10 => put (fun b => { b with srcLo := v })
  | 0x14 => put (fun b => { b with srcHi := v })
  | 0x18 => put (fun b => { b with srcLen := bits v 0 17 })
  | 0x20 => put (fun b => { b with dstLo := v })
  | 0x24 => put (fun b => { b with dstHi := v })
  | 0x28 => put (fun b => { b with dstLen := bits v 0 13 })
  | _ => .ignored

/-- BNV: the port's anchor staging and its own privileged channel; the other port's channel is not reached (R270, R404). -/
def storeBnv (p : Port) (off v : Nat) (s : State) : Store :=
  let put (f : AncBlk → AncBlk) : Store := .sets (updAnc p f s)
  let mine := 0x100 + 0x40 * p.num
  let theirs := 0x100 + 0x40 * p.other.num
  match off with
  | 0x20 => put (fun b => { b with index := bits v 0 10 })
  | 0x24 => put (fun b => { b with alg := bits v 0 4 })
  | 0x28 => put (fun b => { b with addrLo := v })
  | 0x2C => put (fun b => { b with addrHi := v })
  | 0x30 => put (fun b => { b with len := bits v 0 12 })
  | _ =>
    if theirs ≤ off && off ≤ theirs + 0x14 then .foreign
    else if off == mine then
      ranged (bits v 0 4 ≤ 4 && 4 ≤ bits v 8 8 && bits v 8 8 ≤ 128)
        (updChan p (fun c => { c with op := bits v 0 4, curve := bits v 4 2, len := bits v 8 8 }) s)
    else if off == mine + 4 then .sets (updChan p (fun c => { c with slots := bits v 0 30 }) s)
    else .ignored

/-- RNG (11). -/
def storeRng (off v : Nat) (s : State) : Store :=
  let put (f : Rng → Rng) : Store := .sets (updRng f s)
  match off with
  | 0x0C => put (fun r => { r with failLimit := clamp 1 255 (bits v 0 8) })
  | 0x10 => put (fun r => { r with wait := clamp 10 2000 (bits v 0 11) })
  | 0x90 => put (fun r => { r with persLen := clamp 0 48 (bits v 0 6) })
  | _ => if 0x60 ≤ off && off < 0x90 then put (fun r => { r with pers := putWord r.pers ((off - 0x60) / 4) v }) else .ignored

/-- The engine, platform and chain blocks with few fields that hosts write: TMP, EVR, LCS, FWU, DRB and GOV. -/
def storeRest (p : Port) (b : Blk) (off v : Nat) (s : State) : Store :=
  match b, off with
  | .tmp, 0x08 => .sets (updTmp (fun t => { t with latch := t.latch &&& ~~~(BitVec.ofNat 12 v) }) s)
  | .tmp, 0x10 => .sets (updTmp (fun t => { t with holdoff := clamp 100 60000 (bits v 0 16) }) s)
  | .evr, 0x04 => .sets (updEvr (fun e => { e with period := clamp 100 60000 (bits v 0 16) }) s)
  | .lcs, 0x88 => .sets (updLcs (fun l => { l with respLo := v }) s)
  | .lcs, 0x8C => .sets (updLcs (fun l => { l with respHi := v }) s)
  | .fwu, 0x14 => .sets (updFwu (fun f => { f with addrLo := v }) s)
  | .fwu, 0x18 => .sets (updFwu (fun f => { f with addrHi := v }) s)
  | .fwu, 0x1C => .sets (updFwu (fun f => { f with len := bits v 0 25 }) s)
  | .drb, 0x40 => .sets (updWin p (fun w => { w with tblSel := bits v 0 7 }) s)
  | .gov, 0x00 => guardedBy p 3 s (.sets (updGov (fun g => { g with floor := bits v 0 3 }) s))
  | .gov, 0x04 => guardedBy p 3 s (.sets (updGov (fun g => { g with ceil := bits v 0 3 }) s))
  | .gov, 0x18 =>
    let up := bits v 0 7
    let down := bits v 8 7
    let hold := bits v 16 8
    ranged (50 ≤ up && up ≤ 100 && (up ≤ down || 10 ≤ down && down ≤ 90) && 1 ≤ hold)
      (updGov (fun g => { g with up := up, down := if down < up then down else up - 10, hold := hold }) s)
  | _, _ => .ignored

/-- What a write of value `v` at a BAR0 place stores. -/
def storePlace (p : Port) (x : Place) (v : Nat) (s : State) : Store :=
  match x.blk with
  | .ttb => storeTtb x.off v s
  | .hpt => if x.peer then .ignored else storeHpt p x.off v s
  | .car => storeCar p x.off v s
  | .slc => storeSlc p x.off v s
  | .cay => storeCay x.off v s
  | .mdf => if x.mdp then .ignored else storeMdf p x.off v s
  | .kst => storeKst p x.off v s
  | .ucp => storeUcp p x.off v s
  | .lat => storeLat p x.off v s
  | .bnv => storeBnv p x.off v s
  | .rng => storeRng x.off v s
  | .tmp | .evr | .lcs | .fwu | .drb | .gov => storeRest p x.blk x.off v s
  | .chp | .mnf | .mem | .wld | .page | .bar4 => .ignored

/-- The page of slice `n`: its inbound mailbox and its ring setup window; a byte write while IN_FULL is 1 is counted (R284,
R414). -/
def storePage (p : Port) (n off v : Nat) (s : State) : Store :=
  if 0x1000 ≤ off && off < 0x1100 then
    .sets (updSlice n (fun x =>
      if x.inFull then { x with inDisc := satInc 8 x.inDisc }
      else { x with inBox := putWord x.inBox ((off - 0x1000) / 4) v }) s)
  else if 0x1300 ≤ off then storeRs p (some n) (off - 0x1300) v s
  else .ignored

/-- The outcome of a register write in state `s`, which already counts it: a stored value takes a CSN where the register
reads otherwise than before (R25). -/
def stored (p : Port) (read : State → Nat) (w : Store) (s : State) : State :=
  match w with
  | .ignored => s
  | .range => rangeErr p s
  | .guarded => guardErr p s
  | .foreign => updHpt p (fun h => { h with discardCnt := satInc 32 h.discardCnt }) s
  | .denied => updUcp (fun u => { u with denyCnt := satInc 16 u.denyCnt }) s
  | .sets t => seqIf (read t != read s) t

end Sys2Proof.Machine
end

