-- ==== Sys2Proof/Machine/Registers.lean ====
section
/-! DEFINITION. Register reads and writes of the three windows, and configuration requests (R6, R25, R46, R49, R54,
R399-R415). -/
namespace Sys2Proof.Machine

/-! ### Reads -/

/-- The register answers in the device's mode; in TERMINAL only CHP_ID and LCS_STAT do (R406). -/
def placeAnswers (s : State) (x : Place) : Bool := blkAnswers x.blk s && (s.lcs.state != .terminal || x.off == 0)

/-- A read answered with `v` by port `p`, and counted. -/
def readAnswer (p : Port) (v : Nat) (s : State) : State := answer p v (cntRd p s)

/-- The read of a register of BAR0 (R6, R29, R31, R403): the value at the read point, then its RC fields cleared at the read's
CSN, or the high half latched. -/
def readBar0 (p : Port) (off : Nat) (x : Place) (s : State) : State :=
  match latchLo p off s with
  | some t => readAnswer p (readPlace s p x) t
  | none =>
    if !rdLive p x.blk s then readAnswer p (readPlace s p x) s
    else
      let a := sample p x s
      let b := readAnswer p (readPlace a p x) a
      match clearPlace p x b with
      | some t => seqd t
      | none => b

/-- The read of a slice page by its tenant (R280, R414): DISC clears at the read's CSN. -/
def readPageAt (p : Port) (n off : Nat) (s : State) : State :=
  if !blkAnswers .page s then answer p 0 s
  else
    let a := readAnswer p (readPage s n off) s
    if off == 0x1204 && rdLive p .page s then seqd (updSlice n (fun x => { x with inDisc := 0 }) a) else a

/-- One word of the MSI-X table (R415). -/
def readMsix (s : State) (p : Port) (o : Nat) : Nat :=
  let e := tget {} (s.stats.get p).msix (o / 16)
  match o % 16 with
  | 0 => lo32 e.addr
  | 4 => hi32 e.addr
  | 8 => e.data
  | _ => b2n e.masked

/-- One word of the pending-bit array (R415). -/
def readPba (s : State) (p : Port) (o : Nat) : Nat :=
  ((List.range 32).map (fun i => b2n (tget false (s.stats.get p).pba (8 * o + i)) * 2 ^ i)).sum

/-- One word of BAR4 but for the operand memories (R332, R406, R415). -/
def readBar4 (s : State) (p : Port) (off : Nat) : Nat :=
  let w := (s.win.get p).evr
  if 0x80000 ≤ off && off < 0x81000 then
    (if w.busy || !blkAnswers .bar4 s then 0 else fld w.window (off - 0x80000) 4)
  else if 0xC0000 ≤ off && off < 0xC8000 then readMsix s p (off - 0xC0000)
  else if 0xC8000 ≤ off && off < 0xC8100 then readPba s p (off - 0xC8000)
  else 0

/-- One register access of a read, at an aligned offset: it returns the register and clears its RC fields; the registers whose
read acts have rows of their own (R6, R59, R274, R403). A reserved place reads 0 uncounted, and the read of a requester that the
location does not accept is discarded (R51, R398). -/
def readWord (p : Port) (pasid : Option Nat) (bar : Bar) (off : Nat) (s : State) : Res :=
  if !reach p s || off % 4 != 0 then .next s
  else if reservedAt bar off then .next (answer p 0 s)
  else if !accepts p pasid bar off s then .next (turnAway p true (discarded p s))
  else
    match bar with
    | .page n => .next (readPageAt p n off s)
    | .bar4 =>
      if off < 0x20000 then execOperandAccess p off [true, true, true, true] none s else .next (readAnswer p (readBar4 s p off) s)
    | .bar0 =>
      match placeOf off with
      | none => .next (readAnswer p 0 s)
      | some x =>
        if !placeAnswers s x then .next (readAnswer p 0 s)
        else if x.blk == .ttb && x.off < 0x400 && x.off % 16 == 0 then execTtbAcquire p (x.off / 16) s
        else if x.blk == .ucp && x.off == 0 then execUcpLockAcquire (.port p) s
        else .next (readBar0 p off x s)

/-- The 4-byte accesses that a request is split into, in ascending order (R399): each word's offset and what the request has for
its four bytes, `z` where it has nothing. -/
def splitWords {α : Type} (z : α) (off : Nat) (data : List α) : List (Nat × List α) :=
  let l := List.replicate (off % 4) z ++ data
  let n := (l.length + 3) / 4
  (List.range n).map (fun i => (off - off % 4 + 4 * i, (l ++ List.replicate (4 * n - l.length) z).drop (4 * i) |>.take 4))

/-- Accesses one after the other, each on the state that the one before it left (R399). -/
def inTurn {α : Type} (f : α → State → Res) : List α → State → Res
  | [], s => .next s
  | x :: xs, s =>
    match f x s with
    | .next t => inTurn f xs t
    | r => r

/-- The value of the enabled bytes of a word (R400). -/
def enabledMask (e : List Bool) : Nat := leNat (e.map (fun b => if b then 0xFF else 0))

/-- The answers put out since there were `n` show the enabled bytes alone (R400). -/
def maskAnswers (m n : Nat) (s : State) : State :=
  { s with out := s.out.take n ++ (s.out.drop n).map (fun o => match o with
    | .answer p v => .answer p ((BitVec.ofNat 32 v &&& BitVec.ofNat 32 m).toNat)
    | o => o) }

/-- The read of a word of which some bytes are asked for: the whole read of the register, and the bytes requested (R400). -/
def readEnabled (p : Port) (pasid : Option Nat) (bar : Bar) (x : Nat × List Bool) (s : State) : Res :=
  if !x.2.any id then .next s
  else
    match readWord p pasid bar x.1 s with
    | .next t => .next (maskAnswers (enabledMask x.2) s.out.length t)
    | r => r

/-- RC_READ: a read of 1 to 128 bytes, split into its register accesses (R6, R399, R400); an operand memory's is one access
(R415). A longer one is REQUEST_TOO_LONG's. -/
def execRcRead (p : Port) (pasid : Option Nat) (req : RegRead) (s : State) : Res :=
  match req with
  | .word x => readWord p pasid x.bar x.off s
  | .bytes x e =>
    if e.length > 128 then execRequestTooLong p true s
    else if x.bar == .bar4 && x.off < 0x20000 && accepts p pasid .bar4 x.off s then execOperandAccess p x.off e none s
    else inTurn (readEnabled p pasid x.bar) (splitWords false x.off e) s

/-- LATCHED_LO_READ: a read of a _LO register latches its _HI half for the port (R30, R403). -/
def execLatchedLoRead (p : Port) (off : Nat) (s : State) : Res :=
  match placeOf off, latchLo p off s with
  | some x, some t =>
    onlyIf (reach p s) s (if placeAnswers s x then readAnswer p (readPlace s p x) t else readAnswer p 0 s)
  | _, _ => .next s

/-! ### Writes of BAR0 -/

/-- HPT_INT_STAT_CLEAR: the causes written as 1 are cleared (R408). -/
def execHptIntStatClear (p : Port) (value : Nat) (s : State) : Res :=
  let old := (s.hpt.get p).intStat
  let new := old &&& ~~~(BitVec.ofNat 32 value)
  onlyIf (wr p .hpt s) s
    (seqIf (new != old) (updHpt p (fun h => { h with intStat := new }) (legTouch p (cntWr p s))))

/-- A write that is counted and does what `f` does with it. -/
def wrote (p : Port) (b : Blk) (f : State → State) (s : State) : Res := onlyIf (wr p b s) s (f (legTouch p (cntWr p s)))

/-- RS_CMD of a setup window: the command its OP names; a reserved OP is counted (R74, R401). -/
def rsCmdWrite (p : Port) (sl : Option Nat) (v : Nat) (s : State) : Res :=
  let g := bits v 0 20
  match bits v 24 4 with
  | 0 => match sl with
    | none => wrote p .car id s
    | some n => .next (if rsReach p (some n) s then cntWr p s else pageDiscard p sl s)
  | 1 => execRsRead p sl g s
  | 2 => execRsWrite p sl g s
  | 3 => execRsEnable p sl g s
  | 4 => execRsDisable p sl g s
  | 5 => execRsReset p sl g s
  | _ => match sl with
    | none => wrote p .car (rangeErr p) s
    | some n => .next (if rsReach p (some n) s then rangeErr p (cntWr p s) else pageDiscard p sl s)

/-- ABORT_CMD of a setup window: MODE 1 and 2; a reserved bit makes the write a bad doorbell (R122). -/
def abortCmdWrite (p : Port) (sl : Option Nat) (v : Nat) (s : State) : Res :=
  let g := bits v 0 20
  let plain (f : State → State) : Res :=
    match sl with
    | none => wrote p .car f s
    | some n => .next (if rsReach p (some n) s then f (cntWr p s) else pageDiscard p sl s)
  if bits v 20 4 != 0 || bits v 26 6 != 0 then plain badDoorbell
  else
    match bits v 24 2 with
    | 1 => execAbortByCookie p sl g s
    | 2 => execAbortAll p sl g s
    | _ => plain id

/-- A doorbell word: the row of the ring's type (R80, R81). -/
def dbWrite (p : Port) (sl : Option Nat) (j v : Nat) (s : State) : Res :=
  match (dbRing sl j s).map (fun g => (ringOf s g).type) with
  | some .cq => execCqDoorbell p sl j v s
  | _ => execSqDoorbell p sl j v s

/-- CAR's registers that act. -/
def actCar (p : Port) (off v : Nat) (s : State) : Option Res :=
  if off == 0x40 then some (rsCmdWrite p none v s)
  else if off == 0x4C then some (abortCmdWrite p none v s)
  else if 0x8000 ≤ off && off < 0xA000 then some (dbWrite p none ((off - 0x8000) / 4) v s)
  else none

/-- SLC_CMD, SLC_BIND_CMD and the manager's MBX_CTRL (R279, R281, R284, R285, R401). -/
def actSlc (p : Port) (off v : Nat) (s : State) : Option Res :=
  let n := bits v 0 13
  let plain (f : State → State) : Option Res := some (wrote p .slc f s)
  match off with
  | 0x20 =>
    match bits v 16 3 with
    | 0 => plain (if holds p 1 s then id else guardErr p)
    | 1 => some (execSlcRead p n s)
    | 2 => some (execSlcWrite p n s)
    | 3 => some (execSlcCreate p n s)
    | 4 => some (execUnfreeze p n s)
    | 5 => some (execRemove p n s)
    | _ => plain (if holds p 1 s then rangeErr p else guardErr p)
  | 0x34 =>
    match bits v 16 2 with
    | 0 => plain id
    | 1 => some (execBind p n s)
    | 2 => some (execUnbind p n s)
    | _ => some (execQuery p s)
  | 0x44 =>
    some (managerMbxWrite p ((if bit v 31 then [.ack] else []) ++ (if bit v 30 then [.post (bits v 0 9)] else [])) s)
  | _ => none

/-- The key store's and the legacy register's registers that act (R204, R212). -/
def actKst (p : Port) (off v : Nat) (s : State) : Option Res :=
  if off == 0x68 then some (if bit v 0 then execReplGo p s else wrote p .kst id s)
  else if off == 0x100 then some (execLegKey0Write p v s)
  else if 0x100 < off && off < 0x140 then some (execLegKeyWordWrite p ((off - 0x100) / 4) v s)
  else if off == 0x140 then some (execLegCommit p v s)
  else none

/-- The engines' registers that act: UCP, LAT, BNV and RNG. -/
def actEngine (p : Port) (b : Blk) (off v : Nat) (s : State) : Option Res :=
  let plain (f : State → State) : Option Res := some (wrote p b f s)
  match b, off with
  | .ucp, 0x00 => some (execUcpLockRelease (.port p) v s)
  | .ucp, 0x60 =>
    if bit v 0 then some (ucpRow (.port p) s.ucp.op s)
    else plain (fun t => if s.ucp.holder == some (.port p) then t else updUcp (fun u => { u with denyCnt := satInc 16 u.denyCnt }) t)
  | .lat, 0x2C => if bit v 0 then some (latRow p (s.win.get p).lat.op s) else plain id
  | .lat, 0x3C => if bit v 0 then some (execLatAbort p s) else plain id
  | .bnv, 0x34 =>
    match bits v 0 2 with
    | 0 => plain id
    | 1 => some (execAncLoad p s)
    | 2 => some (execAncClear p s)
    | _ => plain (rangeErr p)
  | .bnv, o =>
    if o == 0x108 + 0x40 * p.num then
      (if bit v 1 then some (execBnvAbort p s) else if bit v 0 then some (chanRow p (chanOf s p).op s) else plain id)
    else none
  | .rng, 0x00 =>
    plain (fun t =>
      let a := if bit v 0 then rngStart t else t
      let c := if bit v 1 then askReseed a else a
      if bit v 2 then katBegin (if c.csn == t.csn then seqd c else c) else c)
  | _, _ => none

/-- The platform's registers that act: TMP, EVR, LCS, FWU, DRB and GOV. -/
def actRest (p : Port) (b : Blk) (off v : Nat) (s : State) : Option Res :=
  let plain (f : State → State) : Option Res := some (wrote p b f s)
  match b, off with
  | .tmp, 0x0C => if bit v 0 then some (execTmpResume p s) else plain id
  | .evr, 0x08 => if bit v 0 then some (execFlush p s) else plain id
  | .evr, 0x0C => some (execCursor p v s)
  | .lcs, 0x40 => if bit v 31 then some (execDbgGo p (bits v 0 4) s) else plain id
  | .lcs, 0x90 => if bit v 0 then some (execRespGo p s) else plain id
  | .fwu, 0x20 =>
    if bit v 1 then some (execStageAbort p s)
    else if !bit v 0 then plain id
    else if bit v 2 then some (execStageManifest p s)
    else some (execStageImage p s)
  | .drb, 0x28 => if bit v 0 then some (execReenum p s) else plain id
  | .gov, 0x40 => if bit v 0 then some (execGovDorm p (bits v 8 8) s) else plain id
  | _, _ => none

/-- The outcome of a write of `v` to a register whose write has a row of its own; none for the other registers. -/
def actPlace (p : Port) (x : Place) (v : Nat) (s : State) : Option Res :=
  match x.blk with
  | .ttb =>
    if x.off < 0x400 && x.off % 16 == 0 then some (execTtbRenew p (x.off / 16) v s)
    else if x.off < 0x400 && x.off % 16 == 4 then some (execTtbRelease p (x.off / 16) v s)
    else none
  | .hpt => if !x.peer && x.off == 0x20 then some (execHptIntStatClear p v s) else none
  | .car => actCar p x.off v s
  | .slc => actSlc p x.off v s
  | .kst => actKst p x.off v s
  | .ucp | .lat | .bnv | .rng => actEngine p x.blk x.off v s
  | .tmp | .evr | .lcs | .fwu | .drb | .gov => actRest p x.blk x.off v s
  | .chp | .cay | .mdf | .mnf | .mem | .wld | .page | .bar4 => none

/-- A BAR0 write of four bytes to a register (R25, R401, R402). -/
def writeBar0 (p : Port) (off v : Nat) (s : State) : Res :=
  match placeOf off with
  | none => .next s
  | some x =>
    match actPlace p x v s with
    | some r => r
    | none =>
      let a := legTouch p (cntWr p s)
      onlyIf (wr p x.blk s) s (stored p (fun t => readPlace t p x) (storePlace p x v a) a)

/-! ### Writes of BAR2 and BAR4 -/

/-- A write of a slice page (R280, R414). -/
def writePage (p : Port) (n off v : Nat) (s : State) : Res :=
  if off < 0x1000 then dbWrite p (some n) (off / 4) v s
  else if off == 0x1200 then
    tenantMbxWrite p n ((if bit v 30 then [.ack] else []) ++ (if bit v 31 then [.post (bits v 0 9)] else [])) s
  else if off == 0x1340 then rsCmdWrite p (some n) v s
  else if off == 0x134C then abortCmdWrite p (some n) v s
  else if !rsReach p (some n) s then .next (pageDiscard p (some n) s)
  else
    let a := cntWr p s
    .next (stored p (fun t => readPage t n off) (storePage p n off v a) a)

/-- A pending vector that is no longer masked fires (R54). -/
def msixRelease (p : Port) (v : Nat) (s : State) : State :=
  let t := s.stats.get p
  if tget false t.pba v && t.cfg.msixEn && !t.cfg.fnMask && !(tget {} t.msix v).masked then
    msixFire p v (updStats p (fun h => { h with pba := tset false h.pba v false }) s)
  else s

/-- One word of the MSI-X table written, with what an unmasking sets free (R54, R415). -/
def writeMsix (p : Port) (o v : Nat) (s : State) : State :=
  msixRelease p (o / 16) (updStats p (fun h => { h with msix := tupd {} h.msix (o / 16) (fun e =>
    match o % 16 with
    | 0 => { e with addr := v + 2 ^ 32 * hi32 e.addr }
    | 4 => { e with addr := lo32 e.addr + 2 ^ 32 * v }
    | 8 => { e with data := v }
    | _ => { e with masked := bit v 0 }) }) s)

/-- A write counted in REG_WR, but in FAULT (R29, R410). -/
def cntWrLive (p : Port) (s : State) : State := if inFault s then s else cntWr p s

/-- A BAR4 write: the operand memories take it, but in FAULT, and the MSI-X table always does (R406); the pending bits ignore it,
and the event window ignores it uncounted (R29, R410, R415). -/
def writeBar4 (p : Port) (off v : Nat) (s : State) : Res :=
  if off < 0x20000 then execOperandAccess p off [] (some ((natLe 4 v).map some)) (cntWrLive p s)
  else if 0xC0000 ≤ off && off < 0xC8000 then .next (writeMsix p (off - 0xC0000) v (cntWrLive p s))
  else if 0xC8000 ≤ off && off < 0xC8100 then .next (cntWrLive p s)
  else .next s

/-- One register access of a write: four bytes at an aligned offset of one of a port's windows (R25, R401, R402, R406, R407); a
register whose write has a row of its own does what that row does. A write of a reserved place is ignored and not counted; in BAR0
it is still a write of its port (R212, R398). The write of a requester that the location does not accept is discarded (R51). -/
def writeWord (p : Port) (pasid : Option Nat) (bar : Bar) (off value : Nat) (s : State) : Res :=
  if !reach p s || off % 4 != 0 then .next s
  else if reservedAt bar off then onlyIf (bar == .bar0 && pasid == none && wr p .chp s) s (legTouch p s)
  else if !accepts p pasid bar off s then .next (discarded p s)
  else
    match bar with
    | .bar0 => writeBar0 p off (value % 2 ^ 32) s
    | .page n => writePage p n off (value % 2 ^ 32) s
    | .bar4 => writeBar4 p off (value % 2 ^ 32) s

/-- One register access of a write with byte enables: one that covers all four bytes writes the register, another is ignored and
counted (R400); one that covers none is no access. -/
def writeEnabled (p : Port) (pasid : Option Nat) (bar : Bar) (x : Nat × List (Option Byte)) (s : State) : Res :=
  if x.2.all Option.isNone then .next s
  else if x.2.all Option.isSome then writeWord p pasid bar x.1 (leNat (x.2.map (·.getD 0))) s
  else if !accepts p pasid bar x.1 s then writeWord p pasid bar x.1 0 s
  else execPartialWrite p ⟨bar, x.1⟩ s

/-- REGISTER_WRITE: a write of 1 to 128 bytes, split into its register accesses (R399, R400); an operand memory's is one access
with any byte enables (R415). A longer one is REQUEST_TOO_LONG's. -/
def execRegisterWrite (p : Port) (pasid : Option Nat) (place : BarPlace) (data : WriteData) (s : State) : Res :=
  let off := place.off
  match data with
  | .word v => writeWord p pasid place.bar off v s
  | .bytes b =>
    if b.length > 128 then execRequestTooLong p false s
    else if place.bar == .bar4 && off < 0x20000 && accepts p pasid .bar4 off s then
      execOperandAccess p off [] (some b) (if reach p s then cntWrLive p s else s)
    else inTurn (writeEnabled p pasid place.bar) (splitWords none off b) s

/-! ### Configuration requests (R46, R49, R50, R410; the layout is PCIe's, log entry 33) -/

/-- A word of a port's configuration space. -/
def readCfg (s : State) (p : Port) (off : Nat) : Nat :=
  let c := (s.stats.get p).cfg
  match off with
  | 0x00 => 0x74161E9D
  | 0x04 => b2n c.mse * 2 + b2n c.bme * 4 + 0x100000
  | 0x08 => 0x108000A0
  | 0x10 => c.bars.getD 0 0 + 4
  | 0x14 => c.bars.getD 1 0
  | 0x18 => c.bars.getD 2 0 + 4
  | 0x1C => c.bars.getD 3 0
  | 0x20 => c.bars.getD 4 0 + 4
  | 0x24 => c.bars.getD 5 0
  | 0x2C => s.mnf.subsysVid + s.mnf.subsysId * 2 ^ 16
  | 0x34 => 0x40
  | 0x40 => 0x00028010
  | 0x44 => 0x10008002
  | 0x48 => b2n c.roEn * 2 ^ 4 + c.mps * 2 ^ 5 + c.mrrs * 2 ^ 12
  | 0x4C => 0x106
  | 0x50 =>
    let h := s.hpt.get p
    h.speed * 2 ^ 16 + h.width * 2 ^ 20 + b2n h.up * 2 ^ 29
  | 0x64 => 0x3001F
  | 0x6C => 0x78
  | 0x68 => c.ctoValue + b2n c.ctoDis * 2 ^ 4 + b2n c.tag10 * 2 ^ 12
  | 0x80 => 0x07FF0011 + b2n c.fnMask * 2 ^ 30 + b2n c.msixEn * 2 ^ 31
  | 0x84 => 0xC0004
  | 0x88 => 0xC8004
  | 0x100 => 0x14020001
  | 0x104 => c.uncorStat
  | 0x108 => c.uncorMask
  | 0x10C => c.uncorSev
  | 0x110 => c.corStat
  | 0x114 => c.corMask
  | 0x118 => c.capCtrl
  | 0x11C => c.hdr.getD 0 0
  | 0x120 => c.hdr.getD 1 0
  | 0x124 => c.hdr.getD 2 0
  | 0x128 => c.hdr.getD 3 0
  | 0x140 => 0x0001001B
  | 0x144 => 0x1400 + b2n c.pasidEn * 2 ^ 16
  | _ => 0

/-- The configuration space after a write: RW fields stored, payload and read request sizes at most 512 and 4,096 bytes
(R45), the AER status registers cleared by ones. -/
def putCfg (off v : Nat) (c : PortCfg) : PortCfg :=
  let bar (i m : Nat) : PortCfg := { c with bars := c.bars.set i (v / m * m) }
  let w1c (x : Nat) : Nat := (BitVec.ofNat 32 x &&& ~~~(BitVec.ofNat 32 v)).toNat
  match off with
  | 0x04 => { c with mse := bit v 1, bme := bit v 2 }
  | 0x10 => bar 0 0x4000000
  | 0x14 => bar 1 1
  | 0x18 => bar 2 0x4000000
  | 0x1C => bar 3 1
  | 0x20 => bar 4 0x100000
  | 0x24 => bar 5 1
  | 0x48 => { c with roEn := bit v 4, mps := min 2 (bits v 5 3), mrrs := min 5 (bits v 12 3) }
  | 0x68 => { c with ctoValue := bits v 0 4, ctoDis := bit v 4, tag10 := bit v 12 }
  | 0x80 => { c with fnMask := bit v 30, msixEn := bit v 31 }
  | 0x104 => { c with uncorStat := w1c c.uncorStat }
  | 0x108 => { c with uncorMask := v }
  | 0x10C => { c with uncorSev := v }
  | 0x110 => { c with corStat := w1c c.corStat }
  | 0x114 => { c with corMask := v }
  | 0x118 => { c with capCtrl := v }
  | 0x144 => { c with pasidEn := bit v 16 }
  | _ => c

/-- The pending vectors that a change of the function's masks sets free (R54). -/
def msixReleaseAll (p : Port) (s : State) : State :=
  (tkeys (s.stats.get p).pba (fun _ b => b)).foldl (fun s v => msixRelease p v s) s

/-- A configuration write: Initiate Function Level Reset resets the function (R64). -/
def writeCfg (p : Port) (off v : Nat) (s : State) : State :=
  if off == 0x48 && bit v 15 then portLoss p .flr s
  else msixReleaseAll p (updStats p (fun h => { h with cfg := putCfg off v h.cfg }) s)

/-- CONFIG_REQUEST: answered with CRS before host-ready, served afterwards (R49). -/
def execConfigRequest (p : Port) (off : Nat) (write : Option Nat) (s : State) : Res :=
  let h := s.hpt.get p
  onlyIf (powered s && h.up && off % 4 == 0 && off < 4096) s
    (if !h.ready then emit (.config p none) s
     else
      match write with
      | none => emit (.config p (some (readCfg s p off))) s
      | some v => emit (.config p (some 0)) (writeCfg p off (v % 2 ^ 32) s))

end Sys2Proof.Machine
end

