-- ==== Sys2Proof/Machine/Dispatch.lean ====
section
/-! DEFINITION. The dispatch of a command to its meaning: one arm per command. -/
namespace Sys2Proof.Machine

/-- The meaning of a command: its effect on everything but the queue. -/
def exec (i : Instr) (s : State) : Host.Outcome State Fault Refusal :=
  match i with
  | .ingest tag => Sys2Proof.Machine.execIngest tag s
  | .retrieve tag => Sys2Proof.Machine.execRetrieve tag s
  | .audit tag => Sys2Proof.Machine.execAudit tag s
  | .rekey tag => Sys2Proof.Machine.execRekey tag s
  | .sealObject tag => Sys2Proof.Machine.execSealObject tag s
  | .legacyRead tag => Sys2Proof.Machine.execLegacyRead tag s
  | .legacyWrite tag => Sys2Proof.Machine.execLegacyWrite tag s
  | .keyGenerateDek tag => Sys2Proof.Machine.execKeyGenerateDek tag s
  | .keyLoadTicket tag => Sys2Proof.Machine.execKeyLoadTicket tag s
  | .keyReleaseSlot tag => Sys2Proof.Machine.execKeyReleaseSlot tag s
  | .randomBytes tag => Sys2Proof.Machine.execRandomBytes tag s
  | .shelfWake tag => Sys2Proof.Machine.execShelfWake tag s
  | .shelfSleep tag => Sys2Proof.Machine.execShelfSleep tag s
  | .driveAdmin tag => Sys2Proof.Machine.execDriveAdmin tag s
  | .propose tag => Sys2Proof.Machine.execPropose tag s
  | .approve tag => Sys2Proof.Machine.execApprove tag s
  | .queryProposal tag => Sys2Proof.Machine.execQueryProposal tag s
  | .verifySignature tag => Sys2Proof.Machine.execVerifySignature tag s
  | .keyImport tag => Sys2Proof.Machine.execKeyImport tag s
  | .attest tag => Sys2Proof.Machine.execAttest tag s
  | .sliceFreeze tag => Sys2Proof.Machine.execSliceFreeze tag s
  | .sliceSave tag => Sys2Proof.Machine.execSliceSave tag s
  | .sliceRestore tag => Sys2Proof.Machine.execSliceRestore tag s
  | .fence tag => Sys2Proof.Machine.execFence tag s
  | .nop tag => Sys2Proof.Machine.execNop tag s
  | .sqDoorbell p slice ring value => Sys2Proof.Machine.execSqDoorbell p slice ring value s
  | .cqDoorbell p slice ring value => Sys2Proof.Machine.execCqDoorbell p slice ring value s
  | .doorbellQueueEval ring => Sys2Proof.Machine.execDoorbellQueueEval ring s
  | .contextLoad ring macOk => Sys2Proof.Machine.execContextLoad ring macOk s
  | .descriptorPrefetch sq count => Sys2Proof.Machine.execDescriptorPrefetch sq count s
  | .sqEntryTake sq => Sys2Proof.Machine.execSqEntryTake sq s
  | .brakeAlert cq => Sys2Proof.Machine.execBrakeAlert cq s
  | .admission tag => Sys2Proof.Machine.execAdmission tag s
  | .legacyAdmit => Sys2Proof.Machine.execLegacyAdmit s
  | .orderedCompletion tag => Sys2Proof.Machine.execOrderedCompletion tag s
  | .coalTimeExpiry cq => Sys2Proof.Machine.execCoalTimeExpiry cq s
  | .rsRead p slice ring => Sys2Proof.Machine.execRsRead p slice ring s
  | .rsWrite p slice ring => Sys2Proof.Machine.execRsWrite p slice ring s
  | .rsEnable p slice ring => Sys2Proof.Machine.execRsEnable p slice ring s
  | .rsDisable p slice ring => Sys2Proof.Machine.execRsDisable p slice ring s
  | .rsReset p slice ring => Sys2Proof.Machine.execRsReset p slice ring s
  | .abortByCookie p slice ring => Sys2Proof.Machine.execAbortByCookie p slice ring s
  | .abortAll p slice ring => Sys2Proof.Machine.execAbortAll p slice ring s
  | .ttbAcquire p n => Sys2Proof.Machine.execTtbAcquire p n s
  | .ttbRenew p n value => Sys2Proof.Machine.execTtbRenew p n value s
  | .ttbRelease p n value => Sys2Proof.Machine.execTtbRelease p n value s
  | .ttbLeaseExpiry n => Sys2Proof.Machine.execTtbLeaseExpiry n s
  | .linkDown p => Sys2Proof.Machine.execLinkDown p s
  | .perstAssert p => Sys2Proof.Machine.execPerstAssert p s
  | .hotReset p => Sys2Proof.Machine.execHotReset p s
  | .linkDisable p => Sys2Proof.Machine.execLinkDisable p s
  | .flr p => Sys2Proof.Machine.execFlr p s
  | .perstDeassert p => Sys2Proof.Machine.execPerstDeassert p s
  | .hostReady p => Sys2Proof.Machine.execHostReady p s
  | .dmaReadError what => Sys2Proof.Machine.execDmaReadError what s
  | .accessDiscard p x => Sys2Proof.Machine.execAccessDiscard p x s
  | .requestTooLong p read => Sys2Proof.Machine.execRequestTooLong p read s
  | .partialWrite p place => Sys2Proof.Machine.execPartialWrite p place s
  | .registerWrite p pasid place data => Sys2Proof.Machine.execRegisterWrite p pasid place data s
  | .rcRead p pasid req => Sys2Proof.Machine.execRcRead p pasid req s
  | .latchedLoRead p off => Sys2Proof.Machine.execLatchedLoRead p off s
  | .hptIntStatClear p value => Sys2Proof.Machine.execHptIntStatClear p value s
  | .slcRead p slice => Sys2Proof.Machine.execSlcRead p slice s
  | .slcWrite p slice => Sys2Proof.Machine.execSlcWrite p slice s
  | .slcCreate p slice => Sys2Proof.Machine.execSlcCreate p slice s
  | .unfreeze p slice => Sys2Proof.Machine.execUnfreeze p slice s
  | .remove p slice => Sys2Proof.Machine.execRemove p slice s
  | .bind p slice => Sys2Proof.Machine.execBind p slice s
  | .unbind p slice => Sys2Proof.Machine.execUnbind p slice s
  | .query p => Sys2Proof.Machine.execQuery p s
  | .inPost p slice len => Sys2Proof.Machine.execInPost p slice len s
  | .inAck p => Sys2Proof.Machine.execInAck p s
  | .outPost p len => Sys2Proof.Machine.execOutPost p len s
  | .outAck p slice => Sys2Proof.Machine.execOutAck p slice s
  | .freezeDrainDone slice => Sys2Proof.Machine.execFreezeDrainDone slice s
  | .shareEpoch => Sys2Proof.Machine.execShareEpoch s
  | .segmentStart tag seg block cell release => Sys2Proof.Machine.execSegmentStart tag seg block cell release s
  | .keyStagingLoad region block tag dst => Sys2Proof.Machine.execKeyStagingLoad region block tag dst s
  | .segmentVerdict tag seg => Sys2Proof.Machine.execSegmentVerdict tag seg s
  | .cellParityError region block cell newBlock newCell => Sys2Proof.Machine.execCellParityError region block cell newBlock newCell s
  | .kstgCorrectedError region => Sys2Proof.Machine.execKstgCorrectedError region s
  | .blockRetire region block => Sys2Proof.Machine.execBlockRetire region block s
  | .regionDegraded region => Sys2Proof.Machine.execRegionDegraded region s
  | .d2dRetry region => Sys2Proof.Machine.execD2dRetry region s
  | .d2dUndeliverable region => Sys2Proof.Machine.execD2dUndeliverable region s
  | .d2dRetrainTimeout region => Sys2Proof.Machine.execD2dRetrainTimeout region s
  | .stragglerSpill drive granules => Sys2Proof.Machine.execStragglerSpill drive granules s
  | .speculativeUnwrap sq pos ticket => Sys2Proof.Machine.execSpeculativeUnwrap sq pos ticket s
  | .shadowExpiry shadow => Sys2Proof.Machine.execShadowExpiry shadow s
  | .identify link resp => Sys2Proof.Machine.execIdentify link resp s
  | .readPresence link resp => Sys2Proof.Machine.execReadPresence link resp s
  | .setPower link resp => Sys2Proof.Machine.execSetPower link resp s
  | .setPerst link resp => Sys2Proof.Machine.execSetPerst link resp s
  | .readClkreq link resp => Sys2Proof.Machine.execReadClkreq link resp s
  | .readStatus link resp => Sys2Proof.Machine.execReadStatus link resp s
  | .readEvents link resp => Sys2Proof.Machine.execReadEvents link resp s
  | .setClkreq link resp => Sys2Proof.Machine.execSetClkreq link resp s
  | .sidebandRetry link resp => Sys2Proof.Machine.execSidebandRetry link resp s
  | .sbnInt link => Sys2Proof.Machine.execSbnInt link s
  | .keepalivePoll link => Sys2Proof.Machine.execKeepalivePoll link s
  | .shelfWakeBegin shelf => Sys2Proof.Machine.execShelfWakeBegin shelf s
  | .powerGoodPoll shelf => Sys2Proof.Machine.execPowerGoodPoll shelf s
  | .powerGoodTimeout shelf => Sys2Proof.Machine.execPowerGoodTimeout shelf s
  | .groupRelease shelf => Sys2Proof.Machine.execGroupRelease shelf s
  | .driveDlUp drive speed topoOk capTo mqes => Sys2Proof.Machine.execDriveDlUp drive speed topoOk capTo mqes s
  | .dlUpTimeout drive => Sys2Proof.Machine.execDlUpTimeout drive s
  | .driveReadyTimeout drive => Sys2Proof.Machine.execDriveReadyTimeout drive s
  | .driveInit drive report => Sys2Proof.Machine.execDriveInit drive report s
  | .sleepDrainDone shelf => Sys2Proof.Machine.execSleepDrainDone shelf s
  | .driveShutdownDone drive reported => Sys2Proof.Machine.execDriveShutdownDone drive reported s
  | .portPark drive => Sys2Proof.Machine.execPortPark drive s
  | .l12Exit drive => Sys2Proof.Machine.execL12Exit drive s
  | .driveClkreqWake drive => Sys2Proof.Machine.execDriveClkreqWake drive s
  | .nvmeCompletion drive cid status dword0 ret => Sys2Proof.Machine.execNvmeCompletion drive cid status dword0 ret s
  | .nvmeCommandTimeout drive cid => Sys2Proof.Machine.execNvmeCommandTimeout drive cid s
  | .nvmeAbortTimeout drive cid => Sys2Proof.Machine.execNvmeAbortTimeout drive cid s
  | .controllerReset drive cfs report => Sys2Proof.Machine.execControllerReset drive cfs report s
  | .driveDmaBlocked drive cid => Sys2Proof.Machine.execDriveDmaBlocked drive cid s
  | .driveLinkDown drive => Sys2Proof.Machine.execDriveLinkDown drive s
  | .driveRetrainTimeout drive => Sys2Proof.Machine.execDriveRetrainTimeout drive s
  | .asyncEvent drive dword0 => Sys2Proof.Machine.execAsyncEvent drive dword0 s
  | .presenceChange drive present => Sys2Proof.Machine.execPresenceChange drive present s
  | .shelfDrop shelf cause => Sys2Proof.Machine.execShelfDrop shelf cause s
  | .driveAdminIssue tag => Sys2Proof.Machine.execDriveAdminIssue tag s
  | .replGo p => Sys2Proof.Machine.execReplGo p s
  | .retainedExpiry slot => Sys2Proof.Machine.execRetainedExpiry slot s
  | .erasePendingExpiry slot => Sys2Proof.Machine.execErasePendingExpiry slot s
  | .ticketKeyExpiry tag => Sys2Proof.Machine.execTicketKeyExpiry tag s
  | .remask slot => Sys2Proof.Machine.execRemask slot s
  | .maskReserveRefill => Sys2Proof.Machine.execMaskReserveRefill s
  | .legKey0Write p value => Sys2Proof.Machine.execLegKey0Write p value s
  | .legKeyWordWrite p n value => Sys2Proof.Machine.execLegKeyWordWrite p n value s
  | .legCommit p value => Sys2Proof.Machine.execLegCommit p value s
  | .legacyLoadTimeout => Sys2Proof.Machine.execLegacyLoadTimeout s
  | .vaultCommit proposal a b void => Sys2Proof.Machine.execVaultCommit proposal a b void s
  | .vaultOpen => Sys2Proof.Machine.execVaultOpen s
  | .vaultRebuildDone => Sys2Proof.Machine.execVaultRebuildDone s
  | .vaultSettle => Sys2Proof.Machine.execVaultSettle s
  | .vaultScrub percent => Sys2Proof.Machine.execVaultScrub percent s
  | .qrmWindowEnd proposal => Sys2Proof.Machine.execQrmWindowEnd proposal s
  | .restart p => Sys2Proof.Machine.execRestart p s
  | .reseed p => Sys2Proof.Machine.execReseed p s
  | .kat p pass => Sys2Proof.Machine.execKat p pass s
  | .healthWindowEnd cell samples => Sys2Proof.Machine.execHealthWindowEnd cell samples s
  | .drbgInstantiate => Sys2Proof.Machine.execDrbgInstantiate s
  | .rngStartTimeout => Sys2Proof.Machine.execRngStartTimeout s
  | .automaticReseed => Sys2Proof.Machine.execAutomaticReseed s
  | .tenderFill => Sys2Proof.Machine.execTenderFill s
  | .rngWaitExpiry => Sys2Proof.Machine.execRngWaitExpiry s
  | .rngAutoRestart => Sys2Proof.Machine.execRngAutoRestart s
  | .keygenKem p => Sys2Proof.Machine.execKeygenKem p s
  | .keygenDsa p => Sys2Proof.Machine.execKeygenDsa p s
  | .pubkey p => Sys2Proof.Machine.execPubkey p s
  | .sign p => Sys2Proof.Machine.execSign p s
  | .latAbort p => Sys2Proof.Machine.execLatAbort p s
  | .latticeOpDone => Sys2Proof.Machine.execLatticeOpDone s
  | .ancLoad p => Sys2Proof.Machine.execAncLoad p s
  | .ancClear p => Sys2Proof.Machine.execAncClear p s
  | .modmul p => Sys2Proof.Machine.execModmul p s
  | .modexp p => Sys2Proof.Machine.execModexp p s
  | .ecadd p => Sys2Proof.Machine.execEcadd p s
  | .ecmul p => Sys2Proof.Machine.execEcmul p s
  | .bnvAbort p => Sys2Proof.Machine.execBnvAbort p s
  | .bnvOpDone channel => Sys2Proof.Machine.execBnvOpDone channel s
  | .operandAccess p off enables write => Sys2Proof.Machine.execOperandAccess p off enables write s
  | .ucpLockAcquire u => Sys2Proof.Machine.execUcpLockAcquire u s
  | .ucpLockRelease u value => Sys2Proof.Machine.execUcpLockRelease u value s
  | .ucpIdleExpiry => Sys2Proof.Machine.execUcpIdleExpiry s
  | .kwWrap u => Sys2Proof.Machine.execKwWrap u s
  | .kwpWrap u => Sys2Proof.Machine.execKwpWrap u s
  | .kwpUnwrap u => Sys2Proof.Machine.execKwpUnwrap u s
  | .cmacGen u => Sys2Proof.Machine.execCmacGen u s
  | .cmacVer u => Sys2Proof.Machine.execCmacVer u s
  | .gcmEnc u => Sys2Proof.Machine.execGcmEnc u s
  | .gcmDec u => Sys2Proof.Machine.execGcmDec u s
  | .gcmVer u => Sys2Proof.Machine.execGcmVer u s
  | .watchdogExpiry w => Sys2Proof.Machine.execWatchdogExpiry w s
  | .worldException w => Sys2Proof.Machine.execWorldException w s
  | .monitorCheckFail w => Sys2Proof.Machine.execMonitorCheckFail w s
  | .restartComplete w => Sys2Proof.Machine.execRestartComplete w s
  | .restartTimeout w => Sys2Proof.Machine.execRestartTimeout w s
  | .gateRequest block => Sys2Proof.Machine.execGateRequest block s
  | .ungateRequest block => Sys2Proof.Machine.execUngateRequest block s
  | .gateApply block => Sys2Proof.Machine.execGateApply block s
  | .workUngate block => Sys2Proof.Machine.execWorkUngate block s
  | .gateLate block => Sys2Proof.Machine.execGateLate block s
  | .blockedAccess address write => Sys2Proof.Machine.execBlockedAccess address write s
  | .assignmentChangeRefused w => Sys2Proof.Machine.execAssignmentChangeRefused w s
  | .lightDetect photodiode => Sys2Proof.Machine.execLightDetect photodiode s
  | .lightAgreementEnd => Sys2Proof.Machine.execLightAgreementEnd s
  | .loopMeasure loop tenOhms => Sys2Proof.Machine.execLoopMeasure loop tenOhms s
  | .voltageAlarm rail millivolts => Sys2Proof.Machine.execVoltageAlarm rail millivolts s
  | .clockAlarm cond => Sys2Proof.Machine.execClockAlarm cond s
  | .temperatureAlarm tenths => Sys2Proof.Machine.execTemperatureAlarm tenths s
  | .sourceInactive source cls => Sys2Proof.Machine.execSourceInactive source cls s
  | .tmpResume p => Sys2Proof.Machine.execTmpResume p s
  | .tmpSelftest photodiodesOk canariesOk => Sys2Proof.Machine.execTmpSelftest photodiodesOk canariesOk s
  | .backupAlarm source reading => Sys2Proof.Machine.execBackupAlarm source reading s
  | .flush p => Sys2Proof.Machine.execFlush p s
  | .flushPeriodExpiry => Sys2Proof.Machine.execFlushPeriodExpiry s
  | .bufferThresholdFlush => Sys2Proof.Machine.execBufferThresholdFlush s
  | .flushDone aOk bOk page => Sys2Proof.Machine.execFlushDone aOk bOk page s
  | .cursor p seq => Sys2Proof.Machine.execCursor p seq s
  | .eventWindowLoaded p => Sys2Proof.Machine.execEventWindowLoaded p s
  | .trans target key => Sys2Proof.Machine.execTrans target key s
  | .fuseBurnDone => Sys2Proof.Machine.execFuseBurnDone s
  | .tokenUse index token => Sys2Proof.Machine.execTokenUse index token s
  | .dbgGo p scope => Sys2Proof.Machine.execDbgGo p scope s
  | .respGo p => Sys2Proof.Machine.execRespGo p s
  | .challengeExpiry => Sys2Proof.Machine.execChallengeExpiry s
  | .porstNAssert => Sys2Proof.Machine.execPorstNAssert s
  | .boot env => Sys2Proof.Machine.execBoot env s
  | .stageImage p => Sys2Proof.Machine.execStageImage p s
  | .stageManifest p => Sys2Proof.Machine.execStageManifest p s
  | .stageAbort p => Sys2Proof.Machine.execStageAbort p s
  | .stageDone flashOk => Sys2Proof.Machine.execStageDone flashOk s
  | .activationBarrier mark => Sys2Proof.Machine.execActivationBarrier mark s
  | .activationConfirm => Sys2Proof.Machine.execActivationConfirm s
  | .activationFallback => Sys2Proof.Machine.execActivationFallback s
  | .time => Sys2Proof.Machine.execTime s
  | .timeReceive frame => Sys2Proof.Machine.execTimeReceive frame s
  | .assign frame => Sys2Proof.Machine.execAssign frame s
  | .assignReply frame rho => Sys2Proof.Machine.execAssignReply frame rho s
  | .assignTimeout => Sys2Proof.Machine.execAssignTimeout s
  | .delay frame => Sys2Proof.Machine.execDelay frame s
  | .beacon frame => Sys2Proof.Machine.execBeacon frame s
  | .beaconMiss address => Sys2Proof.Machine.execBeaconMiss address s
  | .reservationExpiry address => Sys2Proof.Machine.execReservationExpiry address s
  | .joinReq frame => Sys2Proof.Machine.execJoinReq frame s
  | .release frame => Sys2Proof.Machine.execRelease frame s
  | .clear frame => Sys2Proof.Machine.execClear frame s
  | .reenum p => Sys2Proof.Machine.execReenum p s
  | .headStart => Sys2Proof.Machine.execHeadStart s
  | .headLost => Sys2Proof.Machine.execHeadLost s
  | .foreignHeadFrame frame => Sys2Proof.Machine.execForeignHeadFrame frame s
  | .memRetrain channel => Sys2Proof.Machine.execMemRetrain channel s
  | .memLineError line mac => Sys2Proof.Machine.execMemLineError line mac s
  | .memConfigFault => Sys2Proof.Machine.execMemConfigFault s
  | .govInterval power projection readings => Sys2Proof.Machine.execGovInterval power projection readings s
  | .thermalStep tenths => Sys2Proof.Machine.execThermalStep tenths s
  | .avsTimeout => Sys2Proof.Machine.execAvsTimeout s
  | .govDorm p key => Sys2Proof.Machine.execGovDorm p key s
  | .dormantEntry => Sys2Proof.Machine.execDormantEntry s
  | .dormantLapse => Sys2Proof.Machine.execDormantLapse s
  | .wakeFromDormant p => Sys2Proof.Machine.execWakeFromDormant p s
  | .pfailAssert => Sys2Proof.Machine.execPfailAssert s
  | .pfailDeassert => Sys2Proof.Machine.execPfailDeassert s
  | .vddAonSwitch mainFeed => Sys2Proof.Machine.execVddAonSwitch mainFeed s
  | .faultEntry cause => Sys2Proof.Machine.execFaultEntry cause s
  | .ucpOpDone => Sys2Proof.Machine.execUcpOpDone s
  | .segmentEncrypted tag seg => Sys2Proof.Machine.execSegmentEncrypted tag seg s
  | .hostDmaReadDone what data => Sys2Proof.Machine.execHostDmaReadDone what data s
  | .configRequest p off write => Sys2Proof.Machine.execConfigRequest p off write s
  | .debugHalt w => Sys2Proof.Machine.execDebugHalt w s
  | .debugResume w => Sys2Proof.Machine.execDebugResume w s
  | .driveLinkRetrained drive speed => Sys2Proof.Machine.execDriveLinkRetrained drive speed s
  | .hostLinkDlUp p flit width speed => Sys2Proof.Machine.execHostLinkDlUp p flit width speed s
  | .slewEnd => Sys2Proof.Machine.execSlewEnd s

end Sys2Proof.Machine
end

