-- ==== Sys2Proof/Machine/Tick.lean ====
section
/-! DEFINITION. The passing of device time, which the empty queue stands for (log entry 2). -/
namespace Sys2Proof.Machine

/-- Device time one tick on; while the drawbar slews it advances at half rate (R375). -/
def timePasses (s : State) : State :=
  if s.drb.state == .slewing && s.drb.slewLeft > 0 then
    if s.drb.halfTick then
      { s with now := s.now + 1, drb := { s.drb with halfTick := false, slewLeft := s.drb.slewLeft - 1 } }
    else { s with drb := { s.drb with halfTick := true } }
  else { s with now := s.now + 1 }

/-- DRB_SEL_IN at the next tick: its level is the upstream unit's, a free value (R371, R372; log entry 43). -/
def selInMoves (s : State) : State := draw (updDrb (fun d => { d with selIn := drawn s % 2 == 1 }) s)

/-- The secure world has reloaded the pages of the vault's working copy that a line error lost, from vault flash (R384; log entry
108). -/
def reloadDone (s : State) : State :=
  if s.vlt.reload && live s && s.wld.secure.state == .running then updVlt (fun v => { v with reload := false }) s else s

/-- One tick: device time advances unless the device is in reset, where the backup domain's clock runs, and its counter while
VBAT feeds it. What a tick brings is done: an alarm response completes, a light alarm's window ends, queued drawbar frames
leave, gates are applied or released, Krovward's station may burn its certificate, and a unit without a chain passes its barrier (R302, R312, R314, R321, R364, R370). -/
def tick (s : State) : State :=
  if s.chp.inReset then
    { s with bbr := { s.bbr with clock := s.bbr.clock + 1, aon := if s.bbr.onVbat then s.bbr.aon + 1 else s.bbr.aon } }
  else aloneMark (framesDue (selInMoves (stationBurns (gatesDue (reloadDone (lightDue (respDue (timePasses s))))))))

end Sys2Proof.Machine
end

