-- ==== Sys2Proof/Safety.lean ====
section
/-! DEFINITION. What counts as a safe run of the block: no step stops, the settings that managers write stay in the ranges
the register reference states, and what only some commands may change is unchanged by the others. -/
namespace Sys2Proof.Safety

open Sys2Proof.Machine

/-- The media settings lie in their stated ranges (R179, R186, R188, R190). -/
def mediaOk (m : Mdf) : Bool :=
  10 ≤ m.idlePark && m.idlePark ≤ 1000000 && 1 ≤ m.maxShelves && m.maxShelves ≤ 8 && m.stagger ≤ 250 &&
  10 ≤ m.readyMax && m.readyMax ≤ 1275 && 100 ≤ m.cmdTimeout && m.cmdTimeout ≤ 60000 &&
  1 ≤ m.qpairs && m.qpairs ≤ 4 && 15 ≤ m.depth && m.depth ≤ 255 && m.maxXfer ≤ 8

/-- The governor's thresholds lie in their stated ranges (R388). -/
def governorOk (g : Gov) : Bool :=
  50 ≤ g.up && g.up ≤ 100 && g.down < g.up && 1 ≤ g.hold && g.hold ≤ 255

/-- Every setting that a manager may write lies in the range that its register's row states (R401). -/
def settingsOk (s : State) : Bool :=
  mediaOk s.mdf && governorOk s.gov && s.car.brakeAlert ≤ 60000 &&
  (1 ≤ s.kst.remaskPeriod && s.kst.remaskPeriod ≤ 3600) && (10 ≤ s.vlt.window && s.vlt.window ≤ 3600) &&
  (1 ≤ s.ucp.idle && s.ucp.idle ≤ 60000) && (1 ≤ s.rng.failLimit && s.rng.failLimit ≤ 255) &&
  (10 ≤ s.rng.wait && s.rng.wait ≤ 2000) && (100 ≤ s.tmp.holdoff && s.tmp.holdoff ≤ 60000) &&
  (100 ≤ s.evr.period && s.evr.period ≤ 60000)

/-- The tables of the rings and carriages are in canonical form. -/
def carTables (c : Car) : Bool := twf {} c.rings && twf {} c.cars && twf {} c.shadows
/-- The tables of the cipher array are. -/
def cayTables (c : Cay) : Bool := twf {} c.regions && twf {} c.work
/-- The tables of the media fabric are. -/
def mdfTables (m : Mdf) : Bool := twf {} m.links && twf {} m.shelves && twf {} m.drives && twf {} m.diag
/-- The tables of the slices and their bindings are. -/
def slcTables (c : Slc) : Bool := twf {} c.slices && twf {} c.binds

/-- The state's tables are in canonical form: keys rising, and no entry that says what an unlisted key says. -/
def tablesOk (s : State) : Bool :=
  twf {} s.ttb.tables && carTables s.car && cayTables s.cay && mdfTables s.mdf && twf {} s.kst.slots &&
  twf {} s.vlt.props && slcTables s.slc && twf {} s.gov.regions && twf {} s.drb.members

/-- A step neither faults nor is refused. -/
def goesOn (s : State) : Prop := ∃ t, step s = .next t

/-- The commands at which the chip starts anew: PORST_N, the boot, and the token, the end of a burn and the supply's return that
let a boot go on (R342, R355, R395, R405). -/
def isRestart : Instr → Bool
  | .porstNAssert | .boot _ | .tokenUse _ _ | .fuseBurnDone | .pfailDeassert => true
  | _ => false

/-- The commands that end Dormant, at which the CSN is the one saved at its entry (R26, R394). -/
def isWake : Instr → Bool
  | .wakeFromDormant _ | .perstDeassert _ => true
  | _ => false

/-- The commands that burn fuses, beside those at which the chip starts anew: the end of a life-cycle burn, and the
confirmations that advance the anti-rollback counter (R339, R366, R367). -/
def mayBurn : Instr → Bool
  | .fuseBurnDone | .activationBarrier _ | .activationConfirm => true
  | _ => false

/-- The commands that write the manifest flash (R359, R361, R362, R365); a register write may be a stage command. -/
def mayFlash : Instr → Bool
  | .stageImage _ | .stageDone _ | .activationBarrier _ | .activationConfirm | .activationFallback
  | .registerWrite _ _ _ _ => true
  | _ => false

/-- The commands at which device time steps: a time mark (R375), and the end of a head's first enumeration (R377); a
register write may start an enumeration. -/
def mayStepTime : Instr → Bool
  | .timeReceive _ | .assignTimeout | .assignReply _ _ | .reenum _ | .registerWrite _ _ _ _ => true
  | _ => false

end Sys2Proof.Safety
end

