-- ==== Sys2Proof/Certificates/Slice0/Obligations.lean ====
section
/-! DEFINITION. The statements for the provers. Each docstring says which rules of spec/ its statement formalises. -/
open Sys2Proof Sys2Proof.Machine Sys2Proof.Safety

/-- The queue is first in, first out: a step runs the command at its front on the state with the queue's rest. -/
def Obligations.StepRunsFrontCommand : Prop :=
  ∀ (c : Instr) (rest : List Instr) (s : State), s.pending = c :: rest → step s = exec c { s with pending := rest }

/-- An empty queue lets one tick of device time pass (the model's choice, log entries 2, 10, 43, 95, 108 and 111): outside
reset the time goes on by one µs, at half rate while the drawbar slews (R375); in reset nothing but the backup domain's
clock, and on VBAT its counter, moves. -/
def Obligations.EmptyQueueLetsOneTickPass : Prop :=
  ∀ s : State, s.pending = [] → ∃ t, step s = .next t ∧ t.pending = [] ∧
    (s.chp.inReset = false → s.drb.state ≠ .slewing ∨ s.drb.slewLeft = 0 → t.now = s.now + 1) ∧
    (s.chp.inReset = false → s.drb.state = .slewing → 0 < s.drb.slewLeft →
      t.drb.halfTick = !s.drb.halfTick ∧ t.now = (if s.drb.halfTick then s.now + 1 else s.now)) ∧
    (s.chp.inReset = true → t = { s with bbr := { s.bbr with
      clock := s.bbr.clock + 1, aon := if s.bbr.onVbat then s.bbr.aon + 1 else s.bbr.aon } })

/-- R26: after a reset through PORST_N the CSN is 0, and the first sequenced action receives CSN 1. R405: every register
and all volatile state return to reset; the fuses (but for a burn that is cut) and the manifest flash stay. Choices of the
model that it rests on: log entries 5, 9 and 34. -/
def Obligations.PorstReturnsEverythingToReset : Prop :=
  (∀ s : State, s.chp.inReset = false → ∃ t, exec .porstNAssert s = .next t ∧
    t.csn = 0 ∧ t.now = 0 ∧ t.chp = {} ∧ t.hpt = ⟨{}, {}⟩ ∧ t.stats = ⟨{}, {}⟩ ∧ t.win = ⟨{}, {}⟩ ∧ t.ttb = {} ∧ t.car = {} ∧
    t.cay = {} ∧ t.mdf = {} ∧ t.kst = {} ∧ t.leg = {} ∧ t.slc = {} ∧ t.rng = {} ∧ t.lat = {} ∧ t.bnv = {} ∧ t.ucp = {} ∧
    t.wld = {} ∧ t.tmp = {} ∧ t.lcs = {} ∧ t.mnf = {} ∧ t.drb = {} ∧ t.mem = {} ∧ t.gov = {} ∧ t.pins = {} ∧
    t.vlt.mode = .closed ∧ t.vlt.props = [] ∧ t.evr.buf = [] ∧ t.flash = s.flash ∧ t.pending = s.pending ∧
    (s.lcs.burning = false → s.fwu.arbAt = none → t.fuses = s.fuses)) ∧
  (∀ u : State, u.csn = 0 → inFault u = false → (seqd u).csn = 1)

/-- What the spec's register tables give for reset, and that reset lies in the settings' ranges. Choices of the model that
it rests on: log entry 9. -/
def Obligations.ResetValuesOfSettings : Prop :=
  State.reset.pending = [] ∧ State.reset.chp.inReset = true ∧ State.reset.csn = 0 ∧ State.reset.chp.mode = .booting ∧
  State.reset.mdf.idlePark = 0x3E8 ∧ State.reset.mdf.maxShelves = 2 ∧ State.reset.mdf.stagger = 0x19 ∧
  State.reset.mdf.readyMax = 0x12C ∧ State.reset.mdf.cmdTimeout = 0x1F40 ∧ State.reset.mdf.qpairs = 4 ∧
  State.reset.mdf.depth = 0xFF ∧ State.reset.mdf.maxXfer = 5 ∧ State.reset.car.brakeAlert = 0x3E8 ∧
  (∀ p, (State.reset.win.get p).rs.result = 0) ∧ (∀ n, (tableOf State.reset n).holder = none) ∧
  (∀ g, (ringOf State.reset g).state = .disabled) ∧ settingsOk State.reset = true ∧ tablesOk State.reset = true

/-- Every table of the state keeps its canonical form, keys rising and no entry that says what an unlisted key says,
whatever the step: so equal machines are equal states. -/
def Obligations.TablesStayCanonical : Prop :=
  ∀ s t : State, tablesOk s = true → step s = .next t → tablesOk t = true

/-- Every setting that a manager may write stays in the range that its row states, whatever the step. -/
def Obligations.SettingsStayInRange : Prop :=
  ∀ s t : State, settingsOk s = true → step s = .next t → settingsOk t = true

/-- A command changes everything but the queue, and every command has an effect: none faults and none is refused. Choices
of the model that it rests on: log entry 1. -/
def Obligations.CommandsGoOnAndLeaveTheQueue : Prop :=
  ∀ (c : Instr) (s : State), ∃ t, exec c s = .next t ∧ t.pending = s.pending

/-- R24: CSNs are assigned in rising order: no command takes one back, but where the chip starts anew or leaves Dormant
with the CSN saved there. -/
def Obligations.CsnNeverFalls : Prop :=
  ∀ (c : Instr) (s t : State), isRestart c = false → isWake c = false → exec c s = .next t → s.csn ≤ t.csn

/-- FAULT is left only where the chip starts anew. -/
def Obligations.FaultIsLeftOnlyByRestart : Prop :=
  ∀ (c : Instr) (s t : State), isRestart c = false → s.chp.mode = .fault → exec c s = .next t → t.chp.mode = .fault

/-- The fuses change only where the chip starts anew, at the end of a life-cycle burn, and where an activation confirms;
the life-cycle state and the manifest's registers only where the chip starts anew; the manifest flash only by staging and
activation. Choices of the model that it rests on: log entry 29. -/
def Obligations.DurableStoresHoldStill : Prop :=
  ∀ (c : Instr) (s t : State), exec c s = .next t →
    (isRestart c = false → (mayBurn c = false → t.fuses = s.fuses) ∧ t.lcs.state = s.lcs.state ∧ t.mnf = s.mnf) ∧
    (mayFlash c = false → t.flash = s.flash)

/-- Device time moves by ticks alone: a command steps it only where the drawbar applies a mark or a head adopts its
members' time (R375, R377), and PORST_N restarts it. Choices of the model that it rests on: log entry 2. -/
def Obligations.CommandsTakeNoTime : Prop :=
  ∀ (c : Instr) (s t : State), mayStepTime c = false → c ≠ .porstNAssert → exec c s = .next t → t.now = s.now

/-- R59: a read of a free turntable's TTB_ACQ grants it at its CSN: the ticket counts on, skipping 0, the lease is that of
the register, and the read returns the grant word. A read by the holder returns 0 and changes nothing else; a read by the
other port returns 0 and sets WAITER. No other turntable changes. A later write of TTB_LEASE_n changes nothing of the
running lease. -/
def Obligations.TurntableReadGrantsOrWaits : Prop :=
  ∀ (p : Port) (n : Nat) (s : State), tablesOk s = true → wr p .ttb s = true → n < 64 →
    (∃ t, exec (.ttbAcquire p n) s = .next t ∧ (∀ m, m ≠ n → tableOf t m = tableOf s m) ∧
      t.car = s.car ∧ t.kst = s.kst ∧ t.vlt = s.vlt ∧ t.hpt = s.hpt ∧
      ((tableOf s n).holder = none →
        tableOf t n = { tableOf s n with
          holder := some p, waiter := false, forced := false, grants := ticketNext (tableOf s n).grants
          leaseLen := (tableOf s n).lease, leaseFrom := s.now } ∧
        t.csn = s.csn + 1 ∧
        t.out = s.out ++ [.answer p (2 ^ 31 + (p.num + 1) * 2 ^ 29 + ticketNext (tableOf s n).grants)]) ∧
      ((tableOf s n).holder = some p → tableOf t n = tableOf s n ∧ t.csn = s.csn ∧ t.out = s.out ++ [.answer p 0]) ∧
      ((tableOf s n).holder = some p.other →
        tableOf t n = { tableOf s n with waiter := true } ∧ t.csn = s.csn ∧ t.out = s.out ++ [.answer p 0])) ∧
    (∀ v, ∃ t, exec (.registerWrite p none ⟨.bar0, 0x1000 + 16 * n + 12⟩ (.word v)) s = .next t ∧
      tableOf t n = { tableOf s n with lease := min 60000 (v % 2 ^ 16) } ∧ ∀ m, m ≠ n → tableOf t m = tableOf s m)

/-- R60, R61: a write of the holder's ticket by the holder's port restarts the lease, or releases the turntable; the end
of a lease releases it by force and sets FORCED. Each is one sequenced action. Any other write of either register is
counted for its port and changes no turntable. -/
def Obligations.TurntableRenewalReleaseAndExpiry : Prop :=
  (∀ (p : Port) (n v : Nat) (s : State), tablesOk s = true → wr p .ttb s = true → n < 64 →
    (tableOf s n).holder = some p →
    v % 2 ^ 16 = (tableOf s n).grants →
    (∃ t, exec (.ttbRenew p n v) s = .next t ∧ tableOf t n = { tableOf s n with leaseFrom := s.now } ∧
      t.csn = s.csn + 1 ∧ ∀ m, m ≠ n → tableOf t m = tableOf s m) ∧
    (∃ t, exec (.ttbRelease p n v) s = .next t ∧
      tableOf t n = { tableOf s n with holder := none, forced := false, leaseLen := 0, leaseFrom := 0 } ∧
      t.csn = s.csn + 1 ∧ ∀ m, m ≠ n → tableOf t m = tableOf s m)) ∧
  (∀ (n : Nat) (s : State), tablesOk s = true → powered s = true → inFault s = false → (tableOf s n).holder.isSome = true →
    (tableOf s n).leaseLen ≠ 0 → s.now ≥ (tableOf s n).leaseFrom + 1000 * (tableOf s n).leaseLen →
    ∃ t, exec (.ttbLeaseExpiry n) s = .next t ∧ t = dropTable n true s ∧
      (n ≠ 0 → tableOf t n = { tableOf s n with holder := none, forced := true, leaseLen := 0, leaseFrom := 0 } ∧
        t.csn = s.csn + 1)) ∧
  (∀ (p : Port) (n v : Nat) (s : State), wr p .ttb s = true → n < 64 →
    ¬ ((tableOf s n).holder = some p ∧ v % 2 ^ 16 = (tableOf s n).grants) →
    ∀ c, c = .ttbRenew p n v ∨ c = .ttbRelease p n v →
      ∃ t, exec c s = .next t ∧ t.ttb.tables = s.ttb.tables ∧ t.ttb.badRel.get p = satInc 16 (s.ttb.badRel.get p) ∧
        t.ttb.badRel.get p.other = s.ttb.badRel.get p.other ∧ t.csn = s.csn ∧ t.car = s.car ∧ t.kst = s.kst)

/-- R80, R81, R100: a doorbell of a cached ring with none queued moves its position: PRODUCER of an SQ where the entries
fit, the consumer of a CQ; the oldest that waits in the queue is evaluated, and leaves it, once its context is cached, and
held doorbells enter as the queue has room; one that the queue has no room for is held in its port's coupling, takes no
CSN and changes no ring. Choices of the model that it rests on: log entries 81 and 102. -/
def Obligations.DoorbellsMovePositions : Prop :=
  (∀ (p : Port) (sl : Option Nat) (ring v g : Nat) (s : State), rsReach p sl s = true → dbRing sl ring s = some g →
    (ringOf s g).type = .sq → isCached s g = true → isQueued s g = false → dbHolds p sl ring s = false →
    (ringOf s g).state ≠ .disabled → (ringOf s g).state ≠ .error →
    dbOk (ringOf s g) (v % 2 ^ 32) = true →
    ringOcc (ringOf s g) + occupancy (ringN (ringOf s g)) (dbPos (ringOf s g) (v % 2 ^ 32)) (ringOf s g).producer ≤
      ringN (ringOf s g) →
    ∃ t, exec (.sqDoorbell p sl ring v) s = .next t ∧ (ringOf t g).producer = dbPos (ringOf s g) (v % 2 ^ 32) ∧
      (ringOf t g).consumer = (ringOf s g).consumer ∧ t.car.cars = s.car.cars) ∧
  (∀ (p : Port) (sl : Option Nat) (ring v g : Nat) (s : State), rsReach p sl s = true → dbRing sl ring s = some g →
    (ringOf s g).type = .cq → isCached s g = true → isQueued s g = false → dbHolds p sl ring s = false →
    (ringOf s g).state ≠ .disabled → (ringOf s g).state ≠ .error →
    dbOk (ringOf s g) (v % 2 ^ 32) = true →
    occupancy (ringN (ringOf s g)) (dbPos (ringOf s g) (v % 2 ^ 32)) (ringOf s g).consumer ≤ ringOcc (ringOf s g) →
    ∃ t, exec (.cqDoorbell p sl ring v) s = .next t ∧ (ringOf t g).consumer = dbPos (ringOf s g) (v % 2 ^ 32) ∧
      t.car.cars = s.car.cars) ∧
  (∀ (g v : Nat) (rest : List (Nat × Nat)) (s : State), live s = true → isCached s g = true → s.car.dbq = (g, v) :: rest →
    ∃ t, exec (.doorbellQueueEval g) s = .next t ∧
      t = releaseDb (evalDoorbell g v { s with car := { s.car with dbq := rest } }) ∧
      (s.car.dbHeld = [] → (ringOf s g).type = .sq → (ringOf s g).state ≠ .disabled → (ringOf s g).state ≠ .error →
        dbOk (ringOf s g) v = true →
        ringOcc (ringOf s g) + occupancy (ringN (ringOf s g)) (dbPos (ringOf s g) v) (ringOf s g).producer ≤
          ringN (ringOf s g) →
        t.car.dbq = rest ∧ (ringOf t g).producer = dbPos (ringOf s g) v ∧ t.car.cars = s.car.cars)) ∧
  (∀ (p : Port) (sl : Option Nat) (ring v : Nat) (s : State), rsReach p sl s = true → dbHolds p sl ring s = true →
    ∃ t, exec (if ((dbRing sl ring s).map (fun g => (ringOf s g).type == .cq)).getD false then .cqDoorbell p sl ring v
        else .sqDoorbell p sl ring v) s = .next t ∧
      t.car.dbHeld = s.car.dbHeld ++ [{ port := p, slice := sl, ring := ring, value := v }] ∧ t.csn = s.csn ∧
      t.car.rings = s.car.rings ∧ t.car.dbq = s.car.dbq)

/-- R74, R93, R100: each ring setup command that its checks pass does its one thing to the ring's context, on which the
doorbells queued before it have acted (`a`), and reports OK; BUSY lasts at most 10 µs. A CQ that is written keeps its
BRAKE_STAMP. An ENABLE leaves every other ring as it was, but that SQs brake or resume as the credits then stand. Choices
of the model that it rests on: log entries 53, 60, 79 and 98. -/
def Obligations.RingSetupCommandsAct : Prop :=
  ∀ (p : Port) (sl : Option Nat) (ring g : Nat) (s a : State), tablesOk s = true → rsReach p sl s = true →
    (rsWin p sl s).busyUntil ≤ s.now → rsRing sl ring s = some g → a = rsWrote p sl (flushDb g s) →
    (tenantCtx sl g a = true →
      ∃ t, exec (.rsRead p sl ring) s = .next t ∧ (rsWin p sl t).data = ctxBytes (ringOf a g) ∧
        (rsWin p sl t).result = 0 ∧ s.now ≤ (rsWin p sl t).busyUntil ∧ (rsWin p sl t).busyUntil ≤ s.now + 10) ∧
    (rsWriteCheck p sl g a = 0 →
      ∃ t, exec (.rsWrite p sl ring) s = .next t ∧
        (let r := ctxRing p (rsWin p sl s).data
         ringOf t g = if r.type == .cq then { r with brakeStamp := (ringOf a g).brakeStamp, alerted := (ringOf a g).alerted }
           else r) ∧
        (rsWin p sl t).result = 0 ∧ ∀ h, h ≠ g → ringOf t h = ringOf a h) ∧
    (rsEnableCheck sl g a = 0 →
      ∃ t, exec (.rsEnable p sl ring) s = .next t ∧ (rsWin p sl t).result = 0 ∧
        ∀ h, (let r := if h = g then { ringOf a g with
                state := enableState a (ringOf a g), home := enableHome a (ringOf a g), error := 0 } else ringOf a h
          ∃ st bs al cp, ringOf t h = { r with state := st, brakeStamp := bs, alerted := al, copies := cp } ∧
            (st = r.state ∨ r.type = .sq ∧ (r.state = .active ∧ st = .braked ∨ r.state = .braked ∧ st = .active)))) ∧
    ((ringOf a g).state = .active ∨ (ringOf a g).state = .braked →
      (ringOf a g).type = .cq → cqIdle a g = true → tenantCtx sl g a = true →
      ∃ t, exec (.rsDisable p sl ring) s = .next t ∧ (ringOf t g).state = .disabled ∧ (rsWin p sl t).result = 0) ∧
    ((ringOf a g).state = .active ∨ (ringOf a g).state = .braked →
      (ringOf a g).type ≠ .cq → tenantCtx sl g a = true →
      ∃ t, exec (.rsDisable p sl ring) s = .next t ∧ (ringOf t g).state = .disabled ∧ (rsWin p sl t).result = 0) ∧
    ((ringOf a g).state = .error → (ringOf a g).outstanding = 0 → (ringOf a g).siding = [] →
      tenantCtx sl g a = true →
      ∃ t, exec (.rsReset p sl ring) s = .next t ∧ (ringOf t g).state = .disabled ∧ (ringOf t g).error = 0 ∧
        (ringOf t g).producer = 0 ∧ (ringOf t g).consumer = 0 ∧ (rsWin p sl t).result = 0)

/-- The ring family's device-side steps: a context load caches its ring (R99), a prefetch asks for at most eight entries
within the ring's free ones (R84), each on the rings as the doorbells queued before it leave them (`a`, R100); a take
whose turn it is (R282) gives the covered entry its tag and credit at its CSN and advances CONSUMER (R86), a braking's
alert is raised once (R94), the coalescing time sends the message (R95), and an abort write marks the SQ's carriages
(R122). Choices of the model that it rests on: log entries 16, 61, 80, 97, 98 and 101. -/
def Obligations.RingStepsComplete : Prop :=
  (∀ (g : Nat) (s : State), live s = true → isCached s g = false → g < 2 ^ 20 → isPinned (ringOf s g) = false →
    s.car.dbHeld = [] →
    ∃ t, exec (.contextLoad g true) s = .next t ∧ isCached t g = true ∧ t.car.ctxMiss = satInc 32 s.car.ctxMiss ∧
      t.car.rings = s.car.rings) ∧
  (∀ (g k : Nat) (s a : State), a = flushDb g s → live s = true → (ringOf a g).type = .sq → (ringOf a g).state = .active →
    ∃ t, exec (.descriptorPrefetch g k) s = .next t ∧
      t = prefetchN (min (min k 8) (ringN (ringOf a g) - ringOcc (ringOf a g))) g (ringOf a g).producer a ∧
      t.csn = a.csn ∧ t.car.cars = a.car.cars ∧ (ringOf t g).consumer = (ringOf a g).consumer ∧
      (ringOf t g).producer = (ringOf a g).producer) ∧
  (∀ (g tag : Nat) (sided : Bool) (s x a : State), x = flushDb g (shareSync s) → a = flushDb (ringOf x g).cq x →
    live a = true → mayTake a (ringOf a g) = true → freeTag a = some tag →
    credit a (ringOf a g).cq = some sided → g ≠ (ringOf a g).cq → tagTurn a g = true →
    copyUsable (tget {} (ringOf a g).copies (ringOf a g).consumer) = true →
    ∃ t, exec (.sqEntryTake g) s = .next t ∧ (carrOf t tag).stage = .taken ∧ (carrOf t tag).sq = g ∧
      (carrOf t tag).entry = (tget {} (ringOf a g).copies (ringOf a g).consumer).bytes ∧
      (ringOf t g).consumer = posNext (ringN (ringOf a g)) (ringOf a g).consumer ∧ t.csn = a.csn + 1) ∧
  (∀ (q : Nat) (s : State), live s = true → (ringOf s q).type = .cq → (ringOf s q).brakeStamp ≠ 0 →
    (ringOf s q).alerted = false → s.car.brakeAlert ≠ 0 →
    (s.now + 2 ^ 32 - (ringOf s q).brakeStamp) % 2 ^ 32 ≥ 1000 * s.car.brakeAlert →
    ∃ t, exec (.brakeAlert q) s = .next t ∧ (ringOf t q).alerted = true ∧ t.csn = s.csn + 1 ∧ t.car.cars = s.car.cars) ∧
  (∀ (q : Nat) (s : State), powered s = true → (ringOf s q).type = .cq → (ringOf s q).vecEn = true →
    (ringOf s q).coalCnt ≠ 0 → s.now ≥ (ringOf s q).coalAt + (ringOf s q).coalTime →
    ∃ t, exec (.coalTimeExpiry q) s = .next t ∧ (ringOf t q).coalCnt = 0 ∧ ∀ h, h ≠ q → ringOf t h = ringOf s h) ∧
  (∀ (p : Port) (sl : Option Nat) (ring g : Nat) (s : State), rsReach p sl s = true → rsRing sl ring s = some g →
    exec (.abortByCookie p sl ring) s = .next (abortSq g (some (rsWin p sl s).abortCookie) (rsWrote p sl s)) ∧
    exec (.abortAll p sl ring) s = .next (abortSq g none (rsWrote p sl s)) ∧
    (tablesOk s = true → ∃ t, exec (.abortByCookie p sl ring) s = .next t ∧ s.csn < t.csn ∧
      ∀ u, (carrOf s u).stage = .taken → (carrOf s u).sq = g → (carrOf s u).refused = false → (carrOf s u).stopped = false →
        eCookie (carrOf s u).entry = (rsWin p sl s).abortCookie →
        (carrOf t u).stage = .free ∨ (carrOf t u).fin = some (stAborted, 0)) ∧
    (tablesOk s = true → ∃ t, exec (.abortAll p sl ring) s = .next t ∧ s.csn < t.csn ∧
      ∀ u, (carrOf s u).stage = .taken → (carrOf s u).sq = g → (carrOf s u).refused = false → (carrOf s u).stopped = false →
        (carrOf t u).stage = .free ∨ (carrOf t u).fin = some (stAborted, 0)))

/-- Carriages without keys or media: admission runs the ordered checks (R118) and, at its CSN, admits the carriage or ends
it refused; a waiting legacy carriage goes to them once no other is admitted (R113), a finished carriage on an ORDERED SQ
completes once no earlier one of the SQ is open (R97), and NOP and FENCE complete DONE at a CSN of their own and free
their tags (R98, R109). Choices of the model that it rests on: log entries 18 and 97. -/
def Obligations.PlainCarriagesComplete : Prop :=
  (∀ (tag : Nat) (s : State), live s = true → (carrOf s tag).stage = .taken → s.car.legWait.contains tag = false →
    s.vlt.mode ≠ .closed → (carrOf s tag).held = false → isLegacy (carrOf s tag).entry = false →
    exec (.admission tag) s = .next (runAdmission tag s) ∧
    (tablesOk s = true → admission s (carrOf s tag) = .pass → tenderNeed (carrOf s tag).entry = 0 →
      eOp (carrOf s tag).entry ≠ 0x30 → eOp (carrOf s tag).entry ≠ 0x50 →
      ∃ t, exec (.admission tag) s = .next t ∧ (carrOf t tag).stage = .admitted ∧ (carrOf t tag).admCsn = s.csn + 1 ∧
        (carrOf t tag).admAt = s.now ∧ (carrOf t tag).entry = (carrOf s tag).entry ∧ t.csn = s.csn + 1) ∧
    (∀ x, tablesOk s = true → admission s (carrOf s tag) = .refuse x → waitsTurn s tag = false →
      ∃ t, exec (.admission tag) s = .next t ∧ (carrOf t tag).stage = .free ∧ s.csn < t.csn ∧
        t.car.refusedCnt = satInc 32 s.car.refusedCnt)) ∧
  (∀ (tag : Nat) (rest : List Nat) (s : State), s.car.legWait = tag :: rest → live s = true → legacyBusy s tag = false →
    exec .legacyAdmit s = .next (runAdmission tag { s with car := { s.car with legWait := rest } }) ∧
    (tablesOk s = true → (carrOf s tag).stage = .taken → isLegacy (carrOf s tag).entry = true →
      admission { s with car := { s.car with legWait := rest } } (carrOf s tag) = .pass →
      ∃ t, exec .legacyAdmit s = .next t ∧ (carrOf t tag).stage = .admitted ∧ (carrOf t tag).admCsn = s.csn + 1 ∧
        t.car.legWait = rest ∧ t.csn = s.csn + 1) ∧
    (∀ x, tablesOk s = true → (carrOf s tag).stage = .taken →
      admission { s with car := { s.car with legWait := rest } } (carrOf s tag) = .refuse x → waitsTurn s tag = false →
      ∃ t, exec .legacyAdmit s = .next t ∧ (carrOf t tag).stage = .free ∧ s.csn < t.csn)) ∧
  (∀ (tag st res : Nat) (s : State), powered s = true → (carrOf s tag).stage = .finished →
    (carrOf s tag).fin = some (st, res) → earlierOpen s tag = false →
    exec (.orderedCompletion tag) s = .next (reap stKeyErased (finish tag st res s)) ∧
    (tablesOk s = true → inFault s = false →
      ∃ t, exec (.orderedCompletion tag) s = .next t ∧ (carrOf t tag).stage = .free ∧ s.csn < t.csn)) ∧
  (∀ (tag : Nat) (s : State), live s = true → (carrOf s tag).stage = .admitted → eOp (carrOf s tag).entry = 0x7E →
    earlierOpen s tag = false → exec (.fence tag) s = .next (done tag stDone 0 s) ∧
    (tablesOk s = true → ∃ t, exec (.fence tag) s = .next t ∧ (carrOf t tag).stage = .free ∧ s.csn < t.csn)) ∧
  (∀ (tag : Nat) (s : State), live s = true → (carrOf s tag).stage = .admitted → eOp (carrOf s tag).entry = 0x7F →
    exec (.nop tag) s = .next (done tag stDone 0 s) ∧
    (tablesOk s = true → waitsTurn s tag = false →
      ∃ t, exec (.nop tag) s = .next t ∧ (carrOf t tag).stage = .free ∧ s.csn < t.csn) ∧
    (tablesOk s = true → waitsTurn s tag = true →
      ∃ t, exec (.nop tag) s = .next t ∧ ((carrOf t tag).stage = .finished ∨ (carrOf t tag).stage = .free)))

/-- R211, R212: with turntable 0 held, a write of LEG_KEY0 erases the register and starts a load with its word, at one
CSN; the next expected word continues the load; LEG_COMMIT of 1 after 16 words ends it, and the key takes effect where its
halves differ; 1,000 µs after LEG_KEY0 the load is abandoned and counted. Without the turntable each write is counted and
changes nothing else. Choices of the model that it rests on: log entry 69. -/
def Obligations.LegacyRegisterLoadsAndCommits : Prop :=
  (∀ (p : Port) (v : Nat) (s : State), wr p .kst s = true → holds p 0 s = true → s.leg.loading = false → legacyUsers s = [] →
    ∃ t, exec (.legKey0Write p v) s = .next t ∧ t.csn = s.csn + 1 ∧ t.car = s.car ∧ t.kst = s.kst ∧
      t.leg = { s.leg with
        key := [], stage := natLe 4 v, loaded := false, loading := true, next := 1, port := some p, startAt := s.now
        last := 6 }) ∧
  (∀ (p : Port) (n v : Nat) (s : State), wr p .kst s = true → holds p 0 s = true → s.leg.loading = true →
    s.leg.port = some p → legLate s = false → n = s.leg.next → n ≤ 15 →
    exec (.legKeyWordWrite p n v) s = .next { seqd (cntWr p s) with
      leg := { s.leg with stage := s.leg.stage ++ natLe 4 v, next := n + 1 } }) ∧
  (∀ (p : Port) (v : Nat) (s : State), wr p .kst s = true → holds p 0 s = true → s.leg.loading = true →
    s.leg.port = some p → legLate s = false → v % 2 ^ 32 = 1 → s.leg.next = 16 →
    ∃ t, exec (.legCommit p v) s = .next t ∧ t.csn = s.csn + 1 ∧ t.car = s.car ∧ t.kst = s.kst ∧
      (s.leg.stage.take 32 ≠ s.leg.stage.drop 32 → t.leg = { s.leg with
        key := s.leg.stage, stage := [], loaded := true, loading := false, next := 0
        commits := satInc 16 s.leg.commits, last := 1 }) ∧
      (s.leg.stage.take 32 = s.leg.stage.drop 32 →
        t.leg = { s.leg with stage := [], loading := false, next := 0, last := 5 })) ∧
  (∀ s : State, powered s = true → inFault s = false → legLate s = true →
    ∃ t, exec .legacyLoadTimeout s = .next t ∧ t.csn = s.csn ∧ t.car = s.car ∧ t.kst = s.kst ∧
      t.leg = { s.leg with
        loading := false, stage := [], next := 0, abandonCnt := satInc 16 s.leg.abandonCnt, last := 3 }) ∧
  (∀ (p : Port) (n v : Nat) (s : State), wr p .kst s = true → holds p 0 s = false →
    exec (.legKey0Write p v) s = .next (guardErr p (cntWr p s)) ∧
    exec (.legKeyWordWrite p n v) s = .next (guardErr p (cntWr p s)) ∧
    exec (.legCommit p v) s = .next (guardErr p (cntWr p s)))

/-- R204: REPL_GO gives the destination slot the source's material, attributes and parent under its next generation, and
frees the source; the old generation is retained while it is used. A cause stops it, reported in KST_REPL_STAT. Choices of
the model that it rests on: log entries 68 and 100. -/
def Obligations.ReplaceMovesMaterial : Prop :=
  (∀ (p : Port) (s : State), tablesOk s = true → wr p .kst s = true →
    replCheck s (s.win.get p).replSrc (s.win.get p).replDst = 0 → (slotOf s (hIndex (s.win.get p).replSrc)).retained = false →
    ∃ t, exec (.replGo p) s = .next t ∧ (t.win.get p).replStat = 0 ∧ t.csn = s.csn + 1 ∧ t.car = s.car ∧ t.vlt = s.vlt ∧
      (let i := hIndex (s.win.get p).replSrc
       let j := hIndex (s.win.get p).replDst
       let x := slotOf s i
       let d := slotOf s j
       (slotOf t i).state = .free ∧ (slotOf t i).share0 = 0 ∧ (slotOf t i).share1 = 0 ∧
       (slotOf t j).state = .live ∧ (slotOf t j).gen = genNext d.gen ∧ (slotOf t j).share0 = x.share0 ∧
       (slotOf t j).share1 = x.share1 ∧ (slotOf t j).engine = x.engine ∧ (slotOf t j).usage = x.usage ∧
       (slotOf t j).owner = x.owner ∧ (slotOf t j).scope = x.scope ∧
       (slotOf t j).retained = (d.use != 0) ∧ (d.use ≠ 0 → (slotOf t j).retGen = d.gen ∧ (slotOf t j).retUse = d.use) ∧
       ∀ k, k ≠ i → k ≠ j → slotOf t k = slotOf s k)) ∧
  (∀ (p : Port) (s : State), wr p .kst s = true → replCheck s (s.win.get p).replSrc (s.win.get p).replDst = 0 →
    (slotOf s (hIndex (s.win.get p).replSrc)).retained = true →
    exec (.replGo p) s = .next (reap stKeyErased (replace (s.win.get p).replSrc (s.win.get p).replDst
      (updWin p (fun w => { w with replStat := 0 }) (seqd (legTouch p (cntWr p s))))))) ∧
  (∀ (p : Port) (s : State), wr p .kst s = true → replCheck s (s.win.get p).replSrc (s.win.get p).replDst ≠ 0 →
    ∃ t, exec (.replGo p) s = .next t ∧
      (t.win.get p).replStat = replCheck s (s.win.get p).replSrc (s.win.get p).replDst ∧ t.kst = s.kst ∧
      t.csn = s.csn + 1)

/-- R204, R206, R207: what reaches its 100 ms limit is zeroised at its own CSN, and every carriage and command that used
it ends KEY_ERASED; a limit with users is counted. -/
def Obligations.KeyLimitsZeroise : Prop :=
  (∀ (i : Nat) (s : State), powered s = true → inFault s = false → (slotOf s i).retained = true →
    s.now ≥ (slotOf s i).retAt + 100000 →
    exec (.retainedExpiry i) s =
      .next (reap stKeyErased (countTmo ((slotOf s i).retUse != 0) (seqd (zeroiseRetained i s))))) ∧
  (∀ (i : Nat) (s : State), powered s = true → inFault s = false →
    ((slotOf s i).state = .pending ∨ (slotOf s i).state = .orphaned) → s.now ≥ (slotOf s i).pendStamp + 100000 →
    exec (.erasePendingExpiry i) s =
      .next (reap stKeyErased (countTmo ((slotOf s i).use != 0) (seqd (zeroiseSlot i s))))) ∧
  (∀ (t owner dek base count : Nat) (hit : Bool) (s : State), powered s = true → inFault s = false →
    (carrOf s t).key = .ticket owner dek base count hit → bound (carrOf s t) = true →
    (ownerOf s owner).state = .revoked → s.now ≥ (ownerOf s owner).revokedAt + 100000 →
    exec (.ticketKeyExpiry t) s = .next (stop t stKeyErased 0 (countTmo true s))) ∧
  (∀ (i : Nat) (s : State), tablesOk s = true → powered s = true → (tget {} s.car.shadows i).used = true →
    (∀ u, (tget {} s.car.shadows i).tag = some u → (carrOf s u).admCsn = 0) → s.now ≥ (tget {} s.car.shadows i).at_ + 10000 →
    ∃ t, exec (.shadowExpiry i) s = .next t ∧ tget {} t.car.shadows i = {} ∧ t.csn = s.csn ∧ t.kst = s.kst ∧
      (∀ j, j ≠ i → tget {} t.car.shadows j = tget {} s.car.shadows j))

/-- R206: zeroising a slot makes it FREE, clears its shares and its retained generation, keeps its generation, and takes
every key-staging entry of it; marking one PENDING or ORPHANED does that at once where nothing uses it. R196, R197, R209:
allocating a slot makes it LIVE under its next generation, with no user, and its two shares combine to the new material.
Choices of the model that it rests on: log entries 12 and 70. -/
def Obligations.SlotsHoldMaterialOnlyWhileAllocated : Prop :=
  (∀ (i : Nat) (s : State), tablesOk s = true →
    (let t := zeroiseSlot i s
     (slotOf t i).state = .free ∧ (slotOf t i).share0 = 0 ∧ (slotOf t i).share1 = 0 ∧ (slotOf t i).retained = false ∧
     (slotOf t i).retShare0 = 0 ∧ (slotOf t i).retShare1 = 0 ∧ (slotOf t i).gen = (slotOf s i).gen ∧
     (∀ g, materialOf t i g = none) ∧ (∀ k, k ≠ i → slotOf t k = slotOf s k) ∧
     ∀ r b g, (tget {} (workOf t r).blocks b).keys.any (fun e => e.id == .slot i g) = false) ∧
    (∀ st, (slotOf s i).use = 0 → (slotOf s i).state = .live → markSlot st i s = zeroiseSlot i s) ∧
    ((slotOf s i).use ≠ 0 → (slotOf s i).state = .live →
      slotOf (markSlot .pending i s) i = { slotOf s i with state := .pending, session := false, pendStamp := s.now })) ∧
  (∀ (i : Nat) (n : NewSlot) (s : State),
    (slotOf (allocSlot i n s) i).state = .live ∧ (slotOf (allocSlot i n s) i).gen = genNext (slotOf s i).gen ∧
    (slotOf (allocSlot i n s) i).use = 0 ∧
    (slotOf (allocSlot i n s) i).share0 ^^^ (slotOf (allocSlot i n s) i).share1 = n.material ∧
    materialOf (allocSlot i n s) i (genNext (slotOf s i).gen) = some n.material ∧
    (∀ k, k ≠ i → slotOf (allocSlot i n s) k = slotOf s k))

/-- The key carriages (R114, R203, R264-R265): a release marks its slot; a load opens its reserved slot with the ticket's
key; a generation, a seal, an import and an attestation begin, run and complete as their steps say. Choices of the model
that it rests on: log entries 18, 68 and 77. -/
def Obligations.KeyCarriagesComplete : Prop :=
  (∀ (t i g : Nat) (s : State), isAt s t 0x12 .admitted = true → (carrOf s t).key = .slot i g →
    exec (.keyReleaseSlot t) s = .next (done t stDone 0 (mark .pending i (seqIf ((slotOf s i).state == .live) s)))) ∧
  (∀ (t owner dek base count i : Nat) (hit : Bool) (s : State), isAt s t 0x11 .admitted = true →
    (carrOf s t).key = .ticket owner dek base count hit → (carrOf s t).reserved = some i →
    waitsTurn s t = false →
    exec (.keyLoadTicket t) s = .next
      (let a := updCarr t (fun c => { c with reserved := none }) (allocSlot i
        { material := dek, engine := eEngine (carrOf s t).entry, usage := eUsage (carrOf s t).entry
          size := tkSize ((carrOf s t).ticket.getD []), owner := owner, scope := ringScope (ringOf s (carrOf s t).sq)
          base := base, count := count } (seqd s))
       reap stKeyErased (finishAt t stDone (slotHandle a i) a))) ∧
  (∀ (t : Nat) (s : State), isAt s t 0x10 .admitted = true → (carrOf s t).rngWait = false →
    (carrOf s t).rnd.length = 40 → waitsTurn s t = false →
    exec (.keyGenerateDek t) s = .next (generateDek t (begin_ t s))) ∧
  (∀ (t i g : Nat) (s : State), isAt s t 0x05 .admitted = true → (carrOf s t).key = .slot i g →
    sealWaits s t i g = false → waitsTurn s t = false →
    exec (.sealObject t) s = .next (match kekOf s (slotOf s i).owner with
      | none => done t stKeyErased 0 s
      | some kek => reap stKeyErased (finishAt t stDone (slotOf s i).count (markBy (some t) .pending i (seqd (writeBuffer t 0
          (makeTicket kek true (slotOf s i).sizeCode (slotOf s i).owner (slotOf s i).count (slotOf s i).base
            (keyBytes ((slotOf s i).share0 ^^^ (slotOf s i).share1))) (cacheKek (slotOf s i).owner s))))))) ∧
  (∀ (t : Nat) (s : State), worldServes s 0x41 = true → isAt s t 0x41 .running = true → (carrOf s t).aux = 1 →
    (carrOf s t).started = true → waitsTurn s t = false →
    exec (.keyImport t) s = .next (match importKey s (carrOf s t) with
      | none => done t stVerifyReject 0 s
      | some k => doneOpen t
          { material := leNat k, engine := eEngine (carrOf s t).entry, usage := eUsage (carrOf s t).entry
            owner := bits (fld (carrOf s t).entry 52 3) 0 22, scope := ringScope (ringOf s (carrOf s t).sq) } s)) ∧
  (∀ (t : Nat) (s : State), worldServes s 0x42 = true → isAt s t 0x42 .running = true → (carrOf s t).aux = 1 →
    (carrOf s t).started = true →
    exec (.attest t) s = .next
      (let body := reportBody s ((carrOf s t).record.getD [])
       let report := body ++ attestSign s body (carrOf s t).rnd
       done t stDone report.length (writeBuffer t 0 report s))) ∧
  (∀ (sq pos i : Nat) (e ticket : Bytes) (tag : Option Nat) (s : State), live s = true →
    (ringOf s sq).type = .sq → (ringOf s sq).state = .active → unwrapTarget s sq pos = some (e, tag) →
    firstBelow 1024 (fun i => !(tget {} s.car.shadows i).used) = some i → eOp e = 0x02 → kKind (eKeyref e) = 2 →
    ticket.length = 64 → readsOut (s.stats.get (ringOf s sq).home) < 768 →
    tany s.car.shadows (fun _ h => h.used && h.sq == sq && h.pos == pos) = false →
    ∃ t, exec (.speculativeUnwrap sq pos ticket) s = .next t ∧ t.kst = s.kst ∧ t.csn = s.csn ∧
      (openTicket s ticket = none → t.car = s.car) ∧
      (∀ dek, openTicket s ticket = some dek → tget {} t.car.shadows i =
        { used := true, tag := tag, sq := sq, pos := pos, addr := bits (eKeyref e) 0 60, ticket := ticket
          owner := tkOwner ticket, dek := dek, at_ := s.now }))

/-- R249, R251, R253: a RESTART starts the chain again with an empty tender and its start tests running; a reseed request
is taken while SEEDED, and runs at once where its bits are there; a KAT that passes changes nothing but its report, one
that fails declares the source failed with cause 2, and the outcome of tests that run already ends them. Each write is one
sequenced action. Choices of the model that it rests on: log entry 20. -/
def Obligations.RandomControlsAct : Prop :=
  ∀ (p : Port) (s : State), wr p .rng s = true →
    (∃ t, exec (.restart p) s = .next t ∧ t.csn = s.csn + 1 ∧ t.rng.state = .starting ∧ t.rng.tender = [] ∧ t.rng.bits = [] ∧
      t.rng.key = 0 ∧ t.rng.v = 0 ∧ t.rng.startAt = s.now ∧ t.rng.kat = 3 ∧ t.rng.runs = [0, 0, 0, 0] ∧
      t.rng.debias = s.rng.debiasCfg ∧ t.rng.starts = satInc 16 s.rng.starts ∧ t.kst.masks = [] ∧
      t.rng.failLimit = s.rng.failLimit ∧ t.rng.wait = s.rng.wait ∧ t.car = s.car ∧ t.vlt = s.vlt) ∧
    (s.rng.state = .seeded →
      ∃ t, exec (.reseed p) s = .next t ∧ t.csn = s.csn + 1 ∧ t.rng.state = .seeded ∧ t.rng.tender = s.rng.tender ∧
        (bitsReady s = false → t.rng.reseedDue = true ∧ t.rng.key = s.rng.key ∧ t.rng.v = s.rng.v) ∧
        (bitsReady s = true → t.rng.reseedDue = false ∧ t.rng.bits = [] ∧ t.rng.reqSince = 0 ∧
          t.rng.reseedCnt = satInc 32 s.rng.reseedCnt) ∧ t.car = s.car ∧ t.kst = s.kst) ∧
    (s.rng.kat ≠ 3 → ∃ t, exec (.kat p true) s = .next t ∧ t.csn = s.csn + 1 ∧ t.rng = { s.rng with kat := 1 } ∧
      t.car = s.car ∧ t.kst = s.kst) ∧
    (s.rng.kat = 3 → ∃ t, exec (.kat p true) s = .next t ∧ t.csn = s.csn ∧ t.rng = { s.rng with kat := 1 } ∧
      t.car = s.car ∧ t.kst = s.kst) ∧
    (s.rng.kat ≠ 3 → s.rng.waiters = [] →
      ∃ t, exec (.kat p false) s = .next t ∧ t.rng.state = .failed ∧ t.rng.cause = 2 ∧ t.rng.kat = 2 ∧ t.rng.tender = [] ∧
        t.rng.declared = satInc 16 s.rng.declared ∧ t.csn = s.csn + 2 ∧ t.car = s.car)

/-- R244-R252: a window that passes counts one more run of its cell and yields its conditioned bits; one that fails counts
against the limit, and so does a window that passed where a run that began in it grows to 41 in the next, its bits
discarded; 16 runs of every cell with 512 bits instantiate once the start tests have passed; a start of 40 ms without that
declares the source failed with cause 3. Choices of the model that it rests on: log entry 88. -/
def Obligations.HealthWindowsDecideTheSource : Prop :=
  (∀ (cell : Nat) (l : List Bool) (s : State), powered s = true → inFault s = false → cell < 4 → l.length = 1024 →
    s.rng.state = .starting → s.rng.runs.length = 4 → s.rng.cellFail.length = 4 →
    (windowFails (s.rng.lastRun.getD cell (0, 0)) l = false →
      (s.rng.last.getD cell (false, 0)).1 = false ∨ runReachesBack (s.rng.lastRun.getD cell (0, 0)) l = false →
      ∃ t, exec (.healthWindowEnd cell l) s = .next t ∧
        t.rng.runs.getD cell 0 = min 16 (s.rng.runs.getD cell 0 + 1) ∧ t.rng.state = .starting ∧
        t.rng.failCnt = s.rng.failCnt ∧ t.csn = s.csn ∧ t.car = s.car ∧ t.kst = s.kst) ∧
    (windowFails (s.rng.lastRun.getD cell (0, 0)) l = true →
      (s.rng.last.getD cell (false, 0)).1 = false ∨ runReachesBack (s.rng.lastRun.getD cell (0, 0)) l = false →
      (s.rng.failStamps.filter (fun t => s.now < t + 1000000)).length + 1 ≤ s.rng.failLimit →
      ∃ t, exec (.healthWindowEnd cell l) s = .next t ∧ t.rng.state = .starting ∧
        t.rng.failCnt = satInc 32 s.rng.failCnt ∧ t.rng.runs.getD cell 0 = 0 ∧
        t.rng.cellFail.getD cell 0 = satInc 8 (s.rng.cellFail.getD cell 0) ∧ t.rng.bits = s.rng.bits ∧ t.csn = s.csn) ∧
    ((s.rng.last.getD cell (false, 0)).1 = true → runReachesBack (s.rng.lastRun.getD cell (0, 0)) l = true →
      s.rng.failStamps.length + 2 ≤ s.rng.failLimit →
      ∃ t, exec (.healthWindowEnd cell l) s = .next t ∧ t.rng.state = .starting ∧
        t.rng.failCnt = satInc 32 (satInc 32 s.rng.failCnt) ∧ t.rng.runs.getD cell 0 = 0 ∧ t.csn = s.csn ∧
        t.rng.bits = s.rng.bits.filter (fun b => !(b.1 % 4 == cell && b.1 / 2048 == s.rng.wins.getD cell 0 - 1)))) ∧
  (∀ s : State, powered s = true → inFault s = false → s.rng.state = .starting → s.rng.runs.all (· ≥ 16) = true →
    s.rng.kat = 1 → bitsReady s = true → s.now < s.rng.startAt + 40000 →
    ∃ t, exec .drbgInstantiate s = .next t ∧ t.rng.state = .seeded ∧ t.rng.bits = [] ∧ t.rng.reqSince = 0 ∧
      t.rng.instTime = min 0xFFFF (s.now - s.rng.startAt) ∧ t.csn = s.csn ∧ t.car = s.car ∧ t.kst = s.kst) ∧
  (∀ s : State, powered s = true → inFault s = false → s.rng.state = .starting → s.now ≥ s.rng.startAt + 40000 →
    s.rng.waiters = [] →
    ∃ t, exec .rngStartTimeout s = .next t ∧ t.rng.state = .failed ∧ t.rng.cause = 3 ∧
      t.rng.declared = satInc 16 s.rng.declared ∧ t.csn = s.csn + 1 ∧ t.car = s.car) ∧
  (∀ s : State, powered s = true → inFault s = false → s.tmp.rngRestart = true → s.rng.state = .stopped →
    quiet s 100000 = true →
    ∃ t, exec .rngAutoRestart s = .next t ∧ t.rng.state = .starting ∧ t.tmp.rngRestart = false ∧ t.csn = s.csn + 1 ∧
      t.rng.startAt = s.now)

/-- R208, R209, R249, R254-R257: the tender's requests, the automatic reseed, the waiting consumers, re-masking and the
mask reserve, and a RANDOM_BYTES carriage whose bytes are there. Choices of the model that it rests on: log entries 62, 63
and 87. -/
def Obligations.TenderServesItsConsumers : Prop :=
  (∀ s : State, powered s = true → inFault s = false → s.rng.state = .seeded → s.rng.reseedDue = false →
    s.rng.tender.length < 65536 → s.rng.reqSince + 1 < 2 ^ 20 → s.rng.waiters = [] →
    ∃ t, exec .tenderFill s = .next t ∧ t.rng.reqSince = s.rng.reqSince + 1 ∧
      t.rng.tender = (s.rng.tender ++ (drbgGenerate (natBe 32 s.rng.key) s.rng.v).1).take 65536 ∧
      t.rng.state = .seeded ∧ t.csn = s.csn ∧ t.car = s.car ∧ t.kst = s.kst) ∧
  (∀ s : State, powered s = true → inFault s = false → s.rng.state = .seeded → 2 ^ 20 ≤ s.rng.reqSince + 1 →
    bitsReady s = true →
    ∃ t, exec .automaticReseed s = .next t ∧ t.rng.reqSince = 0 ∧ t.rng.bits = [] ∧
      t.rng.reseedCnt = satInc 32 s.rng.reseedCnt ∧ t.rng.tender = s.rng.tender ∧ t.csn = s.csn ∧ t.car = s.car) ∧
  (∀ (w : Waiter) (s : State), powered s = true → inFault s = false → lateWaiter s = some w →
    exec .rngWaitExpiry s = .next (serveAll (unserved stRngNotSeeded false w s)) ∧
    (∀ i, w.who = .remask i → s.rng.waiters = [w] → ∃ t, exec .rngWaitExpiry s = .next t ∧ t.rng.waiters = [] ∧
      t.rng.notSeeded = satInc 32 s.rng.notSeeded ∧ t.kst.remaskLate = satInc 32 s.kst.remaskLate ∧
      t.rng.tender = s.rng.tender ∧ t.csn = s.csn) ∧
    (w.who = .debug → s.rng.waiters = [w] → ∃ t, exec .rngWaitExpiry s = .next t ∧ t.rng.waiters = [] ∧
      t.rng.notSeeded = satInc 32 s.rng.notSeeded ∧ t.lcs.chal = 3 ∧ t.lcs.dbgResult = 5 ∧ t.csn = s.csn)) ∧
  (∀ (i : Nat) (s : State), tablesOk s = true → powered s = true → inFault s = false → (slotOf s i).state ≠ .free →
    i < 32768 → nextRemask s = some i → s.rng.state = .seeded → s.rng.waiters = [] → 64 ≤ s.rng.tender.length →
    ∃ t, exec (.remask i) s = .next t ∧ (∀ g, materialOf t i g = materialOf s i g) ∧
      (slotOf t i).share0 = (slotOf s i).share0 ^^^ leNat (s.rng.tender.take 64) ∧
      (slotOf t i).share1 = (slotOf s i).share1 ^^^ leNat (s.rng.tender.take 64) ∧ (slotOf t i).unmasked = false ∧
      (slotOf t i).maskStamp = s.now ∧ (slotOf t i).gen = (slotOf s i).gen ∧
      (s.kst.remaskNext ≤ i → (∀ j ∈ maskables s, j ≤ i ∧ (s.kst.remaskNext ≤ j → i ≤ j)) →
        t.kst.remaskPasses = satInc 32 s.kst.remaskPasses ∧ t.kst.remaskNext = 0) ∧
      (s.kst.remaskNext ≤ i → (∃ j ∈ maskables s, i < j) → t.kst.remaskPasses = s.kst.remaskPasses) ∧
      t.rng.tender = s.rng.tender.drop 64 ∧
      (∀ k, k ≠ i → slotOf t k = slotOf s k) ∧ t.csn = s.csn ∧ t.car = s.car) ∧
  (∀ s : State, powered s = true → inFault s = false → s.rng.state = .seeded → 64 ≤ s.rng.tender.length →
    s.rng.waiters = [] → s.kst.masks.length < 256 →
    ∃ t, exec .maskReserveRefill s = .next t ∧ t.kst.masks = s.kst.masks ++ [leNat (s.rng.tender.take 64)] ∧
      t.rng.tender = s.rng.tender.drop 64 ∧ t.kst.slots = s.kst.slots ∧ t.csn = s.csn ∧ t.car = s.car) ∧
  (∀ (tag : Nat) (s : State), live s = true → (carrOf s tag).stage = .admitted → eOp (carrOf s tag).entry = 0x13 →
    (carrOf s tag).rngWait = false → (carrOf s tag).rnd.length = eLength (carrOf s tag).entry →
    exec (.randomBytes tag) s =
      .next (done tag stDone (eLength (carrOf s tag).entry) (writeBuffer tag 0 (carrOf s tag).rnd (begin_ tag s))))

/-- R260-R262, R266: a lattice command that its check passes is BUSY with its command block kept, counted in its slot's
USE and queued behind the requests before it, at one CSN; one that its check turns away reports the check's status; an
abort ends it ABORTED. Choices of the model that it rests on: log entries 19 and 62. -/
def Obligations.LatticeCommandsRunInOrder : Prop :=
  (∀ (p : Port) (s : State), wr p .lat s = true → (s.win.get p).lat.busy = false → latCheck s (s.win.get p).lat = 0 →
    ((s.win.get p).lat.op = 1 → exec (.keygenKem p) s = .next (latGo p (seqd (legTouch p (cntWr p s))))) ∧
    ((s.win.get p).lat.op = 2 → exec (.keygenDsa p) s = .next (latGo p (seqd (legTouch p (cntWr p s))))) ∧
    ((s.win.get p).lat.op = 3 →
      ∃ t, exec (.pubkey p) s = .next t ∧ (t.win.get p).lat.busy = true ∧ t.lat.queue = s.lat.queue ++ [.port p] ∧
        t.lat.run.get p = (s.win.get p).lat ∧
        t.lat.slot.get p = some (hIndex (s.win.get p).lat.handle, hGen (s.win.get p).lat.handle) ∧
        (slotOf t (hIndex (s.win.get p).lat.handle)).use = (slotOf s (hIndex (s.win.get p).lat.handle)).use + 1 ∧
        t.csn = s.csn + 1 ∧ t.car = s.car) ∧
    ((s.win.get p).lat.op = 4 → exec (.sign p) s = .next (latGo p (seqd (legTouch p (cntWr p s))))) ∧
    (s.rng.waiters = [] → s.rng.state ≠ .failed →
      ((s.win.get p).lat.op = 1 → 64 ≤ s.rng.tender.length →
        ∃ t, exec (.keygenKem p) s = .next t ∧ (t.win.get p).lat.busy = true ∧ t.lat.queue = s.lat.queue ++ [.port p] ∧
          t.lat.run.get p = (s.win.get p).lat ∧ t.lat.rnd.get p = s.rng.tender.take 64 ∧
          t.rng.tender = s.rng.tender.drop 64 ∧ t.kst = s.kst ∧ t.csn = s.csn + 1 ∧ t.car = s.car) ∧
      ((s.win.get p).lat.op = 2 → 32 ≤ s.rng.tender.length →
        ∃ t, exec (.keygenDsa p) s = .next t ∧ (t.win.get p).lat.busy = true ∧ t.lat.queue = s.lat.queue ++ [.port p] ∧
          t.lat.run.get p = (s.win.get p).lat ∧ t.lat.rnd.get p = s.rng.tender.take 32 ∧
          t.rng.tender = s.rng.tender.drop 32 ∧ t.kst = s.kst ∧ t.csn = s.csn + 1 ∧ t.car = s.car) ∧
      ((s.win.get p).lat.op = 4 → 32 ≤ s.rng.tender.length →
        ∃ t, exec (.sign p) s = .next t ∧ (t.win.get p).lat.busy = true ∧ t.lat.queue = s.lat.queue ++ [.port p] ∧
          t.lat.run.get p = (s.win.get p).lat ∧ t.lat.rnd.get p = s.rng.tender.take 32 ∧
          t.lat.slot.get p = some (hIndex (s.win.get p).lat.handle, hGen (s.win.get p).lat.handle) ∧
          (slotOf t (hIndex (s.win.get p).lat.handle)).use = (slotOf s (hIndex (s.win.get p).lat.handle)).use + 1 ∧
          t.csn = s.csn + 1 ∧ t.car = s.car))) ∧
  (∀ (p : Port) (s : State), wr p .lat s = true → (s.win.get p).lat.busy = false → (s.win.get p).lat.op = 4 →
    latCheck s (s.win.get p).lat ≠ 0 →
    ∃ t, exec (.sign p) s = .next t ∧ (t.win.get p).lat.busy = false ∧
      (t.win.get p).lat.status = latCheck s (s.win.get p).lat ∧ (t.win.get p).lat.result = 0 ∧ t.lat = s.lat ∧
      t.kst = s.kst ∧ t.csn = s.csn + 1) ∧
  (∀ (p : Port) (s : State), wr p .lat s = true → (s.win.get p).lat.busy = true → s.lat.slot.get p = none →
    ∃ u t, exec (.latAbort p) s = .next u ∧ u = reap stKeyErased t ∧ (u.win.get p).lat.busy = false ∧
      (u.win.get p).lat.status = stAborted ∧ (t.win.get p).lat.busy = false ∧
      (t.win.get p).lat.status = stAborted ∧ t.lat.queue = s.lat.queue.erase (.port p) ∧ t.kst = s.kst ∧
      t.csn = s.csn + 1)

/-- The lattice unit's completion in queue order (R260, R261), anchors (R268), the verifier's record read and channels
(R267, R269, R272). Choices of the model that it rests on: log entries 62 and 93. -/
def Obligations.VerifierAndAnchorsAct : Prop :=
  (∀ (p : Port) (rest : List LatReq) (s : State), powered s = true → inFault s = false → s.lat.queue = .port p :: rest →
    latReady p s = true → exec .latticeOpDone s = .next (latComplete p s) ∧
    (∀ i, (s.lat.run.get p).op ≤ 2 → s.lat.slot.get p = none → pickFree s = some i →
      canCreate s (s.lat.run.get p).scope = true →
      ∃ t, exec .latticeOpDone s = .next t ∧ (t.win.get p).lat.busy = false ∧ (t.win.get p).lat.status = stDone ∧
        (slotOf t i).state = .live ∧ (slotOf t i).gen = genNext (slotOf s i).gen ∧
        (slotOf t i).owner = (s.lat.run.get p).owner ∧ t.lat.opsCnt = satInc 32 s.lat.opsCnt ∧ t.csn = s.csn + 1 ∧
        t.car = s.car) ∧
    (2 < (s.lat.run.get p).op →
      ∃ t, exec .latticeOpDone s = .next t ∧ (t.win.get p).lat.busy = false ∧ (t.win.get p).lat.status = stDone ∧
        (t.win.get p).lat.result = (latOutput p s).length ∧ t.lat.opsCnt = satInc 32 s.lat.opsCnt)) ∧
  (∀ (p : Port) (s : State), wr p .bnv s = true → (s.win.get p).anc.busy = false →
    1 ≤ (s.win.get p).anc.alg → (s.win.get p).anc.alg ≤ 9 →
    anchorLenOk (s.win.get p).anc.alg (s.win.get p).anc.len = true →
    ∃ t, exec (.ancLoad p) s = .next t ∧ (t.win.get p).anc.busy = true ∧ (t.win.get p).anc.pendIndex = (s.win.get p).anc.index ∧
      (t.win.get p).anc.pendAlg = (s.win.get p).anc.alg ∧ (t.win.get p).anc.pendLen = (s.win.get p).anc.len ∧
      t.bnv = s.bnv ∧ t.csn = s.csn + 1 ∧ t.car = s.car ∧
      (let m := mrrsBytes s p
       let l := readCuts ((s.win.get p).anc.len / m + 2) m (addr64 (s.win.get p).anc.addrLo (s.win.get p).anc.addrHi)
         (s.win.get p).anc.len
       (s.stats.get p).reads = [] → l.length ≤ 768 → t.out = s.out ++ l.map (fun y => Output.dmaRead p none y.1 y.2))) ∧
  (∀ (p : Port) (s : State), wr p .bnv s = true → (s.win.get p).anc.busy = false → twf {} s.bnv.anchors = true →
    ∃ t, exec (.ancClear p) s = .next t ∧ tget {} t.bnv.anchors (s.win.get p).anc.index = {} ∧
      (∀ k, k ≠ (s.win.get p).anc.index → tget {} t.bnv.anchors k = tget {} s.bnv.anchors k) ∧
      (t.win.get p).anc.result = 0 ∧ t.csn = s.csn + 1 ∧ t.car = s.car) ∧
  (∀ (tag : Nat) (s : State), live s = true → eOp (carrOf s tag).entry = 0x40 → (carrOf s tag).stage = .admitted →
    exec (.verifySignature tag) s = .next (readBuffer (.record tag) tag 0 (eLength (carrOf s tag).entry)
      (updCarr tag (fun c => { c with stage := .running }) s))) ∧
  (∀ (ch t : Nat) (s : State), powered s = true → inFault s = false → ch < 6 → tget none s.bnv.chans ch = some t →
    eOp (carrOf s t).entry = 0x40 →
    exec (.bnvOpDone ch) s = .next (assignChans 6 (finishVerify t
      (updBnv (fun v => { v with chans := tset none v.chans ch none }) s)))) ∧
  (∀ (alg : Nat) (key rec : Bytes), verForm alg (key.length - 4) (verRec alg rec) = false →
    verifyOutcome alg key rec = (stVerifyBadInput, 3)) ∧
  (∀ (alg : Nat) (key rec : Bytes), 3 ≤ alg → alg ≤ 5 → verForm alg (key.length - 4) (verRec alg rec) = true →
    key.take 1 = [0x04] → (beNat (sub key 1 (verCurve alg).bytes), beNat (sub key (1 + (verCurve alg).bytes) (verCurve alg).bytes)) ≠ (0, 0) →
    onCurve (verCurve alg) (beNat (sub key 1 (verCurve alg).bytes),
      beNat (sub key (1 + (verCurve alg).bytes) (verCurve alg).bytes)) = true →
    beNat ((verRec alg rec).sig.take (verCurve alg).bytes) = 0 → verifyOutcome alg key rec = (stVerifyReject, 1))

/-- R270-R273: a well-formed command on a port's own channel is BUSY with its words kept, at one CSN; at its end the
modular product and power stand in the result slot with status DONE, and an operand the checks refuse is VERIFY_BAD_INPUT
with its reason and no result; an abort zeroises the operand memory. Choices of the model that it rests on: log entry 4.
-/
def Obligations.PrivilegedChannelsCompute : Prop :=
  (∀ (p : Port) (s : State), wr p .bnv s = true → (chanOf s p).busy = false →
    rawOk (chanOf s p).op (chanOf s p).curve (chanOf s p).len (chanOf s p).slots = true →
    ∀ c : Instr, (c = .modmul p ∧ (chanOf s p).op = 1 ∨ c = .modexp p ∧ (chanOf s p).op = 2 ∨
        c = .ecadd p ∧ (chanOf s p).op = 3 ∨ c = .ecmul p ∧ (chanOf s p).op = 4) →
      ∃ t, exec c s = .next t ∧ t.csn = s.csn + 1 ∧ t.car = s.car ∧ t.kst = s.kst ∧
        chanOf t p = { chanOf s p with
          busy := true, pend := some ((chanOf s p).op, (chanOf s p).curve, (chanOf s p).len, (chanOf s p).slots) } ∧
        chanOf t p.other = chanOf s p.other) ∧
  (∀ (p : Port) (s : State), wr p .bnv s = true → (chanOf s p).busy = true →
    ∃ t, exec (.bnvAbort p) s = .next t ∧ t.csn = s.csn + 1 ∧
      chanOf t p = { chanOf s p with mem := [], pend := none, busy := false, status := stAborted, reason := 0 } ∧
      chanOf t p.other = chanOf s p.other ∧ t.car = s.car) ∧
  (∀ (op curve len w : Nat) (s : State), powered s = true → inFault s = false →
    (chanOf s .a).pend = some (op, curve, len, w) →
    ∃ t, exec (.bnvOpDone 6) s = .next t ∧ (chanOf t .a).busy = false ∧ (chanOf t .a).pend = none ∧
      chanOf t .b = chanOf s .b ∧ t.car = s.car ∧ t.csn = s.csn ∧
      (rawFault (chanOf s .a) op curve len w = 0 → (chanOf t .a).status = stDone ∧
        (op = 1 → (chanOf t .a).mem = (bnStore (slotSR w) len
          (bnSlot (chanOf s .a) (slotSA w) len * bnSlot (chanOf s .a) (slotSB w) len %
            bnSlot (chanOf s .a) (slotSN w) len) (chanOf s .a)).mem)) ∧
      (rawFault (chanOf s .a) op curve len w ≠ 0 → (chanOf t .a).status = stVerifyBadInput ∧
        (chanOf t .a).reason = rawFault (chanOf s .a) op curve len w ∧ (chanOf t .a).mem = (chanOf s .a).mem)) ∧
  (∀ (p : Port) (o : Nat) (e : List Bool) (s : State), reach p s = true → blkAnswers .bar4 s = true → inFault s = false →
    (chanOf s p).busy = false → 0 < e.length → e.length ≤ 128 → o + e.length ≤ 0x10000 →
    exec (.operandAccess p (p.num * 0x10000 + o) e none) s =
      .next (emit (.answerBytes p ((e.zip (chanRead (chanOf s p) o e.length)).map (fun x => if x.1 then x.2 else 0))) s)) ∧
  (∀ (p : Port) (o : Nat) (e : List Bool) (b : List (Option Byte)) (s : State), reach p s = true →
    blkAnswers .bar4 s = true → inFault s = false →
    (chanOf s p).busy = false → 0 < b.length → b.length ≤ 128 → o + b.length ≤ 0x10000 →
    ∃ t, exec (.operandAccess p (p.num * 0x10000 + o) e (some b)) s = .next t ∧ chanOf t p.other = chanOf s p.other ∧
      (chanOf t p).mem = putOperand o b (chanOf s p).mem ∧
      (twf 0 (chanOf s p).mem = true → ∀ i, i < b.length →
        tget 0 (chanOf t p).mem (o + i) = (b.getD i none).getD (tget 0 (chanOf s p).mem (o + i))) ∧
      t.csn = s.csn ∧ t.car = s.car)

/-- R274, R275: a read of the free UCP_LOCK grants it at one CSN with the next ticket; the holder's ticket releases it and
clears every command register; UCP_IDLE without an operation releases it by force. -/
def Obligations.UtilityLockChangesHands : Prop :=
  (∀ (p : Port) (s : State), wr p .ucp s = true →
    (s.ucp.holder = none →
      ∃ t, exec (.ucpLockAcquire (.port p)) s = .next t ∧ t.csn = s.csn + 1 ∧ t.car = s.car ∧ t.kst = s.kst ∧
        t.ucp = { s.ucp with
          holder := some (.port p), ticket := ticketNext s.ucp.ticket, waiter := false, forced := false, idleFrom := s.now } ∧
        t.out = s.out ++ [.answer p (2 ^ 31 + (p.num + 1) * 2 ^ 29 + ticketNext s.ucp.ticket)]) ∧
    (s.ucp.holder = some (.port p.other) ∨ s.ucp.holder = some .secure →
      ∃ t, exec (.ucpLockAcquire (.port p)) s = .next t ∧ t.csn = s.csn ∧ t.ucp = { s.ucp with waiter := true } ∧
        t.out = s.out ++ [.answer p 0])) ∧
  (∀ (p : Port) (v : Nat) (s : State), wr p .ucp s = true → s.ucp.holder = some (.port p) → v % 2 ^ 16 = s.ucp.ticket →
    s.ucp.busy = false →
    ∃ t, exec (.ucpLockRelease (.port p) v) s = .next t ∧ t.csn = s.csn + 1 ∧ t.ucp.holder = none ∧ t.ucp.forced = false ∧
      t.ucp.op = 0 ∧ t.ucp.handle = 0 ∧ t.ucp.iv = zeros 12 ∧ t.ucp.tag = zeros 16 ∧ t.ucp.srcLen = 0 ∧ t.ucp.dstLen = 0 ∧
      t.ucp.ticket = s.ucp.ticket ∧ t.car = s.car ∧ t.kst = s.kst) ∧
  (∀ s : State, powered s = true → inFault s = false → s.ucp.holder.isSome = true → s.ucp.busy = false →
    s.now ≥ s.ucp.idleFrom + 1000 * s.ucp.idle →
    ∃ t, exec .ucpIdleExpiry s = .next t ∧ t.csn = s.csn + 1 ∧ t.ucp.holder = none ∧ t.ucp.forced = true ∧
      t.ucp.op = 0 ∧ t.ucp.handle = 0 ∧ t.car = s.car ∧ t.kst = s.kst)

/-- R276: a GO that its check passes keeps its command, counts its slot's USE, and is BUSY until its operands have come;
the operation's end writes its output and the tag, and frees the engine. The eight operations differ in what they put out.
Choices of the model that it rests on: log entries 4, 19 and 71. -/
def Obligations.UtilityOperationsRun : Prop :=
  (∀ (p : Port) (op : Nat) (s : State) (c : Instr),
    (c = .kwWrap (.port p) ∧ op = 1 ∨ c = .kwpWrap (.port p) ∧ op = 2 ∨ c = .kwpUnwrap (.port p) ∧ op = 3 ∨
      c = .cmacGen (.port p) ∧ op = 4 ∨ c = .cmacVer (.port p) ∧ op = 5 ∨ c = .gcmEnc (.port p) ∧ op = 6 ∨
      c = .gcmDec (.port p) ∧ op = 7 ∨ c = .gcmVer (.port p) ∧ op = 8) →
    wr p .ucp s = true → s.ucp.holder = some (.port p) → s.ucp.busy = false → s.ucp.op = op →
    (ucpCheck s = 0 →
      ∃ t, exec c s = .next t ∧ t.ucp.busy = true ∧ t.ucp.run.op = op ∧ t.ucp.run.srcLen = s.ucp.srcLen ∧
        t.ucp.run.iv = s.ucp.iv ∧ t.ucp.run.tag = s.ucp.tag ∧
        t.ucp.slot = some (hIndex s.ucp.handle, hGen s.ucp.handle) ∧
        (slotOf t (hIndex s.ucp.handle)).use = (slotOf s (hIndex s.ucp.handle)).use + 1 ∧
        t.csn = s.csn + 1 ∧ t.car = s.car) ∧
    (ucpCheck s ≠ 0 →
      ∃ t, exec c s = .next t ∧ t.ucp = { s.ucp with status := ucpCheck s, outLen := 0, idleFrom := s.now } ∧
        t.kst = s.kst ∧ t.csn = s.csn + 1)) ∧
  (∀ (a : Bytes) (x : Bytes) (s : State), powered s = true → inFault s = false → s.ucp.busy = true → s.ucp.src = some x →
    s.ucp.aad = some a →
    exec .ucpOpDone s = .next (reap stKeyErased (ucpEnd (ucpResult s).1 (ucpResult s).2.1.length
      (updUcp (fun c => { c with tag := (ucpResult s).2.2 })
        (match ucpPort s with
          | some p => portWrite p s.ucp.run.dst (ucpResult s).2.1 s
          | none => updUcp (fun c => { c with world := (ucpResult s).2.1 }) s)))) ∧
    ∃ t, exec .ucpOpDone s = .next t ∧ t.ucp.busy = false ∧ t.ucp.status = (ucpResult s).1 ∧
      t.ucp.outLen = (ucpResult s).2.1.length ∧ t.ucp.tag = (ucpResult s).2.2) ∧
  (∀ (a : UcpArgs) (op : Nat) (s : State) (c : Instr),
    (c = .kwWrap (.secure a) ∧ op = 1 ∨ c = .kwpWrap (.secure a) ∧ op = 2 ∨ c = .kwpUnwrap (.secure a) ∧ op = 3 ∨
      c = .cmacGen (.secure a) ∧ op = 4 ∨ c = .cmacVer (.secure a) ∧ op = 5 ∨ c = .gcmEnc (.secure a) ∧ op = 6 ∨
      c = .gcmDec (.secure a) ∧ op = 7 ∨ c = .gcmVer (.secure a) ∧ op = 8) →
    live s = true → s.wld.secure.state = .running → s.ucp.holder = some .secure → s.ucp.busy = false →
    ucpCheck (ucpStage op a s) = 0 →
    ∃ t, exec c s = .next t ∧ t.ucp.busy = true ∧ t.ucp.run.op = op ∧ t.ucp.src = some a.src ∧ t.ucp.run.iv = a.iv ∧
      t.ucp.slot = some (hIndex a.handle, hGen a.handle) ∧ t.csn = s.csn ∧ t.out = s.out ∧ t.car = s.car) ∧
  (∀ s : State,
    (s.ucp.run.op = 4 ∨ s.ucp.run.op = 5 ∨ s.ucp.run.op = 8 → (ucpResult s).2.1 = []) ∧
    (s.ucp.run.op = 3 ∨ s.ucp.run.op = 7 → (ucpResult s).1 ≠ stDone → (ucpResult s).2.1 = []) ∧
    (s.ucp.run.op ≠ 4 → s.ucp.run.op ≠ 6 → 1 ≤ s.ucp.run.op → s.ucp.run.op ≤ 8 → (ucpResult s).2.2 = s.ucp.tag))

/-- R111, R135-R138: a train carriage begins: it runs from then on, INGEST starts fetching its first segment, and the
readers ask their drive for the trailer block before any segment, once what they need is reserved. Choices of the model
that it rests on: log entries 18 and 82. -/
def Obligations.TrainCarriagesBegin : Prop :=
  (∀ (t op : Nat) (c : Instr) (s : State),
    (c = .ingest t ∧ op = 0x01 ∨ c = .retrieve t ∧ op = 0x02 ∨ c = .audit t ∧ op = 0x03 ∨ c = .rekey t ∧ op = 0x04) →
    tablesOk s = true → isAt s t op .admitted = true →
    ∃ u, exec c s = .next u ∧ (carrOf u t).stage = .running ∧ (carrOf u t).started = true ∧ u.csn = s.csn ∧ u.kst = s.kst ∧
      (op = 0x01 → nextIdle (carrOf s t) = some 0 → (reserveSeg t 0 (begin_ t s)).isSome = true →
        (segOf u t 0).st = .fetching ∧ (segOf u t 0).left = 1) ∧
      (op ≠ 0x01 → isLegacy (carrOf s t).entry = false → (carrOf s t).trailer = .none →
        (op = 0x04 → allDone (carrOf s t) = false) →
        (reserveTrailer t (srcDrive (carrOf s t)) (updCarr t (fun c => { c with trailer := .reading }) (begin_ t s))).isSome =
          true →
        (carrOf u t).trailer = .reading)) ∧
  (∀ (t : Nat) (s : State), isAt s t 0x01 .admitted = true →
    exec (.ingest t) s = .next (advance t (updCarr t (fun c => { c with stage := .running, started := true }) s))) ∧
  (∀ (t op : Nat) (c : Instr) (s : State),
    (c = .retrieve t ∧ op = 0x02 ∨ c = .audit t ∧ op = 0x03 ∨ c = .rekey t ∧ op = 0x04) → isAt s t op .admitted = true →
    isLegacy (carrOf s t).entry = false → (carrOf s t).trailer = .none → (op = 0x04 → allDone (carrOf s t) = false) →
    exec c s = .next (match reserveTrailer t (srcDrive (carrOf s t)) (updCarr t (fun c => { c with trailer := .reading })
        (updCarr t (fun c => { c with stage := .running, started := true }) s)) with
      | some a => issue (srcDrive (carrOf s t)) .trailerRead (some t) (eTrailerLba (carrOf s t).entry) 1 a
      | none => updCarr t (fun c => { c with stage := .running, started := true }) s)) ∧
  (∀ (t : Nat) (s : State), isAt s t 0x01 .running = true → exec (.ingest t) s = .next (advance t s)) ∧
  (∀ (t : Nat) (s : State), isAt s t 0x04 .admitted = true → isLegacy (carrOf s t).entry = true →
    exec (.rekey t) s = .next (advance t (updCarr t (fun c => { c with stage := .running, started := true }) s)))

/-- R136-R138, R153, R155: the verdict of a source segment whose data is all staged: where its tag is the trailer's, a
RETRIEVE releases the rest of its plaintext and the segment is done, and a REKEY's goes on to its destination pass; where
it is not, the carriage stops with TAG_FAIL, its scrub comes first, and the failing position and the released bytes are
its result. -/
def Obligations.VerdictsReleaseOrScrub : Prop :=
  ∀ (t p : Nat) (s : State), powered s = true → inFault s = false → (carrOf s t).stage = .running →
    (segOf s t p).st = .running → (segOf s t p).left = 0 → (segOf s t p).dst = false → eOp (carrOf s t).entry ≠ 0x01 →
    (segTag s (carrOf s t) false p (segOf s t p).data = (carrOf s t).tags.getD p [] →
      exec (.segmentVerdict t p) s = .next (passSeg t p s) ∧
      (tablesOk s = true → eOp (carrOf s t).entry = 0x02 ∨ eOp (carrOf s t).entry = 0x03 →
        ∀ q, q < eSegs (carrOf s t).entry → q ≠ p → (segOf s t q).st ≠ .done →
        ∃ u, exec (.segmentVerdict t p) s = .next u ∧ (segOf u t p).st = .done ∧ (carrOf u t).stage = .running ∧
          u.csn = s.csn) ∧
      (tablesOk s = true → eOp (carrOf s t).entry = 0x04 →
        ∃ u, exec (.segmentVerdict t p) s = .next u ∧ (segOf u t p).st = .ready ∧ (segOf u t p).dst = true ∧
          (segOf u t p).data = segCrypt s (carrOf s t) false p (segOf s t p).data ∧ u.csn = s.csn)) ∧
    (segTag s (carrOf s t) false p (segOf s t p).data ≠ (carrOf s t).tags.getD p [] →
      exec (.segmentVerdict t p) s = .next (stop t stTagFail (p + (segOf s t p).released * 2 ^ 8)
        (updRegion (segOf s t p).region (fun r => { r with tagFailCnt := satInc 32 r.tagFailCnt })
          (countSeg (segOf s t p).region (driveRegion (srcDrive (carrOf s t)))
            (countRun (segOf s t p).region (segOf s t p).block s)))) ∧
      (tablesOk s = true → (carrOf s t).refused = false → (carrOf s t).stopped = false → waitsTurn s t = false →
        ∃ u, exec (.segmentVerdict t p) s = .next u ∧ (carrOf u t).stage = .free ∧ s.csn < u.csn))

/-- R126-R129, R135, R139, R140, R150: a ready segment whose turn it is takes the free cell of a block that holds its key
and is RUNNING; an encrypted one keeps its ciphertext and the tag over it and issues its Writes; a segment that no block
has is sent to the block the rule picks, which loads its key; a new epoch takes over every slice's weight. Choices of the
model that it rests on: log entries 4, 66 and 83. -/
def Obligations.SegmentsRunOnCells : Prop :=
  (∀ (t p b k : Nat) (s : State), tablesOk s = true → live s = true → s.tmp.dataStop = false →
    eOp (carrOf s t).entry = 0x01 → startable (carrOf s t) p = true →
    isLegacy (carrOf s t).entry = false → mayStart (shareSync s) t p b k = true →
    ∃ u, exec (.segmentStart t p b k 0) s = .next u ∧
      segOf u t p = { segOf s t p with st := .running, block := b, cell := k, queue := none } ∧
      u.csn = s.csn ∧ u.kst = s.kst ∧ u.mdf = s.mdf ∧ u.out = s.out ∧ (∀ v, v ≠ t → carrOf u v = carrOf s v)) ∧
  (∀ (t p : Nat) (s : State), powered s = true → inFault s = false → (carrOf s t).stage = .running →
    (segOf s t p).st = .running → (segOf s t p).left = 0 → eOp (carrOf s t).entry = 0x01 →
    exec (.segmentEncrypted t p) s = .next (advance t
      ((segPieces s (dstDrive (carrOf s t)) (segLen (carrOf s t).entry p / 4096)).foldl
        (fun s x => issue (dstDrive (carrOf s t)) (.segWrite p x.1) (some t)
          (dstLba (carrOf s t) + segBlock (carrOf s t) p + x.1) x.2 s)
        (updSeg t p (fun y => { y with
          st := .writing, out := segCrypt s (carrOf s t) (segOf s t p).dst p (segOf s t p).data
          tag := segTag s (carrOf s t) (segOf s t p).dst p (segCrypt s (carrOf s t) (segOf s t p).dst p (segOf s t p).data)
          data := []
          left := (segPieces s (dstDrive (carrOf s t)) (segLen (carrOf s t).entry p / 4096)).length })
          (countRun (passRegion (segOf s t p)) (segOf s t p).block s)))) ∧
    (tablesOk s = true → ∃ u, exec (.segmentEncrypted t p) s = .next u ∧ (segOf u t p).st = .writing ∧
      (segOf u t p).out = segCrypt s (carrOf s t) (segOf s t p).dst p (segOf s t p).data ∧ (segOf u t p).data = [] ∧
      (carrOf u t).stage = .running ∧ u.csn = s.csn ∧ u.kst = s.kst)) ∧
  (∀ (r b t i g p : Nat) (s : State), live s = true → (carrOf s t).stage = .running → eOp (carrOf s t).entry = 0x01 →
    (carrOf s t).key = .slot i g → keyGone s (.slot i g) = false → r < 4 → (regionOf s r).state = .normal →
    toSend (carrOf s t) false = some p → passRegion (segOf s t p) = r → sentHere s r b (.slot i g) = true →
    behindOther s t r = false → holdsKey s r b (.slot i g) = false → (blockOf s r b).keys.length < 64 →
    ∃ u, exec (.keyStagingLoad r b t false) s = .next u ∧
      (blockOf u r b).keys = keyEntry s t (.slot i g) :: (blockOf s r b).keys ∧
      segOf u t p = { segOf s t p with queue := some b } ∧ (∀ v, v ≠ t → carrOf u v = carrOf s v) ∧
      u.csn = s.csn ∧ u.kst = s.kst) ∧
  (∀ s : State, powered s = true → s.now / 1000 > s.cay.epoch →
    ∃ u, exec .shareEpoch s = .next u ∧ u.cay = { s.cay with charge := [], tagCharge := [], epoch := s.now / 1000 } ∧
      u.slc.binds = s.slc.binds ∧ u.csn = s.csn ∧ u.car = s.car ∧
      ∀ n, tablesOk s = true → sliceOf u n = { sliceOf s n with weightNow := (sliceOf s n).weight })

/-- R20, R145-R147: the counted corrections, and the faults that fence a cell, retire a block and degrade a region.
Choices of the model that it rests on: log entry 82. -/
def Obligations.ArrayFaultsAreContained : Prop :=
  (∀ (r : Nat) (s : State), tablesOk s = true → powered s = true → inFault s = false → r < 4 →
    (∃ u, exec (.kstgCorrectedError r) s = .next u ∧
      regionOf u r = { regionOf s r with kstgCe := satInc 32 (regionOf s r).kstgCe } ∧
      u = { s with cay := { s.cay with regions := u.cay.regions } } ∧ ∀ x, x ≠ r → regionOf u x = regionOf s x) ∧
    (∃ u, exec (.d2dRetry r) s = .next u ∧
      regionOf u r = { regionOf s r with d2dCe := satInc 32 (regionOf s r).d2dCe, d2dDown := none } ∧
      u = { s with cay := { s.cay with regions := u.cay.regions } } ∧ ∀ x, x ≠ r → regionOf u x = regionOf s x)) ∧
  (∀ (r b : Nat) (s : State), live s = true → r < 4 → b < 8 → (regionOf s r).state = .normal →
    (regionOf s r).blkRetired.getLsbD b = false →
    exec (.blockRetire r b) s =
      .next (retireBlock r b (updRegion r (fun x => { x with kstgUe := satInc 8 x.kstgUe }) s)) ∧
    (tablesOk s = true → ∃ u, exec (.blockRetire r b) s = .next u ∧ (regionOf u r).blkRetired.getLsbD b = true ∧
      (regionOf u r).kstgUe = satInc 8 (regionOf s r).kstgUe ∧ (blockOf u r b).keys = [] ∧ s.csn < u.csn)) ∧
  (∀ (r : Nat) (s : State), live s = true → r < 4 → (regionOf s r).state = .normal →
    exec (.regionDegraded r) s = .next (degrade r (updRegion r (fun x => { x with xbarUe := satInc 8 x.xbarUe }) s)) ∧
    (tablesOk s = true → ∃ u, exec (.regionDegraded r) s = .next u ∧ (regionOf u r).state = .degraded ∧
      (regionOf u r).xbarUe = satInc 8 (regionOf s r).xbarUe ∧ s.csn < u.csn)) ∧
  (∀ (r : Nat) (s : State), live s = true → r < 4 → (regionOf s r).state = .degraded →
    ∃ u, exec (.d2dUndeliverable r) s = .next u ∧ (regionOf u r).d2dUe = satInc 16 (regionOf s r).d2dUe ∧
      (regionOf u r).xbarUe = satInc 8 (regionOf s r).xbarUe ∧
      (regionOf u r).state = .degraded ∧ ((regionOf s r).d2dDown = none → (regionOf u r).d2dDown = some s.now) ∧
      u.csn = s.csn ∧ u.car = s.car) ∧
  (∀ (r b k nb nc : Nat) (s : State), live s = true → r < 4 → b < 8 → k < 4 → (regionOf s r).state = .normal →
    (regionOf s r).blkRetired.getLsbD b = false → (regionOf s r).cellFenced.getLsbD (4 * b + k) = false →
    onCell s r b k = true →
    ∃ u, exec (.cellParityError r b k nb nc) s = .next u ∧ s.csn < u.csn ∧
      (r ≠ 0 → cell0Ok s = true → (∃ j, j < 4 ∧ j ≠ k ∧ (regionOf s r).cellFenced.getLsbD (4 * b + j) = false) →
        (regionOf u r).cellFenced = (regionOf s r).cellFenced ||| (1 <<< (4 * b + k)) ∧
        (regionOf u r).state = .normal ∧ (regionOf u r).blkRetired = (regionOf s r).blkRetired ∧ u.csn = s.csn + 1)) ∧
  (∀ (d n : Nat) (s : State), live s = true → (regionOf s (driveRegion d)).spillEn = true →
    straggles s d = true →
    ∃ u, exec (.stragglerSpill d n) s = .next u ∧ u.csn = s.csn ∧ u.kst = s.kst ∧ u.mdf = s.mdf ∧
      u.car = (spillPort (driveRegion d) d (spillOcc s (driveRegion d) + n) s).car)

/-- R113, R134, R143: the legacy path goes piece by piece, each once it has SRAM: a read asks its drive for the piece,
decrypts it on cell 0 and writes it to the destination; a write reads the piece from the host, encrypts it under the
register's key on cell 0 and writes it to the drive. Choices of the model that it rests on: log entry 66. -/
def Obligations.LegacyPathRunsPieceByPiece : Prop :=
  (∀ (t op : Nat) (c : Instr) (s : State), (c = .legacyRead t ∧ op = 0x08 ∨ c = .legacyWrite t ∧ op = 0x09) →
    isAt s t op .admitted = true →
    (reservePiece t 0 (begin_ t s) = none → exec c s = .next (updSeg t 0 (fun g => { g with st := .idle, left := 0 }) (begin_ t s))) ∧
    (∀ a, reservePiece t 0 (begin_ t s) = some a →
      (op = 0x08 → exec c s = .next (issue (srcDrive (carrOf s t)) (.legacyRead 0) (some t) (tLba (eTarget (carrOf s t).entry) + 0)
        (pieceBlocks s (carrOf s t) 0) (updSeg t 0 (fun g => { g with st := .fetching }) a))) ∧
      (op = 0x09 → exec c s = .next (readBuffer (.data t 0) t (4096 * 0) (4096 * pieceBlocks s (carrOf s t) 0)
        (updSeg t 0 (fun g => { g with st := .fetching }) a))))) ∧
  (∀ (t : Nat) (s : State), isAt s t 0x08 .running = true → (segOf s t 0).st = .ready → legacyCell s = true →
    s.tmp.dataStop = false →
    exec (.legacyRead t) s = .next (legacyNext t (writeBuffer t (4096 * (segOf s t 0).left)
      (xtsUnits s (carrOf s t) false (4096 * (segOf s t 0).left) (segOf s t 0).data)
      (countUnits (carrOf s t) (segOf s t 0).data.length (touchKey 0 0 .legacy s))))) ∧
  (∀ (t : Nat) (s : State), isAt s t 0x09 .running = true → (segOf s t 0).st = .ready → legacyCell s = true →
    s.tmp.dataStop = false →
    exec (.legacyWrite t) s = .next (issue (srcDrive (carrOf s t)) (.legacyWrite (segOf s t 0).left) (some t)
      (tLba (eTarget (carrOf s t).entry) + (segOf s t 0).left) (pieceBlocks s (carrOf s t) (segOf s t 0).left)
      (updSeg t 0 (fun g => { g with
        st := .writing, out := xtsUnits s (carrOf s t) true (4096 * (segOf s t 0).left) (segOf s t 0).data, data := [] })
        (countUnits (carrOf s t) (segOf s t 0).data.length (touchKey 0 0 .legacy s)))))

/-- R172-R175: the exchange at the head of a link runs when its command comes: a new request goes out with the link's next
SEQ, a repeated one with its own; a response that stands ends the exchange and acts; a failed one waits for its retry,
which repeats it; the fourth failure loses the link. SBN_INT puts READ_EVENTS first, and a keep-alive asks for
READ_STATUS. Choices of the model that it rests on: log entry 67. -/
def Obligations.SidebandExchangesRun : Prop :=
  (∀ (op : SbOp) (l : Nat) (payload : Bytes) (rest : List (SbOp × Bytes)) (resp : Option Bytes) (c : Instr) (s : State),
    (op, c) ∈ [(SbOp.identify, Instr.identify l resp), (.readPresence, .readPresence l resp), (.setPower, .setPower l resp),
      (.setPerst, .setPerst l resp), (.readClkreq, .readClkreq l resp), (.readStatus, .readStatus l resp),
      (.readEvents, .readEvents l resp), (.setClkreq, .setClkreq l resp)] →
    powered s = true → inFault s = false → l < 16 → (linkOf s l).queue = (op, payload) :: rest → (linkOf s l).down = false →
    (linkOf s l).failedAt = none →
    exec c s = .next (exchange l resp s) ∧
    (∀ body, sbParse (if (linkOf s l).tries = 0 then (linkOf s l).seq else (linkOf s l).cur) resp = some (0, body) →
      tablesOk s = true → (shelfOf s (l / 2)).state = .awake → (shelfOf s (l / 2)).step = .idle →
      (op = .readStatus → fld body 0 4 = 1) →
      (op = .readEvents → fld body 0 4 = 0 ∧ fld body 4 4 = 0 ∧ fld body 8 4 = 0) →
      (op = .readPresence → ∀ i, i < 32 → bit (fld body 0 4) i = (driveOf s (linkDrive l i)).present) →
      ∃ t, exec c s = .next t ∧ (linkOf t l).queue = rest ∧ (linkOf t l).tries = 0 ∧ (linkOf t l).failedAt = none ∧
        t.out = s.out ++ [.sideband l (sbFrame op (if (linkOf s l).tries = 0 then (linkOf s l).seq else (linkOf s l).cur) payload)] ∧
        t.csn = s.csn ∧ t.car = s.car ∧ (op = .readEvents → (linkOf t l).int = false) ∧
        (op = .readClkreq → ∀ i, i < 32 → (driveOf t (linkDrive l i)).clkreq = bit (fld body 0 4) i) ∧
        (op = .setClkreq → ∀ i, i < 32 → bit (fld payload 0 4) i = true →
          (driveOf t (linkDrive l i)).rootClk = bit (fld payload 4 4) i))) ∧
  (∀ (l : Nat) (op : SbOp) (payload : Bytes) (rest : List (SbOp × Bytes)) (resp : Option Bytes) (s : State),
    (linkOf s l).queue = (op, payload) :: rest →
    (let x := linkOf s l
     let q := if x.tries = 0 then x.seq else x.cur
     let n := if x.tries = 0 then (q + 1) % 16 else x.seq
     let u := exchange l resp s
     (sbParse q resp = none → x.tries < 3 →
       linkOf u l = { x with cur := q, seq := n, tries := x.tries + 1, failedAt := some s.now } ∧
       u.out = s.out ++ [.sideband l (sbFrame op q payload)] ∧ u.csn = s.csn) ∧
     (sbParse q resp = none → 3 ≤ x.tries → u = loseLink l (emit (.sideband l (sbFrame op q payload))
       (updLink l (fun y => { y with cur := q, seq := n }) s))) ∧
     (∀ body, sbParse q resp = some (0, body) → u = exchanged l op payload body
       (updLink l (fun y => { y with queue := rest, tries := 0, failedAt := none })
         (emit (.sideband l (sbFrame op q payload)) (updLink l (fun y => { y with cur := q, seq := n }) s)))))) ∧
  (∀ (l at_ : Nat) (op : SbOp) (payload : Bytes) (rest : List (SbOp × Bytes)) (resp : Option Bytes) (s : State),
    powered s = true → inFault s = false → l < 16 → (linkOf s l).queue = (op, payload) :: rest →
    (linkOf s l).failedAt = some at_ → s.now ≥ at_ + 100 →
    exec (.sidebandRetry l resp) s = .next (exchange l resp
      (updLink l (fun x => { x with retries := satInc 16 x.retries, failedAt := none }) s)) ∧
    (sbParse (linkOf s l).cur resp = none → (linkOf s l).tries ≠ 0 → (linkOf s l).tries < 3 →
      ∃ t, exec (.sidebandRetry l resp) s = .next t ∧ (linkOf t l).retries = satInc 16 (linkOf s l).retries ∧
        (linkOf t l).tries = (linkOf s l).tries + 1 ∧ (linkOf t l).failedAt = some s.now ∧
        t.out = s.out ++ [.sideband l (sbFrame op (linkOf s l).cur payload)] ∧ t.csn = s.csn)) ∧
  (∀ (l : Nat) (s : State), powered s = true → inFault s = false → l < 16 → (linkOf s l).down = false →
    (linkOf s l).int = false → (linkOf s l).tries = 0 →
    ∃ t, exec (.sbnInt l) s = .next t ∧
      linkOf t l = { linkOf s l with int := true, queue := (.readEvents, []) :: (linkOf s l).queue } ∧
      t = { s with mdf := { s.mdf with links := t.mdf.links } } ∧ ∀ k, k ≠ l → linkOf t k = linkOf s k) ∧
  (∀ (l : Nat) (s : State), powered s = true → inFault s = false → l < 16 → (linkOf s l).down = false →
    isPowered (shelfOf s (l / 2)) = true → s.now ≥ (linkOf s l).pollAt + 100000 →
    ∃ t, exec (.keepalivePoll l) s = .next t ∧
      linkOf t l = { linkOf s l with pollAt := s.now, queue := (linkOf s l).queue ++ [(.readStatus, [])] } ∧
      t = { s with mdf := { s.mdf with links := t.mdf.links } } ∧ ∀ k, k ≠ l → linkOf t k = linkOf s k)

/-- R182, R183: a wake starts on an ASLEEP shelf with room, is DONE at once on an AWAKE one, and waits otherwise; it polls
for power good, releases its groups in turn, and fails when power good does not come in 500 ms. Choices of the model that
it rests on: log entry 67. -/
def Obligations.ShelfWakesGoStepByStep : Prop :=
  (∀ (t : Nat) (s : State), isAt s t 0x20 .admitted = true → worldServes s 0x20 = true →
    (shelfOf s (eShelf (carrOf s t).entry)).step = .idle →
    ((shelfOf s (eShelf (carrOf s t).entry)).state = .awake →
      exec (.shelfWake t) s = .next (done t stDone (readyDrives s (eShelf (carrOf s t).entry)).length s)) ∧
    ((shelfOf s (eShelf (carrOf s t).entry)).state = .asleep → poweredShelves s < s.mdf.maxShelves →
      exec (.shelfWake t) s = .next (startWake (eShelf (carrOf s t).entry) t s)) ∧
    ((shelfOf s (eShelf (carrOf s t).entry)).state = .asleep → s.mdf.maxShelves ≤ poweredShelves s →
      s.mdf.shelfQueue.contains t = false →
      exec (.shelfWake t) s = .next { s with mdf := { s.mdf with shelfQueue := s.mdf.shelfQueue ++ [t] } })) ∧
  (∀ (n t : Nat) (s : State), waitingWake s n = some t → isAt s t 0x20 .admitted = true → worldServes s 0x20 = true →
    (shelfOf s n).step = .idle → (shelfOf s n).state = .asleep → poweredShelves s < s.mdf.maxShelves →
    exec (.shelfWakeBegin n) s = .next (startWake n t s)) ∧
  (∀ (n t : Nat) (s : State), tablesOk s = true → inFault s = false → (shelfOf (startWake n t s) n).state = .waking ∧
    (shelfOf (startWake n t s) n).step = .identify ∧ (shelfOf (startWake n t s) n).tag = some t ∧
    (startWake n t s).csn = s.csn + 1 ∧ (linkOf (startWake n t s) (2 * n)).queue = [(.identify, [])] ∧
    (linkOf (startWake n t s) (2 * n + 1)).queue = [(.identify, [])]) ∧
  (∀ (n : Nat) (s : State), live s = true → worldServes s 0x20 = true → (shelfOf s n).step = .powerGood →
    s.now ≥ (shelfOf s n).pollAt + 1000 →
    exec (.powerGoodPoll n) s =
      .next (askBoth n .readStatus [] (updShelf n (fun h => { h with pollAt := s.now }) s))) ∧
  (∀ (n : Nat) (s : State), powered s = true → inFault s = false → worldServes s 0x20 = true →
    (shelfOf s n).step = .powerGood → s.now ≥ (shelfOf s n).since + 500000 →
    exec (.powerGoodTimeout n) s = .next (wakeFail n 2 s) ∧
    (tablesOk s = true → ∃ u, exec (.powerGoodTimeout n) s = .next u ∧ (shelfOf u n).state = .asleep ∧
      (shelfOf u n).cause = 2 ∧ (shelfOf u n).step = .idle ∧ s.csn < u.csn)) ∧
  (∀ (n : Nat) (s : State), live s = true → worldServes s 0x20 = true → (shelfOf s n).step = .groups →
    (shelfOf s n).released = 0 → s.now ≥ (shelfOf s n).goodAt + 100000 → (regionOf s 0).state ≠ .lost →
    l0Now s + (groupBays s n 0).length ≤ effBudget s → groupMask s n 0 ≠ 0 →
    exec (.groupRelease n) s = .next (shelfCheck n (updShelf n
      (fun h => { h with released := 1, lastRelease := s.now, step := .groups })
      (ask_ (2 * n) .setPerst (maskValue (groupMask s n 0) false) (markL0 (releaseGroup n 0 false (seqd s))))))) ∧
  (∀ (n cause : Nat) (s : State), powered s = true → inFault s = false → n < 8 → (shelfOf s n).state ≠ .asleep →
    (cause = 3 ∨ cause = 5) → exec (.shelfDrop n cause) s = .next (dropShelf n cause s) ∧
    (tablesOk s = true → ∃ u, exec (.shelfDrop n cause) s = .next u ∧ (shelfOf u n).state = .asleep ∧
      (shelfOf u n).cause = cause ∧ (shelfOf u n).dropped = true ∧ s.csn < u.csn))

/-- R185: a sleep begins SLEEPING at its CSN, waits for the earlier carriages of the shelf's drives, shuts its drives
down, and asserts PERST# once each has shut down or run out of its time. Choices of the model that it rests on: log
entries 67 and 86. -/
def Obligations.ShelfSleepsDrainFirst : Prop :=
  (∀ (t : Nat) (s : State), isAt s t 0x21 .admitted = true → worldServes s 0x21 = true →
    (shelfOf s (eShelf (carrOf s t).entry)).step = .idle →
    ((shelfOf s (eShelf (carrOf s t).entry)).state = .asleep → exec (.shelfSleep t) s = .next (done t stDone 0 s)) ∧
    ((shelfOf s (eShelf (carrOf s t).entry)).state = .awake →
      ∃ u, exec (.shelfSleep t) s = .next u ∧ (shelfOf u (eShelf (carrOf s t).entry)).state = .sleeping ∧
        (shelfOf u (eShelf (carrOf s t).entry)).step = .sleepWait ∧
        (shelfOf u (eShelf (carrOf s t).entry)).tag = some t ∧ u.csn = s.csn + 1 ∧ u.kst = s.kst ∧ u.vlt = s.vlt ∧
        u.mdf.drives = s.mdf.drives)) ∧
  (∀ (n : Nat) (s : State), live s = true → worldServes s 0x21 = true → (shelfOf s n).step = .sleepWait →
    sleepBusy s n = false → exec (.sleepDrainDone n) s = .next (shutDrives n s)) ∧
  (∀ (d at_ : Nat) (s : State), powered s = true → inFault s = false → d < 512 →
    (shelfOf s (driveShelf d)).step = .shutdown → (driveOf s d).shutAt = some at_ → (driveOf s d).shutDone = false →
    exec (.driveShutdownDone d true) s = .next
      (let a := updDrive d (fun x => { x with shutDone := true }) s
       if allShut a (driveShelf d) then sleepPerst (driveShelf d) a else a))

/-- R171, R177, R183, R186, R190, R192: within 100 ms a drive's link comes up, its bus mastering and its vectors are set,
and its controller is enabled; its initialisation makes it READY, UNUSABLE or FAILED, and the shelf's wake looks whether
it is over; a link or a controller that does not come in time fails it; a removal fails it, unless it had failed before,
and an insertion leaves it OFF; a reset controller is enabled again once it reports not ready, and then initialised.
Choices of the model that it rests on: log entries 21, 67 and 85. -/
def Obligations.DrivesComeUpOrFail : Prop :=
  (∀ (d speed capTo mqes : Nat) (topoOk : Bool) (s : State), live s = true → worldServes s 0x22 = true → d < 512 →
    (driveOf s d).state = .init → (driveOf s d).lane = .training → (driveOf s d).dlUpAt = none →
    (driveOf s d).linkDownAt = none → s.now < (driveOf s d).relAt + 100000 → speedOk speed = true →
    ∃ t, exec (.driveDlUp d speed topoOk capTo mqes) s = .next t ∧
      driveOf t d = { driveOf s d with
        master := true, vectors := s.mdf.qpairs + 1
        lane := .l0, speed := speed, dlUpAt := some s.now, enableAt := s.now, capTo := capTo, mqes := mqes
        topoBad := !topoOk, idleAt := s.now } ∧
      t.out = s.out ++ [.driveConfig d (s.mdf.qpairs + 1), .nvmeCtl d 1] ∧ t.csn = s.csn ∧ t.car = s.car ∧ ∀ e, e ≠ d → driveOf t e = driveOf s e) ∧
  (∀ (d : Nat) (s : State), powered s = true → inFault s = false → d < 512 → (driveOf s d).state = .init →
    (driveOf s d).lane = .training → (driveOf s d).dlUpAt = none → (driveOf s d).linkDownAt = none →
    worldServes s 0x22 = true → s.now ≥ (driveOf s d).relAt + 100000 →
    exec (.dlUpTimeout d) s = .next (failDrive d 1 s)) ∧
  (∀ (d : Nat) (s : State), powered s = true → inFault s = false → d < 512 → (driveOf s d).state = .init →
    (driveOf s d).dlUpAt.isSome = true → (driveOf s d).disabling = false → worldServes s 0x22 = true →
    s.now ≥ (driveOf s d).enableAt + readyLimit s d →
    exec (.driveReadyTimeout d) s = .next (failDrive d (if (driveOf s d).resetting then 5 else 2) s)) ∧
  (∀ (d : Nat) (r : InitReport) (s : State), live s = true → worldServes s 0x22 = true → d < 512 →
    (driveOf s d).state = .init → (driveOf s d).dlUpAt.isSome = true → linkUp (driveOf s d) = true →
    (driveOf s d).resetting = false →
    s.now < (driveOf s d).enableAt + readyLimit s d →
    exec (.driveInit d r) s = .next (shelfCheck (driveShelf d) (initDrive d 2 r s)) ∧
    (r.ok = true → r.nsPresent = true → r.dataBytes ≠ 4096 → (driveOf s d).topoBad = false → r.topoOk = true →
      (driveOf s d).waitCmds = [] →
      (driveOf (initDrive d 2 r s) d).state = .unusable ∧ (driveOf (initDrive d 2 r s) d).ioq = 0) ∧
    (r.ok = true → nsOk r = true → (driveOf s d).topoBad = false → r.topoOk = true → (driveOf s d).waitCmds = [] →
      (driveOf (initDrive d 2 r s) d).state = .ready ∧
      (driveOf (initDrive d 2 r s) d).ioq = min s.mdf.qpairs r.queues ∧ (driveOf (initDrive d 2 r s) d).nsze = r.nsze)) ∧
  (∀ (d : Nat) (s : State), powered s = true → inFault s = false → d < 512 →
    (shelfOf s (driveShelf d)).state = .awake → (shelfOf s (driveShelf d)).step ≠ .identify →
    (shelfOf s (driveShelf d)).step ≠ .presence → (linkOf s (driveLink d)).down = false →
    ((driveOf s d).present = true → (driveOf s d).state = .failed →
      ∃ t, exec (.presenceChange d false) s = .next t ∧ driveOf t d = { driveOf s d with present := false } ∧
        t.csn = s.csn + 1 ∧ t.car = s.car) ∧
    ((driveOf s d).present = true → (driveOf s d).state ≠ .failed →
      exec (.presenceChange d false) s = .next (failDrive d 4 (updDrive d (fun x => { x with present := false }) s))) ∧
    ((driveOf s d).present = false →
      ∃ t, exec (.presenceChange d true) s = .next t ∧
        driveOf t d = { driveOf s d with present := true, perst := true, state := .off } ∧ t.csn = s.csn + 1 ∧
        t.car = s.car ∧ ∀ e, e ≠ d → driveOf t e = driveOf s e)) ∧
  (∀ (d : Nat) (s : State), live s = true → d < 512 → linkUp (driveOf s d) = true → (driveOf s d).state = .ready →
    exec (.controllerReset d true none) s = .next (failDrive d 3 s)) ∧
  (∀ (d : Nat) (r : InitReport) (s : State), live s = true → worldServes s 0x22 = true → d < 512 →
    linkUp (driveOf s d) = true → (driveOf s d).state = .init → (driveOf s d).resetting = true →
    ((driveOf s d).disabling = true → exec (.controllerReset d false (some r)) s = .next (resetEnable d s)) ∧
    ((driveOf s d).disabling = false → s.now < (driveOf s d).enableAt + readyLimit s d →
      exec (.controllerReset d false (some r)) s = .next (shelfCheck (driveShelf d) (initDrive d 5 r s))))

/-- R178-R181, R189: an idle port parks, one that is wanted begins to come back where the budget has a place, and is in L0
once its reference clock runs; a link that goes down holds its commands until it has retrained within 100 ms, in a place
of the budget, or fails the drive. Choices of the model that it rests on: log entry 84. -/
def Obligations.LanesParkWakeAndRetrain : Prop :=
  (∀ (d : Nat) (s : State), live s = true → d < 512 → parkable s d = true → s.now ≥ (driveOf s d).idleAt + s.mdf.idlePark →
    ∃ t, exec (.portPark d) s = .next t ∧ driveOf t d = { driveOf s d with lane := .l12, clkreq := false } ∧
      t = { s with mdf := { s.mdf with drives := t.mdf.drives, links := t.mdf.links } } ∧
      ∀ e, e ≠ d → driveOf t e = driveOf s e) ∧
  (∀ (d : Nat) (s : State), tablesOk s = true → live s = true → d < 512 → (driveOf s d).lane = .l12 →
    (driveOf s d).linkDownAt = none → l0Now s < effBudget s →
    (wantsPlace s d = true ∨ (driveOf s d).clkreq = true ∨ heldHot s d = true → ∃ t, exec (.l12Exit d) s = .next t ∧
      driveOf t d = { driveOf s d with lane := .training } ∧ t.csn = s.csn ∧ t.car = s.car) ∧
    (∃ t, exec (.driveClkreqWake d) s = .next t ∧
      driveOf t d = { driveOf s d with lane := .training, clkreq := true } ∧ t.csn = s.csn ∧ t.car = s.car)) ∧
  (∀ (d : Nat) (s : State), live s = true → d < 512 → isExiting (driveOf s d) = true → (driveOf s d).rootClk = true →
    exec (.l12Exit d) s = .next (pump d (updDrive d (fun x => { x with lane := .l0, idleAt := s.now }) s))) ∧
  (∀ (d : Nat) (s : State), powered s = true → inFault s = false → d < 512 → (driveOf s d).linkDownAt = none →
    ((driveOf s d).lane = .l0 ∨ (driveOf s d).lane = .l12) →
    ∃ t, exec (.driveLinkDown d) s = .next t ∧
      driveOf t d = { driveOf s d with
        lane := if (driveOf s d).lane = .l0 ∨ l0Now s < effBudget s then .training else .down
        linkDownAt := some s.now, speed := 0 } ∧ t.csn = s.csn ∧
      t.car = s.car ∧ ∀ e, e ≠ d → driveOf t e = driveOf s e) ∧
  (∀ (d at_ speed : Nat) (s : State), powered s = true → inFault s = false → d < 512 →
    (driveOf s d).linkDownAt = some at_ →
    (s.now < at_ + 100000 → speedOk speed = true → (driveOf s d).lane = .training ∨ l0Now s < effBudget s →
      exec (.driveLinkRetrained d speed) s = .next (pump d (markL0
        (updDrive d (fun x => { x with
          lane := .l0, linkDownAt := none, speed := speed, rootClk := true, idleAt := s.now }) s)))) ∧
    (s.now ≥ at_ + 100000 → exec (.driveRetrainTimeout d) s = .next (failDrive d 4 s)))

/-- R42, R187-R190: a command that completes within its time leaves its drive and does what it was issued for, and a later
completion is its timeout; one that failed ends its carriage MEDIA_ERROR with the drive's status and its error log is
read, and one whose completion is poisoned resets the controller too; a timed-out one ends its carriage MEDIA_TIMEOUT and
is aborted, and an unanswered abort resets the controller; an event is recorded and asked for again. Choices of the model
that it rests on: log entries 21, 67 and 86. -/
def Obligations.NvmeCommandsEnd : Prop :=
  (∀ (d cid dword0 : Nat) (data : Bytes) (s : State), powered s = true → inFault s = false → d < 512 →
    (tget {} (driveOf s d).cmds cid).used = true → (tget {} (driveOf s d).cmds cid).timedOut = false →
    (tget {} (driveOf s d).cmds cid).kind ≠ .asyncEvent → (driveOf s d).linkDownAt = none → (driveOf s d).resetting = false →
    (isLate s (tget {} (driveOf s d).cmds cid) = true →
      exec (.nvmeCompletion d cid 0 dword0 ⟨false, data⟩) s = .next (timeOut d cid s)) ∧
    (isLate s (tget {} (driveOf s d).cmds cid) = false →
      exec (.nvmeCompletion d cid 0 dword0 ⟨false, data⟩) s =
        .next (pump d (completed (tget {} (driveOf s d).cmds cid) d dword0 data (retire d cid s))) ∧
      (∀ t p off, tablesOk s = true → (tget {} (driveOf s d).cmds cid).kind = .segRead p off →
        (tget {} (driveOf s d).cmds cid).tag = some t →
        ∃ u, exec (.nvmeCompletion d cid 0 dword0 ⟨false, data⟩) s = .next u ∧ u.csn = s.csn ∧ u.kst = s.kst ∧
          (segOf u t p).left = (segOf s t p).left - 1 ∧
          ((segOf s t p).st = .fetching → (segOf u t p).st = if (segOf s t p).left ≤ 1 then .ready else .fetching)))) ∧
  (∀ (d cid st dword0 : Nat) (data : Bytes) (s : State), powered s = true → inFault s = false → d < 512 →
    (tget {} (driveOf s d).cmds cid).used = true → (tget {} (driveOf s d).cmds cid).timedOut = false →
    (tget {} (driveOf s d).cmds cid).kind = .trailerRead → st < 2 ^ 16 → (driveOf s d).linkDownAt = none →
    (driveOf s d).resetting = false → s.now < (tget {} (driveOf s d).cmds cid).issuedAt + 1000 * s.mdf.cmdTimeout →
    exec (.nvmeCompletion d cid st dword0 ⟨true, data⟩) s =
      .next (beginReset d (mediaFail (tget {} (driveOf s d).cmds cid) d stMediaError 0x0660 s)) ∧
    (st ≠ 0 → exec (.nvmeCompletion d cid st dword0 ⟨false, data⟩) s =
      .next (pump d (mediaFail (tget {} (driveOf s d).cmds cid) d stMediaError st
        (issue d .errorLog none errorLogDword 0
          (updDiag d (fun x => { x with err := satInc 16 x.err }) (retire d cid s)))))) ∧
    (∀ t, tablesOk s = true → st ≠ 0 → (tget {} (driveOf s d).cmds cid).tag = some t → inFlight (carrOf s t) = true →
      waitsTurn s t = false →
      ∃ u, exec (.nvmeCompletion d cid st dword0 ⟨false, data⟩) s = .next u ∧ (carrOf u t).stage = .free ∧ s.csn < u.csn)) ∧
  (∀ (d cid : Nat) (s : State), powered s = true → inFault s = false → d < 512 →
    (tget {} (driveOf s d).cmds cid).used = true → (tget {} (driveOf s d).cmds cid).timedOut = false →
    (tget {} (driveOf s d).cmds cid).kind = .trailerRead → (driveOf s d).resetting = false →
    s.now ≥ (tget {} (driveOf s d).cmds cid).issuedAt + 1000 * s.mdf.cmdTimeout →
    exec (.nvmeCommandTimeout d cid) s =
      .next (mediaFail (tget {} (driveOf s d).cmds cid) d stMediaTimeout 0 (issue d (.abort cid) none (abortDword s d cid) 0
        (updDiag d (fun x => { x with tmo := satInc 16 x.tmo })
          (updDrive d (fun x => { x with cmds := tupd {} x.cmds cid (fun c => { c with timedOut := true }) }) s)))) ∧
    (∀ t, tablesOk s = true → (tget {} (driveOf s d).cmds cid).tag = some t → inFlight (carrOf s t) = true →
      waitsTurn s t = false →
      ∃ u, exec (.nvmeCommandTimeout d cid) s = .next u ∧ (carrOf u t).stage = .free ∧ s.csn < u.csn ∧
        (diagOf u d).tmo = satInc 16 (diagOf s d).tmo)) ∧
  (∀ (d cid k : Nat) (s : State), powered s = true → inFault s = false → d < 512 →
    (tget {} (driveOf s d).cmds cid).used = true → (tget {} (driveOf s d).cmds cid).kind = .abort k →
    (driveOf s d).resetting = false → s.now ≥ (tget {} (driveOf s d).cmds cid).issuedAt + 1000000 →
    exec (.nvmeAbortTimeout d cid) s = .next (beginReset d s) ∧
    (tablesOk s = true → (shelfOf s (driveShelf d)).step = .idle →
      ∃ u, exec (.nvmeAbortTimeout d cid) s = .next u ∧ (driveOf u d).state = .init ∧ (driveOf u d).resetting = true ∧
        (driveOf u d).disabling = true ∧ (diagOf u d).reset = satInc 8 (diagOf s d).reset ∧ u.csn = s.csn + 1 ∧
        u.car = s.car)) ∧
  (∀ (d : Nat) (s : State), tablesOk s = true → powered s = true → inFault s = false → d < 512 →
    linkUp (driveOf s d) = true →
    ∃ t, exec (.driveDmaBlocked d none) s = .next t ∧
      diagOf t d = { diagOf s d with dmaBlk := satInc 8 (diagOf s d).dmaBlk } ∧
      t = { s with mdf := { s.mdf with diag := t.mdf.diag } }) ∧
  (∀ (d cid dword0 : Nat) (s : State), powered s = true → inFault s = false → d < 512 →
    ((driveOf s d).cmds.find? (fun c => c.2.used && c.2.kind == .asyncEvent)).map (·.1) = some cid →
    linkUp (driveOf s d) = true → (driveOf s d).resetting = false →
    ∃ u, exec (.asyncEvent d dword0) s = .next u ∧ u.car = s.car ∧ u.kst = s.kst ∧ u.csn = s.csn ∧
      u = issue d .asyncEvent none 0 0
        (driveRecord d 2 0 dword0 (updDrive d (fun x => { x with cmds := tdel x.cmds cid }) s))) ∧
  (∀ (t : Nat) (s : State), isAt s t 0x22 .admitted = true → worldServes s 0x22 = true →
    (let a := updMdf (fun m => { m with adminWait := m.adminWait ++ [t] }) (updCarr t (fun c => { c with stage := .running }) s)
     let d := srcDrive (carrOf s t)
     exec (.driveAdmin t) s = .next (adminGo t a) ∧
     (tablesOk s = true → ∃ u, exec (.driveAdmin t) s = .next u ∧ (carrOf u t).stage = .running ∧ u.csn = s.csn ∧
       u.kst = s.kst) ∧
     (∀ x l, adminSends (carrOf s t).entry = true → (carrOf s t).record = none → (segOf s t 0).st = .idle →
       granules a d (ceilDiv (eLength (carrOf s t).entry) 4096) false = some (x, l) →
       exec (.driveAdmin t) s = .next (readBuffer (.record t) t 0 (eLength (carrOf s t).entry)
         (markAll (updSeg t 0 (fun g => { g with st := .fetching, region := x, hold := l, at_ := s.now }) a)))))) ∧
  (∀ (t : Nat) (s : State), adminMay s t = true →
    exec (.driveAdminIssue t) s = .next (issue (srcDrive (carrOf s t)) .admin (some t) (fld (carrOf s t).entry 52 8) 0
      (updMdf (fun m => { m with adminWait := m.adminWait.erase t })
        (updCarr t (fun c => { c with started := true }) s))) ∧
    (tablesOk s = true → ∃ u, exec (.driveAdminIssue t) s = .next u ∧ (carrOf u t).started = true ∧
      (carrOf u t).stage = .running ∧ u.csn = s.csn ∧ u.kst = s.kst)) ∧
  (∀ (r at_ : Nat) (s : State), live s = true → r < 4 → (regionOf s r).state ≠ .lost → (regionOf s r).d2dDown = some at_ →
    s.now ≥ at_ + 1000 → ∃ t, exec (.d2dRetrainTimeout r) s = .next t ∧ s.csn < t.csn)

/-- R278, R279, R288, R289: with turntable 1 held, a slice command that its checks pass does its one thing and reports OK
at one CSN; its BUSY lasts at most its limit. A share epoch that is over is closed before a weight changes (R43). Without
the turntable it is counted and changes nothing else. Choices of the model that it rests on: log entries 53 and 54. -/
def Obligations.SliceCommandsAct : Prop :=
  (∀ (p : Port) (n : Nat) (s : State), tablesOk s = true → wr p .slc s = true → holds p 1 s = true → n < 8192 →
    (s.win.get p).slc.busyUntil ≤ s.now →
    (∃ t, exec (.slcRead p n) s = .next t ∧ (t.win.get p).slc.data = entryBytes (sliceOf s n) ∧
      (t.win.get p).slc.result = 0 ∧ t.csn = s.csn + 1 ∧ t.slc = s.slc ∧ t.car = s.car ∧
      s.now ≤ (t.win.get p).slc.busyUntil ∧ (t.win.get p).slc.busyUntil ≤ s.now + 10) ∧
    ((sliceOf s n).state = .frozen → stagedOk (staged p s) = true → overlaps s n (staged p s) = false →
      moves (sliceOf s n) (staged p s) = false →
      ∃ t, exec (.slcWrite p n) s = .next t ∧ sliceOf t n = stagedSlice (staged p s) (sliceOf (shareSync s) n) ∧
        (t.win.get p).slc.result = 0 ∧ t.csn = s.csn + 1 ∧ t.car = s.car ∧
        ∀ m, m ≠ n → sliceOf t m = sliceOf (shareSync s) m) ∧
    ((sliceOf s n).state = .empty → s.chp.mode = .running → stagedOk (staged p s) = true →
      overlaps s n (staged p s) = false →
      ∃ t, exec (.slcCreate p n) s = .next t ∧
        (sliceOf t n).state = (if bit (fld (staged p s) 0 4) 24 then SliceState.frozen else .active) ∧
        (sliceOf t n).pasid = bits (fld (staged p s) 0 4) 0 20 ∧ (sliceOf t n).weight = bits (fld (staged p s) 12 2) 0 11 ∧
        (sliceOf t n).weightNow = ({} : Slice).weightNow ∧ (sliceOf t n).inFull = false ∧ (sliceOf t n).outFull = false ∧
        (t.win.get p).slc.result = 0 ∧ t.csn = s.csn + 1 ∧ ∀ m, m ≠ n → sliceOf t m = sliceOf (shareSync s) m) ∧
    ((sliceOf s n).state = .frozen → sliceSqs s n = [] →
      ∃ t, exec (.unfreeze p n) s = .next t ∧ sliceOf t n = { sliceOf s n with state := .active } ∧
        (t.win.get p).slc.result = 0 ∧ t.csn = s.csn + 1) ∧
    ((sliceOf s n).state = .frozen → sliceRings s n = [] →
      tkeys s.kst.slots (fun _ x => x.state != .free && x.scope == n) = [] →
      ∃ t, exec (.remove p n) s = .next t ∧ sliceOf t n = {} ∧ (t.win.get p).slc.result = 0 ∧ t.csn = s.csn + 1 ∧
        (∀ o, (bindOf s o).bound = true → (bindOf s o).slice = n → bindOf t o = {}) ∧
        (∀ o, (bindOf s o).slice ≠ n → bindOf t o = bindOf s o) ∧ ∀ m, m ≠ n → sliceOf t m = sliceOf s m)) ∧
  (∀ (p : Port) (n : Nat) (s : State), wr p .slc s = true → holds p 1 s = false →
    exec (.slcRead p n) s = .next (guardErr p (legTouch p (cntWr p s))) ∧
    exec (.slcWrite p n) s = .next (guardErr p (legTouch p (cntWr p s))) ∧
    exec (.slcCreate p n) s = .next (guardErr p (legTouch p (cntWr p s))) ∧
    exec (.unfreeze p n) s = .next (guardErr p (legTouch p (cntWr p s))) ∧
    exec (.remove p n) s = .next (guardErr p (legTouch p (cntWr p s))))

/-- R281: BIND binds an ACTIVE unbound owner to an ACTIVE or FROZEN slice, UNBIND removes a binding to the named slice,
and QUERY tells which slice an owner is bound to; each result is shown once its BIND_BUSY is over. R284, R285: a tenant
posts its inbound mailbox with a length and both ports hear of it; a manager acknowledges it, which zeroes it; a manager
posts the outbound one and the slice's first vector fires; the tenant's acknowledgement zeroes it. Choices of the model
that it rests on: log entries 24 and 54. -/
def Obligations.BindingsAndMailboxesFollowCommands : Prop :=
  (∀ (p : Port) (n : Nat) (s : State), tablesOk s = true → wr p .slc s = true → holds p 1 s = true →
    (bindOf s (s.win.get p).slc.bindOwner).bound = false → (ownerOf s (s.win.get p).slc.bindOwner).state = .active →
    ((sliceOf s n).state = .active ∨ (sliceOf s n).state = .frozen) → bindCount s n < 65536 →
    ∃ t, exec (.bind p n) s = .next t ∧
      bindOf t (s.win.get p).slc.bindOwner = { bound := true, slice := n, revoked := false } ∧
      (t.win.get p).slc.bindRes = 0 ∧ t.csn = s.csn + 1 ∧ t.car = s.car ∧ t.kst = s.kst ∧
      (t.win.get p).slc.bindBusyUntil ≤ s.now + 4 ∧
      ∀ o, o ≠ (s.win.get p).slc.bindOwner → bindOf t o = bindOf s o) ∧
  (∀ (p : Port) (n : Nat) (s : State), tablesOk s = true → wr p .slc s = true → holds p 1 s = true →
    (bindOf s (s.win.get p).slc.bindOwner).bound = true → (bindOf s (s.win.get p).slc.bindOwner).slice = n →
    ∃ t, exec (.unbind p n) s = .next t ∧ bindOf t (s.win.get p).slc.bindOwner = {} ∧ (t.win.get p).slc.bindRes = 0 ∧
      t.csn = s.csn + 1 ∧ ∀ o, o ≠ (s.win.get p).slc.bindOwner → bindOf t o = bindOf s o) ∧
  (∀ (p : Port) (s : State), wr p .slc s = true →
    ∃ t, exec (.query p) s = .next t ∧ (t.win.get p).slc.bound = (bindOf s (s.win.get p).slc.bindOwner).bound ∧
      ((bindOf s (s.win.get p).slc.bindOwner).bound = true →
        (t.win.get p).slc.boundTo = (bindOf s (s.win.get p).slc.bindOwner).slice) ∧
      (t.win.get p).slc.bindRes = 0 ∧ t.slc = s.slc ∧ t.csn = s.csn + 1) ∧
  (∀ (p : Port) (n len : Nat) (s : State), wr p .page s = true → n < 8192 → (sliceOf s n).state ≠ .empty →
    (sliceOf s n).inFull = false → 1 ≤ len → len ≤ 256 →
    ∃ t, exec (.inPost p n len) s = .next t ∧ sliceOf t n = { sliceOf s n with inFull := true, inLen := len } ∧
      t.csn = s.csn + 1 ∧ t.car = s.car ∧ t.kst = s.kst ∧ ∀ m, m ≠ n → sliceOf t m = sliceOf s m) ∧
  (∀ (p : Port) (s : State), wr p .slc s = true → (sliceOf s (s.win.get p).slc.mbxSel).state ≠ .empty →
    ∃ t, exec (.inAck p) s = .next t ∧
      sliceOf t (s.win.get p).slc.mbxSel =
        { sliceOf s (s.win.get p).slc.mbxSel with inFull := false, inLen := 0, inBox := zeros 256 } ∧
      t.csn = s.csn + 1 ∧ t.car = s.car ∧ t.kst = s.kst) ∧
  (∀ (p : Port) (len : Nat) (s : State), wr p .slc s = true → (sliceOf s (s.win.get p).slc.mbxSel).state ≠ .empty →
    (sliceOf s (s.win.get p).slc.mbxSel).outFull = false → 1 ≤ len → len ≤ 256 →
    ∃ t, exec (.outPost p len) s = .next t ∧
      sliceOf t (s.win.get p).slc.mbxSel = { sliceOf s (s.win.get p).slc.mbxSel with outFull := true, outLen := len } ∧
      t.csn = s.csn + 1 ∧ t.car = s.car ∧ t.kst = s.kst) ∧
  (∀ (p : Port) (n : Nat) (s : State), wr p .page s = true → n < 8192 → (sliceOf s n).state ≠ .empty →
    ∃ t, exec (.outAck p n) s = .next t ∧
      sliceOf t n = { sliceOf s n with outFull := false, outLen := 0, outBox := zeros 256 } ∧
      t.csn = s.csn + 1 ∧ t.car = s.car ∧ t.kst = s.kst)

/-- R286, R287, R290-R293: a freeze drains its slice, seals its sessions and makes it FROZEN; a FROZEN slice is saved
under a custody key the unit holds; an image is applied whole or not at all. Choices of the model that it rests on: log
entry 55. -/
def Obligations.SlicesFreezeSaveAndRestore : Prop :=
  (∀ (t : Nat) (s : State), isAt s t 0x50 .admitted = true → exec (.sliceFreeze t) s = .next (freezeAdmitted t s)) ∧
  (∀ (n : Nat) (s : State), live s = true → (sliceOf s n).state = .freezing →
    (sliceSqs s n).all (fun g => (ringOf s g).outstanding == 0) = true → s.vlt.mode ≠ .closed → sessions s n = [] →
    (sliceOf s n).freezers = [] →
    ∃ u, exec (.freezeDrainDone n) s = .next u ∧
      sliceOf u n = { sliceOf s n with state := .frozen, freezes := satInc 16 (sliceOf s n).freezes } ∧
      u.csn = s.csn + 1 ∧ u.car = s.car ∧ u.kst = s.kst) ∧
  (∀ (n : Nat) (s : State), live s = true → (sliceOf s n).state = .freezing →
    (sliceSqs s n).all (fun g => (ringOf s g).outstanding == 0) = true → s.vlt.mode ≠ .closed →
    (freezeSeals n (sessions s n) s).1 = true →
    exec (.freezeDrainDone n) s = .next ((sliceOf (freezeSeals n (sessions s n) s).2 n).freezers.foldl
      (fun s t => done t stDone 0 s)
      (updSlice n (fun x => { x with state := .frozen, freezes := satInc 16 x.freezes, freezers := [] })
        (seqd (freezeSeals n (sessions s n) s).2)))) ∧
  (∀ (t : Nat) (k : Bytes) (s : State), worldServes s 0x51 = true → isAt s t 0x51 .running = true →
    (sliceOf s (fld (carrOf s t).entry 48 2)).state = .frozen → custodyKey s (fld (carrOf s t).entry 50 2) = some k →
    (sliceImage (seqd s) (fld (carrOf s t).entry 48 2) (fld (carrOf s t).entry 50 2) k).length ≤
      eLength (carrOf s t).entry →
    exec (.sliceSave t) s = .next (done t stDone
      (sliceImage (seqd s) (fld (carrOf s t).entry 48 2) (fld (carrOf s t).entry 50 2) k).length
      (writeBuffer t 0 (sliceImage (seqd s) (fld (carrOf s t).entry 48 2) (fld (carrOf s t).entry 50 2) k) (seqd s)))) ∧
  (∀ (t : Nat) (img k : Bytes) (s : State), worldServes s 0x52 = true → isAt s t 0x52 .running = true →
    (carrOf s t).record = some img → custodyKey s (fld (carrOf s t).entry 50 2) = some k →
    (openImage k img = none → exec (.sliceRestore t) s = .next (done t stVerifyReject 0 s)) ∧
    (∀ m, openImage k img = some m → targetReady s (fld (carrOf s t).entry 48 2) m = true →
      exec (.sliceRestore t) s = .next (done t stDone 0 (applyImage (fld (carrOf s t).entry 48 2) m s))) ∧
    (∀ m, openImage k img = some m → targetReady s (fld (carrOf s t).entry 48 2) m = false →
      exec (.sliceRestore t) s = .next (done t stAccessDenied 0 s)))

/-- R124, R235-R239, R260, R267: a PROPOSE that passes every check opens a proposal under the next id, with its policy,
its window from its admission and its digest, a key it holds kept as two shares; one that fails a check ends
QUORUM_REJECTED, one that lacks its tender bytes RNG_NOT_SEEDED. An approval's signature goes to its engine; a valid one
short of the quorum is counted, the one that makes it starts the commit; QUERY_PROPOSAL tells how the proposal stands; a
window that ends closes it and zeroises what it drew. Choices of the model that it rests on: log entries 36, 38, 87, 89,
91 and 101. -/
def Obligations.QuorumJudgesProposals : Prop :=
  (∀ (t : Nat) (s : State), worldServes s 0x30 = true → s.fwu.activating = false → s.vlt.nextId < s.vlt.img.idCeiling →
    waitsTurn s t = false →
    (isAt s t 0x30 .admitted = true →
      exec (.propose t) s = .next (updCarr t (fun c => { c with stage := .running }) s)) ∧
    (∀ r, isAt s t 0x30 .running = true → (carrOf s t).record = some r → vaultLive s = true →
      (wantsPackage s t r = true → (carrOf s t).sigs = none → exec (.propose t) s =
        .next (latCarriage t (latCarriage t (updCarr t (fun c => { c with sigs := some 2 }) s)))) ∧
      ((carrOf s t).sigs = some 0 ∨ (carrOf s t).sigs = none ∧ wantsPackage s t r = false →
        (propPasses s t r = false → exec (.propose t) s = .next (done t stQuorumRejected 0 (giveBack t s))) ∧
        (propPasses s t r = true → propDraw r = 0 → importedKey s r = some [] →
          exec (.propose t) s = .next (done t stDone s.vlt.nextId
            (dmaWriteMps (carrPort s t) (ringPasid s (ringOf s (carrOf s t).sq)) (s.stats.get (carrPort s t)).cfg.roEn
              (fld (carrOf s t).entry 48 8) (propDigest s.vlt.nextId r)
              (updVlt (fun v => { v with
                nextId := s.vlt.nextId + 1
                props := tput v.props s.vlt.nextId
                  { used := true, record := r, m := (governing s t r).m, officers := (governing s t r).officers
                    end_ := (carrOf s t).admAt + 1000000 * (carrOf s t).aux, port := carrPort s t
                    digest := propDigest s.vlt.nextId r } }) s)))) ∧
        (∀ key, propPasses s t r = true → propDraw r = 0 → importedKey s r = some key →
          exec (.propose t) s = .next (openProposal t r key (governing s t r) s)) ∧
        (propPasses s t r = true → propDraw r ≠ 0 → propDraw r ≤ (carrOf s t).rnd.length →
          exec (.propose t) s = .next (openProposal t r (carrOf s t).rnd (governing s t r) s) ∧
          (tablesOk s = true → ∃ u, exec (.propose t) s = .next u ∧ u.vlt.nextId = s.vlt.nextId + 1 ∧
            (propOf u s.vlt.nextId).used = true ∧ (propOf u s.vlt.nextId).state = .open_ ∧
            (propOf u s.vlt.nextId).record = r ∧ propKey (propOf u s.vlt.nextId) = (carrOf s t).rnd ∧
            (propOf u s.vlt.nextId).digest = propDigest s.vlt.nextId r)) ∧
        (propPasses s t r = true → propDraw r ≠ 0 → (carrOf s t).rnd.length < propDraw r →
          exec (.propose t) s = .next (done t stRngNotSeeded 0 s))))) ∧
  (∀ (t : Nat) (s : State), s.rng.waiters = [] → giveBack t s =
    (if s.rng.state = .seeded ∧ s.rng.startAt < (carrOf s t).admAt then
      { s with rng := { s.rng with tender := ((carrOf s t).rnd ++ s.rng.tender).take 65536 } } else s)) ∧
  (∀ (key : Bytes) (s : State), xorBytes (maskKey key s).1.1 (maskKey key s).1.2 = key) ∧
  (∀ (t : Nat) (s : State), worldServes s 0x31 = true →
    (isAt s t 0x31 .admitted = true → eLength (carrOf s t).entry = 0 → exec (.approve t) s =
      .next (updCarr t (fun c => { c with stage := .running, record := some [] }) s)) ∧
    (isAt s t 0x31 .admitted = true → eLength (carrOf s t).entry ≠ 0 → exec (.approve t) s =
      .next (readBuffer (.record t) t 0 (eLength (carrOf s t).entry) (updCarr t (fun c => { c with stage := .running }) s))) ∧
    (isAt s t 0x31 .running = true → (carrOf s t).record.isSome = true → (carrOf s t).sigs = none → sigAlg s t ≠ 0 →
      exec (.approve t) s = .next (if sigAlg s t = 1 then latCarriage t (updCarr t (fun c => { c with sigs := some 1 }) s)
        else bnvEnqueue t (updCarr t (fun c => { c with sigs := some 1 }) s)))) ∧
  (∀ (t id o : Nat) (b : Bytes) (s : State), tablesOk s = true → worldServes s 0x31 = true → isAt s t 0x31 .running = true →
    (carrOf s t).record = some b → (carrOf s t).sigs = some 0 → fld (carrOf s t).entry 48 4 = id →
    fld (carrOf s t).entry 52 1 = o → approvesBefore s id (carrOf s t).admCsn = false → (propOf s id).used = true →
    (propOf s id).state = .open_ → (propOf s id).committing = false → (carrOf s t).admAt < (propOf s id).end_ →
    (propOf s id).officers.contains o = true → (tget {} (officersFor s t (propOf s id)) o).state = .active →
    (propOf s id).approvals.contains o = false →
    eLength (carrOf s t).entry = sgnLen (tget {} (officersFor s t (propOf s id)) o).alg →
    (signedBy (tget {} (officersFor s t (propOf s id)) o).alg (tget {} (officersFor s t (propOf s id)) o).key
        (propOf s id).digest b = false →
      exec (.approve t) s = .next (done t stQuorumRejected (quorumWord (propOf s id) 1) s)) ∧
    (signedBy (tget {} (officersFor s t (propOf s id)) o).alg (tget {} (officersFor s t (propOf s id)) o).key
        (propOf s id).digest b = true →
      ((propOf s id).approvals.length + 1 < (propOf s id).m →
        exec (.approve t) s = .next (done t stQuorumPending ((propOf s id).approvals.length + 1 + (propOf s id).m * 2 ^ 8)
          (updProp id (fun p => { p with approvals := p.approvals ++ [o] }) s))) ∧
      ((propOf s id).m ≤ (propOf s id).approvals.length + 1 →
        ∃ u, exec (.approve t) s = .next u ∧
          propOf u id = { propOf s id with
            approvals := (propOf s id).approvals ++ [o], committing := true, by_ := some t } ∧
          u.csn = s.csn ∧ u.car = s.car ∧ u.kst = s.kst ∧ ∀ i, i ≠ id → propOf u i = propOf s i))) ∧
  (∀ (t : Nat) (s : State), isAt s t 0x32 .admitted = true → worldServes s 0x32 = true →
    (propOf s (fld (carrOf s t).entry 48 4)).used = true →
    ((propOf s (fld (carrOf s t).entry 48 4)).state = .committed →
      exec (.queryProposal t) s =
        .next (done t stDone (quorumWord (propOf s (fld (carrOf s t).entry 48 4)) 0) s)) ∧
    ((propOf s (fld (carrOf s t).entry 48 4)).state = .open_ →
      (carrOf s t).admAt < (propOf s (fld (carrOf s t).entry 48 4)).end_ →
      exec (.queryProposal t) s =
        .next (done t stQuorumPending (quorumWord (propOf s (fld (carrOf s t).entry 48 4)) 0) s)) ∧
    ((propOf s (fld (carrOf s t).entry 48 4)).state = .open_ →
      (propOf s (fld (carrOf s t).entry 48 4)).end_ ≤ (carrOf s t).admAt →
      (propOf s (fld (carrOf s t).entry 48 4)).committing = false →
      approvesBefore s (fld (carrOf s t).entry 48 4) (carrOf s t).admCsn = true →
      exec (.queryProposal t) s = .next s) ∧
    ((propOf s (fld (carrOf s t).entry 48 4)).state = .closed →
      exec (.queryProposal t) s =
        .next (done t stQuorumExpired (quorumWord (propOf s (fld (carrOf s t).entry 48 4)) 0) s))) ∧
  (∀ (id : Nat) (s : State), tablesOk s = true → live s = true → (propOf s id).used = true →
    (propOf s id).state = .open_ → (propOf s id).committing = false → (propOf s id).by_ = none →
    (propOf s id).outs = [] → (propOf s id).end_ ≤ s.now →
    tany s.car.cars (fun _ c => (c.stage == .admitted || c.stage == .running) && eOp c.entry == 0x31 &&
      fld c.entry 48 4 == id && c.admAt < (propOf s id).end_) = false →
    ∃ u, exec (.qrmWindowEnd id) s = .next u ∧
      propOf u id = { propOf s id with
        state := .closed, drawn := [], mask := [], committing := false, by_ := none, begun := false, closedCsn := s.csn } ∧
      u.csn = s.csn ∧ u.car = s.car ∧ u.out = s.out ∧ u.vlt.img = s.vlt.img ∧ ∀ i, i ≠ id → propOf u i = propOf s i)

/-- R35, R225, R226: a commit begins where no other runs, PFAIL_N is not asserted and the journals have room; one that
both devices take then appends its record to each, advances the epoch and the floor that guards it, takes one CSN and
makes the proposal COMMITTED; where vault A fails it is abandoned, and vault B stands alone; where vault B fails a VOID
record cancels it and vault A stands alone, and where that fails too the device enters FAULT. R227-R231, R236: VAULT_OPEN
takes the mode that the recovery table gives what it finds, and reserves the next ids in an open vault; a finished rebuild
makes the vault NORMAL; a settle puts the committed patches into the record area and writes a SETTLED record; a scrub
rewrites pages and reports its pass. Choices of the model that it rests on: log entries 31, 37, 38, 39, 90 and 108. -/
def Obligations.VaultCommitsOpensAndIsKept : Prop :=
  (∀ (id : Nat) (a b v : ProgResult) (s : State), tablesOk s = true → commitDue id s = true → rOp (propOf s id).record ≠ 0x04 →
    ∃ t, exec (.vaultCommit id a b v) s = .next t ∧ propOf t id = { propOf s id with begun := true, begunAt := s.now } ∧
      t.vlt.epoch = s.vlt.epoch ∧ t.vlt.img = s.vlt.img ∧ t.vlt.a = s.vlt.a ∧ t.vlt.b = s.vlt.b ∧ t.csn = s.csn ∧ t.out = s.out ∧
      ((propOf s id).by_ = none → t.car = s.car) ∧
      ∀ k, (propOf s id).by_ = some k → carrOf t k = { carrOf s k with started := true }) ∧
  (∀ (id : Nat) (s : State), live s = true → (propOf s id).used = true → (propOf s id).state = .open_ →
    (propOf s id).begun = true → (propOf s id).outs = [] → commitDue id s = false → alarmA s = false → ∀ y, jrecBytes (vaultMacKey s) (commitRec id s) = y →
    (∀ (a b v : ProgResult), progOk a = true → progOk b = true →
      (tablesOk s = true → (propOf s id).by_ = none → rOp (propOf s id).record ∈ [0x01, 0x05, 0x06, 0x10, 0x11, 0x12, 0x18, 0x19, 0x1B] →
        ∃ t, exec (.vaultCommit id a b v) s = .next t ∧ t.vlt.epoch = s.vlt.epoch + 1 ∧ t.csn = s.csn + 1 ∧
          t.bbr.floor = s.vlt.epoch + 1 ∧ t.vlt.img = changeImg s id (s.vlt.epoch + 1) (s.csn + 1) (propOf s id) ∧
          t.vlt.a = devAppend s.vlt.devA a y s.vlt.a ∧ t.vlt.b = devAppend s.vlt.devB b y s.vlt.b ∧
          (propOf t id).state = .committed ∧ (propOf t id).drawn = [] ∧ (propOf t id).mask = [] ∧
          (propOf t id).committing = false ∧ (propOf t id).begun = false ∧
          t.vlt.mode = s.vlt.mode ∧ t.vlt.commitCnt = satInc 32 s.vlt.commitCnt ∧
          t.vlt.commitLat = min 20000 (s.now - (propOf s id).begunAt) ∧ t.car = s.car ∧ t.kst = s.kst ∧
          ∀ i, i ≠ id → propOf t i = propOf s i) ∧
      (rOp (propOf s id).record ≠ 0x30 → (rOp (propOf s id).record = 0x04 → (s.hpt.get (propOf s id).port).up = true) →
        exec (.vaultCommit id a b v) s = .next (commitNow id a b s)) ∧
      (rOp (propOf s id).record = 0x30 → exec (.vaultCommit id a b v) s = .next (commitInit id a b s))) ∧
    (∀ (a b v : ProgResult), (progOk a = false ∨ progOk b = false) → rOp (propOf s id).record = 0x30 →
      exec (.vaultCommit id a b v) s = .next (closeProp id s)) ∧
    (∀ (a b v : ProgResult), rOp (propOf s id).record = 0x04 → (s.hpt.get (propOf s id).port).up = false →
      exec (.vaultCommit id a b v) s = .next (closeProp id s)) ∧
    (tablesOk s = true → rOp (propOf s id).record = 0x10 → (propOf s id).by_ = none → s.vlt.mode = .normal →
      (tkeys s.vlt.props (fun i p => i != id && p.used && p.state == .open_)) = [] →
      (∀ (a b v : ProgResult), progOk a = false →
        ∃ t, exec (.vaultCommit id a b v) s = .next t ∧ t.vlt.mode = .single ∧ t.vlt.cause = 5 ∧ t.vlt.devA = 2 ∧
          t.vlt.a = devProgram a y s.vlt.a ∧ t.vlt.b = s.vlt.b ∧ t.vlt.epoch = s.vlt.epoch ∧ t.vlt.img = s.vlt.img ∧
          t.csn = s.csn ∧ (propOf t id).state = .closed ∧ (propOf t id).drawn = []) ∧
      (∀ (a b v : ProgResult), progOk a = true → progOk b = false → progOk v = true →
        ∃ t, exec (.vaultCommit id a b v) s = .next t ∧ t.vlt.mode = .single ∧ t.vlt.cause = 6 ∧ t.vlt.devB = 2 ∧
          t.vlt.b = devProgram b y s.vlt.b ∧
          t.vlt.a = devProgram v (jrecBytes (vaultMacKey s) { commitRec id s with kind := .void, body := [] })
            (devProgram a y s.vlt.a) ∧
          t.vlt.epoch = s.vlt.epoch ∧ t.vlt.img = s.vlt.img ∧ t.csn = s.csn ∧ (propOf t id).state = .closed) ∧
      (∀ (a b v : ProgResult), progOk a = true → progOk b = false → progOk v = false →
        ∃ t, exec (.vaultCommit id a b v) s = .next t ∧ t.chp.mode = .fault ∧ t.chp.faultCause = 5))) ∧
  (∀ s : State, live s = true → s.chp.vaultOpen = false → s.vlt.mode = .closed → s.car.cars = [] →
    ∃ t, exec .vaultOpen s = .next t ∧ t.chp.vaultOpen = true ∧ t.vlt.mode = (openVault s).mode ∧
      t.vlt.cause = (openVault s).cause ∧ t.vlt.devA = (openVault s).devA ∧ t.vlt.devB = (openVault s).devB ∧
      t.car = s.car ∧ t.now = s.now ∧ t.chp.opened = true ∧
      (s.bbr.buffer ≠ [] → s.chp.opened = false → t.bbr.copied = true) ∧
      ((openVault s).mode = .normal → s.gov.pfail = false → ringRoom 1 (openVault s).a = true →
        ringRoom 1 (openVault s).b = true →
        t.csn = s.csn + 1 ∧ t.vlt.epoch = (openVault s).epoch + 1 ∧ t.bbr.floor = (openVault s).epoch + 1 ∧
        t.vlt.nextId = (openVault s).img.idCeiling ∧ t.vlt.img.idCeiling = (openVault s).img.idCeiling + 65536) ∧
      ((openVault s).mode = .locked ∨ (openVault s).mode = .empty → t.vlt.img = {} ∧ t.vlt.id = 0 ∧ t.csn = s.csn)) ∧
  (∀ s : State, s.fuses.bdEpoch < 255 → s.lcs.state ≠ .return_ → s.lcs.pending = false → noShares s = true →
    s.vlt.a.answers = true → devBlank s.vlt.a = true → s.vlt.b.answers = true → devBlank s.vlt.b = true → s.bbr.floor = 0 →
    (openVault s).mode = .empty) ∧
  (∀ (mk wk : Bytes) (s : State), vaultMacKey s = mk → vaultWrapKey s = wk → s.fuses.bdEpoch < 255 → s.lcs.state ≠ .return_ →
    s.lcs.pending = false → noShares s = false →
    devGood mk s.vlt.a = true → devGood mk s.vlt.b = true → (devChain mk s.vlt.a).1 = (devChain mk s.vlt.b).1 →
    s.bbr.floor ≤ (devChain mk s.vlt.a).1 →
    (openVault s).mode = .normal ∧ (openVault s).epoch = (devChain mk s.vlt.a).1 ∧
      (openVault s).img = imgOf wk (devChain mk s.vlt.a).2) ∧
  (∀ s : State, live s = true → s.vlt.mode = .rebuilding →
    ∃ t, exec .vaultRebuildDone s = .next t ∧ t.vlt.mode = .normal ∧ t.vlt.devA = 0 ∧ t.vlt.devB = 0 ∧
      (s.vlt.devB = 3 → s.vlt.devA ≠ 3 → t.vlt.b = devCopy s.vlt.a s.vlt.b ∧ t.vlt.a = s.vlt.a) ∧
      (s.vlt.devA = 3 → s.vlt.devB ≠ 3 → t.vlt.a = devCopy s.vlt.b s.vlt.a ∧ t.vlt.b = s.vlt.b) ∧
      t.vlt.img = s.vlt.img ∧ t.vlt.props = s.vlt.props ∧ t.csn = s.csn ∧ t.car = s.car ∧ t.kst = s.kst) ∧
  (∀ (mk y : Bytes) (img : VaultImg) (s : State), live s = true → vaultLive s = true ∨ s.vlt.mode = .single →
    s.gov.pfail = false → commitRuns s = false → alarmA s = false → vaultMacKey s = mk →
    (takesPart s.vlt.devA = true ∧ journalDue mk s.vlt.a = true ∨ takesPart s.vlt.devB = true ∧ journalDue mk s.vlt.b = true) →
    { s.vlt.img with settledEpoch := s.vlt.epoch } = img → jrecBytes mk (jrec .settled 0 img s) = y →
    ∃ t, exec (.vaultSettle) s = .next t ∧ t.vlt.epoch = s.vlt.epoch + 1 ∧ t.bbr.floor = s.vlt.epoch + 1 ∧
      t.csn = s.csn + 1 ∧ t.vlt.img = img ∧
      t.vlt.a = devAppend s.vlt.devA (.written 0) y (settleDev mk s.vlt.devA (upkeepFails s) s.vlt.epoch s.vlt.a) ∧
      t.vlt.b = devAppend s.vlt.devB (.written 0) y (settleDev mk s.vlt.devB (upkeepFails (draw s)) s.vlt.epoch s.vlt.b) ∧
      t.vlt.mode = s.vlt.mode ∧ t.vlt.commitCnt = s.vlt.commitCnt ∧ t.car = s.car ∧ t.kst = s.kst) ∧
  (∀ (n : Nat) (s : State), live s = true → vaultLive s = true ∨ s.vlt.mode = .single → s.gov.pfail = false → n ≤ 100 →
    ∃ t, exec (.vaultScrub n) s = .next t ∧ t.vlt.passPct = n ∧
      t.vlt.passes = (if n = 100 then satInc 16 s.vlt.passes else s.vlt.passes) ∧
      (s.vlt.passPct < 100 → s.vlt.passPct ≤ n → s.now < s.vlt.passAt + passBound s →
        t.vlt.passAt = s.vlt.passAt ∧ (s.vlt.devA = 0 → s.vlt.devB = 2 →
          t.out = s.out ++ (passPages s.vlt.passPct n s.vlt.a).map (fun p => Output.vaultWrite 0 (p.data ++ p.spare)))) ∧
      (s.vlt.passPct = 100 ∨ n < s.vlt.passPct ∨ s.vlt.passAt + passBound s ≤ s.now → t.vlt.passAt = s.now) ∧
      t.vlt.a = blocksFail (upkeepFails s) 0 s.vlt.a ∧ t.vlt.b = blocksFail (upkeepFails (draw s)) 0 s.vlt.b ∧ t.vlt.img = s.vlt.img ∧ t.csn = s.csn ∧
      t.car = s.car ∧ t.kst = s.kst)

/-- R328-R334: a flush command, a due period and a full threshold start a flush from the records then in the buffer; a
flush that both devices take empties the buffer into pages in both, one that fails at a page on a device goes on without
it from there, a SINGLE vault's other device takes none; a cursor write is answered by whole records from the first at or
after it. Choices of the model that it rests on: log entries 4, 56, 105, 106 and 107. -/
def Obligations.EventRecorderFlushesAndReads : Prop :=
  (∀ (p : Port) (s : State), wr p .evr s = true → s.evr.full = false →
    ∃ t, exec (.flush p) s = .next t ∧ t.csn = s.csn + 1 ∧
      t.evr = { (legTouch p s).evr with
        flushing := true, flushAt := s.now, flushTo := (legTouch p s).evr.nextSeq
        flushFrom := if (legTouch p s).evr.flushing then (legTouch p s).evr.flushFrom else s.now } ∧
      t.car = s.car ∧ t.kst = s.kst ∧ t.out = s.out) ∧
  (∀ s : State, evrOpen s = true → s.evr.full = false →
    (s.evr.flushAt + 1000 * s.evr.period ≤ s.now →
      exec .flushPeriodExpiry s = .next { s with evr := { s.evr with
        flushing := true, flushAt := s.now, flushTo := s.evr.nextSeq
        flushFrom := if s.evr.flushing then s.evr.flushFrom else s.now } }) ∧
    (s.evr.flushing = false → 131072 ≤ bufOcc s.evr →
      exec .bufferThresholdFlush s = .next { s with evr := { s.evr with
        flushing := true, flushAt := s.now, flushTo := s.evr.nextSeq, flushFrom := s.now } })) ∧
  (∀ (r : EvRec) (page : Nat) (s : State), evrOpen s = true → s.vlt.mode ≠ .single → s.evr.devs = 3 → s.evr.flushing = true → s.gov.pfail = false →
    s.evr.buf = [r] → r.type ≠ .seal → r.type ≠ .sealSig → r.type ≠ .overflowEnd → seqFrom s.evr.flushTo r.seq = false →
    recLen r ≤ 4096 → s.evr.ovfEndDue = false → s.evr.page % 64 ≠ 0 → s.evr.sealCnt + 1 < 4096 → s.bbr.copied = false →
    s.evr.full = false → (s.evr.page + 1) % 64 ≠ 0 →
    ∃ t, exec (.flushDone true true page) s = .next t ∧ t.evr.buf = [] ∧ t.evr.flushing = false ∧ t.evr.page = s.evr.page + 1 ∧
      t.evr.flushed = s.evr.flushed ++ [(s.evr.page, r)] ∧ t.evr.flushedSeq = r.seq ∧
      t.evr.chain = sha3_256 (chainNow s.evr ++ recBytes r) ∧ t.evr.sinceSeal = s.evr.sinceSeal + 1 ∧
      t.evr.flushCnt = satInc 32 s.evr.flushCnt ∧ t.evr.flushLat = min 0xFFFF (s.now - s.evr.flushFrom) ∧
      t.out = s.out ++ [.eventWrite 0 (eventBlock s.evr.page) (s.evr.page % 64) (pageBytes s.chp.bootCnt [r]),
        .eventWrite 1 (eventBlock s.evr.page) (s.evr.page % 64) (pageBytes s.chp.bootCnt [r])] ∧
      t.csn = s.csn ∧ t.car = s.car ∧ t.kst = s.kst) ∧
  (∀ (page : Nat) (s : State), evrOpen s = true → s.vlt.mode ≠ .single → s.evr.flushing = true → s.evr.devs = 3 →
    exec (.flushDone true true page) s = .next (updEvr (fun e => { e with
      flushing := false, flushCnt := satInc 32 e.flushCnt, flushLat := min 0xFFFF (s.now - e.flushFrom) }) (flushWrite true true s))) ∧
  (∀ (page : Nat) (s : State), evrOpen s = true → s.vlt.mode = .single → s.evr.flushing = true → s.evr.devs = 3 → s.vlt.devA = 0 →
    exec (.flushDone true true page) s = .next (updEvr (fun e => { e with
      flushing := false, flushCnt := satInc 32 e.flushCnt, flushLat := min 0xFFFF (s.now - e.flushFrom) })
      (flushWrite true false s))) ∧
  (∀ (page : Nat) (s : State), evrOpen s = true → s.vlt.mode ≠ .single → s.evr.flushing = true → s.evr.devs = 3 →
    0 < page → page < (flushPlan s).length →
    exec (.flushDone true false page) s = .next (updEvr (fun e => { e with
      flushing := false, flushCnt := satInc 32 e.flushCnt, flushLat := min 0xFFFF (s.now - e.flushFrom) })
      (flushWrite true false (flushFailed 1 (((flushPlan s).getD page []).headD {}).seq (flushPart page true true s))))) ∧
  (∀ (s : State), evrOpen s = true → s.vlt.mode ≠ .single → s.evr.flushing = true → s.evr.devs = 3 → flushPlan s ≠ [] →
    ∃ t, exec (.flushDone false false 0) s = .next t ∧ t.evr.devs = 0 ∧ t.evr.flushing = false ∧
      t.evr.flushed = s.evr.flushed ∧ t.evr.page = s.evr.page ∧ t.evr.flushCnt = satInc 32 s.evr.flushCnt ∧ t.out = s.out) ∧
  (∀ (p : Port) (q : Nat) (s : State), wr p .evr s = true →
    ∃ t, exec (.cursor p q) s = .next t ∧ (t.win.get p).evr.cursor = q % 2 ^ 32 ∧ (t.win.get p).evr.busy = true ∧
      (t.win.get p).evr.winLen = 0 ∧ t.csn = s.csn + 1 ∧ t.evr = (legTouch p s).evr ∧ t.win.get p.other = s.win.get p.other) ∧
  (∀ (p : Port) (s : State), powered s = true → inFault s = false → (s.win.get p).evr.busy = true →
    ∃ t, exec (.eventWindowLoaded p) s = .next t ∧ (t.win.get p).evr.busy = false ∧
      (t.win.get p).evr.window =
        ((windowRecs (fromCursor (s.win.get p).evr.cursor (heldRecs s.evr)) 0).map recBytes).flatten ∧
      (t.win.get p).evr.winLen = (t.win.get p).evr.window.length ∧ (t.win.get p).evr.winLen ≤ 4096 ∧ t.evr = s.evr ∧
      t.csn = s.csn)

/-- R29, R409: entering FAULT takes one CSN, erases every working slot, shadow slot and key-staging entry and the legacy
register, ends debug, keeps what the registers show, and starts a flush; in FAULT a register write is ignored. Choices of
the model that it rests on: log entries 22, 23 and 99. -/
def Obligations.FaultErasesAndStops : Prop :=
  (∀ (cause : Nat) (s : State), tablesOk s = true → faultCause cause = true → powered s = true → inFault s = false →
    ∃ t, exec (.faultEntry cause) s = .next t ∧ t = enterFault cause s ∧ t.chp.mode = .fault ∧ t.chp.faultCause = cause ∧
      tkeys t.kst.slots (fun _ x => x.state != .free) = [] ∧ t.car.shadows = [] ∧
      t.leg.loaded = false ∧ t.leg.key = [] ∧ t.wld.dbg = 0 ∧ t.lcs.granted = 0 ∧ t.rng.waiters = [] ∧
      t.fuses = s.fuses ∧ t.flash = s.flash ∧ t.now = s.now ∧ t.shown.isSome = true ∧
      (s.car.cars = [] → t.csn = s.csn + 1) ∧ (s.evr.full = false → t.evr.flushing = true)) ∧
  (∀ (p : Port) (pasid : Option Nat) (bar : Bar) (off v : Nat) (s : State), s.chp.mode = .fault → bar ≠ .bar4 →
    exec (.registerWrite p pasid ⟨bar, off⟩ (.word v)) s = .next s)

/-- R304-R307, R310: a failed world restarts alone and every debug enable clears; the fifth restart of the secure world
within an hour, a failure during a restart, a restart past 250 ms and an image that does not measure as at boot enter
FAULT; a restart that measures right is counted and the world runs; a debugger halts a world that it may, and the watchdog
stands still until it resumes. Choices of the model that it rests on: log entries 57, 58 and 110. -/
def Obligations.WorldsFailAndRestartAlone : Prop :=
  (∀ (c : Instr) (w : World) (cause : Nat) (s : State), live s = true → s.fwu.activating = false →
    (worldOf s w).state = .running →
    (c = .watchdogExpiry w ∧ cause = 1 ∧ (worldOf s w).kickAt + 1000 * (worldOf s w).wdt ≤ s.now ∨
      c = .worldException w ∧ cause = 2 ∨ c = .monitorCheckFail w ∧ cause = 3) →
    (w = .secure → ((worldOf s w).restarts.filter (fun t => s.now < t + 3600000000)).length < 4) →
    ∃ t, exec c s = .next t ∧ (worldOf t w).state = .restarting ∧ (worldOf t w).cause = cause ∧ (worldOf t w).failAt = s.now ∧ (worldOf t w).wiped = true ∧
      (worldOf t w).restarts = (worldOf s w).restarts.filter (fun t => s.now < t + 3600000000) ++ [s.now] ∧
      (worldOf t w).rstCnt = (worldOf s w).rstCnt ∧ t.wld.dbg = 0 ∧ t.lcs.granted = 0 ∧ t.chp.mode = s.chp.mode ∧
      (w = .secure → (worldOf t w).aborts = (secureRunning s).length + (stopMedia .secure s).length ∧ t.wld.normal = unhalt s.now s.wld.normal) ∧
      (w = .normal → (worldOf t w).aborts = (stopMedia .normal s).length ∧ t.wld.secure = unhalt s.now s.wld.secure)) ∧
  (∀ (c : Instr) (s : State), live s = true → s.fwu.activating = false → s.wld.secure.state = .running →
    4 ≤ (s.wld.secure.restarts.filter (fun t => s.now < t + 3600000000)).length →
    (c = .worldException .secure ∨ c = .monitorCheckFail .secure ∨
      c = .watchdogExpiry .secure ∧ s.wld.secure.kickAt + 1000 * s.wld.secure.wdt ≤ s.now) →
    ∃ t, exec c s = .next t ∧ t.chp.mode = .fault ∧ t.chp.faultCause = 4) ∧
  (∀ (w : World) (s : State), live s = true → (worldOf s w).state = .restarting →
    (s.fwu.activating = false →
      ∃ t, exec (.worldException w) s = .next t ∧ t.chp.mode = .fault ∧ t.chp.faultCause = 7) ∧
    (s.now < (worldOf s w).failAt + 250000 → measureOf w (slotImage s s.fwu.active) = (worldOf s w).meas →
      ∃ t, exec (.restartComplete w) s = .next t ∧
        worldOf t w = { worldOf s w with
          state := .running, wiped := false, kickAt := s.now, rstCnt := satInc 16 (worldOf s w).rstCnt } ∧
        t.csn = s.csn ∧ t.car = s.car ∧ t.kst = s.kst) ∧
    (s.now < (worldOf s w).failAt + 250000 → measureOf w (slotImage s s.fwu.active) ≠ (worldOf s w).meas →
      ∃ t, exec (.restartComplete w) s = .next t ∧ t.chp.mode = .fault ∧
        t.chp.faultCause = (match w with | .secure => 1 | .normal => 2)) ∧
    ((worldOf s w).failAt + 250000 ≤ s.now →
      ∃ t, exec (.restartTimeout w) s = .next t ∧ t.chp.mode = .fault ∧ t.chp.faultCause = 3)) ∧
  (∀ (w : World) (s : State), live s = true →
    ((worldOf s w).state = .running → jtagOffers s .debug = true → bit (dbgEnables s) (invasiveBit w) = true →
      exec (.debugHalt w) s = .next (updWorld w (fun x => { x with state := .halted, haltAt := s.now }) (jtagSelect .debug s))) ∧
    ((worldOf s w).state = .halted →
      exec (.debugResume w) s = .next (updWorld w (fun x => { x with
        state := .running, kickAt := x.kickAt + (s.now - x.haltAt) }) (jtagSelect .debug s))) ∧
    (jtagSelect .debug s = { s with lcs := { s.lcs with jtag := if jtagOffers s .debug then .debug else .bypass } }))

/-- R297, R300-R303: a gate is applied at once where its block is unused, and DEFERRED while a mark is set; it is applied
when the last mark clears and released by work; a request DEFERRED for 500 ms is counted once; a forbidden access is
counted and its address shown; an assignment change after boot lock is recorded and changes nothing else. Choices of the
model that it rests on: log entries 35 and 95. -/
def Obligations.GatesAndBlockedAccesses : Prop :=
  (∀ (b : GateBlock) (s u : State), live s = true → declared b s = u →
    (s.wld.secure.state ≠ .running → u = s) ∧ u = { s with wld := { s.wld with gates := u.wld.gates }, free := u.free } ∧
    (∀ c, c ≠ b → gateOf u c = gateOf s c) ∧ (gateOf u b = { gateOf s b with mark := (gateOf u b).mark }) ∧
    ((gateOf s b).req = false → gateInUse u b = false →
      ∃ t, exec (.gateRequest b) s = .next t ∧ gateOf t b = { gateOf u b with req := true, on := true } ∧
        t = { u with wld := { u.wld with gates := t.wld.gates } } ∧ ∀ c, c ≠ b → gateOf t c = gateOf s c) ∧
    ((gateOf s b).req = false → gateInUse u b = true →
      ∃ t, exec (.gateRequest b) s = .next t ∧
        gateOf t b = { gateOf u b with req := true, deferred := true, since := s.now, late := false } ∧
        t = { u with wld := { u.wld with gates := t.wld.gates } } ∧ ∀ c, c ≠ b → gateOf t c = gateOf s c) ∧
    exec (.ungateRequest b) s = .next (updGate b (fun g => { g with
      req := false, deferred := false, since := 0, late := false, on := false }) s) ∧
    ((gateOf s b).deferred = true → gateInUse u b = false →
      ∃ t, exec (.gateApply b) s = .next t ∧
        gateOf t b = { gateOf u b with deferred := false, since := 0, late := false, on := true } ∧
        t = { u with wld := { u.wld with gates := t.wld.gates } } ∧ ∀ c, c ≠ b → gateOf t c = gateOf s c) ∧
    ((gateOf s b).deferred = true → gateInUse u b = true → exec (.gateApply b) s = .next u) ∧
    ((gateOf s b).on = true → hwMark s b = true →
      exec (.workUngate b) s = .next (updGate b (fun g => { g with req := false, on := false }) s)) ∧
    ((gateOf s b).deferred = true → (gateOf s b).late = false → (gateOf s b).since + 500000 ≤ s.now →
      ∃ t, exec (.gateLate b) s = .next t ∧ gateOf t b = { gateOf s b with late := true } ∧
        t.wld.gateLate = satInc 16 s.wld.gateLate ∧ t.csn = s.csn ∧ t.car = s.car ∧ t.kst = s.kst ∧
        exec (.gateLate b) t = .next t)) ∧
  (∀ (addr : Nat) (write : Bool) (s : State), live s = true → inPort addr = true →
    ∃ t, exec (.blockedAccess addr write) s = .next t ∧ t.wld.secure = s.wld.secure ∧ t.wld.normal = s.wld.normal ∧
      t.csn = s.csn ∧ t.car = s.car ∧ t.kst = s.kst ∧
      ((pageCode (monitorSets addr s) addr = 0 ∨ pageCode (monitorSets addr s) addr = 2 ∨
          pageCode (monitorSets addr s) addr = 3 ∧ write = true) →
        t.wld.violCnt = satInc 16 s.wld.violCnt ∧ t.wld.violAddr = addr ∧
        t.out = (if write then s.out else s.out ++ [.portRead addr 0])) ∧
      (pageCode (monitorSets addr s) addr = 1 ∨ pageCode (monitorSets addr s) addr = 3 ∧ write = false → t = s)) ∧
  (∀ (w : World) (s : State), live s = true → s.wld.assignLock = true →
    ∃ t, exec (.assignmentChangeRefused w) s = .next t ∧ t = { s with evr := t.evr })

/-- R311-R322: a condition that is seen becomes active and raises its alarm, whose response, of 10 µs at most, erases its
class's set: class A the keys, the random chain, the KEK cache and the vault-key shares, and the vault is LOCKED; class B
the keys; class C only records. The data path stops for A and B and runs again by TMP_RESUME after the hold-off. Choices
of the model that it rests on: log entries 49, 50, 51, 78 and 92. -/
def Obligations.AlarmsEraseAndStop : Prop :=
  (∀ (source : Nat) (cls : AlarmClass) (value : Nat) (s : State), isActive s source cls = false →
    (cls = .b → s.tmp.dataStop = false) → s.tmp.resp = none →
    (raise source cls value s).tmp.active = s.tmp.active ++ [{ source := source, cls := cls, at_ := s.now }] ∧
    (raise source cls value s).tmp.resp = if drawn s = 0 then none else some
      { first := s.now, endAt := s.now + min 10 (drawn s)
        notes := [{ source := source, cls := cls, value := value % 2 ^ 32 }] }) ∧
  (∀ (r : AlarmResp) (s : State), tablesOk s = true → s.tmp.resp = some r → s.tmp.light.openAt = none → live s = true →
    r.notes.any (fun n => n.cls == .a) = true →
    (finishResponse s).tmp.resp = none ∧ (finishResponse s).tmp.dataStop = true ∧ (finishResponse s).tmp.vaultLocked = true ∧
    (finishResponse s).tmp.lastClass = 1 ∧ (finishResponse s).tmp.cntA = satInc 8 s.tmp.cntA ∧
    (finishResponse s).bbr.share0 = 0 ∧ (finishResponse s).bbr.share1 = 0 ∧ (finishResponse s).bbr.dseal = 0 ∧
    (finishResponse s).kst.kek = [] ∧ (finishResponse s).rng.state = .stopped ∧ (finishResponse s).rng.tender = [] ∧
    (finishResponse s).leg.loaded = false ∧ (finishResponse s).vlt.mode = .locked ∧ (finishResponse s).vlt.cause = 2 ∧
    tkeys (finishResponse s).kst.slots (fun _ x => x.state != .free) = [] ∧ (finishResponse s).chp.mode = s.chp.mode) ∧
  (∀ (photo : Bool) (s : State), s.chp.inReset = false → (photo = false → powered s = true) → isActive s 1 .a = false →
    s.tmp.light.openAt = none → exec (.lightDetect photo) s = .next (raise 1 .a (noReading s) (updTmp (fun t => { t with
      light := if photo then { openAt := some s.now, pd := true } else { openAt := some s.now, can := true } }) (draw s)))) ∧
  (∀ (photo : Bool) (at_ : Nat) (s : State), s.chp.inReset = false → (photo = false → powered s = true) →
    s.tmp.light.openAt = some at_ → isActive s 1 .a = true →
    (s.now < at_ + 100 →
      exec (.lightDetect photo) s = .next (updTmp (fun t => { t with
        light := if photo then { t.light with pd := true } else { t.light with can := true } }) (raise 1 .a 0 s))) ∧
    (at_ + 100 ≤ s.now → s.tmp.light.done = none →
      exec (.lightDetect photo) s = .next (raise 1 .a 0 (lightEnd s)))) ∧
  (∀ (at_ : Nat) (s : State), s.chp.inReset = false → s.tmp.light.openAt = some at_ → at_ + 100 ≤ s.now →
    s.tmp.light.done = none →
    ∃ t, exec .lightAgreementEnd s = .next t ∧ t.tmp.light = { s.tmp.light with openAt := none, done := none } ∧
      t.tmp.disPd = (if s.tmp.light.pd ∧ ¬ s.tmp.light.can then satInc 16 s.tmp.disPd else s.tmp.disPd) ∧
      t.tmp.disCan = (if s.tmp.light.can ∧ ¬ s.tmp.light.pd then satInc 16 s.tmp.disCan else s.tmp.disCan) ∧
      t = { s with tmp := t.tmp }) ∧
  (∀ (loop r : Nat) (s : State), s.chp.inReset = false → loop < 2 → s.tmp.loopEn.getLsbD loop = true →
    s.tmp.loopAt.getD loop 0 + 1000 ≤ s.now → r ≤ 0xFFFF →
    (200 ≤ r → r ≤ 5000 → ∃ t, exec (.loopMeasure loop r) s = .next t ∧
      (inFault s = false → tget 0 t.tmp.readings (6 + loop) = r % 2 ^ 16) ∧
      t.tmp.active = s.tmp.active ∧ t.tmp.resp = s.tmp.resp ∧ t = { s with tmp := t.tmp }) ∧
    (r < 200 ∨ 5000 < r → exec (.loopMeasure loop r) s = .next (raise (2 + loop) .a (10 * r)
      (sense (6 + loop) (r % 2 ^ 16) (updTmp (fun t => { t with loopAt := t.loopAt.set loop s.now }) s))))) ∧
  (∀ s : State, powered s = true →
    (∀ rail mv, exec (.voltageAlarm rail mv) s = .next (raiseBoth (railSource rail) mv (railB rail mv) (railC rail mv)
      (sense (railSource rail - 4) (mv % 2 ^ 16) s))) ∧
    exec (.clockAlarm .glitch) s = .next (raise 8 .b (noReading s) (draw s)) ∧
    exec (.clockAlarm .absent) s = .next (raise 9 .b (noReading s) (draw s)) ∧
    (∀ ppm, exec (.clockAlarm (.fabric ppm)) s =
      .next (if ppm > 50000 || ppm < -50000 then raise 9 .b (ppm % 2 ^ 32).toNat s else s)) ∧
    (∀ ppm, exec (.clockAlarm (.freq ppm)) s = .next (raiseBoth 9 (ppm % 2 ^ 32).toNat
      (ppm > 50000 || ppm < -50000) (ppm > 10000 || ppm < -10000) (sense 5 (enc16 ppm) s))) ∧
    (∀ x, exec (.temperatureAlarm x) s = .next (raiseBoth 10 (x % 2 ^ 32).toNat (x > 1250 || x < -450) (x > 1100)
      (sense 4 (enc16 x) s)))) ∧
  (∀ (source : Nat) (cls : AlarmClass) (x : ActiveSrc) (s : State), s.chp.inReset = false →
    s.tmp.active.find? (fun x => x.source == source && x.cls == cls) = some x → x.at_ + 1000 ≤ s.now →
    ∃ t, exec (.sourceInactive source cls) s = .next t ∧ isActive t source cls = false ∧
      (cls ≠ .c → t.tmp.lastAB = max s.tmp.lastAB (x.at_ + 1000)) ∧ t = { s with tmp := t.tmp } ∧
      ∀ i k, ¬ (i = source ∧ k = cls) → isActive t i k = isActive s i k) ∧
  (∀ (source : Nat) (s : State), s.chp.inReset = true → (∀ x ∈ s.bbr.active, x.1 = source → x.2 + 1000 ≤ s.bbr.clock) →
    exec (.sourceInactive source .a) s =
      .next { s with bbr := { s.bbr with active := s.bbr.active.filter (fun x => x.1 != source) } }) ∧
  (∀ (p : Port) (s : State), wr p .tmp s = true → s.tmp.dataStop = true →
    (quiet s (1000 * s.tmp.holdoff) = true →
      ∃ t, exec (.tmpResume p) s = .next t ∧ t.tmp = { s.tmp with dataStop := false } ∧ t.csn = s.csn + 1 ∧ t.car = s.car ∧
        t.kst = s.kst) ∧
    (quiet s (1000 * s.tmp.holdoff) = false →
      ∃ t, exec (.tmpResume p) s = .next t ∧ t.tmp = { s.tmp with resumeDeny := satInc 16 s.tmp.resumeDeny } ∧
        t.csn = s.csn)) ∧
  (∀ s : State, live s = true → s.wld.secure.state = .running →
    exec (.tmpSelftest true true) s = .next { s with tmp := { s.tmp with testPd := 1, testCan := 1 } } ∧
    ∀ a b, (a && b) = false → exec (.tmpSelftest a b) s = .next (raise 11 .c (drawn s) (draw { s with tmp := { s.tmp with
      testPd := if a then 1 else 2, testCan := if b then 1 else 2 } }))) ∧
  (∀ (source reading : Nat) (s : State), s.chp.inReset = true →
    (source = 1 ∨ source = 2 ∧ s.bbr.loops.getLsbD 0 = true ∨ source = 3 ∧ s.bbr.loops.getLsbD 1 = true) →
    (∀ x ∈ s.bbr.active, x.1 ≠ source) → s.bbr.buffer.length < 64 → (source = 1 ∨ reading < 2000 ∨ 50000 < reading) →
    ∃ t, exec (.backupAlarm source reading) s = .next t ∧ t.bbr.share0 = 0 ∧ t.bbr.share1 = 0 ∧ t.bbr.dseal = 0 ∧
      t.bbr.buffer.length = s.bbr.buffer.length + 1 ∧ t.bbr.bufSeq = (s.bbr.bufSeq + 1) % 2 ^ 16 ∧
      t.bbr.active = (source, s.bbr.clock) :: s.bbr.active ∧ t.bbr.floor = s.bbr.floor ∧ t = { s with bbr := t.bbr })

/-- R338, R339, R342-R344: a permitted transition burns its codeword into the three fuse copies and waits for PORST_N,
with the vault-key shares zeroised and the vault LOCKED; a right token takes effect once, a used one is refused and a
wrong one counted. A grant request is refused where its scope is, else it asks for a nonce; a response is read and
verified, and a challenge lives 600 s. Choices of the model that it rests on: log entries 28, 29, 93 and 111. -/
def Obligations.LifeCycleAndDebugGrants : Prop :=
  (∀ (target : Nat) (s : State), tapWrites s = true →
    (transPermitted s target = false →
      exec (.trans target 0xC9) s = .next { s with lcs := { s.lcs with transStat := 2, jtag := .lcsWrite } }) ∧
    (transPermitted s target = true → (1 ≤ target → target ≤ 4 → s.lcs.tokenReady = true) → s.gov.pfail = false → s.lcs.burning = false →
      ∃ t, exec (.trans target 0xC9) s = .next t ∧
        t.lcs = { s.lcs with
          burning := true, burnFrom := s.now, pendState := target, transStat := 0, tokenReady := false, jtag := .lcsWrite } ∧
        t.leg.loaded = false ∧ t.leg.key = [] ∧ t.fuses = s.fuses ∧ t.bbr = s.bbr ∧ t.vlt.mode = s.vlt.mode)) ∧
  (∀ s : State, powered s = true → s.lcs.burning = true → s.lcs.burnFrom + 12600 ≤ s.now →
    (s.chp.waitEnv = none ∨ s.lcs.pendState = 0 ∨ 4 < s.lcs.pendState) →
    ∃ t, exec .fuseBurnDone s = .next t ∧ t.fuses = burnCopies s.lcs.pendState s.fuses ∧ t.bbr.share0 = 0 ∧ t.bbr.share1 = 0 ∧
      t.bbr.floor = 0 ∧ t.bbr.dseal = 0 ∧ t.lcs.burning = false ∧ t.lcs.pending = true ∧ t.lcs.transStat = 1 ∧
      (s.lcs.pendState = 0 ∨ 4 < s.lcs.pendState → t.lcs.state = s.lcs.state ∧ t.lcs.unlocked = s.lcs.unlocked) ∧
      (1 ≤ s.lcs.pendState → s.lcs.pendState ≤ 4 → t.lcs.state = lifeOf s.lcs.pendState ∧ t.lcs.unlocked = true) ∧
      t.vlt.mode = .locked ∧ t.vlt.cause = 1) ∧
  (∀ (env : BootEnv) (s : State), powered s = true → s.lcs.burning = true → s.lcs.burnFrom + 12600 ≤ s.now →
    s.chp.waitEnv = some env → s.lcs.state = .raw → s.lcs.pendState = 1 → s.chp.mode ≠ .fault →
    exec .fuseBurnDone s = .next (bootOn env (transEnd s)) ∧ (transEnd s).lcs.state = .test0 ∧ (transEnd s).lcs.unlocked = true) ∧
  (∀ (i : Nat) (token : Bytes) (s : State), tapWrites s = true →
    (s.lcs.state = .raw ∨ (s.lcs.state = .test0 ∧ s.lcs.unlocked = true)) → i < 16 → s.lcs.tokenFails < 8 →
    (s.fuses.tokenUsed.getLsbD i = true →
      exec (.tokenUse i token) s = .next { s with lcs := { s.lcs with transStat := 4, jtag := .lcsWrite } }) ∧
    (s.fuses.tokenUsed.getLsbD i = false → tokenMatches s i token = false →
      exec (.tokenUse i token) s = .next { s with lcs := { s.lcs with tokenFails := s.lcs.tokenFails + 1, jtag := .lcsWrite } }) ∧
    (s.fuses.tokenUsed.getLsbD i = false → tokenMatches s i token = true → s.gov.pfail = false →
      ∃ t, exec (.tokenUse i token) s = .next t ∧ t.lcs = { s.lcs with tokenReady := true, jtag := .lcsWrite } ∧
        t = { s with lcs := t.lcs, fuses := { s.fuses with tokenUsed := s.fuses.tokenUsed ||| (1 <<< i) } })) ∧
  (∀ (p : Port) (scope : Nat) (s : State), wr p .lcs s = true → s.lcs.chal ≠ 2 →
    (s.lcs.pending = true ∨ scopeOk s (scope % 16) = false →
      ∃ t, exec (.dbgGo p scope) s = .next t ∧ t.lcs.chal = 3 ∧ t.lcs.dbgResult = 4 ∧ t.lcs.chalLive = false ∧
        t.csn = s.csn + 1 ∧ t.wld = s.wld ∧ t.car = s.car ∧ t.kst = s.kst) ∧
    (s.lcs.pending = false → scopeOk s (scope % 16) = true → s.rng.state ≠ .failed → s.rng.waiters = [] →
      s.rng.tender.length < 32 →
      ∃ t, exec (.dbgGo p scope) s = .next t ∧ t.lcs.reqScope = scope % 16 ∧ t.lcs.reqPort = p ∧ t.lcs.chalLive = false ∧
        t.rng.waiters.length = 1 ∧ t.csn = s.csn + 1 ∧ t.lcs.granted = s.lcs.granted ∧ t.wld = s.wld ∧ t.kst = s.kst) ∧
    (s.lcs.pending = false → scopeOk s (scope % 16) = true → s.rng.state ≠ .failed → s.rng.waiters = [] →
      32 ≤ s.rng.tender.length →
      ∃ t, exec (.dbgGo p scope) s = .next t ∧ t.lcs.chal = 1 ∧ t.lcs.chalLive = true ∧ t.lcs.chalAt = s.now ∧
        t.lcs.chalBytes.drop 32 = s.rng.tender.take 32 ∧ t.rng.tender = s.rng.tender.drop 32 ∧ t.rng.waiters = [] ∧
        t.csn = s.csn + 1 ∧ t.lcs.granted = s.lcs.granted ∧ t.wld = s.wld ∧ t.kst = s.kst)) ∧
  (∀ (p : Port) (s : State), wr p .lcs s = true → s.lcs.chal ≠ 2 → s.lcs.chalLive = true → chalOver s = false →
    s.lcs.pending = false →
    ∃ t, exec (.respGo p) s = .next t ∧ t.lcs.chal = 2 ∧ t.lcs.chalLive = false ∧ t.lcs.resp = none ∧
      t.lcs.granted = s.lcs.granted ∧ t.csn = s.csn + 1 ∧ t.wld = s.wld ∧ t.kst = s.kst ∧
      ((s.hpt.get s.lcs.reqPort).up = true → (s.stats.get s.lcs.reqPort).reads = [] → ∀ m, mrrsBytes s s.lcs.reqPort = m →
        (readCuts (sigLen / m + 2) m (addr64 s.lcs.respLo s.lcs.respHi) sigLen).length ≤ 768 →
        t.out = s.out ++ (readCuts (sigLen / m + 2) m (addr64 s.lcs.respLo s.lcs.respHi) sigLen).map
          (fun y => Output.dmaRead s.lcs.reqPort none y.1 y.2))) ∧
  (∀ (p : Port) (scope : Nat) (s : State), wr p .lcs s = true → s.lcs.chal = 2 →
    exec (.dbgGo p scope) s = .next (legTouch p (cntWr p s)) ∧ exec (.respGo p) s = .next (legTouch p (cntWr p s))) ∧
  (∀ s : State, powered s = true → s.lcs.chalLive = true → s.lcs.chalAt + 600000000 ≤ s.now →
    exec .challengeExpiry s = .next { s with lcs := { s.lcs with
      chal := 0, chalLive := false, chalExpired := true, chalBytes := zeros 64 } })

/-- R336, R355, R405, R419: BOOT samples the straps and decodes the life-cycle state; in RAW and a locked TEST state it
stops there, in TERMINAL only the ports start; otherwise the boot count advances, and an image that passes R360 starts
with its worlds running and boot lock set, or, where neither slot passes, the device enters firmware recovery. Choices of
the model that it rests on: log entries 29, 52 and 106. -/
def Obligations.BootRunsItsSequence : Prop :=
  ∀ (env : BootEnv) (s : State), s.chp.inReset = true →
    (decodeLife s.fuses = .raw →
      ∃ t, exec (.boot env) s = .next t ∧ t.chp.inReset = false ∧ t.chp.mode = s.chp.mode ∧ t.lcs.state = .raw ∧
        t.chp.waitEnv = some env ∧ t.pins.pfail = env.pfail ∧ t.pins.drbHead = env.drbHead ∧ t.csn = s.csn ∧
        t.bbr = s.bbr ∧ t.hpt = s.hpt) ∧
    (decodeLife s.fuses = .terminal →
      ∃ t, exec (.boot env) s = .next t ∧ t.chp.inReset = false ∧ t.lcs.state = .terminal ∧ t.chp.mode = s.chp.mode ∧
        t.bbr = s.bbr ∧ t.csn = s.csn ∧ t.fuses = s.fuses ∧
        ∀ p, (t.hpt.get p).perst = env.perst.get p ∧ (t.hpt.get p).training = !(env.perst.get p)) ∧
    ((decodeLife s.fuses = .field ∨ decodeLife s.fuses = .mfg ∨ decodeLife s.fuses = .return_) →
      s.bbr.markOk = true → s.bbr.counter < 0xFFFFFF → s.flash.slot0 = [] → s.flash.slot1 = [] → env.memOk = true →
      ∃ t, exec (.boot env) s = .next t ∧ t.chp.mode = .recovery ∧ t.fwu.recovery = true ∧ t.lcs.state = decodeLife s.fuses ∧
        t.bbr.counter = s.bbr.counter + 1 ∧ t.chp.bootCnt = s.fuses.bdEpoch * 2 ^ 24 + (s.bbr.counter + 1) ∧
        t.chp.inReset = false ∧ t.flash = s.flash ∧ t.csn = s.csn ∧ t.mem.trained = true ∧ t.mem.capacity = env.capacity ∧
        ∀ p, (t.hpt.get p).perst = env.perst.get p ∧ (t.hpt.get p).training = !(env.perst.get p)) ∧
    ((decodeLife s.fuses = .field ∨ decodeLife s.fuses = .mfg ∨ decodeLife s.fuses = .return_) → ∀ u,
      fuseBoot { s with
        chp := { s.chp with inReset := false }
        pins := { pfail := env.pfail, haClkmode := env.haClkmode, hbClkmode := env.hbClkmode, drbHead := env.drbHead }
        gov := { s.gov with pfail := env.pfail }
        drb := { s.drb with head := env.drbHead, selIn := env.selIn } } = u →
      (env.pfail = true → epochDue s = true →
        exec (.boot env) s = .next { u with chp := { u.chp with waitEnv := some env } }) ∧
      (env.pfail = false ∨ epochDue s = false → ∀ v, backupBoot { u with chp := { u.chp with waitEnv := none } } = v →
        exec (.boot env) s = .next (startPorts env
          (match pickSlot v with
           | some (n, c) => bootImage env n c v
           | none => bootRecovery env v)))) ∧
    (∀ n c u, (bootImage env n c u).chp.bootLock = true ∧ (bootImage env n c u).wld.assignLock = true ∧
      (bootImage env n c u).wld.secure.state = .running ∧ (bootImage env n c u).wld.normal.state = .running ∧
      (bootImage env n c u).fwu.active = n ∧ (bootImage env n c u).mnf.copy = c.copy ∧
      (bootImage env n c u).chp.mode = (if c.copy = 0 ∨ u.lcs.state = .return_ then .service else .running))

/-- R361-R367: a stage erases the inactive slot and reads its data; a running stage can be aborted, and its data, once it
has come, is written and checked. A due activation stops both worlds and runs the staged image on trial, a confirm-only
one stops nothing; a trial is confirmed by the new secure world, and falls back where a new world fails. Choices of the
model that it rests on: log entries 40, 41, 42 and 96. -/
def Obligations.FirmwareStagesAndActivates : Prop :=
  (∀ (p : Port) (s : State), wr p .fwu s = true → s.fwu.stage ≠ 1 → actPending s = false → s.fwu.trial = false →
    s.fwu.activating = false → s.gov.pfail = false →
    (s.fwu.len ≤ slotLen → 0 < s.fwu.len →
      ∃ t, exec (.stageImage p) s = .next t ∧ t.fwu.stage = 1 ∧ t.fwu.stagePort = p ∧ t.fwu.stageTarget = 0 ∧
        t.fwu.stageLen = s.fwu.len ∧ t.fwu.stageData = none ∧ slotImage t (otherSlot s) = [] ∧
        slotImage t s.fwu.active = slotImage s s.fwu.active ∧ t.csn = s.csn + 1 ∧ t.car = s.car ∧ t.kst = s.kst) ∧
    (s.fwu.len ≤ 65536 → 0 < s.fwu.len →
      ∃ t, exec (.stageManifest p) s = .next t ∧ t.fwu.stage = 1 ∧ t.fwu.stagePort = p ∧ t.fwu.stageTarget = 1 ∧
        t.fwu.stageLen = s.fwu.len ∧ t.fwu.stageData = none ∧ t.flash = s.flash ∧ t.csn = s.csn + 1 ∧ t.car = s.car ∧
        t.kst = s.kst)) ∧
  (∀ (p : Port) (s : State), wr p .fwu s = true → s.fwu.stage = 1 →
    ∃ t, exec (.stageAbort p) s = .next t ∧ t.fwu = { s.fwu with stage := 0, stageResult := 0, stageData := none } ∧
      t.flash = s.flash ∧ t.csn = s.csn + 1 ∧ t.car = s.car ∧ t.kst = s.kst) ∧
  (∀ (d : Bytes) (s : State), live s = true → s.fwu.stage = 1 → s.fwu.stageData = some d → s.gov.pfail = false →
    (s.fwu.stageTarget = 0 → exec (.stageDone true) s = .next (stageImageEnd d s) ∧
      slotImage (stageImageEnd d s) (otherSlot s) = d ∧ (stageImageEnd d s).fwu.stageData = none) ∧
    (s.fwu.stageTarget = 0 → exec (.stageDone false) s = .next (stageEnd 10 s)) ∧
    (s.fwu.stageTarget = 1 → ∀ ok, exec (.stageDone ok) s = .next (stageManifestEnd d ok s)) ∧
    (if (checkManifest (anchorOf s.lcs.state s.lcs.unlocked s.fuses) (fmtMaxNow s) (some d)).fail = 0 then
      (stageManifestEnd d true s).flash.manA = some d ∧ (stageManifestEnd d true s).flash.manB = some d ∧
      (stageManifestEnd d true s).fwu.stage = 2 ∧ (stageManifestEnd d true s).fwu.stageResult = 0
    else
      (stageManifestEnd d true s).flash = s.flash ∧ (stageManifestEnd d true s).fwu.stage = 3 ∧
      (stageManifestEnd d true s).fwu.stageResult = 14)) ∧
  (∀ (mark : Nat) (s : State), live s = true → s.chp.vaultOpen = true → actPending s = true → s.gov.pfail = false →
    s.fwu.firstMark = some mark → ∀ u, seqd (updFwu (fun f => { f with
      actDone := s.vlt.img.activation, firstMark := none, actCnt := satInc 16 f.actCnt }) s) = u →
    (headerDigest (slotImage s s.fwu.active) = sub s.vlt.img.activation 16 48 → s.fwu.activating = false ∨ s.fwu.migrating = false →
      exec (.activationBarrier mark) s = .next (confirmOnly u) ∧ (confirmOnly u).wld = s.wld ∧
        (confirmOnly u).fwu.actResult = 1 ∧ (confirmOnly u).fwu.trial = false) ∧
    (headerDigest (slotImage s s.fwu.active) ≠ sub s.vlt.img.activation 16 48 → s.fwu.activating = false →
      ∃ t, exec (.activationBarrier mark) s = .next t ∧
        if imageCheck s s.mnf.fwCosign (slotImage s (otherSlot s)) = 0 ∧
            headerDigest (slotImage s (otherSlot s)) = sub s.vlt.img.activation 16 48 then
          t = loadNew (otherSlot s) (stopWorlds u)
        else t.fwu.actResult = 2 ∧ t.fwu.active = s.fwu.active ∧ t.flash = s.flash ∧ t.wld.secure.state = .running ∧
          t.wld.normal.state = .running)) ∧
  (∀ s : State, live s = true → s.chp.vaultOpen = true → s.fwu.activating = true → s.gov.pfail = false →
    s.wld.secure.state = .running → s.wld.normal.state = .running → s.fwu.arbAt = none →
    (s.fwu.migrating = false → exec .activationConfirm s = .next (confirm s) ∧ (confirm s).fwu.trial = false ∧
      (confirm s).fwu.activating = false ∧ (confirm s).fwu.actResult = 1) ∧
    (s.fwu.migrating = true → migFree s = true →
      ∃ t, exec .activationConfirm s = .next t ∧
        (progOk (freeProg (draw s)) = true ∧ progOk (freeProg (draw (draw s))) = true →
          t.vlt.epoch = s.vlt.epoch + 1 ∧ t.csn = s.csn + 1 ∧
          (t.fwu.migPct < 100 → t.fwu.activating = true ∧ s.fwu.migPct < t.fwu.migPct)) ∧
        (progOk (freeProg (draw s)) = false ∧ s.vlt.mode = .normal →
          t.vlt.mode = .single ∧ t.vlt.cause = 5 ∧ t.vlt.devA = 2 ∧ t.vlt.epoch = s.vlt.epoch ∧
          t.vlt.img = s.vlt.img ∧ t.fwu.activating = true ∧ t.fwu.migPct = s.fwu.migPct))) ∧
  (∀ (at_ : Nat) (s : State), live s = true → s.fwu.arbAt = some at_ → at_ + 2100 ≤ s.now →
    ∃ t, exec .activationConfirm s = .next t ∧ t.fuses = burnArb (arbCount s.fuses + 1) s.fuses ∧
      (arbCount t.fuses < arbTarget s → t.fwu = { s.fwu with arbDue := true, arbAt := if s.gov.pfail then none else some s.now }) ∧
      (arbTarget s ≤ arbCount t.fuses → t.fwu = { s.fwu with arbDue := false, arbAt := none }) ∧
      t = { s with fuses := t.fuses, fwu := t.fwu }) ∧
  (∀ s : State, live s = true → s.fwu.activating = true →
    (s.wld.secure.state = .failed ∨ s.wld.normal.state = .failed) →
    (s.fwu.migCommits = 0 → s.gov.pfail = false → exec .activationFallback s = .next (fallBack 3 (stopWorlds s)) ∧
      (fallBack 3 (stopWorlds s)).fwu.activating = false ∧ (fallBack 3 (stopWorlds s)).fwu.trial = false ∧
      (fallBack 3 (stopWorlds s)).fwu.actResult = 3 ∧ (fallBack 3 (stopWorlds s)).wld.secure.state = .running ∧
      (fallBack 3 (stopWorlds s)).wld.normal.state = .running ∧
      (fallBack 3 (stopWorlds s)).fwu.fallbacks = satInc 16 s.fwu.fallbacks) ∧
    (0 < s.fwu.migCommits →
      ∃ t, exec .activationFallback s = .next t ∧ t.chp.mode = .fault ∧ t.chp.faultCause = 6))

/-- R371-R375, R378: a unit without an address takes the one offered and answers; DELAY, RELEASE and CLEAR act on a
member; a mark steps device time forward by e, or slews it, and is counted; a member uses its beacon slot and its join
slot, and three missed cycles lose the head. Choices of the model that it rests on: log entries 43, 44 and 45. -/
def Obligations.DrawbarMemberFollowsItsHead : Prop :=
  (∀ (b : Bytes) (x : Frame) (s : State), live s = true → s.drb.head = false → readFrame b = some x → x.src = 1 →
    (x.type = 2 → x.body.length = 4 → x.dest = 0 → s.drb.selIn = true → s.drb.addr = 0 → 2 ≤ fld x.body 0 1 →
      fld x.body 0 1 ≤ 126 →
      ∃ t, exec (.assign b) s = .next t ∧
        t.drb = { s.drb with addr := fld x.body 0 1, selOut := true, joinTry := 0 } ∧
        t.out = s.out ++ [.drawbar (frameBytes 3 1 (fld x.body 0 1)
          (unitId16 ++ natLe 8 s.now ++ natLe 1 (b2n s.drb.timeValid) ++ zeros 3))] ∧
        t = { s with drb := t.drb, out := t.out, evr := t.evr }) ∧
    (x.type = 4 → x.body.length = 4 → s.drb.addr ≠ 0 → x.dest = s.drb.addr →
      exec (.delay b) s = .next { s with drb := { s.drb with delay := fld x.body 0 2 } }) ∧
    (x.type = 7 → x.body.length = 16 → isMe (fld x.body 0 16) = true → s.drb.addr ≠ 0 →
      ∃ t, exec (.release b) s = .next t ∧ t.drb = { s.drb with addr := 0, selOut := false, joinTry := 0 } ∧
        t = { s with drb := t.drb, evr := t.evr }) ∧
    (x.type = 8 → x.body.length = 0 → s.drb.addr ≠ 0 →
      ∃ t, exec (.clear b) s = .next t ∧ t.drb = { s.drb with addr := 0, selOut := false, joinTry := 0 } ∧
        t = { s with drb := t.drb, evr := t.evr }) ∧
    (x.type = 1 → x.body.length = 12 → ∀ e : Int,
      e = (fld x.body 0 8 : Int) + ((s.drb.delay + 500) / 1000 : Nat) - (s.now : Int) →
      ∃ t, exec (.timeReceive b) s = .next t ∧ t.now = s.now + e.toNat ∧ t.drb.timeValid = true ∧
        t.drb.lastE = max (-32768) (min 32767 e) ∧ t.drb.cycle = fld x.body 8 1 ∧ t.drb.cycleAt = t.now ∧
        t.drb.state = (if e ≤ -1 then .slewing else .locked) ∧ t.drb.slewLeft = (-e).toNat ∧
        t.drb.marksRx = satInc 32 s.drb.marksRx ∧ t.drb.sent = false ∧
        t.drb.steps = (if 1 ≤ e then satInc 16 s.drb.steps else s.drb.steps) ∧ t.drb.addr = s.drb.addr ∧
        (s.fwu.firstMark = none → actReady s = true → actTime s ≤ fld x.body 0 8 → t.fwu.firstMark = some (fld x.body 0 8)) ∧
        (s.fwu.firstMark ≠ none ∨ actReady s = false ∨ fld x.body 0 8 < actTime s → t.fwu = s.fwu) ∧
        t = { s with now := t.now, drb := t.drb, evr := t.evr, fwu := t.fwu })) ∧
  (∀ s : State, live s = true → s.drb.state = .slewing → s.drb.slewLeft = 0 →
    exec .slewEnd s = .next { s with drb := { s.drb with state := .locked } }) ∧
  (∀ s : State, live s = true → s.drb.head = false → s.drb.state ≠ .headLost → 3 ≤ missedSince s →
    ∃ t, exec .headLost s = .next t ∧ t.drb = { s.drb with state := .headLost, slewLeft := 0, halfTick := false } ∧
      t = { s with drb := t.drb, evr := t.evr }) ∧
  (∀ s : State, live s = true → s.drb.head = false → (s.drb.state = .locked ∨ s.drb.state = .slewing) → s.drb.sent = false →
    (2 ≤ s.drb.addr → (s.drb.cycle + (s.now - s.drb.cycleAt) / 1000) % 100 = (s.drb.addr - 2) / 2 →
      200 + 100 * ((s.drb.addr - 2) % 2) ≤ (s.now - s.drb.cycleAt) % 1000 →
      (s.now - s.drb.cycleAt) % 1000 < 200 + 100 * ((s.drb.addr - 2) % 2) + 100 →
      exec (.beacon none) s = .next { s with
        drb := { s.drb with sent := true }
        out := s.out ++ [.drawbar (frameBytes 5 1 s.drb.addr (unitId16 ++ natLe 1 (drbCode s.drb.state) ++ zeros 3))] }) ∧
    (s.drb.selIn = true → s.drb.addr = 0 → (s.drb.cycle + (s.now - s.drb.cycleAt) / 1000) % 100 = 99 →
      200 + 40 * joinSlot s.drb.joinTry ≤ (s.now - s.drb.cycleAt) % 1000 →
      (s.now - s.drb.cycleAt) % 1000 < 200 + 40 * joinSlot s.drb.joinTry + 40 →
      exec (.joinReq none) s = .next { s with
        drb := { s.drb with sent := true, joinTry := s.drb.joinTry + 1 }
        out := s.out ++ [.drawbar (frameBytes 6 1 0 unitId16)] }))

/-- R370-R374, R377, R378: a head starts with three CLEARs and an ASSIGN, sends TIME at every millisecond, records the
unit that answers with its delay, keeps its table by the beacons it hears and misses, frees a reservation after an hour,
answers a join request with the lowest free address, and stops driving where another head is heard. Choices of the model
that it rests on: log entries 43, 44, 45 and 104. -/
def Obligations.DrawbarHeadKeepsItsTable : Prop :=
  (∀ s : State, tablesOk s = true → live s = true → s.drb.head = true → s.drb.started = false → s.drb.state ≠ .conflict →
    drbServed s = true →
    ∃ t, exec .headStart s = .next t ∧ t.drb.state = .enumerating ∧ t.drb.addr = 1 ∧ t.drb.selOut = true ∧
      t.drb.started = true ∧ t.drb.offer = some (2, 0, s.now + 200) ∧
      t.out = s.out ++ [.drawbar (frameBytes 8 127 1 [])] ∧
      t.drb.queue = s.drb.queue ++ [(s.now + 100, frameBytes 8 127 1 []), (s.now + 200, frameBytes 8 127 1 []),
        (s.now + 200, frameBytes 2 0 1 (natLe 1 2 ++ zeros 3))] ∧
      (∀ a, 2 ≤ a → a ≤ 126 → (memberOf t a).state ≠ 1) ∧ t = { s with drb := t.drb, out := t.out, evr := t.evr }) ∧
  (∀ (p : Port) (s : State), wr p .drb s = true →
    (s.drb.head = false → exec (.reenum p) s = .next (legTouch p (cntWr p s))) ∧
    (headRuns s = true → s.drb.first = false →
      exec (.reenum p) s = .next (offerNext (updDrb (fun d => { d with state := .enumerating, offer := none, join := none })
        (sendClear (seqd (legTouch p (cntWr p s))))))) ∧
    (headRuns s = true → s.drb.first = true →
      ∃ t, exec (.reenum p) s = .next t ∧ t.drb.offer = some (2, 0, s.now + 200) ∧ t.drb.heard = [] ∧ t.csn = s.csn + 1 ∧
        t.drb.queue = [(s.now + 100, frameBytes 8 127 1 []), (s.now + 200, frameBytes 8 127 1 []),
          (s.now + 200, frameBytes 2 0 1 (natLe 1 2 ++ zeros 3))])) ∧
  (∀ s : State, headRuns s = true → s.drb.first = false →
    (s.now % 1000 = 0 → s.drb.cycleAt < s.now → ∀ m, markBarrier s.now s = m →
      (s.drb.join = none ∨ s.drb.offer ≠ none ∨ drbServed s = false ∨ s.drb.queue ≠ [] →
        exec .time s = .next { s with
          fwu := if standsAlone s then s.fwu else m.fwu
          drb := { s.drb with cycle := s.now / 1000 % 100, cycleAt := s.now, mark := s.now }
          out := s.out ++ [.drawbar (frameBytes 1 127 1 (natLe 8 s.now ++ natLe 1 (s.now / 1000 % 100) ++ zeros 3))] }) ∧
      (∀ a, s.drb.join = some a → s.drb.offer = none → drbServed s = true → s.drb.queue = [] →
        exec .time s = .next { s with
          fwu := if standsAlone s then s.fwu else m.fwu
          drb := { s.drb with
            cycle := s.now / 1000 % 100, cycleAt := s.now, mark := s.now, join := none, offer := some (a, 0, s.now + 20)
            queue := [(s.now + 20, frameBytes 2 0 1 (natLe 1 a ++ zeros 3))] }
          out := s.out ++ [.drawbar (frameBytes 1 127 1 (natLe 8 s.now ++ natLe 1 (s.now / 1000 % 100) ++ zeros 3))] })) ∧
    (∀ a misses at_, s.drb.offer = some (a, misses, at_) → drbServed s = true → at_ + 20 ≤ s.now →
      (misses < 2 → exec .assignTimeout s = .next { s with
        drb := { s.drb with offer := some (a, misses + 1, s.now), join := none }
        out := s.out ++ [.drawbar (frameBytes 2 0 1 (natLe 1 a ++ zeros 3))] }) ∧
      (2 ≤ misses → s.drb.state = .enumerating → exec .assignTimeout s = .next { s with
        drb := { s.drb with state := .locked, offer := none, join := none } }) ∧
      (2 ≤ misses → s.drb.state = .locked → exec .assignTimeout s = .next { s with drb := { s.drb with offer := none } }))) ∧
  (∀ (b : Bytes) (x : Frame) (rho : Nat) (s : State), headRuns s = true → drbServed s = true → readFrame b = some x →
    x.type = 3 → x.body.length = 28 → x.dest = 1 → s.drb.offer.map (·.1) = some x.src → s.drb.first = false →
    s.drb.state = .locked →
    (addrOfId s (fld x.body 0 16) = none → (memberOf s x.src).state ≠ 2 →
      ∃ t, exec (.assignReply b rho) s = .next t ∧
        memberOf t x.src = { state := 1, id := fld x.body 0 16, delay := min 0xFFFF ((rho - 2000) / 2)
                             judged := s.now / 100000 } ∧
        t.drb.offer = none ∧ (∀ a, a ≠ x.src → memberOf t a = memberOf s a) ∧
        t.out = s.out ++ [.drawbar (frameBytes 4 x.src 1 (natLe 2 (min 0xFFFF ((rho - 2000) / 2)) ++ zeros 2))] ∧
        t = { s with drb := t.drb, out := t.out, evr := t.evr }) ∧
    ((addrOfId s (fld x.body 0 16)).any (fun y => (memberOf s y).state == 1) = true ∨
        ((memberOf s x.src).state = 2 ∧ (memberOf s x.src).id ≠ fld x.body 0 16) →
      ∃ t, exec (.assignReply b rho) s = .next t ∧ (∀ a, memberOf t a = memberOf s a) ∧ t.drb.offer = s.drb.offer ∧
        (20 ≤ s.now % 1000 → s.now % 1000 < 180 → t.drb = s.drb ∧
          t.out = s.out ++ [.drawbar (frameBytes 7 127 1 (natLe 16 (fld x.body 0 16)))]) ∧
        (s.now % 1000 < 20 ∨ 180 ≤ s.now % 1000 → t.out = s.out ∧
          t.drb = { s.drb with queue := s.drb.queue ++ [(windowFrom s.now, frameBytes 7 127 1 (natLe 16 (fld x.body 0 16)))] }))) ∧
  (∀ (b : Bytes) (x : Frame) (s : State), headRuns s = true → readFrame b = some x → x.type = 5 → x.body.length = 20 →
    x.dest = 1 → 2 ≤ x.src → x.src ≤ 126 →
    ((memberOf s x.src).state ≠ 0 → (memberOf s x.src).id = fld x.body 0 16 →
      ∃ t, exec (.beacon (some b)) s = .next t ∧
        memberOf t x.src = { memberOf s x.src with state := 1, missed := 0, absentAt := 0, judged := s.now / 100000 } ∧
        (∀ a, a ≠ x.src → memberOf t a = memberOf s a) ∧ t.out = s.out ∧ t.csn = s.csn) ∧
    ((memberOf s x.src).state = 0 ∨ (memberOf s x.src).id ≠ fld x.body 0 16 → s.drb.first = false →
      ∃ t, exec (.beacon (some b)) s = .next t ∧ (∀ a, memberOf t a = memberOf s a) ∧
        (20 ≤ s.now % 1000 → s.now % 1000 < 180 → t.drb = s.drb ∧
          t.out = s.out ++ [.drawbar (frameBytes 7 127 1 (natLe 16 (fld x.body 0 16)))]) ∧
        (s.now % 1000 < 20 ∨ 180 ≤ s.now % 1000 → t.out = s.out ∧
          t.drb.queue = s.drb.queue ++ [(windowFrom s.now, frameBytes 7 127 1 (natLe 16 (fld x.body 0 16)))]))) ∧
  (∀ (a : Nat) (s : State), tablesOk s = true → headRuns s = true →
    (s.drb.first = false → (memberOf s a).state = 1 → slotEnd a ((memberOf s a).judged + 1) ≤ s.now →
      ∃ t, exec (.beaconMiss a) s = .next t ∧
        (memberOf t a).missed = (memberOf s a).missed + 1 ∧ (memberOf t a).judged = (memberOf s a).judged + 1 ∧
        (memberOf t a).state = (if (memberOf s a).missed < 2 then 1 else 2) ∧ (memberOf t a).id = (memberOf s a).id ∧
        ∀ b, b ≠ a → memberOf t b = memberOf s b) ∧
    (drbServed s = true → (memberOf s a).state = 2 → (memberOf s a).absentAt + 3600000000 ≤ s.now →
      ∃ t, exec (.reservationExpiry a) s = .next t ∧ memberOf t a = {} ∧ (∀ b, b ≠ a → memberOf t b = memberOf s b) ∧
        t = { s with drb := t.drb, evr := t.evr })) ∧
  (∀ (b : Bytes) (x : Frame) (s : State), live s = true → s.drb.head = true → s.drb.state ≠ .conflict →
    readFrame b = some x → x.src = 1 →
    ∃ t, exec (.foreignHeadFrame b) s = .next t ∧
      t.drb = { s.drb with state := .conflict, selOut := false, offer := none, join := none, queue := [] } ∧
      t = { s with drb := t.drb, evr := t.evr }) ∧
  (∀ (b : Bytes) (x : Frame) (s : State), headRuns s = true → s.drb.first = false → readFrame b = some x → x.type = 6 →
    x.body.length = 16 → x.src = 0 → s.drb.cycle = 99 →
    (memberAddrs.all (fun a => (memberOf s a).state != 0) = true →
      exec (.joinReq (some b)) s = .next { s with drb := { s.drb with joinRefused := satInc 16 s.drb.joinRefused } }) ∧
    (∀ a, lowestFree s = some a → s.drb.state = .locked → s.drb.join = none → s.drb.offer = none → drbServed s = true →
      addrOfId s (fld x.body 0 16) = none →
      exec (.joinReq (some b)) s = .next { s with drb := { s.drb with join := some a } }))

/-- R381-R384: a line that fails is counted by its kind and region, a ring context's sets its ring to ERROR with code 6,
and every other leaves a record; in Dormant a line of the image makes its check fail; retraining is counted, and a boot
with unfit packages enters FAULT once a port is host-ready. R387-R391: each interval reads the power, takes the mean of
the last 1 ms, and every region moves by at most one step, none while a regulator is silent; an average above the cap
lowers the cap step, and a hot sensor the thermal step, at most once in 10 ms. Choices of the model that it rests on: log
entries 46, 47, 94, 105, 108 and 109. -/
def Obligations.MemoryAndGovernorFollowReadings : Prop :=
  (∀ (line : Nat) (mac : Bool) (s : State), live s = true → memRegion line ≠ .none → memRegion line ≠ .dormant →
    (mac = true → hasMac (memRegion line) = true) →
    (memRegion line = .rings → isCached s line = false ∧ isPinned (ringOf s line) = false) →
    ∃ t, exec (.memLineError line mac) s = .next t ∧ t.mem = (countMemError (memRegion line) mac s).mem ∧
      (mac = false → t.mem.ueCnt = satInc 16 s.mem.ueCnt) ∧
      (mac = true → memRegion line = .vault → t.mem.macVw = satInc 8 s.mem.macVw) ∧
      (memRegion line = .vault → t.vlt.reload = true) ∧
      (memRegion line = .rings → t = ringError line 0x06 (countMemError .rings mac s)) ∧
      t.fuses = s.fuses ∧ t.now = s.now) ∧
  (∀ (line : Nat) (s : State), s.gov.dormant = true → s.chp.inReset = false → memRegion line = .dormant →
    ∃ t, exec (.memLineError line false) s = .next t ∧ t.kst = { s.kst with image := [] } ∧
      t.mem.ueCnt = satInc 16 s.mem.ueCnt ∧ t.fuses = s.fuses ∧ t.now = s.now) ∧
  (∀ (ch : Nat) (s : State), live s = true → s.mem.trained = true → ch < 16 →
    exec (.memRetrain ch) s = .next { s with mem := { s.mem with retrainCnt := satInc 32 s.mem.retrainCnt } }) ∧
  (∀ (line : Nat) (mac : Bool) (s : State), memRegion line = .rings → isCached s line = true ∨ isPinned (ringOf s line) = true →
    exec (.memLineError line mac) s = .next s) ∧
  (∀ s : State, powered s = true → inFault s = false → s.mem.cfgErr = true → ((s.hpt.get .a).ready = true ∨ (s.hpt.get .b).ready = true) →
    ∃ t, exec .memConfigFault s = .next t ∧ t.chp.mode = .fault ∧ t.chp.faultCause = 0x10000) ∧
  (∀ (power : Nat) (proj : List Nat) (rs : List GovReading) (s : State), tablesOk s = true → live s = true →
    s.gov.intervalAt + 100 ≤ s.now →
    ∀ l mean, (power :: s.gov.powers).take 10 = l → l.sum / l.length = mean →
    ∃ t, exec (.govInterval power proj rs) s = .next t ∧ t.gov.intervalAt = s.now ∧ t.gov.powers = l ∧
      t.gov.power = mean % 2 ^ 16 ∧ t.gov.powerMax = max s.gov.powerMax (mean % 2 ^ 16) ∧ t.csn = s.csn ∧ t.car = s.car ∧ t.kst = s.kst ∧
      (100 * s.gov.pwrCap < mean → t.gov.capStep ≤ s.gov.capStep - 1) ∧
      (∀ r, r < 4 → (govOf t r).step ≤ (govOf s r).step + 1 ∧ (govOf s r).step ≤ (govOf t r).step + 1 ∧
        (s.gov.avsHold = true → (govOf t r).step = (govOf s r).step) ∧
        (govOf t r).busy = min 100 (rs.getD r {}).busy)) ∧
  (∀ (x : Int) (s : State), live s = true →
    ∃ t, exec (.thermalStep x) s = .next t ∧
      t.gov.thermStep = (if 1000 ≤ x then (if s.gov.thermAt + 10000 ≤ s.now then s.gov.thermStep - 1 else s.gov.thermStep)
        else if 950 ≤ x then s.gov.thermStep
        else if s.gov.thermStep < 7 ∧ s.gov.warmAt + 100000 ≤ s.now then s.gov.thermStep + 1 else s.gov.thermStep) ∧
      t = { s with gov := t.gov, tmp := t.tmp }) ∧
  (∀ s : State, live s = true → s.gov.avsHold = false →
    (s.gov.clampRecAt.all (fun t => t + 1000000 ≤ s.now) = true →
      ∃ t, exec .avsTimeout s = .next t ∧ t.gov = { s.gov with avsHold := true, clampRecAt := some s.now } ∧
        t = { s with gov := t.gov, evr := t.evr }) ∧
    (∀ at_, s.gov.clampRecAt = some at_ → s.now < at_ + 1000000 →
      exec .avsTimeout s = .next { s with gov := { s.gov with avsHold := true } })) ∧
  (∀ (r n : Nat) (s : State), tablesOk s = true → s.gov.avsHold = false →
    ((govOf s r).step < n → (stepTo r n s).out = s.out ++ [.avs r (railOf n), .clock r n]) ∧
    (n < (govOf s r).step → (stepTo r n s).out = s.out ++ [.clock r n, .avs r (railOf n)]) ∧
    (n ≠ (govOf s r).step → (govOf (stepTo r n s) r).step = n ∧ (govOf (stepTo r n s) r).rail = railOf n))

/-- R26, R210, R392-R397: a Dormant request is judged when it is made; both links down, the slots are sealed with the CSN,
erased, and the core is gated; PERST wakes it with the CSN as it was and the slots of the image where its check under the
seal value passes, and with none where it does not. PFAIL_N sends every region to step 0, starts a flush and ends a
request; VDD_AON goes over to VBAT and back. Choices of the model that it rests on: log entries 48, 103 and 112. -/
def Obligations.DormantAndSupplyKeepWhatTheyMust : Prop :=
  (∀ (p : Port) (key : Nat) (s : State), wr p .gov s = true →
    (key % 256 ≠ 0x5D → exec (.govDorm p key) s = .next (legTouch p (cntWr p s))) ∧
    (key % 256 = 0x5D → dormRefusal s ≠ 0 →
      ∃ t, exec (.govDorm p key) s = .next t ∧ t.gov = { s.gov with dormCause := dormRefusal s } ∧ t.csn = s.csn + 1) ∧
    (key % 256 = 0x5D → dormRefusal s = 0 → s.gov.dormReady = false →
      ∃ t, exec (.govDorm p key) s = .next t ∧ t.gov = { s.gov with dormReady := true, dormAt := s.now } ∧
        t.csn = s.csn + 1 ∧ t.car = s.car ∧ t.kst = s.kst)) ∧
  (∀ s : State, live s = true → s.gov.dormReady = true → s.gov.dormAt + 10000000 ≤ s.now →
    exec .dormantLapse s = .next { s with gov := { s.gov with dormReady := false, dormCause := 6 } }) ∧
  (∀ s : State, tablesOk s = true → live s = true → s.gov.dormReady = true → (s.hpt.get .a).up = false →
    (s.hpt.get .b).up = false → s.gov.pfail = false → s.now < s.gov.dormAt + 10000000 →
    ∃ t, exec .dormantEntry s = .next t ∧ t.gov.dormant = true ∧ t.gov.dormReady = false ∧ t.mem.selfRefresh = true ∧
      t.rng.state = .stopped ∧ t.rng.tender = [] ∧ t.kst.kek = [] ∧ t.leg.loaded = false ∧ t.drb.selOut = false ∧
      tkeys t.kst.slots (fun _ x => x.state != .free) = [] ∧ t.kst.sealedCsn = t.csn ∧
      ((∀ i, (slotOf s i).session = false) → s.ucp.holder = none → openProps s = [] → t.kst.image = imageSeal t.bbr.dseal
        ((tkeys s.kst.slots (fun _ x => x.state != .free)).map (fun i => (i, { slotOf s i with use := 0 })))) ∧
      t.wld.dbg = 0 ∧ t.now = s.now ∧ t.chp.mode = s.chp.mode) ∧
  (∀ (p : Port) (c : Instr) (s : State), (c = .wakeFromDormant p ∨ c = .perstDeassert p) → s.chp.inReset = false →
    s.gov.dormant = true → (s.hpt.get p).perst = true →
    (∃ t, exec c s = .next t ∧ t.gov.dormant = false ∧ t.gov.wakes = satInc 16 s.gov.wakes ∧ t.chp.woke = true ∧
      t.mem.selfRefresh = false ∧ (t.hpt.get p).perst = false ∧ (t.hpt.get p).training = true ∧ t.bbr.dseal = 0 ∧
      t.kst.image = [] ∧ t.rng.state = .starting ∧ t.now = s.now ∧
      (s.chp.mode ≠ .fault → openProps s = [] → t.csn = s.kst.sealedCsn + 1)) ∧
    (openProps s = [] → imageOpen s.bbr.dseal s.kst.image = none →
      ∃ t, exec c s = .next t ∧ ∀ i, slotOf t i = slotOf s i) ∧
    (∀ i x, openProps s = [] → imageOpen s.bbr.dseal s.kst.image = some [(i, x)] → x.state = .live →
      ∃ t, exec c s = .next t ∧ (slotOf t i).state = .live ∧ (slotOf t i).gen = x.gen ∧
        (slotOf t i).share0 ^^^ (slotOf t i).share1 = x.share0 ^^^ x.share1)) ∧
  (∀ s : State, tablesOk s = true → s.chp.inReset = false → s.gov.pfail = false →
    ∃ t, exec .pfailAssert s = .next t ∧ t.gov.pfail = true ∧ t.pins.pfail = true ∧ t.csn = s.csn ∧ t.car = s.car ∧
      (live s = true → ∀ r, r < 4 → (govOf t r).step = 0) ∧
      (evrOpen s = true → s.evr.full = false → t.evr.flushing = true ∧ t.evr.flushAt = s.now) ∧
      (s.gov.dormReady = true → t.gov.dormReady = false ∧ t.gov.dormCause = 5)) ∧
  (∀ s u : State, s.chp.inReset = false → s.gov.pfail = true →
    { s with gov := { s.gov with pfail := false }, pins := { s.pins with pfail := false } } = u →
    (s.chp.waitEnv = none → exec .pfailDeassert s = .next u) ∧
    (∀ env, s.chp.waitEnv = some env → bootStops s = false → s.chp.mode ≠ .fault →
      exec .pfailDeassert s = .next (bootRest env { u with chp := { u.chp with waitEnv := none } }))) ∧
  (∀ s : State,
    (s.bbr.onVbat = false → exec (.vddAonSwitch true) s = .next s) ∧
    (s.bbr.onVbat = true → ∃ t, exec (.vddAonSwitch true) s = .next t ∧
      t.bbr = { s.bbr with onVbat := false, markOk := t.bbr.markOk } ∧ (s.bbr.markOk = false → t.bbr.markOk = false) ∧
      t = { s with bbr := t.bbr, free := t.free }) ∧
    (s.bbr.onVbat = false → ∃ t, exec (.vddAonSwitch false) s = .next t ∧ t.bbr.onVbat = true ∧ t.bbr.aon = 0 ∧
      t.bbr.share0 = s.bbr.share0 ∧ t.bbr.share1 = s.bbr.share1 ∧ t.bbr.dseal = s.bbr.dseal ∧ t.bbr.floor = s.bbr.floor ∧
      t.bbr.buffer = s.bbr.buffer ∧ t.bbr.counter = s.bbr.counter ∧ t = { s with bbr := t.bbr }))

/-- R47-R49, R64-R67: a port's link comes up as trained and the port becomes host-ready; every loss event releases the
port's turntables, ends its carriages without a completion, returns its registers to reset and is counted with its cause;
a Function Level Reset alone leaves the link up. R49: configuration requests wait for host-ready. R51-R53, R399, R400: a
host read's data is used, a failed one is counted and ends its use, and a request that is turned away is counted. Choices
of the model that it rests on: log entries 25, 26, 27, 33, 72, 75 and 80. -/
def Obligations.PortsTrainAreLostAndReturn : Prop :=
  (∀ (p : Port) (flit : Bool) (w v : Nat) (s : State), powered s = true → (s.hpt.get p).training = true →
    (s.hpt.get p).perst = false → (s.hpt.get p).up = false → trainsTo flit w v = true →
    exec (.hostLinkDlUp p flit w v) s = .next (updHpt p (fun h => { h with
      up := true, training := false, flit := flit, width := w, speed := v, dlUpAt := s.now }) s)) ∧
  (∀ (p : Port) (s : State), powered s = true → (s.hpt.get p).up = true → (s.hpt.get p).ready = false →
    bootDone s = true → s.lcs.burning = false →
    ((s.hpt.get p).lossCnt = 0 →
      exec (.hostReady p) s = .next (updHpt p (fun h => { h with ready := true }) s)) ∧
    (0 < (s.hpt.get p).lossCnt → inFault s = false →
      ∃ t, exec (.hostReady p) s = .next t ∧ (t.hpt.get p).ready = true ∧ t.csn = s.csn + 1 ∧
        ((s.hpt.get p.other).ready = true → (t.hpt.get p.other).intStat.getLsbD 4 = true))) ∧
  (∀ (p : Port) (s : State), s.chp.inReset = false → s.gov.dormant = false → (s.hpt.get p).perst = true →
    s.chp.waitEnv = none →
    exec (.perstDeassert p) s = .next (emit (.link p 1) (updHpt p (fun h => { h with perst := false, training := true }) s))) ∧
  (∀ (c : Instr) (p : Port) (cause : LossCause) (s : State), powered s = true → (s.hpt.get p).up = true →
    (c = .linkDown p ∧ cause = .dlDown ∨ c = .hotReset p ∧ cause = .hotReset ∨ c = .linkDisable p ∧ cause = .linkDisable ∨
      c = .flr p ∧ cause = .flr ∨
      c = .perstAssert p ∧ cause = .perst ∧ (s.hpt.get p).perst = false ∧ s.chp.waitEnv = none) →
    exec c s = .next (portLoss p cause s)) ∧
  (∀ (p : Port) (s : State), s.chp.inReset = false → (s.hpt.get p).perst = false → s.gov.dormant = true →
    ∃ t, exec (.perstAssert p) s = .next t ∧ (t.hpt.get p).perst = true ∧ (t.hpt.get p).lossCause = .perst ∧
      (t.hpt.get p).lossCnt = satInc 16 (s.hpt.get p).lossCnt ∧ (t.hpt.get p).ready = false ∧ (t.win.get p) = {} ∧
      (t.stats.get p) = {} ∧ t.hpt.get p.other = s.hpt.get p.other ∧ t.csn = s.csn ∧ t.car = s.car ∧ t.kst = s.kst) ∧
  (∀ (p : Port) (cause : LossCause) (s : State), tablesOk s = true → inFault s = false →
    ((portLoss p cause s).hpt.get p).ready = false ∧ ((portLoss p cause s).hpt.get p).lossCause = cause ∧
    ((portLoss p cause s).hpt.get p).lossCnt = satInc 16 (s.hpt.get p).lossCnt ∧
    (cause ≠ .flr → ((portLoss p cause s).hpt.get p).up = false) ∧
    (cause = .flr → ((portLoss p cause s).hpt.get p).up = (s.hpt.get p).up) ∧
    (∀ n, (tableOf (portLoss p cause s) n).holder ≠ some p) ∧ portCarrs p (portLoss p cause s) = [] ∧
    (portLoss p cause s).win.get p = {} ∧ (portLoss p cause s).stats.get p = {} ∧ (portLoss p cause s).wld.dbg = 0 ∧
    s.csn + 3 ≤ (portLoss p cause s).csn ∧ (portLoss p cause s).now = s.now) ∧
  (∀ (p : Port) (off : Nat) (s : State), powered s = true → (s.hpt.get p).up = true → off % 4 = 0 → off < 4096 →
    ((s.hpt.get p).ready = false → ∀ w, exec (.configRequest p off w) s = .next (emit (.config p none) s)) ∧
    ((s.hpt.get p).ready = true →
      exec (.configRequest p off none) s = .next (emit (.config p (some (readCfg s p off))) s) ∧
      ∀ v, exec (.configRequest p off (some v)) s =
        .next (emit (.config p (some 0)) (writeCfg p off (v % 2 ^ 32) s)))) ∧
  (∀ (what : DmaRead) (j : ReadJob) (s : State), readJob s what = some j → powered s = true → inFault s = false →
    (∀ data, (s.hpt.get j.port).up = true → readWaits what j.port s = false → data.length = j.len →
      exec (.hostDmaReadDone what data) s = .next (land what data (readOver what j true s))) ∧
    (speculative s what = false →
      exec (.dmaReadError what) s = .next (landError what (badRead j.port (readOver what j false s)))) ∧
    (held (s.hpt.get j.port) = false →
      ((badRead j.port s).hpt.get j.port).dmaErrCnt = satInc 32 (s.hpt.get j.port).dmaErrCnt)) ∧
  (∀ (sq pos : Nat) (j : ReadJob) (s : State), readJob s (.descriptor sq pos) = some j → powered s = true → inFault s = false →
    (tget {} (ringOf s sq).copies pos).final = false →
    exec (.dmaReadError (.descriptor sq pos)) s = .next (updRing sq (fun r => { r with copies := tdel r.copies pos })
      (readOver (.descriptor sq pos) j false s))) ∧
  (∀ (data : Bytes) (s : State), powered s = true → inFault s = false → s.fwu.stage = 1 → s.fwu.stageData = none →
    (s.hpt.get s.fwu.stagePort).up = true → readWaits .stage s.fwu.stagePort s = false → data.length = s.fwu.stageLen →
    ∃ t, exec (.hostDmaReadDone .stage data) s = .next t ∧ t.fwu = { s.fwu with stageData := some data } ∧ t.csn = s.csn ∧
      t.flash = s.flash ∧ t.car = s.car) ∧
  (∀ (p : Port) (q : Option Nat) (bar : Bar) (off : Nat) (s : State), reach p s = true → inFault s = false →
    accepts p q bar off s = false →
    (reservedAt bar off = false →
      exec (.accessDiscard p ⟨q, ⟨bar, off⟩, true⟩) s = .next (emit (.answer p 0) (updHpt p (fun h => { h with
        discardCnt := satInc 32 h.discardCnt }) s)) ∧
      exec (.accessDiscard p ⟨q, ⟨bar, off⟩, false⟩) s = .next (updHpt p (fun h => { h with
        discardCnt := satInc 32 h.discardCnt }) s)) ∧
    (reservedAt bar off = true →
      exec (.accessDiscard p ⟨q, ⟨bar, off⟩, true⟩) s = .next (emit (.answer p 0) s) ∧
      exec (.accessDiscard p ⟨q, ⟨bar, off⟩, false⟩) s = .next s)) ∧
  (∀ (p : Port) (s : State), reach p s = true → inFault s = false →
    exec (.requestTooLong p true) s = .next (emit (.answer p 0) (updHpt p (fun h => { h with
      sizeErrCnt := satInc 32 h.sizeErrCnt }) s)) ∧
    exec (.requestTooLong p false) s = .next (updHpt p (fun h => { h with sizeErrCnt := satInc 32 h.sizeErrCnt }) s)) ∧
  (∀ (p : Port) (bar : Bar) (off : Nat) (s : State), wr p .chp s = true → bar ≠ .bar4 →
    (reservedAt bar off = true → exec (.partialWrite p ⟨bar, off⟩) s = .next (if bar = .bar0 then legTouch p s else s)) ∧
    (reservedAt bar off = false → ∃ t, exec (.partialWrite p ⟨bar, off⟩) s = .next t ∧ t.hpt = s.hpt.upd p (fun h => { h with
        sizeErrCnt := satInc 32 h.sizeErrCnt }) ∧
      (t.stats.get p).regWr = satInc 32 (s.stats.get p).regWr ∧ t.csn = s.csn ∧ t.car = s.car ∧ t.kst = s.kst)) ∧
  (∀ (p : Port) (cause : LossCause) (s : State), inFault s = true →
    (portLoss p cause s).win.get p = {} ∧ (portLoss p cause s).stats.get p = {} ∧ (portLoss p cause s).csn = s.csn)

/-- R6, R25, R30, R31, R57, R274, R401-R404, R408: a read returns the register at its read point; one that clears takes a
CSN; a read of a _LO half latches the _HI half for its port. A write takes a CSN only where it changes state; one out of
its range, one without the turntable that guards it, and one of the utility cipher's commands without its lock are counted
and change nothing else, as are those of a requester that the location does not accept; causes of HPT_INT_STAT are cleared
by ones. Choices of the model that it rests on: log entries 24, 32, 69, 73 and 75. -/
def Obligations.RegistersReadAndStore : Prop :=
  (∀ (p : Port) (s : State), reach p s = true → s.lcs.state ≠ .terminal → inFault s = false →
    (∃ t, exec (.latchedLoRead p 0x40) s = .next t ∧ t.out = s.out ++ [.answer p (s.csn % 2 ^ 32)] ∧
      (t.win.get p).lat64 = { (s.win.get p).lat64 with csnHi := s.csn / 2 ^ 32 % 2 ^ 32 } ∧ t.csn = s.csn) ∧
    (∃ t, exec (.latchedLoRead p 0x50) s = .next t ∧ t.out = s.out ++ [.answer p (s.now % 2 ^ 32)] ∧
      (t.win.get p).lat64 = { (s.win.get p).lat64 with timeHi := s.now / 2 ^ 32 % 2 ^ 32 } ∧ t.csn = s.csn) ∧
    (∃ t, exec (.rcRead p none (.word ⟨.bar0, 0x44⟩)) s = .next t ∧ t.out = s.out ++ [.answer p (s.win.get p).lat64.csnHi] ∧
      t.csn = s.csn)) ∧
  (∀ (p : Port) (s : State), wr p .hpt s = true →
    (∃ t, exec (.rcRead p none (.word ⟨.bar0, 0x2018⟩)) s = .next t ∧ t.out = s.out ++ [.answer p (s.hpt.get p).guardCnt] ∧
      t.hpt = s.hpt.upd p (fun h => { h with guardCnt := 0 }) ∧ t.csn = s.csn + 1 ∧ t.car = s.car ∧ t.kst = s.kst) ∧
    (∃ t, exec (.rcRead p none (.word ⟨.bar0, 0x2020⟩)) s = .next t ∧ t.out = s.out ++ [.answer p (s.hpt.get p).intStat.toNat] ∧
      t.hpt = s.hpt ∧ t.csn = s.csn) ∧
    (∀ v, ∃ t, exec (.hptIntStatClear p v) s = .next t ∧
      (t.hpt.get p).intStat = (s.hpt.get p).intStat &&& ~~~(BitVec.ofNat 32 v) ∧
      t.csn = (if (s.hpt.get p).intStat &&& BitVec.ofNat 32 v = 0 then s.csn else s.csn + 1) ∧
      t.hpt.get p.other = s.hpt.get p.other ∧ t.car = s.car ∧ t.kst = s.kst ∧ t.out = s.out) ∧
    (∀ v, ∃ t, exec (.registerWrite p none ⟨.bar0, 0x2024⟩ (.word v)) s = .next t ∧ (t.hpt.get p).intEn = BitVec.ofNat 32 v ∧
      t.csn = (if (s.hpt.get p).intEn = BitVec.ofNat 32 v then s.csn else s.csn + 1) ∧ t.out = s.out)) ∧
  (∀ (p : Port) (v : Nat) (s : State), wr p .mdf s = true →
    (∃ t, exec (.registerWrite p none ⟨.bar0, 0x60008⟩ (.word v)) s = .next t ∧
      t.mdf = { s.mdf with idlePark := clamp 10 1000000 (bits (v % 2 ^ 32) 0 20) } ∧
      t.csn = (if s.mdf.idlePark = clamp 10 1000000 (bits (v % 2 ^ 32) 0 20) then s.csn else s.csn + 1) ∧ t.hpt = s.hpt ∧
      t.car = s.car ∧ t.kst = s.kst) ∧
    (holds p 3 s = true → ∃ t, exec (.registerWrite p none ⟨.bar0, 0x60000⟩ (.word v)) s = .next t ∧
      t.mdf = { s.mdf with laneBudget := clamp 16 192 (bits (v % 2 ^ 32) 0 8) } ∧
      t.csn = (if s.mdf.laneBudget = clamp 16 192 (bits (v % 2 ^ 32) 0 8) then s.csn else s.csn + 1)) ∧
    (holds p 3 s = false → exec (.registerWrite p none ⟨.bar0, 0x60000⟩ (.word v)) s = .next (guardErr p (legTouch p (cntWr p s))))) ∧
  (∀ (p : Port) (v : Nat) (s : State), wr p .car s = true →
    (bits (v % 2 ^ 32) 0 16 ≤ 60000 → ∃ t, exec (.registerWrite p none ⟨.bar0, 0x10050⟩ (.word v)) s = .next t ∧
      t.car = { s.car with brakeAlert := bits (v % 2 ^ 32) 0 16 } ∧
      t.csn = (if s.car.brakeAlert = bits (v % 2 ^ 32) 0 16 then s.csn else s.csn + 1)) ∧
    (60000 < bits (v % 2 ^ 32) 0 16 →
      exec (.registerWrite p none ⟨.bar0, 0x10050⟩ (.word v)) s = .next (rangeErr p (legTouch p (cntWr p s))))) ∧
  (∀ (p : Port) (v : Nat) (s : State), wr p .ucp s = true →
    (s.ucp.holder ≠ some (.port p) → ∃ t, exec (.registerWrite p none ⟨.bar0, 0x110010⟩ (.word v)) s = .next t ∧
      t.ucp = { s.ucp with denyCnt := satInc 16 s.ucp.denyCnt } ∧ t.csn = s.csn) ∧
    (s.ucp.holder = some (.port p) → ∃ t, exec (.registerWrite p none ⟨.bar0, 0x110010⟩ (.word v)) s = .next t ∧
      t.ucp = { s.ucp with op := bits (v % 2 ^ 32) 0 4 } ∧ t.car = s.car)) ∧
  (∀ (p : Port) (q : Option Nat) (bar : Bar) (off v : Nat) (s : State), reach p s = true → inFault s = false → off % 4 = 0 →
    accepts p q bar off s = false → reservedAt bar off = false →
    exec (.registerWrite p q ⟨bar, off⟩ (.word v)) s = .next (updHpt p (fun h => { h with discardCnt := satInc 32 h.discardCnt }) s) ∧
    exec (.rcRead p q (.word ⟨bar, off⟩)) s = .next (emit (.answer p 0) (updHpt p (fun h => { h with
      discardCnt := satInc 32 h.discardCnt }) s))) ∧
  (∀ (p : Port) (q : Option Nat) (bar : Bar) (off : Nat) (x y : Bytes) (s : State), bar ≠ .bar4 → off % 4 = 0 → x.length = 4 →
    y.length = 4 →
    exec (.registerWrite p q ⟨bar, off⟩ (.bytes ((x ++ y).map some))) s =
      (match exec (.registerWrite p q ⟨bar, off⟩ (.word (leNat x))) s with
       | .next t => exec (.registerWrite p q ⟨bar, off + 4⟩ (.word (leNat y))) t
       | r => r))
end

