-- ==== Sys2Proof/Laws/Accesses.lean ====
section
/-! SUPPORT. What a request of one register is, and how accesses made in turn compose (R399, R400). -/
namespace Sys2Proof.Machine

/-- A write of one register is its one access. -/
@[simp] theorem execRegisterWrite_word (p : Port) (q : Option Nat) (x : BarPlace) (v : Nat) (s : State) :
    execRegisterWrite p q x (.word v) s = writeWord p q x.bar x.off v s := rfl

/-- A read of one register is its one access. -/
@[simp] theorem execRcRead_word (p : Port) (q : Option Nat) (x : BarPlace) (s : State) :
    execRcRead p q (.word x) s = readWord p q x.bar x.off s := rfl

/-- No access is left to make. -/
@[simp] theorem inTurn_nil {α : Type} (f : α → State → Res) (s : State) : inTurn f [] s = .next s := rfl

/-- Where the first access goes on, the others act on the state it leaves. -/
theorem inTurn_cons_next {α : Type} {f : α → State → Res} {x : α} {xs : List α} {s t : State} (h : f x s = .next t) :
    inTurn f (x :: xs) s = inTurn f xs t := by
  rw [inTurn, h]

/-- One access made in turn is that access. -/
theorem inTurn_one {α : Type} (f : α → State → Res) (x : α) (s : State) : inTurn f [x] s = f x s := by
  rw [inTurn]
  split
  · rename_i h
    exact h.symm
  · rfl

/-- Accesses of which each goes on make a step that goes on. -/
theorem inTurn_next {α : Type} {f : α → State → Res} (hf : ∀ x s, ∃ t, f x s = .next t) (l : List α) (s : State) :
    ∃ t, inTurn f l s = .next t := by
  induction l generalizing s with
  | nil => exact ⟨s, rfl⟩
  | cons x l ih =>
    obtain ⟨t, e⟩ := hf x s
    rw [inTurn_cons_next e]
    exact ih t

end Sys2Proof.Machine
end

