-- ==== Sys2Proof/Laws/Crypto.lean ====
section
/-! SUPPORT. How long the results of the cipher modes are. -/
namespace Sys2Proof.Machine

@[simp] theorem natLe_length (n x : Nat) : (natLe n x).length = n := by
  induction n generalizing x with
  | zero => rfl
  | succ n ih => simp [natLe, ih]

@[simp] theorem natBe_length (n x : Nat) : (natBe n x).length = n := by simp [natBe]

@[simp] theorem xorBytes_length (x y : Bytes) : (xorBytes x y).length = min x.length y.length := by simp [xorBytes]

/-- The key schedule adds `n` words of 4 bytes to words of 4 bytes. -/
theorem expandWords_lengths (n i : Nat) (ws : List Bytes) (h : ∀ w ∈ ws, w.length = 4) (h8 : 8 ≤ ws.length) :
    (expandWords n i ws).length = n + ws.length ∧ ∀ w ∈ expandWords n i ws, w.length = 4 := by
  induction n generalizing i ws with
  | zero => simpa [expandWords] using h
  | succ n ih =>
    have hd (k : Nat) (hk : k < 8) : (ws.getD k []).length = 4 := by
      rw [List.getD_eq_getElem?_getD, List.getElem?_eq_getElem (by omega), Option.getD_some]
      exact h _ (List.getElem_mem _)
    have h0 : (ws.headD []).length = 4 := by
      cases ws with
      | nil => simp at h8
      | cons w l => exact h w (by simp)
    unfold expandWords
    refine (ih _ _ ?_ ?_).imp (fun e => by rw [e, List.length_cons]; omega) id
    · intro w hw
      rcases List.mem_cons.1 hw with rfl | hw
      · rw [xorBytes_length, hd 7 (by omega)]
        split
        · simp only [xorBytes_length, List.length_map, List.length_append, List.length_drop, List.length_take, h0]; rfl
        · split <;> simp only [List.length_map, h0] <;> rfl
      · exact h w hw
    · rw [List.length_cons]; omega

/-- Piece `i` of a string cut into pieces of `n` bytes. -/
theorem chunksFuel_getD (k n i : Nat) (bs : Bytes) (hi : i < k) :
    (chunksFuel k n bs).getD i [] = (bs.drop (n * i)).take n := by
  induction k generalizing i bs with
  | zero => omega
  | succ k ih =>
    unfold chunksFuel
    cases bs with
    | nil => simp
    | cons b bs =>
      cases i with
      | zero => simp
      | succ i =>
        rw [if_neg (by simp), List.getD_cons_succ, ih i _ (by omega), List.drop_drop]
        rw [Nat.mul_succ, Nat.add_comm]

/-- A string of `n * m` bytes has `m` pieces of `n` bytes. -/
theorem chunks_exact (n m : Nat) (bs : Bytes) (hn : 0 < n) (h : bs.length = n * m) :
    (chunks n bs).length = m ∧ ∀ w ∈ chunks n bs, w.length = n := by
  have key : ∀ (k m : Nat) (bs : Bytes), bs.length = n * m → m ≤ k →
      (chunksFuel k n bs).length = m ∧ ∀ w ∈ chunksFuel k n bs, w.length = n := by
    intro k
    induction k with
    | zero => intro m bs _ hm; simp [chunksFuel]; omega
    | succ k ih =>
      intro m bs hb hm
      unfold chunksFuel
      cases m with
      | zero => simp [List.length_eq_zero_iff.1 hb]
      | succ m =>
        rw [Nat.mul_succ] at hb
        have hne : bs.isEmpty = false := by cases bs with | nil => simp at hb; omega | cons => rfl
        have := ih m (bs.drop n) (by rw [List.length_drop, hb]; omega) (by omega)
        rw [hne]
        refine ⟨by simp [this.1], fun w hw => ?_⟩
        rcases List.mem_cons.1 hw with rfl | hw
        · rw [List.length_take, hb]; omega
        · exact this.2 w hw
  refine key _ _ _ h ?_
  rw [h]
  exact Nat.le_mul_of_pos_left m hn

theorem padTo_length (n : Nat) (b : Bytes) : (padTo n b).length = n := by
  simp [padTo, zeros]; omega

/-- The last round key has 16 bytes. -/
theorem roundKeys_last (key : Bytes) : ((roundKeys key).getD 14 []).length = 16 := by
  have hc := chunks_exact 4 8 (padTo 32 key) (by decide) (padTo_length _ _)
  have hw := expandWords_lengths 52 8 (chunks 4 (padTo 32 key)).reverse (fun w h => hc.2 w (List.mem_reverse.1 h))
    (Nat.le_of_eq (by rw [List.length_reverse, hc.1]))
  have hl : (expandWords 52 8 (chunks 4 (padTo 32 key)).reverse).reverse.flatten.length = 240 := by
    have h4 : ∀ l : List Bytes, (∀ w ∈ l, w.length = 4) → l.flatten.length = 4 * l.length := by
      intro l h
      induction l with
      | nil => rfl
      | cons a l ih =>
        rw [List.flatten_cons, List.length_append, h a (by simp), ih (fun w hw => h w (by simp [hw])), List.length_cons]
        omega
    rw [h4 _ (fun w h => hw.2 w (List.mem_reverse.1 h)), List.length_reverse, hw.1, List.length_reverse, hc.1]
  rw [roundKeys, chunks, hl, chunksFuel_getD _ _ _ _ (by decide), List.length_take, List.length_drop, hl]
  rfl

@[simp] theorem aesEncRk_length (key blk : Bytes) : (aesEncRk (roundKeys key) blk).length = 16 := by
  simp only [aesEncRk, xorBytes_length, roundKeys_last, shiftRows, List.length_map]
  rfl

@[simp] theorem cmac_length (key msg : Bytes) : (cmac key msg).length = 16 := by
  rw [cmac]; exact aesEncRk_length _ _

/-- Keccak-f keeps 25 lanes. -/
theorem keccakF_length (a : List (BitVec 64)) (h : a.length = 25) : (keccakF a).length = 25 := by
  have aux (l : List Nat) (b : List (BitVec 64)) (hb : b.length = 25) : (l.foldl keccakRound b).length = 25 := by
    induction l generalizing b with
    | nil => exact hb
    | cons x xs ih => exact ih _ (by simp [keccakRound])
  exact aux _ a h

/-- SHA3-256 gives 32 bytes. -/
@[simp] theorem sha3_256_length (msg : Bytes) : (sha3_256 msg).length = 32 := by
  have absorb (l : List Bytes) (a : List (BitVec 64)) (ha : a.length = 25) :
      (l.foldl (fun a blk => keccakF ((List.range 25).map (fun j =>
        a.getD j 0 ^^^ (if 8 * j < 136 then BitVec.ofNat 64 (fld blk (8 * j) 8) else 0)))) a).length = 25 := by
    induction l generalizing a with
    | nil => exact ha
    | cons x xs ih => exact ih _ (keccakF_length _ (by simp))
  have squeeze (l : List (BitVec 64)) : ((l.map (fun l => natLe 8 l.toNat)).flatten).length = 8 * l.length := by
    induction l with
    | nil => rfl
    | cons x xs ih => simp [ih]; omega
  unfold sha3_256 sponge
  simp only [List.range_one, List.foldl_cons, List.foldl_nil, List.nil_append, List.length_take, squeeze]
  rw [absorb _ _ (by simp)]
  decide

/-- The pieces of a string are no longer together than the string. -/
theorem chunksFuel_length_le (k n : Nat) (bs : Bytes) : ((chunksFuel k n bs).map List.length).sum ≤ bs.length := by
  induction k generalizing bs with
  | zero => simp [chunksFuel]
  | succ k ih =>
    unfold chunksFuel
    split
    · simp
    · have := ih (bs.drop n)
      simp only [List.map_cons, List.sum_cons, List.length_take, List.length_drop] at *
      omega

/-- Counter mode makes a string no longer. -/
theorem gcmStream_length_le (rks : List Bytes) (iv d : Bytes) : (gcmStream rks iv d).length ≤ d.length := by
  have h : ∀ (l : List Bytes) (i : Nat),
      (((l.zipIdx i).map (fun (b, i) => xorBytes b (aesEncRk rks (iv ++ natBe 4 (i + 2))))).map List.length).sum
        ≤ (l.map List.length).sum := by
    intro l
    induction l with
    | nil => simp
    | cons b l ih =>
      intro i
      have := ih (i + 1)
      simp only [List.zipIdx_cons, List.map_cons, List.sum_cons, xorBytes_length] at *
      omega
  rw [gcmStream, List.length_flatten]
  exact Nat.le_trans (h _ 0) (chunksFuel_length_le _ _ _)

theorem gcmCrypt_length_le (key iv d : Bytes) : (gcmCrypt key iv d).length ≤ d.length := by
  rw [gcmCrypt]; exact gcmStream_length_le _ _ _

theorem gcmTag_length_le (key iv aad ct : Bytes) : (gcmTag key iv aad ct).length ≤ 16 := by
  rw [gcmTag, xorBytes_length, natBe_length]; exact Nat.min_le_left _ _

/-- The image of a slice without owners, rings, slots and tickets. -/
theorem sliceImage_length_le (s : State) (n g : Nat) (k : Bytes)
    (ho : tkeys s.slc.binds (fun _ b => b.bound && b.slice == n) = []) (hr : typedRings s n = [])
    (hs : liveSlots s n true = []) (ht : (sliceOf s n).tickets = []) : (sliceImage s n g k).length ≤ 208 := by
  simp only [sliceImage, ho, hr, hs, ht, List.length_append]
  refine Nat.le_trans (Nat.add_le_add (Nat.add_le_add_left (gcmCrypt_length_le _ _ _) _) (gcmTag_length_le _ _ _ _)) ?_
  simp [unitId16, zeros, padTo, ceilDiv]
  omega

end Sys2Proof.Machine
end

