-- ==== Sys2Proof/Laws/Dormant.lean ====
section
/-! SUPPORT. Counter mode undoes itself, so a Dormant image opens to the slots it was made of (R127, R210). -/
namespace Sys2Proof.Machine

/-- Counter mode over blocks, `e i` the stream's block `i`. -/
def streamFuel (e : Nat → Bytes) : Nat → Nat → Bytes → Bytes
  | 0, _, _ => []
  | k + 1, i, bs => if bs.isEmpty then [] else xorBytes (bs.take 16) (e i) ++ streamFuel e k (i + 1) (bs.drop 16)

theorem streamFuel_succ (e : Nat → Bytes) (k i : Nat) (bs : Bytes) : streamFuel e (k + 1) i bs =
    if bs.isEmpty then [] else xorBytes (bs.take 16) (e i) ++ streamFuel e k (i + 1) (bs.drop 16) := rfl

theorem streamFuel_eq (e : Nat → Bytes) (k i : Nat) (bs : Bytes) :
    (((chunksFuel k 16 bs).zipIdx i).map (fun x => xorBytes x.1 (e x.2))).flatten = streamFuel e k i bs := by
  induction k generalizing i bs with
  | zero => rfl
  | succ k ih =>
    unfold chunksFuel streamFuel
    split
    · rfl
    · simp [List.zipIdx_cons, ih]

theorem streamFuel_length (e : Nat → Bytes) (he : ∀ i, (e i).length = 16) (k i : Nat) (bs : Bytes) (h : bs.length ≤ k) :
    (streamFuel e k i bs).length = bs.length := by
  induction k generalizing i bs with
  | zero => exact (show 0 = bs.length by omega)
  | succ k ih =>
    unfold streamFuel
    split
    · rename_i hb; simp [List.isEmpty_iff.1 hb]
    · rename_i hb
      have : bs.length ≠ 0 := fun h0 => hb (by simp [List.length_eq_zero_iff.1 h0])
      rw [List.length_append, ih _ _ (by rw [List.length_drop]; omega), xorBytes_length, he, List.length_take, List.length_drop]
      omega

theorem xorBytes_xorBytes (x y : Bytes) (h : x.length ≤ y.length) : xorBytes (xorBytes x y) y = x := by
  induction x generalizing y with
  | nil => rfl
  | cons a x ih =>
    cases y with
    | nil => simp at h
    | cons b y => simpa [xorBytes, BitVec.xor_assoc] using ih y (by simpa using h)

theorem streamFuel_twice (e : Nat → Bytes) (he : ∀ i, (e i).length = 16) (k j i : Nat) (bs : Bytes) (h : bs.length ≤ k)
    (hj : bs.length ≤ j) : streamFuel e j i (streamFuel e k i bs) = bs := by
  induction k generalizing i j bs with
  | zero =>
    have : bs = [] := List.length_eq_zero_iff.1 (by omega)
    subst this
    cases j <;> rfl
  | succ k ih =>
    rw [streamFuel_succ e k]
    split
    · rename_i hb
      rw [List.isEmpty_iff.1 hb]
      cases j <;> rfl
    · rename_i hb
      have h0 : bs.length ≠ 0 := fun h0 => hb (by simp [List.length_eq_zero_iff.1 h0])
      cases j with
      | zero => omega
      | succ j =>
        have hx : (xorBytes (bs.take 16) (e i)).length = min 16 bs.length := by
          rw [xorBytes_length, he, List.length_take]; omega
        rw [streamFuel_succ e j, if_neg (by rw [List.isEmpty_iff, ← List.length_eq_zero_iff, List.length_append, hx]; omega)]
        rcases Nat.lt_or_ge bs.length 16 with hs | hs
        · have hd : bs.drop 16 = [] := List.drop_eq_nil_of_le (by omega)
          have hr : streamFuel e k (i + 1) [] = [] := by cases k <;> rfl
          rw [hd, hr, List.append_nil, List.take_of_length_le (by omega), List.drop_eq_nil_of_le (by omega),
            xorBytes_xorBytes _ _ (by rw [he, List.length_take]; omega), List.take_of_length_le (by omega)]
          cases j <;> simp [streamFuel]
        · have hx' : (xorBytes (bs.take 16) (e i)).length = 16 := by omega
          rw [List.take_left' hx', List.drop_left' hx', xorBytes_xorBytes _ _ (by rw [he, List.length_take]; omega),
            ih j (i + 1) (bs.drop 16) (by rw [List.length_drop]; omega) (by rw [List.length_drop]; omega), List.take_append_drop]

/-- The stream's block `i` under a key and an IV. -/
def gcmBlock (key iv : Bytes) (i : Nat) : Bytes := aesEncRk (roundKeys key) (iv ++ natBe 4 (i + 2))

theorem gcmBlock_length (key iv : Bytes) (i : Nat) : (gcmBlock key iv i).length = 16 := aesEncRk_length _ _

theorem gcmCrypt_eq (key iv d : Bytes) : gcmCrypt key iv d = streamFuel (gcmBlock key iv) d.length 0 d := by
  rw [gcmCrypt, gcmStream, chunks, ← streamFuel_eq]
  rfl

theorem gcmCrypt_length (key iv d : Bytes) : (gcmCrypt key iv d).length = d.length := by
  rw [gcmCrypt_eq, streamFuel_length _ (gcmBlock_length key iv) _ _ _ (Nat.le_refl _)]

/-- Counter mode is its own inverse. -/
theorem gcmCrypt_twice (key iv d : Bytes) : gcmCrypt key iv (gcmCrypt key iv d) = d := by
  rw [gcmCrypt_eq key iv (gcmCrypt key iv d), gcmCrypt_length, gcmCrypt_eq,
    streamFuel_twice _ (gcmBlock_length key iv) _ _ _ _ (Nat.le_refl _) (Nat.le_refl _)]

theorem gcmTag_length (key iv aad ct : Bytes) : (gcmTag key iv aad ct).length = 16 := by
  rw [gcmTag, xorBytes_length, natBe_length, aesEncRk_length]; rfl

/-- Pieces of `n` bytes each, put together and cut again. -/
theorem chunks_flatten (n : Nat) (hn : 0 < n) (l : List Bytes) (h : ∀ w ∈ l, w.length = n) : chunks n l.flatten = l := by
  have key : ∀ (l : List Bytes) (k : Nat), (∀ w ∈ l, w.length = n) → l.flatten.length ≤ k → chunksFuel k n l.flatten = l := by
    intro l
    induction l with
    | nil => intro k _ _; cases k <;> rfl
    | cons w l ih =>
      intro k h hk
      have hw : w.length = n := h w (by simp)
      rw [List.flatten_cons, List.length_append] at hk
      cases k with
      | zero => omega
      | succ k =>
        unfold chunksFuel
        rw [List.flatten_cons, if_neg (by rw [List.isEmpty_iff, ← List.length_eq_zero_iff, List.length_append]; omega),
          List.take_left' hw, List.drop_left' hw, ih k (fun x hx => h x (by simp [hx])) (by omega)]
  exact key l _ h (Nat.le_refl _)

/-- An image that was not changed opens to what its bytes say (R210). -/
theorem imageOpen_append (v : Nat) (ct : Bytes) (hv : v ≠ 0) :
    imageOpen v (ct ++ gcmTag (Config.dormantKey v) (zeros 12) [] ct) =
      some ((chunks 128 (gcmCrypt (Config.dormantKey v) (zeros 12) ct)).map slotAt) := by
  have ht : (gcmTag (Config.dormantKey v) (zeros 12) [] ct).length = 16 := gcmTag_length _ _ _ _
  unfold imageOpen
  generalize hk : Config.dormantKey v = k at *
  generalize hg : gcmTag k (zeros 12) [] ct = tag at *
  have hn : (ct ++ tag).length - 16 = ct.length := by rw [List.length_append, ht]; omega
  simp only [hn, List.take_left, List.drop_left, hg]
  rw [if_neg]
  simp [hv, ht]

theorem slotBytes_length (i : Nat) (x : Slot) : (slotBytes i x).length = 128 := by
  rw [slotBytes, padTo_length]

/-- What a Dormant image holds comes back while its seal value stands (R210). -/
theorem imageOpen_imageSeal (v : Nat) (l : List (Nat × Slot)) (hv : v ≠ 0) :
    imageOpen v (imageSeal v l) = some (l.map (fun e => slotAt (slotBytes e.1 e.2))) := by
  have hc : ∀ w ∈ l.map (fun e => slotBytes e.1 e.2), w.length = 128 := by
    intro w hw
    obtain ⟨e, -, rfl⟩ := List.mem_map.1 hw
    exact slotBytes_length _ _
  have hs : imageSeal v l = gcmCrypt (Config.dormantKey v) (zeros 12) (l.map (fun e => slotBytes e.1 e.2)).flatten ++
      gcmTag (Config.dormantKey v) (zeros 12) []
        (gcmCrypt (Config.dormantKey v) (zeros 12) (l.map (fun e => slotBytes e.1 e.2)).flatten) := by rw [imageSeal]
  rw [hs, imageOpen_append v _ hv, gcmCrypt_twice, chunks_flatten 128 (Nat.succ_pos _) _ hc, List.map_map]
  simp only [Function.comp_def]

end Sys2Proof.Machine
end

