-- ==== Sys2Proof/Laws/Tbl.lean ====
section
/-! SUPPORT. Tables: a read after a write, and that every write keeps the canonical form. -/
namespace Sys2Proof.Machine

variable {α : Type}

/-- A key put into the table reads as put. -/
@[simp] theorem tget_tput_same (d : α) (t : Tbl α) (k : Nat) (v : α) : tget d (tput t k v) k = v := by
  induction t with
  | nil => simp [tput, tget]
  | cons e t ih =>
    obtain ⟨j, w⟩ := e
    simp only [tput]
    split
    · simp [tget]
    · split
      · simp [tget]
      · have : j ≠ k := by omega
        simp [tget, this, ih]

/-- A key put into the table leaves every other key. -/
theorem tget_tput_ne (d : α) (t : Tbl α) (k j : Nat) (v : α) (h : j ≠ k) : tget d (tput t k v) j = tget d t j := by
  induction t with
  | nil => simp [tput, tget, Ne.symm h]
  | cons e t ih =>
    obtain ⟨i, w⟩ := e
    simp only [tput]
    split
    · simp [tget, Ne.symm h]
    · split
      · next _ hk => subst hk; simp [tget, Ne.symm h]
      · simp only [tget, ih]

/-- A key taken out of the table leaves every other key. -/
theorem tget_tdel_ne (d : α) (t : Tbl α) (k j : Nat) (h : j ≠ k) : tget d (tdel t k) j = tget d t j := by
  induction t with
  | nil => rfl
  | cons e t ih =>
    obtain ⟨i, w⟩ := e
    simp only [tdel]
    split
    · next hk => subst hk; simp [tget, Ne.symm h]
    · simp only [tget, ih]

/-- A table all of whose keys are above `k` has the default at `k`. -/
theorem tget_above (d : α) (t : Tbl α) (k : Nat) (h : tabove k t = true) : tget d t k = d := by
  induction t with
  | nil => rfl
  | cons e t ih =>
    obtain ⟨i, w⟩ := e
    simp only [tabove, List.all_cons, Bool.and_eq_true, decide_eq_true_eq] at h
    have : i ≠ k := by omega
    simp only [tget, this, if_false]
    exact ih (by simpa [tabove] using h.2)

/-- Keys above `k` are above every smaller number. -/
theorem tabove_lt (t : Tbl α) (j k : Nat) (h : tabove k t = true) (hj : j ≤ k) : tabove j t = true := by
  simp only [tabove, List.all_eq_true, decide_eq_true_eq] at *
  intro e he
  have := h e he
  omega

section canonical
variable [DecidableEq α]

/-- The parts of the canonical form of a table with an entry in front. -/
theorem twf_cons (d : α) (k : Nat) (v : α) (t : Tbl α) :
    twf d ((k, v) :: t) = true ↔ tabove k t = true ∧ v ≠ d ∧ twf d t = true := by
  simp [twf, and_assoc]

/-- A key taken out of a canonical table reads as the default. -/
theorem tget_tdel_same (d : α) (t : Tbl α) (k : Nat) (h : twf d t = true) : tget d (tdel t k) k = d := by
  induction t with
  | nil => rfl
  | cons e t ih =>
    obtain ⟨i, w⟩ := e
    rw [twf_cons] at h
    simp only [tdel]
    split
    · next hk => subst hk; exact tget_above d t _ h.1
    · next hk => simp only [tget, hk, if_false]; exact ih h.2.2

/-- A key set in a canonical table reads as set. -/
theorem tget_tset_same (d : α) (t : Tbl α) (k : Nat) (v : α) (h : twf d t = true) : tget d (tset d t k v) k = v := by
  unfold tset
  split
  · next hv => rw [tget_tdel_same d t k h, hv]
  · exact tget_tput_same d t k v

/-- A key set to another value than the default reads as set. -/
theorem tget_tset_of_ne (d : α) (t : Tbl α) (k : Nat) (v : α) (h : v ≠ d) : tget d (tset d t k v) k = v := by
  simp [tset, h]

/-- A key set leaves every other key. -/
theorem tget_tset_ne (d : α) (t : Tbl α) (k j : Nat) (v : α) (h : j ≠ k) : tget d (tset d t k v) j = tget d t j := by
  unfold tset
  split
  · exact tget_tdel_ne d t k j h
  · exact tget_tput_ne d t k j v h

/-- A key changed in a canonical table reads as changed. -/
theorem tget_tupd_same (d : α) (t : Tbl α) (k : Nat) (f : α → α) (h : twf d t = true) :
    tget d (tupd d t k f) k = f (tget d t k) := tget_tset_same d t k _ h

/-- A key changed to another value than the default reads as changed. -/
theorem tget_tupd_of_ne (d : α) (t : Tbl α) (k : Nat) (f : α → α) (h : f (tget d t k) ≠ d) :
    tget d (tupd d t k f) k = f (tget d t k) := tget_tset_of_ne d t k _ h

/-- A key changed leaves every other key. -/
theorem tget_tupd_ne (d : α) (t : Tbl α) (k j : Nat) (f : α → α) (h : j ≠ k) : tget d (tupd d t k f) j = tget d t j :=
  tget_tset_ne d t k j _ h

omit [DecidableEq α] in
/-- Taking a key out keeps every lower bound on the keys. -/
theorem tabove_tdel (t : Tbl α) (j k : Nat) (h : tabove j t = true) : tabove j (tdel t k) = true := by
  induction t with
  | nil => rfl
  | cons e t ih =>
    obtain ⟨i, w⟩ := e
    simp only [tabove, List.all_cons, Bool.and_eq_true] at h
    simp only [tdel]
    split
    · simpa [tabove] using h.2
    · simp only [tabove, List.all_cons, Bool.and_eq_true]
      exact ⟨h.1, by simpa [tabove] using ih (by simpa [tabove] using h.2)⟩

omit [DecidableEq α] in
/-- Putting a key keeps every lower bound that the key meets. -/
theorem tabove_tput (t : Tbl α) (j k : Nat) (v : α) (h : tabove j t = true) (hk : j < k) : tabove j (tput t k v) = true := by
  induction t with
  | nil => simpa [tput, tabove] using hk
  | cons e t ih =>
    obtain ⟨i, w⟩ := e
    simp only [tput]
    have h2 := h
    simp only [tabove, List.all_cons, Bool.and_eq_true] at h
    split
    · simp only [tabove, List.all_cons, Bool.and_eq_true, decide_eq_true_eq]
      exact ⟨hk, by simpa using h.1, h.2⟩
    · split
      · simp only [tabove, List.all_cons, Bool.and_eq_true, decide_eq_true_eq]
        exact ⟨hk, h.2⟩
      · simp only [tabove, List.all_cons, Bool.and_eq_true]
        exact ⟨h.1, by simpa [tabove] using ih (by simpa [tabove] using h.2)⟩

/-- Taking a key out keeps the canonical form. -/
theorem twf_tdel (d : α) (t : Tbl α) (k : Nat) (h : twf d t = true) : twf d (tdel t k) = true := by
  induction t with
  | nil => exact h
  | cons e t ih =>
    obtain ⟨i, w⟩ := e
    rw [twf_cons] at h
    simp only [tdel]
    split
    · exact h.2.2
    · rw [twf_cons]
      exact ⟨tabove_tdel t i k h.1, h.2.1, ih h.2.2⟩

/-- Putting a value other than the default keeps the canonical form. -/
theorem twf_tput (d : α) (t : Tbl α) (k : Nat) (v : α) (h : twf d t = true) (hv : v ≠ d) : twf d (tput t k v) = true := by
  induction t with
  | nil => simp [tput, twf, tabove, hv]
  | cons e t ih =>
    obtain ⟨i, w⟩ := e
    have h2 := h
    rw [twf_cons] at h
    simp only [tput]
    split
    · next hk =>
      rw [twf_cons]
      refine ⟨?_, hv, h2⟩
      simp only [tabove, List.all_cons, Bool.and_eq_true, decide_eq_true_eq]
      exact ⟨hk, by simpa [tabove] using tabove_lt t k i h.1 (by omega)⟩
    · split
      · next _ hk => subst hk; rw [twf_cons]; exact ⟨h.1, hv, h.2.2⟩
      · rw [twf_cons]
        exact ⟨tabove_tput t i k v h.1 (by omega), h.2.1, ih h.2.2⟩

/-- Setting a key keeps the canonical form. -/
theorem twf_tset (d : α) (t : Tbl α) (k : Nat) (v : α) (h : twf d t = true) : twf d (tset d t k v) = true := by
  unfold tset
  split
  · exact twf_tdel d t k h
  · next hv => exact twf_tput d t k v h hv

/-- Changing a key keeps the canonical form. -/
theorem twf_tupd (d : α) (t : Tbl α) (k : Nat) (f : α → α) (h : twf d t = true) : twf d (tupd d t k f) = true :=
  twf_tset d t k _ h

/-- Changing every value keeps every lower bound on the keys. -/
theorem tabove_tmap (d : α) (f : Nat → α → α) (t : Tbl α) (j : Nat) (h : tabove j t = true) :
    tabove j (tmap d f t) = true := by
  induction t with
  | nil => exact h
  | cons e t ih =>
    obtain ⟨i, w⟩ := e
    simp only [tabove, List.all_cons, Bool.and_eq_true] at h
    have hr := ih (by simpa [tabove] using h.2)
    simp only [tmap]
    split
    · exact hr
    · simp only [tabove, List.all_cons, Bool.and_eq_true]
      exact ⟨h.1, by simpa [tabove] using hr⟩

/-- Changing every value keeps the canonical form. -/
theorem twf_tmap (d : α) (f : Nat → α → α) (t : Tbl α) (h : twf d t = true) : twf d (tmap d f t) = true := by
  induction t with
  | nil => rfl
  | cons e t ih =>
    obtain ⟨i, w⟩ := e
    rw [twf_cons] at h
    simp only [tmap]
    split
    · exact ih h.2.2
    · next hv => rw [twf_cons]; exact ⟨tabove_tmap d f t i h.1, hv, ih h.2.2⟩

end canonical

end Sys2Proof.Machine
end

