-- ==== Sys2Proof/Laws/Flash.lean ====
section
/-! SUPPORT. What the vault's devices hold after their header and a record have been written. -/
namespace Sys2Proof.Machine

/-- A string of no more than `n` bytes is one piece. -/
theorem chunks_short (n : Nat) (bs : Bytes) (h0 : bs ≠ []) (h : bs.length ≤ n) : chunks n bs = [bs] := by
  cases bs with
  | nil => exact absurd rfl h0
  | cons b bs =>
    rw [chunks, List.length_cons, chunksFuel, if_neg (by simp), List.take_of_length_le h, List.drop_of_length_le h]
    cases bs.length <;> simp [chunksFuel]

@[simp] theorem headerPage_length (mk : Bytes) (fmt id : Nat) : (headerPage mk fmt id).data.length = 48 := by
  simp [headerPage, zeros]

/-- The header that is written carries its own check value (R222). -/
@[simp] theorem headerOk_headerPage (mk : Bytes) (fmt id : Nat) : headerOk mk (headerPage mk fmt id) = true := by
  have h : (natLe 2 fmt ++ zeros 14 ++ natLe 16 id).length = 32 := by simp [zeros]
  simp only [headerOk, headerPage, List.drop_left' h, List.take_left' h, List.length_append, h, cmac_length]
  simp

/-- A device whose header has been written is of that key's vault (R222). -/
theorem devGood_putHeader (mk : Bytes) (fmt id : Nat) (d : VaultDev) (h : d.answers = true) :
    devGood mk (putHeader mk fmt id d) = true := by
  have ht : tget {} (putHeader mk fmt id d).pages (headerAt 3) = headerPage mk fmt id := tget_tput_same _ _ _ _
  have hm : headerPage mk fmt id ∈ headers (putHeader mk fmt id d) := by
    rw [headers, List.mem_filter]
    refine ⟨List.mem_map.2 ⟨3, by decide, ht⟩, ?_⟩
    have : (headerPage mk fmt id).data ≠ [] := by rw [← List.length_pos_iff, headerPage_length]; decide
    simpa using this
  have : (headerOf mk (putHeader mk fmt id d)).isSome = true := by
    rw [headerOf, List.find?_isSome]; exact ⟨_, hm, headerOk_headerPage _ _ _⟩
  rw [devGood, this, Bool.and_true]
  exact h

/-- A record without patches has 48 bytes, its CMAC last (R224). -/
theorem jrecBytes_length (mk : Bytes) (r : JRec) (h : r.body = []) : (jrecBytes mk r).length = 48 := by
  simp [jrecBytes, h, bodyBytes, zeros]

/-- A field that lies in a string's first part. -/
theorem fld_append (x y : Bytes) (i n : Nat) (h : i + n ≤ x.length) : fld (x ++ y) i n = fld x i n := by
  rw [fld, fld, sub, sub, List.drop_append_of_le_length (by omega), List.take_append_of_le_length]
  rw [List.length_drop]; omega

/-- A record that ends in the CMAC of its 32 bytes before it, programmed on one page, is found complete (R224). -/
theorem foundRec_single (mk : Bytes) (d : VaultDev) (k : Nat) (h : Bytes) (hl : h.length = 32)
    (hm : fld h 0 4 = 0x31524A56) (hp : fld h 13 1 = 1) (hb : fld h 20 4 = 0) :
    foundRec mk d k { data := h ++ cmac mk h } = { places := [k], bytes := h ++ cmac mk h, complete := true } := by
  have h1 (i n : Nat) (hi : i + n ≤ 32) : fld (h ++ cmac mk h) i n = fld h i n := fld_append _ _ _ _ (by omega)
  have hs : sub (h ++ cmac mk h) 32 16 = cmac mk h := by
    rw [sub, List.drop_left' hl]; exact List.take_of_length_le (Nat.le_of_eq (cmac_length _ _))
  simp [foundRec, h1, hm, hp, hb, hl, hs, List.take_left' hl, ceilDiv]

end Sys2Proof.Machine
end

