-- ==== Sys2Proof/Laws/Frames.lean ====
section
/-! SUPPORT. A drawbar frame is received as it was sent. -/
namespace Sys2Proof.Machine

/-- A little-endian string is read back as the value it was written from. -/
theorem leNat_natLe (n x : Nat) : leNat (natLe n x) = x % 256 ^ n := by
  induction n generalizing x with
  | zero => simp [natLe, leNat, Nat.mod_one]
  | succ n ih => simp [natLe, leNat, ih, Nat.pow_succ', Nat.mod_mul]

/-- The CRC of a frame has 16 bits. -/
theorem crc16_lt (bs : Bytes) : crc16 bs < 2 ^ 16 := by
  have turn (l : List Nat) (c : Nat) (hc : c < 2 ^ 16) :
      l.foldl (fun c _ => if c.testBit (16 - 1) then (2 * c % 2 ^ 16) ^^^ 0x1021 else 2 * c) c < 2 ^ 16 := by
    induction l generalizing c with
    | nil => exact hc
    | cons x xs ih =>
      refine ih _ ?_
      dsimp only
      split
      · exact Nat.xor_lt_two_pow (Nat.mod_lt _ (by decide)) (by decide)
      · rename_i h
        have h : c < 2 ^ 15 := Nat.lt_pow_two_of_testBit c (fun i hi => by
          by_cases e : i = 15
          · simpa [e] using h
          · exact Nat.testBit_lt_two_pow (Nat.lt_of_lt_of_le hc (Nat.pow_le_pow_right (by decide) (by omega))))
        exact Nat.lt_of_lt_of_le (Nat.mul_lt_mul_of_pos_left h (by decide : 0 < 2)) (by decide)
  have aux (l : Bytes) (c : Nat) (hc : c < 2 ^ 16) : crcMsb 16 0x1021 c l < 2 ^ 16 := by
    induction l generalizing c with
    | nil => exact hc
    | cons x xs ih => exact ih _ (turn _ _ (Nat.xor_lt_two_pow hc (by have := x.isLt; omega)))
  exact aux bs _ (by decide)

/-- A frame of no more bytes than its type allows is received as it was sent (R369). -/
theorem readFrame_frameBytes (ty dest src most : Nat) (body : Bytes) (ht : frameLen ty = some most)
    (hd : dest < 256) (hs : src < 256) (hb : body.length ≤ most) :
    readFrame (frameBytes ty dest src body) = some { type := ty, dest, src, body } := by
  have h7 : ty < 256 ∧ most < 256 := by
    unfold frameLen at ht
    split at ht <;> simp_all <;> omega
  have hl : body.length % 256 = body.length := Nat.mod_eq_of_lt (by omega)
  generalize hx : natLe 1 ty ++ natLe 1 dest ++ natLe 1 src ++ natLe 1 body.length ++ body = d
  have hn : d.length = 4 + body.length := by rw [← hx]; simp; omega
  have f (y : Bytes) : fld (d ++ y) 0 1 = ty ∧ fld (d ++ y) 1 1 = dest ∧ fld (d ++ y) 2 1 = src ∧
      fld (d ++ y) 3 1 = body.length ∧ sub (d ++ y) 4 body.length = body := by
    rw [← hx]
    simp [fld, sub, natLe, leNat, Nat.mod_eq_of_lt h7.1, Nat.mod_eq_of_lt hd, Nat.mod_eq_of_lt hs, hl]
  obtain ⟨f0, f1, f2, f3, f4⟩ := f (natLe 2 (crc16 d))
  have fc : fld (d ++ natLe 2 (crc16 d)) (4 + body.length) 2 = crc16 d := by
    rw [fld, sub, List.drop_left' hn, List.take_of_length_le (by simp), leNat_natLe]
    exact Nat.mod_eq_of_lt (crc16_lt d)
  have ft : (d ++ natLe 2 (crc16 d)).take (4 + body.length) = d := List.take_left' hn
  simp only [readFrame, frameBytes, hx, f0, f1, f2, f3, f4, fc, ft, ht]
  simp [hn]; omega

end Sys2Proof.Machine
end

