-- ==== Sys2Proof/Laws/State.lean ====
section
/-! SUPPORT. What each update of one part changes, and what it leaves: every other part of the state. -/
namespace Sys2Proof.Machine

/-- `updCar` changes `car` by its function. -/
@[simp] theorem updCar_car (f : Car → Car) (s : State) : (updCar f s).car = f s.car := rfl
/-- `updCar` leaves every part but `car`. -/
@[simp] theorem updCar_frame (f : Car → Car) (s : State) :
    (updCar f s).pending = s.pending ∧ (updCar f s).out = s.out ∧ (updCar f s).free = s.free ∧ (updCar f s).now = s.now ∧
    (updCar f s).csn = s.csn ∧ (updCar f s).chp = s.chp ∧ (updCar f s).pins = s.pins ∧ (updCar f s).hpt = s.hpt ∧
    (updCar f s).stats = s.stats ∧ (updCar f s).win = s.win ∧ (updCar f s).ttb = s.ttb ∧ (updCar f s).cay = s.cay ∧
    (updCar f s).mdf = s.mdf ∧ (updCar f s).kst = s.kst ∧ (updCar f s).leg = s.leg ∧ (updCar f s).vlt = s.vlt ∧
    (updCar f s).slc = s.slc ∧ (updCar f s).evr = s.evr ∧ (updCar f s).rng = s.rng ∧ (updCar f s).lat = s.lat ∧
    (updCar f s).bnv = s.bnv ∧ (updCar f s).ucp = s.ucp ∧ (updCar f s).wld = s.wld ∧ (updCar f s).tmp = s.tmp ∧
    (updCar f s).bbr = s.bbr ∧ (updCar f s).lcs = s.lcs ∧ (updCar f s).fuses = s.fuses ∧ (updCar f s).mnf = s.mnf ∧
    (updCar f s).flash = s.flash ∧ (updCar f s).fwu = s.fwu ∧ (updCar f s).drb = s.drb ∧ (updCar f s).mem = s.mem ∧
    (updCar f s).gov = s.gov ∧ (updCar f s).shown = s.shown :=
  ⟨rfl, rfl, rfl, rfl, rfl, rfl, rfl, rfl, rfl, rfl, rfl, rfl, rfl, rfl, rfl, rfl, rfl, rfl, rfl, rfl, rfl, rfl, rfl, rfl, rfl, rfl, rfl, rfl, rfl, rfl, rfl, rfl, rfl, rfl⟩
/-- `updCay` changes `cay` by its function. -/
@[simp] theorem updCay_cay (f : Cay → Cay) (s : State) : (updCay f s).cay = f s.cay := rfl
/-- `updCay` leaves every part but `cay`. -/
@[simp] theorem updCay_frame (f : Cay → Cay) (s : State) :
    (updCay f s).pending = s.pending ∧ (updCay f s).out = s.out ∧ (updCay f s).free = s.free ∧ (updCay f s).now = s.now ∧
    (updCay f s).csn = s.csn ∧ (updCay f s).chp = s.chp ∧ (updCay f s).pins = s.pins ∧ (updCay f s).hpt = s.hpt ∧
    (updCay f s).stats = s.stats ∧ (updCay f s).win = s.win ∧ (updCay f s).ttb = s.ttb ∧ (updCay f s).car = s.car ∧
    (updCay f s).mdf = s.mdf ∧ (updCay f s).kst = s.kst ∧ (updCay f s).leg = s.leg ∧ (updCay f s).vlt = s.vlt ∧
    (updCay f s).slc = s.slc ∧ (updCay f s).evr = s.evr ∧ (updCay f s).rng = s.rng ∧ (updCay f s).lat = s.lat ∧
    (updCay f s).bnv = s.bnv ∧ (updCay f s).ucp = s.ucp ∧ (updCay f s).wld = s.wld ∧ (updCay f s).tmp = s.tmp ∧
    (updCay f s).bbr = s.bbr ∧ (updCay f s).lcs = s.lcs ∧ (updCay f s).fuses = s.fuses ∧ (updCay f s).mnf = s.mnf ∧
    (updCay f s).flash = s.flash ∧ (updCay f s).fwu = s.fwu ∧ (updCay f s).drb = s.drb ∧ (updCay f s).mem = s.mem ∧
    (updCay f s).gov = s.gov ∧ (updCay f s).shown = s.shown :=
  ⟨rfl, rfl, rfl, rfl, rfl, rfl, rfl, rfl, rfl, rfl, rfl, rfl, rfl, rfl, rfl, rfl, rfl, rfl, rfl, rfl, rfl, rfl, rfl, rfl, rfl, rfl, rfl, rfl, rfl, rfl, rfl, rfl, rfl, rfl⟩
/-- `updMdf` changes `mdf` by its function. -/
@[simp] theorem updMdf_mdf (f : Mdf → Mdf) (s : State) : (updMdf f s).mdf = f s.mdf := rfl
/-- `updMdf` leaves every part but `mdf`. -/
@[simp] theorem updMdf_frame (f : Mdf → Mdf) (s : State) :
    (updMdf f s).pending = s.pending ∧ (updMdf f s).out = s.out ∧ (updMdf f s).free = s.free ∧ (updMdf f s).now = s.now ∧
    (updMdf f s).csn = s.csn ∧ (updMdf f s).chp = s.chp ∧ (updMdf f s).pins = s.pins ∧ (updMdf f s).hpt = s.hpt ∧
    (updMdf f s).stats = s.stats ∧ (updMdf f s).win = s.win ∧ (updMdf f s).ttb = s.ttb ∧ (updMdf f s).car = s.car ∧
    (updMdf f s).cay = s.cay ∧ (updMdf f s).kst = s.kst ∧ (updMdf f s).leg = s.leg ∧ (updMdf f s).vlt = s.vlt ∧
    (updMdf f s).slc = s.slc ∧ (updMdf f s).evr = s.evr ∧ (updMdf f s).rng = s.rng ∧ (updMdf f s).lat = s.lat ∧
    (updMdf f s).bnv = s.bnv ∧ (updMdf f s).ucp = s.ucp ∧ (updMdf f s).wld = s.wld ∧ (updMdf f s).tmp = s.tmp ∧
    (updMdf f s).bbr = s.bbr ∧ (updMdf f s).lcs = s.lcs ∧ (updMdf f s).fuses = s.fuses ∧ (updMdf f s).mnf = s.mnf ∧
    (updMdf f s).flash = s.flash ∧ (updMdf f s).fwu = s.fwu ∧ (updMdf f s).drb = s.drb ∧ (updMdf f s).mem = s.mem ∧
    (updMdf f s).gov = s.gov ∧ (updMdf f s).shown = s.shown :=
  ⟨rfl, rfl, rfl, rfl, rfl, rfl, rfl, rfl, rfl, rfl, rfl, rfl, rfl, rfl, rfl, rfl, rfl, rfl, rfl, rfl, rfl, rfl, rfl, rfl, rfl, rfl, rfl, rfl, rfl, rfl, rfl, rfl, rfl, rfl⟩
/-- `updKst` changes `kst` by its function. -/
@[simp] theorem updKst_kst (f : Kst → Kst) (s : State) : (updKst f s).kst = f s.kst := rfl
/-- `updKst` leaves every part but `kst`. -/
@[simp] theorem updKst_frame (f : Kst → Kst) (s : State) :
    (updKst f s).pending = s.pending ∧ (updKst f s).out = s.out ∧ (updKst f s).free = s.free ∧ (updKst f s).now = s.now ∧
    (updKst f s).csn = s.csn ∧ (updKst f s).chp = s.chp ∧ (updKst f s).pins = s.pins ∧ (updKst f s).hpt = s.hpt ∧
    (updKst f s).stats = s.stats ∧ (updKst f s).win = s.win ∧ (updKst f s).ttb = s.ttb ∧ (updKst f s).car = s.car ∧
    (updKst f s).cay = s.cay ∧ (updKst f s).mdf = s.mdf ∧ (updKst f s).leg = s.leg ∧ (updKst f s).vlt = s.vlt ∧
    (updKst f s).slc = s.slc ∧ (updKst f s).evr = s.evr ∧ (updKst f s).rng = s.rng ∧ (updKst f s).lat = s.lat ∧
    (updKst f s).bnv = s.bnv ∧ (updKst f s).ucp = s.ucp ∧ (updKst f s).wld = s.wld ∧ (updKst f s).tmp = s.tmp ∧
    (updKst f s).bbr = s.bbr ∧ (updKst f s).lcs = s.lcs ∧ (updKst f s).fuses = s.fuses ∧ (updKst f s).mnf = s.mnf ∧
    (updKst f s).flash = s.flash ∧ (updKst f s).fwu = s.fwu ∧ (updKst f s).drb = s.drb ∧ (updKst f s).mem = s.mem ∧
    (updKst f s).gov = s.gov ∧ (updKst f s).shown = s.shown :=
  ⟨rfl, rfl, rfl, rfl, rfl, rfl, rfl, rfl, rfl, rfl, rfl, rfl, rfl, rfl, rfl, rfl, rfl, rfl, rfl, rfl, rfl, rfl, rfl, rfl, rfl, rfl, rfl, rfl, rfl, rfl, rfl, rfl, rfl, rfl⟩
/-- `updVlt` changes `vlt` by its function. -/
@[simp] theorem updVlt_vlt (f : Vault → Vault) (s : State) : (updVlt f s).vlt = f s.vlt := rfl
/-- `updVlt` leaves every part but `vlt`. -/
@[simp] theorem updVlt_frame (f : Vault → Vault) (s : State) :
    (updVlt f s).pending = s.pending ∧ (updVlt f s).out = s.out ∧ (updVlt f s).free = s.free ∧ (updVlt f s).now = s.now ∧
    (updVlt f s).csn = s.csn ∧ (updVlt f s).chp = s.chp ∧ (updVlt f s).pins = s.pins ∧ (updVlt f s).hpt = s.hpt ∧
    (updVlt f s).stats = s.stats ∧ (updVlt f s).win = s.win ∧ (updVlt f s).ttb = s.ttb ∧ (updVlt f s).car = s.car ∧
    (updVlt f s).cay = s.cay ∧ (updVlt f s).mdf = s.mdf ∧ (updVlt f s).kst = s.kst ∧ (updVlt f s).leg = s.leg ∧
    (updVlt f s).slc = s.slc ∧ (updVlt f s).evr = s.evr ∧ (updVlt f s).rng = s.rng ∧ (updVlt f s).lat = s.lat ∧
    (updVlt f s).bnv = s.bnv ∧ (updVlt f s).ucp = s.ucp ∧ (updVlt f s).wld = s.wld ∧ (updVlt f s).tmp = s.tmp ∧
    (updVlt f s).bbr = s.bbr ∧ (updVlt f s).lcs = s.lcs ∧ (updVlt f s).fuses = s.fuses ∧ (updVlt f s).mnf = s.mnf ∧
    (updVlt f s).flash = s.flash ∧ (updVlt f s).fwu = s.fwu ∧ (updVlt f s).drb = s.drb ∧ (updVlt f s).mem = s.mem ∧
    (updVlt f s).gov = s.gov ∧ (updVlt f s).shown = s.shown :=
  ⟨rfl, rfl, rfl, rfl, rfl, rfl, rfl, rfl, rfl, rfl, rfl, rfl, rfl, rfl, rfl, rfl, rfl, rfl, rfl, rfl, rfl, rfl, rfl, rfl, rfl, rfl, rfl, rfl, rfl, rfl, rfl, rfl, rfl, rfl⟩
/-- `updSlc` changes `slc` by its function. -/
@[simp] theorem updSlc_slc (f : Slc → Slc) (s : State) : (updSlc f s).slc = f s.slc := rfl
/-- `updSlc` leaves every part but `slc`. -/
@[simp] theorem updSlc_frame (f : Slc → Slc) (s : State) :
    (updSlc f s).pending = s.pending ∧ (updSlc f s).out = s.out ∧ (updSlc f s).free = s.free ∧ (updSlc f s).now = s.now ∧
    (updSlc f s).csn = s.csn ∧ (updSlc f s).chp = s.chp ∧ (updSlc f s).pins = s.pins ∧ (updSlc f s).hpt = s.hpt ∧
    (updSlc f s).stats = s.stats ∧ (updSlc f s).win = s.win ∧ (updSlc f s).ttb = s.ttb ∧ (updSlc f s).car = s.car ∧
    (updSlc f s).cay = s.cay ∧ (updSlc f s).mdf = s.mdf ∧ (updSlc f s).kst = s.kst ∧ (updSlc f s).leg = s.leg ∧
    (updSlc f s).vlt = s.vlt ∧ (updSlc f s).evr = s.evr ∧ (updSlc f s).rng = s.rng ∧ (updSlc f s).lat = s.lat ∧
    (updSlc f s).bnv = s.bnv ∧ (updSlc f s).ucp = s.ucp ∧ (updSlc f s).wld = s.wld ∧ (updSlc f s).tmp = s.tmp ∧
    (updSlc f s).bbr = s.bbr ∧ (updSlc f s).lcs = s.lcs ∧ (updSlc f s).fuses = s.fuses ∧ (updSlc f s).mnf = s.mnf ∧
    (updSlc f s).flash = s.flash ∧ (updSlc f s).fwu = s.fwu ∧ (updSlc f s).drb = s.drb ∧ (updSlc f s).mem = s.mem ∧
    (updSlc f s).gov = s.gov ∧ (updSlc f s).shown = s.shown :=
  ⟨rfl, rfl, rfl, rfl, rfl, rfl, rfl, rfl, rfl, rfl, rfl, rfl, rfl, rfl, rfl, rfl, rfl, rfl, rfl, rfl, rfl, rfl, rfl, rfl, rfl, rfl, rfl, rfl, rfl, rfl, rfl, rfl, rfl, rfl⟩
/-- `updEvr` changes `evr` by its function. -/
@[simp] theorem updEvr_evr (f : Evr → Evr) (s : State) : (updEvr f s).evr = f s.evr := rfl
/-- `updEvr` leaves every part but `evr`. -/
@[simp] theorem updEvr_frame (f : Evr → Evr) (s : State) :
    (updEvr f s).pending = s.pending ∧ (updEvr f s).out = s.out ∧ (updEvr f s).free = s.free ∧ (updEvr f s).now = s.now ∧
    (updEvr f s).csn = s.csn ∧ (updEvr f s).chp = s.chp ∧ (updEvr f s).pins = s.pins ∧ (updEvr f s).hpt = s.hpt ∧
    (updEvr f s).stats = s.stats ∧ (updEvr f s).win = s.win ∧ (updEvr f s).ttb = s.ttb ∧ (updEvr f s).car = s.car ∧
    (updEvr f s).cay = s.cay ∧ (updEvr f s).mdf = s.mdf ∧ (updEvr f s).kst = s.kst ∧ (updEvr f s).leg = s.leg ∧
    (updEvr f s).vlt = s.vlt ∧ (updEvr f s).slc = s.slc ∧ (updEvr f s).rng = s.rng ∧ (updEvr f s).lat = s.lat ∧
    (updEvr f s).bnv = s.bnv ∧ (updEvr f s).ucp = s.ucp ∧ (updEvr f s).wld = s.wld ∧ (updEvr f s).tmp = s.tmp ∧
    (updEvr f s).bbr = s.bbr ∧ (updEvr f s).lcs = s.lcs ∧ (updEvr f s).fuses = s.fuses ∧ (updEvr f s).mnf = s.mnf ∧
    (updEvr f s).flash = s.flash ∧ (updEvr f s).fwu = s.fwu ∧ (updEvr f s).drb = s.drb ∧ (updEvr f s).mem = s.mem ∧
    (updEvr f s).gov = s.gov ∧ (updEvr f s).shown = s.shown :=
  ⟨rfl, rfl, rfl, rfl, rfl, rfl, rfl, rfl, rfl, rfl, rfl, rfl, rfl, rfl, rfl, rfl, rfl, rfl, rfl, rfl, rfl, rfl, rfl, rfl, rfl, rfl, rfl, rfl, rfl, rfl, rfl, rfl, rfl, rfl⟩
/-- `updRng` changes `rng` by its function. -/
@[simp] theorem updRng_rng (f : Rng → Rng) (s : State) : (updRng f s).rng = f s.rng := rfl
/-- `updRng` leaves every part but `rng`. -/
@[simp] theorem updRng_frame (f : Rng → Rng) (s : State) :
    (updRng f s).pending = s.pending ∧ (updRng f s).out = s.out ∧ (updRng f s).free = s.free ∧ (updRng f s).now = s.now ∧
    (updRng f s).csn = s.csn ∧ (updRng f s).chp = s.chp ∧ (updRng f s).pins = s.pins ∧ (updRng f s).hpt = s.hpt ∧
    (updRng f s).stats = s.stats ∧ (updRng f s).win = s.win ∧ (updRng f s).ttb = s.ttb ∧ (updRng f s).car = s.car ∧
    (updRng f s).cay = s.cay ∧ (updRng f s).mdf = s.mdf ∧ (updRng f s).kst = s.kst ∧ (updRng f s).leg = s.leg ∧
    (updRng f s).vlt = s.vlt ∧ (updRng f s).slc = s.slc ∧ (updRng f s).evr = s.evr ∧ (updRng f s).lat = s.lat ∧
    (updRng f s).bnv = s.bnv ∧ (updRng f s).ucp = s.ucp ∧ (updRng f s).wld = s.wld ∧ (updRng f s).tmp = s.tmp ∧
    (updRng f s).bbr = s.bbr ∧ (updRng f s).lcs = s.lcs ∧ (updRng f s).fuses = s.fuses ∧ (updRng f s).mnf = s.mnf ∧
    (updRng f s).flash = s.flash ∧ (updRng f s).fwu = s.fwu ∧ (updRng f s).drb = s.drb ∧ (updRng f s).mem = s.mem ∧
    (updRng f s).gov = s.gov ∧ (updRng f s).shown = s.shown :=
  ⟨rfl, rfl, rfl, rfl, rfl, rfl, rfl, rfl, rfl, rfl, rfl, rfl, rfl, rfl, rfl, rfl, rfl, rfl, rfl, rfl, rfl, rfl, rfl, rfl, rfl, rfl, rfl, rfl, rfl, rfl, rfl, rfl, rfl, rfl⟩
/-- `updTmp` changes `tmp` by its function. -/
@[simp] theorem updTmp_tmp (f : Tmp → Tmp) (s : State) : (updTmp f s).tmp = f s.tmp := rfl
/-- `updTmp` leaves every part but `tmp`. -/
@[simp] theorem updTmp_frame (f : Tmp → Tmp) (s : State) :
    (updTmp f s).pending = s.pending ∧ (updTmp f s).out = s.out ∧ (updTmp f s).free = s.free ∧ (updTmp f s).now = s.now ∧
    (updTmp f s).csn = s.csn ∧ (updTmp f s).chp = s.chp ∧ (updTmp f s).pins = s.pins ∧ (updTmp f s).hpt = s.hpt ∧
    (updTmp f s).stats = s.stats ∧ (updTmp f s).win = s.win ∧ (updTmp f s).ttb = s.ttb ∧ (updTmp f s).car = s.car ∧
    (updTmp f s).cay = s.cay ∧ (updTmp f s).mdf = s.mdf ∧ (updTmp f s).kst = s.kst ∧ (updTmp f s).leg = s.leg ∧
    (updTmp f s).vlt = s.vlt ∧ (updTmp f s).slc = s.slc ∧ (updTmp f s).evr = s.evr ∧ (updTmp f s).rng = s.rng ∧
    (updTmp f s).lat = s.lat ∧ (updTmp f s).bnv = s.bnv ∧ (updTmp f s).ucp = s.ucp ∧ (updTmp f s).wld = s.wld ∧
    (updTmp f s).bbr = s.bbr ∧ (updTmp f s).lcs = s.lcs ∧ (updTmp f s).fuses = s.fuses ∧ (updTmp f s).mnf = s.mnf ∧
    (updTmp f s).flash = s.flash ∧ (updTmp f s).fwu = s.fwu ∧ (updTmp f s).drb = s.drb ∧ (updTmp f s).mem = s.mem ∧
    (updTmp f s).gov = s.gov ∧ (updTmp f s).shown = s.shown :=
  ⟨rfl, rfl, rfl, rfl, rfl, rfl, rfl, rfl, rfl, rfl, rfl, rfl, rfl, rfl, rfl, rfl, rfl, rfl, rfl, rfl, rfl, rfl, rfl, rfl, rfl, rfl, rfl, rfl, rfl, rfl, rfl, rfl, rfl, rfl⟩
/-- `updWld` changes `wld` by its function. -/
@[simp] theorem updWld_wld (f : Wld → Wld) (s : State) : (updWld f s).wld = f s.wld := rfl
/-- `updWld` leaves every part but `wld`. -/
@[simp] theorem updWld_frame (f : Wld → Wld) (s : State) :
    (updWld f s).pending = s.pending ∧ (updWld f s).out = s.out ∧ (updWld f s).free = s.free ∧ (updWld f s).now = s.now ∧
    (updWld f s).csn = s.csn ∧ (updWld f s).chp = s.chp ∧ (updWld f s).pins = s.pins ∧ (updWld f s).hpt = s.hpt ∧
    (updWld f s).stats = s.stats ∧ (updWld f s).win = s.win ∧ (updWld f s).ttb = s.ttb ∧ (updWld f s).car = s.car ∧
    (updWld f s).cay = s.cay ∧ (updWld f s).mdf = s.mdf ∧ (updWld f s).kst = s.kst ∧ (updWld f s).leg = s.leg ∧
    (updWld f s).vlt = s.vlt ∧ (updWld f s).slc = s.slc ∧ (updWld f s).evr = s.evr ∧ (updWld f s).rng = s.rng ∧
    (updWld f s).lat = s.lat ∧ (updWld f s).bnv = s.bnv ∧ (updWld f s).ucp = s.ucp ∧ (updWld f s).tmp = s.tmp ∧
    (updWld f s).bbr = s.bbr ∧ (updWld f s).lcs = s.lcs ∧ (updWld f s).fuses = s.fuses ∧ (updWld f s).mnf = s.mnf ∧
    (updWld f s).flash = s.flash ∧ (updWld f s).fwu = s.fwu ∧ (updWld f s).drb = s.drb ∧ (updWld f s).mem = s.mem ∧
    (updWld f s).gov = s.gov ∧ (updWld f s).shown = s.shown :=
  ⟨rfl, rfl, rfl, rfl, rfl, rfl, rfl, rfl, rfl, rfl, rfl, rfl, rfl, rfl, rfl, rfl, rfl, rfl, rfl, rfl, rfl, rfl, rfl, rfl, rfl, rfl, rfl, rfl, rfl, rfl, rfl, rfl, rfl, rfl⟩
/-- `updLcs` changes `lcs` by its function. -/
@[simp] theorem updLcs_lcs (f : Lcs → Lcs) (s : State) : (updLcs f s).lcs = f s.lcs := rfl
/-- `updLcs` leaves every part but `lcs`. -/
@[simp] theorem updLcs_frame (f : Lcs → Lcs) (s : State) :
    (updLcs f s).pending = s.pending ∧ (updLcs f s).out = s.out ∧ (updLcs f s).free = s.free ∧ (updLcs f s).now = s.now ∧
    (updLcs f s).csn = s.csn ∧ (updLcs f s).chp = s.chp ∧ (updLcs f s).pins = s.pins ∧ (updLcs f s).hpt = s.hpt ∧
    (updLcs f s).stats = s.stats ∧ (updLcs f s).win = s.win ∧ (updLcs f s).ttb = s.ttb ∧ (updLcs f s).car = s.car ∧
    (updLcs f s).cay = s.cay ∧ (updLcs f s).mdf = s.mdf ∧ (updLcs f s).kst = s.kst ∧ (updLcs f s).leg = s.leg ∧
    (updLcs f s).vlt = s.vlt ∧ (updLcs f s).slc = s.slc ∧ (updLcs f s).evr = s.evr ∧ (updLcs f s).rng = s.rng ∧
    (updLcs f s).lat = s.lat ∧ (updLcs f s).bnv = s.bnv ∧ (updLcs f s).ucp = s.ucp ∧ (updLcs f s).wld = s.wld ∧
    (updLcs f s).tmp = s.tmp ∧ (updLcs f s).bbr = s.bbr ∧ (updLcs f s).fuses = s.fuses ∧ (updLcs f s).mnf = s.mnf ∧
    (updLcs f s).flash = s.flash ∧ (updLcs f s).fwu = s.fwu ∧ (updLcs f s).drb = s.drb ∧ (updLcs f s).mem = s.mem ∧
    (updLcs f s).gov = s.gov ∧ (updLcs f s).shown = s.shown :=
  ⟨rfl, rfl, rfl, rfl, rfl, rfl, rfl, rfl, rfl, rfl, rfl, rfl, rfl, rfl, rfl, rfl, rfl, rfl, rfl, rfl, rfl, rfl, rfl, rfl, rfl, rfl, rfl, rfl, rfl, rfl, rfl, rfl, rfl, rfl⟩
/-- `updFwu` changes `fwu` by its function. -/
@[simp] theorem updFwu_fwu (f : Fwu → Fwu) (s : State) : (updFwu f s).fwu = f s.fwu := rfl
/-- `updFwu` leaves every part but `fwu`. -/
@[simp] theorem updFwu_frame (f : Fwu → Fwu) (s : State) :
    (updFwu f s).pending = s.pending ∧ (updFwu f s).out = s.out ∧ (updFwu f s).free = s.free ∧ (updFwu f s).now = s.now ∧
    (updFwu f s).csn = s.csn ∧ (updFwu f s).chp = s.chp ∧ (updFwu f s).pins = s.pins ∧ (updFwu f s).hpt = s.hpt ∧
    (updFwu f s).stats = s.stats ∧ (updFwu f s).win = s.win ∧ (updFwu f s).ttb = s.ttb ∧ (updFwu f s).car = s.car ∧
    (updFwu f s).cay = s.cay ∧ (updFwu f s).mdf = s.mdf ∧ (updFwu f s).kst = s.kst ∧ (updFwu f s).leg = s.leg ∧
    (updFwu f s).vlt = s.vlt ∧ (updFwu f s).slc = s.slc ∧ (updFwu f s).evr = s.evr ∧ (updFwu f s).rng = s.rng ∧
    (updFwu f s).lat = s.lat ∧ (updFwu f s).bnv = s.bnv ∧ (updFwu f s).ucp = s.ucp ∧ (updFwu f s).wld = s.wld ∧
    (updFwu f s).tmp = s.tmp ∧ (updFwu f s).bbr = s.bbr ∧ (updFwu f s).lcs = s.lcs ∧ (updFwu f s).fuses = s.fuses ∧
    (updFwu f s).mnf = s.mnf ∧ (updFwu f s).flash = s.flash ∧ (updFwu f s).drb = s.drb ∧ (updFwu f s).mem = s.mem ∧
    (updFwu f s).gov = s.gov ∧ (updFwu f s).shown = s.shown :=
  ⟨rfl, rfl, rfl, rfl, rfl, rfl, rfl, rfl, rfl, rfl, rfl, rfl, rfl, rfl, rfl, rfl, rfl, rfl, rfl, rfl, rfl, rfl, rfl, rfl, rfl, rfl, rfl, rfl, rfl, rfl, rfl, rfl, rfl, rfl⟩
/-- `updDrb` changes `drb` by its function. -/
@[simp] theorem updDrb_drb (f : Drb → Drb) (s : State) : (updDrb f s).drb = f s.drb := rfl
/-- `updDrb` leaves every part but `drb`. -/
@[simp] theorem updDrb_frame (f : Drb → Drb) (s : State) :
    (updDrb f s).pending = s.pending ∧ (updDrb f s).out = s.out ∧ (updDrb f s).free = s.free ∧ (updDrb f s).now = s.now ∧
    (updDrb f s).csn = s.csn ∧ (updDrb f s).chp = s.chp ∧ (updDrb f s).pins = s.pins ∧ (updDrb f s).hpt = s.hpt ∧
    (updDrb f s).stats = s.stats ∧ (updDrb f s).win = s.win ∧ (updDrb f s).ttb = s.ttb ∧ (updDrb f s).car = s.car ∧
    (updDrb f s).cay = s.cay ∧ (updDrb f s).mdf = s.mdf ∧ (updDrb f s).kst = s.kst ∧ (updDrb f s).leg = s.leg ∧
    (updDrb f s).vlt = s.vlt ∧ (updDrb f s).slc = s.slc ∧ (updDrb f s).evr = s.evr ∧ (updDrb f s).rng = s.rng ∧
    (updDrb f s).lat = s.lat ∧ (updDrb f s).bnv = s.bnv ∧ (updDrb f s).ucp = s.ucp ∧ (updDrb f s).wld = s.wld ∧
    (updDrb f s).tmp = s.tmp ∧ (updDrb f s).bbr = s.bbr ∧ (updDrb f s).lcs = s.lcs ∧ (updDrb f s).fuses = s.fuses ∧
    (updDrb f s).mnf = s.mnf ∧ (updDrb f s).flash = s.flash ∧ (updDrb f s).fwu = s.fwu ∧ (updDrb f s).mem = s.mem ∧
    (updDrb f s).gov = s.gov ∧ (updDrb f s).shown = s.shown :=
  ⟨rfl, rfl, rfl, rfl, rfl, rfl, rfl, rfl, rfl, rfl, rfl, rfl, rfl, rfl, rfl, rfl, rfl, rfl, rfl, rfl, rfl, rfl, rfl, rfl, rfl, rfl, rfl, rfl, rfl, rfl, rfl, rfl, rfl, rfl⟩
/-- `updGov` changes `gov` by its function. -/
@[simp] theorem updGov_gov (f : Gov → Gov) (s : State) : (updGov f s).gov = f s.gov := rfl
/-- `updGov` leaves every part but `gov`. -/
@[simp] theorem updGov_frame (f : Gov → Gov) (s : State) :
    (updGov f s).pending = s.pending ∧ (updGov f s).out = s.out ∧ (updGov f s).free = s.free ∧ (updGov f s).now = s.now ∧
    (updGov f s).csn = s.csn ∧ (updGov f s).chp = s.chp ∧ (updGov f s).pins = s.pins ∧ (updGov f s).hpt = s.hpt ∧
    (updGov f s).stats = s.stats ∧ (updGov f s).win = s.win ∧ (updGov f s).ttb = s.ttb ∧ (updGov f s).car = s.car ∧
    (updGov f s).cay = s.cay ∧ (updGov f s).mdf = s.mdf ∧ (updGov f s).kst = s.kst ∧ (updGov f s).leg = s.leg ∧
    (updGov f s).vlt = s.vlt ∧ (updGov f s).slc = s.slc ∧ (updGov f s).evr = s.evr ∧ (updGov f s).rng = s.rng ∧
    (updGov f s).lat = s.lat ∧ (updGov f s).bnv = s.bnv ∧ (updGov f s).ucp = s.ucp ∧ (updGov f s).wld = s.wld ∧
    (updGov f s).tmp = s.tmp ∧ (updGov f s).bbr = s.bbr ∧ (updGov f s).lcs = s.lcs ∧ (updGov f s).fuses = s.fuses ∧
    (updGov f s).mnf = s.mnf ∧ (updGov f s).flash = s.flash ∧ (updGov f s).fwu = s.fwu ∧ (updGov f s).drb = s.drb ∧
    (updGov f s).mem = s.mem ∧ (updGov f s).shown = s.shown :=
  ⟨rfl, rfl, rfl, rfl, rfl, rfl, rfl, rfl, rfl, rfl, rfl, rfl, rfl, rfl, rfl, rfl, rfl, rfl, rfl, rfl, rfl, rfl, rfl, rfl, rfl, rfl, rfl, rfl, rfl, rfl, rfl, rfl, rfl, rfl⟩
/-- `updUcp` changes `ucp` by its function. -/
@[simp] theorem updUcp_ucp (f : Ucp → Ucp) (s : State) : (updUcp f s).ucp = f s.ucp := rfl
/-- `updUcp` leaves every part but `ucp`. -/
@[simp] theorem updUcp_frame (f : Ucp → Ucp) (s : State) :
    (updUcp f s).pending = s.pending ∧ (updUcp f s).out = s.out ∧ (updUcp f s).free = s.free ∧ (updUcp f s).now = s.now ∧
    (updUcp f s).csn = s.csn ∧ (updUcp f s).chp = s.chp ∧ (updUcp f s).pins = s.pins ∧ (updUcp f s).hpt = s.hpt ∧
    (updUcp f s).stats = s.stats ∧ (updUcp f s).win = s.win ∧ (updUcp f s).ttb = s.ttb ∧ (updUcp f s).car = s.car ∧
    (updUcp f s).cay = s.cay ∧ (updUcp f s).mdf = s.mdf ∧ (updUcp f s).kst = s.kst ∧ (updUcp f s).leg = s.leg ∧
    (updUcp f s).vlt = s.vlt ∧ (updUcp f s).slc = s.slc ∧ (updUcp f s).evr = s.evr ∧ (updUcp f s).rng = s.rng ∧
    (updUcp f s).lat = s.lat ∧ (updUcp f s).bnv = s.bnv ∧ (updUcp f s).wld = s.wld ∧ (updUcp f s).tmp = s.tmp ∧
    (updUcp f s).bbr = s.bbr ∧ (updUcp f s).lcs = s.lcs ∧ (updUcp f s).fuses = s.fuses ∧ (updUcp f s).mnf = s.mnf ∧
    (updUcp f s).flash = s.flash ∧ (updUcp f s).fwu = s.fwu ∧ (updUcp f s).drb = s.drb ∧ (updUcp f s).mem = s.mem ∧
    (updUcp f s).gov = s.gov ∧ (updUcp f s).shown = s.shown :=
  ⟨rfl, rfl, rfl, rfl, rfl, rfl, rfl, rfl, rfl, rfl, rfl, rfl, rfl, rfl, rfl, rfl, rfl, rfl, rfl, rfl, rfl, rfl, rfl, rfl, rfl, rfl, rfl, rfl, rfl, rfl, rfl, rfl, rfl, rfl⟩
/-- `updBnv` changes `bnv` by its function. -/
@[simp] theorem updBnv_bnv (f : Bnv → Bnv) (s : State) : (updBnv f s).bnv = f s.bnv := rfl
/-- `updBnv` leaves every part but `bnv`. -/
@[simp] theorem updBnv_frame (f : Bnv → Bnv) (s : State) :
    (updBnv f s).pending = s.pending ∧ (updBnv f s).out = s.out ∧ (updBnv f s).free = s.free ∧ (updBnv f s).now = s.now ∧
    (updBnv f s).csn = s.csn ∧ (updBnv f s).chp = s.chp ∧ (updBnv f s).pins = s.pins ∧ (updBnv f s).hpt = s.hpt ∧
    (updBnv f s).stats = s.stats ∧ (updBnv f s).win = s.win ∧ (updBnv f s).ttb = s.ttb ∧ (updBnv f s).car = s.car ∧
    (updBnv f s).cay = s.cay ∧ (updBnv f s).mdf = s.mdf ∧ (updBnv f s).kst = s.kst ∧ (updBnv f s).leg = s.leg ∧
    (updBnv f s).vlt = s.vlt ∧ (updBnv f s).slc = s.slc ∧ (updBnv f s).evr = s.evr ∧ (updBnv f s).rng = s.rng ∧
    (updBnv f s).lat = s.lat ∧ (updBnv f s).ucp = s.ucp ∧ (updBnv f s).wld = s.wld ∧ (updBnv f s).tmp = s.tmp ∧
    (updBnv f s).bbr = s.bbr ∧ (updBnv f s).lcs = s.lcs ∧ (updBnv f s).fuses = s.fuses ∧ (updBnv f s).mnf = s.mnf ∧
    (updBnv f s).flash = s.flash ∧ (updBnv f s).fwu = s.fwu ∧ (updBnv f s).drb = s.drb ∧ (updBnv f s).mem = s.mem ∧
    (updBnv f s).gov = s.gov ∧ (updBnv f s).shown = s.shown :=
  ⟨rfl, rfl, rfl, rfl, rfl, rfl, rfl, rfl, rfl, rfl, rfl, rfl, rfl, rfl, rfl, rfl, rfl, rfl, rfl, rfl, rfl, rfl, rfl, rfl, rfl, rfl, rfl, rfl, rfl, rfl, rfl, rfl, rfl, rfl⟩
/-- `updLat` changes `lat` by its function. -/
@[simp] theorem updLat_lat (f : Lat → Lat) (s : State) : (updLat f s).lat = f s.lat := rfl
/-- `updLat` leaves every part but `lat`. -/
@[simp] theorem updLat_frame (f : Lat → Lat) (s : State) :
    (updLat f s).pending = s.pending ∧ (updLat f s).out = s.out ∧ (updLat f s).free = s.free ∧ (updLat f s).now = s.now ∧
    (updLat f s).csn = s.csn ∧ (updLat f s).chp = s.chp ∧ (updLat f s).pins = s.pins ∧ (updLat f s).hpt = s.hpt ∧
    (updLat f s).stats = s.stats ∧ (updLat f s).win = s.win ∧ (updLat f s).ttb = s.ttb ∧ (updLat f s).car = s.car ∧
    (updLat f s).cay = s.cay ∧ (updLat f s).mdf = s.mdf ∧ (updLat f s).kst = s.kst ∧ (updLat f s).leg = s.leg ∧
    (updLat f s).vlt = s.vlt ∧ (updLat f s).slc = s.slc ∧ (updLat f s).evr = s.evr ∧ (updLat f s).rng = s.rng ∧
    (updLat f s).bnv = s.bnv ∧ (updLat f s).ucp = s.ucp ∧ (updLat f s).wld = s.wld ∧ (updLat f s).tmp = s.tmp ∧
    (updLat f s).bbr = s.bbr ∧ (updLat f s).lcs = s.lcs ∧ (updLat f s).fuses = s.fuses ∧ (updLat f s).mnf = s.mnf ∧
    (updLat f s).flash = s.flash ∧ (updLat f s).fwu = s.fwu ∧ (updLat f s).drb = s.drb ∧ (updLat f s).mem = s.mem ∧
    (updLat f s).gov = s.gov ∧ (updLat f s).shown = s.shown :=
  ⟨rfl, rfl, rfl, rfl, rfl, rfl, rfl, rfl, rfl, rfl, rfl, rfl, rfl, rfl, rfl, rfl, rfl, rfl, rfl, rfl, rfl, rfl, rfl, rfl, rfl, rfl, rfl, rfl, rfl, rfl, rfl, rfl, rfl, rfl⟩
/-- `updTtb` changes `ttb` by its function. -/
@[simp] theorem updTtb_ttb (f : Ttb → Ttb) (s : State) : (updTtb f s).ttb = f s.ttb := rfl
/-- `updTtb` leaves every part but `ttb`. -/
@[simp] theorem updTtb_frame (f : Ttb → Ttb) (s : State) :
    (updTtb f s).pending = s.pending ∧ (updTtb f s).out = s.out ∧ (updTtb f s).free = s.free ∧ (updTtb f s).now = s.now ∧
    (updTtb f s).csn = s.csn ∧ (updTtb f s).chp = s.chp ∧ (updTtb f s).pins = s.pins ∧ (updTtb f s).hpt = s.hpt ∧
    (updTtb f s).stats = s.stats ∧ (updTtb f s).win = s.win ∧ (updTtb f s).car = s.car ∧ (updTtb f s).cay = s.cay ∧
    (updTtb f s).mdf = s.mdf ∧ (updTtb f s).kst = s.kst ∧ (updTtb f s).leg = s.leg ∧ (updTtb f s).vlt = s.vlt ∧
    (updTtb f s).slc = s.slc ∧ (updTtb f s).evr = s.evr ∧ (updTtb f s).rng = s.rng ∧ (updTtb f s).lat = s.lat ∧
    (updTtb f s).bnv = s.bnv ∧ (updTtb f s).ucp = s.ucp ∧ (updTtb f s).wld = s.wld ∧ (updTtb f s).tmp = s.tmp ∧
    (updTtb f s).bbr = s.bbr ∧ (updTtb f s).lcs = s.lcs ∧ (updTtb f s).fuses = s.fuses ∧ (updTtb f s).mnf = s.mnf ∧
    (updTtb f s).flash = s.flash ∧ (updTtb f s).fwu = s.fwu ∧ (updTtb f s).drb = s.drb ∧ (updTtb f s).mem = s.mem ∧
    (updTtb f s).gov = s.gov ∧ (updTtb f s).shown = s.shown :=
  ⟨rfl, rfl, rfl, rfl, rfl, rfl, rfl, rfl, rfl, rfl, rfl, rfl, rfl, rfl, rfl, rfl, rfl, rfl, rfl, rfl, rfl, rfl, rfl, rfl, rfl, rfl, rfl, rfl, rfl, rfl, rfl, rfl, rfl, rfl⟩
/-- `updHpt` changes port `p`'s side by its function. -/
@[simp] theorem updHpt_hpt (p : Port) (f : HptPort → HptPort) (s : State) : (updHpt p f s).hpt = s.hpt.upd p f := rfl
/-- `updHpt` leaves every part but `hpt`. -/
@[simp] theorem updHpt_frame (p : Port) (f : HptPort → HptPort) (s : State) :
    (updHpt p f s).pending = s.pending ∧ (updHpt p f s).out = s.out ∧ (updHpt p f s).free = s.free ∧
    (updHpt p f s).now = s.now ∧ (updHpt p f s).csn = s.csn ∧ (updHpt p f s).chp = s.chp ∧ (updHpt p f s).pins = s.pins ∧
    (updHpt p f s).stats = s.stats ∧ (updHpt p f s).win = s.win ∧ (updHpt p f s).ttb = s.ttb ∧ (updHpt p f s).car = s.car ∧
    (updHpt p f s).cay = s.cay ∧ (updHpt p f s).mdf = s.mdf ∧ (updHpt p f s).kst = s.kst ∧ (updHpt p f s).leg = s.leg ∧
    (updHpt p f s).vlt = s.vlt ∧ (updHpt p f s).slc = s.slc ∧ (updHpt p f s).evr = s.evr ∧ (updHpt p f s).rng = s.rng ∧
    (updHpt p f s).lat = s.lat ∧ (updHpt p f s).bnv = s.bnv ∧ (updHpt p f s).ucp = s.ucp ∧ (updHpt p f s).wld = s.wld ∧
    (updHpt p f s).tmp = s.tmp ∧ (updHpt p f s).bbr = s.bbr ∧ (updHpt p f s).lcs = s.lcs ∧ (updHpt p f s).fuses = s.fuses ∧
    (updHpt p f s).mnf = s.mnf ∧ (updHpt p f s).flash = s.flash ∧ (updHpt p f s).fwu = s.fwu ∧ (updHpt p f s).drb = s.drb ∧
    (updHpt p f s).mem = s.mem ∧ (updHpt p f s).gov = s.gov ∧ (updHpt p f s).shown = s.shown :=
  ⟨rfl, rfl, rfl, rfl, rfl, rfl, rfl, rfl, rfl, rfl, rfl, rfl, rfl, rfl, rfl, rfl, rfl, rfl, rfl, rfl, rfl, rfl, rfl, rfl, rfl, rfl, rfl, rfl, rfl, rfl, rfl, rfl, rfl, rfl⟩
/-- `updStats` changes port `p`'s side by its function. -/
@[simp] theorem updStats_stats (p : Port) (f : HptStats → HptStats) (s : State) : (updStats p f s).stats = s.stats.upd p f := rfl
/-- `updStats` leaves every part but `stats`. -/
@[simp] theorem updStats_frame (p : Port) (f : HptStats → HptStats) (s : State) :
    (updStats p f s).pending = s.pending ∧ (updStats p f s).out = s.out ∧ (updStats p f s).free = s.free ∧
    (updStats p f s).now = s.now ∧ (updStats p f s).csn = s.csn ∧ (updStats p f s).chp = s.chp ∧
    (updStats p f s).pins = s.pins ∧ (updStats p f s).hpt = s.hpt ∧ (updStats p f s).win = s.win ∧
    (updStats p f s).ttb = s.ttb ∧ (updStats p f s).car = s.car ∧ (updStats p f s).cay = s.cay ∧
    (updStats p f s).mdf = s.mdf ∧ (updStats p f s).kst = s.kst ∧ (updStats p f s).leg = s.leg ∧
    (updStats p f s).vlt = s.vlt ∧ (updStats p f s).slc = s.slc ∧ (updStats p f s).evr = s.evr ∧
    (updStats p f s).rng = s.rng ∧ (updStats p f s).lat = s.lat ∧ (updStats p f s).bnv = s.bnv ∧
    (updStats p f s).ucp = s.ucp ∧ (updStats p f s).wld = s.wld ∧ (updStats p f s).tmp = s.tmp ∧
    (updStats p f s).bbr = s.bbr ∧ (updStats p f s).lcs = s.lcs ∧ (updStats p f s).fuses = s.fuses ∧
    (updStats p f s).mnf = s.mnf ∧ (updStats p f s).flash = s.flash ∧ (updStats p f s).fwu = s.fwu ∧
    (updStats p f s).drb = s.drb ∧ (updStats p f s).mem = s.mem ∧ (updStats p f s).gov = s.gov ∧
    (updStats p f s).shown = s.shown :=
  ⟨rfl, rfl, rfl, rfl, rfl, rfl, rfl, rfl, rfl, rfl, rfl, rfl, rfl, rfl, rfl, rfl, rfl, rfl, rfl, rfl, rfl, rfl, rfl, rfl, rfl, rfl, rfl, rfl, rfl, rfl, rfl, rfl, rfl, rfl⟩
/-- `updWin` changes port `p`'s side by its function. -/
@[simp] theorem updWin_win (p : Port) (f : PortWin → PortWin) (s : State) : (updWin p f s).win = s.win.upd p f := rfl
/-- `updWin` leaves every part but `win`. -/
@[simp] theorem updWin_frame (p : Port) (f : PortWin → PortWin) (s : State) :
    (updWin p f s).pending = s.pending ∧ (updWin p f s).out = s.out ∧ (updWin p f s).free = s.free ∧
    (updWin p f s).now = s.now ∧ (updWin p f s).csn = s.csn ∧ (updWin p f s).chp = s.chp ∧ (updWin p f s).pins = s.pins ∧
    (updWin p f s).hpt = s.hpt ∧ (updWin p f s).stats = s.stats ∧ (updWin p f s).ttb = s.ttb ∧ (updWin p f s).car = s.car ∧
    (updWin p f s).cay = s.cay ∧ (updWin p f s).mdf = s.mdf ∧ (updWin p f s).kst = s.kst ∧ (updWin p f s).leg = s.leg ∧
    (updWin p f s).vlt = s.vlt ∧ (updWin p f s).slc = s.slc ∧ (updWin p f s).evr = s.evr ∧ (updWin p f s).rng = s.rng ∧
    (updWin p f s).lat = s.lat ∧ (updWin p f s).bnv = s.bnv ∧ (updWin p f s).ucp = s.ucp ∧ (updWin p f s).wld = s.wld ∧
    (updWin p f s).tmp = s.tmp ∧ (updWin p f s).bbr = s.bbr ∧ (updWin p f s).lcs = s.lcs ∧ (updWin p f s).fuses = s.fuses ∧
    (updWin p f s).mnf = s.mnf ∧ (updWin p f s).flash = s.flash ∧ (updWin p f s).fwu = s.fwu ∧ (updWin p f s).drb = s.drb ∧
    (updWin p f s).mem = s.mem ∧ (updWin p f s).gov = s.gov ∧ (updWin p f s).shown = s.shown :=
  ⟨rfl, rfl, rfl, rfl, rfl, rfl, rfl, rfl, rfl, rfl, rfl, rfl, rfl, rfl, rfl, rfl, rfl, rfl, rfl, rfl, rfl, rfl, rfl, rfl, rfl, rfl, rfl, rfl, rfl, rfl, rfl, rfl, rfl, rfl⟩
/-- `updRing` leaves every part but `car`. -/
@[simp] theorem updRing_frame (g : Nat) (f : Ring → Ring) (s : State) :
    (updRing g f s).pending = s.pending ∧ (updRing g f s).out = s.out ∧ (updRing g f s).free = s.free ∧
    (updRing g f s).now = s.now ∧ (updRing g f s).csn = s.csn ∧ (updRing g f s).chp = s.chp ∧
    (updRing g f s).pins = s.pins ∧ (updRing g f s).hpt = s.hpt ∧ (updRing g f s).stats = s.stats ∧
    (updRing g f s).win = s.win ∧ (updRing g f s).ttb = s.ttb ∧ (updRing g f s).cay = s.cay ∧ (updRing g f s).mdf = s.mdf ∧
    (updRing g f s).kst = s.kst ∧ (updRing g f s).leg = s.leg ∧ (updRing g f s).vlt = s.vlt ∧ (updRing g f s).slc = s.slc ∧
    (updRing g f s).evr = s.evr ∧ (updRing g f s).rng = s.rng ∧ (updRing g f s).lat = s.lat ∧ (updRing g f s).bnv = s.bnv ∧
    (updRing g f s).ucp = s.ucp ∧ (updRing g f s).wld = s.wld ∧ (updRing g f s).tmp = s.tmp ∧ (updRing g f s).bbr = s.bbr ∧
    (updRing g f s).lcs = s.lcs ∧ (updRing g f s).fuses = s.fuses ∧ (updRing g f s).mnf = s.mnf ∧
    (updRing g f s).flash = s.flash ∧ (updRing g f s).fwu = s.fwu ∧ (updRing g f s).drb = s.drb ∧
    (updRing g f s).mem = s.mem ∧ (updRing g f s).gov = s.gov ∧ (updRing g f s).shown = s.shown :=
  ⟨rfl, rfl, rfl, rfl, rfl, rfl, rfl, rfl, rfl, rfl, rfl, rfl, rfl, rfl, rfl, rfl, rfl, rfl, rfl, rfl, rfl, rfl, rfl, rfl, rfl, rfl, rfl, rfl, rfl, rfl, rfl, rfl, rfl, rfl⟩
/-- `updCarr` leaves every part but `car`. -/
@[simp] theorem updCarr_frame (t : Nat) (f : Carriage → Carriage) (s : State) :
    (updCarr t f s).pending = s.pending ∧ (updCarr t f s).out = s.out ∧ (updCarr t f s).free = s.free ∧
    (updCarr t f s).now = s.now ∧ (updCarr t f s).csn = s.csn ∧ (updCarr t f s).chp = s.chp ∧
    (updCarr t f s).pins = s.pins ∧ (updCarr t f s).hpt = s.hpt ∧ (updCarr t f s).stats = s.stats ∧
    (updCarr t f s).win = s.win ∧ (updCarr t f s).ttb = s.ttb ∧ (updCarr t f s).cay = s.cay ∧ (updCarr t f s).mdf = s.mdf ∧
    (updCarr t f s).kst = s.kst ∧ (updCarr t f s).leg = s.leg ∧ (updCarr t f s).vlt = s.vlt ∧ (updCarr t f s).slc = s.slc ∧
    (updCarr t f s).evr = s.evr ∧ (updCarr t f s).rng = s.rng ∧ (updCarr t f s).lat = s.lat ∧ (updCarr t f s).bnv = s.bnv ∧
    (updCarr t f s).ucp = s.ucp ∧ (updCarr t f s).wld = s.wld ∧ (updCarr t f s).tmp = s.tmp ∧ (updCarr t f s).bbr = s.bbr ∧
    (updCarr t f s).lcs = s.lcs ∧ (updCarr t f s).fuses = s.fuses ∧ (updCarr t f s).mnf = s.mnf ∧
    (updCarr t f s).flash = s.flash ∧ (updCarr t f s).fwu = s.fwu ∧ (updCarr t f s).drb = s.drb ∧
    (updCarr t f s).mem = s.mem ∧ (updCarr t f s).gov = s.gov ∧ (updCarr t f s).shown = s.shown :=
  ⟨rfl, rfl, rfl, rfl, rfl, rfl, rfl, rfl, rfl, rfl, rfl, rfl, rfl, rfl, rfl, rfl, rfl, rfl, rfl, rfl, rfl, rfl, rfl, rfl, rfl, rfl, rfl, rfl, rfl, rfl, rfl, rfl, rfl, rfl⟩
/-- `updSlice` leaves every part but `slc`. -/
@[simp] theorem updSlice_frame (n : Nat) (f : Slice → Slice) (s : State) :
    (updSlice n f s).pending = s.pending ∧ (updSlice n f s).out = s.out ∧ (updSlice n f s).free = s.free ∧
    (updSlice n f s).now = s.now ∧ (updSlice n f s).csn = s.csn ∧ (updSlice n f s).chp = s.chp ∧
    (updSlice n f s).pins = s.pins ∧ (updSlice n f s).hpt = s.hpt ∧ (updSlice n f s).stats = s.stats ∧
    (updSlice n f s).win = s.win ∧ (updSlice n f s).ttb = s.ttb ∧ (updSlice n f s).car = s.car ∧
    (updSlice n f s).cay = s.cay ∧ (updSlice n f s).mdf = s.mdf ∧ (updSlice n f s).kst = s.kst ∧
    (updSlice n f s).leg = s.leg ∧ (updSlice n f s).vlt = s.vlt ∧ (updSlice n f s).evr = s.evr ∧
    (updSlice n f s).rng = s.rng ∧ (updSlice n f s).lat = s.lat ∧ (updSlice n f s).bnv = s.bnv ∧
    (updSlice n f s).ucp = s.ucp ∧ (updSlice n f s).wld = s.wld ∧ (updSlice n f s).tmp = s.tmp ∧
    (updSlice n f s).bbr = s.bbr ∧ (updSlice n f s).lcs = s.lcs ∧ (updSlice n f s).fuses = s.fuses ∧
    (updSlice n f s).mnf = s.mnf ∧ (updSlice n f s).flash = s.flash ∧ (updSlice n f s).fwu = s.fwu ∧
    (updSlice n f s).drb = s.drb ∧ (updSlice n f s).mem = s.mem ∧ (updSlice n f s).gov = s.gov ∧
    (updSlice n f s).shown = s.shown :=
  ⟨rfl, rfl, rfl, rfl, rfl, rfl, rfl, rfl, rfl, rfl, rfl, rfl, rfl, rfl, rfl, rfl, rfl, rfl, rfl, rfl, rfl, rfl, rfl, rfl, rfl, rfl, rfl, rfl, rfl, rfl, rfl, rfl, rfl, rfl⟩
/-- `updSlot` leaves every part but `kst`. -/
@[simp] theorem updSlot_frame (i : Nat) (f : Slot → Slot) (s : State) :
    (updSlot i f s).pending = s.pending ∧ (updSlot i f s).out = s.out ∧ (updSlot i f s).free = s.free ∧
    (updSlot i f s).now = s.now ∧ (updSlot i f s).csn = s.csn ∧ (updSlot i f s).chp = s.chp ∧
    (updSlot i f s).pins = s.pins ∧ (updSlot i f s).hpt = s.hpt ∧ (updSlot i f s).stats = s.stats ∧
    (updSlot i f s).win = s.win ∧ (updSlot i f s).ttb = s.ttb ∧ (updSlot i f s).car = s.car ∧ (updSlot i f s).cay = s.cay ∧
    (updSlot i f s).mdf = s.mdf ∧ (updSlot i f s).leg = s.leg ∧ (updSlot i f s).vlt = s.vlt ∧ (updSlot i f s).slc = s.slc ∧
    (updSlot i f s).evr = s.evr ∧ (updSlot i f s).rng = s.rng ∧ (updSlot i f s).lat = s.lat ∧ (updSlot i f s).bnv = s.bnv ∧
    (updSlot i f s).ucp = s.ucp ∧ (updSlot i f s).wld = s.wld ∧ (updSlot i f s).tmp = s.tmp ∧ (updSlot i f s).bbr = s.bbr ∧
    (updSlot i f s).lcs = s.lcs ∧ (updSlot i f s).fuses = s.fuses ∧ (updSlot i f s).mnf = s.mnf ∧
    (updSlot i f s).flash = s.flash ∧ (updSlot i f s).fwu = s.fwu ∧ (updSlot i f s).drb = s.drb ∧
    (updSlot i f s).mem = s.mem ∧ (updSlot i f s).gov = s.gov ∧ (updSlot i f s).shown = s.shown :=
  ⟨rfl, rfl, rfl, rfl, rfl, rfl, rfl, rfl, rfl, rfl, rfl, rfl, rfl, rfl, rfl, rfl, rfl, rfl, rfl, rfl, rfl, rfl, rfl, rfl, rfl, rfl, rfl, rfl, rfl, rfl, rfl, rfl, rfl, rfl⟩
/-- `updDrive` leaves every part but `mdf`. -/
@[simp] theorem updDrive_frame (d : Nat) (f : Drive → Drive) (s : State) :
    (updDrive d f s).pending = s.pending ∧ (updDrive d f s).out = s.out ∧ (updDrive d f s).free = s.free ∧
    (updDrive d f s).now = s.now ∧ (updDrive d f s).csn = s.csn ∧ (updDrive d f s).chp = s.chp ∧
    (updDrive d f s).pins = s.pins ∧ (updDrive d f s).hpt = s.hpt ∧ (updDrive d f s).stats = s.stats ∧
    (updDrive d f s).win = s.win ∧ (updDrive d f s).ttb = s.ttb ∧ (updDrive d f s).car = s.car ∧
    (updDrive d f s).cay = s.cay ∧ (updDrive d f s).kst = s.kst ∧ (updDrive d f s).leg = s.leg ∧
    (updDrive d f s).vlt = s.vlt ∧ (updDrive d f s).slc = s.slc ∧ (updDrive d f s).evr = s.evr ∧
    (updDrive d f s).rng = s.rng ∧ (updDrive d f s).lat = s.lat ∧ (updDrive d f s).bnv = s.bnv ∧
    (updDrive d f s).ucp = s.ucp ∧ (updDrive d f s).wld = s.wld ∧ (updDrive d f s).tmp = s.tmp ∧
    (updDrive d f s).bbr = s.bbr ∧ (updDrive d f s).lcs = s.lcs ∧ (updDrive d f s).fuses = s.fuses ∧
    (updDrive d f s).mnf = s.mnf ∧ (updDrive d f s).flash = s.flash ∧ (updDrive d f s).fwu = s.fwu ∧
    (updDrive d f s).drb = s.drb ∧ (updDrive d f s).mem = s.mem ∧ (updDrive d f s).gov = s.gov ∧
    (updDrive d f s).shown = s.shown :=
  ⟨rfl, rfl, rfl, rfl, rfl, rfl, rfl, rfl, rfl, rfl, rfl, rfl, rfl, rfl, rfl, rfl, rfl, rfl, rfl, rfl, rfl, rfl, rfl, rfl, rfl, rfl, rfl, rfl, rfl, rfl, rfl, rfl, rfl, rfl⟩
/-- `updDiag` leaves every part but `mdf`. -/
@[simp] theorem updDiag_frame (d : Nat) (f : DriveDiag → DriveDiag) (s : State) :
    (updDiag d f s).pending = s.pending ∧ (updDiag d f s).out = s.out ∧ (updDiag d f s).free = s.free ∧
    (updDiag d f s).now = s.now ∧ (updDiag d f s).csn = s.csn ∧ (updDiag d f s).chp = s.chp ∧
    (updDiag d f s).pins = s.pins ∧ (updDiag d f s).hpt = s.hpt ∧ (updDiag d f s).stats = s.stats ∧
    (updDiag d f s).win = s.win ∧ (updDiag d f s).ttb = s.ttb ∧ (updDiag d f s).car = s.car ∧ (updDiag d f s).cay = s.cay ∧
    (updDiag d f s).kst = s.kst ∧ (updDiag d f s).leg = s.leg ∧ (updDiag d f s).vlt = s.vlt ∧ (updDiag d f s).slc = s.slc ∧
    (updDiag d f s).evr = s.evr ∧ (updDiag d f s).rng = s.rng ∧ (updDiag d f s).lat = s.lat ∧ (updDiag d f s).bnv = s.bnv ∧
    (updDiag d f s).ucp = s.ucp ∧ (updDiag d f s).wld = s.wld ∧ (updDiag d f s).tmp = s.tmp ∧ (updDiag d f s).bbr = s.bbr ∧
    (updDiag d f s).lcs = s.lcs ∧ (updDiag d f s).fuses = s.fuses ∧ (updDiag d f s).mnf = s.mnf ∧
    (updDiag d f s).flash = s.flash ∧ (updDiag d f s).fwu = s.fwu ∧ (updDiag d f s).drb = s.drb ∧
    (updDiag d f s).mem = s.mem ∧ (updDiag d f s).gov = s.gov ∧ (updDiag d f s).shown = s.shown :=
  ⟨rfl, rfl, rfl, rfl, rfl, rfl, rfl, rfl, rfl, rfl, rfl, rfl, rfl, rfl, rfl, rfl, rfl, rfl, rfl, rfl, rfl, rfl, rfl, rfl, rfl, rfl, rfl, rfl, rfl, rfl, rfl, rfl, rfl, rfl⟩
/-- `updShelf` leaves every part but `mdf`. -/
@[simp] theorem updShelf_frame (n : Nat) (f : Shelf → Shelf) (s : State) :
    (updShelf n f s).pending = s.pending ∧ (updShelf n f s).out = s.out ∧ (updShelf n f s).free = s.free ∧
    (updShelf n f s).now = s.now ∧ (updShelf n f s).csn = s.csn ∧ (updShelf n f s).chp = s.chp ∧
    (updShelf n f s).pins = s.pins ∧ (updShelf n f s).hpt = s.hpt ∧ (updShelf n f s).stats = s.stats ∧
    (updShelf n f s).win = s.win ∧ (updShelf n f s).ttb = s.ttb ∧ (updShelf n f s).car = s.car ∧
    (updShelf n f s).cay = s.cay ∧ (updShelf n f s).kst = s.kst ∧ (updShelf n f s).leg = s.leg ∧
    (updShelf n f s).vlt = s.vlt ∧ (updShelf n f s).slc = s.slc ∧ (updShelf n f s).evr = s.evr ∧
    (updShelf n f s).rng = s.rng ∧ (updShelf n f s).lat = s.lat ∧ (updShelf n f s).bnv = s.bnv ∧
    (updShelf n f s).ucp = s.ucp ∧ (updShelf n f s).wld = s.wld ∧ (updShelf n f s).tmp = s.tmp ∧
    (updShelf n f s).bbr = s.bbr ∧ (updShelf n f s).lcs = s.lcs ∧ (updShelf n f s).fuses = s.fuses ∧
    (updShelf n f s).mnf = s.mnf ∧ (updShelf n f s).flash = s.flash ∧ (updShelf n f s).fwu = s.fwu ∧
    (updShelf n f s).drb = s.drb ∧ (updShelf n f s).mem = s.mem ∧ (updShelf n f s).gov = s.gov ∧
    (updShelf n f s).shown = s.shown :=
  ⟨rfl, rfl, rfl, rfl, rfl, rfl, rfl, rfl, rfl, rfl, rfl, rfl, rfl, rfl, rfl, rfl, rfl, rfl, rfl, rfl, rfl, rfl, rfl, rfl, rfl, rfl, rfl, rfl, rfl, rfl, rfl, rfl, rfl, rfl⟩
/-- `updLink` leaves every part but `mdf`. -/
@[simp] theorem updLink_frame (n : Nat) (f : SbLink → SbLink) (s : State) :
    (updLink n f s).pending = s.pending ∧ (updLink n f s).out = s.out ∧ (updLink n f s).free = s.free ∧
    (updLink n f s).now = s.now ∧ (updLink n f s).csn = s.csn ∧ (updLink n f s).chp = s.chp ∧
    (updLink n f s).pins = s.pins ∧ (updLink n f s).hpt = s.hpt ∧ (updLink n f s).stats = s.stats ∧
    (updLink n f s).win = s.win ∧ (updLink n f s).ttb = s.ttb ∧ (updLink n f s).car = s.car ∧ (updLink n f s).cay = s.cay ∧
    (updLink n f s).kst = s.kst ∧ (updLink n f s).leg = s.leg ∧ (updLink n f s).vlt = s.vlt ∧ (updLink n f s).slc = s.slc ∧
    (updLink n f s).evr = s.evr ∧ (updLink n f s).rng = s.rng ∧ (updLink n f s).lat = s.lat ∧ (updLink n f s).bnv = s.bnv ∧
    (updLink n f s).ucp = s.ucp ∧ (updLink n f s).wld = s.wld ∧ (updLink n f s).tmp = s.tmp ∧ (updLink n f s).bbr = s.bbr ∧
    (updLink n f s).lcs = s.lcs ∧ (updLink n f s).fuses = s.fuses ∧ (updLink n f s).mnf = s.mnf ∧
    (updLink n f s).flash = s.flash ∧ (updLink n f s).fwu = s.fwu ∧ (updLink n f s).drb = s.drb ∧
    (updLink n f s).mem = s.mem ∧ (updLink n f s).gov = s.gov ∧ (updLink n f s).shown = s.shown :=
  ⟨rfl, rfl, rfl, rfl, rfl, rfl, rfl, rfl, rfl, rfl, rfl, rfl, rfl, rfl, rfl, rfl, rfl, rfl, rfl, rfl, rfl, rfl, rfl, rfl, rfl, rfl, rfl, rfl, rfl, rfl, rfl, rfl, rfl, rfl⟩
/-- `updRegion` leaves every part but `cay`. -/
@[simp] theorem updRegion_frame (r : Nat) (f : Region → Region) (s : State) :
    (updRegion r f s).pending = s.pending ∧ (updRegion r f s).out = s.out ∧ (updRegion r f s).free = s.free ∧
    (updRegion r f s).now = s.now ∧ (updRegion r f s).csn = s.csn ∧ (updRegion r f s).chp = s.chp ∧
    (updRegion r f s).pins = s.pins ∧ (updRegion r f s).hpt = s.hpt ∧ (updRegion r f s).stats = s.stats ∧
    (updRegion r f s).win = s.win ∧ (updRegion r f s).ttb = s.ttb ∧ (updRegion r f s).car = s.car ∧
    (updRegion r f s).mdf = s.mdf ∧ (updRegion r f s).kst = s.kst ∧ (updRegion r f s).leg = s.leg ∧
    (updRegion r f s).vlt = s.vlt ∧ (updRegion r f s).slc = s.slc ∧ (updRegion r f s).evr = s.evr ∧
    (updRegion r f s).rng = s.rng ∧ (updRegion r f s).lat = s.lat ∧ (updRegion r f s).bnv = s.bnv ∧
    (updRegion r f s).ucp = s.ucp ∧ (updRegion r f s).wld = s.wld ∧ (updRegion r f s).tmp = s.tmp ∧
    (updRegion r f s).bbr = s.bbr ∧ (updRegion r f s).lcs = s.lcs ∧ (updRegion r f s).fuses = s.fuses ∧
    (updRegion r f s).mnf = s.mnf ∧ (updRegion r f s).flash = s.flash ∧ (updRegion r f s).fwu = s.fwu ∧
    (updRegion r f s).drb = s.drb ∧ (updRegion r f s).mem = s.mem ∧ (updRegion r f s).gov = s.gov ∧
    (updRegion r f s).shown = s.shown :=
  ⟨rfl, rfl, rfl, rfl, rfl, rfl, rfl, rfl, rfl, rfl, rfl, rfl, rfl, rfl, rfl, rfl, rfl, rfl, rfl, rfl, rfl, rfl, rfl, rfl, rfl, rfl, rfl, rfl, rfl, rfl, rfl, rfl, rfl, rfl⟩
/-- `updWork` leaves every part but `cay`. -/
@[simp] theorem updWork_frame (r : Nat) (f : RegionWork → RegionWork) (s : State) :
    (updWork r f s).pending = s.pending ∧ (updWork r f s).out = s.out ∧ (updWork r f s).free = s.free ∧
    (updWork r f s).now = s.now ∧ (updWork r f s).csn = s.csn ∧ (updWork r f s).chp = s.chp ∧
    (updWork r f s).pins = s.pins ∧ (updWork r f s).hpt = s.hpt ∧ (updWork r f s).stats = s.stats ∧
    (updWork r f s).win = s.win ∧ (updWork r f s).ttb = s.ttb ∧ (updWork r f s).car = s.car ∧ (updWork r f s).mdf = s.mdf ∧
    (updWork r f s).kst = s.kst ∧ (updWork r f s).leg = s.leg ∧ (updWork r f s).vlt = s.vlt ∧ (updWork r f s).slc = s.slc ∧
    (updWork r f s).evr = s.evr ∧ (updWork r f s).rng = s.rng ∧ (updWork r f s).lat = s.lat ∧ (updWork r f s).bnv = s.bnv ∧
    (updWork r f s).ucp = s.ucp ∧ (updWork r f s).wld = s.wld ∧ (updWork r f s).tmp = s.tmp ∧ (updWork r f s).bbr = s.bbr ∧
    (updWork r f s).lcs = s.lcs ∧ (updWork r f s).fuses = s.fuses ∧ (updWork r f s).mnf = s.mnf ∧
    (updWork r f s).flash = s.flash ∧ (updWork r f s).fwu = s.fwu ∧ (updWork r f s).drb = s.drb ∧
    (updWork r f s).mem = s.mem ∧ (updWork r f s).gov = s.gov ∧ (updWork r f s).shown = s.shown :=
  ⟨rfl, rfl, rfl, rfl, rfl, rfl, rfl, rfl, rfl, rfl, rfl, rfl, rfl, rfl, rfl, rfl, rfl, rfl, rfl, rfl, rfl, rfl, rfl, rfl, rfl, rfl, rfl, rfl, rfl, rfl, rfl, rfl, rfl, rfl⟩
/-- `updTable` leaves every part but `ttb`. -/
@[simp] theorem updTable_frame (n : Nat) (f : Turntable → Turntable) (s : State) :
    (updTable n f s).pending = s.pending ∧ (updTable n f s).out = s.out ∧ (updTable n f s).free = s.free ∧
    (updTable n f s).now = s.now ∧ (updTable n f s).csn = s.csn ∧ (updTable n f s).chp = s.chp ∧
    (updTable n f s).pins = s.pins ∧ (updTable n f s).hpt = s.hpt ∧ (updTable n f s).stats = s.stats ∧
    (updTable n f s).win = s.win ∧ (updTable n f s).car = s.car ∧ (updTable n f s).cay = s.cay ∧
    (updTable n f s).mdf = s.mdf ∧ (updTable n f s).kst = s.kst ∧ (updTable n f s).leg = s.leg ∧
    (updTable n f s).vlt = s.vlt ∧ (updTable n f s).slc = s.slc ∧ (updTable n f s).evr = s.evr ∧
    (updTable n f s).rng = s.rng ∧ (updTable n f s).lat = s.lat ∧ (updTable n f s).bnv = s.bnv ∧
    (updTable n f s).ucp = s.ucp ∧ (updTable n f s).wld = s.wld ∧ (updTable n f s).tmp = s.tmp ∧
    (updTable n f s).bbr = s.bbr ∧ (updTable n f s).lcs = s.lcs ∧ (updTable n f s).fuses = s.fuses ∧
    (updTable n f s).mnf = s.mnf ∧ (updTable n f s).flash = s.flash ∧ (updTable n f s).fwu = s.fwu ∧
    (updTable n f s).drb = s.drb ∧ (updTable n f s).mem = s.mem ∧ (updTable n f s).gov = s.gov ∧
    (updTable n f s).shown = s.shown :=
  ⟨rfl, rfl, rfl, rfl, rfl, rfl, rfl, rfl, rfl, rfl, rfl, rfl, rfl, rfl, rfl, rfl, rfl, rfl, rfl, rfl, rfl, rfl, rfl, rfl, rfl, rfl, rfl, rfl, rfl, rfl, rfl, rfl, rfl, rfl⟩
/-- `updProp` leaves every part but `vlt`. -/
@[simp] theorem updProp_frame (i : Nat) (f : Proposal → Proposal) (s : State) :
    (updProp i f s).pending = s.pending ∧ (updProp i f s).out = s.out ∧ (updProp i f s).free = s.free ∧
    (updProp i f s).now = s.now ∧ (updProp i f s).csn = s.csn ∧ (updProp i f s).chp = s.chp ∧
    (updProp i f s).pins = s.pins ∧ (updProp i f s).hpt = s.hpt ∧ (updProp i f s).stats = s.stats ∧
    (updProp i f s).win = s.win ∧ (updProp i f s).ttb = s.ttb ∧ (updProp i f s).car = s.car ∧ (updProp i f s).cay = s.cay ∧
    (updProp i f s).mdf = s.mdf ∧ (updProp i f s).kst = s.kst ∧ (updProp i f s).leg = s.leg ∧ (updProp i f s).slc = s.slc ∧
    (updProp i f s).evr = s.evr ∧ (updProp i f s).rng = s.rng ∧ (updProp i f s).lat = s.lat ∧ (updProp i f s).bnv = s.bnv ∧
    (updProp i f s).ucp = s.ucp ∧ (updProp i f s).wld = s.wld ∧ (updProp i f s).tmp = s.tmp ∧ (updProp i f s).bbr = s.bbr ∧
    (updProp i f s).lcs = s.lcs ∧ (updProp i f s).fuses = s.fuses ∧ (updProp i f s).mnf = s.mnf ∧
    (updProp i f s).flash = s.flash ∧ (updProp i f s).fwu = s.fwu ∧ (updProp i f s).drb = s.drb ∧
    (updProp i f s).mem = s.mem ∧ (updProp i f s).gov = s.gov ∧ (updProp i f s).shown = s.shown :=
  ⟨rfl, rfl, rfl, rfl, rfl, rfl, rfl, rfl, rfl, rfl, rfl, rfl, rfl, rfl, rfl, rfl, rfl, rfl, rfl, rfl, rfl, rfl, rfl, rfl, rfl, rfl, rfl, rfl, rfl, rfl, rfl, rfl, rfl, rfl⟩
/-- `updBlock` leaves every part but `cay`. -/
@[simp] theorem updBlock_frame (r b : Nat) (f : Block → Block) (s : State) :
    (updBlock r b f s).pending = s.pending ∧ (updBlock r b f s).out = s.out ∧ (updBlock r b f s).free = s.free ∧
    (updBlock r b f s).now = s.now ∧ (updBlock r b f s).csn = s.csn ∧ (updBlock r b f s).chp = s.chp ∧
    (updBlock r b f s).pins = s.pins ∧ (updBlock r b f s).hpt = s.hpt ∧ (updBlock r b f s).stats = s.stats ∧
    (updBlock r b f s).win = s.win ∧ (updBlock r b f s).ttb = s.ttb ∧ (updBlock r b f s).car = s.car ∧
    (updBlock r b f s).mdf = s.mdf ∧ (updBlock r b f s).kst = s.kst ∧ (updBlock r b f s).leg = s.leg ∧
    (updBlock r b f s).vlt = s.vlt ∧ (updBlock r b f s).slc = s.slc ∧ (updBlock r b f s).evr = s.evr ∧
    (updBlock r b f s).rng = s.rng ∧ (updBlock r b f s).lat = s.lat ∧ (updBlock r b f s).bnv = s.bnv ∧
    (updBlock r b f s).ucp = s.ucp ∧ (updBlock r b f s).wld = s.wld ∧ (updBlock r b f s).tmp = s.tmp ∧
    (updBlock r b f s).bbr = s.bbr ∧ (updBlock r b f s).lcs = s.lcs ∧ (updBlock r b f s).fuses = s.fuses ∧
    (updBlock r b f s).mnf = s.mnf ∧ (updBlock r b f s).flash = s.flash ∧ (updBlock r b f s).fwu = s.fwu ∧
    (updBlock r b f s).drb = s.drb ∧ (updBlock r b f s).mem = s.mem ∧ (updBlock r b f s).gov = s.gov ∧
    (updBlock r b f s).shown = s.shown :=
  ⟨rfl, rfl, rfl, rfl, rfl, rfl, rfl, rfl, rfl, rfl, rfl, rfl, rfl, rfl, rfl, rfl, rfl, rfl, rfl, rfl, rfl, rfl, rfl, rfl, rfl, rfl, rfl, rfl, rfl, rfl, rfl, rfl, rfl, rfl⟩
/-- `draw` leaves every part but `free`. -/
@[simp] theorem draw_frame (s : State) :
    (draw s).pending = s.pending ∧ (draw s).out = s.out ∧ (draw s).now = s.now ∧ (draw s).csn = s.csn ∧
    (draw s).chp = s.chp ∧ (draw s).pins = s.pins ∧ (draw s).hpt = s.hpt ∧ (draw s).stats = s.stats ∧ (draw s).win = s.win ∧
    (draw s).ttb = s.ttb ∧ (draw s).car = s.car ∧ (draw s).cay = s.cay ∧ (draw s).mdf = s.mdf ∧ (draw s).kst = s.kst ∧
    (draw s).leg = s.leg ∧ (draw s).vlt = s.vlt ∧ (draw s).slc = s.slc ∧ (draw s).evr = s.evr ∧ (draw s).rng = s.rng ∧
    (draw s).lat = s.lat ∧ (draw s).bnv = s.bnv ∧ (draw s).ucp = s.ucp ∧ (draw s).wld = s.wld ∧ (draw s).tmp = s.tmp ∧
    (draw s).bbr = s.bbr ∧ (draw s).lcs = s.lcs ∧ (draw s).fuses = s.fuses ∧ (draw s).mnf = s.mnf ∧
    (draw s).flash = s.flash ∧ (draw s).fwu = s.fwu ∧ (draw s).drb = s.drb ∧ (draw s).mem = s.mem ∧ (draw s).gov = s.gov ∧
    (draw s).shown = s.shown :=
  ⟨rfl, rfl, rfl, rfl, rfl, rfl, rfl, rfl, rfl, rfl, rfl, rfl, rfl, rfl, rfl, rfl, rfl, rfl, rfl, rfl, rfl, rfl, rfl, rfl, rfl, rfl, rfl, rfl, rfl, rfl, rfl, rfl, rfl, rfl⟩
/-- `emit` leaves every part but `out`. -/
@[simp] theorem emit_frame (x : Output) (s : State) :
    (emit x s).pending = s.pending ∧ (emit x s).free = s.free ∧ (emit x s).now = s.now ∧ (emit x s).csn = s.csn ∧
    (emit x s).chp = s.chp ∧ (emit x s).pins = s.pins ∧ (emit x s).hpt = s.hpt ∧ (emit x s).stats = s.stats ∧
    (emit x s).win = s.win ∧ (emit x s).ttb = s.ttb ∧ (emit x s).car = s.car ∧ (emit x s).cay = s.cay ∧
    (emit x s).mdf = s.mdf ∧ (emit x s).kst = s.kst ∧ (emit x s).leg = s.leg ∧ (emit x s).vlt = s.vlt ∧
    (emit x s).slc = s.slc ∧ (emit x s).evr = s.evr ∧ (emit x s).rng = s.rng ∧ (emit x s).lat = s.lat ∧
    (emit x s).bnv = s.bnv ∧ (emit x s).ucp = s.ucp ∧ (emit x s).wld = s.wld ∧ (emit x s).tmp = s.tmp ∧
    (emit x s).bbr = s.bbr ∧ (emit x s).lcs = s.lcs ∧ (emit x s).fuses = s.fuses ∧ (emit x s).mnf = s.mnf ∧
    (emit x s).flash = s.flash ∧ (emit x s).fwu = s.fwu ∧ (emit x s).drb = s.drb ∧ (emit x s).mem = s.mem ∧
    (emit x s).gov = s.gov ∧ (emit x s).shown = s.shown :=
  ⟨rfl, rfl, rfl, rfl, rfl, rfl, rfl, rfl, rfl, rfl, rfl, rfl, rfl, rfl, rfl, rfl, rfl, rfl, rfl, rfl, rfl, rfl, rfl, rfl, rfl, rfl, rfl, rfl, rfl, rfl, rfl, rfl, rfl, rfl⟩
/-- `answer` leaves every part but `out`. -/
@[simp] theorem answer_frame (p : Port) (v : Nat) (s : State) :
    (answer p v s).pending = s.pending ∧ (answer p v s).free = s.free ∧ (answer p v s).now = s.now ∧
    (answer p v s).csn = s.csn ∧ (answer p v s).chp = s.chp ∧ (answer p v s).pins = s.pins ∧ (answer p v s).hpt = s.hpt ∧
    (answer p v s).stats = s.stats ∧ (answer p v s).win = s.win ∧ (answer p v s).ttb = s.ttb ∧ (answer p v s).car = s.car ∧
    (answer p v s).cay = s.cay ∧ (answer p v s).mdf = s.mdf ∧ (answer p v s).kst = s.kst ∧ (answer p v s).leg = s.leg ∧
    (answer p v s).vlt = s.vlt ∧ (answer p v s).slc = s.slc ∧ (answer p v s).evr = s.evr ∧ (answer p v s).rng = s.rng ∧
    (answer p v s).lat = s.lat ∧ (answer p v s).bnv = s.bnv ∧ (answer p v s).ucp = s.ucp ∧ (answer p v s).wld = s.wld ∧
    (answer p v s).tmp = s.tmp ∧ (answer p v s).bbr = s.bbr ∧ (answer p v s).lcs = s.lcs ∧ (answer p v s).fuses = s.fuses ∧
    (answer p v s).mnf = s.mnf ∧ (answer p v s).flash = s.flash ∧ (answer p v s).fwu = s.fwu ∧ (answer p v s).drb = s.drb ∧
    (answer p v s).mem = s.mem ∧ (answer p v s).gov = s.gov ∧ (answer p v s).shown = s.shown :=
  ⟨rfl, rfl, rfl, rfl, rfl, rfl, rfl, rfl, rfl, rfl, rfl, rfl, rfl, rfl, rfl, rfl, rfl, rfl, rfl, rfl, rfl, rfl, rfl, rfl, rfl, rfl, rfl, rfl, rfl, rfl, rfl, rfl, rfl, rfl⟩
/-- `seqdAlways` leaves every part but `csn`. -/
@[simp] theorem seqdAlways_frame (s : State) :
    (seqdAlways s).pending = s.pending ∧ (seqdAlways s).out = s.out ∧ (seqdAlways s).free = s.free ∧
    (seqdAlways s).now = s.now ∧ (seqdAlways s).chp = s.chp ∧ (seqdAlways s).pins = s.pins ∧ (seqdAlways s).hpt = s.hpt ∧
    (seqdAlways s).stats = s.stats ∧ (seqdAlways s).win = s.win ∧ (seqdAlways s).ttb = s.ttb ∧ (seqdAlways s).car = s.car ∧
    (seqdAlways s).cay = s.cay ∧ (seqdAlways s).mdf = s.mdf ∧ (seqdAlways s).kst = s.kst ∧ (seqdAlways s).leg = s.leg ∧
    (seqdAlways s).vlt = s.vlt ∧ (seqdAlways s).slc = s.slc ∧ (seqdAlways s).evr = s.evr ∧ (seqdAlways s).rng = s.rng ∧
    (seqdAlways s).lat = s.lat ∧ (seqdAlways s).bnv = s.bnv ∧ (seqdAlways s).ucp = s.ucp ∧ (seqdAlways s).wld = s.wld ∧
    (seqdAlways s).tmp = s.tmp ∧ (seqdAlways s).bbr = s.bbr ∧ (seqdAlways s).lcs = s.lcs ∧ (seqdAlways s).fuses = s.fuses ∧
    (seqdAlways s).mnf = s.mnf ∧ (seqdAlways s).flash = s.flash ∧ (seqdAlways s).fwu = s.fwu ∧ (seqdAlways s).drb = s.drb ∧
    (seqdAlways s).mem = s.mem ∧ (seqdAlways s).gov = s.gov ∧ (seqdAlways s).shown = s.shown :=
  ⟨rfl, rfl, rfl, rfl, rfl, rfl, rfl, rfl, rfl, rfl, rfl, rfl, rfl, rfl, rfl, rfl, rfl, rfl, rfl, rfl, rfl, rfl, rfl, rfl, rfl, rfl, rfl, rfl, rfl, rfl, rfl, rfl, rfl, rfl⟩

/-- A draw advances the counter of free values. -/
@[simp] theorem draw_free (s : State) : (draw s).free = s.free + 1 := rfl
/-- What is sent joins the end of what was. -/
@[simp] theorem emit_out (x : Output) (s : State) : (emit x s).out = s.out ++ [x] := rfl
/-- An answer joins the end of what was sent. -/
@[simp] theorem answer_out (p : Port) (v : Nat) (s : State) : (answer p v s).out = s.out ++ [.answer p v] := rfl
/-- The completion of a FAULT takes the next CSN. -/
@[simp] theorem seqdAlways_csn (s : State) : (seqdAlways s).csn = s.csn + 1 := rfl

/-! ### One value for each port -/

/-- The changed side reads as changed. -/
@[simp] theorem get_upd_same {α : Type} (x : Both α) (p : Port) (f : α → α) : (x.upd p f).get p = f (x.get p) := by cases p <;> rfl
/-- The other side reads as before. -/
@[simp] theorem get_upd_other {α : Type} (x : Both α) (p : Port) (f : α → α) : (x.upd p f).get p.other = x.get p.other := by
  cases p <;> rfl
/-- A side other than the changed one reads as before. -/
theorem get_upd_ne {α : Type} (x : Both α) (p q : Port) (f : α → α) (h : q ≠ p) : (x.upd p f).get q = x.get q := by
  cases p <;> cases q <;> first | rfl | exact absurd rfl h
/-- The set side reads as set. -/
@[simp] theorem get_set_same {α : Type} (x : Both α) (p : Port) (v : α) : (x.set p v).get p = v := by cases p <;> rfl
/-- The other side reads as before. -/
@[simp] theorem get_set_other {α : Type} (x : Both α) (p : Port) (v : α) : (x.set p v).get p.other = x.get p.other := by
  cases p <;> rfl
/-- The other port's other port. -/
@[simp] theorem other_other (p : Port) : p.other.other = p := by cases p <;> rfl
/-- A port is not its other port. -/
@[simp] theorem other_ne (p : Port) : p.other ≠ p := by cases p <;> decide

/-! ### The sequencer -/

/-- Outside FAULT a sequenced action takes the next CSN (R24). -/
theorem seqd_csn (s : State) (h : inFault s = false) : (seqd s).csn = s.csn + 1 := by simp [seqd, h]
/-- In FAULT a sequenced action takes none (R29). -/
theorem seqd_fault (s : State) (h : inFault s = true) : seqd s = s := by simp [seqd, h]

/-- `seqd` leaves everything but the CSN. -/
@[simp] theorem seqd_frame (s : State) :
    (seqd s).pending = s.pending ∧ (seqd s).out = s.out ∧ (seqd s).free = s.free ∧ (seqd s).now = s.now ∧
    (seqd s).chp = s.chp ∧ (seqd s).pins = s.pins ∧ (seqd s).hpt = s.hpt ∧ (seqd s).stats = s.stats ∧ (seqd s).win = s.win ∧
    (seqd s).ttb = s.ttb ∧ (seqd s).car = s.car ∧ (seqd s).cay = s.cay ∧ (seqd s).mdf = s.mdf ∧ (seqd s).kst = s.kst ∧
    (seqd s).leg = s.leg ∧ (seqd s).vlt = s.vlt ∧ (seqd s).slc = s.slc ∧ (seqd s).evr = s.evr ∧ (seqd s).rng = s.rng ∧
    (seqd s).lat = s.lat ∧ (seqd s).bnv = s.bnv ∧ (seqd s).ucp = s.ucp ∧ (seqd s).wld = s.wld ∧ (seqd s).tmp = s.tmp ∧
    (seqd s).bbr = s.bbr ∧ (seqd s).lcs = s.lcs ∧ (seqd s).fuses = s.fuses ∧ (seqd s).mnf = s.mnf ∧
    (seqd s).flash = s.flash ∧ (seqd s).fwu = s.fwu ∧ (seqd s).drb = s.drb ∧ (seqd s).mem = s.mem ∧ (seqd s).gov = s.gov ∧
    (seqd s).shown = s.shown := by
  unfold seqd
  repeat' split
  all_goals simp
/-- `seqIf` leaves everything but the CSN. -/
@[simp] theorem seqIf_frame (c : Bool) (s : State) :
    (seqIf c s).pending = s.pending ∧ (seqIf c s).out = s.out ∧ (seqIf c s).free = s.free ∧ (seqIf c s).now = s.now ∧
    (seqIf c s).chp = s.chp ∧ (seqIf c s).pins = s.pins ∧ (seqIf c s).hpt = s.hpt ∧ (seqIf c s).stats = s.stats ∧
    (seqIf c s).win = s.win ∧ (seqIf c s).ttb = s.ttb ∧ (seqIf c s).car = s.car ∧ (seqIf c s).cay = s.cay ∧
    (seqIf c s).mdf = s.mdf ∧ (seqIf c s).kst = s.kst ∧ (seqIf c s).leg = s.leg ∧ (seqIf c s).vlt = s.vlt ∧
    (seqIf c s).slc = s.slc ∧ (seqIf c s).evr = s.evr ∧ (seqIf c s).rng = s.rng ∧ (seqIf c s).lat = s.lat ∧
    (seqIf c s).bnv = s.bnv ∧ (seqIf c s).ucp = s.ucp ∧ (seqIf c s).wld = s.wld ∧ (seqIf c s).tmp = s.tmp ∧
    (seqIf c s).bbr = s.bbr ∧ (seqIf c s).lcs = s.lcs ∧ (seqIf c s).fuses = s.fuses ∧ (seqIf c s).mnf = s.mnf ∧
    (seqIf c s).flash = s.flash ∧ (seqIf c s).fwu = s.fwu ∧ (seqIf c s).drb = s.drb ∧ (seqIf c s).mem = s.mem ∧
    (seqIf c s).gov = s.gov ∧ (seqIf c s).shown = s.shown := by
  unfold seqIf seqd
  repeat' split
  all_goals simp

end Sys2Proof.Machine
end

