-- ==== Sys2Proof/Laws/Keeps.lean ====
section
/-! SUPPORT. What the shared operations leave alone, as one relation between two states, and the lemmas that carry it
through
an update of any one part. -/
namespace Sys2Proof.Laws

open Sys2Proof.Machine Sys2Proof.Safety

/-- What a run of operations is asked to keep beside the queue and the settings: the sequencer and FAULT, the time, the
fuses, the boot flash, and what only a boot changes. -/
structure Kept where
  seq : Bool := true
  fault : Bool := true
  time : Bool := true
  burn : Bool := true
  flash : Bool := true
  life : Bool := true
deriving DecidableEq, Repr

/-- State `s` comes from `r` with the queue untouched, and the tables canonical and the settings in range as
before; with `seq`, no CSN has been taken
back; with `fault`, FAULT has not been left; with `time`, no time has passed; with `burn` and `flash`, the fuses and
the boot flash are
the same; with `life`, the life-cycle state and the manifest's registers are. -/
def Keeps (kp : Kept) (r s : State) : Prop :=
  s.pending = r.pending ∧ (tablesOk r = true → tablesOk s = true) ∧ (settingsOk r = true → settingsOk s = true) ∧
  (kp.seq = true → r.csn ≤ s.csn) ∧ (kp.fault = true → r.chp.mode = .fault → s.chp.mode = .fault) ∧
  (kp.time = true → s.now = r.now) ∧ (kp.burn = true → s.fuses = r.fuses) ∧ (kp.flash = true → s.flash = r.flash) ∧
  (kp.life = true → s.lcs.state = r.lcs.state ∧ s.mnf = r.mnf)

/-- A command's outcome keeps what `kp` asks. -/
def KeepsRes (kp : Kept) (r : State) (x : Res) : Prop := ∀ t, x = .next t → Keeps kp r t

variable {kp : Kept} {r s : State}

theorem Keeps.refl (kp : Kept) (s : State) : Keeps kp s s := by simp [Keeps]

theorem Keeps.trans {t : State} (h : Keeps kp r s) (k : Keeps kp s t) : Keeps kp r t := by
  obtain ⟨h1, ht, h2, h3, h8, h4, h5, h6, h7⟩ := h
  obtain ⟨k1, kt, k2, k3, k8, k4, k5, k6, k7⟩ := k
  refine ⟨k1.trans h1, fun x => kt (ht x), fun x => k2 (h2 x), fun x => Nat.le_trans (h3 x) (k3 x), fun x y => k8 x
      (h8 x y),
    fun x => (k4 x).trans (h4 x), fun x => (k5 x).trans (h5 x), fun x => (k6 x).trans (h6 x),
    fun x => ⟨(k7 x).1.trans (h7 x).1, (k7 x).2.trans (h7 x).2⟩⟩

theorem keepsRes_next (h : Keeps kp r s) : KeepsRes kp r (.next s) := by
  intro t e
  cases e
  exact h

theorem keeps_ite {c : Prop} [Decidable c] {a b : State} (ha : Keeps kp r a) (hb : Keeps kp r b) :
    Keeps kp r (if c then a else b) := by
  split <;> assumption

theorem keepsRes_ite {c : Prop} [Decidable c] {a b : Res} (ha : KeepsRes kp r a) (hb : KeepsRes kp r b) :
    KeepsRes kp r (if c then a else b) := by
  split <;> assumption

/-- An optional state keeps what `kp` asks where there is one. -/
def KeepsOpt (kp : Kept) (r : State) (x : Option State) : Prop := ∀ u, x = some u → Keeps kp r u

theorem keepsOpt_none : KeepsOpt kp r none := by
  intro u e
  simp at e


theorem keepsOpt_some (h : Keeps kp r s) : KeepsOpt kp r (some s) := by
  intro u e
  cases e
  exact h

theorem keepsOpt_ite {c : Prop} [Decidable c] {a b : Option State} (ha : KeepsOpt kp r a) (hb : KeepsOpt kp r b) :
    KeepsOpt kp r (if c then a else b) := by
  split <;> assumption

theorem keepsOpt_map {α : Type} {x : Option α} {f : α → State} (h : ∀ a, Keeps kp r (f a)) : KeepsOpt kp r (x.map f)
    := by
  intro u e
  obtain ⟨a, -, rfl⟩ := Option.map_eq_some_iff.mp e
  exact h a

theorem keepsOpt_bind {α : Type} {x : Option α} {f : α → Option State} (h : ∀ a, KeepsOpt kp r (f a)) :
    KeepsOpt kp r (x.bind f) := by
  intro u e
  obtain ⟨a, -, k⟩ := Option.bind_eq_some_iff.mp e
  exact h a u k

/-- An optional outcome keeps what `kp` asks where there is one. -/
def KeepsOptRes (kp : Kept) (r : State) (x : Option Res) : Prop := ∀ u, x = some u → KeepsRes kp r u

theorem keepsOptRes_none : KeepsOptRes kp r none := by
  intro u e
  simp at e


theorem keepsOptRes_some {x : Res} (h : KeepsRes kp r x) : KeepsOptRes kp r (some x) := by
  intro u e
  cases e
  exact h

theorem keepsOptRes_ite {c : Prop} [Decidable c] {a b : Option Res} (ha : KeepsOptRes kp r a) (hb : KeepsOptRes kp r
    b) :
    KeepsOptRes kp r (if c then a else b) := by
  split <;> assumption

/-- What a register write stores keeps what `kp` asks. -/
def KeepsStore (kp : Kept) (r : State) (x : Store) : Prop := ∀ u, x = .sets u → Keeps kp r u

theorem keepsStore_ignored : KeepsStore kp r .ignored := by
  intro u e
  simp at e

theorem keepsStore_range : KeepsStore kp r .range := by
  intro u e
  simp at e

theorem keepsStore_guarded : KeepsStore kp r .guarded := by
  intro u e
  simp at e

theorem keepsStore_foreign : KeepsStore kp r .foreign := by
  intro u e
  simp at e

theorem keepsStore_denied : KeepsStore kp r .denied := by
  intro u e
  simp at e


theorem keepsStore_sets (h : Keeps kp r s) : KeepsStore kp r (.sets s) := by
  intro u e
  cases e
  exact h

theorem keepsStore_ite {c : Prop} [Decidable c] {a b : Store} (ha : KeepsStore kp r a) (hb : KeepsStore kp r b) :
    KeepsStore kp r (if c then a else b) := by
  split <;> assumption

theorem keepsStore_guardedBy {p : Port} {n : Nat} {t : State} {w : Store} (h : KeepsStore kp r w) :
    KeepsStore kp r (guardedBy p n t w) := by
  unfold guardedBy
  exact keepsStore_ite h keepsStore_guarded

theorem keepsStore_ranged {ok : Bool} {t : State} (h : ok = true → Keeps kp r t) : KeepsStore kp r (ranged ok t) := by
  unfold ranged
  split
  · exact keepsStore_sets (h ‹_›)
  · exact keepsStore_range

theorem keepsRes_onlyIf {g : Bool} {t : State} (hs : Keeps kp r s) (ht : Keeps kp r t) : KeepsRes kp r (onlyIf g s t)
    := by
  unfold onlyIf
  exact keepsRes_next (keeps_ite ht hs)

theorem keeps_foldl_snd {α β : Type} {f : β × State → α → β × State}
    (hf : ∀ s x, Keeps kp r s.2 → Keeps kp r (f s x).2) {b : β × State} (h : Keeps kp r b.2) (l : List α) :
    Keeps kp r (l.foldl f b).2 := by
  induction l generalizing b with
  | nil => exact h
  | cons x l ih => exact ih (hf b x h)

theorem keeps_foldl_fst {α β : Type} {f : State × β → α → State × β}
    (hf : ∀ s x, Keeps kp r s.1 → Keeps kp r (f s x).1) {b : State × β} (h : Keeps kp r b.1) (l : List α) :
    Keeps kp r (l.foldl f b).1 := by
  induction l generalizing b with
  | nil => exact h
  | cons x l ih => exact ih (hf b x h)

theorem keeps_foldl {α : Type} {f : State → α → State} (hf : ∀ s x, Keeps kp r s → Keeps kp r (f s x)) (h : Keeps kp r
    s)
    (l : List α) : Keeps kp r (l.foldl f s) := by
  induction l generalizing s with
  | nil => exact h
  | cons x l ih => exact ih (hf s x h)

/-! ### One part replaced -/

theorem Keeps.put_pending {v : List Instr} (h : Keeps kp r s) (hv : v = s.pending) : Keeps kp r { s with pending := v
    } := by
  obtain ⟨h1, h⟩ := h
  exact ⟨hv.trans h1, h⟩

theorem Keeps.put_out {v : List Output} (h : Keeps kp r s) : Keeps kp r { s with out := v } := by
  exact h

theorem Keeps.put_free {v : Nat} (h : Keeps kp r s) : Keeps kp r { s with free := v } := by
  exact h

theorem Keeps.put_now {v : Nat} (h : Keeps kp r s) (hv : kp.time = false) : Keeps kp r { s with now := v } := by
  obtain ⟨h1, t1, h2, h3, h8, _, h⟩ := h
  exact ⟨h1, t1, h2, h3, h8, fun x => by simp [hv] at x, h⟩

theorem Keeps.put_csn {v : Nat} (h : Keeps kp r s) (hv : s.csn ≤ v) : Keeps kp r { s with csn := v } := by
  obtain ⟨h1, t1, h2, h3, h⟩ := h
  exact ⟨h1, t1, h2, fun x => Nat.le_trans (h3 x) hv, h⟩

theorem Keeps.put_chp {v : Chp} (h : Keeps kp r s) (hv : s.chp.mode = .fault → v.mode = .fault) : Keeps kp r { s with
    chp := v } := by
  obtain ⟨h1, t1, h2, h3, h8, h⟩ := h
  exact ⟨h1, t1, h2, h3, fun x y => hv (h8 x y), h⟩

theorem Keeps.put_pins {v : Pins} (h : Keeps kp r s) : Keeps kp r { s with pins := v } := by
  exact h

theorem Keeps.put_hpt {v : Both HptPort} (h : Keeps kp r s) : Keeps kp r { s with hpt := v } := by
  exact h

theorem Keeps.put_stats {v : Both HptStats} (h : Keeps kp r s) : Keeps kp r { s with stats := v } := by
  exact h

theorem Keeps.put_win {v : Both PortWin} (h : Keeps kp r s) : Keeps kp r { s with win := v } := by
  exact h

theorem Keeps.put_ttb {v : Ttb} (h : Keeps kp r s) (ht : twf {} s.ttb.tables = true → twf {} v.tables = true) : Keeps
    kp r { s with ttb := v } := by
  obtain ⟨h1, t1, h2, h⟩ := h
  refine ⟨h1, fun x => ?_, fun x => ?_, h⟩
  · have := t1 x
    simp only [tablesOk, Bool.and_eq_true] at this ⊢
    simp only [this, ht, and_self]
  · exact h2 x

theorem Keeps.put_car {v : Car} (h : Keeps kp r s) (hv : v.brakeAlert = s.car.brakeAlert) (ht : carTables s.car = true
    → carTables v = true) : Keeps kp r { s with car := v } := by
  obtain ⟨h1, t1, h2, h⟩ := h
  refine ⟨h1, fun x => ?_, fun x => ?_, h⟩
  · have := t1 x
    simp only [tablesOk, Bool.and_eq_true] at this ⊢
    simp only [this, ht, and_self]
  · have := h2 x
    simpa only [settingsOk, hv] using this

theorem Keeps.put_cay {v : Cay} (h : Keeps kp r s) (ht : cayTables s.cay = true → cayTables v = true) : Keeps kp r { s
    with cay := v } := by
  obtain ⟨h1, t1, h2, h⟩ := h
  refine ⟨h1, fun x => ?_, fun x => ?_, h⟩
  · have := t1 x
    simp only [tablesOk, Bool.and_eq_true] at this ⊢
    simp only [this, ht, and_self]
  · exact h2 x

theorem Keeps.put_mdf {v : Mdf} (h : Keeps kp r s) (hv : mediaOk v = mediaOk s.mdf) (ht : mdfTables s.mdf = true →
    mdfTables v = true) : Keeps kp r { s with mdf := v } := by
  obtain ⟨h1, t1, h2, h⟩ := h
  refine ⟨h1, fun x => ?_, fun x => ?_, h⟩
  · have := t1 x
    simp only [tablesOk, Bool.and_eq_true] at this ⊢
    simp only [this, ht, and_self]
  · have := h2 x
    simpa only [settingsOk, hv] using this

theorem Keeps.put_kst {v : Kst} (h : Keeps kp r s) (hv : v.remaskPeriod = s.kst.remaskPeriod) (ht : twf {} s.kst.slots
    = true → twf {} v.slots = true) : Keeps kp r { s with kst := v } := by
  obtain ⟨h1, t1, h2, h⟩ := h
  refine ⟨h1, fun x => ?_, fun x => ?_, h⟩
  · have := t1 x
    simp only [tablesOk, Bool.and_eq_true] at this ⊢
    simp only [this, ht, and_self]
  · have := h2 x
    simpa only [settingsOk, hv] using this

theorem Keeps.put_leg {v : Legacy} (h : Keeps kp r s) : Keeps kp r { s with leg := v } := by
  exact h

theorem Keeps.put_vlt {v : Vault} (h : Keeps kp r s) (hv : v.window = s.vlt.window) (ht : twf {} s.vlt.props = true →
    twf {} v.props = true) : Keeps kp r { s with vlt := v } := by
  obtain ⟨h1, t1, h2, h⟩ := h
  refine ⟨h1, fun x => ?_, fun x => ?_, h⟩
  · have := t1 x
    simp only [tablesOk, Bool.and_eq_true] at this ⊢
    simp only [this, ht, and_self]
  · have := h2 x
    simpa only [settingsOk, hv] using this

theorem Keeps.put_slc {v : Slc} (h : Keeps kp r s) (ht : slcTables s.slc = true → slcTables v = true) : Keeps kp r { s
    with slc := v } := by
  obtain ⟨h1, t1, h2, h⟩ := h
  refine ⟨h1, fun x => ?_, fun x => ?_, h⟩
  · have := t1 x
    simp only [tablesOk, Bool.and_eq_true] at this ⊢
    simp only [this, ht, and_self]
  · exact h2 x

theorem Keeps.put_evr {v : Evr} (h : Keeps kp r s) (hv : v.period = s.evr.period) : Keeps kp r { s with evr := v } := by
  obtain ⟨h1, t1, h2, h⟩ := h
  refine ⟨h1, fun x => ?_, fun x => ?_, h⟩
  · exact t1 x
  · have := h2 x
    simpa only [settingsOk, hv] using this

theorem Keeps.put_rng {v : Rng} (h : Keeps kp r s) (hv : v.failLimit = s.rng.failLimit ∧ v.wait = s.rng.wait) : Keeps
    kp r { s with rng := v } := by
  obtain ⟨h1, t1, h2, h⟩ := h
  refine ⟨h1, fun x => ?_, fun x => ?_, h⟩
  · exact t1 x
  · have := h2 x
    simpa only [settingsOk, hv.1, hv.2] using this

theorem Keeps.put_lat {v : Lat} (h : Keeps kp r s) : Keeps kp r { s with lat := v } := by
  exact h

theorem Keeps.put_bnv {v : Bnv} (h : Keeps kp r s) : Keeps kp r { s with bnv := v } := by
  exact h

theorem Keeps.put_ucp {v : Ucp} (h : Keeps kp r s) (hv : v.idle = s.ucp.idle) : Keeps kp r { s with ucp := v } := by
  obtain ⟨h1, t1, h2, h⟩ := h
  refine ⟨h1, fun x => ?_, fun x => ?_, h⟩
  · exact t1 x
  · have := h2 x
    simpa only [settingsOk, hv] using this

theorem Keeps.put_wld {v : Wld} (h : Keeps kp r s) : Keeps kp r { s with wld := v } := by
  exact h

theorem Keeps.put_tmp {v : Tmp} (h : Keeps kp r s) (hv : v.holdoff = s.tmp.holdoff) : Keeps kp r { s with tmp := v }
    := by
  obtain ⟨h1, t1, h2, h⟩ := h
  refine ⟨h1, fun x => ?_, fun x => ?_, h⟩
  · exact t1 x
  · have := h2 x
    simpa only [settingsOk, hv] using this

theorem Keeps.put_bbr {v : Backup} (h : Keeps kp r s) : Keeps kp r { s with bbr := v } := by
  exact h

theorem Keeps.put_lcs {v : Lcs} (h : Keeps kp r s) (hv : v.state = s.lcs.state) : Keeps kp r { s with lcs := v } := by
  obtain ⟨h1, t1, h2, h3, h8, h4, h5, h6, h7⟩ := h
  exact ⟨h1, t1, h2, h3, h8, h4, h5, h6, fun x => ⟨hv.trans (h7 x).1, (h7 x).2⟩⟩

theorem Keeps.put_fuses {v : Fuses} (h : Keeps kp r s) (hv : kp.burn = false) : Keeps kp r { s with fuses := v } := by
  obtain ⟨h1, t1, h2, h3, h8, h4, _, h⟩ := h
  exact ⟨h1, t1, h2, h3, h8, h4, fun x => by simp [hv] at x, h⟩

theorem Keeps.put_mnf {v : Mnf} (h : Keeps kp r s) (hv : kp.life = false) : Keeps kp r { s with mnf := v } := by
  obtain ⟨h1, t1, h2, h3, h8, h4, h5, h6, _⟩ := h
  exact ⟨h1, t1, h2, h3, h8, h4, h5, h6, fun x => by simp [hv] at x⟩

theorem Keeps.put_flash {v : Flash} (h : Keeps kp r s) (hv : kp.flash = false) : Keeps kp r { s with flash := v } := by
  obtain ⟨h1, t1, h2, h3, h8, h4, h5, _, h⟩ := h
  exact ⟨h1, t1, h2, h3, h8, h4, h5, fun x => by simp [hv] at x, h⟩

theorem Keeps.put_fwu {v : Fwu} (h : Keeps kp r s) : Keeps kp r { s with fwu := v } := by
  exact h

theorem Keeps.put_drb {v : Drb} (h : Keeps kp r s) (ht : twf {} s.drb.members = true → twf {} v.members = true) :
    Keeps kp r { s with drb := v } := by
  obtain ⟨h1, t1, h2, h⟩ := h
  refine ⟨h1, fun x => ?_, fun x => ?_, h⟩
  · have := t1 x
    simp only [tablesOk, Bool.and_eq_true] at this ⊢
    simp only [this, ht, and_self]
  · exact h2 x

theorem Keeps.put_mem {v : Mem} (h : Keeps kp r s) : Keeps kp r { s with mem := v } := by
  exact h

theorem Keeps.put_gov {v : Gov} (h : Keeps kp r s) (hv : governorOk v = governorOk s.gov) (ht : twf {} s.gov.regions =
    true → twf {} v.regions = true) : Keeps kp r { s with gov := v } := by
  obtain ⟨h1, t1, h2, h⟩ := h
  refine ⟨h1, fun x => ?_, fun x => ?_, h⟩
  · have := t1 x
    simp only [tablesOk, Bool.and_eq_true] at this ⊢
    simp only [this, ht, and_self]
  · have := h2 x
    simpa only [settingsOk, hv] using this

theorem Keeps.put_shown {v : Option Shown} (h : Keeps kp r s) : Keeps kp r { s with shown := v } := by
  exact h

theorem carOk {c d : Car} (h0 : twf {} c.rings = true → twf {} d.rings = true) (h1 : twf {} c.cars = true → twf {}
    d.cars = true) (h2 : twf {} c.shadows = true → twf {} d.shadows = true) :
    carTables c = true → carTables d = true := by
  simp only [carTables, Bool.and_eq_true]
  intro x
  simp only [h0, h1, h2, x, and_self]

theorem cayOk {c d : Cay} (h0 : twf {} c.regions = true → twf {} d.regions = true) (h1 : twf {} c.work = true → twf {}
    d.work = true) :
    cayTables c = true → cayTables d = true := by
  simp only [cayTables, Bool.and_eq_true]
  intro x
  simp only [h0, h1, x, and_self]

theorem mdfOk {c d : Mdf} (h0 : twf {} c.links = true → twf {} d.links = true) (h1 : twf {} c.shelves = true → twf {}
    d.shelves = true) (h2 : twf {} c.drives = true → twf {} d.drives = true) (h3 : twf {} c.diag = true → twf {}
    d.diag = true) :
    mdfTables c = true → mdfTables d = true := by
  simp only [mdfTables, Bool.and_eq_true]
  intro x
  simp only [h0, h1, h2, h3, x, and_self]

theorem slcOk {c d : Slc} (h0 : twf {} c.slices = true → twf {} d.slices = true) (h1 : twf {} c.binds = true → twf {}
    d.binds = true) :
    slcTables c = true → slcTables d = true := by
  simp only [slcTables, Bool.and_eq_true]
  intro x
  simp only [h0, h1, x, and_self]

/-- Several parts replaced at once. -/
theorem Keeps.step {t : State} (h : Keeps kp r s) (h1 : t.pending = s.pending)
    (ht : tablesOk s = true → tablesOk t = true) (h2 : mediaOk t.mdf = mediaOk s.mdf)
    (h3 : governorOk t.gov = governorOk s.gov) (h4 : t.car.brakeAlert = s.car.brakeAlert)
    (h5 : t.kst.remaskPeriod = s.kst.remaskPeriod) (h6 : t.vlt.window = s.vlt.window) (h7 : t.ucp.idle = s.ucp.idle)
    (h8 : t.rng.failLimit = s.rng.failLimit) (h9 : t.rng.wait = s.rng.wait) (h10 : t.tmp.holdoff = s.tmp.holdoff)
    (h11 : t.evr.period = s.evr.period) (h12 : s.csn ≤ t.csn) (h13 : s.chp.mode = .fault → t.chp.mode = .fault)
    (h14 : kp.time = true → t.now = s.now) (h15 : kp.burn = true → t.fuses = s.fuses)
    (h16 : kp.flash = true → t.flash = s.flash) (h17 : kp.life = true → t.lcs.state = s.lcs.state ∧ t.mnf = s.mnf) :
    Keeps kp r t := by
  refine h.trans ⟨h1, ht, fun x => ?_, fun _ => h12, fun _ => h13, h14, h15, h16, h17⟩
  simpa only [settingsOk, h2, h3, h4, h5, h6, h7, h8, h9, h10, h11] using x

theorem le_clamp {lo hi v : Nat} (h : lo ≤ hi) : (lo ≤ clamp lo hi v) = True := by
  simp only [eq_iff_iff, iff_true]
  unfold clamp
  split
  · exact Nat.le_refl _
  · split <;> omega

theorem clamp_le {lo hi v : Nat} (h : lo ≤ hi) : (clamp lo hi v ≤ hi) = True := by
  simp only [eq_iff_iff, iff_true]
  unfold clamp
  split
  · exact h
  · split <;> omega

/-- A setting replaced by a value in its range. -/
theorem Keeps.set {t : State} (h : Keeps kp r s) (h1 : t.pending = s.pending)
    (ht : tablesOk s = true → tablesOk t = true) (h2 : t.csn = s.csn) (h3 : t.chp = s.chp)
    (h4 : t.now = s.now) (h5 : t.fuses = s.fuses) (h6 : t.flash = s.flash) (h7 : t.lcs = s.lcs) (h8 : t.mnf = s.mnf)
    (hok : settingsOk s = true → settingsOk t = true) : Keeps kp r t :=
  h.trans ⟨h1, ht, hok, fun _ => Nat.le_of_eq h2.symm, fun _ x => h3 ▸ x, fun _ => h4, fun _ => h5, fun _ => h6,
    fun _ => ⟨h7 ▸ rfl, h8⟩⟩

/-- Parts replaced where the sequencer is not asked about. -/
theorem Keeps.unsequenced {t : State} (h : Keeps kp r s) (h0 : kp.seq = false) (h8 : kp.fault = true → s.chp.mode =
    .fault → t.chp.mode = .fault)
    (h1 : t.pending = s.pending) (ht : tablesOk s = true → tablesOk t = true)
    (h2 : settingsOk s = true → settingsOk t = true) (h3 : kp.time = true → t.now = s.now)
    (h4 : kp.burn = true → t.fuses = s.fuses) (h5 : kp.flash = true → t.flash = s.flash)
    (h6 : kp.life = true → t.lcs.state = s.lcs.state ∧ t.mnf = s.mnf) : Keeps kp r t :=
  h.trans ⟨h1, ht, h2, fun x => Bool.noConfusion (x.symm.trans h0), h8, h3, h4, h5, h6⟩

theorem id_keeps (h : Keeps kp r s) : Keeps kp r (id s) := h

/-! ### One part changed -/

theorem updCar_keeps {f : Car → Car} (h : Keeps kp r s) (hv : (f s.car).brakeAlert = s.car.brakeAlert) (ht : carTables
    s.car = true → carTables (f s.car) = true) : Keeps kp r (updCar f s) :=
  h.put_car hv ht

theorem updCay_keeps {f : Cay → Cay} (h : Keeps kp r s) (ht : cayTables s.cay = true → cayTables (f s.cay) = true) :
    Keeps kp r (updCay f s) :=
  h.put_cay ht

theorem updMdf_keeps {f : Mdf → Mdf} (h : Keeps kp r s) (hv : mediaOk (f s.mdf) = mediaOk s.mdf) (ht : mdfTables s.mdf
    = true → mdfTables (f s.mdf) = true) : Keeps kp r (updMdf f s) :=
  h.put_mdf hv ht

theorem updKst_keeps {f : Kst → Kst} (h : Keeps kp r s) (hv : (f s.kst).remaskPeriod = s.kst.remaskPeriod) (ht : twf
    {} s.kst.slots = true → twf {} (f s.kst).slots = true) : Keeps kp r (updKst f s) :=
  h.put_kst hv ht

theorem updVlt_keeps {f : Vault → Vault} (h : Keeps kp r s) (hv : (f s.vlt).window = s.vlt.window) (ht : twf {}
    s.vlt.props = true → twf {} (f s.vlt).props = true) : Keeps kp r (updVlt f s) :=
  h.put_vlt hv ht

theorem updSlc_keeps {f : Slc → Slc} (h : Keeps kp r s) (ht : slcTables s.slc = true → slcTables (f s.slc) = true) :
    Keeps kp r (updSlc f s) :=
  h.put_slc ht

theorem updEvr_keeps {f : Evr → Evr} (h : Keeps kp r s) (hv : (f s.evr).period = s.evr.period) : Keeps kp r (updEvr f
    s) :=
  h.put_evr hv

theorem updRng_keeps {f : Rng → Rng} (h : Keeps kp r s) (hv : (f s.rng).failLimit = s.rng.failLimit ∧ (f s.rng).wait =
    s.rng.wait) : Keeps kp r (updRng f s) :=
  h.put_rng hv

theorem updTmp_keeps {f : Tmp → Tmp} (h : Keeps kp r s) (hv : (f s.tmp).holdoff = s.tmp.holdoff) : Keeps kp r (updTmp
    f s) :=
  h.put_tmp hv

theorem updWld_keeps {f : Wld → Wld} (h : Keeps kp r s) : Keeps kp r (updWld f s) :=
  h.put_wld

theorem updLcs_keeps {f : Lcs → Lcs} (h : Keeps kp r s) (hv : (f s.lcs).state = s.lcs.state) : Keeps kp r (updLcs f s)
    :=
  h.put_lcs hv

theorem updFwu_keeps {f : Fwu → Fwu} (h : Keeps kp r s) : Keeps kp r (updFwu f s) :=
  h.put_fwu

theorem updDrb_keeps {f : Drb → Drb} (h : Keeps kp r s) (ht : twf {} s.drb.members = true → twf {} (f s.drb).members =
    true) : Keeps kp r (updDrb f s) :=
  h.put_drb ht

theorem updGov_keeps {f : Gov → Gov} (h : Keeps kp r s) (hv : governorOk (f s.gov) = governorOk s.gov) (ht : twf {}
    s.gov.regions = true → twf {} (f s.gov).regions = true) : Keeps kp r (updGov f s) :=
  h.put_gov hv ht

theorem updUcp_keeps {f : Ucp → Ucp} (h : Keeps kp r s) (hv : (f s.ucp).idle = s.ucp.idle) : Keeps kp r (updUcp f s) :=
  h.put_ucp hv

theorem updBnv_keeps {f : Bnv → Bnv} (h : Keeps kp r s) : Keeps kp r (updBnv f s) :=
  h.put_bnv

theorem updLat_keeps {f : Lat → Lat} (h : Keeps kp r s) : Keeps kp r (updLat f s) :=
  h.put_lat

theorem updTtb_keeps {f : Ttb → Ttb} (h : Keeps kp r s) (ht : twf {} s.ttb.tables = true → twf {} (f s.ttb).tables =
    true) : Keeps kp r (updTtb f s) :=
  h.put_ttb ht

theorem updHpt_keeps {p : Port} {f : HptPort → HptPort} (h : Keeps kp r s) : Keeps kp r (updHpt p f s) :=
  h.put_hpt

theorem updStats_keeps {p : Port} {f : HptStats → HptStats} (h : Keeps kp r s) : Keeps kp r (updStats p f s) :=
  h.put_stats

theorem updWin_keeps {p : Port} {f : PortWin → PortWin} (h : Keeps kp r s) : Keeps kp r (updWin p f s) :=
  h.put_win

end Sys2Proof.Laws
end

