-- ==== Sys2Proof/Laws/KeepsOps.lean ====
section
/-! SUPPORT. What the shared operations of rings, keys and carriages keep. -/
namespace Sys2Proof.Laws

open Sys2Proof.Machine Sys2Proof.Safety

variable {kp : Kept} {s0 s : State}

theorem shareSync_keeps {s : State} (h : Keeps kp s0 s) :
    Keeps kp s0 (shareSync s) := by
  unfold shareSync
  repeat (with_reducible first | assumption | apply updCay_keeps | apply updSlc_keeps | apply keeps_ite
                               | exact fun x => x | exact twf_tmap _ _ _ | refine cayOk ?_ ?_ | refine slcOk ?_ ?_)

theorem updRing_keeps (g : Nat) (f : Ring → Ring) {s : State} (h : Keeps kp s0 s) :
    Keeps kp s0 (updRing g f s) := by
  unfold updRing
  repeat (first | (with_reducible first | assumption | apply updCar_keeps) | (show _ = _; rfl)
                | (with_reducible first | exact fun x => x | exact twf_tupd _ _ _ _ | refine carOk ?_ ?_ ?_))

theorem updCarr_keeps (t : Nat) (f : Carriage → Carriage) {s : State} (h : Keeps kp s0 s) :
    Keeps kp s0 (updCarr t f s) := by
  unfold updCarr
  repeat (first | (with_reducible first | assumption | apply updCar_keeps) | (show _ = _; rfl)
                | (with_reducible first | exact fun x => x | exact twf_tupd _ _ _ _ | refine carOk ?_ ?_ ?_))

theorem updSlice_keeps (n : Nat) (f : Slice → Slice) {s : State} (h : Keeps kp s0 s) :
    Keeps kp s0 (updSlice n f s) := by
  unfold updSlice
  repeat (with_reducible first | assumption | apply updSlc_keeps | exact fun x => x | exact twf_tupd _ _ _ _
                               | refine slcOk ?_ ?_)

theorem updSlot_keeps (i : Nat) (f : Slot → Slot) {s : State} (h : Keeps kp s0 s) :
    Keeps kp s0 (updSlot i f s) := by
  unfold updSlot
  repeat (first | (with_reducible first | assumption | apply updKst_keeps) | (show _ = _; rfl)
                | with_reducible exact twf_tupd _ _ _ _)

theorem updDrive_keeps (d : Nat) (f : Drive → Drive) {s : State} (h : Keeps kp s0 s) :
    Keeps kp s0 (updDrive d f s) := by
  unfold updDrive
  repeat (first | (with_reducible first | assumption | apply updMdf_keeps) | (show _ = _; rfl)
                | (with_reducible first | exact fun x => x | exact twf_tupd _ _ _ _ | refine mdfOk ?_ ?_ ?_ ?_))

theorem updDiag_keeps (d : Nat) (f : DriveDiag → DriveDiag) {s : State} (h : Keeps kp s0 s) :
    Keeps kp s0 (updDiag d f s) := by
  unfold updDiag
  repeat (first | (with_reducible first | assumption | apply updMdf_keeps) | (show _ = _; rfl)
                | (with_reducible first | exact fun x => x | exact twf_tupd _ _ _ _ | refine mdfOk ?_ ?_ ?_ ?_))

theorem updShelf_keeps (n : Nat) (f : Shelf → Shelf) {s : State} (h : Keeps kp s0 s) :
    Keeps kp s0 (updShelf n f s) := by
  unfold updShelf
  repeat (first | (with_reducible first | assumption | apply updMdf_keeps) | (show _ = _; rfl)
                | (with_reducible first | exact fun x => x | exact twf_tupd _ _ _ _ | refine mdfOk ?_ ?_ ?_ ?_))

theorem updLink_keeps (n : Nat) (f : SbLink → SbLink) {s : State} (h : Keeps kp s0 s) :
    Keeps kp s0 (updLink n f s) := by
  unfold updLink
  repeat (first | (with_reducible first | assumption | apply updMdf_keeps) | (show _ = _; rfl)
                | (with_reducible first | exact fun x => x | exact twf_tupd _ _ _ _ | refine mdfOk ?_ ?_ ?_ ?_))

theorem updRegion_keeps (r : Nat) (f : Region → Region) {s : State} (h : Keeps kp s0 s) :
    Keeps kp s0 (updRegion r f s) := by
  unfold updRegion
  repeat (with_reducible first | assumption | apply updCay_keeps | exact fun x => x | exact twf_tupd _ _ _ _
                               | refine cayOk ?_ ?_)

theorem updWork_keeps (r : Nat) (f : RegionWork → RegionWork) {s : State} (h : Keeps kp s0 s) :
    Keeps kp s0 (updWork r f s) := by
  unfold updWork
  repeat (with_reducible first | assumption | apply updCay_keeps | exact fun x => x | exact twf_tupd _ _ _ _
                               | refine cayOk ?_ ?_)

theorem updBlock_keeps (r : Nat) (b : Nat) (f : Block → Block) {s : State} (h : Keeps kp s0 s) :
    Keeps kp s0 (updBlock r b f s) := by
  unfold updBlock
  repeat (with_reducible first | assumption | apply updWork_keeps)

theorem updTable_keeps (n : Nat) (f : Turntable → Turntable) {s : State} (h : Keeps kp s0 s) :
    Keeps kp s0 (updTable n f s) := by
  unfold updTable
  repeat (with_reducible first | assumption | apply updTtb_keeps | exact twf_tupd _ _ _ _)

theorem updProp_keeps (i : Nat) (f : Proposal → Proposal) {s : State} (h : Keeps kp s0 s) :
    Keeps kp s0 (updProp i f s) := by
  unfold updProp
  repeat (first | (with_reducible first | assumption | apply updVlt_keeps) | (show _ = _; rfl)
                | with_reducible exact twf_tupd _ _ _ _)

theorem keepShown_keeps {s : State} (h : Keeps kp s0 s) :
    Keeps kp s0 (keepShown s) := by
  unfold keepShown
  repeat (with_reducible first | assumption | apply Keeps.put_shown)

theorem seqd_keeps {s : State} (h : Keeps kp s0 s) : Keeps kp s0 (seqd s) := by
  unfold seqd
  exact keeps_ite h (h.put_csn (Nat.le_succ _))

theorem seqIf_keeps (changes : Bool) {s : State} (h : Keeps kp s0 s) :
    Keeps kp s0 (seqIf changes s) := by
  unfold seqIf
  repeat (with_reducible first | assumption | apply seqd_keeps | apply keeps_ite)

theorem seqdAlways_keeps {s : State} (h : Keeps kp s0 s) : Keeps kp s0 (seqdAlways s) := by
  unfold seqdAlways
  exact h.put_csn (Nat.le_succ _)

theorem draw_keeps {s : State} (h : Keeps kp s0 s) :
    Keeps kp s0 (draw s) := by
  unfold draw
  repeat (with_reducible first | assumption | apply Keeps.put_free)

theorem emit_keeps (o : Output) {s : State} (h : Keeps kp s0 s) :
    Keeps kp s0 (emit o s) := by
  unfold emit
  repeat (with_reducible first | assumption | apply Keeps.put_out)

theorem answer_keeps (p : Port) (v : Nat) {s : State} (h : Keeps kp s0 s) :
    Keeps kp s0 (answer p v s) := by
  unfold answer
  repeat (with_reducible first | assumption | apply emit_keeps)

theorem dmaWrite_keeps (p : Port) (pasid : Option Nat) (relaxed : Bool) (addr : Nat) (data : Bytes) {s : State} (h :
    Keeps kp s0 s) :
    Keeps kp s0 (dmaWrite p pasid relaxed addr data s) := by
  unfold dmaWrite
  repeat (with_reducible first | assumption | apply updStats_keeps | apply emit_keeps | apply keeps_ite)

theorem issueReads_keeps (p : Port) {s : State} (h : Keeps kp s0 s) :
    Keeps kp s0 (issueReads p s) := by
  unfold issueReads
  repeat (with_reducible first | assumption | apply updStats_keeps | apply Keeps.put_out)

theorem dmaReads_keeps (w : DmaRead) (p : Port) (pasid : Option Nat) (parts : List (Nat × Nat)) {s : State} (h : Keeps
    kp s0 s) :
    Keeps kp s0 (dmaReads w p pasid parts s) := by
  unfold dmaReads
  repeat (with_reducible first | assumption | apply updStats_keeps | apply issueReads_keeps | apply keeps_ite)

theorem dmaRead_keeps (w : DmaRead) (p : Port) (pasid : Option Nat) (addr : Nat) (len : Nat) {s : State} (h : Keeps kp
    s0 s) :
    Keeps kp s0 (dmaRead w p pasid addr len s) := by
  unfold dmaRead
  repeat (with_reducible first | assumption | apply dmaReads_keeps)

theorem readAtOnce_keeps (p : Port) (pasid : Option Nat) (addr : Nat) (len : Nat) {s : State} (h : Keeps kp s0 s) :
    Keeps kp s0 (readAtOnce p pasid addr len s) := by
  unfold readAtOnce
  repeat (with_reducible first | assumption | apply updStats_keeps | apply emit_keeps | apply keeps_ite)

theorem dropReads_keeps (w : DmaRead) (p : Port) {s : State} (h : Keeps kp s0 s) :
    Keeps kp s0 (dropReads w p s) := by
  unfold dropReads
  repeat (with_reducible first | assumption | apply updStats_keeps | apply issueReads_keeps)

theorem msixFire_keeps (p : Port) (v : Nat) {s : State} (h : Keeps kp s0 s) :
    Keeps kp s0 (msixFire p v s) := by
  unfold msixFire
  repeat (with_reducible first | assumption | apply updStats_keeps | apply emit_keeps | apply keeps_ite)

theorem setInt_keeps (p : Port) (i : Nat) {s : State} (h : Keeps kp s0 s) :
    Keeps kp s0 (setInt p i s) := by
  unfold setInt
  repeat (with_reducible first | assumption | apply updHpt_keeps | apply msixFire_keeps | apply keeps_ite)

theorem setIntBoth_keeps (i : Nat) {s : State} (h : Keeps kp s0 s) :
    Keeps kp s0 (setIntBoth i s) := by
  unfold setIntBoth
  repeat (with_reducible first | assumption | apply setInt_keeps)

theorem makeRoom_period (k n : Nat) (e : Evr) : (makeRoom k n e).2.period = e.period := by
  induction k generalizing e with
  | zero => rfl
  | succ k ih =>
    unfold makeRoom
    split
    · rfl
    · split
      · rfl
      · rw [ih]; rfl

theorem push_period (t : RecType) (time : Nat) (payload : Bytes) (e : Evr) : (push t time payload e).period = e.period
    := by
  unfold push
  simp only
  split <;> simp [countLost, makeRoom_period]

theorem create_period (t : RecType) (now time : Nat) (payload : Bytes) (e : Evr) :
    (create t now time payload e).period = e.period := by
  unfold create
  dsimp only
  split <;> simp [push_period]

theorem recordAt_keeps (t : RecType) (time : Nat) (payload : Bytes) {s : State} (h : Keeps kp s0 s) :
    Keeps kp s0 (recordAt t time payload s) := by
  unfold recordAt
  exact keeps_ite (h.put_evr (create_period _ _ _ _ _)) (h.put_evr rfl)

theorem record_keeps (t : RecType) (payload : Bytes) {s : State} (h : Keeps kp s0 s) :
    Keeps kp s0 (record t payload s) := by
  unfold record
  repeat (with_reducible first | assumption | apply recordAt_keeps)

theorem recordSeq_keeps (t : RecType) (payload : Bytes) {s : State} (h : Keeps kp s0 s) :
    Keeps kp s0 (recordSeq t payload s) := by
  unfold recordSeq
  repeat (with_reducible first | assumption | apply record_keeps)

theorem cntWr_keeps (p : Port) {s : State} (h : Keeps kp s0 s) :
    Keeps kp s0 (cntWr p s) := by
  unfold cntWr
  repeat (with_reducible first | assumption | apply updStats_keeps)

theorem cntRd_keeps (p : Port) {s : State} (h : Keeps kp s0 s) :
    Keeps kp s0 (cntRd p s) := by
  unfold cntRd
  repeat (with_reducible first | assumption | apply updStats_keeps | apply keeps_ite)

theorem rangeErr_keeps (p : Port) {s : State} (h : Keeps kp s0 s) :
    Keeps kp s0 (rangeErr p s) := by
  unfold rangeErr
  repeat (with_reducible first | assumption | apply updHpt_keeps)

theorem guardErr_keeps (p : Port) {s : State} (h : Keeps kp s0 s) :
    Keeps kp s0 (guardErr p s) := by
  unfold guardErr
  repeat (with_reducible first | assumption | apply updHpt_keeps)

theorem markSiding_keeps {s : State} (h : Keeps kp s0 s) :
    Keeps kp s0 (markSiding s) := by
  unfold markSiding
  repeat (first | (with_reducible first | assumption | apply updCar_keeps) | (show _ = _; rfl)
                | (with_reducible first | exact fun x => x | refine carOk ?_ ?_ ?_))

theorem dropShadows_keeps (f : Shadow → Bool) {s : State} (h : Keeps kp s0 s) :
    Keeps kp s0 (dropShadows f s) := by
  unfold dropShadows
  repeat (first | (with_reducible first | assumption | apply updCar_keeps) | (show _ = _; rfl)
                | (with_reducible first | exact fun x => x | exact twf_tmap _ _ _ | refine carOk ?_ ?_ ?_))

theorem loseCopies_keeps (g : Nat) {s : State} (h : Keeps kp s0 s) :
    Keeps kp s0 (loseCopies g s) := by
  unfold loseCopies
  repeat (with_reducible first | assumption | apply dropShadows_keeps | apply updRing_keeps)

theorem setRing_keeps (g : Nat) (st : RingState) {s : State} (h : Keeps kp s0 s) :
    Keeps kp s0 (setRing g st s) := by
  unfold setRing
  repeat (with_reducible first | assumption | apply loseCopies_keeps | apply updRing_keeps | apply keeps_ite)

theorem brakeOne_keeps (blocked : Bool) (g : Nat) {s : State} (h : Keeps kp s0 s) :
    Keeps kp s0 (brakeOne blocked s g) := by
  unfold brakeOne
  repeat (with_reducible first | assumption | apply setRing_keeps | apply keeps_ite)

theorem stampBrake_keeps (q : Nat) {s : State} (h : Keeps kp s0 s) :
    Keeps kp s0 (stampBrake q s) := by
  unfold stampBrake
  repeat (with_reducible first | assumption | apply updRing_keeps | apply keeps_ite)

theorem rebrake_keeps (q : Nat) {s : State} (h : Keeps kp s0 s) :
    Keeps kp s0 (rebrake q s) := by
  unfold rebrake
  repeat (with_reducible first | assumption | apply brakeOne_keeps | apply stampBrake_keeps | apply keeps_ite
                               | (apply keeps_foldl; intro s x h))

theorem relieve_keeps {s : State} (h : Keeps kp s0 s) :
    Keeps kp s0 (relieve s) := by
  unfold relieve
  repeat (with_reducible first | assumption | apply rebrake_keeps | (apply keeps_foldl; intro s x h))

theorem cqMessage_keeps (q : Nat) {s : State} (h : Keeps kp s0 s) :
    Keeps kp s0 (cqMessage q s) := by
  unfold cqMessage
  repeat (with_reducible first | assumption | apply msixFire_keeps | apply updRing_keeps)

theorem coalesce_keeps (q : Nat) {s : State} (h : Keeps kp s0 s) :
    Keeps kp s0 (coalesce q s) := by
  unfold coalesce
  repeat (with_reducible first | assumption | apply cqMessage_keeps | apply updRing_keeps | apply keeps_ite)

theorem writeCqe_keeps (q : Nat) (sided : Bool) (imm : Bool) (e : Bytes) {s : State} (h : Keeps kp s0 s) :
    Keeps kp s0 (writeCqe q sided imm e s) := by
  unfold writeCqe
  repeat (with_reducible first | assumption | apply updStats_keeps | apply coalesce_keeps | apply cqMessage_keeps
                               | apply dmaWrite_keeps | apply updRing_keeps | apply keeps_ite)

theorem drainN_keeps (x0 : Nat) (x1 : Nat) {s : State} (h : Keeps kp s0 s) :
    Keeps kp s0 (drainN x0 x1 s) := by
  revert h
  fun_induction drainN x0 x1 s <;> intro h
  all_goals repeat (with_reducible first | assumption | refine ‹Keeps kp s0 _ → Keeps kp s0 _› ?_ | apply writeCqe_keeps
                                         | apply updRing_keeps)

theorem drain_keeps (q : Nat) {s : State} (h : Keeps kp s0 s) :
    Keeps kp s0 (drain q s) := by
  unfold drain
  repeat (with_reducible first | assumption | apply drainN_keeps)

theorem place_keeps (q : Nat) (imm : Bool) (e : Bytes) {s : State} (h : Keeps kp s0 s) :
    Keeps kp s0 (place q imm e s) := by
  unfold place
  repeat (first | (with_reducible first | assumption | apply writeCqe_keeps | apply updCar_keeps
                                        | apply updRing_keeps | apply keeps_ite)
                | (show _ = _; rfl) | (with_reducible first | exact fun x => x | refine carOk ?_ ?_ ?_))

theorem writeBack_keeps (g : Nat) {s : State} (h : Keeps kp s0 s) :
    Keeps kp s0 (writeBack g s) := by
  unfold writeBack
  repeat (with_reducible first | assumption | apply dmaWrite_keeps | apply updRing_keeps | apply keeps_ite)

theorem dropSiding_keeps (q : Nat) {s : State} (h : Keeps kp s0 s) :
    Keeps kp s0 (dropSiding q s) := by
  unfold dropSiding
  repeat (first | (with_reducible first | assumption | apply updCar_keeps | apply updRing_keeps) | (show _ = _; rfl)
                | (with_reducible first | exact fun x => x | refine carOk ?_ ?_ ?_))

theorem ringError_keeps (g : Nat) (code : Nat) {s : State} (h : Keeps kp s0 s) :
    Keeps kp s0 (ringError g code s) := by
  unfold ringError
  repeat (with_reducible first | assumption | apply relieve_keeps | apply seqd_keeps | apply dropSiding_keeps
                               | apply setRing_keeps | apply setInt_keeps | apply stampBrake_keeps
                               | apply recordSeq_keeps | apply updRing_keeps | apply keeps_ite)

theorem useContext_keeps (g : Nat) {s : State} (h : Keeps kp s0 s) :
    Keeps kp s0 (useContext g s) := by
  unfold useContext
  repeat (first | (with_reducible first | assumption | apply updCar_keeps) | (show _ = _; rfl)
                | (with_reducible first | exact fun x => x | refine carOk ?_ ?_ ?_))

theorem badDoorbell_keeps {s : State} (h : Keeps kp s0 s) :
    Keeps kp s0 (badDoorbell s) := by
  unfold badDoorbell
  repeat (first | (with_reducible first | assumption | apply updCar_keeps) | (show _ = _; rfl)
                | (with_reducible first | exact fun x => x | refine carOk ?_ ?_ ?_))

theorem overrun_keeps (g : Nat) (code : Nat) {s : State} (h : Keeps kp s0 s) :
    Keeps kp s0 (overrun g code s) := by
  unfold overrun
  repeat (first | (with_reducible first | assumption | apply ringError_keeps | apply updCar_keeps) | (show _ = _; rfl)
                | (with_reducible first | exact fun x => x | refine carOk ?_ ?_ ?_))

theorem evalSq_keeps (g : Nat) (v : Nat) {s : State} (h : Keeps kp s0 s) :
    Keeps kp s0 (evalSq g v s) := by
  unfold evalSq
  repeat (with_reducible first | assumption | apply overrun_keeps | apply badDoorbell_keeps | apply rebrake_keeps
                               | apply updRing_keeps | apply keeps_ite)

theorem evalCq_keeps (q : Nat) (v : Nat) {s : State} (h : Keeps kp s0 s) :
    Keeps kp s0 (evalCq q v s) := by
  unfold evalCq
  repeat (with_reducible first | assumption | apply relieve_keeps | apply badDoorbell_keeps | apply drain_keeps
                               | apply updRing_keeps | apply keeps_ite)

theorem evalDoorbell_keeps (g : Nat) (v : Nat) {s : State} (h : Keeps kp s0 s) :
    Keeps kp s0 (evalDoorbell g v s) := by
  unfold evalDoorbell
  repeat (first | (with_reducible first | assumption | apply badDoorbell_keeps | apply evalCq_keeps
                                        | apply evalSq_keeps)
                | split)

theorem queueDoorbell_keeps (g : Nat) (v : Nat) {s : State} (h : Keeps kp s0 s) :
    Keeps kp s0 (queueDoorbell g v s) := by
  unfold queueDoorbell
  repeat (first | (with_reducible first | assumption | apply updCar_keeps) | (show _ = _; rfl)
                | (with_reducible first | exact fun x => x | refine carOk ?_ ?_ ?_))

theorem evalQueued_keeps (x : Nat × Nat) {s : State} (h : Keeps kp s0 s) :
    Keeps kp s0 (evalQueued s x) := by
  unfold evalQueued
  repeat (first | (with_reducible first | assumption | apply useContext_keeps | apply updCar_keeps
                                        | apply evalDoorbell_keeps | apply keeps_ite)
                | (show _ = _; rfl) | (with_reducible first | exact fun x => x | refine carOk ?_ ?_ ?_))

theorem flushDb_keeps (g : Nat) {s : State} (h : Keeps kp s0 s) :
    Keeps kp s0 (flushDb g s) := by
  unfold flushDb
  repeat (with_reducible first | assumption | apply evalQueued_keeps | (apply keeps_foldl; intro s x h))

theorem tenderTake_keeps {n : Nat} {s : State} (h : Keeps kp s0 s) {b : Bytes} {t : State}
    (e : tenderTake n s = some (b, t)) : Keeps kp s0 t := by
  unfold tenderTake at e
  split at e
  · cases e
    exact updRng_keeps h ⟨rfl, rfl⟩
  · cases e

theorem freshMask_keepsSnd {s : State} (h : Keeps kp s0 s) : Keeps kp s0 (freshMask s).2 := by
  unfold freshMask
  split
  · exact tenderTake_keeps h ‹_›
  · split
    · exact updKst_keeps h rfl (fun x => x)
    · exact h

theorem reserve_keeps (i : Nat) (t : Nat) {s : State} (h : Keeps kp s0 s) :
    Keeps kp s0 (reserve i t s) := by
  unfold reserve
  repeat (first | (with_reducible first | assumption | apply updCarr_keeps | apply updKst_keeps) | (show _ = _; rfl)
                | with_reducible exact fun x => x)

theorem unreserve_keeps (t : Nat) {s : State} (h : Keeps kp s0 s) :
    Keeps kp s0 (unreserve t s) := by
  unfold unreserve
  repeat (first | (with_reducible first | assumption | apply updCarr_keeps | apply updKst_keeps) | (show _ = _; rfl)
                | with_reducible exact fun x => x | split)

theorem allocSlot_keeps (i : Nat) (n : NewSlot) {s : State} (h : Keeps kp s0 s) :
    Keeps kp s0 (allocSlot i n s) := by
  unfold allocSlot
  repeat (first | (with_reducible first | assumption | apply freshMask_keepsSnd | apply updKst_keeps
                                        | apply updSlot_keeps)
                | (show _ = _; rfl) | with_reducible exact fun x => x)

theorem purgeStaging_keeps (f : KeyId → Bool) {s : State} (h : Keeps kp s0 s) :
    Keeps kp s0 (purgeStaging f s) := by
  unfold purgeStaging
  repeat (with_reducible first | assumption | apply updCay_keeps | exact fun x => x | exact twf_tmap _ _ _
                               | refine cayOk ?_ ?_)

theorem zeroiseSlot_keeps (i : Nat) {s : State} (h : Keeps kp s0 s) :
    Keeps kp s0 (zeroiseSlot i s) := by
  unfold zeroiseSlot
  repeat (first | (with_reducible first | assumption | apply purgeStaging_keeps | apply updKst_keeps
                                        | apply updSlot_keeps)
                | (show _ = _; rfl) | with_reducible exact fun x => x)

theorem zeroiseRetained_keeps (i : Nat) {s : State} (h : Keeps kp s0 s) :
    Keeps kp s0 (zeroiseRetained i s) := by
  unfold zeroiseRetained
  repeat (with_reducible first | assumption | apply purgeStaging_keeps | apply updSlot_keeps)

theorem markSlot_keeps (st : SlotState) (i : Nat) {s : State} (h : Keeps kp s0 s) :
    Keeps kp s0 (markSlot st i s) := by
  unfold markSlot
  repeat (with_reducible first | assumption | apply updSlot_keeps | apply zeroiseSlot_keeps | apply keeps_ite)

theorem useSlot_keeps (i : Nat) {s : State} (h : Keeps kp s0 s) :
    Keeps kp s0 (useSlot i s) := by
  unfold useSlot
  repeat (with_reducible first | assumption | apply updSlot_keeps)

theorem unuseSlot_keeps (i : Nat) (g : Nat) {s : State} (h : Keeps kp s0 s) :
    Keeps kp s0 (unuseSlot i g s) := by
  unfold unuseSlot
  repeat (with_reducible first | assumption | apply zeroiseRetained_keeps | apply seqd_keeps | apply updSlot_keeps
                               | apply zeroiseSlot_keeps | apply keeps_ite)

theorem cacheKek_keeps (owner : Nat) {s : State} (h : Keeps kp s0 s) :
    Keeps kp s0 (cacheKek owner s) := by
  unfold cacheKek
  repeat (first | (with_reducible first | assumption | apply updKst_keeps) | (show _ = _; rfl)
                | with_reducible exact fun x => x)

theorem dmaWriteMps_keeps (p : Port) (pasid : Option Nat) (relaxed : Bool) (addr : Nat) (data : Bytes) {s : State}
    (h : Keeps kp s0 s) : Keeps kp s0 (dmaWriteMps p pasid relaxed addr data s) := by
  unfold dmaWriteMps
  exact keeps_foldl_snd (fun x d k => dmaWrite_keeps _ _ _ _ _ k) h _

theorem writePieces_keeps (p : Port) (pasid : Option Nat) (relaxed : Bool) (x3 : List (Nat × Nat)) (x4 : Bytes) {s :
    State} (h : Keeps kp s0 s) :
    Keeps kp s0 (writePieces p pasid relaxed x3 x4 s) := by
  revert h
  fun_induction writePieces p pasid relaxed x3 x4 s <;> intro h
  all_goals repeat (with_reducible first | assumption | refine ‹Keeps kp s0 _ → Keeps kp s0 _› ?_
                                         | apply dmaWriteMps_keeps)

theorem writeBuffer_keeps (t : Nat) (off : Nat) (data : Bytes) {s : State} (h : Keeps kp s0 s) :
    Keeps kp s0 (writeBuffer t off data s) := by
  unfold writeBuffer
  repeat (with_reducible first | assumption | apply writePieces_keeps)

theorem readBuffer_keeps (w : DmaRead) (t : Nat) (off : Nat) (n : Nat) {s : State} (h : Keeps kp s0 s) :
    Keeps kp s0 (readBuffer w t off n s) := by
  unfold readBuffer
  repeat (with_reducible first | assumption | apply dmaReads_keeps)

theorem scrub_keeps (t : Nat) {s : State} (h : Keeps kp s0 s) :
    Keeps kp s0 (scrub t s) := by
  unfold scrub
  repeat (first | (with_reducible first | assumption | apply updStats_keeps | apply updCarr_keeps
                                        | apply updCar_keeps | apply dmaWriteMps_keeps
                                        | (apply keeps_foldl; intro s x h) | exact fun x => x | refine carOk ?_ ?_ ?_)
                | split | dsimp only)

theorem forget_keeps (t : Nat) {s : State} (h : Keeps kp s0 s) :
    Keeps kp s0 (forget t s) := by
  unfold forget
  repeat (first | (with_reducible first | assumption | apply updLat_keeps | apply updVlt_keeps | apply updBnv_keeps
                                        | apply updRng_keeps | apply updMdf_keeps | apply updSlc_keeps)
                | (show _ = _; rfl)
                | (with_reducible first | exact fun x => x | exact twf_tmap _ _ _ | refine mdfOk ?_ ?_ ?_ ?_
                                        | refine slcOk ?_ ?_)
                | (with_reducible apply And.intro))

theorem unbind_keeps (k : KeyBind) {s : State} (h : Keeps kp s0 s) :
    Keeps kp s0 (unbind k s) := by
  unfold unbind
  repeat (first | (with_reducible first | assumption | apply unuseSlot_keeps) | split)

theorem release_keeps (t : Nat) {s : State} (h : Keeps kp s0 s) :
    Keeps kp s0 (release t s) := by
  unfold release
  repeat (first | (with_reducible first | assumption | apply unreserve_keeps | apply forget_keeps
                                        | apply purgeStaging_keeps | apply unbind_keeps | apply dropShadows_keeps
                                        | apply updCar_keeps | apply updRing_keeps)
                | (show _ = _; rfl)
                | (with_reducible first | exact fun x => x | exact twf_tdel _ _ _ | refine carOk ?_ ?_ ?_))

theorem countEnd_keeps (c : Carriage) (status : Nat) {s : State} (h : Keeps kp s0 s) :
    Keeps kp s0 (countEnd c status s) := by
  unfold countEnd
  repeat (first | (with_reducible first | assumption | apply updCar_keeps) | (show _ = _; rfl)
                | (with_reducible first | exact fun x => x | refine carOk ?_ ?_ ?_))

theorem finishAt_keeps (t : Nat) (status : Nat) (result : Nat) {s : State} (h : Keeps kp s0 s) :
    Keeps kp s0 (finishAt t status result s) := by
  unfold finishAt
  repeat (with_reducible first | assumption | apply relieve_keeps | apply place_keeps | apply writeBack_keeps
                               | apply drain_keeps | apply markSiding_keeps | apply countEnd_keeps
                               | apply release_keeps)

theorem finish_keeps (t : Nat) (status : Nat) (result : Nat) {s : State} (h : Keeps kp s0 s) :
    Keeps kp s0 (finish t status result s) := by
  unfold finish
  repeat (with_reducible first | assumption | apply seqdAlways_keeps | apply seqd_keeps | apply finishAt_keeps
                               | apply keeps_ite)

theorem park_keeps (t : Nat) (status : Nat) (result : Nat) {s : State} (h : Keeps kp s0 s) :
    Keeps kp s0 (park t status result s) := by
  unfold park
  repeat (with_reducible first | assumption | apply updCarr_keeps)

theorem complete_keeps (t : Nat) (status : Nat) (result : Nat) {s : State} (h : Keeps kp s0 s) :
    Keeps kp s0 (complete t status result s) := by
  unfold complete
  repeat (with_reducible first | assumption | apply finish_keeps | apply park_keeps | apply keeps_ite)

theorem completeAt_keeps (t : Nat) (status : Nat) (result : Nat) {s : State} (h : Keeps kp s0 s) :
    Keeps kp s0 (completeAt t status result s) := by
  unfold completeAt
  repeat (with_reducible first | assumption | apply park_keeps | apply finishAt_keeps | apply keeps_ite)

theorem letGo_keeps (t : Nat) {s : State} (h : Keeps kp s0 s) :
    Keeps kp s0 (letGo t s) := by
  unfold letGo
  repeat (with_reducible first | assumption | apply forget_keeps | apply purgeStaging_keeps | apply updCarr_keeps)

theorem stopOne_keeps (t : Nat) (status : Nat) (result : Nat) {s : State} (h : Keeps kp s0 s) :
    Keeps kp s0 (stopOne t status result s) := by
  unfold stopOne
  repeat (with_reducible first | assumption | apply letGo_keeps | apply scrub_keeps | apply complete_keeps
                               | apply keeps_ite)

theorem stopAt_keeps (t : Nat) (status : Nat) (result : Nat) {s : State} (h : Keeps kp s0 s) :
    Keeps kp s0 (stopAt t status result s) := by
  unfold stopAt
  repeat (with_reducible first | assumption | apply letGo_keeps | apply completeAt_keeps | apply scrub_keeps
                               | apply keeps_ite)

theorem refuse_keeps (t : Nat) (x : Refuse) {s : State} (h : Keeps kp s0 s) :
    Keeps kp s0 (refuse t x s) := by
  unfold refuse
  repeat (first | (with_reducible first | assumption | apply updCarr_keeps | apply dropShadows_keeps
                                        | apply complete_keeps | apply updCar_keeps)
                | (show _ = _; rfl) | (with_reducible first | exact fun x => x | refine carOk ?_ ?_ ?_))

theorem latEnd_keeps (p : Port) (status : Nat) (result : Nat) {s : State} (h : Keeps kp s0 s) :
    Keeps kp s0 (latEnd p status result s) := by
  unfold latEnd
  repeat (first | (with_reducible first | assumption | apply updWin_keeps | apply updLat_keeps | apply updRng_keeps
                                        | apply unuseSlot_keeps | apply keeps_ite)
                | (show _ = _; rfl) | (with_reducible apply And.intro) | split)

theorem ucpEnd_keeps (status : Nat) (out : Nat) {s : State} (h : Keeps kp s0 s) :
    Keeps kp s0 (ucpEnd status out s) := by
  unfold ucpEnd
  repeat (first | (with_reducible first | assumption | apply updUcp_keeps | apply unuseSlot_keeps) | (show _ = _; rfl)
                | split)

theorem reapEngines_keeps (status : Nat) {s : State} (h : Keeps kp s0 s) :
    Keeps kp s0 (reapEngines status s) := by
  unfold reapEngines
  repeat (with_reducible first | assumption | apply latEnd_keeps | apply ucpEnd_keeps | apply keeps_ite)

theorem reap_keeps (status : Nat) {s : State} (h : Keeps kp s0 s) :
    Keeps kp s0 (reap status s) := by
  unfold reap
  repeat (with_reducible first | assumption | apply stopOne_keeps | apply reapEngines_keeps
                               | (apply keeps_foldl; intro s x h))

theorem stop_keeps (t : Nat) (status : Nat) (result : Nat) {s : State} (h : Keeps kp s0 s) :
    Keeps kp s0 (stop t status result s) := by
  unfold stop
  repeat (with_reducible first | assumption | apply stopOne_keeps | apply reap_keeps)

theorem done_keeps (t : Nat) (status : Nat) (result : Nat) {s : State} (h : Keeps kp s0 s) :
    Keeps kp s0 (done t status result s) := by
  unfold done
  repeat (with_reducible first | assumption | apply complete_keeps | apply reap_keeps)

theorem stopAll_keeps (f : Nat → Carriage → Bool) (status : Nat) {s : State} (h : Keeps kp s0 s) :
    Keeps kp s0 (stopAll f status s) := by
  unfold stopAll
  repeat (with_reducible first | assumption | apply stopOne_keeps | (apply keeps_foldl; intro s x h))

theorem dropSign_keeps (id : Nat) {s : State} (h : Keeps kp s0 s) :
    Keeps kp s0 (dropSign id s) := by
  unfold dropSign
  repeat (first | (with_reducible first | assumption | apply updProp_keeps | apply updLat_keeps | apply updRng_keeps
                                        | apply keeps_ite)
                | (show _ = _; rfl) | (with_reducible apply And.intro))

theorem closeProp_keeps (id : Nat) {s : State} (h : Keeps kp s0 s) :
    Keeps kp s0 (closeProp id s) := by
  unfold closeProp
  repeat (first | (with_reducible first | assumption | apply done_keeps | apply updProp_keeps | apply dropSign_keeps
                                        | apply keeps_ite)
                | split)

theorem outputDone_keeps (id : Nat) {s : State} (h : Keeps kp s0 s) :
    Keeps kp s0 (outputDone id s) := by
  unfold outputDone
  repeat (first | (with_reducible first | assumption | apply done_keeps | apply updProp_keeps | apply dropSign_keeps)
                | split | dsimp only)

theorem signLost_keeps (id : Nat) {s : State} (h : Keeps kp s0 s) :
    Keeps kp s0 (signLost id s) := by
  unfold signLost
  repeat (with_reducible first | assumption | apply outputDone_keeps | apply closeProp_keeps | apply keeps_ite)

theorem uncount_keeps (c : Carriage) {s : State} (h : Keeps kp s0 s) :
    Keeps kp s0 (uncount c s) := by
  unfold uncount
  repeat (with_reducible first | assumption | apply updProp_keeps)

theorem abortOne_keeps (t : Nat) {s : State} (h : Keeps kp s0 s) :
    Keeps kp s0 (abortOne s t) := by
  unfold abortOne
  repeat (with_reducible first | assumption | apply stopOne_keeps | apply finish_keeps | apply complete_keeps
                               | apply uncount_keeps | apply keeps_ite)

theorem markBy_keeps (own : Option Nat) (st : SlotState) (i : Nat) {s : State} (h : Keeps kp s0 s) :
    Keeps kp s0 (markBy own st i s) := by
  unfold markBy
  repeat (with_reducible first | assumption | apply stopAt_keeps | apply reap_keeps | apply markSlot_keeps
                               | (apply keeps_foldl; intro s x h))

theorem mark_keeps (st : SlotState) (i : Nat) {s : State} (h : Keeps kp s0 s) :
    Keeps kp s0 (mark st i s) := by
  unfold mark
  repeat (with_reducible first | assumption | apply markBy_keeps)

theorem vanish_keeps (t : Nat) {s : State} (h : Keeps kp s0 s) :
    Keeps kp s0 (vanish t s) := by
  unfold vanish
  repeat (first | (with_reducible first | assumption | apply updCar_keeps | apply release_keeps | apply keeps_ite)
                | (show _ = _; rfl) | (with_reducible first | exact fun x => x | refine carOk ?_ ?_ ?_))

theorem begin__keeps (t : Nat) {s : State} (h : Keeps kp s0 s) :
    Keeps kp s0 (begin_ t s) := by
  unfold begin_
  repeat (with_reducible first | assumption | apply updCarr_keeps)

theorem passStep_keeps (i : Nat) {s : State} (h : Keeps kp s0 s) :
    Keeps kp s0 (passStep i s) := by
  unfold passStep
  repeat (first | (with_reducible first | assumption | apply updKst_keeps | apply keeps_ite) | (show _ = _; rfl)
                | with_reducible exact fun x => x)

theorem remaskEntries_keeps (i : Nat) (m : Nat) {s : State} (h : Keeps kp s0 s) :
    Keeps kp s0 (remaskEntries i m s) := by
  unfold remaskEntries
  repeat (with_reducible first | assumption | apply updCay_keeps | exact fun x => x | exact twf_tmap _ _ _
                               | refine cayOk ?_ ?_)

theorem remaskWith_keeps (i : Nat) (m : Nat) {s : State} (h : Keeps kp s0 s) :
    Keeps kp s0 (remaskWith i m s) := by
  unfold remaskWith
  repeat (first | (with_reducible first | assumption | apply updKst_keeps | apply updSlot_keeps
                                        | apply remaskEntries_keeps | apply passStep_keeps | apply keeps_ite)
                | (show _ = _; rfl) | with_reducible exact fun x => x)

theorem placeChallenge_keeps (nonce : Bytes) {s : State} (h : Keeps kp s0 s) :
    Keeps kp s0 (placeChallenge nonce s) := by
  unfold placeChallenge
  repeat (first | (with_reducible first | assumption | apply updLcs_keeps) | (show _ = _; rfl))

theorem deliver_keeps (w : Waiter) {s : State} (h : Keeps kp s0 s) :
    Keeps kp s0 (deliver w s) := by
  unfold deliver
  repeat (first | (with_reducible first | assumption | apply updProp_keeps | apply remaskWith_keeps
                                        | apply updLat_keeps | apply updCarr_keeps | apply placeChallenge_keeps)
                | split)

theorem unserved_keeps (st : Nat) (atCsn : Bool) (w : Waiter) {s : State} (h : Keeps kp s0 s) :
    Keeps kp s0 (unserved st atCsn w s) := by
  unfold unserved
  repeat (first | (with_reducible first | assumption | apply stop_keeps | apply stopAt_keeps | apply latEnd_keeps
                                        | apply updLcs_keeps | apply updCarr_keeps | apply updKst_keeps
                                        | apply reap_keeps | apply updRng_keeps | apply passStep_keeps
                                        | apply signLost_keeps)
                | (show _ = _; rfl) | with_reducible exact fun x => x | (with_reducible apply And.intro) | split)

theorem serve_keeps (x0 : Nat) {s : State} (h : Keeps kp s0 s) :
    Keeps kp s0 (serve x0 s) := by
  revert h
  fun_induction serve x0 s <;> intro h
  all_goals repeat (first | (with_reducible first | assumption | refine ‹Keeps kp s0 _ → Keeps kp s0 _› ?_
                                                  | apply updRng_keeps | apply unserved_keeps | apply deliver_keeps)
                          | (show _ = _; rfl) | (with_reducible apply And.intro))

theorem serveAll_keeps {s : State} (h : Keeps kp s0 s) :
    Keeps kp s0 (serveAll s) := by
  unfold serveAll
  repeat (with_reducible first | assumption | apply serve_keeps)

theorem ask_keeps (who : Consumer) (n : Nat) {s : State} (h : Keeps kp s0 s) :
    Keeps kp s0 (ask who n s) := by
  unfold ask
  repeat (first | (with_reducible first | assumption | apply serveAll_keeps | apply updRng_keeps
                                        | apply unserved_keeps | apply keeps_ite)
                | (show _ = _; rfl) | (with_reducible apply And.intro))

theorem askAdmitted_keeps (t : Nat) {s : State} (h : Keeps kp s0 s) : Keeps kp s0 (askAdmitted t s) := by
  unfold askAdmitted
  dsimp only
  split
  · exact ask_keeps _ _ (updCarr_keeps _ _ h)
  · split
    · split
      · exact updCarr_keeps _ _ (tenderTake_keeps h ‹_›)
      · exact h
    · exact h

theorem takeIndices_keeps (k : Nat) (n : Nat) {s : State} (h : Keeps kp s0 s) :
    Keeps kp s0 (takeIndices k n s) := by
  unfold takeIndices
  repeat (with_reducible first | assumption | apply updSlot_keeps)

theorem bindTicket_keeps (t : Nat) (tk : Bytes) {s : State} (h : Keeps kp s0 s) :
    Keeps kp s0 (bindTicket t tk s) := by
  unfold bindTicket
  repeat (first | (with_reducible first | assumption | apply cacheKek_keeps | apply updCarr_keeps
                                        | apply dropShadows_keeps | apply updKst_keeps | apply updCar_keeps)
                | (show _ = _; rfl) | (with_reducible first | exact fun x => x | refine carOk ?_ ?_ ?_) | split)

theorem bindKeys_keeps (t : Nat) {s : State} (h : Keeps kp s0 s) :
    Keeps kp s0 (bindKeys t s) := by
  unfold bindKeys
  repeat (first | (with_reducible first | assumption | apply takeIndices_keeps | apply updCarr_keeps
                                        | apply updBnv_keeps | apply bindTicket_keeps | apply useSlot_keeps)
                | split | dsimp only)

theorem admitOne_keeps (t : Nat) {s : State} (h : Keeps kp s0 s) :
    Keeps kp s0 (admitOne t s) := by
  unfold admitOne
  repeat (first | (with_reducible first | assumption | apply reserve_keeps | apply updCarr_keeps | apply seqd_keeps
                                        | apply bindKeys_keeps)
                | split)

theorem freezeBegin_keeps (n : Nat) (csn : Nat) {s : State} (h : Keeps kp s0 s) :
    Keeps kp s0 (freezeBegin n csn s) := by
  unfold freezeBegin
  repeat (with_reducible first | assumption | apply purgeStaging_keeps | apply dropShadows_keeps | apply setRing_keeps
                               | apply flushDb_keeps | apply reap_keeps | apply stampBrake_keeps | apply refuse_keeps
                               | apply abortOne_keeps | apply updSlice_keeps | apply keeps_ite
                               | (apply keeps_foldl; intro s x h))

theorem freezeAdmitted_keeps (t : Nat) {s : State} (h : Keeps kp s0 s) :
    Keeps kp s0 (freezeAdmitted t s) := by
  unfold freezeAdmitted
  repeat (with_reducible first | assumption | apply done_keeps | apply freezeBegin_keeps | apply updCarr_keeps
                               | apply updSlice_keeps | apply keeps_ite)

theorem askTicket_keeps (t : Nat) {s : State} (h : Keeps kp s0 s) :
    Keeps kp s0 (askTicket t s) := by
  unfold askTicket
  repeat (with_reducible first | assumption | apply dmaRead_keeps | apply updCarr_keeps)

theorem askTable_keeps (t : Nat) {s : State} (h : Keeps kp s0 s) :
    Keeps kp s0 (askTable t s) := by
  unfold askTable
  repeat (with_reducible first | assumption | apply dmaRead_keeps | apply updCarr_keeps)

theorem askRecord_keeps (t : Nat) {s : State} (h : Keeps kp s0 s) :
    Keeps kp s0 (askRecord t s) := by
  unfold askRecord
  repeat (with_reducible first | assumption | apply updCarr_keeps | apply readBuffer_keeps)

theorem runAdmission_keeps (t : Nat) {s : State} (h : Keeps kp s0 s) :
    Keeps kp s0 (runAdmission t s) := by
  unfold runAdmission
  repeat (first | (with_reducible first | assumption | apply stop_keeps | apply freezeAdmitted_keeps
                                        | apply askAdmitted_keeps | apply updKst_keeps | apply admitOne_keeps
                                        | apply askTicket_keeps | apply askTable_keeps | apply askRecord_keeps
                                        | apply refuse_keeps | exact fun x => x)
                | split | dsimp only)

theorem legEvent_keeps (code : Nat) {s : State} (h : Keeps kp s0 s) :
    Keeps kp s0 (legEvent code s) := by
  unfold legEvent
  repeat (with_reducible first | assumption | apply setIntBoth_keeps | apply recordSeq_keeps | apply keeps_ite
                               | apply Keeps.put_leg)

theorem legAbandon_keeps (code : Nat) {s : State} (h : Keeps kp s0 s) :
    Keeps kp s0 (legAbandon code s) := by
  unfold legAbandon
  repeat (with_reducible first | assumption | apply legEvent_keeps | apply keeps_ite | apply Keeps.put_leg)

theorem legTouch_keeps (p : Port) {s : State} (h : Keeps kp s0 s) :
    Keeps kp s0 (legTouch p s) := by
  unfold legTouch
  repeat (with_reducible first | assumption | apply legAbandon_keeps | apply keeps_ite)

theorem legErase_keeps (code : Nat) (status : Nat) {s : State} (h : Keeps kp s0 s) :
    Keeps kp s0 (legErase code status s) := by
  unfold legErase
  repeat (with_reducible first | assumption | apply stopOne_keeps | apply purgeStaging_keeps | apply legEvent_keeps
                               | (apply keeps_foldl; intro s x h) | apply Keeps.put_leg)

theorem legGuarded_keepsRes (p : Port) (f : State → State) {s : State} (h : Keeps kp s0 s) (hf : ∀ s, Keeps kp s0 s →
    Keeps kp s0 (f s)) :
    KeepsRes kp s0 (legGuarded p s f) := by
  unfold legGuarded
  repeat (with_reducible first | assumption | apply hf | apply guardErr_keeps | apply seqd_keeps | apply cntWr_keeps
                               | apply keepsRes_next | apply keepsRes_ite)

theorem execLegKey0Write_keepsRes (p : Port) (value : Nat) {s : State} (h : Keeps kp s0 s) :
    KeepsRes kp s0 (execLegKey0Write p value s) := by
  unfold execLegKey0Write
  repeat (with_reducible first | assumption | apply legGuarded_keepsRes | apply legAbandon_keeps | apply legErase_keeps
                               | (intro s h) | apply Keeps.put_leg)

theorem execLegKeyWordWrite_keepsRes (p : Port) (n : Nat) (value : Nat) {s : State} (h : Keeps kp s0 s) :
    KeepsRes kp s0 (execLegKeyWordWrite p n value s) := by
  unfold execLegKeyWordWrite
  repeat (with_reducible first | assumption | apply legGuarded_keepsRes | apply legAbandon_keeps | apply keeps_ite
                               | (intro s h) | apply Keeps.put_leg)

theorem execLegCommit_keepsRes (p : Port) (value : Nat) {s : State} (h : Keeps kp s0 s) :
    KeepsRes kp s0 (execLegCommit p value s) := by
  unfold execLegCommit
  repeat (with_reducible first | assumption | apply legGuarded_keepsRes | apply legAbandon_keeps | apply legEvent_keeps
                               | apply keeps_ite | (intro s h) | apply Keeps.put_leg)

theorem execLegacyLoadTimeout_keepsRes {s : State} (h : Keeps kp s0 s) :
    KeepsRes kp s0 (execLegacyLoadTimeout s) := by
  unfold execLegacyLoadTimeout
  repeat (with_reducible first | assumption | apply legAbandon_keeps | apply keepsRes_onlyIf)

theorem updRs_keeps (p : Port) (sl : Option Nat) (f : RsWin → RsWin) {s : State} (h : Keeps kp s0 s) :
    Keeps kp s0 (updRs p sl f s) := by
  unfold updRs
  repeat (first | (with_reducible first | assumption | apply updWin_keeps | apply updSlice_keeps) | split)

theorem rsWrote_keeps (p : Port) (sl : Option Nat) {s : State} (h : Keeps kp s0 s) :
    Keeps kp s0 (rsWrote p sl s) := by
  unfold rsWrote
  repeat (first | (with_reducible first | assumption | apply seqd_keeps | apply legTouch_keeps | apply cntWr_keeps)
                | split)

theorem pageDiscard_keeps (p : Port) (sl : Option Nat) {s : State} (h : Keeps kp s0 s) :
    Keeps kp s0 (pageDiscard p sl s) := by
  unfold pageDiscard
  repeat (first | (with_reducible first | assumption | apply updHpt_keeps) | split)

theorem cmdContext_keeps (g : Nat) {s : State} (h : Keeps kp s0 s) :
    Keeps kp s0 (cmdContext g s) := by
  unfold cmdContext
  repeat (first | (with_reducible first | assumption | apply useContext_keeps | apply updCar_keeps) | (show _ = _; rfl)
                | (with_reducible first | exact fun x => x | refine carOk ?_ ?_ ?_) | split)

theorem rsCommand_keepsRes (p : Port) (sl : Option Nat) (ring : Nat) (check : Nat → State → Nat) (act : Nat → State →
    State) {s : State} (h : Keeps kp s0 s) (hact : ∀ y0 s, Keeps kp s0 s → Keeps kp s0 (act y0 s)) :
    KeepsRes kp s0 (rsCommand p sl ring check act s) := by
  unfold rsCommand
  repeat (first | (with_reducible first | assumption | apply hact | apply flushDb_keeps | apply pageDiscard_keeps
                                        | apply draw_keeps | apply rsWrote_keeps | apply updRs_keeps
                                        | apply cmdContext_keeps | apply keepsRes_next)
                | split)

theorem abortSq_keeps (g : Nat) (cookie : Option Nat) {s : State} (h : Keeps kp s0 s) :
    Keeps kp s0 (abortSq g cookie s) := by
  unfold abortSq
  repeat (with_reducible first | assumption | apply reap_keeps | apply abortOne_keeps
                               | (apply keeps_foldl; intro s x h))

theorem abortWrite_keepsRes (p : Port) (sl : Option Nat) (ring : Nat) (useCookie : Bool) {s : State} (h : Keeps kp s0
    s) :
    KeepsRes kp s0 (abortWrite p sl ring useCookie s) := by
  unfold abortWrite
  repeat (first | (with_reducible first | assumption | apply pageDiscard_keeps | apply abortSq_keeps
                                        | apply updCar_keeps | apply rsWrote_keeps | apply keepsRes_next)
                | (show _ = _; rfl) | (with_reducible first | exact fun x => x | refine carOk ?_ ?_ ?_) | split)

theorem doorbell_keeps (g : Nat) (v : Nat) {s : State} (h : Keeps kp s0 s) :
    Keeps kp s0 (doorbell g v s) := by
  unfold doorbell
  repeat (first | (with_reducible first | assumption | apply useContext_keeps | apply queueDoorbell_keeps
                                        | apply updCar_keeps | apply evalDoorbell_keeps | apply keeps_ite)
                | (show _ = _; rfl) | (with_reducible first | exact fun x => x | refine carOk ?_ ?_ ?_))

theorem doorbellAt_keeps (p : Port) (sl : Option Nat) (ring : Nat) (value : Nat) {s : State} (h : Keeps kp s0 s) :
    Keeps kp s0 (doorbellAt p sl ring value s) := by
  unfold doorbellAt
  repeat (first | (with_reducible first | assumption | apply updStats_keeps | apply badDoorbell_keeps
                                        | apply doorbell_keeps | apply rsWrote_keeps)
                | split)

theorem holdDoorbell_keeps (p : Port) (sl : Option Nat) (ring : Nat) (value : Nat) {s : State} (h : Keeps kp s0 s) :
    Keeps kp s0 (holdDoorbell p sl ring value s) := by
  unfold holdDoorbell
  repeat (first | (with_reducible first | assumption | apply updHpt_keeps | apply draw_keeps | apply updCar_keeps)
                | (show _ = _; rfl) | (with_reducible first | exact fun x => x | refine carOk ?_ ?_ ?_))

theorem releaseDbN_keeps (x0 : Nat) {s : State} (h : Keeps kp s0 s) :
    Keeps kp s0 (releaseDbN x0 s) := by
  revert h
  fun_induction releaseDbN x0 s <;> intro h
  all_goals repeat (first | (with_reducible first | assumption | refine ‹Keeps kp s0 _ → Keeps kp s0 _› ?_
                                                  | apply doorbellAt_keeps | apply pageDiscard_keeps
                                                  | apply updCar_keeps | apply keeps_ite)
                          | (show _ = _; rfl) | (with_reducible first | exact fun x => x | refine carOk ?_ ?_ ?_))

theorem releaseDb_keeps {s : State} (h : Keeps kp s0 s) :
    Keeps kp s0 (releaseDb s) := by
  unfold releaseDb
  repeat (with_reducible first | assumption | apply releaseDbN_keeps)

theorem doorbellWrite_keepsRes (p : Port) (sl : Option Nat) (ring : Nat) (value : Nat) (cq : Bool) {s : State} (h :
    Keeps kp s0 s) :
    KeepsRes kp s0 (doorbellWrite p sl ring value cq s) := by
  unfold doorbellWrite
  repeat (with_reducible first | assumption | apply doorbellAt_keeps | apply holdDoorbell_keeps
                               | apply pageDiscard_keeps | apply keepsRes_next | apply keepsRes_ite)

theorem execSqDoorbell_keepsRes (p : Port) (slice : Option Nat) (ring : Nat) (value : Nat) {s : State} (h : Keeps kp
    s0 s) :
    KeepsRes kp s0 (execSqDoorbell p slice ring value s) := by
  unfold execSqDoorbell
  repeat (with_reducible first | assumption | apply doorbellWrite_keepsRes)

theorem execCqDoorbell_keepsRes (p : Port) (slice : Option Nat) (ring : Nat) (value : Nat) {s : State} (h : Keeps kp
    s0 s) :
    KeepsRes kp s0 (execCqDoorbell p slice ring value s) := by
  unfold execCqDoorbell
  repeat (with_reducible first | assumption | apply doorbellWrite_keepsRes)

theorem execDoorbellQueueEval_keepsRes (ring : Nat) {s : State} (h : Keeps kp s0 s) :
    KeepsRes kp s0 (execDoorbellQueueEval ring s) := by
  unfold execDoorbellQueueEval
  repeat (first | (with_reducible first | assumption | apply releaseDb_keeps | apply evalQueued_keeps
                                        | apply keepsRes_onlyIf)
                | split)

theorem macRing_keeps {s : State} (h : Keeps kp s0 s) :
    Keeps kp s0 (macRing s) := by
  unfold macRing
  repeat (with_reducible first | assumption | apply setIntBoth_keeps | apply Keeps.put_mem)

theorem execContextLoad_keepsRes (ring : Nat) (macOk : Bool) {s : State} (h : Keeps kp s0 s) :
    KeepsRes kp s0 (execContextLoad ring macOk s) := by
  unfold execContextLoad
  repeat (first | (with_reducible first | assumption | apply macRing_keeps | apply releaseDb_keeps
                                        | apply useContext_keeps | apply ringError_keeps | apply updCar_keeps
                                        | apply keepsRes_next | apply keepsRes_ite | apply keeps_ite)
                | (show _ = _; rfl) | (with_reducible first | exact fun x => x | refine carOk ?_ ?_ ?_))

theorem fetchEntry_keeps (g : Nat) (p : Nat) (final : Bool) {s : State} (h : Keeps kp s0 s) :
    Keeps kp s0 (fetchEntry g p final s) := by
  unfold fetchEntry
  repeat (with_reducible first | assumption | apply dmaRead_keeps | apply updRing_keeps)

theorem prefetchN_keeps (x0 : Nat) (x1 : Nat) (x2 : Nat) {s : State} (h : Keeps kp s0 s) :
    Keeps kp s0 (prefetchN x0 x1 x2 s) := by
  revert h
  fun_induction prefetchN x0 x1 x2 s <;> intro h
  all_goals repeat (with_reducible first | assumption | refine ‹Keeps kp s0 _ → Keeps kp s0 _› ?_
                                         | apply fetchEntry_keeps | apply keeps_ite)

theorem execDescriptorPrefetch_keepsRes (sq : Nat) (count : Nat) {s : State} (h : Keeps kp s0 s) :
    KeepsRes kp s0 (execDescriptorPrefetch sq count s) := by
  unfold execDescriptorPrefetch
  repeat (with_reducible first | assumption | apply prefetchN_keeps | apply flushDb_keeps | apply keepsRes_onlyIf)

theorem chargeTag_keeps (r : Ring) {s : State} (h : Keeps kp s0 s) :
    Keeps kp s0 (chargeTag r s) := by
  unfold chargeTag
  repeat (with_reducible first | assumption | apply updCay_keeps | apply keeps_ite | exact fun x => x
                               | refine cayOk ?_ ?_)

theorem tagGiven_keeps (g : Nat) {s : State} (h : Keeps kp s0 s) :
    Keeps kp s0 (tagGiven g s) := by
  unfold tagGiven
  repeat (first | (with_reducible first | assumption | apply updCar_keeps) | (show _ = _; rfl)
                | (with_reducible first | exact fun x => x | refine carOk ?_ ?_ ?_))

theorem takeEntry_keeps (g : Nat) (t : Nat) (sided : Bool) (bytes : Bytes) {s : State} (h : Keeps kp s0 s) :
    Keeps kp s0 (takeEntry g t sided bytes s) := by
  unfold takeEntry
  repeat (first | exact (fun x => twf_tput _ _ _ _ x (fun e => by cases e))
                | (with_reducible first | assumption | apply updStats_keeps | apply relieve_keeps
                                        | apply tagGiven_keeps | apply seqd_keeps | apply chargeTag_keeps
                                        | apply updCar_keeps | apply writeBack_keeps | apply markSiding_keeps
                                        | apply updRing_keeps | apply cmdContext_keeps | apply keeps_ite)
                | (show _ = _; rfl)
                | (with_reducible first | exact fun x => x | exact twf_tmap _ _ _ | refine carOk ?_ ?_ ?_))

theorem execSqEntryTake_keepsRes (sq : Nat) {s : State} (h : Keeps kp s0 s) :
    KeepsRes kp s0 (execSqEntryTake sq s) := by
  unfold execSqEntryTake
  repeat (first | (with_reducible first | assumption | apply flushDb_keeps | apply fetchEntry_keeps
                                        | apply takeEntry_keeps | apply updCar_keeps | apply rebrake_keeps
                                        | apply shareSync_keeps | apply keepsRes_next | apply keepsRes_onlyIf
                                        | apply keepsRes_ite)
                | (show _ = _; rfl) | (with_reducible first | exact fun x => x | refine carOk ?_ ?_ ?_) | split)

theorem execBrakeAlert_keepsRes (cq : Nat) {s : State} (h : Keeps kp s0 s) :
    KeepsRes kp s0 (execBrakeAlert cq s) := by
  unfold execBrakeAlert
  repeat (with_reducible first | assumption | apply seqd_keeps | apply setIntBoth_keeps | apply recordSeq_keeps
                               | apply updRing_keeps | apply keepsRes_onlyIf)

theorem execCoalTimeExpiry_keepsRes (cq : Nat) {s : State} (h : Keeps kp s0 s) :
    KeepsRes kp s0 (execCoalTimeExpiry cq s) := by
  unfold execCoalTimeExpiry
  repeat (with_reducible first | assumption | apply cqMessage_keeps | apply keepsRes_onlyIf)

theorem execRsRead_keepsRes (p : Port) (slice : Option Nat) (ring : Nat) {s : State} (h : Keeps kp s0 s) :
    KeepsRes kp s0 (execRsRead p slice ring s) := by
  unfold execRsRead
  repeat (with_reducible first | assumption | apply rsCommand_keepsRes | apply updRs_keeps | (intro _ s h))

theorem execRsWrite_keepsRes (p : Port) (slice : Option Nat) (ring : Nat) {s : State} (h : Keeps kp s0 s) :
    KeepsRes kp s0 (execRsWrite p slice ring s) := by
  unfold execRsWrite
  repeat (with_reducible first | assumption | apply rsCommand_keepsRes | apply updRing_keeps | (intro _ s h))

theorem execRsEnable_keepsRes (p : Port) (slice : Option Nat) (ring : Nat) {s : State} (h : Keeps kp s0 s) :
    KeepsRes kp s0 (execRsEnable p slice ring s) := by
  unfold execRsEnable
  repeat (with_reducible first | assumption | apply relieve_keeps | apply rsCommand_keepsRes | apply rebrake_keeps
                               | apply updRing_keeps | apply keeps_ite | (intro _ s h))

theorem execRsDisable_keepsRes (p : Port) (slice : Option Nat) (ring : Nat) {s : State} (h : Keeps kp s0 s) :
    KeepsRes kp s0 (execRsDisable p slice ring s) := by
  unfold execRsDisable
  repeat (with_reducible first | assumption | apply rsCommand_keepsRes | apply setRing_keeps | apply stampBrake_keeps
                               | apply keeps_ite | (intro _ s h))

theorem execRsReset_keepsRes (p : Port) (slice : Option Nat) (ring : Nat) {s : State} (h : Keeps kp s0 s) :
    KeepsRes kp s0 (execRsReset p slice ring s) := by
  unfold execRsReset
  repeat (with_reducible first | assumption | apply rsCommand_keepsRes | apply updRing_keeps | (intro _ s h))

theorem execAbortByCookie_keepsRes (p : Port) (slice : Option Nat) (ring : Nat) {s : State} (h : Keeps kp s0 s) :
    KeepsRes kp s0 (execAbortByCookie p slice ring s) := by
  unfold execAbortByCookie
  repeat (with_reducible first | assumption | apply abortWrite_keepsRes)

theorem execAbortAll_keepsRes (p : Port) (slice : Option Nat) (ring : Nat) {s : State} (h : Keeps kp s0 s) :
    KeepsRes kp s0 (execAbortAll p slice ring s) := by
  unfold execAbortAll
  repeat (with_reducible first | assumption | apply abortWrite_keepsRes)

theorem execAdmission_keepsRes (tag : Nat) {s : State} (h : Keeps kp s0 s) :
    KeepsRes kp s0 (execAdmission tag s) := by
  unfold execAdmission
  repeat (first | (with_reducible first | assumption | apply updCarr_keeps | apply runAdmission_keeps
                                        | apply updCar_keeps | apply keepsRes_next | apply keepsRes_ite)
                | (show _ = _; rfl) | (with_reducible first | exact fun x => x | refine carOk ?_ ?_ ?_))

theorem execLegacyAdmit_keepsRes {s : State} (h : Keeps kp s0 s) :
    KeepsRes kp s0 (execLegacyAdmit s) := by
  unfold execLegacyAdmit
  repeat (first | (with_reducible first | assumption | apply runAdmission_keeps | apply updCar_keeps
                                        | apply keepsRes_next | apply keepsRes_onlyIf)
                | (show _ = _; rfl) | (with_reducible first | exact fun x => x | refine carOk ?_ ?_ ?_) | split)

theorem execOrderedCompletion_keepsRes (tag : Nat) {s : State} (h : Keeps kp s0 s) :
    KeepsRes kp s0 (execOrderedCompletion tag s) := by
  unfold execOrderedCompletion
  repeat (first | (with_reducible first | assumption | apply finish_keeps | apply reap_keeps | apply keepsRes_next
                                        | apply keepsRes_onlyIf)
                | split | dsimp only)

theorem execFence_keepsRes (tag : Nat) {s : State} (h : Keeps kp s0 s) :
    KeepsRes kp s0 (execFence tag s) := by
  unfold execFence
  repeat (with_reducible first | assumption | apply done_keeps | apply keepsRes_onlyIf)

theorem execNop_keepsRes (tag : Nat) {s : State} (h : Keeps kp s0 s) :
    KeepsRes kp s0 (execNop tag s) := by
  unfold execNop
  repeat (with_reducible first | assumption | apply done_keeps | apply keepsRes_onlyIf)

theorem takeTable_keeps (p : Port) (n : Nat) {s : State} (h : Keeps kp s0 s) :
    Keeps kp s0 (takeTable p n s) := by
  unfold takeTable
  repeat (with_reducible first | assumption | apply updTable_keeps | apply seqd_keeps)

theorem tellWaiter_keeps (w : Port) (n : Nat) {s : State} (h : Keeps kp s0 s) :
    Keeps kp s0 (tellWaiter w n s) := by
  unfold tellWaiter
  repeat (with_reducible first | assumption | apply updHpt_keeps | apply setInt_keeps | apply keeps_ite)

theorem dropTable_keeps (n : Nat) (forced : Bool) {s : State} (h : Keeps kp s0 s) :
    Keeps kp s0 (dropTable n forced s) := by
  unfold dropTable
  repeat (first | (with_reducible first | assumption | apply updTable_keeps | apply seqd_keeps
                                        | apply legErase_keeps | apply tellWaiter_keeps)
                | split | dsimp only)

theorem badRelease_keeps (p : Port) {s : State} (h : Keeps kp s0 s) :
    Keeps kp s0 (badRelease p s) := by
  unfold badRelease
  repeat (with_reducible first | assumption | apply updTtb_keeps | exact fun x => x)

theorem execTtbAcquire_keepsRes (p : Port) (n : Nat) {s : State} (h : Keeps kp s0 s) :
    KeepsRes kp s0 (execTtbAcquire p n s) := by
  unfold execTtbAcquire
  repeat (first | (with_reducible first | assumption | apply updTable_keeps | apply answer_keeps
                                        | apply takeTable_keeps | apply cntRd_keeps | apply keepsRes_next)
                | split)

theorem execTtbRenew_keepsRes (p : Port) (n : Nat) (value : Nat) {s : State} (h : Keeps kp s0 s) :
    KeepsRes kp s0 (execTtbRenew p n value s) := by
  unfold execTtbRenew
  repeat (with_reducible first | assumption | apply updTable_keeps | apply seqd_keeps | apply badRelease_keeps
                               | apply legTouch_keeps | apply cntWr_keeps | apply keepsRes_next | apply keepsRes_ite)

theorem execTtbRelease_keepsRes (p : Port) (n : Nat) (value : Nat) {s : State} (h : Keeps kp s0 s) :
    KeepsRes kp s0 (execTtbRelease p n value s) := by
  unfold execTtbRelease
  repeat (with_reducible first | assumption | apply badRelease_keeps | apply legTouch_keeps | apply cntWr_keeps
                               | apply dropTable_keeps | apply keepsRes_next | apply keepsRes_ite)

theorem execTtbLeaseExpiry_keepsRes (n : Nat) {s : State} (h : Keeps kp s0 s) :
    KeepsRes kp s0 (execTtbLeaseExpiry n s) := by
  unfold execTtbLeaseExpiry
  repeat (with_reducible first | assumption | apply dropTable_keeps | apply keepsRes_onlyIf)

end Sys2Proof.Laws
end

