-- ==== Sys2Proof/Laws/KeepsEngines.lean ====
section
/-! SUPPORT. What the engines' operations and commands keep. -/
namespace Sys2Proof.Laws

open Sys2Proof.Machine Sys2Proof.Safety

variable {kp : Kept} {s0 s : State}

theorem rngRecord_keeps (kind : Nat) (cause : Nat) {s : State} (h : Keeps kp s0 s) :
    Keeps kp s0 (rngRecord kind cause s) := by
  unfold rngRecord
  repeat (with_reducible first | assumption | apply recordSeq_keeps)

theorem rngZeroise_keeps {s : State} (h : Keeps kp s0 s) :
    Keeps kp s0 (rngZeroise s) := by
  unfold rngZeroise
  repeat (first | (with_reducible first | assumption | apply updKst_keeps | apply updRng_keeps) | (show _ = _; rfl)
                | with_reducible exact fun x => x | (with_reducible apply And.intro))

theorem declare__keeps (cause : Nat) {s : State} (h : Keeps kp s0 s) :
    Keeps kp s0 (declare_ cause s) := by
  unfold declare_
  repeat (first | (with_reducible first | assumption | apply seqd_keeps | apply reap_keeps | apply updRng_keeps
                                        | apply unserved_keeps | apply record_keeps | apply rngZeroise_keeps
                                        | apply setIntBoth_keeps | (apply keeps_foldl; intro s x h))
                | (show _ = _; rfl) | (with_reducible apply And.intro))

theorem rngStart_keeps {s : State} (h : Keeps kp s0 s) :
    Keeps kp s0 (rngStart s) := by
  unfold rngStart
  repeat (first | (with_reducible first | assumption | apply rngRecord_keeps | apply seqd_keeps | apply updRng_keeps
                                        | apply rngZeroise_keeps)
                | (show _ = _; rfl) | (with_reducible apply And.intro))

theorem rngCtl_keepsRes (p : Port) (f : State → State) {s : State} (h : Keeps kp s0 s) (hf : ∀ s, Keeps kp s0 s →
    Keeps kp s0 (f s)) :
    KeepsRes kp s0 (rngCtl p s f) := by
  unfold rngCtl
  repeat (with_reducible first | assumption | apply hf | apply legTouch_keeps | apply cntWr_keeps | apply keepsRes_next
                               | apply keepsRes_ite)

theorem execRestart_keepsRes (p : Port) {s : State} (h : Keeps kp s0 s) :
    KeepsRes kp s0 (execRestart p s) := by
  unfold execRestart
  repeat (with_reducible first | assumption | apply rngStart_keeps | apply legTouch_keeps | apply cntWr_keeps
                               | apply keepsRes_next | apply keepsRes_ite)

theorem reseedNow_keeps {s : State} (h : Keeps kp s0 s) :
    Keeps kp s0 (reseedNow s) := by
  unfold reseedNow
  repeat (first | (with_reducible first | assumption | apply updRng_keeps) | (show _ = _; rfl)
                | (with_reducible apply And.intro))

theorem reseedIfDue_keeps {s : State} (h : Keeps kp s0 s) :
    Keeps kp s0 (reseedIfDue s) := by
  unfold reseedIfDue
  repeat (with_reducible first | assumption | apply reseedNow_keeps | apply keeps_ite)

theorem askReseed_keeps {s : State} (h : Keeps kp s0 s) :
    Keeps kp s0 (askReseed s) := by
  unfold askReseed
  repeat (first | (with_reducible first | assumption | apply rngRecord_keeps | apply reseedIfDue_keeps
                                        | apply seqd_keeps | apply updRng_keeps | apply keeps_ite)
                | (show _ = _; rfl) | (with_reducible apply And.intro))

theorem execReseed_keepsRes (p : Port) {s : State} (h : Keeps kp s0 s) :
    KeepsRes kp s0 (execReseed p s) := by
  unfold execReseed
  repeat (with_reducible first | assumption | apply rngCtl_keepsRes | apply askReseed_keeps)

theorem katBegin_keeps {s : State} (h : Keeps kp s0 s) :
    Keeps kp s0 (katBegin s) := by
  unfold katBegin
  repeat (first | (with_reducible first | assumption | apply updRng_keeps) | (show _ = _; rfl)
                | (with_reducible apply And.intro))

theorem katEnd_keeps (pass : Bool) {s : State} (h : Keeps kp s0 s) :
    Keeps kp s0 (katEnd pass s) := by
  unfold katEnd
  repeat (first | (with_reducible first | assumption | apply rngRecord_keeps | apply updRng_keeps
                                        | apply declare__keeps | apply keeps_ite)
                | (show _ = _; rfl) | (with_reducible apply And.intro))

theorem execKat_keepsRes (p : Port) (pass : Bool) {s : State} (h : Keeps kp s0 s) :
    KeepsRes kp s0 (execKat p pass s) := by
  unfold execKat
  repeat (with_reducible first | assumption | apply katBegin_keeps | apply rngCtl_keepsRes | apply seqd_keeps
                               | apply katEnd_keeps | apply keepsRes_onlyIf | apply keepsRes_ite | (intro s h))

theorem collect_keeps (cell : Nat) (k : Nat) (l : List Bool) {s : State} (h : Keeps kp s0 s) :
    Keeps kp s0 (collect cell k l s) := by
  unfold collect
  repeat (first | (with_reducible first | assumption | apply updRng_keeps) | (show _ = _; rfl)
                | (with_reducible apply And.intro))

theorem discardWindow_keeps (cell : Nat) (k : Nat) {s : State} (h : Keeps kp s0 s) :
    Keeps kp s0 (discardWindow cell k s) := by
  unfold discardWindow
  repeat (first | (with_reducible first | assumption | apply updRng_keeps) | (show _ = _; rfl)
                | (with_reducible apply And.intro))

theorem windowFailed_keeps (cell : Nat) (at_ : Nat) {s : State} (h : Keeps kp s0 s) :
    Keeps kp s0 (windowFailed cell at_ s) := by
  unfold windowFailed
  repeat (first | (with_reducible first | assumption | apply updRng_keeps | apply declare__keeps | apply keeps_ite)
                | (show _ = _; rfl) | (with_reducible apply And.intro))

theorem execHealthWindowEnd_keepsRes (cell : Nat) (samples : List Bool) {s : State} (h : Keeps kp s0 s) :
    KeepsRes kp s0 (execHealthWindowEnd cell samples s) := by
  unfold execHealthWindowEnd
  repeat (first | (with_reducible first | assumption | apply collect_keeps | apply discardWindow_keeps
                                        | apply reseedIfDue_keeps | apply updRng_keeps | apply windowFailed_keeps
                                        | apply keepsRes_next | apply keepsRes_ite | apply keeps_ite)
                | (show _ = _; rfl) | (with_reducible apply And.intro))

theorem execDrbgInstantiate_keepsRes {s : State} (h : Keeps kp s0 s) :
    KeepsRes kp s0 (execDrbgInstantiate s) := by
  unfold execDrbgInstantiate
  repeat (first | (with_reducible first | assumption | apply updRng_keeps | apply setIntBoth_keeps
                                        | apply keepsRes_onlyIf)
                | (show _ = _; rfl) | (with_reducible apply And.intro))

theorem execRngStartTimeout_keepsRes {s : State} (h : Keeps kp s0 s) :
    KeepsRes kp s0 (execRngStartTimeout s) := by
  unfold execRngStartTimeout
  repeat (with_reducible first | assumption | apply declare__keeps | apply keepsRes_onlyIf)

theorem execAutomaticReseed_keepsRes {s : State} (h : Keeps kp s0 s) :
    KeepsRes kp s0 (execAutomaticReseed s) := by
  unfold execAutomaticReseed
  repeat (with_reducible first | assumption | apply reseedNow_keeps | apply keepsRes_onlyIf)

theorem execTenderFill_keepsRes {s : State} (h : Keeps kp s0 s) :
    KeepsRes kp s0 (execTenderFill s) := by
  unfold execTenderFill
  repeat (first | (with_reducible first | assumption | apply serveAll_keeps | apply updRng_keeps
                                        | apply keepsRes_onlyIf)
                | (show _ = _; rfl) | (with_reducible apply And.intro))

theorem execRngWaitExpiry_keepsRes {s : State} (h : Keeps kp s0 s) :
    KeepsRes kp s0 (execRngWaitExpiry s) := by
  unfold execRngWaitExpiry
  repeat (first | (with_reducible first | assumption | apply serveAll_keeps | apply unserved_keeps
                                        | apply keepsRes_next | apply keepsRes_onlyIf)
                | split)

theorem execRemask_keepsRes (slot : Nat) {s : State} (h : Keeps kp s0 s) :
    KeepsRes kp s0 (execRemask slot s) := by
  unfold execRemask
  repeat (with_reducible first | assumption | apply ask_keeps | apply keepsRes_onlyIf)

theorem execMaskReserveRefill_keepsRes {s : State} (h : Keeps kp s0 s) :
    KeepsRes kp s0 (execMaskReserveRefill s) := by
  unfold execMaskReserveRefill
  repeat (first | exact tenderTake_keeps h (by assumption)
                | (with_reducible first | assumption | apply updKst_keeps | apply keepsRes_next | apply keepsRes_onlyIf)
                | (show _ = _; rfl) | with_reducible exact fun x => x | split)

theorem execRandomBytes_keepsRes (tag : Nat) {s : State} (h : Keeps kp s0 s) :
    KeepsRes kp s0 (execRandomBytes tag s) := by
  unfold execRandomBytes
  repeat (with_reducible first | assumption | apply done_keeps | apply writeBuffer_keeps | apply begin__keeps
                               | apply keepsRes_onlyIf)

theorem portWrite_keeps (p : Port) (addr : Nat) (data : Bytes) {s : State} (h : Keeps kp s0 s) :
    Keeps kp s0 (portWrite p addr data s) := by
  unfold portWrite
  repeat (with_reducible first | assumption | apply dmaWriteMps_keeps)

theorem latEnqueue_keeps (q : LatReq) {s : State} (h : Keeps kp s0 s) :
    Keeps kp s0 (latEnqueue q s) := by
  unfold latEnqueue
  repeat (with_reducible first | assumption | apply updLat_keeps)

theorem latGo_keeps (p : Port) {s : State} (h : Keeps kp s0 s) :
    Keeps kp s0 (latGo p s) := by
  unfold latGo
  repeat (with_reducible first | assumption | apply dmaRead_keeps | apply updWin_keeps | apply updLat_keeps
                               | apply latEnqueue_keeps | apply useSlot_keeps | apply ask_keeps | apply keeps_ite)

theorem latRow_keepsRes (p : Port) (op : Nat) {s : State} (h : Keeps kp s0 s) :
    KeepsRes kp s0 (latRow p op s) := by
  unfold latRow
  repeat (with_reducible first | assumption | apply latGo_keeps | apply seqIf_keeps | apply legTouch_keeps
                               | apply cntWr_keeps | apply keepsRes_next | apply keepsRes_ite)

theorem execKeygenKem_keepsRes (p : Port) {s : State} (h : Keeps kp s0 s) :
    KeepsRes kp s0 (execKeygenKem p s) := by
  unfold execKeygenKem
  repeat (with_reducible first | assumption | apply latRow_keepsRes)

theorem execKeygenDsa_keepsRes (p : Port) {s : State} (h : Keeps kp s0 s) :
    KeepsRes kp s0 (execKeygenDsa p s) := by
  unfold execKeygenDsa
  repeat (with_reducible first | assumption | apply latRow_keepsRes)

theorem execPubkey_keepsRes (p : Port) {s : State} (h : Keeps kp s0 s) :
    KeepsRes kp s0 (execPubkey p s) := by
  unfold execPubkey
  repeat (with_reducible first | assumption | apply latRow_keepsRes)

theorem execSign_keepsRes (p : Port) {s : State} (h : Keeps kp s0 s) :
    KeepsRes kp s0 (execSign p s) := by
  unfold execSign
  repeat (with_reducible first | assumption | apply latRow_keepsRes)

theorem execLatAbort_keepsRes (p : Port) {s : State} (h : Keeps kp s0 s) :
    KeepsRes kp s0 (execLatAbort p s) := by
  unfold execLatAbort
  repeat (with_reducible first | assumption | apply latEnd_keeps | apply seqIf_keeps | apply legTouch_keeps
                               | apply reap_keeps | apply cntWr_keeps | apply keepsRes_next | apply keepsRes_ite)

theorem latCount_keeps {s : State} (h : Keeps kp s0 s) :
    Keeps kp s0 (latCount s) := by
  unfold latCount
  repeat (with_reducible first | assumption | apply updLat_keeps)

theorem latComplete_keeps (p : Port) {s : State} (h : Keeps kp s0 s) :
    Keeps kp s0 (latComplete p s) := by
  unfold latComplete
  repeat (first | (with_reducible first | assumption | apply latCount_keeps | apply latEnd_keeps
                                        | apply portWrite_keeps | apply seqd_keeps | apply reap_keeps
                                        | apply allocSlot_keeps | apply keeps_ite)
                | split)

theorem updAnc_keeps (p : Port) (f : AncBlk → AncBlk) {s : State} (h : Keeps kp s0 s) :
    Keeps kp s0 (updAnc p f s) := by
  unfold updAnc
  repeat (with_reducible first | assumption | apply updWin_keeps)

theorem ancCmd_keepsRes (p : Port) (f : AncBlk → State → State) {s : State} (h : Keeps kp s0 s) (hf : ∀ y0 s, Keeps kp
    s0 s → Keeps kp s0 (f y0 s)) :
    KeepsRes kp s0 (ancCmd p s f) := by
  unfold ancCmd
  repeat (with_reducible first | assumption | apply hf | apply seqd_keeps | apply legTouch_keeps | apply cntWr_keeps
                               | apply keepsRes_next | apply keepsRes_ite | apply keeps_ite)

theorem execAncLoad_keepsRes (p : Port) {s : State} (h : Keeps kp s0 s) :
    KeepsRes kp s0 (execAncLoad p s) := by
  unfold execAncLoad
  repeat (with_reducible first | assumption | apply dmaRead_keeps | apply ancCmd_keepsRes | apply updAnc_keeps
                               | apply keeps_ite | (intro _ s h))

theorem execAncClear_keepsRes (p : Port) {s : State} (h : Keeps kp s0 s) :
    KeepsRes kp s0 (execAncClear p s) := by
  unfold execAncClear
  repeat (with_reducible first | assumption | apply ancCmd_keepsRes | apply updBnv_keeps | apply updAnc_keeps
                               | (intro _ s h))

theorem updChan_keeps (p : Port) (f : BnvChan → BnvChan) {s : State} (h : Keeps kp s0 s) :
    Keeps kp s0 (updChan p f s) := by
  unfold updChan
  repeat (with_reducible first | assumption | apply updBnv_keeps)

theorem chanGo_keeps (p : Port) {s : State} (h : Keeps kp s0 s) :
    Keeps kp s0 (chanGo p s) := by
  unfold chanGo
  repeat (with_reducible first | assumption | apply updChan_keeps | apply keeps_ite)

theorem chanRow_keepsRes (p : Port) (op : Nat) {s : State} (h : Keeps kp s0 s) :
    KeepsRes kp s0 (chanRow p op s) := by
  unfold chanRow
  repeat (with_reducible first | assumption | apply seqIf_keeps | apply legTouch_keeps | apply cntWr_keeps
                               | apply chanGo_keeps | apply keepsRes_next | apply keepsRes_ite)

theorem execModmul_keepsRes (p : Port) {s : State} (h : Keeps kp s0 s) :
    KeepsRes kp s0 (execModmul p s) := by
  unfold execModmul
  repeat (with_reducible first | assumption | apply chanRow_keepsRes)

theorem execModexp_keepsRes (p : Port) {s : State} (h : Keeps kp s0 s) :
    KeepsRes kp s0 (execModexp p s) := by
  unfold execModexp
  repeat (with_reducible first | assumption | apply chanRow_keepsRes)

theorem execEcadd_keepsRes (p : Port) {s : State} (h : Keeps kp s0 s) :
    KeepsRes kp s0 (execEcadd p s) := by
  unfold execEcadd
  repeat (with_reducible first | assumption | apply chanRow_keepsRes)

theorem execEcmul_keepsRes (p : Port) {s : State} (h : Keeps kp s0 s) :
    KeepsRes kp s0 (execEcmul p s) := by
  unfold execEcmul
  repeat (with_reducible first | assumption | apply chanRow_keepsRes)

theorem chanZeroise_keeps (p : Port) (status : Nat) {s : State} (h : Keeps kp s0 s) :
    Keeps kp s0 (chanZeroise p status s) := by
  unfold chanZeroise
  repeat (with_reducible first | assumption | apply updChan_keeps)

theorem execBnvAbort_keepsRes (p : Port) {s : State} (h : Keeps kp s0 s) :
    KeepsRes kp s0 (execBnvAbort p s) := by
  unfold execBnvAbort
  repeat (with_reducible first | assumption | apply chanZeroise_keeps | apply seqd_keeps | apply legTouch_keeps
                               | apply cntWr_keeps | apply keepsRes_next | apply keepsRes_ite | apply keeps_ite)

theorem chanDone_keeps (p : Port) {s : State} (h : Keeps kp s0 s) :
    Keeps kp s0 (chanDone p s) := by
  unfold chanDone
  repeat (first | (with_reducible first | assumption | apply updChan_keeps | apply draw_keeps) | split | dsimp only)

theorem execOperandAccess_keepsRes (p : Port) (off : Nat) (enables : List Bool) (write : Option (List (Option Byte)))
    {s : State} (h : Keeps kp s0 s) :
    KeepsRes kp s0 (execOperandAccess p off enables write s) := by
  unfold execOperandAccess
  repeat (first | (with_reducible first | assumption | apply updHpt_keeps | apply updChan_keeps | apply emit_keeps
                                        | apply keepsRes_next | apply keepsRes_ite)
                | split)

theorem assignChans_keeps (x0 : Nat) {s : State} (h : Keeps kp s0 s) :
    Keeps kp s0 (assignChans x0 s) := by
  revert h
  fun_induction assignChans x0 s <;> intro h
  all_goals repeat (with_reducible first | assumption | refine ‹Keeps kp s0 _ → Keeps kp s0 _› ?_ | apply updBnv_keeps)

theorem bnvEnqueue_keeps (t : Nat) {s : State} (h : Keeps kp s0 s) :
    Keeps kp s0 (bnvEnqueue t s) := by
  unfold bnvEnqueue
  repeat (with_reducible first | assumption | apply assignChans_keeps | apply updBnv_keeps)

theorem latCarriage_keeps (t : Nat) {s : State} (h : Keeps kp s0 s) :
    Keeps kp s0 (latCarriage t s) := by
  unfold latCarriage
  repeat (with_reducible first | assumption | apply latEnqueue_keeps)

theorem countVerify_keeps (status : Nat) {s : State} (h : Keeps kp s0 s) :
    Keeps kp s0 (countVerify status s) := by
  unfold countVerify
  repeat (with_reducible first | assumption | apply updBnv_keeps)

theorem finishVerify_keeps (t : Nat) {s : State} (h : Keeps kp s0 s) :
    Keeps kp s0 (finishVerify t s) := by
  unfold finishVerify
  repeat (with_reducible first | assumption | apply countVerify_keeps | apply done_keeps | apply assignChans_keeps
                               | apply keeps_ite)

theorem engineDone_keeps (t : Nat) {s : State} (h : Keeps kp s0 s) :
    Keeps kp s0 (engineDone t s) := by
  unfold engineDone
  repeat (with_reducible first | assumption | apply updCarr_keeps | apply finishVerify_keeps | apply keeps_ite)

theorem execVerifySignature_keepsRes (tag : Nat) {s : State} (h : Keeps kp s0 s) :
    KeepsRes kp s0 (execVerifySignature tag s) := by
  unfold execVerifySignature
  repeat (with_reducible first | assumption | apply latCarriage_keeps | apply bnvEnqueue_keeps | apply updCarr_keeps
                               | apply readBuffer_keeps | apply keepsRes_next | apply keepsRes_ite | apply keeps_ite)

theorem execBnvOpDone_keepsRes (channel : Nat) {s : State} (h : Keeps kp s0 s) :
    KeepsRes kp s0 (execBnvOpDone channel s) := by
  unfold execBnvOpDone
  repeat (first | (with_reducible first | assumption | apply assignChans_keeps | apply updBnv_keeps
                                        | apply chanDone_keeps | apply engineDone_keeps | apply keepsRes_next)
                | split)

theorem ucpAnswer_keeps (u : UcpUser) (v : Nat) {s : State} (h : Keeps kp s0 s) :
    Keeps kp s0 (ucpAnswer u v s) := by
  unfold ucpAnswer
  repeat (first | (with_reducible first | assumption | apply answer_keeps | apply cntRd_keeps) | split)

theorem ucpWrote_keeps (u : UcpUser) {s : State} (h : Keeps kp s0 s) :
    Keeps kp s0 (ucpWrote u s) := by
  unfold ucpWrote
  repeat (first | (with_reducible first | assumption | apply legTouch_keeps | apply cntWr_keeps) | split)

theorem ucpSeq_keeps (u : UcpUser) {s : State} (h : Keeps kp s0 s) :
    Keeps kp s0 (ucpSeq u s) := by
  unfold ucpSeq
  repeat (first | (with_reducible first | assumption | apply seqd_keeps) | split)

theorem ucpClear_keeps (forced : Bool) {s : State} (h : Keeps kp s0 s) :
    Keeps kp s0 (ucpClear forced s) := by
  unfold ucpClear
  repeat (first | (with_reducible first | assumption | apply updUcp_keeps) | (show _ = _; rfl))

theorem ucpForce_keeps (status : Nat) {s : State} (h : Keeps kp s0 s) :
    Keeps kp s0 (ucpForce status s) := by
  unfold ucpForce
  repeat (with_reducible first | assumption | apply seqd_keeps | apply ucpClear_keeps | apply ucpEnd_keeps
                               | apply keeps_ite)

theorem execUcpLockAcquire_keepsRes (u : UcpUser) {s : State} (h : Keeps kp s0 s) :
    KeepsRes kp s0 (execUcpLockAcquire u s) := by
  unfold execUcpLockAcquire
  repeat (first | (with_reducible first | assumption | apply ucpAnswer_keeps | apply seqd_keeps | apply updUcp_keeps
                                        | apply answer_keeps | apply cntRd_keeps | apply keepsRes_next)
                | (show _ = _; rfl) | split)

theorem execUcpLockRelease_keepsRes (u : UcpUser) (value : Nat) {s : State} (h : Keeps kp s0 s) :
    KeepsRes kp s0 (execUcpLockRelease u value s) := by
  unfold execUcpLockRelease
  repeat (first | (with_reducible first | assumption | apply updUcp_keeps | apply ucpSeq_keeps
                                        | apply ucpClear_keeps | apply ucpWrote_keeps | apply keepsRes_next
                                        | apply keepsRes_ite)
                | (show _ = _; rfl))

theorem execUcpIdleExpiry_keepsRes {s : State} (h : Keeps kp s0 s) :
    KeepsRes kp s0 (execUcpIdleExpiry s) := by
  unfold execUcpIdleExpiry
  repeat (with_reducible first | assumption | apply ucpForce_keeps | apply keepsRes_onlyIf)

theorem ucpRead_keeps (w : DmaRead) (addr : Nat) (len : Nat) {s : State} (h : Keeps kp s0 s) :
    Keeps kp s0 (ucpRead w addr len s) := by
  unfold ucpRead
  repeat (first | (with_reducible first | assumption | apply dmaRead_keeps) | split)

theorem ucpGo_keeps {s : State} (h : Keeps kp s0 s) :
    Keeps kp s0 (ucpGo s) := by
  unfold ucpGo
  repeat (first | (with_reducible first | assumption | apply updUcp_keeps | apply useSlot_keeps
                                        | apply ucpRead_keeps | apply keeps_ite)
                | (show _ = _; rfl))

theorem ucpStage_keeps (op : Nat) (c : UcpArgs) {s : State} (h : Keeps kp s0 s) :
    Keeps kp s0 (ucpStage op c s) := by
  unfold ucpStage
  repeat (first | (with_reducible first | assumption | apply updUcp_keeps) | (show _ = _; rfl))

theorem ucpFetched_keeps (c : UcpArgs) {s : State} (h : Keeps kp s0 s) :
    Keeps kp s0 (ucpFetched c s) := by
  unfold ucpFetched
  repeat (first | (with_reducible first | assumption | apply updUcp_keeps | apply keeps_ite) | (show _ = _; rfl))

theorem ucpRow_keepsRes (u : UcpCmd) (op : Nat) {s : State} (h : Keeps kp s0 s) :
    KeepsRes kp s0 (ucpRow u op s) := by
  unfold ucpRow
  repeat (first | (with_reducible first | assumption | apply ucpFetched_keeps | apply ucpStage_keeps
                                        | apply updUcp_keeps | apply ucpSeq_keeps | apply ucpWrote_keeps
                                        | apply ucpGo_keeps | apply keepsRes_next)
                | (show _ = _; rfl) | split)

theorem execKwWrap_keepsRes (u : UcpCmd) {s : State} (h : Keeps kp s0 s) :
    KeepsRes kp s0 (execKwWrap u s) := by
  unfold execKwWrap
  repeat (with_reducible first | assumption | apply ucpRow_keepsRes)

theorem execKwpWrap_keepsRes (u : UcpCmd) {s : State} (h : Keeps kp s0 s) :
    KeepsRes kp s0 (execKwpWrap u s) := by
  unfold execKwpWrap
  repeat (with_reducible first | assumption | apply ucpRow_keepsRes)

theorem execKwpUnwrap_keepsRes (u : UcpCmd) {s : State} (h : Keeps kp s0 s) :
    KeepsRes kp s0 (execKwpUnwrap u s) := by
  unfold execKwpUnwrap
  repeat (with_reducible first | assumption | apply ucpRow_keepsRes)

theorem execCmacGen_keepsRes (u : UcpCmd) {s : State} (h : Keeps kp s0 s) :
    KeepsRes kp s0 (execCmacGen u s) := by
  unfold execCmacGen
  repeat (with_reducible first | assumption | apply ucpRow_keepsRes)

theorem execCmacVer_keepsRes (u : UcpCmd) {s : State} (h : Keeps kp s0 s) :
    KeepsRes kp s0 (execCmacVer u s) := by
  unfold execCmacVer
  repeat (with_reducible first | assumption | apply ucpRow_keepsRes)

theorem execGcmEnc_keepsRes (u : UcpCmd) {s : State} (h : Keeps kp s0 s) :
    KeepsRes kp s0 (execGcmEnc u s) := by
  unfold execGcmEnc
  repeat (with_reducible first | assumption | apply ucpRow_keepsRes)

theorem execGcmDec_keepsRes (u : UcpCmd) {s : State} (h : Keeps kp s0 s) :
    KeepsRes kp s0 (execGcmDec u s) := by
  unfold execGcmDec
  repeat (with_reducible first | assumption | apply ucpRow_keepsRes)

theorem execGcmVer_keepsRes (u : UcpCmd) {s : State} (h : Keeps kp s0 s) :
    KeepsRes kp s0 (execGcmVer u s) := by
  unfold execGcmVer
  repeat (with_reducible first | assumption | apply ucpRow_keepsRes)

theorem execUcpOpDone_keepsRes {s : State} (h : Keeps kp s0 s) :
    KeepsRes kp s0 (execUcpOpDone s) := by
  unfold execUcpOpDone
  repeat (first | (with_reducible first | assumption | apply portWrite_keeps | apply updUcp_keeps | apply reap_keeps
                                        | apply ucpEnd_keeps | apply keepsRes_next | apply keepsRes_ite)
                | (show _ = _; rfl) | split)

theorem doneOpen_keeps (t : Nat) (n : NewSlot) {s : State} (h : Keeps kp s0 s) :
    Keeps kp s0 (doneOpen t n s) := by
  unfold doneOpen
  repeat (first | (with_reducible first | assumption | apply done_keeps | apply updCarr_keeps | apply seqd_keeps
                                        | apply finishAt_keeps | apply reap_keeps | apply allocSlot_keeps)
                | split)

theorem generateDek_keeps (t : Nat) {s : State} (h : Keeps kp s0 s) :
    Keeps kp s0 (generateDek t s) := by
  unfold generateDek
  repeat (first | (with_reducible first | assumption | apply doneOpen_keeps | apply done_keeps
                                        | apply cacheKek_keeps | apply updCarr_keeps | apply writeBuffer_keeps)
                | split | dsimp only)

theorem execKeyGenerateDek_keepsRes (tag : Nat) {s : State} (h : Keeps kp s0 s) :
    KeepsRes kp s0 (execKeyGenerateDek tag s) := by
  unfold execKeyGenerateDek
  repeat (with_reducible first | assumption | apply generateDek_keeps | apply begin__keeps | apply keepsRes_onlyIf)

theorem execKeyLoadTicket_keepsRes (tag : Nat) {s : State} (h : Keeps kp s0 s) :
    KeepsRes kp s0 (execKeyLoadTicket tag s) := by
  unfold execKeyLoadTicket
  repeat (first | (with_reducible first | assumption | apply doneOpen_keeps | apply keepsRes_next
                                        | apply keepsRes_onlyIf)
                | split | dsimp only)

theorem execKeyReleaseSlot_keepsRes (tag : Nat) {s : State} (h : Keeps kp s0 s) :
    KeepsRes kp s0 (execKeyReleaseSlot tag s) := by
  unfold execKeyReleaseSlot
  repeat (first | (with_reducible first | assumption | apply done_keeps | apply seqIf_keeps | apply mark_keeps
                                        | apply keepsRes_next | apply keepsRes_onlyIf)
                | split | dsimp only)

theorem execSealObject_keepsRes (tag : Nat) {s : State} (h : Keeps kp s0 s) :
    KeepsRes kp s0 (execSealObject tag s) := by
  unfold execSealObject
  repeat (first | (with_reducible first | assumption | apply markBy_keeps | apply done_keeps | apply cacheKek_keeps
                                        | apply seqd_keeps | apply writeBuffer_keeps | apply finishAt_keeps
                                        | apply reap_keeps | apply keepsRes_next)
                | split | dsimp only)

theorem execKeyImport_keepsRes (tag : Nat) {s : State} (h : Keeps kp s0 s) :
    KeepsRes kp s0 (execKeyImport tag s) := by
  unfold execKeyImport
  repeat (first | (with_reducible first | assumption | apply doneOpen_keeps | apply done_keeps
                                        | apply latCarriage_keeps | apply updCarr_keeps | apply readBuffer_keeps
                                        | apply begin__keeps | apply keepsRes_next | apply keepsRes_onlyIf
                                        | apply keepsRes_ite)
                | split)

theorem execAttest_keepsRes (tag : Nat) {s : State} (h : Keeps kp s0 s) :
    KeepsRes kp s0 (execAttest tag s) := by
  unfold execAttest
  repeat (with_reducible first | assumption | apply done_keeps | apply dmaRead_keeps | apply latCarriage_keeps
                               | apply updCarr_keeps | apply writeBuffer_keeps | apply begin__keeps
                               | apply keepsRes_next | apply keepsRes_ite)

theorem replace_keeps (src : Nat) (dst : Nat) {s : State} (h : Keeps kp s0 s) :
    Keeps kp s0 (replace src dst s) := by
  unfold replace
  repeat (with_reducible first | assumption | apply purgeStaging_keeps | apply updSlot_keeps | apply zeroiseSlot_keeps
                               | apply keeps_ite)

theorem replaceSlot_keeps (src : Nat) (dst : Nat) {s : State} (h : Keeps kp s0 s) :
    Keeps kp s0 (replaceSlot src dst s) := by
  unfold replaceSlot
  repeat (with_reducible first | assumption | apply replace_keeps | apply reap_keeps | apply keeps_ite)

theorem execReplGo_keepsRes (p : Port) {s : State} (h : Keeps kp s0 s) :
    KeepsRes kp s0 (execReplGo p s) := by
  unfold execReplGo
  repeat (with_reducible first | assumption | apply updWin_keeps | apply seqd_keeps | apply legTouch_keeps
                               | apply cntWr_keeps | apply replaceSlot_keeps | apply keepsRes_next | apply keepsRes_ite
                               | apply keeps_ite)

theorem countTmo_keeps (used : Bool) {s : State} (h : Keeps kp s0 s) :
    Keeps kp s0 (countTmo used s) := by
  unfold countTmo
  repeat (first | (with_reducible first | assumption | apply updKst_keeps | apply keeps_ite) | (show _ = _; rfl)
                | with_reducible exact fun x => x)

theorem execRetainedExpiry_keepsRes (slot : Nat) {s : State} (h : Keeps kp s0 s) :
    KeepsRes kp s0 (execRetainedExpiry slot s) := by
  unfold execRetainedExpiry
  repeat (with_reducible first | assumption | apply zeroiseRetained_keeps | apply seqd_keeps | apply countTmo_keeps
                               | apply reap_keeps | apply keepsRes_onlyIf)

theorem execErasePendingExpiry_keepsRes (slot : Nat) {s : State} (h : Keeps kp s0 s) :
    KeepsRes kp s0 (execErasePendingExpiry slot s) := by
  unfold execErasePendingExpiry
  repeat (with_reducible first | assumption | apply seqd_keeps | apply countTmo_keeps | apply reap_keeps
                               | apply zeroiseSlot_keeps | apply keepsRes_onlyIf)

theorem execTicketKeyExpiry_keepsRes (tag : Nat) {s : State} (h : Keeps kp s0 s) :
    KeepsRes kp s0 (execTicketKeyExpiry tag s) := by
  unfold execTicketKeyExpiry
  repeat (first | (with_reducible first | assumption | apply stop_keeps | apply countTmo_keeps | apply keepsRes_next
                                        | apply keepsRes_onlyIf)
                | split | dsimp only)

theorem execSpeculativeUnwrap_keepsRes (sq : Nat) (pos : Nat) (ticket : Bytes) {s : State} (h : Keeps kp s0 s) :
    KeepsRes kp s0 (execSpeculativeUnwrap sq pos ticket s) := by
  unfold execSpeculativeUnwrap
  repeat (first | exact (fun x => twf_tput _ _ _ _ x (fun e => by cases e))
                | (with_reducible first | assumption | apply readAtOnce_keeps | apply updCar_keeps
                                        | apply keepsRes_next | apply keepsRes_ite)
                | (show _ = _; rfl) | (with_reducible first | exact fun x => x | refine carOk ?_ ?_ ?_) | split)

theorem execShadowExpiry_keepsRes (shadow : Nat) {s : State} (h : Keeps kp s0 s) :
    KeepsRes kp s0 (execShadowExpiry shadow s) := by
  unfold execShadowExpiry
  repeat (first | (with_reducible first | assumption | apply updCar_keeps | apply keepsRes_onlyIf) | (show _ = _; rfl)
                | (with_reducible first | exact fun x => x | exact twf_tset _ _ _ _ | refine carOk ?_ ?_ ?_))

theorem markL0_keeps {s : State} (h : Keeps kp s0 s) :
    Keeps kp s0 (markL0 s) := by
  unfold markL0
  repeat (first | (with_reducible first | assumption | apply updMdf_keeps) | (show _ = _; rfl)
                | (with_reducible first | exact fun x => x | refine mdfOk ?_ ?_ ?_ ?_))

theorem sendCmd_keeps (d : Nat) (k : CmdKind) (tag : Option Nat) (lba : Nat) (blocks : Nat) {s : State} (h : Keeps kp
    s0 s) :
    Keeps kp s0 (sendCmd d k tag lba blocks s) := by
  unfold sendCmd
  repeat (with_reducible first | assumption | apply updDrive_keeps | apply emit_keeps)

theorem pumpN_keeps (x0 : Nat) (x1 : Nat) (x2 : List (CmdKind × Option Nat × Nat × Nat)) {s : State} (h : Keeps kp s0
    s) :
    Keeps kp s0 (pumpN x0 x1 x2 s) := by
  revert h
  fun_induction pumpN x0 x1 x2 s <;> intro h
  all_goals repeat (with_reducible first | assumption | refine ‹Keeps kp s0 _ → Keeps kp s0 _› ?_ | apply sendCmd_keeps
                                         | apply updDrive_keeps)

theorem pump_keeps (d : Nat) {s : State} (h : Keeps kp s0 s) :
    Keeps kp s0 (pump d s) := by
  unfold pump
  repeat (with_reducible first | assumption | apply pumpN_keeps)

theorem issue_keeps (d : Nat) (k : CmdKind) (tag : Option Nat) (lba : Nat) (blocks : Nat) {s : State} (h : Keeps kp s0
    s) :
    Keeps kp s0 (issue d k tag lba blocks s) := by
  unfold issue
  repeat (with_reducible first | assumption | apply updDrive_keeps | apply pump_keeps)

theorem markStaging_keeps (x : Nat) {s : State} (h : Keeps kp s0 s) :
    Keeps kp s0 (markStaging x s) := by
  unfold markStaging
  repeat (with_reducible first | assumption | apply updWork_keeps | apply updRegion_keeps)

theorem markAll_keeps {s : State} (h : Keeps kp s0 s) :
    Keeps kp s0 (markAll s) := by
  unfold markAll
  repeat (with_reducible first | assumption | apply markStaging_keeps)

theorem updSeg_keeps (t : Nat) (p : Nat) (f : Seg → Seg) {s : State} (h : Keeps kp s0 s) :
    Keeps kp s0 (updSeg t p f s) := by
  unfold updSeg
  repeat (with_reducible first | assumption | apply updCarr_keeps)

theorem countSpill_keeps (d : Nat) (l : List (Nat × Nat)) {s : State} (h : Keeps kp s0 s) :
    Keeps kp s0 (countSpill d l s) := by
  unfold countSpill
  repeat (with_reducible first | assumption | apply updRegion_keeps)

theorem markDegraded_keeps (t : Nat) (far : Bool) {s : State} (h : Keeps kp s0 s) :
    Keeps kp s0 (markDegraded t far s) := by
  unfold markDegraded
  repeat (with_reducible first | assumption | apply updCarr_keeps)

theorem reserveSrc_keepsOpt (t : Nat) (p : Nat) {s : State} (h : Keeps kp s0 s) :
    KeepsOpt kp s0 (reserveSrc t p s) := by
  unfold reserveSrc
  repeat (with_reducible first | assumption | apply markDegraded_keeps | apply updSeg_keeps | apply countSpill_keeps
                               | (apply keepsOpt_map; intro _))

theorem reserveDst_keepsOpt (t : Nat) (p : Nat) {s : State} (h : Keeps kp s0 s) :
    KeepsOpt kp s0 (reserveDst t p s) := by
  unfold reserveDst
  repeat (first | (with_reducible first | assumption | apply markDegraded_keeps | apply updSeg_keeps
                                        | apply keepsOpt_none | (apply keepsOpt_map; intro _))
                | split | dsimp only)

theorem reserveSeg_keepsOpt (t : Nat) (p : Nat) {s : State} (h : Keeps kp s0 s) :
    KeepsOpt kp s0 (reserveSeg t p s) := by
  intro u e
  obtain ⟨b, e1, rfl⟩ := Option.map_eq_some_iff.mp e
  obtain ⟨a, e2, k⟩ := Option.bind_eq_some_iff.mp e1
  have ha := reserveSrc_keepsOpt t p h a e2
  refine markAll_keeps ?_
  by_cases q : (eOp (carrOf s t).entry == 0x04) = true
  · rw [if_pos q] at k
    exact reserveDst_keepsOpt t p ha b k
  · rw [if_neg q] at k
    cases k
    exact ha

theorem reserveTrailer_keepsOpt (t : Nat) (d : Nat) {s : State} (h : Keeps kp s0 s) :
    KeepsOpt kp s0 (reserveTrailer t d s) := by
  unfold reserveTrailer
  repeat (with_reducible first | assumption | apply updCarr_keeps | apply markAll_keeps | apply countSpill_keeps
                               | (apply keepsOpt_map; intro _))

theorem readySeg_keeps (t : Nat) (p : Nat) (f : Seg → Seg) {s : State} (h : Keeps kp s0 s) :
    Keeps kp s0 (readySeg t p f s) := by
  unfold readySeg
  repeat (with_reducible first | assumption | apply updSeg_keeps | apply markStaging_keeps)

theorem fetchNext_keeps (t : Nat) {s : State} (h : Keeps kp s0 s) :
    Keeps kp s0 (fetchNext t s) := by
  unfold fetchNext
  repeat (first | (with_reducible first | assumption | apply readySeg_keeps | apply readBuffer_keeps) | split
                | dsimp only | (refine reserveSeg_keepsOpt _ _ ?_ _ (by assumption)))

theorem readSeg_keeps (t : Nat) (p : Nat) {s : State} (h : Keeps kp s0 s) :
    Keeps kp s0 (readSeg t p s) := by
  unfold readSeg
  repeat (with_reducible first | assumption | apply readySeg_keeps | apply issue_keeps
                               | (apply keeps_foldl; intro s x h))

theorem readAhead_keeps (x0 : Nat) (x1 : Nat) {s : State} (h : Keeps kp s0 s) :
    Keeps kp s0 (readAhead x0 x1 s) := by
  revert h
  fun_induction readAhead x0 x1 s <;> intro h
  all_goals repeat (first | (with_reducible first | assumption | refine ‹Keeps kp s0 _ → Keeps kp s0 _› ?_
                                                  | apply readSeg_keeps)
                          | (refine reserveSeg_keepsOpt _ _ ?_ _ (by assumption)))

theorem writeTrailer_keeps (t : Nat) {s : State} (h : Keeps kp s0 s) :
    Keeps kp s0 (writeTrailer t s) := by
  unfold writeTrailer
  repeat (first | (with_reducible first | assumption | apply updCarr_keeps | apply issue_keeps) | split | dsimp only
                | (refine reserveTrailer_keepsOpt _ _ ?_ _ (by assumption)))

theorem readTrailer_keeps (t : Nat) {s : State} (h : Keeps kp s0 s) :
    Keeps kp s0 (readTrailer t s) := by
  unfold readTrailer
  repeat (first | (with_reducible first | assumption | apply updCarr_keeps | apply issue_keeps) | split | dsimp only
                | (refine reserveTrailer_keepsOpt _ _ ?_ _ (by assumption)))

theorem advance_keeps (t : Nat) {s : State} (h : Keeps kp s0 s) :
    Keeps kp s0 (advance t s) := by
  unfold advance
  repeat (with_reducible first | assumption | apply readAhead_keeps | apply readTrailer_keeps | apply fetchNext_keeps
                               | apply writeTrailer_keeps | apply keeps_ite)

theorem beginTrain_keeps (t : Nat) {s : State} (h : Keeps kp s0 s) :
    Keeps kp s0 (beginTrain t s) := by
  unfold beginTrain
  repeat (with_reducible first | assumption | apply advance_keeps | apply begin__keeps)

theorem trainRow_keepsRes (t : Nat) (op : Nat) {s : State} (h : Keeps kp s0 s) :
    KeepsRes kp s0 (trainRow t op s) := by
  unfold trainRow
  repeat (with_reducible first | assumption | apply advance_keeps | apply beginTrain_keeps | apply keepsRes_next
                               | apply keepsRes_onlyIf | apply keepsRes_ite)

theorem execIngest_keepsRes (tag : Nat) {s : State} (h : Keeps kp s0 s) :
    KeepsRes kp s0 (execIngest tag s) := by
  unfold execIngest
  repeat (with_reducible first | assumption | apply trainRow_keepsRes)

theorem execRetrieve_keepsRes (tag : Nat) {s : State} (h : Keeps kp s0 s) :
    KeepsRes kp s0 (execRetrieve tag s) := by
  unfold execRetrieve
  repeat (with_reducible first | assumption | apply trainRow_keepsRes)

theorem execAudit_keepsRes (tag : Nat) {s : State} (h : Keeps kp s0 s) :
    KeepsRes kp s0 (execAudit tag s) := by
  unfold execAudit
  repeat (with_reducible first | assumption | apply trainRow_keepsRes)

theorem execRekey_keepsRes (tag : Nat) {s : State} (h : Keeps kp s0 s) :
    KeepsRes kp s0 (execRekey tag s) := by
  unfold execRekey
  repeat (with_reducible first | assumption | apply trainRow_keepsRes)

theorem trailerRead_keeps (t : Nat) (data : Bytes) {s : State} (h : Keeps kp s0 s) :
    Keeps kp s0 (trailerRead t data s) := by
  unfold trailerRead
  repeat (with_reducible first | assumption | apply stop_keeps | apply advance_keeps | apply updCarr_keeps
                               | apply keeps_ite)

theorem segRead_keeps (t : Nat) (p : Nat) (off : Nat) (data : Bytes) {s : State} (h : Keeps kp s0 s) :
    Keeps kp s0 (segRead t p off data s) := by
  unfold segRead
  repeat (with_reducible first | assumption | apply updSeg_keeps | apply markStaging_keeps | apply keeps_ite)

theorem loadKey_keeps (x : Nat) (b : Nat) (e : KeyEntry) {s : State} (h : Keeps kp s0 s) :
    Keeps kp s0 (loadKey x b e s) := by
  unfold loadKey
  repeat (first | (with_reducible first | assumption | apply updBlock_keeps | apply updRegion_keeps | apply keeps_ite)
                | split)

theorem touchKey_keeps (x : Nat) (b : Nat) (k : KeyId) {s : State} (h : Keeps kp s0 s) :
    Keeps kp s0 (touchKey x b k s) := by
  unfold touchKey
  repeat (with_reducible first | assumption | apply updBlock_keeps)

theorem takeCell_keeps (t : Nat) (p : Nat) (b : Nat) (k : Nat) {s : State} (h : Keeps kp s0 s) :
    Keeps kp s0 (takeCell t p b k s) := by
  unfold takeCell
  repeat (with_reducible first | assumption | apply updSeg_keeps | apply draw_keeps | apply updCay_keeps
                               | apply updWork_keeps | apply keeps_ite | exact fun x => x | refine cayOk ?_ ?_)

theorem countWritten_keeps (p : Port) (n : Nat) {s : State} (h : Keeps kp s0 s) :
    Keeps kp s0 (countWritten p n s) := by
  unfold countWritten
  repeat (with_reducible first | assumption | apply updStats_keeps)

theorem releaseBytes_keeps (t : Nat) (p : Nat) (off : Nat) (n : Nat) (plain : Bytes) {s : State} (h : Keeps kp s0 s) :
    Keeps kp s0 (releaseBytes t p off n plain s) := by
  unfold releaseBytes
  repeat (with_reducible first | assumption | apply writeBuffer_keeps)

theorem releaseAhead_keeps (t : Nat) (p : Nat) (n : Nat) (plain : Bytes) {s : State} (h : Keeps kp s0 s) :
    Keeps kp s0 (releaseAhead t p n plain s) := by
  unfold releaseAhead
  repeat (with_reducible first | assumption | apply updStats_keeps | apply releaseBytes_keeps | apply updSeg_keeps)

theorem countUnits_keeps (c : Carriage) (n : Nat) {s : State} (h : Keeps kp s0 s) :
    Keeps kp s0 (countUnits c n s) := by
  unfold countUnits
  repeat (with_reducible first | assumption | apply updWork_keeps)

theorem legacyPass_keeps (t : Nat) (p : Nat) {s : State} (h : Keeps kp s0 s) :
    Keeps kp s0 (legacyPass t p s) := by
  unfold legacyPass
  repeat (with_reducible first | assumption | apply readySeg_keeps | apply countUnits_keeps)

theorem holdPlain_keepsOpt (t : Nat) (p : Nat) {s : State} (h : Keeps kp s0 s) :
    KeepsOpt kp s0 (holdPlain t p s) := by
  unfold holdPlain
  repeat (with_reducible first | assumption | apply updSeg_keeps | apply markAll_keeps | apply keepsOpt_some
                               | apply keepsOpt_ite | (apply keepsOpt_map; intro _))

theorem startSeg_keeps (t : Nat) (p : Nat) (b : Nat) (k : Nat) (release : Nat) {s : State} (h : Keeps kp s0 s) :
    Keeps kp s0 (startSeg t p b k release s) := by
  unfold startSeg
  repeat (with_reducible first | assumption | apply releaseAhead_keeps | apply takeCell_keeps | apply touchKey_keeps
                               | apply keeps_ite)

theorem execSegmentStart_keepsRes (tag : Nat) (seg : Nat) (block : Nat) (cell : Nat) (release : Nat) {s : State} (h :
    Keeps kp s0 s) :
    KeepsRes kp s0 (execSegmentStart tag seg block cell release s) := by
  unfold execSegmentStart
  repeat (first | (with_reducible first | assumption | apply startSeg_keeps | apply legacyPass_keeps
                                        | apply shareSync_keeps | apply touchKey_keeps | apply keepsRes_next
                                        | apply keepsRes_onlyIf | apply keepsRes_ite)
                | split | (refine holdPlain_keepsOpt _ _ ?_ _ (by assumption)))

theorem countRun_keeps (x : Nat) (b : Nat) {s : State} (h : Keeps kp s0 s) :
    Keeps kp s0 (countRun x b s) := by
  unfold countRun
  repeat (with_reducible first | assumption | apply updBlock_keeps)

theorem countSeg_keeps (x : Nat) (home : Nat) {s : State} (h : Keeps kp s0 s) :
    Keeps kp s0 (countSeg x home s) := by
  unfold countSeg
  repeat (with_reducible first | assumption | apply updRegion_keeps)

theorem passSeg_keeps (t : Nat) (p : Nat) {s : State} (h : Keeps kp s0 s) :
    Keeps kp s0 (passSeg t p s) := by
  unfold passSeg
  repeat (with_reducible first | assumption | apply done_keeps | apply advance_keeps | apply countWritten_keeps
                               | apply readySeg_keeps | apply releaseBytes_keeps | apply updSeg_keeps
                               | apply countSeg_keeps | apply countRun_keeps | apply updWork_keeps | apply keeps_ite)

theorem execSegmentVerdict_keepsRes (tag : Nat) (seg : Nat) {s : State} (h : Keeps kp s0 s) :
    KeepsRes kp s0 (execSegmentVerdict tag seg s) := by
  unfold execSegmentVerdict
  repeat (with_reducible first | assumption | apply stop_keeps | apply passSeg_keeps | apply countSeg_keeps
                               | apply countRun_keeps | apply updRegion_keeps | apply keepsRes_next
                               | apply keepsRes_ite)

theorem execSegmentEncrypted_keepsRes (tag : Nat) (seg : Nat) {s : State} (h : Keeps kp s0 s) :
    KeepsRes kp s0 (execSegmentEncrypted tag seg s) := by
  unfold execSegmentEncrypted
  repeat (with_reducible first | assumption | apply advance_keeps | apply issue_keeps | apply updSeg_keeps
                               | apply countRun_keeps | apply keepsRes_next | apply keepsRes_ite
                               | (apply keeps_foldl; intro s x h))

theorem segWritten_keeps (t : Nat) (p : Nat) {s : State} (h : Keeps kp s0 s) :
    Keeps kp s0 (segWritten t p s) := by
  unfold segWritten
  repeat (with_reducible first | assumption | apply advance_keeps | apply updSeg_keeps | apply countSeg_keeps
                               | apply keeps_ite)

theorem trailerWritten_keeps (t : Nat) {s : State} (h : Keeps kp s0 s) :
    Keeps kp s0 (trailerWritten t s) := by
  unfold trailerWritten
  repeat (with_reducible first | assumption | apply done_keeps | apply updCarr_keeps)

theorem reservePiece_keepsOpt (t : Nat) (off : Nat) {s : State} (h : Keeps kp s0 s) :
    KeepsOpt kp s0 (reservePiece t off s) := by
  unfold reservePiece
  repeat (with_reducible first | assumption | apply markDegraded_keeps | apply updSeg_keeps | apply markAll_keeps
                               | apply countSpill_keeps | (apply keepsOpt_map; intro _))

theorem legacyPiece_keeps (t : Nat) (off : Nat) {s : State} (h : Keeps kp s0 s) :
    Keeps kp s0 (legacyPiece t off s) := by
  unfold legacyPiece
  repeat (first | (with_reducible first | assumption | apply issue_keeps | apply readBuffer_keeps
                                        | apply updSeg_keeps | apply keeps_ite)
                | split | (refine reservePiece_keepsOpt _ _ ?_ _ (by assumption)))

theorem legacyNext_keeps (t : Nat) {s : State} (h : Keeps kp s0 s) :
    Keeps kp s0 (legacyNext t s) := by
  unfold legacyNext
  repeat (with_reducible first | assumption | apply done_keeps | apply updSeg_keeps | apply legacyPiece_keeps
                               | apply keeps_ite)

theorem legacyDecrypt_keeps (t : Nat) {s : State} (h : Keeps kp s0 s) :
    Keeps kp s0 (legacyDecrypt t s) := by
  unfold legacyDecrypt
  repeat (with_reducible first | assumption | apply writeBuffer_keeps | apply legacyNext_keeps | apply countUnits_keeps)

theorem legacyEncrypt_keeps (t : Nat) {s : State} (h : Keeps kp s0 s) :
    Keeps kp s0 (legacyEncrypt t s) := by
  unfold legacyEncrypt
  repeat (with_reducible first | assumption | apply issue_keeps | apply updSeg_keeps | apply countUnits_keeps)

theorem legacyRow_keepsRes (t : Nat) (op : Nat) (f : Nat → State → State) {s : State} (h : Keeps kp s0 s) (hf : ∀ y0
    s, Keeps kp s0 s → Keeps kp s0 (f y0 s)) :
    KeepsRes kp s0 (legacyRow t op f s) := by
  unfold legacyRow
  repeat (first | (with_reducible first | assumption | apply hf | apply legacyPiece_keeps | apply begin__keeps
                                        | apply touchKey_keeps | apply keepsRes_next | apply keepsRes_onlyIf)
                | split)

theorem execLegacyRead_keepsRes (tag : Nat) {s : State} (h : Keeps kp s0 s) :
    KeepsRes kp s0 (execLegacyRead tag s) := by
  unfold execLegacyRead
  repeat (with_reducible first | assumption | apply legacyRow_keepsRes | apply legacyDecrypt_keeps)

theorem execLegacyWrite_keepsRes (tag : Nat) {s : State} (h : Keeps kp s0 s) :
    KeepsRes kp s0 (execLegacyWrite tag s) := by
  unfold execLegacyWrite
  repeat (with_reducible first | assumption | apply legacyRow_keepsRes | apply legacyEncrypt_keeps)

theorem legacyLanded_keeps (t : Nat) (data : Bytes) {s : State} (h : Keeps kp s0 s) :
    Keeps kp s0 (legacyLanded t data s) := by
  unfold legacyLanded
  repeat (with_reducible first | assumption | apply updSeg_keeps)

theorem execKeyStagingLoad_keepsRes (region : Nat) (block : Nat) (tag : Nat) (dst : Bool) {s : State} (h : Keeps kp s0
    s) :
    KeepsRes kp s0 (execKeyStagingLoad region block tag dst s) := by
  unfold execKeyStagingLoad
  repeat (first | (with_reducible first | assumption | apply loadKey_keeps | apply updSeg_keeps | apply draw_keeps
                                        | apply keepsRes_next | apply keepsRes_onlyIf | apply keepsRes_ite
                                        | apply keeps_ite)
                | split)

theorem execShareEpoch_keepsRes {s : State} (h : Keeps kp s0 s) :
    KeepsRes kp s0 (execShareEpoch s) := by
  unfold execShareEpoch
  repeat (with_reducible first | assumption | apply shareSync_keeps | apply keepsRes_onlyIf)

theorem arrayRecord_keeps (x : Nat) (b : Nat) (k : Nat) (kind : Nat) {s : State} (h : Keeps kp s0 s) :
    Keeps kp s0 (arrayRecord x b k kind s) := by
  unfold arrayRecord
  repeat (with_reducible first | assumption | apply setIntBoth_keeps | apply recordSeq_keeps)

theorem shuntSeg_keeps (x : Nat) (t : Nat) (p : Nat) {s : State} (h : Keeps kp s0 s) :
    Keeps kp s0 (shuntSeg x t p s) := by
  unfold shuntSeg
  repeat (with_reducible first | assumption | apply readySeg_keeps | apply updCarr_keeps | apply readBuffer_keeps
                               | apply updRegion_keeps | apply keeps_ite)

theorem shunt_keeps (x : Nat) (f : Seg → Bool) {s : State} (h : Keeps kp s0 s) :
    Keeps kp s0 (shunt x f s) := by
  unfold shunt
  repeat (with_reducible first | assumption | apply shuntSeg_keeps | apply keeps_ite | (apply keeps_foldl; intro s x h))

theorem endLegacy_keeps {s : State} (h : Keeps kp s0 s) :
    Keeps kp s0 (endLegacy s) := by
  unfold endLegacy
  repeat (with_reducible first | assumption | apply reap_keeps | apply stopAll_keeps | apply keeps_ite)

theorem endUnservable_keeps {s : State} (h : Keeps kp s0 s) :
    Keeps kp s0 (endUnservable s) := by
  unfold endUnservable
  repeat (with_reducible first | assumption | apply stopAll_keeps)

theorem detach_keeps (d : Nat) (t : Nat) (f : CmdKind → Bool) {s : State} (h : Keeps kp s0 s) :
    Keeps kp s0 (detach d t f s) := by
  unfold detach
  repeat (with_reducible first | assumption | apply updDrive_keeps)

theorem restartSeg_keeps (t : Nat) (p : Nat) {s : State} (h : Keeps kp s0 s) :
    Keeps kp s0 (restartSeg t p s) := by
  unfold restartSeg
  repeat (with_reducible first | assumption | apply updSeg_keeps | apply detach_keeps)

theorem moveSrc_keeps (x : Nat) (t : Nat) (p : Nat) {s : State} (h : Keeps kp s0 s) :
    Keeps kp s0 (moveSrc x t p s) := by
  unfold moveSrc
  repeat (first | (with_reducible first | assumption | apply markDegraded_keeps | apply updSeg_keeps
                                        | apply restartSeg_keeps | apply keeps_ite)
                | split)

theorem moveDst_keeps (x : Nat) (t : Nat) (p : Nat) {s : State} (h : Keeps kp s0 s) :
    Keeps kp s0 (moveDst x t p s) := by
  unfold moveDst
  repeat (first | (with_reducible first | assumption | apply markDegraded_keeps | apply updSeg_keeps
                                        | apply restartSeg_keeps | apply keeps_ite)
                | split)

theorem moveTrailer_keeps (t : Nat) {s : State} (h : Keeps kp s0 s) :
    Keeps kp s0 (moveTrailer t s) := by
  unfold moveTrailer
  repeat (first | (with_reducible first | assumption | apply updCarr_keeps | apply detach_keeps) | split | dsimp only)

theorem moveSeg_keeps (x : Nat) (t : Nat) (p : Nat) {s : State} (h : Keeps kp s0 s) :
    Keeps kp s0 (moveSeg x t p s) := by
  unfold moveSeg
  repeat (with_reducible first | assumption | apply moveDst_keeps | apply moveSrc_keeps | apply keeps_ite)

theorem remap_keeps (x : Nat) {s : State} (h : Keeps kp s0 s) :
    Keeps kp s0 (remap x s) := by
  unfold remap
  repeat (with_reducible first | assumption | apply moveTrailer_keeps | apply markAll_keeps | apply moveSeg_keeps
                               | apply keeps_ite | (apply keeps_foldl; intro s x h))

theorem degrade_keeps (x : Nat) {s : State} (h : Keeps kp s0 s) :
    Keeps kp s0 (degrade x s) := by
  unfold degrade
  repeat (with_reducible first | assumption | apply shunt_keeps | apply arrayRecord_keeps | apply endLegacy_keeps
                               | apply seqd_keeps | apply endUnservable_keeps | apply remap_keeps | apply reap_keeps
                               | apply updWork_keeps | apply updRegion_keeps)

theorem shuntQueued_keeps (x : Nat) (b : Nat) {s : State} (h : Keeps kp s0 s) :
    Keeps kp s0 (shuntQueued x b s) := by
  unfold shuntQueued
  repeat (first | (with_reducible first | assumption | apply updCar_keeps | apply updRegion_keeps) | (show _ = _; rfl)
                | (with_reducible first | exact fun x => x | exact twf_tmap _ _ _ | refine carOk ?_ ?_ ?_))

theorem unqueue_keeps (x : Nat) (b : Nat) {s : State} (h : Keeps kp s0 s) :
    Keeps kp s0 (unqueue x b s) := by
  unfold unqueue
  repeat (first | (with_reducible first | assumption | apply updCar_keeps) | (show _ = _; rfl)
                | (with_reducible first | exact fun x => x | exact twf_tmap _ _ _ | refine carOk ?_ ?_ ?_))

theorem retireBlock_keeps (x : Nat) (b : Nat) {s : State} (h : Keeps kp s0 s) :
    Keeps kp s0 (retireBlock x b s) := by
  unfold retireBlock
  repeat (with_reducible first | assumption | apply shunt_keeps | apply arrayRecord_keeps | apply unqueue_keeps
                               | apply endLegacy_keeps | apply seqd_keeps | apply updBlock_keeps | apply degrade_keeps
                               | apply shuntQueued_keeps | apply updRegion_keeps | apply keeps_ite)

theorem replayAt_keeps (t : Nat) (p : Nat) (b : Nat) (k : Nat) {s : State} (h : Keeps kp s0 s) :
    Keeps kp s0 (replayAt t p b k s) := by
  unfold replayAt
  repeat (first | (with_reducible first | assumption | apply startSeg_keeps | apply keeps_ite) | split
                | (refine holdPlain_keepsOpt _ _ ?_ _ (by assumption)))

theorem execCellParityError_keepsRes (region : Nat) (block : Nat) (cell : Nat) (newBlock : Nat) (newCell : Nat) {s :
    State} (h : Keeps kp s0 s) :
    KeepsRes kp s0 (execCellParityError region block cell newBlock newCell s) := by
  unfold execCellParityError
  repeat (first | (with_reducible first | assumption | apply shunt_keeps | apply arrayRecord_keeps
                                        | apply endLegacy_keeps | apply seqd_keeps | apply retireBlock_keeps
                                        | apply replayAt_keeps | apply updRegion_keeps | apply keepsRes_next
                                        | apply keepsRes_ite)
                | split)

theorem execKstgCorrectedError_keepsRes (region : Nat) {s : State} (h : Keeps kp s0 s) :
    KeepsRes kp s0 (execKstgCorrectedError region s) := by
  unfold execKstgCorrectedError
  repeat (with_reducible first | assumption | apply updRegion_keeps | apply keepsRes_onlyIf)

theorem execBlockRetire_keepsRes (region : Nat) (block : Nat) {s : State} (h : Keeps kp s0 s) :
    KeepsRes kp s0 (execBlockRetire region block s) := by
  unfold execBlockRetire
  repeat (with_reducible first | assumption | apply retireBlock_keeps | apply updRegion_keeps | apply keepsRes_onlyIf)

theorem execRegionDegraded_keepsRes (region : Nat) {s : State} (h : Keeps kp s0 s) :
    KeepsRes kp s0 (execRegionDegraded region s) := by
  unfold execRegionDegraded
  repeat (with_reducible first | assumption | apply degrade_keeps | apply updRegion_keeps | apply keepsRes_onlyIf)

theorem execD2dRetry_keepsRes (region : Nat) {s : State} (h : Keeps kp s0 s) :
    KeepsRes kp s0 (execD2dRetry region s) := by
  unfold execD2dRetry
  repeat (with_reducible first | assumption | apply updRegion_keeps | apply keepsRes_onlyIf)

theorem execD2dUndeliverable_keepsRes (region : Nat) {s : State} (h : Keeps kp s0 s) :
    KeepsRes kp s0 (execD2dUndeliverable region s) := by
  unfold execD2dUndeliverable
  repeat (with_reducible first | assumption | apply degrade_keeps | apply updRegion_keeps | apply keepsRes_next
                               | apply keepsRes_ite | apply keeps_ite)

theorem spillSeg_keeps (x : Nat) (d : Nat) (n : Nat) (t : Nat) (p : Nat) {s : State} (h : Keeps kp s0 s) :
    Keeps kp s0 (spillSeg x d n t p s) := by
  unfold spillSeg
  repeat (with_reducible first | assumption | apply updSeg_keeps)

theorem spillPort_keeps (x : Nat) (d : Nat) (most : Nat) {s : State} (h : Keeps kp s0 s) :
    Keeps kp s0 (spillPort x d most s) := by
  unfold spillPort
  repeat (with_reducible first | assumption | apply spillSeg_keeps | apply keeps_ite | (apply keeps_foldl; intro s x h))

theorem execStragglerSpill_keepsRes (drive : Nat) (granules : Nat) {s : State} (h : Keeps kp s0 s) :
    KeepsRes kp s0 (execStragglerSpill drive granules s) := by
  unfold execStragglerSpill
  repeat (with_reducible first | assumption | apply spillPort_keeps | apply updRegion_keeps | apply markStaging_keeps
                               | apply keepsRes_next | apply keepsRes_ite)

theorem dropCarriages_keeps (d : Nat) (status : Nat) (f : Carriage → Bool) {s : State} (h : Keeps kp s0 s) :
    Keeps kp s0 (dropCarriages d status f s) := by
  unfold dropCarriages
  repeat (with_reducible first | assumption | apply stopOne_keeps | (apply keeps_foldl; intro s x h))

theorem driveRecord_keeps (d : Nat) (kind : Nat) (cause : Nat) (dword : Nat) {s : State} (h : Keeps kp s0 s) :
    Keeps kp s0 (driveRecord d kind cause dword s) := by
  unfold driveRecord
  repeat (with_reducible first | assumption | apply record_keeps)

theorem driveTo_keeps (d : Nat) (st : DriveState) {s : State} (h : Keeps kp s0 s) :
    Keeps kp s0 (driveTo d st s) := by
  unfold driveTo
  repeat (with_reducible first | assumption | apply updDrive_keeps | apply setIntBoth_keeps)

theorem clearDrive_keeps (d : Nat) {s : State} (h : Keeps kp s0 s) :
    Keeps kp s0 (clearDrive d s) := by
  unfold clearDrive
  repeat (with_reducible first | assumption | apply updDrive_keeps)

theorem loseDrive_keeps (d : Nat) (cause : Nat) {s : State} (h : Keeps kp s0 s) :
    Keeps kp s0 (loseDrive d cause s) := by
  unfold loseDrive
  repeat (with_reducible first | assumption | apply clearDrive_keeps | apply driveRecord_keeps | apply seqd_keeps
                               | apply reap_keeps | apply dropCarriages_keeps | apply updDiag_keeps
                               | apply driveTo_keeps)

theorem shelfTo_keeps (n : Nat) (st : ShelfState) {s : State} (h : Keeps kp s0 s) :
    Keeps kp s0 (shelfTo n st s) := by
  unfold shelfTo
  repeat (with_reducible first | assumption | apply updShelf_keeps | apply seqd_keeps | apply setIntBoth_keeps
                               | apply recordSeq_keeps)

theorem ask__keeps (l : Nat) (op : SbOp) (payload : Bytes) {s : State} (h : Keeps kp s0 s) :
    Keeps kp s0 (ask_ l op payload s) := by
  unfold ask_
  repeat (with_reducible first | assumption | apply updLink_keeps | apply keeps_ite)

theorem askBoth_keeps (n : Nat) (op : SbOp) (payload : Bytes) {s : State} (h : Keeps kp s0 s) :
    Keeps kp s0 (askBoth n op payload s) := by
  unfold askBoth
  repeat (with_reducible first | assumption | apply ask__keeps)

theorem askClkreq_keeps (d : Nat) (on : Bool) {s : State} (h : Keeps kp s0 s) :
    Keeps kp s0 (askClkreq d on s) := by
  unfold askClkreq
  repeat (with_reducible first | assumption | apply updLink_keeps | apply keeps_ite)

theorem parkPort_keeps (d : Nat) {s : State} (h : Keeps kp s0 s) :
    Keeps kp s0 (parkPort d s) := by
  unfold parkPort
  repeat (with_reducible first | assumption | apply updDrive_keeps | apply askClkreq_keeps)

theorem beginExit_keeps (d : Nat) {s : State} (h : Keeps kp s0 s) :
    Keeps kp s0 (beginExit d s) := by
  unfold beginExit
  repeat (with_reducible first | assumption | apply updDrive_keeps | apply askClkreq_keeps | apply markL0_keeps
                               | apply keeps_ite)

theorem askOff_keeps (n : Nat) {s : State} (h : Keeps kp s0 s) :
    Keeps kp s0 (askOff n s) := by
  unfold askOff
  repeat (with_reducible first | assumption | apply askBoth_keeps)

theorem endShelfOp_keeps (n : Nat) (status : Nat) (result : Nat) {s : State} (h : Keeps kp s0 s) :
    Keeps kp s0 (endShelfOp n status result s) := by
  unfold endShelfOp
  repeat (first | (with_reducible first | assumption | apply done_keeps | apply updShelf_keeps) | split | dsimp only)

theorem loseDrives_keeps (n : Nat) {s : State} (h : Keeps kp s0 s) :
    Keeps kp s0 (loseDrives n s) := by
  unfold loseDrives
  repeat (with_reducible first | assumption | apply clearDrive_keeps | apply updDrive_keeps | apply dropCarriages_keeps
                               | apply updDiag_keeps | apply keeps_ite | (apply keeps_foldl; intro s x h))

theorem dropExchanges_keeps (n : Nat) {s : State} (h : Keeps kp s0 s) :
    Keeps kp s0 (dropExchanges n s) := by
  unfold dropExchanges
  repeat (with_reducible first | assumption | apply updLink_keeps)

theorem dropShelf_keeps (n : Nat) (cause : Nat) {s : State} (h : Keeps kp s0 s) :
    Keeps kp s0 (dropShelf n cause s) := by
  unfold dropShelf
  repeat (with_reducible first | assumption | apply shelfTo_keeps | apply updShelf_keeps | apply endShelfOp_keeps
                               | apply reap_keeps | apply dropExchanges_keeps | apply askOff_keeps
                               | apply loseDrives_keeps)

theorem wakeFail_keeps (n : Nat) (cause : Nat) {s : State} (h : Keeps kp s0 s) :
    Keeps kp s0 (wakeFail n cause s) := by
  unfold wakeFail
  repeat (with_reducible first | assumption | apply dropShelf_keeps)

theorem wakeStep_keeps (n : Nat) (st : ShelfStep) {s : State} (h : Keeps kp s0 s) :
    Keeps kp s0 (wakeStep n st s) := by
  unfold wakeStep
  repeat (with_reducible first | assumption | apply updShelf_keeps | apply seqd_keeps)

theorem finishWake_keeps (n : Nat) {s : State} (h : Keeps kp s0 s) :
    Keeps kp s0 (finishWake n s) := by
  unfold finishWake
  repeat (with_reducible first | assumption | apply shelfTo_keeps | apply endShelfOp_keeps | apply parkPort_keeps
                               | apply wakeFail_keeps | apply keeps_ite | (apply keeps_foldl; intro s x h))

theorem sleepPerst_keeps (n : Nat) {s : State} (h : Keeps kp s0 s) :
    Keeps kp s0 (sleepPerst n s) := by
  unfold sleepPerst
  repeat (with_reducible first | assumption | apply wakeStep_keeps | apply askBoth_keeps)

theorem shelfCheck_keeps (n : Nat) {s : State} (h : Keeps kp s0 s) :
    Keeps kp s0 (shelfCheck n s) := by
  unfold shelfCheck
  repeat (with_reducible first | assumption | apply sleepPerst_keeps | apply finishWake_keeps | apply keeps_ite)

theorem failDrive_keeps (d : Nat) (cause : Nat) {s : State} (h : Keeps kp s0 s) :
    Keeps kp s0 (failDrive d cause s) := by
  unfold failDrive
  repeat (with_reducible first | assumption | apply loseDrive_keeps | apply shelfCheck_keeps)

theorem startWake_keeps (n : Nat) (t : Nat) {s : State} (h : Keeps kp s0 s) :
    Keeps kp s0 (startWake n t s) := by
  unfold startWake
  repeat (first | (with_reducible first | assumption | apply updLink_keeps | apply shelfTo_keeps
                                        | apply updShelf_keeps | apply askBoth_keeps | apply updMdf_keeps
                                        | apply begin__keeps)
                | (show _ = _; rfl) | (with_reducible first | exact fun x => x | refine mdfOk ?_ ?_ ?_ ?_))

theorem setShn_keeps (d : Nat) {s : State} (h : Keeps kp s0 s) :
    Keeps kp s0 (setShn d s) := by
  unfold setShn
  repeat (with_reducible first | assumption | apply updDrive_keeps | apply emit_keeps)

theorem deleteQueues_keeps (d : Nat) (sq : Bool) {s : State} (h : Keeps kp s0 s) :
    Keeps kp s0 (deleteQueues d sq s) := by
  unfold deleteQueues
  repeat (with_reducible first | assumption | apply issue_keeps | (apply keeps_foldl; intro s x h))

theorem shutNext_keeps (d : Nat) {s : State} (h : Keeps kp s0 s) :
    Keeps kp s0 (shutNext d s) := by
  unfold shutNext
  repeat (with_reducible first | assumption | apply deleteQueues_keeps | apply updDrive_keeps | apply setShn_keeps
                               | apply keeps_ite)

theorem shutDrives_keeps (n : Nat) {s : State} (h : Keeps kp s0 s) :
    Keeps kp s0 (shutDrives n s) := by
  unfold shutDrives
  repeat (with_reducible first | assumption | apply updShelf_keeps | apply issue_keeps | apply updDrive_keeps
                               | apply shelfCheck_keeps | apply shutNext_keeps | apply keeps_ite
                               | (apply keeps_foldl; intro s x h))

theorem offDrives_keeps (n : Nat) {s : State} (h : Keeps kp s0 s) :
    Keeps kp s0 (offDrives n s) := by
  unfold offDrives
  repeat (with_reducible first | assumption | apply clearDrive_keeps | apply updDrive_keeps | apply keeps_ite
                               | (apply keeps_foldl; intro s x h))

theorem finishSleep_keeps (n : Nat) {s : State} (h : Keeps kp s0 s) :
    Keeps kp s0 (finishSleep n s) := by
  unfold finishSleep
  repeat (with_reducible first | assumption | apply shelfTo_keeps | apply updShelf_keeps | apply endShelfOp_keeps
                               | apply offDrives_keeps)

theorem presenceTo_keeps (d : Nat) (on : Bool) {s : State} (h : Keeps kp s0 s) :
    Keeps kp s0 (presenceTo d on s) := by
  unfold presenceTo
  repeat (with_reducible first | assumption | apply seqd_keeps | apply updDrive_keeps | apply failDrive_keeps
                               | apply driveTo_keeps | apply keeps_ite)

theorem wakeBay_keeps (d : Nat) (on : Bool) {s : State} (h : Keeps kp s0 s) :
    Keeps kp s0 (wakeBay d on s) := by
  unfold wakeBay
  repeat (with_reducible first | assumption | apply clearDrive_keeps | apply updDrive_keeps | apply setIntBoth_keeps
                               | apply keeps_ite)

theorem setPresence_keeps (l : Nat) (bitmap : Nat) (wake : Bool) {s : State} (h : Keeps kp s0 s) :
    Keeps kp s0 (setPresence l bitmap wake s) := by
  unfold setPresence
  repeat (with_reducible first | assumption | apply wakeBay_keeps | apply presenceTo_keeps | apply keeps_ite
                               | (apply keeps_foldl; intro s x h))

theorem answered_keeps (l : Nat) {s : State} (h : Keeps kp s0 s) :
    Keeps kp s0 (answered l s) := by
  unfold answered
  repeat (with_reducible first | assumption | apply updShelf_keeps)

theorem gotStatus_keeps (l : Nat) (v : Nat) {s : State} (h : Keeps kp s0 s) :
    Keeps kp s0 (gotStatus l v s) := by
  unfold gotStatus
  repeat (with_reducible first | assumption | apply updShelf_keeps | apply seqd_keeps | apply dropShelf_keeps
                               | apply wakeFail_keeps | apply keeps_ite)

theorem driveWake_keeps (d : Nat) {s : State} (h : Keeps kp s0 s) :
    Keeps kp s0 (driveWake d s) := by
  unfold driveWake
  repeat (with_reducible first | assumption | apply updDrive_keeps | apply beginExit_keeps)

theorem exchanged_keeps (l : Nat) (op : SbOp) (req : Bytes) (resp : Bytes) {s : State} (h : Keeps kp s0 s) :
    Keeps kp s0 (exchanged l op req resp s) := by
  unfold exchanged
  repeat (first | (with_reducible first | assumption | apply updLink_keeps | apply wakeStep_keeps
                                        | apply updShelf_keeps | apply ask__keeps | apply driveWake_keeps
                                        | apply updDrive_keeps | apply answered_keeps | apply setPresence_keeps
                                        | apply askBoth_keeps | apply gotStatus_keeps | apply finishSleep_keeps
                                        | apply keeps_ite | (apply keeps_foldl; intro s x h))
                | split)

theorem loseLink_keeps (l : Nat) {s : State} (h : Keeps kp s0 s) :
    Keeps kp s0 (loseLink l s) := by
  unfold loseLink
  repeat (with_reducible first | assumption | apply updLink_keeps | apply dropShelf_keeps | apply wakeFail_keeps
                               | apply keeps_ite)

theorem stepFails_keeps (l : Nat) (op : SbOp) (req : Bytes) {s : State} (h : Keeps kp s0 s) :
    Keeps kp s0 (stepFails l op req s) := by
  unfold stepFails
  repeat (with_reducible first | assumption | apply updLink_keeps | apply shelfTo_keeps | apply updShelf_keeps
                               | apply updDrive_keeps | apply endShelfOp_keeps | apply offDrives_keeps
                               | apply wakeFail_keeps | apply keeps_ite | (apply keeps_foldl; intro s x h))

theorem exchangeFails_keeps (l : Nat) {s : State} (h : Keeps kp s0 s) :
    Keeps kp s0 (exchangeFails l s) := by
  unfold exchangeFails
  repeat (with_reducible first | assumption | apply updLink_keeps | apply loseLink_keeps | apply keeps_ite)

theorem exchange_keeps (l : Nat) (resp : Option Bytes) {s : State} (h : Keeps kp s0 s) :
    Keeps kp s0 (exchange l resp s) := by
  unfold exchange
  repeat (first | (with_reducible first | assumption | apply updLink_keeps | apply stepFails_keeps
                                        | apply emit_keeps | apply exchangeFails_keeps | apply exchanged_keeps)
                | split | dsimp only)

theorem sbRow_keepsRes (op : SbOp) (l : Nat) (resp : Option Bytes) {s : State} (h : Keeps kp s0 s) :
    KeepsRes kp s0 (sbRow op l resp s) := by
  unfold sbRow
  repeat (with_reducible first | assumption | apply exchange_keeps | apply keepsRes_onlyIf)

theorem execIdentify_keepsRes (link : Nat) (resp : Option Bytes) {s : State} (h : Keeps kp s0 s) :
    KeepsRes kp s0 (execIdentify link resp s) := by
  unfold execIdentify
  repeat (with_reducible first | assumption | apply sbRow_keepsRes)

theorem execReadPresence_keepsRes (link : Nat) (resp : Option Bytes) {s : State} (h : Keeps kp s0 s) :
    KeepsRes kp s0 (execReadPresence link resp s) := by
  unfold execReadPresence
  repeat (with_reducible first | assumption | apply sbRow_keepsRes)

theorem execSetPower_keepsRes (link : Nat) (resp : Option Bytes) {s : State} (h : Keeps kp s0 s) :
    KeepsRes kp s0 (execSetPower link resp s) := by
  unfold execSetPower
  repeat (with_reducible first | assumption | apply sbRow_keepsRes)

theorem execSetPerst_keepsRes (link : Nat) (resp : Option Bytes) {s : State} (h : Keeps kp s0 s) :
    KeepsRes kp s0 (execSetPerst link resp s) := by
  unfold execSetPerst
  repeat (with_reducible first | assumption | apply sbRow_keepsRes)

theorem execReadStatus_keepsRes (link : Nat) (resp : Option Bytes) {s : State} (h : Keeps kp s0 s) :
    KeepsRes kp s0 (execReadStatus link resp s) := by
  unfold execReadStatus
  repeat (with_reducible first | assumption | apply sbRow_keepsRes)

theorem execReadEvents_keepsRes (link : Nat) (resp : Option Bytes) {s : State} (h : Keeps kp s0 s) :
    KeepsRes kp s0 (execReadEvents link resp s) := by
  unfold execReadEvents
  repeat (with_reducible first | assumption | apply sbRow_keepsRes)

theorem execSetClkreq_keepsRes (link : Nat) (resp : Option Bytes) {s : State} (h : Keeps kp s0 s) :
    KeepsRes kp s0 (execSetClkreq link resp s) := by
  unfold execSetClkreq
  repeat (with_reducible first | assumption | apply sbRow_keepsRes)

theorem execReadClkreq_keepsRes (link : Nat) (resp : Option Bytes) {s : State} (h : Keeps kp s0 s) :
    KeepsRes kp s0 (execReadClkreq link resp s) := by
  unfold execReadClkreq
  repeat (with_reducible first | assumption | apply ask__keeps | apply sbRow_keepsRes | apply keepsRes_ite)

theorem execSidebandRetry_keepsRes (link : Nat) (resp : Option Bytes) {s : State} (h : Keeps kp s0 s) :
    KeepsRes kp s0 (execSidebandRetry link resp s) := by
  unfold execSidebandRetry
  repeat (first | (with_reducible first | assumption | apply updLink_keeps | apply exchange_keeps
                                        | apply keepsRes_next | apply keepsRes_onlyIf)
                | split | dsimp only)

theorem execSbnInt_keepsRes (link : Nat) {s : State} (h : Keeps kp s0 s) :
    KeepsRes kp s0 (execSbnInt link s) := by
  unfold execSbnInt
  repeat (with_reducible first | assumption | apply updLink_keeps | apply keepsRes_onlyIf)

theorem execKeepalivePoll_keepsRes (link : Nat) {s : State} (h : Keeps kp s0 s) :
    KeepsRes kp s0 (execKeepalivePoll link s) := by
  unfold execKeepalivePoll
  repeat (with_reducible first | assumption | apply updLink_keeps | apply ask__keeps | apply keepsRes_onlyIf)

theorem execShelfWake_keepsRes (tag : Nat) {s : State} (h : Keeps kp s0 s) :
    KeepsRes kp s0 (execShelfWake tag s) := by
  unfold execShelfWake
  repeat (first | (with_reducible first | assumption | apply done_keeps | apply updMdf_keeps | apply startWake_keeps
                                        | apply keepsRes_next | apply keepsRes_ite)
                | (show _ = _; rfl) | (with_reducible first | exact fun x => x | refine mdfOk ?_ ?_ ?_ ?_))

theorem execShelfWakeBegin_keepsRes (shelf : Nat) {s : State} (h : Keeps kp s0 s) :
    KeepsRes kp s0 (execShelfWakeBegin shelf s) := by
  unfold execShelfWakeBegin
  repeat (first | (with_reducible first | assumption | apply startWake_keeps | apply keepsRes_next
                                        | apply keepsRes_onlyIf)
                | split)

theorem execPowerGoodPoll_keepsRes (shelf : Nat) {s : State} (h : Keeps kp s0 s) :
    KeepsRes kp s0 (execPowerGoodPoll shelf s) := by
  unfold execPowerGoodPoll
  repeat (with_reducible first | assumption | apply updShelf_keeps | apply askBoth_keeps | apply keepsRes_onlyIf)

theorem execPowerGoodTimeout_keepsRes (shelf : Nat) {s : State} (h : Keeps kp s0 s) :
    KeepsRes kp s0 (execPowerGoodTimeout shelf s) := by
  unfold execPowerGoodTimeout
  repeat (with_reducible first | assumption | apply wakeFail_keeps | apply keepsRes_onlyIf)

theorem releaseGroup_keeps (n : Nat) (g : Nat) (lost : Bool) {s : State} (h : Keeps kp s0 s) :
    Keeps kp s0 (releaseGroup n g lost s) := by
  unfold releaseGroup
  repeat (with_reducible first | assumption | apply driveRecord_keeps | apply seqd_keeps | apply updDrive_keeps
                               | apply updDiag_keeps | apply driveTo_keeps | apply keeps_ite
                               | (apply keeps_foldl; intro s x h))

theorem execGroupRelease_keepsRes (shelf : Nat) {s : State} (h : Keeps kp s0 s) :
    KeepsRes kp s0 (execGroupRelease shelf s) := by
  unfold execGroupRelease
  repeat (with_reducible first | assumption | apply updShelf_keeps | apply ask__keeps | apply seqd_keeps
                               | apply shelfCheck_keeps | apply releaseGroup_keeps | apply markL0_keeps
                               | apply keepsRes_next | apply keepsRes_ite | apply keeps_ite)

theorem execShelfSleep_keepsRes (tag : Nat) {s : State} (h : Keeps kp s0 s) :
    KeepsRes kp s0 (execShelfSleep tag s) := by
  unfold execShelfSleep
  repeat (with_reducible first | assumption | apply done_keeps | apply shelfTo_keeps | apply updShelf_keeps
                               | apply begin__keeps | apply keepsRes_next | apply keepsRes_ite)

theorem execSleepDrainDone_keepsRes (shelf : Nat) {s : State} (h : Keeps kp s0 s) :
    KeepsRes kp s0 (execSleepDrainDone shelf s) := by
  unfold execSleepDrainDone
  repeat (with_reducible first | assumption | apply shutDrives_keeps | apply keepsRes_onlyIf)

theorem execDriveShutdownDone_keepsRes (drive : Nat) (reported : Bool) {s : State} (h : Keeps kp s0 s) :
    KeepsRes kp s0 (execDriveShutdownDone drive reported s) := by
  unfold execDriveShutdownDone
  repeat (first | (with_reducible first | assumption | apply driveRecord_keeps | apply updDrive_keeps
                                        | apply shelfCheck_keeps | apply keepsRes_next)
                | split | dsimp only)

theorem execDriveDlUp_keepsRes (drive : Nat) (speed : Nat) (topoOk : Bool) (capTo : Nat) (mqes : Nat) {s : State} (h :
    Keeps kp s0 s) :
    KeepsRes kp s0 (execDriveDlUp drive speed topoOk capTo mqes s) := by
  unfold execDriveDlUp
  repeat (with_reducible first | assumption | apply updDrive_keeps | apply emit_keeps | apply keepsRes_onlyIf)

theorem execDlUpTimeout_keepsRes (drive : Nat) {s : State} (h : Keeps kp s0 s) :
    KeepsRes kp s0 (execDlUpTimeout drive s) := by
  unfold execDlUpTimeout
  repeat (with_reducible first | assumption | apply failDrive_keeps | apply keepsRes_onlyIf)

theorem execDriveReadyTimeout_keepsRes (drive : Nat) {s : State} (h : Keeps kp s0 s) :
    KeepsRes kp s0 (execDriveReadyTimeout drive s) := by
  unfold execDriveReadyTimeout
  repeat (with_reducible first | assumption | apply failDrive_keeps | apply keepsRes_onlyIf)

theorem makeUnusable_keeps (d : Nat) (cause : Nat) {s : State} (h : Keeps kp s0 s) :
    Keeps kp s0 (makeUnusable d cause s) := by
  unfold makeUnusable
  repeat (with_reducible first | assumption | apply driveRecord_keeps | apply seqd_keeps | apply reap_keeps
                               | apply dropCarriages_keeps | apply updDiag_keeps | apply driveTo_keeps)

theorem askEvent_keeps (d : Nat) {s : State} (h : Keeps kp s0 s) :
    Keeps kp s0 (askEvent d s) := by
  unfold askEvent
  repeat (with_reducible first | assumption | apply issue_keeps | apply keeps_ite)

theorem initStep_keeps (d : Nat) (i : InitCmd) {s : State} (h : Keeps kp s0 s) :
    Keeps kp s0 (initStep d i s) := by
  unfold initStep
  repeat (with_reducible first | assumption | apply updDrive_keeps | apply draw_keeps | apply emit_keeps
                               | apply updDiag_keeps | apply keeps_ite)

theorem initSteps_keeps (d : Nat) (l : List InitCmd) {s : State} (h : Keeps kp s0 s) :
    Keeps kp s0 (initSteps d l s) := by
  unfold initSteps
  repeat (with_reducible first | assumption | apply initStep_keeps | (apply keeps_foldl; intro s x h))

theorem keepIdentify_keeps (d : Nat) (r : InitReport) {s : State} (h : Keeps kp s0 s) :
    Keeps kp s0 (keepIdentify d r s) := by
  unfold keepIdentify
  repeat (with_reducible first | assumption | apply updDrive_keeps)

theorem makeReady_keeps (d : Nat) (q : Nat) {s : State} (h : Keeps kp s0 s) :
    Keeps kp s0 (makeReady d q s) := by
  unfold makeReady
  repeat (with_reducible first | assumption | apply seqd_keeps | apply updDrive_keeps | apply initSteps_keeps
                               | apply driveTo_keeps)

theorem initDrive_keeps (d : Nat) (failCause : Nat) (r : InitReport) {s : State} (h : Keeps kp s0 s) :
    Keeps kp s0 (initDrive d failCause r s) := by
  unfold initDrive
  repeat (with_reducible first | assumption | apply updDrive_keeps | apply askEvent_keeps | apply pump_keeps
                               | apply makeUnusable_keeps | apply keepIdentify_keeps | apply makeReady_keeps
                               | apply failDrive_keeps | apply initSteps_keeps | apply keeps_ite)

theorem identifyAgain_keeps (d : Nat) (r : InitReport) {s : State} (h : Keeps kp s0 s) :
    Keeps kp s0 (identifyAgain d r s) := by
  unfold identifyAgain
  repeat (with_reducible first | assumption | apply seqd_keeps | apply updDrive_keeps | apply askEvent_keeps
                               | apply pump_keeps | apply makeUnusable_keeps | apply keepIdentify_keeps
                               | apply makeReady_keeps | apply initSteps_keeps | apply driveTo_keeps | apply keeps_ite)

theorem execDriveInit_keepsRes (drive : Nat) (report : InitReport) {s : State} (h : Keeps kp s0 s) :
    KeepsRes kp s0 (execDriveInit drive report s) := by
  unfold execDriveInit
  repeat (with_reducible first | assumption | apply shelfCheck_keeps | apply initDrive_keeps | apply identifyAgain_keeps
                               | apply keepsRes_next | apply keepsRes_onlyIf | apply keepsRes_ite)

theorem execPortPark_keepsRes (drive : Nat) {s : State} (h : Keeps kp s0 s) :
    KeepsRes kp s0 (execPortPark drive s) := by
  unfold execPortPark
  repeat (with_reducible first | assumption | apply parkPort_keeps | apply keepsRes_onlyIf)

theorem execL12Exit_keepsRes (drive : Nat) {s : State} (h : Keeps kp s0 s) :
    KeepsRes kp s0 (execL12Exit drive s) := by
  unfold execL12Exit
  repeat (with_reducible first | assumption | apply updDrive_keeps | apply pump_keeps | apply beginExit_keeps
                               | apply keepsRes_next | apply keepsRes_onlyIf | apply keepsRes_ite)

theorem execDriveClkreqWake_keepsRes (drive : Nat) {s : State} (h : Keeps kp s0 s) :
    KeepsRes kp s0 (execDriveClkreqWake drive s) := by
  unfold execDriveClkreqWake
  repeat (with_reducible first | assumption | apply driveWake_keeps | apply keepsRes_onlyIf)

theorem adminStage_keeps (t : Nat) {s : State} (h : Keeps kp s0 s) :
    Keeps kp s0 (adminStage t s) := by
  unfold adminStage
  repeat (first | (with_reducible first | assumption | apply readBuffer_keeps | apply updSeg_keeps
                                        | apply markAll_keeps | apply keeps_ite)
                | split)

theorem adminIssue_keeps (t : Nat) {s : State} (h : Keeps kp s0 s) :
    Keeps kp s0 (adminIssue t s) := by
  unfold adminIssue
  repeat (first | (with_reducible first | assumption | apply updCarr_keeps | apply issue_keeps | apply updMdf_keeps)
                | (show _ = _; rfl) | (with_reducible first | exact fun x => x | refine mdfOk ?_ ?_ ?_ ?_))

theorem adminGo_keeps (t : Nat) {s : State} (h : Keeps kp s0 s) :
    Keeps kp s0 (adminGo t s) := by
  unfold adminGo
  repeat (with_reducible first | assumption | apply adminStage_keeps | apply adminIssue_keeps | apply keeps_ite)

theorem execDriveAdmin_keepsRes (tag : Nat) {s : State} (h : Keeps kp s0 s) :
    KeepsRes kp s0 (execDriveAdmin tag s) := by
  unfold execDriveAdmin
  repeat (first | (with_reducible first | assumption | apply updCarr_keeps | apply adminGo_keeps
                                        | apply updMdf_keeps | apply keepsRes_next | apply keepsRes_ite)
                | (show _ = _; rfl) | (with_reducible first | exact fun x => x | refine mdfOk ?_ ?_ ?_ ?_))

theorem execDriveAdminIssue_keepsRes (tag : Nat) {s : State} (h : Keeps kp s0 s) :
    KeepsRes kp s0 (execDriveAdminIssue tag s) := by
  unfold execDriveAdminIssue
  repeat (with_reducible first | assumption | apply adminGo_keeps | apply keepsRes_next)

theorem adminDone_keeps (t : Nat) (d : Nat) (dword0 : Nat) (data : Bytes) {s : State} (h : Keeps kp s0 s) :
    Keeps kp s0 (adminDone t d dword0 data s) := by
  unfold adminDone
  repeat (with_reducible first | assumption | apply done_keeps | apply seqd_keeps | apply updDrive_keeps
                               | apply writeBuffer_keeps | apply driveTo_keeps | apply keeps_ite)

theorem retire_keeps (d : Nat) (cid : Nat) {s : State} (h : Keeps kp s0 s) :
    Keeps kp s0 (retire d cid s) := by
  unfold retire
  repeat (with_reducible first | assumption | apply updDrive_keeps | apply updDiag_keeps)

theorem mediaFail_keeps (n : NvCmd) (d : Nat) (status : Nat) (low : Nat) {s : State} (h : Keeps kp s0 s) :
    Keeps kp s0 (mediaFail n d status low s) := by
  unfold mediaFail
  repeat (first | (with_reducible first | assumption | apply stop_keeps) | split)

theorem completed_keeps (n : NvCmd) (d : Nat) (dword0 : Nat) (data : Bytes) {s : State} (h : Keeps kp s0 s) :
    Keeps kp s0 (completed n d dword0 data s) := by
  unfold completed
  repeat (first | (with_reducible first | assumption | apply adminDone_keeps | apply trailerWritten_keeps
                                        | apply segWritten_keeps | apply updDrive_keeps | apply segRead_keeps
                                        | apply legacyNext_keeps | apply shutNext_keeps | apply legacyLanded_keeps
                                        | apply trailerRead_keeps)
                | split)

theorem timeOut_keeps (d : Nat) (cid : Nat) {s : State} (h : Keeps kp s0 s) :
    Keeps kp s0 (timeOut d cid s) := by
  unfold timeOut
  repeat (with_reducible first | assumption | apply mediaFail_keeps | apply issue_keeps | apply updDrive_keeps
                               | apply shutNext_keeps | apply updDiag_keeps | apply keeps_ite)

theorem execNvmeCommandTimeout_keepsRes (drive : Nat) (cid : Nat) {s : State} (h : Keeps kp s0 s) :
    KeepsRes kp s0 (execNvmeCommandTimeout drive cid s) := by
  unfold execNvmeCommandTimeout
  repeat (with_reducible first | assumption | apply timeOut_keeps | apply keepsRes_onlyIf)

theorem beginReset_keeps (d : Nat) {s : State} (h : Keeps kp s0 s) :
    Keeps kp s0 (beginReset d s) := by
  unfold beginReset
  repeat (with_reducible first | assumption | apply seqd_keeps | apply updDrive_keeps | apply shelfCheck_keeps
                               | apply emit_keeps | apply updDiag_keeps | apply driveTo_keeps)

theorem resetEnable_keeps (d : Nat) {s : State} (h : Keeps kp s0 s) :
    Keeps kp s0 (resetEnable d s) := by
  unfold resetEnable
  repeat (with_reducible first | assumption | apply stopOne_keeps | apply updDrive_keeps | apply emit_keeps
                               | apply reap_keeps | (apply keeps_foldl; intro s x h))

theorem execNvmeCompletion_keepsRes (drive : Nat) (cid : Nat) (status : Nat) (dword0 : Nat) (ret : NvReturn) {s :
    State} (h : Keeps kp s0 s) :
    KeepsRes kp s0 (execNvmeCompletion drive cid status dword0 ret s) := by
  unfold execNvmeCompletion
  repeat (first | (with_reducible first | assumption | apply timeOut_keeps | apply mediaFail_keeps
                                        | apply issue_keeps | apply updDrive_keeps | apply beginReset_keeps
                                        | apply pump_keeps | apply shutNext_keeps | apply retire_keeps
                                        | apply updDiag_keeps | apply completed_keeps | apply keepsRes_next
                                        | apply keepsRes_ite)
                | split)

theorem execNvmeAbortTimeout_keepsRes (drive : Nat) (cid : Nat) {s : State} (h : Keeps kp s0 s) :
    KeepsRes kp s0 (execNvmeAbortTimeout drive cid s) := by
  unfold execNvmeAbortTimeout
  repeat (first | (with_reducible first | assumption | apply beginReset_keeps | apply keepsRes_next
                                        | apply keepsRes_onlyIf)
                | split | dsimp only)

theorem execControllerReset_keepsRes (drive : Nat) (cfs : Bool) (report : Option InitReport) {s : State} (h : Keeps kp
    s0 s) :
    KeepsRes kp s0 (execControllerReset drive cfs report s) := by
  unfold execControllerReset
  repeat (first | (with_reducible first | assumption | apply shelfCheck_keeps | apply resetEnable_keeps
                                        | apply initDrive_keeps | apply failDrive_keeps | apply keepsRes_next
                                        | apply keepsRes_onlyIf | apply keepsRes_ite)
                | split)

theorem execDriveDmaBlocked_keepsRes (drive : Nat) (cid : Option Nat) {s : State} (h : Keeps kp s0 s) :
    KeepsRes kp s0 (execDriveDmaBlocked drive cid s) := by
  unfold execDriveDmaBlocked
  repeat (first | (with_reducible first | assumption | apply mediaFail_keeps | apply beginReset_keeps
                                        | apply updDiag_keeps | apply keepsRes_next | apply keepsRes_ite)
                | split)

theorem execDriveLinkDown_keepsRes (drive : Nat) {s : State} (h : Keeps kp s0 s) :
    KeepsRes kp s0 (execDriveLinkDown drive s) := by
  unfold execDriveLinkDown
  repeat (with_reducible first | assumption | apply updDrive_keeps | apply markL0_keeps | apply keepsRes_onlyIf)

theorem execDriveLinkRetrained_keepsRes (drive : Nat) (speed : Nat) {s : State} (h : Keeps kp s0 s) :
    KeepsRes kp s0 (execDriveLinkRetrained drive speed s) := by
  unfold execDriveLinkRetrained
  repeat (first | (with_reducible first | assumption | apply updDrive_keeps | apply pump_keeps | apply markL0_keeps
                                        | apply keepsRes_next | apply keepsRes_onlyIf)
                | split | dsimp only)

theorem execDriveRetrainTimeout_keepsRes (drive : Nat) {s : State} (h : Keeps kp s0 s) :
    KeepsRes kp s0 (execDriveRetrainTimeout drive s) := by
  unfold execDriveRetrainTimeout
  repeat (first | (with_reducible first | assumption | apply failDrive_keeps | apply keepsRes_next
                                        | apply keepsRes_onlyIf)
                | split)

theorem execAsyncEvent_keepsRes (drive : Nat) (dword0 : Nat) {s : State} (h : Keeps kp s0 s) :
    KeepsRes kp s0 (execAsyncEvent drive dword0 s) := by
  unfold execAsyncEvent
  repeat (first | (with_reducible first | assumption | apply driveRecord_keeps | apply issue_keeps
                                        | apply updDrive_keeps | apply keepsRes_next | apply keepsRes_onlyIf)
                | split)

theorem execPresenceChange_keepsRes (drive : Nat) (present : Bool) {s : State} (h : Keeps kp s0 s) :
    KeepsRes kp s0 (execPresenceChange drive present s) := by
  unfold execPresenceChange
  repeat (with_reducible first | assumption | apply presenceTo_keeps | apply keepsRes_onlyIf)

theorem execShelfDrop_keepsRes (shelf : Nat) (cause : Nat) {s : State} (h : Keeps kp s0 s) :
    KeepsRes kp s0 (execShelfDrop shelf cause s) := by
  unfold execShelfDrop
  repeat (with_reducible first | assumption | apply dropShelf_keeps | apply keepsRes_onlyIf)

theorem execD2dRetrainTimeout_keepsRes (region : Nat) {s : State} (h : Keeps kp s0 s) :
    KeepsRes kp s0 (execD2dRetrainTimeout region s) := by
  unfold execD2dRetrainTimeout
  repeat (first | (with_reducible first | assumption | apply arrayRecord_keeps | apply clearDrive_keeps
                                        | apply endLegacy_keeps | apply seqd_keeps | apply shelfCheck_keeps
                                        | apply reap_keeps | apply stopAll_keeps | apply updRegion_keeps
                                        | apply updDiag_keeps | apply driveTo_keeps | apply keepsRes_next
                                        | apply keeps_ite | (apply keeps_foldl; intro s x h))
                | split)

theorem slcCommand_keepsRes (p : Port) (n : Nat) (most : Nat) (check : State → Nat) (act : State → State) {s : State}
    (h : Keeps kp s0 s) (hact : ∀ s, Keeps kp s0 s → Keeps kp s0 (act s)) :
    KeepsRes kp s0 (slcCommand p n most check act s) := by
  unfold slcCommand
  repeat (with_reducible first | assumption | apply hact | apply guardErr_keeps | apply updWin_keeps | apply seqd_keeps
                               | apply legTouch_keeps | apply draw_keeps | apply cntWr_keeps | apply keepsRes_next
                               | apply keepsRes_ite | apply keeps_ite)

theorem execSlcRead_keepsRes (p : Port) (slice : Nat) {s : State} (h : Keeps kp s0 s) :
    KeepsRes kp s0 (execSlcRead p slice s) := by
  unfold execSlcRead
  repeat (with_reducible first | assumption | apply slcCommand_keepsRes | apply updWin_keeps | (intro s h))

theorem execSlcWrite_keepsRes (p : Port) (slice : Nat) {s : State} (h : Keeps kp s0 s) :
    KeepsRes kp s0 (execSlcWrite p slice s) := by
  unfold execSlcWrite
  repeat (with_reducible first | assumption | apply slcCommand_keepsRes | apply shareSync_keeps | apply updSlice_keeps
                               | (intro s h))

theorem execSlcCreate_keepsRes (p : Port) (slice : Nat) {s : State} (h : Keeps kp s0 s) :
    KeepsRes kp s0 (execSlcCreate p slice s) := by
  unfold execSlcCreate
  repeat (with_reducible first | assumption | apply slcCommand_keepsRes | apply shareSync_keeps | apply updSlice_keeps
                               | (intro s h))

theorem execUnfreeze_keepsRes (p : Port) (slice : Nat) {s : State} (h : Keeps kp s0 s) :
    KeepsRes kp s0 (execUnfreeze p slice s) := by
  unfold execUnfreeze
  repeat (with_reducible first | assumption | apply slcCommand_keepsRes | apply setRing_keeps | apply rebrake_keeps
                               | apply updSlice_keeps | apply keeps_ite | (intro s h)
                               | (apply keeps_foldl; intro s x h))

theorem removeRing_keeps (g : Nat) {s : State} (h : Keeps kp s0 s) :
    Keeps kp s0 (removeRing s g) := by
  unfold removeRing
  repeat (with_reducible first | assumption | apply dropSiding_keeps | apply loseCopies_keeps | apply updRing_keeps
                               | apply keeps_ite)

theorem execRemove_keepsRes (p : Port) (slice : Nat) {s : State} (h : Keeps kp s0 s) :
    KeepsRes kp s0 (execRemove p slice s) := by
  unfold execRemove
  repeat (first | (with_reducible first | assumption | apply relieve_keeps | apply slcCommand_keepsRes
                                        | apply flushDb_keeps | apply removeRing_keeps | apply mark_keeps
                                        | apply updSlice_keeps | apply updSlc_keeps | (intro s h)
                                        | (apply keeps_foldl; intro s x h) | exact fun x => x
                                        | exact twf_tupd _ _ _ _ | exact twf_tset _ _ _ _ | exact twf_tdel _ _ _
                                        | exact twf_tmap _ _ _ | refine carOk ?_ ?_ ?_ | refine cayOk ?_ ?_
                                        | refine mdfOk ?_ ?_ ?_ ?_ | refine slcOk ?_ ?_)
                | (with_reducible apply And.intro) | split | dsimp only)

theorem bindAnswer_keeps (p : Port) (f : SlcWin → SlcWin) {s : State} (h : Keeps kp s0 s) :
    Keeps kp s0 (bindAnswer p f s) := by
  unfold bindAnswer
  repeat (with_reducible first | assumption | apply updWin_keeps | apply draw_keeps)

theorem execBind_keepsRes (p : Port) (slice : Nat) {s : State} (h : Keeps kp s0 s) :
    KeepsRes kp s0 (execBind p slice s) := by
  unfold execBind
  repeat (with_reducible first | assumption | apply guardErr_keeps | apply seqd_keeps | apply legTouch_keeps
                               | apply bindAnswer_keeps | apply cntWr_keeps | apply updSlc_keeps | apply keepsRes_next
                               | apply keepsRes_ite | apply keeps_ite | exact fun x => x | exact twf_tset _ _ _ _
                               | refine slcOk ?_ ?_)

theorem execUnbind_keepsRes (p : Port) (slice : Nat) {s : State} (h : Keeps kp s0 s) :
    KeepsRes kp s0 (execUnbind p slice s) := by
  unfold execUnbind
  repeat (with_reducible first | assumption | apply guardErr_keeps | apply seqd_keeps | apply legTouch_keeps
                               | apply bindAnswer_keeps | apply cntWr_keeps | apply updSlc_keeps | apply keepsRes_next
                               | apply keepsRes_ite | apply keeps_ite | exact fun x => x | exact twf_tset _ _ _ _
                               | refine slcOk ?_ ?_)

theorem execQuery_keepsRes (p : Port) {s : State} (h : Keeps kp s0 s) :
    KeepsRes kp s0 (execQuery p s) := by
  unfold execQuery
  repeat (with_reducible first | assumption | apply seqd_keeps | apply legTouch_keeps | apply bindAnswer_keeps
                               | apply cntWr_keeps | apply keepsRes_next | apply keepsRes_ite)

theorem tenantMbx_keeps (p : Port) (n : Nat) (o : MbxOp) {s : State} (h : Keeps kp s0 s) :
    Keeps kp s0 (tenantMbx p n s o) := by
  unfold tenantMbx
  repeat (first | (with_reducible first | assumption | apply rangeErr_keeps | apply setIntBoth_keeps
                                        | apply updSlice_keeps | apply keeps_ite)
                | split)

theorem managerMbx_keeps (p : Port) (n : Nat) (o : MbxOp) {s : State} (h : Keeps kp s0 s) :
    Keeps kp s0 (managerMbx p n s o) := by
  unfold managerMbx
  repeat (first | (with_reducible first | assumption | apply msixFire_keeps | apply rangeErr_keeps
                                        | apply updSlice_keeps | apply keeps_ite)
                | split)

theorem tenantMbxWrite_keepsRes (p : Port) (slice : Nat) (os : List MbxOp) {s : State} (h : Keeps kp s0 s) :
    KeepsRes kp s0 (tenantMbxWrite p slice os s) := by
  unfold tenantMbxWrite
  repeat (with_reducible first | assumption | apply tenantMbx_keeps | apply seqIf_keeps | apply pageDiscard_keeps
                               | apply cntWr_keeps | apply keepsRes_next | apply keepsRes_ite
                               | (apply keeps_foldl; intro s x h))

theorem managerMbxWrite_keepsRes (p : Port) (os : List MbxOp) {s : State} (h : Keeps kp s0 s) :
    KeepsRes kp s0 (managerMbxWrite p os s) := by
  unfold managerMbxWrite
  repeat (with_reducible first | assumption | apply managerMbx_keeps | apply seqIf_keeps | apply legTouch_keeps
                               | apply cntWr_keeps | apply keepsRes_onlyIf | apply keeps_ite
                               | (apply keeps_foldl; intro s x h))

theorem execInPost_keepsRes (p : Port) (slice : Nat) (len : Nat) {s : State} (h : Keeps kp s0 s) :
    KeepsRes kp s0 (execInPost p slice len s) := by
  unfold execInPost
  repeat (with_reducible first | assumption | apply tenantMbxWrite_keepsRes)

theorem execInAck_keepsRes (p : Port) {s : State} (h : Keeps kp s0 s) :
    KeepsRes kp s0 (execInAck p s) := by
  unfold execInAck
  repeat (with_reducible first | assumption | apply managerMbxWrite_keepsRes)

theorem execOutPost_keepsRes (p : Port) (len : Nat) {s : State} (h : Keeps kp s0 s) :
    KeepsRes kp s0 (execOutPost p len s) := by
  unfold execOutPost
  repeat (with_reducible first | assumption | apply managerMbxWrite_keepsRes)

theorem execOutAck_keepsRes (p : Port) (slice : Nat) {s : State} (h : Keeps kp s0 s) :
    KeepsRes kp s0 (execOutAck p slice s) := by
  unfold execOutAck
  repeat (with_reducible first | assumption | apply tenantMbxWrite_keepsRes)

theorem execSliceFreeze_keepsRes (tag : Nat) {s : State} (h : Keeps kp s0 s) :
    KeepsRes kp s0 (execSliceFreeze tag s) := by
  unfold execSliceFreeze
  repeat (with_reducible first | assumption | apply freezeAdmitted_keeps | apply keepsRes_onlyIf)

theorem returnTicket_keeps (n : Nat) (tk : Bytes) {s : State} (h : Keeps kp s0 s) :
    Keeps kp s0 (returnTicket n tk s) := by
  unfold returnTicket
  repeat (with_reducible first | assumption | apply dmaWrite_keeps | apply updSlice_keeps | apply keeps_ite)

theorem freezeSeal_keeps (n : Nat) (i : Nat) {s : State} (h : Keeps kp s0 s) :
    Keeps kp s0 (freezeSeal n i s) := by
  unfold freezeSeal
  repeat (first | (with_reducible first | assumption | apply cacheKek_keeps | apply seqd_keeps | apply mark_keeps
                                        | apply returnTicket_keeps)
                | split | dsimp only)

theorem freezeSeals_keepsSnd (n : Nat) (x1 : List Nat) {s : State} (h : Keeps kp s0 s) :
    Keeps kp s0 (freezeSeals n x1 s).2 := by
  revert h
  fun_induction freezeSeals n x1 s <;> intro h
  all_goals repeat (with_reducible first | assumption | refine ‹Keeps kp s0 _ → Keeps kp s0 _› ?_
                                         | apply freezeSeal_keeps)

theorem execFreezeDrainDone_keepsRes (slice : Nat) {s : State} (h : Keeps kp s0 s) :
    KeepsRes kp s0 (execFreezeDrainDone slice s) := by
  unfold execFreezeDrainDone
  repeat (with_reducible first | assumption | apply done_keeps | apply seqd_keeps | apply freezeSeals_keepsSnd
                               | apply updSlice_keeps | apply keepsRes_next | apply keepsRes_ite
                               | (apply keeps_foldl; intro s x h))

theorem execSliceSave_keepsRes (tag : Nat) {s : State} (h : Keeps kp s0 s) :
    KeepsRes kp s0 (execSliceSave tag s) := by
  unfold execSliceSave
  repeat (first | (with_reducible first | assumption | apply done_keeps | apply seqd_keeps | apply writeBuffer_keeps
                                        | apply begin__keeps | apply keepsRes_next | apply keepsRes_ite)
                | split)

theorem restoreRing_keeps (n : Nat) (b : Bytes) {s : State} (h : Keeps kp s0 s) :
    Keeps kp s0 (restoreRing n s b) := by
  unfold restoreRing
  repeat (with_reducible first | assumption | apply updRing_keeps)

theorem restoreSlot_keepsFst (n : Nat) (x : State × List Bytes) (b : Bytes) (h : Keeps kp s0 x.1) :
    Keeps kp s0 (restoreSlot n x b).1 := by
  unfold restoreSlot
  split
  · exact h
  · exact allocSlot_keeps _ _ h

theorem applyImage_keeps (n : Nat) (m : ImageBody) {s : State} (h : Keeps kp s0 s) :
    Keeps kp s0 (applyImage n m s) := by
  unfold applyImage
  have hb (b : Tbl Binding) (l : List Nat) : twf {} b = true →
      twf {} (l.foldl (fun t o => tset {} t o { bound := true, slice := n }) b) = true := by
    induction l generalizing b with
    | nil => exact fun x => x
    | cons o l ih => exact fun x => ih _ (twf_tset _ _ _ _ x)
  have e : Keeps kp s0 (m.slots.foldl (restoreSlot n) (m.rings.foldl (restoreRing n) (updSlc (fun c => { c with
      binds := m.owners.foldl (fun t o => tset {} t o { bound := true, slice := n }) c.binds }) (seqd s)), [])).1 :=
    keeps_foldl_fst (fun x b k => restoreSlot_keepsFst _ _ _ k)
      (keeps_foldl (fun s x k => restoreRing_keeps _ _ k) (updSlc_keeps (seqd_keeps h) (slcOk (fun x => x) (hb _ _)))
          _) _
  refine keeps_foldl_snd (fun x d k => dmaWrite_keeps _ _ _ _ _ k) ?_ _
  exact updSlice_keeps _ _ e

theorem execSliceRestore_keepsRes (tag : Nat) {s : State} (h : Keeps kp s0 s) :
    KeepsRes kp s0 (execSliceRestore tag s) := by
  unfold execSliceRestore
  repeat (first | (with_reducible first | assumption | apply done_keeps | apply readBuffer_keeps
                                        | apply begin__keeps | apply applyImage_keeps | apply keepsRes_next
                                        | apply keepsRes_ite)
                | split)

end Sys2Proof.Laws
end

