-- ==== Sys2Proof/Laws/KeepsChip.lean ====
section
/-! SUPPORT. What the operations and commands of events, faults, worlds, the vault, life cycle and tamper keep. -/
namespace Sys2Proof.Laws

open Sys2Proof.Machine Sys2Proof.Safety

variable {kp : Kept} {s0 s : State}

theorem reserveSeal_period (now : Nat) (e : Evr) : (reserveSeal now e).period = e.period := by
  simp [reserveSeal, create_period]

theorem flushStart_keeps (hold : Bool) {s : State} (h : Keeps kp s0 s) : Keeps kp s0 (flushStart hold s) := by
  unfold flushStart
  refine keeps_ite h (h.put_evr ?_)
  dsimp only
  split
  · exact reserveSeal_period _ _
  · rfl

theorem execFlush_keepsRes (p : Port) {s : State} (h : Keeps kp s0 s) :
    KeepsRes kp s0 (execFlush p s) := by
  unfold execFlush
  repeat (with_reducible first | assumption | apply seqIf_keeps | apply legTouch_keeps | apply flushStart_keeps
                               | apply cntWr_keeps | apply keepsRes_next | apply keepsRes_ite)

theorem execFlushPeriodExpiry_keepsRes {s : State} (h : Keeps kp s0 s) :
    KeepsRes kp s0 (execFlushPeriodExpiry s) := by
  unfold execFlushPeriodExpiry
  repeat (with_reducible first | assumption | apply flushStart_keeps | apply keepsRes_onlyIf)

theorem execBufferThresholdFlush_keepsRes {s : State} (h : Keeps kp s0 s) :
    KeepsRes kp s0 (execBufferThresholdFlush s) := by
  unfold execBufferThresholdFlush
  repeat (with_reducible first | assumption | apply flushStart_keeps | apply keepsRes_onlyIf)

theorem overflowEnd_keeps {s : State} (h : Keeps kp s0 s) :
    Keeps kp s0 (overflowEnd s) := by
  unfold overflowEnd
  repeat (first | (with_reducible first | assumption | apply keeps_ite) | (show _ = _; rfl)
                | with_reducible apply Keeps.put_evr)

theorem flushFailed_keeps (dev : Nat) (seq : Nat) {s : State} (h : Keeps kp s0 s) :
    Keeps kp s0 (flushFailed dev seq s) := by
  unfold flushFailed
  repeat (first | (with_reducible first | assumption | apply updEvr_keeps | apply record_keeps) | (show _ = _; rfl))

theorem clearCopied_keeps {s : State} (h : Keeps kp s0 s) :
    Keeps kp s0 (clearCopied s) := by
  unfold clearCopied
  repeat (with_reducible first | assumption | apply keeps_ite | apply Keeps.put_bbr)

theorem sendPage_keeps (dev : Nat) (x : Nat × List EvRec) {s : State} (h : Keeps kp s0 s) :
    Keeps kp s0 (sendPage dev x s) := by
  unfold sendPage
  repeat (with_reducible first | assumption | apply emit_keeps | apply keeps_ite)

theorem fullInt_keeps (was : Bool) {s : State} (h : Keeps kp s0 s) :
    Keeps kp s0 (fullInt was s) := by
  unfold fullInt
  repeat (with_reducible first | assumption | apply setIntBoth_keeps | apply keeps_ite)

theorem chainRec_period (seed : Bytes) (boot now : Nat) (e : Evr) (r : EvRec) :
    (chainRec seed boot now e r).1.period = e.period := by
  unfold chainRec
  dsimp only
  split
  · rfl
  · rfl
  · dsimp only
    split
    · exact reserveSeal_period _ _
    · rfl

theorem beginBlock_period (e : Evr) : (beginBlock e).period = e.period := by
  unfold beginBlock
  split <;> rfl

theorem flushPage_period (seed : Bytes) (boot now : Nat) (rs : List EvRec) (e : Evr) :
    (flushPage seed boot now rs e).1.period = e.period := by
  have fold : ∀ (l : List EvRec) (x : Evr × List EvRec),
      (l.foldl (fun (x : Evr × List EvRec) r =>
        let c := chainRec seed boot now x.1 r
        (c.1, x.2 ++ [c.2])) x).1.period = x.1.period := by
    intro l
    induction l with
    | nil => intro x; rfl
    | cons r l ih => intro x; rw [List.foldl_cons, ih]; exact chainRec_period _ _ _ _ _
  unfold flushPage
  dsimp only
  rw [fold]
  exact beginBlock_period e

theorem flushPages_period (seed : Bytes) (boot now : Nat) (ps : List (List EvRec)) (e : Evr) :
    (flushPages seed boot now ps e).1.period = e.period := by
  induction ps generalizing e with
  | nil => rfl
  | cons p ps ih =>
    unfold flushPages
    split
    · rfl
    · dsimp only
      rw [ih, flushPage_period]

theorem flushPart_keeps (k : Nat) (aOk : Bool) (bOk : Bool) {s : State} (h : Keeps kp s0 s) :
    Keeps kp s0 (flushPart k aOk bOk s) := by
  unfold flushPart
  refine clearCopied_keeps (fullInt_keeps _ (keeps_foldl (fun s p k =>
    keeps_ite (sendPage_keeps _ _ (keeps_ite (sendPage_keeps _ _ k) k)) (keeps_ite (sendPage_keeps _ _ k) k)) ?_ _))
  exact (overflowEnd_keeps h).put_evr (flushPages_period _ _ _ _ _)

theorem flushWrite_keeps (aOk : Bool) (bOk : Bool) {s : State} (h : Keeps kp s0 s) :
    Keeps kp s0 (flushWrite aOk bOk s) := flushPart_keeps _ _ _ h

theorem execFlushDone_keepsRes (aOk : Bool) (bOk : Bool) (page : Nat) {s : State} (h : Keeps kp s0 s) :
    KeepsRes kp s0 (execFlushDone aOk bOk page s) := by
  unfold execFlushDone
  repeat (first | (with_reducible first | assumption | apply updEvr_keeps | apply flushFailed_keeps
                                        | apply flushWrite_keeps | apply flushPart_keeps | apply keepsRes_onlyIf
                                        | apply keeps_ite)
                | (show _ = _; rfl))

theorem setFloor_keeps (f : Nat) {s : State} (h : Keeps kp s0 s) :
    Keeps kp s0 (setFloor f s) := by
  unfold setFloor
  repeat (first | (with_reducible first | assumption | apply updEvr_keeps) | (show _ = _; rfl))

theorem execCursor_keepsRes (p : Port) (seq : Nat) {s : State} (h : Keeps kp s0 s) :
    KeepsRes kp s0 (execCursor p seq s) := by
  unfold execCursor
  repeat (with_reducible first | assumption | apply updWin_keeps | apply seqd_keeps | apply legTouch_keeps
                               | apply cntWr_keeps | apply keepsRes_next | apply keepsRes_ite)

theorem execEventWindowLoaded_keepsRes (p : Port) {s : State} (h : Keeps kp s0 s) :
    KeepsRes kp s0 (execEventWindowLoaded p s) := by
  unfold execEventWindowLoaded
  repeat (with_reducible first | assumption | apply updWin_keeps | apply keepsRes_onlyIf)

theorem grantEnd_keeps {s : State} (h : Keeps kp s0 s) :
    Keeps kp s0 (grantEnd s) := by
  unfold grantEnd
  repeat (first | (with_reducible first | assumption | apply updLcs_keeps | apply updWld_keeps | apply updRng_keeps)
                | (show _ = _; rfl) | (with_reducible apply And.intro))

theorem debugLost_keeps {s : State} (h : Keeps kp s0 s) :
    Keeps kp s0 (debugLost s) := by
  unfold debugLost
  repeat (first | (with_reducible first | assumption | apply updLcs_keeps | apply updLat_keeps | apply keeps_ite)
                | (show _ = _; rfl))

theorem faultCarriages_keeps {s : State} (h : Keeps kp s0 s) :
    Keeps kp s0 (faultCarriages s) := by
  unfold faultCarriages
  repeat (with_reducible first | assumption | apply finish_keeps | apply scrub_keeps | apply keeps_ite
                               | (apply keeps_foldl; intro s x h))

theorem zeroiseKeys_keeps {s : State} (h : Keeps kp s0 s) :
    Keeps kp s0 (zeroiseKeys s) := by
  unfold zeroiseKeys
  repeat (with_reducible first | assumption | apply purgeStaging_keeps | apply dropShadows_keeps
                               | apply zeroiseSlot_keeps | (apply keeps_foldl; intro s x h))

theorem enterFault_keeps (cause : Nat) {s : State} (h : Keeps kp s0 s) : Keeps kp s0 (enterFault cause s) := by
  unfold enterFault
  refine keeps_ite h (flushStart_keeps _ (keepShown_keeps (grantEnd_keeps (debugLost_keeps (legErase_keeps _ _
    (zeroiseKeys_keeps (updRng_keeps ?_ ⟨rfl, rfl⟩)))))))
  refine chanZeroise_keeps _ _ (chanZeroise_keeps _ _ (ucpEnd_keeps _ _ (latEnd_keeps _ _ _ (latEnd_keeps _ _ _ ?_))))
  exact faultCarriages_keeps (setIntBoth_keeps _ (record_keeps _ _ ((seqd_keeps h).put_chp (fun _ => rfl))))

theorem execFaultEntry_keepsRes (cause : Nat) {s : State} (h : Keeps kp s0 s) :
    KeepsRes kp s0 (execFaultEntry cause s) := by
  unfold execFaultEntry
  repeat (with_reducible first | assumption | apply enterFault_keeps | apply keepsRes_onlyIf)

theorem jtagSelect_keeps (i : JtagInstr) {s : State} (h : Keeps kp s0 s) :
    Keeps kp s0 (jtagSelect i s) := by
  unfold jtagSelect
  repeat (first | (with_reducible first | assumption | apply updLcs_keeps | apply keeps_ite) | (show _ = _; rfl))

theorem updWorld_keeps (w : World) (f : WorldSt → WorldSt) {s : State} (h : Keeps kp s0 s) :
    Keeps kp s0 (updWorld w f s) := by
  unfold updWorld
  repeat (first | (with_reducible first | assumption | apply updWld_keeps) | split)

theorem worldRecord_keeps (kind : Nat) (who : Nat) (cause : Nat) (outcome : Nat) (n : Nat) {s : State} (h : Keeps kp
    s0 s) :
    Keeps kp s0 (worldRecord kind who cause outcome n s) := by
  unfold worldRecord
  repeat (with_reducible first | assumption | apply record_keeps)

theorem mediaStop_keeps (w : World) {s : State} (h : Keeps kp s0 s) :
    Keeps kp s0 (mediaStop w s) := by
  unfold mediaStop
  repeat (with_reducible first | assumption | apply stop_keeps | apply wakeFail_keeps | apply keeps_ite
                               | (apply keeps_foldl; intro s x h))

theorem saveTorn_keeps (t : Nat) {s : State} (h : Keeps kp s0 s) :
    Keeps kp s0 (saveTorn t s) := by
  unfold saveTorn
  repeat (with_reducible first | assumption | apply writeBuffer_keeps | apply draw_keeps | apply keeps_ite)

theorem secureStop_keeps {s : State} (h : Keeps kp s0 s) :
    Keeps kp s0 (secureStop s) := by
  unfold secureStop
  repeat (with_reducible first | assumption | apply stop_keeps | apply updProp_keeps | apply ucpForce_keeps
                               | apply dropSign_keeps | apply updWld_keeps | apply mediaStop_keeps
                               | apply saveTorn_keeps | apply keeps_ite | (apply keeps_foldl; intro s x h))

theorem normalStop_keeps {s : State} (h : Keeps kp s0 s) :
    Keeps kp s0 (normalStop s) := by
  unfold normalStop
  repeat (with_reducible first | assumption | apply updWld_keeps | apply mediaStop_keeps)

theorem worldFail_keeps (w : World) (cause : Nat) {s : State} (h : Keeps kp s0 s) :
    Keeps kp s0 (worldFail w cause s) := by
  unfold worldFail
  repeat (first | (with_reducible first | assumption | apply secureStop_keeps | apply enterFault_keeps
                                        | apply updWorld_keeps | apply grantEnd_keeps | apply normalStop_keeps
                                        | apply keeps_ite)
                | split)

theorem execWatchdogExpiry_keepsRes (w : World) {s : State} (h : Keeps kp s0 s) :
    KeepsRes kp s0 (execWatchdogExpiry w s) := by
  unfold execWatchdogExpiry
  repeat (with_reducible first | assumption | apply worldFail_keeps | apply keepsRes_onlyIf)

theorem execWorldException_keepsRes (w : World) {s : State} (h : Keeps kp s0 s) :
    KeepsRes kp s0 (execWorldException w s) := by
  unfold execWorldException
  repeat (with_reducible first | assumption | apply worldFail_keeps | apply keepsRes_onlyIf)

theorem execMonitorCheckFail_keepsRes (w : World) {s : State} (h : Keeps kp s0 s) :
    KeepsRes kp s0 (execMonitorCheckFail w s) := by
  unfold execMonitorCheckFail
  repeat (with_reducible first | assumption | apply worldFail_keeps | apply keepsRes_onlyIf)

theorem initAgain_keeps (d : Nat) {s : State} (h : Keeps kp s0 s) :
    Keeps kp s0 (initAgain s d) := by
  unfold initAgain
  repeat (with_reducible first | assumption | apply updDrive_keeps | apply emit_keeps | apply keeps_ite)

theorem execRestartComplete_keepsRes (w : World) {s : State} (h : Keeps kp s0 s) :
    KeepsRes kp s0 (execRestartComplete w s) := by
  unfold execRestartComplete
  repeat (first | (with_reducible first | assumption | apply enterFault_keeps | apply initAgain_keeps
                                        | apply updWorld_keeps | apply worldRecord_keeps | apply setIntBoth_keeps
                                        | apply keepsRes_onlyIf | (apply keeps_foldl; intro s x h))
                | split)

theorem execRestartTimeout_keepsRes (w : World) {s : State} (h : Keeps kp s0 s) :
    KeepsRes kp s0 (execRestartTimeout w s) := by
  unfold execRestartTimeout
  repeat (with_reducible first | assumption | apply enterFault_keeps | apply updWorld_keeps | apply keepsRes_onlyIf)

theorem updGate_keeps (b : GateBlock) (f : Gate → Gate) {s : State} (h : Keeps kp s0 s) :
    Keeps kp s0 (updGate b f s) := by
  unfold updGate
  repeat (with_reducible first | assumption | apply updWld_keeps)

theorem declared_keeps (b : GateBlock) {s : State} (h : Keeps kp s0 s) :
    Keeps kp s0 (declared b s) := by
  unfold declared
  repeat (with_reducible first | assumption | apply updGate_keeps | apply draw_keeps | apply keeps_ite)

theorem execGateRequest_keepsRes (block : GateBlock) {s : State} (h : Keeps kp s0 s) :
    KeepsRes kp s0 (execGateRequest block s) := by
  unfold execGateRequest
  repeat (with_reducible first | assumption | apply declared_keeps | apply updGate_keeps | apply keepsRes_onlyIf)

theorem execUngateRequest_keepsRes (block : GateBlock) {s : State} (h : Keeps kp s0 s) :
    KeepsRes kp s0 (execUngateRequest block s) := by
  unfold execUngateRequest
  repeat (with_reducible first | assumption | apply updGate_keeps | apply keepsRes_onlyIf)

theorem execGateApply_keepsRes (block : GateBlock) {s : State} (h : Keeps kp s0 s) :
    KeepsRes kp s0 (execGateApply block s) := by
  unfold execGateApply
  repeat (with_reducible first | assumption | apply declared_keeps | apply updGate_keeps | apply keepsRes_onlyIf
                               | apply keeps_ite)

theorem execWorkUngate_keepsRes (block : GateBlock) {s : State} (h : Keeps kp s0 s) :
    KeepsRes kp s0 (execWorkUngate block s) := by
  unfold execWorkUngate
  repeat (with_reducible first | assumption | apply updGate_keeps | apply keepsRes_onlyIf)

theorem gatesDue_keeps {s : State} (h : Keeps kp s0 s) :
    Keeps kp s0 (gatesDue s) := by
  unfold gatesDue
  repeat (with_reducible first | assumption | apply updGate_keeps | apply keeps_ite | (apply keeps_foldl; intro s x h))

theorem execGateLate_keepsRes (block : GateBlock) {s : State} (h : Keeps kp s0 s) :
    KeepsRes kp s0 (execGateLate block s) := by
  unfold execGateLate
  repeat (with_reducible first | assumption | apply updWld_keeps | apply updGate_keeps | apply worldRecord_keeps
                               | apply keepsRes_onlyIf)

theorem monitorSets_keeps (address : Nat) {s : State} (h : Keeps kp s0 s) :
    Keeps kp s0 (monitorSets address s) := by
  unfold monitorSets
  repeat (with_reducible first | assumption | apply updWld_keeps | apply draw_keeps)

theorem execBlockedAccess_keepsRes (address : Nat) (write : Bool) {s : State} (h : Keeps kp s0 s) :
    KeepsRes kp s0 (execBlockedAccess address write s) := by
  unfold execBlockedAccess
  repeat (with_reducible first | assumption | apply monitorSets_keeps | apply updWld_keeps | apply emit_keeps
                               | apply worldRecord_keeps | apply keepsRes_onlyIf | apply keeps_ite)

theorem execAssignmentChangeRefused_keepsRes (w : World) {s : State} (h : Keeps kp s0 s) :
    KeepsRes kp s0 (execAssignmentChangeRefused w s) := by
  unfold execAssignmentChangeRefused
  repeat (with_reducible first | assumption | apply worldRecord_keeps | apply keepsRes_onlyIf)

theorem execDebugHalt_keepsRes (w : World) {s : State} (h : Keeps kp s0 s) :
    KeepsRes kp s0 (execDebugHalt w s) := by
  unfold execDebugHalt
  repeat (with_reducible first | assumption | apply updWorld_keeps | apply jtagSelect_keeps | apply keepsRes_onlyIf)

theorem execDebugResume_keepsRes (w : World) {s : State} (h : Keeps kp s0 s) :
    KeepsRes kp s0 (execDebugResume w s) := by
  unfold execDebugResume
  repeat (with_reducible first | assumption | apply updWorld_keeps | apply jtagSelect_keeps | apply keepsRes_onlyIf)

theorem flashWrite_keeps (addr : Nat) (b : Bytes) (f : Flash → Flash) {s : State} (h : Keeps kp s0 s) (h_flash :
    kp.flash = false) :
    Keeps kp s0 (flashWrite addr b f s) := by
  unfold flashWrite
  repeat (with_reducible first | assumption | apply emit_keeps | apply Keeps.put_flash)

theorem writeCtl_keeps (active : Nat) (trial : Bool) (previous : Nat) {s : State} (h : Keeps kp s0 s) (h_flash :
    kp.flash = false) :
    Keeps kp s0 (writeCtl active trial previous s) := by
  unfold writeCtl
  repeat (with_reducible first | assumption | apply flashWrite_keeps | apply keeps_ite)

theorem fwRecord_keeps (kind : Nat) (slot : Nat) (version : Bytes) {s : State} (h : Keeps kp s0 s) :
    Keeps kp s0 (fwRecord kind slot version s) := by
  unfold fwRecord
  repeat (with_reducible first | assumption | apply record_keeps)

theorem closeProps_keeps {s : State} (h : Keeps kp s0 s) :
    Keeps kp s0 (closeProps s) := by
  unfold closeProps
  repeat (with_reducible first | assumption | apply closeProp_keeps | (apply keeps_foldl; intro s x h))

theorem vaultRecord_keeps {s : State} (h : Keeps kp s0 s) :
    Keeps kp s0 (vaultRecord s) := by
  unfold vaultRecord
  repeat (with_reducible first | assumption | apply recordSeq_keeps)

theorem vaultTo_keeps (m : VaultMode) (cause : Nat) {s : State} (h : Keeps kp s0 s) :
    Keeps kp s0 (vaultTo m cause s) := by
  unfold vaultTo
  repeat (first | (with_reducible first | assumption | apply updVlt_keeps | apply closeProps_keeps
                                        | apply updKst_keeps | apply vaultRecord_keeps | apply setIntBoth_keeps
                                        | apply keeps_ite)
                | (show _ = _; rfl) | with_reducible exact fun x => x)

theorem lifeRecord_keeps (old : Nat) (new : Nat) (scope : Nat) {s : State} (h : Keeps kp s0 s) :
    Keeps kp s0 (lifeRecord old new scope s) := by
  unfold lifeRecord
  repeat (with_reducible first | assumption | apply record_keeps)

theorem transStart_keeps (target : Nat) {s : State} (h : Keeps kp s0 s) :
    Keeps kp s0 (transStart target s) := by
  unfold transStart
  repeat (first | (with_reducible first | assumption | apply updLcs_keeps | apply seqd_keeps | apply legErase_keeps
                                        | apply keeps_ite)
                | (show _ = _; rfl))

theorem sendRec_keeps (y : Bytes) {s : State} (h : Keeps kp s0 s) :
    Keeps kp s0 (sendRec y s) := by
  unfold sendRec
  repeat (with_reducible first | assumption | apply emit_keeps | apply keeps_ite)

theorem journalWith_keeps (ra : ProgResult) (rb : ProgResult) (kind : JKind) (proposal : Nat) (img : VaultImg) {s :
    State} (h : Keeps kp s0 s) :
    Keeps kp s0 (journalWith ra rb kind proposal img s) := by
  unfold journalWith
  repeat (first | (with_reducible first | assumption | apply sendRec_keeps | apply seqd_keeps | apply updVlt_keeps)
                | (show _ = _; rfl) | (with_reducible first | exact fun x => x | apply Keeps.put_bbr))

theorem journal_keeps (kind : JKind) (proposal : Nat) (img : VaultImg) {s : State} (h : Keeps kp s0 s) :
    Keeps kp s0 (journal kind proposal img s) := by
  unfold journal
  repeat (with_reducible first | assumption | apply journalWith_keeps)

theorem reserveIds_keeps {s : State} (h : Keeps kp s0 s) :
    Keeps kp s0 (reserveIds s) := by
  unfold reserveIds
  repeat (with_reducible first | assumption | apply journal_keeps)

theorem countPurge_keeps {s : State} (h : Keeps kp s0 s) :
    Keeps kp s0 (countPurge s) := by
  unfold countPurge
  repeat (first | (with_reducible first | assumption | apply updVlt_keeps) | (show _ = _; rfl)
                | with_reducible exact fun x => x)

theorem keepSnap_keeps {s : State} (h : Keeps kp s0 s) :
    Keeps kp s0 (keepSnap s) := by
  unfold keepSnap
  repeat (first | (with_reducible first | assumption | apply updVlt_keeps) | (show _ = _; rfl)
                | with_reducible exact fun x => x)

theorem stationBurns_keeps {s : State} (h : Keeps kp s0 s) (h_burn : kp.burn = false) : Keeps kp s0 (stationBurns s)
    := by
  unfold stationBurns
  refine keeps_ite (draw_keeps (keeps_ite ?_ (draw_keeps h))) h
  exact Keeps.step (s := s) h rfl (fun x => x) rfl rfl rfl rfl rfl rfl rfl rfl rfl rfl (Nat.le_refl _) (fun x => x)
    (fun _ => rfl) (fun x => Bool.noConfusion (x.symm.trans h_burn)) (fun _ => rfl) (fun _ => ⟨rfl, rfl⟩)

theorem execTrans_keepsRes (target : Nat) (key : Nat) {s : State} (h : Keeps kp s0 s) :
    KeepsRes kp s0 (execTrans target key s) := by
  unfold execTrans
  repeat (first | (with_reducible first | assumption | apply transStart_keeps | apply updLcs_keeps
                                        | apply jtagSelect_keeps | apply keepsRes_onlyIf | apply keeps_ite)
                | (show _ = _; rfl))

theorem transEnd_keeps {s : State} (h : Keeps kp s0 s) (h_burn : kp.burn = false) (h_life : kp.life = false) :
    Keeps kp s0 (transEnd s) := by
  have put (a : State) (k : Keeps kp s0 a) (v : Lcs) : Keeps kp s0 { a with lcs := v } := by
    obtain ⟨h1, t1, h2, h3, h8, h4, h5, h6, _⟩ := k
    exact ⟨h1, t1, h2, h3, h8, h4, h5, h6, fun x => by simp [h_life] at x⟩
  unfold transEnd
  refine lifeRecord_keeps _ _ _ (put _ (closeProps_keeps (vaultTo_keeps _ _ ?_)) _)
  exact Keeps.put_bbr (s := { s with fuses := burnCopies s.lcs.pendState s.fuses }) (h.put_fuses h_burn)

theorem dropChallenge_keeps {s : State} (h : Keeps kp s0 s) :
    Keeps kp s0 (dropChallenge s) := by
  unfold dropChallenge
  repeat (first | (with_reducible first | assumption | apply updLcs_keeps | apply updLat_keeps | apply updRng_keeps)
                | (show _ = _; rfl) | (with_reducible apply And.intro))

theorem dbgEnd_keeps (result : Nat) {s : State} (h : Keeps kp s0 s) :
    Keeps kp s0 (dbgEnd result s) := by
  unfold dbgEnd
  repeat (first | (with_reducible first | assumption | apply updLcs_keeps) | (show _ = _; rfl))

theorem execDbgGo_keepsRes (p : Port) (scope : Nat) {s : State} (h : Keeps kp s0 s) :
    KeepsRes kp s0 (execDbgGo p scope s) := by
  unfold execDbgGo
  repeat (first | (with_reducible first | assumption | apply updLcs_keeps | apply seqd_keeps | apply legTouch_keeps
                                        | apply dbgEnd_keeps | apply dropChallenge_keeps | apply cntWr_keeps
                                        | apply ask_keeps | apply keepsRes_onlyIf | apply keeps_ite)
                | (show _ = _; rfl))

theorem execRespGo_keepsRes (p : Port) {s : State} (h : Keeps kp s0 s) :
    KeepsRes kp s0 (execRespGo p s) := by
  unfold execRespGo
  repeat (first | (with_reducible first | assumption | apply dmaRead_keeps | apply updLcs_keeps | apply seqd_keeps
                                        | apply latEnqueue_keeps | apply legTouch_keeps | apply dbgEnd_keeps
                                        | apply dropChallenge_keeps | apply cntWr_keeps | apply keepsRes_onlyIf
                                        | apply keeps_ite)
                | (show _ = _; rfl))

theorem execChallengeExpiry_keepsRes {s : State} (h : Keeps kp s0 s) :
    KeepsRes kp s0 (execChallengeExpiry s) := by
  unfold execChallengeExpiry
  repeat (first | (with_reducible first | assumption | apply updLcs_keeps | apply keepsRes_onlyIf) | (show _ = _; rfl))

theorem grant_keeps {s : State} (h : Keeps kp s0 s) :
    Keeps kp s0 (grant s) := by
  unfold grant
  repeat (first | (with_reducible first | assumption | apply zeroiseKeys_keeps | apply updLcs_keeps
                                        | apply updWld_keeps | apply seqd_keeps | apply dbgEnd_keeps
                                        | apply legErase_keeps | apply lifeRecord_keeps | apply reap_keeps
                                        | apply keeps_ite)
                | (show _ = _; rfl))

theorem debugVerified_keeps {s : State} (h : Keeps kp s0 s) :
    Keeps kp s0 (debugVerified s) := by
  unfold debugVerified
  repeat (first | (with_reducible first | assumption | apply latCount_keeps | apply updLcs_keeps
                                        | apply updLat_keeps | apply dbgEnd_keeps | apply grant_keeps | apply keeps_ite)
                | (show _ = _; rfl))

theorem revokeFan_keeps (o : Nat) {s : State} (h : Keeps kp s0 s) :
    Keeps kp s0 (revokeFan o s) := by
  unfold revokeFan
  repeat (first | (with_reducible first | assumption | apply dropShadows_keeps | apply countPurge_keeps
                                        | apply updKst_keeps | apply mark_keeps | apply updSlc_keeps
                                        | (apply keeps_foldl; intro s x h))
                | (show _ = _; rfl)
                | (with_reducible first | exact fun x => x | exact twf_tupd _ _ _ _ | refine slcOk ?_ ?_))

theorem putOut_keeps (p : Proposal) (off : Nat) (data : Bytes) {s : State} (h : Keeps kp s0 s) :
    Keeps kp s0 (putOut p off data s) := by
  unfold putOut
  repeat (with_reducible first | assumption | apply portWrite_keeps)

theorem askSign_keeps (id : Nat) (off : Nat) (body : Bytes) {s : State} (h : Keeps kp s0 s) :
    Keeps kp s0 (askSign id off body s) := by
  unfold askSign
  repeat (with_reducible first | assumption | apply updProp_keeps | apply latEnqueue_keeps | apply ask_keeps
                               | apply keeps_ite)

theorem afterCommit_keeps (id : Nat) (p : Proposal) (head : Bytes) {s : State} (h : Keeps kp s0 s) :
    Keeps kp s0 (afterCommit id p head s) := by
  unfold afterCommit
  repeat (first | (with_reducible first | assumption | apply transStart_keeps | apply askSign_keeps
                                        | apply setFloor_keeps | apply updFwu_keeps | apply revokeFan_keeps
                                        | apply draw_keeps | apply record_keeps | apply recordSeq_keeps
                                        | apply updSlc_keeps | exact fun x => x | exact twf_tset _ _ _ _
                                        | refine slcOk ?_ ?_)
                | split | dsimp only)

theorem outputSigned_keeps (id : Nat) {s : State} (h : Keeps kp s0 s) :
    Keeps kp s0 (outputSigned id s) := by
  unfold outputSigned
  repeat (with_reducible first | assumption | apply latCount_keeps | apply outputDone_keeps | apply dropSign_keeps
                               | apply putOut_keeps | apply keeps_ite | (apply keeps_foldl; intro s x h))

theorem execLatticeOpDone_keepsRes {s : State} (h : Keeps kp s0 s) :
    KeepsRes kp s0 (execLatticeOpDone s) := by
  unfold execLatticeOpDone
  repeat (first | (with_reducible first | assumption | apply latCount_keeps | apply debugVerified_keeps
                                        | apply updLat_keeps | apply outputSigned_keeps | apply engineDone_keeps
                                        | apply latComplete_keeps | apply keepsRes_next | apply keepsRes_onlyIf)
                | split)

theorem idsReady_keeps (op : Nat) {s : State} (h : Keeps kp s0 s) :
    Keeps kp s0 (idsReady op s) := by
  unfold idsReady
  repeat (first | exact (fun _ => rfl)
                | (with_reducible first | assumption | apply updVlt_keeps | apply reserveIds_keeps | apply keeps_ite)
                | (show _ = _; rfl))

theorem maskKey_keepsSnd (key : Bytes) {s : State} (h : Keeps kp s0 s) :
    Keeps kp s0 (maskKey key s).2 := by
  unfold maskKey
  repeat (first | (with_reducible first | assumption | apply draw_keeps) | split)

theorem openProposal_keeps (t : Nat) (r : Bytes) (key : Bytes) (pol : Policy) {s : State} (h : Keeps kp s0 s) :
    Keeps kp s0 (openProposal t r key pol s) := by
  unfold openProposal
  repeat (first | exact (fun x => twf_tput _ _ _ _ x (fun e => by cases e))
                | (with_reducible first | assumption | apply done_keeps | apply maskKey_keepsSnd
                                        | apply idsReady_keeps | apply updVlt_keeps | apply dmaWriteMps_keeps)
                | (show _ = _; rfl))

theorem giveBack_keeps (t : Nat) {s : State} (h : Keeps kp s0 s) :
    Keeps kp s0 (giveBack t s) := by
  unfold giveBack
  repeat (first | (with_reducible first | assumption | apply serveAll_keeps | apply updRng_keeps | apply keeps_ite)
                | (show _ = _; rfl) | (with_reducible apply And.intro))

theorem runPropose_keeps (t : Nat) {s : State} (h : Keeps kp s0 s) :
    Keeps kp s0 (runPropose t s) := by
  unfold runPropose
  repeat (with_reducible first | assumption | apply done_keeps | apply giveBack_keeps | apply openProposal_keeps
                               | apply keeps_ite)

theorem execPropose_keepsRes (tag : Nat) {s : State} (h : Keeps kp s0 s) :
    KeepsRes kp s0 (execPropose tag s) := by
  unfold execPropose
  repeat (with_reducible first | assumption | apply latCarriage_keeps | apply updCarr_keeps | apply readBuffer_keeps
                               | apply runPropose_keeps | apply keepsRes_next | apply keepsRes_onlyIf
                               | apply keepsRes_ite | apply keeps_ite)

theorem oldOutcome_keeps (t : Nat) (id : Nat) {s : State} (h : Keeps kp s0 s) :
    Keeps kp s0 (oldOutcome t id s) := by
  unfold oldOutcome
  repeat (with_reducible first | assumption | apply done_keeps | apply draw_keeps | apply keeps_ite)

theorem judge_keeps (t : Nat) {s : State} (h : Keeps kp s0 s) :
    Keeps kp s0 (judge t s) := by
  unfold judge
  repeat (with_reducible first | assumption | apply done_keeps | apply updProp_keeps | apply closeProp_keeps
                               | apply oldOutcome_keeps | apply keeps_ite)

theorem execApprove_keepsRes (tag : Nat) {s : State} (h : Keeps kp s0 s) :
    KeepsRes kp s0 (execApprove tag s) := by
  unfold execApprove
  repeat (with_reducible first | assumption | apply latCarriage_keeps | apply bnvEnqueue_keeps | apply updCarr_keeps
                               | apply readBuffer_keeps | apply judge_keeps | apply keepsRes_next
                               | apply keepsRes_onlyIf | apply keepsRes_ite | apply keeps_ite)

theorem execQueryProposal_keepsRes (tag : Nat) {s : State} (h : Keeps kp s0 s) :
    KeepsRes kp s0 (execQueryProposal tag s) := by
  unfold execQueryProposal
  repeat (with_reducible first | assumption | apply done_keeps | apply oldOutcome_keeps | apply keepsRes_onlyIf
                               | apply keeps_ite)

theorem execQrmWindowEnd_keepsRes (proposal : Nat) {s : State} (h : Keeps kp s0 s) :
    KeepsRes kp s0 (execQrmWindowEnd proposal s) := by
  unfold execQrmWindowEnd
  repeat (with_reducible first | assumption | apply closeProp_keeps | apply keepsRes_onlyIf)

theorem progOne_keeps (b : Bool) (r : ProgResult) (y : Bytes) {s : State} (h : Keeps kp s0 s) :
    Keeps kp s0 (progOne b r y s) := by
  unfold progOne
  repeat (first | (with_reducible first | assumption | apply updVlt_keeps | apply emit_keeps) | (show _ = _; rfl)
                | with_reducible exact fun x => x | split)

theorem devFailed_keeps (b : Bool) {s : State} (h : Keeps kp s0 s) :
    Keeps kp s0 (devFailed b s) := by
  unfold devFailed
  repeat (first | (with_reducible first | assumption | apply updVlt_keeps) | (show _ = _; rfl)
                | with_reducible exact fun x => x | split)

theorem commitFailA_keeps (id : Nat) (r : ProgResult) (y : Bytes) {s : State} (h : Keeps kp s0 s) :
    Keeps kp s0 (commitFailA id r y s) := by
  unfold commitFailA
  repeat (with_reducible first | assumption | apply vaultTo_keeps | apply devFailed_keeps | apply closeProp_keeps
                               | apply progOne_keeps | apply keeps_ite)

theorem commitFailB_keeps (id : Nat) (jr : JRec) (ra : ProgResult) (rb : ProgResult) (void : ProgResult) {s : State}
    (h : Keeps kp s0 s) :
    Keeps kp s0 (commitFailB id jr ra rb void s) := by
  unfold commitFailB
  repeat (with_reducible first | assumption | apply vaultTo_keeps | apply enterFault_keeps | apply devFailed_keeps
                               | apply closeProp_keeps | apply progOne_keeps | apply keeps_ite)

theorem countCommit_keeps (latency : Nat) {s : State} (h : Keeps kp s0 s) :
    Keeps kp s0 (countCommit latency s) := by
  unfold countCommit
  repeat (first | (with_reducible first | assumption | apply updVlt_keeps) | (show _ = _; rfl)
                | with_reducible exact fun x => x)

theorem commitDone_keeps (id : Nat) {s : State} (h : Keeps kp s0 s) :
    Keeps kp s0 (commitDone id s) := by
  unfold commitDone
  repeat (with_reducible first | assumption | apply updProp_keeps | apply outputDone_keeps | apply countCommit_keeps
                               | apply updFwu_keeps | apply keeps_ite)

theorem commitInit_keeps (id : Nat) (ra : ProgResult) (rb : ProgResult) {s : State} (h : Keeps kp s0 s) :
    Keeps kp s0 (commitInit id ra rb s) := by
  unfold commitInit
  refine commitDone_keeps _ (vaultTo_keeps _ _ (seqd_keeps (sendRec_keeps _ ?_)))
  exact Keeps.step (s := s) h rfl (fun x => x) rfl rfl rfl rfl rfl rfl rfl rfl rfl rfl (Nat.le_refl _) (fun x => x)
    (fun _ => rfl) (fun _ => rfl) (fun _ => rfl) (fun _ => ⟨rfl, rfl⟩)

theorem commitNow_keeps (id : Nat) (ra : ProgResult) (rb : ProgResult) {s : State} (h : Keeps kp s0 s) :
    Keeps kp s0 (commitNow id ra rb s) := by
  unfold commitNow
  repeat (with_reducible first | assumption | apply afterCommit_keeps | apply journalWith_keeps | apply commitDone_keeps
                               | apply keepSnap_keeps | apply keeps_ite)

theorem beginCommit_keeps (proposal : Nat) {s : State} (h : Keeps kp s0 s) :
    Keeps kp s0 (beginCommit proposal s) := by
  unfold beginCommit
  repeat (first | (with_reducible first | assumption | apply askSign_keeps | apply updProp_keeps
                                        | apply updCarr_keeps | apply draw_keeps | apply keeps_ite)
                | split)

theorem execVaultCommit_keepsRes (proposal : Nat) (a : ProgResult) (b : ProgResult) (void : ProgResult) {s : State} (h
    : Keeps kp s0 s) :
    KeepsRes kp s0 (execVaultCommit proposal a b void s) := by
  unfold execVaultCommit
  repeat (with_reducible first | assumption | apply commitInit_keeps | apply commitNow_keeps | apply closeProp_keeps
                               | apply commitFailB_keeps | apply commitFailA_keeps | apply beginCommit_keeps
                               | apply keepsRes_next | apply keepsRes_onlyIf | apply keepsRes_ite | apply keeps_ite)

theorem copyAlarms_keeps {s : State} (h : Keeps kp s0 s) :
    Keeps kp s0 (copyAlarms s) := by
  unfold copyAlarms
  repeat (with_reducible first | assumption | apply record_keeps | apply keeps_ite | (apply keeps_foldl; intro s x h)
                               | apply Keeps.put_bbr)

theorem admitHeld_keeps {s : State} (h : Keeps kp s0 s) :
    Keeps kp s0 (admitHeld s) := by
  unfold admitHeld
  repeat (with_reducible first | assumption | apply runAdmission_keeps | apply keeps_ite
                               | (apply keeps_foldl; intro s x h))

theorem execVaultOpen_keepsRes {s : State} (h : Keeps kp s0 s) :
    KeepsRes kp s0 (execVaultOpen s) := by
  unfold execVaultOpen
  repeat (first | (with_reducible first | assumption | apply vaultTo_keeps | apply admitHeld_keeps
                                        | apply setFloor_keeps | apply updVlt_keeps | apply countPurge_keeps
                                        | apply copyAlarms_keeps | apply reserveIds_keeps | apply keepsRes_onlyIf
                                        | apply keeps_ite)
                | (show _ = _; rfl) | (with_reducible first | exact fun x => x | apply And.intro | apply Keeps.put_chp)
                | split)

theorem execVaultRebuildDone_keepsRes {s : State} (h : Keeps kp s0 s) :
    KeepsRes kp s0 (execVaultRebuildDone s) := by
  unfold execVaultRebuildDone
  repeat (first | (with_reducible first | assumption | apply vaultTo_keeps | apply updVlt_keeps
                                        | apply countPurge_keeps | apply keepsRes_onlyIf)
                | (show _ = _; rfl) | with_reducible exact fun x => x)

theorem execVaultSettle_keepsRes {s : State} (h : Keeps kp s0 s) :
    KeepsRes kp s0 (execVaultSettle s) := by
  unfold execVaultSettle
  repeat (first | (with_reducible first | assumption | apply draw_keeps | apply journal_keeps | apply updVlt_keeps
                                        | apply countPurge_keeps | apply keepsRes_onlyIf)
                | (show _ = _; rfl) | with_reducible exact fun x => x)

theorem scrubDev_keeps (code : Nat) (dev : Nat) (lo : Nat) (hi : Nat) (d : VaultDev) {s : State} (h : Keeps kp s0 s) :
    Keeps kp s0 (scrubDev code dev lo hi d s) := by
  unfold scrubDev
  repeat (with_reducible first | assumption | apply emit_keeps | apply keeps_ite | (apply keeps_foldl; intro s x h))

theorem execVaultScrub_keepsRes (percent : Nat) {s : State} (h : Keeps kp s0 s) :
    KeepsRes kp s0 (execVaultScrub percent s) := by
  unfold execVaultScrub
  repeat (first | (with_reducible first | assumption | apply draw_keeps | apply scrubDev_keeps | apply updVlt_keeps
                                        | apply keepsRes_onlyIf)
                | (show _ = _; rfl) | with_reducible exact fun x => x)

theorem sense_keeps (i : Nat) (v : Nat) {s : State} (h : Keeps kp s0 s) :
    Keeps kp s0 (sense i v s) := by
  unfold sense
  repeat (first | (with_reducible first | assumption | apply updTmp_keeps | apply keeps_ite) | (show _ = _; rfl))

theorem bufferAlarm_keeps (r : Bytes) {s : State} (h : Keeps kp s0 s) :
    Keeps kp s0 (bufferAlarm r s) := by
  unfold bufferAlarm
  repeat (with_reducible first | assumption | apply Keeps.put_bbr)

theorem writeAlarms_keeps (r : AlarmResp) {s : State} (h : Keeps kp s0 s) :
    Keeps kp s0 (writeAlarms r s) := by
  unfold writeAlarms
  repeat (with_reducible first | assumption | apply bufferAlarm_keeps | apply recordAt_keeps
                               | (apply keeps_foldl; intro s x h))

theorem stopTags_keeps (ts : List Nat) {s : State} (h : Keeps kp s0 s) :
    Keeps kp s0 (stopTags ts s) := by
  unfold stopTags
  repeat (with_reducible first | assumption | apply stopOne_keeps | (apply keeps_foldl; intro s x h))

theorem eraseAB_keeps {s : State} (h : Keeps kp s0 s) :
    Keeps kp s0 (eraseAB s) := by
  unfold eraseAB
  repeat (with_reducible first | assumption | apply zeroiseKeys_keeps | apply latEnd_keeps | apply debugLost_keeps
                               | apply legErase_keeps | apply reap_keeps | apply ucpClear_keeps | apply stopAll_keeps
                               | apply stopTags_keeps | apply signLost_keeps | apply ucpEnd_keeps | apply keeps_ite
                               | (apply keeps_foldl; intro s x h))

theorem eraseA_keeps {s : State} (h : Keeps kp s0 s) :
    Keeps kp s0 (eraseA s) := by
  unfold eraseA
  repeat (first | (with_reducible first | assumption | apply chanZeroise_keeps | apply closeProps_keeps
                                        | apply updKst_keeps | apply rngZeroise_keeps | apply stopTags_keeps)
                | (show _ = _; rfl) | (with_reducible first | exact fun x => x | apply Keeps.put_bbr))

theorem stopAfter_keeps (isA : Bool) (isAB : Bool) {s : State} (h : Keeps kp s0 s) :
    Keeps kp s0 (stopAfter isA isAB s) := by
  unfold stopAfter
  repeat (first | (with_reducible first | assumption | apply vaultTo_keeps | apply updRng_keeps | apply updTmp_keeps
                                        | apply keeps_ite)
                | (show _ = _; rfl) | (with_reducible apply And.intro))

theorem finishResponse_keeps {s : State} (h : Keeps kp s0 s) :
    Keeps kp s0 (finishResponse s) := by
  unfold finishResponse
  repeat (first | (with_reducible first | assumption | apply eraseAB_keeps | apply eraseA_keeps | apply seqd_keeps
                                        | apply legErase_keeps | apply writeAlarms_keeps | apply setIntBoth_keeps
                                        | apply updTmp_keeps | apply stopAfter_keeps | apply keeps_ite)
                | (show _ = _; rfl) | split)

theorem respDue_keeps {s : State} (h : Keeps kp s0 s) :
    Keeps kp s0 (respDue s) := by
  unfold respDue
  repeat (first | (with_reducible first | assumption | apply finishResponse_keeps) | split)

theorem raise_keeps (source : Nat) (cls : AlarmClass) (value : Nat) {s : State} (h : Keeps kp s0 s) :
    Keeps kp s0 (raise source cls value s) := by
  unfold raise
  repeat (first | (with_reducible first | assumption | apply respDue_keeps | apply updGov_keeps | apply draw_keeps
                                        | apply updTmp_keeps | apply keeps_ite)
                | (show _ = _; rfl) | with_reducible exact fun x => x)

theorem lightEnd_keeps {s : State} (h : Keeps kp s0 s) :
    Keeps kp s0 (lightEnd s) := by
  unfold lightEnd
  repeat (first | (with_reducible first | assumption | apply writeAlarms_keeps | apply updTmp_keeps) | split
                | dsimp only)

theorem lightDue_keeps {s : State} (h : Keeps kp s0 s) :
    Keeps kp s0 (lightDue s) := by
  unfold lightDue
  repeat (with_reducible first | assumption | apply lightEnd_keeps | apply keeps_ite)

theorem settleAlarms_keeps {s : State} (h : Keeps kp s0 s) :
    Keeps kp s0 (settleAlarms s) := by
  unfold settleAlarms
  repeat (with_reducible first | assumption | apply finishResponse_keeps | apply lightEnd_keeps | apply keeps_ite)

theorem execLightDetect_keepsRes (photodiode : Bool) {s : State} (h : Keeps kp s0 s) :
    KeepsRes kp s0 (execLightDetect photodiode s) := by
  unfold execLightDetect
  repeat (first | (with_reducible first | assumption | apply draw_keeps | apply lightDue_keeps | apply raise_keeps
                                        | apply updTmp_keeps | apply keepsRes_onlyIf | apply keeps_ite)
                | (show _ = _; rfl))

theorem execLightAgreementEnd_keepsRes {s : State} (h : Keeps kp s0 s) :
    KeepsRes kp s0 (execLightAgreementEnd s) := by
  unfold execLightAgreementEnd
  repeat (with_reducible first | assumption | apply lightEnd_keeps | apply keepsRes_onlyIf)

theorem execLoopMeasure_keepsRes (loop : Nat) (tenOhms : Nat) {s : State} (h : Keeps kp s0 s) :
    KeepsRes kp s0 (execLoopMeasure loop tenOhms s) := by
  unfold execLoopMeasure
  repeat (first | (with_reducible first | assumption | apply sense_keeps | apply raise_keeps | apply updTmp_keeps
                                        | apply keepsRes_onlyIf | apply keeps_ite)
                | (show _ = _; rfl))

theorem raiseBoth_keeps (source : Nat) (value : Nat) (isB : Bool) (isC : Bool) {s : State} (h : Keeps kp s0 s) :
    Keeps kp s0 (raiseBoth source value isB isC s) := by
  unfold raiseBoth
  repeat (with_reducible first | assumption | apply raise_keeps | apply keeps_ite)

theorem execVoltageAlarm_keepsRes (rail : Rail) (millivolts : Nat) {s : State} (h : Keeps kp s0 s) :
    KeepsRes kp s0 (execVoltageAlarm rail millivolts s) := by
  unfold execVoltageAlarm
  repeat (with_reducible first | assumption | apply sense_keeps | apply raiseBoth_keeps | apply keepsRes_onlyIf)

theorem execClockAlarm_keepsRes (cond : ClockCond) {s : State} (h : Keeps kp s0 s) :
    KeepsRes kp s0 (execClockAlarm cond s) := by
  unfold execClockAlarm
  repeat (first | (with_reducible first | assumption | apply sense_keeps | apply draw_keeps | apply raise_keeps
                                        | apply raiseBoth_keeps | apply keepsRes_onlyIf)
                | split)

theorem execTemperatureAlarm_keepsRes (tenths : Int) {s : State} (h : Keeps kp s0 s) :
    KeepsRes kp s0 (execTemperatureAlarm tenths s) := by
  unfold execTemperatureAlarm
  repeat (with_reducible first | assumption | apply sense_keeps | apply raiseBoth_keeps | apply keepsRes_onlyIf)

theorem execSourceInactive_keepsRes (source : Nat) (cls : AlarmClass) {s : State} (h : Keeps kp s0 s) :
    KeepsRes kp s0 (execSourceInactive source cls s) := by
  unfold execSourceInactive
  repeat (first | (with_reducible first | assumption | apply updTmp_keeps | apply keepsRes_next | apply keepsRes_onlyIf)
                | (show _ = _; rfl) | split | with_reducible apply Keeps.put_bbr)

theorem execTmpResume_keepsRes (p : Port) {s : State} (h : Keeps kp s0 s) :
    KeepsRes kp s0 (execTmpResume p s) := by
  unfold execTmpResume
  repeat (first | (with_reducible first | assumption | apply seqd_keeps | apply legTouch_keeps | apply updTmp_keeps
                                        | apply cntWr_keeps | apply keepsRes_onlyIf | apply keeps_ite)
                | (show _ = _; rfl))

theorem execRngAutoRestart_keepsRes {s : State} (h : Keeps kp s0 s) :
    KeepsRes kp s0 (execRngAutoRestart s) := by
  unfold execRngAutoRestart
  repeat (first | (with_reducible first | assumption | apply rngStart_keeps | apply updTmp_keeps
                                        | apply keepsRes_onlyIf)
                | (show _ = _; rfl))

theorem execTmpSelftest_keepsRes (photodiodesOk : Bool) (canariesOk : Bool) {s : State} (h : Keeps kp s0 s) :
    KeepsRes kp s0 (execTmpSelftest photodiodesOk canariesOk s) := by
  unfold execTmpSelftest
  repeat (first | (with_reducible first | assumption | apply draw_keeps | apply raise_keeps | apply updTmp_keeps
                                        | apply keepsRes_onlyIf | apply keeps_ite)
                | (show _ = _; rfl))

theorem execBackupAlarm_keepsRes (source : Nat) (reading : Nat) {s : State} (h : Keeps kp s0 s) :
    KeepsRes kp s0 (execBackupAlarm source reading s) := by
  unfold execBackupAlarm
  repeat (with_reducible first | assumption | apply bufferAlarm_keeps | apply keepsRes_onlyIf | apply keeps_ite
                               | apply Keeps.put_bbr)

end Sys2Proof.Laws
end

