-- ==== Sys2Proof/Laws/KeepsSystem.lean ====
section
/-! SUPPORT. What the operations and commands of boot, firmware, drawbar, power, ports and registers keep, and a tick.
    -/
namespace Sys2Proof.Laws

open Sys2Proof.Machine Sys2Proof.Safety

variable {kp : Kept} {s0 s : State}

theorem execPorstNAssert_keepsRes {s : State} (h : Keeps kp s0 s) (h_seq : kp.seq = false) (h_fault : kp.fault =
    false) (h_time : kp.time = false)
    (h_burn : kp.burn = false) (h_life : kp.life = false) : KeepsRes kp s0 (execPorstNAssert s) := by
  have a : Keeps kp s0 (if s.chp.inReset = true then s else settleAlarms s) := keeps_ite h (settleAlarms_keeps h)
  unfold execPorstNAssert
  exact keepsRes_onlyIf a (Keeps.unsequenced a h_seq (fun x => Bool.noConfusion (x.symm.trans h_fault)) rfl (fun _ =>
      by rfl) (fun _ => by rfl)
    (fun x => Bool.noConfusion (x.symm.trans h_time)) (fun x => Bool.noConfusion (x.symm.trans h_burn)) (fun _ => rfl)
    (fun x => Bool.noConfusion (x.symm.trans h_life)))

theorem fuseBoot_keeps {s : State} (h : Keeps kp s0 s) (h_burn : kp.burn = false) (h_life : kp.life = false) :
    Keeps kp s0 (fuseBoot s) :=
  Keeps.step (s := s) h rfl (fun x => x) rfl rfl rfl rfl rfl rfl rfl rfl rfl rfl (Nat.le_refl _) (fun x => x)
    (fun _ => rfl) (fun x => Bool.noConfusion (x.symm.trans h_burn)) (fun _ => rfl) (fun x => Bool.noConfusion
        (x.symm.trans h_life))

theorem backupBoot_keeps {s : State} (h : Keeps kp s0 s) (h_burn : kp.burn = false) : Keeps kp s0 (backupBoot s) :=
  Keeps.step (s := s) h rfl (fun x => x) rfl rfl rfl rfl rfl rfl rfl rfl rfl rfl (Nat.le_refl _) (fun x => x)
    (fun _ => rfl) (fun x => Bool.noConfusion (x.symm.trans h_burn)) (fun _ => rfl) (fun _ => ⟨rfl, rfl⟩)

theorem applyManifest_keeps (m : Manifest) {s : State} (h : Keeps kp s0 s) : Keeps kp s0 (applyManifest m s) :=
  Keeps.step (s := s) h rfl (fun x => x) rfl rfl rfl rfl rfl rfl rfl rfl rfl rfl (Nat.le_refl _) (fun x => x)
    (fun _ => rfl) (fun _ => rfl) (fun _ => rfl) (fun _ => ⟨rfl, rfl⟩)

theorem openEvents_keeps {s : State} (h : Keeps kp s0 s) : Keeps kp s0 (openEvents s) := by
  have e (t : State) (k : Keeps kp s0 t) (l : List EvRec) :
      Keeps kp s0 (l.foldl (fun s r => recordAt r.type r.time r.payload s) t) :=
    keeps_foldl (fun s r k => recordAt_keeps _ _ _ k) k l
  unfold openEvents
  refine fullInt_keeps _ (keeps_ite (updEvr_keeps (setFloor_keeps _ (e _ (record_keeps _ _ ?_) _)) rfl) (e _
      (record_keeps _ _ ?_) _)) <;>
    exact h.put_evr rfl

theorem mnfRecords_keeps (m : Manifest) {s : State} (h : Keeps kp s0 s) :
    Keeps kp s0 (mnfRecords m s) := by
  unfold mnfRecords
  repeat (with_reducible first | assumption | apply record_keeps | (apply keeps_foldl; intro s x h))

theorem worldsStart_keeps (img : Bytes) {s : State} (h : Keeps kp s0 s) :
    Keeps kp s0 (worldsStart img s) := by
  unfold worldsStart
  repeat (with_reducible first | assumption | apply updWld_keeps)

theorem advanceArb_keeps {s : State} (h : Keeps kp s0 s) (h_burn : kp.burn = false) :
    Keeps kp s0 (advanceArb s) := by
  unfold advanceArb
  repeat (with_reducible first | assumption | apply updFwu_keeps | apply keeps_ite | apply Keeps.put_fuses)

theorem startPorts_keeps (env : BootEnv) {s : State} (h : Keeps kp s0 s) :
    Keeps kp s0 (startPorts env s) := by
  unfold startPorts
  repeat (with_reducible first | assumption | apply emit_keeps | apply keeps_ite | apply Keeps.put_hpt)

theorem bootImage_keeps (env : BootEnv) (n : Nat) (c : MnfChoice) {s : State} (h : Keeps kp s0 s)
    (h_seq : kp.seq = false) (h_fault : kp.fault = false) (h_burn : kp.burn = false) (h_life : kp.life = false) :
    Keeps kp s0 (bootImage env n c s) := by
  unfold bootImage
  dsimp only
  have start (b : State) (k : Keeps kp s0 b) (m : Mode) : Keeps kp s0 (seqd { b with
      chp := { b.chp with mode := m, bootLock := true }, wld := { b.wld with assignLock := true } }) :=
    seqd_keeps (Keeps.unsequenced (s := b) k h_seq (fun x => Bool.noConfusion (x.symm.trans h_fault)) rfl (fun x => x)
        (fun x => x) (fun _ => rfl) (fun _ => rfl) (fun _ => rfl)
      (fun _ => ⟨rfl, rfl⟩))
  have fin (d : State) (k : Keeps kp s0 d) : Keeps kp s0
      (if (if d.fwu.arbDue = true then advanceArb d else d).lcs.state == LifeState.field &&
          (openVault (if d.fwu.arbDue = true then advanceArb d else d)).img.returnDue then
        transStart 7 (if d.fwu.arbDue = true then advanceArb d else d)
      else if d.fwu.arbDue = true then advanceArb d else d) := by
    have e : Keeps kp s0 (if d.fwu.arbDue = true then advanceArb d else d) := keeps_ite (advanceArb_keeps k h_burn) k
    exact keeps_ite (transStart_keeps _ e) e
  refine fin _ (start _ (worldsStart_keeps _ (rngStart_keeps (mnfRecords_keeps _ (openEvents_keeps
    (applyManifest_keeps _ ?_))))) _)
  exact Keeps.step (s := s) h rfl (fun x => x) rfl rfl rfl rfl rfl rfl rfl rfl rfl rfl (Nat.le_refl _) (fun x => x)
      (fun _ => rfl)
    (fun _ => rfl) (fun _ => rfl) (fun x => Bool.noConfusion (x.symm.trans h_life))

theorem bootRecovery_keeps (env : BootEnv) {s : State} (h : Keeps kp s0 s) (h_seq : kp.seq = false) (h_fault :
    kp.fault = false) (h_life : kp.life = false) :
    Keeps kp s0 (bootRecovery env s) :=
  Keeps.unsequenced (s := s) h h_seq (fun x => Bool.noConfusion (x.symm.trans h_fault)) rfl (fun x => x) (fun x => x)
      (fun _ => rfl) (fun _ => rfl) (fun _ => rfl)
    (fun x => Bool.noConfusion (x.symm.trans h_life))

theorem bootRest_keeps (env : BootEnv) {s : State} (h : Keeps kp s0 s) (h_seq : kp.seq = false) (h_fault : kp.fault =
    false) (h_burn : kp.burn = false) (h_life : kp.life = false) :
    Keeps kp s0 (bootRest env s) := by
  unfold bootRest
  repeat (first | (with_reducible first | assumption | apply bootImage_keeps | apply startPorts_keeps
                                        | apply bootRecovery_keeps | apply backupBoot_keeps)
                | split)

theorem bootOn_keeps (env : BootEnv) {s : State} (h : Keeps kp s0 s) (h_seq : kp.seq = false) (h_fault : kp.fault =
    false) (h_burn : kp.burn = false) (h_life : kp.life = false) :
    Keeps kp s0 (bootOn env s) := by
  unfold bootOn
  exact keeps_ite (h.put_chp (fun x => x)) (bootRest_keeps _ (h.put_chp (fun x => x)) h_seq h_fault h_burn h_life)

theorem execBoot_keepsRes (env : BootEnv) {s : State} (h : Keeps kp s0 s) (h_seq : kp.seq = false) (h_fault : kp.fault
    = false)
    (h_burn : kp.burn = false) (h_life : kp.life = false) : KeepsRes kp s0 (execBoot env s) := by
  unfold execBoot
  dsimp only
  have b : Keeps kp s0 (fuseBoot { s with
      chp := { s.chp with inReset := false }
      pins := { pfail := env.pfail, haClkmode := env.haClkmode, hbClkmode := env.hbClkmode, drbHead := env.drbHead }
      gov := { s.gov with pfail := env.pfail }
      drb := { s.drb with head := env.drbHead, selIn := env.selIn } }) :=
    fuseBoot_keeps (Keeps.step (s := s) h rfl (fun x => x) rfl rfl rfl rfl rfl rfl rfl rfl rfl rfl (Nat.le_refl _)
        (fun x => x)
    (fun _ => rfl) (fun _ => rfl) (fun _ => rfl) (fun _ => ⟨rfl, rfl⟩)) h_burn h_life
  exact keepsRes_onlyIf h (keeps_ite (startPorts_keeps _ b)
    (keeps_ite (Keeps.put_chp b (fun x => x)) (bootOn_keeps _ b h_seq h_fault h_burn h_life)))

theorem execFuseBurnDone_keepsRes {s : State} (h : Keeps kp s0 s) (h_seq : kp.seq = false) (h_fault : kp.fault =
    false) (h_burn : kp.burn = false) (h_life : kp.life = false) :
    KeepsRes kp s0 (execFuseBurnDone s) := by
  have a := transEnd_keeps h h_burn h_life
  unfold execFuseBurnDone
  refine keepsRes_onlyIf h ?_
  split
  · exact keeps_ite (bootOn_keeps _ a h_seq h_fault h_burn h_life) a
  · exact a

theorem tokenEffect_keeps {s : State} (h : Keeps kp s0 s) (h_seq : kp.seq = false) (h_fault : kp.fault = false)
    (h_burn : kp.burn = false) (h_life : kp.life = false) :
    Keeps kp s0 (tokenEffect s) := by
  have a : Keeps kp s0 (updLcs (fun l => { l with unlocked := true }) s) := updLcs_keeps h rfl
  unfold tokenEffect
  refine keeps_ite ?_ (updLcs_keeps h rfl)
  dsimp only
  split
  · exact keeps_ite a (bootOn_keeps _ a h_seq h_fault h_burn h_life)
  · exact a

theorem execTokenUse_keepsRes (index : Nat) (token : Bytes) {s : State} (h : Keeps kp s0 s) (h_seq : kp.seq = false)
    (h_fault : kp.fault = false) (h_burn : kp.burn = false) (h_life : kp.life = false) :
    KeepsRes kp s0 (execTokenUse index token s) := by
  have j := jtagSelect_keeps .lcsWrite h
  unfold execTokenUse
  exact keepsRes_onlyIf j (keeps_ite (updLcs_keeps j rfl) (keeps_ite (updLcs_keeps j rfl) (keeps_ite (updLcs_keeps j
      rfl)
    (tokenEffect_keeps (j.put_fuses h_burn) h_seq h_fault h_burn h_life))))

theorem putSlot_keeps (n : Nat) (written : Bytes) (kept : Bytes) {s : State} (h : Keeps kp s0 s) (h_flash : kp.flash =
    false) :
    Keeps kp s0 (putSlot n written kept s) := by
  unfold putSlot
  repeat (with_reducible first | assumption | apply flashWrite_keeps)

theorem eraseSlot_keeps {s : State} (h : Keeps kp s0 s) (h_flash : kp.flash = false) :
    Keeps kp s0 (eraseSlot s) := by
  unfold eraseSlot
  repeat (with_reducible first | assumption | apply putSlot_keeps)

theorem stageEnd_keeps (code : Nat) {s : State} (h : Keeps kp s0 s) :
    Keeps kp s0 (stageEnd code s) := by
  unfold stageEnd
  repeat (with_reducible first | assumption | apply updFwu_keeps | apply setInt_keeps)

theorem stageStart_keeps (p : Port) (target : Nat) (most : Nat) {s : State} (h : Keeps kp s0 s) :
    Keeps kp s0 (stageStart p target most s) := by
  unfold stageStart
  repeat (with_reducible first | assumption | apply dmaRead_keeps | apply updFwu_keeps | apply stageEnd_keeps
                               | apply keeps_ite)

theorem execStageImage_keepsRes (p : Port) {s : State} (h : Keeps kp s0 s) (h_flash : kp.flash = false) :
    KeepsRes kp s0 (execStageImage p s) := by
  unfold execStageImage
  repeat (with_reducible first | assumption | apply seqd_keeps | apply eraseSlot_keeps | apply legTouch_keeps
                               | apply stageStart_keeps | apply cntWr_keeps | apply keepsRes_onlyIf | apply keeps_ite)

theorem execStageManifest_keepsRes (p : Port) {s : State} (h : Keeps kp s0 s) :
    KeepsRes kp s0 (execStageManifest p s) := by
  unfold execStageManifest
  repeat (with_reducible first | assumption | apply seqd_keeps | apply legTouch_keeps | apply stageStart_keeps
                               | apply cntWr_keeps | apply keepsRes_onlyIf)

theorem execStageAbort_keepsRes (p : Port) {s : State} (h : Keeps kp s0 s) :
    KeepsRes kp s0 (execStageAbort p s) := by
  unfold execStageAbort
  repeat (with_reducible first | assumption | apply updFwu_keeps | apply seqd_keeps | apply legTouch_keeps
                               | apply cntWr_keeps | apply keepsRes_onlyIf | apply keeps_ite)

theorem stageImageEnd_keeps (data : Bytes) {s : State} (h : Keeps kp s0 s) (h_flash : kp.flash = false) :
    Keeps kp s0 (stageImageEnd data s) := by
  unfold stageImageEnd
  repeat (with_reducible first | assumption | apply fwRecord_keeps | apply stageEnd_keeps | apply putSlot_keeps
                               | apply emit_keeps)

theorem stageManifestEnd_keeps (data : Bytes) (flashOk : Bool) {s : State} (h : Keeps kp s0 s) (h_flash : kp.flash =
    false) :
    Keeps kp s0 (stageManifestEnd data flashOk s) := by
  unfold stageManifestEnd
  repeat (with_reducible first | assumption | apply flashWrite_keeps | apply fwRecord_keeps | apply stageEnd_keeps
                               | apply draw_keeps | apply keeps_ite)

theorem execStageDone_keepsRes (flashOk : Bool) {s : State} (h : Keeps kp s0 s) (h_flash : kp.flash = false) :
    KeepsRes kp s0 (execStageDone flashOk s) := by
  unfold execStageDone
  repeat (with_reducible first | assumption | apply stageManifestEnd_keeps | apply stageEnd_keeps
                               | apply stageImageEnd_keeps | apply keepsRes_onlyIf | apply keeps_ite)

theorem actEnd_keeps (code : Nat) {s : State} (h : Keeps kp s0 s) :
    Keeps kp s0 (actEnd code s) := by
  unfold actEnd
  repeat (with_reducible first | assumption | apply updFwu_keeps | apply setIntBoth_keeps)

theorem stopWorlds_keeps {s : State} (h : Keeps kp s0 s) :
    Keeps kp s0 (stopWorlds s) := by
  unfold stopWorlds
  repeat (with_reducible first | assumption | apply secureStop_keeps | apply updWld_keeps | apply normalStop_keeps)

theorem runSlot_keeps (n : Nat) {s : State} (h : Keeps kp s0 s) :
    Keeps kp s0 (runSlot n s) := by
  unfold runSlot
  repeat (with_reducible first | assumption | apply worldsStart_keeps | apply updFwu_keeps)

theorem fallBack_keeps (code : Nat) {s : State} (h : Keeps kp s0 s) (h_flash : kp.flash = false) :
    Keeps kp s0 (fallBack code s) := by
  unfold fallBack
  repeat (with_reducible first | assumption | apply runSlot_keeps | apply actEnd_keeps | apply updFwu_keeps
                               | apply writeCtl_keeps)

theorem loadNew_keeps (n : Nat) {s : State} (h : Keeps kp s0 s) (h_flash : kp.flash = false) :
    Keeps kp s0 (loadNew n s) := by
  unfold loadNew
  repeat (with_reducible first | assumption | apply fallBack_keeps | apply runSlot_keeps | apply updFwu_keeps
                               | apply writeCtl_keeps | apply keeps_ite)

theorem confirmCtl_keeps {s : State} (h : Keeps kp s0 s) (h_flash : kp.flash = false) : Keeps kp s0 (confirmCtl s) := by
  unfold confirmCtl
  split <;> exact writeCtl_keeps _ _ _ h h_flash

theorem arbBegin_keeps {s : State} (h : Keeps kp s0 s) :
    Keeps kp s0 (arbBegin s) := by
  unfold arbBegin
  repeat (with_reducible first | assumption | apply updFwu_keeps | apply keeps_ite)

theorem confirmOnly_keeps {s : State} (h : Keeps kp s0 s) (h_flash : kp.flash = false) :
    Keeps kp s0 (confirmOnly s) := by
  unfold confirmOnly
  repeat (with_reducible first | assumption | apply actEnd_keeps | apply arbBegin_keeps | apply updFwu_keeps
                               | apply fwRecord_keeps | apply confirmCtl_keeps | apply keeps_ite)

theorem markBarrier_keeps (mark : Nat) {s : State} (h : Keeps kp s0 s) :
    Keeps kp s0 (markBarrier mark s) := by
  unfold markBarrier
  repeat (with_reducible first | assumption | apply updFwu_keeps | apply keeps_ite)

theorem aloneMark_keeps {s : State} (h : Keeps kp s0 s) :
    Keeps kp s0 (aloneMark s) := by
  unfold aloneMark
  repeat (with_reducible first | assumption | apply markBarrier_keeps | apply keeps_ite)

theorem execActivationBarrier_keepsRes (mark : Nat) {s : State} (h : Keeps kp s0 s) (h_burn : kp.burn = false)
    (h_flash : kp.flash = false) :
    KeepsRes kp s0 (execActivationBarrier mark s) := by
  unfold execActivationBarrier
  repeat (with_reducible first | assumption | apply confirmOnly_keeps | apply actEnd_keeps | apply loadNew_keeps
                               | apply updWld_keeps | apply updFwu_keeps | apply seqd_keeps | apply stopWorlds_keeps
                               | apply keepsRes_onlyIf | apply keeps_ite)

theorem headersAt_keeps (all : Bool) {s : State} (h : Keeps kp s0 s) :
    Keeps kp s0 (headersAt all s) := by
  unfold headersAt
  repeat (first | (with_reducible first | assumption | apply updVlt_keeps) | (show _ = _; rfl)
                | with_reducible exact fun x => x)

theorem migrateOne_keeps {s : State} (h : Keeps kp s0 s) :
    Keeps kp s0 (migrateOne s) := by
  unfold migrateOne
  repeat (with_reducible first | assumption | apply headersAt_keeps | apply countCommit_keeps | apply updFwu_keeps
                               | apply commitFailB_keeps | apply draw_keeps | apply journalWith_keeps
                               | apply commitFailA_keeps | apply keeps_ite)

theorem arbNext_keeps {s : State} (h : Keeps kp s0 s) (h_burn : kp.burn = false) : Keeps kp s0 (arbNext s) := by
  unfold arbNext
  exact updFwu_keeps (h.put_fuses h_burn)

theorem confirm_keeps {s : State} (h : Keeps kp s0 s) (h_flash : kp.flash = false) :
    Keeps kp s0 (confirm s) := by
  unfold confirm
  repeat (with_reducible first | assumption | apply actEnd_keeps | apply arbBegin_keeps | apply updFwu_keeps
                               | apply fwRecord_keeps | apply confirmCtl_keeps | apply keeps_ite)

theorem execActivationConfirm_keepsRes {s : State} (h : Keeps kp s0 s) (h_burn : kp.burn = false) (h_flash : kp.flash
    = false) :
    KeepsRes kp s0 (execActivationConfirm s) := by
  unfold execActivationConfirm
  repeat (first | (with_reducible first | assumption | apply migrateOne_keeps | apply arbNext_keeps
                                        | apply confirm_keeps | apply keepsRes_onlyIf)
                | split)

theorem execActivationFallback_keepsRes {s : State} (h : Keeps kp s0 s) (h_flash : kp.flash = false) :
    KeepsRes kp s0 (execActivationFallback s) := by
  unfold execActivationFallback
  repeat (with_reducible first | assumption | apply fallBack_keeps | apply enterFault_keeps | apply stopWorlds_keeps
                               | apply keepsRes_onlyIf | apply keeps_ite)

theorem sendFrame_keeps (type : Nat) (dest : Nat) (src : Nat) (body : Bytes) {s : State} (h : Keeps kp s0 s) :
    Keeps kp s0 (sendFrame type dest src body s) := by
  unfold sendFrame
  repeat (with_reducible first | assumption | apply emit_keeps)

theorem sendFrameAt_keeps (t : Nat) (type : Nat) (dest : Nat) (src : Nat) (body : Bytes) {s : State} (h : Keeps kp s0
    s) :
    Keeps kp s0 (sendFrameAt t type dest src body s) := by
  unfold sendFrameAt
  repeat (with_reducible first | assumption | apply updDrb_keeps | apply sendFrame_keeps | apply keeps_ite
                               | exact fun x => x)

theorem framesDue_keeps {s : State} (h : Keeps kp s0 s) :
    Keeps kp s0 (framesDue s) := by
  unfold framesDue
  repeat (with_reducible first | assumption | apply updDrb_keeps | apply emit_keeps | apply keeps_ite
                               | (apply keeps_foldl; intro s x h) | exact fun x => x)

theorem crcErr_keeps {s : State} (h : Keeps kp s0 s) :
    Keeps kp s0 (crcErr s) := by
  unfold crcErr
  repeat (with_reducible first | assumption | apply updDrb_keeps | exact fun x => x)

theorem onFrame_keepsRes (b : Bytes) (type : Nat) (ok : Frame → Bool) (f : Frame → State → State) {s : State} (h :
    Keeps kp s0 s) (hf : ∀ y0 s, Keeps kp s0 s → Keeps kp s0 (f y0 s)) :
    KeepsRes kp s0 (onFrame b type ok f s) := by
  unfold onFrame
  repeat (first | (with_reducible first | assumption | apply hf | apply crcErr_keeps | apply keepsRes_onlyIf) | split)

theorem drbRecord_keeps (kind : Nat) (addr : Nat) (id : Bytes) {s : State} (h : Keeps kp s0 s) :
    Keeps kp s0 (drbRecord kind addr id s) := by
  unfold drbRecord
  repeat (with_reducible first | assumption | apply record_keeps)

theorem updMember_keeps (a : Nat) (f : Member → Member) {s : State} (h : Keeps kp s0 s) :
    Keeps kp s0 (updMember a f s) := by
  unfold updMember
  repeat (with_reducible first | assumption | apply updDrb_keeps | exact twf_tupd _ _ _ _)

theorem freeAddr_keeps (a : Nat) {s : State} (h : Keeps kp s0 s) :
    Keeps kp s0 (freeAddr a s) := by
  unfold freeAddr
  repeat (with_reducible first | assumption | apply updMember_keeps | apply drbRecord_keeps)

theorem stepTime_keeps (e : Nat) {s : State} (h : Keeps kp s0 s) (h_time : kp.time = false) :
    Keeps kp s0 (stepTime e s) := by
  unfold stepTime
  have k : Keeps kp s0 { s with
      now := s.now + e
      drb := { s.drb with steps := satInc 16 s.drb.steps, stepMax := max s.drb.stepMax (min 0xFFFFFFFF e) } } :=
    Keeps.put_drb (s := { s with now := s.now + e }) (h.put_now h_time) (fun x => x)
  exact keeps_ite (drbRecord_keeps _ _ _ k) k

theorem sendClear_keeps {s : State} (h : Keeps kp s0 s) :
    Keeps kp s0 (sendClear s) := by
  unfold sendClear
  repeat (with_reducible first | assumption | apply sendFrameAt_keeps | apply freeAddr_keeps
                               | (apply keeps_foldl; intro s x h))

theorem sendAssign_keeps (a : Nat) (misses : Nat) (at_ : Nat) {s : State} (h : Keeps kp s0 s) :
    Keeps kp s0 (sendAssign a misses at_ s) := by
  unfold sendAssign
  repeat (with_reducible first | assumption | apply sendFrameAt_keeps | apply updDrb_keeps | exact fun x => x)

theorem enumEnd_keeps {s : State} (h : Keeps kp s0 s) (h_time : kp.time = false) :
    Keeps kp s0 (enumEnd s) := by
  unfold enumEnd
  repeat (with_reducible first | assumption | apply updDrb_keeps | apply stepTime_keeps | apply keeps_ite
                               | exact fun x => x | exact twf_tmap _ _ _)

theorem offerNext_keeps {s : State} (h : Keeps kp s0 s) (h_time : kp.time = false) :
    Keeps kp s0 (offerNext s) := by
  unfold offerNext
  repeat (first | (with_reducible first | assumption | apply updDrb_keeps | apply enumEnd_keeps
                                        | apply sendAssign_keeps | exact fun x => x)
                | split)

theorem sendRelease_keeps (a : Nat) (id : Nat) {s : State} (h : Keeps kp s0 s) :
    Keeps kp s0 (sendRelease a id s) := by
  unfold sendRelease
  repeat (with_reducible first | assumption | apply sendFrameAt_keeps | apply drbRecord_keeps)

theorem execHeadStart_keepsRes {s : State} (h : Keeps kp s0 s) :
    KeepsRes kp s0 (execHeadStart s) := by
  unfold execHeadStart
  repeat (with_reducible first | assumption | apply sendClear_keeps | apply updDrb_keeps | apply sendAssign_keeps
                               | apply keepsRes_onlyIf | exact fun x => x)

theorem execReenum_keepsRes (p : Port) {s : State} (h : Keeps kp s0 s) (h_time : kp.time = false) :
    KeepsRes kp s0 (execReenum p s) := by
  unfold execReenum
  repeat (with_reducible first | assumption | apply sendClear_keeps | apply updDrb_keeps | apply seqd_keeps
                               | apply legTouch_keeps | apply offerNext_keeps | apply sendAssign_keeps
                               | apply cntWr_keeps | apply keepsRes_onlyIf | apply keeps_ite | exact fun x => x)

theorem execTime_keepsRes {s : State} (h : Keeps kp s0 s) :
    KeepsRes kp s0 (execTime s) := by
  unfold execTime
  repeat (first | (with_reducible first | assumption | apply updDrb_keeps | apply sendFrame_keeps
                                        | apply markBarrier_keeps | apply sendAssign_keeps | apply keepsRes_onlyIf
                                        | exact fun x => x)
                | split)

theorem execAssignTimeout_keepsRes {s : State} (h : Keeps kp s0 s) (h_time : kp.time = false) :
    KeepsRes kp s0 (execAssignTimeout s) := by
  unfold execAssignTimeout
  repeat (first | (with_reducible first | assumption | apply updDrb_keeps | apply enumEnd_keeps
                                        | apply sendAssign_keeps | apply keepsRes_next | apply keepsRes_onlyIf
                                        | exact fun x => x)
                | split)

theorem takeMember_keeps (a : Nat) (id : Nat) (rho : Nat) {s : State} (h : Keeps kp s0 s) :
    Keeps kp s0 (takeMember a id rho s) := by
  unfold takeMember
  repeat (first | (with_reducible first | assumption | apply freeAddr_keeps | apply sendFrame_keeps
                                        | apply updMember_keeps | apply drbRecord_keeps)
                | split)

theorem execAssignReply_keepsRes (frame : Bytes) (rho : Nat) {s : State} (h : Keeps kp s0 s) (h_time : kp.time =
    false) :
    KeepsRes kp s0 (execAssignReply frame rho s) := by
  unfold execAssignReply
  repeat (with_reducible first | assumption | apply onFrame_keepsRes | apply updDrb_keeps | apply takeMember_keeps
                               | apply sendRelease_keeps | apply offerNext_keeps | apply keeps_ite | (intro _ s h)
                               | exact fun x => x)

theorem execBeacon_keepsRes (frame : Option Bytes) {s : State} (h : Keeps kp s0 s) :
    KeepsRes kp s0 (execBeacon frame s) := by
  unfold execBeacon
  repeat (first | (with_reducible first | assumption | apply onFrame_keepsRes | apply updDrb_keeps
                                        | apply sendFrame_keeps | apply sendRelease_keeps | apply updMember_keeps
                                        | apply drbRecord_keeps | apply keepsRes_onlyIf | apply keeps_ite
                                        | (intro _ s h) | exact fun x => x)
                | split)

theorem execBeaconMiss_keepsRes (address : Nat) {s : State} (h : Keeps kp s0 s) :
    KeepsRes kp s0 (execBeaconMiss address s) := by
  unfold execBeaconMiss
  repeat (with_reducible first | assumption | apply updMember_keeps | apply drbRecord_keeps | apply keepsRes_onlyIf
                               | apply keeps_ite)

theorem execReservationExpiry_keepsRes (address : Nat) {s : State} (h : Keeps kp s0 s) :
    KeepsRes kp s0 (execReservationExpiry address s) := by
  unfold execReservationExpiry
  repeat (with_reducible first | assumption | apply freeAddr_keeps | apply keepsRes_onlyIf)

theorem execForeignHeadFrame_keepsRes (frame : Bytes) {s : State} (h : Keeps kp s0 s) :
    KeepsRes kp s0 (execForeignHeadFrame frame s) := by
  unfold execForeignHeadFrame
  repeat (first | (with_reducible first | assumption | apply updDrb_keeps | apply crcErr_keeps
                                        | apply drbRecord_keeps | apply keepsRes_onlyIf | exact fun x => x)
                | split)

theorem dropAddr_keeps {s : State} (h : Keeps kp s0 s) :
    Keeps kp s0 (dropAddr s) := by
  unfold dropAddr
  repeat (with_reducible first | assumption | apply updDrb_keeps | apply drbRecord_keeps | apply keeps_ite
                               | exact fun x => x)

theorem execAssign_keepsRes (frame : Bytes) {s : State} (h : Keeps kp s0 s) :
    KeepsRes kp s0 (execAssign frame s) := by
  unfold execAssign
  repeat (with_reducible first | assumption | apply onFrame_keepsRes | apply updDrb_keeps | apply sendFrame_keeps
                               | apply drbRecord_keeps | (intro _ s h) | exact fun x => x)

theorem execDelay_keepsRes (frame : Bytes) {s : State} (h : Keeps kp s0 s) :
    KeepsRes kp s0 (execDelay frame s) := by
  unfold execDelay
  repeat (with_reducible first | assumption | apply onFrame_keepsRes | apply updDrb_keeps | (intro _ s h)
                               | exact fun x => x)

theorem execRelease_keepsRes (frame : Bytes) {s : State} (h : Keeps kp s0 s) :
    KeepsRes kp s0 (execRelease frame s) := by
  unfold execRelease
  repeat (with_reducible first | assumption | apply onFrame_keepsRes | apply dropAddr_keeps | (intro _ s h))

theorem execClear_keepsRes (frame : Bytes) {s : State} (h : Keeps kp s0 s) :
    KeepsRes kp s0 (execClear frame s) := by
  unfold execClear
  repeat (with_reducible first | assumption | apply onFrame_keepsRes | apply dropAddr_keeps | (intro _ s h))

theorem applyMark_keeps (mark : Nat) (cycle : Nat) {s : State} (h : Keeps kp s0 s) (h_time : kp.time = false) :
    Keeps kp s0 (applyMark mark cycle s) := by
  unfold applyMark
  repeat (with_reducible first | assumption | apply updDrb_keeps | apply stepTime_keeps | apply drbRecord_keeps
                               | apply markBarrier_keeps | apply keeps_ite | exact fun x => x)

theorem execTimeReceive_keepsRes (frame : Bytes) {s : State} (h : Keeps kp s0 s) (h_time : kp.time = false) :
    KeepsRes kp s0 (execTimeReceive frame s) := by
  unfold execTimeReceive
  repeat (with_reducible first | assumption | apply onFrame_keepsRes | apply applyMark_keeps | (intro _ s h))

theorem execSlewEnd_keepsRes {s : State} (h : Keeps kp s0 s) :
    KeepsRes kp s0 (execSlewEnd s) := by
  unfold execSlewEnd
  repeat (with_reducible first | assumption | apply updDrb_keeps | apply keepsRes_onlyIf | exact fun x => x)

theorem execHeadLost_keepsRes {s : State} (h : Keeps kp s0 s) :
    KeepsRes kp s0 (execHeadLost s) := by
  unfold execHeadLost
  repeat (with_reducible first | assumption | apply updDrb_keeps | apply drbRecord_keeps | apply keepsRes_onlyIf
                               | exact fun x => x)

theorem execJoinReq_keepsRes (frame : Option Bytes) {s : State} (h : Keeps kp s0 s) :
    KeepsRes kp s0 (execJoinReq frame s) := by
  unfold execJoinReq
  repeat (first | (with_reducible first | assumption | apply onFrame_keepsRes | apply updDrb_keeps
                                        | apply sendFrame_keeps | apply keepsRes_onlyIf | apply keeps_ite
                                        | (intro _ s h) | exact fun x => x)
                | split)

theorem updMem_keeps (f : Mem → Mem) {s : State} (h : Keeps kp s0 s) :
    Keeps kp s0 (updMem f s) := by
  unfold updMem
  repeat (with_reducible first | assumption | apply Keeps.put_mem)

theorem execMemRetrain_keepsRes (channel : Nat) {s : State} (h : Keeps kp s0 s) :
    KeepsRes kp s0 (execMemRetrain channel s) := by
  unfold execMemRetrain
  repeat (with_reducible first | assumption | apply updMem_keeps | apply keepsRes_onlyIf)

theorem execMemConfigFault_keepsRes {s : State} (h : Keeps kp s0 s) :
    KeepsRes kp s0 (execMemConfigFault s) := by
  unfold execMemConfigFault
  repeat (with_reducible first | assumption | apply enterFault_keeps | apply keepsRes_onlyIf)

theorem countMemError_keeps (r : MemRegion) (mac : Bool) {s : State} (h : Keeps kp s0 s) :
    Keeps kp s0 (countMemError r mac s) := by
  unfold countMemError
  repeat (with_reducible first | assumption | apply setIntBoth_keeps | apply updMem_keeps)

theorem memRecord_keeps {s : State} (h : Keeps kp s0 s) :
    Keeps kp s0 (memRecord s) := by
  unfold memRecord
  repeat (with_reducible first | assumption | apply draw_keeps | apply record_keeps)

theorem unbindAll_twf (b : Tbl Binding) (l : List Nat) : twf {} b = true →
    twf {} (l.foldl (fun b o => tset {} b o {}) b) = true := by
  induction l generalizing b with
  | nil => exact fun x => x
  | cons o l ih => exact fun x => ih _ (twf_tset _ _ _ _ x)

theorem loseTicketLine_keeps {s : State} (h : Keeps kp s0 s) :
    Keeps kp s0 (loseTicketLine s) := by
  unfold loseTicketLine
  repeat (first | (refine slcOk (fun x => x) (unbindAll_twf _ _))
                | (with_reducible first | assumption | apply seqd_keeps | apply updBnv_keeps | apply draw_keeps
                                        | apply updSlc_keeps | apply keeps_ite))

theorem loseSpillLine_keeps (x : Nat) (granule : Nat) {s : State} (h : Keeps kp s0 s) :
    Keeps kp s0 (loseSpillLine x granule s) := by
  unfold loseSpillLine
  repeat (first | (with_reducible first | assumption | apply stop_keeps) | split)

theorem loseQueueLine_keeps {s : State} (h : Keeps kp s0 s) :
    Keeps kp s0 (loseQueueLine s) := by
  unfold loseQueueLine
  repeat (with_reducible first | assumption | apply beginReset_keeps | apply draw_keeps | apply keeps_ite)

theorem execMemLineError_keepsRes (line : Nat) (mac : Bool) {s : State} (h : Keeps kp s0 s) :
    KeepsRes kp s0 (execMemLineError line mac s) := by
  unfold execMemLineError
  repeat (first | (with_reducible first | assumption | apply loseQueueLine_keeps | apply memRecord_keeps
                                        | apply loseSpillLine_keeps | apply updVlt_keeps | apply updKst_keeps
                                        | apply ringError_keeps | apply loseTicketLine_keeps
                                        | apply countMemError_keeps | apply worldFail_keeps | apply keepsRes_onlyIf
                                        | apply keeps_ite)
                | (show _ = _; rfl) | with_reducible exact fun x => x | split)

theorem railTo_keeps (r : Nat) (n : Nat) {s : State} (h : Keeps kp s0 s) :
    Keeps kp s0 (railTo r n s) := by
  unfold railTo
  repeat (first | (with_reducible first | assumption | apply updGov_keeps | apply emit_keeps | apply keeps_ite)
                | (show _ = _; rfl) | with_reducible exact twf_tupd _ _ _ _)

theorem clockTo_keeps (r : Nat) (n : Nat) {s : State} (h : Keeps kp s0 s) :
    Keeps kp s0 (clockTo r n s) := by
  unfold clockTo
  repeat (first | (with_reducible first | assumption | apply updGov_keeps | apply emit_keeps) | (show _ = _; rfl)
                | with_reducible exact twf_tupd _ _ _ _)

theorem stepTo_keeps (r : Nat) (n : Nat) {s : State} (h : Keeps kp s0 s) :
    Keeps kp s0 (stepTo r n s) := by
  unfold stepTo
  repeat (with_reducible first | assumption | apply clockTo_keeps | apply railTo_keeps | apply keeps_ite)

theorem capLoop_keeps (power : Nat) (projection : List Nat) {s : State} (h : Keeps kp s0 s) :
    Keeps kp s0 (capLoop power projection s) := by
  unfold capLoop
  repeat (first | (with_reducible first | assumption | apply updGov_keeps) | (show _ = _; rfl)
                | with_reducible exact fun x => x)

theorem clampRecord_keeps {s : State} (h : Keeps kp s0 s) :
    Keeps kp s0 (clampRecord s) := by
  unfold clampRecord
  repeat (first | (with_reducible first | assumption | apply updGov_keeps | apply record_keeps) | (show _ = _; rfl)
                | with_reducible exact fun x => x)

theorem clampNote_keeps {s : State} (h : Keeps kp s0 s) :
    Keeps kp s0 (clampNote s) := by
  unfold clampNote
  repeat (first | (with_reducible first | assumption | apply clampRecord_keeps) | split)

theorem clampCheck_keeps {s : State} (h : Keeps kp s0 s) :
    Keeps kp s0 (clampCheck s) := by
  unfold clampCheck
  repeat (first | (with_reducible first | assumption | apply updGov_keeps | apply clampNote_keeps | apply keeps_ite)
                | (show _ = _; rfl) | with_reducible exact fun x => x)

theorem moveRegion_keeps (r : Nat) (x : GovReading) {s : State} (h : Keeps kp s0 s) :
    Keeps kp s0 (moveRegion r x s) := by
  unfold moveRegion
  repeat (first | (with_reducible first | assumption | apply stepTo_keeps | apply updGov_keeps) | (show _ = _; rfl)
                | with_reducible exact twf_tset _ _ _ _)

theorem execGovInterval_keepsRes (power : Nat) (projection : List Nat) (readings : List GovReading) {s : State}
    (h : Keeps kp s0 s) : KeepsRes kp s0 (execGovInterval power projection readings s) := by
  unfold execGovInterval
  have b : Keeps kp s0 ((List.range 4).foldl (fun s r => moveRegion r (readings.getD r {}) s)
      (clampCheck (capLoop power projection s))) :=
    keeps_foldl (fun s x k => moveRegion_keeps _ _ k) (clampCheck_keeps (capLoop_keeps _ _ h)) _
  have e (g : Gov) : governorOk { g with intervalAt := s.now } = governorOk g := rfl
  have c := updGov_keeps (f := fun g => { g with intervalAt := s.now }) b (e _) (fun x => x)
  exact keepsRes_onlyIf h c

theorem execThermalStep_keepsRes (tenths : Int) {s : State} (h : Keeps kp s0 s) :
    KeepsRes kp s0 (execThermalStep tenths s) := by
  unfold execThermalStep
  repeat (first | (with_reducible first | assumption | apply sense_keeps | apply updGov_keeps
                                        | apply keepsRes_onlyIf | apply keeps_ite)
                | (show _ = _; rfl) | with_reducible exact fun x => x)

theorem execAvsTimeout_keepsRes {s : State} (h : Keeps kp s0 s) :
    KeepsRes kp s0 (execAvsTimeout s) := by
  unfold execAvsTimeout
  repeat (first | (with_reducible first | assumption | apply updGov_keeps | apply clampNote_keeps
                                        | apply keepsRes_onlyIf)
                | (show _ = _; rfl) | with_reducible exact fun x => x)

theorem dormEnd_keeps (cause : Nat) {s : State} (h : Keeps kp s0 s) :
    Keeps kp s0 (dormEnd cause s) := by
  unfold dormEnd
  repeat (first | (with_reducible first | assumption | apply updGov_keeps) | (show _ = _; rfl)
                | with_reducible exact fun x => x)

theorem execGovDorm_keepsRes (p : Port) (key : Nat) {s : State} (h : Keeps kp s0 s) :
    KeepsRes kp s0 (execGovDorm p key s) := by
  unfold execGovDorm
  repeat (first | (with_reducible first | assumption | apply seqd_keeps | apply legTouch_keeps | apply updGov_keeps
                                        | apply cntWr_keeps | apply keepsRes_onlyIf | apply keeps_ite)
                | (show _ = _; rfl) | with_reducible exact fun x => x)

theorem execDormantLapse_keepsRes {s : State} (h : Keeps kp s0 s) :
    KeepsRes kp s0 (execDormantLapse s) := by
  unfold execDormantLapse
  repeat (with_reducible first | assumption | apply dormEnd_keeps | apply keepsRes_onlyIf)

theorem sealSlots_keeps {s : State} (h : Keeps kp s0 s) :
    Keeps kp s0 (sealSlots s) := by
  unfold sealSlots
  repeat (first | (with_reducible first | assumption | apply purgeStaging_keeps | apply seqd_keeps
                                        | apply updKst_keeps | apply draw_keeps | apply zeroiseSlot_keeps
                                        | (apply keeps_foldl; intro s x h))
                | (show _ = _; rfl) | (with_reducible first | exact fun x => x | apply Keeps.put_bbr))

theorem flushAll_keeps {s : State} (h : Keeps kp s0 s) :
    Keeps kp s0 (flushAll s) := by
  unfold flushAll
  repeat (first | (with_reducible first | assumption | apply updEvr_keeps | apply flushStart_keeps
                                        | apply flushWrite_keeps | apply keeps_ite)
                | (show _ = _; rfl))

theorem gateCore_keeps {s : State} (h : Keeps kp s0 s) :
    Keeps kp s0 (gateCore s) := by
  unfold gateCore
  repeat (first | (with_reducible first | assumption | apply updDrb_keeps | apply chanZeroise_keeps
                                        | apply updGov_keeps | apply updRng_keeps | apply rngZeroise_keeps
                                        | apply updMem_keeps)
                | (show _ = _; rfl) | with_reducible exact fun x => x | (with_reducible apply And.intro))

theorem execDormantEntry_keepsRes {s : State} (h : Keeps kp s0 s) :
    KeepsRes kp s0 (execDormantEntry s) := by
  unfold execDormantEntry
  repeat (with_reducible first | assumption | apply ucpForce_keeps | apply seqd_keeps | apply dropShadows_keeps
                               | apply debugLost_keeps | apply closeProps_keeps | apply gateCore_keeps
                               | apply legErase_keeps | apply sealSlots_keeps | apply flushAll_keeps
                               | apply grantEnd_keeps | apply keepsRes_onlyIf)

theorem wakeHost_keeps {s : State} (h : Keeps kp s0 s) : Keeps kp s0 (wakeHost s) := by
  refine Keeps.step (s := s) h rfl ?_ rfl rfl rfl rfl rfl rfl rfl rfl rfl rfl (Nat.le_refl _) (fun x => x)
    (fun _ => rfl) (fun _ => rfl) (fun _ => rfl) (fun _ => ⟨rfl, rfl⟩)
  simp only [tablesOk, carTables, cayTables, mdfTables, slcTables, Bool.and_eq_true, wakeHost]
  intro x
  simp only [x, twf_tmap, and_self]

theorem wakeData_keeps {s : State} (h : Keeps kp s0 s) : Keeps kp s0 (wakeData s) := by
  refine Keeps.step (s := s) h rfl ?_ rfl rfl rfl rfl rfl rfl rfl rfl rfl rfl (Nat.le_refl _) (fun x => x)
    (fun _ => rfl) (fun _ => rfl) (fun _ => rfl) (fun _ => ⟨rfl, rfl⟩)
  simp only [tablesOk, carTables, cayTables, mdfTables, slcTables, Bool.and_eq_true, wakeData]
  intro x
  simp only [x, twf_tmap, and_self]

theorem wakeRest_keeps {s : State} (h : Keeps kp s0 s) : Keeps kp s0 (wakeRest s) := by
  refine Keeps.step (s := s) h rfl ?_ rfl rfl rfl rfl rfl rfl rfl rfl rfl rfl (Nat.le_refl _) (fun x => x)
    (fun _ => rfl) (fun _ => rfl) (fun _ => rfl) (fun _ => ⟨rfl, rfl⟩)
  simp only [tablesOk, carTables, cayTables, mdfTables, slcTables, Bool.and_eq_true, wakeRest]
  intro x
  simp only [x, twf_tmap, and_self]

theorem reviveSlot_keeps (e : Nat × Slot) {s : State} (h : Keeps kp s0 s) :
    Keeps kp s0 (reviveSlot e s) := by
  unfold reviveSlot
  repeat (first | (with_reducible first | assumption | apply freshMask_keepsSnd | apply updKst_keeps
                                        | apply updSlot_keeps | apply keeps_ite)
                | (show _ = _; rfl) | with_reducible exact fun x => x)

theorem reviveImage_keeps (found : Option (List (Nat × Slot))) {s : State} (h : Keeps kp s0 s) :
    Keeps kp s0 (reviveImage found s) := by
  have put (a : State) (k : Keeps kp s0 a) : Keeps kp s0 { a with
      bbr := { a.bbr with dseal := 0 }, kst := { a.kst with image := [] } } :=
    Keeps.step (s := a) k rfl (fun x => x) rfl rfl rfl rfl rfl rfl rfl rfl rfl rfl (Nat.le_refl _) (fun x => x)
      (fun _ => rfl) (fun _ => rfl) (fun _ => rfl) (fun _ => ⟨rfl, rfl⟩)
  unfold reviveImage
  refine put _ ?_
  split
  · exact keeps_foldl (fun s e k => reviveSlot_keeps _ k) h _
  · exact memRecord_keeps h

theorem reviveSlots_keeps {s : State} (h : Keeps kp s0 s) : Keeps kp s0 (reviveSlots s) := reviveImage_keeps _ h

theorem wakeVault_keeps {s : State} (h : Keeps kp s0 s) :
    Keeps kp s0 (wakeVault s) := by
  unfold wakeVault
  repeat (with_reducible first | assumption | apply vaultTo_keeps | apply keeps_ite | exact fun x => x
                               | apply Keeps.put_chp)

theorem execWakeFromDormant_keepsRes (p : Port) {s : State} (h : Keeps kp s0 s) (h_seq : kp.seq = false) :
    KeepsRes kp s0 (execWakeFromDormant p s) := by
  unfold execWakeFromDormant
  refine keepsRes_onlyIf h (wakeVault_keeps (emit_keeps _ (updHpt_keeps (updDrb_keeps (rngStart_keeps (reviveSlots_keeps
    (wakeRest_keeps (wakeData_keeps (wakeHost_keeps ?_))))) (twf_tmap _ _ _)))))
  exact Keeps.unsequenced (s := s) h h_seq (fun _ x => x) rfl (fun x => x) (fun x => x) (fun _ => rfl) (fun _ => rfl)
      (fun _ => rfl)
    (fun _ => ⟨rfl, rfl⟩)

theorem execPfailAssert_keepsRes {s : State} (h : Keeps kp s0 s) : KeepsRes kp s0 (execPfailAssert s) := by
  unfold execPfailAssert
  dsimp only
  have a : Keeps kp s0 (updFwu (fun f => { f with firstMark := none })
      { s with gov := { s.gov with pfail := true }, pins := { s.pins with pfail := true } }) :=
    updFwu_keeps (Keeps.step (s := s) h rfl (fun x => x) rfl rfl rfl rfl rfl rfl rfl rfl rfl rfl (Nat.le_refl _) (fun
        x => x)
      (fun _ => rfl) (fun _ => rfl) (fun _ => rfl) (fun _ => ⟨rfl, rfl⟩))
  have b := keeps_ite (c := (powered s && evrOpen s) = true) (flushStart_keeps true a) a
  have c := keeps_ite (c := live s = true) (keeps_foldl (fun s r k => stepTo_keeps r 0 k) b (List.range 4)) b
  exact keepsRes_onlyIf h (keeps_ite (dormEnd_keeps _ c) c)

theorem execPfailDeassert_keepsRes {s : State} (h : Keeps kp s0 s) (h_seq : kp.seq = false) (h_fault : kp.fault =
    false) (h_burn : kp.burn = false) (h_life : kp.life = false) :
    KeepsRes kp s0 (execPfailDeassert s) := by
  have a : Keeps kp s0 { s with gov := { s.gov with pfail := false }, pins := { s.pins with pfail := false } } :=
    Keeps.step (s := s) h rfl (fun x => x) rfl rfl rfl rfl rfl rfl rfl rfl rfl rfl (Nat.le_refl _) (fun x => x)
      (fun _ => rfl) (fun _ => rfl) (fun _ => rfl) (fun _ => ⟨rfl, rfl⟩)
  unfold execPfailDeassert
  refine keepsRes_onlyIf h ?_
  dsimp only
  split
  · exact keeps_ite a (bootOn_keeps _ a h_seq h_fault h_burn h_life)
  · exact a

theorem execVddAonSwitch_keepsRes (mainFeed : Bool) {s : State} (h : Keeps kp s0 s) :
    KeepsRes kp s0 (execVddAonSwitch mainFeed s) := by
  unfold execVddAonSwitch
  repeat (with_reducible first | assumption | apply draw_keeps | apply keepsRes_next | apply keeps_ite
                               | apply Keeps.put_bbr)

theorem linkLost_keeps (p : Port) (c : LossCause) {s : State} (h : Keeps kp s0 s) :
    Keeps kp s0 (linkLost p c s) := by
  unfold linkLost
  repeat (with_reducible first | assumption | apply updHpt_keeps)

theorem dropTables_keeps (p : Port) {s : State} (h : Keeps kp s0 s) :
    Keeps kp s0 (dropTables p s) := by
  unfold dropTables
  repeat (with_reducible first | assumption | apply dropTable_keeps | (apply keeps_foldl; intro s x h))

theorem loseRings_keeps (p : Port) {s : State} (h : Keeps kp s0 s) :
    Keeps kp s0 (loseRings p s) := by
  unfold loseRings
  repeat (with_reducible first | assumption | apply flushDb_keeps | apply ringError_keeps | apply keeps_ite
                               | (apply keeps_foldl; intro s x h))

theorem dropHeld_keeps (p : Port) {s : State} (h : Keeps kp s0 s) :
    Keeps kp s0 (dropHeld p s) := by
  unfold dropHeld
  repeat (first | (with_reducible first | assumption | apply seqd_keeps | apply updCar_keeps) | (show _ = _; rfl)
                | (with_reducible first | exact fun x => x | refine carOk ?_ ?_ ?_))

theorem loseCarrs_keeps (p : Port) {s : State} (h : Keeps kp s0 s) :
    Keeps kp s0 (loseCarrs p s) := by
  unfold loseCarrs
  repeat (with_reducible first | assumption | apply relieve_keeps | apply updHpt_keeps | apply seqd_keeps
                               | apply vanish_keeps | apply reap_keeps | (apply keeps_foldl; intro s x h))

theorem loseEngines_keeps (p : Port) {s : State} (h : Keeps kp s0 s) :
    Keeps kp s0 (loseEngines p s) := by
  unfold loseEngines
  repeat (with_reducible first | assumption | apply ucpForce_keeps | apply latEnd_keeps | apply closeProp_keeps
                               | apply updBnv_keeps | apply stageEnd_keeps | apply dbgEnd_keeps
                               | apply dropChallenge_keeps | apply reap_keeps | apply grantEnd_keeps | apply keeps_ite
                               | (apply keeps_foldl; intro s x h))

theorem blockReset_keeps (p : Port) {s : State} (h : Keeps kp s0 s) :
    Keeps kp s0 (blockReset p s) := by
  unfold blockReset
  repeat (with_reducible first | assumption | apply updHpt_keeps)

theorem portReset_keeps (p : Port) {s : State} (h : Keeps kp s0 s) :
    Keeps kp s0 (portReset p s) := by
  unfold portReset
  repeat (with_reducible first | assumption | apply updStats_keeps | apply updWin_keeps | apply blockReset_keeps)

theorem portLoss_keeps (p : Port) (c : LossCause) {s : State} (h : Keeps kp s0 s) :
    Keeps kp s0 (portLoss p c s) := by
  unfold portLoss
  repeat (with_reducible first | assumption | apply updStats_keeps | apply portReset_keeps | apply updHpt_keeps
                               | apply seqd_keeps | apply dropHeld_keeps | apply loseRings_keeps | apply setInt_keeps
                               | apply loseEngines_keeps | apply loseCarrs_keeps | apply recordSeq_keeps
                               | apply dropTables_keeps | apply linkLost_keeps | apply keeps_ite)

theorem execLinkDown_keepsRes (p : Port) {s : State} (h : Keeps kp s0 s) :
    KeepsRes kp s0 (execLinkDown p s) := by
  unfold execLinkDown
  repeat (with_reducible first | assumption | apply portLoss_keeps | apply keepsRes_onlyIf)

theorem execHotReset_keepsRes (p : Port) {s : State} (h : Keeps kp s0 s) :
    KeepsRes kp s0 (execHotReset p s) := by
  unfold execHotReset
  repeat (with_reducible first | assumption | apply portLoss_keeps | apply keepsRes_onlyIf)

theorem execLinkDisable_keepsRes (p : Port) {s : State} (h : Keeps kp s0 s) :
    KeepsRes kp s0 (execLinkDisable p s) := by
  unfold execLinkDisable
  repeat (with_reducible first | assumption | apply portLoss_keeps | apply keepsRes_onlyIf)

theorem execFlr_keepsRes (p : Port) {s : State} (h : Keeps kp s0 s) :
    KeepsRes kp s0 (execFlr p s) := by
  unfold execFlr
  repeat (with_reducible first | assumption | apply portLoss_keeps | apply keepsRes_onlyIf)

theorem perstPin_keeps (p : Port) (v : Bool) {s : State} (h : Keeps kp s0 s) :
    Keeps kp s0 (perstPin p v s) := by
  unfold perstPin
  repeat (with_reducible first | assumption | apply updHpt_keeps | exact fun x => x | apply Keeps.put_chp)

theorem idleLoss_keeps (p : Port) {s : State} (h : Keeps kp s0 s) :
    Keeps kp s0 (idleLoss p s) := by
  unfold idleLoss
  repeat (with_reducible first | assumption | apply portReset_keeps | apply updHpt_keeps | apply perstPin_keeps)

theorem execPerstAssert_keepsRes (p : Port) {s : State} (h : Keeps kp s0 s) :
    KeepsRes kp s0 (execPerstAssert p s) := by
  unfold execPerstAssert
  repeat (with_reducible first | assumption | apply portLoss_keeps | apply idleLoss_keeps | apply keepsRes_onlyIf
                               | apply keeps_ite)

theorem execPerstDeassert_keepsRes (p : Port) {s : State} (h : Keeps kp s0 s) (h_seq : kp.seq = false) :
    KeepsRes kp s0 (execPerstDeassert p s) := by
  unfold execPerstDeassert
  repeat (with_reducible first | assumption | apply execWakeFromDormant_keepsRes | apply updHpt_keeps | apply emit_keeps
                               | apply perstPin_keeps | apply keepsRes_onlyIf | apply keepsRes_ite | apply keeps_ite)

theorem execHostLinkDlUp_keepsRes (p : Port) (flit : Bool) (width : Nat) (speed : Nat) {s : State} (h : Keeps kp s0 s) :
    KeepsRes kp s0 (execHostLinkDlUp p flit width speed s) := by
  unfold execHostLinkDlUp
  repeat (with_reducible first | assumption | apply updHpt_keeps | apply keepsRes_onlyIf)

theorem execHostReady_keepsRes (p : Port) {s : State} (h : Keeps kp s0 s) :
    KeepsRes kp s0 (execHostReady p s) := by
  unfold execHostReady
  repeat (with_reducible first | assumption | apply updStats_keeps | apply updHpt_keeps | apply seqd_keeps
                               | apply blockReset_keeps | apply setInt_keeps | apply keepsRes_onlyIf | apply keeps_ite)

theorem readOver_keeps (w : DmaRead) (j : ReadJob) (ok : Bool) {s : State} (h : Keeps kp s0 s) :
    Keeps kp s0 (readOver w j ok s) := by
  unfold readOver
  repeat (with_reducible first | assumption | apply updStats_keeps | apply dropReads_keeps)

theorem landEntry_keeps (sq : Nat) (pos : Nat) (data : Bytes) {s : State} (h : Keeps kp s0 s) :
    Keeps kp s0 (landEntry sq pos data s) := by
  unfold landEntry
  repeat (with_reducible first | assumption | apply flushDb_keeps | apply ringError_keeps | apply updRing_keeps
                               | apply keeps_ite)

theorem landAnchor_keeps (p : Port) (data : Bytes) {s : State} (h : Keeps kp s0 s) :
    Keeps kp s0 (landAnchor p data s) := by
  unfold landAnchor
  repeat (with_reducible first | assumption | apply seqd_keeps | apply updBnv_keeps | apply updAnc_keeps)

theorem land_keeps (w : DmaRead) (data : Bytes) {s : State} (h : Keeps kp s0 s) :
    Keeps kp s0 (land w data s) := by
  unfold land
  repeat (first | (with_reducible first | assumption | apply updLcs_keeps | apply landAnchor_keeps
                                        | apply updLat_keeps | apply updCarr_keeps | apply updFwu_keeps
                                        | apply updUcp_keeps | apply updSeg_keeps | apply landEntry_keeps
                                        | apply runAdmission_keeps | apply markStaging_keeps)
                | (show _ = _; rfl) | split)

theorem execHostDmaReadDone_keepsRes (what : DmaRead) (data : Bytes) {s : State} (h : Keeps kp s0 s) :
    KeepsRes kp s0 (execHostDmaReadDone what data s) := by
  unfold execHostDmaReadDone
  repeat (first | (with_reducible first | assumption | apply land_keeps | apply dropReads_keeps
                                        | apply readOver_keeps | apply keepsRes_next | apply keepsRes_onlyIf)
                | split)

theorem landError_keeps (w : DmaRead) {s : State} (h : Keeps kp s0 s) :
    Keeps kp s0 (landError w s) := by
  unfold landError
  repeat (first | (with_reducible first | assumption | apply stop_keeps | apply latEnd_keeps | apply updCarr_keeps
                                        | apply flushDb_keeps | apply stageEnd_keeps | apply updAnc_keeps
                                        | apply dbgEnd_keeps | apply dropChallenge_keeps | apply reap_keeps
                                        | apply ringError_keeps | apply runAdmission_keeps | apply updRing_keeps
                                        | apply ucpEnd_keeps | apply keeps_ite)
                | split)

theorem aerRead_keeps (p : Port) {s : State} (h : Keeps kp s0 s) :
    Keeps kp s0 (aerRead p s) := by
  unfold aerRead
  repeat (with_reducible first | assumption | apply updStats_keeps | apply draw_keeps)

theorem badRead_keeps (p : Port) {s : State} (h : Keeps kp s0 s) :
    Keeps kp s0 (badRead p s) := by
  unfold badRead
  repeat (with_reducible first | assumption | apply updHpt_keeps | apply aerRead_keeps | apply keeps_ite)

theorem execDmaReadError_keepsRes (what : DmaRead) {s : State} (h : Keeps kp s0 s) :
    KeepsRes kp s0 (execDmaReadError what s) := by
  unfold execDmaReadError
  repeat (first | (with_reducible first | assumption | apply landError_keeps | apply badRead_keeps
                                        | apply dropReads_keeps | apply readOver_keeps | apply updRing_keeps
                                        | apply keepsRes_next | apply keepsRes_onlyIf)
                | split)

theorem turnAway_keeps (p : Port) (read : Bool) {s : State} (h : Keeps kp s0 s) :
    Keeps kp s0 (turnAway p read s) := by
  unfold turnAway
  repeat (with_reducible first | assumption | apply answer_keeps | apply keeps_ite)

theorem discarded_keeps (p : Port) {s : State} (h : Keeps kp s0 s) :
    Keeps kp s0 (discarded p s) := by
  unfold discarded
  repeat (with_reducible first | assumption | apply updHpt_keeps | apply keeps_ite)

theorem execAccessDiscard_keepsRes (p : Port) (x : Access) {s : State} (h : Keeps kp s0 s) :
    KeepsRes kp s0 (execAccessDiscard p x s) := by
  unfold execAccessDiscard
  repeat (with_reducible first | assumption | apply turnAway_keeps | apply discarded_keeps | apply keepsRes_onlyIf
                               | apply keeps_ite)

theorem execRequestTooLong_keepsRes (p : Port) (read : Bool) {s : State} (h : Keeps kp s0 s) :
    KeepsRes kp s0 (execRequestTooLong p read s) := by
  unfold execRequestTooLong
  repeat (with_reducible first | assumption | apply updHpt_keeps | apply turnAway_keeps | apply keepsRes_onlyIf
                               | apply keeps_ite)

theorem execPartialWrite_keepsRes (p : Port) (place : BarPlace) {s : State} (h : Keeps kp s0 s) :
    KeepsRes kp s0 (execPartialWrite p place s) := by
  unfold execPartialWrite
  repeat (with_reducible first | assumption | apply updHpt_keeps | apply legTouch_keeps | apply cntWr_keeps
                               | apply keepsRes_onlyIf | apply keeps_ite)

theorem clearHpt_keepsOpt (q : Port) (off : Nat) {s : State} (h : Keeps kp s0 s) :
    KeepsOpt kp s0 (clearHpt q off s) := by
  unfold clearHpt
  repeat (first | (with_reducible first | assumption | apply updStats_keeps | apply updHpt_keeps
                                        | apply keepsOpt_some | apply keepsOpt_none)
                | split)

theorem clearCar_keepsOpt (off : Nat) {s : State} (h : Keeps kp s0 s) :
    KeepsOpt kp s0 (clearCar off s) := by
  unfold clearCar
  repeat (first | (with_reducible first | assumption | apply updCar_keeps | apply keepsOpt_some | apply keepsOpt_none)
                | (show _ = _; rfl) | (with_reducible first | exact fun x => x | refine carOk ?_ ?_ ?_) | split)

theorem clearCay_keepsOpt (off : Nat) {s : State} (h : Keeps kp s0 s) :
    KeepsOpt kp s0 (clearCay off s) := by
  unfold clearCay
  repeat (first | (with_reducible first | assumption | apply updBlock_keeps | apply updWork_keeps
                                        | apply updRegion_keeps | apply keepsOpt_some | apply keepsOpt_none
                                        | apply keepsOpt_ite)
                | split)

theorem clearKst_keepsOpt (off : Nat) {s : State} (h : Keeps kp s0 s) :
    KeepsOpt kp s0 (clearKst off s) := by
  unfold clearKst
  repeat (first | (with_reducible first | assumption | apply updVlt_keeps | apply updKst_keeps | apply keepsOpt_some
                                        | apply keepsOpt_none)
                | (show _ = _; rfl) | with_reducible exact fun x => x | split | with_reducible apply Keeps.put_leg)

theorem clearEngine_keepsOpt (p : Port) (b : Blk) (off : Nat) {s : State} (h : Keeps kp s0 s) :
    KeepsOpt kp s0 (clearEngine p b off s) := by
  unfold clearEngine
  repeat (first | (with_reducible first | assumption | apply updLat_keeps | apply updChan_keeps | apply updUcp_keeps
                                        | apply updBnv_keeps | apply updRng_keeps | apply keepsOpt_some
                                        | apply keepsOpt_none)
                | (show _ = _; rfl) | (with_reducible apply And.intro) | split)

theorem clearTmp_keepsOpt (off : Nat) {s : State} (h : Keeps kp s0 s) :
    KeepsOpt kp s0 (clearTmp off s) := by
  unfold clearTmp
  repeat (first | (with_reducible first | assumption | apply updTmp_keeps | apply keepsOpt_some | apply keepsOpt_none)
                | (show _ = _; rfl) | split)

theorem clearRest_keepsOpt (b : Blk) (off : Nat) {s : State} (h : Keeps kp s0 s) :
    KeepsOpt kp s0 (clearRest b off s) := by
  unfold clearRest
  repeat (first | (with_reducible first | assumption | apply updDrb_keeps | apply updWld_keeps | apply updGov_keeps
                                        | apply updEvr_keeps | apply updMem_keeps | apply keepsOpt_some
                                        | apply keepsOpt_none)
                | (show _ = _; rfl) | (with_reducible first | exact fun x => x | exact twf_tupd _ _ _ _) | split)

theorem clearPlace_keepsOpt (p : Port) (x : Place) {s : State} (h : Keeps kp s0 s) :
    KeepsOpt kp s0 (clearPlace p x s) := by
  unfold clearPlace
  repeat (first | (with_reducible first | assumption | apply updTtb_keeps | apply updMdf_keeps | apply updDiag_keeps
                                        | apply updSlice_keeps | apply keepsOpt_some | apply keepsOpt_none
                                        | apply clearEngine_keepsOpt | apply clearTmp_keepsOpt
                                        | apply clearCar_keepsOpt | apply clearRest_keepsOpt
                                        | apply clearCay_keepsOpt | apply clearHpt_keepsOpt | apply clearKst_keepsOpt)
                | (show _ = _; rfl)
                | (with_reducible first | exact fun x => x | exact fun _ => rfl | refine mdfOk ?_ ?_ ?_ ?_) | split
                | with_reducible apply Keeps.put_chp)

theorem senseFree_keeps (i : Nat) {s : State} (h : Keeps kp s0 s) :
    Keeps kp s0 (senseFree i s) := by
  unfold senseFree
  repeat (with_reducible first | assumption | apply sense_keeps)

theorem sampleHpt_keeps (q : Port) (o : Nat) {s : State} (h : Keeps kp s0 s) :
    Keeps kp s0 (sampleHpt q o s) := by
  unfold sampleHpt
  repeat (first | (with_reducible first | assumption | apply updStats_keeps | apply updHpt_keeps | apply draw_keeps)
                | split)

theorem sampleMedia_keeps (d : Nat) {s : State} (h : Keeps kp s0 s) :
    Keeps kp s0 (sampleMedia d s) := by
  unfold sampleMedia
  repeat (with_reducible first | assumption | apply draw_keeps | apply updDiag_keeps)

theorem sample_keeps (p : Port) (x : Place) {s : State} (h : Keeps kp s0 s) :
    Keeps kp s0 (sample p x s) := by
  unfold sample
  repeat (first | (with_reducible first | assumption | apply senseFree_keeps | apply updWld_keeps
                                        | apply sampleMedia_keeps | apply updVlt_keeps | apply draw_keeps
                                        | apply sampleHpt_keeps | apply updWork_keeps | apply updTmp_keeps
                                        | apply updRegion_keeps | apply updMem_keeps)
                | (show _ = _; rfl) | with_reducible exact fun x => x | split | with_reducible apply Keeps.put_chp)

theorem updLatch_keeps (p : Port) (f : Latches → Latches) {s : State} (h : Keeps kp s0 s) :
    Keeps kp s0 (updLatch p f s) := by
  unfold updLatch
  repeat (with_reducible first | assumption | apply updWin_keeps)

theorem latchLo_keepsOpt (p : Port) (off : Nat) {s : State} (h : Keeps kp s0 s) :
    KeepsOpt kp s0 (latchLo p off s) := by
  unfold latchLo
  repeat (first | (with_reducible first | assumption | apply updLatch_keeps | apply seqd_keeps | apply updCar_keeps
                                        | apply keepsOpt_some | apply keepsOpt_none)
                | (show _ = _; rfl) | (with_reducible first | exact fun x => x | refine carOk ?_ ?_ ?_) | split)

theorem storeTtb_keepsStore (off : Nat) (v : Nat) {s : State} (h : Keeps kp s0 s) :
    KeepsStore kp s0 (storeTtb off v s) := by
  unfold storeTtb
  repeat (with_reducible first | assumption | apply updTable_keeps | apply keepsStore_sets | apply keepsStore_ignored
                               | apply keepsStore_ite)

theorem storeHpt_keepsStore (p : Port) (off : Nat) (v : Nat) {s : State} (h : Keeps kp s0 s) :
    KeepsStore kp s0 (storeHpt p off v s) := by
  unfold storeHpt
  repeat (first | (with_reducible first | assumption | apply updHpt_keeps | apply keepsStore_sets
                                        | apply keepsStore_ignored)
                | split)

theorem storeRs_keepsStore (p : Port) (sl : Option Nat) (off : Nat) (v : Nat) {s : State} (h : Keeps kp s0 s) :
    KeepsStore kp s0 (storeRs p sl off v s) := by
  unfold storeRs
  repeat (with_reducible first | assumption | apply updRs_keeps | apply keepsStore_sets | apply keepsStore_ignored
                               | apply keepsStore_ite)

theorem storeCar_keepsStore (p : Port) (off : Nat) (v : Nat) {s : State} (h : Keeps kp s0 s) :
    KeepsStore kp s0 (storeCar p off v s) := by
  unfold storeCar
  repeat (first | (with_reducible apply keepsStore_ranged; intro hok;
                                      refine Keeps.set h rfl (fun y => by simpa only [tablesOk, carTables, mdfTables,
                                      updCar, updMdf, updRng, updTmp, updEvr, updGov, updVlt,
                                      updUcp] using y) rfl rfl rfl rfl rfl rfl rfl ?_; intro x;
                                      simp only [settingsOk, mediaOk, governorOk, Bool.and_eq_true,
                                      decide_eq_true_eq] at hok x ⊢; simp (disch := decide) only [updCar, updMdf,
                                      updKst, updVlt, updUcp, updRng, updTmp, updEvr, updGov, le_clamp, clamp_le,
                                      and_true, true_and, bits, Nat.reducePow, Nat.reduceMul, Nat.reduceLeDiff,
                                      decide_true] at hok ⊢; ((repeat' split) <;> omega))
                | (with_reducible first | assumption | apply keepsStore_ite | apply storeRs_keepsStore))

theorem storeSlc_keepsStore (p : Port) (off : Nat) (v : Nat) {s : State} (h : Keeps kp s0 s) :
    KeepsStore kp s0 (storeSlc p off v s) := by
  unfold storeSlc
  repeat (with_reducible first | assumption | apply updWin_keeps | apply updSlice_keeps | apply keepsStore_sets
                               | apply keepsStore_ignored | apply keepsStore_ite)

theorem storeCay_keepsStore (off : Nat) (v : Nat) {s : State} (h : Keeps kp s0 s) :
    KeepsStore kp s0 (storeCay off v s) := by
  unfold storeCay
  repeat (with_reducible first | assumption | apply updRegion_keeps | apply keepsStore_sets | apply keepsStore_ignored
                               | apply keepsStore_ite)

theorem storeMdf_keepsStore (p : Port) (off : Nat) (v : Nat) {s : State} (h : Keeps kp s0 s) :
    KeepsStore kp s0 (storeMdf p off v s) := by
  unfold storeMdf
  repeat (first | (with_reducible apply keepsStore_ranged; intro hok;
                                      refine Keeps.set h rfl (fun y => by simpa only [tablesOk, carTables, mdfTables,
                                      updCar, updMdf, updRng, updTmp, updEvr, updGov, updVlt,
                                      updUcp] using y) rfl rfl rfl rfl rfl rfl rfl ?_; intro x;
                                      simp only [settingsOk, mediaOk, governorOk, Bool.and_eq_true,
                                      decide_eq_true_eq] at hok x ⊢; simp (disch := decide) only [updCar, updMdf,
                                      updKst, updVlt, updUcp, updRng, updTmp, updEvr, updGov, le_clamp, clamp_le,
                                      and_true, true_and, bits, Nat.reducePow, Nat.reduceMul, Nat.reduceLeDiff,
                                      decide_true] at hok ⊢; ((repeat' split) <;> omega))
                | (refine Keeps.set h rfl (fun y => by simpa only [tablesOk, carTables, mdfTables, updCar, updMdf,
                                      updRng, updTmp, updEvr, updGov, updVlt,
                                      updUcp] using y) rfl rfl rfl rfl rfl rfl rfl ?_; intro x;
                                      simp only [settingsOk, mediaOk, governorOk, Bool.and_eq_true,
                                      decide_eq_true_eq] at x ⊢; simp (disch := decide) only [updCar, updMdf, updKst,
                                      updVlt, updUcp, updRng, updTmp, updEvr, updGov, le_clamp, clamp_le, and_true,
                                      true_and, bits, Nat.reducePow, Nat.reduceMul, Nat.reduceLeDiff, decide_true];
                                      ((repeat' split) <;> omega))
                | (with_reducible first | assumption | apply updWin_keeps | apply keepsStore_sets
                                        | apply keepsStore_ignored | apply keepsStore_guardedBy)
                | split)

theorem storeKst_keepsStore (p : Port) (off : Nat) (v : Nat) {s : State} (h : Keeps kp s0 s) :
    KeepsStore kp s0 (storeKst p off v s) := by
  unfold storeKst
  repeat (first | (refine Keeps.set h rfl (fun x => x) rfl rfl rfl rfl rfl rfl rfl ?_; intro x; simp only [settingsOk,
      mediaOk, governorOk, Bool.and_eq_true, decide_eq_true_eq] at x ⊢; simp (disch := decide) only [updCar, updMdf,
      updKst, updVlt, updUcp, updRng, updTmp, updEvr, updGov, le_clamp, clamp_le, and_true, true_and, bits,
      Nat.reducePow, Nat.reduceMul, Nat.reduceLeDiff, decide_true]; ((repeat' split) <;> omega))
                | (with_reducible first | assumption | apply updWin_keeps | apply keepsStore_sets
                                        | apply keepsStore_ignored)
                | split)

theorem ucpField_idle {off v : Nat} {u w : Ucp} (e : ucpField off v u = some w) : w.idle = u.idle := by
  unfold ucpField at e
  (repeat' split at e) <;> cases e <;> rfl

theorem storeUcp_keepsStore (p : Port) (off : Nat) (v : Nat) {s : State} (h : Keeps kp s0 s) :
    KeepsStore kp s0 (storeUcp p off v s) := by
  unfold storeUcp
  repeat (first | (refine Keeps.set h rfl (fun x => x) rfl rfl rfl rfl rfl rfl rfl ?_; intro x; simp only [settingsOk,
      mediaOk, governorOk, Bool.and_eq_true, decide_eq_true_eq] at x ⊢; simp (disch := decide) only [updCar, updMdf,
      updKst, updVlt, updUcp, updRng, updTmp, updEvr, updGov, le_clamp, clamp_le, and_true, true_and, bits,
      Nat.reducePow, Nat.reduceMul, Nat.reduceLeDiff, decide_true]; ((repeat' split) <;> omega))
                | (exact Keeps.put_ucp h (ucpField_idle (by assumption)))
                | (with_reducible first | apply keepsStore_sets | apply keepsStore_ignored | apply keepsStore_denied)
                | split)

theorem storeLat_keepsStore (p : Port) (off : Nat) (v : Nat) {s : State} (h : Keeps kp s0 s) :
    KeepsStore kp s0 (storeLat p off v s) := by
  unfold storeLat
  repeat (first | (with_reducible first | assumption | apply updWin_keeps | apply keepsStore_sets
                                        | apply keepsStore_ignored)
                | split)

theorem storeBnv_keepsStore (p : Port) (off : Nat) (v : Nat) {s : State} (h : Keeps kp s0 s) :
    KeepsStore kp s0 (storeBnv p off v s) := by
  unfold storeBnv
  repeat (first | (with_reducible apply keepsStore_ranged; intro _)
                | (with_reducible first | assumption | apply updChan_keeps | apply updAnc_keeps
                                        | apply keepsStore_sets | apply keepsStore_ignored
                                        | apply keepsStore_foreign | apply keepsStore_ite)
                | split)

theorem storeRng_keepsStore (off : Nat) (v : Nat) {s : State} (h : Keeps kp s0 s) :
    KeepsStore kp s0 (storeRng off v s) := by
  unfold storeRng
  repeat (first | (refine Keeps.set h rfl (fun x => x) rfl rfl rfl rfl rfl rfl rfl ?_; intro x; simp only [settingsOk,
      mediaOk, governorOk, Bool.and_eq_true, decide_eq_true_eq] at x ⊢; simp (disch := decide) only [updCar, updMdf,
      updKst, updVlt, updUcp, updRng, updTmp, updEvr, updGov, le_clamp, clamp_le, and_true, true_and, bits,
      Nat.reducePow, Nat.reduceMul, Nat.reduceLeDiff, decide_true]; ((repeat' split) <;> omega))
                | (with_reducible first | apply keepsStore_sets | apply keepsStore_ignored) | split)

theorem govThresholds_keeps {v : Nat} {s : State} (h : Keeps kp s0 s) :
    KeepsStore kp s0 (ranged (50 ≤ bits v 0 7 && bits v 0 7 ≤ 100 && (bits v 0 7 ≤ bits v 8 7 || 10 ≤ bits v 8 7 &&
        bits v 8 7 ≤ 90) && 1 ≤ bits v 16 8)
      (updGov (fun g => { g with
        up := bits v 0 7, down := if bits v 8 7 < bits v 0 7 then bits v 8 7 else bits v 0 7 - 10
        hold := bits v 16 8 }) s)) := by
  refine keepsStore_ranged (fun hok => Keeps.set h rfl (fun x => x) rfl rfl rfl rfl rfl rfl rfl (fun x => ?_))
  have hb : bits v 16 8 ≤ 255 := Nat.le_of_lt_succ (Nat.mod_lt _ (by decide))
  simp only [settingsOk, governorOk, Bool.and_eq_true, Bool.or_eq_true, decide_eq_true_eq] at x hok ⊢
  simp only [updGov]
  split <;> simp only [x, true_and, and_true] <;> omega

theorem storeRest_keepsStore (p : Port) (b : Blk) (off : Nat) (v : Nat) {s : State} (h : Keeps kp s0 s) :
    KeepsStore kp s0 (storeRest p b off v s) := by
  unfold storeRest
  repeat (first | (exact govThresholds_keeps h)
                | (refine Keeps.set h rfl (fun y => by simpa only [tablesOk, carTables, mdfTables, updCar, updMdf,
                                      updRng, updTmp, updEvr, updGov, updVlt,
                                      updUcp] using y) rfl rfl rfl rfl rfl rfl rfl ?_; intro x;
                                      simp only [settingsOk, mediaOk, governorOk, Bool.and_eq_true,
                                      decide_eq_true_eq] at x ⊢; simp (disch := decide) only [updCar, updMdf, updKst,
                                      updVlt, updUcp, updRng, updTmp, updEvr, updGov, le_clamp, clamp_le, and_true,
                                      true_and, bits, Nat.reducePow, Nat.reduceMul, Nat.reduceLeDiff, decide_true];
                                      ((repeat' split) <;> omega))
                | (with_reducible first | assumption | apply updLcs_keeps | apply updWin_keeps | apply updFwu_keeps
                                        | apply keepsStore_sets | apply keepsStore_ignored | apply keepsStore_guardedBy)
                | (show _ = _; rfl) | split)

theorem storePlace_keepsStore (p : Port) (x : Place) (v : Nat) {s : State} (h : Keeps kp s0 s) :
    KeepsStore kp s0 (storePlace p x v s) := by
  unfold storePlace
  repeat (first | (with_reducible first | assumption | apply keepsStore_ignored | apply storeKst_keepsStore
                                        | apply storeCay_keepsStore | apply storeBnv_keepsStore
                                        | apply storeMdf_keepsStore | apply storeRest_keepsStore
                                        | apply storeLat_keepsStore | apply storeSlc_keepsStore
                                        | apply storeCar_keepsStore | apply storeTtb_keepsStore
                                        | apply storeUcp_keepsStore | apply storeHpt_keepsStore
                                        | apply storeRng_keepsStore)
                | split)

theorem storePage_keepsStore (p : Port) (n : Nat) (off : Nat) (v : Nat) {s : State} (h : Keeps kp s0 s) :
    KeepsStore kp s0 (storePage p n off v s) := by
  unfold storePage
  repeat (with_reducible first | assumption | apply updSlice_keeps | apply keepsStore_sets | apply keepsStore_ignored
                               | apply keepsStore_ite | apply storeRs_keepsStore)

theorem stored_keeps (p : Port) (read : State → Nat) (w : Store) {s : State} (h : Keeps kp s0 s)
    (hw : KeepsStore kp s0 w) : Keeps kp s0 (stored p read w s) := by
  unfold stored
  split
  · exact h
  · exact rangeErr_keeps _ h
  · exact guardErr_keeps _ h
  · exact updHpt_keeps h
  · exact updUcp_keeps h rfl
  · exact seqIf_keeps _ (hw _ rfl)

theorem readAnswer_keeps (p : Port) (v : Nat) {s : State} (h : Keeps kp s0 s) :
    Keeps kp s0 (readAnswer p v s) := by
  unfold readAnswer
  repeat (with_reducible first | assumption | apply answer_keeps | apply cntRd_keeps)

theorem readBar0_keeps (p : Port) (off : Nat) (x : Place) {s : State} (h : Keeps kp s0 s) :
    Keeps kp s0 (readBar0 p off x s) := by
  unfold readBar0
  repeat (first | (with_reducible first | assumption | apply readAnswer_keeps | apply seqd_keeps | apply sample_keeps)
                | split | dsimp only | (refine latchLo_keepsOpt _ _ ?_ _ (by assumption))
                | (refine clearPlace_keepsOpt _ _ ?_ _ (by assumption)))

theorem readPageAt_keeps (p : Port) (n : Nat) (off : Nat) {s : State} (h : Keeps kp s0 s) :
    Keeps kp s0 (readPageAt p n off s) := by
  unfold readPageAt
  repeat (with_reducible first | assumption | apply readAnswer_keeps | apply seqd_keeps | apply answer_keeps
                               | apply updSlice_keeps | apply keeps_ite)

theorem readWord_keepsRes (p : Port) (pasid : Option Nat) (bar : Bar) (off : Nat) {s : State} (h : Keeps kp s0 s) :
    KeepsRes kp s0 (readWord p pasid bar off s) := by
  unfold readWord
  repeat (first | (with_reducible first | assumption | apply execOperandAccess_keepsRes | apply readPageAt_keeps
                                        | apply readAnswer_keeps | apply turnAway_keeps | apply answer_keeps
                                        | apply readBar0_keeps | apply discarded_keeps
                                        | apply execUcpLockAcquire_keepsRes | apply execTtbAcquire_keepsRes
                                        | apply keepsRes_next)
                | split)

theorem inTurn_keepsRes {α : Type} (f : α → State → Res) (l : List α) {s : State} (h : Keeps kp s0 s)
    (hf : ∀ x s, Keeps kp s0 s → KeepsRes kp s0 (f x s)) : KeepsRes kp s0 (inTurn f l s) := by
  induction l generalizing s with
  | nil => exact keepsRes_next h
  | cons x l ih =>
    have k := hf x s h
    unfold inTurn
    split
    · exact ih (k _ ‹_›)
    · exact k

theorem maskAnswers_keeps (m : Nat) (n : Nat) {s : State} (h : Keeps kp s0 s) :
    Keeps kp s0 (maskAnswers m n s) := by
  unfold maskAnswers
  repeat (with_reducible first | assumption | apply Keeps.put_out)

theorem readEnabled_keepsRes (p : Port) (pasid : Option Nat) (bar : Bar) (x : Nat × List Bool) {s : State} (h : Keeps
    kp s0 s) :
    KeepsRes kp s0 (readEnabled p pasid bar x s) := by
  have k := readWord_keepsRes p pasid bar x.1 h
  unfold readEnabled
  refine keepsRes_ite (keepsRes_next h) ?_
  split
  · exact keepsRes_next (maskAnswers_keeps _ _ (k _ ‹_›))
  · exact k

theorem execRcRead_keepsRes (p : Port) (pasid : Option Nat) (req : RegRead) {s : State} (h : Keeps kp s0 s) :
    KeepsRes kp s0 (execRcRead p pasid req s) := by
  unfold execRcRead
  repeat (first | (with_reducible first | assumption | apply execOperandAccess_keepsRes | apply readWord_keepsRes
                                        | apply inTurn_keepsRes | apply execRequestTooLong_keepsRes
                                        | apply readEnabled_keepsRes)
                | split)

theorem execLatchedLoRead_keepsRes (p : Port) (off : Nat) {s : State} (h : Keeps kp s0 s) :
    KeepsRes kp s0 (execLatchedLoRead p off s) := by
  unfold execLatchedLoRead
  repeat (first | (with_reducible first | assumption | apply readAnswer_keeps | apply keepsRes_next
                                        | apply keepsRes_onlyIf)
                | split | (refine latchLo_keepsOpt _ _ ?_ _ (by assumption)))

theorem execHptIntStatClear_keepsRes (p : Port) (value : Nat) {s : State} (h : Keeps kp s0 s) :
    KeepsRes kp s0 (execHptIntStatClear p value s) := by
  unfold execHptIntStatClear
  repeat (with_reducible first | assumption | apply updHpt_keeps | apply seqIf_keeps | apply legTouch_keeps
                               | apply cntWr_keeps | apply keepsRes_onlyIf)

theorem wrote_keepsRes (p : Port) (b : Blk) (f : State → State) {s : State} (h : Keeps kp s0 s) (hf : ∀ s, Keeps kp s0
    s → Keeps kp s0 (f s)) :
    KeepsRes kp s0 (wrote p b f s) := by
  unfold wrote
  repeat (with_reducible first | assumption | apply hf | apply legTouch_keeps | apply cntWr_keeps
                               | apply keepsRes_onlyIf)

theorem rsCmdWrite_keepsRes (p : Port) (sl : Option Nat) (v : Nat) {s : State} (h : Keeps kp s0 s) :
    KeepsRes kp s0 (rsCmdWrite p sl v s) := by
  unfold rsCmdWrite
  repeat (first | (with_reducible first | assumption | apply execRsDisable_keepsRes | apply execRsReset_keepsRes
                                        | apply execRsEnable_keepsRes | apply wrote_keepsRes
                                        | apply pageDiscard_keeps | apply rangeErr_keeps
                                        | apply execRsWrite_keepsRes | apply cntWr_keeps | apply execRsRead_keepsRes
                                        | apply keepsRes_next | apply id_keeps)
                | split)

theorem abortCmdWrite_keepsRes (p : Port) (sl : Option Nat) (v : Nat) {s : State} (h : Keeps kp s0 s) :
    KeepsRes kp s0 (abortCmdWrite p sl v s) := by
  unfold abortCmdWrite
  repeat (first | (with_reducible first | assumption | apply execAbortByCookie_keepsRes | apply wrote_keepsRes
                                        | apply pageDiscard_keeps | apply badDoorbell_keeps | apply cntWr_keeps
                                        | apply execAbortAll_keepsRes | apply keepsRes_next | apply id_keeps)
                | split)

theorem dbWrite_keepsRes (p : Port) (sl : Option Nat) (j : Nat) (v : Nat) {s : State} (h : Keeps kp s0 s) :
    KeepsRes kp s0 (dbWrite p sl j v s) := by
  unfold dbWrite
  repeat (first | (with_reducible first | assumption | apply execCqDoorbell_keepsRes | apply execSqDoorbell_keepsRes)
                | split)

theorem actCar_keepsOptRes (p : Port) (off : Nat) (v : Nat) {s : State} (h : Keeps kp s0 s) :
    KeepsOptRes kp s0 (actCar p off v s) := by
  unfold actCar
  repeat (with_reducible first | assumption | apply rsCmdWrite_keepsRes | apply abortCmdWrite_keepsRes
                               | apply dbWrite_keepsRes | apply keepsOptRes_some | apply keepsOptRes_none
                               | apply keepsOptRes_ite)

theorem actSlc_keepsOptRes (p : Port) (off : Nat) (v : Nat) {s : State} (h : Keeps kp s0 s) :
    KeepsOptRes kp s0 (actSlc p off v s) := by
  unfold actSlc
  repeat (first | (with_reducible first | assumption | apply guardErr_keeps | apply execQuery_keepsRes
                                        | apply execRemove_keepsRes | apply execSlcCreate_keepsRes
                                        | apply execBind_keepsRes | apply execUnfreeze_keepsRes
                                        | apply wrote_keepsRes | apply execUnbind_keepsRes | apply rangeErr_keeps
                                        | apply execSlcRead_keepsRes | apply managerMbxWrite_keepsRes
                                        | apply execSlcWrite_keepsRes | apply keepsOptRes_some
                                        | apply keepsOptRes_none | apply id_keeps)
                | split)

theorem actKst_keepsOptRes (p : Port) (off : Nat) (v : Nat) {s : State} (h : Keeps kp s0 s) :
    KeepsOptRes kp s0 (actKst p off v s) := by
  unfold actKst
  repeat (with_reducible first | assumption | apply execLegCommit_keepsRes | apply execLegKeyWordWrite_keepsRes
                               | apply wrote_keepsRes | apply execReplGo_keepsRes | apply execLegKey0Write_keepsRes
                               | apply keepsOptRes_some | apply keepsOptRes_none | apply keepsOptRes_ite
                               | apply keepsRes_ite | apply id_keeps)

theorem actEngine_keepsOptRes (p : Port) (b : Blk) (off : Nat) (v : Nat) {s : State} (h : Keeps kp s0 s) :
    KeepsOptRes kp s0 (actEngine p b off v s) := by
  unfold actEngine
  repeat (first | (with_reducible first | assumption | apply katBegin_keeps | apply execAncLoad_keepsRes
                                        | apply execAncClear_keepsRes | apply rngStart_keeps | apply latRow_keepsRes
                                        | apply seqd_keeps | apply execUcpLockRelease_keepsRes | apply updUcp_keeps
                                        | apply wrote_keepsRes | apply execLatAbort_keepsRes | apply ucpRow_keepsRes
                                        | apply execBnvAbort_keepsRes | apply askReseed_keeps | apply rangeErr_keeps
                                        | apply chanRow_keepsRes | apply keepsOptRes_some | apply keepsOptRes_none
                                        | (intro s h) | apply id_keeps)
                | (show _ = _; rfl) | split)

theorem actRest_keepsOptRes (p : Port) (b : Blk) (off : Nat) (v : Nat) {s : State} (h : Keeps kp s0 s) (h_time :
    kp.time = false) (h_flash : kp.flash = false) :
    KeepsOptRes kp s0 (actRest p b off v s) := by
  unfold actRest
  repeat (first | (with_reducible first | assumption | apply execStageManifest_keepsRes
                                        | apply execStageImage_keepsRes | apply execReenum_keepsRes
                                        | apply execRespGo_keepsRes | apply wrote_keepsRes
                                        | apply execTmpResume_keepsRes | apply execStageAbort_keepsRes
                                        | apply execFlush_keepsRes | apply execCursor_keepsRes
                                        | apply execGovDorm_keepsRes | apply execDbgGo_keepsRes
                                        | apply keepsOptRes_some | apply keepsOptRes_none | apply id_keeps)
                | split)

theorem actPlace_keepsOptRes (p : Port) (x : Place) (v : Nat) {s : State} (h : Keeps kp s0 s) (h_time : kp.time =
    false) (h_flash : kp.flash = false) :
    KeepsOptRes kp s0 (actPlace p x v s) := by
  unfold actPlace
  repeat (first | (with_reducible first | assumption | apply execHptIntStatClear_keepsRes
                                        | apply execTtbRenew_keepsRes | apply execTtbRelease_keepsRes
                                        | apply keepsOptRes_some | apply keepsOptRes_none
                                        | apply actRest_keepsOptRes | apply actSlc_keepsOptRes
                                        | apply actEngine_keepsOptRes | apply actKst_keepsOptRes
                                        | apply actCar_keepsOptRes)
                | split)

theorem writeBar0_keepsRes (p : Port) (off : Nat) (v : Nat) {s : State} (h : Keeps kp s0 s) (h_time : kp.time = false)
    (h_flash : kp.flash = false) :
    KeepsRes kp s0 (writeBar0 p off v s) := by
  unfold writeBar0
  repeat (first | (exact actPlace_keepsOptRes _ _ _ h h_time h_flash _ (by assumption))
                | (with_reducible first | assumption | apply legTouch_keeps | apply stored_keeps | apply cntWr_keeps
                                        | apply keepsRes_next | apply keepsRes_onlyIf | apply storePlace_keepsStore)
                | split)

theorem writePage_keepsRes (p : Port) (n : Nat) (off : Nat) (v : Nat) {s : State} (h : Keeps kp s0 s) :
    KeepsRes kp s0 (writePage p n off v s) := by
  unfold writePage
  repeat (with_reducible first | assumption | apply rsCmdWrite_keepsRes | apply abortCmdWrite_keepsRes
                               | apply pageDiscard_keeps | apply dbWrite_keepsRes | apply stored_keeps
                               | apply tenantMbxWrite_keepsRes | apply cntWr_keeps | apply keepsRes_next
                               | apply keepsRes_ite | apply storePage_keepsStore)

theorem msixRelease_keeps (p : Port) (v : Nat) {s : State} (h : Keeps kp s0 s) :
    Keeps kp s0 (msixRelease p v s) := by
  unfold msixRelease
  repeat (with_reducible first | assumption | apply updStats_keeps | apply msixFire_keeps | apply keeps_ite)

theorem writeMsix_keeps (p : Port) (o : Nat) (v : Nat) {s : State} (h : Keeps kp s0 s) :
    Keeps kp s0 (writeMsix p o v s) := by
  unfold writeMsix
  repeat (with_reducible first | assumption | apply updStats_keeps | apply msixRelease_keeps)

theorem cntWrLive_keeps (p : Port) {s : State} (h : Keeps kp s0 s) :
    Keeps kp s0 (cntWrLive p s) := by
  unfold cntWrLive
  repeat (with_reducible first | assumption | apply cntWr_keeps | apply keeps_ite)

theorem writeBar4_keepsRes (p : Port) (off : Nat) (v : Nat) {s : State} (h : Keeps kp s0 s) :
    KeepsRes kp s0 (writeBar4 p off v s) := by
  unfold writeBar4
  repeat (with_reducible first | assumption | apply execOperandAccess_keepsRes | apply writeMsix_keeps
                               | apply cntWrLive_keeps | apply keepsRes_next | apply keepsRes_ite)

theorem writeWord_keepsRes (p : Port) (pasid : Option Nat) (bar : Bar) (off : Nat) (value : Nat) {s : State} (h :
    Keeps kp s0 s) (h_time : kp.time = false) (h_flash : kp.flash = false) :
    KeepsRes kp s0 (writeWord p pasid bar off value s) := by
  unfold writeWord
  repeat (first | (with_reducible first | assumption | apply writeBar0_keepsRes | apply writePage_keepsRes
                                        | apply legTouch_keeps | apply writeBar4_keepsRes | apply discarded_keeps
                                        | apply keepsRes_next | apply keepsRes_onlyIf)
                | split)

theorem writeEnabled_keepsRes (p : Port) (pasid : Option Nat) (bar : Bar) (x : Nat × List (Option Byte)) {s : State}
    (h : Keeps kp s0 s) (h_time : kp.time = false) (h_flash : kp.flash = false) :
    KeepsRes kp s0 (writeEnabled p pasid bar x s) := by
  unfold writeEnabled
  repeat (with_reducible first | assumption | apply writeWord_keepsRes | apply execPartialWrite_keepsRes
                               | apply keepsRes_next | apply keepsRes_ite)

theorem execRegisterWrite_keepsRes (p : Port) (pasid : Option Nat) (place : BarPlace) (data : WriteData) {s : State}
    (h : Keeps kp s0 s) (h_time : kp.time = false) (h_flash : kp.flash = false) :
    KeepsRes kp s0 (execRegisterWrite p pasid place data s) := by
  unfold execRegisterWrite
  repeat (first | (with_reducible first | assumption | apply execOperandAccess_keepsRes | apply writeWord_keepsRes
                                        | apply inTurn_keepsRes | apply execRequestTooLong_keepsRes
                                        | apply writeEnabled_keepsRes | apply cntWrLive_keeps | apply keepsRes_ite
                                        | (intro _ s h))
                | split)

theorem msixReleaseAll_keeps (p : Port) {s : State} (h : Keeps kp s0 s) :
    Keeps kp s0 (msixReleaseAll p s) := by
  unfold msixReleaseAll
  repeat (with_reducible first | assumption | apply msixRelease_keeps | (apply keeps_foldl; intro s x h))

theorem writeCfg_keeps (p : Port) (off : Nat) (v : Nat) {s : State} (h : Keeps kp s0 s) :
    Keeps kp s0 (writeCfg p off v s) := by
  unfold writeCfg
  repeat (with_reducible first | assumption | apply updStats_keeps | apply portLoss_keeps | apply msixReleaseAll_keeps
                               | apply keeps_ite)

theorem execConfigRequest_keepsRes (p : Port) (off : Nat) (write : Option Nat) {s : State} (h : Keeps kp s0 s) :
    KeepsRes kp s0 (execConfigRequest p off write s) := by
  unfold execConfigRequest
  repeat (first | (with_reducible first | assumption | apply writeCfg_keeps | apply emit_keeps | apply keepsRes_onlyIf)
                | split)

theorem timePasses_keeps {s : State} (h : Keeps kp s0 s) (h_time : kp.time = false) : Keeps kp s0 (timePasses s) := by
  unfold timePasses
  exact keeps_ite (keeps_ite (Keeps.put_drb (s := { s with now := s.now + 1 }) (h.put_now h_time) (fun x => x))
      (h.put_drb (fun x => x))) (h.put_now h_time)

theorem selInMoves_keeps {s : State} (h : Keeps kp s0 s) :
    Keeps kp s0 (selInMoves s) := by
  unfold selInMoves
  repeat (with_reducible first | assumption | apply updDrb_keeps | apply draw_keeps | exact fun x => x)

theorem reloadDone_keeps {s : State} (h : Keeps kp s0 s) :
    Keeps kp s0 (reloadDone s) := by
  unfold reloadDone
  repeat (first | (with_reducible first | assumption | apply updVlt_keeps | apply keeps_ite) | (show _ = _; rfl)
                | with_reducible exact fun x => x)

end Sys2Proof.Laws
end

