-- ==== Sys2Proof/Laws/Tables.lean ====
section
/-! SUPPORT. One entry of a table after a change of an entry, in a state whose tables are canonical. -/
namespace Sys2Proof.Laws

open Sys2Proof.Machine Sys2Proof.Safety

/-- The tables that a state with canonical tables has. -/
theorem tablesOk_parts (s : State) (h : tablesOk s = true) :
    twf {} s.ttb.tables = true ∧ twf {} s.car.rings = true ∧ twf {} s.car.cars = true ∧ twf {} s.car.shadows = true ∧
    twf {} s.cay.regions = true ∧ twf {} s.cay.work = true ∧ twf {} s.mdf.links = true ∧ twf {} s.mdf.shelves = true ∧
    twf {} s.mdf.drives = true ∧ twf {} s.mdf.diag = true ∧ twf {} s.kst.slots = true ∧ twf {} s.vlt.props = true ∧
    twf {} s.slc.slices = true ∧ twf {} s.slc.binds = true ∧ twf {} s.gov.regions = true ∧
    twf {} s.drb.members = true := by
  simp only [tablesOk, carTables, cayTables, mdfTables, slcTables, Bool.and_eq_true] at h
  simp only [h, and_self]

/-- The context of ring `g` after its change. -/
theorem ringOf_updRing (k : Nat) (f : Ring → Ring) (s : State) (h : twf {} s.car.rings = true) :
    ringOf (updRing k f s) k = f (ringOf s k) := tget_tupd_same _ _ _ _ h
/-- The context of ring `g` after a change of another. -/
theorem ringOf_updRing_ne (k j : Nat) (f : Ring → Ring) (s : State) (h : j ≠ k) :
    ringOf (updRing k f s) j = ringOf s j := tget_tupd_ne _ _ _ _ _ h
/-- The context of ring `g` after a change that does not make it the empty one. -/
theorem ringOf_updRing_of (k : Nat) (f : Ring → Ring) (s : State) (h : f (ringOf s k) ≠ {}) :
    ringOf (updRing k f s) k = f (ringOf s k) := tget_tupd_of_ne _ _ _ _ h

/-- The carriage of tag `t` after its change. -/
theorem carrOf_updCarr (k : Nat) (f : Carriage → Carriage) (s : State) (h : twf {} s.car.cars = true) :
    carrOf (updCarr k f s) k = f (carrOf s k) := tget_tupd_same _ _ _ _ h
/-- The carriage of tag `t` after a change of another. -/
theorem carrOf_updCarr_ne (k j : Nat) (f : Carriage → Carriage) (s : State) (h : j ≠ k) :
    carrOf (updCarr k f s) j = carrOf s j := tget_tupd_ne _ _ _ _ _ h
/-- The carriage of tag `t` after a change that does not make it the empty one. -/
theorem carrOf_updCarr_of (k : Nat) (f : Carriage → Carriage) (s : State) (h : f (carrOf s k) ≠ {}) :
    carrOf (updCarr k f s) k = f (carrOf s k) := tget_tupd_of_ne _ _ _ _ h

/-- The entry of slice `n` after its change. -/
theorem sliceOf_updSlice (k : Nat) (f : Slice → Slice) (s : State) (h : twf {} s.slc.slices = true) :
    sliceOf (updSlice k f s) k = f (sliceOf s k) := tget_tupd_same _ _ _ _ h
/-- The entry of slice `n` after a change of another. -/
theorem sliceOf_updSlice_ne (k j : Nat) (f : Slice → Slice) (s : State) (h : j ≠ k) :
    sliceOf (updSlice k f s) j = sliceOf s j := tget_tupd_ne _ _ _ _ _ h
/-- The entry of slice `n` after a change that does not make it the empty one. -/
theorem sliceOf_updSlice_of (k : Nat) (f : Slice → Slice) (s : State) (h : f (sliceOf s k) ≠ {}) :
    sliceOf (updSlice k f s) k = f (sliceOf s k) := tget_tupd_of_ne _ _ _ _ h

/-- The slot `i` after its change. -/
theorem slotOf_updSlot (k : Nat) (f : Slot → Slot) (s : State) (h : twf {} s.kst.slots = true) :
    slotOf (updSlot k f s) k = f (slotOf s k) := tget_tupd_same _ _ _ _ h
/-- The slot `i` after a change of another. -/
theorem slotOf_updSlot_ne (k j : Nat) (f : Slot → Slot) (s : State) (h : j ≠ k) :
    slotOf (updSlot k f s) j = slotOf s j := tget_tupd_ne _ _ _ _ _ h
/-- The slot `i` after a change that does not make it the empty one. -/
theorem slotOf_updSlot_of (k : Nat) (f : Slot → Slot) (s : State) (h : f (slotOf s k) ≠ {}) :
    slotOf (updSlot k f s) k = f (slotOf s k) := tget_tupd_of_ne _ _ _ _ h

/-- The drive `d` after its change. -/
theorem driveOf_updDrive (k : Nat) (f : Drive → Drive) (s : State) (h : twf {} s.mdf.drives = true) :
    driveOf (updDrive k f s) k = f (driveOf s k) := tget_tupd_same _ _ _ _ h
/-- The drive `d` after a change of another. -/
theorem driveOf_updDrive_ne (k j : Nat) (f : Drive → Drive) (s : State) (h : j ≠ k) :
    driveOf (updDrive k f s) j = driveOf s j := tget_tupd_ne _ _ _ _ _ h
/-- The drive `d` after a change that does not make it the empty one. -/
theorem driveOf_updDrive_of (k : Nat) (f : Drive → Drive) (s : State) (h : f (driveOf s k) ≠ {}) :
    driveOf (updDrive k f s) k = f (driveOf s k) := tget_tupd_of_ne _ _ _ _ h

/-- The counts of drive `d` after its change. -/
theorem diagOf_updDiag (k : Nat) (f : DriveDiag → DriveDiag) (s : State) (h : twf {} s.mdf.diag = true) :
    diagOf (updDiag k f s) k = f (diagOf s k) := tget_tupd_same _ _ _ _ h
/-- The counts of drive `d` after a change of another. -/
theorem diagOf_updDiag_ne (k j : Nat) (f : DriveDiag → DriveDiag) (s : State) (h : j ≠ k) :
    diagOf (updDiag k f s) j = diagOf s j := tget_tupd_ne _ _ _ _ _ h
/-- The counts of drive `d` after a change that does not make it the empty one. -/
theorem diagOf_updDiag_of (k : Nat) (f : DriveDiag → DriveDiag) (s : State) (h : f (diagOf s k) ≠ {}) :
    diagOf (updDiag k f s) k = f (diagOf s k) := tget_tupd_of_ne _ _ _ _ h

/-- The shelf `n` after its change. -/
theorem shelfOf_updShelf (k : Nat) (f : Shelf → Shelf) (s : State) (h : twf {} s.mdf.shelves = true) :
    shelfOf (updShelf k f s) k = f (shelfOf s k) := tget_tupd_same _ _ _ _ h
/-- The shelf `n` after a change of another. -/
theorem shelfOf_updShelf_ne (k j : Nat) (f : Shelf → Shelf) (s : State) (h : j ≠ k) :
    shelfOf (updShelf k f s) j = shelfOf s j := tget_tupd_ne _ _ _ _ _ h
/-- The shelf `n` after a change that does not make it the empty one. -/
theorem shelfOf_updShelf_of (k : Nat) (f : Shelf → Shelf) (s : State) (h : f (shelfOf s k) ≠ {}) :
    shelfOf (updShelf k f s) k = f (shelfOf s k) := tget_tupd_of_ne _ _ _ _ h

/-- The link `n` after its change. -/
theorem linkOf_updLink (k : Nat) (f : SbLink → SbLink) (s : State) (h : twf {} s.mdf.links = true) :
    linkOf (updLink k f s) k = f (linkOf s k) := tget_tupd_same _ _ _ _ h
/-- The link `n` after a change of another. -/
theorem linkOf_updLink_ne (k j : Nat) (f : SbLink → SbLink) (s : State) (h : j ≠ k) :
    linkOf (updLink k f s) j = linkOf s j := tget_tupd_ne _ _ _ _ _ h
/-- The link `n` after a change that does not make it the empty one. -/
theorem linkOf_updLink_of (k : Nat) (f : SbLink → SbLink) (s : State) (h : f (linkOf s k) ≠ {}) :
    linkOf (updLink k f s) k = f (linkOf s k) := tget_tupd_of_ne _ _ _ _ h

/-- The region `r` after its change. -/
theorem regionOf_updRegion (k : Nat) (f : Region → Region) (s : State) (h : twf {} s.cay.regions = true) :
    regionOf (updRegion k f s) k = f (regionOf s k) := tget_tupd_same _ _ _ _ h
/-- The region `r` after a change of another. -/
theorem regionOf_updRegion_ne (k j : Nat) (f : Region → Region) (s : State) (h : j ≠ k) :
    regionOf (updRegion k f s) j = regionOf s j := tget_tupd_ne _ _ _ _ _ h
/-- The region `r` after a change that does not make it the empty one. -/
theorem regionOf_updRegion_of (k : Nat) (f : Region → Region) (s : State) (h : f (regionOf s k) ≠ {}) :
    regionOf (updRegion k f s) k = f (regionOf s k) := tget_tupd_of_ne _ _ _ _ h

/-- The working part of region `r` after its change. -/
theorem workOf_updWork (k : Nat) (f : RegionWork → RegionWork) (s : State) (h : twf {} s.cay.work = true) :
    workOf (updWork k f s) k = f (workOf s k) := tget_tupd_same _ _ _ _ h
/-- The working part of region `r` after a change of another. -/
theorem workOf_updWork_ne (k j : Nat) (f : RegionWork → RegionWork) (s : State) (h : j ≠ k) :
    workOf (updWork k f s) j = workOf s j := tget_tupd_ne _ _ _ _ _ h
/-- The working part of region `r` after a change that does not make it the empty one. -/
theorem workOf_updWork_of (k : Nat) (f : RegionWork → RegionWork) (s : State) (h : f (workOf s k) ≠ {}) :
    workOf (updWork k f s) k = f (workOf s k) := tget_tupd_of_ne _ _ _ _ h

/-- The turntable `n` after its change. -/
theorem tableOf_updTable (k : Nat) (f : Turntable → Turntable) (s : State) (h : twf {} s.ttb.tables = true) :
    tableOf (updTable k f s) k = f (tableOf s k) := tget_tupd_same _ _ _ _ h
/-- The turntable `n` after a change of another. -/
theorem tableOf_updTable_ne (k j : Nat) (f : Turntable → Turntable) (s : State) (h : j ≠ k) :
    tableOf (updTable k f s) j = tableOf s j := tget_tupd_ne _ _ _ _ _ h
/-- The turntable `n` after a change that does not make it the empty one. -/
theorem tableOf_updTable_of (k : Nat) (f : Turntable → Turntable) (s : State) (h : f (tableOf s k) ≠ {}) :
    tableOf (updTable k f s) k = f (tableOf s k) := tget_tupd_of_ne _ _ _ _ h

/-- The proposal `i` after its change. -/
theorem propOf_updProp (k : Nat) (f : Proposal → Proposal) (s : State) (h : twf {} s.vlt.props = true) :
    propOf (updProp k f s) k = f (propOf s k) := tget_tupd_same _ _ _ _ h
/-- The proposal `i` after a change of another. -/
theorem propOf_updProp_ne (k j : Nat) (f : Proposal → Proposal) (s : State) (h : j ≠ k) :
    propOf (updProp k f s) j = propOf s j := tget_tupd_ne _ _ _ _ _ h
/-- The proposal `i` after a change that does not make it the empty one. -/
theorem propOf_updProp_of (k : Nat) (f : Proposal → Proposal) (s : State) (h : f (propOf s k) ≠ {}) :
    propOf (updProp k f s) k = f (propOf s k) := tget_tupd_of_ne _ _ _ _ h

end Sys2Proof.Laws
end

