-- ==== Sys2Proof/Tests/States.lean ====
section
/-! SUPPORT. The small states that the tests and the witnesses of the statements are about. -/
namespace Sys2Proof.Tests
open Sys2Proof.Machine Sys2Proof.Safety

/-- A booted chip: running, both ports up and host-ready, the unit FIELD and its vault open. -/
def up : State :=
  let p : HptPort := { up := true, perst := false, ready := true, width := 16, speed := 6, flit := true }
  { chp := { mode := .running, inReset := false, bootLock := true, vaultOpen := true }, hpt := ⟨p, p⟩
    lcs := { state := .field }, vlt := { mode := .normal }, rng := { state := .seeded }
    wld := { secure := { state := .running }, normal := { state := .running } } }
/-- The time is `n`. -/
def onTime (n : Nat) (s : State) : State := { s with now := n }
/-- Port A's window changed by `f`. -/
def winA (f : PortWin → PortWin) (s : State) : State :=
  { s with win := ⟨f s.win.1, s.win.2⟩ }
/-- The chip with these rings, all cached. -/
def rings (l : List (Nat × Ring)) (s : State) : State :=
  { s with car := { s.car with rings := l, cached := l.map (·.1) } }
/-- The chip with these carriages. -/
def carrs (l : List (Nat × Carriage)) (s : State) : State :=
  { s with car := { s.car with cars := l } }
/-- The chip with these key slots. -/
def slots (l : List (Nat × Slot)) (s : State) : State :=
  { s with kst := { s.kst with slots := l } }
/-- Turntable `n` held by port A with ticket 7. -/
def held (n : Nat) (s : State) : State :=
  { s with ttb := { s.ttb with tables := [(n, { holder := some .a, grants := 7 })] } }
/-- Bytes written over an entry at an offset. -/
def poke (off : Nat) (b e : Bytes) : Bytes := e.take off ++ b ++ e.drop (off + b.length)
/-- An entry of 64 bytes with this opcode and nothing else. -/
def ent (op : Nat) : Bytes := natLe 64 op
/-- An ACTIVE SQ of 16 entries, bound to CQ 1. -/
def sqAct : Ring := { sizeK := 4, type := .sq, state := .active, cq := 1, mgr := true, base := 0x10000 }
/-- An ACTIVE CQ of 16 entries. -/
def cqAct : Ring := { sizeK := 4, type := .cq, state := .active, mgr := true, base := 0x20000 }
/-- Two rings: SQ 0 and CQ 1. -/
def two : State := rings [(0, sqAct), (1, cqAct)] up
/-- An admitted carriage 0 of SQ 0 with this opcode. -/
def adm (op : Nat) : State := carrs [(0, { stage := .admitted, sq := 0, entry := ent op })] two
/-- The chip with two commands waiting. -/
def nop1 : State := { up with pending := [.nop 3, .fence 2] }
/-- The chip with a turntable read at the front of its queue. -/
def acq : State := { up with pending := [.ttbAcquire .a 3, .fence 2] }
/-- The state a result holds, or the one before. -/
def after (x : Res) (s : State) : State := match x with | .next t => t | _ => s
/-- The chip in FAULT. -/
def faulted : State := { up with chp := { up.chp with mode := .fault } }
/-- Turntable 63 on a lease of 1 ms that has just ended. -/
def leased : State :=
  onTime 1000 { up with ttb := { tables := [(63, { holder := some .a, grants := 7, leaseLen := 1 })] } }
/-- CQ 1 full, its producer a whole round ahead. -/
def cqFull : State := rings [(0, sqAct), (1, { cqAct with producer := 16 })] up
/-- An ACTIVE slice with a page of four rings. -/
def sl5 : Slice :=
  { state := .active, ringBase := 4096, ringCnt := 4, weight := 1, inflightQuota := 1, vecBase := 1, vecCnt := 1,
    sidingCap := 2 }
/-- An SQ and its CQ of slice 5. -/
def tenant : State :=
  { rings [(4096, { sqAct with mgr := false, slice := 5, cq := 4097 }),
           (4097, { cqAct with mgr := false, slice := 5 })] up with slc := { slices := [(5, sl5)] } }
/-- A doorbell of ring 0 waiting in the queue. -/
def dbWait : State := { two with car := { two.car with dbq := [(0, 3)] } }
/-- The staged context of a CQ. -/
def ctxCq : Bytes := poke 0 (natLe 8 0x4000 ++ [4 + 2 * 32]) (poke 12 (natLe 2 32768) (zeros 64))
/-- A doorbell of port A held in its inbound coupling. -/
def dbBusy : State :=
  { two with car := { two.car with dbHeld := [{ port := .a, slice := none, ring := 9, value := 1 }] } }
/-- Port A's window with that context staged. -/
def rsSt : State := winA (fun w => { w with rs := { data := ctxCq } }) up
/-- SQ 0 DISABLED beside an ACTIVE CQ 1. -/
def rsDis : State := rings [(0, { sqAct with state := .disabled }), (1, cqAct)] up
/-- A BRAKED CQ 1. -/
def rsCq : State := rings [(1, { cqAct with state := .braked })] up
/-- SQ 0 in ERROR with code 3. -/
def rsErr : State := rings [(0, { sqAct with state := .error, error := 3, producer := 2 })] up
/-- SQ 0 with one entry prefetched. -/
def work : State :=
  rings [(0, { sqAct with producer := 1, copies := [(0, { bytes := ent 0x7F, phaseOk := true })] }), (1, cqAct)] up
/-- CQ 1 braked for a second. -/
def braked : State := onTime 1000001 (rings [(1, { cqAct with state := .braked, brakeStamp := 1 })] up)
/-- CQ 1 with one completion whose coalescing time has come. -/
def coal : State :=
  onTime 10 (rings [(1, { cqAct with vecEn := true, vector := 1, coalCnt := 1, coalCount := 4, coalTime := 10 })] up)
/-- A taken NOP. -/
def took : State := carrs [(0, { stage := .taken, sq := 0, entry := ent 0x7F })] two
/-- A taken legacy carriage waiting for its turn. -/
def legW : State :=
  let s := carrs [(0, { stage := .taken, sq := 0, entry := ent 0x08 })] two
  { s with car := { s.car with legWait := [0] } }
/-- A NOP that is finished and not yet complete. -/
def fin : State := carrs [(0, { stage := .finished, sq := 0, entry := ent 0x7F, fin := some (1, 0) })] two
/-- A taken LEGACY_READ of one block of drive 511 that passes every check. -/
def legOk : State :=
  let e := poke 32 (natLe 8 0x8000 ++ natLe 4 4096) (poke 24 (natLe 8 4096) (poke 16 (natLe 8 (511 * 2 ^ 48)) (poke 8 (natLe 8 (3 * 2 ^ 60)) (ent 0x08))))
  let s := carrs [(0, { stage := .taken, sq := 0, entry := e })] two
  { s with
    car := { s.car with legWait := [0] }, leg := { loaded := true }
    mdf := { shelves := [(7, { state := .awake })], drives := [(511, { present := true, state := .ready, nsze := 8 })] } }
/-- A taken carriage of an undefined opcode. -/
def badOp : State := carrs [(0, { stage := .taken, sq := 0, entry := ent 0xEE })] two
/-- A NOP on an ORDERED SQ behind an earlier carriage. -/
def nopTurn : State :=
  rings [(0, { sqAct with ordered := true }), (1, cqAct)]
    (carrs [(0, { stage := .admitted, sq := 0, entry := ent 0x7F, order := 1 }),
            (1, { stage := .running, sq := 0, entry := ent 0x7F })] two)
/-- A legacy load by port A that awaits word `n`. -/
def legLoad (n : Nat) : State :=
  onTime 900 { held 0 up with leg := { stage := (List.range (4 * n)).map (BitVec.ofNat 8), loading := true, next := n,
                                       port := some .a } }
/-- A LIVE working slot of generation 1. -/
def slA : Slot := { state := .live, gen := 1, share0 := 5, share1 := 6, engine := 1, usage := 3, owner := 9 }
/-- A replacement of slot 32,767 by slot 0, with `u` users of the destination. -/
def repl (u : Nat) : State :=
  winA (fun w => { w with replSrc := handle 0 1 false, replDst := handle 32767 0xFFFF false })
    (slots [(0, slA), (32767, { slA with gen := 0xFFFF, use := u })] up)
/-- The replace whose source still holds a retained generation. -/
def replRet : State :=
  let s := repl 0
  { s with kst := { s.kst with slots := s.kst.slots.map (fun e => (e.1,
                                                                   { e.2 with retained := e.1 == 0, retGen := 5,
                                                                              retUse := 1 })) } }
/-- A running RETRIEVE with a ticket of a revoked owner, 100 ms old. -/
def tickCar : State :=
  let s := onTime 100000 (carrs [(0, { stage := .running, sq := 0, entry := ent 0x02,
                                       key := .ticket 9 77 0 1 false })] two)
  { s with vlt := { s.vlt with img := { owners := [(9, { state := .revoked, incarnation := 1 })] } } }
/-- A shadow slot of owner 9, 10 ms old. -/
def shade : State := onTime 10000 { up with car := { shadows := [(3, { used := true, owner := 9 })] } }
/-- A block that has staged two generations of keys. -/
def stagedKey : State :=
  let s := slots [(3, { slA with use := 1 })] up
  { s with cay := { work := [(1, { blocks := [(2, { keys := [{ id := .slot 3 1 }, { id := .slot 4 1 }] })] })] } }
/-- A carriage of this opcode and stage with a slot in use. -/
def key1 (op : Nat) (st : Stage) (c : Carriage) : State :=
  carrs [(0, { c with stage := st, sq := 0, entry := poke 24 (natLe 8 64) (ent op) })] (slots [(3,
                                                                                                { slA with use := 1 })] two)
/-- A RETRIEVE entry whose key is a ticket. -/
def specE : Bytes := poke 8 (natLe 8 (2 * 2 ^ 60 + 0x4000)) (ent 0x02)
/-- SQ 0 with that entry prefetched and not taken. -/
def spec : State :=
  rings [(0, { sqAct with producer := 1, copies := [(0, { bytes := specE, phaseOk := true })] }), (1, cqAct)] up
/-- The random source starting, every cell with its 16 runs and the bits complete. -/
def starting : State :=
  { up with rng := { state := .starting, runs := [16, 16, 16, 16], bits := List.replicate 512 (0, true) } }
/-- The random source with its start tests passed and the bits of a window complete. -/
def started : State := { starting with rng := { starting.rng with kat := 1, wins := [2, 2, 2, 2] } }
/-- The random source where cell 0's last window passed with a run of 31 at its end. -/
def reached : State :=
  { starting with rng := { starting.rng with wins := [1, 1, 1, 1],
                                             last := [(true, 20), (true, 0), (true, 0), (false, 0)],
                                             lastRun := [(1, 31), (0, 0), (0, 0), (0, 0)] } }
/-- The random source SEEDED with `n` bytes in the tender. -/
def tender (n : Nat) : State := { up with rng := { state := .seeded, tender := (List.range n).map (BitVec.ofNat 8) } }
/-- A debug nonce waiting for the tender up to its limit. -/
def waiting : State :=
  onTime 300 { up with rng := { state := .starting, waiters := [{ who := .debug, need := 32, limit := 300 }] } }
/-- A lattice command block with key slot 3. -/
def latB : LatBlk := { op := 3, handle := handle 3 1 false, dstLen := 4096 }
/-- Port A's lattice block `b` beside slot 3 of engine class `e`. -/
def latS (b : LatBlk) (e : Nat) : State :=
  winA (fun w => { w with lat := b }) (slots [(3, { slA with engine := BitVec.ofNat 4 e })] up)
/-- A lattice key generation for an active owner. -/
def latOwn (op : Nat) : State :=
  let s := latS { op := op, owner := 9, dstLen := 8192 } 4
  { s with vlt := { s.vlt with img := { owners := [(9, { state := .active, incarnation := 1 })] } } }
/-- A lattice command of port A at the head of the queue with its operands read. -/
def latBusy : State :=
  let s := winA (fun w => { w with lat := { latB with busy := true } }) up
  { s with lat := { queue := [.port .a], run := ⟨latB, {}⟩, src := ⟨some [], none⟩ } }
/-- Port A's anchor window for anchor 255. -/
def ancS : State :=
  winA (fun w => { w with anc := { index := 255, alg := 3, len := 65,
                                   addrLo := 4 } }) { up with bnv := { anchors := [(255, { valid := true, alg := 6 })] } }
/-- A running VERIFY on channel 5. -/
def verRun : State :=
  let s := carrs [(0, { stage := .running, sq := 0, entry := ent 0x40, record := some [] })] two
  { s with bnv := { chans := [(5, some 0)] } }
/-- The generator of P-256 as a public key. -/
def ecKey : Bytes := 4 :: (natBe 32 p256.gx ++ natBe 32 p256.gy)
/-- The head of a verification record. -/
def ecRec : Bytes := natLe 4 32 ++ natLe 2 64 ++ natLe 2 1 ++ zeros 8 ++ zeros 96
/-- Port A's verifier channel `c`. -/
def chan (c : BnvChan) : State := { up with bnv := { priv := ⟨c, {}⟩ } }
/-- Three small operands in an operand memory. -/
def mmem : Tbl Byte := [(0, 5), (1024, 6), (2048, 7)]
/-- The state with 64 bytes in the tender. -/
def tend (s : State) : State := { s with rng := { state := .seeded, tender := zeros 64 } }
/-- A key generation whose operands have come. -/
def latKey : State :=
  let s := winA (fun w => { w with lat := { op := 1, owner := 9, dstLen := 8192, busy := true } }) up
  { s with lat := { queue := [.port .a], run := ⟨{ op := 1, owner := 9, dstLen := 8192 }, {}⟩, src := ⟨some [], none⟩,
                    rnd := ⟨zeros 64, []⟩ } }
/-- A re-mask that has waited its time. -/
def late1 : State :=
  onTime 300 { up with rng := { state := .starting, waiters := [{ who := .remask 3, need := 64, limit := 300 }] } }
/-- The utility cipher `u` beside a slot of its engine. -/
def ucpS (u : Ucp) : State := { slots [(3, { slA with engine := 2, usage := 7 })] up with ucp := u }
/-- The lock held by port A with this operation, source length and destination length. -/
def uop (op n d : Nat) : State :=
  ucpS { holder := some (.port .a), op := op, handle := handle 3 1 false, srcLen := n, dstLen := d }
/-- The secure world's command for `n` bytes of source and `d` of room. -/
def uarg (n d : Nat) : UcpArgs := { handle := handle 3 1 false, src := zeros n, dstLen := d }
/-- An operation of the utility cipher whose operands have come. -/
def urun (op : Nat) : State :=
  ucpS { holder := some (.port .a), busy := true,
         run := { op := op, srcLen := 16, iv := zeros 12, tag := zeros 16, dstLen := 24 }, slot := some (3, 1),
         src := some (zeros 16), aad := some [] }
/-- A key unwrap of no bytes. -/
def urunE : State := let s := urun 3; { s with ucp := { s.ucp with src := some [] } }
/-- A carriage of one segment with this opcode and stage. -/
def train (op : Nat) (st : Stage) (c : Carriage) : State :=
  carrs [(0, { c with stage := st, sq := 0, entry := poke 48 (natLe 2 8) (poke 24 (natLe 8 4096) (poke 2 [1] (ent op))) })]
    (slots [(3, { slA with use := 1 })] two)
/-- An admitted REKEY of the legacy path. -/
def legRekey : State :=
  carrs [(0, { stage := .admitted, sq := 0, key := .legacy, entry := poke 8 (natLe 8 (3 * 2 ^ 60)) (ent 0x04) })] two
/-- A RETRIEVE whose only segment has run against trailer tag `tg`. -/
def verd (tg : Bytes) : State :=
  train 0x02 .running { key := .slot 3 1, tags := [tg], segs := [(0, { st := .running, data := zeros 4096 })] }
/-- The tag that segment has. -/
def rightTag : Bytes := segTag (verd []) (carrOf (verd []) 0) false 0 (zeros 4096)
/-- An INGEST with a ready segment and its key staged in block 7. -/
def segRdy : State :=
  let s := train 0x01 .running { key := .slot 3 1, segs := [(0, { st := .ready, data := zeros 4096 })] }
  { s with cay := { work := [(0, { blocks := [(7, { keys := [{ id := .slot 3 1 }] })] })] } }
/-- A ready segment in region 3 where block 7 alone serves. -/
def segQ : State :=
  let s := train 0x01 .running { key := .slot 3 1, segs := [(0, { st := .ready, region := 3, data := zeros 4096 })] }
  { s with cay := { regions := [(3, { blkRetired := 0x7F })] } }
/-- An admitted legacy carriage of this opcode. -/
def legTr (op : Nat) : State := train op .admitted { key := .legacy }
/-- A chip whose regions are all lost. -/
def noServer (s : State) : State :=
  { s with cay := { regions := (List.range 4).map (fun r => (r, { state := .lost })) } }
/-- A legacy carriage whose piece is ready, with the register's key in block 0. -/
def legOn (op : Nat) : State :=
  let s := train op .running { key := .legacy, segs := [(0, { st := .ready, data := zeros 4096 })] }
  { s with cay := { work := [(0, { blocks := [(0, { keys := [{ id := .legacy }] })] })] } }
/-- An INGEST with a running segment. -/
def segRun : State := train 0x01 .running { key := .slot 3 1, segs := [(0, { st := .running, data := zeros 4096 })] }
/-- A share epoch that has ended with a new weight waiting. -/
def share : State := onTime 1000 { up with slc := { slices := [(5, { sl5 with weight := 9 })] } }
/-- Region 3 DEGRADED. -/
def degr : State := { up with cay := { regions := [(3, { state := .degraded })] } }
/-- A segment running on this region, block and cell. -/
def onC (x b k : Nat) : State :=
  train 0x01 .running { key := .slot 3 1, segs := [(0,
                                                    { st := .running, region := x, block := b, cell := k,
                                                      data := zeros 4096 })] }
/-- A running INGEST that holds 2,000 granules. -/
def spill : State :=
  let s := onTime 201 (train 0x01 .running { key := .slot 3 1,
                                             segs := [(0,
                                                       { st := .writing,
                                                         hold := (List.range 2000).map (fun i => (0, i)) })] })
  s
/-- Sideband link `l` in state `k`, its shelf AWAKE. -/
def link (l : Nat) (k : SbLink) : State :=
  onTime 100000 { up with mdf := { links := [(l, k)], shelves := [(l / 2, { state := .awake })] } }
/-- A shelf carriage of this opcode for shelf `n`. -/
def shelfC (op n : Nat) (st : Stage) (h : List (Nat × Shelf)) : State :=
  let s := carrs [(0, { stage := st, sq := 0, entry := poke 48 [BitVec.ofNat 8 n] (ent op) })] two
  { s with mdf := { s.mdf with shelves := h } }
/-- A SHELF_WAKE at the head of the queue beside an AWAKE shelf. -/
def wakeQ : State :=
  let s := shelfC 0x20 7 .admitted [(1, { state := .awake })]
  { s with mdf := { s.mdf with shelfQueue := [0] } }
/-- Shelf 7 in state `h`, with one drive. -/
def shelfAt (h : Shelf) : State :=
  onTime 500000 { up with mdf := { shelves := [(7, h)], drives := [(112, { present := true, state := .off })] } }
/-- Shelf 7 shutting its drive down, past the limit. -/
def shut : State :=
  { up with mdf := { shelves := [(7, { state := .sleeping, step := .shutdown })],
                     drives := [(112, { present := true, state := .ready, shutAt := some 0 })] } }
/-- Drive 511 in state `d` on a waking shelf. -/
def drv (d : Drive) : State :=
  onTime 30000000 { up with mdf := { shelves := [(7, { state := .waking, step := .drives })], drives := [(511, d)] } }
/-- Drive 511's bay, occupied or not. -/
def bay (p : Bool) : State :=
  { up with mdf := { shelves := [(7, { state := .awake })],
                     drives := [(511, { present := p, state := if p then .ready else .absent })] } }
/-- Drive 511 parked while work for it waits. -/
def hotD : State :=
  let s := drv { state := .ready, lane := .l12, present := true }
  { s with mdf := { s.mdf with shelves := [(7, { state := .awake })], hot := BitVec.ofNat 512 (2 ^ 511) } }
/-- A media carriage of this opcode for drive 511 with these commands issued. -/
def media (op : Nat) (c : Carriage) (cmds : Tbl NvCmd) : State :=
  let s := drv { state := .ready, lane := .l0, present := true, ioq := 4, depth := 16, cmds := cmds }
  let e := poke 48 [4] (poke 16 (natLe 8 (511 * 2 ^ 48)) (poke 24 (natLe 8 4096) (ent op)))
  carrs [(0, { c with sq := 0, entry := e })] { slots [(3, { slA with use := 1 })] s with car := two.car }
/-- A RETRIEVE with command 65,535 issued to drive 511. -/
def cmdS (c : NvCmd) : State :=
  media 0x02 { stage := .running, started := true, key := .slot 3 1, trailer := .reading } [(65535, c)]
/-- A DRIVE_ADMIN for drive 511. -/
def dadm (st : Stage) (c : Carriage) : State := media 0x22 { c with stage := st } []
/-- A DRIVE_ADMIN whose record has been read. -/
def dadm2 : State :=
  let s := dadm .running { record := some (zeros 4096), segs := [(0, { st := .ready })] }
  { s with mdf := { s.mdf with adminWait := [0] } }
/-- A sideband response with this SEQ and body. -/
def sbResp (q : Nat) (body : Bytes) : Bytes :=
  let b := natLe 1 (q % 16 * 16) ++ natLe 1 body.length ++ body
  b ++ natLe 1 (crc8 b)
/-- A running reader of this opcode and length whose first segment has this tag. -/
def verdO (op len : Nat) (tg : Bytes) : State :=
  let s := carrs [(0, { stage := .running, sq := 0,
                        entry := poke 48 (natLe 2 8) (poke 24 (natLe 8 len) (poke 2 [1] (ent op))), key := .slot 3 1,
                        tags := [tg], segs := [(0, { st := .running, data := zeros 4096 })] })] (slots [(3,
                                                                                                         { slA with use := 1 })] two)
  s
/-- The tag that stands for that segment. -/
def tagO (op len : Nat) : Bytes := segTag (verdO op len []) (carrOf (verdO op len []) 0) false 0 (zeros 4096)
/-- Drive 511 so, in an awake shelf. -/
def bayF (d : Drive) : State := { up with mdf := { shelves := [(7, { state := .awake })], drives := [(511, d)] } }
/-- A running RETRIEVE that waits for a segment's Read. -/
def cmdR (c : NvCmd) : State :=
  media 0x02 { stage := .running, started := true, key := .slot 3 1,
               segs := [(0, { st := .fetching, left := 1 })] } [(65535, c)]
/-- Shelf 7 awake and idle. -/
def awake7 (s : State) : State := { s with mdf := { s.mdf with shelves := [(7, { state := .awake })] } }
/-- A policy of two out of two officers. -/
def pol : Policy := { m := 2, officers := [0, 1] }
/-- The P-384 key that makes it so: a point with x = e less the generator. -/
def offKey : Bytes :=
  4 :: (natBe 48 0xbadd78c0b66eb2993d253498f7d2fb11903edc468e91e6f16c68b26f36dbe8d0ec2257275335dcddecf1cffe17e748a8 ++
    natBe 48 0x8d80b649b31ae39ed1275944ecaed8671366b223c7c751f6e217f2ab3e937366ce95b4194343858bd7af376607d2fd4d)
/-- Two active officers. -/
def offs : Tbl Officer :=
  [(0, { state := .active, alg := 2, key := zeros 97 }), (1, { state := .active, alg := 2, key := offKey })]
/-- A vault image with that policy and roster and one custody key. -/
def img1 : VaultImg :=
  { policies := [(0, pol), (16, pol)], roster := offs, custody := [(7, some (zeros 32))], idCeiling := 65536 }
/-- A proposal record of this operation and target. -/
def recOf (op target : Nat) : Bytes := poke 0 (natLe 4 op ++ natLe 4 target) (zeros 64)
/-- The record of a custody key's import, its package all zeros. -/
def pkgRec : Bytes := poke 8 (natLe 4 13526) (recOf 0x19 7) ++ zeros 13526
/-- A signature of the number 1 in 32 bytes whose r and s are both its hash e, so that both multipliers are 1. -/
def goodSig : Bytes :=
  let e := 0x176113b7ece2642d8a983837856298929326809ac5adbe71e6cbb65ce7a439e8c6739239a08ab4c68755c71a9491f871
  natBe 48 e ++ natBe 48 e
/-- A quorum carriage of this opcode and stage in an open vault. -/
def qrm (op : Nat) (st : Stage) (c : Carriage) : State :=
  let s := carrs [(0, { c with stage := st, sq := 0,
                               entry := poke 48 (natLe 4 9 ++ natLe 1 1) (poke 24 (natLe 8 96) (ent op)) })] two
  { s with vlt := { s.vlt with img := img1, nextId := 5, epoch := 3 }, rng := { s.rng with tender := zeros 64 } }
/-- Proposal 9 with approvals `a`. -/
def prop9 (a : List Nat) (st : PropState) : Proposal :=
  { used := true, state := st, record := recOf 0x1B 7, m := 2, officers := [0, 1], approvals := a, end_ := 100,
    digest := natBe 32 1 }
/-- A quorum carriage about proposal `p`. -/
def qapp (op : Nat) (st : Stage) (c : Carriage) (p : Proposal) : State :=
  let s := qrm op st c
  { s with vlt := { s.vlt with props := [(9, p)] } }
/-- The record of a committing proposal, with its officer's key where it names one. -/
def commR (op x : Nat) : Bytes := recOf op x ++ (if op = 0x10 then natLe 98 2 ++ zeros 32 else [])
/-- Proposal 9 committing this operation. -/
def comm (op x : Nat) (n : Option Nat) : State :=
  let p : Proposal := { prop9 [0, 1] .open_ with record := commR op x, committing := true, by_ := n }
  { up with vlt := { mode := .normal, img := img1, epoch := 3, nextId := 10, props := [(9, p)] } }
/-- The state with proposal 9's commit begun. -/
def begun (s : State) : State := updProp 9 (fun p => { p with begun := true }) s
/-- An EMPTY vault with a VAULT_INIT to commit. -/
def initV : State := let s := comm 0x30 0 none; { s with vlt := { s.vlt with mode := .empty } }
/-- The vault MAC key of the share 1. -/
def mk1 : Bytes := vaultMacKey { State.reset with bbr := { share0 := 1 } }
/-- A vault device with a header of vault 5 and no records. -/
def dev5 : VaultDev := putHeader mk1 1 5 {}
/-- A vault not yet opened, both devices at epoch 3. -/
def shutV : State :=
  { up with chp := { up.chp with vaultOpen := false }, vlt := { a := dev5, b := dev5 },
            bbr := { share0 := 1, buffer := [zeros 16] } }
/-- A vault never written. -/
def shutE : State := { up with chp := { up.chp with vaultOpen := false }, vlt := {} }
/-- A vault rebuilding device B. -/
def reb : State := { up with vlt := { mode := .rebuilding, devB := 3, a := dev5, img := img1 } }
/-- A NORMAL vault with a record that is not settled. -/
def settle : State :=
  { up with bbr := { share0 := 1 }, vlt := { mode := .normal, epoch := 3, img := img1,
                                             a := devProgram (.written 0) (jrecBytes mk1 { epoch := 3 }) dev5 } }
/-- The event recorder in state `e`. -/
def evS (e : Evr) : State := onTime 1000000 { up with evr := e }
/-- A recorder with more than its threshold buffered. -/
def big : Evr := { devs := 3, buf := List.replicate 64 { type := .drive, payload := zeros 2032 } }
/-- A flush running to block 6. -/
def evF : Evr :=
  { devs := 3, flushing := true, flushTo := 6, page := 1, buf := [{ type := .drive, seq := 5, payload := zeros 16 }] }
/-- A flush running whose records fill two pages. -/
def evP : Evr :=
  { evF with buf := [{ type := .drive, seq := 4, payload := zeros 2100 },
                     { type := .drive, seq := 5, payload := zeros 2100 }] }
/-- Port A's event window loading at cursor 5 during that flush. -/
def evL : State := winA (fun w => { w with evr := { cursor := 5, busy := true } }) (evS evF)
/-- The worlds in state `w`. -/
def wld (w : Wld) : State := onTime 1000000 { up with wld := w }
/-- Both worlds running, all debug enables set. -/
def run2 : Wld := { secure := { state := .running }, normal := { state := .running }, dbg := 3 }
/-- The secure world with four restarts in the hour. -/
def run5 : Wld := { run2 with secure := { state := .running, restarts := [1, 2, 3, 4] } }
/-- The secure world restarting, its image measured. -/
def rest : Wld := { run2 with secure := { state := .restarting, failAt := 750000, meas := measureOf .secure [] } }
/-- The secure world halted by a debugger. -/
def halt : Wld := { run2 with secure := { state := .halted } }
/-- The first gate in state `g`, half a second on. -/
def gate (g : Gate) : State := onTime 500000 { up with wld := { run2 with gates := [(0, g)] } }
/-- The state with the secure world halted. -/
def notRun (s : State) : State :=
  { s with wld := { s.wld with secure := { s.wld.secure with state := .halted } } }
/-- The tamper unit in state `t` with keys to erase. -/
def tmpS (t : Tmp) : State :=
  onTime 2000000 { slots [(3, slA)] up with tmp := t, bbr := { share0 := 1, share1 := 2, dseal := 3 },
                                            leg := { loaded := true } }
/-- A class A response at its end. -/
def respA : AlarmResp := { first := 1999990, endAt := 2000000, notes := [{ source := 1, cls := .a, value := 0 }] }
/-- The chip in reset on VBAT with a nearly full alarm buffer. -/
def onBat : State :=
  { State.reset with bbr := { onVbat := true, share0 := 1, loops := 2, buffer := List.replicate 63 [] } }
/-- The carriage with LENGTH 0. -/
def len0 (s : State) : State := updCarr 0 (fun c => { c with entry := poke 24 (natLe 8 0) c.entry }) s
/-- A QUERY_PROPOSAL whose window is over, behind an APPROVE admitted within it. -/
def qryWait : State :=
  let s := qapp 0x32 .admitted { admAt := 100, admCsn := 5 } (prop9 [0] .open_)
  { s with car := { s.car with cars := s.car.cars ++ [(1,
                                                       { stage := .admitted, sq := 0, admCsn := 3,
                                                         entry := poke 48 (natLe 4 9 ++ natLe 1 1) (ent 0x31) })] } }
/-- The life-cycle unit `l` in state `st`, 600 s on. -/
def life (st : LifeState) (l : Lcs) : State :=
  onTime 600000000 { up with lcs := { l with state := st }, bbr := { share0 := 1, floor := 2, dseal := 3 } }
/-- A RAW unit whose token 15 is used. -/
def tokU : State := { life .raw {} with fuses := { tokenUsed := 0x8000 } }
/-- A RAW unit with the hash of token 15 burned. -/
def tokM : State :=
  { life .raw {} with fuses := { tokenHash := [(15, (sha3_256 (unitId16 ++ zeros 16 ++ natLe 1 15)).take 16)] } }
/-- A FIELD unit with a tender for a nonce. -/
def dbgT : State := { life .field {} with rng := { state := .seeded, tender := zeros 40 } }
/-- A unit in reset with these fuses. -/
def off (f : Fuses) : State :=
  { State.reset with fuses := f, flash := {}, bbr := { markOk := true, counter := 0xFFFFFE } }
/-- Three fuse copies that hold codeword `k`. -/
def code (k : Nat) : Fuses := { copyA := codeword k, copyB := codeword k, copyC := codeword k }
/-- The firmware unit in state `f` with both slots filled. -/
def fw (f : Fwu) : State := { up with fwu := f, flash := { slot0 := zeros 9, slot1 := zeros 9 } }
/-- An activation record. -/
def actRec : Bytes := zeros 8 ++ natLe 8 5 ++ zeros 64
/-- The firmware unit in state `f` beside an activation record for digest `d`. -/
def act (d : Bytes) (f : Fwu) : State :=
  onTime 9 { fw f with drb := { head := true },
                       vlt := { mode := .normal, epoch := 3,
                                img := { activation := zeros 8 ++ natLe 8 5 ++ d ++ zeros 16 } } }
/-- A trial whose secure world has failed after `n` commits. -/
def failW (n : Nat) : State :=
  { act (zeros 48) { activating := true, trial := true, migCommits := n } with wld := { secure := { state := .failed } } }
/-- The drawbar in state `d`. -/
def drb (d : Drb) : State := onTime 1000000 { up with drb := d }
/-- A frame of this type, destination, source and body. -/
def fr (ty dest src : Nat) (b : Bytes) : Bytes := frameBytes ty dest src b
/-- What the receiver reads of it. -/
def parsed (b : Bytes) : Frame := (readFrame b).getD { type := 0, dest := 0, src := 0, body := [] }
/-- A locked member with address 3. -/
def mem3 : Drb := { addr := 3, state := .locked, timeValid := true, delay := 499, cycleAt := 999750, cycle := 0 }
/-- An ASSIGN of address 126. -/
def fAss : Bytes := fr 2 0 1 (natLe 4 126)
/-- A DELAY for member 3. -/
def fDel : Bytes := fr 4 3 1 (natLe 4 65535)
/-- A RELEASE of this unit. -/
def fRel : Bytes := fr 7 127 1 unitId16
/-- A CLEAR. -/
def fClr : Bytes := fr 8 127 1 []
/-- A TIME frame with mark `t`. -/
def fTim (t : Nat) : Bytes := fr 1 127 1 (natLe 8 t ++ natLe 4 99)
/-- A head in state `d`. -/
def hd (d : Drb) : State := drb { d with head := true }
/-- A head that has started. -/
def hRun : Drb := { head := true, started := true, state := .locked, timeValid := true, cycleAt := 999000 }
/-- A reply to an ASSIGN from `src`. -/
def fRep (src : Nat) : Bytes := fr 3 1 src (natLe 16 77 ++ natLe 12 0)
/-- A beacon from `src`. -/
def fBea (src : Nat) : Bytes := fr 5 1 src (natLe 16 77 ++ natLe 4 2)
/-- A TIME frame of another head. -/
def fFor : Bytes := fr 1 127 1 (natLe 12 0)
/-- A join request. -/
def fJoi : Bytes := fr 6 1 0 (natLe 16 77)
/-- A head's table with all 125 addresses taken. -/
def fullTab : Tbl Member := (List.range 125).map (fun i => (i + 2, { state := 1, id := 1000 + i }))
/-- A Dormant request 10 s old, both links up or down. -/
def dormR (u : Bool) : State :=
  let p : HptPort := { up := u, perst := !u, ready := u }
  onTime 10000000 { slots [(3, slA)] up with hpt := ⟨p, p⟩, gov := { dormReady := true } }
/-- The chip in Dormant with one sealed slot. -/
def dormS : State :=
  let p : HptPort := {}
  { up with hpt := ⟨p, p⟩, gov := { dormant := true }, bbr := { dseal := 5 },
            kst := { image := imageSeal 5 [(3, slA)], sealedCsn := 9 } }
/-- The chip with a region at step 5 and a usable recorder. -/
def pfE : State := { up with gov := { regions := [(2, { step := 5 })] }, evr := { devs := 3 } }
/-- Port A in the state that `f` gives, holding turntable 63. -/
def portS (f : HptPort → HptPort) : State := { held 63 up with hpt := ⟨f up.hpt.1, up.hpt.2⟩ }
/-- A port with a turntable, a running carriage and a legacy load. -/
def busyP : State :=
  let s := train 0x01 .running { key := .slot 3 1, segs := [(0, { st := .running, data := zeros 4096 })] }
  { s with ttb := (held 63 up).ttb, leg := { loading := true, port := some .a } }
/-- The chip with counts and interrupt causes to read. -/
def regS : State :=
  { onTime 0x500000001 up with csn := 0x700000002,
                               hpt := ⟨{ up.hpt.1 with guardCnt := 5, intStat := 0x11, intEn := 1 }, up.hpt.2⟩ }
/-- SQ 0 with a prefetch of its first entry under way. -/
def pref : State :=
  rings [(0, { sqAct with producer := 1, copies := [(0, { asked := true })] }), (1, cqAct)] up
/-- Port A's anchor load waiting for its key. -/
def ancP : State := winA (fun w => { w with anc := { busy := true, pendLen := 65, pendAlg := 3 } }) up
/-- The host read that `x` stands for. -/
def jobOf (x : DmaRead) (s : State) : ReadJob := (readJob s x).getD (oneRead .a 0 false)
/-- A RAW unit whose boot has stopped, its fuses burning for state `k`. -/
def rawW (k : Nat) : State :=
  let s := life .raw { burning := true, burnFrom := 599987400, pendState := k }
  { s with chp := { s.chp with waitEnv := some {}, mode := .booting }, fuses := code 0 }
/-- Dormant after its seal was erased. -/
def dormX : State := { dormS with bbr := { dseal := 0 } }
/-- Region 2 at this step. -/
def govUp (n : Nat) : State := { up with gov := { regions := [(2, { step := n })] } }
/-- A unit in reset whose boot counter is at its end. -/
def offDue : State := { off (code 6) with bbr := { markOk := true, counter := 0xFFFFFF } }
/-- An anti-rollback step whose burn time is over. -/
def arbW : State := onTime 2100 (fw { active := 0, arbAt := some 0 })
/-- What BOOT samples, with the fuses decoded. -/
def bootU (env : BootEnv) (s : State) : State :=
  fuseBoot { s with
    chp := { s.chp with inReset := false }
    pins := { pfail := env.pfail, haClkmode := env.haClkmode, hbClkmode := env.hbClkmode, drbHead := env.drbHead }
    gov := { s.gov with pfail := env.pfail }
    drb := { s.drb with head := env.drbHead, selIn := env.selIn } }
/-- That state with the backup domain brought up. -/
def bootV (env : BootEnv) (s : State) : State :=
  backupBoot { bootU env s with chp := { (bootU env s).chp with waitEnv := none } }
/-- A boot that waits for PFAIL_N before it burns. -/
def pfW : State :=
  { bootU { pfail := true } offDue with chp := { (bootU { pfail := true } offDue).chp with waitEnv := some { pfail := true } } }
/-- The state with PFAIL_N deasserted. -/
def pfOff (s : State) : State :=
  { s with gov := { s.gov with pfail := false }, pins := { s.pins with pfail := false } }
/-- Port A holding turntable 1, its slice window `w`, and slice 8,191 as `x`. -/
def slcS (x : Slice) (w : SlcWin) : State :=
  winA (fun y => { y with slc := w }) { held 1 up with slc := { slices := [(8191, x)] },
                                                       vlt := { up.vlt with img := { owners := [(9,
                                                                                                 { state := .active,
                                                                                                   incarnation := 1 })] } } }
/-- A FROZEN slice with a page of four rings. -/
def sl9 : Slice :=
  { state := .frozen, pasid := 5, ringBase := 2048, ringCnt := 4, vecBase := 1, vecCnt := 1, weight := 1,
    inflightQuota := 1, slotQuota := 8, sidingCap := 2, retAddr := 64 }
/-- The entry of that slice with its greatest weight. -/
def ent9 : Bytes := entryBytes { sl9 with state := .empty, weight := 1024, sidingCap := 64 }
/-- Owner 9 bound to slice 8,191. -/
def bound9 : State :=
  let s := slcS sl9 { bindOwner := 9 }
  { s with slc := { s.slc with binds := [(9, { bound := true, slice := 8191 })] } }
/-- A slice carriage of this opcode for slice 8,191. -/
def frz (op : Nat) (st : Stage) (x : Slice) (c : Carriage) : State :=
  let s := carrs [(0, { c with stage := st, sq := 0,
                               entry := poke 48 (natLe 2 8191 ++ natLe 2 7) (poke 24 (natLe 8 4096) (ent op)) })] two
  { s with slc := { slices := [(8191, x)] }, vlt := { s.vlt with img := { custody := [(7, some (zeros 32))] } } }
/-- A FREEZING slice with one session. -/
def drain1 : State :=
  { frz 0x50 .running { sl9 with state := .freezing, freezers := [0],
                                 frzCsn := 9 } {} with kst := { slots := [(3,
                                                                           { slA with session := true,
                                                                                      scope := 8191 })] } }
/-- The header of an empty image. -/
def hdr9 : Bytes := natLe 4 0x31434C53 ++ natLe 2 1 ++ natLe 2 7 ++ zeros 120
/-- The tag of that image over 64 bytes of ciphertext. -/
def tag9 : Bytes := gcmTag (imageKey (zeros 32) hdr9) (zeros 12) hdr9 (zeros 64)
/-- That image. -/
def img9 : Bytes := hdr9 ++ zeros 64 ++ tag9
/-- The entry of another slice. -/
def ent0 : Bytes :=
  entryBytes { sl9 with state := .empty, pasid := 6, ringBase := 4096, weight := 1024, sidingCap := 64 }
/-- What that image holds. -/
def body9 : ImageBody := cutImage hdr9 (gcmCrypt (imageKey (zeros 32) hdr9) (zeros 12) (zeros 64))
/-- A FROZEN slice with room for any image. -/
def room9 : Slice := { sl9 with vecCnt := 65535 }
/-- The drawbar slewing with one µs left, at either half of a tick. -/
def slewB (h : Bool) : State := { up with drb := { state := .slewing, slewLeft := 1, halfTick := h } }

end Sys2Proof.Tests
end

