-- ==== Sys2Proof/WellFormed.lean ====
section
/-! DEFINITION. When a command's operands are ones that the spec's fields and structures can carry. -/
namespace Sys2Proof

/-- An operation tag (R117). -/
def tagWf (t : Nat) : Bool := t < 16384
/-- A global ring number (R68). -/
def ringWf (g : Nat) : Bool := g < 2 ^ 20
/-- A slice number (R277), where a page is named. -/
def sliceWf (x : Option Nat) : Bool := x.all (fun n => n < 8192)
/-- A RING field of a setup window or a doorbell (R74, R78): an offset of a slice's page, or a global number. -/
def ringFieldWf (sl : Option Nat) (ring : Nat) : Bool := sliceWf sl && (if sl.isSome then ring < 1024 else ringWf ring)
/-- A 32-bit register value (R5). -/
def wordWf (v : Nat) : Bool := v < 2 ^ 32
/-- A drive, one of 512 media ports (R170). -/
def driveWf (d : Nat) : Bool := d < 512
/-- A shelf (R170). -/
def shelfWf (n : Nat) : Bool := n < 8
/-- A sideband link (R170). -/
def linkWf (n : Nat) : Bool := n < 16
/-- A region of the cipher array (R18). -/
def regionWf (r : Nat) : Bool := r < 4
/-- A block of a region and a cell of a block (R18). -/
def blockWf (b : Nat) : Bool := b < 8
/-- A cell of a block (R18). -/
def cellWf (c : Nat) : Bool := c < 4
/-- A working slot (R40). -/
def slotWf (i : Nat) : Bool := i < 32768
/-- A drawbar frame carries at most the longest message (R369). -/
def frameWf (f : Bytes) : Bool := !f.isEmpty
/-- The window of an access, and its offset (R50, R398): a 32-bit register's offset is a multiple of 4. -/
def accessWf (bar : Bar) (off : Nat) : Bool :=
  off % 4 == 0 && (match bar with | .page n => n < 8192 && off < 8192 | .bar0 => off < 2 ^ 26 | .bar4 => off < 2 ^ 20)
/-- A request of 1 to 128 bytes that lies in its window (R399). -/
def spanWf (x : BarPlace) (n : Nat) : Bool :=
  1 ≤ n && n ≤ 128 && (match x.bar with
    | .page k => k < 8192 && x.off + n ≤ 8192
    | .bar0 => x.off + n ≤ 2 ^ 26
    | .bar4 => x.off + n ≤ 2 ^ 20)
/-- A PASID has 20 bits (R45). -/
def pasidWf (q : Option Nat) : Bool := q.all (fun n => n < 2 ^ 20)
/-- A program succeeds after at most three retries (R226). -/
def progWf : ProgResult → Bool
  | .written n => n ≤ 3
  | _ => true
/-- The secure world's command fits the registers it writes (R276). -/
def ucpWf : UcpCmd → Bool
  | .port _ => true
  | .secure c => wordWf c.handle && c.src.length < 2 ^ 25 && c.aad.length < 2 ^ 17 && c.dstLen < 2 ^ 25 &&
      c.iv.length == 12 && c.tag.length == 16
/-- A sideband response is one frame or none (R173). -/
def respWf (r : Option Bytes) : Bool := r.all (fun b => !b.isEmpty)

/-- A command's operands are ones that its row can carry. -/
def Instr.wf : Instr → Bool
  | .ingest t | .retrieve t | .audit t | .rekey t | .sealObject t | .legacyRead t | .legacyWrite t | .keyGenerateDek t
  | .keyLoadTicket t | .keyReleaseSlot t | .randomBytes t | .shelfWake t | .shelfSleep t | .driveAdmin t | .propose t
  | .approve t | .queryProposal t | .verifySignature t | .keyImport t | .attest t | .sliceFreeze t | .sliceSave t
  | .sliceRestore t | .fence t | .nop t | .admission t | .orderedCompletion t | .driveAdminIssue t
  | .ticketKeyExpiry t => tagWf t
  | .segmentStart t _ b c _ => tagWf t && blockWf b && cellWf c
  | .segmentVerdict t _ | .segmentEncrypted t _ => tagWf t
  | .sqDoorbell _ sl g v | .cqDoorbell _ sl g v => ringFieldWf sl g && wordWf v
  | .rsRead _ sl g | .rsWrite _ sl g | .rsEnable _ sl g | .rsDisable _ sl g | .rsReset _ sl g | .abortByCookie _ sl g
  | .abortAll _ sl g => sliceWf sl && ringWf g
  | .doorbellQueueEval g | .contextLoad g _ | .descriptorPrefetch g _ | .sqEntryTake g | .brakeAlert g
  | .coalTimeExpiry g => ringWf g
  | .speculativeUnwrap g _ b => ringWf g && b.length == 64
  | .ttbAcquire _ n | .ttbLeaseExpiry n => n < 64
  | .ttbRenew _ n v | .ttbRelease _ n v => n < 64 && wordWf v
  | .registerWrite _ q x d => pasidWf q && (match d with
      | .word v => accessWf x.bar x.off && wordWf v
      | .bytes b => spanWf x b.length)
  | .rcRead _ q r => pasidWf q && (match r with
      | .word x => accessWf x.bar x.off
      | .bytes x e => spanWf x e.length)
  | .accessDiscard _ x => accessWf x.place.bar x.place.off && pasidWf x.pasid
  | .latchedLoRead _ off => accessWf .bar0 off
  | .hptIntStatClear _ v | .legKey0Write _ v | .legCommit _ v | .ucpLockRelease _ v => wordWf v
  | .legKeyWordWrite _ n v => 1 ≤ n && n ≤ 15 && wordWf v
  | .configRequest _ off w => off < 4096 && off % 4 == 0 && w.all wordWf
  | .slcRead _ n | .slcWrite _ n | .slcCreate _ n | .unfreeze _ n | .remove _ n | .bind _ n | .unbind _ n
  | .inPost _ n _ | .outAck _ n | .freezeDrainDone n => n < 8192
  | .keyStagingLoad r b t _ => regionWf r && blockWf b && tagWf t
  | .cellParityError r b c b' c' => regionWf r && blockWf b && cellWf c && blockWf b' && cellWf c'
  | .kstgCorrectedError r | .regionDegraded r | .d2dRetry r | .d2dUndeliverable r | .d2dRetrainTimeout r => regionWf r
  | .blockRetire r b => regionWf r && blockWf b
  | .stragglerSpill d _ | .driveDlUp d _ _ _ _ | .dlUpTimeout d | .driveReadyTimeout d | .driveInit d _
  | .driveShutdownDone d _ | .portPark d | .l12Exit d | .driveClkreqWake d | .controllerReset d _ _
  | .driveDmaBlocked d _ | .driveLinkDown d | .driveRetrainTimeout d | .asyncEvent d _ | .presenceChange d _
  | .driveLinkRetrained d _ | .nvmeCommandTimeout d _ | .nvmeAbortTimeout d _ => driveWf d
  | .nvmeCompletion d cid st dw _ => driveWf d && cid < 2 ^ 16 && st < 2 ^ 16 && wordWf dw
  | .identify n r | .readPresence n r | .setPower n r | .setPerst n r | .readClkreq n r | .readStatus n r
  | .readEvents n r | .setClkreq n r | .sidebandRetry n r => linkWf n && respWf r
  | .sbnInt n | .keepalivePoll n => linkWf n
  | .shelfWakeBegin n | .powerGoodPoll n | .powerGoodTimeout n | .groupRelease n | .sleepDrainDone n
  | .shelfDrop n _ => shelfWf n
  | .shadowExpiry i => i < 1024
  | .retainedExpiry i | .erasePendingExpiry i => slotWf i
  | .remask i => i ≤ 32768
  | .vaultCommit i a b v => wordWf i && progWf a && progWf b && progWf v
  | .qrmWindowEnd i => wordWf i
  | .vaultScrub pc => pc ≤ 100
  | .kwWrap u | .kwpWrap u | .kwpUnwrap u | .cmacGen u | .cmacVer u | .gcmEnc u | .gcmDec u | .gcmVer u => ucpWf u
  | .healthWindowEnd c bits => c < 4 && bits.length == 1024
  | .bnvOpDone c => c < 8
  | .operandAccess _ off e w => spanWf ⟨.bar4, off⟩ e.length && w.all (fun b => b.length == e.length)
  | .partialWrite _ x => accessWf x.bar x.off
  | .loopMeasure l r => l < 2 && r < 2 ^ 16
  | .tokenUse i b => i < 16 && b.length == 16
  | .beaconMiss a | .reservationExpiry a => 2 ≤ a && a ≤ 126
  | .memRetrain c => c < 16
  | .linkDown _ | .perstAssert _ | .hotReset _ | .linkDisable _ | .flr _ | .perstDeassert _ | .hostReady _
  | .dmaReadError _ | .requestTooLong _ _ | .query _ | .inAck _ | .outPost _ _
  | .replGo _ | .restart _ | .reseed _ | .kat _ _ | .keygenKem _ | .keygenDsa _ | .pubkey _ | .sign _
  | .latAbort _ | .ancLoad _ | .ancClear _ | .modmul _ | .modexp _ | .ecadd _ | .ecmul _ | .bnvAbort _
  | .ucpLockAcquire _ | .watchdogExpiry _ | .worldException _ | .monitorCheckFail _ | .restartComplete _ | .restartTimeout _
  | .gateRequest _ | .ungateRequest _ | .gateApply _ | .workUngate _ | .gateLate _ | .blockedAccess _ _
  | .assignmentChangeRefused _ | .lightDetect _ | .voltageAlarm _ _ | .clockAlarm _ | .temperatureAlarm _
  | .sourceInactive _ _ | .tmpResume _ | .tmpSelftest _ _ | .backupAlarm _ _ | .flush _ | .flushDone _ _ _ | .vaultSettle
  | .cursor _ _ | .eventWindowLoaded _ | .trans _ _ | .dbgGo _ _ | .respGo _ | .boot _ | .stageImage _
  | .stageManifest _ | .stageAbort _ | .stageDone _ | .activationBarrier _ | .reenum _ | .memLineError _ _
  | .govInterval _ _ _ | .thermalStep _ | .govDorm _ _ | .wakeFromDormant _ | .vddAonSwitch _ | .faultEntry _
  | .hostDmaReadDone _ _ | .debugHalt _ | .debugResume _ | .hostLinkDlUp _ _ _ _ => true
  | .timeReceive f | .assign f | .assignReply f _ | .delay f | .release f | .clear f | .foreignHeadFrame f => frameWf f
  | .beacon f | .joinReq f => f.all frameWf
  | .legacyAdmit | .shareEpoch | .maskReserveRefill | .legacyLoadTimeout | .vaultOpen | .vaultRebuildDone
  | .drbgInstantiate | .rngStartTimeout | .automaticReseed | .tenderFill | .rngWaitExpiry
  | .rngAutoRestart | .latticeOpDone | .ucpIdleExpiry | .lightAgreementEnd | .flushPeriodExpiry
  | .bufferThresholdFlush | .fuseBurnDone | .challengeExpiry | .porstNAssert | .activationConfirm
  | .activationFallback | .time | .assignTimeout | .headStart | .headLost | .memConfigFault | .avsTimeout
  | .dormantEntry | .dormantLapse | .pfailAssert | .pfailDeassert | .ucpOpDone | .slewEnd => true

end Sys2Proof
end

