-- ==== Sys2Proof/Tests/Slice0.lean ====
section
/-! SUPPORT. Small tests: operands that no row carries are refused, and single steps whose results the spec gives. -/
namespace Sys2Proof.Tests
open Sys2Proof.Machine Sys2Proof.Safety
set_option Elab.async false

/-! ### Ill-formed commands -/

/-- Numbers one past the greatest of their kind. -/
theorem test_wf_refuses_numbers :
    ([.nop 16384, .segmentStart 0 0 8 0 0, .segmentStart 0 0 0 4 0, .doorbellQueueEval (2 ^ 20), .ttbAcquire .a 64,
      .ttbRenew .a 64 0, .ttbRenew .a 0 (2 ^ 32), .legKeyWordWrite .a 0 0, .legKeyWordWrite .a 16 0, .legCommit .a (2 ^ 32),
      .slcRead .a 8192, .driveReadyTimeout 512, .sbnInt 16, .powerGoodPoll 8, .shadowExpiry 1024, .remask 32769,
      .qrmWindowEnd (2 ^ 32), .vaultScrub 101, .bnvOpDone 8, .regionDegraded 4, .blockRetire 0 8, .loopMeasure 2 0,
      .beaconMiss 1, .beaconMiss 127, .memRetrain 16] : List Instr).all (fun i => !i.wf) = true := by
  decide +kernel

/-- Windows, offsets and lengths that no access has. -/
theorem test_wf_refuses_accesses :
    ([.sqDoorbell .a (some 8192) 0 0, .sqDoorbell .a (some 0) 1024 0, .sqDoorbell .a none (2 ^ 20) 0,
      .registerWrite .a none ⟨.bar0, 2⟩ (.word 0), .registerWrite .a none ⟨.bar0, 2 ^ 26⟩ (.word 0),
      .registerWrite .a none ⟨.bar4, 2 ^ 20⟩ (.word 0), .registerWrite .a none ⟨.bar0, 0⟩ (.bytes []),
      .rcRead .a none (.word ⟨.page 8192, 0⟩), .rcRead .a none (.word ⟨.page 0, 8192⟩), .partialWrite .a ⟨.bar0, 2⟩, .configRequest .a 4096 none, .configRequest .a 2 none,
      .operandAccess .a 0 [] none, .operandAccess .a 0 (List.replicate 129 true) none,
      .operandAccess .a 0 [true, true] (some [some 0]),
      .speculativeUnwrap 0 0 [], .healthWindowEnd 4 [], .tokenUse 16 (zeros 16), .tokenUse 0 [], .identify 0 (some []),
      .beacon (some []), .clear []] : List Instr).all (fun i => !i.wf) = true := by
  decide +kernel

/-- The greatest numbers are accepted. -/
theorem test_wf_accepts :
    ([.nop 16383, .segmentStart 0 0 7 3 0, .ttbAcquire .b 63, .slcRead .a 8191, .driveReadyTimeout 511, .remask 32767,
      .registerWrite .a none ⟨.bar0, 0x60008⟩ (.word (2 ^ 32 - 1)), .configRequest .a 4092 (some 0),
      .operandAccess .a 0 (List.replicate 128 true) none,
      .beaconMiss 2, .beaconMiss 126, .identify 15 none] : List Instr).all Instr.wf = true := by
  decide +kernel

/-! ### Single steps -/

/-- Bits 31, 30:29 and 15:0 of the first grant to port A (R59). -/
theorem test_grant_word : (after (exec (.ttbAcquire .a 5) up) up).out = [.answer .a 0xA0000001] := by decide

/-- The ticket after 0xFFFF is 1 (R59). -/
theorem test_ticket_wraps :
    (after (exec (.ttbAcquire .b 0) { up with ttb := { tables := [(0, { grants := 65535 })] } }) up).out =
      [.answer .b 0xC0000001] := by decide

/-- A wrong ticket releases nothing and is counted (R60). -/
theorem test_bad_release :
    let t := after (exec (.ttbRelease .a 63 8) (held 63 up)) up
    (tableOf t 63).holder = some .a ∧ t.ttb.badRel.get .a = 1 := by decide

/-- A lease of more than 60,000 ms is stored as 60,000 (03 turntable table). -/
theorem test_lease_clamped :
    (tableOf (after (exec (.registerWrite .a none ⟨.bar0, 0x105C⟩ (.word 60001)) up) up) 5).lease = 60000 := by decide

/-- A write below the range stores its least value (08 register table). -/
theorem test_idle_park_clamped :
    (after (exec (.registerWrite .a none ⟨.bar0, 0x60008⟩ (.word 9)) up) up).mdf.idlePark = 10 := by decide

/-- In FAULT a write changes nothing (R29). -/
theorem test_fault_ignores_writes :
    (after (exec (.registerWrite .a none ⟨.bar0, 0x60008⟩ (.word 500)) faulted) up).mdf.idlePark = 1000 := by decide

/-- A read of CSN_LO answers the low half and latches the high one for its port (R31). -/
theorem test_csn_halves :
    let t := after (exec (.latchedLoRead .a 0x40) regS) up
    t.out = [.answer .a 2] ∧ t.win.1.lat64.csnHi = 7 ∧ t.win.2.lat64.csnHi = 0 := by decide

/-- Ones clear the causes they name (R408). -/
theorem test_causes_cleared :
    ((after (exec (.hptIntStatClear .a 0x10) regS) up).hpt.get .a).intStat = 1 := by decide

/-- An SQ doorbell moves PRODUCER (R80). -/
theorem test_sq_doorbell :
    (ringOf (after (exec (.sqDoorbell .a none 0 3) two) up) 0).producer = 3 := by decide

/-- A tick is 1 µs outside reset and nothing in it. -/
theorem test_tick :
    (after (step up) up).now = 1 ∧ (after (step State.reset) up).now = 0 := by decide +kernel

/-- PORST_N takes CSN and time back to 0 (R26). -/
theorem test_porst :
    let t := after (exec .porstNAssert regS) up
    t.csn = 0 ∧ t.now = 0 ∧ t.chp.inReset = true := by decide

/-- A new unit boots no further than RAW (R336, R355). -/
theorem test_boot_raw :
    let t := after (exec (.boot {}) State.reset) up
    t.lcs.state = .raw ∧ t.wld.secure.state ≠ .running := by decide

/-- PFAIL_N sends a region to step 0 at once (R395). -/
theorem test_pfail : (govOf (after (exec .pfailAssert pfE) up) 2).step = 0 := by decide

/-- The first command of the queue is the one that runs. -/
theorem test_front :
    (after (step acq) up).pending = [.fence 2] ∧ (tableOf (after (step acq) up) 3).holder = some .a := by decide

/-- No row of the table has bits, so no word spells a command. -/
theorem test_no_words : Sys2Proof.decodeTableWord 32 0 = none ∧ (up.withFetchWord 32 0) = up := by
  exact ⟨rfl, rfl⟩

/-- The host's machine is this one. -/
theorem test_core : Sys2Proof.core.reset = State.reset := rfl

end Sys2Proof.Tests
end

