-- ==== Sys2Proof/Tests/WitnessA.lean ====
section
/-! SUPPORT. For each statement, and for each of its clauses, operands and states that meet all its hypotheses together: a
theorem of this file is named after its statement and the place of the clause in it. -/
namespace Sys2Proof.Tests
open Sys2Proof.Machine Sys2Proof.Safety
set_option linter.unusedVariables false
set_option Elab.async false

theorem witness_StepRunsFrontCommand :
    ([(.nop 3, [.fence 2], nop1)] :
      List (Instr × (List Instr) × State)).all (fun (c, rest, s) => decide (
    s.pending = c :: rest)) = true := by
  decide +kernel

theorem witness_EmptyQueueLetsOneTickPass :
    ([up,
      slewB true,
      slewB false,
      State.reset] :
      List (State)).all (fun s => decide (
    s.pending = [])) = true := by
  decide +kernel

theorem witness_PorstReturnsEverythingToReset_1 :
    ([up] :
      List (State)).all (fun s => decide (
    s.chp.inReset = false)) = true := by
  decide +kernel

theorem witness_PorstReturnsEverythingToReset_2 :
    ([up] :
      List (State)).all (fun u => decide (
    u.csn = 0 ∧
    inFault u = false)) = true := by
  decide +kernel

theorem witness_TablesStayCanonical : ∃ (s : State) (t : State), tablesOk s = true ∧
    step s = Host.Outcome.next t :=
  ⟨acq, after (step acq) acq, by decide, rfl⟩

theorem witness_SettingsStayInRange : ∃ (s : State) (t : State), settingsOk s = true ∧
    step s = Host.Outcome.next t :=
  ⟨acq, after (step acq) acq, by decide, rfl⟩

theorem witness_CsnNeverFalls : ∃ (c : Instr) (s : State) (t : State), isRestart c = false ∧
    isWake c = false ∧
    exec c s = Host.Outcome.next t :=
  ⟨.ttbAcquire .a 3, up, after (exec (.ttbAcquire .a 3) up) up, by decide, by decide, rfl⟩

theorem witness_FaultIsLeftOnlyByRestart : ∃ (c : Instr) (s : State) (t : State), isRestart c = false ∧
    s.chp.mode = Mode.fault ∧
    exec c s = Host.Outcome.next t :=
  ⟨.ttbAcquire .a 3, faulted, after (exec (.ttbAcquire .a 3) faulted) faulted, by decide, by decide, rfl⟩

theorem witness_DurableStoresHoldStill : ∃ (c : Instr) (s : State) (t : State), exec c s = Host.Outcome.next t :=
  ⟨.ttbAcquire .a 3, up, after (exec (.ttbAcquire .a 3) up) up, rfl⟩

theorem witness_DurableStoresHoldStill_1_1 : ∃ (c : Instr) (s : State) (t : State), exec c s = Host.Outcome.next t ∧
    isRestart c = false ∧
    mayBurn c = false :=
  ⟨.ttbAcquire .a 3, up, after (exec (.ttbAcquire .a 3) up) up, rfl, by decide, by decide⟩

theorem witness_DurableStoresHoldStill_2 : ∃ (c : Instr) (s : State) (t : State), exec c s = Host.Outcome.next t ∧
    mayFlash c = false :=
  ⟨.ttbAcquire .a 3, up, after (exec (.ttbAcquire .a 3) up) up, rfl, by decide⟩

theorem witness_CommandsTakeNoTime : ∃ (c : Instr) (s : State) (t : State), mayStepTime c = false ∧
    c ≠ Instr.porstNAssert ∧
    exec c s = Host.Outcome.next t :=
  ⟨.ttbAcquire .a 3, up, after (exec (.ttbAcquire .a 3) up) up, by decide, by decide, rfl⟩

theorem witness_TurntableReadGrantsOrWaits_1 :
    ([(.b, 63, up),
      (.b, 0, { up with ttb := { tables := [(0, { grants := 65535 })] } }),
      (.a, 63, held 63 up),
      (.b, 63, held 63 up)] :
      List (Port × Nat × State)).all (fun (p, n, s) => decide (
    tablesOk s = true ∧
    wr p Blk.ttb s = true ∧
    n < 64)) = true := by
  decide +kernel

theorem witness_TurntableReadGrantsOrWaits_2 :
    ([(.b, 63, held 63 up)] :
      List (Port × Nat × State)).all (fun (p, n, s) => decide (
    tablesOk s = true ∧
    wr p Blk.ttb s = true ∧
    n < 64)) = true := by
  decide +kernel

theorem witness_TurntableRenewalReleaseAndExpiry_1 :
    ([(.a, 63, 7 + 65536, held 63 up),
      (.a, 0, 7, held 0 up)] :
      List (Port × Nat × Nat × State)).all (fun (p, n, v, s) => decide (
    tablesOk s = true ∧
    wr p Blk.ttb s = true ∧
    n < 64 ∧
    (tableOf s n).holder = some p ∧
    v % 2 ^ 16 = (tableOf s n).grants)) = true := by
  decide +kernel

theorem witness_TurntableRenewalReleaseAndExpiry_2 :
    ([(63, leased)] :
      List (Nat × State)).all (fun (n, s) => decide (
    tablesOk s = true ∧
    powered s = true ∧
    inFault s = false ∧
    (tableOf s n).holder.isSome = true ∧
    (tableOf s n).leaseLen ≠ 0 ∧
    s.now ≥ (tableOf s n).leaseFrom + 1000 * (tableOf s n).leaseLen)) = true := by
  decide +kernel

theorem witness_TurntableRenewalReleaseAndExpiry_3 :
    ([(.b, 63, 7, held 63 up, .ttbRenew .b 63 7),
      (.b, 63, 7, held 63 up, .ttbRelease .b 63 7),
      (.a, 63, 8, held 63 up, .ttbRelease .a 63 8)] :
      List (Port × Nat × Nat × State × Instr)).all (fun (p, n, v, s, c) => decide (
    wr p Blk.ttb s = true ∧
    n < 64 ∧
    ¬((tableOf s n).holder = some p ∧ v % 2 ^ 16 = (tableOf s n).grants) ∧
    (c = Instr.ttbRenew p n v ∨ c = Instr.ttbRelease p n v))) = true := by
  decide +kernel

theorem witness_DoorbellsMovePositions_1 :
    ([(.a, none, 0, 0x80000000, 0, two),
      (.a, none, 0, 15, 0, two),
      (.b, some 5, 0, 1, 4096, tenant)] :
      List (Port × (Option Nat) × Nat × Nat × Nat × State)).all (fun (p, sl, ring, v, g, s) => decide (
    rsReach p sl s = true ∧
    dbRing sl ring s = some g ∧
    (ringOf s g).type = RingType.sq ∧
    isCached s g = true ∧
    isQueued s g = false ∧
    dbHolds p sl ring s = false ∧
    (ringOf s g).state ≠ RingState.disabled ∧
    (ringOf s g).state ≠ RingState.error ∧
    dbOk (ringOf s g) (v % 2 ^ 32) = true ∧
    ringOcc (ringOf s g) + occupancy (ringN (ringOf s g)) (dbPos (ringOf s g) (v % 2 ^ 32)) (ringOf s g).producer ≤
      ringN (ringOf s g))) = true := by
  decide +kernel

theorem witness_DoorbellsMovePositions_2 :
    ([(.a, none, 1, 0x80000000, 1, cqFull),
      (.a, none, 1, 7, 1, cqFull)] :
      List (Port × (Option Nat) × Nat × Nat × Nat × State)).all (fun (p, sl, ring, v, g, s) => decide (
    rsReach p sl s = true ∧
    dbRing sl ring s = some g ∧
    (ringOf s g).type = RingType.cq ∧
    isCached s g = true ∧
    isQueued s g = false ∧
    dbHolds p sl ring s = false ∧
    (ringOf s g).state ≠ RingState.disabled ∧
    (ringOf s g).state ≠ RingState.error ∧
    dbOk (ringOf s g) (v % 2 ^ 32) = true ∧
    occupancy (ringN (ringOf s g)) (dbPos (ringOf s g) (v % 2 ^ 32)) (ringOf s g).consumer ≤ ringOcc (ringOf s g))) = true := by
  decide +kernel

theorem witness_DoorbellsMovePositions_3 :
    ([(0, 3, [], dbWait)] :
      List (Nat × Nat × (List (Nat × Nat)) × State)).all (fun (g, v, rest, s) => decide (
    live s = true ∧
    isCached s g = true ∧
    s.car.dbq = (g, v) :: rest)) = true := by
  decide +kernel

theorem witness_DoorbellsMovePositions_4 :
    ([(.a, none, 0, dbBusy),
      (.a, none, 1, dbBusy)] :
      List (Port × (Option Nat) × Nat × State)).all (fun (p, sl, ring, s) => decide (
    rsReach p sl s = true ∧
    dbHolds p sl ring s = true)) = true := by
  decide +kernel

theorem witness_RingSetupCommandsAct_1 :
    ([(.a, none, 7, 7, rsSt, rsWrote .a (none) (flushDb 7 rsSt)),
      (.b, some 5, 3, 4099, tenant, rsWrote .b (some 5) (flushDb 4099 tenant))] :
      List (Port × (Option Nat) × Nat × Nat × State × State)).all (fun (p, sl, ring, g, s, a) => decide (
    tablesOk s = true ∧
    rsReach p sl s = true ∧
    (rsWin p sl s).busyUntil ≤ s.now ∧
    rsRing sl ring s = some g ∧
    a = rsWrote p sl (flushDb g s) ∧
    tenantCtx sl g a = true)) = true := by
  decide +kernel

theorem witness_RingSetupCommandsAct_2 :
    ([(.a, none, 7, 7, rsSt, rsWrote .a (none) (flushDb 7 rsSt))] :
      List (Port × (Option Nat) × Nat × Nat × State × State)).all (fun (p, sl, ring, g, s, a) => decide (
    tablesOk s = true ∧
    rsReach p sl s = true ∧
    (rsWin p sl s).busyUntil ≤ s.now ∧
    rsRing sl ring s = some g ∧
    a = rsWrote p sl (flushDb g s) ∧
    rsWriteCheck p sl g a = 0)) = true := by
  decide +kernel

theorem witness_RingSetupCommandsAct_3 :
    ([(.a, none, 0, 0, rsDis, rsWrote .a (none) (flushDb 0 rsDis))] :
      List (Port × (Option Nat) × Nat × Nat × State × State)).all (fun (p, sl, ring, g, s, a) => decide (
    tablesOk s = true ∧
    rsReach p sl s = true ∧
    (rsWin p sl s).busyUntil ≤ s.now ∧
    rsRing sl ring s = some g ∧
    a = rsWrote p sl (flushDb g s) ∧
    rsEnableCheck sl g a = 0)) = true := by
  decide +kernel

theorem witness_RingSetupCommandsAct_4 :
    ([(.a, none, 1, 1, rsCq, rsWrote .a (none) (flushDb 1 rsCq))] :
      List (Port × (Option Nat) × Nat × Nat × State × State)).all (fun (p, sl, ring, g, s, a) => decide (
    tablesOk s = true ∧
    rsReach p sl s = true ∧
    (rsWin p sl s).busyUntil ≤ s.now ∧
    rsRing sl ring s = some g ∧
    a = rsWrote p sl (flushDb g s) ∧
    ((ringOf a g).state = RingState.active ∨ (ringOf a g).state = RingState.braked) ∧
    (ringOf a g).type = RingType.cq ∧
    cqIdle a g = true ∧
    tenantCtx sl g a = true)) = true := by
  decide +kernel

theorem witness_RingSetupCommandsAct_5 :
    ([(.a, none, 0, 0, two, rsWrote .a (none) (flushDb 0 two))] :
      List (Port × (Option Nat) × Nat × Nat × State × State)).all (fun (p, sl, ring, g, s, a) => decide (
    tablesOk s = true ∧
    rsReach p sl s = true ∧
    (rsWin p sl s).busyUntil ≤ s.now ∧
    rsRing sl ring s = some g ∧
    a = rsWrote p sl (flushDb g s) ∧
    ((ringOf a g).state = RingState.active ∨ (ringOf a g).state = RingState.braked) ∧
    (ringOf a g).type ≠ RingType.cq ∧
    tenantCtx sl g a = true)) = true := by
  decide +kernel

theorem witness_RingSetupCommandsAct_6 :
    ([(.a, none, 0, 0, rsErr, rsWrote .a (none) (flushDb 0 rsErr))] :
      List (Port × (Option Nat) × Nat × Nat × State × State)).all (fun (p, sl, ring, g, s, a) => decide (
    tablesOk s = true ∧
    rsReach p sl s = true ∧
    (rsWin p sl s).busyUntil ≤ s.now ∧
    rsRing sl ring s = some g ∧
    a = rsWrote p sl (flushDb g s) ∧
    (ringOf a g).state = RingState.error ∧
    (ringOf a g).outstanding = 0 ∧
    (ringOf a g).siding = [] ∧
    tenantCtx sl g a = true)) = true := by
  decide +kernel

theorem witness_RingStepsComplete_1 :
    ([(1048575, up)] :
      List (Nat × State)).all (fun (g, s) => decide (
    live s = true ∧
    isCached s g = false ∧
    g < 2 ^ 20 ∧
    isPinned (ringOf s g) = false ∧
    s.car.dbHeld = [])) = true := by
  decide +kernel

theorem witness_RingStepsComplete_3 :
    ([(0, 0, false, work, flushDb 0 (shareSync work), flushDb 1 (flushDb 0 (shareSync work)))] :
      List (Nat × Nat × Bool × State × State × State)).all (fun (g, tag, sided, s, x, a) => decide (
    x = flushDb g (shareSync s) ∧
    a = flushDb (ringOf x g).cq x ∧
    live a = true ∧
    mayTake a (ringOf a g) = true ∧
    freeTag a = some tag ∧
    credit a (ringOf a g).cq = some sided ∧
    g ≠ (ringOf a g).cq ∧
    tagTurn a g = true ∧
    copyUsable (tget { } (ringOf a g).copies (ringOf a g).consumer) = true)) = true := by
  decide +kernel

theorem witness_RingStepsComplete_4 :
    ([(1, braked)] :
      List (Nat × State)).all (fun (q, s) => decide (
    live s = true ∧
    (ringOf s q).type = RingType.cq ∧
    (ringOf s q).brakeStamp ≠ 0 ∧
    (ringOf s q).alerted = false ∧
    s.car.brakeAlert ≠ 0 ∧
    (s.now + 2 ^ 32 - (ringOf s q).brakeStamp) % 2 ^ 32 ≥ 1000 * s.car.brakeAlert)) = true := by
  decide +kernel

theorem witness_RingStepsComplete_5 :
    ([(1, coal)] :
      List (Nat × State)).all (fun (q, s) => decide (
    powered s = true ∧
    (ringOf s q).type = RingType.cq ∧
    (ringOf s q).vecEn = true ∧
    (ringOf s q).coalCnt ≠ 0 ∧
    s.now ≥ (ringOf s q).coalAt + (ringOf s q).coalTime)) = true := by
  decide +kernel

theorem witness_RingStepsComplete_6 :
    ([(.a, none, 0, 0, two)] :
      List (Port × (Option Nat) × Nat × Nat × State)).all (fun (p, sl, ring, g, s) => decide (
    rsReach p sl s = true ∧
    rsRing sl ring s = some g)) = true := by
  decide +kernel

theorem witness_RingStepsComplete_6_3 :
    ([(.a, none, 0, 0, took)] :
      List (Port × (Option Nat) × Nat × Nat × State)).all (fun (p, sl, ring, g, s) => decide (
    rsReach p sl s = true ∧
    rsRing sl ring s = some g ∧
    tablesOk s = true)) = true := by
  decide +kernel

theorem witness_RingStepsComplete_6_4 :
    ([(.a, none, 0, 0, took)] :
      List (Port × (Option Nat) × Nat × Nat × State)).all (fun (p, sl, ring, g, s) => decide (
    rsReach p sl s = true ∧
    rsRing sl ring s = some g ∧
    tablesOk s = true)) = true := by
  decide +kernel

theorem witness_PlainCarriagesComplete_1_1 :
    ([(0, took)] :
      List (Nat × State)).all (fun (tag, s) => decide (
    live s = true ∧
    (carrOf s tag).stage = Stage.taken ∧
    s.car.legWait.contains tag = false ∧
    s.vlt.mode ≠ VaultMode.closed ∧
    (carrOf s tag).held = false ∧
    isLegacy (carrOf s tag).entry = false)) = true := by
  decide +kernel

theorem witness_PlainCarriagesComplete_2_1 :
    ([(0, [], legW)] :
      List (Nat × (List Nat) × State)).all (fun (tag, rest, s) => decide (
    s.car.legWait = tag :: rest ∧
    live s = true ∧
    legacyBusy s tag = false)) = true := by
  decide +kernel

theorem witness_PlainCarriagesComplete_3 :
    ([(0, 1, 0, fin)] :
      List (Nat × Nat × Nat × State)).all (fun (tag, st, res, s) => decide (
    powered s = true ∧
    (carrOf s tag).stage = Stage.finished ∧
    (carrOf s tag).fin = some (st, res) ∧
    earlierOpen s tag = false)) = true := by
  decide +kernel

theorem witness_PlainCarriagesComplete_4 :
    ([(0, adm 0x7E)] :
      List (Nat × State)).all (fun (tag, s) => decide (
    live s = true ∧
    (carrOf s tag).stage = Stage.admitted ∧
    eOp (carrOf s tag).entry = 126 ∧
    earlierOpen s tag = false)) = true := by
  decide +kernel

theorem witness_PlainCarriagesComplete_5 :
    ([(0, adm 0x7F)] :
      List (Nat × State)).all (fun (tag, s) => decide (
    live s = true ∧
    (carrOf s tag).stage = Stage.admitted ∧
    eOp (carrOf s tag).entry = 127)) = true := by
  decide +kernel

theorem witness_PlainCarriagesComplete_1_2 :
    ([(0, took)] :
      List (Nat × State)).all (fun (tag, s) => decide (
    live s = true ∧
    (carrOf s tag).stage = Stage.taken ∧
    s.car.legWait.contains tag = false ∧
    s.vlt.mode ≠ VaultMode.closed ∧
    (carrOf s tag).held = false ∧
    isLegacy (carrOf s tag).entry = false ∧
    tablesOk s = true ∧
    admission s (carrOf s tag) = Verdict.pass ∧
    tenderNeed (carrOf s tag).entry = 0 ∧
    eOp (carrOf s tag).entry ≠ 48 ∧
    eOp (carrOf s tag).entry ≠ 80)) = true := by
  decide +kernel

theorem witness_PlainCarriagesComplete_1_3 :
    ([(0, badOp, { status := 64, step := 1, off := 0 })] :
      List (Nat × State × Refuse)).all (fun (tag, s, x) => decide (
    live s = true ∧
    (carrOf s tag).stage = Stage.taken ∧
    s.car.legWait.contains tag = false ∧
    s.vlt.mode ≠ VaultMode.closed ∧
    (carrOf s tag).held = false ∧
    isLegacy (carrOf s tag).entry = false ∧
    tablesOk s = true ∧
    admission s (carrOf s tag) = Verdict.refuse x ∧
    waitsTurn s tag = false)) = true := by
  decide +kernel

theorem witness_PlainCarriagesComplete_2_2 :
    ([(0, [], legOk)] :
      List (Nat × (List Nat) × State)).all (fun (tag, rest, s) => decide (
    s.car.legWait = tag :: rest ∧
    live s = true ∧
    legacyBusy s tag = false ∧
    tablesOk s = true ∧
    (carrOf s tag).stage = Stage.taken ∧
    isLegacy (carrOf s tag).entry = true ∧
    admission
        { pending := s.pending, out := s.out, free := s.free, now := s.now, csn := s.csn, chp := s.chp, pins := s.pins,
          hpt := s.hpt, stats := s.stats, win := s.win, ttb := s.ttb,
          car :=
            { rings := s.car.rings, cars := s.car.cars, shadows := s.car.shadows, takes := s.car.takes, legWait := rest,
              brakeAlert := s.car.brakeAlert, sidingHwm := s.car.sidingHwm, ctxHit := s.car.ctxHit,
              ctxMiss := s.car.ctxMiss, badDb := s.car.badDb, dbq := s.car.dbq, dbqHwm := s.car.dbqHwm,
              dbHeld := s.car.dbHeld, overrunCnt := s.car.overrunCnt, sidingDrop := s.car.sidingDrop,
              tagsHwm := s.car.tagsHwm, refusedCnt := s.car.refusedCnt, abortedCnt := s.car.abortedCnt,
              scrubCarr := s.car.scrubCarr, scrubBytes := s.car.scrubBytes, shadowHits := s.car.shadowHits,
              shadowReread := s.car.shadowReread, unscrubCnt := s.car.unscrubCnt, cached := s.car.cached,
              tagShort := s.car.tagShort, lastSq := s.car.lastSq },
          cay := s.cay, mdf := s.mdf, kst := s.kst, leg := s.leg, vlt := s.vlt, slc := s.slc, evr := s.evr, rng := s.rng,
          lat := s.lat, bnv := s.bnv, ucp := s.ucp, wld := s.wld, tmp := s.tmp, bbr := s.bbr, lcs := s.lcs,
          fuses := s.fuses, mnf := s.mnf, flash := s.flash, fwu := s.fwu, drb := s.drb, mem := s.mem, gov := s.gov,
          shown := s.shown }
        (carrOf s tag) =
      Verdict.pass)) = true := by
  decide +kernel

theorem witness_PlainCarriagesComplete_2_3 :
    ([(0, [], legW, { status := 64, step := 2, off := 8 })] :
      List (Nat × (List Nat) × State × Refuse)).all (fun (tag, rest, s, x) => decide (
    s.car.legWait = tag :: rest ∧
    live s = true ∧
    legacyBusy s tag = false ∧
    tablesOk s = true ∧
    (carrOf s tag).stage = Stage.taken ∧
    admission
        { pending := s.pending, out := s.out, free := s.free, now := s.now, csn := s.csn, chp := s.chp, pins := s.pins,
          hpt := s.hpt, stats := s.stats, win := s.win, ttb := s.ttb,
          car :=
            { rings := s.car.rings, cars := s.car.cars, shadows := s.car.shadows, takes := s.car.takes, legWait := rest,
              brakeAlert := s.car.brakeAlert, sidingHwm := s.car.sidingHwm, ctxHit := s.car.ctxHit,
              ctxMiss := s.car.ctxMiss, badDb := s.car.badDb, dbq := s.car.dbq, dbqHwm := s.car.dbqHwm,
              dbHeld := s.car.dbHeld, overrunCnt := s.car.overrunCnt, sidingDrop := s.car.sidingDrop,
              tagsHwm := s.car.tagsHwm, refusedCnt := s.car.refusedCnt, abortedCnt := s.car.abortedCnt,
              scrubCarr := s.car.scrubCarr, scrubBytes := s.car.scrubBytes, shadowHits := s.car.shadowHits,
              shadowReread := s.car.shadowReread, unscrubCnt := s.car.unscrubCnt, cached := s.car.cached,
              tagShort := s.car.tagShort, lastSq := s.car.lastSq },
          cay := s.cay, mdf := s.mdf, kst := s.kst, leg := s.leg, vlt := s.vlt, slc := s.slc, evr := s.evr, rng := s.rng,
          lat := s.lat, bnv := s.bnv, ucp := s.ucp, wld := s.wld, tmp := s.tmp, bbr := s.bbr, lcs := s.lcs,
          fuses := s.fuses, mnf := s.mnf, flash := s.flash, fwu := s.fwu, drb := s.drb, mem := s.mem, gov := s.gov,
          shown := s.shown }
        (carrOf s tag) =
      Verdict.refuse x ∧
    waitsTurn s tag = false)) = true := by
  decide +kernel

theorem witness_PlainCarriagesComplete_3_2 :
    ([(0, 1, 0, fin)] :
      List (Nat × Nat × Nat × State)).all (fun (tag, st, res, s) => decide (
    powered s = true ∧
    (carrOf s tag).stage = Stage.finished ∧
    (carrOf s tag).fin = some (st, res) ∧
    earlierOpen s tag = false ∧
    tablesOk s = true ∧
    inFault s = false)) = true := by
  decide +kernel

theorem witness_PlainCarriagesComplete_4_2 :
    ([(0, adm 0x7E)] :
      List (Nat × State)).all (fun (tag, s) => decide (
    live s = true ∧
    (carrOf s tag).stage = Stage.admitted ∧
    eOp (carrOf s tag).entry = 126 ∧
    earlierOpen s tag = false ∧
    tablesOk s = true)) = true := by
  decide +kernel

theorem witness_PlainCarriagesComplete_5_2 :
    ([(0, adm 0x7F)] :
      List (Nat × State)).all (fun (tag, s) => decide (
    live s = true ∧
    (carrOf s tag).stage = Stage.admitted ∧
    eOp (carrOf s tag).entry = 127 ∧
    tablesOk s = true ∧
    waitsTurn s tag = false)) = true := by
  decide +kernel

theorem witness_PlainCarriagesComplete_5_3 :
    ([(0, nopTurn)] :
      List (Nat × State)).all (fun (tag, s) => decide (
    live s = true ∧
    (carrOf s tag).stage = Stage.admitted ∧
    eOp (carrOf s tag).entry = 127 ∧
    tablesOk s = true ∧
    waitsTurn s tag = true)) = true := by
  decide +kernel

theorem witness_LegacyRegisterLoadsAndCommits_1 :
    ([(.a, held 0 up)] :
      List (Port × State)).all (fun (p, s) => decide (
    wr p Blk.kst s = true ∧
    holds p 0 s = true ∧
    s.leg.loading = false ∧
    legacyUsers s = [])) = true := by
  decide +kernel

theorem witness_LegacyRegisterLoadsAndCommits_2 :
    ([(.a, 15, legLoad 15)] :
      List (Port × Nat × State)).all (fun (p, n, s) => decide (
    wr p Blk.kst s = true ∧
    holds p 0 s = true ∧
    s.leg.loading = true ∧
    s.leg.port = some p ∧
    legLate s = false ∧
    n = s.leg.next ∧
    n ≤ 15)) = true := by
  decide +kernel

theorem witness_LegacyRegisterLoadsAndCommits_3 :
    ([(.a, 1, legLoad 16),
      (.a, 1, { legLoad 16 with leg := { (legLoad 16).leg with stage := zeros 64 } })] :
      List (Port × Nat × State)).all (fun (p, v, s) => decide (
    wr p Blk.kst s = true ∧
    holds p 0 s = true ∧
    s.leg.loading = true ∧
    s.leg.port = some p ∧
    legLate s = false ∧
    v % 2 ^ 32 = 1 ∧
    s.leg.next = 16)) = true := by
  decide +kernel

theorem witness_LegacyRegisterLoadsAndCommits_4 :
    ([onTime 1000 (legLoad 3)] :
      List (State)).all (fun s => decide (
    powered s = true ∧
    inFault s = false ∧
    legLate s = true)) = true := by
  decide +kernel

theorem witness_LegacyRegisterLoadsAndCommits_5 :
    ([(.b, held 0 up)] :
      List (Port × State)).all (fun (p, s) => decide (
    wr p Blk.kst s = true ∧
    holds p 0 s = false)) = true := by
  decide +kernel

theorem witness_ReplaceMovesMaterial_1 :
    ([(.a, repl 0),
      (.a, repl 2)] :
      List (Port × State)).all (fun (p, s) => decide (
    tablesOk s = true ∧
    wr p Blk.kst s = true ∧
    replCheck s (s.win.get p).replSrc (s.win.get p).replDst = 0 ∧
    (slotOf s (hIndex (s.win.get p).replSrc)).retained = false)) = true := by
  decide +kernel

theorem witness_ReplaceMovesMaterial_2 :
    ([(.a, replRet)] :
      List (Port × State)).all (fun (p, s) => decide (
    wr p Blk.kst s = true ∧
    replCheck s (s.win.get p).replSrc (s.win.get p).replDst = 0 ∧
    (slotOf s (hIndex (s.win.get p).replSrc)).retained = true)) = true := by
  decide +kernel

theorem witness_ReplaceMovesMaterial_3 :
    ([(.a, winA (fun w => { w with replDst := handle 0 1 false }) (repl 0))] :
      List (Port × State)).all (fun (p, s) => decide (
    wr p Blk.kst s = true ∧
    replCheck s (s.win.get p).replSrc (s.win.get p).replDst ≠ 0)) = true := by
  decide +kernel

theorem witness_KeyLimitsZeroise_1 :
    ([(32767, onTime 100000 (slots [(32767, { slA with gen := 2, retained := true, retGen := 1, retUse := 1 })] up))] :
      List (Nat × State)).all (fun (i, s) => decide (
    powered s = true ∧
    inFault s = false ∧
    (slotOf s i).retained = true ∧
    s.now ≥ (slotOf s i).retAt + 100000)) = true := by
  decide +kernel

theorem witness_KeyLimitsZeroise_2 :
    ([(3, onTime 100000 (slots [(3, { slA with state := .pending, use := 1 })] up)),
      (3, onTime 100000 (slots [(3, { slA with state := .orphaned })] up))] :
      List (Nat × State)).all (fun (i, s) => decide (
    powered s = true ∧
    inFault s = false ∧
    ((slotOf s i).state = SlotState.pending ∨ (slotOf s i).state = SlotState.orphaned) ∧
    s.now ≥ (slotOf s i).pendStamp + 100000)) = true := by
  decide +kernel

theorem witness_KeyLimitsZeroise_3 :
    ([(0, 9, 77, 0, 1, false, tickCar)] :
      List (Nat × Nat × Nat × Nat × Nat × Bool × State)).all (fun (t, owner, dek, base, count, hit, s) => decide (
    powered s = true ∧
    inFault s = false ∧
    (carrOf s t).key = KeyBind.ticket owner dek base count hit ∧
    bound (carrOf s t) = true ∧
    (ownerOf s owner).state = OwnerState.revoked ∧
    s.now ≥ (ownerOf s owner).revokedAt + 100000)) = true := by
  decide +kernel

theorem witness_KeyLimitsZeroise_4 :
    ([(3, shade)] :
      List (Nat × State)).all (fun (i, s) => decide (
    tablesOk s = true ∧
    powered s = true ∧
    (tget { } s.car.shadows i).used = true ∧
    (∀ (u : Nat), (tget { } s.car.shadows i).tag = some u → (carrOf s u).admCsn = 0) ∧
    s.now ≥ (tget { } s.car.shadows i).at_ + 10000)) = true := by
  decide +kernel

theorem witness_SlotsHoldMaterialOnlyWhileAllocated_1_1 :
    ([stagedKey] :
      List (State)).all (fun s => decide (
    tablesOk s = true)) = true := by
  decide +kernel

theorem witness_SlotsHoldMaterialOnlyWhileAllocated_1_2 :
    ([(3, slots [(3, slA)] up)] :
      List (Nat × State)).all (fun (i, s) => decide (
    tablesOk s = true ∧
    (slotOf s i).use = 0 ∧
    (slotOf s i).state = SlotState.live)) = true := by
  decide +kernel

theorem witness_SlotsHoldMaterialOnlyWhileAllocated_1_3 :
    ([(3, stagedKey)] :
      List (Nat × State)).all (fun (i, s) => decide (
    tablesOk s = true ∧
    (slotOf s i).use ≠ 0 ∧
    (slotOf s i).state = SlotState.live)) = true := by
  decide +kernel

theorem witness_SlotsHoldMaterialOnlyWhileAllocated_1_1_9 :
    ([(3, stagedKey, 4)] :
      List (Nat × State × Nat)).all (fun (i, s, k) => decide (
    tablesOk s = true ∧
    k ≠ i)) = true := by
  decide +kernel

theorem witness_SlotsHoldMaterialOnlyWhileAllocated_2_6 :
    ([(3, 4)] :
      List (Nat × Nat)).all (fun (i, k) => decide (
    k ≠ i)) = true := by
  decide +kernel

end Sys2Proof.Tests
end

