-- ==== Sys2Proof/Tests/WitnessB.lean ====
section
/-! SUPPORT. For each statement, and for each of its clauses, operands and states that meet all its hypotheses together: a
theorem of this file is named after its statement and the place of the clause in it. -/
namespace Sys2Proof.Tests
open Sys2Proof.Machine Sys2Proof.Safety
set_option linter.unusedVariables false
set_option Elab.async false

theorem witness_KeyCarriagesComplete_1 :
    ([(0, 3, 1, key1 0x12 .admitted { key := .slot 3 1 })] :
      List (Nat × Nat × Nat × State)).all (fun (t, i, g, s) => decide (
    isAt s t 18 Stage.admitted = true ∧
    (carrOf s t).key = KeyBind.slot i g)) = true := by
  decide +kernel

theorem witness_KeyCarriagesComplete_2 :
    ([(0, 9, 77, 0, 1, 5, false, key1 0x11 .admitted { key := .ticket 9 77 0 1 false, reserved := some 5 })] :
      List (Nat × Nat × Nat × Nat × Nat × Nat × Bool × State)).all (fun (t, owner, dek, base, count, i, hit, s) => decide (
    isAt s t 17 Stage.admitted = true ∧
    (carrOf s t).key = KeyBind.ticket owner dek base count hit ∧
    (carrOf s t).reserved = some i ∧
    waitsTurn s t = false)) = true := by
  decide +kernel

theorem witness_KeyCarriagesComplete_3 :
    ([(0, key1 0x10 .admitted { rnd := zeros 40 })] :
      List (Nat × State)).all (fun (t, s) => decide (
    isAt s t 16 Stage.admitted = true ∧
    (carrOf s t).rngWait = false ∧
    List.length (carrOf s t).rnd = 40 ∧
    waitsTurn s t = false)) = true := by
  decide +kernel

theorem witness_KeyCarriagesComplete_4 :
    ([(0, 3, 1, key1 0x05 .admitted { key := .slot 3 1 })] :
      List (Nat × Nat × Nat × State)).all (fun (t, i, g, s) => decide (
    isAt s t 5 Stage.admitted = true ∧
    (carrOf s t).key = KeyBind.slot i g ∧
    sealWaits s t i g = false ∧
    waitsTurn s t = false)) = true := by
  decide +kernel

theorem witness_KeyCarriagesComplete_5 :
    ([(0, key1 0x41 .running { key := .slot 3 1, aux := 1, started := true, reserved := some 5 })] :
      List (Nat × State)).all (fun (t, s) => decide (
    worldServes s 65 = true ∧
    isAt s t 65 Stage.running = true ∧
    (carrOf s t).aux = 1 ∧
    (carrOf s t).started = true ∧
    waitsTurn s t = false)) = true := by
  decide +kernel

theorem witness_KeyCarriagesComplete_6 :
    ([(0, key1 0x42 .running { aux := 1, started := true })] :
      List (Nat × State)).all (fun (t, s) => decide (
    worldServes s 66 = true ∧
    isAt s t 66 Stage.running = true ∧
    (carrOf s t).aux = 1 ∧
    (carrOf s t).started = true)) = true := by
  decide +kernel

theorem witness_KeyCarriagesComplete_7 :
    ([(0, 0, 0, specE, zeros 64, none, spec)] :
      List (Nat × Nat × Nat × Bytes × Bytes × (Option Nat) × State)).all (fun (sq, pos, i, e, ticket, tag, s) => decide (
    live s = true ∧
    (ringOf s sq).type = RingType.sq ∧
    (ringOf s sq).state = RingState.active ∧
    unwrapTarget s sq pos = some (e, tag) ∧
    (firstBelow 1024 fun i => !(tget { } s.car.shadows i).used) = some i ∧
    eOp e = 2 ∧
    kKind (eKeyref e) = 2 ∧
    List.length ticket = 64 ∧
    readsOut (s.stats.get (ringOf s sq).home) < 768 ∧
    (tany s.car.shadows fun x h => h.used && h.sq == sq && h.pos == pos) = false)) = true := by
  decide +kernel

theorem witness_RandomControlsAct :
    ([(.a, { up with rng := { state := .seeded, bits := List.replicate 512 (0, true), tender := zeros 9 } })] :
      List (Port × State)).all (fun (p, s) => decide (
    wr p Blk.rng s = true)) = true := by
  decide +kernel

theorem witness_RandomControlsAct_2 :
    ([(.a, up),
      (.a, { up with rng := { state := .seeded, wins := [2, 2, 2, 2], bits := List.replicate 512 (0, true) } })] :
      List (Port × State)).all (fun (p, s) => decide (
    wr p Blk.rng s = true ∧
    s.rng.state = RngState.seeded)) = true := by
  decide +kernel

theorem witness_RandomControlsAct_3 :
    ([(.a, up)] :
      List (Port × State)).all (fun (p, s) => decide (
    wr p Blk.rng s = true ∧
    s.rng.kat ≠ 3)) = true := by
  decide +kernel

theorem witness_RandomControlsAct_4 :
    ([(.a, { up with rng := { kat := 3 } })] :
      List (Port × State)).all (fun (p, s) => decide (
    wr p Blk.rng s = true ∧
    s.rng.kat = 3)) = true := by
  decide +kernel

theorem witness_RandomControlsAct_5 :
    ([(.a, up)] :
      List (Port × State)).all (fun (p, s) => decide (
    wr p Blk.rng s = true ∧
    s.rng.kat ≠ 3 ∧
    s.rng.waiters = [])) = true := by
  decide +kernel

theorem witness_HealthWindowsDecideTheSource_1_1 :
    ([(3, (List.range 1024).map (fun i => i % 2 == 0), starting),
      (3, (List.range 1024).map (fun i => i % 2 == 0), reached)] :
      List (Nat × (List Bool) × State)).all (fun (cell, l, s) => decide (
    powered s = true ∧
    inFault s = false ∧
    cell < 4 ∧
    l.length = 1024 ∧
    s.rng.state = RngState.starting ∧
    s.rng.runs.length = 4 ∧
    s.rng.cellFail.length = 4 ∧
    windowFails (s.rng.lastRun.getD cell (0, 0)) l = false ∧
    ((s.rng.last.getD cell (false, 0)).fst = false ∨ runReachesBack (s.rng.lastRun.getD cell (0, 0)) l = false))) = true := by
  decide +kernel

theorem witness_HealthWindowsDecideTheSource_1_2 :
    ([(0, List.replicate 1024 true, starting)] :
      List (Nat × (List Bool) × State)).all (fun (cell, l, s) => decide (
    powered s = true ∧
    inFault s = false ∧
    cell < 4 ∧
    l.length = 1024 ∧
    s.rng.state = RngState.starting ∧
    s.rng.runs.length = 4 ∧
    s.rng.cellFail.length = 4 ∧
    windowFails (s.rng.lastRun.getD cell (0, 0)) l = true ∧
    ((s.rng.last.getD cell (false, 0)).fst = false ∨ runReachesBack (s.rng.lastRun.getD cell (0, 0)) l = false) ∧
    (List.filter (fun t => decide (s.now < t + 1000000)) s.rng.failStamps).length + 1 ≤ s.rng.failLimit)) = true := by
  decide +kernel

theorem witness_HealthWindowsDecideTheSource_1_3 :
    ([(0, List.replicate 10 true ++ (List.range 1014).map (fun i => i % 2 == 0), reached)] :
      List (Nat × (List Bool) × State)).all (fun (cell, l, s) => decide (
    powered s = true ∧
    inFault s = false ∧
    cell < 4 ∧
    l.length = 1024 ∧
    s.rng.state = RngState.starting ∧
    s.rng.runs.length = 4 ∧
    s.rng.cellFail.length = 4 ∧
    (s.rng.last.getD cell (false, 0)).fst = true ∧
    runReachesBack (s.rng.lastRun.getD cell (0, 0)) l = true ∧
    s.rng.failStamps.length + 2 ≤ s.rng.failLimit)) = true := by
  decide +kernel

theorem witness_HealthWindowsDecideTheSource_2 :
    ([onTime 39999 started] :
      List (State)).all (fun s => decide (
    powered s = true ∧
    inFault s = false ∧
    s.rng.state = RngState.starting ∧
    (s.rng.runs.all fun x => decide (x ≥ 16)) = true ∧
    s.rng.kat = 1 ∧
    bitsReady s = true ∧
    s.now < s.rng.startAt + 40000)) = true := by
  decide +kernel

theorem witness_HealthWindowsDecideTheSource_3 :
    ([onTime 40000 starting] :
      List (State)).all (fun s => decide (
    powered s = true ∧
    inFault s = false ∧
    s.rng.state = RngState.starting ∧
    s.now ≥ s.rng.startAt + 40000 ∧
    s.rng.waiters = [])) = true := by
  decide +kernel

theorem witness_HealthWindowsDecideTheSource_4 :
    ([onTime 100000 { up with rng := {}, tmp := { rngRestart := true } }] :
      List (State)).all (fun s => decide (
    powered s = true ∧
    inFault s = false ∧
    s.tmp.rngRestart = true ∧
    s.rng.state = RngState.stopped ∧
    quiet s 100000 = true)) = true := by
  decide +kernel

theorem witness_TenderServesItsConsumers_1 :
    ([{ up with rng := { state := .seeded, reqSince := 2 ^ 20 - 2 } }] :
      List (State)).all (fun s => decide (
    powered s = true ∧
    inFault s = false ∧
    s.rng.state = RngState.seeded ∧
    s.rng.reseedDue = false ∧
    List.length s.rng.tender < 65536 ∧
    s.rng.reqSince + 1 < 2 ^ 20 ∧
    s.rng.waiters = [])) = true := by
  decide +kernel

theorem witness_TenderServesItsConsumers_2 :
    ([{ up with rng := { state := .seeded, wins := [2, 2, 2, 2], reqSince := 2 ^ 20 - 1, bits := List.replicate 512 (0, true) } }] :
      List (State)).all (fun s => decide (
    powered s = true ∧
    inFault s = false ∧
    s.rng.state = RngState.seeded ∧
    2 ^ 20 ≤ s.rng.reqSince + 1 ∧
    bitsReady s = true)) = true := by
  decide +kernel

theorem witness_TenderServesItsConsumers_3_3 :
    ([({ who := .debug, need := 32, limit := 300 }, waiting)] :
      List (Waiter × State)).all (fun (w, s) => decide (
    powered s = true ∧
    inFault s = false ∧
    lateWaiter s = some w ∧
    w.who = Consumer.debug ∧
    s.rng.waiters = [w])) = true := by
  decide +kernel

theorem witness_TenderServesItsConsumers_3_2 :
    ([({ who := .remask 3, need := 64, limit := 300 }, late1, 3)] :
      List (Waiter × State × Nat)).all (fun (w, s, i) => decide (
    powered s = true ∧
    inFault s = false ∧
    lateWaiter s = some w ∧
    w.who = Consumer.remask i ∧
    s.rng.waiters = [w])) = true := by
  decide +kernel

theorem witness_TenderServesItsConsumers_4 :
    ([(3, slots [(3, slA)] (tender 64))] :
      List (Nat × State)).all (fun (i, s) => decide (
    tablesOk s = true ∧
    powered s = true ∧
    inFault s = false ∧
    (slotOf s i).state ≠ SlotState.free ∧
    i < 32768 ∧
    nextRemask s = some i ∧
    s.rng.state = RngState.seeded ∧
    s.rng.waiters = [] ∧
    64 ≤ List.length s.rng.tender)) = true := by
  decide +kernel

theorem witness_TenderServesItsConsumers_5 :
    ([tender 64] :
      List (State)).all (fun s => decide (
    powered s = true ∧
    inFault s = false ∧
    s.rng.state = RngState.seeded ∧
    64 ≤ List.length s.rng.tender ∧
    s.rng.waiters = [] ∧
    s.kst.masks.length < 256)) = true := by
  decide +kernel

theorem witness_TenderServesItsConsumers_6 :
    ([(0, key1 0x13 .admitted { rnd := zeros 64 })] :
      List (Nat × State)).all (fun (tag, s) => decide (
    live s = true ∧
    (carrOf s tag).stage = Stage.admitted ∧
    eOp (carrOf s tag).entry = 19 ∧
    (carrOf s tag).rngWait = false ∧
    List.length (carrOf s tag).rnd = eLength (carrOf s tag).entry)) = true := by
  decide +kernel

theorem witness_LatticeCommandsRunInOrder_1_3 :
    ([(.a, latS latB 4)] :
      List (Port × State)).all (fun (p, s) => decide (
    wr p Blk.lat s = true ∧
    (s.win.get p).lat.busy = false ∧
    latCheck s (s.win.get p).lat = 0 ∧
    (s.win.get p).lat.op = 3)) = true := by
  decide +kernel

theorem witness_LatticeCommandsRunInOrder_1_1 :
    ([(.a, latOwn 1)] :
      List (Port × State)).all (fun (p, s) => decide (
    wr p Blk.lat s = true ∧
    (s.win.get p).lat.busy = false ∧
    latCheck s (s.win.get p).lat = 0 ∧
    (s.win.get p).lat.op = 1)) = true := by
  decide +kernel

theorem witness_LatticeCommandsRunInOrder_1_2 :
    ([(.a, latOwn 2)] :
      List (Port × State)).all (fun (p, s) => decide (
    wr p Blk.lat s = true ∧
    (s.win.get p).lat.busy = false ∧
    latCheck s (s.win.get p).lat = 0 ∧
    (s.win.get p).lat.op = 2)) = true := by
  decide +kernel

theorem witness_LatticeCommandsRunInOrder_1_4 :
    ([(.a, latS { latB with op := 4, dstLen := 8192, srcLen := 65536 } 4)] :
      List (Port × State)).all (fun (p, s) => decide (
    wr p Blk.lat s = true ∧
    (s.win.get p).lat.busy = false ∧
    latCheck s (s.win.get p).lat = 0 ∧
    (s.win.get p).lat.op = 4)) = true := by
  decide +kernel

theorem witness_LatticeCommandsRunInOrder_1_5_1 :
    ([(.a, tend (latOwn 1))] :
      List (Port × State)).all (fun (p, s) => decide (
    wr p Blk.lat s = true ∧
    (s.win.get p).lat.busy = false ∧
    latCheck s (s.win.get p).lat = 0 ∧
    s.rng.waiters = [] ∧
    s.rng.state ≠ RngState.failed ∧
    (s.win.get p).lat.op = 1 ∧
    64 ≤ List.length s.rng.tender)) = true := by
  decide +kernel

theorem witness_LatticeCommandsRunInOrder_1_5_2 :
    ([(.a, tend (latOwn 2))] :
      List (Port × State)).all (fun (p, s) => decide (
    wr p Blk.lat s = true ∧
    (s.win.get p).lat.busy = false ∧
    latCheck s (s.win.get p).lat = 0 ∧
    s.rng.waiters = [] ∧
    s.rng.state ≠ RngState.failed ∧
    (s.win.get p).lat.op = 2 ∧
    32 ≤ List.length s.rng.tender)) = true := by
  decide +kernel

theorem witness_LatticeCommandsRunInOrder_1_5_3 :
    ([(.a, tend (latS { latB with op := 4, dstLen := 8192, srcLen := 9 } 4))] :
      List (Port × State)).all (fun (p, s) => decide (
    wr p Blk.lat s = true ∧
    (s.win.get p).lat.busy = false ∧
    latCheck s (s.win.get p).lat = 0 ∧
    s.rng.waiters = [] ∧
    s.rng.state ≠ RngState.failed ∧
    (s.win.get p).lat.op = 4 ∧
    32 ≤ List.length s.rng.tender)) = true := by
  decide +kernel

theorem witness_LatticeCommandsRunInOrder_2 :
    ([(.a, latS { latB with op := 4, srcLen := 65537, dstLen := 8192 } 4)] :
      List (Port × State)).all (fun (p, s) => decide (
    wr p Blk.lat s = true ∧
    (s.win.get p).lat.busy = false ∧
    (s.win.get p).lat.op = 4 ∧
    latCheck s (s.win.get p).lat ≠ 0)) = true := by
  decide +kernel

theorem witness_LatticeCommandsRunInOrder_3 :
    ([(.a, latBusy)] :
      List (Port × State)).all (fun (p, s) => decide (
    wr p Blk.lat s = true ∧
    (s.win.get p).lat.busy = true ∧
    s.lat.slot.get p = none)) = true := by
  decide +kernel

theorem witness_VerifierAndAnchorsAct_1_3 :
    ([(.a, [], latBusy)] :
      List (Port × (List LatReq) × State)).all (fun (p, rest, s) => decide (
    powered s = true ∧
    inFault s = false ∧
    s.lat.queue = LatReq.port p :: rest ∧
    latReady p s = true ∧
    2 < (s.lat.run.get p).op)) = true := by
  decide +kernel

theorem witness_VerifierAndAnchorsAct_1_2 :
    ([(.a, [], latKey, 0)] :
      List (Port × (List LatReq) × State × Nat)).all (fun (p, rest, s, i) => decide (
    powered s = true ∧
    inFault s = false ∧
    s.lat.queue = LatReq.port p :: rest ∧
    latReady p s = true ∧
    (s.lat.run.get p).op ≤ 2 ∧
    s.lat.slot.get p = none ∧
    pickFree s = some i ∧
    canCreate s (s.lat.run.get p).scope = true)) = true := by
  decide +kernel

theorem witness_VerifierAndAnchorsAct_2 :
    ([(.a, ancS)] :
      List (Port × State)).all (fun (p, s) => decide (
    wr p Blk.bnv s = true ∧
    (s.win.get p).anc.busy = false ∧
    1 ≤ (s.win.get p).anc.alg ∧
    (s.win.get p).anc.alg ≤ 9 ∧
    anchorLenOk (s.win.get p).anc.alg (s.win.get p).anc.len = true)) = true := by
  decide +kernel

theorem witness_VerifierAndAnchorsAct_3 :
    ([(.a, ancS)] :
      List (Port × State)).all (fun (p, s) => decide (
    wr p Blk.bnv s = true ∧
    (s.win.get p).anc.busy = false ∧
    twf { } s.bnv.anchors = true)) = true := by
  decide +kernel

theorem witness_VerifierAndAnchorsAct_4 :
    ([(0, adm 0x40)] :
      List (Nat × State)).all (fun (tag, s) => decide (
    live s = true ∧
    eOp (carrOf s tag).entry = 64 ∧
    (carrOf s tag).stage = Stage.admitted)) = true := by
  decide +kernel

theorem witness_VerifierAndAnchorsAct_5 :
    ([(5, 0, verRun)] :
      List (Nat × Nat × State)).all (fun (ch, t, s) => decide (
    powered s = true ∧
    inFault s = false ∧
    ch < 6 ∧
    tget none s.bnv.chans ch = some t ∧
    eOp (carrOf s t).entry = 64)) = true := by
  decide +kernel

theorem witness_VerifierAndAnchorsAct_6 :
    ([(3, [], [])] :
      List (Nat × Bytes × Bytes)).all (fun (alg, key, rec) => decide (
    verForm alg (List.length key - 4) (verRec alg rec) = false)) = true := by
  decide +kernel

theorem witness_VerifierAndAnchorsAct_7 :
    ([(3, ecKey, ecRec)] :
      List (Nat × Bytes × Bytes)).all (fun (alg, key, rec) => decide (
    3 ≤ alg ∧
    alg ≤ 5 ∧
    verForm alg (List.length key - 4) (verRec alg rec) = true ∧
    List.take 1 key = [4] ∧
    (beNat (sub key 1 (verCurve alg).bytes), beNat (sub key (1 + (verCurve alg).bytes) (verCurve alg).bytes)) ≠ (0, 0) ∧
    onCurve (verCurve alg)
        (beNat (sub key 1 (verCurve alg).bytes), beNat (sub key (1 + (verCurve alg).bytes) (verCurve alg).bytes)) =
      true ∧
    beNat (List.take (verCurve alg).bytes (verRec alg rec).sig) = 0)) = true := by
  decide +kernel

theorem witness_PrivilegedChannelsCompute_1 :
    ([(.a, chan { op := 1, len := 4 }, .modmul .a),
      (.a, chan { op := 2, len := 128 }, .modexp .a),
      (.a, chan { op := 3, curve := 1, len := 4, slots := 2 * 2 ^ 24 + 256 }, .ecadd .a),
      (.a, chan { op := 4, curve := 3, len := 9, slots := 2 * 2 ^ 24 + 256 }, .ecmul .a)] :
      List (Port × State × Instr)).all (fun (p, s, c) => decide (
    wr p Blk.bnv s = true ∧
    (chanOf s p).busy = false ∧
    rawOk (chanOf s p).op (chanOf s p).curve (chanOf s p).len (chanOf s p).slots = true ∧
    (c = Instr.modmul p ∧ (chanOf s p).op = 1 ∨
      c = Instr.modexp p ∧ (chanOf s p).op = 2 ∨
        c = Instr.ecadd p ∧ (chanOf s p).op = 3 ∨ c = Instr.ecmul p ∧ (chanOf s p).op = 4))) = true := by
  decide +kernel

theorem witness_PrivilegedChannelsCompute_2 :
    ([(.a, chan { busy := true, mem := [(3, 1)] })] :
      List (Port × State)).all (fun (p, s) => decide (
    wr p Blk.bnv s = true ∧
    (chanOf s p).busy = true)) = true := by
  decide +kernel

theorem witness_PrivilegedChannelsCompute_3 :
    ([(1, 0, 4, 256 + 2 * 65536 + 3 * 2 ^ 24, chan { busy := true, mem := mmem, pend := some (1, 0, 4, 256 + 2 * 65536 + 3 * 2 ^ 24) }),
      (1, 0, 4, 256 + 3 * 2 ^ 24, chan { busy := true, mem := mmem, pend := some (1, 0, 4, 256 + 3 * 2 ^ 24) })] :
      List (Nat × Nat × Nat × Nat × State)).all (fun (op, curve, len, w, s) => decide (
    powered s = true ∧
    inFault s = false ∧
    (chanOf s Port.a).pend = some (op, curve, len, w))) = true := by
  decide +kernel

theorem witness_PrivilegedChannelsCompute_4 :
    ([(.b, 0xFF80, List.replicate 128 true, up)] :
      List (Port × Nat × (List Bool) × State)).all (fun (p, o, e, s) => decide (
    reach p s = true ∧
    blkAnswers Blk.bar4 s = true ∧
    inFault s = false ∧
    (chanOf s p).busy = false ∧
    0 < e.length ∧
    e.length ≤ 128 ∧
    o + e.length ≤ 65536)) = true := by
  decide +kernel

theorem witness_PrivilegedChannelsCompute_5 :
    ([(.b, 0xFFFF, [some 9], up)] :
      List (Port × Nat × (List (Option Byte)) × State)).all (fun (p, o, b, s) => decide (
    reach p s = true ∧
    blkAnswers Blk.bar4 s = true ∧
    inFault s = false ∧
    (chanOf s p).busy = false ∧
    0 < b.length ∧
    b.length ≤ 128 ∧
    o + b.length ≤ 65536)) = true := by
  decide +kernel

theorem witness_UtilityLockChangesHands_1_1 :
    ([(.b, ucpS { ticket := 0xFFFF })] :
      List (Port × State)).all (fun (p, s) => decide (
    wr p Blk.ucp s = true ∧
    s.ucp.holder = none)) = true := by
  decide +kernel

theorem witness_UtilityLockChangesHands_1_2 :
    ([(.b, ucpS { holder := some (.port .a) }),
      (.b, ucpS { holder := some .secure })] :
      List (Port × State)).all (fun (p, s) => decide (
    wr p Blk.ucp s = true ∧
    (s.ucp.holder = some (UcpUser.port p.other) ∨ s.ucp.holder = some UcpUser.secure))) = true := by
  decide +kernel

theorem witness_UtilityLockChangesHands_2 :
    ([(.b, 65536 + 7, ucpS { holder := some (.port .b), ticket := 7 })] :
      List (Port × Nat × State)).all (fun (p, v, s) => decide (
    wr p Blk.ucp s = true ∧
    s.ucp.holder = some (UcpUser.port p) ∧
    v % 2 ^ 16 = s.ucp.ticket ∧
    s.ucp.busy = false)) = true := by
  decide +kernel

theorem witness_UtilityLockChangesHands_3 :
    ([onTime 1000000 (ucpS { holder := some .secure, ticket := 7 })] :
      List (State)).all (fun s => decide (
    powered s = true ∧
    inFault s = false ∧
    s.ucp.holder.isSome = true ∧
    s.ucp.busy = false ∧
    s.now ≥ s.ucp.idleFrom + 1000 * s.ucp.idle)) = true := by
  decide +kernel

theorem witness_UtilityOperationsRun_1_1 :
    ([(.a, 1, uop 1 4096 4104, .kwWrap (.port .a)),
      (.a, 1, uop 1 16 24, .kwWrap (.port .a)),
      (.a, 2, uop 2 1 16, .kwpWrap (.port .a)),
      (.a, 3, uop 3 4104 4096, .kwpUnwrap (.port .a)),
      (.a, 4, uop 4 0 0, .cmacGen (.port .a)),
      (.a, 5, uop 5 0 0, .cmacVer (.port .a)),
      (.a, 6, uop 6 65536 65536, .gcmEnc (.port .a)),
      (.a, 7, uop 7 65536 65536, .gcmDec (.port .a)),
      (.a, 8, uop 8 5 0, .gcmVer (.port .a))] :
      List (Port × Nat × State × Instr)).all (fun (p, op, s, c) => decide (
    (c = Instr.kwWrap (UcpCmd.port p) ∧ op = 1 ∨
      c = Instr.kwpWrap (UcpCmd.port p) ∧ op = 2 ∨
        c = Instr.kwpUnwrap (UcpCmd.port p) ∧ op = 3 ∨
          c = Instr.cmacGen (UcpCmd.port p) ∧ op = 4 ∨
            c = Instr.cmacVer (UcpCmd.port p) ∧ op = 5 ∨
              c = Instr.gcmEnc (UcpCmd.port p) ∧ op = 6 ∨
                c = Instr.gcmDec (UcpCmd.port p) ∧ op = 7 ∨ c = Instr.gcmVer (UcpCmd.port p) ∧ op = 8) ∧
    wr p Blk.ucp s = true ∧
    s.ucp.holder = some (UcpUser.port p) ∧
    s.ucp.busy = false ∧
    s.ucp.op = op ∧
    ucpCheck s = 0)) = true := by
  decide +kernel

theorem witness_UtilityOperationsRun_1_2 :
    ([(.a, 1, uop 1 9 4104, .kwWrap (.port .a))] :
      List (Port × Nat × State × Instr)).all (fun (p, op, s, c) => decide (
    (c = Instr.kwWrap (UcpCmd.port p) ∧ op = 1 ∨
      c = Instr.kwpWrap (UcpCmd.port p) ∧ op = 2 ∨
        c = Instr.kwpUnwrap (UcpCmd.port p) ∧ op = 3 ∨
          c = Instr.cmacGen (UcpCmd.port p) ∧ op = 4 ∨
            c = Instr.cmacVer (UcpCmd.port p) ∧ op = 5 ∨
              c = Instr.gcmEnc (UcpCmd.port p) ∧ op = 6 ∨
                c = Instr.gcmDec (UcpCmd.port p) ∧ op = 7 ∨ c = Instr.gcmVer (UcpCmd.port p) ∧ op = 8) ∧
    wr p Blk.ucp s = true ∧
    s.ucp.holder = some (UcpUser.port p) ∧
    s.ucp.busy = false ∧
    s.ucp.op = op ∧
    ucpCheck s ≠ 0)) = true := by
  decide +kernel

theorem witness_UtilityOperationsRun_2 :
    ([([], zeros 16, urun 2),
      ([], zeros 16, urun 7),
      ([], zeros 16, { urun 2 with ucp := { (urun 2).ucp with holder := some .secure } })] :
      List (Bytes × Bytes × State)).all (fun (a, x, s) => decide (
    powered s = true ∧
    inFault s = false ∧
    s.ucp.busy = true ∧
    s.ucp.src = some x ∧
    s.ucp.aad = some a)) = true := by
  decide +kernel

theorem witness_UtilityOperationsRun_3 :
    ([(uarg 16 24, 1, ucpS { holder := some .secure }, .kwWrap (.secure (uarg 16 24))),
      (uarg 1 16, 2, ucpS { holder := some .secure }, .kwpWrap (.secure (uarg 1 16))),
      (uarg 24 16, 3, ucpS { holder := some .secure }, .kwpUnwrap (.secure (uarg 24 16))),
      (uarg 0 0, 4, ucpS { holder := some .secure }, .cmacGen (.secure (uarg 0 0))),
      (uarg 16 0, 5, ucpS { holder := some .secure }, .cmacVer (.secure (uarg 16 0))),
      (uarg 64 64, 6, ucpS { holder := some .secure }, .gcmEnc (.secure (uarg 64 64))),
      (uarg 64 64, 7, ucpS { holder := some .secure }, .gcmDec (.secure (uarg 64 64))),
      (uarg 5 0, 8, ucpS { holder := some .secure }, .gcmVer (.secure (uarg 5 0)))] :
      List (UcpArgs × Nat × State × Instr)).all (fun (a, op, s, c) => decide (
    (c = Instr.kwWrap (UcpCmd.secure a) ∧ op = 1 ∨
      c = Instr.kwpWrap (UcpCmd.secure a) ∧ op = 2 ∨
        c = Instr.kwpUnwrap (UcpCmd.secure a) ∧ op = 3 ∨
          c = Instr.cmacGen (UcpCmd.secure a) ∧ op = 4 ∨
            c = Instr.cmacVer (UcpCmd.secure a) ∧ op = 5 ∨
              c = Instr.gcmEnc (UcpCmd.secure a) ∧ op = 6 ∨
                c = Instr.gcmDec (UcpCmd.secure a) ∧ op = 7 ∨ c = Instr.gcmVer (UcpCmd.secure a) ∧ op = 8) ∧
    live s = true ∧
    s.wld.secure.state = WorldState.running ∧
    s.ucp.holder = some UcpUser.secure ∧
    s.ucp.busy = false ∧
    ucpCheck (ucpStage op a s) = 0)) = true := by
  decide +kernel

theorem witness_UtilityOperationsRun_4_2 :
    ([urunE] :
      List (State)).all (fun s => decide (
    (s.ucp.run.op = 3 ∨ s.ucp.run.op = 7) ∧
    (ucpResult s).fst ≠ stDone)) = true := by
  decide +kernel

theorem witness_UtilityOperationsRun_4_1 :
    ([urun 4] :
      List (State)).all (fun s => decide (
    s.ucp.run.op = 4 ∨ s.ucp.run.op = 5 ∨ s.ucp.run.op = 8)) = true := by
  decide +kernel

theorem witness_UtilityOperationsRun_4_3 :
    ([urun 1] :
      List (State)).all (fun s => decide (
    s.ucp.run.op ≠ 4 ∧
    s.ucp.run.op ≠ 6 ∧
    1 ≤ s.ucp.run.op ∧
    s.ucp.run.op ≤ 8)) = true := by
  decide +kernel

end Sys2Proof.Tests
end

