-- ==== Sys2Proof/Tests/WitnessC.lean ====
section
/-! SUPPORT. For each statement, and for each of its clauses, operands and states that meet all its hypotheses together: a
theorem of this file is named after its statement and the place of the clause in it. -/
namespace Sys2Proof.Tests
open Sys2Proof.Machine Sys2Proof.Safety
set_option linter.unusedVariables false
set_option Elab.async false

theorem witness_TrainCarriagesBegin_1 :
    ([(0, 0x01, .ingest 0, train 0x01 .admitted { key := .slot 3 1 }),
      (0, 0x02, .retrieve 0, train 0x02 .admitted { key := .slot 3 1 }),
      (0, 0x03, .audit 0, train 0x03 .admitted { key := .slot 3 1 }),
      (0, 0x04, .rekey 0, train 0x04 .admitted { key := .slot 3 1 }),
      (0, 0x04, .rekey 0, legRekey)] :
      List (Nat × Nat × Instr × State)).all (fun (t, op, c, s) => decide (
    (c = Instr.ingest t ∧ op = 1 ∨ c = Instr.retrieve t ∧ op = 2 ∨ c = Instr.audit t ∧ op = 3 ∨ c = Instr.rekey t ∧ op = 4) ∧
    tablesOk s = true ∧
    isAt s t op Stage.admitted = true)) = true := by
  decide +kernel

theorem witness_TrainCarriagesBegin_2 :
    ([(0, train 0x01 .admitted { key := .slot 3 1 })] :
      List (Nat × State)).all (fun (t, s) => decide (
    isAt s t 1 Stage.admitted = true)) = true := by
  decide +kernel

theorem witness_TrainCarriagesBegin_3 :
    ([(0, 0x02, .retrieve 0, train 0x02 .admitted { key := .slot 3 1 }),
      (0, 0x03, .audit 0, train 0x03 .admitted { key := .slot 3 1 }),
      (0, 0x04, .rekey 0, train 0x04 .admitted { key := .slot 3 1 })] :
      List (Nat × Nat × Instr × State)).all (fun (t, op, c, s) => decide (
    (c = Instr.retrieve t ∧ op = 2 ∨ c = Instr.audit t ∧ op = 3 ∨ c = Instr.rekey t ∧ op = 4) ∧
    isAt s t op Stage.admitted = true ∧
    isLegacy (carrOf s t).entry = false ∧
    (carrOf s t).trailer = TrailerState.none ∧
    (op = 4 → allDone (carrOf s t) = false))) = true := by
  decide +kernel

theorem witness_TrainCarriagesBegin_4 :
    ([(0, train 0x01 .running { key := .slot 3 1 })] :
      List (Nat × State)).all (fun (t, s) => decide (
    isAt s t 1 Stage.running = true)) = true := by
  decide +kernel

theorem witness_TrainCarriagesBegin_5 :
    ([(0, legRekey)] :
      List (Nat × State)).all (fun (t, s) => decide (
    isAt s t 4 Stage.admitted = true ∧
    isLegacy (carrOf s t).entry = true)) = true := by
  decide +kernel

theorem verd_tags (t : Bytes) : (carrOf (verd t) 0).tags.getD 0 [] = t := rfl

theorem verdO_tags (o l : Nat) (t : Bytes) : (carrOf (verdO o l t) 0).tags.getD 0 [] = t := rfl

theorem verd_tag (t : Bytes) : segTag (verd t) (carrOf (verd t) 0) false 0 (segOf (verd t) 0 0).data = rightTag := by
  unfold rightTag segTag
  rfl

theorem verdO_tag (o l : Nat) (t : Bytes) :
    segTag (verdO o l t) (carrOf (verdO o l t) 0) false 0 (segOf (verdO o l t) 0 0).data = tagO o l := by
  unfold tagO segTag
  rfl

theorem verd_wrong : segTag (verd []) (carrOf (verd []) 0) false 0 (segOf (verd []) 0 0).data ≠
    (carrOf (verd []) 0).tags.getD 0 [] := by
  rw [verd_tag, verd_tags]
  exact List.ne_nil_of_length_eq_add_one (show rightTag.length = 16 from gcmTag_length _ _ _ _)

theorem witness_VerdictsReleaseOrScrub_1_1 : ∃ (t : Nat) (p : Nat) (s : State), powered s = true ∧
    inFault s = false ∧
    (carrOf s t).stage = Stage.running ∧
    (segOf s t p).st = SegState.running ∧
    (segOf s t p).left = 0 ∧
    (segOf s t p).dst = false ∧
    eOp (carrOf s t).entry ≠ 1 ∧
    segTag s (carrOf s t) false p (segOf s t p).data = (carrOf s t).tags.getD p [] :=
  ⟨0, 0, verd rightTag, by decide, by decide, by decide, by decide, by decide, by decide, by decide, (verd_tag ..).trans (verd_tags ..).symm⟩

theorem witness_VerdictsReleaseOrScrub_1_2 : ∃ (t : Nat) (p : Nat) (s : State) (q : Nat), powered s = true ∧
    inFault s = false ∧
    (carrOf s t).stage = Stage.running ∧
    (segOf s t p).st = SegState.running ∧
    (segOf s t p).left = 0 ∧
    (segOf s t p).dst = false ∧
    eOp (carrOf s t).entry ≠ 1 ∧
    segTag s (carrOf s t) false p (segOf s t p).data = (carrOf s t).tags.getD p [] ∧
    tablesOk s = true ∧
    (eOp (carrOf s t).entry = 2 ∨ eOp (carrOf s t).entry = 3) ∧
    q < eSegs (carrOf s t).entry ∧
    q ≠ p ∧
    (segOf s t q).st ≠ SegState.done :=
  ⟨0, 0, verdO 0x02 16384 (tagO 0x02 16384), 1, by decide, by decide, by decide, by decide, by decide, by decide, by decide, (verdO_tag ..).trans (verdO_tags ..).symm, by decide +kernel, by decide, by decide, by decide, by decide⟩

theorem witness_VerdictsReleaseOrScrub_1_2_b : ∃ (t : Nat) (p : Nat) (s : State) (q : Nat), powered s = true ∧
    inFault s = false ∧
    (carrOf s t).stage = Stage.running ∧
    (segOf s t p).st = SegState.running ∧
    (segOf s t p).left = 0 ∧
    (segOf s t p).dst = false ∧
    eOp (carrOf s t).entry ≠ 1 ∧
    segTag s (carrOf s t) false p (segOf s t p).data = (carrOf s t).tags.getD p [] ∧
    tablesOk s = true ∧
    (eOp (carrOf s t).entry = 2 ∨ eOp (carrOf s t).entry = 3) ∧
    q < eSegs (carrOf s t).entry ∧
    q ≠ p ∧
    (segOf s t q).st ≠ SegState.done :=
  ⟨0, 0, verdO 0x03 16384 (tagO 0x03 16384), 1, by decide, by decide, by decide, by decide, by decide, by decide, by decide, (verdO_tag ..).trans (verdO_tags ..).symm, by decide +kernel, by decide, by decide, by decide, by decide⟩

theorem witness_VerdictsReleaseOrScrub_1_3 : ∃ (t : Nat) (p : Nat) (s : State), powered s = true ∧
    inFault s = false ∧
    (carrOf s t).stage = Stage.running ∧
    (segOf s t p).st = SegState.running ∧
    (segOf s t p).left = 0 ∧
    (segOf s t p).dst = false ∧
    eOp (carrOf s t).entry ≠ 1 ∧
    segTag s (carrOf s t) false p (segOf s t p).data = (carrOf s t).tags.getD p [] ∧
    tablesOk s = true ∧
    eOp (carrOf s t).entry = 4 :=
  ⟨0, 0, verdO 0x04 4096 (tagO 0x04 4096), by decide, by decide, by decide, by decide, by decide, by decide, by decide, (verdO_tag ..).trans (verdO_tags ..).symm, by decide +kernel, by decide⟩

theorem witness_VerdictsReleaseOrScrub_2_1 : ∃ (t : Nat) (p : Nat) (s : State), powered s = true ∧
    inFault s = false ∧
    (carrOf s t).stage = Stage.running ∧
    (segOf s t p).st = SegState.running ∧
    (segOf s t p).left = 0 ∧
    (segOf s t p).dst = false ∧
    eOp (carrOf s t).entry ≠ 1 ∧
    segTag s (carrOf s t) false p (segOf s t p).data ≠ (carrOf s t).tags.getD p [] :=
  ⟨0, 0, verd [], by decide, by decide, by decide, by decide, by decide, by decide, by decide, verd_wrong⟩

theorem witness_VerdictsReleaseOrScrub_2_2 : ∃ (t : Nat) (p : Nat) (s : State), powered s = true ∧
    inFault s = false ∧
    (carrOf s t).stage = Stage.running ∧
    (segOf s t p).st = SegState.running ∧
    (segOf s t p).left = 0 ∧
    (segOf s t p).dst = false ∧
    eOp (carrOf s t).entry ≠ 1 ∧
    segTag s (carrOf s t) false p (segOf s t p).data ≠ (carrOf s t).tags.getD p [] ∧
    tablesOk s = true ∧
    (carrOf s t).refused = false ∧
    (carrOf s t).stopped = false ∧
    waitsTurn s t = false :=
  ⟨0, 0, verd [], by decide, by decide, by decide, by decide, by decide, by decide, by decide, verd_wrong, by decide +kernel, by decide, by decide, by decide⟩

theorem witness_SegmentsRunOnCells_1 :
    ([(0, 0, 7, 3, segRdy)] :
      List (Nat × Nat × Nat × Nat × State)).all (fun (t, p, b, k, s) => decide (
    tablesOk s = true ∧
    live s = true ∧
    s.tmp.dataStop = false ∧
    eOp (carrOf s t).entry = 1 ∧
    startable (carrOf s t) p = true ∧
    isLegacy (carrOf s t).entry = false ∧
    mayStart (shareSync s) t p b k = true)) = true := by
  decide +kernel

theorem witness_SegmentsRunOnCells_2_2 :
    ([(0, 0, segRun)] :
      List (Nat × Nat × State)).all (fun (t, p, s) => decide (
    powered s = true ∧
    inFault s = false ∧
    (carrOf s t).stage = Stage.running ∧
    (segOf s t p).st = SegState.running ∧
    (segOf s t p).left = 0 ∧
    eOp (carrOf s t).entry = 1 ∧
    tablesOk s = true)) = true := by
  decide +kernel

theorem witness_SegmentsRunOnCells_3 :
    ([(3, 7, 0, 3, 1, 0, segQ)] :
      List (Nat × Nat × Nat × Nat × Nat × Nat × State)).all (fun (r, b, t, i, g, p, s) => decide (
    live s = true ∧
    (carrOf s t).stage = Stage.running ∧
    eOp (carrOf s t).entry = 1 ∧
    (carrOf s t).key = KeyBind.slot i g ∧
    keyGone s (KeyBind.slot i g) = false ∧
    r < 4 ∧
    (regionOf s r).state = RegionState.normal ∧
    toSend (carrOf s t) false = some p ∧
    passRegion (segOf s t p) = r ∧
    sentHere s r b (KeyId.slot i g) = true ∧
    behindOther s t r = false ∧
    holdsKey s r b (KeyId.slot i g) = false ∧
    (blockOf s r b).keys.length < 64)) = true := by
  decide +kernel

theorem witness_SegmentsRunOnCells_4 :
    ([share] :
      List (State)).all (fun s => decide (
    powered s = true ∧
    s.now / 1000 > s.cay.epoch)) = true := by
  decide +kernel

theorem witness_ArrayFaultsAreContained_1 :
    ([(3, up)] :
      List (Nat × State)).all (fun (r, s) => decide (
    tablesOk s = true ∧
    powered s = true ∧
    inFault s = false ∧
    r < 4)) = true := by
  decide +kernel

theorem witness_ArrayFaultsAreContained_2_2 :
    ([(3, 7, up)] :
      List (Nat × Nat × State)).all (fun (r, b, s) => decide (
    live s = true ∧
    r < 4 ∧
    b < 8 ∧
    (regionOf s r).state = RegionState.normal ∧
    (regionOf s r).blkRetired.getLsbD b = false ∧
    tablesOk s = true)) = true := by
  decide +kernel

theorem witness_ArrayFaultsAreContained_3_2 :
    ([(3, up)] :
      List (Nat × State)).all (fun (r, s) => decide (
    live s = true ∧
    r < 4 ∧
    (regionOf s r).state = RegionState.normal ∧
    tablesOk s = true)) = true := by
  decide +kernel

theorem witness_ArrayFaultsAreContained_4 :
    ([(3, degr)] :
      List (Nat × State)).all (fun (r, s) => decide (
    live s = true ∧
    r < 4 ∧
    (regionOf s r).state = RegionState.degraded)) = true := by
  decide +kernel

theorem witness_ArrayFaultsAreContained_5 :
    ([(3, 7, 3, onC 3 7 3),
      (0, 0, 0, onC 0 0 0)] :
      List (Nat × Nat × Nat × State)).all (fun (r, b, k, s) => decide (
    live s = true ∧
    r < 4 ∧
    b < 8 ∧
    k < 4 ∧
    (regionOf s r).state = RegionState.normal ∧
    (regionOf s r).blkRetired.getLsbD b = false ∧
    (regionOf s r).cellFenced.getLsbD (4 * b + k) = false ∧
    onCell s r b k = true)) = true := by
  decide +kernel

theorem witness_ArrayFaultsAreContained_6 :
    ([(0, spill)] :
      List (Nat × State)).all (fun (d, s) => decide (
    live s = true ∧
    (regionOf s (driveRegion d)).spillEn = true ∧
    straggles s d = true)) = true := by
  decide +kernel

theorem witness_LegacyPathRunsPieceByPiece_1_2_1 :
    ([(0, 0x08, .legacyRead 0, legTr 0x08, (reservePiece 0 0 (begin_ 0 (legTr 0x08))).getD up)] :
      List (Nat × Nat × Instr × State × State)).all (fun (t, op, c, s, a) => decide (
    (c = Instr.legacyRead t ∧ op = 8 ∨ c = Instr.legacyWrite t ∧ op = 9) ∧
    isAt s t op Stage.admitted = true ∧
    reservePiece t 0 (begin_ t s) = some a ∧
    op = 8)) = true := by
  decide +kernel

theorem witness_LegacyPathRunsPieceByPiece_1_2_2 :
    ([(0, 0x09, .legacyWrite 0, legTr 0x09, (reservePiece 0 0 (begin_ 0 (legTr 0x09))).getD up)] :
      List (Nat × Nat × Instr × State × State)).all (fun (t, op, c, s, a) => decide (
    (c = Instr.legacyRead t ∧ op = 8 ∨ c = Instr.legacyWrite t ∧ op = 9) ∧
    isAt s t op Stage.admitted = true ∧
    reservePiece t 0 (begin_ t s) = some a ∧
    op = 9)) = true := by
  decide +kernel

theorem witness_LegacyPathRunsPieceByPiece_1_1 :
    ([(0, 0x08, .legacyRead 0, noServer (legTr 0x08))] :
      List (Nat × Nat × Instr × State)).all (fun (t, op, c, s) => decide (
    (c = Instr.legacyRead t ∧ op = 8 ∨ c = Instr.legacyWrite t ∧ op = 9) ∧
    isAt s t op Stage.admitted = true ∧
    reservePiece t 0 (begin_ t s) = none)) = true := by
  decide +kernel

theorem witness_LegacyPathRunsPieceByPiece_2 :
    ([(0, legOn 0x08)] :
      List (Nat × State)).all (fun (t, s) => decide (
    isAt s t 8 Stage.running = true ∧
    (segOf s t 0).st = SegState.ready ∧
    legacyCell s = true ∧
    s.tmp.dataStop = false)) = true := by
  decide +kernel

theorem witness_LegacyPathRunsPieceByPiece_3 :
    ([(0, legOn 0x09)] :
      List (Nat × State)).all (fun (t, s) => decide (
    isAt s t 9 Stage.running = true ∧
    (segOf s t 0).st = SegState.ready ∧
    legacyCell s = true ∧
    s.tmp.dataStop = false)) = true := by
  decide +kernel

theorem witness_SidebandExchangesRun_1 :
    ([(.identify, 15, [], [], none, .identify 15 none, link 15 { queue := [(.identify, [])] }),
      (.readPresence, 15, [], [], none, .readPresence 15 none, link 15 { queue := [(.readPresence, [])] }),
      (.setPower, 15, [1], [], none, .setPower 15 none, link 15 { queue := [(.setPower, [1])] }),
      (.setPerst, 15, [1], [], none, .setPerst 15 none, link 15 { queue := [(.setPerst, [1])] }),
      (.readClkreq, 15, [], [], none, .readClkreq 15 none, link 15 { queue := [(.readClkreq, [])] }),
      (.readStatus, 15, [], [], none, .readStatus 15 none, link 15 { queue := [(.readStatus, [])] }),
      (.readEvents, 15, [], [], none, .readEvents 15 none, link 15 { queue := [(.readEvents, [])] }),
      (.setClkreq, 15, [1], [], none, .setClkreq 15 none, link 15 { queue := [(.setClkreq, [1])] })] :
      List (SbOp × Nat × Bytes × (List (SbOp × Bytes)) × (Option Bytes) × Instr × State)).all (fun (op, l, payload, rest, resp, c, s) => decide (
    (op, c) ∈
      [(SbOp.identify, Instr.identify l resp), (SbOp.readPresence, Instr.readPresence l resp),
        (SbOp.setPower, Instr.setPower l resp), (SbOp.setPerst, Instr.setPerst l resp),
        (SbOp.readClkreq, Instr.readClkreq l resp), (SbOp.readStatus, Instr.readStatus l resp),
        (SbOp.readEvents, Instr.readEvents l resp), (SbOp.setClkreq, Instr.setClkreq l resp)] ∧
    powered s = true ∧
    inFault s = false ∧
    l < 16 ∧
    (linkOf s l).queue = (op, payload) :: rest ∧
    (linkOf s l).down = false ∧
    (linkOf s l).failedAt = none)) = true := by
  decide +kernel

theorem witness_SidebandExchangesRun_1_2 :
    ([(.identify, 15, [], [], some (sbResp 0 (zeros 12)), .identify 15 (some (sbResp 0 (zeros 12))), onTime 7 (link 15 { queue := [(.identify, [])] }), zeros 12),
      (.readPresence, 15, [], [], some (sbResp 0 (zeros 4)), .readPresence 15 (some (sbResp 0 (zeros 4))), onTime 7 (link 15 { queue := [(.readPresence, [])] }), zeros 4),
      (.setPower, 15, [1], [], some (sbResp 0 ([])), .setPower 15 (some (sbResp 0 ([]))), onTime 7 (link 15 { queue := [(.setPower, [1])] }), []),
      (.setPerst, 15, [1], [], some (sbResp 0 ([])), .setPerst 15 (some (sbResp 0 ([]))), onTime 7 (link 15 { queue := [(.setPerst, [1])] }), []),
      (.readClkreq, 15, [], [], some (sbResp 0 (zeros 4)), .readClkreq 15 (some (sbResp 0 (zeros 4))), onTime 7 (link 15 { queue := [(.readClkreq, [])] }), zeros 4),
      (.readStatus, 15, [], [], some (sbResp 0 ([1, 0, 0, 0])), .readStatus 15 (some (sbResp 0 ([1, 0, 0, 0]))), onTime 7 (link 15 { queue := [(.readStatus, [])] }), [1, 0, 0, 0]),
      (.readEvents, 15, [], [], some (sbResp 0 (zeros 12)), .readEvents 15 (some (sbResp 0 (zeros 12))), onTime 7 (link 15 { queue := [(.readEvents, [])] }), zeros 12),
      (.setClkreq, 15, zeros 8, [], some (sbResp 0 ([])), .setClkreq 15 (some (sbResp 0 ([]))), onTime 7 (link 15 { queue := [(.setClkreq, zeros 8)] }), [])] :
      List (SbOp × Nat × Bytes × (List (SbOp × Bytes)) × (Option Bytes) × Instr × State × Bytes)).all (fun (op, l, payload, rest, resp, c, s, body) => decide (
    (op, c) ∈
      [(SbOp.identify, Instr.identify l resp), (SbOp.readPresence, Instr.readPresence l resp),
        (SbOp.setPower, Instr.setPower l resp), (SbOp.setPerst, Instr.setPerst l resp),
        (SbOp.readClkreq, Instr.readClkreq l resp), (SbOp.readStatus, Instr.readStatus l resp),
        (SbOp.readEvents, Instr.readEvents l resp), (SbOp.setClkreq, Instr.setClkreq l resp)] ∧
    powered s = true ∧
    inFault s = false ∧
    l < 16 ∧
    (linkOf s l).queue = (op, payload) :: rest ∧
    (linkOf s l).down = false ∧
    (linkOf s l).failedAt = none ∧
    sbParse (if (linkOf s l).tries = 0 then (linkOf s l).seq else (linkOf s l).cur) resp = some (0, body) ∧
    tablesOk s = true ∧
    (shelfOf s (l / 2)).state = ShelfState.awake ∧
    (shelfOf s (l / 2)).step = ShelfStep.idle ∧
    (op = SbOp.readStatus → fld body 0 4 = 1) ∧
    (op = SbOp.readEvents → fld body 0 4 = 0 ∧ fld body 4 4 = 0 ∧ fld body 8 4 = 0) ∧
    (op = SbOp.readPresence → ∀ (i : Nat), i < 32 → bit (fld body 0 4) i = (driveOf s (linkDrive l i)).present))) = true := by
  decide +kernel

theorem witness_SidebandExchangesRun_2_1 :
    ([(15, .readStatus, [], [], none, link 15 { queue := [(.readStatus, [])], tries := 2 })] :
      List (Nat × SbOp × Bytes × (List (SbOp × Bytes)) × (Option Bytes) × State)).all (fun (l, op, payload, rest, resp, s) => decide (
    (linkOf s l).queue = (op, payload) :: rest ∧
    sbParse (if (linkOf s l).tries = 0 then (linkOf s l).seq else (linkOf s l).cur) resp = none ∧
    (linkOf s l).tries < 3)) = true := by
  decide +kernel

theorem witness_SidebandExchangesRun_2_2 :
    ([(15, .readStatus, [], [], none, link 15 { queue := [(.readStatus, [])], tries := 3 })] :
      List (Nat × SbOp × Bytes × (List (SbOp × Bytes)) × (Option Bytes) × State)).all (fun (l, op, payload, rest, resp, s) => decide (
    (linkOf s l).queue = (op, payload) :: rest ∧
    sbParse (if (linkOf s l).tries = 0 then (linkOf s l).seq else (linkOf s l).cur) resp = none ∧
    3 ≤ (linkOf s l).tries)) = true := by
  decide +kernel

theorem witness_SidebandExchangesRun_2_3 :
    ([(15, .readStatus, [], [], some (sbResp 0 [1, 0, 0, 0]), link 15 { queue := [(.readStatus, [])] }, [1, 0, 0, 0])] :
      List (Nat × SbOp × Bytes × (List (SbOp × Bytes)) × (Option Bytes) × State × Bytes)).all (fun (l, op, payload, rest, resp, s, body) => decide (
    (linkOf s l).queue = (op, payload) :: rest ∧
    sbParse (if (linkOf s l).tries = 0 then (linkOf s l).seq else (linkOf s l).cur) resp = some (0, body))) = true := by
  decide +kernel

theorem witness_SidebandExchangesRun_3_2 :
    ([(15, 99900, .readStatus, [], [], none, link 15 { queue := [(.readStatus, [])], tries := 1, failedAt := some 99900 })] :
      List (Nat × Nat × SbOp × Bytes × (List (SbOp × Bytes)) × (Option Bytes) × State)).all (fun (l, at_, op, payload, rest, resp, s) => decide (
    powered s = true ∧
    inFault s = false ∧
    l < 16 ∧
    (linkOf s l).queue = (op, payload) :: rest ∧
    (linkOf s l).failedAt = some at_ ∧
    s.now ≥ at_ + 100 ∧
    sbParse (linkOf s l).cur resp = none ∧
    (linkOf s l).tries ≠ 0 ∧
    (linkOf s l).tries < 3)) = true := by
  decide +kernel

theorem witness_SidebandExchangesRun_4 :
    ([(15, link 15 { queue := [(.readStatus, [])] })] :
      List (Nat × State)).all (fun (l, s) => decide (
    powered s = true ∧
    inFault s = false ∧
    l < 16 ∧
    (linkOf s l).down = false ∧
    (linkOf s l).int = false ∧
    (linkOf s l).tries = 0)) = true := by
  decide +kernel

theorem witness_SidebandExchangesRun_5 :
    ([(15, link 15 {})] :
      List (Nat × State)).all (fun (l, s) => decide (
    powered s = true ∧
    inFault s = false ∧
    l < 16 ∧
    (linkOf s l).down = false ∧
    isPowered (shelfOf s (l / 2)) = true ∧
    s.now ≥ (linkOf s l).pollAt + 100000)) = true := by
  decide +kernel

theorem witness_ShelfWakesGoStepByStep_1_1 :
    ([(0, shelfC 0x20 7 .admitted [(7, { state := .awake })])] :
      List (Nat × State)).all (fun (t, s) => decide (
    isAt s t 32 Stage.admitted = true ∧
    worldServes s 32 = true ∧
    (shelfOf s (eShelf (carrOf s t).entry)).step = ShelfStep.idle ∧
    (shelfOf s (eShelf (carrOf s t).entry)).state = ShelfState.awake)) = true := by
  decide +kernel

theorem witness_ShelfWakesGoStepByStep_1_2 :
    ([(0, shelfC 0x20 7 .admitted [(1, { state := .awake })])] :
      List (Nat × State)).all (fun (t, s) => decide (
    isAt s t 32 Stage.admitted = true ∧
    worldServes s 32 = true ∧
    (shelfOf s (eShelf (carrOf s t).entry)).step = ShelfStep.idle ∧
    (shelfOf s (eShelf (carrOf s t).entry)).state = ShelfState.asleep ∧
    poweredShelves s < s.mdf.maxShelves)) = true := by
  decide +kernel

theorem witness_ShelfWakesGoStepByStep_1_3 :
    ([(0, shelfC 0x20 7 .admitted [(1, { state := .awake }), (2, { state := .awake })])] :
      List (Nat × State)).all (fun (t, s) => decide (
    isAt s t 32 Stage.admitted = true ∧
    worldServes s 32 = true ∧
    (shelfOf s (eShelf (carrOf s t).entry)).step = ShelfStep.idle ∧
    (shelfOf s (eShelf (carrOf s t).entry)).state = ShelfState.asleep ∧
    s.mdf.maxShelves ≤ poweredShelves s ∧
    s.mdf.shelfQueue.contains t = false)) = true := by
  decide +kernel

theorem witness_ShelfWakesGoStepByStep_2 :
    ([(7, 0, wakeQ)] :
      List (Nat × Nat × State)).all (fun (n, t, s) => decide (
    waitingWake s n = some t ∧
    isAt s t 32 Stage.admitted = true ∧
    worldServes s 32 = true ∧
    (shelfOf s n).step = ShelfStep.idle ∧
    (shelfOf s n).state = ShelfState.asleep ∧
    poweredShelves s < s.mdf.maxShelves)) = true := by
  decide +kernel

theorem witness_ShelfWakesGoStepByStep_3 :
    ([wakeQ] :
      List (State)).all (fun s => decide (
    tablesOk s = true ∧
    inFault s = false)) = true := by
  decide +kernel

theorem witness_ShelfWakesGoStepByStep_4 :
    ([(7, shelfAt { state := .waking, step := .powerGood, pollAt := 499000 })] :
      List (Nat × State)).all (fun (n, s) => decide (
    live s = true ∧
    worldServes s 32 = true ∧
    (shelfOf s n).step = ShelfStep.powerGood ∧
    s.now ≥ (shelfOf s n).pollAt + 1000)) = true := by
  decide +kernel

theorem witness_ShelfWakesGoStepByStep_5_2 :
    ([(7, shelfAt { state := .waking, step := .powerGood })] :
      List (Nat × State)).all (fun (n, s) => decide (
    powered s = true ∧
    inFault s = false ∧
    worldServes s 32 = true ∧
    (shelfOf s n).step = ShelfStep.powerGood ∧
    s.now ≥ (shelfOf s n).since + 500000 ∧
    tablesOk s = true)) = true := by
  decide +kernel

theorem witness_ShelfWakesGoStepByStep_6 :
    ([(7, shelfAt { state := .waking, step := .groups, goodAt := 400000 })] :
      List (Nat × State)).all (fun (n, s) => decide (
    live s = true ∧
    worldServes s 32 = true ∧
    (shelfOf s n).step = ShelfStep.groups ∧
    (shelfOf s n).released = 0 ∧
    s.now ≥ (shelfOf s n).goodAt + 100000 ∧
    (regionOf s 0).state ≠ RegionState.lost ∧
    l0Now s + (groupBays s n 0).length ≤ effBudget s ∧
    groupMask s n 0 ≠ 0)) = true := by
  decide +kernel

theorem witness_ShelfWakesGoStepByStep_7_2 :
    ([(7, 3, shelfAt { state := .awake }),
      (7, 5, shelfAt { state := .waking, step := .powerGood })] :
      List (Nat × Nat × State)).all (fun (n, cause, s) => decide (
    powered s = true ∧
    inFault s = false ∧
    n < 8 ∧
    (shelfOf s n).state ≠ ShelfState.asleep ∧
    (cause = 3 ∨ cause = 5) ∧
    tablesOk s = true)) = true := by
  decide +kernel

theorem witness_ShelfSleepsDrainFirst_1_1 :
    ([(0, shelfC 0x21 7 .admitted [])] :
      List (Nat × State)).all (fun (t, s) => decide (
    isAt s t 33 Stage.admitted = true ∧
    worldServes s 33 = true ∧
    (shelfOf s (eShelf (carrOf s t).entry)).step = ShelfStep.idle ∧
    (shelfOf s (eShelf (carrOf s t).entry)).state = ShelfState.asleep)) = true := by
  decide +kernel

theorem witness_ShelfSleepsDrainFirst_1_2 :
    ([(0, shelfC 0x21 7 .admitted [(7, { state := .awake })])] :
      List (Nat × State)).all (fun (t, s) => decide (
    isAt s t 33 Stage.admitted = true ∧
    worldServes s 33 = true ∧
    (shelfOf s (eShelf (carrOf s t).entry)).step = ShelfStep.idle ∧
    (shelfOf s (eShelf (carrOf s t).entry)).state = ShelfState.awake)) = true := by
  decide +kernel

theorem witness_ShelfSleepsDrainFirst_2 :
    ([(7, shelfAt { state := .sleeping, step := .sleepWait })] :
      List (Nat × State)).all (fun (n, s) => decide (
    live s = true ∧
    worldServes s 33 = true ∧
    (shelfOf s n).step = ShelfStep.sleepWait ∧
    sleepBusy s n = false)) = true := by
  decide +kernel

theorem witness_ShelfSleepsDrainFirst_3 :
    ([(112, 0, shut)] :
      List (Nat × Nat × State)).all (fun (d, at_, s) => decide (
    powered s = true ∧
    inFault s = false ∧
    d < 512 ∧
    (shelfOf s (driveShelf d)).step = ShelfStep.shutdown ∧
    (driveOf s d).shutAt = some at_ ∧
    (driveOf s d).shutDone = false)) = true := by
  decide +kernel

theorem witness_DrivesComeUpOrFail_1 :
    ([(511, 5, drv { state := .init, lane := .training, present := true, relAt := 29900001 })] :
      List (Nat × Nat × State)).all (fun (d, speed, s) => decide (
    live s = true ∧
    worldServes s 34 = true ∧
    d < 512 ∧
    (driveOf s d).state = DriveState.init ∧
    (driveOf s d).lane = LaneState.training ∧
    (driveOf s d).dlUpAt = none ∧
    (driveOf s d).linkDownAt = none ∧
    s.now < (driveOf s d).relAt + 100000 ∧
    speedOk speed = true)) = true := by
  decide +kernel

theorem witness_DrivesComeUpOrFail_2 :
    ([(511, drv { state := .init, lane := .training, present := true, relAt := 29900000 })] :
      List (Nat × State)).all (fun (d, s) => decide (
    powered s = true ∧
    inFault s = false ∧
    d < 512 ∧
    (driveOf s d).state = DriveState.init ∧
    (driveOf s d).lane = LaneState.training ∧
    (driveOf s d).dlUpAt = none ∧
    (driveOf s d).linkDownAt = none ∧
    worldServes s 34 = true ∧
    s.now ≥ (driveOf s d).relAt + 100000)) = true := by
  decide +kernel

theorem witness_DrivesComeUpOrFail_3 :
    ([(511, drv { state := .init, lane := .l0, present := true, dlUpAt := some 1, capTo := 60 })] :
      List (Nat × State)).all (fun (d, s) => decide (
    powered s = true ∧
    inFault s = false ∧
    d < 512 ∧
    (driveOf s d).state = DriveState.init ∧
    (driveOf s d).dlUpAt.isSome = true ∧
    (driveOf s d).disabling = false ∧
    worldServes s 34 = true ∧
    s.now ≥ (driveOf s d).enableAt + readyLimit s d)) = true := by
  decide +kernel

theorem witness_DrivesComeUpOrFail_4_3 :
    ([(511, { nsze := 100 }, drv { state := .init, lane := .l0, present := true, dlUpAt := some 1, capTo := 60, enableAt := 1 })] :
      List (Nat × InitReport × State)).all (fun (d, r, s) => decide (
    live s = true ∧
    worldServes s 34 = true ∧
    d < 512 ∧
    (driveOf s d).state = DriveState.init ∧
    (driveOf s d).dlUpAt.isSome = true ∧
    linkUp (driveOf s d) = true ∧
    (driveOf s d).resetting = false ∧
    s.now < (driveOf s d).enableAt + readyLimit s d ∧
    r.ok = true ∧
    nsOk r = true ∧
    (driveOf s d).topoBad = false ∧
    r.topoOk = true ∧
    (driveOf s d).waitCmds = [])) = true := by
  decide +kernel

theorem witness_DrivesComeUpOrFail_4_1 :
    ([(511, drv { state := .init, lane := .l0, present := true, dlUpAt := some 1, capTo := 60, enableAt := 1 })] :
      List (Nat × State)).all (fun (d, s) => decide (
    live s = true ∧
    worldServes s 34 = true ∧
    d < 512 ∧
    (driveOf s d).state = DriveState.init ∧
    (driveOf s d).dlUpAt.isSome = true ∧
    linkUp (driveOf s d) = true ∧
    (driveOf s d).resetting = false ∧
    s.now < (driveOf s d).enableAt + readyLimit s d)) = true := by
  decide +kernel

theorem witness_DrivesComeUpOrFail_4_2 :
    ([(511, { nsze := 100, dataBytes := 512 }, drv { state := .init, lane := .l0, present := true, dlUpAt := some 1, capTo := 60, enableAt := 1 })] :
      List (Nat × InitReport × State)).all (fun (d, r, s) => decide (
    live s = true ∧
    worldServes s 34 = true ∧
    d < 512 ∧
    (driveOf s d).state = DriveState.init ∧
    (driveOf s d).dlUpAt.isSome = true ∧
    linkUp (driveOf s d) = true ∧
    (driveOf s d).resetting = false ∧
    s.now < (driveOf s d).enableAt + readyLimit s d ∧
    r.ok = true ∧
    r.nsPresent = true ∧
    r.dataBytes ≠ 4096 ∧
    (driveOf s d).topoBad = false ∧
    r.topoOk = true ∧
    (driveOf s d).waitCmds = [])) = true := by
  decide +kernel

theorem witness_DrivesComeUpOrFail_5_1 :
    ([(511, bayF { present := true, state := .failed })] :
      List (Nat × State)).all (fun (d, s) => decide (
    powered s = true ∧
    inFault s = false ∧
    d < 512 ∧
    (shelfOf s (driveShelf d)).state = ShelfState.awake ∧
    (shelfOf s (driveShelf d)).step ≠ ShelfStep.identify ∧
    (shelfOf s (driveShelf d)).step ≠ ShelfStep.presence ∧
    (linkOf s (driveLink d)).down = false ∧
    (driveOf s d).present = true ∧
    (driveOf s d).state = DriveState.failed)) = true := by
  decide +kernel

theorem witness_DrivesComeUpOrFail_5_2 :
    ([(511, bay true)] :
      List (Nat × State)).all (fun (d, s) => decide (
    powered s = true ∧
    inFault s = false ∧
    d < 512 ∧
    (shelfOf s (driveShelf d)).state = ShelfState.awake ∧
    (shelfOf s (driveShelf d)).step ≠ ShelfStep.identify ∧
    (shelfOf s (driveShelf d)).step ≠ ShelfStep.presence ∧
    (linkOf s (driveLink d)).down = false ∧
    (driveOf s d).present = true ∧
    (driveOf s d).state ≠ DriveState.failed)) = true := by
  decide +kernel

theorem witness_DrivesComeUpOrFail_5_3 :
    ([(511, bay false)] :
      List (Nat × State)).all (fun (d, s) => decide (
    powered s = true ∧
    inFault s = false ∧
    d < 512 ∧
    (shelfOf s (driveShelf d)).state = ShelfState.awake ∧
    (shelfOf s (driveShelf d)).step ≠ ShelfStep.identify ∧
    (shelfOf s (driveShelf d)).step ≠ ShelfStep.presence ∧
    (linkOf s (driveLink d)).down = false ∧
    (driveOf s d).present = false)) = true := by
  decide +kernel

theorem witness_DrivesComeUpOrFail_6 :
    ([(511, bayF { present := true, state := .ready, lane := .l0 })] :
      List (Nat × State)).all (fun (d, s) => decide (
    live s = true ∧
    d < 512 ∧
    linkUp (driveOf s d) = true ∧
    (driveOf s d).state = DriveState.ready)) = true := by
  decide +kernel

theorem witness_DrivesComeUpOrFail_7_2 :
    ([(511, drv { state := .init, lane := .l0, present := true, resetting := true, enableAt := 1, capTo := 60 })] :
      List (Nat × State)).all (fun (d, s) => decide (
    live s = true ∧
    worldServes s 34 = true ∧
    d < 512 ∧
    linkUp (driveOf s d) = true ∧
    (driveOf s d).state = DriveState.init ∧
    (driveOf s d).resetting = true ∧
    (driveOf s d).disabling = false ∧
    s.now < (driveOf s d).enableAt + readyLimit s d)) = true := by
  decide +kernel

theorem witness_DrivesComeUpOrFail_7_1 :
    ([(511, drv { state := .init, lane := .l0, present := true, resetting := true, disabling := true })] :
      List (Nat × State)).all (fun (d, s) => decide (
    live s = true ∧
    worldServes s 34 = true ∧
    d < 512 ∧
    linkUp (driveOf s d) = true ∧
    (driveOf s d).state = DriveState.init ∧
    (driveOf s d).resetting = true ∧
    (driveOf s d).disabling = true)) = true := by
  decide +kernel

theorem witness_LanesParkWakeAndRetrain_1 :
    ([(511, drv { state := .ready, lane := .l0, clkreq := true, idleAt := 29999000 })] :
      List (Nat × State)).all (fun (d, s) => decide (
    live s = true ∧
    d < 512 ∧
    parkable s d = true ∧
    s.now ≥ (driveOf s d).idleAt + s.mdf.idlePark)) = true := by
  decide +kernel

theorem witness_LanesParkWakeAndRetrain_2_1 :
    ([(511, hotD)] :
      List (Nat × State)).all (fun (d, s) => decide (
    tablesOk s = true ∧
    live s = true ∧
    d < 512 ∧
    (driveOf s d).lane = LaneState.l12 ∧
    (driveOf s d).linkDownAt = none ∧
    l0Now s < effBudget s ∧
    (wantsPlace s d = true ∨ (driveOf s d).clkreq = true ∨ heldHot s d = true))) = true := by
  decide +kernel

theorem witness_LanesParkWakeAndRetrain_2_2 :
    ([(511, drv { state := .ready, lane := .l12 })] :
      List (Nat × State)).all (fun (d, s) => decide (
    tablesOk s = true ∧
    live s = true ∧
    d < 512 ∧
    (driveOf s d).lane = LaneState.l12 ∧
    (driveOf s d).linkDownAt = none ∧
    l0Now s < effBudget s)) = true := by
  decide +kernel

theorem witness_LanesParkWakeAndRetrain_3 :
    ([(511, drv { state := .ready, lane := .training, rootClk := true })] :
      List (Nat × State)).all (fun (d, s) => decide (
    live s = true ∧
    d < 512 ∧
    isExiting (driveOf s d) = true ∧
    (driveOf s d).rootClk = true)) = true := by
  decide +kernel

theorem witness_LanesParkWakeAndRetrain_4 :
    ([(511, drv { state := .ready, lane := .l0 }),
      (511, drv { state := .ready, lane := .l12 })] :
      List (Nat × State)).all (fun (d, s) => decide (
    powered s = true ∧
    inFault s = false ∧
    d < 512 ∧
    (driveOf s d).linkDownAt = none ∧
    ((driveOf s d).lane = LaneState.l0 ∨ (driveOf s d).lane = LaneState.l12))) = true := by
  decide +kernel

theorem witness_LanesParkWakeAndRetrain_5_1 :
    ([(511, 29900001, 5, drv { state := .ready, lane := .training, linkDownAt := some 29900001 }),
      (511, 29900001, 3, drv { state := .ready, lane := .down, linkDownAt := some 29900001 })] :
      List (Nat × Nat × Nat × State)).all (fun (d, at_, speed, s) => decide (
    powered s = true ∧
    inFault s = false ∧
    d < 512 ∧
    (driveOf s d).linkDownAt = some at_ ∧
    s.now < at_ + 100000 ∧
    speedOk speed = true ∧
    ((driveOf s d).lane = LaneState.training ∨ l0Now s < effBudget s))) = true := by
  decide +kernel

theorem witness_LanesParkWakeAndRetrain_5_2 :
    ([(511, 29900000, drv { state := .ready, lane := .training, linkDownAt := some 29900000 })] :
      List (Nat × Nat × State)).all (fun (d, at_, s) => decide (
    powered s = true ∧
    inFault s = false ∧
    d < 512 ∧
    (driveOf s d).linkDownAt = some at_ ∧
    s.now ≥ at_ + 100000)) = true := by
  decide +kernel

theorem witness_NvmeCommandsEnd_1_1 :
    ([(511, 65535, cmdS { used := true, kind := .trailerRead, tag := some 0 })] :
      List (Nat × Nat × State)).all (fun (d, cid, s) => decide (
    powered s = true ∧
    inFault s = false ∧
    d < 512 ∧
    (tget { } (driveOf s d).cmds cid).used = true ∧
    (tget { } (driveOf s d).cmds cid).timedOut = false ∧
    (tget { } (driveOf s d).cmds cid).kind ≠ CmdKind.asyncEvent ∧
    (driveOf s d).linkDownAt = none ∧
    (driveOf s d).resetting = false ∧
    isLate s (tget { } (driveOf s d).cmds cid) = true)) = true := by
  decide +kernel

theorem witness_NvmeCommandsEnd_1_2_1 :
    ([(511, 65535, cmdS { used := true, kind := .trailerRead, tag := some 0, issuedAt := 29999999 })] :
      List (Nat × Nat × State)).all (fun (d, cid, s) => decide (
    powered s = true ∧
    inFault s = false ∧
    d < 512 ∧
    (tget { } (driveOf s d).cmds cid).used = true ∧
    (tget { } (driveOf s d).cmds cid).timedOut = false ∧
    (tget { } (driveOf s d).cmds cid).kind ≠ CmdKind.asyncEvent ∧
    (driveOf s d).linkDownAt = none ∧
    (driveOf s d).resetting = false ∧
    isLate s (tget { } (driveOf s d).cmds cid) = false)) = true := by
  decide +kernel

theorem witness_NvmeCommandsEnd_1_2_2 :
    ([(511, 65535, cmdR { used := true, kind := .segRead 0 0, tag := some 0, issuedAt := 29999999 }, 0, 0, 0)] :
      List (Nat × Nat × State × Nat × Nat × Nat)).all (fun (d, cid, s, t, p, off) => decide (
    powered s = true ∧
    inFault s = false ∧
    d < 512 ∧
    (tget { } (driveOf s d).cmds cid).used = true ∧
    (tget { } (driveOf s d).cmds cid).timedOut = false ∧
    (tget { } (driveOf s d).cmds cid).kind ≠ CmdKind.asyncEvent ∧
    (driveOf s d).linkDownAt = none ∧
    (driveOf s d).resetting = false ∧
    isLate s (tget { } (driveOf s d).cmds cid) = false ∧
    tablesOk s = true ∧
    (tget { } (driveOf s d).cmds cid).kind = CmdKind.segRead p off ∧
    (tget { } (driveOf s d).cmds cid).tag = some t)) = true := by
  decide +kernel

theorem witness_NvmeCommandsEnd_2_2 :
    ([(511, 65535, 65535, cmdS { used := true, kind := .trailerRead, tag := some 0, issuedAt := 29999999 })] :
      List (Nat × Nat × Nat × State)).all (fun (d, cid, st, s) => decide (
    powered s = true ∧
    inFault s = false ∧
    d < 512 ∧
    (tget { } (driveOf s d).cmds cid).used = true ∧
    (tget { } (driveOf s d).cmds cid).timedOut = false ∧
    (tget { } (driveOf s d).cmds cid).kind = CmdKind.trailerRead ∧
    st < 2 ^ 16 ∧
    (driveOf s d).linkDownAt = none ∧
    (driveOf s d).resetting = false ∧
    s.now < (tget { } (driveOf s d).cmds cid).issuedAt + 1000 * s.mdf.cmdTimeout ∧
    st ≠ 0)) = true := by
  decide +kernel

theorem witness_NvmeCommandsEnd_2_3 :
    ([(511, 65535, 1, cmdS { used := true, kind := .trailerRead, tag := some 0, issuedAt := 29999999 }, 0)] :
      List (Nat × Nat × Nat × State × Nat)).all (fun (d, cid, st, s, t) => decide (
    powered s = true ∧
    inFault s = false ∧
    d < 512 ∧
    (tget { } (driveOf s d).cmds cid).used = true ∧
    (tget { } (driveOf s d).cmds cid).timedOut = false ∧
    (tget { } (driveOf s d).cmds cid).kind = CmdKind.trailerRead ∧
    st < 2 ^ 16 ∧
    (driveOf s d).linkDownAt = none ∧
    (driveOf s d).resetting = false ∧
    s.now < (tget { } (driveOf s d).cmds cid).issuedAt + 1000 * s.mdf.cmdTimeout ∧
    tablesOk s = true ∧
    st ≠ 0 ∧
    (tget { } (driveOf s d).cmds cid).tag = some t ∧
    inFlight (carrOf s t) = true ∧
    waitsTurn s t = false)) = true := by
  decide +kernel

theorem witness_NvmeCommandsEnd_2_1 :
    ([(511, 65535, 0, cmdS { used := true, kind := .trailerRead, tag := some 0, issuedAt := 29999999 })] :
      List (Nat × Nat × Nat × State)).all (fun (d, cid, st, s) => decide (
    powered s = true ∧
    inFault s = false ∧
    d < 512 ∧
    (tget { } (driveOf s d).cmds cid).used = true ∧
    (tget { } (driveOf s d).cmds cid).timedOut = false ∧
    (tget { } (driveOf s d).cmds cid).kind = CmdKind.trailerRead ∧
    st < 2 ^ 16 ∧
    (driveOf s d).linkDownAt = none ∧
    (driveOf s d).resetting = false ∧
    s.now < (tget { } (driveOf s d).cmds cid).issuedAt + 1000 * s.mdf.cmdTimeout)) = true := by
  decide +kernel

theorem witness_NvmeCommandsEnd_3_2 :
    ([(511, 65535, cmdS { used := true, kind := .trailerRead, tag := some 0, issuedAt := 22000000 }, 0)] :
      List (Nat × Nat × State × Nat)).all (fun (d, cid, s, t) => decide (
    powered s = true ∧
    inFault s = false ∧
    d < 512 ∧
    (tget { } (driveOf s d).cmds cid).used = true ∧
    (tget { } (driveOf s d).cmds cid).timedOut = false ∧
    (tget { } (driveOf s d).cmds cid).kind = CmdKind.trailerRead ∧
    (driveOf s d).resetting = false ∧
    s.now ≥ (tget { } (driveOf s d).cmds cid).issuedAt + 1000 * s.mdf.cmdTimeout ∧
    tablesOk s = true ∧
    (tget { } (driveOf s d).cmds cid).tag = some t ∧
    inFlight (carrOf s t) = true ∧
    waitsTurn s t = false)) = true := by
  decide +kernel

theorem witness_NvmeCommandsEnd_4_2 :
    ([(511, 65535, 3, awake7 (cmdS { used := true, kind := .abort 3, issuedAt := 29000000 }))] :
      List (Nat × Nat × Nat × State)).all (fun (d, cid, k, s) => decide (
    powered s = true ∧
    inFault s = false ∧
    d < 512 ∧
    (tget { } (driveOf s d).cmds cid).used = true ∧
    (tget { } (driveOf s d).cmds cid).kind = CmdKind.abort k ∧
    (driveOf s d).resetting = false ∧
    s.now ≥ (tget { } (driveOf s d).cmds cid).issuedAt + 1000000 ∧
    tablesOk s = true ∧
    (shelfOf s (driveShelf d)).step = ShelfStep.idle)) = true := by
  decide +kernel

theorem witness_NvmeCommandsEnd_5 :
    ([(511, bayF { present := true, state := .ready, lane := .l0 })] :
      List (Nat × State)).all (fun (d, s) => decide (
    tablesOk s = true ∧
    powered s = true ∧
    inFault s = false ∧
    d < 512 ∧
    linkUp (driveOf s d) = true)) = true := by
  decide +kernel

theorem witness_NvmeCommandsEnd_6 :
    ([(511, 65535, cmdS { used := true, kind := .asyncEvent })] :
      List (Nat × Nat × State)).all (fun (d, cid, s) => decide (
    powered s = true ∧
    inFault s = false ∧
    d < 512 ∧
    Option.map (fun x => x.fst)
        (List.find? (fun c => c.snd.used && c.snd.kind == CmdKind.asyncEvent) (driveOf s d).cmds) =
      some cid ∧
    linkUp (driveOf s d) = true ∧
    (driveOf s d).resetting = false)) = true := by
  decide +kernel

theorem witness_NvmeCommandsEnd_7_2 :
    ([(0, dadm .admitted {})] :
      List (Nat × State)).all (fun (t, s) => decide (
    isAt s t 34 Stage.admitted = true ∧
    worldServes s 34 = true ∧
    tablesOk s = true)) = true := by
  decide +kernel

theorem witness_NvmeCommandsEnd_7_3 :
    ([(0, dadm .admitted {}, 3, [(3, 0)])] :
      List (Nat × State × Nat × (List (Nat × Nat)))).all (fun (t, s, x, l) => decide (
    isAt s t 34 Stage.admitted = true ∧
    worldServes s 34 = true ∧
    adminSends (carrOf s t).entry = true ∧
    (carrOf s t).record = none ∧
    (segOf s t 0).st = SegState.idle ∧
    granules
        (updMdf
          (fun m =>
            { laneBudget := m.laneBudget, l0Hwm := m.l0Hwm, idlePark := m.idlePark, hot := m.hot,
              maxShelves := m.maxShelves, stagger := m.stagger, readyMax := m.readyMax, cmdTimeout := m.cmdTimeout,
              qpairs := m.qpairs, depth := m.depth, maxXfer := m.maxXfer, links := m.links, shelves := m.shelves,
              drives := m.drives, diag := m.diag, shelfQueue := m.shelfQueue, adminWait := m.adminWait ++ [t] })
          (updCarr t
            (fun c =>
              { stage := Stage.running, sq := c.sq, pos := c.pos, entry := c.entry, order := c.order,
                sidingCredit := c.sidingCredit, admCsn := c.admCsn, admAt := c.admAt, frags := c.frags, asked := c.asked,
                chain := c.chain, nextTable := c.nextTable, nextCount := c.nextCount, chainOk := c.chainOk,
                chainDone := c.chainDone, dmaFail := c.dmaFail, ticket := c.ticket, record := c.record, key := c.key,
                dstKey := c.dstKey, reserved := c.reserved, firstIndex := c.firstIndex, segs := c.segs,
                trailer := c.trailer, trailerHold := c.trailerHold, trailerAt := c.trailerAt, tags := c.tags,
                scrubbed := c.scrubbed, replayed := c.replayed, degraded := c.degraded, started := c.started,
                held := c.held, rnd := c.rnd, rngWait := c.rngWait, aux := c.aux, sigs := c.sigs, fin := c.fin,
                refused := c.refused, stopped := c.stopped })
            s))
        (srcDrive (carrOf s t)) (ceilDiv (eLength (carrOf s t).entry) 4096) false =
      some (x, l))) = true := by
  decide +kernel

theorem witness_NvmeCommandsEnd_8_2 :
    ([(0, dadm2)] :
      List (Nat × State)).all (fun (t, s) => decide (
    adminMay s t = true ∧
    tablesOk s = true)) = true := by
  decide +kernel

theorem witness_NvmeCommandsEnd_9 :
    ([(3, 0, onTime 1000 { up with cay := { regions := [(3, { state := .degraded, d2dDown := some 0 })] } })] :
      List (Nat × Nat × State)).all (fun (r, at_, s) => decide (
    live s = true ∧
    r < 4 ∧
    (regionOf s r).state ≠ RegionState.lost ∧
    (regionOf s r).d2dDown = some at_ ∧
    s.now ≥ at_ + 1000)) = true := by
  decide +kernel

theorem witness_SliceCommandsAct_1_1 :
    ([(.a, 8191, slcS sl9 {})] :
      List (Port × Nat × State)).all (fun (p, n, s) => decide (
    tablesOk s = true ∧
    wr p Blk.slc s = true ∧
    holds p 1 s = true ∧
    n < 8192 ∧
    (s.win.get p).slc.busyUntil ≤ s.now)) = true := by
  decide +kernel

theorem witness_SliceCommandsAct_1_2 :
    ([(.a, 8191, slcS sl9 { data := ent9 })] :
      List (Port × Nat × State)).all (fun (p, n, s) => decide (
    tablesOk s = true ∧
    wr p Blk.slc s = true ∧
    holds p 1 s = true ∧
    n < 8192 ∧
    (s.win.get p).slc.busyUntil ≤ s.now ∧
    (sliceOf s n).state = SliceState.frozen ∧
    stagedOk (staged p s) = true ∧
    overlaps s n (staged p s) = false ∧
    moves (sliceOf s n) (staged p s) = false)) = true := by
  decide +kernel

theorem witness_SliceCommandsAct_1_3 :
    ([(.a, 0, slcS sl9 { data := ent0 })] :
      List (Port × Nat × State)).all (fun (p, n, s) => decide (
    tablesOk s = true ∧
    wr p Blk.slc s = true ∧
    holds p 1 s = true ∧
    n < 8192 ∧
    (s.win.get p).slc.busyUntil ≤ s.now ∧
    (sliceOf s n).state = SliceState.empty ∧
    s.chp.mode = Mode.running ∧
    stagedOk (staged p s) = true ∧
    overlaps s n (staged p s) = false)) = true := by
  decide +kernel

theorem witness_SliceCommandsAct_1_4 :
    ([(.a, 8191, slcS sl9 {})] :
      List (Port × Nat × State)).all (fun (p, n, s) => decide (
    tablesOk s = true ∧
    wr p Blk.slc s = true ∧
    holds p 1 s = true ∧
    n < 8192 ∧
    (s.win.get p).slc.busyUntil ≤ s.now ∧
    (sliceOf s n).state = SliceState.frozen ∧
    sliceSqs s n = [])) = true := by
  decide +kernel

theorem witness_SliceCommandsAct_1_5 :
    ([(.a, 8191, bound9)] :
      List (Port × Nat × State)).all (fun (p, n, s) => decide (
    tablesOk s = true ∧
    wr p Blk.slc s = true ∧
    holds p 1 s = true ∧
    n < 8192 ∧
    (s.win.get p).slc.busyUntil ≤ s.now ∧
    (sliceOf s n).state = SliceState.frozen ∧
    sliceRings s n = [] ∧
    (tkeys s.kst.slots fun x x_1 => x_1.state != SlotState.free && x_1.scope == n) = [])) = true := by
  decide +kernel

theorem witness_SliceCommandsAct_2 :
    ([(.b, slcS sl9 {})] :
      List (Port × State)).all (fun (p, s) => decide (
    wr p Blk.slc s = true ∧
    holds p 1 s = false)) = true := by
  decide +kernel

theorem witness_BindingsAndMailboxesFollowCommands_1 :
    ([(.a, 8191, slcS sl9 { bindOwner := 9 }),
      (.a, 8191, slcS { sl9 with state := .active } { bindOwner := 9 })] :
      List (Port × Nat × State)).all (fun (p, n, s) => decide (
    tablesOk s = true ∧
    wr p Blk.slc s = true ∧
    holds p 1 s = true ∧
    (bindOf s (s.win.get p).slc.bindOwner).bound = false ∧
    (ownerOf s (s.win.get p).slc.bindOwner).state = OwnerState.active ∧
    ((sliceOf s n).state = SliceState.active ∨ (sliceOf s n).state = SliceState.frozen) ∧
    bindCount s n < 65536)) = true := by
  decide +kernel

theorem witness_BindingsAndMailboxesFollowCommands_2 :
    ([(.a, 8191, bound9)] :
      List (Port × Nat × State)).all (fun (p, n, s) => decide (
    tablesOk s = true ∧
    wr p Blk.slc s = true ∧
    holds p 1 s = true ∧
    (bindOf s (s.win.get p).slc.bindOwner).bound = true ∧
    (bindOf s (s.win.get p).slc.bindOwner).slice = n)) = true := by
  decide +kernel

theorem witness_BindingsAndMailboxesFollowCommands_3 :
    ([(.a, bound9),
      (.b, bound9)] :
      List (Port × State)).all (fun (p, s) => decide (
    wr p Blk.slc s = true)) = true := by
  decide +kernel

theorem witness_BindingsAndMailboxesFollowCommands_4 :
    ([(.b, 8191, 256, bound9),
      (.b, 8191, 1, bound9)] :
      List (Port × Nat × Nat × State)).all (fun (p, n, len, s) => decide (
    wr p Blk.page s = true ∧
    n < 8192 ∧
    (sliceOf s n).state ≠ SliceState.empty ∧
    (sliceOf s n).inFull = false ∧
    1 ≤ len ∧
    len ≤ 256)) = true := by
  decide +kernel

theorem witness_BindingsAndMailboxesFollowCommands_5 :
    ([(.a, slcS { sl9 with inFull := true, inLen := 9 } { mbxSel := 8191 })] :
      List (Port × State)).all (fun (p, s) => decide (
    wr p Blk.slc s = true ∧
    (sliceOf s (s.win.get p).slc.mbxSel).state ≠ SliceState.empty)) = true := by
  decide +kernel

theorem witness_BindingsAndMailboxesFollowCommands_6 :
    ([(.a, 256, slcS sl9 { mbxSel := 8191 }),
      (.a, 1, slcS sl9 { mbxSel := 8191 })] :
      List (Port × Nat × State)).all (fun (p, len, s) => decide (
    wr p Blk.slc s = true ∧
    (sliceOf s (s.win.get p).slc.mbxSel).state ≠ SliceState.empty ∧
    (sliceOf s (s.win.get p).slc.mbxSel).outFull = false ∧
    1 ≤ len ∧
    len ≤ 256)) = true := by
  decide +kernel

theorem witness_BindingsAndMailboxesFollowCommands_7 :
    ([(.a, 8191, slcS { sl9 with outFull := true, outLen := 9 } {})] :
      List (Port × Nat × State)).all (fun (p, n, s) => decide (
    wr p Blk.page s = true ∧
    n < 8192 ∧
    (sliceOf s n).state ≠ SliceState.empty)) = true := by
  decide +kernel

theorem witness_SlicesFreezeSaveAndRestore_1 :
    ([(0, frz 0x50 .admitted sl9 {})] :
      List (Nat × State)).all (fun (t, s) => decide (
    isAt s t 80 Stage.admitted = true)) = true := by
  decide +kernel

theorem witness_SlicesFreezeSaveAndRestore_2 :
    ([(8191, frz 0x50 .finished { sl9 with state := .freezing } {})] :
      List (Nat × State)).all (fun (n, s) => decide (
    live s = true ∧
    (sliceOf s n).state = SliceState.freezing ∧
    ((sliceSqs s n).all fun g => (ringOf s g).outstanding == 0) = true ∧
    s.vlt.mode ≠ VaultMode.closed ∧
    sessions s n = [] ∧
    (sliceOf s n).freezers = [])) = true := by
  decide +kernel

theorem witness_SlicesFreezeSaveAndRestore_3 :
    ([(8191, frz 0x50 .running { sl9 with state := .freezing, freezers := [0] } {}),
      (8191, drain1)] :
      List (Nat × State)).all (fun (n, s) => decide (
    live s = true ∧
    (sliceOf s n).state = SliceState.freezing ∧
    ((sliceSqs s n).all fun g => (ringOf s g).outstanding == 0) = true ∧
    s.vlt.mode ≠ VaultMode.closed ∧
    (freezeSeals n (sessions s n) s).fst = true)) = true := by
  decide +kernel

theorem witness_SlicesFreezeSaveAndRestore_4 : ∃ (t : Nat) (k : Bytes) (s : State), worldServes s 81 = true ∧
    isAt s t 81 Stage.running = true ∧
    (sliceOf s (fld (carrOf s t).entry 48 2)).state = SliceState.frozen ∧
    custodyKey s (fld (carrOf s t).entry 50 2) = some k ∧
    List.length (sliceImage (seqd s) (fld (carrOf s t).entry 48 2) (fld (carrOf s t).entry 50 2) k) ≤
      eLength (carrOf s t).entry :=
  ⟨0, zeros 32, frz 0x51 .running sl9 {}, by decide, by decide, by decide, by decide, by
    refine Nat.le_trans (sliceImage_length_le _ _ _ _ (by decide) (by decide) (by decide) (by decide)) (by decide)⟩

theorem witness_SlicesFreezeSaveAndRestore_5_1 :
    ([(0, zeros 9, zeros 32, frz 0x52 .running sl9 { record := some (zeros 9) })] :
      List (Nat × Bytes × Bytes × State)).all (fun (t, img, k, s) => decide (
    worldServes s 82 = true ∧
    isAt s t 82 Stage.running = true ∧
    (carrOf s t).record = some img ∧
    custodyKey s (fld (carrOf s t).entry 50 2) = some k ∧
    openImage k img = none)) = true := by
  decide +kernel

/-- The image of `img9` opens: its tag is the one over its header and ciphertext. -/
theorem img9_opens : openImage (zeros 32) img9 = some body9 := by
  have hl : tag9.length = 16 := by decide +kernel
  have hh : hdr9.length = 128 := by decide +kernel
  have hz : (zeros 64).length = 64 := by decide +kernel
  have ht : img9.take 128 = hdr9 := by simp [img9, hh]
  have hd : img9.drop 192 = tag9 := by simp [img9, List.drop_append, hh, hz]
  have hs : sub img9 128 64 = zeros 64 := by simp [sub, img9, hh, hz]
  have hn : img9.length = 208 := by simp [img9, hl, hh, hz]
  have h0 : imageLen (fld hdr9 52 4) (fld hdr9 50 2) (fld hdr9 56 4) (fld hdr9 60 4) = 192 := by decide
  have h1 : fld hdr9 0 4 = 0x31434C53 := by decide
  have h2 : fld hdr9 4 2 = 1 := by decide
  simp [openImage, ht, hd, hs, hn, h0, h1, h2, body9, tag9]

/-- A field of two bytes. -/
theorem fld2_le (b : Bytes) (o : Nat) : fld b o 2 ≤ 65535 := by
  unfold fld sub
  match (b.drop o).take 2, List.length_take_le 2 (b.drop o) with
  | [], _ => simp [leNat]
  | [x], _ => simp [leNat]; omega
  | [x, y], _ => simp [leNat]; omega

theorem witness_SlicesFreezeSaveAndRestore_5_2 : ∃ (t : Nat) (img k : Bytes) (s : State) (m : ImageBody), worldServes s 82 = true ∧
    isAt s t 82 Stage.running = true ∧
    (carrOf s t).record = some img ∧
    custodyKey s (fld (carrOf s t).entry 50 2) = some k ∧
    openImage k img = some m ∧
    targetReady s (fld (carrOf s t).entry 48 2) m = true :=
  ⟨0, img9, zeros 32, frz 0x52 .running room9 { record := some img9 }, body9, by decide, by decide, rfl, by decide, img9_opens, by
    have h : body9.vecCnt ≤ 65535 := fld2_le _ _
    have hv : (sliceOf (frz 0x52 .running room9 { record := some img9 })
        (fld (carrOf (frz 0x52 .running room9 { record := some img9 }) 0).entry 48 2)).vecCnt = 65535 := by decide
    simp only [targetReady, hv, h, decide_true, Bool.and_true]
    decide +kernel⟩

theorem witness_SlicesFreezeSaveAndRestore_5_3 : ∃ (t : Nat) (img k : Bytes) (s : State) (m : ImageBody), worldServes s 82 = true ∧
    isAt s t 82 Stage.running = true ∧
    (carrOf s t).record = some img ∧
    custodyKey s (fld (carrOf s t).entry 50 2) = some k ∧
    openImage k img = some m ∧
    targetReady s (fld (carrOf s t).entry 48 2) m = false :=
  ⟨0, img9, zeros 32, frz 0x52 .running { sl9 with state := .active } { record := some img9 }, body9,
    by decide, by decide, rfl, by decide, img9_opens, by decide +kernel⟩

end Sys2Proof.Tests
end

