-- ==== Sys2Proof/Tests/WitnessD.lean ====
section
/-! SUPPORT. For each statement, and for each of its clauses, operands and states that meet all its hypotheses together: a
theorem of this file is named after its statement and the place of the clause in it. -/
namespace Sys2Proof.Tests
open Sys2Proof.Machine Sys2Proof.Safety
set_option linter.unusedVariables false
set_option Elab.async false

theorem witness_QuorumJudgesProposals_1_1 :
    ([(0, qrm 0x30 .admitted {})] :
      List (Nat × State)).all (fun (t, s) => decide (
    worldServes s 48 = true ∧
    s.fwu.activating = false ∧
    s.vlt.nextId < s.vlt.img.idCeiling ∧
    waitsTurn s t = false ∧
    isAt s t 48 Stage.admitted = true)) = true := by
  decide +kernel

theorem pkgRec_length : pkgRec.length = 13590 := by
  have h : (poke 8 (natLe 4 13526) (recOf 0x19 7)).length = 64 := by decide +kernel
  rw [pkgRec, List.length_append, h, zeros, List.length_replicate]
theorem pkgBody_length : (rBody pkgRec).length = 13526 := by
  rw [rBody, List.length_drop, pkgRec_length]
theorem pkgRec_form : recordForm (eKeyref (carrOf (qrm 0x30 .running { record := some pkgRec, aux := 300 }) 0).entry) pkgRec = true := by
  have h : fld pkgRec 8 4 = 13526 := by decide +kernel
  have g : rOp pkgRec = 0x19 := by decide +kernel
  simp only [recordForm, pkgRec_length, h, g, bodyForm, pkgBody_length, pkgLen]
  decide +kernel
theorem pkgRec_wanted : wantsPackage (qrm 0x30 .running { record := some pkgRec, aux := 300 }) 0 pkgRec = true := by
  simp only [wantsPackage, propForm, pkgRec_form]
  decide +kernel

theorem witness_QuorumJudgesProposals_1_2_1 : ∃ (t : Nat) (s : State) (r : Bytes), worldServes s 48 = true ∧
    s.fwu.activating = false ∧
    s.vlt.nextId < s.vlt.img.idCeiling ∧
    waitsTurn s t = false ∧
    isAt s t 48 Stage.running = true ∧
    (carrOf s t).record = some r ∧
    vaultLive s = true ∧
    wantsPackage s t r = true ∧
    (carrOf s t).sigs = none :=
  ⟨0, qrm 0x30 .running { record := some pkgRec, aux := 300 }, pkgRec,
    by decide +kernel, by decide +kernel, by decide +kernel, by decide +kernel, by decide +kernel, rfl, by decide +kernel, pkgRec_wanted, by decide +kernel⟩

theorem witness_QuorumJudgesProposals_1_2_2_1 :
    ([(0, qrm 0x30 .running { record := some (recOf 0x1B 8), aux := 300 }, recOf 0x1B 8)] :
      List (Nat × State × Bytes)).all (fun (t, s, r) => decide (
    worldServes s 48 = true ∧
    s.fwu.activating = false ∧
    s.vlt.nextId < s.vlt.img.idCeiling ∧
    waitsTurn s t = false ∧
    isAt s t 48 Stage.running = true ∧
    (carrOf s t).record = some r ∧
    vaultLive s = true ∧
    ((carrOf s t).sigs = some 0 ∨ (carrOf s t).sigs = none ∧ wantsPackage s t r = false) ∧
    propPasses s t r = false)) = true := by
  decide +kernel

theorem witness_QuorumJudgesProposals_1_2_2_2 :
    ([(0, qrm 0x30 .running { record := some (recOf 0x1B 7), aux := 300 }, recOf 0x1B 7)] :
      List (Nat × State × Bytes)).all (fun (t, s, r) => decide (
    worldServes s 48 = true ∧
    s.fwu.activating = false ∧
    s.vlt.nextId < s.vlt.img.idCeiling ∧
    waitsTurn s t = false ∧
    isAt s t 48 Stage.running = true ∧
    (carrOf s t).record = some r ∧
    vaultLive s = true ∧
    ((carrOf s t).sigs = some 0 ∨ (carrOf s t).sigs = none ∧ wantsPackage s t r = false) ∧
    propPasses s t r = true ∧
    propDraw r = 0 ∧
    importedKey s r = some [])) = true := by
  decide +kernel

theorem witness_QuorumJudgesProposals_1_2_2_3 :
    ([(0, qrm 0x30 .running { record := some (recOf 0x1B 7), aux := 300 }, recOf 0x1B 7, [])] :
      List (Nat × State × Bytes × Bytes)).all (fun (t, s, r, key) => decide (
    worldServes s 48 = true ∧
    s.fwu.activating = false ∧
    s.vlt.nextId < s.vlt.img.idCeiling ∧
    waitsTurn s t = false ∧
    isAt s t 48 Stage.running = true ∧
    (carrOf s t).record = some r ∧
    vaultLive s = true ∧
    ((carrOf s t).sigs = some 0 ∨ (carrOf s t).sigs = none ∧ wantsPackage s t r = false) ∧
    propPasses s t r = true ∧
    propDraw r = 0 ∧
    importedKey s r = some key)) = true := by
  decide +kernel

theorem witness_QuorumJudgesProposals_1_2_2_4_2 :
    ([(0, qrm 0x30 .running { record := some (recOf 0x01 4194303), aux := 300, rnd := zeros 40 }, recOf 0x01 4194303)] :
      List (Nat × State × Bytes)).all (fun (t, s, r) => decide (
    worldServes s 48 = true ∧
    s.fwu.activating = false ∧
    s.vlt.nextId < s.vlt.img.idCeiling ∧
    waitsTurn s t = false ∧
    isAt s t 48 Stage.running = true ∧
    (carrOf s t).record = some r ∧
    vaultLive s = true ∧
    ((carrOf s t).sigs = some 0 ∨ (carrOf s t).sigs = none ∧ wantsPackage s t r = false) ∧
    propPasses s t r = true ∧
    propDraw r ≠ 0 ∧
    propDraw r ≤ List.length (carrOf s t).rnd ∧
    tablesOk s = true)) = true := by
  decide +kernel

theorem witness_QuorumJudgesProposals_1_2_2_5 :
    ([(0, qrm 0x30 .running { record := some (recOf 0x01 4194303), aux := 300 }, recOf 0x01 4194303)] :
      List (Nat × State × Bytes)).all (fun (t, s, r) => decide (
    worldServes s 48 = true ∧
    s.fwu.activating = false ∧
    s.vlt.nextId < s.vlt.img.idCeiling ∧
    waitsTurn s t = false ∧
    isAt s t 48 Stage.running = true ∧
    (carrOf s t).record = some r ∧
    vaultLive s = true ∧
    ((carrOf s t).sigs = some 0 ∨ (carrOf s t).sigs = none ∧ wantsPackage s t r = false) ∧
    propPasses s t r = true ∧
    propDraw r ≠ 0 ∧
    List.length (carrOf s t).rnd < propDraw r)) = true := by
  decide +kernel

theorem witness_QuorumJudgesProposals_2 :
    ([qrm 0x30 .running { rnd := zeros 80 },
      { qrm 0x30 .running { rnd := zeros 80 } with rng := { state := .failed } }] :
      List (State)).all (fun s => decide (
    s.rng.waiters = [])) = true := by
  decide +kernel

theorem witness_QuorumJudgesProposals_4_1 :
    ([(0, len0 (qrm 0x31 .admitted {}))] :
      List (Nat × State)).all (fun (t, s) => decide (
    worldServes s 49 = true ∧
    isAt s t 49 Stage.admitted = true ∧
    eLength (carrOf s t).entry = 0)) = true := by
  decide +kernel

theorem witness_QuorumJudgesProposals_4_2 :
    ([(0, qrm 0x31 .admitted {})] :
      List (Nat × State)).all (fun (t, s) => decide (
    worldServes s 49 = true ∧
    isAt s t 49 Stage.admitted = true ∧
    eLength (carrOf s t).entry ≠ 0)) = true := by
  decide +kernel

theorem witness_QuorumJudgesProposals_4_3 :
    ([(0, qapp 0x31 .running { record := some goodSig } (prop9 [] .open_))] :
      List (Nat × State)).all (fun (t, s) => decide (
    worldServes s 49 = true ∧
    isAt s t 49 Stage.running = true ∧
    (carrOf s t).record.isSome = true ∧
    (carrOf s t).sigs = none ∧
    sigAlg s t ≠ 0)) = true := by
  decide +kernel

theorem witness_QuorumJudgesProposals_5_1 :
    ([(0, 9, 1, zeros 96, qapp 0x31 .running { record := some (zeros 96), sigs := some 0 } (prop9 [0] .open_))] :
      List (Nat × Nat × Nat × Bytes × State)).all (fun (t, id, o, b, s) => decide (
    tablesOk s = true ∧
    worldServes s 49 = true ∧
    isAt s t 49 Stage.running = true ∧
    (carrOf s t).record = some b ∧
    (carrOf s t).sigs = some 0 ∧
    fld (carrOf s t).entry 48 4 = id ∧
    fld (carrOf s t).entry 52 1 = o ∧
    approvesBefore s id (carrOf s t).admCsn = false ∧
    (propOf s id).used = true ∧
    (propOf s id).state = PropState.open_ ∧
    (propOf s id).committing = false ∧
    (carrOf s t).admAt < (propOf s id).end_ ∧
    (propOf s id).officers.contains o = true ∧
    (tget { } (officersFor s t (propOf s id)) o).state = OfficerState.active ∧
    (propOf s id).approvals.contains o = false ∧
    eLength (carrOf s t).entry = sgnLen (tget { } (officersFor s t (propOf s id)) o).alg ∧
    signedBy (tget { } (officersFor s t (propOf s id)) o).alg (tget { } (officersFor s t (propOf s id)) o).key
        (propOf s id).digest b =
      false)) = true := by
  decide +kernel

theorem witness_QuorumJudgesProposals_5_2_1 :
    ([(0, 9, 1, goodSig, qapp 0x31 .running { record := some goodSig, sigs := some 0 } (prop9 [] .open_))] :
      List (Nat × Nat × Nat × Bytes × State)).all (fun (t, id, o, b, s) => decide (
    tablesOk s = true ∧
    worldServes s 49 = true ∧
    isAt s t 49 Stage.running = true ∧
    (carrOf s t).record = some b ∧
    (carrOf s t).sigs = some 0 ∧
    fld (carrOf s t).entry 48 4 = id ∧
    fld (carrOf s t).entry 52 1 = o ∧
    approvesBefore s id (carrOf s t).admCsn = false ∧
    (propOf s id).used = true ∧
    (propOf s id).state = PropState.open_ ∧
    (propOf s id).committing = false ∧
    (carrOf s t).admAt < (propOf s id).end_ ∧
    (propOf s id).officers.contains o = true ∧
    (tget { } (officersFor s t (propOf s id)) o).state = OfficerState.active ∧
    (propOf s id).approvals.contains o = false ∧
    eLength (carrOf s t).entry = sgnLen (tget { } (officersFor s t (propOf s id)) o).alg ∧
    signedBy (tget { } (officersFor s t (propOf s id)) o).alg (tget { } (officersFor s t (propOf s id)) o).key
        (propOf s id).digest b =
      true ∧
    (propOf s id).approvals.length + 1 < (propOf s id).m)) = true := by
  decide +kernel

theorem witness_QuorumJudgesProposals_5_2_2 :
    ([(0, 9, 1, goodSig, qapp 0x31 .running { record := some goodSig, sigs := some 0 } (prop9 [0] .open_))] :
      List (Nat × Nat × Nat × Bytes × State)).all (fun (t, id, o, b, s) => decide (
    tablesOk s = true ∧
    worldServes s 49 = true ∧
    isAt s t 49 Stage.running = true ∧
    (carrOf s t).record = some b ∧
    (carrOf s t).sigs = some 0 ∧
    fld (carrOf s t).entry 48 4 = id ∧
    fld (carrOf s t).entry 52 1 = o ∧
    approvesBefore s id (carrOf s t).admCsn = false ∧
    (propOf s id).used = true ∧
    (propOf s id).state = PropState.open_ ∧
    (propOf s id).committing = false ∧
    (carrOf s t).admAt < (propOf s id).end_ ∧
    (propOf s id).officers.contains o = true ∧
    (tget { } (officersFor s t (propOf s id)) o).state = OfficerState.active ∧
    (propOf s id).approvals.contains o = false ∧
    eLength (carrOf s t).entry = sgnLen (tget { } (officersFor s t (propOf s id)) o).alg ∧
    signedBy (tget { } (officersFor s t (propOf s id)) o).alg (tget { } (officersFor s t (propOf s id)) o).key
        (propOf s id).digest b =
      true ∧
    (propOf s id).m ≤ (propOf s id).approvals.length + 1)) = true := by
  decide +kernel

theorem witness_QuorumJudgesProposals_6_1 :
    ([(0, qapp 0x32 .admitted {} (prop9 [0, 1] .committed))] :
      List (Nat × State)).all (fun (t, s) => decide (
    isAt s t 50 Stage.admitted = true ∧
    worldServes s 50 = true ∧
    (propOf s (fld (carrOf s t).entry 48 4)).used = true ∧
    (propOf s (fld (carrOf s t).entry 48 4)).state = PropState.committed)) = true := by
  decide +kernel

theorem witness_QuorumJudgesProposals_6_2 :
    ([(0, qapp 0x32 .admitted { admAt := 99 } (prop9 [0] .open_))] :
      List (Nat × State)).all (fun (t, s) => decide (
    isAt s t 50 Stage.admitted = true ∧
    worldServes s 50 = true ∧
    (propOf s (fld (carrOf s t).entry 48 4)).used = true ∧
    (propOf s (fld (carrOf s t).entry 48 4)).state = PropState.open_ ∧
    (carrOf s t).admAt < (propOf s (fld (carrOf s t).entry 48 4)).end_)) = true := by
  decide +kernel

theorem witness_QuorumJudgesProposals_6_4 :
    ([(0, qapp 0x32 .admitted {} (prop9 [0] .closed))] :
      List (Nat × State)).all (fun (t, s) => decide (
    isAt s t 50 Stage.admitted = true ∧
    worldServes s 50 = true ∧
    (propOf s (fld (carrOf s t).entry 48 4)).used = true ∧
    (propOf s (fld (carrOf s t).entry 48 4)).state = PropState.closed)) = true := by
  decide +kernel

theorem witness_QuorumJudgesProposals_6_3 :
    ([(0, qryWait)] :
      List (Nat × State)).all (fun (t, s) => decide (
    isAt s t 50 Stage.admitted = true ∧
    worldServes s 50 = true ∧
    (propOf s (fld (carrOf s t).entry 48 4)).used = true ∧
    (propOf s (fld (carrOf s t).entry 48 4)).state = PropState.open_ ∧
    (propOf s (fld (carrOf s t).entry 48 4)).end_ ≤ (carrOf s t).admAt ∧
    (propOf s (fld (carrOf s t).entry 48 4)).committing = false ∧
    approvesBefore s (fld (carrOf s t).entry 48 4) (carrOf s t).admCsn = true)) = true := by
  decide +kernel

theorem witness_QuorumJudgesProposals_7 :
    ([(9, onTime 100 (qapp 0x31 .free {} (prop9 [0] .open_)))] :
      List (Nat × State)).all (fun (id, s) => decide (
    tablesOk s = true ∧
    live s = true ∧
    (propOf s id).used = true ∧
    (propOf s id).state = PropState.open_ ∧
    (propOf s id).committing = false ∧
    (propOf s id).by_ = none ∧
    (propOf s id).outs = [] ∧
    (propOf s id).end_ ≤ s.now ∧
    (tany s.car.cars fun x c =>
        (c.stage == Stage.admitted || c.stage == Stage.running) && eOp c.entry == 49 && fld c.entry 48 4 == id &&
          decide (c.admAt < (propOf s id).end_)) =
      false)) = true := by
  decide +kernel

theorem witness_VaultCommitsOpensAndIsKept_1 :
    ([(9, comm 0x01 4194303 none),
      (9, comm 0x10 255 (some 0))] :
      List (Nat × State)).all (fun (id, s) => decide (
    tablesOk s = true ∧
    commitDue id s = true ∧
    rOp (propOf s id).record ≠ 4)) = true := by
  decide +kernel

theorem witness_VaultCommitsOpensAndIsKept_2_1_1 : ∃ (id : Nat) (s : State) (y : Bytes) (a : ProgResult) (b : ProgResult), live s = true ∧
    (propOf s id).used = true ∧
    (propOf s id).state = PropState.open_ ∧
    (propOf s id).begun = true ∧
    (propOf s id).outs = [] ∧
    commitDue id s = false ∧
    alarmA s = false ∧
    jrecBytes (vaultMacKey s) (commitRec id s) = y ∧
    progOk a = true ∧
    progOk b = true ∧
    tablesOk s = true ∧
    (propOf s id).by_ = none ∧
    rOp (propOf s id).record ∈ [1, 5, 6, 16, 17, 18, 24, 25, 27] :=
  ⟨9, begun (comm 0x10 255 none), jrecBytes (vaultMacKey (begun (comm 0x10 255 none))) (commitRec 9 (begun (comm 0x10 255 none))), .written 0, .written 0,
    by decide +kernel, by decide +kernel, by decide +kernel, by decide +kernel, by decide +kernel, by decide +kernel, by decide +kernel, rfl, by decide +kernel, by decide +kernel, by decide +kernel, by decide +kernel, by decide +kernel⟩

theorem witness_VaultCommitsOpensAndIsKept_2_1_1_b : ∃ (id : Nat) (s : State) (y : Bytes) (a : ProgResult) (b : ProgResult), live s = true ∧
    (propOf s id).used = true ∧
    (propOf s id).state = PropState.open_ ∧
    (propOf s id).begun = true ∧
    (propOf s id).outs = [] ∧
    commitDue id s = false ∧
    alarmA s = false ∧
    jrecBytes (vaultMacKey s) (commitRec id s) = y ∧
    progOk a = true ∧
    progOk b = true ∧
    tablesOk s = true ∧
    (propOf s id).by_ = none ∧
    rOp (propOf s id).record ∈ [1, 5, 6, 16, 17, 18, 24, 25, 27] :=
  ⟨9, begun (comm 0x01 4194303 none), jrecBytes (vaultMacKey (begun (comm 0x01 4194303 none))) (commitRec 9 (begun (comm 0x01 4194303 none))), .written 2, .written 0,
    by decide +kernel, by decide +kernel, by decide +kernel, by decide +kernel, by decide +kernel, by decide +kernel, by decide +kernel, rfl, by decide +kernel, by decide +kernel, by decide +kernel, by decide +kernel, by decide +kernel⟩

theorem witness_VaultCommitsOpensAndIsKept_2_1_1_c : ∃ (id : Nat) (s : State) (y : Bytes) (a : ProgResult) (b : ProgResult), live s = true ∧
    (propOf s id).used = true ∧
    (propOf s id).state = PropState.open_ ∧
    (propOf s id).begun = true ∧
    (propOf s id).outs = [] ∧
    commitDue id s = false ∧
    alarmA s = false ∧
    jrecBytes (vaultMacKey s) (commitRec id s) = y ∧
    progOk a = true ∧
    progOk b = true ∧
    tablesOk s = true ∧
    (propOf s id).by_ = none ∧
    rOp (propOf s id).record ∈ [1, 5, 6, 16, 17, 18, 24, 25, 27] :=
  ⟨9, begun (comm 0x1B 7 none), jrecBytes (vaultMacKey (begun (comm 0x1B 7 none))) (commitRec 9 (begun (comm 0x1B 7 none))), .written 0, .written 0,
    by decide +kernel, by decide +kernel, by decide +kernel, by decide +kernel, by decide +kernel, by decide +kernel, by decide +kernel, rfl, by decide +kernel, by decide +kernel, by decide +kernel, by decide +kernel, by decide +kernel⟩

theorem witness_VaultCommitsOpensAndIsKept_2_1_2 : ∃ (id : Nat) (s : State) (y : Bytes) (a : ProgResult) (b : ProgResult), live s = true ∧
    (propOf s id).used = true ∧
    (propOf s id).state = PropState.open_ ∧
    (propOf s id).begun = true ∧
    (propOf s id).outs = [] ∧
    commitDue id s = false ∧
    alarmA s = false ∧
    jrecBytes (vaultMacKey s) (commitRec id s) = y ∧
    progOk a = true ∧
    progOk b = true ∧
    rOp (propOf s id).record ≠ 48 ∧
    (rOp (propOf s id).record = 4 → (s.hpt.get (propOf s id).port).up = true) :=
  ⟨9, begun (comm 0x04 9 none), jrecBytes (vaultMacKey (begun (comm 0x04 9 none))) (commitRec 9 (begun (comm 0x04 9 none))), .written 0, .written 0,
    by decide +kernel, by decide +kernel, by decide +kernel, by decide +kernel, by decide +kernel, by decide +kernel, by decide +kernel, rfl, by decide +kernel, by decide +kernel, by decide +kernel, by decide +kernel⟩

theorem witness_VaultCommitsOpensAndIsKept_2_1_3 : ∃ (id : Nat) (s : State) (y : Bytes) (a : ProgResult) (b : ProgResult), live s = true ∧
    (propOf s id).used = true ∧
    (propOf s id).state = PropState.open_ ∧
    (propOf s id).begun = true ∧
    (propOf s id).outs = [] ∧
    commitDue id s = false ∧
    alarmA s = false ∧
    jrecBytes (vaultMacKey s) (commitRec id s) = y ∧
    progOk a = true ∧
    progOk b = true ∧
    rOp (propOf s id).record = 48 :=
  ⟨9, begun initV, jrecBytes (vaultMacKey (begun initV)) (commitRec 9 (begun initV)), .written 0, .written 0,
    by decide +kernel, by decide +kernel, by decide +kernel, by decide +kernel, by decide +kernel, by decide +kernel, by decide +kernel, rfl, by decide +kernel, by decide +kernel, by decide +kernel⟩

theorem witness_VaultCommitsOpensAndIsKept_2_2 : ∃ (id : Nat) (s : State) (y : Bytes) (a : ProgResult) (b : ProgResult), live s = true ∧
    (propOf s id).used = true ∧
    (propOf s id).state = PropState.open_ ∧
    (propOf s id).begun = true ∧
    (propOf s id).outs = [] ∧
    commitDue id s = false ∧
    alarmA s = false ∧
    jrecBytes (vaultMacKey s) (commitRec id s) = y ∧
    (progOk a = false ∨ progOk b = false) ∧
    rOp (propOf s id).record = 48 :=
  ⟨9, begun initV, jrecBytes (vaultMacKey (begun initV)) (commitRec 9 (begun initV)), .written 0, .failed,
    by decide +kernel, by decide +kernel, by decide +kernel, by decide +kernel, by decide +kernel, by decide +kernel, by decide +kernel, rfl, by decide +kernel, by decide +kernel⟩

theorem witness_VaultCommitsOpensAndIsKept_2_3 : ∃ (id : Nat) (s : State) (y : Bytes), live s = true ∧
    (propOf s id).used = true ∧
    (propOf s id).state = PropState.open_ ∧
    (propOf s id).begun = true ∧
    (propOf s id).outs = [] ∧
    commitDue id s = false ∧
    alarmA s = false ∧
    jrecBytes (vaultMacKey s) (commitRec id s) = y ∧
    rOp (propOf s id).record = 4 ∧
    (s.hpt.get (propOf s id).port).up = false :=
  ⟨9, begun { comm 0x04 9 none with hpt := ⟨{}, {}⟩ }, jrecBytes (vaultMacKey (begun { comm 0x04 9 none with hpt := ⟨{}, {}⟩ })) (commitRec 9 (begun { comm 0x04 9 none with hpt := ⟨{}, {}⟩ })),
    by decide +kernel, by decide +kernel, by decide +kernel, by decide +kernel, by decide +kernel, by decide +kernel, by decide +kernel, rfl, by decide +kernel, by decide +kernel⟩

theorem witness_VaultCommitsOpensAndIsKept_2_4_1 : ∃ (id : Nat) (s : State) (y : Bytes) (a : ProgResult), live s = true ∧
    (propOf s id).used = true ∧
    (propOf s id).state = PropState.open_ ∧
    (propOf s id).begun = true ∧
    (propOf s id).outs = [] ∧
    commitDue id s = false ∧
    alarmA s = false ∧
    jrecBytes (vaultMacKey s) (commitRec id s) = y ∧
    tablesOk s = true ∧
    rOp (propOf s id).record = 16 ∧
    (propOf s id).by_ = none ∧
    s.vlt.mode = VaultMode.normal ∧
    (tkeys s.vlt.props fun i p => i != id && p.used && p.state == PropState.open_) = [] ∧
    progOk a = false :=
  ⟨9, begun (comm 0x10 255 none), jrecBytes (vaultMacKey (begun (comm 0x10 255 none))) (commitRec 9 (begun (comm 0x10 255 none))), .failed,
    by decide +kernel, by decide +kernel, by decide +kernel, by decide +kernel, by decide +kernel, by decide +kernel, by decide +kernel, rfl, by decide +kernel, by decide +kernel, by decide +kernel, by decide +kernel, by decide +kernel, by decide +kernel⟩

theorem witness_VaultCommitsOpensAndIsKept_2_4_2 : ∃ (id : Nat) (s : State) (y : Bytes) (a : ProgResult) (b : ProgResult) (v : ProgResult), live s = true ∧
    (propOf s id).used = true ∧
    (propOf s id).state = PropState.open_ ∧
    (propOf s id).begun = true ∧
    (propOf s id).outs = [] ∧
    commitDue id s = false ∧
    alarmA s = false ∧
    jrecBytes (vaultMacKey s) (commitRec id s) = y ∧
    tablesOk s = true ∧
    rOp (propOf s id).record = 16 ∧
    (propOf s id).by_ = none ∧
    s.vlt.mode = VaultMode.normal ∧
    (tkeys s.vlt.props fun i p => i != id && p.used && p.state == PropState.open_) = [] ∧
    progOk a = true ∧
    progOk b = false ∧
    progOk v = true :=
  ⟨9, begun (comm 0x10 255 none), jrecBytes (vaultMacKey (begun (comm 0x10 255 none))) (commitRec 9 (begun (comm 0x10 255 none))), .written 0, .silent, .written 0,
    by decide +kernel, by decide +kernel, by decide +kernel, by decide +kernel, by decide +kernel, by decide +kernel, by decide +kernel, rfl, by decide +kernel, by decide +kernel, by decide +kernel, by decide +kernel, by decide +kernel, by decide +kernel, by decide +kernel, by decide +kernel⟩

theorem witness_VaultCommitsOpensAndIsKept_2_4_3 : ∃ (id : Nat) (s : State) (y : Bytes) (a : ProgResult) (b : ProgResult) (v : ProgResult), live s = true ∧
    (propOf s id).used = true ∧
    (propOf s id).state = PropState.open_ ∧
    (propOf s id).begun = true ∧
    (propOf s id).outs = [] ∧
    commitDue id s = false ∧
    alarmA s = false ∧
    jrecBytes (vaultMacKey s) (commitRec id s) = y ∧
    tablesOk s = true ∧
    rOp (propOf s id).record = 16 ∧
    (propOf s id).by_ = none ∧
    s.vlt.mode = VaultMode.normal ∧
    (tkeys s.vlt.props fun i p => i != id && p.used && p.state == PropState.open_) = [] ∧
    progOk a = true ∧
    progOk b = false ∧
    progOk v = false :=
  ⟨9, begun (comm 0x10 255 none), jrecBytes (vaultMacKey (begun (comm 0x10 255 none))) (commitRec 9 (begun (comm 0x10 255 none))), .written 0, .failed, .failed,
    by decide +kernel, by decide +kernel, by decide +kernel, by decide +kernel, by decide +kernel, by decide +kernel, by decide +kernel, rfl, by decide +kernel, by decide +kernel, by decide +kernel, by decide +kernel, by decide +kernel, by decide +kernel, by decide +kernel, by decide +kernel⟩

theorem witness_VaultCommitsOpensAndIsKept_3 :
    ([shutV,
      shutE] :
      List (State)).all (fun s => decide (
    live s = true ∧
    s.chp.vaultOpen = false ∧
    s.vlt.mode = VaultMode.closed ∧
    s.car.cars = [])) = true := by
  decide +kernel

theorem witness_VaultCommitsOpensAndIsKept_4 :
    ([shutE] :
      List (State)).all (fun s => decide (
    s.fuses.bdEpoch < 255 ∧
    s.lcs.state ≠ LifeState.return_ ∧
    s.lcs.pending = false ∧
    noShares s = true ∧
    s.vlt.a.answers = true ∧
    devBlank s.vlt.a = true ∧
    s.vlt.b.answers = true ∧
    devBlank s.vlt.b = true ∧
    s.bbr.floor = 0)) = true := by
  decide +kernel

theorem witness_VaultCommitsOpensAndIsKept_5 : ∃ (mk : Bytes) (wk : Bytes) (s : State), vaultMacKey s = mk ∧
    vaultWrapKey s = wk ∧
    s.fuses.bdEpoch < 255 ∧
    s.lcs.state ≠ LifeState.return_ ∧
    s.lcs.pending = false ∧
    noShares s = false ∧
    devGood mk s.vlt.a = true ∧
    devGood mk s.vlt.b = true ∧
    (devChain mk s.vlt.a).fst = (devChain mk s.vlt.b).fst ∧
    s.bbr.floor ≤ (devChain mk s.vlt.a).fst :=
  ⟨mk1, vaultWrapKey shutV, shutV, rfl, rfl, by decide +kernel, by decide +kernel, by decide +kernel, by decide +kernel,
    devGood_putHeader _ _ _ _ rfl, devGood_putHeader _ _ _ _ rfl, rfl, Nat.zero_le _⟩

theorem witness_VaultCommitsOpensAndIsKept_6 :
    ([reb] :
      List (State)).all (fun s => decide (
    live s = true ∧
    s.vlt.mode = VaultMode.rebuilding)) = true := by
  decide +kernel

/-- The bytes before the CMAC of a record of epoch 3. -/
def rec3 : Bytes := natLe 4 0x31524A56 ++ natLe 8 3 ++ natLe 1 1 ++ natLe 1 1 ++ zeros 2 ++ natLe 4 0 ++ natLe 4 0 ++ natLe 8 0

theorem rec3_bytes (mk : Bytes) : jrecBytes mk { epoch := 3 } = rec3 ++ cmac mk rec3 := by
  have h : jrecPages { epoch := 3 } = 1 := by decide +kernel
  simp only [jrecBytes, h, bodyBytes, List.flatMap_nil, List.append_nil, kindCode, rec3, List.length_nil]

theorem settle_due (mk : Bytes) :
    journalDue mk (devProgram (.written 0) (jrecBytes mk { epoch := 3 }) (putHeader mk 1 5 {})) = true := by
  have hl : rec3.length = 32 := by decide +kernel
  have hn : (rec3 ++ cmac mk rec3).length = 48 := by rw [List.length_append, hl, cmac_length]
  have hc : chunks 4096 (rec3 ++ cmac mk rec3) = [rec3 ++ cmac mk rec3] :=
    chunks_short _ _ (by rw [← List.length_pos_iff, hn]; decide) (by rw [hn]; decide)
  have hm : fld rec3 0 4 = 0x31524A56 := by decide +kernel
  have hk : fld rec3 12 1 = 1 := by decide +kernel
  have hr (k : Nat) (d : VaultDev) := foundRec_single mk d k rec3 hl hm (by decide +kernel) (by decide +kernel)
  have hf : (devProgram (.written 0) (rec3 ++ cmac mk rec3) (putHeader mk 1 5 {})).pages.filter (fun e => inRing e.1) =
      [(512, { data := rec3 ++ cmac mk rec3 })] := by
    simp only [devProgram, blocksFail, putRing, hc]
    generalize rec3 ++ cmac mk rec3 = y
    simp only [putHeader]
    generalize headerPage mk 1 5 = h
    rfl
  rw [rec3_bytes, journalDue, ringRecs, hf]
  simp only [List.foldl_cons, List.foldl_nil, hr, fld_append _ _ 0 4 (by omega : 0 + 4 ≤ rec3.length), hm]
  simp [recKind, fld_append _ _ 12 1 (by omega : 12 + 1 ≤ rec3.length), hk]

theorem settle_mac : vaultMacKey settle = mk1 := by rfl


theorem witness_VaultCommitsOpensAndIsKept_7 : ∃ (mk : Bytes) (y : Bytes) (img : VaultImg) (s : State), live s = true ∧
    (vaultLive s = true ∨ s.vlt.mode = VaultMode.single) ∧
    s.gov.pfail = false ∧
    commitRuns s = false ∧
    alarmA s = false ∧
    vaultMacKey s = mk ∧
    (takesPart s.vlt.devA = true ∧ journalDue mk s.vlt.a = true ∨
      takesPart s.vlt.devB = true ∧ journalDue mk s.vlt.b = true) ∧
    { owners := s.vlt.img.owners, roster := s.vlt.img.roster, policies := s.vlt.img.policies,
        custody := s.vlt.img.custody, idCeiling := s.vlt.img.idCeiling, settledEpoch := s.vlt.epoch,
        shredLedger := s.vlt.img.shredLedger, shredNext := s.vlt.img.shredNext, propLedger := s.vlt.img.propLedger,
        evrFloor := s.vlt.img.evrFloor, activation := s.vlt.img.activation, returnDue := s.vlt.img.returnDue,
        migrated := s.vlt.img.migrated } =
      img ∧
    jrecBytes mk (jrec JKind.settled 0 img s) = y :=
  ⟨mk1, jrecBytes mk1 (jrec .settled 0 { settle.vlt.img with settledEpoch := 3 } settle), { settle.vlt.img with settledEpoch := 3 }, settle,
    by decide +kernel, by decide +kernel, by decide +kernel, by decide +kernel, by decide +kernel, rfl,
    Or.inl ⟨by decide +kernel, settle_due mk1⟩, rfl, rfl⟩

theorem witness_VaultCommitsOpensAndIsKept_8 :
    ([(100, up),
      (0, { up with vlt := { mode := .single } })] :
      List (Nat × State)).all (fun (n, s) => decide (
    live s = true ∧
    (vaultLive s = true ∨ s.vlt.mode = VaultMode.single) ∧
    s.gov.pfail = false ∧
    n ≤ 100)) = true := by
  decide +kernel

theorem witness_EventRecorderFlushesAndReads_1 :
    ([(.a, evS { devs := 3 })] :
      List (Port × State)).all (fun (p, s) => decide (
    wr p Blk.evr s = true ∧
    s.evr.full = false)) = true := by
  decide +kernel

theorem witness_EventRecorderFlushesAndReads_2_1 :
    ([evS { devs := 3 }] :
      List (State)).all (fun s => decide (
    evrOpen s = true ∧
    s.evr.full = false ∧
    s.evr.flushAt + 1000 * s.evr.period ≤ s.now)) = true := by
  decide +kernel

theorem witness_EventRecorderFlushesAndReads_2_2 :
    ([evS big] :
      List (State)).all (fun s => decide (
    evrOpen s = true ∧
    s.evr.full = false ∧
    s.evr.flushing = false ∧
    131072 ≤ bufOcc s.evr)) = true := by
  decide +kernel

theorem witness_EventRecorderFlushesAndReads_3 :
    ([({ type := .drive, seq := 5, payload := zeros 16 }, evS evF)] :
      List (EvRec × State)).all (fun (r, s) => decide (
    evrOpen s = true ∧
    s.vlt.mode ≠ VaultMode.single ∧
    s.evr.devs = 3 ∧
    s.evr.flushing = true ∧
    s.gov.pfail = false ∧
    s.evr.buf = [r] ∧
    r.type ≠ RecType.seal ∧
    r.type ≠ RecType.sealSig ∧
    r.type ≠ RecType.overflowEnd ∧
    seqFrom s.evr.flushTo r.seq = false ∧
    recLen r ≤ 4096 ∧
    s.evr.ovfEndDue = false ∧
    s.evr.page % 64 ≠ 0 ∧
    s.evr.sealCnt + 1 < 4096 ∧
    s.bbr.copied = false ∧
    s.evr.full = false ∧
    (s.evr.page + 1) % 64 ≠ 0)) = true := by
  decide +kernel

theorem witness_EventRecorderFlushesAndReads_4 :
    ([evS evF] :
      List (State)).all (fun s => decide (
    evrOpen s = true ∧
    s.vlt.mode ≠ VaultMode.single ∧
    s.evr.flushing = true ∧
    s.evr.devs = 3)) = true := by
  decide +kernel

theorem witness_EventRecorderFlushesAndReads_5 :
    ([{ evS evF with vlt := { mode := .single, devB := 2 } }] :
      List (State)).all (fun s => decide (
    evrOpen s = true ∧
    s.vlt.mode = VaultMode.single ∧
    s.evr.flushing = true ∧
    s.evr.devs = 3 ∧
    s.vlt.devA = 0)) = true := by
  decide +kernel

theorem witness_EventRecorderFlushesAndReads_6 :
    ([(1, evS evP)] :
      List (Nat × State)).all (fun (page, s) => decide (
    evrOpen s = true ∧
    s.vlt.mode ≠ VaultMode.single ∧
    s.evr.flushing = true ∧
    s.evr.devs = 3 ∧
    0 < page ∧
    page < (flushPlan s).length)) = true := by
  decide +kernel

theorem witness_EventRecorderFlushesAndReads_7 :
    ([evS evF] :
      List (State)).all (fun s => decide (
    evrOpen s = true ∧
    s.vlt.mode ≠ VaultMode.single ∧
    s.evr.flushing = true ∧
    s.evr.devs = 3 ∧
    flushPlan s ≠ [])) = true := by
  decide +kernel

theorem witness_EventRecorderFlushesAndReads_8 :
    ([(.a, evS evF)] :
      List (Port × State)).all (fun (p, s) => decide (
    wr p Blk.evr s = true)) = true := by
  decide +kernel

theorem witness_EventRecorderFlushesAndReads_9 :
    ([(.a, evL)] :
      List (Port × State)).all (fun (p, s) => decide (
    powered s = true ∧
    inFault s = false ∧
    (s.win.get p).evr.busy = true)) = true := by
  decide +kernel

theorem witness_FaultErasesAndStops_1 :
    ([(0x2FFFF, stagedKey),
      (1, slots [(3, slA)] up)] :
      List (Nat × State)).all (fun (cause, s) => decide (
    tablesOk s = true ∧
    faultCause cause = true ∧
    powered s = true ∧
    inFault s = false)) = true := by
  decide +kernel

theorem witness_FaultErasesAndStops_2 :
    ([(.bar0, faulted)] :
      List (Bar × State)).all (fun (bar, s) => decide (
    s.chp.mode = Mode.fault ∧
    bar ≠ Bar.bar4)) = true := by
  decide +kernel

theorem witness_WorldsFailAndRestartAlone_1 :
    ([(.watchdogExpiry .secure, .secure, 1, wld run2),
      (.worldException .normal, .normal, 2, wld run2),
      (.monitorCheckFail .secure, .secure, 3, wld run2)] :
      List (Instr × World × Nat × State)).all (fun (c, w, cause, s) => decide (
    live s = true ∧
    s.fwu.activating = false ∧
    (worldOf s w).state = WorldState.running ∧
    (c = Instr.watchdogExpiry w ∧ cause = 1 ∧ (worldOf s w).kickAt + 1000 * (worldOf s w).wdt ≤ s.now ∨
      c = Instr.worldException w ∧ cause = 2 ∨ c = Instr.monitorCheckFail w ∧ cause = 3) ∧
    (w = World.secure → (List.filter (fun t => decide (s.now < t + 3600000000)) (worldOf s w).restarts).length < 4))) = true := by
  decide +kernel

theorem witness_WorldsFailAndRestartAlone_2 :
    ([(.worldException .secure, wld run5),
      (.watchdogExpiry .secure, wld run5)] :
      List (Instr × State)).all (fun (c, s) => decide (
    live s = true ∧
    s.fwu.activating = false ∧
    s.wld.secure.state = WorldState.running ∧
    4 ≤ (List.filter (fun t => decide (s.now < t + 3600000000)) s.wld.secure.restarts).length ∧
    (c = Instr.worldException World.secure ∨
      c = Instr.monitorCheckFail World.secure ∨
        c = Instr.watchdogExpiry World.secure ∧ s.wld.secure.kickAt + 1000 * s.wld.secure.wdt ≤ s.now))) = true := by
  decide +kernel

theorem witness_WorldsFailAndRestartAlone_3_1 :
    ([(.secure, wld rest)] :
      List (World × State)).all (fun (w, s) => decide (
    live s = true ∧
    (worldOf s w).state = WorldState.restarting ∧
    s.fwu.activating = false)) = true := by
  decide +kernel

theorem witness_WorldsFailAndRestartAlone_3_2 :
    ([(.secure, onTime 999999 (wld rest))] :
      List (World × State)).all (fun (w, s) => decide (
    live s = true ∧
    (worldOf s w).state = WorldState.restarting ∧
    s.now < (worldOf s w).failAt + 250000 ∧
    measureOf w (slotImage s s.fwu.active) = (worldOf s w).meas)) = true := by
  decide +kernel

theorem witness_WorldsFailAndRestartAlone_3_3 :
    ([(.secure, onTime 999999 (wld { rest with secure := { rest.secure with meas := [] } }))] :
      List (World × State)).all (fun (w, s) => decide (
    live s = true ∧
    (worldOf s w).state = WorldState.restarting ∧
    s.now < (worldOf s w).failAt + 250000 ∧
    measureOf w (slotImage s s.fwu.active) ≠ (worldOf s w).meas)) = true := by
  decide +kernel

theorem witness_WorldsFailAndRestartAlone_3_4 :
    ([(.secure, wld rest)] :
      List (World × State)).all (fun (w, s) => decide (
    live s = true ∧
    (worldOf s w).state = WorldState.restarting ∧
    (worldOf s w).failAt + 250000 ≤ s.now)) = true := by
  decide +kernel

theorem witness_WorldsFailAndRestartAlone_4_1 :
    ([(.normal, wld run2),
      (.secure, wld { run2 with dbg := 8 })] :
      List (World × State)).all (fun (w, s) => decide (
    live s = true ∧
    (worldOf s w).state = WorldState.running ∧
    jtagOffers s JtagInstr.debug = true ∧
    bit (dbgEnables s) (invasiveBit w) = true)) = true := by
  decide +kernel

theorem witness_WorldsFailAndRestartAlone_4_2 :
    ([(.secure, wld halt)] :
      List (World × State)).all (fun (w, s) => decide (
    live s = true ∧
    (worldOf s w).state = WorldState.halted)) = true := by
  decide +kernel

theorem witness_GatesAndBlockedAccesses_1_3 :
    ([(.ucp, notRun (gate {}), declared .ucp (notRun (gate {})), .kst)] :
      List (GateBlock × State × State × GateBlock)).all (fun (b, s, u, c) => decide (
    live s = true ∧
    declared b s = u ∧
    c ≠ b)) = true := by
  decide +kernel

theorem witness_GatesAndBlockedAccesses_1_5 :
    ([(.ucp, notRun (gate {}), declared .ucp (notRun (gate {})))] :
      List (GateBlock × State × State)).all (fun (b, s, u) => decide (
    live s = true ∧
    declared b s = u ∧
    (gateOf s b).req = false ∧
    gateInUse u b = false)) = true := by
  decide +kernel

theorem witness_GatesAndBlockedAccesses_1_6 :
    ([(.ucp, notRun (gate { mark := true }), declared .ucp (notRun (gate { mark := true }))),
      (.kst, notRun (slots [(3, slA)] up), declared .kst (notRun (slots [(3, slA)] up)))] :
      List (GateBlock × State × State)).all (fun (b, s, u) => decide (
    live s = true ∧
    declared b s = u ∧
    (gateOf s b).req = false ∧
    gateInUse u b = true)) = true := by
  decide +kernel

theorem witness_GatesAndBlockedAccesses_1_8 :
    ([(.ucp, notRun (gate { req := true, deferred := true }), declared .ucp (notRun (gate { req := true, deferred := true })))] :
      List (GateBlock × State × State)).all (fun (b, s, u) => decide (
    live s = true ∧
    declared b s = u ∧
    (gateOf s b).deferred = true ∧
    gateInUse u b = false)) = true := by
  decide +kernel

theorem witness_GatesAndBlockedAccesses_1_7 :
    ([(.bnv, notRun up, declared .bnv (notRun up))] :
      List (GateBlock × State × State)).all (fun (b, s, u) => decide (
    live s = true ∧
    declared b s = u)) = true := by
  decide +kernel

theorem witness_GatesAndBlockedAccesses_1_9 :
    ([(.kst, notRun { up with wld := { up.wld with gates := [(4, { req := true, deferred := true })] } }, declared .kst (notRun { up with wld := { up.wld with gates := [(4, { req := true, deferred := true })] } }))] :
      List (GateBlock × State × State)).all (fun (b, s, u) => decide (
    live s = true ∧
    declared b s = u ∧
    (gateOf s b).deferred = true ∧
    gateInUse u b = true)) = true := by
  decide +kernel

theorem witness_GatesAndBlockedAccesses_1_10 :
    ([(.kst, notRun { up with wld := { up.wld with gates := [(4, { req := true, on := true })] } }, declared .kst (notRun { up with wld := { up.wld with gates := [(4, { req := true, on := true })] } }))] :
      List (GateBlock × State × State)).all (fun (b, s, u) => decide (
    live s = true ∧
    declared b s = u ∧
    (gateOf s b).on = true ∧
    hwMark s b = true)) = true := by
  decide +kernel

theorem witness_GatesAndBlockedAccesses_1_11 :
    ([(.ucp, notRun (gate { req := true, deferred := true }), declared .ucp (notRun (gate { req := true, deferred := true })))] :
      List (GateBlock × State × State)).all (fun (b, s, u) => decide (
    live s = true ∧
    declared b s = u ∧
    (gateOf s b).deferred = true ∧
    (gateOf s b).late = false ∧
    (gateOf s b).since + 500000 ≤ s.now)) = true := by
  decide +kernel

theorem witness_GatesAndBlockedAccesses_2 :
    ([(2 ^ 29 - 4, up)] :
      List (Nat × State)).all (fun (addr, s) => decide (
    live s = true ∧
    inPort addr = true)) = true := by
  decide +kernel

theorem witness_GatesAndBlockedAccesses_3 :
    ([{ up with wld := { up.wld with assignLock := true } }] :
      List (State)).all (fun s => decide (
    live s = true ∧
    s.wld.assignLock = true)) = true := by
  decide +kernel

theorem witness_GatesAndBlockedAccesses_1_1 :
    ([(.ucp, notRun (gate {}), declared .ucp (notRun (gate {})))] :
      List (GateBlock × State × State)).all (fun (b, s, u) => decide (
    live s = true ∧
    declared b s = u ∧
    s.wld.secure.state ≠ WorldState.running)) = true := by
  decide +kernel

theorem witness_AlarmsEraseAndStop_1 :
    ([(8, .b, tmpS {})] :
      List (Nat × AlarmClass × State)).all (fun (source, cls, s) => decide (
    isActive s source cls = false ∧
    (cls = AlarmClass.b → s.tmp.dataStop = false) ∧
    s.tmp.resp = none)) = true := by
  decide +kernel

theorem witness_AlarmsEraseAndStop_2 :
    ([(respA, tmpS { resp := some respA })] :
      List (AlarmResp × State)).all (fun (r, s) => decide (
    tablesOk s = true ∧
    s.tmp.resp = some r ∧
    s.tmp.light.openAt = none ∧
    live s = true ∧
    (r.notes.any fun n => n.cls == AlarmClass.a) = true)) = true := by
  decide +kernel

theorem witness_AlarmsEraseAndStop_3 :
    ([(true, tmpS {}),
      (false, tmpS {})] :
      List (Bool × State)).all (fun (photo, s) => decide (
    s.chp.inReset = false ∧
    (photo = false → powered s = true) ∧
    isActive s 1 AlarmClass.a = false ∧
    s.tmp.light.openAt = none)) = true := by
  decide +kernel

theorem witness_AlarmsEraseAndStop_4_1 :
    ([(false, 1999901, tmpS { active := [{ source := 1, cls := .a, at_ := 1999901 }], light := { openAt := some 1999901, pd := true } })] :
      List (Bool × Nat × State)).all (fun (photo, at_, s) => decide (
    s.chp.inReset = false ∧
    (photo = false → powered s = true) ∧
    s.tmp.light.openAt = some at_ ∧
    isActive s 1 AlarmClass.a = true ∧
    s.now < at_ + 100)) = true := by
  decide +kernel

theorem witness_AlarmsEraseAndStop_4_2 :
    ([(true, 1999900, tmpS { active := [{ source := 1, cls := .a, at_ := 1999900 }], light := { openAt := some 1999900, pd := true } })] :
      List (Bool × Nat × State)).all (fun (photo, at_, s) => decide (
    s.chp.inReset = false ∧
    (photo = false → powered s = true) ∧
    s.tmp.light.openAt = some at_ ∧
    isActive s 1 AlarmClass.a = true ∧
    at_ + 100 ≤ s.now ∧
    s.tmp.light.done = none)) = true := by
  decide +kernel

theorem witness_AlarmsEraseAndStop_5 :
    ([(1999900, tmpS { light := { openAt := some 1999900, pd := true } })] :
      List (Nat × State)).all (fun (at_, s) => decide (
    s.chp.inReset = false ∧
    s.tmp.light.openAt = some at_ ∧
    at_ + 100 ≤ s.now ∧
    s.tmp.light.done = none)) = true := by
  decide +kernel

theorem witness_AlarmsEraseAndStop_6_1 :
    ([(1, 200, tmpS { loopEn := 2 }),
      (0, 5000, tmpS { loopEn := 3 })] :
      List (Nat × Nat × State)).all (fun (loop, r, s) => decide (
    s.chp.inReset = false ∧
    loop < 2 ∧
    s.tmp.loopEn.getLsbD loop = true ∧
    s.tmp.loopAt.getD loop 0 + 1000 ≤ s.now ∧
    r ≤ 65535 ∧
    200 ≤ r ∧
    r ≤ 5000)) = true := by
  decide +kernel

theorem witness_AlarmsEraseAndStop_6_2 :
    ([(1, 199, tmpS { loopEn := 2 }),
      (1, 0xFFFF, tmpS { loopEn := 2 })] :
      List (Nat × Nat × State)).all (fun (loop, r, s) => decide (
    s.chp.inReset = false ∧
    loop < 2 ∧
    s.tmp.loopEn.getLsbD loop = true ∧
    s.tmp.loopAt.getD loop 0 + 1000 ≤ s.now ∧
    r ≤ 65535 ∧
    (r < 200 ∨ 5000 < r))) = true := by
  decide +kernel

theorem witness_AlarmsEraseAndStop_7 :
    ([tmpS {}] :
      List (State)).all (fun s => decide (
    powered s = true)) = true := by
  decide +kernel

theorem witness_AlarmsEraseAndStop_8 :
    ([(8, .b, { source := 8, cls := .b, at_ := 1999000 }, tmpS { active := [{ source := 8, cls := .b, at_ := 1999000 }, { source := 8, cls := .c, at_ := 1 }] })] :
      List (Nat × AlarmClass × ActiveSrc × State)).all (fun (source, cls, x, s) => decide (
    s.chp.inReset = false ∧
    List.find? (fun x => x.source == source && x.cls == cls) s.tmp.active = some x ∧
    x.at_ + 1000 ≤ s.now)) = true := by
  decide +kernel

theorem witness_AlarmsEraseAndStop_10_1 :
    ([(.a, tmpS { dataStop := true, lastAB := 1000000 })] :
      List (Port × State)).all (fun (p, s) => decide (
    wr p Blk.tmp s = true ∧
    s.tmp.dataStop = true ∧
    quiet s (1000 * s.tmp.holdoff) = true)) = true := by
  decide +kernel

theorem witness_AlarmsEraseAndStop_10_2 :
    ([(.a, tmpS { dataStop := true, lastAB := 1000001 })] :
      List (Port × State)).all (fun (p, s) => decide (
    wr p Blk.tmp s = true ∧
    s.tmp.dataStop = true ∧
    quiet s (1000 * s.tmp.holdoff) = false)) = true := by
  decide +kernel

theorem witness_AlarmsEraseAndStop_11_2 :
    ([(tmpS {}, true, false)] :
      List (State × Bool × Bool)).all (fun (s, a, b) => decide (
    live s = true ∧
    s.wld.secure.state = WorldState.running ∧
    (a && b) = false)) = true := by
  decide +kernel

theorem witness_AlarmsEraseAndStop_12 :
    ([(3, 50001, onBat),
      (1, 7, onBat)] :
      List (Nat × Nat × State)).all (fun (source, reading, s) => decide (
    s.chp.inReset = true ∧
    (source = 1 ∨ source = 2 ∧ s.bbr.loops.getLsbD 0 = true ∨ source = 3 ∧ s.bbr.loops.getLsbD 1 = true) ∧
    (∀ (x : Nat × Nat), x ∈ s.bbr.active → x.fst ≠ source) ∧
    s.bbr.buffer.length < 64 ∧
    (source = 1 ∨ reading < 2000 ∨ 50000 < reading))) = true := by
  decide +kernel

theorem witness_AlarmsEraseAndStop_9 :
    ([(3, onBat)] :
      List (Nat × State)).all (fun (source, s) => decide (
    s.chp.inReset = true ∧
    (∀ (x : Nat × Nat), x ∈ s.bbr.active → x.fst = source → x.snd + 1000 ≤ s.bbr.clock))) = true := by
  decide +kernel

theorem witness_LifeCycleAndDebugGrants_1_1 :
    ([(6, life .raw {})] :
      List (Nat × State)).all (fun (target, s) => decide (
    tapWrites s = true ∧
    transPermitted s target = false)) = true := by
  decide +kernel

theorem witness_LifeCycleAndDebugGrants_1_2 :
    ([(1, life .raw { tokenReady := true }),
      (8, life .return_ {})] :
      List (Nat × State)).all (fun (target, s) => decide (
    tapWrites s = true ∧
    transPermitted s target = true ∧
    (1 ≤ target → target ≤ 4 → s.lcs.tokenReady = true) ∧
    s.gov.pfail = false ∧
    s.lcs.burning = false)) = true := by
  decide +kernel

theorem witness_LifeCycleAndDebugGrants_2 :
    ([life .mfg { burning := true, burnFrom := 599987400, pendState := 6 },
      life .raw { burning := true, burnFrom := 599987400, pendState := 1 }] :
      List (State)).all (fun s => decide (
    powered s = true ∧
    s.lcs.burning = true ∧
    s.lcs.burnFrom + 12600 ≤ s.now ∧
    (s.chp.waitEnv = none ∨ s.lcs.pendState = 0 ∨ 4 < s.lcs.pendState))) = true := by
  decide +kernel

theorem witness_LifeCycleAndDebugGrants_3 :
    ([({}, rawW 1)] :
      List (BootEnv × State)).all (fun (env, s) => decide (
    powered s = true ∧
    s.lcs.burning = true ∧
    s.lcs.burnFrom + 12600 ≤ s.now ∧
    s.chp.waitEnv = some env ∧
    s.lcs.state = LifeState.raw ∧
    s.lcs.pendState = 1 ∧
    s.chp.mode ≠ Mode.fault)) = true := by
  decide +kernel

theorem witness_LifeCycleAndDebugGrants_4_2 :
    ([(15, zeros 16, life .raw {})] :
      List (Nat × Bytes × State)).all (fun (i, token, s) => decide (
    tapWrites s = true ∧
    (s.lcs.state = LifeState.raw ∨ s.lcs.state = LifeState.test0 ∧ s.lcs.unlocked = true) ∧
    i < 16 ∧
    s.lcs.tokenFails < 8 ∧
    s.fuses.tokenUsed.getLsbD i = false ∧
    tokenMatches s i token = false)) = true := by
  decide +kernel

theorem witness_LifeCycleAndDebugGrants_4_1 :
    ([(15, tokU)] :
      List (Nat × State)).all (fun (i, s) => decide (
    tapWrites s = true ∧
    (s.lcs.state = LifeState.raw ∨ s.lcs.state = LifeState.test0 ∧ s.lcs.unlocked = true) ∧
    i < 16 ∧
    s.lcs.tokenFails < 8 ∧
    s.fuses.tokenUsed.getLsbD i = true)) = true := by
  decide +kernel

theorem tokM_matches : tokenMatches tokM 15 (zeros 16) = true := by
  have g : tget [] tokM.fuses.tokenHash 15 = (sha3_256 (unitId16 ++ padTo 16 (zeros 16) ++ natLe 1 15)).take 16 := rfl
  have h : ((sha3_256 (unitId16 ++ padTo 16 (zeros 16) ++ natLe 1 15)).take 16).isEmpty = false := by
    rw [← Bool.not_eq_true, List.isEmpty_iff, ← List.length_eq_zero_iff, List.length_take, sha3_256_length]
    decide
  simp only [tokenMatches, g, h, beq_self_eq_true, Bool.not_false, Bool.and_self]

theorem witness_LifeCycleAndDebugGrants_4_3 : ∃ (i : Nat) (token : Bytes) (s : State), tapWrites s = true ∧
    (s.lcs.state = LifeState.raw ∨ s.lcs.state = LifeState.test0 ∧ s.lcs.unlocked = true) ∧
    i < 16 ∧
    s.lcs.tokenFails < 8 ∧
    s.fuses.tokenUsed.getLsbD i = false ∧
    tokenMatches s i token = true ∧
    s.gov.pfail = false :=
  ⟨15, zeros 16, tokM,
    by decide, by decide, by decide, by decide, by decide, tokM_matches, by decide⟩

theorem witness_LifeCycleAndDebugGrants_5_1 :
    ([(.a, 15, life .field { pending := true })] :
      List (Port × Nat × State)).all (fun (p, scope, s) => decide (
    wr p Blk.lcs s = true ∧
    s.lcs.chal ≠ 2 ∧
    (s.lcs.pending = true ∨ scopeOk s (scope % 16) = false))) = true := by
  decide +kernel

theorem witness_LifeCycleAndDebugGrants_5_2 :
    ([(.a, 0x18, life .mfg {})] :
      List (Port × Nat × State)).all (fun (p, scope, s) => decide (
    wr p Blk.lcs s = true ∧
    s.lcs.chal ≠ 2 ∧
    s.lcs.pending = false ∧
    scopeOk s (scope % 16) = true ∧
    s.rng.state ≠ RngState.failed ∧
    s.rng.waiters = [] ∧
    List.length s.rng.tender < 32)) = true := by
  decide +kernel

theorem witness_LifeCycleAndDebugGrants_5_3 :
    ([(.a, 15, dbgT)] :
      List (Port × Nat × State)).all (fun (p, scope, s) => decide (
    wr p Blk.lcs s = true ∧
    s.lcs.chal ≠ 2 ∧
    s.lcs.pending = false ∧
    scopeOk s (scope % 16) = true ∧
    s.rng.state ≠ RngState.failed ∧
    s.rng.waiters = [] ∧
    32 ≤ List.length s.rng.tender)) = true := by
  decide +kernel

theorem witness_LifeCycleAndDebugGrants_6 :
    ([(.b, life .return_ { chal := 1, chalLive := true, chalAt := 1 })] :
      List (Port × State)).all (fun (p, s) => decide (
    wr p Blk.lcs s = true ∧
    s.lcs.chal ≠ 2 ∧
    s.lcs.chalLive = true ∧
    chalOver s = false ∧
    s.lcs.pending = false)) = true := by
  decide +kernel

theorem witness_LifeCycleAndDebugGrants_8 :
    ([life .return_ { chal := 1, chalLive := true }] :
      List (State)).all (fun s => decide (
    powered s = true ∧
    s.lcs.chalLive = true ∧
    s.lcs.chalAt + 600000000 ≤ s.now)) = true := by
  decide +kernel

theorem witness_LifeCycleAndDebugGrants_7 :
    ([(.a, life .return_ { chal := 2 })] :
      List (Port × State)).all (fun (p, s) => decide (
    wr p Blk.lcs s = true ∧
    s.lcs.chal = 2)) = true := by
  decide +kernel

theorem witness_BootRunsItsSequence_1 :
    ([off (code 0)] :
      List (State)).all (fun s => decide (
    s.chp.inReset = true ∧
    decodeLife s.fuses = LifeState.raw)) = true := by
  decide +kernel

theorem witness_BootRunsItsSequence_2 :
    ([off (code 8)] :
      List (State)).all (fun s => decide (
    s.chp.inReset = true ∧
    decodeLife s.fuses = LifeState.terminal)) = true := by
  decide +kernel

theorem witness_BootRunsItsSequence_3 :
    ([({}, off (code 6)),
      ({ drbHead := true, pfail := true }, off (code 6)),
      ({}, off (code 5))] :
      List (BootEnv × State)).all (fun (env, s) => decide (
    s.chp.inReset = true ∧
    (decodeLife s.fuses = LifeState.field ∨ decodeLife s.fuses = LifeState.mfg ∨ decodeLife s.fuses = LifeState.return_) ∧
    s.bbr.markOk = true ∧
    s.bbr.counter < 16777215 ∧
    s.flash.slot0 = [] ∧
    s.flash.slot1 = [] ∧
    env.memOk = true)) = true := by
  decide +kernel

theorem witness_BootRunsItsSequence_4_2 :
    ([({ drbHead := true }, offDue, bootU { drbHead := true } offDue, bootV { drbHead := true } offDue),
      ({}, off (code 7), bootU {} (off (code 7)), bootV {} (off (code 7)))] :
      List (BootEnv × State × State × State)).all (fun (env, s, u, v) => decide (
    s.chp.inReset = true ∧
    (decodeLife s.fuses = LifeState.field ∨ decodeLife s.fuses = LifeState.mfg ∨ decodeLife s.fuses = LifeState.return_) ∧
    fuseBoot
        { pending := s.pending, out := s.out, free := s.free, now := s.now, csn := s.csn,
          chp :=
            { mode := s.chp.mode, inReset := false, bootLock := s.chp.bootLock, vaultOpen := s.chp.vaultOpen,
              woke := s.chp.woke, opened := s.chp.opened, faultCause := s.chp.faultCause, bootCnt := s.chp.bootCnt,
              f2cOcc := s.chp.f2cOcc, f2cHwm := s.chp.f2cHwm, f2cStall := s.chp.f2cStall, waitEnv := s.chp.waitEnv },
          pins := { pfail := env.pfail, haClkmode := env.haClkmode, hbClkmode := env.hbClkmode, drbHead := env.drbHead },
          hpt := s.hpt, stats := s.stats, win := s.win, ttb := s.ttb, car := s.car, cay := s.cay, mdf := s.mdf,
          kst := s.kst, leg := s.leg, vlt := s.vlt, slc := s.slc, evr := s.evr, rng := s.rng, lat := s.lat, bnv := s.bnv,
          ucp := s.ucp, wld := s.wld, tmp := s.tmp, bbr := s.bbr, lcs := s.lcs, fuses := s.fuses, mnf := s.mnf,
          flash := s.flash, fwu := s.fwu,
          drb :=
            { head := env.drbHead, state := s.drb.state, timeValid := s.drb.timeValid, addr := s.drb.addr,
              lastE := s.drb.lastE, delay := s.drb.delay, marksRx := s.drb.marksRx, marksMissed := s.drb.marksMissed,
              missRun := s.drb.missRun, crcErr := s.drb.crcErr, steps := s.drb.steps, stepMax := s.drb.stepMax,
              slewLeft := s.drb.slewLeft, halfTick := s.drb.halfTick, cycle := s.drb.cycle, cycleAt := s.drb.cycleAt,
              mark := s.drb.mark, sent := s.drb.sent, joinRefused := s.drb.joinRefused, selIn := env.selIn,
              selOut := s.drb.selOut, members := s.drb.members, offer := s.drb.offer, first := s.drb.first,
              started := s.drb.started, heard := s.drb.heard, join := s.drb.join, joinTry := s.drb.joinTry,
              queue := s.drb.queue },
          mem := s.mem,
          gov :=
            { floor := s.gov.floor, ceil := s.gov.ceil, pwrCap := s.gov.pwrCap, capStep := s.gov.capStep,
              capLimit := s.gov.capLimit, thermStep := s.gov.thermStep, pfail := env.pfail, clampCnt := s.gov.clampCnt,
              clampRecAt := s.gov.clampRecAt, power := s.gov.power, powerMax := s.gov.powerMax, powers := s.gov.powers,
              up := s.gov.up, down := s.gov.down, hold := s.gov.hold, regions := s.gov.regions,
              lowSince := s.gov.lowSince, thermAt := s.gov.thermAt, warmAt := s.gov.warmAt,
              intervalAt := s.gov.intervalAt, avsHold := s.gov.avsHold, dormReady := s.gov.dormReady,
              dormAt := s.gov.dormAt, dormCause := s.gov.dormCause, wakes := s.gov.wakes, dormant := s.gov.dormant },
          shown := s.shown } =
      u ∧
    (env.pfail = false ∨ epochDue s = false) ∧
    backupBoot
        { pending := u.pending, out := u.out, free := u.free, now := u.now, csn := u.csn,
          chp :=
            { mode := u.chp.mode, inReset := u.chp.inReset, bootLock := u.chp.bootLock, vaultOpen := u.chp.vaultOpen,
              woke := u.chp.woke, opened := u.chp.opened, faultCause := u.chp.faultCause, bootCnt := u.chp.bootCnt,
              f2cOcc := u.chp.f2cOcc, f2cHwm := u.chp.f2cHwm, f2cStall := u.chp.f2cStall },
          pins := u.pins, hpt := u.hpt, stats := u.stats, win := u.win, ttb := u.ttb, car := u.car, cay := u.cay,
          mdf := u.mdf, kst := u.kst, leg := u.leg, vlt := u.vlt, slc := u.slc, evr := u.evr, rng := u.rng, lat := u.lat,
          bnv := u.bnv, ucp := u.ucp, wld := u.wld, tmp := u.tmp, bbr := u.bbr, lcs := u.lcs, fuses := u.fuses,
          mnf := u.mnf, flash := u.flash, fwu := u.fwu, drb := u.drb, mem := u.mem, gov := u.gov, shown := u.shown } =
      v)) = true := by
  decide +kernel

theorem witness_BootRunsItsSequence_4_1 :
    ([({ pfail := true }, offDue, bootU { pfail := true } offDue)] :
      List (BootEnv × State × State)).all (fun (env, s, u) => decide (
    s.chp.inReset = true ∧
    (decodeLife s.fuses = LifeState.field ∨ decodeLife s.fuses = LifeState.mfg ∨ decodeLife s.fuses = LifeState.return_) ∧
    fuseBoot
        { pending := s.pending, out := s.out, free := s.free, now := s.now, csn := s.csn,
          chp :=
            { mode := s.chp.mode, inReset := false, bootLock := s.chp.bootLock, vaultOpen := s.chp.vaultOpen,
              woke := s.chp.woke, opened := s.chp.opened, faultCause := s.chp.faultCause, bootCnt := s.chp.bootCnt,
              f2cOcc := s.chp.f2cOcc, f2cHwm := s.chp.f2cHwm, f2cStall := s.chp.f2cStall, waitEnv := s.chp.waitEnv },
          pins := { pfail := env.pfail, haClkmode := env.haClkmode, hbClkmode := env.hbClkmode, drbHead := env.drbHead },
          hpt := s.hpt, stats := s.stats, win := s.win, ttb := s.ttb, car := s.car, cay := s.cay, mdf := s.mdf,
          kst := s.kst, leg := s.leg, vlt := s.vlt, slc := s.slc, evr := s.evr, rng := s.rng, lat := s.lat, bnv := s.bnv,
          ucp := s.ucp, wld := s.wld, tmp := s.tmp, bbr := s.bbr, lcs := s.lcs, fuses := s.fuses, mnf := s.mnf,
          flash := s.flash, fwu := s.fwu,
          drb :=
            { head := env.drbHead, state := s.drb.state, timeValid := s.drb.timeValid, addr := s.drb.addr,
              lastE := s.drb.lastE, delay := s.drb.delay, marksRx := s.drb.marksRx, marksMissed := s.drb.marksMissed,
              missRun := s.drb.missRun, crcErr := s.drb.crcErr, steps := s.drb.steps, stepMax := s.drb.stepMax,
              slewLeft := s.drb.slewLeft, halfTick := s.drb.halfTick, cycle := s.drb.cycle, cycleAt := s.drb.cycleAt,
              mark := s.drb.mark, sent := s.drb.sent, joinRefused := s.drb.joinRefused, selIn := env.selIn,
              selOut := s.drb.selOut, members := s.drb.members, offer := s.drb.offer, first := s.drb.first,
              started := s.drb.started, heard := s.drb.heard, join := s.drb.join, joinTry := s.drb.joinTry,
              queue := s.drb.queue },
          mem := s.mem,
          gov :=
            { floor := s.gov.floor, ceil := s.gov.ceil, pwrCap := s.gov.pwrCap, capStep := s.gov.capStep,
              capLimit := s.gov.capLimit, thermStep := s.gov.thermStep, pfail := env.pfail, clampCnt := s.gov.clampCnt,
              clampRecAt := s.gov.clampRecAt, power := s.gov.power, powerMax := s.gov.powerMax, powers := s.gov.powers,
              up := s.gov.up, down := s.gov.down, hold := s.gov.hold, regions := s.gov.regions,
              lowSince := s.gov.lowSince, thermAt := s.gov.thermAt, warmAt := s.gov.warmAt,
              intervalAt := s.gov.intervalAt, avsHold := s.gov.avsHold, dormReady := s.gov.dormReady,
              dormAt := s.gov.dormAt, dormCause := s.gov.dormCause, wakes := s.gov.wakes, dormant := s.gov.dormant },
          shown := s.shown } =
      u ∧
    env.pfail = true ∧
    epochDue s = true)) = true := by
  decide +kernel

theorem witness_BootRunsItsSequence_5 :
    ([off (code 6)] :
      List (State)).all (fun s => decide (
    s.chp.inReset = true)) = true := by
  decide +kernel

theorem witness_FirmwareStagesAndActivates_1_1 :
    ([(.a, fw { len := 65536 })] :
      List (Port × State)).all (fun (p, s) => decide (
    wr p Blk.fwu s = true ∧
    s.fwu.stage ≠ 1 ∧
    actPending s = false ∧
    s.fwu.trial = false ∧
    s.fwu.activating = false ∧
    s.gov.pfail = false ∧
    s.fwu.len ≤ slotLen ∧
    0 < s.fwu.len)) = true := by
  decide +kernel

theorem witness_FirmwareStagesAndActivates_1_2 :
    ([(.a, fw { len := 65536 })] :
      List (Port × State)).all (fun (p, s) => decide (
    wr p Blk.fwu s = true ∧
    s.fwu.stage ≠ 1 ∧
    actPending s = false ∧
    s.fwu.trial = false ∧
    s.fwu.activating = false ∧
    s.gov.pfail = false ∧
    s.fwu.len ≤ 65536 ∧
    0 < s.fwu.len)) = true := by
  decide +kernel

theorem witness_FirmwareStagesAndActivates_2 :
    ([(.a, fw { stage := 1, stageResult := 3 })] :
      List (Port × State)).all (fun (p, s) => decide (
    wr p Blk.fwu s = true ∧
    s.fwu.stage = 1)) = true := by
  decide +kernel

theorem witness_FirmwareStagesAndActivates_3_1 :
    ([(zeros 64, fw { stage := 1, stageData := some (zeros 64), stageLen := 64 })] :
      List (Bytes × State)).all (fun (d, s) => decide (
    live s = true ∧
    s.fwu.stage = 1 ∧
    s.fwu.stageData = some d ∧
    s.gov.pfail = false ∧
    s.fwu.stageTarget = 0)) = true := by
  decide +kernel

theorem witness_FirmwareStagesAndActivates_3_3 :
    ([(zeros 64, fw { stage := 1, stageTarget := 1, stageData := some (zeros 64), stageLen := 64 })] :
      List (Bytes × State)).all (fun (d, s) => decide (
    live s = true ∧
    s.fwu.stage = 1 ∧
    s.fwu.stageData = some d ∧
    s.gov.pfail = false ∧
    s.fwu.stageTarget = 1)) = true := by
  decide +kernel

theorem witness_FirmwareStagesAndActivates_3_2 :
    ([(zeros 64, fw { stage := 1, stageData := some (zeros 64), stageLen := 64 })] :
      List (Bytes × State)).all (fun (d, s) => decide (
    live s = true ∧
    s.fwu.stage = 1 ∧
    s.fwu.stageData = some d ∧
    s.gov.pfail = false ∧
    s.fwu.stageTarget = 0)) = true := by
  decide +kernel

theorem witness_FirmwareStagesAndActivates_3_4 :
    ([(zeros 64, fw { stage := 1, stageTarget := 1, stageData := some (zeros 64), stageLen := 64 })] :
      List (Bytes × State)).all (fun (d, s) => decide (
    live s = true ∧
    s.fwu.stage = 1 ∧
    s.fwu.stageData = some d ∧
    s.gov.pfail = false)) = true := by
  decide +kernel

theorem witness_FirmwareStagesAndActivates_4_2 :
    ([(9, act (zeros 48) { firstMark := some 9 }, seqd (updFwu (fun f => { f with actDone := (act (zeros 48) {}).vlt.img.activation, firstMark := none, actCnt := satInc 16 f.actCnt }) (act (zeros 48) { firstMark := some 9 })))] :
      List (Nat × State × State)).all (fun (mark, s, u) => decide (
    live s = true ∧
    s.chp.vaultOpen = true ∧
    actPending s = true ∧
    s.gov.pfail = false ∧
    s.fwu.firstMark = some mark ∧
    seqd
        (updFwu
          (fun f =>
            { active := f.active, trial := f.trial, fallback := f.fallback, recovery := f.recovery,
              migrating := f.migrating, stage := f.stage, stageResult := f.stageResult, addrLo := f.addrLo,
              addrHi := f.addrHi, len := f.len, stagePort := f.stagePort, stageTarget := f.stageTarget,
              stageLen := f.stageLen, stageData := f.stageData, migFrom := f.migFrom, migTo := f.migTo,
              migPct := f.migPct, migCommits := f.migCommits, vaultFmt := f.vaultFmt, actDone := s.vlt.img.activation,
              actResult := f.actResult, actCnt := satInc 16 f.actCnt, fallbacks := f.fallbacks,
              activating := f.activating, arbDue := f.arbDue, arbAt := f.arbAt, ver := f.ver })
          s) =
      u ∧
    headerDigest (slotImage s s.fwu.active) ≠ sub s.vlt.img.activation 16 48 ∧
    s.fwu.activating = false)) = true := by
  decide +kernel

theorem witness_FirmwareStagesAndActivates_4_1 :
    ([(5, { act (headerDigest (zeros 9)) { firstMark := some 5 } with drb := { mark := 5, cycleAt := 9, state := .locked } }, seqd (updFwu (fun f => { f with actDone := ({ act (headerDigest (zeros 9)) { firstMark := some 5 } with drb := { mark := 5, cycleAt := 9, state := .locked } }).vlt.img.activation, firstMark := none, actCnt := satInc 16 f.actCnt }) ({ act (headerDigest (zeros 9)) { firstMark := some 5 } with drb := { mark := 5, cycleAt := 9, state := .locked } })))] :
      List (Nat × State × State)).all (fun (mark, s, u) => decide (
    live s = true ∧
    s.chp.vaultOpen = true ∧
    actPending s = true ∧
    s.gov.pfail = false ∧
    s.fwu.firstMark = some mark ∧
    seqd
        (updFwu
          (fun f =>
            { active := f.active, trial := f.trial, fallback := f.fallback, recovery := f.recovery,
              migrating := f.migrating, stage := f.stage, stageResult := f.stageResult, addrLo := f.addrLo,
              addrHi := f.addrHi, len := f.len, stagePort := f.stagePort, stageTarget := f.stageTarget,
              stageLen := f.stageLen, stageData := f.stageData, migFrom := f.migFrom, migTo := f.migTo,
              migPct := f.migPct, migCommits := f.migCommits, vaultFmt := f.vaultFmt, actDone := s.vlt.img.activation,
              actResult := f.actResult, actCnt := satInc 16 f.actCnt, fallbacks := f.fallbacks,
              activating := f.activating, arbDue := f.arbDue, arbAt := f.arbAt, ver := f.ver })
          s) =
      u ∧
    headerDigest (slotImage s s.fwu.active) = sub s.vlt.img.activation 16 48 ∧
    (s.fwu.activating = false ∨ s.fwu.migrating = false))) = true := by
  decide +kernel

theorem witness_FirmwareStagesAndActivates_5_1 :
    ([act (zeros 48) { activating := true, trial := true }] :
      List (State)).all (fun s => decide (
    live s = true ∧
    s.chp.vaultOpen = true ∧
    s.fwu.activating = true ∧
    s.gov.pfail = false ∧
    s.wld.secure.state = WorldState.running ∧
    s.wld.normal.state = WorldState.running ∧
    s.fwu.arbAt = none ∧
    s.fwu.migrating = false)) = true := by
  decide +kernel

theorem witness_FirmwareStagesAndActivates_5_2 :
    ([act (zeros 48) { activating := true, trial := true, migrating := true }] :
      List (State)).all (fun s => decide (
    live s = true ∧
    s.chp.vaultOpen = true ∧
    s.fwu.activating = true ∧
    s.gov.pfail = false ∧
    s.wld.secure.state = WorldState.running ∧
    s.wld.normal.state = WorldState.running ∧
    s.fwu.arbAt = none ∧
    s.fwu.migrating = true ∧
    migFree s = true)) = true := by
  decide +kernel

theorem witness_FirmwareStagesAndActivates_7_1 :
    ([failW 0] :
      List (State)).all (fun s => decide (
    live s = true ∧
    s.fwu.activating = true ∧
    (s.wld.secure.state = WorldState.failed ∨ s.wld.normal.state = WorldState.failed) ∧
    s.fwu.migCommits = 0 ∧
    s.gov.pfail = false)) = true := by
  decide +kernel

theorem witness_FirmwareStagesAndActivates_7_2 :
    ([failW 1] :
      List (State)).all (fun s => decide (
    live s = true ∧
    s.fwu.activating = true ∧
    (s.wld.secure.state = WorldState.failed ∨ s.wld.normal.state = WorldState.failed) ∧
    0 < s.fwu.migCommits)) = true := by
  decide +kernel

theorem witness_FirmwareStagesAndActivates_6 :
    ([(0, arbW)] :
      List (Nat × State)).all (fun (at_, s) => decide (
    live s = true ∧
    s.fwu.arbAt = some at_ ∧
    at_ + 2100 ≤ s.now)) = true := by
  decide +kernel

theorem witness_DrawbarMemberFollowsItsHead_1_1 :
    ([(fAss, parsed fAss, drb { selIn := true })] :
      List (Bytes × Frame × State)).all (fun (b, x, s) => decide (
    live s = true ∧
    s.drb.head = false ∧
    readFrame b = some x ∧
    x.src = 1 ∧
    x.type = 2 ∧
    List.length x.body = 4 ∧
    x.dest = 0 ∧
    s.drb.selIn = true ∧
    s.drb.addr = 0 ∧
    2 ≤ fld x.body 0 1 ∧
    fld x.body 0 1 ≤ 126)) = true := by
  decide +kernel

theorem witness_DrawbarMemberFollowsItsHead_1_2 :
    ([(fDel, parsed fDel, drb mem3)] :
      List (Bytes × Frame × State)).all (fun (b, x, s) => decide (
    live s = true ∧
    s.drb.head = false ∧
    readFrame b = some x ∧
    x.src = 1 ∧
    x.type = 4 ∧
    List.length x.body = 4 ∧
    s.drb.addr ≠ 0 ∧
    x.dest = s.drb.addr)) = true := by
  decide +kernel

/-- What a RELEASE of this unit reads as. -/
def relF : Frame := { type := 7, dest := 127, src := 1, body := unitId16 }
theorem fRel_read : readFrame fRel = some relF :=
  readFrame_frameBytes 7 127 1 16 unitId16 rfl (by decide) (by decide) (Nat.le_of_eq (padTo_length _ _))
theorem relF_me : isMe (fld relF.body 0 16) = true := by
  have h : fld relF.body 0 16 = leNat unitId16 := by
    show leNat ((unitId16.drop 0).take 16) = _
    rw [List.drop_zero, List.take_of_length_le (l := unitId16) (Nat.le_of_eq (padTo_length _ _))]
  rw [isMe, h, beq_self_eq_true]

theorem witness_DrawbarMemberFollowsItsHead_1_3 : ∃ (b : Bytes) (x : Frame) (s : State), live s = true ∧
    s.drb.head = false ∧
    readFrame b = some x ∧
    x.src = 1 ∧
    x.type = 7 ∧
    List.length x.body = 16 ∧
    isMe (fld x.body 0 16) = true ∧
    s.drb.addr ≠ 0 :=
  ⟨fRel, relF, drb mem3,
    by decide, by decide, fRel_read, by decide, by decide, by show unitId16.length = 16; exact padTo_length _ _, relF_me, by decide⟩

theorem witness_DrawbarMemberFollowsItsHead_1_4 :
    ([(fClr, parsed fClr, drb mem3)] :
      List (Bytes × Frame × State)).all (fun (b, x, s) => decide (
    live s = true ∧
    s.drb.head = false ∧
    readFrame b = some x ∧
    x.src = 1 ∧
    x.type = 8 ∧
    List.length x.body = 0 ∧
    s.drb.addr ≠ 0)) = true := by
  decide +kernel

theorem witness_DrawbarMemberFollowsItsHead_1_5 :
    ([(fTim 1000000, parsed (fTim 1000000), drb mem3, 0),
      (fTim 9000000, parsed (fTim 9000000), drb mem3, 8000000),
      (fTim 999000, parsed (fTim 999000), drb mem3, -1000)] :
      List (Bytes × Frame × State × Int)).all (fun (b, x, s, e) => decide (
    live s = true ∧
    s.drb.head = false ∧
    readFrame b = some x ∧
    x.src = 1 ∧
    x.type = 1 ∧
    List.length x.body = 12 ∧
    e = ↑(fld x.body 0 8) + ↑((s.drb.delay + 500) / 1000) - ↑s.now)) = true := by
  decide +kernel

theorem witness_DrawbarMemberFollowsItsHead_2 :
    ([drb { mem3 with state := .slewing }] :
      List (State)).all (fun s => decide (
    live s = true ∧
    s.drb.state = DrbState.slewing ∧
    s.drb.slewLeft = 0)) = true := by
  decide +kernel

theorem witness_DrawbarMemberFollowsItsHead_3 :
    ([drb { mem3 with cycleAt := 996500 }] :
      List (State)).all (fun s => decide (
    live s = true ∧
    s.drb.head = false ∧
    s.drb.state ≠ DrbState.headLost ∧
    3 ≤ missedSince s)) = true := by
  decide +kernel

theorem witness_DrawbarMemberFollowsItsHead_4_1 :
    ([drb { mem3 with cycleAt := 999700 },
      drb { mem3 with addr := 2, cycleAt := 999800 }] :
      List (State)).all (fun s => decide (
    live s = true ∧
    s.drb.head = false ∧
    (s.drb.state = DrbState.locked ∨ s.drb.state = DrbState.slewing) ∧
    s.drb.sent = false ∧
    2 ≤ s.drb.addr ∧
    (s.drb.cycle + (s.now - s.drb.cycleAt) / 1000) % 100 = (s.drb.addr - 2) / 2 ∧
    200 + 100 * ((s.drb.addr - 2) % 2) ≤ (s.now - s.drb.cycleAt) % 1000 ∧
    (s.now - s.drb.cycleAt) % 1000 < 200 + 100 * ((s.drb.addr - 2) % 2) + 100)) = true := by
  decide +kernel

theorem join_slot : joinSlot 0 < 8 := Nat.mod_lt _ (by decide)

theorem witness_DrawbarMemberFollowsItsHead_4_2 : ∃ (s : State), live s = true ∧
    s.drb.head = false ∧
    (s.drb.state = DrbState.locked ∨ s.drb.state = DrbState.slewing) ∧
    s.drb.sent = false ∧
    s.drb.selIn = true ∧
    s.drb.addr = 0 ∧
    (s.drb.cycle + (s.now - s.drb.cycleAt) / 1000) % 100 = 99 ∧
    200 + 40 * joinSlot s.drb.joinTry ≤ (s.now - s.drb.cycleAt) % 1000 ∧
    (s.now - s.drb.cycleAt) % 1000 < 200 + 40 * joinSlot s.drb.joinTry + 40 :=
  ⟨drb { mem3 with addr := 0, selIn := true, cycle := 99, cycleAt := 999800 - 40 * joinSlot 0 },
    by decide, by decide, by decide, by decide, by decide, by decide, by show (99 + (1000000 - (999800 - 40 * joinSlot 0)) / 1000) % 100 = 99; have := join_slot; omega, by show 200 + 40 * joinSlot 0 ≤ (1000000 - (999800 - 40 * joinSlot 0)) % 1000; have := join_slot; omega, by show (1000000 - (999800 - 40 * joinSlot 0)) % 1000 < 200 + 40 * joinSlot 0 + 40; have := join_slot; omega⟩

theorem witness_DrawbarHeadKeepsItsTable_1 :
    ([hd {}] :
      List (State)).all (fun s => decide (
    tablesOk s = true ∧
    live s = true ∧
    s.drb.head = true ∧
    s.drb.started = false ∧
    s.drb.state ≠ DrbState.conflict ∧
    drbServed s = true)) = true := by
  decide +kernel

theorem witness_DrawbarHeadKeepsItsTable_2_1 :
    ([(.a, drb mem3)] :
      List (Port × State)).all (fun (p, s) => decide (
    wr p Blk.drb s = true ∧
    s.drb.head = false)) = true := by
  decide +kernel

theorem witness_DrawbarHeadKeepsItsTable_2_2 :
    ([(.a, drb hRun)] :
      List (Port × State)).all (fun (p, s) => decide (
    wr p Blk.drb s = true ∧
    headRuns s = true ∧
    s.drb.first = false)) = true := by
  decide +kernel

theorem witness_DrawbarHeadKeepsItsTable_2_3 :
    ([(.a, drb { hRun with state := .enumerating, first := true })] :
      List (Port × State)).all (fun (p, s) => decide (
    wr p Blk.drb s = true ∧
    headRuns s = true ∧
    s.drb.first = true)) = true := by
  decide +kernel

theorem witness_DrawbarHeadKeepsItsTable_3_1_1 :
    ([(drb hRun, markBarrier (drb hRun).now (drb hRun))] :
      List (State × State)).all (fun (s, m) => decide (
    headRuns s = true ∧
    s.drb.first = false ∧
    s.now % 1000 = 0 ∧
    s.drb.cycleAt < s.now ∧
    markBarrier s.now s = m ∧
    (s.drb.join = none ∨ s.drb.offer ≠ none ∨ drbServed s = false ∨ s.drb.queue ≠ []))) = true := by
  decide +kernel

theorem witness_DrawbarHeadKeepsItsTable_3_1_2 :
    ([(drb { hRun with join := some 5 }, markBarrier (drb { hRun with join := some 5 }).now (drb { hRun with join := some 5 }), 5)] :
      List (State × State × Nat)).all (fun (s, m, a) => decide (
    headRuns s = true ∧
    s.drb.first = false ∧
    s.now % 1000 = 0 ∧
    s.drb.cycleAt < s.now ∧
    markBarrier s.now s = m ∧
    s.drb.join = some a ∧
    s.drb.offer = none ∧
    drbServed s = true ∧
    s.drb.queue = [])) = true := by
  decide +kernel

theorem witness_DrawbarHeadKeepsItsTable_3_2_1 :
    ([(drb { hRun with offer := some (5, 1, 999980) }, 5, 1, 999980)] :
      List (State × Nat × Nat × Nat)).all (fun (s, a, misses, at_) => decide (
    headRuns s = true ∧
    s.drb.first = false ∧
    s.drb.offer = some (a, misses, at_) ∧
    drbServed s = true ∧
    at_ + 20 ≤ s.now ∧
    misses < 2)) = true := by
  decide +kernel

theorem witness_DrawbarHeadKeepsItsTable_3_2_3 :
    ([(drb { hRun with offer := some (5, 2, 999980) }, 5, 2, 999980)] :
      List (State × Nat × Nat × Nat)).all (fun (s, a, misses, at_) => decide (
    headRuns s = true ∧
    s.drb.first = false ∧
    s.drb.offer = some (a, misses, at_) ∧
    drbServed s = true ∧
    at_ + 20 ≤ s.now ∧
    2 ≤ misses ∧
    s.drb.state = DrbState.locked)) = true := by
  decide +kernel

theorem witness_DrawbarHeadKeepsItsTable_3_2_2 :
    ([(drb { hRun with state := .enumerating, offer := some (5, 2, 999980) }, 5, 2, 999980)] :
      List (State × Nat × Nat × Nat)).all (fun (s, a, misses, at_) => decide (
    headRuns s = true ∧
    s.drb.first = false ∧
    s.drb.offer = some (a, misses, at_) ∧
    drbServed s = true ∧
    at_ + 20 ≤ s.now ∧
    2 ≤ misses ∧
    s.drb.state = DrbState.enumerating)) = true := by
  decide +kernel

theorem witness_DrawbarHeadKeepsItsTable_4_1 :
    ([(fRep 5, parsed (fRep 5), drb { hRun with offer := some (5, 1, 999980) })] :
      List (Bytes × Frame × State)).all (fun (b, x, s) => decide (
    headRuns s = true ∧
    drbServed s = true ∧
    readFrame b = some x ∧
    x.type = 3 ∧
    List.length x.body = 28 ∧
    x.dest = 1 ∧
    Option.map (fun x => x.fst) s.drb.offer = some x.src ∧
    s.drb.first = false ∧
    s.drb.state = DrbState.locked ∧
    addrOfId s (fld x.body 0 16) = none ∧
    (memberOf s x.src).state ≠ 2)) = true := by
  decide +kernel

theorem witness_DrawbarHeadKeepsItsTable_4_2 :
    ([(fRep 5, parsed (fRep 5), drb { hRun with offer := some (5, 1, 999980), members := [(9, { state := 1, id := 77 })] }),
      (fRep 5, parsed (fRep 5), drb { hRun with offer := some (5, 1, 999980), members := [(5, { state := 2, id := 78 })] })] :
      List (Bytes × Frame × State)).all (fun (b, x, s) => decide (
    headRuns s = true ∧
    drbServed s = true ∧
    readFrame b = some x ∧
    x.type = 3 ∧
    List.length x.body = 28 ∧
    x.dest = 1 ∧
    Option.map (fun x => x.fst) s.drb.offer = some x.src ∧
    s.drb.first = false ∧
    s.drb.state = DrbState.locked ∧
    (Option.any (fun y => (memberOf s y).state == 1) (addrOfId s (fld x.body 0 16)) = true ∨
      (memberOf s x.src).state = 2 ∧ (memberOf s x.src).id ≠ fld x.body 0 16))) = true := by
  decide +kernel

theorem witness_DrawbarHeadKeepsItsTable_5_1 :
    ([(fBea 126, parsed (fBea 126), drb { hRun with members := [(126, { state := 2, id := 77, missed := 3 })] })] :
      List (Bytes × Frame × State)).all (fun (b, x, s) => decide (
    headRuns s = true ∧
    readFrame b = some x ∧
    x.type = 5 ∧
    List.length x.body = 20 ∧
    x.dest = 1 ∧
    2 ≤ x.src ∧
    x.src ≤ 126 ∧
    (memberOf s x.src).state ≠ 0 ∧
    (memberOf s x.src).id = fld x.body 0 16)) = true := by
  decide +kernel

theorem witness_DrawbarHeadKeepsItsTable_5_2 :
    ([(fBea 2, parsed (fBea 2), drb hRun)] :
      List (Bytes × Frame × State)).all (fun (b, x, s) => decide (
    headRuns s = true ∧
    readFrame b = some x ∧
    x.type = 5 ∧
    List.length x.body = 20 ∧
    x.dest = 1 ∧
    2 ≤ x.src ∧
    x.src ≤ 126 ∧
    ((memberOf s x.src).state = 0 ∨ (memberOf s x.src).id ≠ fld x.body 0 16) ∧
    s.drb.first = false)) = true := by
  decide +kernel

theorem witness_DrawbarHeadKeepsItsTable_6_1 :
    ([(126, drb { hRun with members := [(126, { state := 1, id := 77, missed := 2, judged := 8 })] }),
      (126, drb { hRun with members := [(126, { state := 1, id := 77, missed := 1, judged := 8 })] })] :
      List (Nat × State)).all (fun (a, s) => decide (
    tablesOk s = true ∧
    headRuns s = true ∧
    s.drb.first = false ∧
    (memberOf s a).state = 1 ∧
    slotEnd a ((memberOf s a).judged + 1) ≤ s.now)) = true := by
  decide +kernel

theorem witness_DrawbarHeadKeepsItsTable_6_2 :
    ([(126, onTime 3600000000 (drb { hRun with members := [(126, { state := 2, id := 77, missed := 3 })] }))] :
      List (Nat × State)).all (fun (a, s) => decide (
    tablesOk s = true ∧
    headRuns s = true ∧
    drbServed s = true ∧
    (memberOf s a).state = 2 ∧
    (memberOf s a).absentAt + 3600000000 ≤ s.now)) = true := by
  decide +kernel

theorem witness_DrawbarHeadKeepsItsTable_7 :
    ([(fFor, parsed fFor, drb hRun)] :
      List (Bytes × Frame × State)).all (fun (b, x, s) => decide (
    live s = true ∧
    s.drb.head = true ∧
    s.drb.state ≠ DrbState.conflict ∧
    readFrame b = some x ∧
    x.src = 1)) = true := by
  decide +kernel

theorem witness_DrawbarHeadKeepsItsTable_8_2 :
    ([(fJoi, parsed fJoi, drb { hRun with cycle := 99 }, 2)] :
      List (Bytes × Frame × State × Nat)).all (fun (b, x, s, a) => decide (
    headRuns s = true ∧
    s.drb.first = false ∧
    readFrame b = some x ∧
    x.type = 6 ∧
    List.length x.body = 16 ∧
    x.src = 0 ∧
    s.drb.cycle = 99 ∧
    lowestFree s = some a ∧
    s.drb.state = DrbState.locked ∧
    s.drb.join = none ∧
    s.drb.offer = none ∧
    drbServed s = true ∧
    addrOfId s (fld x.body 0 16) = none)) = true := by
  decide +kernel

theorem witness_DrawbarHeadKeepsItsTable_8_1 :
    ([(fJoi, parsed fJoi, drb { hRun with cycle := 99, members := fullTab })] :
      List (Bytes × Frame × State)).all (fun (b, x, s) => decide (
    headRuns s = true ∧
    s.drb.first = false ∧
    readFrame b = some x ∧
    x.type = 6 ∧
    List.length x.body = 16 ∧
    x.src = 0 ∧
    s.drb.cycle = 99 ∧
    (memberAddrs.all fun a => (memberOf s a).state != 0) = true)) = true := by
  decide +kernel

theorem witness_MemoryAndGovernorFollowReadings_1 :
    ([(0xFFFFF, true, up),
      (0x15FFFFF, false, up),
      (0xC7FFFF, true, up)] :
      List (Nat × Bool × State)).all (fun (line, mac, s) => decide (
    live s = true ∧
    memRegion line ≠ MemRegion.none ∧
    memRegion line ≠ MemRegion.dormant ∧
    (mac = true → hasMac (memRegion line) = true) ∧
    (memRegion line = MemRegion.rings → isCached s line = false ∧ isPinned (ringOf s line) = false))) = true := by
  decide +kernel

theorem witness_MemoryAndGovernorFollowReadings_2 :
    ([(0x163FFFF, { up with gov := { dormant := true } }),
      (0x1600000, { up with gov := { dormant := true } })] :
      List (Nat × State)).all (fun (line, s) => decide (
    s.gov.dormant = true ∧
    s.chp.inReset = false ∧
    memRegion line = MemRegion.dormant)) = true := by
  decide +kernel

theorem witness_MemoryAndGovernorFollowReadings_3 :
    ([(15, { up with mem := { trained := true } })] :
      List (Nat × State)).all (fun (ch, s) => decide (
    live s = true ∧
    s.mem.trained = true ∧
    ch < 16)) = true := by
  decide +kernel

theorem witness_MemoryAndGovernorFollowReadings_4 :
    ([(0, two)] :
      List (Nat × State)).all (fun (line, s) => decide (
    memRegion line = MemRegion.rings ∧
    (isCached s line = true ∨ isPinned (ringOf s line) = true))) = true := by
  decide +kernel

theorem witness_MemoryAndGovernorFollowReadings_5 :
    ([{ up with mem := { cfgErr := true } }] :
      List (State)).all (fun s => decide (
    powered s = true ∧
    inFault s = false ∧
    s.mem.cfgErr = true ∧
    ((s.hpt.get Port.a).ready = true ∨ (s.hpt.get Port.b).ready = true))) = true := by
  decide +kernel

theorem witness_MemoryAndGovernorFollowReadings_6 :
    ([(9000, onTime 100 up, [9000], 9000),
      (3000, { onTime 100 up with gov := { powers := List.replicate 10 1000 } }, 3000 :: List.replicate 9 1000, 1200)] :
      List (Nat × State × (List Nat) × Nat)).all (fun (power, s, l, mean) => decide (
    tablesOk s = true ∧
    live s = true ∧
    s.gov.intervalAt + 100 ≤ s.now ∧
    List.take 10 (power :: s.gov.powers) = l ∧
    l.sum / l.length = mean)) = true := by
  decide +kernel

theorem witness_MemoryAndGovernorFollowReadings_7 :
    ([onTime 10000 up,
      { onTime 100000 up with gov := { thermStep := 3 } },
      { onTime 99999 up with gov := { thermStep := 3 } }] :
      List (State)).all (fun s => decide (
    live s = true)) = true := by
  decide +kernel

theorem witness_MemoryAndGovernorFollowReadings_8_1 :
    ([up] :
      List (State)).all (fun s => decide (
    live s = true ∧
    s.gov.avsHold = false ∧
    Option.all (fun t => decide (t + 1000000 ≤ s.now)) s.gov.clampRecAt = true)) = true := by
  decide +kernel

theorem witness_MemoryAndGovernorFollowReadings_8_2 :
    ([({ onTime 999999 up with gov := { clampRecAt := some 0 } }, 0)] :
      List (State × Nat)).all (fun (s, at_) => decide (
    live s = true ∧
    s.gov.avsHold = false ∧
    s.gov.clampRecAt = some at_ ∧
    s.now < at_ + 1000000)) = true := by
  decide +kernel

theorem witness_MemoryAndGovernorFollowReadings_9_1 :
    ([(2, 6, govUp 5)] :
      List (Nat × Nat × State)).all (fun (r, n, s) => decide (
    tablesOk s = true ∧
    s.gov.avsHold = false ∧
    (govOf s r).step < n)) = true := by
  decide +kernel

theorem witness_MemoryAndGovernorFollowReadings_9_2 :
    ([(2, 4, govUp 5)] :
      List (Nat × Nat × State)).all (fun (r, n, s) => decide (
    tablesOk s = true ∧
    s.gov.avsHold = false ∧
    n < (govOf s r).step)) = true := by
  decide +kernel

theorem witness_MemoryAndGovernorFollowReadings_9_3 :
    ([(2, 0, govUp 7)] :
      List (Nat × Nat × State)).all (fun (r, n, s) => decide (
    tablesOk s = true ∧
    s.gov.avsHold = false ∧
    n ≠ (govOf s r).step)) = true := by
  decide +kernel

theorem witness_DormantAndSupplyKeepWhatTheyMust_1_3 :
    ([(.a, 0x15D, up)] :
      List (Port × Nat × State)).all (fun (p, key, s) => decide (
    wr p Blk.gov s = true ∧
    key % 256 = 93 ∧
    dormRefusal s = 0 ∧
    s.gov.dormReady = false)) = true := by
  decide +kernel

theorem witness_DormantAndSupplyKeepWhatTheyMust_1_1 :
    ([(.a, 0x5C, up)] :
      List (Port × Nat × State)).all (fun (p, key, s) => decide (
    wr p Blk.gov s = true ∧
    key % 256 ≠ 93)) = true := by
  decide +kernel

theorem witness_DormantAndSupplyKeepWhatTheyMust_1_2 :
    ([(.a, 0x5D, shelfAt { state := .awake })] :
      List (Port × Nat × State)).all (fun (p, key, s) => decide (
    wr p Blk.gov s = true ∧
    key % 256 = 93 ∧
    dormRefusal s ≠ 0)) = true := by
  decide +kernel

theorem witness_DormantAndSupplyKeepWhatTheyMust_2 :
    ([dormR true] :
      List (State)).all (fun s => decide (
    live s = true ∧
    s.gov.dormReady = true ∧
    s.gov.dormAt + 10000000 ≤ s.now)) = true := by
  decide +kernel

theorem witness_DormantAndSupplyKeepWhatTheyMust_3 :
    ([{ dormR false with now := 9999999 }] :
      List (State)).all (fun s => decide (
    tablesOk s = true ∧
    live s = true ∧
    s.gov.dormReady = true ∧
    (s.hpt.get Port.a).up = false ∧
    (s.hpt.get Port.b).up = false ∧
    s.gov.pfail = false ∧
    s.now < s.gov.dormAt + 10000000)) = true := by
  decide +kernel

theorem witness_DormantAndSupplyKeepWhatTheyMust_4_1 :
    ([(.b, .wakeFromDormant .b, dormS),
      (.a, .perstDeassert .a, dormS)] :
      List (Port × Instr × State)).all (fun (p, c, s) => decide (
    (c = Instr.wakeFromDormant p ∨ c = Instr.perstDeassert p) ∧
    s.chp.inReset = false ∧
    s.gov.dormant = true ∧
    (s.hpt.get p).perst = true)) = true := by
  decide +kernel

theorem witness_DormantAndSupplyKeepWhatTheyMust_4_3 : ∃ (p : Port) (c : Instr) (s : State) (i : Nat) (x : Slot), (c = Instr.wakeFromDormant p ∨ c = Instr.perstDeassert p) ∧
    s.chp.inReset = false ∧
    s.gov.dormant = true ∧
    (s.hpt.get p).perst = true ∧
    openProps s = [] ∧
    imageOpen s.bbr.dseal s.kst.image = some [(i, x)] ∧
    x.state = SlotState.live :=
  ⟨.b, .wakeFromDormant .b, dormS, 3, (slotAt (slotBytes 3 slA)).2,
    .inl rfl, by decide, by decide, by decide, by decide, imageOpen_imageSeal 5 _ (by decide), by decide +kernel⟩

theorem witness_DormantAndSupplyKeepWhatTheyMust_4_2 :
    ([(.a, .perstDeassert .a, dormX)] :
      List (Port × Instr × State)).all (fun (p, c, s) => decide (
    (c = Instr.wakeFromDormant p ∨ c = Instr.perstDeassert p) ∧
    s.chp.inReset = false ∧
    s.gov.dormant = true ∧
    (s.hpt.get p).perst = true ∧
    openProps s = [] ∧
    imageOpen s.bbr.dseal s.kst.image = none)) = true := by
  decide +kernel

theorem witness_DormantAndSupplyKeepWhatTheyMust_5 :
    ([dormR true,
      pfE] :
      List (State)).all (fun s => decide (
    tablesOk s = true ∧
    s.chp.inReset = false ∧
    s.gov.pfail = false)) = true := by
  decide +kernel

theorem witness_DormantAndSupplyKeepWhatTheyMust_6_1 :
    ([({ up with gov := { pfail := true } }, pfOff { up with gov := { pfail := true } })] :
      List (State × State)).all (fun (s, u) => decide (
    s.chp.inReset = false ∧
    s.gov.pfail = true ∧
    { pending := s.pending, out := s.out, free := s.free, now := s.now, csn := s.csn, chp := s.chp,
        pins := { haClkmode := s.pins.haClkmode, hbClkmode := s.pins.hbClkmode, drbHead := s.pins.drbHead }, hpt := s.hpt,
        stats := s.stats, win := s.win, ttb := s.ttb, car := s.car, cay := s.cay, mdf := s.mdf, kst := s.kst,
        leg := s.leg, vlt := s.vlt, slc := s.slc, evr := s.evr, rng := s.rng, lat := s.lat, bnv := s.bnv, ucp := s.ucp,
        wld := s.wld, tmp := s.tmp, bbr := s.bbr, lcs := s.lcs, fuses := s.fuses, mnf := s.mnf, flash := s.flash,
        fwu := s.fwu, drb := s.drb, mem := s.mem,
        gov :=
          { floor := s.gov.floor, ceil := s.gov.ceil, pwrCap := s.gov.pwrCap, capStep := s.gov.capStep,
            capLimit := s.gov.capLimit, thermStep := s.gov.thermStep, clampCnt := s.gov.clampCnt,
            clampRecAt := s.gov.clampRecAt, power := s.gov.power, powerMax := s.gov.powerMax, powers := s.gov.powers,
            up := s.gov.up, down := s.gov.down, hold := s.gov.hold, regions := s.gov.regions, lowSince := s.gov.lowSince,
            thermAt := s.gov.thermAt, warmAt := s.gov.warmAt, intervalAt := s.gov.intervalAt, avsHold := s.gov.avsHold,
            dormReady := s.gov.dormReady, dormAt := s.gov.dormAt, dormCause := s.gov.dormCause, wakes := s.gov.wakes,
            dormant := s.gov.dormant },
        shown := s.shown } =
      u ∧
    s.chp.waitEnv = none)) = true := by
  decide +kernel

theorem witness_DormantAndSupplyKeepWhatTheyMust_6_2 :
    ([(pfW, pfOff pfW, { pfail := true })] :
      List (State × State × BootEnv)).all (fun (s, u, env) => decide (
    s.chp.inReset = false ∧
    s.gov.pfail = true ∧
    { pending := s.pending, out := s.out, free := s.free, now := s.now, csn := s.csn, chp := s.chp,
        pins := { haClkmode := s.pins.haClkmode, hbClkmode := s.pins.hbClkmode, drbHead := s.pins.drbHead }, hpt := s.hpt,
        stats := s.stats, win := s.win, ttb := s.ttb, car := s.car, cay := s.cay, mdf := s.mdf, kst := s.kst,
        leg := s.leg, vlt := s.vlt, slc := s.slc, evr := s.evr, rng := s.rng, lat := s.lat, bnv := s.bnv, ucp := s.ucp,
        wld := s.wld, tmp := s.tmp, bbr := s.bbr, lcs := s.lcs, fuses := s.fuses, mnf := s.mnf, flash := s.flash,
        fwu := s.fwu, drb := s.drb, mem := s.mem,
        gov :=
          { floor := s.gov.floor, ceil := s.gov.ceil, pwrCap := s.gov.pwrCap, capStep := s.gov.capStep,
            capLimit := s.gov.capLimit, thermStep := s.gov.thermStep, clampCnt := s.gov.clampCnt,
            clampRecAt := s.gov.clampRecAt, power := s.gov.power, powerMax := s.gov.powerMax, powers := s.gov.powers,
            up := s.gov.up, down := s.gov.down, hold := s.gov.hold, regions := s.gov.regions, lowSince := s.gov.lowSince,
            thermAt := s.gov.thermAt, warmAt := s.gov.warmAt, intervalAt := s.gov.intervalAt, avsHold := s.gov.avsHold,
            dormReady := s.gov.dormReady, dormAt := s.gov.dormAt, dormCause := s.gov.dormCause, wakes := s.gov.wakes,
            dormant := s.gov.dormant },
        shown := s.shown } =
      u ∧
    s.chp.waitEnv = some env ∧
    bootStops s = false ∧
    s.chp.mode ≠ Mode.fault)) = true := by
  decide +kernel

theorem witness_DormantAndSupplyKeepWhatTheyMust_7_3 :
    ([{ State.reset with bbr := { share0 := 1, floor := 2, aon := 7 } }] :
      List (State)).all (fun s => decide (
    s.bbr.onVbat = false)) = true := by
  decide +kernel

theorem witness_DormantAndSupplyKeepWhatTheyMust_7_1 :
    ([up] :
      List (State)).all (fun s => decide (
    s.bbr.onVbat = false)) = true := by
  decide +kernel

theorem witness_DormantAndSupplyKeepWhatTheyMust_7_2 :
    ([{ State.reset with bbr := { share0 := 1, onVbat := true, markOk := true } }] :
      List (State)).all (fun s => decide (
    s.bbr.onVbat = true)) = true := by
  decide +kernel

theorem witness_PortsTrainAreLostAndReturn_1 :
    ([(.a, false, 4, 5, portS (fun _ => { perst := false, training := true })),
      (.a, true, 16, 6, portS (fun _ => { perst := false, training := true }))] :
      List (Port × Bool × Nat × Nat × State)).all (fun (p, flit, w, v, s) => decide (
    powered s = true ∧
    (s.hpt.get p).training = true ∧
    (s.hpt.get p).perst = false ∧
    (s.hpt.get p).up = false ∧
    trainsTo flit w v = true)) = true := by
  decide +kernel

theorem witness_PortsTrainAreLostAndReturn_2_1 :
    ([(.a, portS (fun h => { h with ready := false }))] :
      List (Port × State)).all (fun (p, s) => decide (
    powered s = true ∧
    (s.hpt.get p).up = true ∧
    (s.hpt.get p).ready = false ∧
    bootDone s = true ∧
    s.lcs.burning = false ∧
    (s.hpt.get p).lossCnt = 0)) = true := by
  decide +kernel

theorem witness_PortsTrainAreLostAndReturn_2_2 :
    ([(.a, portS (fun h => { h with ready := false, lossCnt := 1 }))] :
      List (Port × State)).all (fun (p, s) => decide (
    powered s = true ∧
    (s.hpt.get p).up = true ∧
    (s.hpt.get p).ready = false ∧
    bootDone s = true ∧
    s.lcs.burning = false ∧
    0 < (s.hpt.get p).lossCnt ∧
    inFault s = false)) = true := by
  decide +kernel

theorem witness_PortsTrainAreLostAndReturn_3 :
    ([(.a, portS (fun _ => {}))] :
      List (Port × State)).all (fun (p, s) => decide (
    s.chp.inReset = false ∧
    s.gov.dormant = false ∧
    (s.hpt.get p).perst = true ∧
    s.chp.waitEnv = none)) = true := by
  decide +kernel

theorem witness_PortsTrainAreLostAndReturn_4 :
    ([(.linkDown .a, .a, .dlDown, held 63 up),
      (.hotReset .a, .a, .hotReset, held 63 up),
      (.linkDisable .a, .a, .linkDisable, held 63 up),
      (.flr .a, .a, .flr, held 63 up),
      (.perstAssert .a, .a, .perst, held 63 up)] :
      List (Instr × Port × LossCause × State)).all (fun (c, p, cause, s) => decide (
    powered s = true ∧
    (s.hpt.get p).up = true ∧
    (c = Instr.linkDown p ∧ cause = LossCause.dlDown ∨
      c = Instr.hotReset p ∧ cause = LossCause.hotReset ∨
        c = Instr.linkDisable p ∧ cause = LossCause.linkDisable ∨
          c = Instr.flr p ∧ cause = LossCause.flr ∨
            c = Instr.perstAssert p ∧ cause = LossCause.perst ∧ (s.hpt.get p).perst = false ∧ s.chp.waitEnv = none))) = true := by
  decide +kernel

theorem witness_PortsTrainAreLostAndReturn_5 :
    ([(.a, { up with gov := { dormant := true } })] :
      List (Port × State)).all (fun (p, s) => decide (
    s.chp.inReset = false ∧
    (s.hpt.get p).perst = false ∧
    s.gov.dormant = true)) = true := by
  decide +kernel

theorem witness_PortsTrainAreLostAndReturn_6 :
    ([busyP] :
      List (State)).all (fun s => decide (
    tablesOk s = true ∧
    inFault s = false)) = true := by
  decide +kernel

theorem witness_PortsTrainAreLostAndReturn_7_2 :
    ([(.a, 4092, up)] :
      List (Port × Nat × State)).all (fun (p, off, s) => decide (
    powered s = true ∧
    (s.hpt.get p).up = true ∧
    off % 4 = 0 ∧
    off < 4096 ∧
    (s.hpt.get p).ready = true)) = true := by
  decide +kernel

theorem witness_PortsTrainAreLostAndReturn_7_1 :
    ([(.a, 4, portS (fun h => { h with ready := false }))] :
      List (Port × Nat × State)).all (fun (p, off, s) => decide (
    powered s = true ∧
    (s.hpt.get p).up = true ∧
    off % 4 = 0 ∧
    off < 4096 ∧
    (s.hpt.get p).ready = false)) = true := by
  decide +kernel

theorem witness_PortsTrainAreLostAndReturn_8_1 :
    ([(.anchor .a, jobOf (.anchor .a) ancP, ancP, zeros 65)] :
      List (DmaRead × ReadJob × State × Bytes)).all (fun (what, j, s, data) => decide (
    readJob s what = some j ∧
    powered s = true ∧
    inFault s = false ∧
    (s.hpt.get j.port).up = true ∧
    readWaits what j.port s = false ∧
    List.length data = j.len)) = true := by
  decide +kernel

theorem witness_PortsTrainAreLostAndReturn_8_2 :
    ([(.anchor .a, jobOf (.anchor .a) ancP, ancP)] :
      List (DmaRead × ReadJob × State)).all (fun (what, j, s) => decide (
    readJob s what = some j ∧
    powered s = true ∧
    inFault s = false ∧
    speculative s what = false)) = true := by
  decide +kernel

theorem witness_PortsTrainAreLostAndReturn_8_3 :
    ([(.anchor .a, jobOf (.anchor .a) ancP, ancP)] :
      List (DmaRead × ReadJob × State)).all (fun (what, j, s) => decide (
    readJob s what = some j ∧
    powered s = true ∧
    inFault s = false ∧
    Machine.held (s.hpt.get j.port) = false)) = true := by
  decide +kernel

theorem witness_PortsTrainAreLostAndReturn_9 :
    ([(0, 0, jobOf (.descriptor 0 0) pref, pref)] :
      List (Nat × Nat × ReadJob × State)).all (fun (sq, pos, j, s) => decide (
    readJob s (DmaRead.descriptor sq pos) = some j ∧
    powered s = true ∧
    inFault s = false ∧
    (tget { } (ringOf s sq).copies pos).final = false)) = true := by
  decide +kernel

theorem witness_PortsTrainAreLostAndReturn_10 :
    ([(zeros 64, fw { stage := 1, stageLen := 64 })] :
      List (Bytes × State)).all (fun (data, s) => decide (
    powered s = true ∧
    inFault s = false ∧
    s.fwu.stage = 1 ∧
    s.fwu.stageData = none ∧
    (s.hpt.get s.fwu.stagePort).up = true ∧
    readWaits DmaRead.stage s.fwu.stagePort s = false ∧
    List.length data = s.fwu.stageLen)) = true := by
  decide +kernel

theorem witness_PortsTrainAreLostAndReturn_12 :
    ([(.b, up)] :
      List (Port × State)).all (fun (p, s) => decide (
    reach p s = true ∧
    inFault s = false)) = true := by
  decide +kernel

theorem witness_PortsTrainAreLostAndReturn_11_1 :
    ([(.a, some 5, .bar0, 0x2018, up),
      (.b, none, .page 8191, 0, up),
      (.a, none, .bar4, 0x10000, up)] :
      List (Port × (Option Nat) × Bar × Nat × State)).all (fun (p, q, bar, off, s) => decide (
    reach p s = true ∧
    inFault s = false ∧
    accepts p q bar off s = false ∧
    reservedAt bar off = false)) = true := by
  decide +kernel

theorem witness_PortsTrainAreLostAndReturn_11_2 :
    ([(.a, none, .page 8192, 0, up)] :
      List (Port × (Option Nat) × Bar × Nat × State)).all (fun (p, q, bar, off, s) => decide (
    reach p s = true ∧
    inFault s = false ∧
    accepts p q bar off s = false ∧
    reservedAt bar off = true)) = true := by
  decide +kernel

theorem witness_PortsTrainAreLostAndReturn_13_2 :
    ([(.b, .bar0, 0x2018, up)] :
      List (Port × Bar × Nat × State)).all (fun (p, bar, off, s) => decide (
    wr p Blk.chp s = true ∧
    bar ≠ Bar.bar4 ∧
    reservedAt bar off = false)) = true := by
  decide +kernel

theorem witness_PortsTrainAreLostAndReturn_13_1 :
    ([(.b, .page 8191, 0x1208, up),
      (.b, .bar0, 0x000C, legLoad 3)] :
      List (Port × Bar × Nat × State)).all (fun (p, bar, off, s) => decide (
    wr p Blk.chp s = true ∧
    bar ≠ Bar.bar4 ∧
    reservedAt bar off = true)) = true := by
  decide +kernel

theorem witness_PortsTrainAreLostAndReturn_6_4 :
    ([(.dlDown, busyP)] :
      List (LossCause × State)).all (fun (cause, s) => decide (
    tablesOk s = true ∧
    inFault s = false ∧
    cause ≠ LossCause.flr)) = true := by
  decide +kernel

theorem witness_PortsTrainAreLostAndReturn_6_5 :
    ([(.flr, busyP)] :
      List (LossCause × State)).all (fun (cause, s) => decide (
    tablesOk s = true ∧
    inFault s = false ∧
    cause = LossCause.flr)) = true := by
  decide +kernel

theorem witness_PortsTrainAreLostAndReturn_14 :
    ([faulted] :
      List (State)).all (fun s => decide (
    inFault s = true)) = true := by
  decide +kernel

theorem witness_RegistersReadAndStore_1 :
    ([(.a, regS)] :
      List (Port × State)).all (fun (p, s) => decide (
    reach p s = true ∧
    s.lcs.state ≠ LifeState.terminal ∧
    inFault s = false)) = true := by
  decide +kernel

theorem witness_RegistersReadAndStore_2 :
    ([(.a, regS)] :
      List (Port × State)).all (fun (p, s) => decide (
    wr p Blk.hpt s = true)) = true := by
  decide +kernel

theorem witness_RegistersReadAndStore_3_2 :
    ([(.a, held 3 up)] :
      List (Port × State)).all (fun (p, s) => decide (
    wr p Blk.mdf s = true ∧
    holds p 3 s = true)) = true := by
  decide +kernel

theorem witness_RegistersReadAndStore_3_3 :
    ([(.b, held 3 up)] :
      List (Port × State)).all (fun (p, s) => decide (
    wr p Blk.mdf s = true ∧
    holds p 3 s = false)) = true := by
  decide +kernel

theorem witness_RegistersReadAndStore_4_2 :
    ([(.a, 60001, up)] :
      List (Port × Nat × State)).all (fun (p, v, s) => decide (
    wr p Blk.car s = true ∧
    60000 < bits (v % 2 ^ 32) 0 16)) = true := by
  decide +kernel

theorem witness_RegistersReadAndStore_4_1 :
    ([(.a, 60000, up)] :
      List (Port × Nat × State)).all (fun (p, v, s) => decide (
    wr p Blk.car s = true ∧
    bits (v % 2 ^ 32) 0 16 ≤ 60000)) = true := by
  decide +kernel

theorem witness_RegistersReadAndStore_5_2 :
    ([(.a, ucpS { holder := some (.port .a) })] :
      List (Port × State)).all (fun (p, s) => decide (
    wr p Blk.ucp s = true ∧
    s.ucp.holder = some (UcpUser.port p))) = true := by
  decide +kernel

theorem witness_RegistersReadAndStore_5_1 :
    ([(.a, ucpS {})] :
      List (Port × State)).all (fun (p, s) => decide (
    wr p Blk.ucp s = true ∧
    s.ucp.holder ≠ some (UcpUser.port p))) = true := by
  decide +kernel

theorem witness_RegistersReadAndStore_6 :
    ([(.a, some 5, .bar0, 0x60008, up),
      (.b, none, .page 5, 0, tenant)] :
      List (Port × (Option Nat) × Bar × Nat × State)).all (fun (p, q, bar, off, s) => decide (
    reach p s = true ∧
    inFault s = false ∧
    off % 4 = 0 ∧
    accepts p q bar off s = false ∧
    reservedAt bar off = false)) = true := by
  decide +kernel

theorem witness_RegistersReadAndStore_7 :
    ([(.bar0, 0x60008, natLe 4 9, natLe 4 7)] :
      List (Bar × Nat × Bytes × Bytes)).all (fun (bar, off, x, y) => decide (
    bar ≠ Bar.bar4 ∧
    off % 4 = 0 ∧
    List.length x = 4 ∧
    List.length y = 4)) = true := by
  decide +kernel

end Sys2Proof.Tests
end

section
/-! SUPPORT. What an interrupt cause, a note to a waiter and a touched legacy load can change: each is the old state with a few
parts replaced. -/
namespace Sys2Proof.Laws

open Sys2Proof.Machine

/-- A fired vector changes the port's statistics and what is sent, and nothing else. -/
theorem msixFire_eq (p : Port) (v : Nat) (s : State) :
    msixFire p v s = { s with stats := (msixFire p v s).stats, out := (msixFire p v s).out } := by
  unfold msixFire
  dsimp only
  split
  · rfl
  · split <;> rfl

/-- An interrupt cause changes the host blocks, their statistics and what is sent, and nothing else. -/
theorem setInt_eq (p : Port) (i : Nat) (s : State) :
    setInt p i s = { s with hpt := (setInt p i s).hpt, stats := (setInt p i s).stats, out := (setInt p i s).out } := by
  unfold setInt
  dsimp only
  split
  · rfl
  · split
    · rw [msixFire_eq]; rfl
    · rfl

/-- A note to a waiter changes the host blocks, their statistics and what is sent, and nothing else. -/
theorem tellWaiter_eq (w : Port) (n : Nat) (s : State) :
    tellWaiter w n s =
      { s with hpt := (tellWaiter w n s).hpt, stats := (tellWaiter w n s).stats, out := (tellWaiter w n s).out } := by
  unfold tellWaiter
  split
  · rfl
  · rw [setInt_eq]; rfl

/-- A note to a waiter leaves the turntables and the CSN. -/
@[simp] theorem tellWaiter_frame (w : Port) (n : Nat) (s : State) :
    (tellWaiter w n s).ttb = s.ttb ∧ (tellWaiter w n s).csn = s.csn := by
  rw [tellWaiter_eq]
  exact ⟨rfl, rfl⟩

/-- An event of the legacy register that raises no interrupt changes that register and the event recorder, and nothing
else. -/
theorem legEvent_eq (code : Nat) (h : code < 7) (s : State) :
    legEvent code s = { s with leg := (legEvent code s).leg, evr := (legEvent code s).evr } := by
  unfold legEvent
  have hc : ¬ (7 ≤ code ∧ code ≤ 10) := by omega
  simp only [Bool.and_eq_true, decide_eq_true_eq, hc, if_false, recordSeq, record, recordAt]
  split <;> rfl

/-- An abandoned load changes the legacy register and the event recorder, and nothing else. -/
theorem legAbandon_eq (code : Nat) (h : code < 7) (s : State) :
    legAbandon code s = { s with leg := (legAbandon code s).leg, evr := (legAbandon code s).evr } := by
  unfold legAbandon
  split
  · rw [legEvent_eq code h]
  · rfl

/-- A BAR0 write that touches a legacy load changes the legacy register and the event recorder, and nothing else (R212). -/
theorem legTouch_eq (p : Port) (s : State) :
    legTouch p s = { s with leg := (legTouch p s).leg, evr := (legTouch p s).evr } := by
  unfold legTouch
  split
  · exact legAbandon_eq 3 (by decide) s
  · split
    · exact legAbandon_eq 2 (by decide) s
    · rfl

/-- A counted write that touches a legacy load leaves the turntables, the CSN, the mode, the time, the carriages and the
keys. -/
@[simp] theorem legTouch_cntWr_frame (p : Port) (s : State) :
    (legTouch p (cntWr p s)).ttb = s.ttb ∧ (legTouch p (cntWr p s)).csn = s.csn ∧
    (legTouch p (cntWr p s)).chp = s.chp ∧ (legTouch p (cntWr p s)).now = s.now ∧
    (legTouch p (cntWr p s)).car = s.car ∧ (legTouch p (cntWr p s)).kst = s.kst := by
  rw [legTouch_eq]
  simp [cntWr]

/-- A counted read leaves the turntables, the CSN, what was sent, the mode, the time, the carriages, the keys, the vault and
the host blocks. -/
@[simp] theorem cntRd_frame (p : Port) (s : State) :
    (cntRd p s).ttb = s.ttb ∧ (cntRd p s).csn = s.csn ∧ (cntRd p s).out = s.out ∧ (cntRd p s).chp = s.chp ∧
    (cntRd p s).now = s.now ∧ (cntRd p s).car = s.car ∧ (cntRd p s).kst = s.kst ∧ (cntRd p s).vlt = s.vlt ∧
    (cntRd p s).hpt = s.hpt := by
  unfold cntRd
  split <;> simp

end Sys2Proof.Laws
end

section
/-! SUPPORT. What the turntable operations do to their turntable, to the others and to the CSN (R58-R63). -/
namespace Sys2Proof.Laws

open Sys2Proof.Machine Sys2Proof.Safety

/-- A register write that reaches its block finds the port in reach and the device outside FAULT. -/
theorem wr_live {p : Port} {b : Blk} {s : State} (h : wr p b s = true) : reach p s = true ∧ inFault s = false := by
  simp only [wr, Bool.and_eq_true, Bool.not_eq_true'] at h
  obtain ⟨⟨⟨hr, -⟩, hF⟩, -⟩ := h
  exact ⟨hr, hF⟩

/-- Equal turntable blocks show equal turntables. -/
theorem tableOf_congr {s t : State} (h : t.ttb = s.ttb) (n : Nat) : tableOf t n = tableOf s n := by
  rw [tableOf, tableOf, h]

/-- A counted read leaves every turntable. -/
@[simp] theorem tableOf_cntRd (p : Port) (n : Nat) (s : State) : tableOf (cntRd p s) n = tableOf s n :=
  tableOf_congr (by simp) n

/-- A counted write that touches a legacy load leaves every turntable. -/
@[simp] theorem tableOf_legTouch_cntWr (p : Port) (n : Nat) (s : State) :
    tableOf (legTouch p (cntWr p s)) n = tableOf s n :=
  tableOf_congr (by simp) n

/-- A counted read leaves FAULT as it is. -/
@[simp] theorem inFault_cntRd (p : Port) (s : State) : inFault (cntRd p s) = inFault s := by simp [inFault]

/-- A counted write that touches a legacy load leaves FAULT as it is. -/
@[simp] theorem inFault_legTouch_cntWr (p : Port) (s : State) : inFault (legTouch p (cntWr p s)) = inFault s := by
  simp [inFault]

/-- An answer leaves every turntable. -/
@[simp] theorem tableOf_answer (p : Port) (v n : Nat) (s : State) : tableOf (answer p v s) n = tableOf s n := rfl

/-- A sequenced action leaves the turntables. -/
theorem seqd_ttb (s : State) : (seqd s).ttb = s.ttb := by simp

/-- A state whose turntable block is that of a change of turntable `n` shows the change there and every other turntable as it
was. -/
theorem tableOf_of_updTable {n : Nat} {f : Turntable → Turntable} {s t : State} (hw : twf {} s.ttb.tables = true)
    (ht : t.ttb = (updTable n f s).ttb) :
    tableOf t n = f (tableOf s n) ∧ ∀ m, m ≠ n → tableOf t m = tableOf s m :=
  ⟨(tableOf_congr ht n).trans (tableOf_updTable n f s hw),
    fun m hm => (tableOf_congr ht m).trans (tableOf_updTable_ne n m f s hm)⟩

/-- A change of a turntable depends on the turntable block alone. -/
theorem updTable_ttb_congr {s t : State} (h : t.ttb = s.ttb) (n : Nat) (f : Turntable → Turntable) :
    (updTable n f t).ttb = (updTable n f s).ttb := by
  simp only [updTable, updTtb_ttb, h]

/-- Turntable `n` is free, held by `p`, or held by the other port. -/
theorem holder_cases (p : Port) (n : Nat) (s : State) :
    (tableOf s n).holder = none ∨ (tableOf s n).holder = some p ∨ (tableOf s n).holder = some p.other := by
  cases (tableOf s n).holder with
  | none => exact .inl rfl
  | some h => cases h <;> cases p <;> simp [Port.other]

/-- A sequenced change of turntable `n` shows the change there at one CSN, and every other turntable as it was. -/
theorem seqd_updTable_effect (n : Nat) (f : Turntable → Turntable) {s : State} (hw : twf {} s.ttb.tables = true)
    (hF : inFault s = false) :
    tableOf (seqd (updTable n f s)) n = f (tableOf s n) ∧ (seqd (updTable n f s)).csn = s.csn + 1 ∧
    ∀ m, m ≠ n → tableOf (seqd (updTable n f s)) m = tableOf s m := by
  obtain ⟨ht, hm⟩ := tableOf_of_updTable hw (seqd_ttb (updTable n f s))
  exact ⟨ht, seqd_csn (updTable n f s) hF, hm⟩

/-! ### Reads of TTB_ACQ (R59) -/

/-- A grant writes the holder, the next ticket and the lease into its turntable alone, at one CSN. -/
theorem takeTable_grants (p : Port) (n : Nat) {s : State} (hw : twf {} s.ttb.tables = true) (hF : inFault s = false) :
    tableOf (takeTable p n s) n = { tableOf s n with
      holder := some p, waiter := false, forced := false, grants := ticketNext (tableOf s n).grants
      leaseLen := (tableOf s n).lease, leaseFrom := s.now } ∧
    (takeTable p n s).csn = s.csn + 1 ∧ ∀ m, m ≠ n → tableOf (takeTable p n s) m = tableOf s m :=
  seqd_updTable_effect n _ hw hF

/-- A grant leaves what was sent, the carriages, the keys, the vault and the host blocks. -/
@[simp] theorem takeTable_frame (p : Port) (n : Nat) (s : State) :
    (takeTable p n s).out = s.out ∧ (takeTable p n s).car = s.car ∧ (takeTable p n s).kst = s.kst ∧
    (takeTable p n s).vlt = s.vlt ∧ (takeTable p n s).hpt = s.hpt := by
  simp [takeTable]

/-- A read of a free turntable takes it and answers the grant word with the next ticket. -/
theorem execTtbAcquire_free {p : Port} {n : Nat} {s : State} (hw : twf {} s.ttb.tables = true) (hwr : wr p .ttb s = true)
    (hn : n < 64) (hf : (tableOf s n).holder = none) :
    execTtbAcquire p n s =
      .next (answer p (grantWord p (ticketNext (tableOf s n).grants)) (takeTable p n (cntRd p s))) := by
  obtain ⟨hr, hF⟩ := wr_live hwr
  have ht := (takeTable_grants p n (s := cntRd p s) (by simpa using hw) (by simpa using hF)).1
  simp [execTtbAcquire, rdLive, hr, hwr, Nat.not_le.mpr hn, hf, ht]

/-- A read by the holder answers 0. -/
theorem execTtbAcquire_own {p : Port} {n : Nat} {s : State} (hwr : wr p .ttb s = true)
    (hf : (tableOf s n).holder = some p) : execTtbAcquire p n s = .next (answer p 0 (cntRd p s)) := by
  simp [execTtbAcquire, rdLive, wr_live hwr, hwr, hf]

/-- A read by the other port answers 0 and notes the waiter. -/
theorem execTtbAcquire_other {p : Port} {n : Nat} {s : State} (hwr : wr p .ttb s = true) (hn : n < 64)
    (hf : (tableOf s n).holder = some p.other) :
    execTtbAcquire p n s = .next (answer p 0 (updTable n (fun t => { t with waiter := true }) (cntRd p s))) := by
  simp [execTtbAcquire, rdLive, wr_live hwr, hwr, Nat.not_le.mpr hn, hf]

/-! ### The lease register (R58) -/

/-- TTB_LEASE_n lies in the turntable block. -/
theorem placeOf_ttbLease {n : Nat} (hn : n < 64) :
    placeOf (0x1000 + 16 * n + 12) = some { blk := .ttb, off := 16 * n + 12 } := by
  have hb : barBlock (0x1000 + 16 * n + 12) = some { blk := .ttb, off := 16 * n + 12 } := by
    rw [barBlock, if_neg (by omega), if_pos (by omega)]
    simp
    omega
  have hd : isDefined { blk := .ttb, off := 16 * n + 12 } = true := by
    simp [isDefined, among, fieldRanges]
    omega
  rw [placeOf, hb, Option.filter_some, if_pos hd]

/-- The place of TTB_LEASE_n names turntable `n`. -/
theorem ttbLease_off {n : Nat} (hn : n < 64) :
    16 * n + 12 < 0x400 ∧ (16 * n + 12) % 16 = 12 ∧ (16 * n + 12) / 16 = n := by
  omega

/-- A write of TTB_LEASE_n has no row of its own. -/
theorem actPlace_ttbLease (p : Port) {n : Nat} (hn : n < 64) (v : Nat) (s : State) :
    actPlace p { blk := .ttb, off := 16 * n + 12 } v s = none := by
  simp [actPlace, ttbLease_off hn]

/-- A write of TTB_LEASE_n stores the lease of the next grant; more than 60,000 stores 60,000. -/
theorem storePlace_ttbLease (p : Port) {n : Nat} (hn : n < 64) (v : Nat) (s : State) :
    storePlace p { blk := .ttb, off := 16 * n + 12 } (v % 2 ^ 32) s =
      .sets (updTable n (fun t => { t with lease := min 60000 (v % 2 ^ 16) }) s) := by
  have hv : bits (v % 2 ^ 32) 0 16 = v % 2 ^ 16 := by simp [bits]
  simp only [storePlace, storeTtb, ttbLease_off hn, hv, decide_true, beq_self_eq_true, Bool.and_self, if_true]

/-- A manager's write of TTB_LEASE_n changes the turntable block by its store alone. -/
theorem execRegisterWrite_ttbLease {p : Port} {n : Nat} (v : Nat) {s : State} (hwr : wr p .ttb s = true) (hn : n < 64) :
    ∃ t, execRegisterWrite p none ⟨.bar0, 0x1000 + 16 * n + 12⟩ (.word v) s = .next t ∧
      t.ttb = (updTable n (fun x => { x with lease := min 60000 (v % 2 ^ 16) }) s).ttb := by
  have hp := placeOf_ttbLease hn
  obtain ⟨hr, -⟩ := wr_live hwr
  have ha : (0x1000 + 16 * n + 12) % 4 = 0 := by omega
  have hw : writeWord p none .bar0 (0x1000 + 16 * n + 12) v s = writeBar0 p (0x1000 + 16 * n + 12) (v % 2 ^ 32) s := by
    simp [writeWord, hr, ha, reservedAt, hp, accepts]
  have he := execRegisterWrite_word p none ⟨.bar0, 0x1000 + 16 * n + 12⟩ v s
  simp only [hw, writeBar0, hp, actPlace_ttbLease p hn, storePlace_ttbLease p hn, stored, onlyIf, hwr, if_true] at he
  exact ⟨_, he, by simpa only [seqIf_frame] using updTable_ttb_congr (by simp) n _⟩

/-! ### Renewal and release (R60, R61) -/

/-- The ticket is right where the port holds the turntable and writes its ticket. -/
theorem ticketOk_iff (p : Port) (n v : Nat) (s : State) :
    ticketOk p n v s = true ↔ (tableOf s n).holder = some p ∧ v % 2 ^ 16 = (tableOf s n).grants := by
  simp [ticketOk, holds]

/-- A counted write that touches a legacy load leaves which tickets are right. -/
@[simp] theorem ticketOk_legTouch_cntWr (p q : Port) (n v : Nat) (s : State) :
    ticketOk q n v (legTouch p (cntWr p s)) = ticketOk q n v s := by
  simp [ticketOk, holds]

/-- A write of TTB_ACQ_n renews with the right ticket, and is counted as bad otherwise. -/
theorem execTtbRenew_eq {p : Port} {n : Nat} (v : Nat) {s : State} (hwr : wr p .ttb s = true) (hn : n < 64) :
    execTtbRenew p n v s =
      if ticketOk p n v s then
        .next (seqd (updTable n (fun t => { t with leaseFrom := s.now }) (legTouch p (cntWr p s))))
      else .next (badRelease p (legTouch p (cntWr p s))) := by
  simp [execTtbRenew, hwr, Nat.not_le.mpr hn]

/-- A write of TTB_REL_n releases with the right ticket, and is counted as bad otherwise. -/
theorem execTtbRelease_eq {p : Port} {n : Nat} (v : Nat) {s : State} (hwr : wr p .ttb s = true) (hn : n < 64) :
    execTtbRelease p n v s =
      if ticketOk p n v s then .next (dropTable n false (legTouch p (cntWr p s)))
      else .next (badRelease p (legTouch p (cntWr p s))) := by
  simp [execTtbRelease, hwr, Nat.not_le.mpr hn]

/-- Where a lease has ended its turntable is released by force. -/
theorem execTtbLeaseExpiry_ended {n : Nat} {s : State} {h : Port} (hp : powered s = true) (hF : inFault s = false)
    (hh : (tableOf s n).holder = some h) (hl : (tableOf s n).leaseLen ≠ 0)
    (ht : s.now ≥ (tableOf s n).leaseFrom + 1000 * (tableOf s n).leaseLen) :
    execTtbLeaseExpiry n s = .next (dropTable n true s) := by
  simp [execTtbLeaseExpiry, onlyIf, hp, hF, hh, hl, ht]

/-- A release that erases no legacy key changes the turntable block by its turntable's release alone, at one CSN. -/
theorem dropTable_ttb_csn {n : Nat} {forced : Bool} {s : State} {h : Port} (hh : (tableOf s n).holder = some h)
    (he : (forced && n == 0) = false) (hF : inFault s = false) :
    (dropTable n forced s).ttb =
        (updTable n (fun t => { t with holder := none, forced := forced, leaseLen := 0, leaseFrom := 0 }) s).ttb ∧
      (dropTable n forced s).csn = s.csn + 1 := by
  have hc := seqd_csn (updTable n (fun t => { t with
    holder := none, forced := forced, leaseLen := 0, leaseFrom := 0 }) s) hF
  simp only [dropTable, hh, he, Bool.false_eq_true, if_false]
  split
  · simp only [tellWaiter_frame]
    exact ⟨seqd_ttb _, hc⟩
  · exact ⟨seqd_ttb _, hc⟩

/-- A release that erases no legacy key frees its turntable, ends its lease and leaves the other turntables, at one CSN. -/
theorem dropTable_releases {n : Nat} {forced : Bool} {s : State} {h : Port} (hw : twf {} s.ttb.tables = true)
    (hh : (tableOf s n).holder = some h) (he : (forced && n == 0) = false) (hF : inFault s = false) :
    tableOf (dropTable n forced s) n =
        { tableOf s n with holder := none, forced := forced, leaseLen := 0, leaseFrom := 0 } ∧
      (dropTable n forced s).csn = s.csn + 1 ∧ ∀ m, m ≠ n → tableOf (dropTable n forced s) m = tableOf s m := by
  obtain ⟨ht, hc⟩ := dropTable_ttb_csn hh he hF
  obtain ⟨hn, hm⟩ := tableOf_of_updTable hw ht
  exact ⟨hn, hc, hm⟩

/-- A bad release or renewal is counted for its port, and changes no turntable, no CSN, no carriage and no key. -/
theorem badRelease_counts (p : Port) (s : State) :
    (badRelease p s).ttb.tables = s.ttb.tables ∧
      (badRelease p s).ttb.badRel.get p = satInc 16 (s.ttb.badRel.get p) ∧
      (badRelease p s).ttb.badRel.get p.other = s.ttb.badRel.get p.other ∧
      (badRelease p s).csn = s.csn ∧ (badRelease p s).car = s.car ∧ (badRelease p s).kst = s.kst := by
  simp [badRelease]

end Sys2Proof.Laws
end

section
/-! PROOFS. The turntables' grants, renewals, releases and lease ends (03_host_ports_and_turntables.md). -/
namespace Sys2Proof.Proofs

open Sys2Proof.Machine Sys2Proof.Safety Sys2Proof.Laws

/-- Settles O12: a read splits by who holds the turntable, and its outcome in each case is one of three known states; a write
of TTB_LEASE_n stores the lease alone. -/
theorem turntableReadGrantsOrWaits : Obligations.TurntableReadGrantsOrWaits := by
  unfold Obligations.TurntableReadGrantsOrWaits
  intro p n s hok hwr hn
  obtain ⟨hw, -⟩ := tablesOk_parts s hok
  obtain ⟨-, hF⟩ := wr_live hwr
  have hwR : twf {} (cntRd p s).ttb.tables = true := by simpa using hw
  have hne : p ≠ p.other := (other_ne p).symm
  refine ⟨?_, fun v => ?_⟩
  · rcases holder_cases p n s with hf | hf | hf
    · obtain ⟨ht, hc, hm⟩ := takeTable_grants p n hwR (by simpa using hF)
      simp only [tableOf_cntRd, cntRd_frame] at ht hc hm
      exact ⟨_, execTtbAcquire_free hw hwr hn hf, hm, by simp, by simp, by simp, by simp,
        fun _ => ⟨ht, hc, by simp only [answer_out, takeTable_frame, cntRd_frame, grantWord]⟩, by simp [hf], by simp [hf]⟩
    · exact ⟨_, execTtbAcquire_own hwr hf, by simp [hf, hne]⟩
    · obtain ⟨ht, hm⟩ := tableOf_of_updTable (n := n) (f := fun t => { t with waiter := true }) hwR rfl
      simp only [tableOf_cntRd] at ht hm
      exact ⟨_, execTtbAcquire_other hwr hn hf, by simpa [hf, hne.symm, ht] using hm⟩
  · obtain ⟨t, he, ht⟩ := execRegisterWrite_ttbLease v hwr hn
    exact ⟨t, he, tableOf_of_updTable hw ht⟩

/-- Settles O13: a right ticket renews or releases, the end of a lease releases by force, and any other write is counted. -/
theorem turntableRenewalReleaseAndExpiry : Obligations.TurntableRenewalReleaseAndExpiry := by
  unfold Obligations.TurntableRenewalReleaseAndExpiry
  refine ⟨fun p n v s hok hwr hn hh hv => ?_, fun n s hok hpow hF hh hl ht => ?_, fun p n v s hwr hn hbad c hc => ?_⟩
  · obtain ⟨hw, -⟩ := tablesOk_parts s hok
    obtain ⟨-, hF⟩ := wr_live hwr
    have hk := (ticketOk_iff p n v s).mpr ⟨hh, hv⟩
    have hwW : twf {} (legTouch p (cntWr p s)).ttb.tables = true := by simpa using hw
    have hFW : inFault (legTouch p (cntWr p s)) = false := by simpa using hF
    have hhW : (tableOf (legTouch p (cntWr p s)) n).holder = some p := by simpa using hh
    refine ⟨?_, ?_⟩
    · exact ⟨_, (execTtbRenew_eq v hwr hn).trans (if_pos hk), by simpa using seqd_updTable_effect n _ hwW hFW⟩
    · exact ⟨_, (execTtbRelease_eq v hwr hn).trans (if_pos hk),
        by simpa using dropTable_releases (forced := false) hwW hhW rfl hFW⟩
  · obtain ⟨hw, -⟩ := tablesOk_parts s hok
    obtain ⟨h, hh⟩ := Option.isSome_iff_exists.mp hh
    refine ⟨_, execTtbLeaseExpiry_ended hpow hF hh hl ht, rfl, fun h0 => ?_⟩
    obtain ⟨hn, hc, -⟩ := dropTable_releases (forced := true) hw hh (by simpa using h0) hF
    exact ⟨hn, hc⟩
  · have hk := mt (ticketOk_iff p n v s).mp hbad
    have hb := badRelease_counts p (legTouch p (cntWr p s))
    simp only [legTouch_cntWr_frame] at hb
    rcases hc with rfl | rfl
    · exact ⟨_, (execTtbRenew_eq v hwr hn).trans (if_neg hk), hb⟩
    · exact ⟨_, (execTtbRelease_eq v hwr hn).trans (if_neg hk), hb⟩

end Sys2Proof.Proofs
end

section
/-! SUPPORT. Every command answers a next state: no meaning faults and none is refused (log entry 1). -/
namespace Sys2Proof.Laws

open Sys2Proof.Machine

/-- The command answers a next state: it neither faults nor is refused. -/
def Goes (x : Res) : Prop := ∃ t, x = .next t

/-- Where a register write has a row of its own, that row answers a next state. -/
def GoesOpt (x : Option Res) : Prop := ∀ r, x = some r → Goes r

theorem goes_next (t : State) : Goes (.next t) := ⟨t, rfl⟩

theorem goes_onlyIf (g : Bool) (s t : State) : Goes (onlyIf g s t) := ⟨_, rfl⟩

theorem goes_ite {c : Prop} [Decidable c] {a b : Res} (ha : Goes a) (hb : Goes b) : Goes (if c then a else b) := by
  split <;> assumption

theorem goesOpt_none : GoesOpt none := by simp [GoesOpt]

theorem goesOpt_some {x : Res} (h : Goes x) : GoesOpt (some x) := by
  intro r e
  cases e
  exact h

/-! ### The commands with more than one outcome -/

theorem legGuarded_goes (p : Port) (s : State) (f : State → State) : Goes (legGuarded p s f) := by
  unfold legGuarded
  repeat' (first | exact goes_next _ | exact goes_onlyIf .. | split)

theorem rsCommand_goes (p : Port) (sl : Option Nat) (ring : Nat) (check : Nat → State → Nat)
    (act : Nat → State → State) (s : State) : Goes (rsCommand p sl ring check act s) := by
  unfold rsCommand
  repeat' (first | exact goes_next _ | exact goes_onlyIf .. | split)

theorem abortWrite_goes (p : Port) (sl : Option Nat) (ring : Nat) (useCookie : Bool) (s : State) :
    Goes (abortWrite p sl ring useCookie s) := by
  unfold abortWrite
  repeat' (first | exact goes_next _ | exact goes_onlyIf .. | split)

theorem doorbellWrite_goes (p : Port) (sl : Option Nat) (ring value : Nat) (cq : Bool) (s : State) :
    Goes (doorbellWrite p sl ring value cq s) := by
  unfold doorbellWrite
  repeat' (first | exact goes_next _ | exact goes_onlyIf .. | split)

theorem execContextLoad_goes (ring : Nat) (macOk : Bool) (s : State) : Goes (execContextLoad ring macOk s) := by
  unfold execContextLoad
  repeat' (first | exact goes_next _ | exact goes_onlyIf .. | split)

theorem execSqEntryTake_goes (sq : Nat) (s : State) : Goes (execSqEntryTake sq s) := by
  unfold execSqEntryTake
  refine goes_ite (goes_next _) ?_
  split
  · exact goes_ite (goes_onlyIf ..) (goes_ite (goes_next _) (goes_next _))
  · exact goes_next _
  · exact goes_next _

theorem execAdmission_goes (tag : Nat) (s : State) : Goes (execAdmission tag s) := by
  unfold execAdmission
  repeat' (first | exact goes_next _ | exact goes_onlyIf .. | split | dsimp only)

theorem execLegacyAdmit_goes (s : State) : Goes (execLegacyAdmit s) := by
  unfold execLegacyAdmit
  repeat' (first | exact goes_next _ | exact goes_onlyIf .. | split)

theorem execOrderedCompletion_goes (tag : Nat) (s : State) : Goes (execOrderedCompletion tag s) := by
  unfold execOrderedCompletion
  repeat' (first | exact goes_next _ | exact goes_onlyIf .. | split | dsimp only)

theorem execTtbAcquire_goes (p : Port) (n : Nat) (s : State) : Goes (execTtbAcquire p n s) := by
  unfold execTtbAcquire
  repeat' (first | exact goes_next _ | exact goes_onlyIf .. | split)

theorem execTtbRenew_goes (p : Port) (n value : Nat) (s : State) : Goes (execTtbRenew p n value s) := by
  unfold execTtbRenew
  repeat' (first | exact goes_next _ | exact goes_onlyIf .. | split | dsimp only)

theorem execTtbRelease_goes (p : Port) (n value : Nat) (s : State) : Goes (execTtbRelease p n value s) := by
  unfold execTtbRelease
  repeat' (first | exact goes_next _ | exact goes_onlyIf .. | split | dsimp only)

theorem rngCtl_goes (p : Port) (s : State) (f : State → State) : Goes (rngCtl p s f) := by
  unfold rngCtl
  repeat' (first | exact goes_next _ | exact goes_onlyIf .. | split)

theorem execRestart_goes (p : Port) (s : State) : Goes (execRestart p s) := by
  unfold execRestart
  repeat' (first | exact goes_next _ | exact goes_onlyIf .. | split)

theorem execKat_goes (p : Port) (pass : Bool) (s : State) : Goes (execKat p pass s) := by
  unfold execKat
  repeat' (first | exact goes_next _ | exact goes_onlyIf .. | exact rngCtl_goes .. | split)

theorem execHealthWindowEnd_goes (cell : Nat) (samples : List Bool) (s : State) :
    Goes (execHealthWindowEnd cell samples s) := by
  unfold execHealthWindowEnd
  repeat' (first | exact goes_next _ | exact goes_onlyIf .. | split | dsimp only)

theorem execRngWaitExpiry_goes (s : State) : Goes (execRngWaitExpiry s) := by
  unfold execRngWaitExpiry
  repeat' (first | exact goes_next _ | exact goes_onlyIf .. | split)

theorem execMaskReserveRefill_goes (s : State) : Goes (execMaskReserveRefill s) := by
  unfold execMaskReserveRefill
  repeat' (first | exact goes_next _ | exact goes_onlyIf .. | split)

theorem latRow_goes (p : Port) (op : Nat) (s : State) : Goes (latRow p op s) := by
  unfold latRow
  repeat' (first | exact goes_next _ | exact goes_onlyIf .. | split)

theorem execLatAbort_goes (p : Port) (s : State) : Goes (execLatAbort p s) := by
  unfold execLatAbort
  repeat' (first | exact goes_next _ | exact goes_onlyIf .. | split)

theorem ancCmd_goes (p : Port) (s : State) (f : AncBlk → State → State) : Goes (ancCmd p s f) := by
  unfold ancCmd
  repeat' (first | exact goes_next _ | exact goes_onlyIf .. | split)

theorem chanRow_goes (p : Port) (op : Nat) (s : State) : Goes (chanRow p op s) := by
  unfold chanRow
  repeat' (first | exact goes_next _ | exact goes_onlyIf .. | split)

theorem execBnvAbort_goes (p : Port) (s : State) : Goes (execBnvAbort p s) := by
  unfold execBnvAbort
  repeat' (first | exact goes_next _ | exact goes_onlyIf .. | split)

theorem execOperandAccess_goes (p : Port) (off : Nat) (enables : List Bool) (write : Option (List (Option Byte)))
    (s : State) : Goes (execOperandAccess p off enables write s) := by
  unfold execOperandAccess
  refine goes_ite (goes_next _) (goes_ite (goes_next _) (goes_ite (goes_next _) ?_))
  split
  · exact goes_next _
  · exact goes_next _

theorem execVerifySignature_goes (tag : Nat) (s : State) : Goes (execVerifySignature tag s) := by
  unfold execVerifySignature
  repeat' (first | exact goes_next _ | exact goes_onlyIf .. | split | dsimp only)

theorem execBnvOpDone_goes (channel : Nat) (s : State) : Goes (execBnvOpDone channel s) := by
  unfold execBnvOpDone
  repeat' (first | exact goes_next _ | exact goes_onlyIf .. | split)

theorem execUcpLockAcquire_goes (u : UcpUser) (s : State) : Goes (execUcpLockAcquire u s) := by
  unfold execUcpLockAcquire
  repeat' (first | exact goes_next _ | exact goes_onlyIf .. | split)

theorem execUcpLockRelease_goes (u : UcpUser) (value : Nat) (s : State) : Goes (execUcpLockRelease u value s) := by
  unfold execUcpLockRelease
  repeat' (first | exact goes_next _ | exact goes_onlyIf .. | split)

theorem ucpRow_goes (u : UcpCmd) (op : Nat) (s : State) : Goes (ucpRow u op s) := by
  unfold ucpRow
  repeat' (first | exact goes_next _ | exact goes_onlyIf .. | split)

theorem execUcpOpDone_goes (s : State) : Goes (execUcpOpDone s) := by
  unfold execUcpOpDone
  repeat' (first | exact goes_next _ | exact goes_onlyIf .. | split | dsimp only)

theorem execKeyLoadTicket_goes (tag : Nat) (s : State) : Goes (execKeyLoadTicket tag s) := by
  unfold execKeyLoadTicket
  repeat' (first | exact goes_next _ | exact goes_onlyIf .. | split | dsimp only)

theorem execKeyReleaseSlot_goes (tag : Nat) (s : State) : Goes (execKeyReleaseSlot tag s) := by
  unfold execKeyReleaseSlot
  repeat' (first | exact goes_next _ | exact goes_onlyIf .. | split | dsimp only)

theorem execSealObject_goes (tag : Nat) (s : State) : Goes (execSealObject tag s) := by
  unfold execSealObject
  repeat' (first | exact goes_next _ | exact goes_onlyIf .. | split | dsimp only)

theorem execKeyImport_goes (tag : Nat) (s : State) : Goes (execKeyImport tag s) := by
  unfold execKeyImport
  repeat' (first | exact goes_next _ | exact goes_onlyIf .. | split | dsimp only)

theorem execAttest_goes (tag : Nat) (s : State) : Goes (execAttest tag s) := by
  unfold execAttest
  repeat' (first | exact goes_next _ | exact goes_onlyIf .. | split | dsimp only)

theorem execReplGo_goes (p : Port) (s : State) : Goes (execReplGo p s) := by
  unfold execReplGo
  repeat' (first | exact goes_next _ | exact goes_onlyIf .. | split)

theorem execTicketKeyExpiry_goes (tag : Nat) (s : State) : Goes (execTicketKeyExpiry tag s) := by
  unfold execTicketKeyExpiry
  repeat' (first | exact goes_next _ | exact goes_onlyIf .. | split | dsimp only)

theorem execSpeculativeUnwrap_goes (sq pos : Nat) (ticket : Bytes) (s : State) :
    Goes (execSpeculativeUnwrap sq pos ticket s) := by
  unfold execSpeculativeUnwrap
  repeat' (first | exact goes_next _ | exact goes_onlyIf .. | split | dsimp only)

theorem trainRow_goes (t op : Nat) (s : State) : Goes (trainRow t op s) := by
  unfold trainRow
  repeat' (first | exact goes_next _ | exact goes_onlyIf .. | split)

theorem execSegmentStart_goes (tag seg block cell release : Nat) (s : State) :
    Goes (execSegmentStart tag seg block cell release s) := by
  unfold execSegmentStart
  repeat' (first | exact goes_next _ | exact goes_onlyIf .. | split | dsimp only)

theorem execSegmentVerdict_goes (tag seg : Nat) (s : State) : Goes (execSegmentVerdict tag seg s) := by
  unfold execSegmentVerdict
  repeat' (first | exact goes_next _ | exact goes_onlyIf .. | split | dsimp only)

theorem execSegmentEncrypted_goes (tag seg : Nat) (s : State) : Goes (execSegmentEncrypted tag seg s) := by
  unfold execSegmentEncrypted
  repeat' (first | exact goes_next _ | exact goes_onlyIf .. | split | dsimp only)

theorem legacyRow_goes (t op : Nat) (f : Nat → State → State) (s : State) : Goes (legacyRow t op f s) := by
  unfold legacyRow
  repeat' (first | exact goes_next _ | exact goes_onlyIf .. | split)

theorem execKeyStagingLoad_goes (region block tag : Nat) (dst : Bool) (s : State) :
    Goes (execKeyStagingLoad region block tag dst s) := by
  unfold execKeyStagingLoad
  repeat' (first | exact goes_next _ | exact goes_onlyIf .. | split | dsimp only)

theorem execCellParityError_goes (region block cell newBlock newCell : Nat) (s : State) :
    Goes (execCellParityError region block cell newBlock newCell s) := by
  unfold execCellParityError
  repeat' (first | exact goes_next _ | exact goes_onlyIf .. | split | dsimp only)

theorem execD2dUndeliverable_goes (region : Nat) (s : State) : Goes (execD2dUndeliverable region s) := by
  unfold execD2dUndeliverable
  repeat' (first | exact goes_next _ | exact goes_onlyIf .. | split)

theorem execStragglerSpill_goes (drive granules : Nat) (s : State) : Goes (execStragglerSpill drive granules s) := by
  unfold execStragglerSpill
  repeat' (first | exact goes_next _ | exact goes_onlyIf .. | split | dsimp only)

theorem sbRow_goes (op : SbOp) (l : Nat) (resp : Option Bytes) (s : State) : Goes (sbRow op l resp s) := by
  unfold sbRow
  repeat' (exact goes_next _)

theorem execReadClkreq_goes (link : Nat) (resp : Option Bytes) (s : State) : Goes (execReadClkreq link resp s) := by
  unfold execReadClkreq
  repeat' (first | exact goes_next _ | exact goes_onlyIf .. | exact sbRow_goes .. | split)

theorem execSidebandRetry_goes (link : Nat) (resp : Option Bytes) (s : State) :
    Goes (execSidebandRetry link resp s) := by
  unfold execSidebandRetry
  repeat' (first | exact goes_next _ | exact goes_onlyIf .. | split | dsimp only)

theorem execShelfWake_goes (tag : Nat) (s : State) : Goes (execShelfWake tag s) := by
  unfold execShelfWake
  repeat' (first | exact goes_next _ | exact goes_onlyIf .. | split | dsimp only)

theorem execShelfWakeBegin_goes (shelf : Nat) (s : State) : Goes (execShelfWakeBegin shelf s) := by
  unfold execShelfWakeBegin
  repeat' (first | exact goes_next _ | exact goes_onlyIf .. | split)

theorem execGroupRelease_goes (shelf : Nat) (s : State) : Goes (execGroupRelease shelf s) := by
  unfold execGroupRelease
  repeat' (first | exact goes_next _ | exact goes_onlyIf .. | split | dsimp only)

theorem execShelfSleep_goes (tag : Nat) (s : State) : Goes (execShelfSleep tag s) := by
  unfold execShelfSleep
  repeat' (first | exact goes_next _ | exact goes_onlyIf .. | split | dsimp only)

theorem execDriveShutdownDone_goes (drive : Nat) (reported : Bool) (s : State) :
    Goes (execDriveShutdownDone drive reported s) := by
  unfold execDriveShutdownDone
  repeat' (first | exact goes_next _ | exact goes_onlyIf .. | split | dsimp only)

theorem execDriveInit_goes (drive : Nat) (report : InitReport) (s : State) : Goes (execDriveInit drive report s) := by
  unfold execDriveInit
  repeat' (first | exact goes_next _ | exact goes_onlyIf .. | split | dsimp only)

theorem execL12Exit_goes (drive : Nat) (s : State) : Goes (execL12Exit drive s) := by
  unfold execL12Exit
  repeat' (first | exact goes_next _ | exact goes_onlyIf .. | split | dsimp only)

theorem execDriveAdmin_goes (tag : Nat) (s : State) : Goes (execDriveAdmin tag s) := by
  unfold execDriveAdmin
  repeat' (first | exact goes_next _ | exact goes_onlyIf .. | split)

theorem execNvmeCompletion_goes (drive cid status dword0 : Nat) (ret : NvReturn) (s : State) :
    Goes (execNvmeCompletion drive cid status dword0 ret s) := by
  unfold execNvmeCompletion
  repeat' (first | exact goes_next _ | exact goes_onlyIf .. | split | dsimp only)

theorem execNvmeAbortTimeout_goes (drive cid : Nat) (s : State) : Goes (execNvmeAbortTimeout drive cid s) := by
  unfold execNvmeAbortTimeout
  repeat' (first | exact goes_next _ | exact goes_onlyIf .. | split | dsimp only)

theorem execControllerReset_goes (drive : Nat) (cfs : Bool) (report : Option InitReport) (s : State) :
    Goes (execControllerReset drive cfs report s) := by
  unfold execControllerReset
  repeat' (first | exact goes_next _ | exact goes_onlyIf .. | split | dsimp only)

theorem execDriveDmaBlocked_goes (drive : Nat) (cid : Option Nat) (s : State) :
    Goes (execDriveDmaBlocked drive cid s) := by
  unfold execDriveDmaBlocked
  repeat' (first | exact goes_next _ | exact goes_onlyIf .. | split | dsimp only)

theorem execDriveLinkRetrained_goes (drive speed : Nat) (s : State) :
    Goes (execDriveLinkRetrained drive speed s) := by
  unfold execDriveLinkRetrained
  repeat' (first | exact goes_next _ | exact goes_onlyIf .. | split | dsimp only)

theorem execDriveRetrainTimeout_goes (drive : Nat) (s : State) : Goes (execDriveRetrainTimeout drive s) := by
  unfold execDriveRetrainTimeout
  repeat' (first | exact goes_next _ | exact goes_onlyIf .. | split)

theorem execAsyncEvent_goes (drive dword0 : Nat) (s : State) : Goes (execAsyncEvent drive dword0 s) := by
  unfold execAsyncEvent
  repeat' (first | exact goes_next _ | exact goes_onlyIf .. | split)

theorem execD2dRetrainTimeout_goes (region : Nat) (s : State) : Goes (execD2dRetrainTimeout region s) := by
  unfold execD2dRetrainTimeout
  repeat' (first | exact goes_next _ | exact goes_onlyIf .. | split)

theorem slcCommand_goes (p : Port) (n most : Nat) (check : State → Nat) (act : State → State) (s : State) :
    Goes (slcCommand p n most check act s) := by
  unfold slcCommand
  repeat' (first | exact goes_next _ | exact goes_onlyIf .. | split)

theorem execBind_goes (p : Port) (slice : Nat) (s : State) : Goes (execBind p slice s) := by
  unfold execBind
  repeat' (first | exact goes_next _ | exact goes_onlyIf .. | split)

theorem execUnbind_goes (p : Port) (slice : Nat) (s : State) : Goes (execUnbind p slice s) := by
  unfold execUnbind
  repeat' (first | exact goes_next _ | exact goes_onlyIf .. | split)

theorem execQuery_goes (p : Port) (s : State) : Goes (execQuery p s) := by
  unfold execQuery
  repeat' (first | exact goes_next _ | exact goes_onlyIf .. | split)

theorem tenantMbxWrite_goes (p : Port) (slice : Nat) (os : List MbxOp) (s : State) :
    Goes (tenantMbxWrite p slice os s) := by
  unfold tenantMbxWrite
  repeat' (first | exact goes_next _ | exact goes_onlyIf .. | split | dsimp only)

theorem managerMbxWrite_goes (p : Port) (os : List MbxOp) (s : State) : Goes (managerMbxWrite p os s) := by
  unfold managerMbxWrite
  repeat' (exact goes_next _)

theorem execFreezeDrainDone_goes (slice : Nat) (s : State) : Goes (execFreezeDrainDone slice s) := by
  unfold execFreezeDrainDone
  repeat' (first | exact goes_next _ | exact goes_onlyIf .. | split | dsimp only)

theorem execSliceSave_goes (tag : Nat) (s : State) : Goes (execSliceSave tag s) := by
  unfold execSliceSave
  refine goes_ite (goes_next _) (goes_ite (goes_next _) (goes_ite (goes_next _) (goes_ite (goes_next _) ?_)))
  split
  · exact goes_next _
  · exact goes_ite (goes_next _) (goes_next _)

theorem execSliceRestore_goes (tag : Nat) (s : State) : Goes (execSliceRestore tag s) := by
  unfold execSliceRestore
  repeat' (first | exact goes_next _ | exact goes_onlyIf .. | split | dsimp only)

theorem execFlush_goes (p : Port) (s : State) : Goes (execFlush p s) := by
  unfold execFlush
  repeat' (first | exact goes_next _ | exact goes_onlyIf .. | split)

theorem execCursor_goes (p : Port) (seq : Nat) (s : State) : Goes (execCursor p seq s) := by
  unfold execCursor
  repeat' (first | exact goes_next _ | exact goes_onlyIf .. | split)

theorem execDbgGo_goes (p : Port) (scope : Nat) (s : State) : Goes (execDbgGo p scope s) := by
  unfold execDbgGo
  repeat' (exact goes_next _)

theorem execRespGo_goes (p : Port) (s : State) : Goes (execRespGo p s) := by
  unfold execRespGo
  repeat' (exact goes_next _)

theorem execLatticeOpDone_goes (s : State) : Goes (execLatticeOpDone s) := by
  unfold execLatticeOpDone
  repeat' (first | exact goes_next _ | exact goes_onlyIf .. | split)

theorem execPropose_goes (tag : Nat) (s : State) : Goes (execPropose tag s) := by
  unfold execPropose
  repeat' (first | exact goes_next _ | exact goes_onlyIf .. | split | dsimp only)

theorem execApprove_goes (tag : Nat) (s : State) : Goes (execApprove tag s) := by
  unfold execApprove
  repeat' (first | exact goes_next _ | exact goes_onlyIf .. | split | dsimp only)

theorem execVaultCommit_goes (proposal : Nat) (a b void : ProgResult) (s : State) :
    Goes (execVaultCommit proposal a b void s) := by
  unfold execVaultCommit
  repeat' (first | exact goes_next _ | exact goes_onlyIf .. | split)

theorem execSourceInactive_goes (source : Nat) (cls : AlarmClass) (s : State) :
    Goes (execSourceInactive source cls s) := by
  unfold execSourceInactive
  repeat' (first | exact goes_next _ | exact goes_onlyIf .. | split)

theorem execTmpResume_goes (p : Port) (s : State) : Goes (execTmpResume p s) := by
  unfold execTmpResume
  repeat' (exact goes_next _)

theorem execStageImage_goes (p : Port) (s : State) : Goes (execStageImage p s) := by
  unfold execStageImage
  repeat' (exact goes_next _)

theorem execStageManifest_goes (p : Port) (s : State) : Goes (execStageManifest p s) := by
  unfold execStageManifest
  repeat' (exact goes_next _)

theorem execStageAbort_goes (p : Port) (s : State) : Goes (execStageAbort p s) := by
  unfold execStageAbort
  repeat' (exact goes_next _)

theorem execActivationConfirm_goes (s : State) : Goes (execActivationConfirm s) := by
  unfold execActivationConfirm
  repeat' (first | exact goes_next _ | exact goes_onlyIf .. | split)

theorem onFrame_goes (b : Bytes) (type : Nat) (ok : Frame → Bool) (f : Frame → State → State) (s : State) :
    Goes (onFrame b type ok f s) := by
  unfold onFrame
  repeat' (exact goes_next _)

theorem execReenum_goes (p : Port) (s : State) : Goes (execReenum p s) := by
  unfold execReenum
  repeat' (exact goes_next _)

theorem execAssignTimeout_goes (s : State) : Goes (execAssignTimeout s) := by
  unfold execAssignTimeout
  repeat' (first | exact goes_next _ | exact goes_onlyIf .. | split)

theorem execBeacon_goes (frame : Option Bytes) (s : State) : Goes (execBeacon frame s) := by
  unfold execBeacon
  repeat' (first | exact goes_next _ | exact goes_onlyIf .. | exact onFrame_goes .. | split)

theorem execJoinReq_goes (frame : Option Bytes) (s : State) : Goes (execJoinReq frame s) := by
  unfold execJoinReq
  repeat' (first | exact goes_next _ | exact goes_onlyIf .. | exact onFrame_goes .. | split)

theorem execGovDorm_goes (p : Port) (key : Nat) (s : State) : Goes (execGovDorm p key s) := by
  unfold execGovDorm
  repeat' (exact goes_next _)

theorem execWakeFromDormant_goes (p : Port) (s : State) : Goes (execWakeFromDormant p s) := by
  unfold execWakeFromDormant
  repeat' (exact goes_next _)

theorem execPerstDeassert_goes (p : Port) (s : State) : Goes (execPerstDeassert p s) := by
  unfold execPerstDeassert
  repeat' (first | exact goes_next _ | exact goes_onlyIf .. | exact execWakeFromDormant_goes .. | split)

theorem execHostDmaReadDone_goes (what : DmaRead) (data : Bytes) (s : State) :
    Goes (execHostDmaReadDone what data s) := by
  unfold execHostDmaReadDone
  repeat' (first | exact goes_next _ | exact goes_onlyIf .. | split)

theorem execDmaReadError_goes (what : DmaRead) (s : State) : Goes (execDmaReadError what s) := by
  unfold execDmaReadError
  repeat' (first | exact goes_next _ | exact goes_onlyIf .. | split)

theorem execRequestTooLong_goes (p : Port) (read : Bool) (s : State) : Goes (execRequestTooLong p read s) := by
  unfold execRequestTooLong
  repeat' (exact goes_next _)

theorem execPartialWrite_goes (p : Port) (place : BarPlace) (s : State) : Goes (execPartialWrite p place s) := by
  unfold execPartialWrite
  repeat' (exact goes_next _)

theorem readWord_goes (p : Port) (pasid : Option Nat) (bar : Bar) (off : Nat) (s : State) :
    Goes (readWord p pasid bar off s) := by
  unfold readWord
  repeat' (first | exact goes_next _ | exact goes_onlyIf .. | exact execTtbAcquire_goes ..
                 | exact execOperandAccess_goes .. | exact execUcpLockAcquire_goes .. | split)

/-- Accesses made in turn answer a next state where each of them does. -/
theorem inTurn_goes {α : Type} {f : α → State → Res} (hf : ∀ x s, Goes (f x s)) (l : List α) (s : State) :
    Goes (inTurn f l s) := by
  induction l generalizing s with
  | nil => exact goes_next s
  | cons x l ih =>
    obtain ⟨t, ht⟩ := hf x s
    simpa only [inTurn, ht] using ih t

theorem readEnabled_goes (p : Port) (pasid : Option Nat) (bar : Bar) (x : Nat × List Bool) (s : State) :
    Goes (readEnabled p pasid bar x s) := by
  unfold readEnabled
  repeat' (first | exact goes_next _ | exact goes_onlyIf .. | exact readWord_goes .. | split)

theorem execRcRead_goes (p : Port) (pasid : Option Nat) (req : RegRead) (s : State) :
    Goes (execRcRead p pasid req s) := by
  unfold execRcRead
  repeat' (first | exact execOperandAccess_goes .. | exact execRequestTooLong_goes .. | exact readWord_goes ..
                 | exact inTurn_goes (readEnabled_goes _ _ _) _ _ | split)

theorem execLatchedLoRead_goes (p : Port) (off : Nat) (s : State) : Goes (execLatchedLoRead p off s) := by
  unfold execLatchedLoRead
  repeat' (first | exact goes_next _ | exact goes_onlyIf .. | split)

theorem execHptIntStatClear_goes (p : Port) (value : Nat) (s : State) : Goes (execHptIntStatClear p value s) := by
  unfold execHptIntStatClear
  repeat' (exact goes_next _)

theorem wrote_goes (p : Port) (b : Blk) (f : State → State) (s : State) : Goes (wrote p b f s) := by
  unfold wrote
  repeat' (exact goes_next _)

theorem rsCmdWrite_goes (p : Port) (sl : Option Nat) (v : Nat) (s : State) : Goes (rsCmdWrite p sl v s) := by
  unfold rsCmdWrite
  repeat' (first | exact goes_next _ | exact goes_onlyIf .. | exact rsCommand_goes .. | exact wrote_goes .. | split)

theorem abortCmdWrite_goes (p : Port) (sl : Option Nat) (v : Nat) (s : State) : Goes (abortCmdWrite p sl v s) := by
  unfold abortCmdWrite
  repeat' (first | exact goes_next _ | exact goes_onlyIf .. | exact abortWrite_goes .. | exact wrote_goes .. | split)

theorem dbWrite_goes (p : Port) (sl : Option Nat) (j v : Nat) (s : State) : Goes (dbWrite p sl j v s) := by
  unfold dbWrite
  repeat' (first | exact goes_next _ | exact goes_onlyIf .. | exact doorbellWrite_goes .. | split)

theorem actCar_goes (p : Port) (off v : Nat) (s : State) : GoesOpt (actCar p off v s) := by
  unfold actCar
  repeat' (first | exact goesOpt_none | exact rsCmdWrite_goes .. | exact abortCmdWrite_goes .. | exact dbWrite_goes ..
                 | refine goesOpt_some ?_ | exact goes_next _ | split)

theorem actSlc_goes (p : Port) (off v : Nat) (s : State) : GoesOpt (actSlc p off v s) := by
  unfold actSlc
  repeat' (first | exact goesOpt_none | exact slcCommand_goes .. | exact execBind_goes .. | exact execUnbind_goes ..
                 | exact execQuery_goes .. | exact managerMbxWrite_goes .. | exact wrote_goes ..
                 | refine goesOpt_some ?_ | exact goes_next _ | split)

theorem actKst_goes (p : Port) (off v : Nat) (s : State) : GoesOpt (actKst p off v s) := by
  unfold actKst
  repeat' (first | exact goesOpt_none | exact legGuarded_goes .. | exact execReplGo_goes .. | exact wrote_goes ..
                 | refine goesOpt_some ?_ | exact goes_next _ | split)

theorem actEngine_goes (p : Port) (b : Blk) (off v : Nat) (s : State) : GoesOpt (actEngine p b off v s) := by
  unfold actEngine
  repeat' (first | exact goesOpt_none | exact latRow_goes .. | exact execLatAbort_goes .. | exact ancCmd_goes ..
                 | exact chanRow_goes .. | exact execBnvAbort_goes .. | exact execUcpLockRelease_goes ..
                 | exact ucpRow_goes .. | exact wrote_goes .. | refine goesOpt_some ?_ | exact goes_next _ | split)

theorem actRest_goes (p : Port) (b : Blk) (off v : Nat) (s : State) : GoesOpt (actRest p b off v s) := by
  unfold actRest
  repeat' (first | exact goesOpt_none | exact execFlush_goes .. | exact execCursor_goes .. | exact execDbgGo_goes ..
                 | exact execRespGo_goes .. | exact execTmpResume_goes .. | exact execStageImage_goes ..
                 | exact execStageManifest_goes .. | exact execStageAbort_goes .. | exact execReenum_goes ..
                 | exact execGovDorm_goes .. | exact wrote_goes .. | refine goesOpt_some ?_ | exact goes_next _
                 | split)

theorem actPlace_goes (p : Port) (x : Place) (v : Nat) (s : State) : GoesOpt (actPlace p x v s) := by
  unfold actPlace
  repeat' (first | exact goesOpt_none | exact actCar_goes _ _ _ _ | exact actSlc_goes _ _ _ _
                 | exact actKst_goes _ _ _ _ | exact actEngine_goes _ _ _ _ _ | exact actRest_goes _ _ _ _ _
                 | refine goesOpt_some ?_ | exact execTtbRenew_goes .. | exact execTtbRelease_goes ..
                 | exact execHptIntStatClear_goes .. | split)

theorem writeBar0_goes (p : Port) (off v : Nat) (s : State) : Goes (writeBar0 p off v s) := by
  unfold writeBar0
  repeat' (first | exact goes_next _ | exact goes_onlyIf .. | exact actPlace_goes _ _ _ _ _ ‹_› | split)

theorem writePage_goes (p : Port) (n off v : Nat) (s : State) : Goes (writePage p n off v s) := by
  unfold writePage
  repeat' (first | exact goes_next _ | exact goes_onlyIf .. | exact tenantMbxWrite_goes .. | exact rsCmdWrite_goes ..
                 | exact abortCmdWrite_goes .. | exact dbWrite_goes .. | split)

theorem writeBar4_goes (p : Port) (off v : Nat) (s : State) : Goes (writeBar4 p off v s) := by
  unfold writeBar4
  repeat' (first | exact goes_next _ | exact goes_onlyIf .. | exact execOperandAccess_goes .. | split)

theorem writeWord_goes (p : Port) (pasid : Option Nat) (bar : Bar) (off value : Nat) (s : State) :
    Goes (writeWord p pasid bar off value s) := by
  unfold writeWord
  repeat' (first | exact goes_next _ | exact goes_onlyIf .. | exact writeBar0_goes .. | exact writePage_goes ..
                 | exact writeBar4_goes .. | split)

theorem writeEnabled_goes (p : Port) (pasid : Option Nat) (bar : Bar) (x : Nat × List (Option Byte)) (s : State) :
    Goes (writeEnabled p pasid bar x s) := by
  unfold writeEnabled
  repeat' (first | exact goes_next _ | exact goes_onlyIf .. | exact execPartialWrite_goes .. | exact writeWord_goes ..
                 | split)

theorem execRegisterWrite_goes (p : Port) (pasid : Option Nat) (place : BarPlace) (data : WriteData) (s : State) :
    Goes (execRegisterWrite p pasid place data s) := by
  unfold execRegisterWrite
  repeat' (first | exact execOperandAccess_goes .. | exact execRequestTooLong_goes .. | exact writeWord_goes ..
                 | exact inTurn_goes (writeEnabled_goes _ _ _) _ _ | split | dsimp only)

theorem execLegKey0Write_goes (p : Port) (value : Nat) (s : State) : Goes (execLegKey0Write p value s) :=
  legGuarded_goes _ _ _

theorem execLegKeyWordWrite_goes (p : Port) (n value : Nat) (s : State) : Goes (execLegKeyWordWrite p n value s) :=
  legGuarded_goes _ _ _

theorem execLegCommit_goes (p : Port) (value : Nat) (s : State) : Goes (execLegCommit p value s) :=
  legGuarded_goes _ _ _

theorem execRsRead_goes (p : Port) (slice : Option Nat) (ring : Nat) (s : State) : Goes (execRsRead p slice ring s) :=
  rsCommand_goes _ _ _ _ _ _

theorem execRsWrite_goes (p : Port) (slice : Option Nat) (ring : Nat) (s : State) : Goes (execRsWrite p slice ring s) :=
  rsCommand_goes _ _ _ _ _ _

theorem execRsEnable_goes (p : Port) (slice : Option Nat) (ring : Nat) (s : State) : Goes (execRsEnable p slice ring s) :=
  rsCommand_goes _ _ _ _ _ _

theorem execRsDisable_goes (p : Port) (slice : Option Nat) (ring : Nat) (s : State) : Goes (execRsDisable p slice ring s) :=
  rsCommand_goes _ _ _ _ _ _

theorem execRsReset_goes (p : Port) (slice : Option Nat) (ring : Nat) (s : State) : Goes (execRsReset p slice ring s) :=
  rsCommand_goes _ _ _ _ _ _

theorem execAncLoad_goes (p : Port) (s : State) : Goes (execAncLoad p s) :=
  ancCmd_goes _ _ _

theorem execAncClear_goes (p : Port) (s : State) : Goes (execAncClear p s) :=
  ancCmd_goes _ _ _

theorem execSlcRead_goes (p : Port) (slice : Nat) (s : State) : Goes (execSlcRead p slice s) :=
  slcCommand_goes _ _ _ _ _ _

theorem execSlcWrite_goes (p : Port) (slice : Nat) (s : State) : Goes (execSlcWrite p slice s) :=
  slcCommand_goes _ _ _ _ _ _

theorem execSlcCreate_goes (p : Port) (slice : Nat) (s : State) : Goes (execSlcCreate p slice s) :=
  slcCommand_goes _ _ _ _ _ _

theorem execUnfreeze_goes (p : Port) (slice : Nat) (s : State) : Goes (execUnfreeze p slice s) :=
  slcCommand_goes _ _ _ _ _ _

theorem execRemove_goes (p : Port) (slice : Nat) (s : State) : Goes (execRemove p slice s) :=
  slcCommand_goes _ _ _ _ _ _

/-! ### All commands -/

/-- Every command answers a next state. -/
theorem exec_goes : ∀ (c : Instr) (s : State), Goes (exec c s)
  | .ingest _, _ => trainRow_goes ..
  | .retrieve _, _ => trainRow_goes ..
  | .audit _, _ => trainRow_goes ..
  | .rekey _, _ => trainRow_goes ..
  | .sealObject _, _ => execSealObject_goes ..
  | .legacyRead _, _ => legacyRow_goes ..
  | .legacyWrite _, _ => legacyRow_goes ..
  | .keyLoadTicket _, _ => execKeyLoadTicket_goes ..
  | .keyReleaseSlot _, _ => execKeyReleaseSlot_goes ..
  | .shelfWake _, _ => execShelfWake_goes ..
  | .shelfSleep _, _ => execShelfSleep_goes ..
  | .driveAdmin _, _ => execDriveAdmin_goes ..
  | .propose _, _ => execPropose_goes ..
  | .approve _, _ => execApprove_goes ..
  | .verifySignature _, _ => execVerifySignature_goes ..
  | .keyImport _, _ => execKeyImport_goes ..
  | .attest _, _ => execAttest_goes ..
  | .sliceSave _, _ => execSliceSave_goes ..
  | .sliceRestore _, _ => execSliceRestore_goes ..
  | .sqDoorbell _ _ _ _, _ => doorbellWrite_goes ..
  | .cqDoorbell _ _ _ _, _ => doorbellWrite_goes ..
  | .contextLoad _ _, _ => execContextLoad_goes ..
  | .sqEntryTake _, _ => execSqEntryTake_goes ..
  | .admission _, _ => execAdmission_goes ..
  | .legacyAdmit, _ => execLegacyAdmit_goes ..
  | .orderedCompletion _, _ => execOrderedCompletion_goes ..
  | .rsRead _ _ _, _ => execRsRead_goes ..
  | .rsWrite _ _ _, _ => execRsWrite_goes ..
  | .rsEnable _ _ _, _ => execRsEnable_goes ..
  | .rsDisable _ _ _, _ => execRsDisable_goes ..
  | .rsReset _ _ _, _ => execRsReset_goes ..
  | .abortByCookie _ _ _, _ => abortWrite_goes ..
  | .abortAll _ _ _, _ => abortWrite_goes ..
  | .ttbAcquire _ _, _ => execTtbAcquire_goes ..
  | .ttbRenew _ _ _, _ => execTtbRenew_goes ..
  | .ttbRelease _ _ _, _ => execTtbRelease_goes ..
  | .perstDeassert _, _ => execPerstDeassert_goes ..
  | .dmaReadError _, _ => execDmaReadError_goes ..
  | .requestTooLong _ _, _ => execRequestTooLong_goes ..
  | .partialWrite _ _, _ => execPartialWrite_goes ..
  | .registerWrite _ _ _ _, _ => execRegisterWrite_goes ..
  | .rcRead _ _ _, _ => execRcRead_goes ..
  | .latchedLoRead _ _, _ => execLatchedLoRead_goes ..
  | .hptIntStatClear _ _, _ => execHptIntStatClear_goes ..
  | .slcRead _ _, _ => execSlcRead_goes ..
  | .slcWrite _ _, _ => execSlcWrite_goes ..
  | .slcCreate _ _, _ => execSlcCreate_goes ..
  | .unfreeze _ _, _ => execUnfreeze_goes ..
  | .remove _ _, _ => execRemove_goes ..
  | .bind _ _, _ => execBind_goes ..
  | .unbind _ _, _ => execUnbind_goes ..
  | .query _, _ => execQuery_goes ..
  | .inPost _ _ _, _ => tenantMbxWrite_goes ..
  | .outAck _ _, _ => tenantMbxWrite_goes ..
  | .freezeDrainDone _, _ => execFreezeDrainDone_goes ..
  | .segmentStart _ _ _ _ _, _ => execSegmentStart_goes ..
  | .keyStagingLoad _ _ _ _, _ => execKeyStagingLoad_goes ..
  | .segmentVerdict _ _, _ => execSegmentVerdict_goes ..
  | .cellParityError _ _ _ _ _, _ => execCellParityError_goes ..
  | .d2dUndeliverable _, _ => execD2dUndeliverable_goes ..
  | .d2dRetrainTimeout _, _ => execD2dRetrainTimeout_goes ..
  | .stragglerSpill _ _, _ => execStragglerSpill_goes ..
  | .speculativeUnwrap _ _ _, _ => execSpeculativeUnwrap_goes ..
  | .readClkreq _ _, _ => execReadClkreq_goes ..
  | .sidebandRetry _ _, _ => execSidebandRetry_goes ..
  | .shelfWakeBegin _, _ => execShelfWakeBegin_goes ..
  | .groupRelease _, _ => execGroupRelease_goes ..
  | .driveInit _ _, _ => execDriveInit_goes ..
  | .driveShutdownDone _ _, _ => execDriveShutdownDone_goes ..
  | .l12Exit _, _ => execL12Exit_goes ..
  | .nvmeCompletion _ _ _ _ _, _ => execNvmeCompletion_goes ..
  | .nvmeAbortTimeout _ _, _ => execNvmeAbortTimeout_goes ..
  | .controllerReset _ _ _, _ => execControllerReset_goes ..
  | .driveDmaBlocked _ _, _ => execDriveDmaBlocked_goes ..
  | .driveRetrainTimeout _, _ => execDriveRetrainTimeout_goes ..
  | .asyncEvent _ _, _ => execAsyncEvent_goes ..
  | .replGo _, _ => execReplGo_goes ..
  | .ticketKeyExpiry _, _ => execTicketKeyExpiry_goes ..
  | .maskReserveRefill, _ => execMaskReserveRefill_goes ..
  | .legKey0Write _ _, _ => execLegKey0Write_goes ..
  | .legKeyWordWrite _ _ _, _ => execLegKeyWordWrite_goes ..
  | .legCommit _ _, _ => execLegCommit_goes ..
  | .vaultCommit _ _ _ _, _ => execVaultCommit_goes ..
  | .restart _, _ => execRestart_goes ..
  | .reseed _, _ => rngCtl_goes ..
  | .kat _ _, _ => execKat_goes ..
  | .healthWindowEnd _ _, _ => execHealthWindowEnd_goes ..
  | .rngWaitExpiry, _ => execRngWaitExpiry_goes ..
  | .keygenKem _, _ => latRow_goes ..
  | .keygenDsa _, _ => latRow_goes ..
  | .pubkey _, _ => latRow_goes ..
  | .sign _, _ => latRow_goes ..
  | .latAbort _, _ => execLatAbort_goes ..
  | .latticeOpDone, _ => execLatticeOpDone_goes ..
  | .ancLoad _, _ => execAncLoad_goes ..
  | .ancClear _, _ => execAncClear_goes ..
  | .modmul _, _ => chanRow_goes ..
  | .modexp _, _ => chanRow_goes ..
  | .ecadd _, _ => chanRow_goes ..
  | .ecmul _, _ => chanRow_goes ..
  | .bnvAbort _, _ => execBnvAbort_goes ..
  | .bnvOpDone _, _ => execBnvOpDone_goes ..
  | .operandAccess _ _ _ _, _ => execOperandAccess_goes ..
  | .ucpLockAcquire _, _ => execUcpLockAcquire_goes ..
  | .ucpLockRelease _ _, _ => execUcpLockRelease_goes ..
  | .kwWrap _, _ => ucpRow_goes ..
  | .kwpWrap _, _ => ucpRow_goes ..
  | .kwpUnwrap _, _ => ucpRow_goes ..
  | .cmacGen _, _ => ucpRow_goes ..
  | .cmacVer _, _ => ucpRow_goes ..
  | .gcmEnc _, _ => ucpRow_goes ..
  | .gcmDec _, _ => ucpRow_goes ..
  | .gcmVer _, _ => ucpRow_goes ..
  | .sourceInactive _ _, _ => execSourceInactive_goes ..
  | .tmpResume _, _ => execTmpResume_goes ..
  | .flush _, _ => execFlush_goes ..
  | .cursor _ _, _ => execCursor_goes ..
  | .dbgGo _ _, _ => execDbgGo_goes ..
  | .respGo _, _ => execRespGo_goes ..
  | .stageImage _, _ => execStageImage_goes ..
  | .stageManifest _, _ => execStageManifest_goes ..
  | .stageAbort _, _ => execStageAbort_goes ..
  | .activationConfirm, _ => execActivationConfirm_goes ..
  | .assignTimeout, _ => execAssignTimeout_goes ..
  | .beacon _, _ => execBeacon_goes ..
  | .joinReq _, _ => execJoinReq_goes ..
  | .reenum _, _ => execReenum_goes ..
  | .govDorm _ _, _ => execGovDorm_goes ..
  | .wakeFromDormant _, _ => execWakeFromDormant_goes ..
  | .ucpOpDone, _ => execUcpOpDone_goes ..
  | .segmentEncrypted _ _, _ => execSegmentEncrypted_goes ..
  | .hostDmaReadDone _ _, _ => execHostDmaReadDone_goes ..
  | .driveLinkRetrained _ _, _ => execDriveLinkRetrained_goes ..
  | .keyGenerateDek _, _ | .randomBytes _, _ | .queryProposal _, _ | .sliceFreeze _, _ | .fence _, _ | .nop _, _
  | .doorbellQueueEval _, _ | .descriptorPrefetch _ _, _ | .brakeAlert _, _ | .coalTimeExpiry _, _
  | .ttbLeaseExpiry _, _ | .linkDown _, _ | .perstAssert _, _ | .hotReset _, _ | .linkDisable _, _ | .flr _, _
  | .hostReady _, _ | .accessDiscard _ _, _ | .inAck _, _ | .outPost _ _, _ | .shareEpoch, _
  | .kstgCorrectedError _, _ | .blockRetire _ _, _ | .regionDegraded _, _ | .d2dRetry _, _ | .shadowExpiry _, _
  | .identify _ _, _ | .readPresence _ _, _ | .setPower _ _, _ | .setPerst _ _, _ | .readStatus _ _, _
  | .readEvents _ _, _ | .setClkreq _ _, _ | .sbnInt _, _ | .keepalivePoll _, _ | .powerGoodPoll _, _
  | .powerGoodTimeout _, _ | .driveDlUp _ _ _ _ _, _ | .dlUpTimeout _, _ | .driveReadyTimeout _, _
  | .sleepDrainDone _, _ | .portPark _, _ | .driveClkreqWake _, _ | .nvmeCommandTimeout _ _, _ | .driveLinkDown _, _
  | .presenceChange _ _, _ | .shelfDrop _ _, _ | .driveAdminIssue _, _ | .retainedExpiry _, _
  | .erasePendingExpiry _, _ | .remask _, _ | .legacyLoadTimeout, _ | .vaultOpen, _ | .vaultRebuildDone, _
  | .vaultSettle, _ | .vaultScrub _, _ | .qrmWindowEnd _, _ | .drbgInstantiate, _ | .rngStartTimeout, _
  | .automaticReseed, _ | .tenderFill, _ | .rngAutoRestart, _ | .ucpIdleExpiry, _ | .watchdogExpiry _, _
  | .worldException _, _ | .monitorCheckFail _, _ | .restartComplete _, _ | .restartTimeout _, _ | .gateRequest _, _
  | .ungateRequest _, _ | .gateApply _, _ | .workUngate _, _ | .gateLate _, _ | .blockedAccess _ _, _
  | .assignmentChangeRefused _, _ | .lightDetect _, _ | .lightAgreementEnd, _ | .loopMeasure _ _, _
  | .voltageAlarm _ _, _ | .clockAlarm _, _ | .temperatureAlarm _, _ | .tmpSelftest _ _, _ | .backupAlarm _ _, _
  | .flushPeriodExpiry, _ | .bufferThresholdFlush, _ | .flushDone _ _ _, _ | .eventWindowLoaded _, _ | .trans _ _, _
  | .fuseBurnDone, _ | .tokenUse _ _, _ | .challengeExpiry, _ | .porstNAssert, _ | .boot _, _ | .stageDone _, _
  | .activationBarrier _, _ | .activationFallback, _ | .time, _ | .timeReceive _, _ | .assign _, _
  | .assignReply _ _, _ | .delay _, _ | .beaconMiss _, _ | .reservationExpiry _, _ | .release _, _ | .clear _, _
  | .headStart, _ | .headLost, _ | .foreignHeadFrame _, _ | .memRetrain _, _ | .memLineError _ _, _
  | .memConfigFault, _ | .govInterval _ _ _, _ | .thermalStep _, _ | .avsTimeout, _ | .dormantEntry, _
  | .dormantLapse, _ | .pfailAssert, _ | .pfailDeassert, _ | .vddAonSwitch _, _ | .faultEntry _, _
  | .configRequest _ _ _, _ | .debugHalt _, _ | .debugResume _, _ | .hostLinkDlUp _ _ _ _, _ | .slewEnd, _ => ⟨_, rfl⟩

end Sys2Proof.Laws
end

section
/-! SUPPORT. What each command of the table keeps, put together from what its meaning keeps. -/
namespace Sys2Proof.Laws

open Sys2Proof.Machine Sys2Proof.Safety

/-- What a command is asked to keep beside the queue, the tables and the settings: all but what its kind may change. -/
def keptBy (c : Instr) : Kept where
  seq := !isRestart c && !isWake c
  fault := !isRestart c
  time := !mayStepTime c && c != .porstNAssert
  burn := !isRestart c && !mayBurn c
  flash := !mayFlash c
  life := !isRestart c

/-- Every command keeps what its kind may not change. -/
theorem exec_keepsRes : ∀ (c : Instr) (s : State), KeepsRes (keptBy c) s (exec c s)
  | .ingest _, s => execIngest_keepsRes _ (.refl _ s)
  | .retrieve _, s => execRetrieve_keepsRes _ (.refl _ s)
  | .audit _, s => execAudit_keepsRes _ (.refl _ s)
  | .rekey _, s => execRekey_keepsRes _ (.refl _ s)
  | .sealObject _, s => execSealObject_keepsRes _ (.refl _ s)
  | .legacyRead _, s => execLegacyRead_keepsRes _ (.refl _ s)
  | .legacyWrite _, s => execLegacyWrite_keepsRes _ (.refl _ s)
  | .keyGenerateDek _, s => execKeyGenerateDek_keepsRes _ (.refl _ s)
  | .keyLoadTicket _, s => execKeyLoadTicket_keepsRes _ (.refl _ s)
  | .keyReleaseSlot _, s => execKeyReleaseSlot_keepsRes _ (.refl _ s)
  | .randomBytes _, s => execRandomBytes_keepsRes _ (.refl _ s)
  | .shelfWake _, s => execShelfWake_keepsRes _ (.refl _ s)
  | .shelfSleep _, s => execShelfSleep_keepsRes _ (.refl _ s)
  | .driveAdmin _, s => execDriveAdmin_keepsRes _ (.refl _ s)
  | .propose _, s => execPropose_keepsRes _ (.refl _ s)
  | .approve _, s => execApprove_keepsRes _ (.refl _ s)
  | .queryProposal _, s => execQueryProposal_keepsRes _ (.refl _ s)
  | .verifySignature _, s => execVerifySignature_keepsRes _ (.refl _ s)
  | .keyImport _, s => execKeyImport_keepsRes _ (.refl _ s)
  | .attest _, s => execAttest_keepsRes _ (.refl _ s)
  | .sliceFreeze _, s => execSliceFreeze_keepsRes _ (.refl _ s)
  | .sliceSave _, s => execSliceSave_keepsRes _ (.refl _ s)
  | .sliceRestore _, s => execSliceRestore_keepsRes _ (.refl _ s)
  | .fence _, s => execFence_keepsRes _ (.refl _ s)
  | .nop _, s => execNop_keepsRes _ (.refl _ s)
  | .sqDoorbell _ _ _ _, s => execSqDoorbell_keepsRes _ _ _ _ (.refl _ s)
  | .cqDoorbell _ _ _ _, s => execCqDoorbell_keepsRes _ _ _ _ (.refl _ s)
  | .doorbellQueueEval _, s => execDoorbellQueueEval_keepsRes _ (.refl _ s)
  | .contextLoad _ _, s => execContextLoad_keepsRes _ _ (.refl _ s)
  | .descriptorPrefetch _ _, s => execDescriptorPrefetch_keepsRes _ _ (.refl _ s)
  | .sqEntryTake _, s => execSqEntryTake_keepsRes _ (.refl _ s)
  | .brakeAlert _, s => execBrakeAlert_keepsRes _ (.refl _ s)
  | .admission _, s => execAdmission_keepsRes _ (.refl _ s)
  | .legacyAdmit, s => execLegacyAdmit_keepsRes (.refl _ s)
  | .orderedCompletion _, s => execOrderedCompletion_keepsRes _ (.refl _ s)
  | .coalTimeExpiry _, s => execCoalTimeExpiry_keepsRes _ (.refl _ s)
  | .rsRead _ _ _, s => execRsRead_keepsRes _ _ _ (.refl _ s)
  | .rsWrite _ _ _, s => execRsWrite_keepsRes _ _ _ (.refl _ s)
  | .rsEnable _ _ _, s => execRsEnable_keepsRes _ _ _ (.refl _ s)
  | .rsDisable _ _ _, s => execRsDisable_keepsRes _ _ _ (.refl _ s)
  | .rsReset _ _ _, s => execRsReset_keepsRes _ _ _ (.refl _ s)
  | .abortByCookie _ _ _, s => execAbortByCookie_keepsRes _ _ _ (.refl _ s)
  | .abortAll _ _ _, s => execAbortAll_keepsRes _ _ _ (.refl _ s)
  | .ttbAcquire _ _, s => execTtbAcquire_keepsRes _ _ (.refl _ s)
  | .ttbRenew _ _ _, s => execTtbRenew_keepsRes _ _ _ (.refl _ s)
  | .ttbRelease _ _ _, s => execTtbRelease_keepsRes _ _ _ (.refl _ s)
  | .ttbLeaseExpiry _, s => execTtbLeaseExpiry_keepsRes _ (.refl _ s)
  | .linkDown _, s => execLinkDown_keepsRes _ (.refl _ s)
  | .perstAssert _, s => execPerstAssert_keepsRes _ (.refl _ s)
  | .hotReset _, s => execHotReset_keepsRes _ (.refl _ s)
  | .linkDisable _, s => execLinkDisable_keepsRes _ (.refl _ s)
  | .flr _, s => execFlr_keepsRes _ (.refl _ s)
  | .perstDeassert _, s => execPerstDeassert_keepsRes _ (.refl _ s) rfl
  | .hostReady _, s => execHostReady_keepsRes _ (.refl _ s)
  | .dmaReadError _, s => execDmaReadError_keepsRes _ (.refl _ s)
  | .accessDiscard _ _, s => execAccessDiscard_keepsRes _ _ (.refl _ s)
  | .requestTooLong _ _, s => execRequestTooLong_keepsRes _ _ (.refl _ s)
  | .partialWrite _ _, s => execPartialWrite_keepsRes _ _ (.refl _ s)
  | .registerWrite _ _ _ _, s => execRegisterWrite_keepsRes _ _ _ _ (.refl _ s) rfl rfl
  | .rcRead _ _ _, s => execRcRead_keepsRes _ _ _ (.refl _ s)
  | .latchedLoRead _ _, s => execLatchedLoRead_keepsRes _ _ (.refl _ s)
  | .hptIntStatClear _ _, s => execHptIntStatClear_keepsRes _ _ (.refl _ s)
  | .slcRead _ _, s => execSlcRead_keepsRes _ _ (.refl _ s)
  | .slcWrite _ _, s => execSlcWrite_keepsRes _ _ (.refl _ s)
  | .slcCreate _ _, s => execSlcCreate_keepsRes _ _ (.refl _ s)
  | .unfreeze _ _, s => execUnfreeze_keepsRes _ _ (.refl _ s)
  | .remove _ _, s => execRemove_keepsRes _ _ (.refl _ s)
  | .bind _ _, s => execBind_keepsRes _ _ (.refl _ s)
  | .unbind _ _, s => execUnbind_keepsRes _ _ (.refl _ s)
  | .query _, s => execQuery_keepsRes _ (.refl _ s)
  | .inPost _ _ _, s => execInPost_keepsRes _ _ _ (.refl _ s)
  | .inAck _, s => execInAck_keepsRes _ (.refl _ s)
  | .outPost _ _, s => execOutPost_keepsRes _ _ (.refl _ s)
  | .outAck _ _, s => execOutAck_keepsRes _ _ (.refl _ s)
  | .freezeDrainDone _, s => execFreezeDrainDone_keepsRes _ (.refl _ s)
  | .shareEpoch, s => execShareEpoch_keepsRes (.refl _ s)
  | .segmentStart _ _ _ _ _, s => execSegmentStart_keepsRes _ _ _ _ _ (.refl _ s)
  | .keyStagingLoad _ _ _ _, s => execKeyStagingLoad_keepsRes _ _ _ _ (.refl _ s)
  | .segmentVerdict _ _, s => execSegmentVerdict_keepsRes _ _ (.refl _ s)
  | .cellParityError _ _ _ _ _, s => execCellParityError_keepsRes _ _ _ _ _ (.refl _ s)
  | .kstgCorrectedError _, s => execKstgCorrectedError_keepsRes _ (.refl _ s)
  | .blockRetire _ _, s => execBlockRetire_keepsRes _ _ (.refl _ s)
  | .regionDegraded _, s => execRegionDegraded_keepsRes _ (.refl _ s)
  | .d2dRetry _, s => execD2dRetry_keepsRes _ (.refl _ s)
  | .d2dUndeliverable _, s => execD2dUndeliverable_keepsRes _ (.refl _ s)
  | .d2dRetrainTimeout _, s => execD2dRetrainTimeout_keepsRes _ (.refl _ s)
  | .stragglerSpill _ _, s => execStragglerSpill_keepsRes _ _ (.refl _ s)
  | .speculativeUnwrap _ _ _, s => execSpeculativeUnwrap_keepsRes _ _ _ (.refl _ s)
  | .shadowExpiry _, s => execShadowExpiry_keepsRes _ (.refl _ s)
  | .identify _ _, s => execIdentify_keepsRes _ _ (.refl _ s)
  | .readPresence _ _, s => execReadPresence_keepsRes _ _ (.refl _ s)
  | .setPower _ _, s => execSetPower_keepsRes _ _ (.refl _ s)
  | .setPerst _ _, s => execSetPerst_keepsRes _ _ (.refl _ s)
  | .readClkreq _ _, s => execReadClkreq_keepsRes _ _ (.refl _ s)
  | .readStatus _ _, s => execReadStatus_keepsRes _ _ (.refl _ s)
  | .readEvents _ _, s => execReadEvents_keepsRes _ _ (.refl _ s)
  | .setClkreq _ _, s => execSetClkreq_keepsRes _ _ (.refl _ s)
  | .sidebandRetry _ _, s => execSidebandRetry_keepsRes _ _ (.refl _ s)
  | .sbnInt _, s => execSbnInt_keepsRes _ (.refl _ s)
  | .keepalivePoll _, s => execKeepalivePoll_keepsRes _ (.refl _ s)
  | .shelfWakeBegin _, s => execShelfWakeBegin_keepsRes _ (.refl _ s)
  | .powerGoodPoll _, s => execPowerGoodPoll_keepsRes _ (.refl _ s)
  | .powerGoodTimeout _, s => execPowerGoodTimeout_keepsRes _ (.refl _ s)
  | .groupRelease _, s => execGroupRelease_keepsRes _ (.refl _ s)
  | .driveDlUp _ _ _ _ _, s => execDriveDlUp_keepsRes _ _ _ _ _ (.refl _ s)
  | .dlUpTimeout _, s => execDlUpTimeout_keepsRes _ (.refl _ s)
  | .driveReadyTimeout _, s => execDriveReadyTimeout_keepsRes _ (.refl _ s)
  | .driveInit _ _, s => execDriveInit_keepsRes _ _ (.refl _ s)
  | .sleepDrainDone _, s => execSleepDrainDone_keepsRes _ (.refl _ s)
  | .driveShutdownDone _ _, s => execDriveShutdownDone_keepsRes _ _ (.refl _ s)
  | .portPark _, s => execPortPark_keepsRes _ (.refl _ s)
  | .l12Exit _, s => execL12Exit_keepsRes _ (.refl _ s)
  | .driveClkreqWake _, s => execDriveClkreqWake_keepsRes _ (.refl _ s)
  | .nvmeCompletion _ _ _ _ _, s => execNvmeCompletion_keepsRes _ _ _ _ _ (.refl _ s)
  | .nvmeCommandTimeout _ _, s => execNvmeCommandTimeout_keepsRes _ _ (.refl _ s)
  | .nvmeAbortTimeout _ _, s => execNvmeAbortTimeout_keepsRes _ _ (.refl _ s)
  | .controllerReset _ _ _, s => execControllerReset_keepsRes _ _ _ (.refl _ s)
  | .driveDmaBlocked _ _, s => execDriveDmaBlocked_keepsRes _ _ (.refl _ s)
  | .driveLinkDown _, s => execDriveLinkDown_keepsRes _ (.refl _ s)
  | .driveRetrainTimeout _, s => execDriveRetrainTimeout_keepsRes _ (.refl _ s)
  | .asyncEvent _ _, s => execAsyncEvent_keepsRes _ _ (.refl _ s)
  | .presenceChange _ _, s => execPresenceChange_keepsRes _ _ (.refl _ s)
  | .shelfDrop _ _, s => execShelfDrop_keepsRes _ _ (.refl _ s)
  | .driveAdminIssue _, s => execDriveAdminIssue_keepsRes _ (.refl _ s)
  | .replGo _, s => execReplGo_keepsRes _ (.refl _ s)
  | .retainedExpiry _, s => execRetainedExpiry_keepsRes _ (.refl _ s)
  | .erasePendingExpiry _, s => execErasePendingExpiry_keepsRes _ (.refl _ s)
  | .ticketKeyExpiry _, s => execTicketKeyExpiry_keepsRes _ (.refl _ s)
  | .remask _, s => execRemask_keepsRes _ (.refl _ s)
  | .maskReserveRefill, s => execMaskReserveRefill_keepsRes (.refl _ s)
  | .legKey0Write _ _, s => execLegKey0Write_keepsRes _ _ (.refl _ s)
  | .legKeyWordWrite _ _ _, s => execLegKeyWordWrite_keepsRes _ _ _ (.refl _ s)
  | .legCommit _ _, s => execLegCommit_keepsRes _ _ (.refl _ s)
  | .legacyLoadTimeout, s => execLegacyLoadTimeout_keepsRes (.refl _ s)
  | .vaultCommit _ _ _ _, s => execVaultCommit_keepsRes _ _ _ _ (.refl _ s)
  | .vaultOpen, s => execVaultOpen_keepsRes (.refl _ s)
  | .vaultRebuildDone, s => execVaultRebuildDone_keepsRes (.refl _ s)
  | .vaultSettle, s => execVaultSettle_keepsRes (.refl _ s)
  | .vaultScrub _, s => execVaultScrub_keepsRes _ (.refl _ s)
  | .qrmWindowEnd _, s => execQrmWindowEnd_keepsRes _ (.refl _ s)
  | .restart _, s => execRestart_keepsRes _ (.refl _ s)
  | .reseed _, s => execReseed_keepsRes _ (.refl _ s)
  | .kat _ _, s => execKat_keepsRes _ _ (.refl _ s)
  | .healthWindowEnd _ _, s => execHealthWindowEnd_keepsRes _ _ (.refl _ s)
  | .drbgInstantiate, s => execDrbgInstantiate_keepsRes (.refl _ s)
  | .rngStartTimeout, s => execRngStartTimeout_keepsRes (.refl _ s)
  | .automaticReseed, s => execAutomaticReseed_keepsRes (.refl _ s)
  | .tenderFill, s => execTenderFill_keepsRes (.refl _ s)
  | .rngWaitExpiry, s => execRngWaitExpiry_keepsRes (.refl _ s)
  | .rngAutoRestart, s => execRngAutoRestart_keepsRes (.refl _ s)
  | .keygenKem _, s => execKeygenKem_keepsRes _ (.refl _ s)
  | .keygenDsa _, s => execKeygenDsa_keepsRes _ (.refl _ s)
  | .pubkey _, s => execPubkey_keepsRes _ (.refl _ s)
  | .sign _, s => execSign_keepsRes _ (.refl _ s)
  | .latAbort _, s => execLatAbort_keepsRes _ (.refl _ s)
  | .latticeOpDone, s => execLatticeOpDone_keepsRes (.refl _ s)
  | .ancLoad _, s => execAncLoad_keepsRes _ (.refl _ s)
  | .ancClear _, s => execAncClear_keepsRes _ (.refl _ s)
  | .modmul _, s => execModmul_keepsRes _ (.refl _ s)
  | .modexp _, s => execModexp_keepsRes _ (.refl _ s)
  | .ecadd _, s => execEcadd_keepsRes _ (.refl _ s)
  | .ecmul _, s => execEcmul_keepsRes _ (.refl _ s)
  | .bnvAbort _, s => execBnvAbort_keepsRes _ (.refl _ s)
  | .bnvOpDone _, s => execBnvOpDone_keepsRes _ (.refl _ s)
  | .operandAccess _ _ _ _, s => execOperandAccess_keepsRes _ _ _ _ (.refl _ s)
  | .ucpLockAcquire _, s => execUcpLockAcquire_keepsRes _ (.refl _ s)
  | .ucpLockRelease _ _, s => execUcpLockRelease_keepsRes _ _ (.refl _ s)
  | .ucpIdleExpiry, s => execUcpIdleExpiry_keepsRes (.refl _ s)
  | .kwWrap _, s => execKwWrap_keepsRes _ (.refl _ s)
  | .kwpWrap _, s => execKwpWrap_keepsRes _ (.refl _ s)
  | .kwpUnwrap _, s => execKwpUnwrap_keepsRes _ (.refl _ s)
  | .cmacGen _, s => execCmacGen_keepsRes _ (.refl _ s)
  | .cmacVer _, s => execCmacVer_keepsRes _ (.refl _ s)
  | .gcmEnc _, s => execGcmEnc_keepsRes _ (.refl _ s)
  | .gcmDec _, s => execGcmDec_keepsRes _ (.refl _ s)
  | .gcmVer _, s => execGcmVer_keepsRes _ (.refl _ s)
  | .watchdogExpiry _, s => execWatchdogExpiry_keepsRes _ (.refl _ s)
  | .worldException _, s => execWorldException_keepsRes _ (.refl _ s)
  | .monitorCheckFail _, s => execMonitorCheckFail_keepsRes _ (.refl _ s)
  | .restartComplete _, s => execRestartComplete_keepsRes _ (.refl _ s)
  | .restartTimeout _, s => execRestartTimeout_keepsRes _ (.refl _ s)
  | .gateRequest _, s => execGateRequest_keepsRes _ (.refl _ s)
  | .ungateRequest _, s => execUngateRequest_keepsRes _ (.refl _ s)
  | .gateApply _, s => execGateApply_keepsRes _ (.refl _ s)
  | .workUngate _, s => execWorkUngate_keepsRes _ (.refl _ s)
  | .gateLate _, s => execGateLate_keepsRes _ (.refl _ s)
  | .blockedAccess _ _, s => execBlockedAccess_keepsRes _ _ (.refl _ s)
  | .assignmentChangeRefused _, s => execAssignmentChangeRefused_keepsRes _ (.refl _ s)
  | .lightDetect _, s => execLightDetect_keepsRes _ (.refl _ s)
  | .lightAgreementEnd, s => execLightAgreementEnd_keepsRes (.refl _ s)
  | .loopMeasure _ _, s => execLoopMeasure_keepsRes _ _ (.refl _ s)
  | .voltageAlarm _ _, s => execVoltageAlarm_keepsRes _ _ (.refl _ s)
  | .clockAlarm _, s => execClockAlarm_keepsRes _ (.refl _ s)
  | .temperatureAlarm _, s => execTemperatureAlarm_keepsRes _ (.refl _ s)
  | .sourceInactive _ _, s => execSourceInactive_keepsRes _ _ (.refl _ s)
  | .tmpResume _, s => execTmpResume_keepsRes _ (.refl _ s)
  | .tmpSelftest _ _, s => execTmpSelftest_keepsRes _ _ (.refl _ s)
  | .backupAlarm _ _, s => execBackupAlarm_keepsRes _ _ (.refl _ s)
  | .flush _, s => execFlush_keepsRes _ (.refl _ s)
  | .flushPeriodExpiry, s => execFlushPeriodExpiry_keepsRes (.refl _ s)
  | .bufferThresholdFlush, s => execBufferThresholdFlush_keepsRes (.refl _ s)
  | .flushDone _ _ _, s => execFlushDone_keepsRes _ _ _ (.refl _ s)
  | .cursor _ _, s => execCursor_keepsRes _ _ (.refl _ s)
  | .eventWindowLoaded _, s => execEventWindowLoaded_keepsRes _ (.refl _ s)
  | .trans _ _, s => execTrans_keepsRes _ _ (.refl _ s)
  | .fuseBurnDone, s => execFuseBurnDone_keepsRes (.refl _ s) rfl rfl rfl rfl
  | .tokenUse _ _, s => execTokenUse_keepsRes _ _ (.refl _ s) rfl rfl rfl rfl
  | .dbgGo _ _, s => execDbgGo_keepsRes _ _ (.refl _ s)
  | .respGo _, s => execRespGo_keepsRes _ (.refl _ s)
  | .challengeExpiry, s => execChallengeExpiry_keepsRes (.refl _ s)
  | .porstNAssert, s => execPorstNAssert_keepsRes (.refl _ s) rfl rfl rfl rfl rfl
  | .boot _, s => execBoot_keepsRes _ (.refl _ s) rfl rfl rfl rfl
  | .stageImage _, s => execStageImage_keepsRes _ (.refl _ s) rfl
  | .stageManifest _, s => execStageManifest_keepsRes _ (.refl _ s)
  | .stageAbort _, s => execStageAbort_keepsRes _ (.refl _ s)
  | .stageDone _, s => execStageDone_keepsRes _ (.refl _ s) rfl
  | .activationBarrier _, s => execActivationBarrier_keepsRes _ (.refl _ s) rfl rfl
  | .activationConfirm, s => execActivationConfirm_keepsRes (.refl _ s) rfl rfl
  | .activationFallback, s => execActivationFallback_keepsRes (.refl _ s) rfl
  | .time, s => execTime_keepsRes (.refl _ s)
  | .timeReceive _, s => execTimeReceive_keepsRes _ (.refl _ s) rfl
  | .assign _, s => execAssign_keepsRes _ (.refl _ s)
  | .assignReply _ _, s => execAssignReply_keepsRes _ _ (.refl _ s) rfl
  | .assignTimeout, s => execAssignTimeout_keepsRes (.refl _ s) rfl
  | .delay _, s => execDelay_keepsRes _ (.refl _ s)
  | .beacon _, s => execBeacon_keepsRes _ (.refl _ s)
  | .beaconMiss _, s => execBeaconMiss_keepsRes _ (.refl _ s)
  | .reservationExpiry _, s => execReservationExpiry_keepsRes _ (.refl _ s)
  | .joinReq _, s => execJoinReq_keepsRes _ (.refl _ s)
  | .release _, s => execRelease_keepsRes _ (.refl _ s)
  | .clear _, s => execClear_keepsRes _ (.refl _ s)
  | .reenum _, s => execReenum_keepsRes _ (.refl _ s) rfl
  | .headStart, s => execHeadStart_keepsRes (.refl _ s)
  | .headLost, s => execHeadLost_keepsRes (.refl _ s)
  | .foreignHeadFrame _, s => execForeignHeadFrame_keepsRes _ (.refl _ s)
  | .memRetrain _, s => execMemRetrain_keepsRes _ (.refl _ s)
  | .memLineError _ _, s => execMemLineError_keepsRes _ _ (.refl _ s)
  | .memConfigFault, s => execMemConfigFault_keepsRes (.refl _ s)
  | .govInterval _ _ _, s => execGovInterval_keepsRes _ _ _ (.refl _ s)
  | .thermalStep _, s => execThermalStep_keepsRes _ (.refl _ s)
  | .avsTimeout, s => execAvsTimeout_keepsRes (.refl _ s)
  | .govDorm _ _, s => execGovDorm_keepsRes _ _ (.refl _ s)
  | .dormantEntry, s => execDormantEntry_keepsRes (.refl _ s)
  | .dormantLapse, s => execDormantLapse_keepsRes (.refl _ s)
  | .wakeFromDormant _, s => execWakeFromDormant_keepsRes _ (.refl _ s) rfl
  | .pfailAssert, s => execPfailAssert_keepsRes (.refl _ s)
  | .pfailDeassert, s => execPfailDeassert_keepsRes (.refl _ s) rfl rfl rfl rfl
  | .vddAonSwitch _, s => execVddAonSwitch_keepsRes _ (.refl _ s)
  | .faultEntry _, s => execFaultEntry_keepsRes _ (.refl _ s)
  | .ucpOpDone, s => execUcpOpDone_keepsRes (.refl _ s)
  | .segmentEncrypted _ _, s => execSegmentEncrypted_keepsRes _ _ (.refl _ s)
  | .hostDmaReadDone _ _, s => execHostDmaReadDone_keepsRes _ _ (.refl _ s)
  | .configRequest _ _ _, s => execConfigRequest_keepsRes _ _ _ (.refl _ s)
  | .debugHalt _, s => execDebugHalt_keepsRes _ (.refl _ s)
  | .debugResume _, s => execDebugResume_keepsRes _ (.refl _ s)
  | .driveLinkRetrained _ _, s => execDriveLinkRetrained_keepsRes _ _ (.refl _ s)
  | .hostLinkDlUp _ _ _ _, s => execHostLinkDlUp_keepsRes _ _ _ _ (.refl _ s)
  | .slewEnd, s => execSlewEnd_keepsRes (.refl _ s)

/-- A tick keeps the queue, the tables, the settings, the CSN, FAULT, the flash and what only a boot changes. -/
theorem tick_keeps (s : State) : Keeps { time := false, burn := false } s (tick s) := by
  unfold tick
  refine keeps_ite (Keeps.refl _ s).put_bbr ?_
  refine aloneMark_keeps (framesDue_keeps (selInMoves_keeps (stationBurns_keeps ?_ rfl)))
  exact gatesDue_keeps (reloadDone_keeps (lightDue_keeps (respDue_keeps (timePasses_keeps (.refl _ s) rfl))))

/-- A step keeps the canonical form of the tables and the range of the settings. -/
theorem step_keeps {s t : State} (h : step s = .next t) :
    (tablesOk s = true → tablesOk t = true) ∧ (settingsOk s = true → settingsOk t = true) := by
  unfold step at h
  split at h
  · cases h
    obtain ⟨-, ht, hs, -⟩ := tick_keeps s
    exact ⟨ht, hs⟩
  · obtain ⟨-, ht, hs, -⟩ := exec_keepsRes _ _ t h
    exact ⟨ht, hs⟩

end Sys2Proof.Laws
end

section
/-! PROOFS. What every step and every command keeps (02_one_coherent_state.md). -/
namespace Sys2Proof.Proofs

open Sys2Proof.Machine Sys2Proof.Safety Sys2Proof.Laws

/-- Settles O1: it is the step's own equation for a queue that is not empty. -/
theorem stepRunsFrontCommand : Obligations.StepRunsFrontCommand := by
  unfold Obligations.StepRunsFrontCommand
  intro c rest s h
  simp only [step, h]

/-- Settles O4: reset is closed, its tables are empty, and each setting is compared with its range. -/
theorem resetValuesOfSettings : Obligations.ResetValuesOfSettings := by
  unfold Obligations.ResetValuesOfSettings
  refine ⟨rfl, rfl, rfl, rfl, rfl, rfl, rfl, rfl, rfl, rfl, rfl, rfl, rfl, fun p => ?_, fun _ => rfl, fun _ => rfl, by decide, rfl⟩
  cases p <;> rfl

/-- Settles O5: every step keeps the canonical form of the tables. -/
theorem tablesStayCanonical : Obligations.TablesStayCanonical := by
  unfold Obligations.TablesStayCanonical
  intro s t hs h
  exact (step_keeps h).1 hs

/-- Settles O6: every step keeps the settings in their ranges. -/
theorem settingsStayInRange : Obligations.SettingsStayInRange := by
  unfold Obligations.SettingsStayInRange
  intro s t hs h
  exact (step_keeps h).2 hs

/-- Settles O7: every command answers a next state, and keeps the queue. -/
theorem commandsGoOnAndLeaveTheQueue : Obligations.CommandsGoOnAndLeaveTheQueue := by
  unfold Obligations.CommandsGoOnAndLeaveTheQueue
  intro c s
  obtain ⟨t, h⟩ := exec_goes c s
  obtain ⟨hq, -⟩ := exec_keepsRes c s t h
  exact ⟨t, h, hq⟩

/-- Settles O8: a command that neither starts the chip anew nor ends Dormant keeps the sequencer. -/
theorem csnNeverFalls : Obligations.CsnNeverFalls := by
  unfold Obligations.CsnNeverFalls
  intro c s t hr hw h
  obtain ⟨-, -, -, hcsn, -⟩ := exec_keepsRes c s t h
  exact hcsn (by simp [keptBy, hr, hw])

/-- Settles O9: a command that does not start the chip anew keeps FAULT. -/
theorem faultIsLeftOnlyByRestart : Obligations.FaultIsLeftOnlyByRestart := by
  unfold Obligations.FaultIsLeftOnlyByRestart
  intro c s t hr hf h
  obtain ⟨-, -, -, -, hfault, -⟩ := exec_keepsRes c s t h
  exact hfault (by simp [keptBy, hr]) hf

/-- Settles O10: a command keeps the durable stores that its kind may not write. -/
theorem durableStoresHoldStill : Obligations.DurableStoresHoldStill := by
  unfold Obligations.DurableStoresHoldStill
  intro c s t h
  obtain ⟨-, -, -, -, -, -, hburn, hflash, hlife⟩ := exec_keepsRes c s t h
  refine ⟨fun hr => ⟨fun hb => hburn (by simp [keptBy, hr, hb]), hlife (by simp [keptBy, hr])⟩, fun hf => ?_⟩
  exact hflash (by simp [keptBy, hf])

/-- Settles O11: a command that may not step the time keeps it. -/
theorem commandsTakeNoTime : Obligations.CommandsTakeNoTime := by
  unfold Obligations.CommandsTakeNoTime
  intro c s t hm hc h
  obtain ⟨-, -, -, -, -, htime, -⟩ := exec_keepsRes c s t h
  exact htime (by simp [keptBy, hm, hc])

end Sys2Proof.Proofs
end

section
/-! SUPPORT. One part of a state after a choice of two states, and after a fold whose every turn leaves it. -/
namespace Sys2Proof.Laws

open Sys2Proof.Machine

/-- What every turn of a fold leaves, the fold leaves. -/
theorem foldl_part {α β : Type} (g : State → β) {f : State → α → State} (hf : ∀ s x, g (f s x) = g s) (l : List α)
    (s : State) : g (l.foldl f s) = g s := by
  induction l generalizing s with
  | nil => rfl
  | cons x l ih => exact (ih (f s x)).trans (hf s x)

@[simp] theorem ite_pending (c : Prop) [Decidable c] (a b : State) :
    (if c then a else b).pending = if c then a.pending else b.pending := apply_ite State.pending c a b
@[simp] theorem foldl_pending {α : Type} {f : State → α → State} (hf : ∀ s x, (f s x).pending = s.pending) (l : List α) (s : State) :
    (l.foldl f s).pending = s.pending := foldl_part State.pending hf l s
@[simp] theorem ite_out (c : Prop) [Decidable c] (a b : State) :
    (if c then a else b).out = if c then a.out else b.out := apply_ite State.out c a b
@[simp] theorem foldl_out {α : Type} {f : State → α → State} (hf : ∀ s x, (f s x).out = s.out) (l : List α) (s : State) :
    (l.foldl f s).out = s.out := foldl_part State.out hf l s
@[simp] theorem ite_free (c : Prop) [Decidable c] (a b : State) :
    (if c then a else b).free = if c then a.free else b.free := apply_ite State.free c a b
@[simp] theorem foldl_free {α : Type} {f : State → α → State} (hf : ∀ s x, (f s x).free = s.free) (l : List α) (s : State) :
    (l.foldl f s).free = s.free := foldl_part State.free hf l s
@[simp] theorem ite_now (c : Prop) [Decidable c] (a b : State) :
    (if c then a else b).now = if c then a.now else b.now := apply_ite State.now c a b
@[simp] theorem foldl_now {α : Type} {f : State → α → State} (hf : ∀ s x, (f s x).now = s.now) (l : List α) (s : State) :
    (l.foldl f s).now = s.now := foldl_part State.now hf l s
@[simp] theorem ite_csn (c : Prop) [Decidable c] (a b : State) :
    (if c then a else b).csn = if c then a.csn else b.csn := apply_ite State.csn c a b
@[simp] theorem foldl_csn {α : Type} {f : State → α → State} (hf : ∀ s x, (f s x).csn = s.csn) (l : List α) (s : State) :
    (l.foldl f s).csn = s.csn := foldl_part State.csn hf l s
@[simp] theorem ite_chp (c : Prop) [Decidable c] (a b : State) :
    (if c then a else b).chp = if c then a.chp else b.chp := apply_ite State.chp c a b
@[simp] theorem foldl_chp {α : Type} {f : State → α → State} (hf : ∀ s x, (f s x).chp = s.chp) (l : List α) (s : State) :
    (l.foldl f s).chp = s.chp := foldl_part State.chp hf l s
@[simp] theorem ite_pins (c : Prop) [Decidable c] (a b : State) :
    (if c then a else b).pins = if c then a.pins else b.pins := apply_ite State.pins c a b
@[simp] theorem foldl_pins {α : Type} {f : State → α → State} (hf : ∀ s x, (f s x).pins = s.pins) (l : List α) (s : State) :
    (l.foldl f s).pins = s.pins := foldl_part State.pins hf l s
@[simp] theorem ite_hpt (c : Prop) [Decidable c] (a b : State) :
    (if c then a else b).hpt = if c then a.hpt else b.hpt := apply_ite State.hpt c a b
@[simp] theorem foldl_hpt {α : Type} {f : State → α → State} (hf : ∀ s x, (f s x).hpt = s.hpt) (l : List α) (s : State) :
    (l.foldl f s).hpt = s.hpt := foldl_part State.hpt hf l s
@[simp] theorem ite_stats (c : Prop) [Decidable c] (a b : State) :
    (if c then a else b).stats = if c then a.stats else b.stats := apply_ite State.stats c a b
@[simp] theorem foldl_stats {α : Type} {f : State → α → State} (hf : ∀ s x, (f s x).stats = s.stats) (l : List α) (s : State) :
    (l.foldl f s).stats = s.stats := foldl_part State.stats hf l s
@[simp] theorem ite_win (c : Prop) [Decidable c] (a b : State) :
    (if c then a else b).win = if c then a.win else b.win := apply_ite State.win c a b
@[simp] theorem foldl_win {α : Type} {f : State → α → State} (hf : ∀ s x, (f s x).win = s.win) (l : List α) (s : State) :
    (l.foldl f s).win = s.win := foldl_part State.win hf l s
@[simp] theorem ite_ttb (c : Prop) [Decidable c] (a b : State) :
    (if c then a else b).ttb = if c then a.ttb else b.ttb := apply_ite State.ttb c a b
@[simp] theorem foldl_ttb {α : Type} {f : State → α → State} (hf : ∀ s x, (f s x).ttb = s.ttb) (l : List α) (s : State) :
    (l.foldl f s).ttb = s.ttb := foldl_part State.ttb hf l s
@[simp] theorem ite_car (c : Prop) [Decidable c] (a b : State) :
    (if c then a else b).car = if c then a.car else b.car := apply_ite State.car c a b
@[simp] theorem foldl_car {α : Type} {f : State → α → State} (hf : ∀ s x, (f s x).car = s.car) (l : List α) (s : State) :
    (l.foldl f s).car = s.car := foldl_part State.car hf l s
@[simp] theorem ite_cay (c : Prop) [Decidable c] (a b : State) :
    (if c then a else b).cay = if c then a.cay else b.cay := apply_ite State.cay c a b
@[simp] theorem foldl_cay {α : Type} {f : State → α → State} (hf : ∀ s x, (f s x).cay = s.cay) (l : List α) (s : State) :
    (l.foldl f s).cay = s.cay := foldl_part State.cay hf l s
@[simp] theorem ite_mdf (c : Prop) [Decidable c] (a b : State) :
    (if c then a else b).mdf = if c then a.mdf else b.mdf := apply_ite State.mdf c a b
@[simp] theorem foldl_mdf {α : Type} {f : State → α → State} (hf : ∀ s x, (f s x).mdf = s.mdf) (l : List α) (s : State) :
    (l.foldl f s).mdf = s.mdf := foldl_part State.mdf hf l s
@[simp] theorem ite_kst (c : Prop) [Decidable c] (a b : State) :
    (if c then a else b).kst = if c then a.kst else b.kst := apply_ite State.kst c a b
@[simp] theorem foldl_kst {α : Type} {f : State → α → State} (hf : ∀ s x, (f s x).kst = s.kst) (l : List α) (s : State) :
    (l.foldl f s).kst = s.kst := foldl_part State.kst hf l s
@[simp] theorem ite_leg (c : Prop) [Decidable c] (a b : State) :
    (if c then a else b).leg = if c then a.leg else b.leg := apply_ite State.leg c a b
@[simp] theorem foldl_leg {α : Type} {f : State → α → State} (hf : ∀ s x, (f s x).leg = s.leg) (l : List α) (s : State) :
    (l.foldl f s).leg = s.leg := foldl_part State.leg hf l s
@[simp] theorem ite_vlt (c : Prop) [Decidable c] (a b : State) :
    (if c then a else b).vlt = if c then a.vlt else b.vlt := apply_ite State.vlt c a b
@[simp] theorem foldl_vlt {α : Type} {f : State → α → State} (hf : ∀ s x, (f s x).vlt = s.vlt) (l : List α) (s : State) :
    (l.foldl f s).vlt = s.vlt := foldl_part State.vlt hf l s
@[simp] theorem ite_slc (c : Prop) [Decidable c] (a b : State) :
    (if c then a else b).slc = if c then a.slc else b.slc := apply_ite State.slc c a b
@[simp] theorem foldl_slc {α : Type} {f : State → α → State} (hf : ∀ s x, (f s x).slc = s.slc) (l : List α) (s : State) :
    (l.foldl f s).slc = s.slc := foldl_part State.slc hf l s
@[simp] theorem ite_evr (c : Prop) [Decidable c] (a b : State) :
    (if c then a else b).evr = if c then a.evr else b.evr := apply_ite State.evr c a b
@[simp] theorem foldl_evr {α : Type} {f : State → α → State} (hf : ∀ s x, (f s x).evr = s.evr) (l : List α) (s : State) :
    (l.foldl f s).evr = s.evr := foldl_part State.evr hf l s
@[simp] theorem ite_rng (c : Prop) [Decidable c] (a b : State) :
    (if c then a else b).rng = if c then a.rng else b.rng := apply_ite State.rng c a b
@[simp] theorem foldl_rng {α : Type} {f : State → α → State} (hf : ∀ s x, (f s x).rng = s.rng) (l : List α) (s : State) :
    (l.foldl f s).rng = s.rng := foldl_part State.rng hf l s
@[simp] theorem ite_lat (c : Prop) [Decidable c] (a b : State) :
    (if c then a else b).lat = if c then a.lat else b.lat := apply_ite State.lat c a b
@[simp] theorem foldl_lat {α : Type} {f : State → α → State} (hf : ∀ s x, (f s x).lat = s.lat) (l : List α) (s : State) :
    (l.foldl f s).lat = s.lat := foldl_part State.lat hf l s
@[simp] theorem ite_bnv (c : Prop) [Decidable c] (a b : State) :
    (if c then a else b).bnv = if c then a.bnv else b.bnv := apply_ite State.bnv c a b
@[simp] theorem foldl_bnv {α : Type} {f : State → α → State} (hf : ∀ s x, (f s x).bnv = s.bnv) (l : List α) (s : State) :
    (l.foldl f s).bnv = s.bnv := foldl_part State.bnv hf l s
@[simp] theorem ite_ucp (c : Prop) [Decidable c] (a b : State) :
    (if c then a else b).ucp = if c then a.ucp else b.ucp := apply_ite State.ucp c a b
@[simp] theorem foldl_ucp {α : Type} {f : State → α → State} (hf : ∀ s x, (f s x).ucp = s.ucp) (l : List α) (s : State) :
    (l.foldl f s).ucp = s.ucp := foldl_part State.ucp hf l s
@[simp] theorem ite_wld (c : Prop) [Decidable c] (a b : State) :
    (if c then a else b).wld = if c then a.wld else b.wld := apply_ite State.wld c a b
@[simp] theorem foldl_wld {α : Type} {f : State → α → State} (hf : ∀ s x, (f s x).wld = s.wld) (l : List α) (s : State) :
    (l.foldl f s).wld = s.wld := foldl_part State.wld hf l s
@[simp] theorem ite_tmp (c : Prop) [Decidable c] (a b : State) :
    (if c then a else b).tmp = if c then a.tmp else b.tmp := apply_ite State.tmp c a b
@[simp] theorem foldl_tmp {α : Type} {f : State → α → State} (hf : ∀ s x, (f s x).tmp = s.tmp) (l : List α) (s : State) :
    (l.foldl f s).tmp = s.tmp := foldl_part State.tmp hf l s
@[simp] theorem ite_bbr (c : Prop) [Decidable c] (a b : State) :
    (if c then a else b).bbr = if c then a.bbr else b.bbr := apply_ite State.bbr c a b
@[simp] theorem foldl_bbr {α : Type} {f : State → α → State} (hf : ∀ s x, (f s x).bbr = s.bbr) (l : List α) (s : State) :
    (l.foldl f s).bbr = s.bbr := foldl_part State.bbr hf l s
@[simp] theorem ite_lcs (c : Prop) [Decidable c] (a b : State) :
    (if c then a else b).lcs = if c then a.lcs else b.lcs := apply_ite State.lcs c a b
@[simp] theorem foldl_lcs {α : Type} {f : State → α → State} (hf : ∀ s x, (f s x).lcs = s.lcs) (l : List α) (s : State) :
    (l.foldl f s).lcs = s.lcs := foldl_part State.lcs hf l s
@[simp] theorem ite_fuses (c : Prop) [Decidable c] (a b : State) :
    (if c then a else b).fuses = if c then a.fuses else b.fuses := apply_ite State.fuses c a b
@[simp] theorem foldl_fuses {α : Type} {f : State → α → State} (hf : ∀ s x, (f s x).fuses = s.fuses) (l : List α) (s : State) :
    (l.foldl f s).fuses = s.fuses := foldl_part State.fuses hf l s
@[simp] theorem ite_mnf (c : Prop) [Decidable c] (a b : State) :
    (if c then a else b).mnf = if c then a.mnf else b.mnf := apply_ite State.mnf c a b
@[simp] theorem foldl_mnf {α : Type} {f : State → α → State} (hf : ∀ s x, (f s x).mnf = s.mnf) (l : List α) (s : State) :
    (l.foldl f s).mnf = s.mnf := foldl_part State.mnf hf l s
@[simp] theorem ite_flash (c : Prop) [Decidable c] (a b : State) :
    (if c then a else b).flash = if c then a.flash else b.flash := apply_ite State.flash c a b
@[simp] theorem foldl_flash {α : Type} {f : State → α → State} (hf : ∀ s x, (f s x).flash = s.flash) (l : List α) (s : State) :
    (l.foldl f s).flash = s.flash := foldl_part State.flash hf l s
@[simp] theorem ite_fwu (c : Prop) [Decidable c] (a b : State) :
    (if c then a else b).fwu = if c then a.fwu else b.fwu := apply_ite State.fwu c a b
@[simp] theorem foldl_fwu {α : Type} {f : State → α → State} (hf : ∀ s x, (f s x).fwu = s.fwu) (l : List α) (s : State) :
    (l.foldl f s).fwu = s.fwu := foldl_part State.fwu hf l s
@[simp] theorem ite_drb (c : Prop) [Decidable c] (a b : State) :
    (if c then a else b).drb = if c then a.drb else b.drb := apply_ite State.drb c a b
@[simp] theorem foldl_drb {α : Type} {f : State → α → State} (hf : ∀ s x, (f s x).drb = s.drb) (l : List α) (s : State) :
    (l.foldl f s).drb = s.drb := foldl_part State.drb hf l s
@[simp] theorem ite_mem (c : Prop) [Decidable c] (a b : State) :
    (if c then a else b).mem = if c then a.mem else b.mem := apply_ite State.mem c a b
@[simp] theorem foldl_mem {α : Type} {f : State → α → State} (hf : ∀ s x, (f s x).mem = s.mem) (l : List α) (s : State) :
    (l.foldl f s).mem = s.mem := foldl_part State.mem hf l s
@[simp] theorem ite_gov (c : Prop) [Decidable c] (a b : State) :
    (if c then a else b).gov = if c then a.gov else b.gov := apply_ite State.gov c a b
@[simp] theorem foldl_gov {α : Type} {f : State → α → State} (hf : ∀ s x, (f s x).gov = s.gov) (l : List α) (s : State) :
    (l.foldl f s).gov = s.gov := foldl_part State.gov hf l s
@[simp] theorem ite_shown (c : Prop) [Decidable c] (a b : State) :
    (if c then a else b).shown = if c then a.shown else b.shown := apply_ite State.shown c a b
@[simp] theorem foldl_shown {α : Type} {f : State → α → State} (hf : ∀ s x, (f s x).shown = s.shown) (l : List α) (s : State) :
    (l.foldl f s).shown = s.shown := foldl_part State.shown hf l s

end Sys2Proof.Laws
end

section
/-! SUPPORT. What the operations that end carriages leave. -/
namespace Sys2Proof.Laws

open Sys2Proof.Machine Sys2Proof.Safety

/-- What `markSiding` leaves. -/
@[simp] theorem markSiding_frame (s : State) :
    (markSiding s).pending = s.pending ∧ (markSiding s).out = s.out ∧ (markSiding s).free = s.free ∧
    (markSiding s).now = s.now ∧ (markSiding s).csn = s.csn ∧ (markSiding s).chp = s.chp ∧
    (markSiding s).pins = s.pins ∧ (markSiding s).hpt = s.hpt ∧ (markSiding s).stats = s.stats ∧
    (markSiding s).win = s.win ∧ (markSiding s).ttb = s.ttb ∧ (markSiding s).cay = s.cay ∧
    (markSiding s).mdf = s.mdf ∧ (markSiding s).kst = s.kst ∧ (markSiding s).leg = s.leg ∧
    (markSiding s).vlt = s.vlt ∧ (markSiding s).slc = s.slc ∧ (markSiding s).evr = s.evr ∧
    (markSiding s).rng = s.rng ∧ (markSiding s).lat = s.lat ∧ (markSiding s).bnv = s.bnv ∧
    (markSiding s).ucp = s.ucp ∧ (markSiding s).wld = s.wld ∧ (markSiding s).tmp = s.tmp ∧
    (markSiding s).bbr = s.bbr ∧ (markSiding s).lcs = s.lcs ∧ (markSiding s).fuses = s.fuses ∧
    (markSiding s).mnf = s.mnf ∧ (markSiding s).flash = s.flash ∧ (markSiding s).fwu = s.fwu ∧
    (markSiding s).drb = s.drb ∧ (markSiding s).mem = s.mem ∧ (markSiding s).gov = s.gov ∧
    (markSiding s).shown = s.shown := by
  simp [markSiding]

/-- What `countEnd` leaves. -/
@[simp] theorem countEnd_frame (c : Carriage) (status : Nat) (s : State) :
    (countEnd c status s).pending = s.pending ∧ (countEnd c status s).out = s.out ∧
    (countEnd c status s).free = s.free ∧ (countEnd c status s).now = s.now ∧ (countEnd c status s).csn = s.csn ∧
    (countEnd c status s).chp = s.chp ∧ (countEnd c status s).pins = s.pins ∧ (countEnd c status s).hpt = s.hpt ∧
    (countEnd c status s).stats = s.stats ∧ (countEnd c status s).win = s.win ∧ (countEnd c status s).ttb = s.ttb ∧
    (countEnd c status s).cay = s.cay ∧ (countEnd c status s).mdf = s.mdf ∧ (countEnd c status s).kst = s.kst ∧
    (countEnd c status s).leg = s.leg ∧ (countEnd c status s).vlt = s.vlt ∧ (countEnd c status s).slc = s.slc ∧
    (countEnd c status s).evr = s.evr ∧ (countEnd c status s).rng = s.rng ∧ (countEnd c status s).lat = s.lat ∧
    (countEnd c status s).bnv = s.bnv ∧ (countEnd c status s).ucp = s.ucp ∧ (countEnd c status s).wld = s.wld ∧
    (countEnd c status s).tmp = s.tmp ∧ (countEnd c status s).bbr = s.bbr ∧ (countEnd c status s).lcs = s.lcs ∧
    (countEnd c status s).fuses = s.fuses ∧ (countEnd c status s).mnf = s.mnf ∧
    (countEnd c status s).flash = s.flash ∧ (countEnd c status s).fwu = s.fwu ∧ (countEnd c status s).drb = s.drb ∧
    (countEnd c status s).mem = s.mem ∧ (countEnd c status s).gov = s.gov ∧
    (countEnd c status s).shown = s.shown := by
  simp [countEnd]

/-- What `purgeStaging` leaves. -/
@[simp] theorem purgeStaging_frame (f : KeyId → Bool) (s : State) :
    (purgeStaging f s).pending = s.pending ∧ (purgeStaging f s).out = s.out ∧ (purgeStaging f s).free = s.free ∧
    (purgeStaging f s).now = s.now ∧ (purgeStaging f s).csn = s.csn ∧ (purgeStaging f s).chp = s.chp ∧
    (purgeStaging f s).pins = s.pins ∧ (purgeStaging f s).hpt = s.hpt ∧ (purgeStaging f s).stats = s.stats ∧
    (purgeStaging f s).win = s.win ∧ (purgeStaging f s).ttb = s.ttb ∧ (purgeStaging f s).car = s.car ∧
    (purgeStaging f s).mdf = s.mdf ∧ (purgeStaging f s).kst = s.kst ∧ (purgeStaging f s).leg = s.leg ∧
    (purgeStaging f s).vlt = s.vlt ∧ (purgeStaging f s).slc = s.slc ∧ (purgeStaging f s).evr = s.evr ∧
    (purgeStaging f s).rng = s.rng ∧ (purgeStaging f s).lat = s.lat ∧ (purgeStaging f s).bnv = s.bnv ∧
    (purgeStaging f s).ucp = s.ucp ∧ (purgeStaging f s).wld = s.wld ∧ (purgeStaging f s).tmp = s.tmp ∧
    (purgeStaging f s).bbr = s.bbr ∧ (purgeStaging f s).lcs = s.lcs ∧ (purgeStaging f s).fuses = s.fuses ∧
    (purgeStaging f s).mnf = s.mnf ∧ (purgeStaging f s).flash = s.flash ∧ (purgeStaging f s).fwu = s.fwu ∧
    (purgeStaging f s).drb = s.drb ∧ (purgeStaging f s).mem = s.mem ∧ (purgeStaging f s).gov = s.gov ∧
    (purgeStaging f s).shown = s.shown := by
  simp [purgeStaging]

/-- What `zeroiseRetained` leaves. -/
@[simp] theorem zeroiseRetained_frame (i : Nat) (s : State) :
    (zeroiseRetained i s).pending = s.pending ∧ (zeroiseRetained i s).out = s.out ∧
    (zeroiseRetained i s).free = s.free ∧ (zeroiseRetained i s).now = s.now ∧ (zeroiseRetained i s).csn = s.csn ∧
    (zeroiseRetained i s).chp = s.chp ∧ (zeroiseRetained i s).pins = s.pins ∧ (zeroiseRetained i s).hpt = s.hpt ∧
    (zeroiseRetained i s).stats = s.stats ∧ (zeroiseRetained i s).win = s.win ∧ (zeroiseRetained i s).ttb = s.ttb ∧
    (zeroiseRetained i s).car = s.car ∧ (zeroiseRetained i s).mdf = s.mdf ∧ (zeroiseRetained i s).leg = s.leg ∧
    (zeroiseRetained i s).vlt = s.vlt ∧ (zeroiseRetained i s).slc = s.slc ∧ (zeroiseRetained i s).evr = s.evr ∧
    (zeroiseRetained i s).rng = s.rng ∧ (zeroiseRetained i s).lat = s.lat ∧ (zeroiseRetained i s).bnv = s.bnv ∧
    (zeroiseRetained i s).ucp = s.ucp ∧ (zeroiseRetained i s).wld = s.wld ∧ (zeroiseRetained i s).tmp = s.tmp ∧
    (zeroiseRetained i s).bbr = s.bbr ∧ (zeroiseRetained i s).lcs = s.lcs ∧ (zeroiseRetained i s).fuses = s.fuses ∧
    (zeroiseRetained i s).mnf = s.mnf ∧ (zeroiseRetained i s).flash = s.flash ∧ (zeroiseRetained i s).fwu = s.fwu ∧
    (zeroiseRetained i s).drb = s.drb ∧ (zeroiseRetained i s).mem = s.mem ∧ (zeroiseRetained i s).gov = s.gov ∧
    (zeroiseRetained i s).shown = s.shown := by
  unfold zeroiseRetained
  repeat' split
  all_goals simp

/-- What `zeroiseSlot` leaves. -/
@[simp] theorem zeroiseSlot_frame (i : Nat) (s : State) :
    (zeroiseSlot i s).pending = s.pending ∧ (zeroiseSlot i s).out = s.out ∧ (zeroiseSlot i s).free = s.free ∧
    (zeroiseSlot i s).now = s.now ∧ (zeroiseSlot i s).csn = s.csn ∧ (zeroiseSlot i s).chp = s.chp ∧
    (zeroiseSlot i s).pins = s.pins ∧ (zeroiseSlot i s).hpt = s.hpt ∧ (zeroiseSlot i s).stats = s.stats ∧
    (zeroiseSlot i s).win = s.win ∧ (zeroiseSlot i s).ttb = s.ttb ∧ (zeroiseSlot i s).car = s.car ∧
    (zeroiseSlot i s).mdf = s.mdf ∧ (zeroiseSlot i s).leg = s.leg ∧ (zeroiseSlot i s).vlt = s.vlt ∧
    (zeroiseSlot i s).slc = s.slc ∧ (zeroiseSlot i s).evr = s.evr ∧ (zeroiseSlot i s).rng = s.rng ∧
    (zeroiseSlot i s).lat = s.lat ∧ (zeroiseSlot i s).bnv = s.bnv ∧ (zeroiseSlot i s).ucp = s.ucp ∧
    (zeroiseSlot i s).wld = s.wld ∧ (zeroiseSlot i s).tmp = s.tmp ∧ (zeroiseSlot i s).bbr = s.bbr ∧
    (zeroiseSlot i s).lcs = s.lcs ∧ (zeroiseSlot i s).fuses = s.fuses ∧ (zeroiseSlot i s).mnf = s.mnf ∧
    (zeroiseSlot i s).flash = s.flash ∧ (zeroiseSlot i s).fwu = s.fwu ∧ (zeroiseSlot i s).drb = s.drb ∧
    (zeroiseSlot i s).mem = s.mem ∧ (zeroiseSlot i s).gov = s.gov ∧ (zeroiseSlot i s).shown = s.shown := by
  unfold zeroiseSlot
  repeat' split
  all_goals simp

/-- What `unuseSlot` leaves. -/
@[simp] theorem unuseSlot_frame (i g : Nat) (s : State) :
    (unuseSlot i g s).pending = s.pending ∧ (unuseSlot i g s).out = s.out ∧ (unuseSlot i g s).free = s.free ∧
    (unuseSlot i g s).now = s.now ∧ (unuseSlot i g s).chp = s.chp ∧ (unuseSlot i g s).pins = s.pins ∧
    (unuseSlot i g s).hpt = s.hpt ∧ (unuseSlot i g s).stats = s.stats ∧ (unuseSlot i g s).win = s.win ∧
    (unuseSlot i g s).ttb = s.ttb ∧ (unuseSlot i g s).car = s.car ∧ (unuseSlot i g s).mdf = s.mdf ∧
    (unuseSlot i g s).leg = s.leg ∧ (unuseSlot i g s).vlt = s.vlt ∧ (unuseSlot i g s).slc = s.slc ∧
    (unuseSlot i g s).evr = s.evr ∧ (unuseSlot i g s).rng = s.rng ∧ (unuseSlot i g s).lat = s.lat ∧
    (unuseSlot i g s).bnv = s.bnv ∧ (unuseSlot i g s).ucp = s.ucp ∧ (unuseSlot i g s).wld = s.wld ∧
    (unuseSlot i g s).tmp = s.tmp ∧ (unuseSlot i g s).bbr = s.bbr ∧ (unuseSlot i g s).lcs = s.lcs ∧
    (unuseSlot i g s).fuses = s.fuses ∧ (unuseSlot i g s).mnf = s.mnf ∧ (unuseSlot i g s).flash = s.flash ∧
    (unuseSlot i g s).fwu = s.fwu ∧ (unuseSlot i g s).drb = s.drb ∧ (unuseSlot i g s).mem = s.mem ∧
    (unuseSlot i g s).gov = s.gov ∧ (unuseSlot i g s).shown = s.shown := by
  simp [unuseSlot]

/-- What `unbind` leaves. -/
@[simp] theorem unbind_frame (k : KeyBind) (s : State) :
    (unbind k s).pending = s.pending ∧ (unbind k s).out = s.out ∧ (unbind k s).free = s.free ∧
    (unbind k s).now = s.now ∧ (unbind k s).chp = s.chp ∧ (unbind k s).pins = s.pins ∧ (unbind k s).hpt = s.hpt ∧
    (unbind k s).stats = s.stats ∧ (unbind k s).win = s.win ∧ (unbind k s).ttb = s.ttb ∧ (unbind k s).car = s.car ∧
    (unbind k s).mdf = s.mdf ∧ (unbind k s).leg = s.leg ∧ (unbind k s).vlt = s.vlt ∧ (unbind k s).slc = s.slc ∧
    (unbind k s).evr = s.evr ∧ (unbind k s).rng = s.rng ∧ (unbind k s).lat = s.lat ∧ (unbind k s).bnv = s.bnv ∧
    (unbind k s).ucp = s.ucp ∧ (unbind k s).wld = s.wld ∧ (unbind k s).tmp = s.tmp ∧ (unbind k s).bbr = s.bbr ∧
    (unbind k s).lcs = s.lcs ∧ (unbind k s).fuses = s.fuses ∧ (unbind k s).mnf = s.mnf ∧
    (unbind k s).flash = s.flash ∧ (unbind k s).fwu = s.fwu ∧ (unbind k s).drb = s.drb ∧ (unbind k s).mem = s.mem ∧
    (unbind k s).gov = s.gov ∧ (unbind k s).shown = s.shown := by
  unfold unbind
  repeat' split
  all_goals simp

/-- What `dropShadows` leaves. -/
@[simp] theorem dropShadows_frame (f : Shadow → Bool) (s : State) :
    (dropShadows f s).pending = s.pending ∧ (dropShadows f s).out = s.out ∧ (dropShadows f s).free = s.free ∧
    (dropShadows f s).now = s.now ∧ (dropShadows f s).csn = s.csn ∧ (dropShadows f s).chp = s.chp ∧
    (dropShadows f s).pins = s.pins ∧ (dropShadows f s).hpt = s.hpt ∧ (dropShadows f s).stats = s.stats ∧
    (dropShadows f s).win = s.win ∧ (dropShadows f s).ttb = s.ttb ∧ (dropShadows f s).cay = s.cay ∧
    (dropShadows f s).mdf = s.mdf ∧ (dropShadows f s).kst = s.kst ∧ (dropShadows f s).leg = s.leg ∧
    (dropShadows f s).vlt = s.vlt ∧ (dropShadows f s).slc = s.slc ∧ (dropShadows f s).evr = s.evr ∧
    (dropShadows f s).rng = s.rng ∧ (dropShadows f s).lat = s.lat ∧ (dropShadows f s).bnv = s.bnv ∧
    (dropShadows f s).ucp = s.ucp ∧ (dropShadows f s).wld = s.wld ∧ (dropShadows f s).tmp = s.tmp ∧
    (dropShadows f s).bbr = s.bbr ∧ (dropShadows f s).lcs = s.lcs ∧ (dropShadows f s).fuses = s.fuses ∧
    (dropShadows f s).mnf = s.mnf ∧ (dropShadows f s).flash = s.flash ∧ (dropShadows f s).fwu = s.fwu ∧
    (dropShadows f s).drb = s.drb ∧ (dropShadows f s).mem = s.mem ∧ (dropShadows f s).gov = s.gov ∧
    (dropShadows f s).shown = s.shown := by
  simp [dropShadows]

/-- What `unreserve` leaves. -/
@[simp] theorem unreserve_frame (t : Nat) (s : State) :
    (unreserve t s).pending = s.pending ∧ (unreserve t s).out = s.out ∧ (unreserve t s).free = s.free ∧
    (unreserve t s).now = s.now ∧ (unreserve t s).csn = s.csn ∧ (unreserve t s).chp = s.chp ∧
    (unreserve t s).pins = s.pins ∧ (unreserve t s).hpt = s.hpt ∧ (unreserve t s).stats = s.stats ∧
    (unreserve t s).win = s.win ∧ (unreserve t s).ttb = s.ttb ∧ (unreserve t s).cay = s.cay ∧
    (unreserve t s).mdf = s.mdf ∧ (unreserve t s).leg = s.leg ∧ (unreserve t s).vlt = s.vlt ∧
    (unreserve t s).slc = s.slc ∧ (unreserve t s).evr = s.evr ∧ (unreserve t s).rng = s.rng ∧
    (unreserve t s).lat = s.lat ∧ (unreserve t s).bnv = s.bnv ∧ (unreserve t s).ucp = s.ucp ∧
    (unreserve t s).wld = s.wld ∧ (unreserve t s).tmp = s.tmp ∧ (unreserve t s).bbr = s.bbr ∧
    (unreserve t s).lcs = s.lcs ∧ (unreserve t s).fuses = s.fuses ∧ (unreserve t s).mnf = s.mnf ∧
    (unreserve t s).flash = s.flash ∧ (unreserve t s).fwu = s.fwu ∧ (unreserve t s).drb = s.drb ∧
    (unreserve t s).mem = s.mem ∧ (unreserve t s).gov = s.gov ∧ (unreserve t s).shown = s.shown := by
  unfold unreserve
  repeat' split
  all_goals simp

/-- What `forget` leaves. -/
@[simp] theorem forget_frame (t : Nat) (s : State) :
    (forget t s).pending = s.pending ∧ (forget t s).out = s.out ∧ (forget t s).free = s.free ∧
    (forget t s).now = s.now ∧ (forget t s).csn = s.csn ∧ (forget t s).chp = s.chp ∧ (forget t s).pins = s.pins ∧
    (forget t s).hpt = s.hpt ∧ (forget t s).stats = s.stats ∧ (forget t s).win = s.win ∧ (forget t s).ttb = s.ttb ∧
    (forget t s).car = s.car ∧ (forget t s).cay = s.cay ∧ (forget t s).kst = s.kst ∧ (forget t s).leg = s.leg ∧
    (forget t s).evr = s.evr ∧ (forget t s).ucp = s.ucp ∧ (forget t s).wld = s.wld ∧ (forget t s).tmp = s.tmp ∧
    (forget t s).bbr = s.bbr ∧ (forget t s).lcs = s.lcs ∧ (forget t s).fuses = s.fuses ∧ (forget t s).mnf = s.mnf ∧
    (forget t s).flash = s.flash ∧ (forget t s).fwu = s.fwu ∧ (forget t s).drb = s.drb ∧ (forget t s).mem = s.mem ∧
    (forget t s).gov = s.gov ∧ (forget t s).shown = s.shown := by
  simp [forget]

/-- What `release` leaves. -/
@[simp] theorem release_frame (t : Nat) (s : State) :
    (release t s).pending = s.pending ∧ (release t s).out = s.out ∧ (release t s).free = s.free ∧
    (release t s).now = s.now ∧ (release t s).chp = s.chp ∧ (release t s).pins = s.pins ∧ (release t s).hpt = s.hpt ∧
    (release t s).stats = s.stats ∧ (release t s).win = s.win ∧ (release t s).ttb = s.ttb ∧
    (release t s).leg = s.leg ∧ (release t s).evr = s.evr ∧ (release t s).ucp = s.ucp ∧ (release t s).wld = s.wld ∧
    (release t s).tmp = s.tmp ∧ (release t s).bbr = s.bbr ∧ (release t s).lcs = s.lcs ∧
    (release t s).fuses = s.fuses ∧ (release t s).mnf = s.mnf ∧ (release t s).flash = s.flash ∧
    (release t s).fwu = s.fwu ∧ (release t s).drb = s.drb ∧ (release t s).mem = s.mem ∧ (release t s).gov = s.gov ∧
    (release t s).shown = s.shown := by
  simp [release]

/-- What `msixFire` leaves. -/
@[simp] theorem msixFire_frame (p : Port) (v : Nat) (s : State) :
    (msixFire p v s).pending = s.pending ∧ (msixFire p v s).free = s.free ∧ (msixFire p v s).now = s.now ∧
    (msixFire p v s).csn = s.csn ∧ (msixFire p v s).chp = s.chp ∧ (msixFire p v s).pins = s.pins ∧
    (msixFire p v s).hpt = s.hpt ∧ (msixFire p v s).win = s.win ∧ (msixFire p v s).ttb = s.ttb ∧
    (msixFire p v s).car = s.car ∧ (msixFire p v s).cay = s.cay ∧ (msixFire p v s).mdf = s.mdf ∧
    (msixFire p v s).kst = s.kst ∧ (msixFire p v s).leg = s.leg ∧ (msixFire p v s).vlt = s.vlt ∧
    (msixFire p v s).slc = s.slc ∧ (msixFire p v s).evr = s.evr ∧ (msixFire p v s).rng = s.rng ∧
    (msixFire p v s).lat = s.lat ∧ (msixFire p v s).bnv = s.bnv ∧ (msixFire p v s).ucp = s.ucp ∧
    (msixFire p v s).wld = s.wld ∧ (msixFire p v s).tmp = s.tmp ∧ (msixFire p v s).bbr = s.bbr ∧
    (msixFire p v s).lcs = s.lcs ∧ (msixFire p v s).fuses = s.fuses ∧ (msixFire p v s).mnf = s.mnf ∧
    (msixFire p v s).flash = s.flash ∧ (msixFire p v s).fwu = s.fwu ∧ (msixFire p v s).drb = s.drb ∧
    (msixFire p v s).mem = s.mem ∧ (msixFire p v s).gov = s.gov ∧ (msixFire p v s).shown = s.shown := by
  simp [msixFire]

/-- What `cqMessage` leaves. -/
@[simp] theorem cqMessage_frame (q : Nat) (s : State) :
    (cqMessage q s).pending = s.pending ∧ (cqMessage q s).free = s.free ∧ (cqMessage q s).now = s.now ∧
    (cqMessage q s).csn = s.csn ∧ (cqMessage q s).chp = s.chp ∧ (cqMessage q s).pins = s.pins ∧
    (cqMessage q s).hpt = s.hpt ∧ (cqMessage q s).win = s.win ∧ (cqMessage q s).ttb = s.ttb ∧
    (cqMessage q s).cay = s.cay ∧ (cqMessage q s).mdf = s.mdf ∧ (cqMessage q s).kst = s.kst ∧
    (cqMessage q s).leg = s.leg ∧ (cqMessage q s).vlt = s.vlt ∧ (cqMessage q s).slc = s.slc ∧
    (cqMessage q s).evr = s.evr ∧ (cqMessage q s).rng = s.rng ∧ (cqMessage q s).lat = s.lat ∧
    (cqMessage q s).bnv = s.bnv ∧ (cqMessage q s).ucp = s.ucp ∧ (cqMessage q s).wld = s.wld ∧
    (cqMessage q s).tmp = s.tmp ∧ (cqMessage q s).bbr = s.bbr ∧ (cqMessage q s).lcs = s.lcs ∧
    (cqMessage q s).fuses = s.fuses ∧ (cqMessage q s).mnf = s.mnf ∧ (cqMessage q s).flash = s.flash ∧
    (cqMessage q s).fwu = s.fwu ∧ (cqMessage q s).drb = s.drb ∧ (cqMessage q s).mem = s.mem ∧
    (cqMessage q s).gov = s.gov ∧ (cqMessage q s).shown = s.shown := by
  simp [cqMessage]

/-- What `coalesce` leaves. -/
@[simp] theorem coalesce_frame (q : Nat) (s : State) :
    (coalesce q s).pending = s.pending ∧ (coalesce q s).free = s.free ∧ (coalesce q s).now = s.now ∧
    (coalesce q s).csn = s.csn ∧ (coalesce q s).chp = s.chp ∧ (coalesce q s).pins = s.pins ∧
    (coalesce q s).hpt = s.hpt ∧ (coalesce q s).win = s.win ∧ (coalesce q s).ttb = s.ttb ∧
    (coalesce q s).cay = s.cay ∧ (coalesce q s).mdf = s.mdf ∧ (coalesce q s).kst = s.kst ∧
    (coalesce q s).leg = s.leg ∧ (coalesce q s).vlt = s.vlt ∧ (coalesce q s).slc = s.slc ∧
    (coalesce q s).evr = s.evr ∧ (coalesce q s).rng = s.rng ∧ (coalesce q s).lat = s.lat ∧
    (coalesce q s).bnv = s.bnv ∧ (coalesce q s).ucp = s.ucp ∧ (coalesce q s).wld = s.wld ∧
    (coalesce q s).tmp = s.tmp ∧ (coalesce q s).bbr = s.bbr ∧ (coalesce q s).lcs = s.lcs ∧
    (coalesce q s).fuses = s.fuses ∧ (coalesce q s).mnf = s.mnf ∧ (coalesce q s).flash = s.flash ∧
    (coalesce q s).fwu = s.fwu ∧ (coalesce q s).drb = s.drb ∧ (coalesce q s).mem = s.mem ∧
    (coalesce q s).gov = s.gov ∧ (coalesce q s).shown = s.shown := by
  simp [coalesce]

/-- What `dmaWrite` leaves. -/
@[simp] theorem dmaWrite_frame (p : Port) (pasid : Option Nat) (relaxed : Bool) (addr : Nat) (data : Bytes)
    (s : State) :
    (dmaWrite p pasid relaxed addr data s).pending = s.pending ∧
    (dmaWrite p pasid relaxed addr data s).free = s.free ∧ (dmaWrite p pasid relaxed addr data s).now = s.now ∧
    (dmaWrite p pasid relaxed addr data s).csn = s.csn ∧ (dmaWrite p pasid relaxed addr data s).chp = s.chp ∧
    (dmaWrite p pasid relaxed addr data s).pins = s.pins ∧ (dmaWrite p pasid relaxed addr data s).hpt = s.hpt ∧
    (dmaWrite p pasid relaxed addr data s).win = s.win ∧ (dmaWrite p pasid relaxed addr data s).ttb = s.ttb ∧
    (dmaWrite p pasid relaxed addr data s).car = s.car ∧ (dmaWrite p pasid relaxed addr data s).cay = s.cay ∧
    (dmaWrite p pasid relaxed addr data s).mdf = s.mdf ∧ (dmaWrite p pasid relaxed addr data s).kst = s.kst ∧
    (dmaWrite p pasid relaxed addr data s).leg = s.leg ∧ (dmaWrite p pasid relaxed addr data s).vlt = s.vlt ∧
    (dmaWrite p pasid relaxed addr data s).slc = s.slc ∧ (dmaWrite p pasid relaxed addr data s).evr = s.evr ∧
    (dmaWrite p pasid relaxed addr data s).rng = s.rng ∧ (dmaWrite p pasid relaxed addr data s).lat = s.lat ∧
    (dmaWrite p pasid relaxed addr data s).bnv = s.bnv ∧ (dmaWrite p pasid relaxed addr data s).ucp = s.ucp ∧
    (dmaWrite p pasid relaxed addr data s).wld = s.wld ∧ (dmaWrite p pasid relaxed addr data s).tmp = s.tmp ∧
    (dmaWrite p pasid relaxed addr data s).bbr = s.bbr ∧ (dmaWrite p pasid relaxed addr data s).lcs = s.lcs ∧
    (dmaWrite p pasid relaxed addr data s).fuses = s.fuses ∧ (dmaWrite p pasid relaxed addr data s).mnf = s.mnf ∧
    (dmaWrite p pasid relaxed addr data s).flash = s.flash ∧ (dmaWrite p pasid relaxed addr data s).fwu = s.fwu ∧
    (dmaWrite p pasid relaxed addr data s).drb = s.drb ∧ (dmaWrite p pasid relaxed addr data s).mem = s.mem ∧
    (dmaWrite p pasid relaxed addr data s).gov = s.gov ∧ (dmaWrite p pasid relaxed addr data s).shown = s.shown := by
  simp [dmaWrite]

/-- What `writeCqe` leaves. -/
@[simp] theorem writeCqe_frame (q : Nat) (sided imm : Bool) (e : Bytes) (s : State) :
    (writeCqe q sided imm e s).pending = s.pending ∧ (writeCqe q sided imm e s).free = s.free ∧
    (writeCqe q sided imm e s).now = s.now ∧ (writeCqe q sided imm e s).csn = s.csn ∧
    (writeCqe q sided imm e s).chp = s.chp ∧ (writeCqe q sided imm e s).pins = s.pins ∧
    (writeCqe q sided imm e s).hpt = s.hpt ∧ (writeCqe q sided imm e s).win = s.win ∧
    (writeCqe q sided imm e s).ttb = s.ttb ∧ (writeCqe q sided imm e s).cay = s.cay ∧
    (writeCqe q sided imm e s).mdf = s.mdf ∧ (writeCqe q sided imm e s).kst = s.kst ∧
    (writeCqe q sided imm e s).leg = s.leg ∧ (writeCqe q sided imm e s).vlt = s.vlt ∧
    (writeCqe q sided imm e s).slc = s.slc ∧ (writeCqe q sided imm e s).evr = s.evr ∧
    (writeCqe q sided imm e s).rng = s.rng ∧ (writeCqe q sided imm e s).lat = s.lat ∧
    (writeCqe q sided imm e s).bnv = s.bnv ∧ (writeCqe q sided imm e s).ucp = s.ucp ∧
    (writeCqe q sided imm e s).wld = s.wld ∧ (writeCqe q sided imm e s).tmp = s.tmp ∧
    (writeCqe q sided imm e s).bbr = s.bbr ∧ (writeCqe q sided imm e s).lcs = s.lcs ∧
    (writeCqe q sided imm e s).fuses = s.fuses ∧ (writeCqe q sided imm e s).mnf = s.mnf ∧
    (writeCqe q sided imm e s).flash = s.flash ∧ (writeCqe q sided imm e s).fwu = s.fwu ∧
    (writeCqe q sided imm e s).drb = s.drb ∧ (writeCqe q sided imm e s).mem = s.mem ∧
    (writeCqe q sided imm e s).gov = s.gov ∧ (writeCqe q sided imm e s).shown = s.shown := by
  simp [writeCqe]

/-- What `drainN` leaves. -/
@[simp] theorem drainN_frame (k q : Nat) (s : State) :
    (drainN k q s).pending = s.pending ∧ (drainN k q s).free = s.free ∧ (drainN k q s).now = s.now ∧
    (drainN k q s).csn = s.csn ∧ (drainN k q s).chp = s.chp ∧ (drainN k q s).pins = s.pins ∧
    (drainN k q s).hpt = s.hpt ∧ (drainN k q s).win = s.win ∧ (drainN k q s).ttb = s.ttb ∧
    (drainN k q s).cay = s.cay ∧ (drainN k q s).mdf = s.mdf ∧ (drainN k q s).kst = s.kst ∧
    (drainN k q s).leg = s.leg ∧ (drainN k q s).vlt = s.vlt ∧ (drainN k q s).slc = s.slc ∧
    (drainN k q s).evr = s.evr ∧ (drainN k q s).rng = s.rng ∧ (drainN k q s).lat = s.lat ∧
    (drainN k q s).bnv = s.bnv ∧ (drainN k q s).ucp = s.ucp ∧ (drainN k q s).wld = s.wld ∧
    (drainN k q s).tmp = s.tmp ∧ (drainN k q s).bbr = s.bbr ∧ (drainN k q s).lcs = s.lcs ∧
    (drainN k q s).fuses = s.fuses ∧ (drainN k q s).mnf = s.mnf ∧ (drainN k q s).flash = s.flash ∧
    (drainN k q s).fwu = s.fwu ∧ (drainN k q s).drb = s.drb ∧ (drainN k q s).mem = s.mem ∧
    (drainN k q s).gov = s.gov ∧ (drainN k q s).shown = s.shown := by
  induction k generalizing s with
  | zero => simp [drainN]
  | succ k ih =>
    unfold drainN
    dsimp only
    repeat' split
    all_goals simp [ih]

/-- What `drain` leaves. -/
@[simp] theorem drain_frame (q : Nat) (s : State) :
    (drain q s).pending = s.pending ∧ (drain q s).free = s.free ∧ (drain q s).now = s.now ∧ (drain q s).csn = s.csn ∧
    (drain q s).chp = s.chp ∧ (drain q s).pins = s.pins ∧ (drain q s).hpt = s.hpt ∧ (drain q s).win = s.win ∧
    (drain q s).ttb = s.ttb ∧ (drain q s).cay = s.cay ∧ (drain q s).mdf = s.mdf ∧ (drain q s).kst = s.kst ∧
    (drain q s).leg = s.leg ∧ (drain q s).vlt = s.vlt ∧ (drain q s).slc = s.slc ∧ (drain q s).evr = s.evr ∧
    (drain q s).rng = s.rng ∧ (drain q s).lat = s.lat ∧ (drain q s).bnv = s.bnv ∧ (drain q s).ucp = s.ucp ∧
    (drain q s).wld = s.wld ∧ (drain q s).tmp = s.tmp ∧ (drain q s).bbr = s.bbr ∧ (drain q s).lcs = s.lcs ∧
    (drain q s).fuses = s.fuses ∧ (drain q s).mnf = s.mnf ∧ (drain q s).flash = s.flash ∧ (drain q s).fwu = s.fwu ∧
    (drain q s).drb = s.drb ∧ (drain q s).mem = s.mem ∧ (drain q s).gov = s.gov ∧ (drain q s).shown = s.shown := by
  simp [drain]

/-- What `place` leaves. -/
@[simp] theorem place_frame (q : Nat) (imm : Bool) (e : Bytes) (s : State) :
    (place q imm e s).pending = s.pending ∧ (place q imm e s).free = s.free ∧ (place q imm e s).now = s.now ∧
    (place q imm e s).csn = s.csn ∧ (place q imm e s).chp = s.chp ∧ (place q imm e s).pins = s.pins ∧
    (place q imm e s).hpt = s.hpt ∧ (place q imm e s).win = s.win ∧ (place q imm e s).ttb = s.ttb ∧
    (place q imm e s).cay = s.cay ∧ (place q imm e s).mdf = s.mdf ∧ (place q imm e s).kst = s.kst ∧
    (place q imm e s).leg = s.leg ∧ (place q imm e s).vlt = s.vlt ∧ (place q imm e s).slc = s.slc ∧
    (place q imm e s).evr = s.evr ∧ (place q imm e s).rng = s.rng ∧ (place q imm e s).lat = s.lat ∧
    (place q imm e s).bnv = s.bnv ∧ (place q imm e s).ucp = s.ucp ∧ (place q imm e s).wld = s.wld ∧
    (place q imm e s).tmp = s.tmp ∧ (place q imm e s).bbr = s.bbr ∧ (place q imm e s).lcs = s.lcs ∧
    (place q imm e s).fuses = s.fuses ∧ (place q imm e s).mnf = s.mnf ∧ (place q imm e s).flash = s.flash ∧
    (place q imm e s).fwu = s.fwu ∧ (place q imm e s).drb = s.drb ∧ (place q imm e s).mem = s.mem ∧
    (place q imm e s).gov = s.gov ∧ (place q imm e s).shown = s.shown := by
  simp [place]

/-- What `writeBack` leaves. -/
@[simp] theorem writeBack_frame (g : Nat) (s : State) :
    (writeBack g s).pending = s.pending ∧ (writeBack g s).free = s.free ∧ (writeBack g s).now = s.now ∧
    (writeBack g s).csn = s.csn ∧ (writeBack g s).chp = s.chp ∧ (writeBack g s).pins = s.pins ∧
    (writeBack g s).hpt = s.hpt ∧ (writeBack g s).win = s.win ∧ (writeBack g s).ttb = s.ttb ∧
    (writeBack g s).cay = s.cay ∧ (writeBack g s).mdf = s.mdf ∧ (writeBack g s).kst = s.kst ∧
    (writeBack g s).leg = s.leg ∧ (writeBack g s).vlt = s.vlt ∧ (writeBack g s).slc = s.slc ∧
    (writeBack g s).evr = s.evr ∧ (writeBack g s).rng = s.rng ∧ (writeBack g s).lat = s.lat ∧
    (writeBack g s).bnv = s.bnv ∧ (writeBack g s).ucp = s.ucp ∧ (writeBack g s).wld = s.wld ∧
    (writeBack g s).tmp = s.tmp ∧ (writeBack g s).bbr = s.bbr ∧ (writeBack g s).lcs = s.lcs ∧
    (writeBack g s).fuses = s.fuses ∧ (writeBack g s).mnf = s.mnf ∧ (writeBack g s).flash = s.flash ∧
    (writeBack g s).fwu = s.fwu ∧ (writeBack g s).drb = s.drb ∧ (writeBack g s).mem = s.mem ∧
    (writeBack g s).gov = s.gov ∧ (writeBack g s).shown = s.shown := by
  simp [writeBack]

/-- What `stampBrake` leaves. -/
@[simp] theorem stampBrake_frame (q : Nat) (s : State) :
    (stampBrake q s).pending = s.pending ∧ (stampBrake q s).out = s.out ∧ (stampBrake q s).free = s.free ∧
    (stampBrake q s).now = s.now ∧ (stampBrake q s).csn = s.csn ∧ (stampBrake q s).chp = s.chp ∧
    (stampBrake q s).pins = s.pins ∧ (stampBrake q s).hpt = s.hpt ∧ (stampBrake q s).stats = s.stats ∧
    (stampBrake q s).win = s.win ∧ (stampBrake q s).ttb = s.ttb ∧ (stampBrake q s).cay = s.cay ∧
    (stampBrake q s).mdf = s.mdf ∧ (stampBrake q s).kst = s.kst ∧ (stampBrake q s).leg = s.leg ∧
    (stampBrake q s).vlt = s.vlt ∧ (stampBrake q s).slc = s.slc ∧ (stampBrake q s).evr = s.evr ∧
    (stampBrake q s).rng = s.rng ∧ (stampBrake q s).lat = s.lat ∧ (stampBrake q s).bnv = s.bnv ∧
    (stampBrake q s).ucp = s.ucp ∧ (stampBrake q s).wld = s.wld ∧ (stampBrake q s).tmp = s.tmp ∧
    (stampBrake q s).bbr = s.bbr ∧ (stampBrake q s).lcs = s.lcs ∧ (stampBrake q s).fuses = s.fuses ∧
    (stampBrake q s).mnf = s.mnf ∧ (stampBrake q s).flash = s.flash ∧ (stampBrake q s).fwu = s.fwu ∧
    (stampBrake q s).drb = s.drb ∧ (stampBrake q s).mem = s.mem ∧ (stampBrake q s).gov = s.gov ∧
    (stampBrake q s).shown = s.shown := by
  simp [stampBrake]

/-- What `loseCopies` leaves. -/
@[simp] theorem loseCopies_frame (g : Nat) (s : State) :
    (loseCopies g s).pending = s.pending ∧ (loseCopies g s).out = s.out ∧ (loseCopies g s).free = s.free ∧
    (loseCopies g s).now = s.now ∧ (loseCopies g s).csn = s.csn ∧ (loseCopies g s).chp = s.chp ∧
    (loseCopies g s).pins = s.pins ∧ (loseCopies g s).hpt = s.hpt ∧ (loseCopies g s).stats = s.stats ∧
    (loseCopies g s).win = s.win ∧ (loseCopies g s).ttb = s.ttb ∧ (loseCopies g s).cay = s.cay ∧
    (loseCopies g s).mdf = s.mdf ∧ (loseCopies g s).kst = s.kst ∧ (loseCopies g s).leg = s.leg ∧
    (loseCopies g s).vlt = s.vlt ∧ (loseCopies g s).slc = s.slc ∧ (loseCopies g s).evr = s.evr ∧
    (loseCopies g s).rng = s.rng ∧ (loseCopies g s).lat = s.lat ∧ (loseCopies g s).bnv = s.bnv ∧
    (loseCopies g s).ucp = s.ucp ∧ (loseCopies g s).wld = s.wld ∧ (loseCopies g s).tmp = s.tmp ∧
    (loseCopies g s).bbr = s.bbr ∧ (loseCopies g s).lcs = s.lcs ∧ (loseCopies g s).fuses = s.fuses ∧
    (loseCopies g s).mnf = s.mnf ∧ (loseCopies g s).flash = s.flash ∧ (loseCopies g s).fwu = s.fwu ∧
    (loseCopies g s).drb = s.drb ∧ (loseCopies g s).mem = s.mem ∧ (loseCopies g s).gov = s.gov ∧
    (loseCopies g s).shown = s.shown := by
  simp [loseCopies]

/-- What `setRing` leaves. -/
@[simp] theorem setRing_frame (g : Nat) (st : RingState) (s : State) :
    (setRing g st s).pending = s.pending ∧ (setRing g st s).out = s.out ∧ (setRing g st s).free = s.free ∧
    (setRing g st s).now = s.now ∧ (setRing g st s).csn = s.csn ∧ (setRing g st s).chp = s.chp ∧
    (setRing g st s).pins = s.pins ∧ (setRing g st s).hpt = s.hpt ∧ (setRing g st s).stats = s.stats ∧
    (setRing g st s).win = s.win ∧ (setRing g st s).ttb = s.ttb ∧ (setRing g st s).cay = s.cay ∧
    (setRing g st s).mdf = s.mdf ∧ (setRing g st s).kst = s.kst ∧ (setRing g st s).leg = s.leg ∧
    (setRing g st s).vlt = s.vlt ∧ (setRing g st s).slc = s.slc ∧ (setRing g st s).evr = s.evr ∧
    (setRing g st s).rng = s.rng ∧ (setRing g st s).lat = s.lat ∧ (setRing g st s).bnv = s.bnv ∧
    (setRing g st s).ucp = s.ucp ∧ (setRing g st s).wld = s.wld ∧ (setRing g st s).tmp = s.tmp ∧
    (setRing g st s).bbr = s.bbr ∧ (setRing g st s).lcs = s.lcs ∧ (setRing g st s).fuses = s.fuses ∧
    (setRing g st s).mnf = s.mnf ∧ (setRing g st s).flash = s.flash ∧ (setRing g st s).fwu = s.fwu ∧
    (setRing g st s).drb = s.drb ∧ (setRing g st s).mem = s.mem ∧ (setRing g st s).gov = s.gov ∧
    (setRing g st s).shown = s.shown := by
  simp [setRing]

/-- What `brakeOne` leaves. -/
@[simp] theorem brakeOne_frame (blocked : Bool) (s : State) (g : Nat) :
    (brakeOne blocked s g).pending = s.pending ∧ (brakeOne blocked s g).out = s.out ∧
    (brakeOne blocked s g).free = s.free ∧ (brakeOne blocked s g).now = s.now ∧ (brakeOne blocked s g).csn = s.csn ∧
    (brakeOne blocked s g).chp = s.chp ∧ (brakeOne blocked s g).pins = s.pins ∧ (brakeOne blocked s g).hpt = s.hpt ∧
    (brakeOne blocked s g).stats = s.stats ∧ (brakeOne blocked s g).win = s.win ∧ (brakeOne blocked s g).ttb = s.ttb ∧
    (brakeOne blocked s g).cay = s.cay ∧ (brakeOne blocked s g).mdf = s.mdf ∧ (brakeOne blocked s g).kst = s.kst ∧
    (brakeOne blocked s g).leg = s.leg ∧ (brakeOne blocked s g).vlt = s.vlt ∧ (brakeOne blocked s g).slc = s.slc ∧
    (brakeOne blocked s g).evr = s.evr ∧ (brakeOne blocked s g).rng = s.rng ∧ (brakeOne blocked s g).lat = s.lat ∧
    (brakeOne blocked s g).bnv = s.bnv ∧ (brakeOne blocked s g).ucp = s.ucp ∧ (brakeOne blocked s g).wld = s.wld ∧
    (brakeOne blocked s g).tmp = s.tmp ∧ (brakeOne blocked s g).bbr = s.bbr ∧ (brakeOne blocked s g).lcs = s.lcs ∧
    (brakeOne blocked s g).fuses = s.fuses ∧ (brakeOne blocked s g).mnf = s.mnf ∧
    (brakeOne blocked s g).flash = s.flash ∧ (brakeOne blocked s g).fwu = s.fwu ∧ (brakeOne blocked s g).drb = s.drb ∧
    (brakeOne blocked s g).mem = s.mem ∧ (brakeOne blocked s g).gov = s.gov ∧
    (brakeOne blocked s g).shown = s.shown := by
  simp [brakeOne]

/-- What `rebrake` leaves. -/
@[simp] theorem rebrake_frame (q : Nat) (s : State) :
    (rebrake q s).pending = s.pending ∧ (rebrake q s).out = s.out ∧ (rebrake q s).free = s.free ∧
    (rebrake q s).now = s.now ∧ (rebrake q s).csn = s.csn ∧ (rebrake q s).chp = s.chp ∧ (rebrake q s).pins = s.pins ∧
    (rebrake q s).hpt = s.hpt ∧ (rebrake q s).stats = s.stats ∧ (rebrake q s).win = s.win ∧
    (rebrake q s).ttb = s.ttb ∧ (rebrake q s).cay = s.cay ∧ (rebrake q s).mdf = s.mdf ∧ (rebrake q s).kst = s.kst ∧
    (rebrake q s).leg = s.leg ∧ (rebrake q s).vlt = s.vlt ∧ (rebrake q s).slc = s.slc ∧ (rebrake q s).evr = s.evr ∧
    (rebrake q s).rng = s.rng ∧ (rebrake q s).lat = s.lat ∧ (rebrake q s).bnv = s.bnv ∧ (rebrake q s).ucp = s.ucp ∧
    (rebrake q s).wld = s.wld ∧ (rebrake q s).tmp = s.tmp ∧ (rebrake q s).bbr = s.bbr ∧ (rebrake q s).lcs = s.lcs ∧
    (rebrake q s).fuses = s.fuses ∧ (rebrake q s).mnf = s.mnf ∧ (rebrake q s).flash = s.flash ∧
    (rebrake q s).fwu = s.fwu ∧ (rebrake q s).drb = s.drb ∧ (rebrake q s).mem = s.mem ∧ (rebrake q s).gov = s.gov ∧
    (rebrake q s).shown = s.shown := by
  simp [rebrake]

/-- What `relieve` leaves. -/
@[simp] theorem relieve_frame (s : State) :
    (relieve s).pending = s.pending ∧ (relieve s).out = s.out ∧ (relieve s).free = s.free ∧ (relieve s).now = s.now ∧
    (relieve s).csn = s.csn ∧ (relieve s).chp = s.chp ∧ (relieve s).pins = s.pins ∧ (relieve s).hpt = s.hpt ∧
    (relieve s).stats = s.stats ∧ (relieve s).win = s.win ∧ (relieve s).ttb = s.ttb ∧ (relieve s).cay = s.cay ∧
    (relieve s).mdf = s.mdf ∧ (relieve s).kst = s.kst ∧ (relieve s).leg = s.leg ∧ (relieve s).vlt = s.vlt ∧
    (relieve s).slc = s.slc ∧ (relieve s).evr = s.evr ∧ (relieve s).rng = s.rng ∧ (relieve s).lat = s.lat ∧
    (relieve s).bnv = s.bnv ∧ (relieve s).ucp = s.ucp ∧ (relieve s).wld = s.wld ∧ (relieve s).tmp = s.tmp ∧
    (relieve s).bbr = s.bbr ∧ (relieve s).lcs = s.lcs ∧ (relieve s).fuses = s.fuses ∧ (relieve s).mnf = s.mnf ∧
    (relieve s).flash = s.flash ∧ (relieve s).fwu = s.fwu ∧ (relieve s).drb = s.drb ∧ (relieve s).mem = s.mem ∧
    (relieve s).gov = s.gov ∧ (relieve s).shown = s.shown := by
  simp [relieve]

/-- What `finishAt` leaves. -/
@[simp] theorem finishAt_frame (t status result : Nat) (s : State) :
    (finishAt t status result s).pending = s.pending ∧ (finishAt t status result s).free = s.free ∧
    (finishAt t status result s).now = s.now ∧ (finishAt t status result s).chp = s.chp ∧
    (finishAt t status result s).pins = s.pins ∧ (finishAt t status result s).hpt = s.hpt ∧
    (finishAt t status result s).win = s.win ∧ (finishAt t status result s).ttb = s.ttb ∧
    (finishAt t status result s).leg = s.leg ∧ (finishAt t status result s).evr = s.evr ∧
    (finishAt t status result s).ucp = s.ucp ∧ (finishAt t status result s).wld = s.wld ∧
    (finishAt t status result s).tmp = s.tmp ∧ (finishAt t status result s).bbr = s.bbr ∧
    (finishAt t status result s).lcs = s.lcs ∧ (finishAt t status result s).fuses = s.fuses ∧
    (finishAt t status result s).mnf = s.mnf ∧ (finishAt t status result s).flash = s.flash ∧
    (finishAt t status result s).fwu = s.fwu ∧ (finishAt t status result s).drb = s.drb ∧
    (finishAt t status result s).mem = s.mem ∧ (finishAt t status result s).gov = s.gov ∧
    (finishAt t status result s).shown = s.shown := by
  simp [finishAt]

/-- What `finish` leaves. -/
@[simp] theorem finish_frame (t status result : Nat) (s : State) :
    (finish t status result s).pending = s.pending ∧ (finish t status result s).free = s.free ∧
    (finish t status result s).now = s.now ∧ (finish t status result s).chp = s.chp ∧
    (finish t status result s).pins = s.pins ∧ (finish t status result s).hpt = s.hpt ∧
    (finish t status result s).win = s.win ∧ (finish t status result s).ttb = s.ttb ∧
    (finish t status result s).leg = s.leg ∧ (finish t status result s).evr = s.evr ∧
    (finish t status result s).ucp = s.ucp ∧ (finish t status result s).wld = s.wld ∧
    (finish t status result s).tmp = s.tmp ∧ (finish t status result s).bbr = s.bbr ∧
    (finish t status result s).lcs = s.lcs ∧ (finish t status result s).fuses = s.fuses ∧
    (finish t status result s).mnf = s.mnf ∧ (finish t status result s).flash = s.flash ∧
    (finish t status result s).fwu = s.fwu ∧ (finish t status result s).drb = s.drb ∧
    (finish t status result s).mem = s.mem ∧ (finish t status result s).gov = s.gov ∧
    (finish t status result s).shown = s.shown := by
  simp [finish]

/-- What `park` leaves. -/
@[simp] theorem park_frame (t status result : Nat) (s : State) :
    (park t status result s).pending = s.pending ∧ (park t status result s).out = s.out ∧
    (park t status result s).free = s.free ∧ (park t status result s).now = s.now ∧
    (park t status result s).csn = s.csn ∧ (park t status result s).chp = s.chp ∧
    (park t status result s).pins = s.pins ∧ (park t status result s).hpt = s.hpt ∧
    (park t status result s).stats = s.stats ∧ (park t status result s).win = s.win ∧
    (park t status result s).ttb = s.ttb ∧ (park t status result s).cay = s.cay ∧
    (park t status result s).mdf = s.mdf ∧ (park t status result s).kst = s.kst ∧
    (park t status result s).leg = s.leg ∧ (park t status result s).vlt = s.vlt ∧
    (park t status result s).slc = s.slc ∧ (park t status result s).evr = s.evr ∧
    (park t status result s).rng = s.rng ∧ (park t status result s).lat = s.lat ∧
    (park t status result s).bnv = s.bnv ∧ (park t status result s).ucp = s.ucp ∧
    (park t status result s).wld = s.wld ∧ (park t status result s).tmp = s.tmp ∧
    (park t status result s).bbr = s.bbr ∧ (park t status result s).lcs = s.lcs ∧
    (park t status result s).fuses = s.fuses ∧ (park t status result s).mnf = s.mnf ∧
    (park t status result s).flash = s.flash ∧ (park t status result s).fwu = s.fwu ∧
    (park t status result s).drb = s.drb ∧ (park t status result s).mem = s.mem ∧
    (park t status result s).gov = s.gov ∧ (park t status result s).shown = s.shown := by
  simp [park]

/-- What `complete` leaves. -/
@[simp] theorem complete_frame (t status result : Nat) (s : State) :
    (complete t status result s).pending = s.pending ∧ (complete t status result s).free = s.free ∧
    (complete t status result s).now = s.now ∧ (complete t status result s).chp = s.chp ∧
    (complete t status result s).pins = s.pins ∧ (complete t status result s).hpt = s.hpt ∧
    (complete t status result s).win = s.win ∧ (complete t status result s).ttb = s.ttb ∧
    (complete t status result s).leg = s.leg ∧ (complete t status result s).evr = s.evr ∧
    (complete t status result s).ucp = s.ucp ∧ (complete t status result s).wld = s.wld ∧
    (complete t status result s).tmp = s.tmp ∧ (complete t status result s).bbr = s.bbr ∧
    (complete t status result s).lcs = s.lcs ∧ (complete t status result s).fuses = s.fuses ∧
    (complete t status result s).mnf = s.mnf ∧ (complete t status result s).flash = s.flash ∧
    (complete t status result s).fwu = s.fwu ∧ (complete t status result s).drb = s.drb ∧
    (complete t status result s).mem = s.mem ∧ (complete t status result s).gov = s.gov ∧
    (complete t status result s).shown = s.shown := by
  simp [complete]

/-- What posted writes in turn leave. -/
theorem dmaWriteFold_frame (p : Port) (pasid : Option Nat) (relaxed : Bool) (l : List Bytes) (x : Nat × State) :
   
    (l.foldl (fun (x : Nat × State) d => (x.1 + d.length, dmaWrite p pasid relaxed x.1 d x.2)) x).2.pending = x.2.pending ∧
    (l.foldl (fun (x : Nat × State) d => (x.1 + d.length, dmaWrite p pasid relaxed x.1 d x.2)) x).2.free = x.2.free ∧
    (l.foldl (fun (x : Nat × State) d => (x.1 + d.length, dmaWrite p pasid relaxed x.1 d x.2)) x).2.now = x.2.now ∧
    (l.foldl (fun (x : Nat × State) d => (x.1 + d.length, dmaWrite p pasid relaxed x.1 d x.2)) x).2.csn = x.2.csn ∧
    (l.foldl (fun (x : Nat × State) d => (x.1 + d.length, dmaWrite p pasid relaxed x.1 d x.2)) x).2.chp = x.2.chp ∧
    (l.foldl (fun (x : Nat × State) d => (x.1 + d.length, dmaWrite p pasid relaxed x.1 d x.2)) x).2.pins = x.2.pins ∧
    (l.foldl (fun (x : Nat × State) d => (x.1 + d.length, dmaWrite p pasid relaxed x.1 d x.2)) x).2.hpt = x.2.hpt ∧
    (l.foldl (fun (x : Nat × State) d => (x.1 + d.length, dmaWrite p pasid relaxed x.1 d x.2)) x).2.win = x.2.win ∧
    (l.foldl (fun (x : Nat × State) d => (x.1 + d.length, dmaWrite p pasid relaxed x.1 d x.2)) x).2.ttb = x.2.ttb ∧
    (l.foldl (fun (x : Nat × State) d => (x.1 + d.length, dmaWrite p pasid relaxed x.1 d x.2)) x).2.car = x.2.car ∧
    (l.foldl (fun (x : Nat × State) d => (x.1 + d.length, dmaWrite p pasid relaxed x.1 d x.2)) x).2.cay = x.2.cay ∧
    (l.foldl (fun (x : Nat × State) d => (x.1 + d.length, dmaWrite p pasid relaxed x.1 d x.2)) x).2.mdf = x.2.mdf ∧
    (l.foldl (fun (x : Nat × State) d => (x.1 + d.length, dmaWrite p pasid relaxed x.1 d x.2)) x).2.kst = x.2.kst ∧
    (l.foldl (fun (x : Nat × State) d => (x.1 + d.length, dmaWrite p pasid relaxed x.1 d x.2)) x).2.leg = x.2.leg ∧
    (l.foldl (fun (x : Nat × State) d => (x.1 + d.length, dmaWrite p pasid relaxed x.1 d x.2)) x).2.vlt = x.2.vlt ∧
    (l.foldl (fun (x : Nat × State) d => (x.1 + d.length, dmaWrite p pasid relaxed x.1 d x.2)) x).2.slc = x.2.slc ∧
    (l.foldl (fun (x : Nat × State) d => (x.1 + d.length, dmaWrite p pasid relaxed x.1 d x.2)) x).2.evr = x.2.evr ∧
    (l.foldl (fun (x : Nat × State) d => (x.1 + d.length, dmaWrite p pasid relaxed x.1 d x.2)) x).2.rng = x.2.rng ∧
    (l.foldl (fun (x : Nat × State) d => (x.1 + d.length, dmaWrite p pasid relaxed x.1 d x.2)) x).2.lat = x.2.lat ∧
    (l.foldl (fun (x : Nat × State) d => (x.1 + d.length, dmaWrite p pasid relaxed x.1 d x.2)) x).2.bnv = x.2.bnv ∧
    (l.foldl (fun (x : Nat × State) d => (x.1 + d.length, dmaWrite p pasid relaxed x.1 d x.2)) x).2.ucp = x.2.ucp ∧
    (l.foldl (fun (x : Nat × State) d => (x.1 + d.length, dmaWrite p pasid relaxed x.1 d x.2)) x).2.wld = x.2.wld ∧
    (l.foldl (fun (x : Nat × State) d => (x.1 + d.length, dmaWrite p pasid relaxed x.1 d x.2)) x).2.tmp = x.2.tmp ∧
    (l.foldl (fun (x : Nat × State) d => (x.1 + d.length, dmaWrite p pasid relaxed x.1 d x.2)) x).2.bbr = x.2.bbr ∧
    (l.foldl (fun (x : Nat × State) d => (x.1 + d.length, dmaWrite p pasid relaxed x.1 d x.2)) x).2.lcs = x.2.lcs ∧
    (l.foldl (fun (x : Nat × State) d => (x.1 + d.length, dmaWrite p pasid relaxed x.1 d x.2)) x).2.fuses = x.2.fuses ∧
    (l.foldl (fun (x : Nat × State) d => (x.1 + d.length, dmaWrite p pasid relaxed x.1 d x.2)) x).2.mnf = x.2.mnf ∧
    (l.foldl (fun (x : Nat × State) d => (x.1 + d.length, dmaWrite p pasid relaxed x.1 d x.2)) x).2.flash = x.2.flash ∧
    (l.foldl (fun (x : Nat × State) d => (x.1 + d.length, dmaWrite p pasid relaxed x.1 d x.2)) x).2.fwu = x.2.fwu ∧
    (l.foldl (fun (x : Nat × State) d => (x.1 + d.length, dmaWrite p pasid relaxed x.1 d x.2)) x).2.drb = x.2.drb ∧
    (l.foldl (fun (x : Nat × State) d => (x.1 + d.length, dmaWrite p pasid relaxed x.1 d x.2)) x).2.mem = x.2.mem ∧
    (l.foldl (fun (x : Nat × State) d => (x.1 + d.length, dmaWrite p pasid relaxed x.1 d x.2)) x).2.gov = x.2.gov ∧
    (l.foldl (fun (x : Nat × State) d => (x.1 + d.length, dmaWrite p pasid relaxed x.1 d x.2)) x).2.shown = x.2.shown := by
  induction l generalizing x with
  | nil => simp
  | cons d l ih => simp [ih]

/-- What `dmaWriteMps` leaves. -/
@[simp] theorem dmaWriteMps_frame (p : Port) (pasid : Option Nat) (relaxed : Bool) (addr : Nat) (data : Bytes)
    (s : State) :
    (dmaWriteMps p pasid relaxed addr data s).pending = s.pending ∧
    (dmaWriteMps p pasid relaxed addr data s).free = s.free ∧ (dmaWriteMps p pasid relaxed addr data s).now = s.now ∧
    (dmaWriteMps p pasid relaxed addr data s).csn = s.csn ∧ (dmaWriteMps p pasid relaxed addr data s).chp = s.chp ∧
    (dmaWriteMps p pasid relaxed addr data s).pins = s.pins ∧ (dmaWriteMps p pasid relaxed addr data s).hpt = s.hpt ∧
    (dmaWriteMps p pasid relaxed addr data s).win = s.win ∧ (dmaWriteMps p pasid relaxed addr data s).ttb = s.ttb ∧
    (dmaWriteMps p pasid relaxed addr data s).car = s.car ∧ (dmaWriteMps p pasid relaxed addr data s).cay = s.cay ∧
    (dmaWriteMps p pasid relaxed addr data s).mdf = s.mdf ∧ (dmaWriteMps p pasid relaxed addr data s).kst = s.kst ∧
    (dmaWriteMps p pasid relaxed addr data s).leg = s.leg ∧ (dmaWriteMps p pasid relaxed addr data s).vlt = s.vlt ∧
    (dmaWriteMps p pasid relaxed addr data s).slc = s.slc ∧ (dmaWriteMps p pasid relaxed addr data s).evr = s.evr ∧
    (dmaWriteMps p pasid relaxed addr data s).rng = s.rng ∧ (dmaWriteMps p pasid relaxed addr data s).lat = s.lat ∧
    (dmaWriteMps p pasid relaxed addr data s).bnv = s.bnv ∧ (dmaWriteMps p pasid relaxed addr data s).ucp = s.ucp ∧
    (dmaWriteMps p pasid relaxed addr data s).wld = s.wld ∧ (dmaWriteMps p pasid relaxed addr data s).tmp = s.tmp ∧
    (dmaWriteMps p pasid relaxed addr data s).bbr = s.bbr ∧ (dmaWriteMps p pasid relaxed addr data s).lcs = s.lcs ∧
    (dmaWriteMps p pasid relaxed addr data s).fuses = s.fuses ∧
    (dmaWriteMps p pasid relaxed addr data s).mnf = s.mnf ∧
    (dmaWriteMps p pasid relaxed addr data s).flash = s.flash ∧
    (dmaWriteMps p pasid relaxed addr data s).fwu = s.fwu ∧ (dmaWriteMps p pasid relaxed addr data s).drb = s.drb ∧
    (dmaWriteMps p pasid relaxed addr data s).mem = s.mem ∧ (dmaWriteMps p pasid relaxed addr data s).gov = s.gov ∧
    (dmaWriteMps p pasid relaxed addr data s).shown = s.shown := by
  simp [dmaWriteMps, dmaWriteFold_frame]

/-- What `scrub` leaves. -/
@[simp] theorem scrub_frame (t : Nat) (s : State) :
    (scrub t s).pending = s.pending ∧ (scrub t s).free = s.free ∧ (scrub t s).now = s.now ∧ (scrub t s).csn = s.csn ∧
    (scrub t s).chp = s.chp ∧ (scrub t s).pins = s.pins ∧ (scrub t s).hpt = s.hpt ∧ (scrub t s).win = s.win ∧
    (scrub t s).ttb = s.ttb ∧ (scrub t s).cay = s.cay ∧ (scrub t s).mdf = s.mdf ∧ (scrub t s).kst = s.kst ∧
    (scrub t s).leg = s.leg ∧ (scrub t s).vlt = s.vlt ∧ (scrub t s).slc = s.slc ∧ (scrub t s).evr = s.evr ∧
    (scrub t s).rng = s.rng ∧ (scrub t s).lat = s.lat ∧ (scrub t s).bnv = s.bnv ∧ (scrub t s).ucp = s.ucp ∧
    (scrub t s).wld = s.wld ∧ (scrub t s).tmp = s.tmp ∧ (scrub t s).bbr = s.bbr ∧ (scrub t s).lcs = s.lcs ∧
    (scrub t s).fuses = s.fuses ∧ (scrub t s).mnf = s.mnf ∧ (scrub t s).flash = s.flash ∧ (scrub t s).fwu = s.fwu ∧
    (scrub t s).drb = s.drb ∧ (scrub t s).mem = s.mem ∧ (scrub t s).gov = s.gov ∧ (scrub t s).shown = s.shown := by
  unfold scrub
  dsimp only
  split
  · simp
  · split <;> simp

/-- What `recordAt` leaves. -/
@[simp] theorem recordAt_frame (t : RecType) (time : Nat) (payload : Bytes) (s : State) :
    (recordAt t time payload s).pending = s.pending ∧ (recordAt t time payload s).out = s.out ∧
    (recordAt t time payload s).free = s.free ∧ (recordAt t time payload s).now = s.now ∧
    (recordAt t time payload s).csn = s.csn ∧ (recordAt t time payload s).chp = s.chp ∧
    (recordAt t time payload s).pins = s.pins ∧ (recordAt t time payload s).hpt = s.hpt ∧
    (recordAt t time payload s).stats = s.stats ∧ (recordAt t time payload s).win = s.win ∧
    (recordAt t time payload s).ttb = s.ttb ∧ (recordAt t time payload s).car = s.car ∧
    (recordAt t time payload s).cay = s.cay ∧ (recordAt t time payload s).mdf = s.mdf ∧
    (recordAt t time payload s).kst = s.kst ∧ (recordAt t time payload s).leg = s.leg ∧
    (recordAt t time payload s).vlt = s.vlt ∧ (recordAt t time payload s).slc = s.slc ∧
    (recordAt t time payload s).rng = s.rng ∧ (recordAt t time payload s).lat = s.lat ∧
    (recordAt t time payload s).bnv = s.bnv ∧ (recordAt t time payload s).ucp = s.ucp ∧
    (recordAt t time payload s).wld = s.wld ∧ (recordAt t time payload s).tmp = s.tmp ∧
    (recordAt t time payload s).bbr = s.bbr ∧ (recordAt t time payload s).lcs = s.lcs ∧
    (recordAt t time payload s).fuses = s.fuses ∧ (recordAt t time payload s).mnf = s.mnf ∧
    (recordAt t time payload s).flash = s.flash ∧ (recordAt t time payload s).fwu = s.fwu ∧
    (recordAt t time payload s).drb = s.drb ∧ (recordAt t time payload s).mem = s.mem ∧
    (recordAt t time payload s).gov = s.gov ∧ (recordAt t time payload s).shown = s.shown := by
  simp [recordAt]

/-- What `record` leaves. -/
@[simp] theorem record_frame (t : RecType) (payload : Bytes) (s : State) :
    (record t payload s).pending = s.pending ∧ (record t payload s).out = s.out ∧ (record t payload s).free = s.free ∧
    (record t payload s).now = s.now ∧ (record t payload s).csn = s.csn ∧ (record t payload s).chp = s.chp ∧
    (record t payload s).pins = s.pins ∧ (record t payload s).hpt = s.hpt ∧ (record t payload s).stats = s.stats ∧
    (record t payload s).win = s.win ∧ (record t payload s).ttb = s.ttb ∧ (record t payload s).car = s.car ∧
    (record t payload s).cay = s.cay ∧ (record t payload s).mdf = s.mdf ∧ (record t payload s).kst = s.kst ∧
    (record t payload s).leg = s.leg ∧ (record t payload s).vlt = s.vlt ∧ (record t payload s).slc = s.slc ∧
    (record t payload s).rng = s.rng ∧ (record t payload s).lat = s.lat ∧ (record t payload s).bnv = s.bnv ∧
    (record t payload s).ucp = s.ucp ∧ (record t payload s).wld = s.wld ∧ (record t payload s).tmp = s.tmp ∧
    (record t payload s).bbr = s.bbr ∧ (record t payload s).lcs = s.lcs ∧ (record t payload s).fuses = s.fuses ∧
    (record t payload s).mnf = s.mnf ∧ (record t payload s).flash = s.flash ∧ (record t payload s).fwu = s.fwu ∧
    (record t payload s).drb = s.drb ∧ (record t payload s).mem = s.mem ∧ (record t payload s).gov = s.gov ∧
    (record t payload s).shown = s.shown := by
  simp [record]

/-- What `letGo` leaves. -/
@[simp] theorem letGo_frame (t : Nat) (s : State) :
    (letGo t s).pending = s.pending ∧ (letGo t s).out = s.out ∧ (letGo t s).free = s.free ∧ (letGo t s).now = s.now ∧
    (letGo t s).csn = s.csn ∧ (letGo t s).chp = s.chp ∧ (letGo t s).pins = s.pins ∧ (letGo t s).hpt = s.hpt ∧
    (letGo t s).stats = s.stats ∧ (letGo t s).win = s.win ∧ (letGo t s).ttb = s.ttb ∧ (letGo t s).kst = s.kst ∧
    (letGo t s).leg = s.leg ∧ (letGo t s).ucp = s.ucp ∧ (letGo t s).wld = s.wld ∧ (letGo t s).tmp = s.tmp ∧
    (letGo t s).bbr = s.bbr ∧ (letGo t s).lcs = s.lcs ∧ (letGo t s).fuses = s.fuses ∧ (letGo t s).mnf = s.mnf ∧
    (letGo t s).flash = s.flash ∧ (letGo t s).fwu = s.fwu ∧ (letGo t s).drb = s.drb ∧ (letGo t s).mem = s.mem ∧
    (letGo t s).gov = s.gov ∧ (letGo t s).shown = s.shown := by
  unfold letGo
  repeat' split
  all_goals simp

/-- What `stopOne` leaves. -/
@[simp] theorem stopOne_frame (t status result : Nat) (s : State) :
    (stopOne t status result s).pending = s.pending ∧ (stopOne t status result s).free = s.free ∧
    (stopOne t status result s).now = s.now ∧ (stopOne t status result s).chp = s.chp ∧
    (stopOne t status result s).pins = s.pins ∧ (stopOne t status result s).hpt = s.hpt ∧
    (stopOne t status result s).win = s.win ∧ (stopOne t status result s).ttb = s.ttb ∧
    (stopOne t status result s).leg = s.leg ∧ (stopOne t status result s).ucp = s.ucp ∧
    (stopOne t status result s).wld = s.wld ∧ (stopOne t status result s).tmp = s.tmp ∧
    (stopOne t status result s).bbr = s.bbr ∧ (stopOne t status result s).lcs = s.lcs ∧
    (stopOne t status result s).fuses = s.fuses ∧ (stopOne t status result s).mnf = s.mnf ∧
    (stopOne t status result s).flash = s.flash ∧ (stopOne t status result s).fwu = s.fwu ∧
    (stopOne t status result s).drb = s.drb ∧ (stopOne t status result s).mem = s.mem ∧
    (stopOne t status result s).gov = s.gov ∧ (stopOne t status result s).shown = s.shown := by
  simp [stopOne]

/-- What `latEnd` leaves. -/
@[simp] theorem latEnd_frame (p : Port) (status result : Nat) (s : State) :
    (latEnd p status result s).pending = s.pending ∧ (latEnd p status result s).out = s.out ∧
    (latEnd p status result s).free = s.free ∧ (latEnd p status result s).now = s.now ∧
    (latEnd p status result s).chp = s.chp ∧ (latEnd p status result s).pins = s.pins ∧
    (latEnd p status result s).hpt = s.hpt ∧ (latEnd p status result s).stats = s.stats ∧
    (latEnd p status result s).ttb = s.ttb ∧ (latEnd p status result s).car = s.car ∧
    (latEnd p status result s).mdf = s.mdf ∧ (latEnd p status result s).leg = s.leg ∧
    (latEnd p status result s).vlt = s.vlt ∧ (latEnd p status result s).slc = s.slc ∧
    (latEnd p status result s).evr = s.evr ∧ (latEnd p status result s).bnv = s.bnv ∧
    (latEnd p status result s).ucp = s.ucp ∧ (latEnd p status result s).wld = s.wld ∧
    (latEnd p status result s).tmp = s.tmp ∧ (latEnd p status result s).bbr = s.bbr ∧
    (latEnd p status result s).lcs = s.lcs ∧ (latEnd p status result s).fuses = s.fuses ∧
    (latEnd p status result s).mnf = s.mnf ∧ (latEnd p status result s).flash = s.flash ∧
    (latEnd p status result s).fwu = s.fwu ∧ (latEnd p status result s).drb = s.drb ∧
    (latEnd p status result s).mem = s.mem ∧ (latEnd p status result s).gov = s.gov ∧
    (latEnd p status result s).shown = s.shown := by
  unfold latEnd
  repeat' split
  all_goals simp

/-- What `ucpEnd` leaves. -/
@[simp] theorem ucpEnd_frame (status out : Nat) (s : State) :
    (ucpEnd status out s).pending = s.pending ∧ (ucpEnd status out s).out = s.out ∧
    (ucpEnd status out s).free = s.free ∧ (ucpEnd status out s).now = s.now ∧ (ucpEnd status out s).chp = s.chp ∧
    (ucpEnd status out s).pins = s.pins ∧ (ucpEnd status out s).hpt = s.hpt ∧ (ucpEnd status out s).stats = s.stats ∧
    (ucpEnd status out s).win = s.win ∧ (ucpEnd status out s).ttb = s.ttb ∧ (ucpEnd status out s).car = s.car ∧
    (ucpEnd status out s).mdf = s.mdf ∧ (ucpEnd status out s).leg = s.leg ∧ (ucpEnd status out s).vlt = s.vlt ∧
    (ucpEnd status out s).slc = s.slc ∧ (ucpEnd status out s).evr = s.evr ∧ (ucpEnd status out s).rng = s.rng ∧
    (ucpEnd status out s).lat = s.lat ∧ (ucpEnd status out s).bnv = s.bnv ∧ (ucpEnd status out s).wld = s.wld ∧
    (ucpEnd status out s).tmp = s.tmp ∧ (ucpEnd status out s).bbr = s.bbr ∧ (ucpEnd status out s).lcs = s.lcs ∧
    (ucpEnd status out s).fuses = s.fuses ∧ (ucpEnd status out s).mnf = s.mnf ∧
    (ucpEnd status out s).flash = s.flash ∧ (ucpEnd status out s).fwu = s.fwu ∧ (ucpEnd status out s).drb = s.drb ∧
    (ucpEnd status out s).mem = s.mem ∧ (ucpEnd status out s).gov = s.gov ∧
    (ucpEnd status out s).shown = s.shown := by
  unfold ucpEnd
  repeat' split
  all_goals simp

/-- What `reapEngines` leaves. -/
@[simp] theorem reapEngines_frame (status : Nat) (s : State) :
    (reapEngines status s).pending = s.pending ∧ (reapEngines status s).out = s.out ∧
    (reapEngines status s).free = s.free ∧ (reapEngines status s).now = s.now ∧ (reapEngines status s).chp = s.chp ∧
    (reapEngines status s).pins = s.pins ∧ (reapEngines status s).hpt = s.hpt ∧
    (reapEngines status s).stats = s.stats ∧ (reapEngines status s).ttb = s.ttb ∧ (reapEngines status s).car = s.car ∧
    (reapEngines status s).mdf = s.mdf ∧ (reapEngines status s).leg = s.leg ∧ (reapEngines status s).vlt = s.vlt ∧
    (reapEngines status s).slc = s.slc ∧ (reapEngines status s).evr = s.evr ∧ (reapEngines status s).bnv = s.bnv ∧
    (reapEngines status s).wld = s.wld ∧ (reapEngines status s).tmp = s.tmp ∧ (reapEngines status s).bbr = s.bbr ∧
    (reapEngines status s).lcs = s.lcs ∧ (reapEngines status s).fuses = s.fuses ∧ (reapEngines status s).mnf = s.mnf ∧
    (reapEngines status s).flash = s.flash ∧ (reapEngines status s).fwu = s.fwu ∧ (reapEngines status s).drb = s.drb ∧
    (reapEngines status s).mem = s.mem ∧ (reapEngines status s).gov = s.gov ∧
    (reapEngines status s).shown = s.shown := by
  simp [reapEngines]

/-- What `reap` leaves. -/
@[simp] theorem reap_frame (status : Nat) (s : State) :
    (reap status s).pending = s.pending ∧ (reap status s).free = s.free ∧ (reap status s).now = s.now ∧
    (reap status s).chp = s.chp ∧ (reap status s).pins = s.pins ∧ (reap status s).hpt = s.hpt ∧
    (reap status s).ttb = s.ttb ∧ (reap status s).leg = s.leg ∧ (reap status s).wld = s.wld ∧
    (reap status s).tmp = s.tmp ∧ (reap status s).bbr = s.bbr ∧ (reap status s).lcs = s.lcs ∧
    (reap status s).fuses = s.fuses ∧ (reap status s).mnf = s.mnf ∧ (reap status s).flash = s.flash ∧
    (reap status s).fwu = s.fwu ∧ (reap status s).drb = s.drb ∧ (reap status s).mem = s.mem ∧
    (reap status s).gov = s.gov ∧ (reap status s).shown = s.shown := by
  simp [reap]

/-- What `done` leaves. -/
@[simp] theorem done_frame (t status result : Nat) (s : State) :
    (done t status result s).pending = s.pending ∧ (done t status result s).free = s.free ∧
    (done t status result s).now = s.now ∧ (done t status result s).chp = s.chp ∧
    (done t status result s).pins = s.pins ∧ (done t status result s).hpt = s.hpt ∧
    (done t status result s).ttb = s.ttb ∧ (done t status result s).leg = s.leg ∧
    (done t status result s).wld = s.wld ∧ (done t status result s).tmp = s.tmp ∧
    (done t status result s).bbr = s.bbr ∧ (done t status result s).lcs = s.lcs ∧
    (done t status result s).fuses = s.fuses ∧ (done t status result s).mnf = s.mnf ∧
    (done t status result s).flash = s.flash ∧ (done t status result s).fwu = s.fwu ∧
    (done t status result s).drb = s.drb ∧ (done t status result s).mem = s.mem ∧
    (done t status result s).gov = s.gov ∧ (done t status result s).shown = s.shown := by
  simp [done]

/-- What `stop` leaves. -/
@[simp] theorem stop_frame (t status result : Nat) (s : State) :
    (stop t status result s).pending = s.pending ∧ (stop t status result s).free = s.free ∧
    (stop t status result s).now = s.now ∧ (stop t status result s).chp = s.chp ∧
    (stop t status result s).pins = s.pins ∧ (stop t status result s).hpt = s.hpt ∧
    (stop t status result s).ttb = s.ttb ∧ (stop t status result s).leg = s.leg ∧
    (stop t status result s).wld = s.wld ∧ (stop t status result s).tmp = s.tmp ∧
    (stop t status result s).bbr = s.bbr ∧ (stop t status result s).lcs = s.lcs ∧
    (stop t status result s).fuses = s.fuses ∧ (stop t status result s).mnf = s.mnf ∧
    (stop t status result s).flash = s.flash ∧ (stop t status result s).fwu = s.fwu ∧
    (stop t status result s).drb = s.drb ∧ (stop t status result s).mem = s.mem ∧
    (stop t status result s).gov = s.gov ∧ (stop t status result s).shown = s.shown := by
  simp [stop]

/-- What `markSlot` leaves. -/
@[simp] theorem markSlot_frame (st : SlotState) (i : Nat) (s : State) :
    (markSlot st i s).pending = s.pending ∧ (markSlot st i s).out = s.out ∧ (markSlot st i s).free = s.free ∧
    (markSlot st i s).now = s.now ∧ (markSlot st i s).csn = s.csn ∧ (markSlot st i s).chp = s.chp ∧
    (markSlot st i s).pins = s.pins ∧ (markSlot st i s).hpt = s.hpt ∧ (markSlot st i s).stats = s.stats ∧
    (markSlot st i s).win = s.win ∧ (markSlot st i s).ttb = s.ttb ∧ (markSlot st i s).car = s.car ∧
    (markSlot st i s).mdf = s.mdf ∧ (markSlot st i s).leg = s.leg ∧ (markSlot st i s).vlt = s.vlt ∧
    (markSlot st i s).slc = s.slc ∧ (markSlot st i s).evr = s.evr ∧ (markSlot st i s).rng = s.rng ∧
    (markSlot st i s).lat = s.lat ∧ (markSlot st i s).bnv = s.bnv ∧ (markSlot st i s).ucp = s.ucp ∧
    (markSlot st i s).wld = s.wld ∧ (markSlot st i s).tmp = s.tmp ∧ (markSlot st i s).bbr = s.bbr ∧
    (markSlot st i s).lcs = s.lcs ∧ (markSlot st i s).fuses = s.fuses ∧ (markSlot st i s).mnf = s.mnf ∧
    (markSlot st i s).flash = s.flash ∧ (markSlot st i s).fwu = s.fwu ∧ (markSlot st i s).drb = s.drb ∧
    (markSlot st i s).mem = s.mem ∧ (markSlot st i s).gov = s.gov ∧ (markSlot st i s).shown = s.shown := by
  simp [markSlot]

/-- What `completeAt` leaves. -/
@[simp] theorem completeAt_frame (t status result : Nat) (s : State) :
    (completeAt t status result s).pending = s.pending ∧ (completeAt t status result s).free = s.free ∧
    (completeAt t status result s).now = s.now ∧ (completeAt t status result s).chp = s.chp ∧
    (completeAt t status result s).pins = s.pins ∧ (completeAt t status result s).hpt = s.hpt ∧
    (completeAt t status result s).win = s.win ∧ (completeAt t status result s).ttb = s.ttb ∧
    (completeAt t status result s).leg = s.leg ∧ (completeAt t status result s).evr = s.evr ∧
    (completeAt t status result s).ucp = s.ucp ∧ (completeAt t status result s).wld = s.wld ∧
    (completeAt t status result s).tmp = s.tmp ∧ (completeAt t status result s).bbr = s.bbr ∧
    (completeAt t status result s).lcs = s.lcs ∧ (completeAt t status result s).fuses = s.fuses ∧
    (completeAt t status result s).mnf = s.mnf ∧ (completeAt t status result s).flash = s.flash ∧
    (completeAt t status result s).fwu = s.fwu ∧ (completeAt t status result s).drb = s.drb ∧
    (completeAt t status result s).mem = s.mem ∧ (completeAt t status result s).gov = s.gov ∧
    (completeAt t status result s).shown = s.shown := by
  simp [completeAt]

/-- What `stopAt` leaves. -/
@[simp] theorem stopAt_frame (t status result : Nat) (s : State) :
    (stopAt t status result s).pending = s.pending ∧ (stopAt t status result s).free = s.free ∧
    (stopAt t status result s).now = s.now ∧ (stopAt t status result s).chp = s.chp ∧
    (stopAt t status result s).pins = s.pins ∧ (stopAt t status result s).hpt = s.hpt ∧
    (stopAt t status result s).win = s.win ∧ (stopAt t status result s).ttb = s.ttb ∧
    (stopAt t status result s).leg = s.leg ∧ (stopAt t status result s).ucp = s.ucp ∧
    (stopAt t status result s).wld = s.wld ∧ (stopAt t status result s).tmp = s.tmp ∧
    (stopAt t status result s).bbr = s.bbr ∧ (stopAt t status result s).lcs = s.lcs ∧
    (stopAt t status result s).fuses = s.fuses ∧ (stopAt t status result s).mnf = s.mnf ∧
    (stopAt t status result s).flash = s.flash ∧ (stopAt t status result s).fwu = s.fwu ∧
    (stopAt t status result s).drb = s.drb ∧ (stopAt t status result s).mem = s.mem ∧
    (stopAt t status result s).gov = s.gov ∧ (stopAt t status result s).shown = s.shown := by
  simp [stopAt]

/-- What `markBy` leaves. -/
@[simp] theorem markBy_frame (own : Option Nat) (st : SlotState) (i : Nat) (s : State) :
    (markBy own st i s).pending = s.pending ∧ (markBy own st i s).free = s.free ∧ (markBy own st i s).now = s.now ∧
    (markBy own st i s).chp = s.chp ∧ (markBy own st i s).pins = s.pins ∧ (markBy own st i s).hpt = s.hpt ∧
    (markBy own st i s).ttb = s.ttb ∧ (markBy own st i s).leg = s.leg ∧ (markBy own st i s).wld = s.wld ∧
    (markBy own st i s).tmp = s.tmp ∧ (markBy own st i s).bbr = s.bbr ∧ (markBy own st i s).lcs = s.lcs ∧
    (markBy own st i s).fuses = s.fuses ∧ (markBy own st i s).mnf = s.mnf ∧ (markBy own st i s).flash = s.flash ∧
    (markBy own st i s).fwu = s.fwu ∧ (markBy own st i s).drb = s.drb ∧ (markBy own st i s).mem = s.mem ∧
    (markBy own st i s).gov = s.gov ∧ (markBy own st i s).shown = s.shown := by
  simp [markBy]

/-- What `mark` leaves. -/
@[simp] theorem mark_frame (st : SlotState) (i : Nat) (s : State) :
    (mark st i s).pending = s.pending ∧ (mark st i s).free = s.free ∧ (mark st i s).now = s.now ∧
    (mark st i s).chp = s.chp ∧ (mark st i s).pins = s.pins ∧ (mark st i s).hpt = s.hpt ∧ (mark st i s).ttb = s.ttb ∧
    (mark st i s).leg = s.leg ∧ (mark st i s).wld = s.wld ∧ (mark st i s).tmp = s.tmp ∧ (mark st i s).bbr = s.bbr ∧
    (mark st i s).lcs = s.lcs ∧ (mark st i s).fuses = s.fuses ∧ (mark st i s).mnf = s.mnf ∧
    (mark st i s).flash = s.flash ∧ (mark st i s).fwu = s.fwu ∧ (mark st i s).drb = s.drb ∧
    (mark st i s).mem = s.mem ∧ (mark st i s).gov = s.gov ∧ (mark st i s).shown = s.shown := by
  simp [mark]

/-- What `dropSign` leaves. -/
@[simp] theorem dropSign_frame (id : Nat) (s : State) :
    (dropSign id s).pending = s.pending ∧ (dropSign id s).out = s.out ∧ (dropSign id s).free = s.free ∧
    (dropSign id s).now = s.now ∧ (dropSign id s).csn = s.csn ∧ (dropSign id s).chp = s.chp ∧
    (dropSign id s).pins = s.pins ∧ (dropSign id s).hpt = s.hpt ∧ (dropSign id s).stats = s.stats ∧
    (dropSign id s).win = s.win ∧ (dropSign id s).ttb = s.ttb ∧ (dropSign id s).car = s.car ∧
    (dropSign id s).cay = s.cay ∧ (dropSign id s).mdf = s.mdf ∧ (dropSign id s).kst = s.kst ∧
    (dropSign id s).leg = s.leg ∧ (dropSign id s).slc = s.slc ∧ (dropSign id s).evr = s.evr ∧
    (dropSign id s).bnv = s.bnv ∧ (dropSign id s).ucp = s.ucp ∧ (dropSign id s).wld = s.wld ∧
    (dropSign id s).tmp = s.tmp ∧ (dropSign id s).bbr = s.bbr ∧ (dropSign id s).lcs = s.lcs ∧
    (dropSign id s).fuses = s.fuses ∧ (dropSign id s).mnf = s.mnf ∧ (dropSign id s).flash = s.flash ∧
    (dropSign id s).fwu = s.fwu ∧ (dropSign id s).drb = s.drb ∧ (dropSign id s).mem = s.mem ∧
    (dropSign id s).gov = s.gov ∧ (dropSign id s).shown = s.shown := by
  simp [dropSign]

/-- What `closeProp` leaves. -/
@[simp] theorem closeProp_frame (id : Nat) (s : State) :
    (closeProp id s).pending = s.pending ∧ (closeProp id s).free = s.free ∧ (closeProp id s).now = s.now ∧
    (closeProp id s).chp = s.chp ∧ (closeProp id s).pins = s.pins ∧ (closeProp id s).hpt = s.hpt ∧
    (closeProp id s).ttb = s.ttb ∧ (closeProp id s).leg = s.leg ∧ (closeProp id s).wld = s.wld ∧
    (closeProp id s).tmp = s.tmp ∧ (closeProp id s).bbr = s.bbr ∧ (closeProp id s).lcs = s.lcs ∧
    (closeProp id s).fuses = s.fuses ∧ (closeProp id s).mnf = s.mnf ∧ (closeProp id s).flash = s.flash ∧
    (closeProp id s).fwu = s.fwu ∧ (closeProp id s).drb = s.drb ∧ (closeProp id s).mem = s.mem ∧
    (closeProp id s).gov = s.gov ∧ (closeProp id s).shown = s.shown := by
  unfold closeProp
  dsimp only
  repeat' split
  all_goals simp

/-- What `outputDone` leaves. -/
@[simp] theorem outputDone_frame (id : Nat) (s : State) :
    (outputDone id s).pending = s.pending ∧ (outputDone id s).free = s.free ∧ (outputDone id s).now = s.now ∧
    (outputDone id s).chp = s.chp ∧ (outputDone id s).pins = s.pins ∧ (outputDone id s).hpt = s.hpt ∧
    (outputDone id s).ttb = s.ttb ∧ (outputDone id s).leg = s.leg ∧ (outputDone id s).wld = s.wld ∧
    (outputDone id s).tmp = s.tmp ∧ (outputDone id s).bbr = s.bbr ∧ (outputDone id s).lcs = s.lcs ∧
    (outputDone id s).fuses = s.fuses ∧ (outputDone id s).mnf = s.mnf ∧ (outputDone id s).flash = s.flash ∧
    (outputDone id s).fwu = s.fwu ∧ (outputDone id s).drb = s.drb ∧ (outputDone id s).mem = s.mem ∧
    (outputDone id s).gov = s.gov ∧ (outputDone id s).shown = s.shown := by
  unfold outputDone
  dsimp only
  repeat' split
  all_goals simp

/-- What `signLost` leaves. -/
@[simp] theorem signLost_frame (id : Nat) (s : State) :
    (signLost id s).pending = s.pending ∧ (signLost id s).free = s.free ∧ (signLost id s).now = s.now ∧
    (signLost id s).chp = s.chp ∧ (signLost id s).pins = s.pins ∧ (signLost id s).hpt = s.hpt ∧
    (signLost id s).ttb = s.ttb ∧ (signLost id s).leg = s.leg ∧ (signLost id s).wld = s.wld ∧
    (signLost id s).tmp = s.tmp ∧ (signLost id s).bbr = s.bbr ∧ (signLost id s).lcs = s.lcs ∧
    (signLost id s).fuses = s.fuses ∧ (signLost id s).mnf = s.mnf ∧ (signLost id s).flash = s.flash ∧
    (signLost id s).fwu = s.fwu ∧ (signLost id s).drb = s.drb ∧ (signLost id s).mem = s.mem ∧
    (signLost id s).gov = s.gov ∧ (signLost id s).shown = s.shown := by
  simp [signLost]

/-- What `uncount` leaves. -/
@[simp] theorem uncount_frame (c : Carriage) (s : State) :
    (uncount c s).pending = s.pending ∧ (uncount c s).out = s.out ∧ (uncount c s).free = s.free ∧
    (uncount c s).now = s.now ∧ (uncount c s).csn = s.csn ∧ (uncount c s).chp = s.chp ∧ (uncount c s).pins = s.pins ∧
    (uncount c s).hpt = s.hpt ∧ (uncount c s).stats = s.stats ∧ (uncount c s).win = s.win ∧
    (uncount c s).ttb = s.ttb ∧ (uncount c s).car = s.car ∧ (uncount c s).cay = s.cay ∧ (uncount c s).mdf = s.mdf ∧
    (uncount c s).kst = s.kst ∧ (uncount c s).leg = s.leg ∧ (uncount c s).slc = s.slc ∧ (uncount c s).evr = s.evr ∧
    (uncount c s).rng = s.rng ∧ (uncount c s).lat = s.lat ∧ (uncount c s).bnv = s.bnv ∧ (uncount c s).ucp = s.ucp ∧
    (uncount c s).wld = s.wld ∧ (uncount c s).tmp = s.tmp ∧ (uncount c s).bbr = s.bbr ∧ (uncount c s).lcs = s.lcs ∧
    (uncount c s).fuses = s.fuses ∧ (uncount c s).mnf = s.mnf ∧ (uncount c s).flash = s.flash ∧
    (uncount c s).fwu = s.fwu ∧ (uncount c s).drb = s.drb ∧ (uncount c s).mem = s.mem ∧ (uncount c s).gov = s.gov ∧
    (uncount c s).shown = s.shown := by
  simp [uncount]

/-- What `abortOne` leaves. -/
@[simp] theorem abortOne_frame (s : State) (t : Nat) :
    (abortOne s t).pending = s.pending ∧ (abortOne s t).free = s.free ∧ (abortOne s t).now = s.now ∧
    (abortOne s t).chp = s.chp ∧ (abortOne s t).pins = s.pins ∧ (abortOne s t).hpt = s.hpt ∧
    (abortOne s t).win = s.win ∧ (abortOne s t).ttb = s.ttb ∧ (abortOne s t).leg = s.leg ∧
    (abortOne s t).ucp = s.ucp ∧ (abortOne s t).wld = s.wld ∧ (abortOne s t).tmp = s.tmp ∧
    (abortOne s t).bbr = s.bbr ∧ (abortOne s t).lcs = s.lcs ∧ (abortOne s t).fuses = s.fuses ∧
    (abortOne s t).mnf = s.mnf ∧ (abortOne s t).flash = s.flash ∧ (abortOne s t).fwu = s.fwu ∧
    (abortOne s t).drb = s.drb ∧ (abortOne s t).mem = s.mem ∧ (abortOne s t).gov = s.gov ∧
    (abortOne s t).shown = s.shown := by
  simp [abortOne]

/-- What `stopAll` leaves. -/
@[simp] theorem stopAll_frame (f : Nat → Carriage → Bool) (status : Nat) (s : State) :
    (stopAll f status s).pending = s.pending ∧ (stopAll f status s).free = s.free ∧ (stopAll f status s).now = s.now ∧
    (stopAll f status s).chp = s.chp ∧ (stopAll f status s).pins = s.pins ∧ (stopAll f status s).hpt = s.hpt ∧
    (stopAll f status s).win = s.win ∧ (stopAll f status s).ttb = s.ttb ∧ (stopAll f status s).leg = s.leg ∧
    (stopAll f status s).ucp = s.ucp ∧ (stopAll f status s).wld = s.wld ∧ (stopAll f status s).tmp = s.tmp ∧
    (stopAll f status s).bbr = s.bbr ∧ (stopAll f status s).lcs = s.lcs ∧ (stopAll f status s).fuses = s.fuses ∧
    (stopAll f status s).mnf = s.mnf ∧ (stopAll f status s).flash = s.flash ∧ (stopAll f status s).fwu = s.fwu ∧
    (stopAll f status s).drb = s.drb ∧ (stopAll f status s).mem = s.mem ∧ (stopAll f status s).gov = s.gov ∧
    (stopAll f status s).shown = s.shown := by
  simp [stopAll]

/-- What `vanish` leaves. -/
@[simp] theorem vanish_frame (t : Nat) (s : State) :
    (vanish t s).pending = s.pending ∧ (vanish t s).out = s.out ∧ (vanish t s).free = s.free ∧
    (vanish t s).now = s.now ∧ (vanish t s).chp = s.chp ∧ (vanish t s).pins = s.pins ∧ (vanish t s).hpt = s.hpt ∧
    (vanish t s).stats = s.stats ∧ (vanish t s).win = s.win ∧ (vanish t s).ttb = s.ttb ∧ (vanish t s).leg = s.leg ∧
    (vanish t s).evr = s.evr ∧ (vanish t s).ucp = s.ucp ∧ (vanish t s).wld = s.wld ∧ (vanish t s).tmp = s.tmp ∧
    (vanish t s).bbr = s.bbr ∧ (vanish t s).lcs = s.lcs ∧ (vanish t s).fuses = s.fuses ∧ (vanish t s).mnf = s.mnf ∧
    (vanish t s).flash = s.flash ∧ (vanish t s).fwu = s.fwu ∧ (vanish t s).drb = s.drb ∧ (vanish t s).mem = s.mem ∧
    (vanish t s).gov = s.gov ∧ (vanish t s).shown = s.shown := by
  simp [vanish]

/-- What `refuse` leaves. -/
@[simp] theorem refuse_frame (t : Nat) (x : Refuse) (s : State) :
    (refuse t x s).pending = s.pending ∧ (refuse t x s).free = s.free ∧ (refuse t x s).now = s.now ∧
    (refuse t x s).chp = s.chp ∧ (refuse t x s).pins = s.pins ∧ (refuse t x s).hpt = s.hpt ∧
    (refuse t x s).win = s.win ∧ (refuse t x s).ttb = s.ttb ∧ (refuse t x s).leg = s.leg ∧
    (refuse t x s).evr = s.evr ∧ (refuse t x s).ucp = s.ucp ∧ (refuse t x s).wld = s.wld ∧
    (refuse t x s).tmp = s.tmp ∧ (refuse t x s).bbr = s.bbr ∧ (refuse t x s).lcs = s.lcs ∧
    (refuse t x s).fuses = s.fuses ∧ (refuse t x s).mnf = s.mnf ∧ (refuse t x s).flash = s.flash ∧
    (refuse t x s).fwu = s.fwu ∧ (refuse t x s).drb = s.drb ∧ (refuse t x s).mem = s.mem ∧
    (refuse t x s).gov = s.gov ∧ (refuse t x s).shown = s.shown := by
  simp [refuse]

/-- What `begin_` leaves. -/
@[simp] theorem begin__frame (t : Nat) (s : State) :
    (begin_ t s).pending = s.pending ∧ (begin_ t s).out = s.out ∧ (begin_ t s).free = s.free ∧
    (begin_ t s).now = s.now ∧ (begin_ t s).csn = s.csn ∧ (begin_ t s).chp = s.chp ∧ (begin_ t s).pins = s.pins ∧
    (begin_ t s).hpt = s.hpt ∧ (begin_ t s).stats = s.stats ∧ (begin_ t s).win = s.win ∧ (begin_ t s).ttb = s.ttb ∧
    (begin_ t s).cay = s.cay ∧ (begin_ t s).mdf = s.mdf ∧ (begin_ t s).kst = s.kst ∧ (begin_ t s).leg = s.leg ∧
    (begin_ t s).vlt = s.vlt ∧ (begin_ t s).slc = s.slc ∧ (begin_ t s).evr = s.evr ∧ (begin_ t s).rng = s.rng ∧
    (begin_ t s).lat = s.lat ∧ (begin_ t s).bnv = s.bnv ∧ (begin_ t s).ucp = s.ucp ∧ (begin_ t s).wld = s.wld ∧
    (begin_ t s).tmp = s.tmp ∧ (begin_ t s).bbr = s.bbr ∧ (begin_ t s).lcs = s.lcs ∧ (begin_ t s).fuses = s.fuses ∧
    (begin_ t s).mnf = s.mnf ∧ (begin_ t s).flash = s.flash ∧ (begin_ t s).fwu = s.fwu ∧ (begin_ t s).drb = s.drb ∧
    (begin_ t s).mem = s.mem ∧ (begin_ t s).gov = s.gov ∧ (begin_ t s).shown = s.shown := by
  simp [begin_]

end Sys2Proof.Laws
end

section
/-! SUPPORT. What the operations of rings leave of the state and of the carriages. -/
namespace Sys2Proof.Laws

open Sys2Proof.Machine Sys2Proof.Safety

/-- The carriages of a choice of two carriage engines. -/
@[simp] theorem ite_car_cars (c : Prop) [Decidable c] (a b : Car) :
    (if c then a else b).cars = if c then a.cars else b.cars := apply_ite Car.cars c a b

/-- The rings of a choice of two carriage engines. -/
@[simp] theorem ite_car_rings (c : Prop) [Decidable c] (a b : Car) :
    (if c then a else b).rings = if c then a.rings else b.rings := apply_ite Car.rings c a b

/-- The doorbell queue of a choice of two carriage engines. -/
@[simp] theorem ite_car_dbq (c : Prop) [Decidable c] (a b : Car) :
    (if c then a else b).dbq = if c then a.dbq else b.dbq := apply_ite Car.dbq c a b

/-- The held doorbells of a choice of two carriage engines. -/
@[simp] theorem ite_car_dbHeld (c : Prop) [Decidable c] (a b : Car) :
    (if c then a else b).dbHeld = if c then a.dbHeld else b.dbHeld := apply_ite Car.dbHeld c a b

/-- A fold whose every turn leaves the doorbell queue leaves it. -/
@[simp] theorem foldl_dbq {α : Type} {f : State → α → State} (hf : ∀ s x, (f s x).car.dbq = s.car.dbq) (l : List α)
    (s : State) : (l.foldl f s).car.dbq = s.car.dbq := foldl_part (fun s => s.car.dbq) hf l s

/-- A fold whose every turn leaves the held doorbells leaves them. -/
@[simp] theorem foldl_dbHeld {α : Type} {f : State → α → State} (hf : ∀ s x, (f s x).car.dbHeld = s.car.dbHeld)
    (l : List α) (s : State) : (l.foldl f s).car.dbHeld = s.car.dbHeld := foldl_part (fun s => s.car.dbHeld) hf l s

/-- A fold whose every turn leaves the carriages leaves them. -/
@[simp] theorem foldl_cars {α : Type} {f : State → α → State} (hf : ∀ s x, (f s x).car.cars = s.car.cars) (l : List α)
    (s : State) : (l.foldl f s).car.cars = s.car.cars := foldl_part (fun s => s.car.cars) hf l s

/-- A fold whose every turn leaves the rings leaves them. -/
@[simp] theorem foldl_rings {α : Type} {f : State → α → State} (hf : ∀ s x, (f s x).car.rings = s.car.rings) (l : List α)
    (s : State) : (l.foldl f s).car.rings = s.car.rings := foldl_part (fun s => s.car.rings) hf l s

/-- What `dropSiding` leaves. -/
@[simp] theorem dropSiding_frame (q : Nat) (s : State) :
    (dropSiding q s).pending = s.pending ∧ (dropSiding q s).out = s.out ∧ (dropSiding q s).free = s.free ∧
    (dropSiding q s).now = s.now ∧ (dropSiding q s).csn = s.csn ∧ (dropSiding q s).chp = s.chp ∧
    (dropSiding q s).pins = s.pins ∧ (dropSiding q s).hpt = s.hpt ∧ (dropSiding q s).stats = s.stats ∧
    (dropSiding q s).win = s.win ∧ (dropSiding q s).ttb = s.ttb ∧ (dropSiding q s).cay = s.cay ∧
    (dropSiding q s).mdf = s.mdf ∧ (dropSiding q s).kst = s.kst ∧ (dropSiding q s).leg = s.leg ∧
    (dropSiding q s).vlt = s.vlt ∧ (dropSiding q s).slc = s.slc ∧ (dropSiding q s).evr = s.evr ∧
    (dropSiding q s).rng = s.rng ∧ (dropSiding q s).lat = s.lat ∧ (dropSiding q s).bnv = s.bnv ∧
    (dropSiding q s).ucp = s.ucp ∧ (dropSiding q s).wld = s.wld ∧ (dropSiding q s).tmp = s.tmp ∧
    (dropSiding q s).bbr = s.bbr ∧ (dropSiding q s).lcs = s.lcs ∧ (dropSiding q s).fuses = s.fuses ∧
    (dropSiding q s).mnf = s.mnf ∧ (dropSiding q s).flash = s.flash ∧ (dropSiding q s).fwu = s.fwu ∧
    (dropSiding q s).drb = s.drb ∧ (dropSiding q s).mem = s.mem ∧ (dropSiding q s).gov = s.gov ∧
    (dropSiding q s).shown = s.shown := by
  simp [dropSiding]

/-- What `setInt` leaves. -/
@[simp] theorem setInt_frame (p : Port) (i : Nat) (s : State) :
    (setInt p i s).pending = s.pending ∧ (setInt p i s).free = s.free ∧ (setInt p i s).now = s.now ∧
    (setInt p i s).csn = s.csn ∧ (setInt p i s).chp = s.chp ∧ (setInt p i s).pins = s.pins ∧
    (setInt p i s).win = s.win ∧ (setInt p i s).ttb = s.ttb ∧ (setInt p i s).car = s.car ∧
    (setInt p i s).cay = s.cay ∧ (setInt p i s).mdf = s.mdf ∧ (setInt p i s).kst = s.kst ∧
    (setInt p i s).leg = s.leg ∧ (setInt p i s).vlt = s.vlt ∧ (setInt p i s).slc = s.slc ∧
    (setInt p i s).evr = s.evr ∧ (setInt p i s).rng = s.rng ∧ (setInt p i s).lat = s.lat ∧
    (setInt p i s).bnv = s.bnv ∧ (setInt p i s).ucp = s.ucp ∧ (setInt p i s).wld = s.wld ∧
    (setInt p i s).tmp = s.tmp ∧ (setInt p i s).bbr = s.bbr ∧ (setInt p i s).lcs = s.lcs ∧
    (setInt p i s).fuses = s.fuses ∧ (setInt p i s).mnf = s.mnf ∧ (setInt p i s).flash = s.flash ∧
    (setInt p i s).fwu = s.fwu ∧ (setInt p i s).drb = s.drb ∧ (setInt p i s).mem = s.mem ∧
    (setInt p i s).gov = s.gov ∧ (setInt p i s).shown = s.shown := by
  simp [setInt]

/-- What `recordSeq` leaves. -/
@[simp] theorem recordSeq_frame (t : RecType) (payload : Bytes) (s : State) :
    (recordSeq t payload s).pending = s.pending ∧ (recordSeq t payload s).out = s.out ∧
    (recordSeq t payload s).free = s.free ∧ (recordSeq t payload s).now = s.now ∧
    (recordSeq t payload s).csn = s.csn ∧ (recordSeq t payload s).chp = s.chp ∧
    (recordSeq t payload s).pins = s.pins ∧ (recordSeq t payload s).hpt = s.hpt ∧
    (recordSeq t payload s).stats = s.stats ∧ (recordSeq t payload s).win = s.win ∧
    (recordSeq t payload s).ttb = s.ttb ∧ (recordSeq t payload s).car = s.car ∧ (recordSeq t payload s).cay = s.cay ∧
    (recordSeq t payload s).mdf = s.mdf ∧ (recordSeq t payload s).kst = s.kst ∧ (recordSeq t payload s).leg = s.leg ∧
    (recordSeq t payload s).vlt = s.vlt ∧ (recordSeq t payload s).slc = s.slc ∧ (recordSeq t payload s).rng = s.rng ∧
    (recordSeq t payload s).lat = s.lat ∧ (recordSeq t payload s).bnv = s.bnv ∧ (recordSeq t payload s).ucp = s.ucp ∧
    (recordSeq t payload s).wld = s.wld ∧ (recordSeq t payload s).tmp = s.tmp ∧ (recordSeq t payload s).bbr = s.bbr ∧
    (recordSeq t payload s).lcs = s.lcs ∧ (recordSeq t payload s).fuses = s.fuses ∧
    (recordSeq t payload s).mnf = s.mnf ∧ (recordSeq t payload s).flash = s.flash ∧
    (recordSeq t payload s).fwu = s.fwu ∧ (recordSeq t payload s).drb = s.drb ∧ (recordSeq t payload s).mem = s.mem ∧
    (recordSeq t payload s).gov = s.gov ∧ (recordSeq t payload s).shown = s.shown := by
  simp [recordSeq]

/-- What `ringError` leaves. -/
@[simp] theorem ringError_frame (g code : Nat) (s : State) :
    (ringError g code s).pending = s.pending ∧ (ringError g code s).free = s.free ∧ (ringError g code s).now = s.now ∧
    (ringError g code s).chp = s.chp ∧ (ringError g code s).pins = s.pins ∧ (ringError g code s).win = s.win ∧
    (ringError g code s).ttb = s.ttb ∧ (ringError g code s).cay = s.cay ∧ (ringError g code s).mdf = s.mdf ∧
    (ringError g code s).kst = s.kst ∧ (ringError g code s).leg = s.leg ∧ (ringError g code s).vlt = s.vlt ∧
    (ringError g code s).slc = s.slc ∧ (ringError g code s).rng = s.rng ∧ (ringError g code s).lat = s.lat ∧
    (ringError g code s).bnv = s.bnv ∧ (ringError g code s).ucp = s.ucp ∧ (ringError g code s).wld = s.wld ∧
    (ringError g code s).tmp = s.tmp ∧ (ringError g code s).bbr = s.bbr ∧ (ringError g code s).lcs = s.lcs ∧
    (ringError g code s).fuses = s.fuses ∧ (ringError g code s).mnf = s.mnf ∧ (ringError g code s).flash = s.flash ∧
    (ringError g code s).fwu = s.fwu ∧ (ringError g code s).drb = s.drb ∧ (ringError g code s).mem = s.mem ∧
    (ringError g code s).gov = s.gov ∧ (ringError g code s).shown = s.shown := by
  simp [ringError]

/-- What `overrun` leaves. -/
@[simp] theorem overrun_frame (g code : Nat) (s : State) :
    (overrun g code s).pending = s.pending ∧ (overrun g code s).free = s.free ∧ (overrun g code s).now = s.now ∧
    (overrun g code s).chp = s.chp ∧ (overrun g code s).pins = s.pins ∧ (overrun g code s).win = s.win ∧
    (overrun g code s).ttb = s.ttb ∧ (overrun g code s).cay = s.cay ∧ (overrun g code s).mdf = s.mdf ∧
    (overrun g code s).kst = s.kst ∧ (overrun g code s).leg = s.leg ∧ (overrun g code s).vlt = s.vlt ∧
    (overrun g code s).slc = s.slc ∧ (overrun g code s).rng = s.rng ∧ (overrun g code s).lat = s.lat ∧
    (overrun g code s).bnv = s.bnv ∧ (overrun g code s).ucp = s.ucp ∧ (overrun g code s).wld = s.wld ∧
    (overrun g code s).tmp = s.tmp ∧ (overrun g code s).bbr = s.bbr ∧ (overrun g code s).lcs = s.lcs ∧
    (overrun g code s).fuses = s.fuses ∧ (overrun g code s).mnf = s.mnf ∧ (overrun g code s).flash = s.flash ∧
    (overrun g code s).fwu = s.fwu ∧ (overrun g code s).drb = s.drb ∧ (overrun g code s).mem = s.mem ∧
    (overrun g code s).gov = s.gov ∧ (overrun g code s).shown = s.shown := by
  simp [overrun]

/-- What `badDoorbell` leaves. -/
@[simp] theorem badDoorbell_frame (s : State) :
    (badDoorbell s).pending = s.pending ∧ (badDoorbell s).out = s.out ∧ (badDoorbell s).free = s.free ∧
    (badDoorbell s).now = s.now ∧ (badDoorbell s).csn = s.csn ∧ (badDoorbell s).chp = s.chp ∧
    (badDoorbell s).pins = s.pins ∧ (badDoorbell s).hpt = s.hpt ∧ (badDoorbell s).stats = s.stats ∧
    (badDoorbell s).win = s.win ∧ (badDoorbell s).ttb = s.ttb ∧ (badDoorbell s).cay = s.cay ∧
    (badDoorbell s).mdf = s.mdf ∧ (badDoorbell s).kst = s.kst ∧ (badDoorbell s).leg = s.leg ∧
    (badDoorbell s).vlt = s.vlt ∧ (badDoorbell s).slc = s.slc ∧ (badDoorbell s).evr = s.evr ∧
    (badDoorbell s).rng = s.rng ∧ (badDoorbell s).lat = s.lat ∧ (badDoorbell s).bnv = s.bnv ∧
    (badDoorbell s).ucp = s.ucp ∧ (badDoorbell s).wld = s.wld ∧ (badDoorbell s).tmp = s.tmp ∧
    (badDoorbell s).bbr = s.bbr ∧ (badDoorbell s).lcs = s.lcs ∧ (badDoorbell s).fuses = s.fuses ∧
    (badDoorbell s).mnf = s.mnf ∧ (badDoorbell s).flash = s.flash ∧ (badDoorbell s).fwu = s.fwu ∧
    (badDoorbell s).drb = s.drb ∧ (badDoorbell s).mem = s.mem ∧ (badDoorbell s).gov = s.gov ∧
    (badDoorbell s).shown = s.shown := by
  simp [badDoorbell]

/-- What `evalSq` leaves. -/
@[simp] theorem evalSq_frame (g v : Nat) (s : State) :
    (evalSq g v s).pending = s.pending ∧ (evalSq g v s).free = s.free ∧ (evalSq g v s).now = s.now ∧
    (evalSq g v s).chp = s.chp ∧ (evalSq g v s).pins = s.pins ∧ (evalSq g v s).win = s.win ∧
    (evalSq g v s).ttb = s.ttb ∧ (evalSq g v s).cay = s.cay ∧ (evalSq g v s).mdf = s.mdf ∧
    (evalSq g v s).kst = s.kst ∧ (evalSq g v s).leg = s.leg ∧ (evalSq g v s).vlt = s.vlt ∧
    (evalSq g v s).slc = s.slc ∧ (evalSq g v s).rng = s.rng ∧ (evalSq g v s).lat = s.lat ∧
    (evalSq g v s).bnv = s.bnv ∧ (evalSq g v s).ucp = s.ucp ∧ (evalSq g v s).wld = s.wld ∧
    (evalSq g v s).tmp = s.tmp ∧ (evalSq g v s).bbr = s.bbr ∧ (evalSq g v s).lcs = s.lcs ∧
    (evalSq g v s).fuses = s.fuses ∧ (evalSq g v s).mnf = s.mnf ∧ (evalSq g v s).flash = s.flash ∧
    (evalSq g v s).fwu = s.fwu ∧ (evalSq g v s).drb = s.drb ∧ (evalSq g v s).mem = s.mem ∧
    (evalSq g v s).gov = s.gov ∧ (evalSq g v s).shown = s.shown := by
  simp [evalSq]

/-- What `evalCq` leaves. -/
@[simp] theorem evalCq_frame (q v : Nat) (s : State) :
    (evalCq q v s).pending = s.pending ∧ (evalCq q v s).free = s.free ∧ (evalCq q v s).now = s.now ∧
    (evalCq q v s).csn = s.csn ∧ (evalCq q v s).chp = s.chp ∧ (evalCq q v s).pins = s.pins ∧
    (evalCq q v s).hpt = s.hpt ∧ (evalCq q v s).win = s.win ∧ (evalCq q v s).ttb = s.ttb ∧
    (evalCq q v s).cay = s.cay ∧ (evalCq q v s).mdf = s.mdf ∧ (evalCq q v s).kst = s.kst ∧
    (evalCq q v s).leg = s.leg ∧ (evalCq q v s).vlt = s.vlt ∧ (evalCq q v s).slc = s.slc ∧
    (evalCq q v s).evr = s.evr ∧ (evalCq q v s).rng = s.rng ∧ (evalCq q v s).lat = s.lat ∧
    (evalCq q v s).bnv = s.bnv ∧ (evalCq q v s).ucp = s.ucp ∧ (evalCq q v s).wld = s.wld ∧
    (evalCq q v s).tmp = s.tmp ∧ (evalCq q v s).bbr = s.bbr ∧ (evalCq q v s).lcs = s.lcs ∧
    (evalCq q v s).fuses = s.fuses ∧ (evalCq q v s).mnf = s.mnf ∧ (evalCq q v s).flash = s.flash ∧
    (evalCq q v s).fwu = s.fwu ∧ (evalCq q v s).drb = s.drb ∧ (evalCq q v s).mem = s.mem ∧
    (evalCq q v s).gov = s.gov ∧ (evalCq q v s).shown = s.shown := by
  simp [evalCq]

/-- What `evalDoorbell` leaves. -/
@[simp] theorem evalDoorbell_frame (g v : Nat) (s : State) :
    (evalDoorbell g v s).pending = s.pending ∧ (evalDoorbell g v s).free = s.free ∧ (evalDoorbell g v s).now = s.now ∧
    (evalDoorbell g v s).chp = s.chp ∧ (evalDoorbell g v s).pins = s.pins ∧ (evalDoorbell g v s).win = s.win ∧
    (evalDoorbell g v s).ttb = s.ttb ∧ (evalDoorbell g v s).cay = s.cay ∧ (evalDoorbell g v s).mdf = s.mdf ∧
    (evalDoorbell g v s).kst = s.kst ∧ (evalDoorbell g v s).leg = s.leg ∧ (evalDoorbell g v s).vlt = s.vlt ∧
    (evalDoorbell g v s).slc = s.slc ∧ (evalDoorbell g v s).rng = s.rng ∧ (evalDoorbell g v s).lat = s.lat ∧
    (evalDoorbell g v s).bnv = s.bnv ∧ (evalDoorbell g v s).ucp = s.ucp ∧ (evalDoorbell g v s).wld = s.wld ∧
    (evalDoorbell g v s).tmp = s.tmp ∧ (evalDoorbell g v s).bbr = s.bbr ∧ (evalDoorbell g v s).lcs = s.lcs ∧
    (evalDoorbell g v s).fuses = s.fuses ∧ (evalDoorbell g v s).mnf = s.mnf ∧ (evalDoorbell g v s).flash = s.flash ∧
    (evalDoorbell g v s).fwu = s.fwu ∧ (evalDoorbell g v s).drb = s.drb ∧ (evalDoorbell g v s).mem = s.mem ∧
    (evalDoorbell g v s).gov = s.gov ∧ (evalDoorbell g v s).shown = s.shown := by
  unfold evalDoorbell
  repeat' split
  all_goals simp

/-- What `useContext` leaves. -/
@[simp] theorem useContext_frame (g : Nat) (s : State) :
    (useContext g s).pending = s.pending ∧ (useContext g s).out = s.out ∧ (useContext g s).free = s.free ∧
    (useContext g s).now = s.now ∧ (useContext g s).csn = s.csn ∧ (useContext g s).chp = s.chp ∧
    (useContext g s).pins = s.pins ∧ (useContext g s).hpt = s.hpt ∧ (useContext g s).stats = s.stats ∧
    (useContext g s).win = s.win ∧ (useContext g s).ttb = s.ttb ∧ (useContext g s).cay = s.cay ∧
    (useContext g s).mdf = s.mdf ∧ (useContext g s).kst = s.kst ∧ (useContext g s).leg = s.leg ∧
    (useContext g s).vlt = s.vlt ∧ (useContext g s).slc = s.slc ∧ (useContext g s).evr = s.evr ∧
    (useContext g s).rng = s.rng ∧ (useContext g s).lat = s.lat ∧ (useContext g s).bnv = s.bnv ∧
    (useContext g s).ucp = s.ucp ∧ (useContext g s).wld = s.wld ∧ (useContext g s).tmp = s.tmp ∧
    (useContext g s).bbr = s.bbr ∧ (useContext g s).lcs = s.lcs ∧ (useContext g s).fuses = s.fuses ∧
    (useContext g s).mnf = s.mnf ∧ (useContext g s).flash = s.flash ∧ (useContext g s).fwu = s.fwu ∧
    (useContext g s).drb = s.drb ∧ (useContext g s).mem = s.mem ∧ (useContext g s).gov = s.gov ∧
    (useContext g s).shown = s.shown := by
  unfold useContext
  repeat' split
  all_goals simp

/-- What `evalQueued` leaves. -/
@[simp] theorem evalQueued_frame (s : State) (x : Nat × Nat) :
    (evalQueued s x).pending = s.pending ∧ (evalQueued s x).free = s.free ∧ (evalQueued s x).now = s.now ∧
    (evalQueued s x).chp = s.chp ∧ (evalQueued s x).pins = s.pins ∧ (evalQueued s x).win = s.win ∧
    (evalQueued s x).ttb = s.ttb ∧ (evalQueued s x).cay = s.cay ∧ (evalQueued s x).mdf = s.mdf ∧
    (evalQueued s x).kst = s.kst ∧ (evalQueued s x).leg = s.leg ∧ (evalQueued s x).vlt = s.vlt ∧
    (evalQueued s x).slc = s.slc ∧ (evalQueued s x).rng = s.rng ∧ (evalQueued s x).lat = s.lat ∧
    (evalQueued s x).bnv = s.bnv ∧ (evalQueued s x).ucp = s.ucp ∧ (evalQueued s x).wld = s.wld ∧
    (evalQueued s x).tmp = s.tmp ∧ (evalQueued s x).bbr = s.bbr ∧ (evalQueued s x).lcs = s.lcs ∧
    (evalQueued s x).fuses = s.fuses ∧ (evalQueued s x).mnf = s.mnf ∧ (evalQueued s x).flash = s.flash ∧
    (evalQueued s x).fwu = s.fwu ∧ (evalQueued s x).drb = s.drb ∧ (evalQueued s x).mem = s.mem ∧
    (evalQueued s x).gov = s.gov ∧ (evalQueued s x).shown = s.shown := by
  simp [evalQueued]

/-- What `flushDb` leaves. -/
@[simp] theorem flushDb_frame (g : Nat) (s : State) :
    (flushDb g s).pending = s.pending ∧ (flushDb g s).free = s.free ∧ (flushDb g s).now = s.now ∧
    (flushDb g s).chp = s.chp ∧ (flushDb g s).pins = s.pins ∧ (flushDb g s).win = s.win ∧ (flushDb g s).ttb = s.ttb ∧
    (flushDb g s).cay = s.cay ∧ (flushDb g s).mdf = s.mdf ∧ (flushDb g s).kst = s.kst ∧ (flushDb g s).leg = s.leg ∧
    (flushDb g s).vlt = s.vlt ∧ (flushDb g s).slc = s.slc ∧ (flushDb g s).rng = s.rng ∧ (flushDb g s).lat = s.lat ∧
    (flushDb g s).bnv = s.bnv ∧ (flushDb g s).ucp = s.ucp ∧ (flushDb g s).wld = s.wld ∧ (flushDb g s).tmp = s.tmp ∧
    (flushDb g s).bbr = s.bbr ∧ (flushDb g s).lcs = s.lcs ∧ (flushDb g s).fuses = s.fuses ∧
    (flushDb g s).mnf = s.mnf ∧ (flushDb g s).flash = s.flash ∧ (flushDb g s).fwu = s.fwu ∧
    (flushDb g s).drb = s.drb ∧ (flushDb g s).mem = s.mem ∧ (flushDb g s).gov = s.gov ∧
    (flushDb g s).shown = s.shown := by
  simp [flushDb]

/-- What `setIntBoth` leaves. -/
@[simp] theorem setIntBoth_frame (i : Nat) (s : State) :
    (setIntBoth i s).pending = s.pending ∧ (setIntBoth i s).free = s.free ∧ (setIntBoth i s).now = s.now ∧
    (setIntBoth i s).csn = s.csn ∧ (setIntBoth i s).chp = s.chp ∧ (setIntBoth i s).pins = s.pins ∧
    (setIntBoth i s).win = s.win ∧ (setIntBoth i s).ttb = s.ttb ∧ (setIntBoth i s).car = s.car ∧
    (setIntBoth i s).cay = s.cay ∧ (setIntBoth i s).mdf = s.mdf ∧ (setIntBoth i s).kst = s.kst ∧
    (setIntBoth i s).leg = s.leg ∧ (setIntBoth i s).vlt = s.vlt ∧ (setIntBoth i s).slc = s.slc ∧
    (setIntBoth i s).evr = s.evr ∧ (setIntBoth i s).rng = s.rng ∧ (setIntBoth i s).lat = s.lat ∧
    (setIntBoth i s).bnv = s.bnv ∧ (setIntBoth i s).ucp = s.ucp ∧ (setIntBoth i s).wld = s.wld ∧
    (setIntBoth i s).tmp = s.tmp ∧ (setIntBoth i s).bbr = s.bbr ∧ (setIntBoth i s).lcs = s.lcs ∧
    (setIntBoth i s).fuses = s.fuses ∧ (setIntBoth i s).mnf = s.mnf ∧ (setIntBoth i s).flash = s.flash ∧
    (setIntBoth i s).fwu = s.fwu ∧ (setIntBoth i s).drb = s.drb ∧ (setIntBoth i s).mem = s.mem ∧
    (setIntBoth i s).gov = s.gov ∧ (setIntBoth i s).shown = s.shown := by
  simp [setIntBoth]

/-- What `legEvent` leaves. -/
@[simp] theorem legEvent_frame (code : Nat) (s : State) :
    (legEvent code s).pending = s.pending ∧ (legEvent code s).free = s.free ∧ (legEvent code s).now = s.now ∧
    (legEvent code s).csn = s.csn ∧ (legEvent code s).chp = s.chp ∧ (legEvent code s).pins = s.pins ∧
    (legEvent code s).win = s.win ∧ (legEvent code s).ttb = s.ttb ∧ (legEvent code s).car = s.car ∧
    (legEvent code s).cay = s.cay ∧ (legEvent code s).mdf = s.mdf ∧ (legEvent code s).kst = s.kst ∧
    (legEvent code s).vlt = s.vlt ∧ (legEvent code s).slc = s.slc ∧ (legEvent code s).rng = s.rng ∧
    (legEvent code s).lat = s.lat ∧ (legEvent code s).bnv = s.bnv ∧ (legEvent code s).ucp = s.ucp ∧
    (legEvent code s).wld = s.wld ∧ (legEvent code s).tmp = s.tmp ∧ (legEvent code s).bbr = s.bbr ∧
    (legEvent code s).lcs = s.lcs ∧ (legEvent code s).fuses = s.fuses ∧ (legEvent code s).mnf = s.mnf ∧
    (legEvent code s).flash = s.flash ∧ (legEvent code s).fwu = s.fwu ∧ (legEvent code s).drb = s.drb ∧
    (legEvent code s).mem = s.mem ∧ (legEvent code s).gov = s.gov ∧ (legEvent code s).shown = s.shown := by
  simp [legEvent]

/-- What `legAbandon` leaves. -/
@[simp] theorem legAbandon_frame (code : Nat) (s : State) :
    (legAbandon code s).pending = s.pending ∧ (legAbandon code s).free = s.free ∧ (legAbandon code s).now = s.now ∧
    (legAbandon code s).csn = s.csn ∧ (legAbandon code s).chp = s.chp ∧ (legAbandon code s).pins = s.pins ∧
    (legAbandon code s).win = s.win ∧ (legAbandon code s).ttb = s.ttb ∧ (legAbandon code s).car = s.car ∧
    (legAbandon code s).cay = s.cay ∧ (legAbandon code s).mdf = s.mdf ∧ (legAbandon code s).kst = s.kst ∧
    (legAbandon code s).vlt = s.vlt ∧ (legAbandon code s).slc = s.slc ∧ (legAbandon code s).rng = s.rng ∧
    (legAbandon code s).lat = s.lat ∧ (legAbandon code s).bnv = s.bnv ∧ (legAbandon code s).ucp = s.ucp ∧
    (legAbandon code s).wld = s.wld ∧ (legAbandon code s).tmp = s.tmp ∧ (legAbandon code s).bbr = s.bbr ∧
    (legAbandon code s).lcs = s.lcs ∧ (legAbandon code s).fuses = s.fuses ∧ (legAbandon code s).mnf = s.mnf ∧
    (legAbandon code s).flash = s.flash ∧ (legAbandon code s).fwu = s.fwu ∧ (legAbandon code s).drb = s.drb ∧
    (legAbandon code s).mem = s.mem ∧ (legAbandon code s).gov = s.gov ∧ (legAbandon code s).shown = s.shown := by
  simp [legAbandon]

/-- What `legTouch` leaves. -/
@[simp] theorem legTouch_frame (p : Port) (s : State) :
    (legTouch p s).pending = s.pending ∧ (legTouch p s).free = s.free ∧ (legTouch p s).now = s.now ∧
    (legTouch p s).csn = s.csn ∧ (legTouch p s).chp = s.chp ∧ (legTouch p s).pins = s.pins ∧
    (legTouch p s).win = s.win ∧ (legTouch p s).ttb = s.ttb ∧ (legTouch p s).car = s.car ∧
    (legTouch p s).cay = s.cay ∧ (legTouch p s).mdf = s.mdf ∧ (legTouch p s).kst = s.kst ∧
    (legTouch p s).vlt = s.vlt ∧ (legTouch p s).slc = s.slc ∧ (legTouch p s).rng = s.rng ∧
    (legTouch p s).lat = s.lat ∧ (legTouch p s).bnv = s.bnv ∧ (legTouch p s).ucp = s.ucp ∧
    (legTouch p s).wld = s.wld ∧ (legTouch p s).tmp = s.tmp ∧ (legTouch p s).bbr = s.bbr ∧
    (legTouch p s).lcs = s.lcs ∧ (legTouch p s).fuses = s.fuses ∧ (legTouch p s).mnf = s.mnf ∧
    (legTouch p s).flash = s.flash ∧ (legTouch p s).fwu = s.fwu ∧ (legTouch p s).drb = s.drb ∧
    (legTouch p s).mem = s.mem ∧ (legTouch p s).gov = s.gov ∧ (legTouch p s).shown = s.shown := by
  simp [legTouch]

/-- What `cntWr` leaves. -/
@[simp] theorem cntWr_frame (p : Port) (s : State) :
    (cntWr p s).pending = s.pending ∧ (cntWr p s).out = s.out ∧ (cntWr p s).free = s.free ∧ (cntWr p s).now = s.now ∧
    (cntWr p s).csn = s.csn ∧ (cntWr p s).chp = s.chp ∧ (cntWr p s).pins = s.pins ∧ (cntWr p s).hpt = s.hpt ∧
    (cntWr p s).win = s.win ∧ (cntWr p s).ttb = s.ttb ∧ (cntWr p s).car = s.car ∧ (cntWr p s).cay = s.cay ∧
    (cntWr p s).mdf = s.mdf ∧ (cntWr p s).kst = s.kst ∧ (cntWr p s).leg = s.leg ∧ (cntWr p s).vlt = s.vlt ∧
    (cntWr p s).slc = s.slc ∧ (cntWr p s).evr = s.evr ∧ (cntWr p s).rng = s.rng ∧ (cntWr p s).lat = s.lat ∧
    (cntWr p s).bnv = s.bnv ∧ (cntWr p s).ucp = s.ucp ∧ (cntWr p s).wld = s.wld ∧ (cntWr p s).tmp = s.tmp ∧
    (cntWr p s).bbr = s.bbr ∧ (cntWr p s).lcs = s.lcs ∧ (cntWr p s).fuses = s.fuses ∧ (cntWr p s).mnf = s.mnf ∧
    (cntWr p s).flash = s.flash ∧ (cntWr p s).fwu = s.fwu ∧ (cntWr p s).drb = s.drb ∧ (cntWr p s).mem = s.mem ∧
    (cntWr p s).gov = s.gov ∧ (cntWr p s).shown = s.shown := by
  simp [cntWr]

/-- What `rsWrote` leaves. -/
@[simp] theorem rsWrote_frame (p : Port) (sl : Option Nat) (s : State) :
    (rsWrote p sl s).pending = s.pending ∧ (rsWrote p sl s).free = s.free ∧ (rsWrote p sl s).now = s.now ∧
    (rsWrote p sl s).chp = s.chp ∧ (rsWrote p sl s).pins = s.pins ∧ (rsWrote p sl s).win = s.win ∧
    (rsWrote p sl s).ttb = s.ttb ∧ (rsWrote p sl s).car = s.car ∧ (rsWrote p sl s).cay = s.cay ∧
    (rsWrote p sl s).mdf = s.mdf ∧ (rsWrote p sl s).kst = s.kst ∧ (rsWrote p sl s).vlt = s.vlt ∧
    (rsWrote p sl s).slc = s.slc ∧ (rsWrote p sl s).rng = s.rng ∧ (rsWrote p sl s).lat = s.lat ∧
    (rsWrote p sl s).bnv = s.bnv ∧ (rsWrote p sl s).ucp = s.ucp ∧ (rsWrote p sl s).wld = s.wld ∧
    (rsWrote p sl s).tmp = s.tmp ∧ (rsWrote p sl s).bbr = s.bbr ∧ (rsWrote p sl s).lcs = s.lcs ∧
    (rsWrote p sl s).fuses = s.fuses ∧ (rsWrote p sl s).mnf = s.mnf ∧ (rsWrote p sl s).flash = s.flash ∧
    (rsWrote p sl s).fwu = s.fwu ∧ (rsWrote p sl s).drb = s.drb ∧ (rsWrote p sl s).mem = s.mem ∧
    (rsWrote p sl s).gov = s.gov ∧ (rsWrote p sl s).shown = s.shown := by
  unfold rsWrote
  repeat' split
  all_goals simp

/-- What `queueDoorbell` leaves. -/
@[simp] theorem queueDoorbell_frame (g v : Nat) (s : State) :
    (queueDoorbell g v s).pending = s.pending ∧ (queueDoorbell g v s).out = s.out ∧
    (queueDoorbell g v s).free = s.free ∧ (queueDoorbell g v s).now = s.now ∧ (queueDoorbell g v s).csn = s.csn ∧
    (queueDoorbell g v s).chp = s.chp ∧ (queueDoorbell g v s).pins = s.pins ∧ (queueDoorbell g v s).hpt = s.hpt ∧
    (queueDoorbell g v s).stats = s.stats ∧ (queueDoorbell g v s).win = s.win ∧ (queueDoorbell g v s).ttb = s.ttb ∧
    (queueDoorbell g v s).cay = s.cay ∧ (queueDoorbell g v s).mdf = s.mdf ∧ (queueDoorbell g v s).kst = s.kst ∧
    (queueDoorbell g v s).leg = s.leg ∧ (queueDoorbell g v s).vlt = s.vlt ∧ (queueDoorbell g v s).slc = s.slc ∧
    (queueDoorbell g v s).evr = s.evr ∧ (queueDoorbell g v s).rng = s.rng ∧ (queueDoorbell g v s).lat = s.lat ∧
    (queueDoorbell g v s).bnv = s.bnv ∧ (queueDoorbell g v s).ucp = s.ucp ∧ (queueDoorbell g v s).wld = s.wld ∧
    (queueDoorbell g v s).tmp = s.tmp ∧ (queueDoorbell g v s).bbr = s.bbr ∧ (queueDoorbell g v s).lcs = s.lcs ∧
    (queueDoorbell g v s).fuses = s.fuses ∧ (queueDoorbell g v s).mnf = s.mnf ∧
    (queueDoorbell g v s).flash = s.flash ∧ (queueDoorbell g v s).fwu = s.fwu ∧ (queueDoorbell g v s).drb = s.drb ∧
    (queueDoorbell g v s).mem = s.mem ∧ (queueDoorbell g v s).gov = s.gov ∧
    (queueDoorbell g v s).shown = s.shown := by
  simp [queueDoorbell]

/-- What `doorbell` leaves. -/
@[simp] theorem doorbell_frame (g v : Nat) (s : State) :
    (doorbell g v s).pending = s.pending ∧ (doorbell g v s).free = s.free ∧ (doorbell g v s).now = s.now ∧
    (doorbell g v s).chp = s.chp ∧ (doorbell g v s).pins = s.pins ∧ (doorbell g v s).win = s.win ∧
    (doorbell g v s).ttb = s.ttb ∧ (doorbell g v s).cay = s.cay ∧ (doorbell g v s).mdf = s.mdf ∧
    (doorbell g v s).kst = s.kst ∧ (doorbell g v s).leg = s.leg ∧ (doorbell g v s).vlt = s.vlt ∧
    (doorbell g v s).slc = s.slc ∧ (doorbell g v s).rng = s.rng ∧ (doorbell g v s).lat = s.lat ∧
    (doorbell g v s).bnv = s.bnv ∧ (doorbell g v s).ucp = s.ucp ∧ (doorbell g v s).wld = s.wld ∧
    (doorbell g v s).tmp = s.tmp ∧ (doorbell g v s).bbr = s.bbr ∧ (doorbell g v s).lcs = s.lcs ∧
    (doorbell g v s).fuses = s.fuses ∧ (doorbell g v s).mnf = s.mnf ∧ (doorbell g v s).flash = s.flash ∧
    (doorbell g v s).fwu = s.fwu ∧ (doorbell g v s).drb = s.drb ∧ (doorbell g v s).mem = s.mem ∧
    (doorbell g v s).gov = s.gov ∧ (doorbell g v s).shown = s.shown := by
  simp [doorbell]

/-- What `doorbellAt` leaves. -/
@[simp] theorem doorbellAt_frame (p : Port) (sl : Option Nat) (ring value : Nat) (s : State) :
    (doorbellAt p sl ring value s).pending = s.pending ∧ (doorbellAt p sl ring value s).free = s.free ∧
    (doorbellAt p sl ring value s).now = s.now ∧ (doorbellAt p sl ring value s).chp = s.chp ∧
    (doorbellAt p sl ring value s).pins = s.pins ∧ (doorbellAt p sl ring value s).win = s.win ∧
    (doorbellAt p sl ring value s).ttb = s.ttb ∧ (doorbellAt p sl ring value s).cay = s.cay ∧
    (doorbellAt p sl ring value s).mdf = s.mdf ∧ (doorbellAt p sl ring value s).kst = s.kst ∧
    (doorbellAt p sl ring value s).vlt = s.vlt ∧ (doorbellAt p sl ring value s).slc = s.slc ∧
    (doorbellAt p sl ring value s).rng = s.rng ∧ (doorbellAt p sl ring value s).lat = s.lat ∧
    (doorbellAt p sl ring value s).bnv = s.bnv ∧ (doorbellAt p sl ring value s).ucp = s.ucp ∧
    (doorbellAt p sl ring value s).wld = s.wld ∧ (doorbellAt p sl ring value s).tmp = s.tmp ∧
    (doorbellAt p sl ring value s).bbr = s.bbr ∧ (doorbellAt p sl ring value s).lcs = s.lcs ∧
    (doorbellAt p sl ring value s).fuses = s.fuses ∧ (doorbellAt p sl ring value s).mnf = s.mnf ∧
    (doorbellAt p sl ring value s).flash = s.flash ∧ (doorbellAt p sl ring value s).fwu = s.fwu ∧
    (doorbellAt p sl ring value s).drb = s.drb ∧ (doorbellAt p sl ring value s).mem = s.mem ∧
    (doorbellAt p sl ring value s).gov = s.gov ∧ (doorbellAt p sl ring value s).shown = s.shown := by
  unfold doorbellAt
  repeat' split
  all_goals simp

/-- What `tagGiven` leaves. -/
@[simp] theorem tagGiven_frame (g : Nat) (s : State) :
    (tagGiven g s).pending = s.pending ∧ (tagGiven g s).out = s.out ∧ (tagGiven g s).free = s.free ∧
    (tagGiven g s).now = s.now ∧ (tagGiven g s).csn = s.csn ∧ (tagGiven g s).chp = s.chp ∧
    (tagGiven g s).pins = s.pins ∧ (tagGiven g s).hpt = s.hpt ∧ (tagGiven g s).stats = s.stats ∧
    (tagGiven g s).win = s.win ∧ (tagGiven g s).ttb = s.ttb ∧ (tagGiven g s).cay = s.cay ∧
    (tagGiven g s).mdf = s.mdf ∧ (tagGiven g s).kst = s.kst ∧ (tagGiven g s).leg = s.leg ∧
    (tagGiven g s).vlt = s.vlt ∧ (tagGiven g s).slc = s.slc ∧ (tagGiven g s).evr = s.evr ∧
    (tagGiven g s).rng = s.rng ∧ (tagGiven g s).lat = s.lat ∧ (tagGiven g s).bnv = s.bnv ∧
    (tagGiven g s).ucp = s.ucp ∧ (tagGiven g s).wld = s.wld ∧ (tagGiven g s).tmp = s.tmp ∧
    (tagGiven g s).bbr = s.bbr ∧ (tagGiven g s).lcs = s.lcs ∧ (tagGiven g s).fuses = s.fuses ∧
    (tagGiven g s).mnf = s.mnf ∧ (tagGiven g s).flash = s.flash ∧ (tagGiven g s).fwu = s.fwu ∧
    (tagGiven g s).drb = s.drb ∧ (tagGiven g s).mem = s.mem ∧ (tagGiven g s).gov = s.gov ∧
    (tagGiven g s).shown = s.shown := by
  simp [tagGiven]

/-- What `cmdContext` leaves. -/
@[simp] theorem cmdContext_frame (g : Nat) (s : State) :
    (cmdContext g s).pending = s.pending ∧ (cmdContext g s).out = s.out ∧ (cmdContext g s).free = s.free ∧
    (cmdContext g s).now = s.now ∧ (cmdContext g s).csn = s.csn ∧ (cmdContext g s).chp = s.chp ∧
    (cmdContext g s).pins = s.pins ∧ (cmdContext g s).hpt = s.hpt ∧ (cmdContext g s).stats = s.stats ∧
    (cmdContext g s).win = s.win ∧ (cmdContext g s).ttb = s.ttb ∧ (cmdContext g s).cay = s.cay ∧
    (cmdContext g s).mdf = s.mdf ∧ (cmdContext g s).kst = s.kst ∧ (cmdContext g s).leg = s.leg ∧
    (cmdContext g s).vlt = s.vlt ∧ (cmdContext g s).slc = s.slc ∧ (cmdContext g s).evr = s.evr ∧
    (cmdContext g s).rng = s.rng ∧ (cmdContext g s).lat = s.lat ∧ (cmdContext g s).bnv = s.bnv ∧
    (cmdContext g s).ucp = s.ucp ∧ (cmdContext g s).wld = s.wld ∧ (cmdContext g s).tmp = s.tmp ∧
    (cmdContext g s).bbr = s.bbr ∧ (cmdContext g s).lcs = s.lcs ∧ (cmdContext g s).fuses = s.fuses ∧
    (cmdContext g s).mnf = s.mnf ∧ (cmdContext g s).flash = s.flash ∧ (cmdContext g s).fwu = s.fwu ∧
    (cmdContext g s).drb = s.drb ∧ (cmdContext g s).mem = s.mem ∧ (cmdContext g s).gov = s.gov ∧
    (cmdContext g s).shown = s.shown := by
  simp [cmdContext]

/-- What `chargeTag` leaves. -/
@[simp] theorem chargeTag_frame (r : Ring) (s : State) :
    (chargeTag r s).pending = s.pending ∧ (chargeTag r s).out = s.out ∧ (chargeTag r s).free = s.free ∧
    (chargeTag r s).now = s.now ∧ (chargeTag r s).csn = s.csn ∧ (chargeTag r s).chp = s.chp ∧
    (chargeTag r s).pins = s.pins ∧ (chargeTag r s).hpt = s.hpt ∧ (chargeTag r s).stats = s.stats ∧
    (chargeTag r s).win = s.win ∧ (chargeTag r s).ttb = s.ttb ∧ (chargeTag r s).car = s.car ∧
    (chargeTag r s).mdf = s.mdf ∧ (chargeTag r s).kst = s.kst ∧ (chargeTag r s).leg = s.leg ∧
    (chargeTag r s).vlt = s.vlt ∧ (chargeTag r s).slc = s.slc ∧ (chargeTag r s).evr = s.evr ∧
    (chargeTag r s).rng = s.rng ∧ (chargeTag r s).lat = s.lat ∧ (chargeTag r s).bnv = s.bnv ∧
    (chargeTag r s).ucp = s.ucp ∧ (chargeTag r s).wld = s.wld ∧ (chargeTag r s).tmp = s.tmp ∧
    (chargeTag r s).bbr = s.bbr ∧ (chargeTag r s).lcs = s.lcs ∧ (chargeTag r s).fuses = s.fuses ∧
    (chargeTag r s).mnf = s.mnf ∧ (chargeTag r s).flash = s.flash ∧ (chargeTag r s).fwu = s.fwu ∧
    (chargeTag r s).drb = s.drb ∧ (chargeTag r s).mem = s.mem ∧ (chargeTag r s).gov = s.gov ∧
    (chargeTag r s).shown = s.shown := by
  simp [chargeTag]

/-- What `takeEntry` leaves. -/
@[simp] theorem takeEntry_frame (g t : Nat) (sided : Bool) (bytes : Bytes) (s : State) :
    (takeEntry g t sided bytes s).pending = s.pending ∧ (takeEntry g t sided bytes s).free = s.free ∧
    (takeEntry g t sided bytes s).now = s.now ∧ (takeEntry g t sided bytes s).chp = s.chp ∧
    (takeEntry g t sided bytes s).pins = s.pins ∧ (takeEntry g t sided bytes s).hpt = s.hpt ∧
    (takeEntry g t sided bytes s).win = s.win ∧ (takeEntry g t sided bytes s).ttb = s.ttb ∧
    (takeEntry g t sided bytes s).mdf = s.mdf ∧ (takeEntry g t sided bytes s).kst = s.kst ∧
    (takeEntry g t sided bytes s).leg = s.leg ∧ (takeEntry g t sided bytes s).vlt = s.vlt ∧
    (takeEntry g t sided bytes s).slc = s.slc ∧ (takeEntry g t sided bytes s).evr = s.evr ∧
    (takeEntry g t sided bytes s).rng = s.rng ∧ (takeEntry g t sided bytes s).lat = s.lat ∧
    (takeEntry g t sided bytes s).bnv = s.bnv ∧ (takeEntry g t sided bytes s).ucp = s.ucp ∧
    (takeEntry g t sided bytes s).wld = s.wld ∧ (takeEntry g t sided bytes s).tmp = s.tmp ∧
    (takeEntry g t sided bytes s).bbr = s.bbr ∧ (takeEntry g t sided bytes s).lcs = s.lcs ∧
    (takeEntry g t sided bytes s).fuses = s.fuses ∧ (takeEntry g t sided bytes s).mnf = s.mnf ∧
    (takeEntry g t sided bytes s).flash = s.flash ∧ (takeEntry g t sided bytes s).fwu = s.fwu ∧
    (takeEntry g t sided bytes s).drb = s.drb ∧ (takeEntry g t sided bytes s).mem = s.mem ∧
    (takeEntry g t sided bytes s).gov = s.gov ∧ (takeEntry g t sided bytes s).shown = s.shown := by
  simp [takeEntry]

/-- What `issueReads` leaves. -/
@[simp] theorem issueReads_frame (p : Port) (s : State) :
    (issueReads p s).pending = s.pending ∧ (issueReads p s).free = s.free ∧ (issueReads p s).now = s.now ∧
    (issueReads p s).csn = s.csn ∧ (issueReads p s).chp = s.chp ∧ (issueReads p s).pins = s.pins ∧
    (issueReads p s).hpt = s.hpt ∧ (issueReads p s).win = s.win ∧ (issueReads p s).ttb = s.ttb ∧
    (issueReads p s).car = s.car ∧ (issueReads p s).cay = s.cay ∧ (issueReads p s).mdf = s.mdf ∧
    (issueReads p s).kst = s.kst ∧ (issueReads p s).leg = s.leg ∧ (issueReads p s).vlt = s.vlt ∧
    (issueReads p s).slc = s.slc ∧ (issueReads p s).evr = s.evr ∧ (issueReads p s).rng = s.rng ∧
    (issueReads p s).lat = s.lat ∧ (issueReads p s).bnv = s.bnv ∧ (issueReads p s).ucp = s.ucp ∧
    (issueReads p s).wld = s.wld ∧ (issueReads p s).tmp = s.tmp ∧ (issueReads p s).bbr = s.bbr ∧
    (issueReads p s).lcs = s.lcs ∧ (issueReads p s).fuses = s.fuses ∧ (issueReads p s).mnf = s.mnf ∧
    (issueReads p s).flash = s.flash ∧ (issueReads p s).fwu = s.fwu ∧ (issueReads p s).drb = s.drb ∧
    (issueReads p s).mem = s.mem ∧ (issueReads p s).gov = s.gov ∧ (issueReads p s).shown = s.shown := by
  simp [issueReads]

/-- What `dmaReads` leaves. -/
@[simp] theorem dmaReads_frame (w : DmaRead) (p : Port) (pasid : Option Nat) (parts : List (Nat × Nat)) (s : State) :
    (dmaReads w p pasid parts s).pending = s.pending ∧ (dmaReads w p pasid parts s).free = s.free ∧
    (dmaReads w p pasid parts s).now = s.now ∧ (dmaReads w p pasid parts s).csn = s.csn ∧
    (dmaReads w p pasid parts s).chp = s.chp ∧ (dmaReads w p pasid parts s).pins = s.pins ∧
    (dmaReads w p pasid parts s).hpt = s.hpt ∧ (dmaReads w p pasid parts s).win = s.win ∧
    (dmaReads w p pasid parts s).ttb = s.ttb ∧ (dmaReads w p pasid parts s).car = s.car ∧
    (dmaReads w p pasid parts s).cay = s.cay ∧ (dmaReads w p pasid parts s).mdf = s.mdf ∧
    (dmaReads w p pasid parts s).kst = s.kst ∧ (dmaReads w p pasid parts s).leg = s.leg ∧
    (dmaReads w p pasid parts s).vlt = s.vlt ∧ (dmaReads w p pasid parts s).slc = s.slc ∧
    (dmaReads w p pasid parts s).evr = s.evr ∧ (dmaReads w p pasid parts s).rng = s.rng ∧
    (dmaReads w p pasid parts s).lat = s.lat ∧ (dmaReads w p pasid parts s).bnv = s.bnv ∧
    (dmaReads w p pasid parts s).ucp = s.ucp ∧ (dmaReads w p pasid parts s).wld = s.wld ∧
    (dmaReads w p pasid parts s).tmp = s.tmp ∧ (dmaReads w p pasid parts s).bbr = s.bbr ∧
    (dmaReads w p pasid parts s).lcs = s.lcs ∧ (dmaReads w p pasid parts s).fuses = s.fuses ∧
    (dmaReads w p pasid parts s).mnf = s.mnf ∧ (dmaReads w p pasid parts s).flash = s.flash ∧
    (dmaReads w p pasid parts s).fwu = s.fwu ∧ (dmaReads w p pasid parts s).drb = s.drb ∧
    (dmaReads w p pasid parts s).mem = s.mem ∧ (dmaReads w p pasid parts s).gov = s.gov ∧
    (dmaReads w p pasid parts s).shown = s.shown := by
  simp [dmaReads]

/-- What `dmaRead` leaves. -/
@[simp] theorem dmaRead_frame (w : DmaRead) (p : Port) (pasid : Option Nat) (addr len : Nat) (s : State) :
    (dmaRead w p pasid addr len s).pending = s.pending ∧ (dmaRead w p pasid addr len s).free = s.free ∧
    (dmaRead w p pasid addr len s).now = s.now ∧ (dmaRead w p pasid addr len s).csn = s.csn ∧
    (dmaRead w p pasid addr len s).chp = s.chp ∧ (dmaRead w p pasid addr len s).pins = s.pins ∧
    (dmaRead w p pasid addr len s).hpt = s.hpt ∧ (dmaRead w p pasid addr len s).win = s.win ∧
    (dmaRead w p pasid addr len s).ttb = s.ttb ∧ (dmaRead w p pasid addr len s).car = s.car ∧
    (dmaRead w p pasid addr len s).cay = s.cay ∧ (dmaRead w p pasid addr len s).mdf = s.mdf ∧
    (dmaRead w p pasid addr len s).kst = s.kst ∧ (dmaRead w p pasid addr len s).leg = s.leg ∧
    (dmaRead w p pasid addr len s).vlt = s.vlt ∧ (dmaRead w p pasid addr len s).slc = s.slc ∧
    (dmaRead w p pasid addr len s).evr = s.evr ∧ (dmaRead w p pasid addr len s).rng = s.rng ∧
    (dmaRead w p pasid addr len s).lat = s.lat ∧ (dmaRead w p pasid addr len s).bnv = s.bnv ∧
    (dmaRead w p pasid addr len s).ucp = s.ucp ∧ (dmaRead w p pasid addr len s).wld = s.wld ∧
    (dmaRead w p pasid addr len s).tmp = s.tmp ∧ (dmaRead w p pasid addr len s).bbr = s.bbr ∧
    (dmaRead w p pasid addr len s).lcs = s.lcs ∧ (dmaRead w p pasid addr len s).fuses = s.fuses ∧
    (dmaRead w p pasid addr len s).mnf = s.mnf ∧ (dmaRead w p pasid addr len s).flash = s.flash ∧
    (dmaRead w p pasid addr len s).fwu = s.fwu ∧ (dmaRead w p pasid addr len s).drb = s.drb ∧
    (dmaRead w p pasid addr len s).mem = s.mem ∧ (dmaRead w p pasid addr len s).gov = s.gov ∧
    (dmaRead w p pasid addr len s).shown = s.shown := by
  simp [dmaRead]

/-- What `fetchEntry` leaves. -/
@[simp] theorem fetchEntry_frame (g p : Nat) (final : Bool) (s : State) :
    (fetchEntry g p final s).pending = s.pending ∧ (fetchEntry g p final s).free = s.free ∧
    (fetchEntry g p final s).now = s.now ∧ (fetchEntry g p final s).csn = s.csn ∧
    (fetchEntry g p final s).chp = s.chp ∧ (fetchEntry g p final s).pins = s.pins ∧
    (fetchEntry g p final s).hpt = s.hpt ∧ (fetchEntry g p final s).win = s.win ∧
    (fetchEntry g p final s).ttb = s.ttb ∧ (fetchEntry g p final s).cay = s.cay ∧
    (fetchEntry g p final s).mdf = s.mdf ∧ (fetchEntry g p final s).kst = s.kst ∧
    (fetchEntry g p final s).leg = s.leg ∧ (fetchEntry g p final s).vlt = s.vlt ∧
    (fetchEntry g p final s).slc = s.slc ∧ (fetchEntry g p final s).evr = s.evr ∧
    (fetchEntry g p final s).rng = s.rng ∧ (fetchEntry g p final s).lat = s.lat ∧
    (fetchEntry g p final s).bnv = s.bnv ∧ (fetchEntry g p final s).ucp = s.ucp ∧
    (fetchEntry g p final s).wld = s.wld ∧ (fetchEntry g p final s).tmp = s.tmp ∧
    (fetchEntry g p final s).bbr = s.bbr ∧ (fetchEntry g p final s).lcs = s.lcs ∧
    (fetchEntry g p final s).fuses = s.fuses ∧ (fetchEntry g p final s).mnf = s.mnf ∧
    (fetchEntry g p final s).flash = s.flash ∧ (fetchEntry g p final s).fwu = s.fwu ∧
    (fetchEntry g p final s).drb = s.drb ∧ (fetchEntry g p final s).mem = s.mem ∧
    (fetchEntry g p final s).gov = s.gov ∧ (fetchEntry g p final s).shown = s.shown := by
  simp [fetchEntry]

/-- What `holdDoorbell` leaves. -/
@[simp] theorem holdDoorbell_frame (p : Port) (sl : Option Nat) (ring value : Nat) (s : State) :
    (holdDoorbell p sl ring value s).pending = s.pending ∧ (holdDoorbell p sl ring value s).out = s.out ∧
    (holdDoorbell p sl ring value s).now = s.now ∧ (holdDoorbell p sl ring value s).csn = s.csn ∧
    (holdDoorbell p sl ring value s).chp = s.chp ∧ (holdDoorbell p sl ring value s).pins = s.pins ∧
    (holdDoorbell p sl ring value s).stats = s.stats ∧ (holdDoorbell p sl ring value s).win = s.win ∧
    (holdDoorbell p sl ring value s).ttb = s.ttb ∧ (holdDoorbell p sl ring value s).cay = s.cay ∧
    (holdDoorbell p sl ring value s).mdf = s.mdf ∧ (holdDoorbell p sl ring value s).kst = s.kst ∧
    (holdDoorbell p sl ring value s).leg = s.leg ∧ (holdDoorbell p sl ring value s).vlt = s.vlt ∧
    (holdDoorbell p sl ring value s).slc = s.slc ∧ (holdDoorbell p sl ring value s).evr = s.evr ∧
    (holdDoorbell p sl ring value s).rng = s.rng ∧ (holdDoorbell p sl ring value s).lat = s.lat ∧
    (holdDoorbell p sl ring value s).bnv = s.bnv ∧ (holdDoorbell p sl ring value s).ucp = s.ucp ∧
    (holdDoorbell p sl ring value s).wld = s.wld ∧ (holdDoorbell p sl ring value s).tmp = s.tmp ∧
    (holdDoorbell p sl ring value s).bbr = s.bbr ∧ (holdDoorbell p sl ring value s).lcs = s.lcs ∧
    (holdDoorbell p sl ring value s).fuses = s.fuses ∧ (holdDoorbell p sl ring value s).mnf = s.mnf ∧
    (holdDoorbell p sl ring value s).flash = s.flash ∧ (holdDoorbell p sl ring value s).fwu = s.fwu ∧
    (holdDoorbell p sl ring value s).drb = s.drb ∧ (holdDoorbell p sl ring value s).mem = s.mem ∧
    (holdDoorbell p sl ring value s).gov = s.gov ∧ (holdDoorbell p sl ring value s).shown = s.shown := by
  simp [holdDoorbell]

/-- What `pageDiscard` leaves. -/
@[simp] theorem pageDiscard_frame (p : Port) (sl : Option Nat) (s : State) :
    (pageDiscard p sl s).pending = s.pending ∧ (pageDiscard p sl s).out = s.out ∧ (pageDiscard p sl s).free = s.free ∧
    (pageDiscard p sl s).now = s.now ∧ (pageDiscard p sl s).csn = s.csn ∧ (pageDiscard p sl s).chp = s.chp ∧
    (pageDiscard p sl s).pins = s.pins ∧ (pageDiscard p sl s).stats = s.stats ∧ (pageDiscard p sl s).win = s.win ∧
    (pageDiscard p sl s).ttb = s.ttb ∧ (pageDiscard p sl s).car = s.car ∧ (pageDiscard p sl s).cay = s.cay ∧
    (pageDiscard p sl s).mdf = s.mdf ∧ (pageDiscard p sl s).kst = s.kst ∧ (pageDiscard p sl s).leg = s.leg ∧
    (pageDiscard p sl s).vlt = s.vlt ∧ (pageDiscard p sl s).slc = s.slc ∧ (pageDiscard p sl s).evr = s.evr ∧
    (pageDiscard p sl s).rng = s.rng ∧ (pageDiscard p sl s).lat = s.lat ∧ (pageDiscard p sl s).bnv = s.bnv ∧
    (pageDiscard p sl s).ucp = s.ucp ∧ (pageDiscard p sl s).wld = s.wld ∧ (pageDiscard p sl s).tmp = s.tmp ∧
    (pageDiscard p sl s).bbr = s.bbr ∧ (pageDiscard p sl s).lcs = s.lcs ∧ (pageDiscard p sl s).fuses = s.fuses ∧
    (pageDiscard p sl s).mnf = s.mnf ∧ (pageDiscard p sl s).flash = s.flash ∧ (pageDiscard p sl s).fwu = s.fwu ∧
    (pageDiscard p sl s).drb = s.drb ∧ (pageDiscard p sl s).mem = s.mem ∧ (pageDiscard p sl s).gov = s.gov ∧
    (pageDiscard p sl s).shown = s.shown := by
  unfold pageDiscard
  repeat' split
  all_goals simp

/-- What `updRs` leaves. -/
@[simp] theorem updRs_frame (p : Port) (sl : Option Nat) (f : RsWin → RsWin) (s : State) :
    (updRs p sl f s).pending = s.pending ∧ (updRs p sl f s).out = s.out ∧ (updRs p sl f s).free = s.free ∧
    (updRs p sl f s).now = s.now ∧ (updRs p sl f s).csn = s.csn ∧ (updRs p sl f s).chp = s.chp ∧
    (updRs p sl f s).pins = s.pins ∧ (updRs p sl f s).hpt = s.hpt ∧ (updRs p sl f s).stats = s.stats ∧
    (updRs p sl f s).ttb = s.ttb ∧ (updRs p sl f s).car = s.car ∧ (updRs p sl f s).cay = s.cay ∧
    (updRs p sl f s).mdf = s.mdf ∧ (updRs p sl f s).kst = s.kst ∧ (updRs p sl f s).leg = s.leg ∧
    (updRs p sl f s).vlt = s.vlt ∧ (updRs p sl f s).evr = s.evr ∧ (updRs p sl f s).rng = s.rng ∧
    (updRs p sl f s).lat = s.lat ∧ (updRs p sl f s).bnv = s.bnv ∧ (updRs p sl f s).ucp = s.ucp ∧
    (updRs p sl f s).wld = s.wld ∧ (updRs p sl f s).tmp = s.tmp ∧ (updRs p sl f s).bbr = s.bbr ∧
    (updRs p sl f s).lcs = s.lcs ∧ (updRs p sl f s).fuses = s.fuses ∧ (updRs p sl f s).mnf = s.mnf ∧
    (updRs p sl f s).flash = s.flash ∧ (updRs p sl f s).fwu = s.fwu ∧ (updRs p sl f s).drb = s.drb ∧
    (updRs p sl f s).mem = s.mem ∧ (updRs p sl f s).gov = s.gov ∧ (updRs p sl f s).shown = s.shown := by
  unfold updRs
  repeat' split
  all_goals simp

/-- What `abortSq` leaves. -/
@[simp] theorem abortSq_frame (g : Nat) (cookie : Option Nat) (s : State) :
    (abortSq g cookie s).pending = s.pending ∧ (abortSq g cookie s).free = s.free ∧ (abortSq g cookie s).now = s.now ∧
    (abortSq g cookie s).chp = s.chp ∧ (abortSq g cookie s).pins = s.pins ∧ (abortSq g cookie s).hpt = s.hpt ∧
    (abortSq g cookie s).ttb = s.ttb ∧ (abortSq g cookie s).leg = s.leg ∧ (abortSq g cookie s).wld = s.wld ∧
    (abortSq g cookie s).tmp = s.tmp ∧ (abortSq g cookie s).bbr = s.bbr ∧ (abortSq g cookie s).lcs = s.lcs ∧
    (abortSq g cookie s).fuses = s.fuses ∧ (abortSq g cookie s).mnf = s.mnf ∧ (abortSq g cookie s).flash = s.flash ∧
    (abortSq g cookie s).fwu = s.fwu ∧ (abortSq g cookie s).drb = s.drb ∧ (abortSq g cookie s).mem = s.mem ∧
    (abortSq g cookie s).gov = s.gov ∧ (abortSq g cookie s).shown = s.shown := by
  unfold abortSq
  repeat' split
  all_goals simp

/-- What `prefetchN` leaves. -/
@[simp] theorem prefetchN_frame (k g p : Nat) (s : State) :
    (prefetchN k g p s).pending = s.pending ∧ (prefetchN k g p s).free = s.free ∧ (prefetchN k g p s).now = s.now ∧
    (prefetchN k g p s).csn = s.csn ∧ (prefetchN k g p s).chp = s.chp ∧ (prefetchN k g p s).pins = s.pins ∧
    (prefetchN k g p s).hpt = s.hpt ∧ (prefetchN k g p s).win = s.win ∧ (prefetchN k g p s).ttb = s.ttb ∧
    (prefetchN k g p s).cay = s.cay ∧ (prefetchN k g p s).mdf = s.mdf ∧ (prefetchN k g p s).kst = s.kst ∧
    (prefetchN k g p s).leg = s.leg ∧ (prefetchN k g p s).vlt = s.vlt ∧ (prefetchN k g p s).slc = s.slc ∧
    (prefetchN k g p s).evr = s.evr ∧ (prefetchN k g p s).rng = s.rng ∧ (prefetchN k g p s).lat = s.lat ∧
    (prefetchN k g p s).bnv = s.bnv ∧ (prefetchN k g p s).ucp = s.ucp ∧ (prefetchN k g p s).wld = s.wld ∧
    (prefetchN k g p s).tmp = s.tmp ∧ (prefetchN k g p s).bbr = s.bbr ∧ (prefetchN k g p s).lcs = s.lcs ∧
    (prefetchN k g p s).fuses = s.fuses ∧ (prefetchN k g p s).mnf = s.mnf ∧ (prefetchN k g p s).flash = s.flash ∧
    (prefetchN k g p s).fwu = s.fwu ∧ (prefetchN k g p s).drb = s.drb ∧ (prefetchN k g p s).mem = s.mem ∧
    (prefetchN k g p s).gov = s.gov ∧ (prefetchN k g p s).shown = s.shown := by
  induction k generalizing p s with
  | zero => simp [prefetchN]
  | succ k ih => simp [prefetchN, ih]

/-- What `releaseDbN` leaves. -/
@[simp] theorem releaseDbN_frame (k : Nat) (s : State) :
    (releaseDbN k s).pending = s.pending ∧ (releaseDbN k s).free = s.free ∧ (releaseDbN k s).now = s.now ∧
    (releaseDbN k s).chp = s.chp ∧ (releaseDbN k s).pins = s.pins ∧ (releaseDbN k s).win = s.win ∧
    (releaseDbN k s).ttb = s.ttb ∧ (releaseDbN k s).cay = s.cay ∧ (releaseDbN k s).mdf = s.mdf ∧
    (releaseDbN k s).kst = s.kst ∧ (releaseDbN k s).vlt = s.vlt ∧ (releaseDbN k s).slc = s.slc ∧
    (releaseDbN k s).rng = s.rng ∧ (releaseDbN k s).lat = s.lat ∧ (releaseDbN k s).bnv = s.bnv ∧
    (releaseDbN k s).ucp = s.ucp ∧ (releaseDbN k s).wld = s.wld ∧ (releaseDbN k s).tmp = s.tmp ∧
    (releaseDbN k s).bbr = s.bbr ∧ (releaseDbN k s).lcs = s.lcs ∧ (releaseDbN k s).fuses = s.fuses ∧
    (releaseDbN k s).mnf = s.mnf ∧ (releaseDbN k s).flash = s.flash ∧ (releaseDbN k s).fwu = s.fwu ∧
    (releaseDbN k s).drb = s.drb ∧ (releaseDbN k s).mem = s.mem ∧ (releaseDbN k s).gov = s.gov ∧
    (releaseDbN k s).shown = s.shown := by
  induction k generalizing s with
  | zero => simp [releaseDbN]
  | succ k ih =>
    unfold releaseDbN
    split
    · simp
    · simp [ih]

/-- What `releaseDb` leaves. -/
@[simp] theorem releaseDb_frame (s : State) :
    (releaseDb s).pending = s.pending ∧ (releaseDb s).free = s.free ∧ (releaseDb s).now = s.now ∧
    (releaseDb s).chp = s.chp ∧ (releaseDb s).pins = s.pins ∧ (releaseDb s).win = s.win ∧ (releaseDb s).ttb = s.ttb ∧
    (releaseDb s).cay = s.cay ∧ (releaseDb s).mdf = s.mdf ∧ (releaseDb s).kst = s.kst ∧ (releaseDb s).vlt = s.vlt ∧
    (releaseDb s).slc = s.slc ∧ (releaseDb s).rng = s.rng ∧ (releaseDb s).lat = s.lat ∧ (releaseDb s).bnv = s.bnv ∧
    (releaseDb s).ucp = s.ucp ∧ (releaseDb s).wld = s.wld ∧ (releaseDb s).tmp = s.tmp ∧ (releaseDb s).bbr = s.bbr ∧
    (releaseDb s).lcs = s.lcs ∧ (releaseDb s).fuses = s.fuses ∧ (releaseDb s).mnf = s.mnf ∧
    (releaseDb s).flash = s.flash ∧ (releaseDb s).fwu = s.fwu ∧ (releaseDb s).drb = s.drb ∧
    (releaseDb s).mem = s.mem ∧ (releaseDb s).gov = s.gov ∧ (releaseDb s).shown = s.shown := by
  simp [releaseDb]

/-- `updRing` leaves the carriages. -/
@[simp] theorem updRing_cars (g : Nat) (f : Ring → Ring) (s : State) : (updRing g f s).car.cars = s.car.cars := by
  simp [updRing]

/-- `cqMessage` leaves the carriages. -/
@[simp] theorem cqMessage_cars (q : Nat) (s : State) : (cqMessage q s).car.cars = s.car.cars := by
  simp [cqMessage]

/-- `coalesce` leaves the carriages. -/
@[simp] theorem coalesce_cars (q : Nat) (s : State) : (coalesce q s).car.cars = s.car.cars := by
  simp [coalesce]

/-- `writeCqe` leaves the carriages. -/
@[simp] theorem writeCqe_cars (q : Nat) (sided imm : Bool) (e : Bytes) (s : State) :
    (writeCqe q sided imm e s).car.cars = s.car.cars := by
  simp [writeCqe]

/-- `drainN` leaves the carriages. -/
@[simp] theorem drainN_cars (k q : Nat) (s : State) : (drainN k q s).car.cars = s.car.cars := by
  induction k generalizing s with
  | zero => rfl
  | succ k ih =>
    unfold drainN
    dsimp only
    repeat' split
    all_goals simp [ih]

/-- `stampBrake` leaves the carriages. -/
@[simp] theorem stampBrake_cars (q : Nat) (s : State) : (stampBrake q s).car.cars = s.car.cars := by
  simp [stampBrake]

/-- `dropShadows` leaves the carriages. -/
@[simp] theorem dropShadows_cars (f : Shadow → Bool) (s : State) : (dropShadows f s).car.cars = s.car.cars := by
  simp [dropShadows]

/-- `loseCopies` leaves the carriages. -/
@[simp] theorem loseCopies_cars (g : Nat) (s : State) : (loseCopies g s).car.cars = s.car.cars := by
  simp [loseCopies]

/-- `setRing` leaves the carriages. -/
@[simp] theorem setRing_cars (g : Nat) (st : RingState) (s : State) : (setRing g st s).car.cars = s.car.cars := by
  simp [setRing]

/-- `brakeOne` leaves the carriages. -/
@[simp] theorem brakeOne_cars (blocked : Bool) (s : State) (g : Nat) :
    (brakeOne blocked s g).car.cars = s.car.cars := by
  simp [brakeOne]

/-- `rebrake` leaves the carriages. -/
@[simp] theorem rebrake_cars (q : Nat) (s : State) : (rebrake q s).car.cars = s.car.cars := by
  simp [rebrake]

/-- `dropSiding` leaves the carriages. -/
@[simp] theorem dropSiding_cars (q : Nat) (s : State) : (dropSiding q s).car.cars = s.car.cars := by
  simp [dropSiding]

/-- `relieve` leaves the carriages. -/
@[simp] theorem relieve_cars (s : State) : (relieve s).car.cars = s.car.cars := by
  simp [relieve]

/-- `ringError` leaves the carriages. -/
@[simp] theorem ringError_cars (g code : Nat) (s : State) : (ringError g code s).car.cars = s.car.cars := by
  simp [ringError]

/-- `overrun` leaves the carriages. -/
@[simp] theorem overrun_cars (g code : Nat) (s : State) : (overrun g code s).car.cars = s.car.cars := by
  simp [overrun]

/-- `badDoorbell` leaves the carriages. -/
@[simp] theorem badDoorbell_cars (s : State) : (badDoorbell s).car.cars = s.car.cars := by
  simp [badDoorbell]

/-- `evalSq` leaves the carriages. -/
@[simp] theorem evalSq_cars (g v : Nat) (s : State) : (evalSq g v s).car.cars = s.car.cars := by
  simp [evalSq]

/-- `drain` leaves the carriages. -/
@[simp] theorem drain_cars (q : Nat) (s : State) : (drain q s).car.cars = s.car.cars := by
  simp [drain]

/-- `evalCq` leaves the carriages. -/
@[simp] theorem evalCq_cars (q v : Nat) (s : State) : (evalCq q v s).car.cars = s.car.cars := by
  simp [evalCq]

/-- `evalDoorbell` leaves the carriages. -/
@[simp] theorem evalDoorbell_cars (g v : Nat) (s : State) : (evalDoorbell g v s).car.cars = s.car.cars := by
  unfold evalDoorbell
  repeat' split
  all_goals simp

/-- `useContext` leaves the carriages. -/
@[simp] theorem useContext_cars (g : Nat) (s : State) : (useContext g s).car.cars = s.car.cars := by
  unfold useContext
  repeat' split
  all_goals simp

/-- `evalQueued` leaves the carriages. -/
@[simp] theorem evalQueued_cars (s : State) (x : Nat × Nat) : (evalQueued s x).car.cars = s.car.cars := by
  simp [evalQueued]

/-- `flushDb` leaves the carriages. -/
@[simp] theorem flushDb_cars (g : Nat) (s : State) : (flushDb g s).car.cars = s.car.cars := by
  simp [flushDb]

/-- `queueDoorbell` leaves the carriages. -/
@[simp] theorem queueDoorbell_cars (g v : Nat) (s : State) : (queueDoorbell g v s).car.cars = s.car.cars := by
  simp [queueDoorbell]

/-- `doorbell` leaves the carriages. -/
@[simp] theorem doorbell_cars (g v : Nat) (s : State) : (doorbell g v s).car.cars = s.car.cars := by
  simp [doorbell]

/-- `doorbellAt` leaves the carriages. -/
@[simp] theorem doorbellAt_cars (p : Port) (sl : Option Nat) (ring value : Nat) (s : State) :
    (doorbellAt p sl ring value s).car.cars = s.car.cars := by
  unfold doorbellAt
  repeat' split
  all_goals simp

/-- `place` leaves the carriages. -/
@[simp] theorem place_cars (q : Nat) (imm : Bool) (e : Bytes) (s : State) :
    (place q imm e s).car.cars = s.car.cars := by
  simp [place]

/-- `writeBack` leaves the carriages. -/
@[simp] theorem writeBack_cars (g : Nat) (s : State) : (writeBack g s).car.cars = s.car.cars := by
  simp [writeBack]

/-- `markSiding` leaves the carriages. -/
@[simp] theorem markSiding_cars (s : State) : (markSiding s).car.cars = s.car.cars := by
  simp [markSiding]

/-- `countEnd` leaves the carriages. -/
@[simp] theorem countEnd_cars (c : Carriage) (status : Nat) (s : State) :
    (countEnd c status s).car.cars = s.car.cars := by
  simp [countEnd]

/-- `cmdContext` leaves the carriages. -/
@[simp] theorem cmdContext_cars (g : Nat) (s : State) : (cmdContext g s).car.cars = s.car.cars := by
  simp [cmdContext]

/-- `fetchEntry` leaves the carriages. -/
@[simp] theorem fetchEntry_cars (g p : Nat) (final : Bool) (s : State) :
    (fetchEntry g p final s).car.cars = s.car.cars := by
  simp [fetchEntry]

/-- `tagGiven` leaves the carriages. -/
@[simp] theorem tagGiven_cars (g : Nat) (s : State) : (tagGiven g s).car.cars = s.car.cars := by
  simp [tagGiven]

/-- `dropShadows` leaves the rings. -/
@[simp] theorem dropShadows_rings (f : Shadow → Bool) (s : State) : (dropShadows f s).car.rings = s.car.rings := by
  simp [dropShadows]

/-- `badDoorbell` leaves the rings. -/
@[simp] theorem badDoorbell_rings (s : State) : (badDoorbell s).car.rings = s.car.rings := by
  simp [badDoorbell]

/-- `useContext` leaves the rings. -/
@[simp] theorem useContext_rings (g : Nat) (s : State) : (useContext g s).car.rings = s.car.rings := by
  unfold useContext
  repeat' split
  all_goals simp

/-- `queueDoorbell` leaves the rings. -/
@[simp] theorem queueDoorbell_rings (g v : Nat) (s : State) : (queueDoorbell g v s).car.rings = s.car.rings := by
  simp [queueDoorbell]

/-- `markSiding` leaves the rings. -/
@[simp] theorem markSiding_rings (s : State) : (markSiding s).car.rings = s.car.rings := by
  simp [markSiding]

/-- `countEnd` leaves the rings. -/
@[simp] theorem countEnd_rings (c : Carriage) (status : Nat) (s : State) :
    (countEnd c status s).car.rings = s.car.rings := by
  simp [countEnd]

/-- `cmdContext` leaves the rings. -/
@[simp] theorem cmdContext_rings (g : Nat) (s : State) : (cmdContext g s).car.rings = s.car.rings := by
  simp [cmdContext]

/-- `tagGiven` leaves the rings. -/
@[simp] theorem tagGiven_rings (g : Nat) (s : State) : (tagGiven g s).car.rings = s.car.rings := by
  simp [tagGiven]

/-- `updRing` leaves the doorbell queue. -/
@[simp] theorem updRing_dbq (g : Nat) (f : Ring → Ring) (s : State) : (updRing g f s).car.dbq = s.car.dbq := by
  simp [updRing]

/-- `stampBrake` leaves the doorbell queue. -/
@[simp] theorem stampBrake_dbq (q : Nat) (s : State) : (stampBrake q s).car.dbq = s.car.dbq := by
  simp [stampBrake]

/-- `dropShadows` leaves the doorbell queue. -/
@[simp] theorem dropShadows_dbq (f : Shadow → Bool) (s : State) : (dropShadows f s).car.dbq = s.car.dbq := by
  simp [dropShadows]

/-- `loseCopies` leaves the doorbell queue. -/
@[simp] theorem loseCopies_dbq (g : Nat) (s : State) : (loseCopies g s).car.dbq = s.car.dbq := by
  simp [loseCopies]

/-- `setRing` leaves the doorbell queue. -/
@[simp] theorem setRing_dbq (g : Nat) (st : RingState) (s : State) : (setRing g st s).car.dbq = s.car.dbq := by
  simp [setRing]

/-- `brakeOne` leaves the doorbell queue. -/
@[simp] theorem brakeOne_dbq (blocked : Bool) (s : State) (g : Nat) : (brakeOne blocked s g).car.dbq = s.car.dbq := by
  simp [brakeOne]

/-- `rebrake` leaves the doorbell queue. -/
@[simp] theorem rebrake_dbq (q : Nat) (s : State) : (rebrake q s).car.dbq = s.car.dbq := by
  simp [rebrake]

/-- `updRing` leaves the held doorbells. -/
@[simp] theorem updRing_dbHeld (g : Nat) (f : Ring → Ring) (s : State) :
    (updRing g f s).car.dbHeld = s.car.dbHeld := by
  simp [updRing]

/-- `stampBrake` leaves the held doorbells. -/
@[simp] theorem stampBrake_dbHeld (q : Nat) (s : State) : (stampBrake q s).car.dbHeld = s.car.dbHeld := by
  simp [stampBrake]

/-- `dropShadows` leaves the held doorbells. -/
@[simp] theorem dropShadows_dbHeld (f : Shadow → Bool) (s : State) : (dropShadows f s).car.dbHeld = s.car.dbHeld := by
  simp [dropShadows]

/-- `loseCopies` leaves the held doorbells. -/
@[simp] theorem loseCopies_dbHeld (g : Nat) (s : State) : (loseCopies g s).car.dbHeld = s.car.dbHeld := by
  simp [loseCopies]

/-- `setRing` leaves the held doorbells. -/
@[simp] theorem setRing_dbHeld (g : Nat) (st : RingState) (s : State) :
    (setRing g st s).car.dbHeld = s.car.dbHeld := by
  simp [setRing]

/-- `brakeOne` leaves the held doorbells. -/
@[simp] theorem brakeOne_dbHeld (blocked : Bool) (s : State) (g : Nat) :
    (brakeOne blocked s g).car.dbHeld = s.car.dbHeld := by
  simp [brakeOne]

/-- `rebrake` leaves the held doorbells. -/
@[simp] theorem rebrake_dbHeld (q : Nat) (s : State) : (rebrake q s).car.dbHeld = s.car.dbHeld := by
  simp [rebrake]

/-- `prefetchN` leaves the carriages. -/
@[simp] theorem prefetchN_cars (k g p : Nat) (s : State) : (prefetchN k g p s).car.cars = s.car.cars := by
  induction k generalizing p s with
  | zero => rfl
  | succ k ih => simp [prefetchN, ih]

/-- `releaseDbN` leaves the carriages. -/
@[simp] theorem releaseDbN_cars (k : Nat) (s : State) : (releaseDbN k s).car.cars = s.car.cars := by
  induction k generalizing s with
  | zero => rfl
  | succ k ih =>
    unfold releaseDbN
    split
    · rfl
    · simp [ih]

/-- `releaseDb` leaves the carriages. -/
@[simp] theorem releaseDb_cars (s : State) : (releaseDb s).car.cars = s.car.cars := by
  simp [releaseDb]

/-- Where no doorbell is held none is released. -/
@[simp] theorem releaseDb_none {s : State} (h : s.car.dbHeld = []) : releaseDb s = s := by
  simp [releaseDb, h, releaseDbN]

end Sys2Proof.Laws
end

section
/-! SUPPORT. What braking, draining and doorbells leave of one ring (R80, R81, R91, R93). -/
namespace Sys2Proof.Laws

open Sys2Proof.Machine Sys2Proof.Safety

/-- Equal rings show equal contexts. -/
theorem ringOf_congr {s t : State} (h : t.car.rings = s.car.rings) (g : Nat) : ringOf t g = ringOf s g := by
  rw [ringOf, ringOf, h]

/-- What braking leaves of a ring's context. -/
def brakeView (r : Ring) : Ring := { r with state := .disabled, copies := [], brakeStamp := 0, alerted := false }

/-- What braking and the placing of completion entries leave of a ring's context. -/
def drainView (r : Ring) : Ring := { brakeView r with producer := 0, siding := [], coalCnt := 0, coalAt := 0 }

/-- The table holds ring `g` so that a change of it reads as changed: its rings are in canonical form, or `g` has a type. -/
def Firm (g : Nat) (s : State) : Prop := twf {} s.car.rings = true ∨ (ringOf s g).type ≠ .none

/-- A part of a ring's context that tells the ring's type. -/
def TellsType {β : Type} (φ : Ring → β) : Prop := ∀ r r', φ r = φ r' → r.type = r'.type

theorem brakeView_tellsType : TellsType brakeView := fun r r' h =>
  show (brakeView r).type = (brakeView r').type from congrArg Ring.type h

theorem drainView_tellsType : TellsType drainView := fun r r' h =>
  show (drainView r).type = (drainView r').type from congrArg Ring.type h

/-- The states show the same ring `g`, as `φ` sees it, and firmly. -/
structure SameRing {β : Type} (φ : Ring → β) (g : Nat) (s t : State) : Prop where
  shows : Firm g s → φ (ringOf t g) = φ (ringOf s g) ∧ Firm g t

variable {β : Type} {φ : Ring → β} {g : Nat} {s t u : State}

theorem SameRing.refl (φ : Ring → β) (g : Nat) (s : State) : SameRing φ g s s := ⟨fun h => ⟨rfl, h⟩⟩

theorem SameRing.trans (h : SameRing φ g s t) (k : SameRing φ g t u) : SameRing φ g s u := by
  refine ⟨fun hf => ?_⟩
  obtain ⟨h1, hf1⟩ := h.shows hf
  obtain ⟨k1, hf2⟩ := k.shows hf1
  exact ⟨k1.trans h1, hf2⟩

/-- A state with the same rings shows the same ring. -/
theorem SameRing.of_rings (h : t.car.rings = s.car.rings) : SameRing φ g s t := by
  refine ⟨fun hf => ?_⟩
  have hr : ringOf t g = ringOf s g := by simp only [ringOf, h]
  exact ⟨by rw [hr], by simpa only [Firm, h, hr] using hf⟩

/-- A change of any ring that `φ` does not see shows the same ring. -/
theorem SameRing.upd (hφ : TellsType φ) {f : Ring → Ring} {k : Nat} (hf : φ (f (ringOf s k)) = φ (ringOf s k)) :
    SameRing φ g s (updRing k f s) := by
  refine ⟨fun hfirm => ?_⟩
  by_cases hk : g = k
  · subst hk
    have hty := hφ _ _ hf
    have hr : ringOf (updRing g f s) g = f (ringOf s g) := by
      rcases hfirm with hw | ht
      · exact ringOf_updRing g f s hw
      · refine ringOf_updRing_of g f s fun h0 => ht ?_
        rw [← hty, h0]
    refine ⟨by rw [hr, hf], ?_⟩
    rcases hfirm with hw | ht
    · exact .inl (twf_tupd _ _ _ _ hw)
    · exact .inr (by rw [hr, hty]; exact ht)
  · have hr := ringOf_updRing_ne k g f s hk
    refine ⟨by rw [hr], ?_⟩
    rcases hfirm with hw | ht
    · exact .inl (twf_tupd _ _ _ _ hw)
    · exact .inr (by rw [hr]; exact ht)

theorem SameRing.ite {c : Prop} [Decidable c] (h : SameRing φ g s t) (k : SameRing φ g s u) :
    SameRing φ g s (if c then t else u) := by
  split <;> assumption

theorem SameRing.foldl {α : Type} {f : State → α → State} (hf : ∀ s x, SameRing φ g s (f s x)) (l : List α) (s : State) :
    SameRing φ g s (l.foldl f s) := by
  induction l generalizing s with
  | nil => exact .refl φ g s
  | cons x l ih => exact (hf s x).trans (ih (f s x))

/-- What is seen less of is the same where what is seen more of is. -/
theorem SameRing.mono {γ : Type} {ψ : Ring → γ} (hψ : ∀ r r', φ r = φ r' → ψ r = ψ r') (h : SameRing φ g s t) :
    SameRing ψ g s t :=
  ⟨fun hf => ⟨hψ _ _ (h.shows hf).1, (h.shows hf).2⟩⟩

/-! ### Braking -/

theorem updRing_sameBrake {f : Ring → Ring} {k : Nat} (hf : brakeView (f (ringOf s k)) = brakeView (ringOf s k)) :
    SameRing brakeView g s (updRing k f s) := .upd brakeView_tellsType hf

theorem loseCopies_sameRing (k g : Nat) (s : State) : SameRing brakeView g s (loseCopies k s) :=
  .trans (updRing_sameBrake (k := k) (f := fun r => { r with copies := tmap {} (fun _ c => if c.final then c else {}) r.copies })
    (by rfl)) (.of_rings (by simp [loseCopies]))

theorem setRing_sameRing (k g : Nat) (st : RingState) (s : State) : SameRing brakeView g s (setRing k st s) := by
  have h : SameRing brakeView g s (updRing k (fun r => { r with state := st }) s) := updRing_sameBrake (by rfl)
  exact .ite (h.trans (loseCopies_sameRing k g _)) h

theorem brakeOne_sameRing (b : Bool) (k g : Nat) (s : State) : SameRing brakeView g s (brakeOne b s k) :=
  .ite (setRing_sameRing ..) (.ite (setRing_sameRing ..) (.refl ..))

theorem stampBrake_sameRing (q g : Nat) (s : State) : SameRing brakeView g s (stampBrake q s) := by
  refine .ite (updRing_sameBrake ?_) (updRing_sameBrake (by rfl))
  split <;> rfl

theorem rebrake_sameRing (q g : Nat) (s : State) : SameRing brakeView g s (rebrake q s) :=
  .ite ((SameRing.foldl (fun s k => brakeOne_sameRing _ k g s) _ s).trans (stampBrake_sameRing ..)) (stampBrake_sameRing ..)

theorem relieve_sameRing (g : Nat) (s : State) : SameRing brakeView g s (relieve s) :=
  .foldl (fun s q => rebrake_sameRing q g s) _ s

/-- Rings that braking leaves alike have the same positions. -/
theorem positions_of_brakeView {r r' : Ring} (h : brakeView r = brakeView r') :
    r.producer = r'.producer ∧ r.consumer = r'.consumer :=
  ⟨show (brakeView r).producer = (brakeView r').producer by rw [h], show (brakeView r).consumer = (brakeView r').consumer by rw [h]⟩

/-! ### Completion entries -/

/-- Rings that the placing of entries leaves alike have the same CONSUMER. -/
theorem consumer_of_drainView {r r' : Ring} (h : drainView r = drainView r') : r.consumer = r'.consumer :=
  show (drainView r).consumer = (drainView r').consumer by rw [h]

theorem brakeView_drainView (r r' : Ring) (h : brakeView r = brakeView r') : drainView r = drainView r' := by
  simp only [drainView, h]

theorem updRing_sameDrain {f : Ring → Ring} {k : Nat} (hf : drainView (f (ringOf s k)) = drainView (ringOf s k)) :
    SameRing drainView g s (updRing k f s) := .upd drainView_tellsType hf

theorem cqMessage_sameRing (q g : Nat) (s : State) : SameRing drainView g s (cqMessage q s) :=
  (SameRing.of_rings (by simp)).trans (updRing_sameDrain (by rfl))

theorem coalesce_sameRing (q g : Nat) (s : State) : SameRing drainView g s (coalesce q s) :=
  .ite (.trans (updRing_sameDrain (k := q) (by rfl)) (.ite (cqMessage_sameRing ..) (.refl ..))) (.refl ..)

theorem writeCqe_sameRing (q g : Nat) (sided imm : Bool) (e : Bytes) (s : State) :
    SameRing drainView g s (writeCqe q sided imm e s) := by
  have h : SameRing drainView g s (coalesce q (updRing q (fun r => { r with producer := posNext (ringN r) r.producer })
      (updStats (ringOf s q).home (fun h => { h with cqeTx := satInc 32 h.cqeTx })
        (dmaWrite (ringOf s q).home (ringPasid s (ringOf s q)) false
          ((ringOf s q).base + 16 * ((ringOf s q).producer % ringN (ringOf s q))) (sealEntry (ringOf s q) sided e) s)))) :=
    .trans (.of_rings (by simp)) (.trans (updRing_sameDrain (by rfl)) (coalesce_sameRing ..))
  exact .ite (h.trans (cqMessage_sameRing ..)) h

theorem drainN_sameRing (k q g : Nat) (s : State) : SameRing drainView g s (drainN k q s) := by
  induction k generalizing s with
  | zero => exact .refl ..
  | succ k ih =>
    unfold drainN
    dsimp only
    split
    · exact .refl ..
    · exact .ite (.trans (.trans (updRing_sameDrain (by rfl)) (writeCqe_sameRing ..)) (ih _)) (.refl ..)

theorem drain_sameRing (q g : Nat) (s : State) : SameRing drainView g s (drain q s) := drainN_sameRing ..

/-! ### Doorbells -/

/-- A doorbell that fits advances PRODUCER, and its CQ is looked at again (R80, R93). -/
theorem evalSq_fits {g v : Nat} {s : State} (hd : (ringOf s g).state ≠ .disabled) (he : (ringOf s g).state ≠ .error)
    (hok : dbOk (ringOf s g) v = true)
    (hfit : ringOcc (ringOf s g) + occupancy (ringN (ringOf s g)) (dbPos (ringOf s g) v) (ringOf s g).producer ≤
      ringN (ringOf s g)) :
    evalSq g v s = rebrake (ringOf s g).cq (updRing g (fun r => { r with producer := dbPos (ringOf s g) v }) s) := by
  simp [evalSq, hd, he, hok, Nat.not_lt.mpr hfit]

/-- The position of a doorbell that fits becomes the SQ's PRODUCER; its CONSUMER stays (R80). -/
theorem evalSq_moves {g v : Nat} {s : State} (hty : (ringOf s g).type = .sq) (hd : (ringOf s g).state ≠ .disabled)
    (he : (ringOf s g).state ≠ .error) (hok : dbOk (ringOf s g) v = true)
    (hfit : ringOcc (ringOf s g) + occupancy (ringN (ringOf s g)) (dbPos (ringOf s g) v) (ringOf s g).producer ≤
      ringN (ringOf s g)) :
    (ringOf (evalSq g v s) g).producer = dbPos (ringOf s g) v ∧
      (ringOf (evalSq g v s) g).consumer = (ringOf s g).consumer := by
  have hr := ringOf_updRing_of g (fun r => { r with producer := dbPos (ringOf s g) v }) s
    (fun h0 => by have := congrArg Ring.type h0; simp [hty] at this)
  have hf : Firm g (updRing g (fun r => { r with producer := dbPos (ringOf s g) v }) s) := .inr (by rw [hr]; simp [hty])
  obtain ⟨hb, -⟩ := (rebrake_sameRing (ringOf s g).cq g _).shows hf
  obtain ⟨hp, hc⟩ := positions_of_brakeView hb
  rw [evalSq_fits hd he hok hfit, hp, hc, hr]
  exact ⟨rfl, rfl⟩

/-- The position of a doorbell that passes over pending entries becomes the CQ's consumer (R81). -/
theorem evalCq_moves {g v : Nat} {s : State} (hty : (ringOf s g).type = .cq) (hd : (ringOf s g).state ≠ .disabled)
    (he : (ringOf s g).state ≠ .error) (hok : dbOk (ringOf s g) v = true)
    (hfit : occupancy (ringN (ringOf s g)) (dbPos (ringOf s g) v) (ringOf s g).consumer ≤ ringOcc (ringOf s g)) :
    (ringOf (evalCq g v s) g).consumer = dbPos (ringOf s g) v := by
  have hr := ringOf_updRing_of g (fun r => { r with consumer := dbPos (ringOf s g) v }) s
    (fun h0 => by have := congrArg Ring.type h0; simp [hty] at this)
  have hf : Firm g (updRing g (fun r => { r with consumer := dbPos (ringOf s g) v }) s) := .inr (by rw [hr]; simp [hty])
  obtain ⟨hb, -⟩ := ((drain_sameRing g g _).trans
    ((relieve_sameRing g _).mono brakeView_drainView)).shows hf
  have he : evalCq g v s = relieve (drain g (updRing g (fun r => { r with consumer := dbPos (ringOf s g) v }) s)) := by
    simp [evalCq, hd, he, hok, Nat.not_lt.mpr hfit]
  rw [he]
  rw [consumer_of_drainView hb, hr]

end Sys2Proof.Laws
end

section
/-! PROOFS. Doorbells (04_rings_doorbells_completions.md). -/
namespace Sys2Proof.Proofs

open Sys2Proof.Machine Sys2Proof.Safety Sys2Proof.Laws

/-- A doorbell that reaches the device, names a ring of the row's kind and is not held is evaluated at its CSN. -/
theorem doorbellWrite_reaches {p : Port} {sl : Option Nat} {ring g : Nat} {cq : Bool} (v : Nat) {s : State}
    (hr : rsReach p sl s = true) (hg : dbRing sl ring s = some g) (hty : ((ringOf s g).type == .cq) = cq)
    (hh : dbHolds p sl ring s = false) : doorbellWrite p sl ring v cq s = .next (doorbellAt p sl ring v s) := by
  simp [doorbellWrite, hr, hg, hty, hh]

/-- The state in which a doorbell of a cached ring is evaluated: the access is counted and sequenced, and its context used. -/
def atDoorbell (p : Port) (sl : Option Nat) (g : Nat) (s : State) : State :=
  useContext g (updCar (fun c => { c with ctxHit := satInc 32 c.ctxHit })
    (rsWrote p sl (updStats p (fun h => { h with dbRx := satInc 32 h.dbRx }) s)))

/-- At a doorbell the rings and the carriages are as before. -/
@[simp] theorem atDoorbell_frame (p : Port) (sl : Option Nat) (g : Nat) (s : State) :
    (atDoorbell p sl g s).car.rings = s.car.rings ∧ (atDoorbell p sl g s).car.cars = s.car.cars := by
  simp [atDoorbell]

/-- At a doorbell every ring is as before. -/
@[simp] theorem ringOf_atDoorbell (p : Port) (sl : Option Nat) (g h : Nat) (s : State) :
    ringOf (atDoorbell p sl g s) h = ringOf s h := ringOf_congr (by simp) h

/-- A doorbell of a cached ring with none queued is evaluated at once (R99). -/
theorem doorbellAt_cached {p : Port} {sl : Option Nat} {ring g : Nat} (v : Nat) {s : State} (hg : dbRing sl ring s = some g)
    (hc : isCached s g = true) (hq : isQueued s g = false) :
    doorbellAt p sl ring v s = evalDoorbell g (v % 2 ^ 32) (atDoorbell p sl g s) := by
  have hq' : isQueued (rsWrote p sl (updStats p (fun h => { h with dbRx := satInc 32 h.dbRx }) s)) g = false := by
    simpa [isQueued] using hq
  have hc' : isCached (rsWrote p sl (updStats p (fun h => { h with dbRx := satInc 32 h.dbRx }) s)) g = true := by
    simpa [isCached] using hc
  simp only [doorbellAt, hg, doorbell, hq', hc', Bool.false_eq_true, if_false, if_true, atDoorbell]

/-- A held doorbell waits at the end of its coupling; no CSN, no ring and no queued doorbell changes (R100). -/
theorem doorbellWrite_held {p : Port} {sl : Option Nat} {ring : Nat} {cq : Bool} (v : Nat) {s : State}
    (hr : rsReach p sl s = true) (hcq : ((dbRing sl ring s).map (fun g => (ringOf s g).type == .cq)).getD false = cq)
    (hh : dbHolds p sl ring s = true) : doorbellWrite p sl ring v cq s = .next (holdDoorbell p sl ring v s) := by
  simp [doorbellWrite, hr, hcq, hh]

/-- Settles O14: a doorbell that is evaluated moves its ring's position, and braking and draining leave it there. -/
theorem doorbellsMovePositions : Obligations.DoorbellsMovePositions := by
  unfold Obligations.DoorbellsMovePositions
  refine ⟨fun p sl ring v g s hr hg hty hc hq hh hd he hok hfit => ?_,
    fun p sl ring v g s hr hg hty hc hq hh hd he hok hfit => ?_, fun g v rest s hl hc hq => ?_,
    fun p sl ring v s hr hh => ?_⟩
  · have hm := evalSq_moves (s := atDoorbell p sl g s) (g := g) (v := v % 2 ^ 32) (by simpa) (by simpa) (by simpa)
      (by simpa) (by simpa)
    refine ⟨_, doorbellWrite_reaches v hr hg (by simp [hty]) hh, ?_⟩
    rw [doorbellAt_cached v hg hc hq]
    simpa [evalDoorbell, hty] using hm
  · have hm := evalCq_moves (s := atDoorbell p sl g s) (g := g) (v := v % 2 ^ 32) (by simpa) (by simpa) (by simpa)
      (by simpa) (by simpa)
    refine ⟨_, doorbellWrite_reaches v hr hg (by simp [hty]) hh, ?_⟩
    rw [doorbellAt_cached v hg hc hq]
    simpa [evalDoorbell, hty] using hm
  · have he : exec (.doorbellQueueEval g) s =
        .next (releaseDb (evalDoorbell g v { s with car := { s.car with dbq := rest } })) := by
      have hc' : g ∈ s.car.cached := by simpa [isCached] using hc
      simp [exec, execDoorbellQueueEval, onlyIf, hl, hq, hc, evalQueued, updCar]
    refine ⟨_, he, rfl, fun hnone hty hd hbad hok hfit => ?_⟩
    have hm := evalSq_moves (s := { s with car := { s.car with dbq := rest } }) (v := v) hty hd hbad hok hfit
    have hs := evalSq_fits (s := { s with car := { s.car with dbq := rest } }) (v := v) hd hbad hok hfit
    have hev : evalDoorbell g v { s with car := { s.car with dbq := rest } } =
        evalSq g v { s with car := { s.car with dbq := rest } } := by
      have hty' : (ringOf { s with car := { s.car with dbq := rest } } g).type = .sq := hty
      simp only [evalDoorbell, hty']
    rw [hev, releaseDb_none (by rw [hs]; simpa using hnone)]
    exact ⟨by rw [hs]; simp [updRing], hm.1, by rw [hs]; simp [updRing]⟩
  · cases hcq : ((dbRing sl ring s).map (fun g => (ringOf s g).type == .cq)).getD false
    · exact ⟨_, doorbellWrite_held v hr hcq hh, by simp [holdDoorbell]⟩
    · exact ⟨_, doorbellWrite_held v hr hcq hh, by simp [holdDoorbell]⟩

end Sys2Proof.Proofs
end

section
/-! SUPPORT. What the ends of a carriage do to it and to the others (R97, R114, R120, R155, R206). -/
namespace Sys2Proof.Laws

open Sys2Proof.Machine Sys2Proof.Safety

variable {t u : Nat} {s : State}

/-! ### Tables in canonical form -/

/-- An entry listed in a canonical table is what its key reads. -/
theorem tget_of_mem {α : Type} [DecidableEq α] {d : α} {T : Tbl α} {k : Nat} {v : α} (hw : twf d T = true)
    (h : (k, v) ∈ T) : tget d T k = v := by
  induction T with
  | nil => simp at h
  | cons e T ih =>
    obtain ⟨j, w⟩ := e
    obtain ⟨ha, -, hT⟩ := (twf_cons d j w T).mp hw
    rcases List.mem_cons.mp h with he | hm
    · cases he
      simp [tget]
    · have hj : j < k := by simpa using List.all_eq_true.mp ha _ hm
      rw [tget, if_neg (by omega)]
      exact ih hT hm

/-- A key that a canonical table lists under a test passes the test. -/
theorem tkeys_spec {α : Type} [DecidableEq α] {d : α} {T : Tbl α} {f : Nat → α → Bool} {k : Nat} (hw : twf d T = true)
    (h : k ∈ tkeys T f) : f k (tget d T k) = true := by
  obtain ⟨⟨j, v⟩, he, rfl⟩ := List.mem_map.mp h
  obtain ⟨hm, hf⟩ := List.mem_filter.mp he
  rwa [tget_of_mem hw hm]

/-- A key whose value is not the default and passes a test is listed under it. -/
theorem mem_tkeys {α : Type} {d : α} {T : Tbl α} {f : Nat → α → Bool} {k : Nat} (hd : tget d T k ≠ d)
    (hf : f k (tget d T k) = true) : k ∈ tkeys T f := by
  induction T with
  | nil => exact absurd rfl hd
  | cons e T ih =>
    obtain ⟨j, w⟩ := e
    by_cases hj : j = k
    · subst hj
      have hw : f j w = true := by simpa [tget] using hf
      simp [tkeys, hw]
    · rw [tget, if_neg hj] at hd hf
      have := ih hd hf
      simp only [tkeys, List.filter_cons] at this ⊢
      split
      · exact List.mem_cons_of_mem _ this
      · exact this

/-! ### One carriage after an operation -/

/-- Equal carriage tables show equal carriages. -/
theorem carrOf_congr {s t : State} (h : t.car.cars = s.car.cars) (u : Nat) : carrOf t u = carrOf s u := by
  rw [carrOf, carrOf, h]

/-- Returning a reservation leaves the other carriages. -/
theorem unreserve_carrOf_ne (h : u ≠ t) : carrOf (unreserve t s) u = carrOf s u := by
  unfold unreserve
  split
  · exact carrOf_updCarr_ne _ _ _ _ h
  · rfl

theorem unreserve_twf (hw : twf {} s.car.cars = true) : twf {} (unreserve t s).car.cars = true := by
  unfold unreserve
  split
  · simpa [updCarr] using twf_tupd {} s.car.cars t (fun c => { c with reserved := none }) hw
  · exact hw

/-- What a carriage held is returned with its entry: its tag is free. -/
theorem release_cars (t : Nat) (s : State) : (release t s).car.cars = tdel (unreserve t s).car.cars t := by
  simp [release, updCar, updRing]

theorem finishAt_cars (t st r : Nat) (s : State) :
    (finishAt t st r s).car.cars = tdel (unreserve t (countEnd (carrOf s t) st
      (place (ringOf s (carrOf s t).sq).cq (eImmediate (carrOf s t).entry)
        (cqeBytes (carrOf s t) st r s.csn) (writeBack (carrOf s t).sq s)))).car.cars t := by
  simp [finishAt, release_cars]

/-- A completion leaves the other carriages. -/
theorem finishAt_carrOf_ne (st r : Nat) (h : u ≠ t) : carrOf (finishAt t st r s) u = carrOf s u := by
  rw [carrOf, finishAt_cars, tget_tdel_ne _ _ _ _ h]
  exact (unreserve_carrOf_ne h).trans (carrOf_congr (by simp) u)

/-- A completion frees its tag. -/
theorem finishAt_carrOf (st r : Nat) (hw : twf {} s.car.cars = true) : carrOf (finishAt t st r s) t = {} := by
  rw [carrOf, finishAt_cars]
  exact tget_tdel_same _ _ _ (unreserve_twf (by simpa using hw))

theorem finish_carrOf_ne (st r : Nat) (h : u ≠ t) : carrOf (finish t st r s) u = carrOf s u := by
  rw [finish, finishAt_carrOf_ne st r h]
  exact carrOf_congr (by split <;> simp) u

theorem finish_carrOf (st r : Nat) (hw : twf {} s.car.cars = true) : carrOf (finish t st r s) t = {} :=
  finishAt_carrOf st r (by split <;> simpa using hw)

theorem park_carrOf_ne (st r : Nat) (h : u ≠ t) : carrOf (park t st r s) u = carrOf s u := carrOf_updCarr_ne _ _ _ _ h

theorem park_carrOf (st r : Nat) :
    carrOf (park t st r s) t = { carrOf s t with stage := .finished, fin := some (st, r) } :=
  carrOf_updCarr_of _ _ _ (fun h => by have := congrArg Carriage.stage h; simp at this)

theorem complete_carrOf_ne (st r : Nat) (h : u ≠ t) : carrOf (complete t st r s) u = carrOf s u := by
  unfold complete
  split
  · rfl
  · split
    · exact park_carrOf_ne st r h
    · exact finish_carrOf_ne st r h

/-- A carriage that completes frees its tag, or waits under R97 with its status. -/
theorem complete_carrOf (st r : Nat) (hw : twf {} s.car.cars = true) (hs : (carrOf s t).stage ≠ .free) :
    carrOf (complete t st r s) t =
      if waitsTurn s t then { carrOf s t with stage := .finished, fin := some (st, r) } else {} := by
  rw [complete, if_neg (by simpa using hs)]
  split
  · exact park_carrOf st r
  · exact finish_carrOf st r hw

theorem completeAt_carrOf_ne (st r : Nat) (h : u ≠ t) : carrOf (completeAt t st r s) u = carrOf s u := by
  unfold completeAt
  split
  · rfl
  · split
    · exact park_carrOf_ne st r h
    · exact finishAt_carrOf_ne st r h

theorem completeAt_carrOf (st r : Nat) (hw : twf {} s.car.cars = true) (hs : (carrOf s t).stage ≠ .free) :
    carrOf (completeAt t st r s) t =
      if waitsTurn s t then { carrOf s t with stage := .finished, fin := some (st, r) } else {} := by
  rw [completeAt, if_neg (by simpa using hs)]
  split
  · exact park_carrOf st r
  · exact finishAt_carrOf st r hw

/-- Letting go leaves the other carriages. -/
theorem letGo_carrOf_ne (h : u ≠ t) : carrOf (letGo t s) u = carrOf s u := by
  rw [letGo, carrOf_updCarr_ne _ _ _ _ h]
  exact carrOf_congr (by simp) u

/-- A carriage let go keeps its stage, its SQ, its entry and its place in it, and is stopped. -/
theorem letGo_carrOf (hs : (carrOf s t).stage ≠ .free) :
    (carrOf (letGo t s) t).stage = (carrOf s t).stage ∧ (carrOf (letGo t s) t).sq = (carrOf s t).sq ∧
    (carrOf (letGo t s) t).order = (carrOf s t).order ∧ (carrOf (letGo t s) t).refused = (carrOf s t).refused ∧
    (carrOf (letGo t s) t).entry = (carrOf s t).entry ∧ (carrOf (letGo t s) t).stopped = true := by
  have hc : carrOf (purgeStaging (· == .carriage t) (forget t s)) t = carrOf s t := carrOf_congr (by simp) t
  rw [letGo, carrOf_updCarr_of _ _ _ (fun h => hs (by rw [← hc]; exact congrArg Carriage.stage h)), hc]
  exact ⟨rfl, rfl, rfl, rfl, rfl, rfl⟩

/-- Scrubbing leaves the other carriages. -/
theorem scrub_carrOf_ne (h : u ≠ t) : carrOf (scrub t s) u = carrOf s u := by
  unfold scrub
  dsimp only
  split
  · rfl
  · split
    · rw [carrOf_updCarr_ne _ _ _ _ h]
      exact carrOf_congr (by simp [updCar]) u
    · rfl

/-- Scrubbing marks its carriage as scrubbed, and changes nothing else of it. -/
theorem scrub_carrOf (hs : (carrOf s t).stage ≠ .free) :
    ∃ b, carrOf (scrub t s) t = { carrOf s t with scrubbed := b } := by
  unfold scrub
  dsimp only
  split
  · exact ⟨_, rfl⟩
  · split
    · refine ⟨true, ?_⟩
      have hc := fun s' (h : s'.car.cars = s.car.cars) => carrOf_updCarr_of t (fun c => { c with scrubbed := true }) s'
        (fun h0 => hs (by rw [← carrOf_congr h t]; exact congrArg Carriage.stage h0))
      refine (hc _ ?_).trans (congrArg (fun c : Carriage => { c with scrubbed := true }) (carrOf_congr ?_ t))
      · simp [updCar]
      · simp [updCar]
    · exact ⟨_, rfl⟩

/-! ### Earlier carriages of an SQ -/

/-- Some listed value of a canonical table passes a test that the default fails where some key's value does. -/
theorem tany_iff {α : Type} [DecidableEq α] {d : α} {T : Tbl α} {f : Nat → α → Bool} (hw : twf d T = true)
    (hd : ∀ k, f k d = false) : tany T f = true ↔ ∃ k, f k (tget d T k) = true := by
  constructor
  · intro h
    obtain ⟨⟨k, v⟩, hm, hf⟩ := List.any_eq_true.mp h
    exact ⟨k, by rwa [tget_of_mem hw hm]⟩
  · rintro ⟨k, hf⟩
    have hne : tget d T k ≠ d := fun h0 => by simp [h0, hd] at hf
    have hk := mem_tkeys hne hf
    obtain ⟨⟨j, v⟩, he, rfl⟩ := List.mem_map.mp hk
    obtain ⟨hm, hv⟩ := List.mem_filter.mp he
    exact List.any_eq_true.mpr ⟨_, hm, hv⟩

/-- An earlier carriage of the SQ is open where some carriage that holds a tag of it was taken before. -/
theorem earlierOpen_iff (hw : twf {} s.car.cars = true) :
    earlierOpen s t = true ↔
      ∃ u, (carrOf s u).stage ≠ .free ∧ (carrOf s u).sq = (carrOf s t).sq ∧ (carrOf s u).order < (carrOf s t).order := by
  rw [earlierOpen, tany_iff hw (by simp)]
  simp only [Bool.and_eq_true, bne_iff_ne, beq_iff_eq, and_assoc]
  exact exists_congr fun u => and_congr_right fun _ => and_congr_right fun _ => decide_eq_true_iff

/-- The turn of a carriage depends on the rings, and on the stage, the SQ and the order of the carriages. -/
theorem waitsTurn_congr {s' : State} (hw : twf {} s.car.cars = true) (hw' : twf {} s'.car.cars = true)
    (hr : s'.car.rings = s.car.rings)
    (hc : ∀ u, (carrOf s' u).stage = (carrOf s u).stage ∧ (carrOf s' u).sq = (carrOf s u).sq ∧
      (carrOf s' u).order = (carrOf s u).order) : waitsTurn s' t = waitsTurn s t := by
  have he : earlierOpen s' t = earlierOpen s t := by
    rw [Bool.eq_iff_iff, earlierOpen_iff hw', earlierOpen_iff hw]
    simp only [hc]
  simp only [waitsTurn, he, (hc t).2.1, ringOf, hr]

/-! ### Stops -/

/-- A stop leaves the other carriages. -/
theorem stopOne_carrOf_ne (st r : Nat) (h : u ≠ t) : carrOf (stopOne t st r s) u = carrOf s u := by
  unfold stopOne
  split
  · rw [complete_carrOf_ne st r h, letGo_carrOf_ne h, scrub_carrOf_ne h]
  · rfl

/-- A stop leaves a carriage that no stop cause can reach. -/
theorem stopOne_carrOf_of_not_inFlight (st r v : Nat) (h : inFlight (carrOf s t) = false) :
    carrOf (stopOne v st r s) t = carrOf s t := by
  by_cases hv : t = v
  · subst hv
    simp [stopOne, h]
  · exact stopOne_carrOf_ne st r hv

theorem inFlight_iff {c : Carriage} : inFlight c = true ↔ c.stage ≠ .free ∧ c.refused = false ∧ c.stopped = false := by
  simp [inFlight, and_assoc]

/-- A carriage that is scrubbed and let go keeps its stage, its SQ, its order and its entry, and is stopped. -/
theorem letGo_scrub_carrOf (hs : (carrOf s t).stage ≠ .free) :
    (carrOf (letGo t (scrub t s)) t).stage = (carrOf s t).stage ∧
    (carrOf (letGo t (scrub t s)) t).sq = (carrOf s t).sq ∧
    (carrOf (letGo t (scrub t s)) t).order = (carrOf s t).order ∧
    (carrOf (letGo t (scrub t s)) t).entry = (carrOf s t).entry ∧
    (carrOf (letGo t (scrub t s)) t).stopped = true := by
  obtain ⟨b, hb⟩ := scrub_carrOf hs
  obtain ⟨h1, h2, h3, -, h5, h6⟩ := letGo_carrOf (s := scrub t s) (by rw [hb]; exact hs)
  rw [hb] at h1 h2 h3 h5
  exact ⟨h1, h2, h3, h5, h6⟩

/-- The other carriages and the turn of a carriage are as before once it is scrubbed and let go. -/
theorem waitsTurn_letGo_scrub (hw : twf {} s.car.cars = true) (hs : (carrOf s t).stage ≠ .free)
    (hw' : twf {} (letGo t (scrub t s)).car.cars = true) (hr : (letGo t (scrub t s)).car.rings = s.car.rings) :
    waitsTurn (letGo t (scrub t s)) t = waitsTurn s t := by
  refine waitsTurn_congr hw hw' hr fun u => ?_
  by_cases h : u = t
  · subst h
    obtain ⟨h1, h2, h3, -⟩ := letGo_scrub_carrOf hs
    exact ⟨h1, h2, h3⟩
  · rw [letGo_carrOf_ne h, scrub_carrOf_ne h]
    exact ⟨rfl, rfl, rfl⟩

theorem scrub_letGo_rings (t : Nat) (s : State) : (letGo t (scrub t s)).car.rings = s.car.rings := by
  unfold letGo scrub
  dsimp only
  split
  · simp [updCarr]
  · split <;> simp [updCarr]

theorem twf_letGo_scrub (hok : tablesOk s = true) : twf {} (letGo t (scrub t s)).car.cars = true := by
  obtain ⟨-, ht, -⟩ := letGo_keeps t (scrub_keeps t (Keeps.refl {} s))
  exact (tablesOk_parts _ (ht hok)).2.2.1

/-- A carriage that stops frees its tag, or waits under R97 with the stop's status. -/
theorem stopOne_carrOf (st r : Nat) (hok : tablesOk s = true) (h : inFlight (carrOf s t) = true) :
    if waitsTurn s t then
      (carrOf (stopOne t st r s) t).stage = .finished ∧ (carrOf (stopOne t st r s) t).fin = some (st, r) ∧
      (carrOf (stopOne t st r s) t).stopped = true
    else carrOf (stopOne t st r s) t = {} := by
  obtain ⟨hs, -, -⟩ := inFlight_iff.mp h
  obtain ⟨h1, -, -, -, h5⟩ := letGo_scrub_carrOf hs
  have hw := twf_letGo_scrub (t := t) hok
  have hwt := waitsTurn_letGo_scrub (tablesOk_parts s hok).2.2.1 hs hw (scrub_letGo_rings t s)
  rw [stopOne, if_pos h, complete_carrOf st r hw (by rw [h1]; exact hs), hwt]
  split
  · exact ⟨rfl, rfl, h5⟩
  · rfl

/-- A stop is done with, or waits under R97. -/
theorem stopOne_ends (st r : Nat) (hok : tablesOk s = true) (h : inFlight (carrOf s t) = true) :
    (carrOf (stopOne t st r s) t).stage = .free ∨
      (carrOf (stopOne t st r s) t).stage = .finished ∧ (carrOf (stopOne t st r s) t).fin = some (st, r) ∧
      (carrOf (stopOne t st r s) t).stopped = true := by
  have hc := stopOne_carrOf st r hok h
  split at hc
  · exact .inr hc
  · exact .inl (by rw [hc])

/-! ### Keys that are gone -/

/-- The ends of engine commands leave the carriages. -/
@[simp] theorem reapEngines_cars (st : Nat) (s : State) : (reapEngines st s).car.cars = s.car.cars := by
  simp [reapEngines]

/-- What a fold's turns keep of a state, with the canonical tables, the fold keeps. -/
theorem foldl_keeps_of_tablesOk {α : Type} {P : State → Prop} {f : State → α → State}
    (hf : ∀ s x, tablesOk s = true → P s → tablesOk (f s x) = true ∧ P (f s x)) (l : List α) (hok : tablesOk s = true)
    (h : P s) : P (l.foldl f s) := by
  induction l generalizing s with
  | nil => exact h
  | cons x l ih =>
    obtain ⟨h1, h2⟩ := hf s x hok h
    exact ih h1 h2

theorem finish_tablesOk (t st r : Nat) (hok : tablesOk s = true) : tablesOk (finish t st r s) = true := by
  obtain ⟨-, ht, -⟩ := finish_keeps t st r (Keeps.refl {} s)
  exact ht hok

theorem scrub_tablesOk (t : Nat) (hok : tablesOk s = true) : tablesOk (scrub t s) = true := by
  obtain ⟨-, ht, -⟩ := scrub_keeps t (Keeps.refl {} s)
  exact ht hok

theorem stopOne_tablesOk (u st r : Nat) (hok : tablesOk s = true) : tablesOk (stopOne u st r s) = true := by
  obtain ⟨-, ht, -⟩ := stopOne_keeps u st r (Keeps.refl {} s)
  exact ht hok

/-- A carriage that no stop cause can reach is left where keys are gone. -/
theorem reap_carrOf_of_not_inFlight (st : Nat) (h : inFlight (carrOf s t) = false) :
    carrOf (reap st s) t = carrOf s t := by
  rw [reap, carrOf_congr (reapEngines_cars st _)]
  have hl : ∀ (l : List Nat) (s : State), inFlight (carrOf s t) = false →
      carrOf (l.foldl (fun s v => stopOne v st 0 s) s) t = carrOf s t := by
    intro l
    induction l with
    | nil => exact fun _ _ => rfl
    | cons v l ih =>
      intro s h
      have hv := stopOne_carrOf_of_not_inFlight st 0 v h
      exact (ih _ (by rw [hv]; exact h)).trans hv
  exact hl _ s h

/-- A free tag stays free where keys are gone. -/
theorem reap_free (st : Nat) (h : (carrOf s t).stage = .free) : (carrOf (reap st s) t).stage = .free := by
  rw [reap_carrOf_of_not_inFlight st (by simp [inFlight, h]), h]

/-- A finished carriage stays finished, or frees its tag, where keys are gone. -/
theorem reap_finished (st : Nat) (hok : tablesOk s = true)
    (h : (carrOf s t).stage = .finished ∨ (carrOf s t).stage = .free) :
    (carrOf (reap st s) t).stage = .finished ∨ (carrOf (reap st s) t).stage = .free := by
  rw [reap, carrOf_congr (reapEngines_cars st _)]
  refine foldl_keeps_of_tablesOk (P := fun s => (carrOf s t).stage = .finished ∨ (carrOf s t).stage = .free)
    (fun s v hok h => ⟨stopOne_tablesOk v st 0 hok, ?_⟩) _ hok h
  by_cases hv : inFlight (carrOf s t) = true
  · by_cases ht : t = v
    · subst ht
      rcases stopOne_ends st 0 hok hv with h | ⟨h, -⟩
      · exact .inr h
      · exact .inl h
    · rw [stopOne_carrOf_ne st 0 ht]
      exact h
  · rw [stopOne_carrOf_of_not_inFlight st 0 v (by simpa using hv)]
    exact h

/-! ### Completions and stops with what follows -/

/-- A carriage that is done frees its tag where it need not wait (R97). -/
theorem done_free (st r : Nat) (hw : twf {} s.car.cars = true) (ht : waitsTurn s t = false) :
    (carrOf (done t st r s) t).stage = .free := by
  refine reap_free _ ?_
  by_cases hs : (carrOf s t).stage = .free
  · simp [complete, hs]
  · rw [complete_carrOf st r hw hs, ht]
    rfl

/-- A carriage that is done waits under R97, or frees its tag. -/
theorem done_ends (st r : Nat) (hok : tablesOk s = true) :
    (carrOf (done t st r s) t).stage = .finished ∨ (carrOf (done t st r s) t).stage = .free := by
  obtain ⟨-, ht, -⟩ := complete_keeps t st r (Keeps.refl {} s)
  refine reap_finished _ (ht hok) ?_
  by_cases hs : (carrOf s t).stage = .free
  · simp [complete, hs]
  · rw [complete_carrOf st r (tablesOk_parts s hok).2.2.1 hs]
    split
    · exact .inl rfl
    · exact .inr rfl

/-- A carriage that stops frees its tag where it need not wait (R97). -/
theorem stop_free (st r : Nat) (hok : tablesOk s = true) (h : inFlight (carrOf s t) = true) (ht : waitsTurn s t = false) :
    (carrOf (stop t st r s) t).stage = .free := by
  have hc := stopOne_carrOf st r hok h
  rw [if_neg (by simp [ht])] at hc
  exact reap_free _ (by rw [hc])

/-- A stopped carriage ends with the stop's status, or waits under R97 with it. -/
theorem stop_ends (st r : Nat) (hok : tablesOk s = true) (h : inFlight (carrOf s t) = true) :
    (carrOf (stop t st r s) t).stage = .free ∨ (carrOf (stop t st r s) t).fin = some (st, r) := by
  rcases stopOne_ends st r hok h with h | ⟨-, hf, hst⟩
  · exact .inl (reap_free _ h)
  · refine .inr ?_
    rw [stop, reap_carrOf_of_not_inFlight _ (by simp [inFlight, hst]), hf]

/-! ### The CSN of an end -/

theorem reap_csn_le (st : Nat) (s : State) : s.csn ≤ (reap st s).csn := by
  obtain ⟨-, -, -, h, -⟩ := reap_keeps st (Keeps.refl {} s)
  exact h rfl

theorem finishAt_csn_le (t st r : Nat) (s : State) : s.csn ≤ (finishAt t st r s).csn := by
  obtain ⟨-, -, -, h, -⟩ := finishAt_keeps t st r (Keeps.refl {} s)
  exact h rfl

/-- A completion takes a CSN outside FAULT. -/
theorem finish_csn_lt (t st r : Nat) (h : inFault s = false) : s.csn < (finish t st r s).csn := by
  refine Nat.lt_of_lt_of_le ?_ (finishAt_csn_le t st r _)
  split
  · simp
  · rw [seqd_csn s h]
    omega

/-- A carriage that is done takes a CSN outside FAULT where it need not wait. -/
theorem done_csn_lt (st r : Nat) (h : inFault s = false) (hs : (carrOf s t).stage ≠ .free) (ht : waitsTurn s t = false) :
    s.csn < (done t st r s).csn := by
  refine Nat.lt_of_lt_of_le ?_ (reap_csn_le _ _)
  simpa [complete, hs, ht] using finish_csn_lt t st r h

/-- A carriage that stops takes a CSN outside FAULT where it need not wait. -/
theorem stop_csn_lt (st r : Nat) (hok : tablesOk s = true) (hF : inFault s = false) (h : inFlight (carrOf s t) = true)
    (ht : waitsTurn s t = false) : s.csn < (stop t st r s).csn := by
  obtain ⟨hs, -, -⟩ := inFlight_iff.mp h
  obtain ⟨h1, -⟩ := letGo_scrub_carrOf hs
  have hwt := waitsTurn_letGo_scrub (tablesOk_parts s hok).2.2.1 hs (twf_letGo_scrub (t := t) hok) (scrub_letGo_rings t s)
  refine Nat.lt_of_lt_of_le ?_ (reap_csn_le _ _)
  rw [stopOne, if_pos h, complete, if_neg (by simpa [h1] using hs), if_neg (by simp [hwt, ht])]
  have hcsn : (letGo t (scrub t s)).csn = s.csn := by simp
  have hlt := finish_csn_lt t st r (s := letGo t (scrub t s)) (by simpa [inFault] using hF)
  rwa [hcsn] at hlt

end Sys2Proof.Laws
end

section
/-! SUPPORT. What braking does to every ring of a table in canonical form, and what a ring setup command does (R74, R93). -/
namespace Sys2Proof.Laws

open Sys2Proof.Machine Sys2Proof.Safety

/-- The second context is the first but for its copies and its braking; only an SQ changes state, between ACTIVE and
BRAKED (R93). -/
def Rebraked (r r' : Ring) : Prop :=
  ∃ st bs al cp, r' = { r with state := st, brakeStamp := bs, alerted := al, copies := cp } ∧
    (st = r.state ∨ r.type = .sq ∧ (r.state = .active ∧ st = .braked ∨ r.state = .braked ∧ st = .active))

theorem Rebraked.refl (r : Ring) : Rebraked r r := ⟨_, _, _, _, rfl, .inl rfl⟩

theorem Rebraked.trans {r r' r'' : Ring} (h : Rebraked r r') (k : Rebraked r' r'') : Rebraked r r'' := by
  obtain ⟨st, bs, al, cp, rfl, h⟩ := h
  obtain ⟨st', bs', al', cp', rfl, k⟩ := k
  refine ⟨st', bs', al', cp', rfl, ?_⟩
  rcases h with rfl | ⟨ht, ⟨ha, rfl⟩ | ⟨ha, rfl⟩⟩
  · exact k
  · rcases k with rfl | ⟨-, ⟨hb, -⟩ | ⟨-, rfl⟩⟩
    · exact .inr ⟨ht, .inl ⟨ha, rfl⟩⟩
    · exact RingState.noConfusion hb
    · exact .inl ha.symm
  · rcases k with rfl | ⟨-, ⟨-, rfl⟩ | ⟨hb, -⟩⟩
    · exact .inr ⟨ht, .inr ⟨ha, rfl⟩⟩
    · exact .inl ha.symm
    · exact RingState.noConfusion hb

/-- Rebraking leaves the type. -/
theorem Rebraked.type_eq {r r' : Ring} (h : Rebraked r r') : r'.type = r.type := by
  obtain ⟨_, _, _, _, rfl, -⟩ := h
  rfl

/-- Every ring of the second state is that of the first but for copies and braking, and the rings are in canonical form. -/
structure RebrakedAll (s t : State) : Prop where
  wf : twf {} t.car.rings = true
  rings : ∀ h, Rebraked (ringOf s h) (ringOf t h)

variable {s t u : State}

theorem RebrakedAll.refl (hw : twf {} s.car.rings = true) : RebrakedAll s s := ⟨hw, fun _ => .refl _⟩

theorem RebrakedAll.trans (h : RebrakedAll s t) (k : RebrakedAll t u) : RebrakedAll s u :=
  ⟨k.wf, fun g => (h.rings g).trans (k.rings g)⟩

theorem RebrakedAll.of_rings (hw : twf {} s.car.rings = true) (h : t.car.rings = s.car.rings) : RebrakedAll s t :=
  ⟨by rw [h]; exact hw, fun g => by rw [ringOf_congr h]; exact .refl _⟩

/-- A change of a ring keeps the canonical form. -/
theorem twf_updRing (k : Nat) (f : Ring → Ring) (hw : twf {} s.car.rings = true) :
    twf {} (updRing k f s).car.rings = true := twf_tupd {} s.car.rings k f hw

theorem RebrakedAll.upd (hw : twf {} s.car.rings = true) {k : Nat} {f : Ring → Ring}
    (hf : Rebraked (ringOf s k) (f (ringOf s k))) : RebrakedAll s (updRing k f s) := by
  refine ⟨twf_updRing k f hw, fun g => ?_⟩
  by_cases h : g = k
  · subst h
    rw [ringOf_updRing _ _ _ hw]
    exact hf
  · rw [ringOf_updRing_ne _ _ _ _ h]
    exact .refl _

theorem loseCopies_rebrakedAll (k : Nat) (hw : twf {} s.car.rings = true) : RebrakedAll s (loseCopies k s) := by
  have h : RebrakedAll s (updRing k (fun r => { r with copies := tmap {} (fun _ c => if c.final then c else {}) r.copies }) s) :=
    .upd hw ⟨_, _, _, _, rfl, .inl rfl⟩
  exact h.trans (.of_rings h.wf (by simp [loseCopies]))

/-- A ring that takes a state it may brake or resume to is rebraked. -/
theorem setRing_rebrakedAll (k : Nat) (st : RingState) (hw : twf {} s.car.rings = true) (ht : (ringOf s k).type = .sq)
    (hst : (ringOf s k).state = .active ∧ st = .braked ∨ (ringOf s k).state = .braked ∧ st = .active) :
    RebrakedAll s (setRing k st s) := by
  have h : RebrakedAll s (updRing k (fun r => { r with state := st }) s) := .upd hw ⟨_, _, _, _, rfl, .inr ⟨ht, hst⟩⟩
  unfold setRing
  split
  · exact h.trans (loseCopies_rebrakedAll k h.wf)
  · exact h

theorem brakeOne_rebrakedAll (b : Bool) (k : Nat) (hw : twf {} s.car.rings = true) (ht : (ringOf s k).type = .sq) :
    RebrakedAll s (brakeOne b s k) := by
  unfold brakeOne
  dsimp only
  split
  · next h => exact setRing_rebrakedAll k _ hw ht (.inl ⟨by simp_all, rfl⟩)
  · split
    · next h => exact setRing_rebrakedAll k _ hw ht (.inr ⟨by simp_all, rfl⟩)
    · exact .refl hw

theorem stampBrake_rebrakedAll (q : Nat) (hw : twf {} s.car.rings = true) : RebrakedAll s (stampBrake q s) := by
  unfold stampBrake
  split
  · refine .upd hw ?_
    split
    · exact ⟨_, _, _, _, rfl, .inl rfl⟩
    · exact .refl _
  · exact .upd hw ⟨_, _, _, _, rfl, .inl rfl⟩

/-- The SQs that a CQ looks at are SQs. -/
theorem boundSqs_type {q k : Nat} (hw : twf {} s.car.rings = true) (h : k ∈ boundSqs s q) : (ringOf s k).type = .sq := by
  have := tkeys_spec hw h
  simp only [Bool.and_eq_true, beq_iff_eq] at this
  exact this.1

theorem brakeFold_rebrakedAll (b : Bool) (l : List Nat) (hw : twf {} s.car.rings = true)
    (hl : ∀ k ∈ l, (ringOf s k).type = .sq) : RebrakedAll s (l.foldl (brakeOne b) s) := by
  induction l generalizing s with
  | nil => exact .refl hw
  | cons k l ih =>
    have h := brakeOne_rebrakedAll b k hw (hl k (List.mem_cons_self ..))
    exact h.trans (ih h.wf fun j hj => ((h.rings j).type_eq).trans (hl j (List.mem_cons_of_mem _ hj)))

theorem rebrake_rebrakedAll (q : Nat) (hw : twf {} s.car.rings = true) : RebrakedAll s (rebrake q s) := by
  unfold rebrake
  split
  · have h := brakeFold_rebrakedAll (credit s q).isNone (boundSqs s q) hw fun k hk => boundSqs_type hw hk
    exact h.trans (stampBrake_rebrakedAll q h.wf)
  · exact stampBrake_rebrakedAll q hw

theorem relieve_rebrakedAll (hw : twf {} s.car.rings = true) : RebrakedAll s (relieve s) := by
  unfold relieve
  generalize tkeys s.car.rings _ = l
  induction l generalizing s with
  | nil => exact .refl hw
  | cons q l ih =>
    have h := rebrake_rebrakedAll q hw
    exact h.trans (ih h.wf)

/-! ### The state of one ring -/

/-- A brake stamp leaves the state of every ring. -/
theorem stampBrake_state (q g : Nat) (hw : twf {} s.car.rings = true) :
    (ringOf (stampBrake q s) g).state = (ringOf s g).state := by
  unfold stampBrake
  split
  · by_cases h : g = q
    · subst h
      rw [ringOf_updRing _ _ _ hw]
      split <;> rfl
    · rw [ringOf_updRing_ne _ _ _ _ h]
  · by_cases h : g = q
    · subst h
      rw [ringOf_updRing _ _ _ hw]
    · rw [ringOf_updRing_ne _ _ _ _ h]

/-- A ring takes the state it is given. -/
theorem setRing_state (g : Nat) (st : RingState) (hw : twf {} s.car.rings = true) :
    (ringOf (setRing g st s) g).state = st ∧ twf {} (setRing g st s).car.rings = true := by
  have h : (ringOf (updRing g (fun r => { r with state := st }) s) g).state = st := by rw [ringOf_updRing _ _ _ hw]
  have hw' : twf {} (updRing g (fun r => { r with state := st }) s).car.rings = true := twf_updRing _ _ hw
  unfold setRing
  split
  · have hl := loseCopies_rebrakedAll g hw'
    refine ⟨?_, hl.wf⟩
    have hr : ringOf (loseCopies g (updRing g (fun r => { r with state := st }) s)) g =
        ringOf (updRing g (fun r => { r with copies := tmap {} (fun _ c => if c.final then c else {}) r.copies })
          (updRing g (fun r => { r with state := st }) s)) g := ringOf_congr (by simp [loseCopies]) g
    rw [hr, ringOf_updRing _ _ _ hw']
    exact h
  · exact ⟨h, hw'⟩

/-! ### Ring setup commands -/

/-- A ring setup command that may act finds this state: the doorbells before it have acted, the write is counted and
sequenced, and the window shows OK and when its BUSY ends. -/
def rsDone (p : Port) (sl : Option Nat) (g : Nat) (s : State) : State :=
  updRs p sl (fun w => { w with
      result := 0, busyUntil := within (if isCached s g then 4 else 10) (rsWrote p sl (flushDb g s)) })
    (draw (cmdContext g (rsWrote p sl (flushDb g s))))

/-- A ring setup command whose checks pass acts. -/
theorem rsCommand_ok {p : Port} {sl : Option Nat} {ring g : Nat} {check : Nat → State → Nat}
    {act : Nat → State → State} (hr : rsReach p sl s = true) (hb : (rsWin p sl s).busyUntil ≤ s.now)
    (hg : rsRing sl ring s = some g) (hc : check g (rsWrote p sl (flushDb g s)) = 0) :
    rsCommand p sl ring check act s = .next (act g (rsDone p sl g s)) := by
  simp [rsCommand, hr, Nat.not_lt.mpr hb, hg, hc, rsDone]

/-- A window that is changed shows its change. -/
theorem rsWin_updRs (p : Port) (sl : Option Nat) (f : RsWin → RsWin) (hw : twf {} s.slc.slices = true) :
    rsWin p sl (updRs p sl f s) = f (rsWin p sl s) := by
  cases sl with
  | none => simp [rsWin, updRs]
  | some n => simp only [rsWin, updRs, sliceOf_updSlice _ _ _ hw]

/-- Equal windows and slices show equal setup windows. -/
theorem rsWin_congr (p : Port) (sl : Option Nat) (h : t.win = s.win) (h' : t.slc = s.slc) :
    rsWin p sl t = rsWin p sl s := by
  simp only [rsWin, sliceOf, h, h']

/-- A change of a window leaves what else the slices hold. -/
theorem updRs_slice (p : Port) (sl : Option Nat) (f : RsWin → RsWin) (n : Nat) (hw : twf {} s.slc.slices = true) :
    ∃ w, sliceOf (updRs p sl f s) n = { sliceOf s n with rs := w } := by
  cases sl with
  | none => exact ⟨_, rfl⟩
  | some m =>
    by_cases h : n = m
    · subst h
      exact ⟨_, sliceOf_updSlice _ _ _ hw⟩
    · exact ⟨_, sliceOf_updSlice_ne _ _ _ _ h⟩

/-- At a ring setup command the rings are those that the doorbells before it leave, and what is sent is. -/
@[simp] theorem rsDone_rings (p : Port) (sl : Option Nat) (g : Nat) (s : State) :
    (rsDone p sl g s).car.rings = (flushDb g s).car.rings := by
  simp [rsDone]

/-- The window of a ring setup command that acts. -/
theorem rsWin_rsDone (p : Port) (sl : Option Nat) (g : Nat) (hok : tablesOk s = true) :
    (rsWin p sl (rsDone p sl g s)).data = (rsWin p sl s).data ∧ (rsWin p sl (rsDone p sl g s)).result = 0 ∧
    s.now ≤ (rsWin p sl (rsDone p sl g s)).busyUntil ∧ (rsWin p sl (rsDone p sl g s)).busyUntil ≤ s.now + 10 := by
  have hw : twf {} (draw (cmdContext g (rsWrote p sl (flushDb g s)))).slc.slices = true := by
    simpa using (tablesOk_parts s hok).2.2.2.2.2.2.2.2.2.2.2.2.1
  have hs : rsWin p sl (draw (cmdContext g (rsWrote p sl (flushDb g s)))) = rsWin p sl s :=
    rsWin_congr p sl (by simp) (by simp)
  simp only [rsDone, rsWin_updRs p sl _ hw, hs, within, rsWrote_frame, flushDb_frame]
  refine ⟨trivial, trivial, by omega, ?_⟩
  split <;> omega

theorem rsDone_tablesOk (p : Port) (sl : Option Nat) (g : Nat) (hok : tablesOk s = true) :
    tablesOk (rsDone p sl g s) = true := by
  obtain ⟨-, ht, -⟩ := updRs_keeps p sl (fun w => { w with
      result := 0, busyUntil := within (if isCached s g then 4 else 10) (rsWrote p sl (flushDb g s)) })
    (draw_keeps (cmdContext_keeps g (rsWrote_keeps p sl (flushDb_keeps g (Keeps.refl {} s)))))
  exact ht hok

end Sys2Proof.Laws
end

section
/-! PROOFS. The ring setup commands (04_rings_doorbells_completions.md). -/
namespace Sys2Proof.Proofs

open Sys2Proof.Machine Sys2Proof.Safety Sys2Proof.Laws

variable {p : Port} {sl : Option Nat} {g ring : Nat} {s : State}

/-- What a WRITE makes of ring `r` over the one that it replaces (R74). -/
def rsWritten (r old : Ring) : Ring :=
  if r.type == .cq then { r with brakeStamp := old.brakeStamp, alerted := old.alerted } else r

/-- What an ENABLE makes of its ring (R74). -/
def ringEnabled (s : State) (r : Ring) : Ring := { r with state := enableState s r, home := enableHome s r, error := 0 }

/-- An ENABLE, with the braking that the new credits settle (R94). -/
def enabled (g : Nat) (s : State) : State :=
  if (ringOf s g).type == .cq then relieve (updRing g (ringEnabled s) s)
  else rebrake (ringOf s g).cq (updRing g (ringEnabled s) s)

/-- A DISABLE (R74). -/
def disabled (g : Nat) (s : State) : State :=
  if (ringOf s g).type == .sq then stampBrake (ringOf s g).cq (setRing g .disabled s) else setRing g .disabled s

/-- The result of a DISABLE before it acts (R74, R77). -/
def rsDisableCheck (sl : Option Nat) (g : Nat) (s : State) : Nat :=
  if !((ringOf s g).state == .active || (ringOf s g).state == .braked) then 2
  else if (ringOf s g).type == .cq && !cqIdle s g then 2
  else if tenantCtx sl g s then 0 else 4

/-- The result of a RESET before it acts (R74). -/
def rsResetCheck (sl : Option Nat) (g : Nat) (s : State) : Nat :=
  if (ringOf s g).state != .error || (ringOf s g).outstanding != 0 || !(ringOf s g).siding.isEmpty then 2
  else if tenantCtx sl g s then 0 else 4

/-- What a RESET makes of its ring (R74). -/
def ringReset (r : Ring) : Ring := { r with
  state := .disabled, error := 0, producer := 0, consumer := 0, copies := [], sinceWb := 0, coalCnt := 0 }

/-- The five commands that act, on the state that `rsDone` gives. -/
theorem rsRead_ok (hr : rsReach p sl s = true) (hb : (rsWin p sl s).busyUntil ≤ s.now)
    (hg : rsRing sl ring s = some g) (hc : tenantCtx sl g (rsWrote p sl (flushDb g s)) = true) :
    exec (.rsRead p sl ring) s =
      .next (updRs p sl (fun w => { w with data := ctxBytes (ringOf (rsDone p sl g s) g) }) (rsDone p sl g s)) :=
  rsCommand_ok (check := fun g s => if tenantCtx sl g s then 0 else 4)
    (act := fun g s => updRs p sl (fun w => { w with data := ctxBytes (ringOf s g) }) s) hr hb hg (if_pos hc)

theorem rsWrite_ok (hr : rsReach p sl s = true) (hb : (rsWin p sl s).busyUntil ≤ s.now)
    (hg : rsRing sl ring s = some g) (hc : rsWriteCheck p sl g (rsWrote p sl (flushDb g s)) = 0) :
    exec (.rsWrite p sl ring) s =
      .next (updRing g (rsWritten (ctxRing p (rsWin p sl (rsDone p sl g s)).data)) (rsDone p sl g s)) :=
  rsCommand_ok (act := fun g s => updRing g (rsWritten (ctxRing p (rsWin p sl s).data)) s) hr hb hg hc

theorem rsEnable_ok (hr : rsReach p sl s = true) (hb : (rsWin p sl s).busyUntil ≤ s.now)
    (hg : rsRing sl ring s = some g) (hc : rsEnableCheck sl g (rsWrote p sl (flushDb g s)) = 0) :
    exec (.rsEnable p sl ring) s = .next (enabled g (rsDone p sl g s)) :=
  rsCommand_ok (act := enabled) hr hb hg hc

theorem rsDisable_ok (hr : rsReach p sl s = true) (hb : (rsWin p sl s).busyUntil ≤ s.now)
    (hg : rsRing sl ring s = some g) (hc : rsDisableCheck sl g (rsWrote p sl (flushDb g s)) = 0) :
    exec (.rsDisable p sl ring) s = .next (disabled g (rsDone p sl g s)) :=
  rsCommand_ok (check := rsDisableCheck sl) (act := disabled) hr hb hg hc

theorem rsReset_ok (hr : rsReach p sl s = true) (hb : (rsWin p sl s).busyUntil ≤ s.now)
    (hg : rsRing sl ring s = some g) (hc : rsResetCheck sl g (rsWrote p sl (flushDb g s)) = 0) :
    exec (.rsReset p sl ring) s = .next (updRing g ringReset (rsDone p sl g s)) :=
  rsCommand_ok (check := rsResetCheck sl) (act := fun g s => updRing g ringReset s) hr hb hg hc

/-- At a ring setup command every ring is as the doorbells before it left it. -/
theorem ringOf_rsDone (p : Port) (sl : Option Nat) (g h : Nat) (s : State) :
    ringOf (rsDone p sl g s) h = ringOf (rsWrote p sl (flushDb g s)) h := ringOf_congr (by simp) h

/-- A slice at a ring setup command differs in its window alone. -/
theorem sliceOf_rsDone (n : Nat) (hok : tablesOk s = true) :
    ∃ w, sliceOf (rsDone p sl g s) n = { sliceOf (rsWrote p sl (flushDb g s)) n with rs := w } := by
  obtain ⟨w, hw⟩ := updRs_slice p sl (fun w => { w with
      result := 0, busyUntil := within (if isCached s g then 4 else 10) (rsWrote p sl (flushDb g s)) }) n
    (s := draw (cmdContext g (rsWrote p sl (flushDb g s))))
    (by simpa using (tablesOk_parts s hok).2.2.2.2.2.2.2.2.2.2.2.2.1)
  exact ⟨w, hw.trans (by simp [sliceOf])⟩

/-- An ENABLE reads of the slices what a window does not hold. -/
theorem enable_rsDone (r : Ring) (hok : tablesOk s = true) :
    enableState (rsDone p sl g s) r = enableState (rsWrote p sl (flushDb g s)) r ∧
    enableHome (rsDone p sl g s) r = enableHome (rsWrote p sl (flushDb g s)) r := by
  obtain ⟨w, hw⟩ := sliceOf_rsDone (p := p) (sl := sl) (g := g) r.slice hok
  simp only [enableState, enableHome, hw, and_self]

/-- Operations on rings leave the setup windows. -/
theorem rsWin_of_rings {t : State} (h : t.win = s.win ∧ t.slc = s.slc) : rsWin p sl t = rsWin p sl s :=
  rsWin_congr p sl h.1 h.2

/-- The ring of a DISABLE is DISABLED. -/
theorem ringOf_disabled (g : Nat) (hw : twf {} s.car.rings = true) : (ringOf (disabled g s) g).state = .disabled := by
  obtain ⟨hd, hw'⟩ := setRing_state g .disabled hw
  unfold disabled
  split
  · rw [stampBrake_state _ _ hw', hd]
  · exact hd

/-- An ENABLE acts on its ring; SQs brake or resume as the credits then stand. -/
theorem ringOf_enabled (g : Nat) (hw : twf {} s.car.rings = true) (h : Nat) :
    ∃ st bs al cp, ringOf (enabled g s) h =
        { (if h = g then ringEnabled s (ringOf s g) else ringOf s h) with
          state := st, brakeStamp := bs, alerted := al, copies := cp } ∧
      (st = (if h = g then ringEnabled s (ringOf s g) else ringOf s h).state ∨
        (if h = g then ringEnabled s (ringOf s g) else ringOf s h).type = .sq ∧
        ((if h = g then ringEnabled s (ringOf s g) else ringOf s h).state = .active ∧ st = .braked ∨
         (if h = g then ringEnabled s (ringOf s g) else ringOf s h).state = .braked ∧ st = .active)) := by
  have hu : ringOf (updRing g (ringEnabled s) s) h = if h = g then ringEnabled s (ringOf s g) else ringOf s h := by
    split
    · next he => rw [he, ringOf_updRing _ _ _ hw]
    · next he => rw [ringOf_updRing_ne _ _ _ _ he]
  rw [← hu]
  unfold enabled
  split
  · exact (relieve_rebrakedAll (twf_updRing _ _ hw)).rings h
  · exact (rebrake_rebrakedAll _ (twf_updRing _ _ hw)).rings h

/-- The enabled ring after the doorbells, with what an ENABLE reads of the slices. -/
theorem ringOf_ringEnabled_rsDone (hok : tablesOk s = true) (h : Nat) :
    (if h = g then ringEnabled (rsDone p sl g s) (ringOf (rsDone p sl g s) g) else ringOf (rsDone p sl g s) h) =
      if h = g then { ringOf (rsWrote p sl (flushDb g s)) g with
        state := enableState (rsWrote p sl (flushDb g s)) (ringOf (rsWrote p sl (flushDb g s)) g)
        home := enableHome (rsWrote p sl (flushDb g s)) (ringOf (rsWrote p sl (flushDb g s)) g), error := 0 }
      else ringOf (rsWrote p sl (flushDb g s)) h := by
  obtain ⟨hs, hh⟩ := enable_rsDone (p := p) (sl := sl) (g := g) (ringOf (rsWrote p sl (flushDb g s)) g) hok
  simp only [ringEnabled, ringOf_rsDone, hs, hh]

/-- Settles O15: each command whose checks pass acts on the rings that the doorbells before it leave. -/
theorem ringSetupCommandsAct : Obligations.RingSetupCommandsAct := by
  unfold Obligations.RingSetupCommandsAct
  rintro p sl ring g s _ hok hr hb hg rfl
  have hokD := rsDone_tablesOk p sl g hok
  obtain ⟨-, hwR, -, -, -, -, -, -, -, -, -, -, hwS, -⟩ := tablesOk_parts _ hokD
  obtain ⟨hdata, hres, hfrom, huntil⟩ := rsWin_rsDone p sl g hok
  refine ⟨fun hc => ?_, fun hc => ?_, fun hc => ?_, fun hst hty hidle hc => ?_, fun hst hty hc => ?_,
    fun hst hout hsid hc => ?_⟩
  · refine ⟨_, rsRead_ok hr hb hg hc, ?_⟩
    rw [rsWin_updRs _ _ _ hwS]
    exact ⟨by rw [ringOf_rsDone], hres, hfrom, huntil⟩
  · refine ⟨_, rsWrite_ok hr hb hg hc, ?_, ?_, fun h hh => ?_⟩
    · rw [ringOf_updRing _ _ _ hwR, ringOf_rsDone, hdata]
      rfl
    · rw [rsWin_of_rings (s := rsDone p sl g s) (by simp), hres]
    · rw [ringOf_updRing_ne _ _ _ _ hh, ringOf_rsDone]
  · refine ⟨_, rsEnable_ok hr hb hg hc, ?_, fun h => ?_⟩
    · rw [rsWin_of_rings (s := rsDone p sl g s) (by simp [enabled]), hres]
    · obtain ⟨st, bs, al, cp, ht, hst⟩ := ringOf_enabled g hwR h
      exact ⟨st, bs, al, cp, by simpa only [ringOf_ringEnabled_rsDone hok] using ht,
        by simpa only [ringOf_ringEnabled_rsDone hok] using hst⟩
  · refine ⟨_, rsDisable_ok hr hb hg ?_, ?_, ?_⟩
    · rcases hst with h | h <;> simp [rsDisableCheck, h, hty, hidle, hc]
    · exact ringOf_disabled g hwR
    · rw [rsWin_of_rings (s := rsDone p sl g s) (by simp [disabled]), hres]
  · refine ⟨_, rsDisable_ok hr hb hg ?_, ?_, ?_⟩
    · rcases hst with h | h <;> simp [rsDisableCheck, h, hty, hc]
    · exact ringOf_disabled g hwR
    · rw [rsWin_of_rings (s := rsDone p sl g s) (by simp [disabled]), hres]
  · refine ⟨_, rsReset_ok hr hb hg ?_, ?_⟩
    · simp [rsResetCheck, hst, hout, hsid, hc]
    · rw [ringOf_updRing _ _ _ hwR, rsWin_of_rings (s := rsDone p sl g s) (by simp)]
      exact ⟨rfl, rfl, rfl, rfl, hres⟩

end Sys2Proof.Proofs
end

section
/-! PROOFS. The ring family's device-side steps and aborts (04_rings_doorbells_completions.md, R122). -/
namespace Sys2Proof.Proofs

open Sys2Proof.Machine Sys2Proof.Safety Sys2Proof.Laws

variable {g t u : Nat} {s : State}

theorem inFault_of_live (h : live s = true) : inFault s = false := by
  simp only [live, Bool.and_eq_true, Bool.or_eq_true, beq_iff_eq] at h
  rcases h.2 with h | h <;> simp [inFault, h]

/-- A ring that has a type is not the one an unlisted key shows. -/
theorem ring_ne_default {r : Ring} (h : r.type ≠ .none) : r ≠ {} := by
  rintro rfl
  exact h rfl

/-- The context just used is cached: it is not the one replaced (R99). -/
theorem isCached_useContext (g : Nat) (s : State) : isCached (useContext g s) g = true := by
  simp only [isCached, useContext, updCar, List.contains_iff_mem]
  split
  · exact List.mem_cons_self
  · split
    · next x hx =>
      have hne : x ≠ g := by
        have := List.find?_some hx
        simp only [Bool.and_eq_true, bne_iff_ne] at this
        exact this.1
      exact (List.mem_erase_of_ne hne.symm).mpr List.mem_cons_self
    · exact List.mem_cons_self

/-! ### Prefetch and take -/

/-- A copy asked for leaves of its ring all but the copies. -/
theorem fetchEntry_sameRing (k p g : Nat) (final : Bool) (s : State) :
    SameRing brakeView g s (fetchEntry k p final s) :=
  .trans (.of_rings (by simp)) (updRing_sameBrake (by rfl))

theorem prefetchN_sameRing (n k p g : Nat) (s : State) : SameRing brakeView g s (prefetchN n k p s) := by
  induction n generalizing p s with
  | zero => exact .refl ..
  | succ n ih => exact .trans (.ite (fetchEntry_sameRing ..) (.refl ..)) (ih _ _)

/-- The carriage that a take gives the tag to (R86). -/
theorem takeEntry_carrOf (g t : Nat) (sided : Bool) (b : Bytes) (s : State) :
    (carrOf (takeEntry g t sided b s) t).stage = .taken ∧ (carrOf (takeEntry g t sided b s) t).sq = g ∧
    (carrOf (takeEntry g t sided b s) t).entry = b := by
  simp only [carrOf, takeEntry, tagGiven, relieve_cars, updCar]
  split <;> simp

/-- A take has a CSN of its own. -/
theorem takeEntry_csn (g t : Nat) (sided : Bool) (b : Bytes) (h : live s = true) :
    (takeEntry g t sided b s).csn = s.csn + 1 := by
  have hf : inFault s = false := inFault_of_live h
  simp only [inFault] at hf
  simp [takeEntry, tagGiven, seqd, inFault, hf, apply_ite State.csn]

/-- The contexts of an SQ and its CQ in the cache, at the CSN of a take from the SQ. -/
def atTake (g : Nat) (s : State) : State := seqd (cmdContext (ringOf s g).cq (cmdContext g s))

/-- The contexts of SQ `g` and its CQ in the cache, and the carriage that takes tag `t`, at the CSN of the take. -/
def takenCarriage (g t : Nat) (sided : Bool) (b : Bytes) (s : State) : State :=
  updCar (fun c => { c with
    takes := c.takes + 1
    cars := tput c.cars t
      { stage := .taken, sq := g, pos := (ringOf s g).consumer, entry := b, order := c.takes + 1, sidingCredit := sided }
    shadows := tmap {} (fun _ h => if h.used && h.tag == none && h.sq == g && h.pos == (ringOf s g).consumer
      then { h with tag := some t } else h) c.shadows }) (seqd (cmdContext (ringOf s g).cq (cmdContext g s)))

/-- What a take by tag `t` of an entry `b` makes of the SQ. -/
def takenRing (t : Nat) (b : Bytes) (r : Ring) : Ring := { r with
  consumer := posNext (ringN r) r.consumer, copies := tdel r.copies r.consumer, outstanding := r.outstanding + 1
  sinceWb := r.sinceWb + 1, fence := if eOp b == 0x7E then some t else r.fence }

/-- What a take makes of the CQ. -/
def creditRing (sided : Bool) (q : Ring) : Ring :=
  { q with outstanding := q.outstanding + 1, sidingCr := q.sidingCr + b2n sided }

/-- What follows a take from ring `r`, numbered `g`: its charge, the write-back, the credits looked at again (R86). -/
def afterTake (g : Nat) (r : Ring) (e : State) : State :=
  let f := updStats r.home (fun h => { h with dmaRd := h.dmaRd + 64 }) (markSiding (chargeTag r e))
  let w := if (ringOf f g).sinceWb ≥ 8 || !hasWork (ringOf f g) then writeBack g f else f
  tagGiven g (relieve (updCar (fun c => { c with tagsHwm := max c.tagsHwm (tagsUsed w) }) w))

theorem takeEntry_eq (g t : Nat) (sided : Bool) (b : Bytes) (s : State) :
    takeEntry g t sided b s = afterTake g (ringOf s g)
      (updRing (ringOf s g).cq (creditRing sided) (updRing g (takenRing t b) (takenCarriage g t sided b s))) := rfl

theorem ringOf_takenCarriage (g t h : Nat) (sided : Bool) (b : Bytes) (s : State) :
    ringOf (takenCarriage g t sided b s) h = ringOf s h := ringOf_congr (by simp [takenCarriage]) h

/-- What a ring shows but for what braking, placing of entries and write-backs change. -/
def takeView (r : Ring) : Ring := drainView { r with sinceWb := 0 }

theorem takeView_tellsType : TellsType takeView := fun r r' h =>
  show (takeView r).type = (takeView r').type by rw [h]

theorem consumer_of_takeView {r r' : Ring} (h : takeView r = takeView r') : r.consumer = r'.consumer :=
  show (takeView r).consumer = (takeView r').consumer by rw [h]

theorem brakeView_takeView (r r' : Ring) (h : brakeView r = brakeView r') : takeView r = takeView r' :=
  show takeView (brakeView r) = takeView (brakeView r') by rw [h]

theorem writeBack_sameRing (k g : Nat) (s : State) : SameRing takeView g s (writeBack k s) :=
  .ite (.trans (.of_rings (by simp)) (.upd takeView_tellsType (by rfl))) (.refl ..)

theorem tagGiven_sameRing (k g : Nat) (s : State) : SameRing takeView g s (tagGiven k s) := .of_rings rfl

theorem afterTake_sameRing (g : Nat) (r : Ring) (e : State) : SameRing takeView g e (afterTake g r e) := by
  have hf : SameRing takeView g e (updStats r.home (fun h => { h with dmaRd := h.dmaRd + 64 }) (markSiding (chargeTag r e))) :=
    .of_rings (by simp)
  have hu : ∀ w : State, SameRing takeView g w (updCar (fun c => { c with tagsHwm := max c.tagsHwm (tagsUsed w) }) w) :=
    fun w => .of_rings rfl
  have hr : ∀ w : State, SameRing takeView g w (tagGiven g (relieve w)) := fun w =>
    ((relieve_sameRing g w).mono brakeView_takeView).trans (tagGiven_sameRing ..)
  exact hf.trans (.trans (.ite (writeBack_sameRing ..) (.refl ..)) ((hu _).trans (hr _)))

/-- A take advances CONSUMER by the entry taken (R86). -/
theorem takeEntry_consumer (t : Nat) (sided : Bool) (b : Bytes) (hty : (ringOf s g).type = .sq)
    (hq : g ≠ (ringOf s g).cq) :
    (ringOf (takeEntry g t sided b s) g).consumer = posNext (ringN (ringOf s g)) (ringOf s g).consumer := by
  have hne : takenRing t b (ringOf (takenCarriage g t sided b s) g) ≠ {} :=
    ring_ne_default (by simp [takenRing, ringOf_takenCarriage, hty])
  have he : ringOf (updRing (ringOf s g).cq (creditRing sided) (updRing g (takenRing t b) (takenCarriage g t sided b s))) g =
      takenRing t b (ringOf s g) := by
    rw [ringOf_updRing_ne _ _ _ _ hq, ringOf_updRing_of _ _ _ hne, ringOf_takenCarriage]
  obtain ⟨h, -⟩ := (afterTake_sameRing g (ringOf s g) _).shows (.inr (by rw [he]; simp [takenRing, hty]))
  rw [takeEntry_eq, consumer_of_takeView h, he]
  rfl

/-! ### Aborts -/

/-- The carriage's tag is free, or the carriage waits under R97, stopped, with ABORTED. -/
def EndedAborted (u : Nat) (s : State) : Prop :=
  (carrOf s u).stage = .free ∨
    (carrOf s u).stage = .finished ∧ (carrOf s u).fin = some (stAborted, 0) ∧ (carrOf s u).stopped = true

theorem EndedAborted.of_empty (h : carrOf s u = {}) : EndedAborted u s := .inl (by rw [h])

/-- The abort of another carriage leaves this one. -/
theorem abortOne_carrOf_ne (h : u ≠ t) : carrOf (abortOne s t) u = carrOf s u := by
  have hu : carrOf (uncount (carrOf s t) s) u = carrOf s u := carrOf_congr (by simp) u
  unfold abortOne
  dsimp only
  repeat' split
  all_goals simp only [stopOne_carrOf_ne _ _ h, finish_carrOf_ne _ _ h, complete_carrOf_ne _ _ h, hu]

/-- An abort of a carriage that is taken and no more ends it (R122). -/
theorem abortOne_ends (hok : tablesOk s = true) (h : (carrOf s u).stage = .taken) (hr : (carrOf s u).refused = false)
    (hs : (carrOf s u).stopped = false) : EndedAborted u (abortOne s u) := by
  have hi : inFlight (carrOf s u) = true := inFlight_iff.mpr ⟨by simp [h], hr, hs⟩
  by_cases hop : eOp (carrOf s u).entry = 0x7E
  · refine .of_empty ?_
    simp [abortOne, h, hop, finish_carrOf _ _ (tablesOk_parts s hok).2.2.1]
  · have he : abortOne s u = stopOne u stAborted 0 s := by simp [abortOne, h, hop, counted, hr]
    rw [he]
    exact stopOne_ends _ _ hok hi

/-- An abort of a carriage that has ended ABORTED changes nothing but that a wait under R97 may be over. -/
theorem abortOne_keeps_endedAborted (hok : tablesOk s = true) (h : EndedAborted u s) : EndedAborted u (abortOne s u) := by
  obtain hf | ⟨hst, hfin, hs⟩ := h
  · exact .inl (by simpa [abortOne, hf] using hf)
  have hw := (tablesOk_parts s hok).2.2.1
  have hno : inFlight (carrOf s u) = false := by simp [inFlight, hs]
  by_cases hop : eOp (carrOf s u).entry = 0x7E
  · exact .of_empty (by simp [abortOne, hst, hop, finish_carrOf _ _ hw])
  have hc : counted (carrOf s u) = false := by simp [counted, hfin, stAborted, stQuorumPending]
  by_cases hr : (carrOf s u).refused = true
  · have he : abortOne s u = complete u stAborted 0 s := by simp [abortOne, hst, hop, hc, hr]
    have hcar := complete_carrOf (t := u) stAborted 0 hw (by simp [hst])
    rw [he]
    split at hcar
    · exact .inr (by rw [hcar]; exact ⟨rfl, rfl, hs⟩)
    · exact .of_empty hcar
  · have he : abortOne s u = stopOne u stAborted 0 s := by simp [abortOne, hst, hop, hc, hr]
    exact .inr (by rw [he, stopOne, if_neg (by simp [hno])]; exact ⟨hst, hfin, hs⟩)

theorem abortOne_tablesOk (t : Nat) (hok : tablesOk s = true) : tablesOk (abortOne s t) = true := by
  obtain ⟨-, ht, -⟩ := abortOne_keeps t (Keeps.refl {} s)
  exact ht hok

theorem foldl_abortOne_endedAborted (l : List Nat) (hok : tablesOk s = true) (h : EndedAborted u s) :
    EndedAborted u (l.foldl abortOne s) := by
  refine (foldl_keeps_of_tablesOk (P := EndedAborted u) (fun x t hx h => ⟨abortOne_tablesOk t hx, ?_⟩) l hok h)
  by_cases ht : u = t
  · subst ht
    exact abortOne_keeps_endedAborted hx h
  · exact (by simpa only [EndedAborted, abortOne_carrOf_ne ht] using h)

/-- Carriages that are marked in turn end, where each is taken and no more (R122). -/
theorem foldl_abortOne_ends (l : List Nat) (hu : u ∈ l) (hok : tablesOk s = true) (h : (carrOf s u).stage = .taken)
    (hr : (carrOf s u).refused = false) (hs : (carrOf s u).stopped = false) : EndedAborted u (l.foldl abortOne s) := by
  induction l generalizing s with
  | nil => simp at hu
  | cons t l ih =>
    by_cases ht : u = t
    · subst ht
      exact foldl_abortOne_endedAborted l (abortOne_tablesOk u hok) (abortOne_ends hok h hr hs)
    · have hc : carrOf (abortOne s t) u = carrOf s u := abortOne_carrOf_ne ht
      exact ih (by simpa [ht] using hu) (abortOne_tablesOk t hok) (by rw [hc]; exact h) (by rw [hc]; exact hr)
        (by rw [hc]; exact hs)

theorem rsWrote_tablesOk (p : Port) (sl : Option Nat) (hok : tablesOk s = true) : tablesOk (rsWrote p sl s) = true := by
  obtain ⟨-, ht, -⟩ := rsWrote_keeps p sl (Keeps.refl {} s)
  exact ht hok

/-- A setup write that reaches its window takes a CSN (R25). -/
theorem rsWrote_csn {p : Port} {sl : Option Nat} (hr : rsReach p sl s = true) : s.csn < (rsWrote p sl s).csn := by
  have hF : inFault s = false := by
    cases sl <;> simp only [rsReach, wr, Bool.and_eq_true, Bool.not_eq_true'] at hr
    · exact hr.1.2
    · exact hr.1.1.1.2
  simp only [inFault] at hF
  cases sl <;> simp [rsWrote, seqd, inFault, hF]

/-- An abort write takes a CSN (R25). -/
theorem abortSq_rsWrote_csn {p : Port} {sl : Option Nat} (o : Option Nat) (hr : rsReach p sl s = true) :
    s.csn < (abortSq g o (rsWrote p sl s)).csn := by
  obtain ⟨-, -, -, h, -⟩ := abortSq_keeps g o (Keeps.refl {} (rsWrote p sl s))
  exact Nat.lt_of_lt_of_le (rsWrote_csn hr) (h rfl)

/-- The cookie that an abort write names is the carriage's, where it names one (R122). -/
def cookieIs (o : Option Nat) (c : Carriage) : Prop := ∀ k, o = some k → eCookie c.entry = k

/-- The carriages that an abort write marks (R122). -/
def marked (g : Nat) (o : Option Nat) (c : Carriage) : Bool :=
  c.sq == g && abortable c && (match o with | some k => eCookie c.entry == k | none => true)

theorem abortSq_eq (g : Nat) (o : Option Nat) (s : State) :
    abortSq g o s = reap stKeyErased ((tkeys s.car.cars (fun _ c => marked g o c)).foldl abortOne s) := by
  cases o <;> rfl

theorem marked_taken {o : Option Nat} {c : Carriage} (hst : c.stage = .taken) (hsq : c.sq = g) (hc : cookieIs o c) :
    marked g o c = true := by
  have ha : abortable c = true := by simp [abortable, hst]
  cases o with
  | none => simp [marked, ha, hsq]
  | some k => simp [marked, ha, hsq, hc k rfl]

/-- A carriage that is taken and no more ends ABORTED where its SQ's carriages are marked (R122). -/
theorem abortSq_ends (o : Option Nat) (hok : tablesOk s = true) (hst : (carrOf s u).stage = .taken)
    (hsq : (carrOf s u).sq = g) (hr : (carrOf s u).refused = false) (hs : (carrOf s u).stopped = false)
    (hc : cookieIs o (carrOf s u)) :
    (carrOf (abortSq g o s) u).stage = .free ∨ (carrOf (abortSq g o s) u).fin = some (stAborted, 0) := by
  have hne : carrOf s u ≠ {} := fun h => by simp [h] at hst
  have hm : u ∈ tkeys s.car.cars (fun _ c => marked g o c) := mem_tkeys hne (marked_taken hst hsq hc)
  rw [abortSq_eq]
  obtain h | ⟨-, hfin, hstop⟩ := foldl_abortOne_ends _ hm hok hst hr hs
  · exact .inl (reap_free _ h)
  · exact .inr (by rw [reap_carrOf_of_not_inFlight _ (by simp [inFlight, hstop]), hfin])

theorem ringOf_msixFire (p : Port) (v h : Nat) (s : State) : ringOf (msixFire p v s) h = ringOf s h :=
  ringOf_congr (by simp) h

/-- A CQ's alert that is due is raised at a CSN (R94). -/
theorem brakeAlert_due {q : Nat} (hl : live s = true) (hty : (ringOf s q).type = .cq) (hb : (ringOf s q).brakeStamp ≠ 0)
    (hal : (ringOf s q).alerted = false) (ha : s.car.brakeAlert ≠ 0)
    (hd : (s.now + 2 ^ 32 - (ringOf s q).brakeStamp) % 2 ^ 32 ≥ 1000 * s.car.brakeAlert) :
    exec (.brakeAlert q) s = .next
      (recordSeq .brakeAlert (natLe 4 q ++ natLe 2 (if (ringOf s q).mgr then 0 else (ringOf s q).slice) ++ zeros 2 ++
          natLe 4 (ringN (ringOf s q)) ++ natLe 4 (ringOcc (ringOf s q)) ++ natLe 4 (ringOf s q).siding.length ++
          natLe 4 (ringOf s q).outstanding)
        (setIntBoth 0 (seqd (updRing q (fun r => { r with alerted := true }) s)))) := by
  have hc : (live s && ((ringOf s q).type == .cq && (ringOf s q).brakeStamp != 0 && !(ringOf s q).alerted &&
      s.car.brakeAlert != 0 && decide ((s.now + 2 ^ 32 - (ringOf s q).brakeStamp) % 2 ^ 32 ≥ 1000 * s.car.brakeAlert))) = true := by
    simp only [hl, hty, hal, decide_eq_true hd, bne_iff_ne.mpr hb, bne_iff_ne.mpr ha]
    rfl
  exact congrArg Host.Outcome.next (if_pos hc)

/-- Settles O16: each step as its trigger stands. -/
theorem ringStepsComplete : Obligations.RingStepsComplete := by
  unfold Obligations.RingStepsComplete
  refine ⟨fun g s hl hc hg hp hd => ?_, fun g k s a ha hl hty hst => ?_,
    fun g tag sided s x a hx ha hl hm hf hcr hne htt hu => ?_,
    fun q s hl hty hb ha hal hd => ?_, fun q s hp hty hv hc hd => ?_, fun p sl ring g s hr hg => ?_⟩
  · refine ⟨useContext g (updCar (fun c => { c with ctxMiss := satInc 32 c.ctxMiss }) s), ?_, isCached_useContext _ _, ?_, ?_⟩
    · have hg' : ¬1048576 ≤ g := by omega
      simp [exec, execContextLoad, hl, hc, hp, hg']
      exact releaseDb_none (by simpa [useContext, updCar] using hd)
    · simp [useContext, updCar]
    · simp
  · subst ha
    have hsame := prefetchN_sameRing (min (min k 8) (ringN (ringOf (flushDb g s) g) - ringOcc (ringOf (flushDb g s) g)))
      g (ringOf (flushDb g s) g).producer g (flushDb g s)
    obtain ⟨hb, -⟩ := hsame.shows (.inr (by simp [hty]))
    obtain ⟨hpr, hco⟩ := positions_of_brakeView hb
    refine ⟨_, ?_, rfl, by simp, by simp, hco, hpr⟩
    simp [exec, execDescriptorPrefetch, onlyIf, hl, hty, hst]
  · have hsq : (ringOf a g).type = .sq := by
      simp only [mayTake, Bool.and_eq_true, beq_iff_eq] at hm
      exact hm.1.1.1.1.1
    obtain ⟨hst, hs, he⟩ := takeEntry_carrOf g tag sided (tget {} (ringOf a g).copies (ringOf a g).consumer).bytes a
    refine ⟨_, ?_, hst, hs, he, takeEntry_consumer _ _ _ hsq hne, takeEntry_csn _ _ _ _ hl⟩
    subst hx ha
    simp [exec, execSqEntryTake, onlyIf, hl, hm, hf, hcr, htt, hu]
  · have hr : (ringOf (updRing q (fun r => { r with alerted := true }) s) q).alerted = true := by
      rw [ringOf_updRing_of _ _ _ (ring_ne_default (by simp [hty]))]
    refine ⟨_, brakeAlert_due hl hty hb ha hal hd, ?_, ?_, ?_⟩
    · rw [ringOf_congr (s := updRing q (fun r => { r with alerted := true }) s) (by simp), hr]
    · have hF : inFault (updRing q (fun r => { r with alerted := true }) s) = false := inFault_of_live hl
      simp [seqd, hF]
    · simp
  · have hr : (ringOf (cqMessage q s) q).coalCnt = 0 := by
      simp only [cqMessage]
      rw [ringOf_updRing_of _ _ _ (ring_ne_default (by simp [ringOf_msixFire, hty]))]
    refine ⟨cqMessage q s, by simp [exec, execCoalTimeExpiry, onlyIf, hp, hty, hv, hc, hd], hr, fun h hh => ?_⟩
    simp only [cqMessage]
    rw [ringOf_updRing_ne _ _ _ _ hh, ringOf_msixFire]
  · have hk : ∀ c, abortWrite p sl ring c s =
        .next (abortSq g (if c then some (rsWin p sl s).abortCookie else none) (rsWrote p sl s)) := fun c => by
      simp [abortWrite, hr, hg]
    refine ⟨hk true, hk false, fun hok => ⟨_, hk true, ?_⟩, fun hok => ⟨_, hk false, ?_⟩⟩
    · refine ⟨abortSq_rsWrote_csn _ hr, fun u hst hsq hre hs hc => ?_⟩
      have hcar : carrOf (rsWrote p sl s) u = carrOf s u := carrOf_congr (by simp) u
      exact abortSq_ends _ (rsWrote_tablesOk p sl hok) (by rwa [hcar]) (by rwa [hcar]) (by rwa [hcar]) (by rwa [hcar])
        (fun k hk => by rw [hcar]; cases hk; exact hc)
    · refine ⟨abortSq_rsWrote_csn _ hr, fun u hst hsq hre hs => ?_⟩
      have hcar : carrOf (rsWrote p sl s) u = carrOf s u := carrOf_congr (by simp) u
      exact abortSq_ends _ (rsWrote_tablesOk p sl hok) (by rwa [hcar]) (by rwa [hcar]) (by rwa [hcar]) (by rwa [hcar])
        (fun k hk => by cases hk)

end Sys2Proof.Proofs
end

section
/-! PROOFS. Plain carriages: a refutation (05_carriages.md). -/
namespace Sys2Proof.Proofs

open Sys2Proof.Machine Sys2Proof.Safety

/-- A taken QUERY_PROPOSAL while the vault's working copy is being loaded again (R384). -/
def reloadingState : State :=
  { chp := { inReset := false, mode := .running }
    car := { cars := [(0, { stage := .taken, entry := 0x32 :: List.replicate 63 0 })] }
    vlt := { mode := .normal, reload := true } }

/-- The CSN that an outcome leaves. -/
def csnAfter (r : Res) : Nat :=
  match r with
  | .next t => t.csn
  | _ => 0

/-- The carriage is held: its command takes no CSN. -/
theorem csnAfter_admission_reloading : csnAfter (exec (.admission 0) reloadingState) = 0 := by decide

/-- An admission of its own would end it refused, at a CSN. -/
theorem csn_runAdmission_reloading : (runAdmission 0 reloadingState).csn = 1 := by decide

/-- Refutes O17: its first clause has admission run where the vault is not CLOSED; while the working copy of the vault is
loaded again (`reload`, R384) a carriage that needs the vault is held instead, and nothing is sequenced. -/
theorem not_plainCarriagesComplete : ¬Obligations.PlainCarriagesComplete := by
  unfold Obligations.PlainCarriagesComplete
  rintro ⟨hadm, -⟩
  obtain ⟨hrun, -⟩ := hadm 0 reloadingState (by decide) (by decide) (by decide) (by decide) (by decide) (by decide)
  have h := congrArg csnAfter hrun
  rw [csnAfter_admission_reloading] at h
  exact absurd (h.trans csn_runAdmission_reloading) (by decide)

end Sys2Proof.Proofs
end

section
/-! SUPPORT. Working slots, masks and key-staging entries (09_key_slots_tickets_legacy.md). -/
namespace Sys2Proof.Laws

open Sys2Proof.Machine Sys2Proof.Safety

/-- A command whose trigger holds acts. -/
theorem onlyIf_pos {g : Bool} {s t : State} (h : g = true) : onlyIf g s t = .next t := by rw [onlyIf, if_pos h]

/-- A command whose trigger does not hold changes nothing. -/
theorem onlyIf_neg {g : Bool} {s t : State} (h : g = false) : onlyIf g s t = .next s := by rw [onlyIf, h]; rfl

/-- What holds of the default and of every value that the map gives holds of what the mapped table shows. -/
theorem tget_tmap_of {α : Type} [DecidableEq α] {P : α → Prop} (d : α) (f : Nat → α → α) (T : Tbl α) (k : Nat) (hd : P d)
    (hf : ∀ j v, P (f j v)) : P (tget d (tmap d f T) k) := by
  induction T with
  | nil => exact hd
  | cons e T ih =>
    obtain ⟨j, v⟩ := e
    simp only [tmap]
    split
    · exact ih
    · simp only [tget]
      split
      · exact hf j v
      · exact ih

/-- The slots are those of before where staging entries are taken. -/
@[simp] theorem slotOf_purgeStaging (f : KeyId → Bool) (i : Nat) (s : State) : slotOf (purgeStaging f s) i = slotOf s i := rfl

/-- No block of the state stages a key that passes the test. -/
def NoneStaged (f : KeyId → Bool) (s : State) : Prop :=
  ∀ r b, ((tget {} (workOf s r).blocks b).keys.any fun e => f e.id) = false

theorem purgeStaging_noneStaged (f : KeyId → Bool) (s : State) : NoneStaged f (purgeStaging f s) := by
  intro r
  refine tget_tmap_of (P := fun w : RegionWork => ∀ b, ((tget {} w.blocks b).keys.any fun e => f e.id) = false)
    {} _ s.cay.work r (fun b => rfl) (fun j w b => ?_)
  refine tget_tmap_of (P := fun y : Block => (y.keys.any fun e => f e.id) = false) {} _ w.blocks b rfl fun j y => ?_
  simp

/-- The masks come from the tender or the reserve: no slot changes for one. -/
theorem freshMask_slots (s : State) : (freshMask s).2.kst.slots = s.kst.slots := by
  unfold freshMask
  split
  · next b t h =>
    simp only [tenderTake] at h
    split at h
    · cases h; rfl
    · cases h
  · split <;> rfl

/-- A slot that `zeroiseSlot` zeroises (R206). -/
def zeroisedSlot (x : Slot) : Slot :=
  { x with
    state := .free, share0 := 0, share1 := 0, session := false, use := 0, unmasked := false
    retained := false, retGen := 0, retUse := 0, retShare0 := 0, retShare1 := 0, retBase := 0, retAt := 0 }

variable {i k : Nat} {s : State}

/-- A zeroised slot. -/
theorem slotOf_zeroiseSlot (i : Nat) (hw : twf {} s.kst.slots = true) :
    slotOf (zeroiseSlot i s) i = zeroisedSlot (slotOf s i) := slotOf_updSlot i zeroisedSlot s hw

/-- Zeroising a slot leaves the others. -/
theorem slotOf_zeroiseSlot_ne (h : k ≠ i) : slotOf (zeroiseSlot i s) k = slotOf s k :=
  slotOf_updSlot_ne i k zeroisedSlot s h

/-- Zeroising a slot takes every staging entry of it. -/
theorem zeroiseSlot_noneStaged (i : Nat) (s : State) :
    NoneStaged (fun k => match k with | .slot j _ => j == i | _ => false) (zeroiseSlot i s) := by
  unfold zeroiseSlot
  exact purgeStaging_noneStaged _ _

/-- A slot that `allocSlot` makes LIVE for the new key `n` under the mask `m` (R196, R197, R209). -/
def allocatedSlot (n : NewSlot) (m : Nat) (s : State) (x : Slot) : Slot :=
  { x with
    state := .live, gen := genNext x.gen, share0 := n.material ^^^ m, share1 := m, mlen := n.mlen
    engine := BitVec.ofNat 4 n.engine, usage := BitVec.ofNat 5 n.usage, session := n.session, sizeCode := n.size
    owner := n.owner, scope := n.scope, base := n.base, count := n.count, use := 0, retained := false
    unmasked := m == 0, maskStamp := s.now, maskPeriod := s.kst.remaskPeriod, pendStamp := 0 }

/-- An allocated slot. -/
theorem slotOf_allocSlot_eq (i : Nat) (n : NewSlot) (s : State) :
    slotOf (allocSlot i n s) i = allocatedSlot n (freshMask s).1 s (slotOf s i) := by
  have hs : slotOf (freshMask s).2 i = slotOf s i := by simp only [slotOf, freshMask_slots]
  have h := slotOf_updSlot_of i (allocatedSlot n (freshMask s).1 s) (freshMask s).2
    (fun h0 => by cases congrArg Slot.state h0)
  rw [hs] at h
  exact h

/-- The new slot holds a LIVE key under the next generation, with no user, and its shares combine to the material. -/
theorem slotOf_allocSlot (i : Nat) (n : NewSlot) (s : State) :
    (slotOf (allocSlot i n s) i).state = .live ∧ (slotOf (allocSlot i n s) i).gen = genNext (slotOf s i).gen ∧
    (slotOf (allocSlot i n s) i).use = 0 ∧
    (slotOf (allocSlot i n s) i).share0 ^^^ (slotOf (allocSlot i n s) i).share1 = n.material := by
  rw [slotOf_allocSlot_eq]
  exact ⟨rfl, rfl, rfl, by rw [allocatedSlot, Nat.xor_assoc, Nat.xor_self, Nat.xor_zero]⟩

/-- Allocating a slot leaves the others. -/
theorem slotOf_allocSlot_ne (n : NewSlot) (h : k ≠ i) : slotOf (allocSlot i n s) k = slotOf s k := by
  have hs : slotOf (freshMask s).2 k = slotOf s k := by simp only [slotOf, freshMask_slots]
  refine Eq.trans ?_ hs
  simp only [slotOf, allocSlot, updKst, updSlot]
  exact tget_tupd_ne _ _ _ _ _ h

end Sys2Proof.Laws
end

section
/-! PROOFS. Key limits and working slots (09_key_slots_tickets_legacy.md). -/
namespace Sys2Proof.Proofs

open Sys2Proof.Machine Sys2Proof.Safety Sys2Proof.Laws

/-- Settles O20: each limit that is reached acts. -/
theorem keyLimitsZeroise : Obligations.KeyLimitsZeroise := by
  unfold Obligations.KeyLimitsZeroise
  refine ⟨fun i s hp hF hr hn => ?_, fun i s hp hF hst hn => ?_, fun t o dek base count hit s hp hF hk hb hst hn => ?_,
    fun i s hok hp hu htag hn => ?_⟩
  · exact onlyIf_pos (by simp [hp, hF, hr, hn])
  · refine onlyIf_pos ?_
    rcases hst with h | h <;> simp [hp, hF, h, hn]
  · simp [exec, execTicketKeyExpiry, hk, onlyIf, hp, hF, hb, hst, hn]
  · have he : exec (.shadowExpiry i) s = .next (updCar (fun c => { c with shadows := tset {} c.shadows i {} }) s) := by
      simp only [exec, execShadowExpiry]
      refine onlyIf_pos ?_
      cases ht : (tget {} s.car.shadows i).tag with
      | none => simp [hp, hu, hn]
      | some u => simp [hp, hu, hn, htag u ht]
    have hw := (tablesOk_parts s hok).2.2.2.1
    exact ⟨_, he, tget_tset_same {} s.car.shadows i {} hw, rfl, rfl, fun j hj => tget_tset_ne {} s.car.shadows i j {} hj⟩

/-- A slot that is free has no material. -/
theorem materialOf_free {s : State} {i : Nat} (h : (slotOf s i).state = .free) (g : Nat) : materialOf s i g = none := by
  simp [materialOf, h]

/-- Settles O21: what zeroising, marking and allocating make of a slot. -/
theorem slotsHoldMaterialOnlyWhileAllocated : Obligations.SlotsHoldMaterialOnlyWhileAllocated := by
  unfold Obligations.SlotsHoldMaterialOnlyWhileAllocated
  refine ⟨fun i s hok => ⟨?_, fun st hu hst => ?_, fun hu hst => ?_⟩, fun i n s => ?_⟩
  · have hz := slotOf_zeroiseSlot (s := s) i (tablesOk_parts s hok).2.2.2.2.2.2.2.2.2.2.1
    have hn := zeroiseSlot_noneStaged i s
    dsimp only
    rw [hz]
    refine ⟨rfl, rfl, rfl, rfl, rfl, rfl, rfl, materialOf_free (by rw [hz]; rfl), fun k hk => slotOf_zeroiseSlot_ne hk,
      fun r b g => ?_⟩
    refine List.any_eq_false.mpr fun e he hid => ?_
    have := List.any_eq_false.mp (hn r b) e he
    rw [beq_iff_eq.mp hid] at this
    simp at this
  · simp [markSlot, hst, hu]
  · have he : markSlot .pending i s = updSlot i (fun x => { x with
        state := .pending, session := false, pendStamp := if x.state == .live then s.now else x.pendStamp }) s := by
      simp [markSlot, hst, hu]
    rw [he, slotOf_updSlot_of _ _ _ (fun h0 => by cases congrArg Slot.state h0)]
    simp [hst]
  · obtain ⟨hst, hg, hu, hm⟩ := slotOf_allocSlot i n s
    refine ⟨hst, hg, hu, hm, ?_, fun k hk => slotOf_allocSlot_ne n hk⟩
    simp [materialOf, hst, hg, hm]

end Sys2Proof.Proofs
end

section
/-! SUPPORT. What alarms, FAULT and the end of a tick leave of the state. -/
namespace Sys2Proof.Laws

open Sys2Proof.Machine Sys2Proof.Safety

/-- What `grantEnd` leaves. -/
@[simp] theorem grantEnd_frame (s : State) :
    (grantEnd s).pending = s.pending ∧ (grantEnd s).out = s.out ∧ (grantEnd s).free = s.free ∧
    (grantEnd s).now = s.now ∧ (grantEnd s).csn = s.csn ∧ (grantEnd s).chp = s.chp ∧ (grantEnd s).pins = s.pins ∧
    (grantEnd s).hpt = s.hpt ∧ (grantEnd s).stats = s.stats ∧ (grantEnd s).win = s.win ∧ (grantEnd s).ttb = s.ttb ∧
    (grantEnd s).car = s.car ∧ (grantEnd s).cay = s.cay ∧ (grantEnd s).mdf = s.mdf ∧ (grantEnd s).kst = s.kst ∧
    (grantEnd s).leg = s.leg ∧ (grantEnd s).vlt = s.vlt ∧ (grantEnd s).slc = s.slc ∧ (grantEnd s).evr = s.evr ∧
    (grantEnd s).lat = s.lat ∧ (grantEnd s).bnv = s.bnv ∧ (grantEnd s).ucp = s.ucp ∧ (grantEnd s).tmp = s.tmp ∧
    (grantEnd s).bbr = s.bbr ∧ (grantEnd s).fuses = s.fuses ∧ (grantEnd s).mnf = s.mnf ∧
    (grantEnd s).flash = s.flash ∧ (grantEnd s).fwu = s.fwu ∧ (grantEnd s).drb = s.drb ∧ (grantEnd s).mem = s.mem ∧
    (grantEnd s).gov = s.gov ∧ (grantEnd s).shown = s.shown := by
  simp [grantEnd]

/-- What `debugLost` leaves. -/
@[simp] theorem debugLost_frame (s : State) :
    (debugLost s).pending = s.pending ∧ (debugLost s).out = s.out ∧ (debugLost s).free = s.free ∧
    (debugLost s).now = s.now ∧ (debugLost s).csn = s.csn ∧ (debugLost s).chp = s.chp ∧ (debugLost s).pins = s.pins ∧
    (debugLost s).hpt = s.hpt ∧ (debugLost s).stats = s.stats ∧ (debugLost s).win = s.win ∧
    (debugLost s).ttb = s.ttb ∧ (debugLost s).car = s.car ∧ (debugLost s).cay = s.cay ∧ (debugLost s).mdf = s.mdf ∧
    (debugLost s).kst = s.kst ∧ (debugLost s).leg = s.leg ∧ (debugLost s).vlt = s.vlt ∧ (debugLost s).slc = s.slc ∧
    (debugLost s).evr = s.evr ∧ (debugLost s).rng = s.rng ∧ (debugLost s).bnv = s.bnv ∧ (debugLost s).ucp = s.ucp ∧
    (debugLost s).wld = s.wld ∧ (debugLost s).tmp = s.tmp ∧ (debugLost s).bbr = s.bbr ∧
    (debugLost s).fuses = s.fuses ∧ (debugLost s).mnf = s.mnf ∧ (debugLost s).flash = s.flash ∧
    (debugLost s).fwu = s.fwu ∧ (debugLost s).drb = s.drb ∧ (debugLost s).mem = s.mem ∧ (debugLost s).gov = s.gov ∧
    (debugLost s).shown = s.shown := by
  simp [debugLost]

/-- What `faultCarriages` leaves. -/
@[simp] theorem faultCarriages_frame (s : State) :
    (faultCarriages s).pending = s.pending ∧ (faultCarriages s).free = s.free ∧ (faultCarriages s).now = s.now ∧
    (faultCarriages s).chp = s.chp ∧ (faultCarriages s).pins = s.pins ∧ (faultCarriages s).hpt = s.hpt ∧
    (faultCarriages s).win = s.win ∧ (faultCarriages s).ttb = s.ttb ∧ (faultCarriages s).leg = s.leg ∧
    (faultCarriages s).evr = s.evr ∧ (faultCarriages s).ucp = s.ucp ∧ (faultCarriages s).wld = s.wld ∧
    (faultCarriages s).tmp = s.tmp ∧ (faultCarriages s).bbr = s.bbr ∧ (faultCarriages s).lcs = s.lcs ∧
    (faultCarriages s).fuses = s.fuses ∧ (faultCarriages s).mnf = s.mnf ∧ (faultCarriages s).flash = s.flash ∧
    (faultCarriages s).fwu = s.fwu ∧ (faultCarriages s).drb = s.drb ∧ (faultCarriages s).mem = s.mem ∧
    (faultCarriages s).gov = s.gov ∧ (faultCarriages s).shown = s.shown := by
  simp [faultCarriages]

/-- What `zeroiseKeys` leaves. -/
@[simp] theorem zeroiseKeys_frame (s : State) :
    (zeroiseKeys s).pending = s.pending ∧ (zeroiseKeys s).out = s.out ∧ (zeroiseKeys s).free = s.free ∧
    (zeroiseKeys s).now = s.now ∧ (zeroiseKeys s).csn = s.csn ∧ (zeroiseKeys s).chp = s.chp ∧
    (zeroiseKeys s).pins = s.pins ∧ (zeroiseKeys s).hpt = s.hpt ∧ (zeroiseKeys s).stats = s.stats ∧
    (zeroiseKeys s).win = s.win ∧ (zeroiseKeys s).ttb = s.ttb ∧ (zeroiseKeys s).mdf = s.mdf ∧
    (zeroiseKeys s).leg = s.leg ∧ (zeroiseKeys s).vlt = s.vlt ∧ (zeroiseKeys s).slc = s.slc ∧
    (zeroiseKeys s).evr = s.evr ∧ (zeroiseKeys s).rng = s.rng ∧ (zeroiseKeys s).lat = s.lat ∧
    (zeroiseKeys s).bnv = s.bnv ∧ (zeroiseKeys s).ucp = s.ucp ∧ (zeroiseKeys s).wld = s.wld ∧
    (zeroiseKeys s).tmp = s.tmp ∧ (zeroiseKeys s).bbr = s.bbr ∧ (zeroiseKeys s).lcs = s.lcs ∧
    (zeroiseKeys s).fuses = s.fuses ∧ (zeroiseKeys s).mnf = s.mnf ∧ (zeroiseKeys s).flash = s.flash ∧
    (zeroiseKeys s).fwu = s.fwu ∧ (zeroiseKeys s).drb = s.drb ∧ (zeroiseKeys s).mem = s.mem ∧
    (zeroiseKeys s).gov = s.gov ∧ (zeroiseKeys s).shown = s.shown := by
  simp [zeroiseKeys]

/-- What `legErase` leaves. -/
@[simp] theorem legErase_frame (code status : Nat) (s : State) :
    (legErase code status s).pending = s.pending ∧ (legErase code status s).free = s.free ∧
    (legErase code status s).now = s.now ∧ (legErase code status s).chp = s.chp ∧
    (legErase code status s).pins = s.pins ∧ (legErase code status s).win = s.win ∧
    (legErase code status s).ttb = s.ttb ∧ (legErase code status s).ucp = s.ucp ∧
    (legErase code status s).wld = s.wld ∧ (legErase code status s).tmp = s.tmp ∧
    (legErase code status s).bbr = s.bbr ∧ (legErase code status s).lcs = s.lcs ∧
    (legErase code status s).fuses = s.fuses ∧ (legErase code status s).mnf = s.mnf ∧
    (legErase code status s).flash = s.flash ∧ (legErase code status s).fwu = s.fwu ∧
    (legErase code status s).drb = s.drb ∧ (legErase code status s).mem = s.mem ∧
    (legErase code status s).gov = s.gov ∧ (legErase code status s).shown = s.shown := by
  simp [legErase]

/-- What `updChan` leaves. -/
@[simp] theorem updChan_frame (p : Port) (f : BnvChan → BnvChan) (s : State) :
    (updChan p f s).pending = s.pending ∧ (updChan p f s).out = s.out ∧ (updChan p f s).free = s.free ∧
    (updChan p f s).now = s.now ∧ (updChan p f s).csn = s.csn ∧ (updChan p f s).chp = s.chp ∧
    (updChan p f s).pins = s.pins ∧ (updChan p f s).hpt = s.hpt ∧ (updChan p f s).stats = s.stats ∧
    (updChan p f s).win = s.win ∧ (updChan p f s).ttb = s.ttb ∧ (updChan p f s).car = s.car ∧
    (updChan p f s).cay = s.cay ∧ (updChan p f s).mdf = s.mdf ∧ (updChan p f s).kst = s.kst ∧
    (updChan p f s).leg = s.leg ∧ (updChan p f s).vlt = s.vlt ∧ (updChan p f s).slc = s.slc ∧
    (updChan p f s).evr = s.evr ∧ (updChan p f s).rng = s.rng ∧ (updChan p f s).lat = s.lat ∧
    (updChan p f s).ucp = s.ucp ∧ (updChan p f s).wld = s.wld ∧ (updChan p f s).tmp = s.tmp ∧
    (updChan p f s).bbr = s.bbr ∧ (updChan p f s).lcs = s.lcs ∧ (updChan p f s).fuses = s.fuses ∧
    (updChan p f s).mnf = s.mnf ∧ (updChan p f s).flash = s.flash ∧ (updChan p f s).fwu = s.fwu ∧
    (updChan p f s).drb = s.drb ∧ (updChan p f s).mem = s.mem ∧ (updChan p f s).gov = s.gov ∧
    (updChan p f s).shown = s.shown := by
  simp [updChan]

/-- What `chanZeroise` leaves. -/
@[simp] theorem chanZeroise_frame (p : Port) (status : Nat) (s : State) :
    (chanZeroise p status s).pending = s.pending ∧ (chanZeroise p status s).out = s.out ∧
    (chanZeroise p status s).free = s.free ∧ (chanZeroise p status s).now = s.now ∧
    (chanZeroise p status s).csn = s.csn ∧ (chanZeroise p status s).chp = s.chp ∧
    (chanZeroise p status s).pins = s.pins ∧ (chanZeroise p status s).hpt = s.hpt ∧
    (chanZeroise p status s).stats = s.stats ∧ (chanZeroise p status s).win = s.win ∧
    (chanZeroise p status s).ttb = s.ttb ∧ (chanZeroise p status s).car = s.car ∧
    (chanZeroise p status s).cay = s.cay ∧ (chanZeroise p status s).mdf = s.mdf ∧
    (chanZeroise p status s).kst = s.kst ∧ (chanZeroise p status s).leg = s.leg ∧
    (chanZeroise p status s).vlt = s.vlt ∧ (chanZeroise p status s).slc = s.slc ∧
    (chanZeroise p status s).evr = s.evr ∧ (chanZeroise p status s).rng = s.rng ∧
    (chanZeroise p status s).lat = s.lat ∧ (chanZeroise p status s).ucp = s.ucp ∧
    (chanZeroise p status s).wld = s.wld ∧ (chanZeroise p status s).tmp = s.tmp ∧
    (chanZeroise p status s).bbr = s.bbr ∧ (chanZeroise p status s).lcs = s.lcs ∧
    (chanZeroise p status s).fuses = s.fuses ∧ (chanZeroise p status s).mnf = s.mnf ∧
    (chanZeroise p status s).flash = s.flash ∧ (chanZeroise p status s).fwu = s.fwu ∧
    (chanZeroise p status s).drb = s.drb ∧ (chanZeroise p status s).mem = s.mem ∧
    (chanZeroise p status s).gov = s.gov ∧ (chanZeroise p status s).shown = s.shown := by
  simp [chanZeroise]

/-- What `flushStart` leaves. -/
@[simp] theorem flushStart_frame (hold : Bool) (s : State) :
    (flushStart hold s).pending = s.pending ∧ (flushStart hold s).out = s.out ∧ (flushStart hold s).free = s.free ∧
    (flushStart hold s).now = s.now ∧ (flushStart hold s).csn = s.csn ∧ (flushStart hold s).chp = s.chp ∧
    (flushStart hold s).pins = s.pins ∧ (flushStart hold s).hpt = s.hpt ∧ (flushStart hold s).stats = s.stats ∧
    (flushStart hold s).win = s.win ∧ (flushStart hold s).ttb = s.ttb ∧ (flushStart hold s).car = s.car ∧
    (flushStart hold s).cay = s.cay ∧ (flushStart hold s).mdf = s.mdf ∧ (flushStart hold s).kst = s.kst ∧
    (flushStart hold s).leg = s.leg ∧ (flushStart hold s).vlt = s.vlt ∧ (flushStart hold s).slc = s.slc ∧
    (flushStart hold s).rng = s.rng ∧ (flushStart hold s).lat = s.lat ∧ (flushStart hold s).bnv = s.bnv ∧
    (flushStart hold s).ucp = s.ucp ∧ (flushStart hold s).wld = s.wld ∧ (flushStart hold s).tmp = s.tmp ∧
    (flushStart hold s).bbr = s.bbr ∧ (flushStart hold s).lcs = s.lcs ∧ (flushStart hold s).fuses = s.fuses ∧
    (flushStart hold s).mnf = s.mnf ∧ (flushStart hold s).flash = s.flash ∧ (flushStart hold s).fwu = s.fwu ∧
    (flushStart hold s).drb = s.drb ∧ (flushStart hold s).mem = s.mem ∧ (flushStart hold s).gov = s.gov ∧
    (flushStart hold s).shown = s.shown := by
  simp [flushStart]

/-- What `keepShown` leaves. -/
@[simp] theorem keepShown_frame (s : State) :
    (keepShown s).pending = s.pending ∧ (keepShown s).out = s.out ∧ (keepShown s).free = s.free ∧
    (keepShown s).now = s.now ∧ (keepShown s).csn = s.csn ∧ (keepShown s).chp = s.chp ∧ (keepShown s).pins = s.pins ∧
    (keepShown s).hpt = s.hpt ∧ (keepShown s).stats = s.stats ∧ (keepShown s).win = s.win ∧
    (keepShown s).ttb = s.ttb ∧ (keepShown s).car = s.car ∧ (keepShown s).cay = s.cay ∧ (keepShown s).mdf = s.mdf ∧
    (keepShown s).kst = s.kst ∧ (keepShown s).leg = s.leg ∧ (keepShown s).vlt = s.vlt ∧ (keepShown s).slc = s.slc ∧
    (keepShown s).evr = s.evr ∧ (keepShown s).rng = s.rng ∧ (keepShown s).lat = s.lat ∧ (keepShown s).bnv = s.bnv ∧
    (keepShown s).ucp = s.ucp ∧ (keepShown s).wld = s.wld ∧ (keepShown s).tmp = s.tmp ∧ (keepShown s).bbr = s.bbr ∧
    (keepShown s).lcs = s.lcs ∧ (keepShown s).fuses = s.fuses ∧ (keepShown s).mnf = s.mnf ∧
    (keepShown s).flash = s.flash ∧ (keepShown s).fwu = s.fwu ∧ (keepShown s).drb = s.drb ∧
    (keepShown s).mem = s.mem ∧ (keepShown s).gov = s.gov := by
  simp [keepShown]

/-- What `enterFault` leaves. -/
@[simp] theorem enterFault_frame (cause : Nat) (s : State) :
    (enterFault cause s).pending = s.pending ∧ (enterFault cause s).free = s.free ∧ (enterFault cause s).now = s.now ∧
    (enterFault cause s).pins = s.pins ∧ (enterFault cause s).ttb = s.ttb ∧ (enterFault cause s).tmp = s.tmp ∧
    (enterFault cause s).bbr = s.bbr ∧ (enterFault cause s).fuses = s.fuses ∧ (enterFault cause s).mnf = s.mnf ∧
    (enterFault cause s).flash = s.flash ∧ (enterFault cause s).fwu = s.fwu ∧ (enterFault cause s).drb = s.drb ∧
    (enterFault cause s).mem = s.mem ∧ (enterFault cause s).gov = s.gov := by
  simp [enterFault]

/-- What `stopTags` leaves. -/
@[simp] theorem stopTags_frame (ts : List Nat) (s : State) :
    (stopTags ts s).pending = s.pending ∧ (stopTags ts s).free = s.free ∧ (stopTags ts s).now = s.now ∧
    (stopTags ts s).chp = s.chp ∧ (stopTags ts s).pins = s.pins ∧ (stopTags ts s).hpt = s.hpt ∧
    (stopTags ts s).win = s.win ∧ (stopTags ts s).ttb = s.ttb ∧ (stopTags ts s).leg = s.leg ∧
    (stopTags ts s).ucp = s.ucp ∧ (stopTags ts s).wld = s.wld ∧ (stopTags ts s).tmp = s.tmp ∧
    (stopTags ts s).bbr = s.bbr ∧ (stopTags ts s).lcs = s.lcs ∧ (stopTags ts s).fuses = s.fuses ∧
    (stopTags ts s).mnf = s.mnf ∧ (stopTags ts s).flash = s.flash ∧ (stopTags ts s).fwu = s.fwu ∧
    (stopTags ts s).drb = s.drb ∧ (stopTags ts s).mem = s.mem ∧ (stopTags ts s).gov = s.gov ∧
    (stopTags ts s).shown = s.shown := by
  simp [stopTags]

/-- What `ucpClear` leaves. -/
@[simp] theorem ucpClear_frame (forced : Bool) (s : State) :
    (ucpClear forced s).pending = s.pending ∧ (ucpClear forced s).out = s.out ∧ (ucpClear forced s).free = s.free ∧
    (ucpClear forced s).now = s.now ∧ (ucpClear forced s).csn = s.csn ∧ (ucpClear forced s).chp = s.chp ∧
    (ucpClear forced s).pins = s.pins ∧ (ucpClear forced s).hpt = s.hpt ∧ (ucpClear forced s).stats = s.stats ∧
    (ucpClear forced s).win = s.win ∧ (ucpClear forced s).ttb = s.ttb ∧ (ucpClear forced s).car = s.car ∧
    (ucpClear forced s).cay = s.cay ∧ (ucpClear forced s).mdf = s.mdf ∧ (ucpClear forced s).kst = s.kst ∧
    (ucpClear forced s).leg = s.leg ∧ (ucpClear forced s).vlt = s.vlt ∧ (ucpClear forced s).slc = s.slc ∧
    (ucpClear forced s).evr = s.evr ∧ (ucpClear forced s).rng = s.rng ∧ (ucpClear forced s).lat = s.lat ∧
    (ucpClear forced s).bnv = s.bnv ∧ (ucpClear forced s).wld = s.wld ∧ (ucpClear forced s).tmp = s.tmp ∧
    (ucpClear forced s).bbr = s.bbr ∧ (ucpClear forced s).lcs = s.lcs ∧ (ucpClear forced s).fuses = s.fuses ∧
    (ucpClear forced s).mnf = s.mnf ∧ (ucpClear forced s).flash = s.flash ∧ (ucpClear forced s).fwu = s.fwu ∧
    (ucpClear forced s).drb = s.drb ∧ (ucpClear forced s).mem = s.mem ∧ (ucpClear forced s).gov = s.gov ∧
    (ucpClear forced s).shown = s.shown := by
  simp [ucpClear]

/-- What `eraseAB` leaves. -/
@[simp] theorem eraseAB_frame (s : State) :
    (eraseAB s).pending = s.pending ∧ (eraseAB s).free = s.free ∧ (eraseAB s).now = s.now ∧ (eraseAB s).chp = s.chp ∧
    (eraseAB s).pins = s.pins ∧ (eraseAB s).ttb = s.ttb ∧ (eraseAB s).wld = s.wld ∧ (eraseAB s).tmp = s.tmp ∧
    (eraseAB s).bbr = s.bbr ∧ (eraseAB s).fuses = s.fuses ∧ (eraseAB s).mnf = s.mnf ∧ (eraseAB s).flash = s.flash ∧
    (eraseAB s).fwu = s.fwu ∧ (eraseAB s).drb = s.drb ∧ (eraseAB s).mem = s.mem ∧ (eraseAB s).gov = s.gov ∧
    (eraseAB s).shown = s.shown := by
  unfold eraseAB
  repeat' split
  all_goals simp

/-- What `rngZeroise` leaves. -/
@[simp] theorem rngZeroise_frame (s : State) :
    (rngZeroise s).pending = s.pending ∧ (rngZeroise s).out = s.out ∧ (rngZeroise s).free = s.free ∧
    (rngZeroise s).now = s.now ∧ (rngZeroise s).csn = s.csn ∧ (rngZeroise s).chp = s.chp ∧
    (rngZeroise s).pins = s.pins ∧ (rngZeroise s).hpt = s.hpt ∧ (rngZeroise s).stats = s.stats ∧
    (rngZeroise s).win = s.win ∧ (rngZeroise s).ttb = s.ttb ∧ (rngZeroise s).car = s.car ∧
    (rngZeroise s).cay = s.cay ∧ (rngZeroise s).mdf = s.mdf ∧ (rngZeroise s).leg = s.leg ∧
    (rngZeroise s).vlt = s.vlt ∧ (rngZeroise s).slc = s.slc ∧ (rngZeroise s).evr = s.evr ∧
    (rngZeroise s).lat = s.lat ∧ (rngZeroise s).bnv = s.bnv ∧ (rngZeroise s).ucp = s.ucp ∧
    (rngZeroise s).wld = s.wld ∧ (rngZeroise s).tmp = s.tmp ∧ (rngZeroise s).bbr = s.bbr ∧
    (rngZeroise s).lcs = s.lcs ∧ (rngZeroise s).fuses = s.fuses ∧ (rngZeroise s).mnf = s.mnf ∧
    (rngZeroise s).flash = s.flash ∧ (rngZeroise s).fwu = s.fwu ∧ (rngZeroise s).drb = s.drb ∧
    (rngZeroise s).mem = s.mem ∧ (rngZeroise s).gov = s.gov ∧ (rngZeroise s).shown = s.shown := by
  simp [rngZeroise]

/-- What `closeProps` leaves. -/
@[simp] theorem closeProps_frame (s : State) :
    (closeProps s).pending = s.pending ∧ (closeProps s).free = s.free ∧ (closeProps s).now = s.now ∧
    (closeProps s).chp = s.chp ∧ (closeProps s).pins = s.pins ∧ (closeProps s).hpt = s.hpt ∧
    (closeProps s).ttb = s.ttb ∧ (closeProps s).leg = s.leg ∧ (closeProps s).wld = s.wld ∧
    (closeProps s).tmp = s.tmp ∧ (closeProps s).bbr = s.bbr ∧ (closeProps s).lcs = s.lcs ∧
    (closeProps s).fuses = s.fuses ∧ (closeProps s).mnf = s.mnf ∧ (closeProps s).flash = s.flash ∧
    (closeProps s).fwu = s.fwu ∧ (closeProps s).drb = s.drb ∧ (closeProps s).mem = s.mem ∧
    (closeProps s).gov = s.gov ∧ (closeProps s).shown = s.shown := by
  simp [closeProps]

/-- What `eraseA` leaves. -/
@[simp] theorem eraseA_frame (s : State) :
    (eraseA s).pending = s.pending ∧ (eraseA s).free = s.free ∧ (eraseA s).now = s.now ∧ (eraseA s).chp = s.chp ∧
    (eraseA s).pins = s.pins ∧ (eraseA s).hpt = s.hpt ∧ (eraseA s).ttb = s.ttb ∧ (eraseA s).leg = s.leg ∧
    (eraseA s).wld = s.wld ∧ (eraseA s).tmp = s.tmp ∧ (eraseA s).lcs = s.lcs ∧ (eraseA s).fuses = s.fuses ∧
    (eraseA s).mnf = s.mnf ∧ (eraseA s).flash = s.flash ∧ (eraseA s).fwu = s.fwu ∧ (eraseA s).drb = s.drb ∧
    (eraseA s).mem = s.mem ∧ (eraseA s).gov = s.gov ∧ (eraseA s).shown = s.shown := by
  simp [eraseA]

/-- What `vaultRecord` leaves. -/
@[simp] theorem vaultRecord_frame (s : State) :
    (vaultRecord s).pending = s.pending ∧ (vaultRecord s).out = s.out ∧ (vaultRecord s).free = s.free ∧
    (vaultRecord s).now = s.now ∧ (vaultRecord s).csn = s.csn ∧ (vaultRecord s).chp = s.chp ∧
    (vaultRecord s).pins = s.pins ∧ (vaultRecord s).hpt = s.hpt ∧ (vaultRecord s).stats = s.stats ∧
    (vaultRecord s).win = s.win ∧ (vaultRecord s).ttb = s.ttb ∧ (vaultRecord s).car = s.car ∧
    (vaultRecord s).cay = s.cay ∧ (vaultRecord s).mdf = s.mdf ∧ (vaultRecord s).kst = s.kst ∧
    (vaultRecord s).leg = s.leg ∧ (vaultRecord s).vlt = s.vlt ∧ (vaultRecord s).slc = s.slc ∧
    (vaultRecord s).rng = s.rng ∧ (vaultRecord s).lat = s.lat ∧ (vaultRecord s).bnv = s.bnv ∧
    (vaultRecord s).ucp = s.ucp ∧ (vaultRecord s).wld = s.wld ∧ (vaultRecord s).tmp = s.tmp ∧
    (vaultRecord s).bbr = s.bbr ∧ (vaultRecord s).lcs = s.lcs ∧ (vaultRecord s).fuses = s.fuses ∧
    (vaultRecord s).mnf = s.mnf ∧ (vaultRecord s).flash = s.flash ∧ (vaultRecord s).fwu = s.fwu ∧
    (vaultRecord s).drb = s.drb ∧ (vaultRecord s).mem = s.mem ∧ (vaultRecord s).gov = s.gov ∧
    (vaultRecord s).shown = s.shown := by
  simp [vaultRecord]

/-- What `vaultTo` leaves. -/
@[simp] theorem vaultTo_frame (m : VaultMode) (cause : Nat) (s : State) :
    (vaultTo m cause s).pending = s.pending ∧ (vaultTo m cause s).free = s.free ∧ (vaultTo m cause s).now = s.now ∧
    (vaultTo m cause s).chp = s.chp ∧ (vaultTo m cause s).pins = s.pins ∧ (vaultTo m cause s).ttb = s.ttb ∧
    (vaultTo m cause s).leg = s.leg ∧ (vaultTo m cause s).wld = s.wld ∧ (vaultTo m cause s).tmp = s.tmp ∧
    (vaultTo m cause s).bbr = s.bbr ∧ (vaultTo m cause s).lcs = s.lcs ∧ (vaultTo m cause s).fuses = s.fuses ∧
    (vaultTo m cause s).mnf = s.mnf ∧ (vaultTo m cause s).flash = s.flash ∧ (vaultTo m cause s).fwu = s.fwu ∧
    (vaultTo m cause s).drb = s.drb ∧ (vaultTo m cause s).mem = s.mem ∧ (vaultTo m cause s).gov = s.gov ∧
    (vaultTo m cause s).shown = s.shown := by
  simp [vaultTo]

/-- What `stopAfter` leaves. -/
@[simp] theorem stopAfter_frame (isA isAB : Bool) (s : State) :
    (stopAfter isA isAB s).pending = s.pending ∧ (stopAfter isA isAB s).free = s.free ∧
    (stopAfter isA isAB s).now = s.now ∧ (stopAfter isA isAB s).chp = s.chp ∧ (stopAfter isA isAB s).pins = s.pins ∧
    (stopAfter isA isAB s).ttb = s.ttb ∧ (stopAfter isA isAB s).leg = s.leg ∧ (stopAfter isA isAB s).wld = s.wld ∧
    (stopAfter isA isAB s).bbr = s.bbr ∧ (stopAfter isA isAB s).lcs = s.lcs ∧ (stopAfter isA isAB s).fuses = s.fuses ∧
    (stopAfter isA isAB s).mnf = s.mnf ∧ (stopAfter isA isAB s).flash = s.flash ∧ (stopAfter isA isAB s).fwu = s.fwu ∧
    (stopAfter isA isAB s).drb = s.drb ∧ (stopAfter isA isAB s).mem = s.mem ∧ (stopAfter isA isAB s).gov = s.gov ∧
    (stopAfter isA isAB s).shown = s.shown := by
  simp [stopAfter]

/-- What `bufferAlarm` leaves. -/
@[simp] theorem bufferAlarm_frame (r : Bytes) (s : State) :
    (bufferAlarm r s).pending = s.pending ∧ (bufferAlarm r s).out = s.out ∧ (bufferAlarm r s).free = s.free ∧
    (bufferAlarm r s).now = s.now ∧ (bufferAlarm r s).csn = s.csn ∧ (bufferAlarm r s).chp = s.chp ∧
    (bufferAlarm r s).pins = s.pins ∧ (bufferAlarm r s).hpt = s.hpt ∧ (bufferAlarm r s).stats = s.stats ∧
    (bufferAlarm r s).win = s.win ∧ (bufferAlarm r s).ttb = s.ttb ∧ (bufferAlarm r s).car = s.car ∧
    (bufferAlarm r s).cay = s.cay ∧ (bufferAlarm r s).mdf = s.mdf ∧ (bufferAlarm r s).kst = s.kst ∧
    (bufferAlarm r s).leg = s.leg ∧ (bufferAlarm r s).vlt = s.vlt ∧ (bufferAlarm r s).slc = s.slc ∧
    (bufferAlarm r s).evr = s.evr ∧ (bufferAlarm r s).rng = s.rng ∧ (bufferAlarm r s).lat = s.lat ∧
    (bufferAlarm r s).bnv = s.bnv ∧ (bufferAlarm r s).ucp = s.ucp ∧ (bufferAlarm r s).wld = s.wld ∧
    (bufferAlarm r s).tmp = s.tmp ∧ (bufferAlarm r s).lcs = s.lcs ∧ (bufferAlarm r s).fuses = s.fuses ∧
    (bufferAlarm r s).mnf = s.mnf ∧ (bufferAlarm r s).flash = s.flash ∧ (bufferAlarm r s).fwu = s.fwu ∧
    (bufferAlarm r s).drb = s.drb ∧ (bufferAlarm r s).mem = s.mem ∧ (bufferAlarm r s).gov = s.gov ∧
    (bufferAlarm r s).shown = s.shown := by
  unfold bufferAlarm
  repeat' split
  all_goals simp

/-- What `writeAlarms` leaves. -/
@[simp] theorem writeAlarms_frame (r : AlarmResp) (s : State) :
    (writeAlarms r s).pending = s.pending ∧ (writeAlarms r s).out = s.out ∧ (writeAlarms r s).free = s.free ∧
    (writeAlarms r s).now = s.now ∧ (writeAlarms r s).csn = s.csn ∧ (writeAlarms r s).chp = s.chp ∧
    (writeAlarms r s).pins = s.pins ∧ (writeAlarms r s).hpt = s.hpt ∧ (writeAlarms r s).stats = s.stats ∧
    (writeAlarms r s).win = s.win ∧ (writeAlarms r s).ttb = s.ttb ∧ (writeAlarms r s).car = s.car ∧
    (writeAlarms r s).cay = s.cay ∧ (writeAlarms r s).mdf = s.mdf ∧ (writeAlarms r s).kst = s.kst ∧
    (writeAlarms r s).leg = s.leg ∧ (writeAlarms r s).vlt = s.vlt ∧ (writeAlarms r s).slc = s.slc ∧
    (writeAlarms r s).rng = s.rng ∧ (writeAlarms r s).lat = s.lat ∧ (writeAlarms r s).bnv = s.bnv ∧
    (writeAlarms r s).ucp = s.ucp ∧ (writeAlarms r s).wld = s.wld ∧ (writeAlarms r s).tmp = s.tmp ∧
    (writeAlarms r s).lcs = s.lcs ∧ (writeAlarms r s).fuses = s.fuses ∧ (writeAlarms r s).mnf = s.mnf ∧
    (writeAlarms r s).flash = s.flash ∧ (writeAlarms r s).fwu = s.fwu ∧ (writeAlarms r s).drb = s.drb ∧
    (writeAlarms r s).mem = s.mem ∧ (writeAlarms r s).gov = s.gov ∧ (writeAlarms r s).shown = s.shown := by
  simp [writeAlarms]

/-- What `finishResponse` leaves. -/
@[simp] theorem finishResponse_frame (s : State) :
    (finishResponse s).pending = s.pending ∧ (finishResponse s).free = s.free ∧ (finishResponse s).now = s.now ∧
    (finishResponse s).chp = s.chp ∧ (finishResponse s).pins = s.pins ∧ (finishResponse s).ttb = s.ttb ∧
    (finishResponse s).wld = s.wld ∧ (finishResponse s).fuses = s.fuses ∧ (finishResponse s).mnf = s.mnf ∧
    (finishResponse s).flash = s.flash ∧ (finishResponse s).fwu = s.fwu ∧ (finishResponse s).drb = s.drb ∧
    (finishResponse s).mem = s.mem ∧ (finishResponse s).gov = s.gov ∧ (finishResponse s).shown = s.shown := by
  unfold finishResponse
  repeat' split
  all_goals simp

/-- What `respDue` leaves. -/
@[simp] theorem respDue_frame (s : State) :
    (respDue s).pending = s.pending ∧ (respDue s).free = s.free ∧ (respDue s).now = s.now ∧ (respDue s).chp = s.chp ∧
    (respDue s).pins = s.pins ∧ (respDue s).ttb = s.ttb ∧ (respDue s).wld = s.wld ∧ (respDue s).fuses = s.fuses ∧
    (respDue s).mnf = s.mnf ∧ (respDue s).flash = s.flash ∧ (respDue s).fwu = s.fwu ∧ (respDue s).drb = s.drb ∧
    (respDue s).mem = s.mem ∧ (respDue s).gov = s.gov ∧ (respDue s).shown = s.shown := by
  unfold respDue
  repeat' split
  all_goals simp

/-- What `lightEnd` leaves. -/
@[simp] theorem lightEnd_frame (s : State) :
    (lightEnd s).pending = s.pending ∧ (lightEnd s).free = s.free ∧ (lightEnd s).now = s.now ∧
    (lightEnd s).chp = s.chp ∧ (lightEnd s).pins = s.pins ∧ (lightEnd s).hpt = s.hpt ∧ (lightEnd s).ttb = s.ttb ∧
    (lightEnd s).leg = s.leg ∧ (lightEnd s).wld = s.wld ∧ (lightEnd s).lcs = s.lcs ∧ (lightEnd s).fuses = s.fuses ∧
    (lightEnd s).mnf = s.mnf ∧ (lightEnd s).flash = s.flash ∧ (lightEnd s).fwu = s.fwu ∧ (lightEnd s).drb = s.drb ∧
    (lightEnd s).mem = s.mem ∧ (lightEnd s).gov = s.gov ∧ (lightEnd s).shown = s.shown := by
  unfold lightEnd
  dsimp only
  repeat' split
  all_goals simp

/-- What `lightDue` leaves. -/
@[simp] theorem lightDue_frame (s : State) :
    (lightDue s).pending = s.pending ∧ (lightDue s).free = s.free ∧ (lightDue s).now = s.now ∧
    (lightDue s).chp = s.chp ∧ (lightDue s).pins = s.pins ∧ (lightDue s).hpt = s.hpt ∧ (lightDue s).ttb = s.ttb ∧
    (lightDue s).leg = s.leg ∧ (lightDue s).wld = s.wld ∧ (lightDue s).lcs = s.lcs ∧ (lightDue s).fuses = s.fuses ∧
    (lightDue s).mnf = s.mnf ∧ (lightDue s).flash = s.flash ∧ (lightDue s).fwu = s.fwu ∧ (lightDue s).drb = s.drb ∧
    (lightDue s).mem = s.mem ∧ (lightDue s).gov = s.gov ∧ (lightDue s).shown = s.shown := by
  simp [lightDue]

/-- What `reloadDone` leaves. -/
@[simp] theorem reloadDone_frame (s : State) :
    (reloadDone s).pending = s.pending ∧ (reloadDone s).out = s.out ∧ (reloadDone s).free = s.free ∧
    (reloadDone s).now = s.now ∧ (reloadDone s).csn = s.csn ∧ (reloadDone s).chp = s.chp ∧
    (reloadDone s).pins = s.pins ∧ (reloadDone s).hpt = s.hpt ∧ (reloadDone s).stats = s.stats ∧
    (reloadDone s).win = s.win ∧ (reloadDone s).ttb = s.ttb ∧ (reloadDone s).car = s.car ∧
    (reloadDone s).cay = s.cay ∧ (reloadDone s).mdf = s.mdf ∧ (reloadDone s).kst = s.kst ∧
    (reloadDone s).leg = s.leg ∧ (reloadDone s).slc = s.slc ∧ (reloadDone s).evr = s.evr ∧
    (reloadDone s).rng = s.rng ∧ (reloadDone s).lat = s.lat ∧ (reloadDone s).bnv = s.bnv ∧
    (reloadDone s).ucp = s.ucp ∧ (reloadDone s).wld = s.wld ∧ (reloadDone s).tmp = s.tmp ∧
    (reloadDone s).bbr = s.bbr ∧ (reloadDone s).lcs = s.lcs ∧ (reloadDone s).fuses = s.fuses ∧
    (reloadDone s).mnf = s.mnf ∧ (reloadDone s).flash = s.flash ∧ (reloadDone s).fwu = s.fwu ∧
    (reloadDone s).drb = s.drb ∧ (reloadDone s).mem = s.mem ∧ (reloadDone s).gov = s.gov ∧
    (reloadDone s).shown = s.shown := by
  simp [reloadDone]

/-- What `updGate` leaves. -/
@[simp] theorem updGate_frame (b : GateBlock) (f : Gate → Gate) (s : State) :
    (updGate b f s).pending = s.pending ∧ (updGate b f s).out = s.out ∧ (updGate b f s).free = s.free ∧
    (updGate b f s).now = s.now ∧ (updGate b f s).csn = s.csn ∧ (updGate b f s).chp = s.chp ∧
    (updGate b f s).pins = s.pins ∧ (updGate b f s).hpt = s.hpt ∧ (updGate b f s).stats = s.stats ∧
    (updGate b f s).win = s.win ∧ (updGate b f s).ttb = s.ttb ∧ (updGate b f s).car = s.car ∧
    (updGate b f s).cay = s.cay ∧ (updGate b f s).mdf = s.mdf ∧ (updGate b f s).kst = s.kst ∧
    (updGate b f s).leg = s.leg ∧ (updGate b f s).vlt = s.vlt ∧ (updGate b f s).slc = s.slc ∧
    (updGate b f s).evr = s.evr ∧ (updGate b f s).rng = s.rng ∧ (updGate b f s).lat = s.lat ∧
    (updGate b f s).bnv = s.bnv ∧ (updGate b f s).ucp = s.ucp ∧ (updGate b f s).tmp = s.tmp ∧
    (updGate b f s).bbr = s.bbr ∧ (updGate b f s).lcs = s.lcs ∧ (updGate b f s).fuses = s.fuses ∧
    (updGate b f s).mnf = s.mnf ∧ (updGate b f s).flash = s.flash ∧ (updGate b f s).fwu = s.fwu ∧
    (updGate b f s).drb = s.drb ∧ (updGate b f s).mem = s.mem ∧ (updGate b f s).gov = s.gov ∧
    (updGate b f s).shown = s.shown := by
  simp [updGate]

/-- What `gatesDue` leaves. -/
@[simp] theorem gatesDue_frame (s : State) :
    (gatesDue s).pending = s.pending ∧ (gatesDue s).out = s.out ∧ (gatesDue s).free = s.free ∧
    (gatesDue s).now = s.now ∧ (gatesDue s).csn = s.csn ∧ (gatesDue s).chp = s.chp ∧ (gatesDue s).pins = s.pins ∧
    (gatesDue s).hpt = s.hpt ∧ (gatesDue s).stats = s.stats ∧ (gatesDue s).win = s.win ∧ (gatesDue s).ttb = s.ttb ∧
    (gatesDue s).car = s.car ∧ (gatesDue s).cay = s.cay ∧ (gatesDue s).mdf = s.mdf ∧ (gatesDue s).kst = s.kst ∧
    (gatesDue s).leg = s.leg ∧ (gatesDue s).vlt = s.vlt ∧ (gatesDue s).slc = s.slc ∧ (gatesDue s).evr = s.evr ∧
    (gatesDue s).rng = s.rng ∧ (gatesDue s).lat = s.lat ∧ (gatesDue s).bnv = s.bnv ∧ (gatesDue s).ucp = s.ucp ∧
    (gatesDue s).tmp = s.tmp ∧ (gatesDue s).bbr = s.bbr ∧ (gatesDue s).lcs = s.lcs ∧ (gatesDue s).fuses = s.fuses ∧
    (gatesDue s).mnf = s.mnf ∧ (gatesDue s).flash = s.flash ∧ (gatesDue s).fwu = s.fwu ∧ (gatesDue s).drb = s.drb ∧
    (gatesDue s).mem = s.mem ∧ (gatesDue s).gov = s.gov ∧ (gatesDue s).shown = s.shown := by
  simp [gatesDue]

/-- What `stationBurns` leaves. -/
@[simp] theorem stationBurns_frame (s : State) :
    (stationBurns s).pending = s.pending ∧ (stationBurns s).out = s.out ∧ (stationBurns s).now = s.now ∧
    (stationBurns s).csn = s.csn ∧ (stationBurns s).chp = s.chp ∧ (stationBurns s).pins = s.pins ∧
    (stationBurns s).hpt = s.hpt ∧ (stationBurns s).stats = s.stats ∧ (stationBurns s).win = s.win ∧
    (stationBurns s).ttb = s.ttb ∧ (stationBurns s).car = s.car ∧ (stationBurns s).cay = s.cay ∧
    (stationBurns s).mdf = s.mdf ∧ (stationBurns s).kst = s.kst ∧ (stationBurns s).leg = s.leg ∧
    (stationBurns s).vlt = s.vlt ∧ (stationBurns s).slc = s.slc ∧ (stationBurns s).evr = s.evr ∧
    (stationBurns s).rng = s.rng ∧ (stationBurns s).lat = s.lat ∧ (stationBurns s).bnv = s.bnv ∧
    (stationBurns s).ucp = s.ucp ∧ (stationBurns s).wld = s.wld ∧ (stationBurns s).tmp = s.tmp ∧
    (stationBurns s).bbr = s.bbr ∧ (stationBurns s).lcs = s.lcs ∧ (stationBurns s).mnf = s.mnf ∧
    (stationBurns s).flash = s.flash ∧ (stationBurns s).fwu = s.fwu ∧ (stationBurns s).drb = s.drb ∧
    (stationBurns s).mem = s.mem ∧ (stationBurns s).gov = s.gov ∧ (stationBurns s).shown = s.shown := by
  simp [stationBurns]

/-- What `framesDue` leaves. -/
@[simp] theorem framesDue_frame (s : State) :
    (framesDue s).pending = s.pending ∧ (framesDue s).free = s.free ∧ (framesDue s).now = s.now ∧
    (framesDue s).csn = s.csn ∧ (framesDue s).chp = s.chp ∧ (framesDue s).pins = s.pins ∧ (framesDue s).hpt = s.hpt ∧
    (framesDue s).stats = s.stats ∧ (framesDue s).win = s.win ∧ (framesDue s).ttb = s.ttb ∧
    (framesDue s).car = s.car ∧ (framesDue s).cay = s.cay ∧ (framesDue s).mdf = s.mdf ∧ (framesDue s).kst = s.kst ∧
    (framesDue s).leg = s.leg ∧ (framesDue s).vlt = s.vlt ∧ (framesDue s).slc = s.slc ∧ (framesDue s).evr = s.evr ∧
    (framesDue s).rng = s.rng ∧ (framesDue s).lat = s.lat ∧ (framesDue s).bnv = s.bnv ∧ (framesDue s).ucp = s.ucp ∧
    (framesDue s).wld = s.wld ∧ (framesDue s).tmp = s.tmp ∧ (framesDue s).bbr = s.bbr ∧ (framesDue s).lcs = s.lcs ∧
    (framesDue s).fuses = s.fuses ∧ (framesDue s).mnf = s.mnf ∧ (framesDue s).flash = s.flash ∧
    (framesDue s).fwu = s.fwu ∧ (framesDue s).mem = s.mem ∧ (framesDue s).gov = s.gov ∧
    (framesDue s).shown = s.shown := by
  simp [framesDue]

/-- What `selInMoves` leaves. -/
@[simp] theorem selInMoves_frame (s : State) :
    (selInMoves s).pending = s.pending ∧ (selInMoves s).out = s.out ∧ (selInMoves s).now = s.now ∧
    (selInMoves s).csn = s.csn ∧ (selInMoves s).chp = s.chp ∧ (selInMoves s).pins = s.pins ∧
    (selInMoves s).hpt = s.hpt ∧ (selInMoves s).stats = s.stats ∧ (selInMoves s).win = s.win ∧
    (selInMoves s).ttb = s.ttb ∧ (selInMoves s).car = s.car ∧ (selInMoves s).cay = s.cay ∧
    (selInMoves s).mdf = s.mdf ∧ (selInMoves s).kst = s.kst ∧ (selInMoves s).leg = s.leg ∧
    (selInMoves s).vlt = s.vlt ∧ (selInMoves s).slc = s.slc ∧ (selInMoves s).evr = s.evr ∧
    (selInMoves s).rng = s.rng ∧ (selInMoves s).lat = s.lat ∧ (selInMoves s).bnv = s.bnv ∧
    (selInMoves s).ucp = s.ucp ∧ (selInMoves s).wld = s.wld ∧ (selInMoves s).tmp = s.tmp ∧
    (selInMoves s).bbr = s.bbr ∧ (selInMoves s).lcs = s.lcs ∧ (selInMoves s).fuses = s.fuses ∧
    (selInMoves s).mnf = s.mnf ∧ (selInMoves s).flash = s.flash ∧ (selInMoves s).fwu = s.fwu ∧
    (selInMoves s).mem = s.mem ∧ (selInMoves s).gov = s.gov ∧ (selInMoves s).shown = s.shown := by
  simp [selInMoves]

/-- What `markBarrier` leaves. -/
@[simp] theorem markBarrier_frame (mark : Nat) (s : State) :
    (markBarrier mark s).pending = s.pending ∧ (markBarrier mark s).free = s.free ∧ (markBarrier mark s).now = s.now ∧
    (markBarrier mark s).chp = s.chp ∧ (markBarrier mark s).pins = s.pins ∧ (markBarrier mark s).hpt = s.hpt ∧
    (markBarrier mark s).ttb = s.ttb ∧ (markBarrier mark s).leg = s.leg ∧ (markBarrier mark s).wld = s.wld ∧
    (markBarrier mark s).tmp = s.tmp ∧ (markBarrier mark s).bbr = s.bbr ∧ (markBarrier mark s).lcs = s.lcs ∧
    (markBarrier mark s).fuses = s.fuses ∧ (markBarrier mark s).mnf = s.mnf ∧ (markBarrier mark s).flash = s.flash ∧
    (markBarrier mark s).drb = s.drb ∧ (markBarrier mark s).mem = s.mem ∧ (markBarrier mark s).gov = s.gov ∧
    (markBarrier mark s).shown = s.shown := by
  simp [markBarrier]

/-- What `aloneMark` leaves. -/
@[simp] theorem aloneMark_frame (s : State) :
    (aloneMark s).pending = s.pending ∧ (aloneMark s).free = s.free ∧ (aloneMark s).now = s.now ∧
    (aloneMark s).chp = s.chp ∧ (aloneMark s).pins = s.pins ∧ (aloneMark s).hpt = s.hpt ∧ (aloneMark s).ttb = s.ttb ∧
    (aloneMark s).leg = s.leg ∧ (aloneMark s).wld = s.wld ∧ (aloneMark s).tmp = s.tmp ∧ (aloneMark s).bbr = s.bbr ∧
    (aloneMark s).lcs = s.lcs ∧ (aloneMark s).fuses = s.fuses ∧ (aloneMark s).mnf = s.mnf ∧
    (aloneMark s).flash = s.flash ∧ (aloneMark s).drb = s.drb ∧ (aloneMark s).mem = s.mem ∧
    (aloneMark s).gov = s.gov ∧ (aloneMark s).shown = s.shown := by
  simp [aloneMark]

/-- What `settleAlarms` leaves. -/
@[simp] theorem settleAlarms_frame (s : State) :
    (settleAlarms s).pending = s.pending ∧ (settleAlarms s).free = s.free ∧ (settleAlarms s).now = s.now ∧
    (settleAlarms s).chp = s.chp ∧ (settleAlarms s).pins = s.pins ∧ (settleAlarms s).ttb = s.ttb ∧
    (settleAlarms s).wld = s.wld ∧ (settleAlarms s).fuses = s.fuses ∧ (settleAlarms s).mnf = s.mnf ∧
    (settleAlarms s).flash = s.flash ∧ (settleAlarms s).fwu = s.fwu ∧ (settleAlarms s).drb = s.drb ∧
    (settleAlarms s).mem = s.mem ∧ (settleAlarms s).gov = s.gov ∧ (settleAlarms s).shown = s.shown := by
  simp [settleAlarms]

/-- The burn of a choice of two life-cycle blocks. -/
@[simp] theorem ite_lcs_burning (c : Prop) [Decidable c] (a b : Lcs) :
    (if c then a else b).burning = if c then a.burning else b.burning := apply_ite Lcs.burning c a b

/-- A fold whose every turn leaves the burn leaves it. -/
@[simp] theorem foldl_burning {α : Type} {f : State → α → State} (hf : ∀ s x, (f s x).lcs.burning = s.lcs.burning)
    (l : List α) (s : State) : (l.foldl f s).lcs.burning = s.lcs.burning := foldl_part (fun s => s.lcs.burning) hf l s

/-- `debugLost` leaves the burn. -/
@[simp] theorem debugLost_burning (s : State) : (debugLost s).lcs.burning = s.lcs.burning := by
  simp [debugLost]

/-- `eraseAB` leaves the burn. -/
@[simp] theorem eraseAB_burning (s : State) : (eraseAB s).lcs.burning = s.lcs.burning := by
  unfold eraseAB
  repeat' split
  all_goals simp

/-- `finishResponse` leaves the burn. -/
@[simp] theorem finishResponse_burning (s : State) : (finishResponse s).lcs.burning = s.lcs.burning := by
  unfold finishResponse
  repeat' split
  all_goals simp

/-- `settleAlarms` leaves the burn. -/
@[simp] theorem settleAlarms_burning (s : State) : (settleAlarms s).lcs.burning = s.lcs.burning := by
  simp [settleAlarms]

end Sys2Proof.Laws
end

section
/-! PROOFS. The tick of an empty queue and the reset through PORST_N (02_one_coherent_state.md, R26, R375, R405). -/
namespace Sys2Proof.Proofs

open Sys2Proof.Machine Sys2Proof.Safety Sys2Proof.Laws

variable {s : State}

/-- What a tick outside reset leaves of the drawbar is what the time's passing leaves, but for SEL_IN and the frames sent. -/
theorem framesDue_halfTick (s : State) : (framesDue s).drb.halfTick = s.drb.halfTick := by
  unfold framesDue
  dsimp only
  split
  · rfl
  · split <;> simp [updDrb]

/-- Outside reset a tick moves the time as `timePasses` does. -/
theorem tick_time (h : s.chp.inReset = false) :
    (tick s).now = (timePasses s).now ∧ (tick s).drb.halfTick = (timePasses s).drb.halfTick := by
  simp [tick, h, framesDue_halfTick, selInMoves, updDrb]

/-- Settles O2: the tick, by the cases of `timePasses`. -/
theorem emptyQueueLetsOneTickPass : Obligations.EmptyQueueLetsOneTickPass := by
  unfold Obligations.EmptyQueueLetsOneTickPass
  intro s hq
  obtain ⟨hp, -⟩ := tick_keeps s
  refine ⟨tick s, by simp [step, hq], hp.trans hq, fun hr hd => ?_, fun hr hd hl => ?_, fun hr => by simp [tick, hr]⟩
  · rw [(tick_time hr).1, timePasses, if_neg (by rcases hd with h | h <;> simp [h])]
  · obtain ⟨hn, hh⟩ := tick_time hr
    rw [hn, hh, timePasses, if_pos (by simp [hd, hl])]
    cases s.drb.halfTick <;> simp

/-- What PORST_N leaves of a state whose alarms are settled: the durable parts, and the reset state. -/
def porstState (s : State) : State :=
  let torn := if s.lcs.burning then tornBurn s else s.fuses
  { State.reset with
    pending := s.pending, out := s.out, free := s.free + 4, flash := s.flash
    fuses := if s.fwu.arbAt.isSome && Config.freeNat (s.free + 3) % 2 == 1 then burnArb (arbCount torn + 1) torn else torn
    bbr := { s.bbr with lastTime := s.now, copied := false }, evr := evrKept (cutFlush s), vlt := vltKept (cutCommit s)
    fwu := { vaultFmt := s.fwu.vaultFmt, migCommits := s.fwu.migCommits, arbDue := s.fwu.arbDue, actDone := s.fwu.actDone
             migPct := if s.fwu.migCommits > 0 then s.fwu.migPct else 0 } }

theorem execPorstNAssert_outside (h : s.chp.inReset = false) :
    exec .porstNAssert s = .next (porstState (settleAlarms s)) := by
  have hs : (settleAlarms s).chp.inReset = false := by simp [h]
  simp only [exec, execPorstNAssert, h, Bool.false_eq_true, if_false]
  exact onlyIf_pos (by simp [h])

/-- The fuses are cut only where a burn runs. -/
theorem porstState_fuses (hb : s.lcs.burning = false) (ha : s.fwu.arbAt = none) : (porstState s).fuses = s.fuses := by
  simp [porstState, hb, ha]

/-- Settles O3: what PORST_N builds on the reset state. -/
theorem porstReturnsEverythingToReset : Obligations.PorstReturnsEverythingToReset := by
  unfold Obligations.PorstReturnsEverythingToReset
  refine ⟨fun s hr => ?_, fun u hc hF => by simp [seqd, hF, hc]⟩
  refine ⟨_, execPorstNAssert_outside hr, rfl, rfl, rfl, rfl, rfl, rfl, rfl, rfl, rfl, rfl, rfl, rfl, rfl, rfl, rfl, rfl,
    rfl, rfl, rfl, rfl, rfl, rfl, rfl, rfl, rfl, rfl, rfl, rfl, ?_, ?_, fun hb ha => ?_⟩
  · exact (by simp : (settleAlarms s).flash = s.flash)
  · exact (by simp : (settleAlarms s).pending = s.pending)
  · rw [porstState_fuses (by simpa using hb) (by simpa using ha)]
    simp

end Sys2Proof.Proofs
end

section
/-! SUPPORT. What records leave of the event recorder, and what ends of engine commands leave of the carriages. -/
namespace Sys2Proof.Laws

open Sys2Proof.Machine Sys2Proof.Safety

/-- Records lost to the buffer leave FULL. -/
@[simp] theorem makeRoom_full (k n : Nat) (e : Evr) : (makeRoom k n e).2.full = e.full := by
  induction k generalizing e with
  | zero => rfl
  | succ k ih =>
    unfold makeRoom
    split
    · rfl
    · split
      · rfl
      · rw [ih]
        rfl

/-- A record pushed leaves FULL. -/
@[simp] theorem push_full (t : RecType) (time : Nat) (payload : Bytes) (e : Evr) : (push t time payload e).full = e.full := by
  simp only [push]
  split <;> simp [countLost]

/-- A record created leaves FULL. -/
@[simp] theorem create_full (t : RecType) (now time : Nat) (payload : Bytes) (e : Evr) :
    (create t now time payload e).full = e.full := by
  simp only [create]
  split <;> simp

/-- A record leaves FULL. -/
@[simp] theorem recordAt_full (t : RecType) (time : Nat) (payload : Bytes) (s : State) :
    (recordAt t time payload s).evr.full = s.evr.full := by
  unfold recordAt
  split <;> simp

/-- FULL of a choice of two recorders. -/
@[simp] theorem ite_evr_full (c : Prop) [Decidable c] (a b : Evr) :
    (if c then a else b).full = if c then a.full else b.full := apply_ite Evr.full c a b

/-- A fold whose every turn leaves FULL leaves it. -/
@[simp] theorem foldl_full {α : Type} {f : State → α → State} (hf : ∀ s x, (f s x).evr.full = s.evr.full)
    (l : List α) (s : State) : (l.foldl f s).evr.full = s.evr.full := foldl_part (fun s => s.evr.full) hf l s

/-- `record` leaves FULL. -/
@[simp] theorem record_full (t : RecType) (payload : Bytes) (s : State) :
    (record t payload s).evr.full = s.evr.full := by
  simp [record]

/-- `recordSeq` leaves FULL. -/
@[simp] theorem recordSeq_full (t : RecType) (payload : Bytes) (s : State) :
    (recordSeq t payload s).evr.full = s.evr.full := by
  simp [recordSeq]

/-- `legEvent` leaves FULL. -/
@[simp] theorem legEvent_full (code : Nat) (s : State) : (legEvent code s).evr.full = s.evr.full := by
  simp [legEvent]

/-- `letGo` leaves FULL. -/
@[simp] theorem letGo_full (t : Nat) (s : State) : (letGo t s).evr.full = s.evr.full := by
  unfold letGo
  repeat' split
  all_goals simp

/-- `stopOne` leaves FULL. -/
@[simp] theorem stopOne_full (t status result : Nat) (s : State) :
    (stopOne t status result s).evr.full = s.evr.full := by
  simp [stopOne]

/-- `legErase` leaves FULL. -/
@[simp] theorem legErase_full (code status : Nat) (s : State) : (legErase code status s).evr.full = s.evr.full := by
  simp [legErase]

/-- `zeroiseKeys` leaves the carriages. -/
@[simp] theorem zeroiseKeys_cars (s : State) : (zeroiseKeys s).car.cars = s.car.cars := by
  simp [zeroiseKeys]

end Sys2Proof.Laws
end

section
/-! PROOFS. Entering FAULT, and register writes in it (02_one_coherent_state.md, R29; R409). -/
namespace Sys2Proof.Proofs

open Sys2Proof.Machine Sys2Proof.Safety Sys2Proof.Laws

variable {s : State} {t u : Nat}

/-! ### Every carriage ends -/

/-- No tag holds a carriage. -/
def NoCarriage (s : State) : Prop := ∀ u, (carrOf s u).stage = .free

theorem NoCarriage.congr {s' : State} (h : NoCarriage s) (hc : s'.car.cars = s.car.cars) : NoCarriage s' :=
  fun u => by rw [carrOf_congr hc]; exact h u

/-- A scrub leaves the stage of every carriage. -/
theorem scrub_stage (t u : Nat) (hs : (carrOf s t).stage ≠ .free) : (carrOf (scrub t s) u).stage = (carrOf s u).stage := by
  by_cases h : u = t
  · subst h
    obtain ⟨b, hb⟩ := scrub_carrOf hs
    rw [hb]
  · rw [scrub_carrOf_ne h]

/-- One turn of the ends that FAULT makes: the carriage that tag `t` holds. -/
def endOne (s : State) (t : Nat) : State := if (carrOf s t).stage == .free then s else finish t stInternalFault 0 s

/-- One turn of the scrubs before them. -/
def scrubOne (s : State) (t : Nat) : State := if (carrOf s t).stage == .finished then s else scrub t s

theorem faultCarriages_eq (s : State) :
    faultCarriages s = (takeOrder s).foldl endOne ((takeOrder s).foldl scrubOne s) := rfl

/-- Where every carriage is in the list, its turns end them all. -/
theorem foldl_endOne_noCarriage (l : List Nat) (hok : tablesOk s = true) (hl : ∀ u, (carrOf s u).stage ≠ .free → u ∈ l) :
    NoCarriage (l.foldl endOne s) := by
  induction l generalizing s with
  | nil => exact fun u => Classical.byContradiction fun h => by simpa using hl u h
  | cons t l ih =>
    by_cases ht : (carrOf s t).stage = .free
    · have he : endOne s t = s := by simp [endOne, ht]
      rw [List.foldl_cons, he]
      refine ih hok fun u hu => ?_
      rcases List.mem_cons.mp (hl u hu) with rfl | h
      · exact absurd ht hu
      · exact h
    · have he : endOne s t = finish t stInternalFault 0 s := by simp [endOne, ht]
      rw [List.foldl_cons, he]
      refine ih (finish_tablesOk t _ 0 hok) fun u hu => ?_
      have hne : u ≠ t := by
        rintro rfl
        exact hu (by rw [finish_carrOf _ _ (tablesOk_parts s hok).2.2.1])
      rw [finish_carrOf_ne _ _ hne] at hu
      exact List.mem_of_ne_of_mem hne (hl u hu)

/-- Scrubs leave which tags hold carriages. -/
theorem foldl_scrubOne_stage (l : List Nat) (hl : ∀ t ∈ l, (carrOf s t).stage ≠ .free) (u : Nat) :
    (carrOf (l.foldl scrubOne s) u).stage = (carrOf s u).stage := by
  induction l generalizing s with
  | nil => rfl
  | cons t l ih =>
    have ht := hl t List.mem_cons_self
    have hs : ∀ v, (carrOf (scrubOne s t) v).stage = (carrOf s v).stage := by
      intro v
      unfold scrubOne
      split
      · rfl
      · exact scrub_stage t v ht
    rw [List.foldl_cons, ih (fun v hv => by rw [hs]; exact hl v (List.mem_cons_of_mem _ hv)), hs]

theorem foldl_scrubOne_tablesOk (l : List Nat) (hok : tablesOk s = true) : tablesOk (l.foldl scrubOne s) = true := by
  induction l generalizing s with
  | nil => exact hok
  | cons t l ih =>
    refine ih ?_
    unfold scrubOne
    split
    · exact hok
    · exact scrub_tablesOk t hok

theorem mem_insertTake (l : List Nat) : u ∈ insertTake s t l ↔ u = t ∨ u ∈ l := by
  induction l with
  | nil => simp [insertTake]
  | cons v l ih =>
    unfold insertTake
    split
    · simp
    · simp only [List.mem_cons, ih]
      exact or_left_comm

/-- The order of takes lists the tags that hold carriages. -/
theorem mem_takeOrder (hok : tablesOk s = true) : u ∈ takeOrder s ↔ (carrOf s u).stage ≠ .free := by
  have hl : ∀ l : List Nat, u ∈ l.foldr (insertTake s) [] ↔ u ∈ l := fun l => by
    induction l with
    | nil => rfl
    | cons v l ih => simp [mem_insertTake, ih]
  rw [takeOrder, hl]
  constructor
  · intro h
    simpa [carrOf] using tkeys_spec (tablesOk_parts s hok).2.2.1 h
  · intro h
    exact mem_tkeys (fun h0 => h (by rw [carrOf, h0])) (by simpa [carrOf] using h)

/-- Entering FAULT every carriage ends (R29). -/
theorem faultCarriages_noCarriage (hok : tablesOk s = true) : NoCarriage (faultCarriages s) := by
  have hst := foldl_scrubOne_stage (takeOrder s) fun t ht => (mem_takeOrder hok).mp ht
  rw [faultCarriages_eq]
  exact foldl_endOne_noCarriage _ (foldl_scrubOne_tablesOk _ hok) fun u hu => (mem_takeOrder hok).mpr (by rwa [← hst])

/-! ### The keys -/

/-- No slot holds a key. -/
def NoKey (s : State) : Prop := ∀ i, (slotOf s i).state = .free

theorem zeroiseSlot_tablesOk (i : Nat) (hok : tablesOk s = true) : tablesOk (zeroiseSlot i s) = true := by
  obtain ⟨-, ht, -⟩ := zeroiseSlot_keeps i (Keeps.refl {} s)
  exact ht hok

/-- Where every key is in the list, its turns zeroise them all. -/
theorem foldl_zeroiseSlot_noKey (l : List Nat) (hok : tablesOk s = true) (hl : ∀ i, (slotOf s i).state ≠ .free → i ∈ l) :
    NoKey (l.foldl (fun s i => zeroiseSlot i s) s) := by
  induction l generalizing s with
  | nil => exact fun u => Classical.byContradiction fun h => by simpa using hl u h
  | cons k l ih =>
    refine ih (zeroiseSlot_tablesOk k hok) fun i hi => ?_
    have hne : i ≠ k := by
      rintro rfl
      refine hi ?_
      rw [slotOf_zeroiseSlot _ (tablesOk_parts s hok).2.2.2.2.2.2.2.2.2.2.1]
      rfl
    rw [slotOf_zeroiseSlot_ne hne] at hi
    exact List.mem_of_ne_of_mem hne (hl i hi)

/-- A map that gives the default alone gives the empty table. -/
theorem tmap_default {α : Type} [DecidableEq α] (d : α) (T : Tbl α) : tmap d (fun _ _ => d) T = [] := by
  induction T with
  | nil => rfl
  | cons e T ih => simp [tmap, ih]

/-- FAULT takes every working slot and every shadow slot (R29). -/
theorem zeroiseKeys_takes (hok : tablesOk s = true) : NoKey (zeroiseKeys s) ∧ (zeroiseKeys s).car.shadows = [] := by
  refine ⟨foldl_zeroiseSlot_noKey _ hok fun i hi => ?_, ?_⟩
  · exact mem_tkeys (fun h0 => hi (by rw [slotOf, h0])) (by simpa [slotOf] using hi)
  · exact tmap_default ({} : Shadow) _

/-- Where no tag holds a carriage, the legacy register has no user. -/
theorem legacyUsers_of_noCarriage (hok : tablesOk s = true) (h : NoCarriage s) : legacyUsers s = [] := by
  refine List.eq_nil_iff_forall_not_mem.mpr fun u hu => ?_
  have hb := tkeys_spec (tablesOk_parts s hok).2.2.1 hu
  have hf : (tget {} s.car.cars u).stage = .free := h u
  simp [bound, inFlight, hf] at hb

/-- The legacy register once it is erased, before a carriage that used it ends (R214). -/
def legErased (code : Nat) (s : State) : State :=
  legEvent code (purgeStaging (· == .legacy) { s with leg := { s.leg with
    key := [], stage := [], loaded := false, loading := false, next := 0
    abandonCnt := if s.leg.loading then satInc 16 s.leg.abandonCnt else s.leg.abandonCnt } })

theorem legErase_eq (code st : Nat) (hok : tablesOk (legErased code s) = true) (h : NoCarriage s) :
    legErase code st s = legErased code s := by
  have hu : legacyUsers (legErased code s) = [] :=
    legacyUsers_of_noCarriage hok (h.congr (by simp [legErased]))
  show (legacyUsers (legErased code s)).foldl (fun s t => stopOne t st 0 s) (legErased code s) = _
  rw [hu]
  rfl

/-! ### The parts of the entry -/

/-- FAULT with its cause, at its CSN, and its record and interrupt. -/
def atFault (cause : Nat) (s : State) : State :=
  setIntBoth 17 (record .fault (natLe 4 cause ++ zeros 4) { seqd s with chp := { s.chp with mode := .fault, faultCause := cause } })

/-- Every carriage and every engine command ends. -/
def faultEnds (s : State) : State :=
  updRng (fun r => { r with waiters := [] }) (chanZeroise .b stInternalFault (chanZeroise .a stInternalFault
    (ucpEnd stInternalFault 0 (latEnd .b stInternalFault 0 (latEnd .a stInternalFault 0 (faultCarriages s))))))

/-- Every key goes. -/
def faultKeys (s : State) : State := legErase 10 stInternalFault (zeroiseKeys s)

/-- Debug ends, what the registers show is kept, and a flush starts. -/
def faultShown (s : State) : State := flushStart true (keepShown (grantEnd (debugLost s)))

theorem enterFault_eq (cause : Nat) (hp : powered s = true) (hF : inFault s = false) :
    enterFault cause s = faultShown (faultKeys (faultEnds (atFault cause s))) := by
  have hc : (seqd s).chp = s.chp := by simp
  simp only [enterFault, hp, hF, Bool.not_true, Bool.or_self, Bool.false_eq_true, if_false, hc]
  rfl

theorem atFault_tablesOk (cause : Nat) (hok : tablesOk s = true) : tablesOk (atFault cause s) = true := by
  have h : tablesOk { seqd s with chp := { s.chp with mode := .fault, faultCause := cause } } = true := by
    obtain ⟨-, ht, -⟩ := seqd_keeps (Keeps.refl {} s)
    exact ht hok
  obtain ⟨-, ht, -⟩ := setIntBoth_keeps 17 (record_keeps .fault (natLe 4 cause ++ zeros 4) (Keeps.refl {} _))
  exact ht h

theorem faultEnds_tablesOk (hok : tablesOk s = true) : tablesOk (faultEnds s) = true := by
  obtain ⟨-, ht, -⟩ := updRng_keeps (f := fun r => { r with waiters := [] }) (chanZeroise_keeps .b stInternalFault
    (chanZeroise_keeps .a stInternalFault (ucpEnd_keeps stInternalFault 0 (latEnd_keeps .b stInternalFault 0
      (latEnd_keeps .a stInternalFault 0 (faultCarriages_keeps (Keeps.refl {} s))))))) ⟨rfl, rfl⟩
  exact ht hok

theorem faultEnds_noCarriage (hok : tablesOk s = true) : NoCarriage (faultEnds s) :=
  (faultCarriages_noCarriage hok).congr (by simp [faultEnds])

/-- An engine command's slot is given up without a CSN in FAULT. -/
theorem unuseSlot_csn (i g : Nat) (h : inFault s = true) : (unuseSlot i g s).csn = s.csn := by
  have hs : ∀ t : State, t.chp = s.chp → (seqd t).csn = t.csn := fun t ht => by
    have hm : inFault t = true := by simpa only [inFault, ht] using h
    simp [seqd, hm]
  unfold unuseSlot
  dsimp only
  repeat' split
  all_goals first | rfl | (rw [hs _ (by simp)]; simp)

/-- Without a carriage the ends take no CSN in FAULT. -/
theorem faultEnds_csn (h : inFault s = true) (hc : s.car.cars = []) : (faultEnds s).csn = s.csn := by
  have hl : ∀ (p : Port) (t : State), inFault t = true → (latEnd p stInternalFault 0 t).csn = t.csn := fun p t ht => by
    unfold latEnd
    dsimp only
    split
    · rfl
    · split
      · simp [unuseSlot_csn _ _ ht]
      · simp
  have hu : ∀ t : State, inFault t = true → (ucpEnd stInternalFault 0 t).csn = t.csn := fun t ht => by
    unfold ucpEnd
    split
    · rfl
    · dsimp only
      split
      · simp [unuseSlot_csn _ _ ht]
      · simp
  have hf : faultCarriages s = s := by simp [faultCarriages_eq, takeOrder, hc, tkeys]
  have ha : inFault (latEnd .a stInternalFault 0 s) = true := by simpa [inFault] using h
  have hb : inFault (latEnd .b stInternalFault 0 (latEnd .a stInternalFault 0 s)) = true := by simpa [inFault] using h
  simp [faultEnds, hf, hu _ hb, hl _ _ ha, hl _ _ h]

/-- FAULT's erasures leave no key (R29). -/
theorem faultKeys_takes (hok : tablesOk s = true) (h : NoCarriage s) :
    NoKey (faultKeys s) ∧ (faultKeys s).car.shadows = [] ∧ (faultKeys s).leg.loaded = false ∧ (faultKeys s).leg.key = [] ∧
    (faultKeys s).csn = s.csn ∧ (faultKeys s).rng = s.rng := by
  obtain ⟨hk, hsh⟩ := zeroiseKeys_takes hok
  have hok' : tablesOk (legErased 10 (zeroiseKeys s)) = true := by
    obtain ⟨-, hz, -⟩ := zeroiseKeys_keeps (Keeps.refl {} s)
    obtain ⟨-, ht, -⟩ := legEvent_keeps 10 (purgeStaging_keeps (· == .legacy) (Keeps.refl {} { zeroiseKeys s with
      leg := { (zeroiseKeys s).leg with
        key := [], stage := [], loaded := false, loading := false, next := 0
        abandonCnt := if (zeroiseKeys s).leg.loading then satInc 16 (zeroiseKeys s).leg.abandonCnt
          else (zeroiseKeys s).leg.abandonCnt } }))
    exact ht (hz hok)
  rw [faultKeys, legErase_eq 10 _ hok' (h.congr (by simp))]
  refine ⟨fun i => ?_, ?_, ?_, ?_, ?_, ?_⟩
  · have hs : slotOf (legErased 10 (zeroiseKeys s)) i = slotOf (zeroiseKeys s) i := by simp [legErased, slotOf]
    rw [hs]
    exact hk i
  all_goals simp [legErased, hsh, legEvent, recordSeq]

theorem faultShown_shows (h : s.rng.waiters = []) :
    (faultShown s).wld.dbg = 0 ∧ (faultShown s).lcs.granted = 0 ∧ (faultShown s).rng.waiters = [] ∧
    (faultShown s).shown.isSome = true ∧ (s.evr.full = false → (faultShown s).evr.flushing = true) := by
  have hg : (grantEnd (debugLost s)).wld.dbg = 0 ∧ (grantEnd (debugLost s)).lcs.granted = 0 ∧
      (grantEnd (debugLost s)).rng.waiters = [] ∧ (grantEnd (debugLost s)).evr = s.evr := by
    simp [grantEnd, updLcs, updRng, updWld, h]
  obtain ⟨hw, hl, hr, he⟩ := hg
  refine ⟨?_, ?_, ?_, ?_, fun hf => ?_⟩
  · simpa [faultShown, keepShown] using hw
  · simpa [faultShown, keepShown] using hl
  · simpa [faultShown, keepShown] using hr
  · simp [faultShown, keepShown]
  · simp [faultShown, flushStart, keepShown, he, hf]

/-! ### Register writes in FAULT -/

variable {p : Port}

theorem wr_inFault (p : Port) (b : Blk) (h : inFault s = true) : wr p b s = false := by simp [wr, h]

theorem rsReach_inFault (p : Port) (sl : Option Nat) (h : inFault s = true) : rsReach p sl s = false := by
  cases sl <;> simp [rsReach, wr_inFault _ _ h]

theorem pageDiscard_inFault (p : Port) (sl : Option Nat) (h : inFault s = true) : pageDiscard p sl s = s := by
  cases sl <;> simp [pageDiscard, wr_inFault _ _ h]

theorem wrote_inFault (b : Blk) (f : State → State) (h : inFault s = true) : wrote p b f s = .next s :=
  onlyIf_neg (wr_inFault p b h)

theorem rsCommand_inFault (sl : Option Nat) (ring : Nat) (c : Nat → State → Nat) (a : Nat → State → State)
    (h : inFault s = true) : rsCommand p sl ring c a s = .next s := by
  simp [rsCommand, rsReach_inFault _ _ h, pageDiscard_inFault _ _ h]

theorem abortWrite_inFault (sl : Option Nat) (ring : Nat) (b : Bool) (h : inFault s = true) :
    abortWrite p sl ring b s = .next s := by
  simp [abortWrite, rsReach_inFault _ _ h, pageDiscard_inFault _ _ h]

theorem rsCmdWrite_inFault (sl : Option Nat) (v : Nat) (h : inFault s = true) : rsCmdWrite p sl v s = .next s := by
  unfold rsCmdWrite
  dsimp only
  split
  case h_2 | h_3 | h_4 | h_5 | h_6 => exact rsCommand_inFault _ _ _ _ h
  all_goals cases sl <;> simp [wrote_inFault, rsReach_inFault _ _ h, pageDiscard_inFault _ _ h, h]

theorem abortCmdWrite_inFault (sl : Option Nat) (v : Nat) (h : inFault s = true) : abortCmdWrite p sl v s = .next s := by
  unfold abortCmdWrite
  dsimp only
  split
  · cases sl <;> simp [wrote_inFault, rsReach_inFault _ _ h, pageDiscard_inFault _ _ h, h]
  · split
    case h_1 | h_2 => exact abortWrite_inFault _ _ _ h
    case h_3 => cases sl <;> simp [wrote_inFault, rsReach_inFault _ _ h, pageDiscard_inFault _ _ h, h]

theorem dbWrite_inFault (sl : Option Nat) (j v : Nat) (h : inFault s = true) : dbWrite p sl j v s = .next s := by
  have hd : ∀ b, doorbellWrite p sl j v b s = .next s := fun b => by
    simp [doorbellWrite, rsReach_inFault _ _ h, pageDiscard_inFault _ _ h]
  unfold dbWrite
  split <;> exact hd _

theorem slcCommand_inFault (n most : Nat) (c : State → Nat) (a : State → State) (h : inFault s = true) :
    slcCommand p n most c a s = .next s := by simp [slcCommand, wr_inFault _ _ h]

variable {off v : Nat} {r : Res}

theorem actCar_inFault (h : inFault s = true) (e : actCar p off v s = some r) : r = .next s := by
  unfold actCar at e
  split at e
  · cases e; exact rsCmdWrite_inFault _ _ h
  split at e
  · cases e; exact abortCmdWrite_inFault _ _ h
  split at e
  · cases e; exact dbWrite_inFault _ _ _ h
  · cases e

theorem actSlc_inFault (h : inFault s = true) (e : actSlc p off v s = some r) : r = .next s := by
  unfold actSlc at e
  dsimp only at e
  split at e
  · split at e <;> cases e
    case h_1 | h_7 => exact wrote_inFault _ _ h
    all_goals exact slcCommand_inFault _ _ _ _ h
  · split at e <;> cases e
    · exact wrote_inFault _ _ h
    all_goals simp [execBind, execUnbind, execQuery, wr_inFault _ _ h]
  · cases e
    exact onlyIf_neg (wr_inFault _ _ h)
  · cases e

theorem actKst_inFault (h : inFault s = true) (e : actKst p off v s = some r) : r = .next s := by
  unfold actKst at e
  split at e
  · cases e
    split
    · simp [execReplGo, wr_inFault _ _ h]
    · exact wrote_inFault _ _ h
  repeat' split at e
  all_goals cases e
  all_goals simp [execLegKey0Write, execLegKeyWordWrite, execLegCommit, legGuarded, wr_inFault _ _ h]

theorem actEngine_inFault {b : Blk} (h : inFault s = true) (e : actEngine p b off v s = some r) : r = .next s := by
  have hu : ucpReach (.port p) s = false := wr_inFault _ _ h
  unfold actEngine at e
  dsimp only at e
  repeat' split at e
  all_goals cases e
  all_goals first
    | exact wrote_inFault _ _ h
    | simp [execUcpLockRelease, ucpRow, ucpUser, hu, latRow, execLatAbort, execAncLoad, execAncClear, ancCmd,
        execBnvAbort, chanRow, wr_inFault _ _ h]

theorem actRest_inFault {b : Blk} (h : inFault s = true) (e : actRest p b off v s = some r) : r = .next s := by
  unfold actRest at e
  dsimp only at e
  repeat' split at e
  all_goals cases e
  all_goals first
    | exact wrote_inFault _ _ h
    | exact onlyIf_neg (wr_inFault _ _ h)
    | simp [execFlush, execCursor, wr_inFault _ _ h]

/-- No register whose write has a row of its own acts in FAULT. -/
theorem actPlace_inFault {x : Place} (h : inFault s = true) (e : actPlace p x v s = some r) : r = .next s := by
  unfold actPlace at e
  split at e
  · repeat' split at e
    all_goals cases e
    all_goals simp [execTtbRenew, execTtbRelease, wr_inFault _ _ h]
  · split at e <;> cases e
    exact onlyIf_neg (wr_inFault _ _ h)
  · exact actCar_inFault h e
  · exact actSlc_inFault h e
  · exact actKst_inFault h e
  iterate 4 exact actEngine_inFault h e
  iterate 6 exact actRest_inFault h e
  all_goals cases e

theorem writePage_inFault (n off v : Nat) (h : inFault s = true) : writePage p n off v s = .next s := by
  unfold writePage
  split
  · exact dbWrite_inFault _ _ _ h
  split
  · simp [tenantMbxWrite, wr_inFault _ _ h]
  split
  · exact rsCmdWrite_inFault _ _ h
  split
  · exact abortCmdWrite_inFault _ _ h
  · rw [rsReach_inFault _ _ h, pageDiscard_inFault _ _ h]
    rfl

/-- In FAULT a register write is ignored (R409). -/
theorem writeWord_inFault (pasid : Option Nat) {bar : Bar} (off v : Nat) (h : inFault s = true) (hb : bar ≠ .bar4) :
    writeWord p pasid bar off v s = .next s := by
  unfold writeWord
  split
  · rfl
  split
  · exact onlyIf_neg (by simp [wr_inFault _ _ h])
  split
  · simp [discarded, h]
  split
  · unfold writeBar0
    split
    · rfl
    · split
      · next r e => exact actPlace_inFault h e
      · exact onlyIf_neg (wr_inFault _ _ h)
  · exact writePage_inFault _ _ _ h
  · exact absurd rfl hb

/-- Settles O48: the parts of the entry in turn; in FAULT no register write is enabled. -/
theorem faultErasesAndStops : Obligations.FaultErasesAndStops := by
  unfold Obligations.FaultErasesAndStops
  refine ⟨fun cause s hok hc hp hF => ?_, fun p pasid bar off v s hF hb => ?_⟩
  · have hok1 := atFault_tablesOk cause hok
    have hok2 := faultEnds_tablesOk hok1
    obtain ⟨hk, hsh, hl, hkey, hcsn, hr⟩ := faultKeys_takes hok2 (faultEnds_noCarriage hok1)
    obtain ⟨hd, hg, hw, hs, hfl⟩ := faultShown_shows (s := faultKeys (faultEnds (atFault cause s))) (by rw [hr]; rfl)
    have hok3 : tablesOk (enterFault cause s) = true := by
      obtain ⟨-, ht, -⟩ := enterFault_keeps cause (Keeps.refl {} s)
      exact ht hok
    have he := enterFault_eq cause hp hF
    have hm : inFault (atFault cause s) = true := by simp [inFault, atFault]
    refine ⟨_, onlyIf_pos hc, rfl, ?_, ?_, ?_, ?_, ?_, ?_, by rw [he]; exact hd, by rw [he]; exact hg, by rw [he]; exact hw,
      by simp, by simp, by simp, by rw [he]; exact hs, fun hcar => ?_, fun hfull => ?_⟩
    · rw [he]
      simp [faultShown, faultKeys, faultEnds, atFault]
    · rw [he]
      simp [faultShown, faultKeys, faultEnds, atFault]
    · refine List.eq_nil_iff_forall_not_mem.mpr fun i hi => ?_
      have hne := tkeys_spec (tablesOk_parts _ hok3).2.2.2.2.2.2.2.2.2.2.1 hi
      have hsl : slotOf (enterFault cause s) i = slotOf (faultKeys (faultEnds (atFault cause s))) i := by
        rw [he]
        simp [faultShown, slotOf]
      have hfree := hk i
      rw [← hsl, slotOf] at hfree
      rw [bne_iff_ne] at hne
      exact hne hfree
    · rw [he]
      simpa [faultShown] using hsh
    · rw [he]
      simpa [faultShown] using hl
    · rw [he]
      simpa [faultShown] using hkey
    · rw [he]
      have h1 : (atFault cause s).csn = s.csn + 1 := by simp [atFault, seqd, hF]
      have h2 := faultEnds_csn hm (by simpa [atFault] using hcar)
      simp [faultShown, hcsn, h2, h1]
    · rw [he]
      refine hfl ?_
      simpa [faultKeys, faultEnds, atFault] using hfull
  · exact writeWord_inFault pasid off v (by simp [inFault, hF]) hb

end Sys2Proof.Proofs
end

section
/-! PROOFS. Random controls: a refutation (11_random_numbers.md). -/
namespace Sys2Proof.Proofs

open Sys2Proof.Machine Sys2Proof.Safety

/-- An admitted carriage whose slot holds no key: the next end of carriages whose key is gone (R206) stops it. -/
def keylessState : State :=
  { chp := { inReset := false, mode := .running }
    hpt := ⟨{ up := true, ready := true }, {}⟩
    car := { cars := [(0, { stage := .admitted, key := .slot 0 1 })] } }

/-- How many carriages an outcome leaves. -/
def carriagesAfter (r : Res) : Nat :=
  match r with
  | .next t => t.car.cars.length
  | _ => 0

/-- A KAT that fails ends the carriage too. -/
theorem carriagesAfter_kat_keyless : carriagesAfter (exec (.kat .a false) keylessState) = 0 := by decide

/-- Refutes O23: its last clause has a failed KAT leave every carriage, in any state without a waiting consumer; but the
failure declared ends each carriage whose key is gone (R206), and no hypothesis says that the state has none. -/
theorem not_randomControlsAct : ¬Obligations.RandomControlsAct := by
  unfold Obligations.RandomControlsAct
  intro h
  obtain ⟨-, -, -, -, hfail⟩ := h .a keylessState (by decide)
  obtain ⟨t, ht, -, -, -, -, -, -, hcar⟩ := hfail (by decide) (by decide)
  have hn := congrArg carriagesAfter ht
  rw [carriagesAfter_kat_keyless] at hn
  have hc : carriagesAfter (.next t) = 1 := by rw [carriagesAfter, hcar]; decide
  exact absurd (hn.trans hc) (by decide)

end Sys2Proof.Proofs
end

section
/-! SUPPORT. What steps of shelves leave of the state (08_media_fabric_and_shelves.md). -/
namespace Sys2Proof.Laws

open Sys2Proof.Machine Sys2Proof.Safety

/-- What `shelfTo` leaves. -/
@[simp] theorem shelfTo_frame (n : Nat) (st : ShelfState) (s : State) :
    (shelfTo n st s).pending = s.pending ∧ (shelfTo n st s).free = s.free ∧ (shelfTo n st s).now = s.now ∧
    (shelfTo n st s).chp = s.chp ∧ (shelfTo n st s).pins = s.pins ∧ (shelfTo n st s).win = s.win ∧
    (shelfTo n st s).ttb = s.ttb ∧ (shelfTo n st s).car = s.car ∧ (shelfTo n st s).cay = s.cay ∧
    (shelfTo n st s).kst = s.kst ∧ (shelfTo n st s).leg = s.leg ∧ (shelfTo n st s).vlt = s.vlt ∧
    (shelfTo n st s).slc = s.slc ∧ (shelfTo n st s).rng = s.rng ∧ (shelfTo n st s).lat = s.lat ∧
    (shelfTo n st s).bnv = s.bnv ∧ (shelfTo n st s).ucp = s.ucp ∧ (shelfTo n st s).wld = s.wld ∧
    (shelfTo n st s).tmp = s.tmp ∧ (shelfTo n st s).bbr = s.bbr ∧ (shelfTo n st s).lcs = s.lcs ∧
    (shelfTo n st s).fuses = s.fuses ∧ (shelfTo n st s).mnf = s.mnf ∧ (shelfTo n st s).flash = s.flash ∧
    (shelfTo n st s).fwu = s.fwu ∧ (shelfTo n st s).drb = s.drb ∧ (shelfTo n st s).mem = s.mem ∧
    (shelfTo n st s).gov = s.gov ∧ (shelfTo n st s).shown = s.shown := by
  simp [shelfTo]

/-- Equal shelves show equal entries. -/
theorem shelfOf_congr {s t : State} (h : t.mdf.shelves = s.mdf.shelves) (n : Nat) : shelfOf t n = shelfOf s n := by
  rw [shelfOf, shelfOf, h]

/-- A shelf that enters a state other than OFF's shows it. -/
theorem shelfOf_shelfTo (n : Nat) (st : ShelfState) (s : State)
    (h : ({ shelfOf s n with state := st } : Shelf) ≠ {}) :
    shelfOf (shelfTo n st s) n = { shelfOf s n with state := st } := by
  rw [← shelfOf_updShelf_of n (fun h => { h with state := st }) s h]
  exact shelfOf_congr (by simp [shelfTo]) n

/-- A shelf's change of state takes a CSN outside FAULT. -/
theorem shelfTo_csn (n : Nat) (st : ShelfState) (s : State) (h : inFault s = false) : (shelfTo n st s).csn = s.csn + 1 := by
  have hf : inFault (updShelf n (fun h => { h with state := st }) s) = false := h
  simp [shelfTo, seqd, hf]

end Sys2Proof.Laws
end

section
/-! PROOFS. A shelf's sleep (08_media_fabric_and_shelves.md). -/
namespace Sys2Proof.Proofs

open Sys2Proof.Machine Sys2Proof.Safety Sys2Proof.Laws

/-- The shelf and its carriage once a sleep begins. -/
def sleepBegun (n t : Nat) (s : State) : State :=
  updShelf n (fun h => { h with step := .sleepWait, tag := some t, answered := [] }) (begin_ t s)

theorem shelfOf_sleepBegun (n t : Nat) (s : State) :
    shelfOf (sleepBegun n t s) n = { shelfOf s n with step := .sleepWait, tag := some t, answered := [] } := by
  rw [sleepBegun, shelfOf_updShelf_of _ _ _ (fun h0 => by cases congrArg Shelf.step h0), shelfOf_congr (s := s) (by simp)]

/-- A shelf that begins to sleep. -/
theorem shelfOf_sleeping (n t : Nat) (s : State) :
    shelfOf (shelfTo n .sleeping (sleepBegun n t s)) n =
      { shelfOf s n with state := .sleeping, step := .sleepWait, tag := some t, answered := [] } := by
  rw [shelfOf_shelfTo _ _ _ (fun h0 => by cases congrArg Shelf.state h0), shelfOf_sleepBegun]

/-- Where the last drive's shutdown is over, PERST# is asserted. -/
theorem shelfCheck_shutdown {n : Nat} {s : State} (h : (shelfOf s n).step = .shutdown) :
    shelfCheck n s = if allShut s n then sleepPerst n s else s := by
  simp [shelfCheck, h]

/-- Settles O38: each step of a sleep as its trigger stands. -/
theorem shelfSleepsDrainFirst : Obligations.ShelfSleepsDrainFirst := by
  unfold Obligations.ShelfSleepsDrainFirst
  refine ⟨fun t s hat hw hidle => ⟨fun hst => ?_, fun hst => ?_⟩, fun n s hl hw hstep hb => ?_,
    fun d a s hp hF hd hstep hat hdone => ?_⟩
  · simp [exec, execShelfSleep, hat, hw, hidle, hst]
  · have hF : inFault s = false := by
      simp only [isAt, Bool.and_eq_true] at hat
      exact inFault_of_live hat.1.1
    have he : exec (.shelfSleep t) s = .next (shelfTo (eShelf (carrOf s t).entry) .sleeping
        (sleepBegun (eShelf (carrOf s t).entry) t s)) := by
      simp [exec, execShelfSleep, hat, hw, hidle, hst, sleepBegun]
    refine ⟨_, he, ?_, ?_, ?_, ?_, by simp [sleepBegun], by simp [sleepBegun], by simp [shelfTo, sleepBegun, updShelf, updMdf]⟩
    · rw [shelfOf_sleeping]
    · rw [shelfOf_sleeping]
    · rw [shelfOf_sleeping]
    · rw [shelfTo_csn _ _ _ (by simpa [sleepBegun, inFault] using hF)]
      simp [sleepBegun]
  · exact onlyIf_pos (by simp [hl, hw, hstep, hb])
  · have hs : (shelfOf (updDrive d (fun x => { x with shutDone := true }) s) (driveShelf d)).step = .shutdown := hstep
    simp only [exec, execDriveShutdownDone, hat]
    rw [if_neg (by simp [hp, hF, hd, hstep, hdone]), if_pos trivial, shelfCheck_shutdown hs]

end Sys2Proof.Proofs
end

section
/-! SUPPORT. What the key store's commands leave of the state (09_key_slots_tickets_legacy.md). -/
namespace Sys2Proof.Laws

open Sys2Proof.Machine Sys2Proof.Safety

/-- What `replace` leaves. -/
@[simp] theorem replace_frame (src dst : Nat) (s : State) :
    (replace src dst s).pending = s.pending ∧ (replace src dst s).out = s.out ∧ (replace src dst s).free = s.free ∧
    (replace src dst s).now = s.now ∧ (replace src dst s).csn = s.csn ∧ (replace src dst s).chp = s.chp ∧
    (replace src dst s).pins = s.pins ∧ (replace src dst s).hpt = s.hpt ∧ (replace src dst s).stats = s.stats ∧
    (replace src dst s).win = s.win ∧ (replace src dst s).ttb = s.ttb ∧ (replace src dst s).car = s.car ∧
    (replace src dst s).mdf = s.mdf ∧ (replace src dst s).leg = s.leg ∧ (replace src dst s).vlt = s.vlt ∧
    (replace src dst s).slc = s.slc ∧ (replace src dst s).evr = s.evr ∧ (replace src dst s).rng = s.rng ∧
    (replace src dst s).lat = s.lat ∧ (replace src dst s).bnv = s.bnv ∧ (replace src dst s).ucp = s.ucp ∧
    (replace src dst s).wld = s.wld ∧ (replace src dst s).tmp = s.tmp ∧ (replace src dst s).bbr = s.bbr ∧
    (replace src dst s).lcs = s.lcs ∧ (replace src dst s).fuses = s.fuses ∧ (replace src dst s).mnf = s.mnf ∧
    (replace src dst s).flash = s.flash ∧ (replace src dst s).fwu = s.fwu ∧ (replace src dst s).drb = s.drb ∧
    (replace src dst s).mem = s.mem ∧ (replace src dst s).gov = s.gov ∧ (replace src dst s).shown = s.shown := by
  simp [replace]

/-- What `guardErr` leaves. -/
@[simp] theorem guardErr_frame (p : Port) (s : State) :
    (guardErr p s).pending = s.pending ∧ (guardErr p s).out = s.out ∧ (guardErr p s).free = s.free ∧
    (guardErr p s).now = s.now ∧ (guardErr p s).csn = s.csn ∧ (guardErr p s).chp = s.chp ∧
    (guardErr p s).pins = s.pins ∧ (guardErr p s).stats = s.stats ∧ (guardErr p s).win = s.win ∧
    (guardErr p s).ttb = s.ttb ∧ (guardErr p s).car = s.car ∧ (guardErr p s).cay = s.cay ∧
    (guardErr p s).mdf = s.mdf ∧ (guardErr p s).kst = s.kst ∧ (guardErr p s).leg = s.leg ∧
    (guardErr p s).vlt = s.vlt ∧ (guardErr p s).slc = s.slc ∧ (guardErr p s).evr = s.evr ∧
    (guardErr p s).rng = s.rng ∧ (guardErr p s).lat = s.lat ∧ (guardErr p s).bnv = s.bnv ∧
    (guardErr p s).ucp = s.ucp ∧ (guardErr p s).wld = s.wld ∧ (guardErr p s).tmp = s.tmp ∧
    (guardErr p s).bbr = s.bbr ∧ (guardErr p s).lcs = s.lcs ∧ (guardErr p s).fuses = s.fuses ∧
    (guardErr p s).mnf = s.mnf ∧ (guardErr p s).flash = s.flash ∧ (guardErr p s).fwu = s.fwu ∧
    (guardErr p s).drb = s.drb ∧ (guardErr p s).mem = s.mem ∧ (guardErr p s).gov = s.gov ∧
    (guardErr p s).shown = s.shown := by
  simp [guardErr]

/-- What `ucpForce` leaves. -/
@[simp] theorem ucpForce_frame (status : Nat) (s : State) :
    (ucpForce status s).pending = s.pending ∧ (ucpForce status s).out = s.out ∧ (ucpForce status s).free = s.free ∧
    (ucpForce status s).now = s.now ∧ (ucpForce status s).chp = s.chp ∧ (ucpForce status s).pins = s.pins ∧
    (ucpForce status s).hpt = s.hpt ∧ (ucpForce status s).stats = s.stats ∧ (ucpForce status s).win = s.win ∧
    (ucpForce status s).ttb = s.ttb ∧ (ucpForce status s).car = s.car ∧ (ucpForce status s).mdf = s.mdf ∧
    (ucpForce status s).leg = s.leg ∧ (ucpForce status s).vlt = s.vlt ∧ (ucpForce status s).slc = s.slc ∧
    (ucpForce status s).evr = s.evr ∧ (ucpForce status s).rng = s.rng ∧ (ucpForce status s).lat = s.lat ∧
    (ucpForce status s).bnv = s.bnv ∧ (ucpForce status s).wld = s.wld ∧ (ucpForce status s).tmp = s.tmp ∧
    (ucpForce status s).bbr = s.bbr ∧ (ucpForce status s).lcs = s.lcs ∧ (ucpForce status s).fuses = s.fuses ∧
    (ucpForce status s).mnf = s.mnf ∧ (ucpForce status s).flash = s.flash ∧ (ucpForce status s).fwu = s.fwu ∧
    (ucpForce status s).drb = s.drb ∧ (ucpForce status s).mem = s.mem ∧ (ucpForce status s).gov = s.gov ∧
    (ucpForce status s).shown = s.shown := by
  simp [ucpForce]

/-- What `ucpWrote` leaves. -/
@[simp] theorem ucpWrote_frame (u : UcpUser) (s : State) :
    (ucpWrote u s).pending = s.pending ∧ (ucpWrote u s).free = s.free ∧ (ucpWrote u s).now = s.now ∧
    (ucpWrote u s).csn = s.csn ∧ (ucpWrote u s).chp = s.chp ∧ (ucpWrote u s).pins = s.pins ∧
    (ucpWrote u s).win = s.win ∧ (ucpWrote u s).ttb = s.ttb ∧ (ucpWrote u s).car = s.car ∧
    (ucpWrote u s).cay = s.cay ∧ (ucpWrote u s).mdf = s.mdf ∧ (ucpWrote u s).kst = s.kst ∧
    (ucpWrote u s).vlt = s.vlt ∧ (ucpWrote u s).slc = s.slc ∧ (ucpWrote u s).rng = s.rng ∧
    (ucpWrote u s).lat = s.lat ∧ (ucpWrote u s).bnv = s.bnv ∧ (ucpWrote u s).ucp = s.ucp ∧
    (ucpWrote u s).wld = s.wld ∧ (ucpWrote u s).tmp = s.tmp ∧ (ucpWrote u s).bbr = s.bbr ∧
    (ucpWrote u s).lcs = s.lcs ∧ (ucpWrote u s).fuses = s.fuses ∧ (ucpWrote u s).mnf = s.mnf ∧
    (ucpWrote u s).flash = s.flash ∧ (ucpWrote u s).fwu = s.fwu ∧ (ucpWrote u s).drb = s.drb ∧
    (ucpWrote u s).mem = s.mem ∧ (ucpWrote u s).gov = s.gov ∧ (ucpWrote u s).shown = s.shown := by
  unfold ucpWrote
  repeat' split
  all_goals simp

/-- What `ucpSeq` leaves. -/
@[simp] theorem ucpSeq_frame (u : UcpUser) (s : State) :
    (ucpSeq u s).pending = s.pending ∧ (ucpSeq u s).out = s.out ∧ (ucpSeq u s).free = s.free ∧
    (ucpSeq u s).now = s.now ∧ (ucpSeq u s).chp = s.chp ∧ (ucpSeq u s).pins = s.pins ∧ (ucpSeq u s).hpt = s.hpt ∧
    (ucpSeq u s).stats = s.stats ∧ (ucpSeq u s).win = s.win ∧ (ucpSeq u s).ttb = s.ttb ∧ (ucpSeq u s).car = s.car ∧
    (ucpSeq u s).cay = s.cay ∧ (ucpSeq u s).mdf = s.mdf ∧ (ucpSeq u s).kst = s.kst ∧ (ucpSeq u s).leg = s.leg ∧
    (ucpSeq u s).vlt = s.vlt ∧ (ucpSeq u s).slc = s.slc ∧ (ucpSeq u s).evr = s.evr ∧ (ucpSeq u s).rng = s.rng ∧
    (ucpSeq u s).lat = s.lat ∧ (ucpSeq u s).bnv = s.bnv ∧ (ucpSeq u s).ucp = s.ucp ∧ (ucpSeq u s).wld = s.wld ∧
    (ucpSeq u s).tmp = s.tmp ∧ (ucpSeq u s).bbr = s.bbr ∧ (ucpSeq u s).lcs = s.lcs ∧ (ucpSeq u s).fuses = s.fuses ∧
    (ucpSeq u s).mnf = s.mnf ∧ (ucpSeq u s).flash = s.flash ∧ (ucpSeq u s).fwu = s.fwu ∧ (ucpSeq u s).drb = s.drb ∧
    (ucpSeq u s).mem = s.mem ∧ (ucpSeq u s).gov = s.gov ∧ (ucpSeq u s).shown = s.shown := by
  unfold ucpSeq
  repeat' split
  all_goals simp

end Sys2Proof.Laws
end

section
/-! PROOFS. The legacy register and REPL_GO (09_key_slots_tickets_legacy.md). -/
namespace Sys2Proof.Proofs

open Sys2Proof.Machine Sys2Proof.Safety Sys2Proof.Laws

variable {p : Port} {s : State}

theorem inFault_of_wr {b : Blk} (hw : wr p b s = true) : inFault s = false := by
  simp only [wr, Bool.and_eq_true, Bool.not_eq_true'] at hw
  exact hw.1.2

/-- A write that is counted and sequenced leaves what the legacy register's writes read. -/
theorem seqd_cntWr (hF : inFault s = false) : (seqd (cntWr p s)).csn = s.csn + 1 := by
  have hF' : inFault (cntWr p s) = false := hF
  simp [seqd, hF']

/-- What an event of the legacy register leaves: its code, and the record and interrupts beside. -/
theorem legEvent_leg (code : Nat) (s : State) : (legEvent code s).leg = { s.leg with last := code } := by
  simp only [legEvent]
  split <;> simp

/-- Without a user the erasure of the register ends no carriage. -/
theorem legErase_of_noUser (code st : Nat) (hu : legacyUsers (legErased code s) = []) :
    legErase code st s = legErased code s := by
  show (legacyUsers (legErased code s)).foldl (fun s t => stopOne t st 0 s) (legErased code s) = _
  rw [hu]
  rfl

/-- The register with the port that loads it. -/
def withPort (p : Port) (s : State) : State := { s with leg := { s.leg with port := some p } }

/-- A load that begins (R211). -/
def keyLoadBegun (p : Port) (v : Nat) (s : State) : State :=
  let c := legErase 6 stKeyErased (withPort p s)
  { c with leg := { c.leg with
    stage := natLe 4 v, loading := true, next := 1, port := some p, startAt := s.now } }

theorem keyLoadBegun_of_noUser (v : Nat) (hu : legacyUsers s = []) :
    keyLoadBegun p v s = { legErased 6 (withPort p s) with leg := { (legErased 6 (withPort p s)).leg with
      stage := natLe 4 v, loading := true, next := 1, port := some p, startAt := s.now } } := by
  have hcar : (legErased 6 (withPort p s)).car = s.car := by simp [legErased, withPort]
  rw [keyLoadBegun, legErase_of_noUser _ _ (by rw [legacyUsers, hcar]; exact hu)]

/-- A load that LEG_COMMIT ends after 16 words (R211). -/
def keyLoadEnded (s : State) : State :=
  let a := { s with leg := { s.leg with loading := false, next := 0, stage := [] } }
  if s.leg.stage.take 32 == s.leg.stage.drop 32 then legEvent 5 a
  else legEvent 1 { a with leg := { a.leg with
    key := s.leg.stage, loaded := true, commits := satInc 16 s.leg.commits } }

/-- Settles O18: each write in turn. -/
theorem legacyRegisterLoadsAndCommits : Obligations.LegacyRegisterLoadsAndCommits := by
  unfold Obligations.LegacyRegisterLoadsAndCommits
  refine ⟨fun p v s hw hh hl hu => ?_, fun p n v s hw hh hl hp hlate hn hn15 => ?_,
    fun p v s hw hh hl hp hlate hv hn => ?_, fun s hp hF hlate => ?_, fun p n v s hw hh => ?_⟩
  · have hlate : legLate (seqd (cntWr p s)) = false := by simp [legLate, hl]
    have he : exec (.legKey0Write p v) s = .next (keyLoadBegun p v (seqd (cntWr p s))) := by
      have ha : legAbandon 2 (seqd (cntWr p s)) = seqd (cntWr p s) := by simp [legAbandon, hl]
      simp only [exec, execLegKey0Write, legGuarded, hw, hh, hlate, ha, Bool.not_true, Bool.false_eq_true, if_false]
      rfl
    have hb := keyLoadBegun_of_noUser (p := p) v (s := seqd (cntWr p s)) (by simpa [legacyUsers] using hu)
    refine ⟨_, he, ?_, ?_, ?_, ?_⟩
    · rw [hb]
      simp [legErased, withPort, seqd_cntWr (inFault_of_wr hw)]
    · rw [hb]
      simp [legErased, withPort]
    · rw [hb]
      simp [legErased, withPort]
    · rw [hb]
      simp [legErased, withPort, legEvent_leg, hl]
  · subst hn
    have hlate' : legLate (seqd (cntWr p s)) = false := by simpa [legLate] using hlate
    simp [exec, execLegKeyWordWrite, legGuarded, hw, hh, hl, hp, hlate', hn15]
  · have hlate' : legLate (seqd (cntWr p s)) = false := by simpa [legLate] using hlate
    have hv' : v % 4294967296 = 1 := hv
    have hcsn := seqd_cntWr (p := p) (inFault_of_wr hw)
    have he : exec (.legCommit p v) s = .next (keyLoadEnded (seqd (cntWr p s))) := by
      simp [exec, execLegCommit, legGuarded, hw, hh, hl, hp, hlate', hv', hn, keyLoadEnded]
    refine ⟨_, he, by simp [keyLoadEnded, hcsn], by simp [keyLoadEnded], by simp [keyLoadEnded], fun hne => ?_, fun heq => ?_⟩
    · simp [keyLoadEnded, hne, legEvent_leg]
    · simp [keyLoadEnded, heq, legEvent_leg]
  · have hl : s.leg.loading = true := by
      simp only [legLate, Bool.and_eq_true] at hlate
      exact hlate.1
    have ha : legAbandon 3 s = legEvent 3 { s with leg := { s.leg with
        loading := false, stage := [], next := 0, abandonCnt := satInc 16 s.leg.abandonCnt } } := by
      simp [legAbandon, hl]
    refine ⟨legAbandon 3 s, onlyIf_pos (by simp [hp, hF, hlate]), by simp, by simp, by simp, ?_⟩
    rw [ha, legEvent_leg]
  · simp [exec, execLegKey0Write, execLegKeyWordWrite, execLegCommit, legGuarded, hw, hh]

/-! ### REPL_GO -/

variable {src dst : Nat}

/-- A replacement that passes its checks moves a LIVE slot into another (R204). -/
theorem replCheck_ok (h : replCheck s src dst = 0) :
    (slotOf s (hIndex src)).state = .live ∧ (slotOf s (hIndex dst)).state = .live ∧ hIndex src ≠ hIndex dst := by
  simp only [replCheck] at h
  split at h
  · cases h
  split at h
  · cases h
  · next hc =>
    simp only [Bool.or_eq_true, bne_iff_ne, beq_iff_eq, not_or, ne_eq, Decidable.not_not] at hc
    obtain ⟨⟨hs, hd⟩, hne⟩ := hc
    exact ⟨hs, hd, hne⟩

/-- The checks of a replacement read the key store alone. -/
theorem replCheck_congr {t : State} (h : t.kst = s.kst) : replCheck t src dst = replCheck s src dst := by
  unfold replCheck handleLive slotOf
  rw [h]

/-- What a replacement makes of the destination `d`, from source `x`, at time `now` (R204). -/
def replacedSlot (x d : Slot) (now : Nat) : Slot :=
  { x with
    gen := genNext d.gen, use := 0
    retained := d.use != 0, retGen := if d.use == 0 then 0 else d.gen, retUse := d.use
    retShare0 := if d.use == 0 then 0 else d.share0, retShare1 := if d.use == 0 then 0 else d.share1
    retBase := if d.use == 0 then 0 else d.base
    retAt := if d.use == 0 then 0 else now }

/-- The destination replaced, before its source goes. -/
def destReplaced (src dst : Nat) (s : State) : State :=
  let a := updSlot (hIndex dst) (fun d => replacedSlot (slotOf s (hIndex src)) d s.now) s
  if (slotOf s (hIndex dst)).use == 0 then purgeStaging (· == .slot (hIndex dst) (slotOf s (hIndex dst)).gen) a else a

theorem replace_eq (src dst : Nat) (s : State) : replace src dst s =
    updSlot (hIndex src) (fun x => { x with gen := genNext x.gen }) (zeroiseSlot (hIndex src) (destReplaced src dst s)) := rfl

/-- Equal slots show equal entries. -/
theorem slotOf_destReplaced (src dst k : Nat) (s : State) : slotOf (destReplaced src dst s) k =
    slotOf (updSlot (hIndex dst) (fun d => replacedSlot (slotOf s (hIndex src)) d s.now) s) k := by
  unfold destReplaced
  dsimp only
  split <;> rfl

/-- The slots that a replacement leaves. -/
theorem slotOf_replace (hok : tablesOk s = true) (hx : (slotOf s (hIndex src)).state = .live)
    (hne : hIndex src ≠ hIndex dst) :
    slotOf (replace src dst s) (hIndex src) = { zeroisedSlot (slotOf s (hIndex src)) with
      gen := genNext (slotOf s (hIndex src)).gen } ∧
    slotOf (replace src dst s) (hIndex dst) = replacedSlot (slotOf s (hIndex src)) (slotOf s (hIndex dst)) s.now ∧
    ∀ k, k ≠ hIndex src → k ≠ hIndex dst → slotOf (replace src dst s) k = slotOf s k := by
  have hw : twf {} s.kst.slots = true := (tablesOk_parts s hok).2.2.2.2.2.2.2.2.2.2.1
  have hsl : (destReplaced src dst s).kst.slots =
      tupd {} s.kst.slots (hIndex dst) (fun d => replacedSlot (slotOf s (hIndex src)) d s.now) := by
    unfold destReplaced
    dsimp only
    split <;> rfl
  have hwd : twf {} (destReplaced src dst s).kst.slots = true := by
    rw [hsl]
    exact twf_tupd _ _ _ _ hw
  have hwz : twf {} (zeroiseSlot (hIndex src) (destReplaced src dst s)).kst.slots = true := by
    simp only [zeroiseSlot, purgeStaging, updCay, updKst, updSlot]
    exact twf_tupd _ _ _ _ hwd
  refine ⟨?_, ?_, fun k hk hk' => ?_⟩
  · rw [replace_eq, slotOf_updSlot _ _ _ hwz, slotOf_zeroiseSlot _ hwd, slotOf_destReplaced, slotOf_updSlot_ne _ _ _ _ hne]
    rfl
  · rw [replace_eq, slotOf_updSlot_ne _ _ _ _ hne.symm, slotOf_zeroiseSlot_ne hne.symm, slotOf_destReplaced,
      slotOf_updSlot _ _ _ hw]
  · rw [replace_eq, slotOf_updSlot_ne _ _ _ _ hk, slotOf_zeroiseSlot_ne hk, slotOf_destReplaced,
      slotOf_updSlot_ne _ _ _ _ hk']

/-- REPL_GO, counted and sequenced, with its report. -/
def replAsked (p : Port) (e : Nat) (s : State) : State :=
  updWin p (fun w => { w with replStat := e }) (seqd (legTouch p (cntWr p s)))

theorem replAsked_stat (p : Port) (e : Nat) (s : State) : ((replAsked p e s).win.get p).replStat = e := by
  simp [replAsked, updWin]

theorem replAsked_csn (e : Nat) (hF : inFault s = false) : (replAsked p e s).csn = s.csn + 1 := by
  have hF' : inFault (legTouch p (cntWr p s)) = false := by simpa [inFault] using hF
  simp [replAsked, seqd, hF']

/-- REPL_GO checks its two handles, and replaces where nothing stops it. -/
theorem execReplGo_reached (hw : wr p .kst s = true) : exec (.replGo p) s =
    .next (if replCheck s (s.win.get p).replSrc (s.win.get p).replDst == 0 then
        replaceSlot (s.win.get p).replSrc (s.win.get p).replDst
          (replAsked p (replCheck s (s.win.get p).replSrc (s.win.get p).replDst) s)
      else replAsked p (replCheck s (s.win.get p).replSrc (s.win.get p).replDst) s) := by
  have hwin : (seqd (legTouch p (cntWr p s))).win = s.win := by simp
  have hk : (seqd (legTouch p (cntWr p s))).kst = s.kst := by simp
  simp only [exec, execReplGo, hw, Bool.not_true, Bool.false_eq_true, if_false, hwin, replCheck_congr hk]
  rfl

/-- Settles O19: REPL_GO by its check. -/
theorem replaceMovesMaterial : Obligations.ReplaceMovesMaterial := by
  unfold Obligations.ReplaceMovesMaterial
  refine ⟨fun p s hok hw hc hr => ?_, fun p s hw hc hr => ?_, fun p s hw hc => ?_⟩
  · obtain ⟨hx, -, hne⟩ := replCheck_ok hc
    have hk : (replAsked p 0 s).kst = s.kst := by simp [replAsked]
    have hs : ∀ k, slotOf (replAsked p 0 s) k = slotOf s k := fun k => by simp only [slotOf, hk]
    have hn : (replAsked p 0 s).now = s.now := by simp [replAsked]
    have hokA : tablesOk (replAsked p 0 s) = true := by
      obtain ⟨-, ht, -⟩ := seqd_keeps (legTouch_keeps p (cntWr_keeps p (Keeps.refl {} s)))
      exact ht hok
    obtain ⟨h1, h2, h3⟩ := slotOf_replace hokA (by rw [hs]; exact hx) hne
    simp only [hs, hn] at h1 h2 h3
    refine ⟨replace (s.win.get p).replSrc (s.win.get p).replDst (replAsked p 0 s), ?_, ?_, ?_, ?_, ?_, ?_⟩
    · rw [execReplGo_reached hw, hc, if_pos (beq_self_eq_true 0), replaceSlot, hs, hr]
      rfl
    · simpa using replAsked_stat p 0 s
    · simpa using replAsked_csn 0 (inFault_of_wr hw)
    · simp [replAsked]
    · simp [replAsked]
    · dsimp only
      rw [h1, h2]
      refine ⟨rfl, rfl, rfl, hx, rfl, rfl, rfl, rfl, rfl, rfl, rfl, rfl, fun hu => ?_, h3⟩
      simp [replacedSlot, hu]
  · have hs : slotOf (replAsked p 0 s) (hIndex (s.win.get p).replSrc) = slotOf s (hIndex (s.win.get p).replSrc) := by
      simp [slotOf, replAsked]
    rw [execReplGo_reached hw, hc, if_pos (beq_self_eq_true 0), replaceSlot, hs, hr]
    rfl
  · exact ⟨_, by rw [execReplGo_reached hw, if_neg (by simpa using hc)], replAsked_stat _ _ _, by simp [replAsked],
      replAsked_csn _ (inFault_of_wr hw)⟩

end Sys2Proof.Proofs
end

section
/-! PROOFS. The utility cipher's lock (12_lattice_bignum_utility.md, R274, R275). -/
namespace Sys2Proof.Proofs

open Sys2Proof.Machine Sys2Proof.Safety Sys2Proof.Laws

variable {p : Port} {s : State}

theorem ucpReach_of_wr (hw : wr p .ucp s = true) : ucpReach (.port p) s = true := hw

/-- An answer adds itself to the outputs. -/
theorem ucpAnswer_port (p : Port) (v : Nat) (s : State) :
    (ucpAnswer (.port p) v s).out = s.out ++ [.answer p v] ∧ (ucpAnswer (.port p) v s).ucp = s.ucp ∧
    (ucpAnswer (.port p) v s).csn = s.csn ∧ (ucpAnswer (.port p) v s).car = s.car ∧ (ucpAnswer (.port p) v s).kst = s.kst := by
  simp only [ucpAnswer, answer, emit, cntRd]
  split <;> simp

/-- The lock granted to a port. -/
def ucpGranted (p : Port) (s : State) : State :=
  seqd (updUcp (fun c => { c with
    holder := some (.port p), ticket := ticketNext c.ticket, waiter := false, forced := false, idleFrom := s.now }) s)

theorem userCode_port (p : Port) : userCode (.port p) = p.num + 1 := by cases p <;> rfl

/-- A read of the free lock grants it (R274). -/
theorem lockAcquire_free (hw : wr p .ucp s = true) (hh : s.ucp.holder = none) :
    exec (.ucpLockAcquire (.port p)) s =
      .next (ucpAnswer (.port p) (2 ^ 31 + (p.num + 1) * 2 ^ 29 + ticketNext s.ucp.ticket) (ucpGranted p s)) := by
  have hF : inFault s = false := inFault_of_wr hw
  simp only [exec, execUcpLockAcquire, ucpReach_of_wr hw, hh, userCode_port]
  simp [ucpGranted]

/-- A read of the lock that another holds leaves a waiter (R274). -/
theorem lockAcquire_held {h : UcpUser} (hw : wr p .ucp s = true) (hh : s.ucp.holder = some h) (hne : h ≠ .port p) :
    exec (.ucpLockAcquire (.port p)) s =
      .next (ucpAnswer (.port p) 0 (updUcp (fun c => { c with waiter := true }) s)) := by
  simp [exec, execUcpLockAcquire, ucpReach_of_wr hw, hh, hne]

/-- Settles O29: the lock by who holds it. -/
theorem utilityLockChangesHands : Obligations.UtilityLockChangesHands := by
  unfold Obligations.UtilityLockChangesHands
  refine ⟨fun p s hw => ⟨fun hh => ?_, fun hh => ?_⟩, fun p v s hw hh hv hb => ?_, fun s hp hF hh hb hn => ?_⟩
  · have hF : inFault s = false := inFault_of_wr hw
    obtain ⟨ho, hu, hc, hcar, hk⟩ := ucpAnswer_port p (2 ^ 31 + (p.num + 1) * 2 ^ 29 + ticketNext s.ucp.ticket) (ucpGranted p s)
    refine ⟨_, lockAcquire_free hw hh, ?_, ?_, ?_, ?_, ?_⟩
    · exact hc.trans (seqd_csn _ hF)
    · simpa [ucpGranted] using hcar
    · simpa [ucpGranted] using hk
    · simpa [ucpGranted, updUcp] using hu
    · simpa [ucpGranted] using ho
  · have hne : ∃ h, s.ucp.holder = some h ∧ h ≠ .port p := by
      rcases hh with h | h
      · exact ⟨_, h, by cases p <;> decide⟩
      · exact ⟨_, h, by simp⟩
    obtain ⟨h, hs, hne⟩ := hne
    obtain ⟨ho, hu, hc, -, -⟩ := ucpAnswer_port p 0 (updUcp (fun c => { c with waiter := true }) s)
    exact ⟨_, lockAcquire_held hw hs hne, hc, hu, ho⟩
  · have hF : inFault s = false := inFault_of_wr hw
    refine ⟨ucpClear false (seqd (legTouch p (cntWr p s))), ?_, ?_, ?_⟩
    · have hv' : v % 65536 = s.ucp.ticket := hv
      simp [exec, execUcpLockRelease, ucpReach_of_wr hw, ucpWrote, ucpSeq, hh, hv', hb]
    · have hF' : inFault (legTouch p (cntWr p s)) = false := by simpa [inFault] using hF
      simp [seqd, hF']
    · simp [ucpClear, updUcp]
  · have he : ucpEnd stAborted 0 s = s := by simp [ucpEnd, hb]
    refine ⟨seqd (ucpClear true s), ?_, ?_, ?_⟩
    · have hi : s.ucp.holder ≠ none := fun h => by simp [h] at hh
      have hf : ucpForce stAborted s = seqd (ucpClear true s) := by rw [ucpForce, he, if_neg (by simpa using hi)]
      rw [← hf]
      exact onlyIf_pos (by simp [hp, hF, hh, hb, hn])
    · have hF' : inFault (ucpClear true s) = false := hF
      simp [seqd, hF']
    · simp [ucpClear, updUcp]

end Sys2Proof.Proofs
end

section
/-! PROOFS. The legacy path (05_carriages.md, R113; 06_cipher_array.md, R134, R143). -/
namespace Sys2Proof.Proofs

open Sys2Proof.Machine Sys2Proof.Safety Sys2Proof.Laws

variable {t op : Nat} {s : State}

/-- A carriage at one stage of an operation is at no other. -/
theorem isAt_running_of_admitted (h : isAt s t op .running = true) : isAt s t op .admitted = false := by
  simp only [isAt, Bool.and_eq_true, beq_iff_eq] at h
  simp [isAt, h.2]

theorem eOp_of_isAt {st : Stage} (h : isAt s t op st = true) : eOp (carrOf s t).entry = op := by
  simp only [isAt, Bool.and_eq_true, beq_iff_eq] at h
  exact h.1.2

theorem stage_of_isAt {st : Stage} (h : isAt s t op st = true) : (carrOf s t).stage = st := by
  simp only [isAt, Bool.and_eq_true, beq_iff_eq] at h
  exact h.2

/-- A carriage that begins runs, and is as it was else. -/
theorem carrOf_begin (t : Nat) (s : State) : carrOf (begin_ t s) t = { carrOf s t with stage := .running, started := true } :=
  carrOf_updCarr_of _ _ _ (fun h => by cases congrArg Carriage.stage h)

/-- What a carriage that begins gives its first piece. -/
theorem legacyPiece_begin (t : Nat) (s : State) :
    legacyPiece t 0 (begin_ t s) =
      match reservePiece t 0 (begin_ t s) with
      | none => updSeg t 0 (fun g => { g with st := .idle, left := 0 }) (begin_ t s)
      | some a =>
        if eOp (carrOf s t).entry == 0x08 then
          issue (srcDrive (carrOf s t)) (.legacyRead 0) (some t) (tLba (eTarget (carrOf s t).entry) + 0)
            (pieceBlocks s (carrOf s t) 0) (updSeg t 0 (fun g => { g with st := .fetching }) a)
        else readBuffer (.data t 0) t (4096 * 0) (4096 * pieceBlocks s (carrOf s t) 0)
          (updSeg t 0 (fun g => { g with st := .fetching }) a) := by
  simp only [legacyPiece, carrOf_begin]
  rfl

theorem legacyRow_admitted (f : Nat → State → State) (h : isAt s t op .admitted = true) :
    legacyRow t op f s = .next (legacyPiece t 0 (begin_ t s)) := by simp [legacyRow, h]

/-- A piece that has come is run on cell 0 once the cell is free and holds the key. -/
theorem legacyRow_ready (f : Nat → State → State) (h : isAt s t op .running = true) (hst : (segOf s t 0).st = .ready)
    (hc : legacyCell s = true) (hd : s.tmp.dataStop = false) :
    legacyRow t op f s = .next (f t (touchKey 0 0 .legacy s)) := by
  simp [legacyRow, h, isAt_running_of_admitted h, hst, onlyIf, hc, hd]

/-- Settles O35: the rows of the legacy carriages by the state of their piece. -/
theorem legacyPathRunsPieceByPiece : Obligations.LegacyPathRunsPieceByPiece := by
  unfold Obligations.LegacyPathRunsPieceByPiece
  refine ⟨fun t op c s hc hat => ?_, fun t s hat hst hcell hd => legacyRow_ready legacyDecrypt hat hst hcell hd,
    fun t s hat hst hcell hd => legacyRow_ready legacyEncrypt hat hst hcell hd⟩
  have he : exec c s = .next (legacyPiece t 0 (begin_ t s)) := by
    rcases hc with ⟨rfl, rfl⟩ | ⟨rfl, rfl⟩
    · exact legacyRow_admitted legacyDecrypt hat
    · exact legacyRow_admitted legacyEncrypt hat
  have hop := eOp_of_isAt hat
  rw [he, legacyPiece_begin]
  refine ⟨fun hr => by rw [hr], fun a hr => ⟨fun h8 => ?_, fun h9 => ?_⟩⟩
  · rw [hr, hop, h8]
    rfl
  · rw [hr, hop, h9]
    rfl

end Sys2Proof.Proofs
end

section
/-! SUPPORT. What the steps of a train carriage leave of the state and of the carriage (06_cipher_array.md). -/
namespace Sys2Proof.Laws

open Sys2Proof.Machine Sys2Proof.Safety

/-- What the reservations of a train carriage and its segments' progress leave of the carriage. -/
def trainView (c : Carriage) : Carriage :=
  { c with segs := [], trailer := .none, trailerHold := [], trailerAt := 0, degraded := false }

/-- The state after a step of a train carriage: the carriages, the array, the media fabric and what is sent may differ,
and of a carriage only what its reservations and its segments' progress change. -/
structure TrainStep (s u : State) : Prop where
  rest : u = { s with out := u.out, stats := u.stats, car := u.car, cay := u.cay, mdf := u.mdf }
  view : ∀ t, (carrOf s t).stage ≠ .free → trainView (carrOf u t) = trainView (carrOf s t)

variable {s u v : State} {t : Nat}

theorem TrainStep.refl (s : State) : TrainStep s s := ⟨rfl, fun _ _ => rfl⟩

theorem stage_of_trainView {c d : Carriage} (h : trainView c = trainView d) : c.stage = d.stage :=
  show (trainView c).stage = (trainView d).stage by rw [h]

theorem TrainStep.trans (h : TrainStep s u) (k : TrainStep u v) : TrainStep s v := by
  refine ⟨?_, fun t ht => ?_⟩
  · rw [k.rest, h.rest]
  · have hu := h.view t ht
    exact (k.view t (by rwa [stage_of_trainView hu])).trans hu

theorem TrainStep.ite {c : Prop} [Decidable c] (h : TrainStep s u) (k : TrainStep s v) : TrainStep s (if c then u else v) := by
  split <;> assumption

/-- A step that leaves the carriages. -/
theorem TrainStep.of_cars (h : u = { s with out := u.out, stats := u.stats, cay := u.cay, mdf := u.mdf }) : TrainStep s u := by
  have hc : u.car = s.car := by
    have := congrArg State.car h
    exact this
  exact ⟨by rw [hc]; exact h, fun t _ => by rw [carrOf_congr (congrArg Car.cars hc) t]⟩

/-- A change of a carriage that its view does not see. -/
theorem updCarr_trainStep {f : Carriage → Carriage} (k : Nat) (hf : ∀ c, trainView (f c) = trainView c)
    (h : TrainStep s u) : TrainStep s (updCarr k f u) := by
  refine h.trans ⟨rfl, fun t ht => ?_⟩
  by_cases h : t = k
  · subst h
    have hne : f (carrOf u t) ≠ {} := fun h0 => ht (by rw [← stage_of_trainView (hf _), h0])
    rw [carrOf_updCarr_of _ _ _ hne, hf]
  · rw [carrOf_updCarr_ne _ _ _ _ h]

theorem updSeg_trainStep (k p : Nat) (f : Seg → Seg) (h : TrainStep s u) : TrainStep s (updSeg k p f u) :=
  updCarr_trainStep k (fun _ => rfl) h

theorem markStaging_trainStep (x : Nat) (h : TrainStep s u) : TrainStep s (markStaging x u) := h.trans (.of_cars rfl)

theorem markAll_trainStep (h : TrainStep s u) : TrainStep s (markAll u) :=
  markStaging_trainStep 3 (markStaging_trainStep 2 (markStaging_trainStep 1 (markStaging_trainStep 0 h)))

theorem countSpill_trainStep (d : Nat) (l : List (Nat × Nat)) (h : TrainStep s u) : TrainStep s (countSpill d l u) :=
  h.trans (.of_cars rfl)

theorem markDegraded_trainStep (k : Nat) (far : Bool) (h : TrainStep s u) : TrainStep s (markDegraded k far u) :=
  updCarr_trainStep k (fun _ => rfl) h

theorem reserveSrc_trainStep {p : Nat} {a : State} (e : reserveSrc t p u = some a) (h : TrainStep s u) : TrainStep s a := by
  simp only [reserveSrc, Option.map_eq_some_iff] at e
  obtain ⟨y, -, rfl⟩ := e
  exact countSpill_trainStep _ _ (markDegraded_trainStep _ _ (updSeg_trainStep _ _ _ h))

theorem reserveDst_trainStep {p : Nat} {a : State} (e : reserveDst t p u = some a) (h : TrainStep s u) : TrainStep s a := by
  simp only [reserveDst, Option.map_eq_some_iff] at e
  obtain ⟨y, -, rfl⟩ := e
  exact markDegraded_trainStep _ _ (updSeg_trainStep _ _ _ h)

theorem reserveSeg_trainStep {p : Nat} {a : State} (e : reserveSeg t p u = some a) (h : TrainStep s u) : TrainStep s a := by
  simp only [reserveSeg, Option.map_eq_some_iff, Option.bind_eq_some_iff] at e
  obtain ⟨y, ⟨x, hx, hy⟩, rfl⟩ := e
  refine markAll_trainStep ?_
  split at hy
  · exact reserveDst_trainStep hy (reserveSrc_trainStep hx h)
  · cases hy
    exact reserveSrc_trainStep hx h

theorem reserveTrailer_trainStep {d : Nat} {a : State} (e : reserveTrailer t d u = some a) (h : TrainStep s u) :
    TrainStep s a := by
  simp only [reserveTrailer, Option.map_eq_some_iff] at e
  obtain ⟨y, -, rfl⟩ := e
  exact markAll_trainStep (countSpill_trainStep _ _ (updCarr_trainStep t (fun _ => rfl) h))

theorem readBuffer_trainStep (w : DmaRead) (k off n : Nat) (h : TrainStep s u) : TrainStep s (readBuffer w k off n u) := by
  refine h.trans (.of_cars ?_)
  unfold readBuffer dmaReads
  dsimp only
  split <;> rfl

theorem updDrive_trainStep (d : Nat) (f : Drive → Drive) (h : TrainStep s u) : TrainStep s (updDrive d f u) :=
  h.trans (.of_cars rfl)

theorem sendCmd_trainStep (d : Nat) (k : CmdKind) (tag : Option Nat) (lba blocks : Nat) (h : TrainStep s u) :
    TrainStep s (sendCmd d k tag lba blocks u) := h.trans (.of_cars rfl)

theorem pumpN_trainStep (n d : Nat) (l : List (CmdKind × Option Nat × Nat × Nat)) (h : TrainStep s u) :
    TrainStep s (pumpN n d l u) := by
  induction n generalizing l u with
  | zero => exact h
  | succ n ih =>
    cases l with
    | nil => exact h
    | cons w ws => exact .ite (ih _ (sendCmd_trainStep _ _ _ _ _ (updDrive_trainStep _ _ h))) (ih _ h)

theorem issue_trainStep (d : Nat) (k : CmdKind) (tag : Option Nat) (lba blocks : Nat) (h : TrainStep s u) :
    TrainStep s (issue d k tag lba blocks u) := pumpN_trainStep _ _ _ (updDrive_trainStep _ _ h)

theorem readySeg_trainStep (k p : Nat) (f : Seg → Seg) (h : TrainStep s u) : TrainStep s (readySeg k p f u) :=
  markStaging_trainStep _ (updSeg_trainStep _ _ _ h)

theorem TrainStep.foldl {α : Type} {f : State → α → State} (hf : ∀ u x, TrainStep s u → TrainStep s (f u x)) (l : List α)
    (h : TrainStep s u) : TrainStep s (l.foldl f u) := by
  induction l generalizing u with
  | nil => exact h
  | cons x l ih => exact ih (hf u x h)

theorem readSeg_trainStep (k p : Nat) (h : TrainStep s u) : TrainStep s (readSeg k p u) :=
  .foldl (fun _ _ h => issue_trainStep _ _ _ _ _ h) _ (readySeg_trainStep _ _ _ h)

theorem readAhead_trainStep (n k : Nat) (h : TrainStep s u) : TrainStep s (readAhead n k u) := by
  induction n generalizing u with
  | zero => exact h
  | succ n ih =>
    unfold readAhead
    split
    · exact h
    · split
      · exact h
      · next e => exact ih (readSeg_trainStep _ _ (reserveSeg_trainStep e h))

theorem fetchNext_trainStep (k : Nat) (h : TrainStep s u) : TrainStep s (fetchNext k u) := by
  unfold fetchNext
  dsimp only
  split
  · exact h
  · refine .ite h ?_
    split
    · exact h
    · next e => exact readBuffer_trainStep _ _ _ _ (readySeg_trainStep _ _ _ (reserveSeg_trainStep e h))

theorem readTrailer_trainStep (k : Nat) (h : TrainStep s u) : TrainStep s (readTrailer k u) := by
  unfold readTrailer
  dsimp only
  split
  · exact h
  · next e => exact issue_trainStep _ _ _ _ _ (reserveTrailer_trainStep e (updCarr_trainStep k (fun _ => rfl) h))

theorem writeTrailer_trainStep (k : Nat) (h : TrainStep s u) : TrainStep s (writeTrailer k u) := by
  unfold writeTrailer
  dsimp only
  split
  · exact h
  · next e => exact issue_trainStep _ _ _ _ _ (reserveTrailer_trainStep e (updCarr_trainStep k (fun _ => rfl) h))

/-- A step of a train carriage. -/
theorem advance_trainStep (k : Nat) (h : TrainStep s u) : TrainStep s (advance k u) :=
  .ite h (.ite (.ite h (writeTrailer_trainStep k h)) (.ite (fetchNext_trainStep k h)
    (.ite (readAhead_trainStep _ k h) (.ite (readTrailer_trainStep k h) h))))

end Sys2Proof.Laws
end

section
/-! PROOFS. Train carriages begin (05_carriages.md, R111; 06_cipher_array.md, R135-R138). -/
namespace Sys2Proof.Proofs

open Sys2Proof.Machine Sys2Proof.Safety Sys2Proof.Laws

variable {t op : Nat} {s : State}

/-- Rows of the train carriages that are admitted: the carriage begins. -/
theorem trainRow_admitted (h : isAt s t op .admitted = true) : trainRow t op s = .next (advance t (begin_ t s)) := by
  simp [trainRow, h, beginTrain]

/-- What a carriage that begins keeps but for its reservations. -/
theorem advance_begin_stage (t : Nat) (s : State) :
    (carrOf (advance t (begin_ t s)) t).stage = .running ∧ (carrOf (advance t (begin_ t s)) t).started = true := by
  have hb := carrOf_begin t s
  have hv := (advance_trainStep t (.refl (begin_ t s))).view t (by rw [hb]; simp)
  rw [hb] at hv
  exact ⟨show (trainView _).stage = _ by rw [hv]; rfl, show (trainView _).started = _ by rw [hv]; rfl⟩

/-- A carriage that begins takes no CSN and changes no key. -/
theorem advance_begin_rest (t : Nat) (s : State) :
    (advance t (begin_ t s)).csn = s.csn ∧ (advance t (begin_ t s)).kst = s.kst := by
  have hr := (advance_trainStep t (.refl (begin_ t s))).rest
  rw [hr]
  exact ⟨by simp, by simp⟩

/-- The first number below the bound that passes the test is below it and passes. -/
theorem firstFrom_some {n k p : Nat} {f : Nat → Bool} (h : firstFrom n k f = some p) : p < k + n ∧ f p = true := by
  induction n generalizing k with
  | zero => cases h
  | succ n ih =>
    unfold firstFrom at h
    split at h
    · next hf =>
      cases h
      exact ⟨by omega, hf⟩
    · obtain ⟨hp, hf⟩ := ih h
      exact ⟨by omega, hf⟩

theorem firstBelow_some {n p : Nat} {f : Nat → Bool} (h : firstBelow n f = some p) : p < n ∧ f p = true := by
  simpa using firstFrom_some h

/-- A carriage with an idle segment is not done with all of them. -/
theorem allDone_of_nextIdle {c : Carriage} {p : Nat} (h : nextIdle c = some p) : allDone c = false := by
  obtain ⟨hlt, hi⟩ := firstBelow_some h
  refine List.all_eq_false.mpr ⟨p, List.mem_range.mpr hlt, ?_⟩
  simp only [beq_iff_eq] at hi
  simp [hi]

/-- An INGEST that begins fetches its first segment once it is reserved. -/
theorem advance_ingest (hop : eOp (carrOf s t).entry = 0x01) (hn : nextIdle (carrOf s t) = some 0) {a : State}
    (ha : reserveSeg t 0 (begin_ t s) = some a) :
    advance t (begin_ t s) = readBuffer (.data t 0) t (segOff (carrOf s t).entry 0) (segLen (carrOf s t).entry 0)
      (readySeg t 0 (fun g => { g with st := .fetching, left := 1 }) a) := by
  have hd := allDone_of_nextIdle hn
  have hs : eOp (carrOf (begin_ t s) t).entry = 0x01 := by rw [carrOf_begin]; exact hop
  have hd' : allDone (carrOf (begin_ t s) t) = false := by rw [carrOf_begin]; exact hd
  have hn' : nextIdle (carrOf (begin_ t s) t) = some 0 := by rw [carrOf_begin]; exact hn
  have hst : (carrOf (begin_ t s) t).stage = .running := by rw [carrOf_begin]
  simp only [advance, hst, hd', hs, fetchNext, hn', ha]
  simp [carrOf_begin]

/-- The readers ask for the trailer block once it is reserved. -/
theorem advance_reader (hop : eOp (carrOf s t).entry = 0x02 ∨ eOp (carrOf s t).entry = 0x03 ∨ eOp (carrOf s t).entry = 0x04)
    (hl : isLegacy (carrOf s t).entry = false) (htr : (carrOf s t).trailer = .none)
    (hd : eOp (carrOf s t).entry = 0x04 → allDone (carrOf s t) = false) :
    advance t (begin_ t s) = readTrailer t (begin_ t s) := by
  have hst : (carrOf (begin_ t s) t).stage = .running := by rw [carrOf_begin]
  have hw : (writesTrain (carrOf (begin_ t s) t) && allDone (carrOf (begin_ t s) t)) = false := by
    rw [carrOf_begin]
    rcases hop with h | h | h
    · simp [writesTrain, h]
    · simp [writesTrain, h]
    · exact Bool.and_eq_false_imp.mpr fun _ => hd h
  have h1 : eOp (carrOf (begin_ t s) t).entry ≠ 0x01 := by
    rw [carrOf_begin]
    rcases hop with h | h | h <;> simp [h]
  have hl' : isLegacy (carrOf (begin_ t s) t).entry = false := by rw [carrOf_begin]; exact hl
  have htr' : (carrOf (begin_ t s) t).trailer = .none := by rw [carrOf_begin]; exact htr
  simp [advance, hst, hw, h1, hl', htr']

/-- Reads asked of the host leave the carriages. -/
theorem readBuffer_car (w : DmaRead) (k off n : Nat) (s : State) : (readBuffer w k off n s).car = s.car := by
  unfold readBuffer dmaReads
  dsimp only
  split <;> rfl

/-- A command issued to a drive leaves the carriages. -/
theorem pumpN_car (n d : Nat) (l : List (CmdKind × Option Nat × Nat × Nat)) (s : State) : (pumpN n d l s).car = s.car := by
  induction n generalizing l s with
  | zero => rfl
  | succ n ih =>
    cases l with
    | nil => rfl
    | cons w ws =>
      unfold pumpN
      split
      · exact ih _ _
      · exact ih _ _

theorem issue_car (d : Nat) (k : CmdKind) (tag : Option Nat) (lba blocks : Nat) (s : State) :
    (issue d k tag lba blocks s).car = s.car := pumpN_car _ _ _ _

/-- The segment that an INGEST fetches first. -/
theorem segOf_advance_ingest (hop : eOp (carrOf s t).entry = 0x01) (hn : nextIdle (carrOf s t) = some 0)
    (ha : (reserveSeg t 0 (begin_ t s)).isSome = true) :
    (segOf (advance t (begin_ t s)) t 0).st = .fetching ∧ (segOf (advance t (begin_ t s)) t 0).left = 1 := by
  obtain ⟨a, ha⟩ := Option.isSome_iff_exists.mp ha
  have hst : (carrOf a t).stage = .running := by
    have hv := (reserveSeg_trainStep ha (.refl _)).view t (by rw [carrOf_begin]; simp)
    rw [stage_of_trainView hv, carrOf_begin]
  have hseg : segOf (updSeg t 0 (fun g => { g with st := .fetching, left := 1 }) a) t 0 =
      { segOf a t 0 with st := .fetching, left := 1 } := by
    have hc : carrOf (updSeg t 0 (fun g => { g with st := .fetching, left := 1 }) a) t =
        { carrOf a t with segs := tupd {} (carrOf a t).segs 0 (fun g => { g with st := .fetching, left := 1 }) } :=
      carrOf_updCarr_of _ _ _ (fun h => by
        have := congrArg Carriage.stage h
        rw [show ({ carrOf a t with segs := _ } : Carriage).stage = (carrOf a t).stage from rfl, hst] at this
        cases this)
    rw [segOf, hc]
    exact tget_tupd_of_ne {} (carrOf a t).segs 0 (fun g => { g with st := .fetching, left := 1 })
      (fun h => by cases congrArg Seg.st h)
  have hcar : (advance t (begin_ t s)).car = (updSeg t 0 (fun g => { g with st := .fetching, left := 1 }) a).car := by
    rw [advance_ingest hop hn ha, readBuffer_car]
    rfl
  have he : segOf (advance t (begin_ t s)) t 0 = segOf (updSeg t 0 (fun g => { g with st := .fetching, left := 1 }) a) t 0 := by
    simp only [segOf, carrOf, hcar]
  rw [he, hseg]
  exact ⟨rfl, rfl⟩

theorem markStaging_car (x : Nat) (s : State) : (markStaging x s).car = s.car := rfl

theorem markAll_car (s : State) : (markAll s).car = s.car := by simp only [markAll, markStaging_car]

theorem countSpill_car (d : Nat) (l : List (Nat × Nat)) (s : State) : (countSpill d l s).car = s.car := rfl

/-- A reservation for the trailer leaves what becomes of it. -/
theorem reserveTrailer_trailer {d : Nat} {a u : State} (h : reserveTrailer t d u = some a) (hs : (carrOf u t).stage ≠ .free) :
    (carrOf a t).trailer = (carrOf u t).trailer := by
  simp only [reserveTrailer, Option.map_eq_some_iff] at h
  obtain ⟨y, -, rfl⟩ := h
  rw [carrOf_congr (congrArg Car.cars (markAll_car _)), carrOf_congr (congrArg Car.cars (countSpill_car _ _ _)),
    carrOf_updCarr_of _ _ _ (fun h0 => hs (congrArg Carriage.stage h0))]

/-- A reader that begins asks for the trailer block where it is reserved, and waits otherwise. -/
theorem readTrailer_reserved {a : State}
    (h : reserveTrailer t (srcDrive (carrOf s t)) (updCarr t (fun c => { c with trailer := .reading }) (begin_ t s)) = some a) :
    readTrailer t (begin_ t s) = issue (srcDrive (carrOf s t)) .trailerRead (some t) (eTrailerLba (carrOf s t).entry) 1 a := by
  have hd : srcDrive (carrOf (begin_ t s) t) = srcDrive (carrOf s t) := by rw [carrOf_begin]; rfl
  have he : (carrOf (begin_ t s) t).entry = (carrOf s t).entry := by rw [carrOf_begin]
  simp only [readTrailer, hd, he, h]

theorem readTrailer_waits
    (h : reserveTrailer t (srcDrive (carrOf s t)) (updCarr t (fun c => { c with trailer := .reading }) (begin_ t s)) = none) :
    readTrailer t (begin_ t s) = begin_ t s := by
  have hd : srcDrive (carrOf (begin_ t s) t) = srcDrive (carrOf s t) := by rw [carrOf_begin]; rfl
  simp only [readTrailer, hd, h]

/-- The trailer of a reader that begins is being read once it is reserved. -/
theorem trailer_advance_reader
    (hop : eOp (carrOf s t).entry = 0x02 ∨ eOp (carrOf s t).entry = 0x03 ∨ eOp (carrOf s t).entry = 0x04)
    (hl : isLegacy (carrOf s t).entry = false) (htr : (carrOf s t).trailer = .none)
    (hd : eOp (carrOf s t).entry = 0x04 → allDone (carrOf s t) = false)
    (ha : (reserveTrailer t (srcDrive (carrOf s t)) (updCarr t (fun c => { c with trailer := .reading }) (begin_ t s))).isSome =
      true) : (carrOf (advance t (begin_ t s)) t).trailer = .reading := by
  obtain ⟨a, ha⟩ := Option.isSome_iff_exists.mp ha
  have hc : (carrOf (updCarr t (fun c => { c with trailer := .reading }) (begin_ t s)) t).stage = .running ∧
      (carrOf (updCarr t (fun c => { c with trailer := .reading }) (begin_ t s)) t).trailer = .reading := by
    rw [carrOf_updCarr_of _ _ _ (fun h => by cases congrArg Carriage.trailer h), carrOf_begin]
    exact ⟨rfl, rfl⟩
  rw [advance_reader hop hl htr hd, readTrailer_reserved ha, carrOf_congr (congrArg Car.cars (issue_car ..)),
    reserveTrailer_trailer ha (by rw [hc.1]; simp), hc.2]

/-- The carriages whose row begins with the trailer. -/
theorem exec_train {c : Instr} (hc : c = .ingest t ∧ op = 0x01 ∨ c = .retrieve t ∧ op = 0x02 ∨ c = .audit t ∧ op = 0x03 ∨
    c = .rekey t ∧ op = 0x04) (hat : isAt s t op .admitted = true) : exec c s = .next (advance t (begin_ t s)) := by
  rcases hc with ⟨rfl, rfl⟩ | ⟨rfl, rfl⟩ | ⟨rfl, rfl⟩ | ⟨rfl, rfl⟩ <;> exact trainRow_admitted hat

/-- Settles O31: an admitted train carriage begins and advances by its first step. -/
theorem trainCarriagesBegin : Obligations.TrainCarriagesBegin := by
  unfold Obligations.TrainCarriagesBegin
  refine ⟨fun t op c s hc _ hat => ?_, fun t s hat => trainRow_admitted hat, fun t op c s hc hat hl htr hd => ?_,
    fun t s hat => ?_, fun t s hat _ => trainRow_admitted hat⟩
  · have hop := eOp_of_isAt hat
    obtain ⟨hst, hs⟩ := advance_begin_stage t s
    obtain ⟨hcsn, hk⟩ := advance_begin_rest t s
    refine ⟨_, exec_train hc hat, hst, hs, hcsn, hk, fun h1 hn ha => ?_, fun h1 hl htr hd ha => ?_⟩
    · exact segOf_advance_ingest (hop.trans h1) hn ha
    · have hop' : op = 0x02 ∨ op = 0x03 ∨ op = 0x04 := by
        rcases hc with ⟨-, h⟩ | ⟨-, h⟩ | ⟨-, h⟩ | ⟨-, h⟩
        · exact absurd h h1
        · exact .inl h
        · exact .inr (.inl h)
        · exact .inr (.inr h)
      exact trailer_advance_reader (by rw [hop]; exact hop') hl htr (by rw [hop]; exact hd) ha
  · have hop := eOp_of_isAt hat
    have hop' : op = 0x02 ∨ op = 0x03 ∨ op = 0x04 := by
      rcases hc with ⟨-, h⟩ | ⟨-, h⟩ | ⟨-, h⟩ <;> simp [h]
    have he : exec c s = .next (advance t (begin_ t s)) := exec_train (.inr hc) hat
    rw [he, advance_reader (by rw [hop]; exact hop') hl htr (by rw [hop]; exact hd)]
    cases ha : reserveTrailer t (srcDrive (carrOf s t)) (updCarr t (fun c => { c with trailer := .reading }) (begin_ t s)) with
    | none =>
      rw [readTrailer_waits ha]
      exact congrArg Host.Outcome.next (by rw [begin_] at ha; rw [ha]; rfl)
    | some a =>
      rw [readTrailer_reserved ha]
      exact congrArg Host.Outcome.next (by rw [begin_] at ha; rw [ha])
  · have hn : isAt s t 0x01 .admitted = false := isAt_running_of_admitted hat
    simp [exec, execIngest, trainRow, hn, onlyIf, hat]

end Sys2Proof.Proofs
end

section
/-! PROOFS. Lanes park, wake and retrain (08_media_fabric_and_shelves.md, R178-R181, R189). -/
namespace Sys2Proof.Proofs

open Sys2Proof.Machine Sys2Proof.Safety Sys2Proof.Laws

variable {d : Nat} {s : State}

/-- Equal drives show equal entries. -/
theorem driveOf_congr {t : State} (h : t.mdf.drives = s.mdf.drives) (d : Nat) : driveOf t d = driveOf s d := by
  rw [driveOf, driveOf, h]

theorem driveOf_markL0 (d : Nat) (s : State) : driveOf (markL0 s) d = driveOf s d := rfl

/-- CLKREQ asked for leaves the drives. -/
theorem askClkreq_drives (d : Nat) (on : Bool) (s : State) : (askClkreq d on s).mdf.drives = s.mdf.drives := by
  unfold askClkreq
  split <;> rfl

/-- CLKREQ asked for changes the sideband links alone. -/
theorem askClkreq_rest (d : Nat) (on : Bool) (s : State) :
    askClkreq d on s = { s with mdf := { s.mdf with links := (askClkreq d on s).mdf.links } } := by
  unfold askClkreq
  split <;> rfl

theorem askClkreq_csn_car (d : Nat) (on : Bool) (s : State) :
    (askClkreq d on s).csn = s.csn ∧ (askClkreq d on s).car = s.car := by
  rw [askClkreq_rest]
  exact ⟨rfl, rfl⟩

/-- A drive whose port is not down is not the one an unlisted key shows. -/
theorem drive_ne_default {x : Drive} (h : x.lane ≠ .down) : x ≠ {} := by
  rintro rfl
  exact h rfl

/-- A port that parks. -/
theorem parkPort_eq (d : Nat) (s : State) :
    driveOf (parkPort d s) d = { driveOf s d with lane := .l12, clkreq := false } ∧
    ∀ e, e ≠ d → driveOf (parkPort d s) e = driveOf s e := by
  have hd := driveOf_congr (askClkreq_drives d false (updDrive d (fun x => { x with lane := .l12, clkreq := false }) s))
  refine ⟨?_, fun e he => ?_⟩
  · exact (hd d).trans (driveOf_updDrive_of _ _ _ (drive_ne_default (by simp)))
  · exact (hd e).trans (driveOf_updDrive_ne _ _ _ _ he)

/-- A parked port that begins to come back, where the budget has a place. -/
theorem beginExit_eq (hlane : (driveOf s d).lane = .l12) (hdown : (driveOf s d).linkDownAt = none)
    (hb : l0Now s < effBudget s) :
    driveOf (beginExit d s) d = { driveOf s d with lane := .training } ∧ (beginExit d s).csn = s.csn ∧
    (beginExit d s).car = s.car := by
  have he : beginExit d s = askClkreq d true (markL0 (updDrive d (fun x => { x with lane := .training }) s)) := by
    simp [beginExit, hlane, hdown, hb]
  obtain ⟨hc, hcar⟩ := askClkreq_csn_car d true (markL0 (updDrive d (fun x => { x with lane := .training }) s))
  rw [he]
  refine ⟨?_, hc, hcar⟩
  rw [driveOf_congr (askClkreq_drives ..)]
  exact driveOf_updDrive_of d (fun x => { x with lane := .training }) s (drive_ne_default (by simp))

/-- The keys that pass a test are those of before where the value put passes it as the old one did. -/
theorem tkeys_tput {α : Type} [DecidableEq α] {d v : α} {T : Tbl α} {k : Nat} {f : Nat → α → Bool} (hw : twf d T = true)
    (hk : tget d T k ≠ d) (hf : f k v = f k (tget d T k)) : tkeys (tput T k v) f = tkeys T f := by
  induction T with
  | nil => exact absurd rfl hk
  | cons e T ih =>
    obtain ⟨j, w⟩ := e
    rw [twf_cons] at hw
    obtain ⟨ha, -, hw⟩ := hw
    by_cases hj : j = k
    · subst hj
      simp only [tget, if_true] at hf
      simp only [tput, Nat.lt_irrefl, if_false, if_true, tkeys, List.filter_cons, hf]
      split <;> rfl
    · simp only [tget, if_neg hj] at hk hf
      have hlt : ¬k < j := fun hlt => hk (tget_above _ _ _ (tabove_lt _ _ _ ha (Nat.le_of_lt hlt)))
      have := ih hw hk hf
      simp only [tkeys] at this
      simp only [tput, hlt, if_false, Ne.symm hj, tkeys, List.filter_cons]
      split <;> simp [this]

/-- The budget's use counts lanes: a change of a drive that keeps its lane leaves it. -/
theorem l0Now_updDrive {f : Drive → Drive} (hok : tablesOk s = true) (hl : (driveOf s d).lane ≠ .down)
    (hlane : (f (driveOf s d)).lane = (driveOf s d).lane) : l0Now (updDrive d f s) = l0Now s := by
  obtain ⟨-, -, -, -, -, -, -, -, hw, -⟩ := tablesOk_parts s hok
  have hne : f (driveOf s d) ≠ {} := drive_ne_default (by rw [hlane]; exact hl)
  have ht : tupd {} s.mdf.drives d f = tput s.mdf.drives d (f (driveOf s d)) := by
    rw [tupd, tset, if_neg (by exact hne)]
    rfl
  have hk := tkeys_tput (v := f (driveOf s d)) (f := fun _ d => d.lane == .l0 || d.lane == .training) hw
    (drive_ne_default (x := tget {} s.mdf.drives d) hl) (by rw [hlane]; rfl)
  simp only [l0Now, tcount, updDrive, updMdf, ht, hk]

/-- A link that goes down leaves its lane training where it was up or the budget has a place. -/
theorem lane_of_linkDown (hlane : (driveOf s d).lane = .l0 ∨ (driveOf s d).lane = .l12) :
    (if (driveOf s d).lane == .l0 || isExiting (driveOf s d) || l0Now s < effBudget s then LaneState.training else .down) =
      if (driveOf s d).lane = .l0 ∨ l0Now s < effBudget s then .training else .down := by
  have hx : isExiting (driveOf s d) = false := by rcases hlane with h | h <;> simp [isExiting, h]
  simp [hx]

/-- Settles O40: the rows of a port by the state of its lane. -/
theorem lanesParkWakeAndRetrain : Obligations.LanesParkWakeAndRetrain := by
  unfold Obligations.LanesParkWakeAndRetrain
  refine ⟨fun d s hl hd hp hn => ?_, fun d s hok hl hd hlane hdown hb => ⟨fun hw => ?_, ?_⟩, fun d s hl hd hx hr => ?_,
    fun d s hp hF hd hdown hlane => ?_, fun d a v s hp hF hd hdown => ⟨fun hn hv hw => ?_, fun hn => ?_⟩⟩
  · obtain ⟨h1, h2⟩ := parkPort_eq d s
    refine ⟨parkPort d s, onlyIf_pos (by simp [hl, hd, hp, hn]), h1, ?_, h2⟩
    rw [parkPort, askClkreq_rest]
    rfl
  · obtain ⟨h1, h2, h3⟩ := beginExit_eq hlane hdown hb
    refine ⟨beginExit d s, ?_, h1, h2, h3⟩
    have hx : isExiting (driveOf s d) = false := by simp [isExiting, hlane]
    have hc : (wantsPlace s d || (driveOf s d).clkreq || heldHot s d) = true := by
      rcases hw with h | h | h <;> simp [h]
    simp [exec, execL12Exit, hl, hd, hx, hlane, onlyIf, hc]
  · have hu : driveOf (updDrive d (fun x => { x with clkreq := true }) s) d = { driveOf s d with clkreq := true } :=
      driveOf_updDrive_of _ _ _ (drive_ne_default (by simp [hlane]))
    have hb' : l0Now (updDrive d (fun x => { x with clkreq := true }) s) <
        effBudget (updDrive d (fun x => { x with clkreq := true }) s) := by
      rw [l0Now_updDrive hok (by simp [hlane]) rfl]
      exact hb
    obtain ⟨h1, h2, h3⟩ := beginExit_eq (d := d) (by rw [hu]; exact hlane) (by rw [hu]; exact hdown) hb'
    exact ⟨_, onlyIf_pos (by simp [hl, hd, hlane]), h1.trans (by rw [hu]), h2, h3⟩
  · simp [exec, execL12Exit, hl, hd, hx, onlyIf, hr]
  · have hc : (powered s && !inFault s && decide (d < 512) && (driveOf s d).linkDownAt.isNone &&
        ((driveOf s d).lane == .l0 || isExiting (driveOf s d) || (driveOf s d).lane == .l12)) = true := by
      rcases hlane with h | h <;> simp [hp, hF, hd, hdown, h]
    refine ⟨_, onlyIf_pos hc, ?_, rfl, rfl, fun e he => ?_⟩
    · rw [driveOf_markL0, driveOf_updDrive_of _ _ _ (fun h0 => by cases congrArg Drive.linkDownAt h0)]
      simp only [lane_of_linkDown hlane]
    · rw [driveOf_markL0, driveOf_updDrive_ne _ _ _ _ he]
  · simp only [exec, execDriveLinkRetrained, hdown]
    exact onlyIf_pos (by simpa [hp, hF, hd, hn, hv] using hw)
  · simp only [exec, execDriveRetrainTimeout, hdown]
    exact onlyIf_pos (by simp [hp, hF, hd, hn])

end Sys2Proof.Proofs
end

section
/-! PROOFS. Array faults: a refutation (06_cipher_array.md). -/
namespace Sys2Proof.Proofs

open Sys2Proof.Machine Sys2Proof.Safety

/-- A region whose table of blocks lists block 0 twice: `tablesOk` does not look into that table. -/
def twiceListedState : State :=
  { chp := { inReset := false, mode := .running }
    cay := { work := [(0, { blocks := [(0, { keys := [{ id := .slot 0 1 }] }), (0, { keys := [{ id := .slot 0 2 }] })] })] } }

/-- How many keys an outcome leaves staged for block 0 of region 0. -/
def keysAfter (r : Res) : Nat :=
  match r with
  | .next t => (blockOf t 0 0).keys.length
  | _ => 0

/-- The block's second entry shows once the first is emptied, and its key with it. -/
theorem keysAfter_blockRetire_twiceListed : keysAfter (exec (.blockRetire 0 0) twiceListedState) = 1 := by decide

/-- Refutes O34: a retired block shows no key where its region's table of blocks is canonical; `tablesOk` does not say that it
is, and a block listed twice there shows its other entry once the first is emptied and so taken out of the table. -/
theorem not_arrayFaultsAreContained : ¬Obligations.ArrayFaultsAreContained := by
  unfold Obligations.ArrayFaultsAreContained
  rintro ⟨-, hretire, -⟩
  obtain ⟨-, hret⟩ := hretire 0 0 twiceListedState (by decide) (by decide) (by decide) (by decide) (by decide)
  obtain ⟨u, hu, -, -, hkeys, -⟩ := hret (by decide)
  have hn := congrArg keysAfter hu
  rw [keysAfter_blockRetire_twiceListed, keysAfter, hkeys] at hn
  exact absurd hn (by decide)

end Sys2Proof.Proofs
end

section
/-! PROOFS. Segments run on cells (06_cipher_array.md). -/
namespace Sys2Proof.Proofs

open Sys2Proof.Machine Sys2Proof.Safety Sys2Proof.Laws

variable {t p q : Nat} {s u : State}

/-! ### One segment of a carriage -/

/-- A change of a segment of a carriage that is there. -/
theorem carrOf_updSeg (f : Seg → Seg) (hs : (carrOf s t).stage ≠ .free) :
    carrOf (updSeg t p f s) t = { carrOf s t with segs := tupd {} (carrOf s t).segs p f } :=
  carrOf_updCarr_of _ _ _ (fun h => hs (congrArg Carriage.stage h))

theorem segOf_updSeg (f : Seg → Seg) (hs : (carrOf s t).stage ≠ .free) (hf : f (segOf s t p) ≠ {}) :
    segOf (updSeg t p f s) t p = f (segOf s t p) := by
  rw [segOf, carrOf_updSeg f hs]
  exact tget_tupd_of_ne ({} : Seg) (carrOf s t).segs p f hf

theorem segOf_updSeg_ne (f : Seg → Seg) (hs : (carrOf s t).stage ≠ .free) (h : q ≠ p) :
    segOf (updSeg t p f s) t q = segOf s t q := by
  rw [segOf, carrOf_updSeg f hs]
  exact tget_tupd_ne {} (carrOf s t).segs p q f h

/-- The steps keep segment `p` of carriage `t`, and the carriage is there. -/
structure KeepsSeg (t p : Nat) (s u : State) : Prop where
  keeps : (carrOf s t).stage ≠ .free → segOf u t p = segOf s t p ∧ (carrOf u t).stage = (carrOf s t).stage

theorem KeepsSeg.refl (t p : Nat) (s : State) : KeepsSeg t p s s := ⟨fun _ => ⟨rfl, rfl⟩⟩

theorem KeepsSeg.trans {v : State} (h : KeepsSeg t p s u) (k : KeepsSeg t p u v) : KeepsSeg t p s v := by
  refine ⟨fun hs => ?_⟩
  obtain ⟨h1, h2⟩ := h.keeps hs
  obtain ⟨k1, k2⟩ := k.keeps (by rwa [h2])
  exact ⟨k1.trans h1, k2.trans h2⟩

theorem KeepsSeg.of_car (h : u.car = s.car) : KeepsSeg t p s u :=
  ⟨fun _ => by simp only [segOf, carrOf, h, and_self]⟩

theorem updSeg_keepsSeg {r : Nat} (f : Seg → Seg) (hne : p ≠ r) (h : KeepsSeg t p s u) : KeepsSeg t p s (updSeg t r f u) :=
  h.trans ⟨fun hs => ⟨segOf_updSeg_ne f hs hne, by rw [carrOf_updSeg f hs]⟩⟩

theorem updCarr_keepsSeg {f : Carriage → Carriage} (hf : ∀ c, (f c).segs = c.segs ∧ (f c).stage = c.stage)
    (h : KeepsSeg t p s u) : KeepsSeg t p s (updCarr t f u) := by
  refine h.trans ⟨fun hs => ?_⟩
  have hc : carrOf (updCarr t f u) t = f (carrOf u t) :=
    carrOf_updCarr_of _ _ _ (fun h0 => hs (by rw [← (hf _).2, h0]))
  rw [segOf, hc, (hf _).1, (hf _).2]
  exact ⟨rfl, rfl⟩

theorem markDegraded_keepsSeg (far : Bool) (h : KeepsSeg t p s u) : KeepsSeg t p s (markDegraded t far u) :=
  updCarr_keepsSeg (fun _ => ⟨rfl, rfl⟩) h

theorem countSpill_keepsSeg (d : Nat) (l : List (Nat × Nat)) (h : KeepsSeg t p s u) : KeepsSeg t p s (countSpill d l u) :=
  h.trans (.of_car (countSpill_car ..))

theorem markAll_keepsSeg (h : KeepsSeg t p s u) : KeepsSeg t p s (markAll u) := h.trans (.of_car (markAll_car _))

theorem reserveSrc_keepsSeg {r : Nat} {a : State} (e : reserveSrc t r u = some a) (hne : p ≠ r) (h : KeepsSeg t p s u) :
    KeepsSeg t p s a := by
  simp only [reserveSrc, Option.map_eq_some_iff] at e
  obtain ⟨y, -, rfl⟩ := e
  exact countSpill_keepsSeg _ _ (markDegraded_keepsSeg _ (updSeg_keepsSeg _ hne h))

theorem reserveDst_keepsSeg {r : Nat} {a : State} (e : reserveDst t r u = some a) (hne : p ≠ r) (h : KeepsSeg t p s u) :
    KeepsSeg t p s a := by
  simp only [reserveDst, Option.map_eq_some_iff] at e
  obtain ⟨y, -, rfl⟩ := e
  exact markDegraded_keepsSeg _ (updSeg_keepsSeg _ hne h)

theorem reserveSeg_keepsSeg {r : Nat} {a : State} (e : reserveSeg t r u = some a) (hne : p ≠ r) (h : KeepsSeg t p s u) :
    KeepsSeg t p s a := by
  simp only [reserveSeg, Option.map_eq_some_iff, Option.bind_eq_some_iff] at e
  obtain ⟨y, ⟨x, hx, hy⟩, rfl⟩ := e
  refine markAll_keepsSeg ?_
  split at hy
  · exact reserveDst_keepsSeg hy hne (reserveSrc_keepsSeg hx hne h)
  · cases hy
    exact reserveSrc_keepsSeg hx hne h

/-- The next segment that an INGEST fetches is an idle one. -/
theorem fetchNext_keepsSeg (hp : (segOf s t p).st ≠ .idle) : KeepsSeg t p s (fetchNext t s) := by
  unfold fetchNext
  dsimp only
  split
  · exact .refl ..
  · next r hr =>
    have hne : p ≠ r := by
      rintro rfl
      obtain ⟨-, hi⟩ := firstBelow_some hr
      exact hp (by simpa [segOf] using hi)
    split
    · exact .refl ..
    · split
      · exact .refl ..
      · next e =>
        exact (updSeg_keepsSeg _ hne (reserveSeg_keepsSeg e hne (.refl ..))).trans
          (.trans (.of_car (markStaging_car ..)) (.of_car (readBuffer_car ..)))

theorem reserveTrailer_keepsSeg {d : Nat} {a : State} (e : reserveTrailer t d u = some a) (h : KeepsSeg t p s u) :
    KeepsSeg t p s a := by
  simp only [reserveTrailer, Option.map_eq_some_iff] at e
  obtain ⟨y, -, rfl⟩ := e
  exact markAll_keepsSeg (countSpill_keepsSeg _ _ (updCarr_keepsSeg (fun _ => ⟨rfl, rfl⟩) h))

theorem writeTrailer_keepsSeg (t p : Nat) (s : State) : KeepsSeg t p s (writeTrailer t s) := by
  unfold writeTrailer
  dsimp only
  split
  · exact .refl ..
  · next e =>
    exact (reserveTrailer_keepsSeg e (updCarr_keepsSeg (fun _ => ⟨rfl, rfl⟩) (.refl ..))).trans (.of_car (issue_car ..))

/-- An INGEST's advance keeps each segment that is not idle. -/
theorem advance_keepsSeg (hop : eOp (carrOf s t).entry = 0x01) (hp : (segOf s t p).st ≠ .idle) :
    KeepsSeg t p s (advance t s) := by
  unfold advance
  dsimp only
  split
  · exact .refl ..
  split
  · split
    · exact .refl ..
    · exact writeTrailer_keepsSeg ..
  rw [if_pos (by simp [hop])]
  exact fetchNext_keepsSeg hp

/-! ### Shares -/

theorem shareSync_rest (s : State) : shareSync s = { s with cay := (shareSync s).cay, slc := (shareSync s).slc } := by
  unfold shareSync
  split <;> rfl

/-- The default passes a map that keeps it; other entries are mapped. -/
theorem tget_tmap {α : Type} [DecidableEq α] {d : α} {f : Nat → α → α} {T : Tbl α} (k : Nat) (hw : twf d T = true)
    (hf : f k d = d) : tget d (tmap d f T) k = f k (tget d T k) := by
  induction T with
  | nil => exact hf.symm
  | cons e T ih =>
    obtain ⟨j, v⟩ := e
    rw [twf_cons] at hw
    obtain ⟨ha, -, hw⟩ := hw
    simp only [tmap, tget]
    by_cases hj : j = k
    · subst hj
      split
      · next h0 => rw [ih hw, tget_above d T j ha, hf, if_pos rfl, h0]
      · simp [tget]
    · split
      · rw [ih hw]
      · simp only [tget, if_neg hj]
        exact ih hw

/-- A new epoch takes over every slice's weight (R43). -/
theorem sliceOf_shareSync (n : Nat) (hok : tablesOk s = true) (hn : s.now / 1000 > s.cay.epoch) :
    sliceOf (shareSync s) n = { sliceOf s n with weightNow := (sliceOf s n).weight } := by
  obtain ⟨-, -, -, -, -, -, -, -, -, -, -, -, hw, -⟩ := tablesOk_parts s hok
  simp only [shareSync, if_pos hn]
  exact tget_tmap n hw (by rfl)

/-! ### The rows -/

/-- A segment that takes its cell changes its own entry, the cells' counts and what is drawn. -/
theorem takeCell_rest (t p b k : Nat) (s : State) :
    takeCell t p b k s = { s with
      free := s.free + 1, cay := (takeCell t p b k s).cay
      car := (updSeg t p (fun g => { g with st := .running, block := b, cell := k, queue := none }) s).car } := by
  unfold takeCell
  dsimp only
  split <;> rfl

/-- An INGEST's segment starts: it takes its cell. -/
theorem startSeg_ingest {b k : Nat} (hop : eOp (carrOf s t).entry = 0x01) :
    startSeg t p b k 0 s = { s with
      free := s.free + 1, cay := (startSeg t p b k 0 s).cay
      car := (updSeg t p (fun g => { g with st := .running, block := b, cell := k, queue := none }) s).car } := by
  have he : startSeg t p b k 0 s = touchKey (passRegion (tget {} (carrOf s t).segs p)) b
      (keyIdent t (passKey (carrOf s t) (tget {} (carrOf s t).segs p).dst)) (takeCell t p b k s) := by
    simp [startSeg, hop]
  rw [he, takeCell_rest]
  rfl

theorem legacyPassNext_of_not (hl : isLegacy (carrOf s t).entry = false) : legacyPassNext (carrOf s t) p = false := by
  simp [legacyPassNext, hl]

/-- A block's keys after their change. -/
theorem blockOf_updBlock {r b : Nat} (f : Block → Block) (hf : f (blockOf s r b) ≠ {}) :
    blockOf (updBlock r b f s) r b = f (blockOf s r b) := by
  have hb : tget {} (tupd {} (workOf s r).blocks b f) b = f (blockOf s r b) := tget_tupd_of_ne ({} : Block) _ b f hf
  have hw : workOf (updBlock r b f s) r = { workOf s r with blocks := tupd {} (workOf s r).blocks b f } := by
    refine workOf_updWork_of _ _ _ fun h0 => hf ?_
    have hn : tupd {} (workOf s r).blocks b f = [] := congrArg RegionWork.blocks h0
    rw [← hb, hn]
    rfl
  rw [blockOf, hw]
  exact hb

/-- A key loaded into a block with room (R139). -/
theorem blockOf_loadKey {r b : Nat} (e : KeyEntry) (hr : (blockOf s r b).keys.length < 64) :
    (blockOf (loadKey r b e s) r b).keys = e :: (blockOf s r b).keys ∧
    loadKey r b e s = { s with cay := (loadKey r b e s).cay } := by
  have he : loadKey r b e s = updRegion r (fun x => { x with keyLoads := satInc 32 x.keyLoads })
      (updBlock r b (fun w => { w with keys := e :: (blockOf s r b).keys }) s) := by simp [loadKey, hr]
  rw [he]
  refine ⟨?_, rfl⟩
  have hb := blockOf_updBlock (s := s) (r := r) (b := b) (fun w => { w with keys := e :: (blockOf s r b).keys })
    (fun h0 => by cases congrArg Block.keys h0)
  exact congrArg Block.keys hb

/-- The Writes of an encrypted segment (R135). -/
def segWrites (t p : Nat) (c : Carriage) (ps : List (Nat × Nat)) (s : State) : State :=
  ps.foldl (fun s x => issue (dstDrive c) (.segWrite p x.1) (some t) (dstLba c + segBlock c p + x.1) x.2 s) s

theorem segWrites_car (t p : Nat) (c : Carriage) (ps : List (Nat × Nat)) (s : State) : (segWrites t p c ps s).car = s.car :=
  foldl_part State.car (fun s x => issue_car ..) ps s

/-- The Writes of a segment name the drive and the blocks of a carriage that they leave as it is. -/
theorem segWrites_eq (t p : Nat) (c : Carriage) (ps : List (Nat × Nat)) (s : State)
    (he : (carrOf s t).entry = c.entry) :
    ps.foldl (fun s x => issue (dstDrive (carrOf s t)) (.segWrite p x.1) (some t)
      (dstLba (carrOf s t) + segBlock (carrOf s t) p + x.1) x.2 s) s = segWrites t p c ps s := by
  induction ps generalizing s with
  | nil => rfl
  | cons x ps ih =>
    have hd : dstDrive (carrOf s t) = dstDrive c := by simp only [dstDrive, srcDrive, he]
    have hl : dstLba (carrOf s t) = dstLba c := by simp only [dstLba, he]
    have hb : segBlock (carrOf s t) p = segBlock c p := by simp only [segBlock, he]
    simp only [List.foldl_cons, segWrites, hd, hl, hb]
    exact ih _ (by rw [carrOf_congr (congrArg Car.cars (issue_car ..)), he])

/-- A segment encrypted, its ciphertext and tag kept (R135). -/
def segCiphered (t p : Nat) (s : State) : State :=
  updSeg t p (fun y => { y with
      st := .writing, out := segCrypt s (carrOf s t) (segOf s t p).dst p (segOf s t p).data
      tag := segTag s (carrOf s t) (segOf s t p).dst p (segCrypt s (carrOf s t) (segOf s t p).dst p (segOf s t p).data)
      data := []
      left := (segPieces s (dstDrive (carrOf s t)) (segLen (carrOf s t).entry p / 4096)).length })
    (countRun (passRegion (segOf s t p)) (segOf s t p).block s)

/-- A segment encrypted and its Writes issued (R135). -/
def segEncrypted (t p : Nat) (s : State) : State :=
  segWrites t p (carrOf s t) (segPieces s (dstDrive (carrOf s t)) (segLen (carrOf s t).entry p / 4096)) (segCiphered t p s)

theorem carrOf_segEncrypted (t p u : Nat) (s : State) : carrOf (segEncrypted t p s) u = carrOf (segCiphered t p s) u :=
  carrOf_congr (congrArg Car.cars (segWrites_car ..)) u

theorem segmentEncrypted_eq (hp : powered s = true) (hF : inFault s = false) (hst : (carrOf s t).stage = .running)
    (hseg : (segOf s t p).st = .running) (hleft : (segOf s t p).left = 0) (hop : eOp (carrOf s t).entry = 0x01) :
    exec (.segmentEncrypted t p) s = .next (advance t (segEncrypted t p s)) := by
  simp only [segOf] at hseg hleft
  simp only [exec, execSegmentEncrypted]
  rw [if_neg (by simp [hp, hF, hst, hseg, hleft, hop])]
  rfl

theorem segEncrypted_carrOf (hst : (carrOf s t).stage = .running) :
    segOf (segEncrypted t p s) t p = { segOf s t p with
      st := .writing, out := segCrypt s (carrOf s t) (segOf s t p).dst p (segOf s t p).data
      tag := segTag s (carrOf s t) (segOf s t p).dst p (segCrypt s (carrOf s t) (segOf s t p).dst p (segOf s t p).data)
      data := []
      left := (segPieces s (dstDrive (carrOf s t)) (segLen (carrOf s t).entry p / 4096)).length } ∧
    (carrOf (segEncrypted t p s) t).stage = .running ∧ (carrOf (segEncrypted t p s) t).entry = (carrOf s t).entry := by
  have hs : (carrOf (countRun (passRegion (segOf s t p)) (segOf s t p).block s) t).stage ≠ .free := by
    rw [show carrOf (countRun (passRegion (segOf s t p)) (segOf s t p).block s) t = carrOf s t from rfl, hst]
    simp
  refine ⟨?_, ?_, ?_⟩
  · rw [segOf, carrOf_segEncrypted, ← segOf, segCiphered, segOf_updSeg _ hs (fun h0 => by cases congrArg Seg.st h0)]
    rfl
  · rw [carrOf_segEncrypted, segCiphered, carrOf_updSeg _ hs]
    exact hst
  · rw [carrOf_segEncrypted, segCiphered, carrOf_updSeg _ hs]
    rfl

/-- The encryption of a segment is a step of its carriage. -/
theorem segEncrypted_trainStep (t p : Nat) (s : State) : TrainStep s (segEncrypted t p s) :=
  .foldl (fun _ _ h => issue_trainStep _ _ _ _ _ h) _ (updSeg_trainStep _ _ _ (.of_cars rfl))

/-- Settles O33: each row as its trigger stands. -/
theorem segmentsRunOnCells : Obligations.SegmentsRunOnCells := by
  unfold Obligations.SegmentsRunOnCells
  refine ⟨fun t p b k s hok hl hd hop hst hleg hmay => ?_, fun t p s hp hF hst hseg hleft hop => ⟨?_, fun hok => ?_⟩,
    fun r b t i g p s hl hst hop hkey hgone hr hn hsend hpass hsent hbeh hno hroom => ?_, fun s hp hn => ?_⟩
  · have hcar : (shareSync s).car = s.car := by rw [shareSync_rest]
    have hc : carrOf (shareSync s) t = carrOf s t := carrOf_congr (congrArg Car.cars hcar) t
    have hop' : eOp (carrOf (shareSync s) t).entry = 0x01 := by rw [hc]; exact hop
    have h2 := startSeg_ingest (p := p) (b := b) (k := k) hop'
    have h1 : (startSeg t p b k 0 (shareSync s)).car = (updSeg t p (fun g =>
      { g with st := .running, block := b, cell := k, queue := none }) (shareSync s)).car := by rw [h2]
    have hsf : (carrOf (shareSync s) t).stage ≠ .free := by
      rw [hc]
      simp only [startable, Bool.and_eq_true, beq_iff_eq] at hst
      simp [hst.1.1.1.1]
    have hseg : segOf (shareSync s) t p = segOf s t p := by rw [segOf, hc, segOf]
    refine ⟨startSeg t p b k 0 (shareSync s), ?_, ?_, ?_, ?_, ?_, ?_, fun v hv => ?_⟩
    · have hl' : live (shareSync s) = true := by rw [shareSync_rest]; exact hl
      have hd' : (shareSync s).tmp.dataStop = false := by rw [shareSync_rest]; exact hd
      have htr : isTrain (carrOf s t).entry = true := by simp [isTrain, hop]
      have hplain : holdPlain t p (shareSync s) = some (shareSync s) := by simp [holdPlain, hop']
      simp only [exec, execSegmentStart, hc]
      rw [if_neg (by simp [hl', hd', htr, hst]), if_neg (by simp [legacyPassNext_of_not hleg]), if_neg (by simp [hmay]), hplain]
    · rw [segOf, carrOf_congr (congrArg Car.cars h1), ← segOf, segOf_updSeg _ hsf (fun h0 => by cases congrArg Seg.st h0), hseg]
    · rw [h2, shareSync_rest]
    · rw [h2, shareSync_rest]
    · rw [h2, shareSync_rest]
    · rw [h2, shareSync_rest]
    · rw [carrOf_congr (congrArg Car.cars h1), updSeg, carrOf_updCarr_ne _ _ _ _ hv, carrOf_congr (congrArg Car.cars hcar)]
  · have hs : (carrOf (countRun (passRegion (segOf s t p)) (segOf s t p).block s) t).stage ≠ .free := by
      rw [show carrOf (countRun (passRegion (segOf s t p)) (segOf s t p).block s) t = carrOf s t from rfl, hst]
      simp
    rw [segmentEncrypted_eq hp hF hst hseg hleft hop, segWrites_eq t p (carrOf s t) _ _ (by rw [carrOf_updSeg _ hs]; rfl)]
    rfl
  · obtain ⟨hs, hrun, hent⟩ := segEncrypted_carrOf (p := p) hst
    have hk := (advance_keepsSeg (p := p) (by rw [hent]; exact hop) (by rw [hs]; simp)).keeps (by rw [hrun]; simp)
    have hrest := (advance_trainStep t (segEncrypted_trainStep t p s)).rest
    refine ⟨_, segmentEncrypted_eq hp hF hst hseg hleft hop, ?_, ?_, ?_, ?_, ?_, ?_⟩
    · rw [hk.1, hs]
    · rw [hk.1, hs]
    · rw [hk.1, hs]
    · rw [hk.2, hrun]
    · rw [hrest]
    · rw [hrest]
  · obtain ⟨h1, h2⟩ := blockOf_loadKey (s := draw s) (r := r) (b := b) (keyEntry s t (.slot i g)) hroom
    have hcar : (loadKey r b (keyEntry s t (.slot i g)) (draw s)).car = s.car := by rw [h2]; rfl
    have hc : carrOf (loadKey r b (keyEntry s t (.slot i g)) (draw s)) t = carrOf s t := carrOf_congr (congrArg Car.cars hcar) t
    have hsf : (carrOf (loadKey r b (keyEntry s t (.slot i g)) (draw s)) t).stage ≠ .free := by rw [hc, hst]; simp
    refine ⟨updSeg t p (fun y => { y with queue := some b }) (loadKey r b (keyEntry s t (.slot i g)) (draw s)), ?_, h1, ?_,
      fun v hv => ?_, ?_, ?_⟩
    · have htr : isTrain (carrOf s t).entry = true := by simp [isTrain, hop]
      simp only [segOf] at hpass
      simp only [exec, execKeyStagingLoad, passKey, hkey, keyIdent, hsend]
      rw [if_neg (by simp [hl, hst, htr, hop, hr, hn, hgone])]
      simp [onlyIf, hpass, hsent, hbeh, hno]
    · rw [segOf_updSeg _ hsf (fun h0 => by cases congrArg Seg.queue h0), segOf, hc, segOf]
    · rw [updSeg, carrOf_updCarr_ne _ _ _ _ hv, carrOf_congr (congrArg Car.cars hcar)]
    · rw [show (updSeg t p (fun y => { y with queue := some b }) (loadKey r b (keyEntry s t (.slot i g)) (draw s))).csn =
        (loadKey r b (keyEntry s t (.slot i g)) (draw s)).csn from rfl, h2]
      rfl
    · rw [show (updSeg t p (fun y => { y with queue := some b }) (loadKey r b (keyEntry s t (.slot i g)) (draw s))).kst =
        (loadKey r b (keyEntry s t (.slot i g)) (draw s)).kst from rfl, h2]
      rfl
  · refine ⟨_, onlyIf_pos (by exact hp), ?_, ?_, ?_, ?_, fun n hok => sliceOf_shareSync n hok hn⟩
    · simp only [shareSync, if_pos hn]
      rfl
    · simp only [shareSync, if_pos hn]
      rfl
    · rw [shareSync_rest]
    · rw [shareSync_rest]

end Sys2Proof.Proofs
end

section
/-! PROOFS. Health windows: a refutation (11_random_numbers.md). -/
namespace Sys2Proof.Proofs

open Sys2Proof.Machine Sys2Proof.Safety

/-- The keyless state (O23's), its random source starting since 40 ms. -/
def keylessStart : State :=
  { keylessState with rng := { state := .starting }, now := 40000 }

/-- The start's limit ends the carriage too. -/
theorem carriagesAfter_startTimeout_keyless : carriagesAfter (exec .rngStartTimeout keylessStart) = 0 := by decide

/-- Refutes O24: its start's limit leaves every carriage; but the failure that the limit declares ends each carriage whose
key is gone (R206), and no hypothesis says that the state has none. -/
theorem not_healthWindowsDecideTheSource : ¬Obligations.HealthWindowsDecideTheSource := by
  unfold Obligations.HealthWindowsDecideTheSource
  intro h
  obtain ⟨-, -, hstart, -⟩ := h
  obtain ⟨t, ht, -, -, -, -, hcar⟩ := hstart keylessStart (by decide) (by decide) (by decide) (by decide) (by decide)
  have hn := congrArg carriagesAfter ht
  rw [carriagesAfter_startTimeout_keyless] at hn
  have hc : carriagesAfter (.next t) = 1 := by rw [carriagesAfter, hcar]; decide
  exact absurd (hn.trans hc) (by decide)

end Sys2Proof.Proofs
end

section
/-! SUPPORT. Re-masking and the indices that it passes over (09_key_slots_tickets_legacy.md, R208). -/
namespace Sys2Proof.Laws

open Sys2Proof.Machine Sys2Proof.Safety

/-- A test of a mapped table's values that the map does not change, and that the default does not pass. -/
theorem any_tmap {α : Type} [DecidableEq α] {d : α} {f : Nat → α → α} {q : α → Bool} (T : Tbl α)
    (hf : ∀ k v, q (f k v) = q v) (hd : q d = false) : (tmap d f T).any (fun e => q e.2) = T.any fun e => q e.2 := by
  induction T with
  | nil => rfl
  | cons e T ih =>
    obtain ⟨k, v⟩ := e
    simp only [tmap]
    split
    · next h => rw [ih, List.any_cons, ← hf k v, h, hd]; rfl
    · rw [List.any_cons, List.any_cons, ih, hf]

/-- The tested keys that the blocks stage are those of their blocks. -/
theorem any_stagedKeys (q : KeyEntry → Bool) (s : State) :
    (stagedKeys s).any q = s.cay.work.any fun w => w.2.blocks.any fun b => b.2.keys.any q := by
  simp only [stagedKeys, List.any_flatMap]

/-- Re-masking changes no entry's identity. -/
theorem maskable_remaskEntries (i m j : Nat) (s : State) : maskable (remaskEntries i m s) j = maskable s j := by
  unfold maskable
  refine congrArg (fun b => if j == stagedIndex then b else (slotOf s j).state != .free) ?_
  rw [any_stagedKeys, any_stagedKeys]
  refine any_tmap (q := fun w : RegionWork => w.blocks.any fun b => b.2.keys.any fun e => entryIndex e.id == stagedIndex)
    s.cay.work (fun _ w => ?_) rfl
  refine any_tmap (q := fun b : Block => b.keys.any fun e => entryIndex e.id == stagedIndex) w.blocks (fun _ b => ?_) rfl
  simp only [List.any_map]
  refine congrArg b.keys.any (funext fun e => ?_)
  simp only [Function.comp_apply]
  split <;> rfl

/-- An index is re-masked where its slot holds a key, or where it is the staging's and an entry of it is staged. -/
theorem mem_maskables {s : State} (hw : twf {} s.kst.slots = true) (j : Nat) :
    j ∈ maskables s ↔ (slotOf s j).state ≠ .free ∨ (maskable s stagedIndex = true ∧ j = stagedIndex) := by
  have hk : j ∈ tkeys s.kst.slots (fun _ x => x.state != .free) ↔ (slotOf s j).state ≠ .free :=
    ⟨fun h => by simpa [slotOf] using tkeys_spec hw h,
      fun h => mem_tkeys (d := ({} : Slot)) (fun h0 => h (congrArg Slot.state h0)) (by simpa [slotOf] using h)⟩
  simp only [maskables, List.mem_append, List.mem_mergeSort, hk]
  split <;> simp [*]

variable {i j k m : Nat} {s : State}

/-- A slot that `remaskWith` re-masks with `m` (R208). -/
def remasked (m : Nat) (s : State) (x : Slot) : Slot :=
  { x with
    share0 := x.share0 ^^^ m, share1 := x.share1 ^^^ m, unmasked := false, maskStamp := s.now, maskPeriod := s.kst.remaskPeriod
    retShare0 := if x.retained then x.retShare0 ^^^ m else x.retShare0
    retShare1 := if x.retained then x.retShare1 ^^^ m else x.retShare1 }

/-- The state whose slot `i` and staging entries hold `m` in both shares, before the pass moves on. -/
def shareMasked (i m : Nat) (s : State) : State :=
  updKst (fun k => { k with remaskSkipped := k.remaskSkipped.filter (· != i) })
    (updSlot i (remasked m s) (remaskEntries i m s))

/-- A re-mask of a working slot that holds a key. -/
theorem remaskWith_slot (hi : i ≠ stagedIndex) (hx : (slotOf s i).state ≠ .free) :
    remaskWith i m s = passStep i (shareMasked i m s) := by
  have hb : (i == stagedIndex || (slotOf s i).state == .free) = false := by simp [hi, hx]
  simp only [remaskWith, hb, Bool.false_eq_true, if_false]
  rfl

/-- The slot re-masked. -/
theorem slotOf_shareMasked (hw : twf {} s.kst.slots = true) :
    slotOf (shareMasked i m s) i = remasked m s (slotOf s i) :=
  slotOf_updSlot i (remasked m s) (remaskEntries i m s) hw

/-- A re-mask leaves the other slots. -/
theorem slotOf_shareMasked_ne (h : k ≠ i) : slotOf (shareMasked i m s) k = slotOf s k :=
  slotOf_updSlot_ne i k (remasked m s) (remaskEntries i m s) h

/-- A re-mask makes no slot free or held. -/
theorem slotOf_shareMasked_state (hw : twf {} s.kst.slots = true) :
    (slotOf (shareMasked i m s) k).state = (slotOf s k).state := by
  by_cases h : k = i
  · rw [h, slotOf_shareMasked hw]; rfl
  · rw [slotOf_shareMasked_ne h]

/-- A re-mask leaves what is re-masked. -/
theorem mem_maskables_shareMasked (hw : twf {} s.kst.slots = true) :
    j ∈ maskables (shareMasked i m s) ↔ j ∈ maskables s := by
  have hw' : twf {} (shareMasked i m s).kst.slots = true := twf_tupd {} s.kst.slots i (remasked m s) hw
  have hm : maskable (shareMasked i m s) stagedIndex = maskable s stagedIndex :=
    maskable_remaskEntries i m stagedIndex s
  rw [mem_maskables hw', mem_maskables hw, slotOf_shareMasked_state hw, hm]

/-- A re-mask leaves a slot's keys: the same mask stands in both shares. -/
theorem materialOf_shareMasked (hw : twf {} s.kst.slots = true) (g : Nat) :
    materialOf (shareMasked i m s) i g = materialOf s i g := by
  have hx : ∀ a b : Nat, (a ^^^ m) ^^^ (b ^^^ m) = a ^^^ b := fun a b => by
    rw [Nat.xor_comm b m, Nat.xor_assoc, ← Nat.xor_assoc m m b, Nat.xor_self, Nat.zero_xor]
  simp only [materialOf, slotOf_shareMasked hw, remasked, hx]
  by_cases hr : (slotOf s i).retained = true
  · simp only [hr, if_true, hx]
  · simp only [hr, Bool.false_and, Bool.false_eq_true, if_false]

/-! ### The pass (R208, R209) -/

@[simp] theorem slotOf_passStep : slotOf (passStep i s) k = slotOf s k := by
  unfold passStep; dsimp only; split <;> rfl

@[simp] theorem passStep_rng : (passStep i s).rng = s.rng := by unfold passStep; dsimp only; split <;> rfl

@[simp] theorem passStep_car : (passStep i s).car = s.car := by unfold passStep; dsimp only; split <;> rfl

@[simp] theorem passStep_csn : (passStep i s).csn = s.csn := by unfold passStep; dsimp only; split <;> rfl

@[simp] theorem passStep_remaskLate : (passStep i s).kst.remaskLate = s.kst.remaskLate := by
  unfold passStep; dsimp only; split <;> rfl

/-- An index that stood before the pass's next does not wrap it. -/
theorem not_wrapped (h : s.kst.remaskNext ≤ i) (a b : Bool) : (decide (i < s.kst.remaskNext) && a && b) = false := by
  simp [Nat.not_lt.mpr h]

/-- The last of a pass ends it. -/
theorem passStep_last (hn : s.kst.remaskNext ≤ i) (hl : ∀ j ∈ maskables s, j ≤ i ∧ (s.kst.remaskNext ≤ j → i ≤ j)) :
    (passStep i s).kst.remaskPasses = satInc 32 s.kst.remaskPasses ∧ (passStep i s).kst.remaskNext = 0 := by
  have ha : (maskables s).any (fun j => decide (i < j)) = false := by
    simpa using fun j hj => (hl j hj).1
  have hb : (maskables s).any (fun j => decide (s.kst.remaskNext ≤ j) && decide (j < i)) = false := by
    simpa using fun j hj => (hl j hj).2
  simp only [passStep, not_wrapped hn, ha, hb]
  simp [hn, updKst]

/-- Before its last index a pass is not counted. -/
theorem passStep_within (hn : s.kst.remaskNext ≤ i) (hl : ∃ j ∈ maskables s, i < j) :
    (passStep i s).kst.remaskPasses = s.kst.remaskPasses := by
  have ha : (maskables s).any (fun j => decide (i < j)) = true := by simpa using hl
  simp only [passStep, not_wrapped hn, ha]
  split <;> rfl

@[simp] theorem materialOf_passStep (g : Nat) : materialOf (passStep i s) k g = materialOf s k g := by
  simp only [materialOf, slotOf_passStep]

end Sys2Proof.Laws
end

section
/-! PROOFS. The tender and its consumers (09_key_slots_tickets_legacy.md, 11_random_numbers.md). -/
namespace Sys2Proof.Proofs

open Sys2Proof.Machine Sys2Proof.Safety Sys2Proof.Laws

/-- With no consumer waiting there is none to serve. -/
theorem serveAll_of_none {s : State} (h : s.rng.waiters = []) : serveAll s = s := by rw [serveAll, h]; rfl

/-- The tender's request (R254). -/
theorem tenderFill_acts {s : State} (hp : powered s = true) (hf : inFault s = false) (hs : s.rng.state = .seeded)
    (hd : s.rng.reseedDue = false) (hl : s.rng.tender.length < 65536) (hq : s.rng.reqSince + 1 < 2 ^ 20)
    (hw : s.rng.waiters = []) :
    ∃ t, exec .tenderFill s = .next t ∧ t.rng.reqSince = s.rng.reqSince + 1 ∧
      t.rng.tender = (s.rng.tender ++ (drbgGenerate (natBe 32 s.rng.key) s.rng.v).1).take 65536 ∧
      t.rng.state = .seeded ∧ t.csn = s.csn ∧ t.car = s.car ∧ t.kst = s.kst := by
  have hg : mayGenerate s = true := by simp [mayGenerate, hp, hf, hs, hl, hd]; omega
  refine ⟨_, onlyIf_pos hg, ?_⟩
  rw [serveAll_of_none (by exact hw)]
  exact ⟨rfl, rfl, hs, rfl, rfl, rfl⟩

/-- The state from whose tender `n` bytes are taken, with no consumer waiting. -/
def tenderTaken (n : Nat) (s : State) : State :=
  updRng (fun r => { r with
    tender := r.tender.drop n
    tenderLow := if r.state == .seeded then min r.tenderLow (r.tender.drop n).length else r.tenderLow, waiters := [] }) s

/-- A request for its bytes of a consumer where none waits and the tender has them: it is served at once (R255). -/
theorem ask_served {s : State} (who : Consumer) (n : Nat) (hs : s.rng.state ≠ .failed) (hw : s.rng.waiters = [])
    (hn : n ≤ s.rng.tender.length) :
    ask who n s = deliver
      { who := who, need := n, at_ := s.now, csn := s.csn, limit := 1000 * s.rng.wait, got := s.rng.tender.take n }
      (tenderTaken n s) := by
  have hmin : min n s.rng.tender.length = n := Nat.min_eq_left hn
  have hin : ¬s.now + 1000 * s.rng.wait < s.now := Nat.not_lt.mpr (Nat.le_add_right ..)
  simp [ask, hs, hw, insertWaiter, serveAll, updRng, serve, hmin, hin, tenderTaken]

/-- A slot's turn: both its shares take the mask, and the pass moves on (R208). -/
theorem remask_acts {i : Nat} {s : State} (hok : tablesOk s = true) (hp : powered s = true) (hf : inFault s = false)
    (hx : (slotOf s i).state ≠ .free) (hi : i < 32768) (hnext : nextRemask s = some i) (hs : s.rng.state = .seeded)
    (hw : s.rng.waiters = []) (hl : 64 ≤ s.rng.tender.length) :
    ∃ t, exec (.remask i) s = .next t ∧ (∀ g, materialOf t i g = materialOf s i g) ∧
      (slotOf t i).share0 = (slotOf s i).share0 ^^^ leNat (s.rng.tender.take 64) ∧
      (slotOf t i).share1 = (slotOf s i).share1 ^^^ leNat (s.rng.tender.take 64) ∧ (slotOf t i).unmasked = false ∧
      (slotOf t i).maskStamp = s.now ∧ (slotOf t i).gen = (slotOf s i).gen ∧
      (s.kst.remaskNext ≤ i → (∀ j ∈ maskables s, j ≤ i ∧ (s.kst.remaskNext ≤ j → i ≤ j)) →
        t.kst.remaskPasses = satInc 32 s.kst.remaskPasses ∧ t.kst.remaskNext = 0) ∧
      (s.kst.remaskNext ≤ i → (∃ j ∈ maskables s, i < j) → t.kst.remaskPasses = s.kst.remaskPasses) ∧
      t.rng.tender = s.rng.tender.drop 64 ∧
      (∀ k, k ≠ i → slotOf t k = slotOf s k) ∧ t.csn = s.csn ∧ t.car = s.car := by
  have hsw : twf {} s.kst.slots = true := by
    simp only [tablesOk, Bool.and_eq_true] at hok
    exact hok.1.1.1.1.2
  have hg : (powered s && !inFault s && s.rng.state != .failed && nextRemask s == some i &&
      !s.rng.waiters.any (fun w => w.who == .remask i)) = true := by simp [hp, hf, hs, hnext, hw]
  have hu : ask (.remask i) 64 s = passStep i (shareMasked i (leNat (s.rng.tender.take 64)) (tenderTaken 64 s)) := by
    rw [ask_served (.remask i) 64 (by simp [hs]) hw hl]
    exact remaskWith_slot (s := tenderTaken 64 s) (by simp only [stagedIndex]; omega) hx
  have huw : twf {} (tenderTaken 64 s).kst.slots = true := hsw
  have hslot : slotOf (shareMasked i (leNat (s.rng.tender.take 64)) (tenderTaken 64 s)) i =
      remasked (leNat (s.rng.tender.take 64)) (tenderTaken 64 s) (slotOf (tenderTaken 64 s) i) := slotOf_shareMasked huw
  refine ⟨_, onlyIf_pos hg, ?_⟩
  rw [hu]
  simp only [materialOf_passStep, slotOf_passStep, passStep_rng, passStep_car, passStep_csn, hslot]
  refine ⟨materialOf_shareMasked huw, rfl, rfl, rfl, rfl, rfl, fun hn hall => ?_, fun hn hex => ?_, rfl,
    fun k hk => slotOf_shareMasked_ne hk, rfl, rfl⟩
  · exact passStep_last hn fun j hj => hall j ((mem_maskables_shareMasked huw).mp hj)
  · obtain ⟨j, hj, hij⟩ := hex
    exact passStep_within hn ⟨j, (mem_maskables_shareMasked huw).mpr hj, hij⟩

/-- A consumer whose wait is over is not served; the rest then are, where the tender reaches (R256). -/
theorem rngWaitExpiry_of_late {w : Waiter} {s : State} (hp : powered s = true) (hf : inFault s = false)
    (hw : lateWaiter s = some w) :
    exec .rngWaitExpiry s = .next (serveAll (unserved stRngNotSeeded false w s)) := by
  simp only [exec, execRngWaitExpiry, hw]
  exact onlyIf_pos (by simp [hp, hf])

/-- Settles O25. -/
theorem tenderServesItsConsumers : Obligations.TenderServesItsConsumers := by
  unfold Obligations.TenderServesItsConsumers
  refine ⟨fun s => tenderFill_acts, fun s hp hf hs hq hb => ?_, fun w s hp hf hw => ⟨rngWaitExpiry_of_late hp hf hw, ?_, ?_⟩,
    fun i s => remask_acts, fun s hp hf hs hl hw hm => ?_, fun t s hl hst hop hr hlen => ?_⟩
  · have hg : (powered s && !inFault s && s.rng.state == .seeded && decide (s.rng.reqSince + 1 ≥ 2 ^ 20) &&
        bitsReady s) = true := by
      simp [hp, hf, hs, hb]; omega
    exact ⟨_, onlyIf_pos hg, rfl, rfl, rfl, rfl, rfl, rfl⟩
  · intro i hi hone
    have hu : (unserved stRngNotSeeded false w s).rng.waiters = [] := by simp [unserved, hi, updKst, updRng, hone]
    refine ⟨_, (rngWaitExpiry_of_late hp hf hw).trans (by rw [serveAll_of_none hu]), hu, ?_⟩
    simp [unserved, hi, updKst, updRng]
  · intro hd hone
    have hu : (unserved stRngNotSeeded false w s).rng.waiters = [] := by simp [unserved, hd, updLcs, updRng, hone]
    refine ⟨_, (rngWaitExpiry_of_late hp hf hw).trans (by rw [serveAll_of_none hu]), hu, ?_⟩
    simp [unserved, hd, updLcs, updRng]
  · have ht : tenderTake 64 s = some (s.rng.tender.take 64, updRng (fun r =>
        { r with tender := r.tender.drop 64, tenderLow := min r.tenderLow (r.tender.drop 64).length }) s) := by
      rw [tenderTake, if_pos (by simp [hs, hl])]
    have he : exec .maskReserveRefill s = .next (updKst (fun k => { k with masks := k.masks ++ [leNat (s.rng.tender.take 64)] })
        (updRng (fun r =>
          { r with tender := r.tender.drop 64, tenderLow := min r.tenderLow (r.tender.drop 64).length }) s)) := by
      simp only [exec, execMaskReserveRefill, ht]
      exact onlyIf_pos (by simp [hp, hf, hw, hm])
    exact ⟨_, he, rfl, rfl, rfl, rfl, rfl⟩
  · exact onlyIf_pos (by simp [isAt, hl, hst, hop, hr, hlen])

end Sys2Proof.Proofs
end

section
/-! PROOFS. The key carriages, attestation and early unwraps (05_carriages.md, 09_key_slots_tickets_legacy.md). -/
namespace Sys2Proof.Proofs

open Sys2Proof.Machine Sys2Proof.Safety Sys2Proof.Laws

variable {s : State}

/-- A read asked for at once takes no CSN and touches neither the carriages nor the slots. -/
theorem readAtOnce_frame (p : Port) (pasid : Option Nat) (addr len : Nat) (s : State) :
    (readAtOnce p pasid addr len s).car = s.car ∧ (readAtOnce p pasid addr len s).kst = s.kst ∧
    (readAtOnce p pasid addr len s).csn = s.csn := by
  unfold readAtOnce
  split
  · exact ⟨rfl, rfl, rfl⟩
  · exact ⟨rfl, rfl, rfl⟩

/-- The shadow slot of a ticket opened early (R166). -/
def openedShadow (sq pos : Nat) (e ticket : Bytes) (tag : Option Nat) (dek : Nat) (s : State) : Shadow :=
  { used := true, tag := tag, sq := sq, pos := pos, addr := bits (eKeyref e) 0 60, ticket := ticket
    owner := tkOwner ticket, dek := dek, at_ := s.now }

/-- A ticket is opened early into a free shadow slot (R166). -/
theorem speculativeUnwrap_acts {sq pos i : Nat} {e ticket : Bytes} {tag : Option Nat} (hl : live s = true)
    (ht : (ringOf s sq).type = .sq) (hs : (ringOf s sq).state = .active) (hu : unwrapTarget s sq pos = some (e, tag))
    (hi : firstBelow 1024 (fun i => !(tget {} s.car.shadows i).used) = some i) (he : eOp e = 0x02)
    (hk : kKind (eKeyref e) = 2) (hn : ticket.length = 64) (hr : readsOut (s.stats.get (ringOf s sq).home) < 768)
    (hno : tany s.car.shadows (fun _ h => h.used && h.sq == sq && h.pos == pos) = false) :
    ∃ t, exec (.speculativeUnwrap sq pos ticket) s = .next t ∧ t.kst = s.kst ∧ t.csn = s.csn ∧
      (openTicket s ticket = none → t.car = s.car) ∧
      (∀ dek, openTicket s ticket = some dek → tget {} t.car.shadows i =
        { used := true, tag := tag, sq := sq, pos := pos, addr := bits (eKeyref e) 0 60, ticket := ticket
          owner := tkOwner ticket, dek := dek, at_ := s.now }) := by
  obtain ⟨hcar, hkst, hcsn⟩ :=
    readAtOnce_frame (ringOf s sq).home (ringPasid s (ringOf s sq)) (bits (eKeyref e) 0 60) 64 s
  cases ho : openTicket s ticket with
  | none =>
    refine ⟨readAtOnce (ringOf s sq).home (ringPasid s (ringOf s sq)) (bits (eKeyref e) 0 60) 64 s, ?_, hkst, hcsn,
      fun _ => hcar, fun dek hd => by cases hd⟩
    simp [exec, execSpeculativeUnwrap, hu, hi, hl, ht, hs, he, hk, hn, hr, hno, ho]
  | some dek =>
    refine ⟨updCar (fun c => { c with shadows := tput c.shadows i (openedShadow sq pos e ticket tag dek s) })
      (readAtOnce (ringOf s sq).home (ringPasid s (ringOf s sq)) (bits (eKeyref e) 0 60) 64 s), ?_, hkst, hcsn,
      fun h => (by cases h), fun d hd => ?_⟩
    · simp [exec, execSpeculativeUnwrap, hu, hi, hl, ht, hs, he, hk, hn, hr, hno, ho, openedShadow]
    · cases hd
      exact tget_tput_same ({} : Shadow) _ i _

/-- Settles O22. -/
theorem keyCarriagesComplete : Obligations.KeyCarriagesComplete := by
  unfold Obligations.KeyCarriagesComplete
  refine ⟨fun t i g s ha hk => ?_, fun t owner dek base count i hit s ha hk hi hw => ?_, fun t s ha hr hn hw => ?_,
    fun t i g s ha hk hs hw => ?_, fun t s hs ha hx hb hw => ?_, fun t s hs ha hx hb => ?_, fun sq pos i e ticket tag s =>
    speculativeUnwrap_acts⟩
  · simp only [exec, execKeyReleaseSlot, hk]
    exact onlyIf_pos ha
  · simp only [exec, execKeyLoadTicket, hk, doneOpen, hi]
    exact onlyIf_pos (by simp [ha, hw])
  · exact onlyIf_pos (by simp [ha, hr, hn, hw])
  · simp only [exec, execSealObject, hk, ha, hs, hw]
    cases kekOf s (slotOf s i).owner with
    | none => rfl
    | some kek => rfl
  all_goals
    have hadm : ∀ op, isAt s t op .running = true → isAt s t op .admitted = false := fun op h => by
      simp only [isAt, Bool.and_eq_true, beq_iff_eq] at h
      simp [isAt, h.2]
  · simp only [exec, execKeyImport, hs, hadm _ ha, ha, hx, hb]
    cases importKey s (carrOf s t) with
    | none => simp
    | some k => simpa using onlyIf_pos (by simp [hw])
  · simp [exec, execAttest, hs, hadm _ ha, ha, hx, hb]

end Sys2Proof.Proofs
end

section
/-! SUPPORT. What the lattice unit's commands leave of the state (12_lattice_bignum_utility.md). -/
namespace Sys2Proof.Laws

open Sys2Proof.Machine Sys2Proof.Safety

/-- A mask comes from the tender or from the reserve. -/
@[simp] theorem freshMask_frame (s : State) :
    (freshMask s).2.pending = s.pending ∧ (freshMask s).2.out = s.out ∧ (freshMask s).2.free = s.free ∧
    (freshMask s).2.now = s.now ∧ (freshMask s).2.csn = s.csn ∧ (freshMask s).2.chp = s.chp ∧ (freshMask s).2.pins = s.pins ∧
    (freshMask s).2.hpt = s.hpt ∧ (freshMask s).2.stats = s.stats ∧ (freshMask s).2.win = s.win ∧
    (freshMask s).2.ttb = s.ttb ∧ (freshMask s).2.car = s.car ∧ (freshMask s).2.cay = s.cay ∧ (freshMask s).2.mdf = s.mdf ∧
    (freshMask s).2.leg = s.leg ∧ (freshMask s).2.vlt = s.vlt ∧ (freshMask s).2.slc = s.slc ∧ (freshMask s).2.evr = s.evr ∧
    (freshMask s).2.lat = s.lat ∧ (freshMask s).2.bnv = s.bnv ∧ (freshMask s).2.ucp = s.ucp ∧ (freshMask s).2.wld = s.wld ∧
    (freshMask s).2.tmp = s.tmp ∧ (freshMask s).2.bbr = s.bbr ∧ (freshMask s).2.lcs = s.lcs ∧
    (freshMask s).2.fuses = s.fuses ∧ (freshMask s).2.mnf = s.mnf ∧ (freshMask s).2.flash = s.flash ∧
    (freshMask s).2.fwu = s.fwu ∧ (freshMask s).2.drb = s.drb ∧ (freshMask s).2.mem = s.mem ∧ (freshMask s).2.gov = s.gov ∧
    (freshMask s).2.shown = s.shown := by
  unfold freshMask
  split
  · next b t h =>
    simp only [tenderTake] at h
    split at h
    · cases h; simp [updRng]
    · cases h
  · split <;> simp [updKst]

/-- What `portWrite` leaves. -/
@[simp] theorem portWrite_frame (p : Port) (addr : Nat) (data : Bytes) (s : State) :
    (portWrite p addr data s).pending = s.pending ∧ (portWrite p addr data s).free = s.free ∧
    (portWrite p addr data s).now = s.now ∧ (portWrite p addr data s).csn = s.csn ∧
    (portWrite p addr data s).chp = s.chp ∧ (portWrite p addr data s).pins = s.pins ∧
    (portWrite p addr data s).hpt = s.hpt ∧ (portWrite p addr data s).win = s.win ∧
    (portWrite p addr data s).ttb = s.ttb ∧ (portWrite p addr data s).car = s.car ∧
    (portWrite p addr data s).cay = s.cay ∧ (portWrite p addr data s).mdf = s.mdf ∧
    (portWrite p addr data s).kst = s.kst ∧ (portWrite p addr data s).leg = s.leg ∧
    (portWrite p addr data s).vlt = s.vlt ∧ (portWrite p addr data s).slc = s.slc ∧
    (portWrite p addr data s).evr = s.evr ∧ (portWrite p addr data s).rng = s.rng ∧
    (portWrite p addr data s).lat = s.lat ∧ (portWrite p addr data s).bnv = s.bnv ∧
    (portWrite p addr data s).ucp = s.ucp ∧ (portWrite p addr data s).wld = s.wld ∧
    (portWrite p addr data s).tmp = s.tmp ∧ (portWrite p addr data s).bbr = s.bbr ∧
    (portWrite p addr data s).lcs = s.lcs ∧ (portWrite p addr data s).fuses = s.fuses ∧
    (portWrite p addr data s).mnf = s.mnf ∧ (portWrite p addr data s).flash = s.flash ∧
    (portWrite p addr data s).fwu = s.fwu ∧ (portWrite p addr data s).drb = s.drb ∧
    (portWrite p addr data s).mem = s.mem ∧ (portWrite p addr data s).gov = s.gov ∧
    (portWrite p addr data s).shown = s.shown := by
  simp [portWrite]

/-- What `allocSlot` leaves. -/
@[simp] theorem allocSlot_frame (i : Nat) (n : NewSlot) (s : State) :
    (allocSlot i n s).pending = s.pending ∧ (allocSlot i n s).out = s.out ∧ (allocSlot i n s).free = s.free ∧
    (allocSlot i n s).now = s.now ∧ (allocSlot i n s).csn = s.csn ∧ (allocSlot i n s).chp = s.chp ∧
    (allocSlot i n s).pins = s.pins ∧ (allocSlot i n s).hpt = s.hpt ∧ (allocSlot i n s).stats = s.stats ∧
    (allocSlot i n s).win = s.win ∧ (allocSlot i n s).ttb = s.ttb ∧ (allocSlot i n s).car = s.car ∧
    (allocSlot i n s).cay = s.cay ∧ (allocSlot i n s).mdf = s.mdf ∧ (allocSlot i n s).leg = s.leg ∧
    (allocSlot i n s).vlt = s.vlt ∧ (allocSlot i n s).slc = s.slc ∧ (allocSlot i n s).evr = s.evr ∧
    (allocSlot i n s).lat = s.lat ∧ (allocSlot i n s).bnv = s.bnv ∧ (allocSlot i n s).ucp = s.ucp ∧
    (allocSlot i n s).wld = s.wld ∧ (allocSlot i n s).tmp = s.tmp ∧ (allocSlot i n s).bbr = s.bbr ∧
    (allocSlot i n s).lcs = s.lcs ∧ (allocSlot i n s).fuses = s.fuses ∧ (allocSlot i n s).mnf = s.mnf ∧
    (allocSlot i n s).flash = s.flash ∧ (allocSlot i n s).fwu = s.fwu ∧ (allocSlot i n s).drb = s.drb ∧
    (allocSlot i n s).mem = s.mem ∧ (allocSlot i n s).gov = s.gov ∧ (allocSlot i n s).shown = s.shown := by
  simp [allocSlot]

/-- What `readBuffer` leaves. -/
@[simp] theorem readBuffer_frame (w : DmaRead) (t off n : Nat) (s : State) :
    (readBuffer w t off n s).pending = s.pending ∧ (readBuffer w t off n s).free = s.free ∧
    (readBuffer w t off n s).now = s.now ∧ (readBuffer w t off n s).csn = s.csn ∧
    (readBuffer w t off n s).chp = s.chp ∧ (readBuffer w t off n s).pins = s.pins ∧
    (readBuffer w t off n s).hpt = s.hpt ∧ (readBuffer w t off n s).win = s.win ∧
    (readBuffer w t off n s).ttb = s.ttb ∧ (readBuffer w t off n s).car = s.car ∧
    (readBuffer w t off n s).cay = s.cay ∧ (readBuffer w t off n s).mdf = s.mdf ∧
    (readBuffer w t off n s).kst = s.kst ∧ (readBuffer w t off n s).leg = s.leg ∧
    (readBuffer w t off n s).vlt = s.vlt ∧ (readBuffer w t off n s).slc = s.slc ∧
    (readBuffer w t off n s).evr = s.evr ∧ (readBuffer w t off n s).rng = s.rng ∧
    (readBuffer w t off n s).lat = s.lat ∧ (readBuffer w t off n s).bnv = s.bnv ∧
    (readBuffer w t off n s).ucp = s.ucp ∧ (readBuffer w t off n s).wld = s.wld ∧
    (readBuffer w t off n s).tmp = s.tmp ∧ (readBuffer w t off n s).bbr = s.bbr ∧
    (readBuffer w t off n s).lcs = s.lcs ∧ (readBuffer w t off n s).fuses = s.fuses ∧
    (readBuffer w t off n s).mnf = s.mnf ∧ (readBuffer w t off n s).flash = s.flash ∧
    (readBuffer w t off n s).fwu = s.fwu ∧ (readBuffer w t off n s).drb = s.drb ∧
    (readBuffer w t off n s).mem = s.mem ∧ (readBuffer w t off n s).gov = s.gov ∧
    (readBuffer w t off n s).shown = s.shown := by
  simp [readBuffer]

/-- What `updAnc` leaves. -/
@[simp] theorem updAnc_frame (p : Port) (f : AncBlk → AncBlk) (s : State) :
    (updAnc p f s).pending = s.pending ∧ (updAnc p f s).out = s.out ∧ (updAnc p f s).free = s.free ∧
    (updAnc p f s).now = s.now ∧ (updAnc p f s).csn = s.csn ∧ (updAnc p f s).chp = s.chp ∧
    (updAnc p f s).pins = s.pins ∧ (updAnc p f s).hpt = s.hpt ∧ (updAnc p f s).stats = s.stats ∧
    (updAnc p f s).ttb = s.ttb ∧ (updAnc p f s).car = s.car ∧ (updAnc p f s).cay = s.cay ∧
    (updAnc p f s).mdf = s.mdf ∧ (updAnc p f s).kst = s.kst ∧ (updAnc p f s).leg = s.leg ∧
    (updAnc p f s).vlt = s.vlt ∧ (updAnc p f s).slc = s.slc ∧ (updAnc p f s).evr = s.evr ∧
    (updAnc p f s).rng = s.rng ∧ (updAnc p f s).lat = s.lat ∧ (updAnc p f s).bnv = s.bnv ∧
    (updAnc p f s).ucp = s.ucp ∧ (updAnc p f s).wld = s.wld ∧ (updAnc p f s).tmp = s.tmp ∧
    (updAnc p f s).bbr = s.bbr ∧ (updAnc p f s).lcs = s.lcs ∧ (updAnc p f s).fuses = s.fuses ∧
    (updAnc p f s).mnf = s.mnf ∧ (updAnc p f s).flash = s.flash ∧ (updAnc p f s).fwu = s.fwu ∧
    (updAnc p f s).drb = s.drb ∧ (updAnc p f s).mem = s.mem ∧ (updAnc p f s).gov = s.gov ∧
    (updAnc p f s).shown = s.shown := by
  simp [updAnc]

/-- What `useSlot` leaves. -/
@[simp] theorem useSlot_frame (i : Nat) (s : State) :
    (useSlot i s).pending = s.pending ∧ (useSlot i s).out = s.out ∧ (useSlot i s).free = s.free ∧
    (useSlot i s).now = s.now ∧ (useSlot i s).csn = s.csn ∧ (useSlot i s).chp = s.chp ∧ (useSlot i s).pins = s.pins ∧
    (useSlot i s).hpt = s.hpt ∧ (useSlot i s).stats = s.stats ∧ (useSlot i s).win = s.win ∧
    (useSlot i s).ttb = s.ttb ∧ (useSlot i s).car = s.car ∧ (useSlot i s).cay = s.cay ∧ (useSlot i s).mdf = s.mdf ∧
    (useSlot i s).leg = s.leg ∧ (useSlot i s).vlt = s.vlt ∧ (useSlot i s).slc = s.slc ∧ (useSlot i s).evr = s.evr ∧
    (useSlot i s).rng = s.rng ∧ (useSlot i s).lat = s.lat ∧ (useSlot i s).bnv = s.bnv ∧ (useSlot i s).ucp = s.ucp ∧
    (useSlot i s).wld = s.wld ∧ (useSlot i s).tmp = s.tmp ∧ (useSlot i s).bbr = s.bbr ∧ (useSlot i s).lcs = s.lcs ∧
    (useSlot i s).fuses = s.fuses ∧ (useSlot i s).mnf = s.mnf ∧ (useSlot i s).flash = s.flash ∧
    (useSlot i s).fwu = s.fwu ∧ (useSlot i s).drb = s.drb ∧ (useSlot i s).mem = s.mem ∧ (useSlot i s).gov = s.gov ∧
    (useSlot i s).shown = s.shown := by
  simp [useSlot]

/-- What `latEnqueue` leaves. -/
@[simp] theorem latEnqueue_frame (q : LatReq) (s : State) :
    (latEnqueue q s).pending = s.pending ∧ (latEnqueue q s).out = s.out ∧ (latEnqueue q s).free = s.free ∧
    (latEnqueue q s).now = s.now ∧ (latEnqueue q s).csn = s.csn ∧ (latEnqueue q s).chp = s.chp ∧
    (latEnqueue q s).pins = s.pins ∧ (latEnqueue q s).hpt = s.hpt ∧ (latEnqueue q s).stats = s.stats ∧
    (latEnqueue q s).win = s.win ∧ (latEnqueue q s).ttb = s.ttb ∧ (latEnqueue q s).car = s.car ∧
    (latEnqueue q s).cay = s.cay ∧ (latEnqueue q s).mdf = s.mdf ∧ (latEnqueue q s).kst = s.kst ∧
    (latEnqueue q s).leg = s.leg ∧ (latEnqueue q s).vlt = s.vlt ∧ (latEnqueue q s).slc = s.slc ∧
    (latEnqueue q s).evr = s.evr ∧ (latEnqueue q s).rng = s.rng ∧ (latEnqueue q s).bnv = s.bnv ∧
    (latEnqueue q s).ucp = s.ucp ∧ (latEnqueue q s).wld = s.wld ∧ (latEnqueue q s).tmp = s.tmp ∧
    (latEnqueue q s).bbr = s.bbr ∧ (latEnqueue q s).lcs = s.lcs ∧ (latEnqueue q s).fuses = s.fuses ∧
    (latEnqueue q s).mnf = s.mnf ∧ (latEnqueue q s).flash = s.flash ∧ (latEnqueue q s).fwu = s.fwu ∧
    (latEnqueue q s).drb = s.drb ∧ (latEnqueue q s).mem = s.mem ∧ (latEnqueue q s).gov = s.gov ∧
    (latEnqueue q s).shown = s.shown := by
  simp [latEnqueue]

/-- What `latCount` leaves. -/
@[simp] theorem latCount_frame (s : State) :
    (latCount s).pending = s.pending ∧ (latCount s).out = s.out ∧ (latCount s).free = s.free ∧
    (latCount s).now = s.now ∧ (latCount s).csn = s.csn ∧ (latCount s).chp = s.chp ∧ (latCount s).pins = s.pins ∧
    (latCount s).hpt = s.hpt ∧ (latCount s).stats = s.stats ∧ (latCount s).win = s.win ∧ (latCount s).ttb = s.ttb ∧
    (latCount s).car = s.car ∧ (latCount s).cay = s.cay ∧ (latCount s).mdf = s.mdf ∧ (latCount s).kst = s.kst ∧
    (latCount s).leg = s.leg ∧ (latCount s).vlt = s.vlt ∧ (latCount s).slc = s.slc ∧ (latCount s).evr = s.evr ∧
    (latCount s).rng = s.rng ∧ (latCount s).bnv = s.bnv ∧ (latCount s).ucp = s.ucp ∧ (latCount s).wld = s.wld ∧
    (latCount s).tmp = s.tmp ∧ (latCount s).bbr = s.bbr ∧ (latCount s).lcs = s.lcs ∧ (latCount s).fuses = s.fuses ∧
    (latCount s).mnf = s.mnf ∧ (latCount s).flash = s.flash ∧ (latCount s).fwu = s.fwu ∧ (latCount s).drb = s.drb ∧
    (latCount s).mem = s.mem ∧ (latCount s).gov = s.gov ∧ (latCount s).shown = s.shown := by
  simp [latCount]

/-- A fold whose every turn leaves the count of lattice operations leaves it. -/
@[simp] theorem foldl_opsCnt {α : Type} {f : State → α → State} (hf : ∀ s x, (f s x).lat.opsCnt = s.lat.opsCnt)
    (l : List α) (s : State) : (l.foldl f s).lat.opsCnt = s.lat.opsCnt := foldl_part (fun s => s.lat.opsCnt) hf l s

/-- `forget` leaves the count of lattice operations. -/
@[simp] theorem forget_opsCnt (t : Nat) (s : State) : (forget t s).lat.opsCnt = s.lat.opsCnt := by
  simp [forget]

/-- `letGo` leaves the count of lattice operations. -/
@[simp] theorem letGo_opsCnt (t : Nat) (s : State) : (letGo t s).lat.opsCnt = s.lat.opsCnt := by
  unfold letGo
  repeat' split
  all_goals simp

/-- `release` leaves the count of lattice operations. -/
@[simp] theorem release_opsCnt (t : Nat) (s : State) : (release t s).lat.opsCnt = s.lat.opsCnt := by
  simp [release]

/-- `finishAt` leaves the count of lattice operations. -/
@[simp] theorem finishAt_opsCnt (t status result : Nat) (s : State) :
    (finishAt t status result s).lat.opsCnt = s.lat.opsCnt := by
  simp [finishAt]

/-- `finish` leaves the count of lattice operations. -/
@[simp] theorem finish_opsCnt (t status result : Nat) (s : State) :
    (finish t status result s).lat.opsCnt = s.lat.opsCnt := by
  simp [finish]

/-- `complete` leaves the count of lattice operations. -/
@[simp] theorem complete_opsCnt (t status result : Nat) (s : State) :
    (complete t status result s).lat.opsCnt = s.lat.opsCnt := by
  unfold complete
  repeat' split
  all_goals simp

/-- `stopOne` leaves the count of lattice operations. -/
@[simp] theorem stopOne_opsCnt (t status result : Nat) (s : State) :
    (stopOne t status result s).lat.opsCnt = s.lat.opsCnt := by
  unfold stopOne
  repeat' split
  all_goals simp

/-- `latEnd` leaves the count of lattice operations. -/
@[simp] theorem latEnd_opsCnt (p : Port) (status result : Nat) (s : State) :
    (latEnd p status result s).lat.opsCnt = s.lat.opsCnt := by
  unfold latEnd
  dsimp only
  repeat' split
  all_goals simp

/-- `reapEngines` leaves the count of lattice operations. -/
@[simp] theorem reapEngines_opsCnt (status : Nat) (s : State) : (reapEngines status s).lat.opsCnt = s.lat.opsCnt := by
  unfold reapEngines
  dsimp only
  repeat' split
  all_goals simp

/-- `reap` leaves the count of lattice operations. -/
@[simp] theorem reap_opsCnt (status : Nat) (s : State) : (reap status s).lat.opsCnt = s.lat.opsCnt := by
  simp [reap]

end Sys2Proof.Laws
end

section
/-! PROOFS. Lattice commands (12_lattice_bignum_utility.md). -/
namespace Sys2Proof.Proofs

open Sys2Proof.Machine Sys2Proof.Safety Sys2Proof.Laws

variable {p q : Port} {s g : State}

/-! ### A command taken -/

/-- A command's check reads the slots and the owners alone. -/
theorem latCheck_congr (hk : g.kst = s.kst) (hv : g.vlt = s.vlt) (b : LatBlk) : latCheck g b = latCheck s b := by
  simp only [latCheck, latLensOk, latOut, ownerCheck, handleCheck, latSlotOk, slotOf, ownerOf, hk, hv]
  rfl

/-- A checked command that its port keeps: BUSY, its slot used, behind the requests before it (R260, R261). -/
def latKept (p : Port) (s : State) : State :=
  let b := (s.win.get p).lat
  let a := updLat (fun l => { l with run := l.run.set p b })
    (updWin p (fun w => { w with lat := { w.lat with busy := true } }) s)
  let c := if b.op ≥ 3 then
      updLat (fun l => { l with slot := l.slot.set p (some (hIndex b.handle, hGen b.handle)) }) (useSlot (hIndex b.handle) a)
    else a
  latEnqueue (.port p) (updLat (fun l => { l with
    src := l.src.set p (if b.op == 4 && b.srcLen != 0 then none else some []) }) c)

/-- A kept command whose message, where it has one, is asked for. -/
def latTaken (p : Port) (s : State) : State :=
  let b := (s.win.get p).lat
  if b.op == 4 && b.srcLen != 0 then dmaRead (.lattice p) p none (addr64 b.srcLo b.srcHi) b.srcLen (latKept p s)
  else latKept p s

/-- A command that its check passes. -/
theorem latGo_of_ok (hb : (s.win.get p).lat.busy = false) (hc : latCheck s (s.win.get p).lat = 0) :
    latGo p s = if latTender (s.win.get p).lat.op == 0 then latTaken p s
      else ask (.lattice p) (latTender (s.win.get p).lat.op) (latTaken p s) := by
  simp only [latGo, hb, hc]
  rfl

/-- A command that its check turns away. -/
theorem latGo_of_bad (hb : (s.win.get p).lat.busy = false) (hc : latCheck s (s.win.get p).lat ≠ 0) :
    latGo p s = updWin p (fun w => { w with lat := { w.lat with status := latCheck s w.lat, result := 0 } }) s := by
  simp only [latGo, hb, bne_iff_ne, ne_eq, hc, not_false_eq_true, if_true, Bool.false_eq_true, if_false]
  simp only [updWin]
  congr 1

/-- What a taken command keeps, and what it leaves of the tender, the carriages and the CSN. -/
theorem latTaken_spec : ((latTaken p s).win.get p).lat.busy = true ∧ (latTaken p s).lat.queue = s.lat.queue ++ [.port p] ∧
    (latTaken p s).lat.run.get p = (s.win.get p).lat ∧ (latTaken p s).rng = s.rng ∧ (latTaken p s).now = s.now ∧
    (latTaken p s).csn = s.csn ∧ (latTaken p s).car = s.car := by
  by_cases h : 3 ≤ (s.win.get p).lat.op
  all_goals
    unfold latTaken
    dsimp only
    split <;> simp [latKept, h, latEnqueue, updLat, updWin]

/-- A key generation uses no slot. -/
theorem latTaken_kst (h : (s.win.get p).lat.op < 3) : (latTaken p s).kst = s.kst := by
  have h3 : ¬(s.win.get p).lat.op ≥ 3 := by omega
  unfold latTaken
  dsimp only
  split <;> simp [latKept, h3]

/-- A command on a slot names it and counts in its USE. -/
theorem latTaken_slot (h : 3 ≤ (s.win.get p).lat.op) :
    (latTaken p s).lat.slot.get p = some (hIndex (s.win.get p).lat.handle, hGen (s.win.get p).lat.handle) ∧
    (slotOf (latTaken p s) (hIndex (s.win.get p).lat.handle)).use =
      (slotOf s (hIndex (s.win.get p).lat.handle)).use + 1 := by
  have hk : (latTaken p s).kst = (useSlot (hIndex (s.win.get p).lat.handle) s).kst := by
    unfold latTaken
    dsimp only
    split <;> simp [latKept, h, useSlot, updSlot, updKst]
  have hu : slotOf (latTaken p s) (hIndex (s.win.get p).lat.handle) =
      slotOf (useSlot (hIndex (s.win.get p).lat.handle) s) (hIndex (s.win.get p).lat.handle) := by
    simp only [slotOf, hk]
  refine ⟨?_, hu ▸ ?_⟩
  · unfold latTaken
    dsimp only
    split <;> simp [latKept, h, latEnqueue, updLat]
  · rw [useSlot, slotOf_updSlot_of]
    intro h0
    cases congrArg Slot.use h0

/-- The bytes of the tender that a command asks for, where no consumer waits: it has them at once (R255). -/
theorem ask_lattice {n : Nat} (hw : g.rng.waiters = []) (hs : g.rng.state ≠ .failed) (hn : n ≤ g.rng.tender.length) :
    ask (.lattice p) n g = updLat (fun l => { l with rnd := l.rnd.set p (g.rng.tender.take n) }) (tenderTaken n g) :=
  ask_served (.lattice p) n hs hw hn

/-! ### The write of a command -/

/-- The state that a write of a command finds. -/
def cmdWritten (p : Port) (s : State) : State := seqd (legTouch p (cntWr p s))

theorem cmdWritten_csn {k : Blk} (h : wr p k s = true) : (cmdWritten p s).csn = s.csn + 1 := by
  have hF : inFault (legTouch p (cntWr p s)) = false := by simpa [inFault] using inFault_of_wr h
  rw [cmdWritten, seqd_csn _ hF]
  simp

/-- A write of a command leaves what the command works on. -/
@[simp] theorem cmdWritten_frame (p : Port) (s : State) : (cmdWritten p s).win = s.win ∧ (cmdWritten p s).lat = s.lat ∧
    (cmdWritten p s).kst = s.kst ∧ (cmdWritten p s).vlt = s.vlt ∧ (cmdWritten p s).rng = s.rng ∧
    (cmdWritten p s).car = s.car ∧ (cmdWritten p s).bnv = s.bnv := by
  simp [cmdWritten]

/-- A command of its operation, where no other runs. -/
theorem latRow_eq {op : Nat} (h : wr p .lat s = true) (hb : (s.win.get p).lat.busy = false)
    (ho : (s.win.get p).lat.op = op) : latRow p op s = .next (latGo p (cmdWritten p s)) := by
  simp [latRow, h, ho, hb, seqIf, cmdWritten]

/-- A command that needs no bytes, or that has them at once. -/
theorem latGo_written (hb : (s.win.get p).lat.busy = false)
    (hc : latCheck s (s.win.get p).lat = 0) :
    latGo p (cmdWritten p s) = if latTender (s.win.get p).lat.op == 0 then latTaken p (cmdWritten p s)
      else ask (.lattice p) (latTender (s.win.get p).lat.op) (latTaken p (cmdWritten p s)) := by
  obtain ⟨hwin, -, hk, hv, -⟩ := cmdWritten_frame p s
  rw [latGo_of_ok (by rwa [hwin]) (by rwa [hwin, latCheck_congr hk hv]), hwin]

/-- A command that has its bytes at once. -/
theorem latGo_served {n : Nat} (hb : (s.win.get p).lat.busy = false)
    (hc : latCheck s (s.win.get p).lat = 0) (hn : latTender (s.win.get p).lat.op = n + 1) (hw : s.rng.waiters = [])
    (hs : s.rng.state ≠ .failed) (hl : n + 1 ≤ s.rng.tender.length) :
    latGo p (cmdWritten p s) = updLat (fun l => { l with rnd := l.rnd.set p (s.rng.tender.take (n + 1)) })
      (tenderTaken (n + 1) (latTaken p (cmdWritten p s))) := by
  obtain ⟨-, -, -, hr, -⟩ := latTaken_spec (p := p) (s := cmdWritten p s)
  obtain ⟨-, -, -, -, hrw, -⟩ := cmdWritten_frame p s
  rw [hrw] at hr
  rw [latGo_written hb hc, hn, if_neg (by simp), ask_lattice (by rwa [hr]) (by rwa [hr]) (by rwa [hr]), hr]

/-! ### An abort -/

/-- Ending the command of a port leaves the one of a port that runs none. -/
theorem latEnd_idle (st r : Nat) (h : (s.win.get q).lat.busy = false) :
    ((latEnd p st r s).win.get q).lat = (s.win.get q).lat := by
  by_cases hq : q = p
  · subst hq
    simp [latEnd, h]
  · unfold latEnd
    dsimp only
    split
    · rfl
    · simp only [updWin]
      rw [get_upd_ne _ _ _ _ hq]
      split <;> simp [updRng, updLat]

/-- The end of what lost its key leaves a port that runs no command. -/
theorem reap_latIdle (st : Nat) (h : (s.win.get q).lat.busy = false) :
    ((reap st s).win.get q).lat = (s.win.get q).lat := by
  have hwin : ((orphans s).foldl (fun s t => stopOne t st 0 s) s).win = s.win :=
    foldl_part State.win (fun s t => by simp) _ s
  unfold reap reapEngines
  dsimp only
  generalize (orphans s).foldl (fun s t => stopOne t st 0 s) s = g at hwin
  have hg : (g.win.get q).lat = (s.win.get q).lat := by rw [hwin]
  have ha : ∀ u : State, (u.win.get q).lat = (s.win.get q).lat → ∀ r c, [Decidable c] →
      ((if c then latEnd r st 0 u else u).win.get q).lat = (s.win.get q).lat := fun u hu r c _ => by
    split
    · rw [latEnd_idle st 0 (by rw [hu]; exact h), hu]
    · exact hu
  have hu : ∀ u : State, (u.win.get q).lat = (s.win.get q).lat → ∀ c, [Decidable c] →
      ((if c then ucpEnd st 0 u else u).win.get q).lat = (s.win.get q).lat := fun u hu c _ => by
    split
    · simpa using hu
    · exact hu
  exact hu _ (ha _ (ha g hg _ _) _ _) _

/-- An aborted command without a slot. -/
theorem latEnd_noSlot (st r : Nat) (hb : (g.win.get p).lat.busy = true) (hn : g.lat.slot.get p = none) :
    ((latEnd p st r g).win.get p).lat.busy = false ∧ ((latEnd p st r g).win.get p).lat.status = st ∧
    ((latEnd p st r g).win.get p).lat.result = r ∧ (latEnd p st r g).lat.queue = g.lat.queue.erase (.port p) ∧
    (latEnd p st r g).kst = g.kst ∧ (latEnd p st r g).csn = g.csn ∧ (latEnd p st r g).car = g.car := by
  simp [latEnd, hb, hn, updWin, updRng, updLat]

/-! ### The obligation -/

/-- PUBKEY reads its slot alone: no bytes of the tender. -/
theorem pubkey_acts (h : wr p .lat s = true) (hb : (s.win.get p).lat.busy = false)
    (hc : latCheck s (s.win.get p).lat = 0) (ho : (s.win.get p).lat.op = 3) :
    ∃ t, exec (.pubkey p) s = .next t ∧ (t.win.get p).lat.busy = true ∧ t.lat.queue = s.lat.queue ++ [.port p] ∧
      t.lat.run.get p = (s.win.get p).lat ∧
      t.lat.slot.get p = some (hIndex (s.win.get p).lat.handle, hGen (s.win.get p).lat.handle) ∧
      (slotOf t (hIndex (s.win.get p).lat.handle)).use = (slotOf s (hIndex (s.win.get p).lat.handle)).use + 1 ∧
      t.csn = s.csn + 1 ∧ t.car = s.car := by
  obtain ⟨hwin, hlat, hk, -, -, hcar, -⟩ := cmdWritten_frame p s
  obtain ⟨h1, h2, h3, -, -, h4, h5⟩ := latTaken_spec (p := p) (s := cmdWritten p s)
  have hslot : slotOf (cmdWritten p s) = slotOf s := funext fun i => by simp only [slotOf, hk]
  obtain ⟨h6, h7⟩ := latTaken_slot (p := p) (s := cmdWritten p s) (Nat.le_of_eq (by rw [hwin, ho]))
  rw [hwin, hslot] at h7
  rw [hwin] at h3 h6
  rw [hlat] at h2
  refine ⟨_, (latRow_eq h hb ho).trans (by rw [latGo_written hb hc, ho]; rfl), h1, h2, h3, h6, h7, ?_, ?_⟩
  · rw [h4, cmdWritten_csn h]
  · rw [h5, hcar]

/-- A key generation has its seed at once where no consumer waits (R255). -/
theorem keygen_acts {n : Nat} (h : wr p .lat s = true) (hb : (s.win.get p).lat.busy = false)
    (hc : latCheck s (s.win.get p).lat = 0) (hn : latTender (s.win.get p).lat.op = n + 1) (hw : s.rng.waiters = [])
    (hs : s.rng.state ≠ .failed) (hl : n + 1 ≤ s.rng.tender.length) :
    ∃ t, latGo p (cmdWritten p s) = t ∧ (t.win.get p).lat.busy = true ∧ t.lat.queue = s.lat.queue ++ [.port p] ∧
      t.lat.run.get p = (s.win.get p).lat ∧ t.lat.rnd.get p = s.rng.tender.take (n + 1) ∧
      t.rng.tender = s.rng.tender.drop (n + 1) ∧ t.csn = s.csn + 1 ∧ t.car = s.car ∧
      t.kst = (latTaken p (cmdWritten p s)).kst ∧ t.lat.slot = (latTaken p (cmdWritten p s)).lat.slot := by
  obtain ⟨hwin, hlat, hk, -, hr, hcar, -⟩ := cmdWritten_frame p s
  obtain ⟨h1, h2, h3, h8, -, h4, h5⟩ := latTaken_spec (p := p) (s := cmdWritten p s)
  rw [hwin] at h3
  rw [hlat] at h2
  rw [hr] at h8
  refine ⟨_, latGo_served hb hc hn hw hs hl, h1, h2, h3, get_set_same .., ?_, ?_, ?_, rfl, rfl⟩
  · exact congrArg (fun r : Rng => r.tender.drop (n + 1)) h8
  · exact h4.trans (cmdWritten_csn h)
  · exact h5.trans hcar

/-- Settles O26. -/
theorem latticeCommandsRunInOrder : Obligations.LatticeCommandsRunInOrder := by
  unfold Obligations.LatticeCommandsRunInOrder
  refine ⟨fun p s h hb hc => ⟨latRow_eq h hb, latRow_eq h hb, pubkey_acts h hb hc, latRow_eq h hb, fun hw hs =>
    ⟨fun ho hl => ?_, fun ho hl => ?_, fun ho hl => ?_⟩⟩, fun p s h hb ho hc => ?_, fun p s h hb hn => ?_⟩
  · obtain ⟨t, ht, h1, h2, h3, h4, h5, h6, h7, h8, -⟩ := keygen_acts (n := 63) h hb hc (by rw [ho]; rfl) hw hs hl
    refine ⟨t, (latRow_eq h hb ho).trans (congrArg Host.Outcome.next ht), h1, h2, h3, h4, h5, ?_, h6, h7⟩
    rw [h8, latTaken_kst (by simp [ho])]
    simp
  · obtain ⟨t, ht, h1, h2, h3, h4, h5, h6, h7, h8, -⟩ := keygen_acts (n := 31) h hb hc (by rw [ho]; rfl) hw hs hl
    refine ⟨t, (latRow_eq h hb ho).trans (congrArg Host.Outcome.next ht), h1, h2, h3, h4, h5, ?_, h6, h7⟩
    rw [h8, latTaken_kst (by simp [ho])]
    simp
  · obtain ⟨t, ht, h1, h2, h3, h4, -, h6, h7, h8, h9⟩ := keygen_acts (n := 31) h hb hc (by rw [ho]; rfl) hw hs hl
    obtain ⟨hwin, -, hk, -⟩ := cmdWritten_frame p s
    have hslot : slotOf (cmdWritten p s) = slotOf s := funext fun i => by simp only [slotOf, hk]
    obtain ⟨h10, h11⟩ := latTaken_slot (p := p) (s := cmdWritten p s) (by rw [hwin, ho]; omega)
    rw [hwin, hslot] at h11
    rw [hwin] at h10
    refine ⟨t, (latRow_eq h hb ho).trans (congrArg Host.Outcome.next ht), h1, h2, h3, h4, ?_, ?_, h6, h7⟩
    · rw [h9, h10]
    · rw [← h11]
      simp only [slotOf, h8]
  · obtain ⟨hwin, hlat, hk, hv, -⟩ := cmdWritten_frame p s
    refine ⟨_, (latRow_eq h hb ho).trans (by
      rw [latGo_of_bad (by rwa [hwin]) (by rwa [hwin, latCheck_congr hk hv])]), ?_, ?_, ?_, ?_, ?_, ?_⟩
    · simp [updWin, hb]
    · simp [updWin, latCheck_congr hk hv]
    · simp [updWin]
    · exact hlat
    · exact hk
    · exact cmdWritten_csn h
  · obtain ⟨hwin, hlat, hk, -⟩ := cmdWritten_frame p s
    obtain ⟨h1, h2, -, h3, h4, h5, -⟩ := latEnd_noSlot (p := p) (g := cmdWritten p s) stAborted 0 (by rwa [hwin])
      (by rwa [hlat])
    have hr := reap_latIdle (q := p) stKeyErased h1
    refine ⟨_, latEnd p stAborted 0 (cmdWritten p s), ?_, rfl, ?_, ?_, h1, h2, ?_, ?_, ?_⟩
    · simp [exec, execLatAbort, h, hb, seqIf, cmdWritten]
    · rw [hr, h1]
    · rw [hr, h2]
    · rw [h3, hlat]
    · rw [h4, hk]
    · rw [h5, cmdWritten_csn h]

end Sys2Proof.Proofs
end

section
/-! PROOFS. The lattice unit's completion, anchors and the verifier (12_lattice_bignum_utility.md). -/
namespace Sys2Proof.Proofs

open Sys2Proof.Machine Sys2Proof.Safety Sys2Proof.Laws

variable {p q : Port} {s g : State}

/-! ### The completion of a command (R260, R261) -/

/-- The request at the front ends where it is ready. -/
theorem latticeOpDone_port {rest : List LatReq} (hp : powered s = true) (hf : inFault s = false)
    (hq : s.lat.queue = .port p :: rest) (hr : latReady p s = true) : exec .latticeOpDone s = .next (latComplete p s) := by
  simp only [exec, execLatticeOpDone, hp, hf, hq]
  exact onlyIf_pos hr

/-- The new slot of a key generation. -/
def generated (b : LatBlk) (m : Bytes) : NewSlot :=
  { material := leNat m, mlen := b.op == 1, engine := 4 + 8 * b2n b.wx, usage := if b.op == 1 then 2 else 1
    owner := b.owner, scope := b.scope }

/-- A key generation that may have its slot. -/
theorem latComplete_generated {i : Nat} (ho : (s.lat.run.get p).op ≤ 2) (hi : pickFree s = some i)
    (hc : canCreate s (s.lat.run.get p).scope = true) :
    latComplete p s =
      (let c := allocSlot i (generated (s.lat.run.get p) (s.lat.rnd.get p)) (seqd (latCount s))
       latEnd p stDone (slotHandle c i)
        (portWrite p (addr64 (s.lat.run.get p).dstLo (s.lat.run.get p).dstHi) (latOutput p s) c)) := by
  have hi' : pickFree (latCount s) = some i := hi
  have hc' : canCreate (latCount s) (s.lat.run.get p).scope = true := hc
  simp only [latComplete, ho, hi', hc', if_true]
  rfl

/-- A command on a slot. -/
theorem latComplete_slot (ho : 2 < (s.lat.run.get p).op) :
    latComplete p s = reap stKeyErased (latEnd p stDone (latOutput p s).length
      (portWrite p (addr64 (s.lat.run.get p).dstLo (s.lat.run.get p).dstHi) (latOutput p s) (latCount s))) := by
  simp [latComplete, Nat.not_le.mpr ho]

/-- The end of a command that runs. -/
theorem latEnd_lat (st r : Nat) (hb : (s.win.get p).lat.busy = true) :
    ((latEnd p st r s).win.get p).lat.busy = false ∧ ((latEnd p st r s).win.get p).lat.status = st ∧
    ((latEnd p st r s).win.get p).lat.result = r := by
  simp [latEnd, hb, updWin]

/-- A key generation completes: its key in its slot, at one CSN. -/
theorem latticeOpDone_generated {rest : List LatReq} {i : Nat} (hp : powered s = true) (hf : inFault s = false)
    (hq : s.lat.queue = .port p :: rest) (hr : latReady p s = true) (ho : (s.lat.run.get p).op ≤ 2)
    (hn : s.lat.slot.get p = none) (hi : pickFree s = some i) (hc : canCreate s (s.lat.run.get p).scope = true) :
    ∃ t, exec .latticeOpDone s = .next t ∧ (t.win.get p).lat.busy = false ∧ (t.win.get p).lat.status = stDone ∧
      (slotOf t i).state = .live ∧ (slotOf t i).gen = genNext (slotOf s i).gen ∧
      (slotOf t i).owner = (s.lat.run.get p).owner ∧ t.lat.opsCnt = satInc 32 s.lat.opsCnt ∧ t.csn = s.csn + 1 ∧
      t.car = s.car := by
  have hb : (s.win.get p).lat.busy = true := by
    simp only [latReady, Bool.and_eq_true] at hr
    exact hr.1.1
  refine ⟨_, (latticeOpDone_port hp hf hq hr).trans (by rw [latComplete_generated ho hi hc]), ?_⟩
  dsimp only
  generalize hA : allocSlot i (generated (s.lat.run.get p) (s.lat.rnd.get p)) (seqd (latCount s)) = A
  generalize hW : portWrite p (addr64 (s.lat.run.get p).dstLo (s.lat.run.get p).dstHi) (latOutput p s) A = W
  have hWwin : W.win = s.win := by rw [← hW, ← hA]; simp
  have hWlat : W.lat = (latCount s).lat := by rw [← hW, ← hA]; simp
  have hWkst : W.kst = A.kst := by rw [← hW]; simp
  have hWcsn : W.csn = s.csn + 1 := by
    rw [← hW, ← hA]
    have hf' : inFault (latCount s) = false := hf
    simp [seqd_csn _ hf']
  have hWcar : W.car = s.car := by rw [← hW, ← hA]; simp
  obtain ⟨h1, h2, -, -, h4, h5, h6⟩ := latEnd_noSlot (p := p) (g := W) stDone (slotHandle A i) (by rwa [hWwin])
    (by rw [hWlat]; exact hn)
  have hslot : slotOf (latEnd p stDone (slotHandle A i) W) i = allocatedSlot (generated (s.lat.run.get p) (s.lat.rnd.get p))
      (freshMask (seqd (latCount s))).1 (seqd (latCount s)) (slotOf (seqd (latCount s)) i) := by
    rw [← slotOf_allocSlot_eq, hA]
    simp only [slotOf, h4, hWkst]
  have hx : slotOf (seqd (latCount s)) i = slotOf s i := by simp only [slotOf, seqd_frame, latCount_frame]
  refine ⟨h1, h2, ?_, ?_, ?_, ?_, h5.trans hWcsn, h6.trans hWcar⟩
  · rw [hslot]; rfl
  · rw [hslot, hx]; rfl
  · rw [hslot]; rfl
  · rw [latEnd_opsCnt, hWlat]; rfl

/-- A command on a slot completes with the length of its output. -/
theorem latticeOpDone_slot {rest : List LatReq} (hp : powered s = true) (hf : inFault s = false)
    (hq : s.lat.queue = .port p :: rest) (hr : latReady p s = true) (ho : 2 < (s.lat.run.get p).op) :
    ∃ t, exec .latticeOpDone s = .next t ∧ (t.win.get p).lat.busy = false ∧ (t.win.get p).lat.status = stDone ∧
      (t.win.get p).lat.result = (latOutput p s).length ∧ t.lat.opsCnt = satInc 32 s.lat.opsCnt := by
  have hb : (s.win.get p).lat.busy = true := by
    simp only [latReady, Bool.and_eq_true] at hr
    exact hr.1.1
  refine ⟨_, (latticeOpDone_port hp hf hq hr).trans (by rw [latComplete_slot ho]), ?_⟩
  obtain ⟨h1, h2, h3⟩ := latEnd_lat (p := p) stDone (latOutput p s).length (s := portWrite p
    (addr64 (s.lat.run.get p).dstLo (s.lat.run.get p).dstHi) (latOutput p s) (latCount s)) (by simpa using hb)
  rw [reap_latIdle stKeyErased h1]
  exact ⟨h1, h2, h3, by simp [latCount, updLat]⟩

/-! ### Anchors (R268) -/

/-- A write that abandons a key load leaves what was sent, and the ports' counts of reads. -/
theorem legTouch_out (p : Port) (s : State) :
    (legTouch p s).out = s.out ∧ (legTouch p s).stats = s.stats ∧ (legTouch p s).hpt = s.hpt := by
  have hr : ∀ (c : Nat) (u : State), c < 7 → (legEvent c u).out = u.out ∧ (legEvent c u).stats = u.stats ∧
      (legEvent c u).hpt = u.hpt := fun c u hc => by
    have h7 : (decide (7 ≤ c) && decide (c ≤ 10)) = false := by simp; omega
    simp only [legEvent, h7]
    simp
  have ha : ∀ c < 7, (legAbandon c s).out = s.out ∧ (legAbandon c s).stats = s.stats ∧ (legAbandon c s).hpt = s.hpt :=
    fun c hc => by
      unfold legAbandon
      split
      · exact hr c _ hc
      · exact ⟨rfl, rfl, rfl⟩
  unfold legTouch
  split
  · exact ha 3 (by decide)
  · split
    · exact ha 2 (by decide)
    · exact ⟨rfl, rfl, rfl⟩

/-- A read of one run, where no read stands, goes out in its pieces as far as 768 allow (R52, R53). -/
theorem dmaRead_out (w : DmaRead) (a n : Nat) (hu : (s.hpt.get p).up = true) (hr : (s.stats.get p).reads = [])
    (hl : (readCuts (n / mrrsBytes s p + 2) (mrrsBytes s p) a n).length ≤ 768) :
    (dmaRead w p none a n s).out = s.out ++ (readCuts (n / mrrsBytes s p + 2) (mrrsBytes s p) a n).map
      (fun y => Output.dmaRead p none y.1 y.2) := by
  simp only [dmaRead, dmaReads, hu, if_true, List.flatMap_cons, List.flatMap_nil, List.append_nil, issueReads, updStats,
    get_upd_same, hr, List.filter_nil, List.nil_append, readsOut, List.append_cancel_left_eq]
  generalize readCuts (n / mrrsBytes s p + 2) (mrrsBytes s p) a n = l at hl
  have h0 : ∀ m : List (Nat × Nat), (m.map fun y => ({ what := w, pasid := none, addr := y.1, len := y.2 } : ReadReq)).filter
      (fun r => r.sent) = [] := fun m => by simp [List.filter_map, Function.comp_def]
  have h1 : ∀ m : List (Nat × Nat), (m.map fun y => ({ what := w, pasid := none, addr := y.1, len := y.2 } : ReadReq)).filter
      (fun r => !r.sent) = m.map fun y => ({ what := w, pasid := none, addr := y.1, len := y.2 } : ReadReq) :=
    fun m => List.filter_eq_self.mpr fun r hr => by
      obtain ⟨y, -, rfl⟩ := List.mem_map.mp hr
      rfl
  rw [h0, h1, List.take_of_length_le (by simpa using hl), List.map_map]
  rfl

/-- A write of a command leaves what was sent, and a port's counts but the one of its writes. -/
theorem cmdWritten_out (p : Port) (s : State) : (cmdWritten p s).out = s.out := by
  have h := (legTouch_out p (cntWr p s)).1
  simpa [cmdWritten] using h

theorem cmdWritten_stats (p : Port) (s : State) : (cmdWritten p s).stats = (cntWr p s).stats := by
  have h := (legTouch_out p (cntWr p s)).2.1
  simpa [cmdWritten] using h

theorem cmdWritten_hpt (p : Port) (s : State) : (cmdWritten p s).hpt = s.hpt := by
  have h := (legTouch_out p (cntWr p s)).2.2
  simpa [cmdWritten] using h

/-- The anchor block of a port that a load of its window's anchor is asked for. -/
def anchorAsked (b : AncBlk) : AncBlk := { b with busy := true, pendIndex := b.index, pendAlg := b.alg, pendLen := b.len }

/-- A load of an anchor whose algorithm and length agree asks for the anchor's bytes. -/
theorem ancLoad_acts (h : wr p .bnv s = true) (hb : (s.win.get p).anc.busy = false) (h1 : 1 ≤ (s.win.get p).anc.alg)
    (h9 : (s.win.get p).anc.alg ≤ 9) (hl : anchorLenOk (s.win.get p).anc.alg (s.win.get p).anc.len = true) :
    exec (.ancLoad p) s = .next (dmaRead (.anchor p) p none (addr64 (s.win.get p).anc.addrLo (s.win.get p).anc.addrHi)
      (s.win.get p).anc.len (updAnc p anchorAsked (cmdWritten p s))) := by
  have hbad : ((s.win.get p).anc.alg == 0 || decide ((s.win.get p).anc.alg > 9)) = false := by simp; omega
  have hwin : (seqd (legTouch p (cntWr p s))).win = s.win := by simp
  have hwin' : (legTouch p (cntWr p s)).win = s.win := by simp
  simp only [exec, execAncLoad, ancCmd, h, hwin', hb, hbad, hl]
  rfl

/-- The anchor of a window erased. -/
def anchorErased (p : Port) (i : Nat) (s : State) : State :=
  updBnv (fun v => { v with anchors := tset {} v.anchors i {} }) (updAnc p (fun b => { b with result := 0 }) s)

/-- A clear erases the window's anchor. -/
theorem ancClear_acts (h : wr p .bnv s = true) (hb : (s.win.get p).anc.busy = false) :
    exec (.ancClear p) s = .next (anchorErased p (s.win.get p).anc.index (cmdWritten p s)) := by
  have hwin : (legTouch p (cntWr p s)).win = s.win := by simp
  simp only [exec, execAncClear, ancCmd, h, hwin, hb]
  rfl

/-- Settles O27. -/
theorem verifierAndAnchorsAct : Obligations.VerifierAndAnchorsAct := by
  unfold Obligations.VerifierAndAnchorsAct
  refine ⟨fun p rest s hp hf hq hr => ⟨latticeOpDone_port hp hf hq hr, fun i ho hn hi hc =>
    latticeOpDone_generated hp hf hq hr ho hn hi hc, latticeOpDone_slot hp hf hq hr⟩, fun p s h hb h1 h9 hl => ?_,
    fun p s h hb hw => ?_, fun t s hl ho hs => ?_, fun ch t s hp hf hc ht ho => ?_, fun alg key rec hv => ?_,
    fun alg key rec h3 h5 hv hk hq hcv h0 => ?_⟩
  · obtain ⟨hwin, -, -, -, -, hcar, hbnv⟩ := cmdWritten_frame p s
    refine ⟨_, ancLoad_acts h hb h1 h9 hl, ?_, ?_, ?_, ?_, ?_, ?_, ?_, fun hreads hlen => ?_⟩
    · simp [updAnc, updWin, anchorAsked]
    · simp [updAnc, updWin, anchorAsked]
    · simp [updAnc, updWin, anchorAsked]
    · simp [updAnc, updWin, anchorAsked]
    · simpa using hbnv
    · simpa using cmdWritten_csn h
    · simpa using hcar
    · have hst : ((updAnc p anchorAsked (cmdWritten p s)).stats.get p).reads = (s.stats.get p).reads ∧
          mrrsBytes (updAnc p anchorAsked (cmdWritten p s)) p = mrrsBytes s p := by
        simp only [mrrsBytes, updAnc_frame, cmdWritten_stats]
        simp [cntWr, updStats]
      have hout : (updAnc p anchorAsked (cmdWritten p s)).out = s.out := cmdWritten_out p s
      have hup : ((updAnc p anchorAsked (cmdWritten p s)).hpt.get p).up = true := by
        simp only [updAnc_frame, cmdWritten_hpt]
        simp only [wr, reach, Bool.and_eq_true] at h
        exact h.1.1.1.1.2
      refine (dmaRead_out _ _ _ hup (hst.1.trans hreads) ?_).trans (by rw [hst.2, hout])
      rw [hst.2]
      exact hlen
  · obtain ⟨hwin, -, -, -, -, hcar, hbnv⟩ := cmdWritten_frame p s
    have hbnv' : (updAnc p (fun b => { b with result := 0 }) (cmdWritten p s)).bnv = s.bnv := hbnv
    have hanc : (anchorErased p (s.win.get p).anc.index (cmdWritten p s)).bnv.anchors =
        tset {} s.bnv.anchors (s.win.get p).anc.index {} := by
      simp only [anchorErased, updBnv, hbnv']
    refine ⟨_, ancClear_acts h hb, ?_, fun k hk => ?_, ?_, ?_, ?_⟩
    · rw [hanc]
      exact tget_tset_same _ _ _ _ hw
    · rw [hanc]
      exact tget_tset_ne _ _ _ _ _ hk
    · simp [anchorErased, updBnv, updAnc, updWin]
    · exact cmdWritten_csn h
    · exact hcar
  · simp [exec, execVerifySignature, hl, ho, hs]
  · have h6 : (ch == 6) = false := by simp; omega
    have h7 : (ch == 7) = false := by simp; omega
    simp only [exec, execBnvOpDone, hp, hf, h6, h7, ht]
    have he : (eOp (carrOf (updBnv (fun v => { v with chans := tset none v.chans ch none }) s) t).entry == 0x40) = true := by
      exact beq_iff_eq.mpr ho
    simp only [engineDone, he]
    rfl
  · simp [verifyOutcome, hv]
  · have h2 : ¬alg ≤ 2 := by omega
    simp [verifyOutcome, hv, h2, h5, hk, hcv, h0, hq]

end Sys2Proof.Proofs
end

section
/-! PROOFS. The utility cipher's operations (12_lattice_bignum_utility.md, R276). -/
namespace Sys2Proof.Proofs

open Sys2Proof.Machine Sys2Proof.Safety Sys2Proof.Laws

variable {p : Port} {s g : State}

/-! ### An operation checked and kept -/

/-- The check reads the command's registers, the slots and the owners. -/
theorem ucpCheck_congr (hu : g.ucp = s.ucp) (hk : g.kst = s.kst) (hv : g.vlt = s.vlt) : ucpCheck g = ucpCheck s := by
  simp only [ucpCheck, handleCheck, slotOf, ownerOf, hu, hk, hv]
  rfl

/-- The operands' reads take no CSN and leave the cipher, the slots and the carriages. -/
@[simp] theorem ucpRead_frame (w : DmaRead) (a n : Nat) (s : State) : (ucpRead w a n s).ucp = s.ucp ∧
    (ucpRead w a n s).kst = s.kst ∧ (ucpRead w a n s).csn = s.csn ∧ (ucpRead w a n s).car = s.car := by
  unfold ucpRead
  split
  · split <;> simp
  · simp

/-- What an operation that is kept runs on. -/
def ucpRunOf (u : Ucp) : UcpRun :=
  { op := u.op, srcLen := u.srcLen, aadLen := u.aadLen, dst := addr64 u.dstLo u.dstHi, dstLen := u.dstLen, iv := u.iv
    tag := u.tag }

/-- The operands of a kept operation that need no read. -/
def ucpKept (s : State) : State :=
  let u := s.ucp
  updUcp (fun c => { c with
    busy := true, outLen := 0, run := ucpRunOf u, slot := some (hIndex u.handle, hGen u.handle)
    src := if u.srcLen == 0 then some [] else none
    aad := if !ucpGcm u.op || u.aadLen == 0 then some [] else none }) (useSlot (hIndex u.handle) s)

/-- An operation that its check passes: kept, its operands read. -/
theorem ucpGo_of_ok (hb : s.ucp.busy = false) (hc : ucpCheck s = 0) :
    ucpGo s =
      (let b := ucpRead .ucpSrc (addr64 s.ucp.srcLo s.ucp.srcHi) s.ucp.srcLen (ucpKept s)
       if !ucpGcm s.ucp.op || s.ucp.aadLen == 0 then b
       else ucpRead .ucpAad (addr64 s.ucp.aadLo s.ucp.aadHi) s.ucp.aadLen b) := by
  simp only [ucpGo, hb, hc]
  rfl

/-- What a kept operation changes. -/
theorem ucpGo_kept (hb : s.ucp.busy = false) (hc : ucpCheck s = 0) :
    (ucpGo s).ucp = (ucpKept s).ucp ∧ (ucpGo s).kst = (ucpKept s).kst ∧ (ucpGo s).csn = s.csn ∧
    (ucpGo s).car = s.car := by
  rw [ucpGo_of_ok hb hc]
  dsimp only
  split <;> simp [ucpKept, useSlot]

/-- A kept operation counts in its slot's USE. -/
theorem slotOf_ucpKept :
    (slotOf (ucpKept s) (hIndex s.ucp.handle)).use = (slotOf s (hIndex s.ucp.handle)).use + 1 := by
  have h : slotOf (ucpKept s) (hIndex s.ucp.handle) = slotOf (useSlot (hIndex s.ucp.handle) s) (hIndex s.ucp.handle) := rfl
  rw [h, useSlot, slotOf_updSlot_of]
  intro h0
  cases congrArg Slot.use h0

/-- An operation that its check turns away. -/
theorem ucpGo_of_bad (hb : s.ucp.busy = false) (hc : ucpCheck s ≠ 0) :
    ucpGo s = updUcp (fun u => { u with status := ucpCheck s, outLen := 0, idleFrom := s.now }) s := by
  simp [ucpGo, hb, hc]

/-! ### The commands -/

/-- A port's command of its operation, where the engine is free. -/
theorem ucpRow_port {op : Nat} (h : wr p .ucp s = true) (hh : s.ucp.holder = some (.port p)) (hb : s.ucp.busy = false)
    (ho : s.ucp.op = op) : ucpRow (.port p) op s = .next (ucpGo (cmdWritten p s)) := by
  simp [ucpRow, ucpUser, ucpReach_of_wr h, hh, ho, hb, ucpSeq, ucpWrote, cmdWritten]

@[simp] theorem cmdWritten_ucp (p : Port) (s : State) : (cmdWritten p s).ucp = s.ucp ∧ (cmdWritten p s).now = s.now := by
  simp [cmdWritten]

theorem ucpCheck_written (p : Port) (s : State) : ucpCheck (cmdWritten p s) = ucpCheck s := by
  obtain ⟨-, -, hk, hv, -⟩ := cmdWritten_frame p s
  exact ucpCheck_congr (cmdWritten_ucp p s).1 hk hv

/-- A port's command, by its check (R276). -/
theorem ucpRow_port_acts {op : Nat} (h : wr p .ucp s = true) (hh : s.ucp.holder = some (.port p))
    (hb : s.ucp.busy = false) (ho : s.ucp.op = op) :
    (ucpCheck s = 0 →
      ∃ t, ucpRow (.port p) op s = .next t ∧ t.ucp.busy = true ∧ t.ucp.run.op = op ∧ t.ucp.run.srcLen = s.ucp.srcLen ∧
        t.ucp.run.iv = s.ucp.iv ∧ t.ucp.run.tag = s.ucp.tag ∧
        t.ucp.slot = some (hIndex s.ucp.handle, hGen s.ucp.handle) ∧
        (slotOf t (hIndex s.ucp.handle)).use = (slotOf s (hIndex s.ucp.handle)).use + 1 ∧
        t.csn = s.csn + 1 ∧ t.car = s.car) ∧
    (ucpCheck s ≠ 0 →
      ∃ t, ucpRow (.port p) op s = .next t ∧
        t.ucp = { s.ucp with status := ucpCheck s, outLen := 0, idleFrom := s.now } ∧
        t.kst = s.kst ∧ t.csn = s.csn + 1) := by
  obtain ⟨-, -, hk, -, -, hcar, -⟩ := cmdWritten_frame p s
  obtain ⟨hu, hnow⟩ := cmdWritten_ucp p s
  have hb' : (cmdWritten p s).ucp.busy = false := by rwa [hu]
  have hslot : slotOf (cmdWritten p s) = slotOf s := funext fun i => by simp only [slotOf, hk]
  refine ⟨fun hc => ?_, fun hc => ?_⟩
  · obtain ⟨h1, h2, h3, h4⟩ := ucpGo_kept hb' ((ucpCheck_written p s).trans hc)
    have huse := slotOf_ucpKept (s := cmdWritten p s)
    rw [hu, hslot] at huse
    refine ⟨_, ucpRow_port h hh hb ho, ?_, ?_, ?_, ?_, ?_, ?_, ?_, h3.trans (cmdWritten_csn h), h4.trans hcar⟩
    · rw [h1]; rfl
    · rw [h1, ← ho, ← hu]; rfl
    · rw [h1, ← hu]; rfl
    · rw [h1, ← hu]; rfl
    · rw [h1, ← hu]; rfl
    · rw [h1, ← hu]; rfl
    · rw [← huse]
      simp only [slotOf, h2]
  · have he := ucpRow_port h hh hb ho
    rw [ucpGo_of_bad hb' (by rwa [ucpCheck_written]), ucpCheck_written] at he
    refine ⟨_, he, ?_, hk, cmdWritten_csn h⟩
    rw [updUcp, hu, hnow]

/-- The secure world's command of its operation, where the engine is free. -/
theorem ucpRow_secure {a : UcpArgs} {op : Nat} (hl : live s = true) (hw : s.wld.secure.state = .running)
    (hh : s.ucp.holder = some .secure) (hb : s.ucp.busy = false) :
    ucpRow (.secure a) op s = .next (ucpFetched a (ucpGo (ucpStage op a s))) := by
  simp [ucpRow, ucpUser, ucpReach, hl, hw, hh, hb]

/-- The secure world's operands are there at once: nothing is read. -/
theorem ucpRead_secure (hh : s.ucp.holder = some .secure) (w : DmaRead) (a n : Nat) : ucpRead w a n s = s := by
  simp [ucpRead, ucpPort, hh]

/-! ### The end of an operation -/

/-- The end of what lost its key leaves an engine that runs nothing. -/
theorem reap_ucpIdle (st : Nat) (h : s.ucp.busy = false) : (reap st s).ucp = s.ucp := by
  have hu : ((orphans s).foldl (fun s t => stopOne t st 0 s) s).ucp = s.ucp :=
    foldl_part State.ucp (fun s t => by simp) _ s
  unfold reap reapEngines
  dsimp only
  generalize (orphans s).foldl (fun s t => stopOne t st 0 s) s = g at hu
  have ha : ∀ u : State, u.ucp = s.ucp → ∀ r c, [Decidable c] →
      (if c then latEnd r st 0 u else u).ucp = s.ucp := fun u hu r c _ => by
    split
    · simpa using hu
    · exact hu
  have hb : ∀ u : State, u.ucp = s.ucp → ∀ c, [Decidable c] → (if c then ucpEnd st 0 u else u).ucp = s.ucp :=
    fun u hu c _ => by
      have he : ucpEnd st 0 u = u := by simp [ucpEnd, hu, h]
      rw [he, ite_self, hu]
  exact hb _ (ha _ (ha g hu _ _) _ _) _

/-- The end of an operation that runs. -/
theorem ucpEnd_ucp (st n : Nat) (hb : s.ucp.busy = true) : (ucpEnd st n s).ucp.busy = false ∧
    (ucpEnd st n s).ucp.status = st ∧ (ucpEnd st n s).ucp.outLen = n ∧ (ucpEnd st n s).ucp.tag = s.ucp.tag := by
  simp only [ucpEnd, hb]
  cases s.ucp.slot with
  | none => simp [updUcp]
  | some x => simp [updUcp]

/-! ### What the operations put out -/

/-- A tag's check and a MAC put out no data. -/
theorem ucpResult_out (s : State) :
    (s.ucp.run.op = 4 ∨ s.ucp.run.op = 5 ∨ s.ucp.run.op = 8 → (ucpResult s).2.1 = []) ∧
    (s.ucp.run.op = 3 ∨ s.ucp.run.op = 7 → (ucpResult s).1 ≠ stDone → (ucpResult s).2.1 = []) ∧
    (s.ucp.run.op ≠ 4 → s.ucp.run.op ≠ 6 → 1 ≤ s.ucp.run.op → s.ucp.run.op ≤ 8 → (ucpResult s).2.2 = s.ucp.tag) := by
  refine ⟨fun h => ?_, fun h hd => ?_, fun h4 h6 h1 h8 => ?_⟩
  · rcases h with h | h | h <;> simp [ucpResult, h]
  · rcases h with h | h
    · revert hd
      simp only [ucpResult, h]
      split
      · split
        · exact fun hd => absurd rfl hd
        · exact fun _ => rfl
      · exact fun _ => rfl
    · revert hd
      simp only [ucpResult, h]
      generalize keyBytes _ = k
      split
      · exact fun hd => absurd rfl hd
      · exact fun _ => rfl
  · have h : s.ucp.run.op = 1 ∨ s.ucp.run.op = 2 ∨ s.ucp.run.op = 3 ∨ s.ucp.run.op = 5 ∨ s.ucp.run.op = 7 ∨
      s.ucp.run.op = 8 := by omega
    rcases h with h | h | h | h | h | h
    · simp [ucpResult, h]
    · simp [ucpResult, h]
    · simp only [ucpResult, h]
      split
      · split <;> rfl
      · rfl
    · simp [ucpResult, h]
    · simp only [ucpResult, h]
      generalize keyBytes _ = k
      split <;> rfl
    · simp [ucpResult, h]

/-- The state with an operation's output written. -/
def ucpOutput (s : State) : State :=
  updUcp (fun c => { c with tag := (ucpResult s).2.2 })
    (match ucpPort s with
      | some p => portWrite p s.ucp.run.dst (ucpResult s).2.1 s
      | none => updUcp (fun c => { c with world := (ucpResult s).2.1 }) s)

theorem ucpOutput_ucp (s : State) : (ucpOutput s).ucp.busy = s.ucp.busy ∧ (ucpOutput s).ucp.tag = (ucpResult s).2.2 := by
  unfold ucpOutput
  cases ucpPort s with
  | none => exact ⟨rfl, rfl⟩
  | some p => exact ⟨by simp [updUcp], rfl⟩

/-- Settles O30. -/
theorem utilityOperationsRun : Obligations.UtilityOperationsRun := by
  unfold Obligations.UtilityOperationsRun
  refine ⟨fun p op s c hc h hh hb ho => ?_, fun a x s hp hf hb hs ha => ?_, fun a op s c hc hl hw hh hb hk => ?_,
    ucpResult_out⟩
  · have he : exec c s = ucpRow (.port p) op s := by
      rcases hc with ⟨rfl, rfl⟩ | ⟨rfl, rfl⟩ | ⟨rfl, rfl⟩ | ⟨rfl, rfl⟩ | ⟨rfl, rfl⟩ | ⟨rfl, rfl⟩ | ⟨rfl, rfl⟩ | ⟨rfl, rfl⟩ <;>
        rfl
    rw [he]
    exact ucpRow_port_acts h hh hb ho
  · have he : exec .ucpOpDone s = .next (reap stKeyErased (ucpEnd (ucpResult s).1 (ucpResult s).2.1.length (ucpOutput s))) := by
      simp only [exec, execUcpOpDone, hp, hf, hb, hs, ha]
      rfl
    obtain ⟨h1, h2⟩ := ucpOutput_ucp s
    obtain ⟨h3, h4, h5, h6⟩ := ucpEnd_ucp (ucpResult s).1 (ucpResult s).2.1.length (h1.trans hb)
    refine ⟨he, _, he, ?_⟩
    rw [reap_ucpIdle stKeyErased h3]
    exact ⟨h3, h4, h5, h6.trans h2⟩
  · have he : exec c s = ucpRow (.secure a) op s := by
      rcases hc with ⟨rfl, rfl⟩ | ⟨rfl, rfl⟩ | ⟨rfl, rfl⟩ | ⟨rfl, rfl⟩ | ⟨rfl, rfl⟩ | ⟨rfl, rfl⟩ | ⟨rfl, rfl⟩ | ⟨rfl, rfl⟩ <;>
        rfl
    have hgo : ucpGo (ucpStage op a s) = ucpKept (ucpStage op a s) := by
      have hh' : (ucpKept (ucpStage op a s)).ucp.holder = some .secure := hh
      rw [ucpGo_of_ok (s := ucpStage op a s) hb hk, ucpRead_secure hh']
      dsimp only
      rw [ucpRead_secure hh', ite_self]
    have hbusy : (ucpKept (ucpStage op a s)).ucp.busy = true := rfl
    refine ⟨_, (he.trans (ucpRow_secure hl hw hh hb)).trans (by rw [hgo, ucpFetched, if_pos hbusy]), ?_⟩
    refine ⟨rfl, rfl, rfl, rfl, rfl, ?_, ?_, ?_⟩ <;> simp [ucpKept, useSlot, ucpStage]

end Sys2Proof.Proofs
end

section
/-! PROOFS. Sideband exchanges (08_media_fabric_and_shelves.md, R172-R175). -/
namespace Sys2Proof.Proofs

open Sys2Proof.Machine Sys2Proof.Safety Sys2Proof.Laws

variable {l : Nat} {op : SbOp} {payload : Bytes} {rest : List (SbOp × Bytes)} {resp : Option Bytes} {s : State}

/-! ### An exchange -/

/-- The sequence number that the exchange at a link's head goes out with (R173). -/
def headSeq (x : SbLink) : Nat := if x.tries = 0 then x.seq else x.cur

/-- The link's next sequence number after it. -/
def nextSeq (x : SbLink) : Nat := if x.tries = 0 then (headSeq x + 1) % 16 else x.seq

/-- The head's request sent. -/
def exchangeSent (l : Nat) (op : SbOp) (payload : Bytes) (s : State) : State :=
  emit (.sideband l (sbFrame op (headSeq (linkOf s l)) payload))
    (updLink l (fun y => { y with cur := headSeq (linkOf s l), seq := nextSeq (linkOf s l) }) s)

/-- Changes that agree on a link's entry change the link alike. -/
theorem updLink_congr {f g : SbLink → SbLink} (h : f (linkOf s l) = g (linkOf s l)) : updLink l f s = updLink l g s := by
  simp only [linkOf] at h
  simp only [updLink, tupd, updMdf, h]

/-- The request goes out as the head stands. -/
theorem exchangeSent_eq (l : Nat) (op : SbOp) (payload : Bytes) (s : State) :
    emit (.sideband l (sbFrame op (if (linkOf s l).tries == 0 then (linkOf s l).seq else (linkOf s l).cur) payload))
      (updLink l (fun y => { y with
        cur := if (linkOf s l).tries == 0 then (linkOf s l).seq else (linkOf s l).cur
        seq := if (linkOf s l).tries == 0 then
          ((if (linkOf s l).tries == 0 then (linkOf s l).seq else (linkOf s l).cur) + 1) % 16 else y.seq }) s) =
      exchangeSent l op payload s := by
  have hq : (if (linkOf s l).tries == 0 then (linkOf s l).seq else (linkOf s l).cur) = headSeq (linkOf s l) := by
    simp [headSeq]
  rw [hq, exchangeSent]
  refine congrArg (emit _) (updLink_congr ?_)
  simp [nextSeq]

/-- A link with a request queued is not the one that an unlisted key shows. -/
theorem link_ne_default {x : SbLink} (h : x.queue ≠ []) : x ≠ {} := by
  rintro rfl
  exact h rfl

/-- The link whose request went out. -/
theorem linkOf_exchangeSent (hq : (linkOf s l).queue ≠ []) : linkOf (exchangeSent l op payload s) l =
    { linkOf s l with cur := headSeq (linkOf s l), seq := nextSeq (linkOf s l) } :=
  linkOf_updLink_of l (fun y => { y with cur := headSeq (linkOf s l), seq := nextSeq (linkOf s l) }) s (link_ne_default hq)

/-- The head's exchange over: its request sent, and gone from the queue. -/
def exchangeEnded (l : Nat) (op : SbOp) (payload : Bytes) (rest : List (SbOp × Bytes)) (s : State) : State :=
  updLink l (fun y => { y with queue := rest, tries := 0, failedAt := none }) (exchangeSent l op payload s)

/-- What a change of a link leaves, and that it keeps the table of links canonical. -/
theorem updLink_spec (l : Nat) (f : SbLink → SbLink) (s : State) : (updLink l f s).mdf.drives = s.mdf.drives ∧
    (updLink l f s).mdf.shelves = s.mdf.shelves ∧ (updLink l f s).out = s.out ∧ (updLink l f s).csn = s.csn ∧
    (updLink l f s).car = s.car ∧ (twf {} s.mdf.links = true → twf {} (updLink l f s).mdf.links = true) := by
  refine ⟨rfl, rfl, rfl, rfl, rfl, fun h => ?_⟩
  simp only [updLink, updMdf]
  exact twf_tupd _ _ _ _ h

theorem exchangeSent_links (hw : twf {} s.mdf.links = true) : twf {} (exchangeSent l op payload s).mdf.links = true :=
  (updLink_spec ..).2.2.2.2.2 hw

/-- What a link's exchange over leaves. -/
theorem exchangeEnded_spec (hw : twf {} s.mdf.links = true) :
    (exchangeEnded l op payload rest s).mdf.drives = s.mdf.drives ∧
    (exchangeEnded l op payload rest s).mdf.shelves = s.mdf.shelves ∧
    (exchangeEnded l op payload rest s).out = s.out ++ [.sideband l (sbFrame op (headSeq (linkOf s l)) payload)] ∧
    (exchangeEnded l op payload rest s).csn = s.csn ∧ (exchangeEnded l op payload rest s).car = s.car ∧
    twf {} (exchangeEnded l op payload rest s).mdf.links = true ∧
    (linkOf (exchangeEnded l op payload rest s) l).queue = rest ∧
    (linkOf (exchangeEnded l op payload rest s) l).tries = 0 ∧
    (linkOf (exchangeEnded l op payload rest s) l).failedAt = none := by
  have hs := exchangeSent_links (l := l) (op := op) (payload := payload) hw
  obtain ⟨h1, h2, h3, h4, h5, h6⟩ := updLink_spec l (fun y => { y with queue := rest, tries := 0, failedAt := none })
    (exchangeSent l op payload s)
  have hl : linkOf (exchangeEnded l op payload rest s) l =
      { linkOf (exchangeSent l op payload s) l with queue := rest, tries := 0, failedAt := none } :=
    linkOf_updLink l (fun y => { y with queue := rest, tries := 0, failedAt := none }) _ hs
  rw [hl]
  exact ⟨h1, h2, h3, h4, h5, h6 hs, rfl, rfl, rfl⟩

/-- An exchange without a response that stands fails. -/
theorem exchange_unanswered (hq : (linkOf s l).queue = (op, payload) :: rest)
    (hp : sbParse (headSeq (linkOf s l)) resp = none) :
    exchange l resp s = exchangeFails l (exchangeSent l op payload s) := by
  have hh : sbParse (if (linkOf s l).tries == 0 then (linkOf s l).seq else (linkOf s l).cur) resp = none := by
    rw [← hp]; simp [headSeq]
  simp only [exchange, hq, hh, exchangeSent_eq]

/-- An exchange whose response stands ends, and acts. -/
theorem exchange_answered {body : Bytes} (hq : (linkOf s l).queue = (op, payload) :: rest)
    (hp : sbParse (headSeq (linkOf s l)) resp = some (0, body)) :
    exchange l resp s = exchanged l op payload body (exchangeEnded l op payload rest s) := by
  have hh : sbParse (if (linkOf s l).tries == 0 then (linkOf s l).seq else (linkOf s l).cur) resp = some (0, body) := by
    rw [← hp]; simp [headSeq]
  simp only [exchange, hq, hh, exchangeSent_eq]
  rfl

/-- A first, second or third failure waits for its retry. -/
theorem exchange_waits (hq : (linkOf s l).queue = (op, payload) :: rest)
    (hp : sbParse (headSeq (linkOf s l)) resp = none) (ht : (linkOf s l).tries < 3) :
    linkOf (exchange l resp s) l = { linkOf s l with
      cur := headSeq (linkOf s l), seq := nextSeq (linkOf s l), tries := (linkOf s l).tries + 1, failedAt := some s.now } ∧
    (exchange l resp s).out = s.out ++ [.sideband l (sbFrame op (headSeq (linkOf s l)) payload)] ∧
    (exchange l resp s).csn = s.csn := by
  have hl := linkOf_exchangeSent (op := op) (payload := payload) (s := s) (l := l) (by simp [hq])
  have hf : exchangeFails l (exchangeSent l op payload s) =
      updLink l (fun y => { y with tries := y.tries + 1, failedAt := some s.now }) (exchangeSent l op payload s) := by
    rw [exchangeFails, hl, if_neg (by simpa using ht)]
    rfl
  rw [exchange_unanswered hq hp, hf]
  refine ⟨?_, rfl, rfl⟩
  rw [linkOf_updLink_of, hl]
  intro h0
  cases congrArg SbLink.failedAt h0

/-- The fourth failure loses the link. -/
theorem exchange_loses (hq : (linkOf s l).queue = (op, payload) :: rest)
    (hp : sbParse (headSeq (linkOf s l)) resp = none) (ht : 3 ≤ (linkOf s l).tries) :
    exchange l resp s = loseLink l (exchangeSent l op payload s) := by
  have hl := linkOf_exchangeSent (op := op) (payload := payload) (s := s) (l := l) (by simp [hq])
  rw [exchange_unanswered hq hp, exchangeFails, hl, if_pos (by simpa using ht)]

/-! ### What a response does on an AWAKE shelf -/

/-- The bays of one link are different drives. -/
theorem linkDrive_inj {i j : Nat} (hi : i < 32) (hj : j < 32) (h : linkDrive l i = linkDrive l j) : i = j := by
  simp only [linkDrive] at h
  omega

/-- A pass over a link's bays, each changing its own drive alone, leaves in each what its turn made. -/
theorem foldl_bays {F : State → Nat → State} {P : Nat → Drive → Prop}
    (hw : ∀ s i, twf {} s.mdf.drives = true → twf {} (F s i).mdf.drives = true ∧ P i (driveOf (F s i) (linkDrive l i)))
    (hne : ∀ s i e, e ≠ linkDrive l i → driveOf (F s i) e = driveOf s e) (n : Nat) (hn : n ≤ 32) (s : State)
    (hs : twf {} s.mdf.drives = true) :
    twf {} ((List.range n).foldl F s).mdf.drives = true ∧
    ∀ i < n, P i (driveOf ((List.range n).foldl F s) (linkDrive l i)) := by
  induction n with
  | zero => exact ⟨hs, fun i hi => absurd hi (by omega)⟩
  | succ n ih =>
    obtain ⟨hw', hp⟩ := ih (by omega)
    rw [List.range_succ, List.foldl_append]
    obtain ⟨h1, h2⟩ := hw _ n hw'
    refine ⟨h1, fun i hi => ?_⟩
    rcases Nat.lt_succ_iff_lt_or_eq.mp hi with h | rfl
    · have he : linkDrive l i ≠ linkDrive l n := fun h0 => by
        have := linkDrive_inj (by omega) (by omega) h0
        omega
      simp only [List.foldl_cons, List.foldl_nil, hne _ _ _ he]
      exact hp i h
    · exact h2

/-- CLKREQ as a response reports it in each bay of its link. -/
def clkreqRead (l : Nat) (body : Bytes) (s : State) : State :=
  (List.range 32).foldl (fun s i => updDrive (linkDrive l i) (fun x => { x with clkreq := bit (fld body 0 4) i }) s) s

/-- The reference clocks as a request set them. -/
def clocksSet (l : Nat) (req : Bytes) (s : State) : State :=
  (List.range 32).foldl (fun s i =>
    if bit (fld req 0 4) i then updDrive (linkDrive l i) (fun x => { x with rootClk := bit (fld req 4 4) i }) s else s) s

/-- A change of a drive keeps the table of drives canonical. -/
theorem drives_updDrive (d : Nat) (f : Drive → Drive) (hw : twf {} s.mdf.drives = true) :
    twf {} (updDrive d f s).mdf.drives = true := by
  simp only [updDrive, updMdf]
  exact twf_tupd _ _ _ _ hw

theorem clkreqRead_spec (body : Bytes) (hs : twf {} s.mdf.drives = true) (i : Nat) (hi : i < 32) :
    (driveOf (clkreqRead l body s) (linkDrive l i)).clkreq = bit (fld body 0 4) i := by
  refine (foldl_bays (P := fun i x => x.clkreq = bit (fld body 0 4) i) (fun s i hw => ⟨?_, ?_⟩) (fun s i e he => ?_) 32
    (by omega) s hs).2 i hi
  · exact drives_updDrive _ _ hw
  · rw [driveOf_updDrive _ _ _ hw]
  · exact driveOf_updDrive_ne _ _ _ _ he

theorem clocksSet_spec (req : Bytes) (hs : twf {} s.mdf.drives = true) (i : Nat) (hi : i < 32) :
    bit (fld req 0 4) i = true → (driveOf (clocksSet l req s) (linkDrive l i)).rootClk = bit (fld req 4 4) i := by
  refine (foldl_bays (P := fun i x => bit (fld req 0 4) i = true → x.rootClk = bit (fld req 4 4) i)
    (fun s i hw => ?_) (fun s i e he => ?_) 32 (by omega) s hs).2 i hi
  · split
    · exact ⟨drives_updDrive _ _ hw, fun _ => by rw [driveOf_updDrive _ _ _ hw]⟩
    · next hb => exact ⟨hw, fun h => absurd h hb⟩
  · split
    · exact driveOf_updDrive_ne _ _ _ _ he
    · rfl

/-- What a change of the bays' entries alone leaves. -/
def BaysOnly (s u : State) : Prop := u.mdf.links = s.mdf.links ∧ u.out = s.out ∧ u.csn = s.csn ∧ u.car = s.car

theorem updDrive_baysOnly (d : Nat) (f : Drive → Drive) (s : State) : BaysOnly s (updDrive d f s) := ⟨rfl, rfl, rfl, rfl⟩

theorem foldl_baysOnly {F : State → Nat → State} (h : ∀ s i, BaysOnly s (F s i)) (is : List Nat) (s : State) :
    BaysOnly s (is.foldl F s) :=
  ⟨foldl_part (fun s => s.mdf.links) (fun s i => (h s i).1) is s, foldl_part State.out (fun s i => (h s i).2.1) is s,
    foldl_part State.csn (fun s i => (h s i).2.2.1) is s, foldl_part State.car (fun s i => (h s i).2.2.2) is s⟩

theorem clkreqRead_baysOnly (body : Bytes) : BaysOnly s (clkreqRead l body s) :=
  foldl_baysOnly (fun s i => updDrive_baysOnly _ _ s) _ s

theorem clocksSet_baysOnly (req : Bytes) : BaysOnly s (clocksSet l req s) :=
  foldl_baysOnly (fun s i => by
    split
    · exact updDrive_baysOnly _ _ s
    · exact ⟨rfl, rfl, rfl, rfl⟩) _ s

/-- Presence as it stands changes nothing. -/
theorem setPresence_same {v : Nat} (h : ∀ i, i < 32 → bit v i = (driveOf s (linkDrive l i)).present) :
    setPresence l v false s = s := by
  have hf : ∀ is : List Nat, (∀ i ∈ is, i < 32) → is.foldl (fun s i =>
      if false then wakeBay (linkDrive l i) (bit v i) s else presenceTo (linkDrive l i) (bit v i) s) s = s := fun is his => by
    induction is with
    | nil => rfl
    | cons i is ih =>
      have hi : presenceTo (linkDrive l i) (bit v i) s = s := by
        simp [presenceTo, h i (his i (by simp))]
      rw [List.foldl_cons, if_neg (by simp), hi]
      exact ih fun j hj => his j (by simp [hj])
  exact hf _ fun i hi => List.mem_range.mp hi

/-- The state that a response leaves on an AWAKE shelf, whose step none waits for, where it tells nothing new. -/
def settled (l : Nat) (op : SbOp) (req body : Bytes) (s : State) : State :=
  match op with
  | .identify => answered l s
  | .readEvents => updLink l (fun x => { x with int := false }) s
  | .readClkreq => clkreqRead l body s
  | .setClkreq => clocksSet l req s
  | _ => s

theorem exchanged_settled {body : Bytes} (ha : (shelfOf s (l / 2)).state = .awake) (hi : (shelfOf s (l / 2)).step = .idle)
    (hst : op = .readStatus → fld body 0 4 = 1)
    (hev : op = .readEvents → fld body 0 4 = 0 ∧ fld body 4 4 = 0 ∧ fld body 8 4 = 0)
    (hpr : op = .readPresence → ∀ i, i < 32 → bit (fld body 0 4) i = (driveOf s (linkDrive l i)).present) :
    exchanged l op payload body s = settled l op payload body s := by
  cases op with
  | identify => simp [exchanged, hi, settled]
  | readPresence =>
    have hp := setPresence_same (hpr rfl)
    simp [exchanged, hi, settled, hp]
  | setPower => simp [exchanged, hi, settled]
  | setPerst => simp [exchanged, hi, settled]
  | readClkreq => rfl
  | readStatus =>
    have h1 : bit 1 1 = false := by decide
    have h0 : bit 1 0 = true := by decide
    simp [exchanged, hst rfl, gotStatus, ha, settled, h0, h1]
  | readEvents =>
    obtain ⟨e0, e4, e8⟩ := hev rfl
    have hb : ∀ i, bit 0 i = false := fun i => by simp [bit, bits]
    have hf : ∀ u : State, (List.range 32).foldl (fun s i => if bit 0 i then driveWake (linkDrive l i) s else s) u = u := fun u =>
      foldl_part id (fun s i => by simp [hb]) _ u
    simp only [exchanged, e0, e4, e8, hf]
    simp [hb, settled]
  | setClkreq => rfl

/-- What such a response leaves of the link, and what it sends. -/
theorem settled_leaves {body : Bytes} (hw : twf {} s.mdf.links = true) :
    (linkOf (settled l op payload body s) l).queue = (linkOf s l).queue ∧
    (linkOf (settled l op payload body s) l).tries = (linkOf s l).tries ∧
    (linkOf (settled l op payload body s) l).failedAt = (linkOf s l).failedAt ∧
    (settled l op payload body s).out = s.out ∧ (settled l op payload body s).csn = s.csn ∧
    (settled l op payload body s).car = s.car ∧
    (op = .readEvents → (linkOf (settled l op payload body s) l).int = false) := by
  by_cases he : op = .readEvents
  · subst he
    have hk : linkOf (settled l .readEvents payload body s) l = { linkOf s l with int := false } :=
      linkOf_updLink l (fun x => { x with int := false }) s hw
    rw [hk]
    exact ⟨rfl, rfl, rfl, rfl, rfl, rfl, fun _ => rfl⟩
  · have hb : BaysOnly s (settled l op payload body s) := by
      cases op with
      | readEvents => exact absurd rfl he
      | readClkreq => exact clkreqRead_baysOnly body
      | setClkreq => exact clocksSet_baysOnly payload
      | _ => exact ⟨rfl, rfl, rfl, rfl⟩
    obtain ⟨hl, ho, hc, hcar⟩ := hb
    have hk : linkOf (settled l op payload body s) l = linkOf s l := by rw [linkOf, linkOf, hl]
    exact ⟨by rw [hk], by rw [hk], by rw [hk], ho, hc, hcar, fun h => absurd h he⟩

/-! ### The obligation -/

/-- The rows of the exchanges. -/
theorem sideband_row {c : Instr} (hc : (op, c) ∈ [(SbOp.identify, Instr.identify l resp), (.readPresence, .readPresence l resp),
      (.setPower, .setPower l resp), (.setPerst, .setPerst l resp), (.readClkreq, .readClkreq l resp),
      (.readStatus, .readStatus l resp), (.readEvents, .readEvents l resp), (.setClkreq, .setClkreq l resp)])
    (hp : powered s = true) (hf : inFault s = false) (hl : l < 16) (hq : (linkOf s l).queue = (op, payload) :: rest)
    (hd : (linkOf s l).down = false) (ha : (linkOf s l).failedAt = none) : exec c s = .next (exchange l resp s) := by
  have hrow : sbRow op l resp s = .next (exchange l resp s) := onlyIf_pos (by simp [hp, hf, hl, hq, hd, ha])
  refine Eq.trans ?_ hrow
  simp only [List.mem_cons, Prod.mk.injEq, List.not_mem_nil, or_false] at hc
  rcases hc with ⟨rfl, rfl⟩ | ⟨rfl, rfl⟩ | ⟨rfl, rfl⟩ | ⟨rfl, rfl⟩ | ⟨rfl, rfl⟩ | ⟨rfl, rfl⟩ | ⟨rfl, rfl⟩ | ⟨rfl, rfl⟩
  case inr.inr.inr.inr.inl => simp [exec, execReadClkreq, hq]
  all_goals rfl

/-- A retry repeats the exchange at the link's head (R174). -/
theorem retry_row {t : Nat} (hp : powered s = true) (hf : inFault s = false) (hl : l < 16)
    (ha : (linkOf s l).failedAt = some t) (ht : s.now ≥ t + 100) :
    exec (.sidebandRetry l resp) s = .next (exchange l resp
      (updLink l (fun x => { x with retries := satInc 16 x.retries, failedAt := none }) s)) := by
  simp only [exec, execSidebandRetry, ha]
  exact onlyIf_pos (by simp [hp, hf, hl, ht])

/-- Settles O36. -/
theorem sidebandExchangesRun : Obligations.SidebandExchangesRun := by
  unfold Obligations.SidebandExchangesRun
  refine ⟨fun op l payload rest resp c s hc hp hf hl hq hd ha => ?_, fun l op payload rest resp s hq => ?_,
    fun l t op payload rest resp s hp hf hl hq ha ht => ?_, fun l s hp hf hl hd hi ht => ?_,
    fun l s hp hf hl hd hpow ht => ?_⟩
  · have hrow := sideband_row hc hp hf hl hq hd ha
    refine ⟨hrow, fun body hb hok haw hid hst hev hpr => ?_⟩
    obtain ⟨-, -, -, -, -, -, hwl, -, hwd, -⟩ := tablesOk_parts s hok
    have hx := exchange_answered (resp := resp) hq hb
    obtain ⟨hdr, hsh, hout, hcsn, hcar, hwl', h1, h2, h3⟩ :=
      exchangeEnded_spec (l := l) (op := op) (payload := payload) (rest := rest) hwl
    have hshelf := shelfOf_congr hsh (l / 2)
    rw [exchanged_settled (by rw [hshelf]; exact haw) (by rw [hshelf]; exact hid) hst hev
      (fun h i hi => by rw [driveOf_congr hdr]; exact hpr h i hi)] at hx
    obtain ⟨k1, k2, k3, k4, k5, k6, k7⟩ := settled_leaves (op := op) (payload := payload) (body := body) hwl'
    refine ⟨_, hrow.trans (by rw [hx]), k1.trans h1, k2.trans h2, k3.trans h3, k4.trans hout, k5.trans hcsn,
      k6.trans hcar, k7, ?_, ?_⟩
    · rintro rfl i hi
      exact clkreqRead_spec body (by rwa [hdr]) i hi
    · rintro rfl i hi hb
      exact clocksSet_spec payload (by rwa [hdr]) i hi hb
  · exact ⟨fun hn ht => exchange_waits hq hn ht, fun hn ht => exchange_loses hq hn ht,
      fun body hb => exchange_answered hq hb⟩
  · have hrow := retry_row (resp := resp) hp hf hl ha ht
    refine ⟨hrow, fun hn h0 h3 => ?_⟩
    have hlink := linkOf_updLink_of l (fun x => { x with retries := satInc 16 x.retries, failedAt := none }) s
      (link_ne_default (by simp [hq]))
    obtain ⟨h1, h2, h3⟩ := exchange_waits (op := op) (payload := payload) (rest := rest) (resp := resp) (l := l)
      (s := updLink l (fun x => { x with retries := satInc 16 x.retries, failedAt := none }) s) (by rw [hlink]; exact hq)
      (by rw [hlink]; simpa [headSeq, h0] using hn) (by rw [hlink]; exact h3)
    rw [hlink] at h1 h2
    refine ⟨_, hrow, by rw [h1], by rw [h1], by rw [h1]; rfl, ?_, h3⟩
    simpa [headSeq, h0] using h2
  · refine ⟨updLink l (fun x => { x with int := true, queue := (.readEvents, []) :: (linkOf s l).queue }) s, ?_,
      linkOf_updLink_of _ _ _ (link_ne_default (by simp)), rfl, fun k hk => linkOf_updLink_ne _ _ _ _ hk⟩
    simp only [exec, execSbnInt]
    cases (linkOf s l).queue with
    | nil => exact onlyIf_pos (by simp [hp, hf, hl, hd, hi])
    | cons h rest => simpa [ht] using onlyIf_pos (by simp [hp, hf, hl, hd, hi])
  · have hpoll : linkOf (updLink l (fun x => { x with pollAt := s.now }) s) l = { linkOf s l with pollAt := s.now } :=
      linkOf_updLink_of _ _ _ fun h0 => by
        have h1 : s.now = 0 := congrArg SbLink.pollAt h0
        omega
    have hask : ask_ l .readStatus [] (updLink l (fun x => { x with pollAt := s.now }) s) =
        updLink l (fun x => { x with queue := x.queue ++ [(.readStatus, [])] })
          (updLink l (fun x => { x with pollAt := s.now }) s) := by
      rw [ask_, hpoll, if_neg (by simp [hd])]
    refine ⟨_, (onlyIf_pos (by simp [hp, hf, hl, hd, hpow, ht])).trans (congrArg Host.Outcome.next hask), ?_, rfl,
      fun k hk => ?_⟩
    · rw [linkOf_updLink_of _ _ _ (link_ne_default (by simp)), hpoll]
    · exact (linkOf_updLink_ne _ _ _ _ hk).trans (linkOf_updLink_ne _ _ _ _ hk)

end Sys2Proof.Proofs
end

section
/-! SUPPORT. What the end of a carriage leaves of the media fabric (08_media_fabric_and_shelves.md). -/
namespace Sys2Proof.Laws

open Sys2Proof.Machine Sys2Proof.Safety

/-- What the end of its carriage leaves of a shelf: all but the name of the carriage. -/
def shelfView (x : Shelf) : Shelf := { x with tag := none }

/-- What the end of carriages leaves of a drive: all but the commands. -/
def driveView (x : Drive) : Drive := { x with cmds := [], waitCmds := [], nextCid := 0 }

/-- The tables of shelves and drives are canonical. -/
def FabricOk (s : State) : Prop := twf {} s.mdf.shelves = true ∧ twf {} s.mdf.drives = true

/-- A step that takes at most carriages' names from shelves, commands and queues. A drive that differs from an unlisted
one shows so in any table. -/
structure FabricStep (s u : State) : Prop where
  fabric : FabricOk s → FabricOk u ∧ (∀ n, shelfView (shelfOf u n) = shelfView (shelfOf s n)) ∧
    (∀ d, driveView (driveOf u d) = driveView (driveOf s d)) ∧
    u.mdf = { s.mdf with
      drives := u.mdf.drives, shelves := u.mdf.shelves, shelfQueue := u.mdf.shelfQueue, adminWait := u.mdf.adminWait }
  drive : ∀ d, driveView (driveOf s d) ≠ {} → driveView (driveOf u d) = driveView (driveOf s d)

variable {s u v : State}

theorem FabricStep.refl (s : State) : FabricStep s s := ⟨fun h => ⟨h, fun _ => rfl, fun _ => rfl, rfl⟩, fun _ _ => rfl⟩

theorem FabricStep.trans (h : FabricStep s u) (k : FabricStep u v) : FabricStep s v := by
  refine ⟨fun hs => ?_, fun d hd => ?_⟩
  · obtain ⟨hu, h1, h2, h3⟩ := h.fabric hs
    obtain ⟨hv, k1, k2, k3⟩ := k.fabric hu
    exact ⟨hv, fun n => (k1 n).trans (h1 n), fun d => (k2 d).trans (h2 d), by rw [k3, h3]⟩
  · have hu := h.drive d hd
    exact (k.drive d (by rwa [hu])).trans hu

/-- A step that leaves the fabric. -/
theorem FabricStep.of_mdf (h : u.mdf = s.mdf) : FabricStep s u := by
  refine ⟨fun hs => ?_, fun d _ => by rw [driveOf, driveOf, h]⟩
  simp only [FabricOk, shelfOf, driveOf, h] at hs ⊢
  exact ⟨hs, fun _ => trivial, fun _ => trivial, trivial⟩

theorem FabricOk.of_tablesOk (h : tablesOk s = true) : FabricOk s := by
  obtain ⟨-, -, -, -, -, -, -, hsh, hd, -⟩ := tablesOk_parts s h
  exact ⟨hsh, hd⟩

/-- A mapped table keeps what its map keeps of every value. -/
theorem view_tmap {α β : Type} [DecidableEq α] {d : α} {f : α → α} (g : α → β) {T : Tbl α} (hw : twf d T = true)
    (hf : ∀ v, g (f v) = g v) (k : Nat) : g (tget d (tmap d (fun _ v => f v) T) k) = g (tget d T k) := by
  induction T with
  | nil => rfl
  | cons e T ih =>
    obtain ⟨j, v⟩ := e
    rw [twf_cons] at hw
    obtain ⟨ha, -, hw⟩ := hw
    simp only [tmap, tget]
    by_cases hj : j = k
    · subst hj
      split
      · next h0 => rw [ih hw, tget_above d T j ha, if_pos rfl, ← hf v, h0]
      · simp [tget, hf]
    · split
      · exact ih hw
      · simp only [tget, if_neg hj]
        exact ih hw

/-- A value that the map makes none of an unlisted key's is mapped in any table. -/
theorem tget_tmap_of_ne {α : Type} [DecidableEq α] {d : α} {f : α → α} {T : Tbl α} {k : Nat} (hv : tget d T k ≠ d)
    (hf : f (tget d T k) ≠ d) : tget d (tmap d (fun _ v => f v) T) k = f (tget d T k) := by
  induction T with
  | nil => exact absurd rfl hv
  | cons e T ih =>
    obtain ⟨j, v⟩ := e
    simp only [tmap, tget] at hv hf ⊢
    by_cases hj : j = k
    · simp only [if_pos hj] at hv hf ⊢
      rw [if_neg hf, tget, if_pos hj]
    · simp only [if_neg hj] at hv hf ⊢
      split
      · exact ih hv hf
      · rw [tget, if_neg hj]
        exact ih hv hf

/-- A drive without the name of a carriage. -/
def driveForgets (t : Nat) (d : Drive) : Drive :=
  { d with
    cmds := tmap {} (fun _ x => if x.tag == some t then { x with tag := none } else x) d.cmds
    waitCmds := d.waitCmds.filter (fun x => x.2.1 != some t) }

/-- The carriage's name leaves shelves, commands and queues. -/
theorem forget_fabric (t : Nat) (s : State) : FabricStep s (forget t s) := by
  refine ⟨?_, fun d hd => ?_⟩
  case refine_2 =>
    have hne : driveOf s d ≠ {} := fun h0 => hd (by rw [h0]; rfl)
    have hf : driveForgets t (driveOf s d) ≠ {} := fun h0 => hd (congrArg driveView h0)
    exact (congrArg driveView (tget_tmap_of_ne (f := driveForgets t) hne hf)).trans rfl
  rintro ⟨hsh, hd⟩
  refine ⟨⟨twf_tmap _ _ _ hsh, twf_tmap _ _ _ hd⟩, fun n => ?_, fun d => ?_, rfl⟩
  · exact view_tmap (d := ({} : Shelf)) (f := fun h => if h.tag == some t then { h with tag := none } else h) shelfView hsh
      (fun v => by split <;> rfl) n
  · exact view_tmap (d := ({} : Drive)) (f := driveForgets t) driveView hd (fun v => rfl) d

/-! ### What the end of a carriage does to the rest of the state -/

/-- A relation of states that leaving the fabric, the vault, the slices and the verifier keeps, and that taking a
carriage's name from them keeps. -/
structure EndRel (R : State → State → Prop) : Prop where
  trans : ∀ {s u v}, R s u → R u v → R s v
  same : ∀ {s u}, u.mdf = s.mdf → u.vlt = s.vlt → u.slc = s.slc → u.bnv = s.bnv → R s u
  forget : ∀ t s, R s (forget t s)

namespace EndRel

variable {R : State → State → Prop} (h : EndRel R)
include h

theorem refl (s : State) : R s s := h.same rfl rfl rfl rfl

theorem foldl {α : Type} {f : State → α → State} (hf : ∀ u x, R u (f u x)) (l : List α) (s : State) : R s (l.foldl f s) := by
  induction l generalizing s with
  | nil => exact h.refl s
  | cons x l ih => exact h.trans (hf s x) (ih (f s x))

theorem letGo (t : Nat) (s : State) : R s (letGo t s) :=
  h.trans (h.forget t s) (h.same (by simp [Machine.letGo]) (by simp [Machine.letGo]) (by simp [Machine.letGo])
    (by simp [Machine.letGo]))

theorem release (t : Nat) (s : State) : R s (release t s) := by
  unfold Machine.release
  dsimp only
  refine h.trans (h.same (u := unbind (carrOf s t).dstKey (unbind (carrOf s t).key (unreserve t s))) ?_ ?_ ?_ ?_)
    (h.trans (h.forget t _) (h.same ?_ ?_ ?_ ?_)) <;> simp

theorem finishAt (t status result : Nat) (s : State) : R s (finishAt t status result s) := by
  unfold Machine.finishAt
  dsimp only
  generalize hb : countEnd (carrOf s t) status _ = b
  refine h.trans (h.same (u := b) ?_ ?_ ?_ ?_) (h.trans (h.release t b) (h.same ?_ ?_ ?_ ?_)) <;>
    simp [← hb]

theorem finish (t status result : Nat) (s : State) : R s (finish t status result s) := by
  unfold Machine.finish
  split
  · exact h.trans (h.same (by simp) (by simp) (by simp) (by simp)) (h.finishAt t status result _)
  · exact h.trans (h.same (by simp) (by simp) (by simp) (by simp)) (h.finishAt t status result _)

theorem complete (t status result : Nat) (s : State) : R s (complete t status result s) := by
  unfold Machine.complete
  split
  · exact h.refl s
  · split
    · exact h.same (by simp [park]) (by simp [park]) (by simp [park]) (by simp [park])
    · exact h.finish t status result s

theorem stopOne (t status result : Nat) (s : State) : R s (stopOne t status result s) := by
  unfold Machine.stopOne
  split
  · exact h.trans (h.same (u := scrub t s) (by simp) (by simp) (by simp) (by simp))
      (h.trans (h.letGo t _) (h.complete t status result _))
  · exact h.refl s

theorem reap (status : Nat) (s : State) : R s (reap status s) := by
  unfold Machine.reap
  exact h.trans (h.foldl (fun u t => h.stopOne t status 0 u) (orphans s) s)
    (h.same (by simp) (by simp) (by simp) (by simp))

theorem done (t status result : Nat) (s : State) : R s (done t status result s) :=
  h.trans (h.complete t status result s) (h.reap _ _)

theorem dropCarriages (d status : Nat) (f : Carriage → Bool) (s : State) : R s (dropCarriages d status f s) :=
  h.foldl (fun u t => h.stopOne t status _ u) _ s

end EndRel

theorem fabricStep_endRel : EndRel FabricStep := ⟨.trans, fun h _ _ _ => .of_mdf h, forget_fabric⟩

theorem reap_fabric (status : Nat) (s : State) : FabricStep s (reap status s) := fabricStep_endRel.reap status s

theorem done_fabric (t status result : Nat) (s : State) : FabricStep s (done t status result s) :=
  fabricStep_endRel.done t status result s

theorem dropCarriages_fabric (d status : Nat) (f : Carriage → Bool) (s : State) : FabricStep s (dropCarriages d status f s) :=
  fabricStep_endRel.dropCarriages d status f s

/-! ### Kept by every operation -/

theorem Keeps.csn_le (h : Keeps {} s u) : s.csn ≤ u.csn := by
  obtain ⟨-, -, -, h, -⟩ := h
  exact h rfl

theorem Keeps.tables {kp : Kept} (h : Keeps kp s u) (hok : tablesOk s = true) : tablesOk u = true := by
  obtain ⟨-, h, -⟩ := h
  exact h hok

/-! ### Shelves -/

/-- A step that changes no shelf but for the carriages' names. -/
def ShelvesKept (s u : State) : Prop := ∀ n, shelfView (shelfOf u n) = shelfView (shelfOf s n)

theorem ShelvesKept.refl (s : State) : ShelvesKept s s := fun _ => rfl

theorem ShelvesKept.trans (h : ShelvesKept s u) (k : ShelvesKept u v) : ShelvesKept s v := fun n => (k n).trans (h n)

/-- A step that leaves the shelves. -/
theorem ShelvesKept.of_shelves (h : u.mdf.shelves = s.mdf.shelves) : ShelvesKept s u := fun n => by
  rw [shelfOf, shelfOf, h]

theorem FabricStep.shelf (h : FabricStep s u) (hok : tablesOk s = true) : ShelvesKept s u := (h.fabric (.of_tablesOk hok)).2.1

theorem state_of_shelfView {x y : Shelf} (h : shelfView x = shelfView y) : x.state = y.state ∧ x.step = y.step ∧
    x.cause = y.cause ∧ x.dropped = y.dropped :=
  ⟨show (shelfView x).state = _ by rw [h]; rfl, show (shelfView x).step = _ by rw [h]; rfl,
    show (shelfView x).cause = _ by rw [h]; rfl, show (shelfView x).dropped = _ by rw [h]; rfl⟩

@[simp] theorem updDrive_shelves (d : Nat) (f : Drive → Drive) (s : State) :
    (updDrive d f s).mdf.shelves = s.mdf.shelves := rfl

@[simp] theorem updDiag_shelves (d : Nat) (f : DriveDiag → DriveDiag) (s : State) :
    (updDiag d f s).mdf.shelves = s.mdf.shelves := rfl

@[simp] theorem clearDrive_shelves (d : Nat) (s : State) : (clearDrive d s).mdf.shelves = s.mdf.shelves := rfl

/-- A present drive that its shelf loses. -/
def driveLost (d : Nat) (s : State) : State :=
  clearDrive d (updDiag d (fun y => { y with fail := if (driveOf s d).state == .failed then y.fail else 4 })
    (updDrive d (fun y => { y with state := .failed, perst := true }) (dropCarriages d stShelfOffline (fun _ => true) s)))

theorem driveLost_shelf (d : Nat) (hok : tablesOk s = true) : ShelvesKept s (driveLost d s) := by
  refine ((dropCarriages_fabric d stShelfOffline (fun _ => true) s).shelf hok).trans (.of_shelves ?_)
  simp only [driveLost, clearDrive_shelves, updDiag_shelves, updDrive_shelves]

theorem driveLost_keeps (d : Nat) (s : State) : Keeps {} s (driveLost d s) :=
  clearDrive_keeps d (updDiag_keeps d _ (updDrive_keeps d _ (dropCarriages_keeps d stShelfOffline _ (Keeps.refl {} s))))

/-- A shelf's drives lost, one by one. -/
theorem loseDrives_eq (n : Nat) (s : State) : loseDrives n s =
    (shelfDrives n).foldl (fun s d => if (driveOf s d).state == .absent then s else driveLost d s) s := rfl

/-- A shelf's drives lost: the shelves stay. -/
theorem loseDrives_shelf (n : Nat) (s : State) (hok : tablesOk s = true) : ShelvesKept s (loseDrives n s) := by
  rw [loseDrives_eq]
  generalize shelfDrives n = l
  induction l generalizing s with
  | nil => exact .refl s
  | cons d l ih =>
    rw [List.foldl_cons]
    split
    · exact ih s hok
    · exact (driveLost_shelf d hok).trans (ih _ ((driveLost_keeps d s).tables hok))

/-- The end of a shelf's operation: no step is left, and no carriage. -/
theorem endShelfOp_shelf (n status result : Nat) (hok : tablesOk s = true) :
    ShelvesKept (updShelf n (fun h => { h with step := .idle, tag := none }) s) (endShelfOp n status result s) := by
  unfold endShelfOp
  dsimp only
  split
  · exact (done_fabric _ _ _ _).shelf ((updShelf_keeps n _ (Keeps.refl {} s)).tables hok)
  · exact .refl _

end Sys2Proof.Laws
end

section
/-! PROOFS. A shelf's wake (08_media_fabric_and_shelves.md, R182, R183). -/
namespace Sys2Proof.Proofs

open Sys2Proof.Machine Sys2Proof.Safety Sys2Proof.Laws

variable {n cause : Nat} {s : State}

/-! ### A wake that starts -/

/-- A link ready for a wake's exchanges. -/
def linkCleared (now : Nat) (x : SbLink) : SbLink :=
  { x with queue := [], tries := 0, failedAt := none, int := false, down := false, pollAt := now }

/-- The shelf, its carriage and its links once a wake begins. -/
def wakeBegun (n t : Nat) (s : State) : State :=
  updLink (2 * n + 1) (linkCleared s.now) (updLink (2 * n) (linkCleared s.now)
    (updShelf n (fun h => { h with
      step := .identify, tag := some t, answered := [], good := [], stagger := s.mdf.stagger, released := 0, lastRelease := 0 })
      (updMdf (fun m => { m with shelfQueue := m.shelfQueue.erase t }) (begin_ t s))))

theorem startWake_eq (n t : Nat) (s : State) :
    startWake n t s = askBoth n .identify [] (shelfTo n .waking (wakeBegun n t s)) := rfl

/-- What a wake's beginning leaves of its shelf and of its links. -/
theorem wakeBegun_spec (n t : Nat) (hw : twf {} s.mdf.links = true) :
    shelfOf (wakeBegun n t s) n = { shelfOf s n with
      step := .identify, tag := some t, answered := [], good := [], stagger := s.mdf.stagger, released := 0, lastRelease := 0 } ∧
    (linkOf (wakeBegun n t s) (2 * n)).queue = [] ∧ (linkOf (wakeBegun n t s) (2 * n)).down = false ∧
    (linkOf (wakeBegun n t s) (2 * n + 1)).queue = [] ∧ (linkOf (wakeBegun n t s) (2 * n + 1)).down = false := by
  generalize hb : updShelf n (fun h => { h with
      step := .identify, tag := some t, answered := [], good := [], stagger := s.mdf.stagger, released := 0, lastRelease := 0 })
      (updMdf (fun m => { m with shelfQueue := m.shelfQueue.erase t }) (begin_ t s)) = b
  have hwb : twf {} b.mdf.links = true := by rw [← hb]; exact hw
  have h0 := linkOf_updLink (2 * n) (linkCleared s.now) b hwb
  have h1 := linkOf_updLink (2 * n + 1) (linkCleared s.now) _ ((updLink_spec (2 * n) (linkCleared s.now) b).2.2.2.2.2 hwb)
  have h2 := linkOf_updLink_ne (2 * n + 1) (2 * n) (linkCleared s.now) (updLink (2 * n) (linkCleared s.now) b) (by omega)
  have hs : shelfOf b n = { shelfOf s n with
      step := .identify, tag := some t, answered := [], good := [], stagger := s.mdf.stagger, released := 0, lastRelease := 0 } := by
    rw [← hb]
    exact shelfOf_updShelf_of n _ _ (fun h0 => by cases congrArg Shelf.step h0)
  have he : wakeBegun n t s = updLink (2 * n + 1) (linkCleared s.now) (updLink (2 * n) (linkCleared s.now) b) := by
    rw [wakeBegun, hb]
  rw [he, h1, h2, h0]
  exact ⟨hs, rfl, rfl, rfl, rfl⟩

/-- A request put on both links that are up. -/
theorem askBoth_queues {op : SbOp} {payload : Bytes} (h0 : (linkOf s (2 * n)).down = false)
    (h1 : (linkOf s (2 * n + 1)).down = false) :
    (linkOf (askBoth n op payload s) (2 * n)).queue = (linkOf s (2 * n)).queue ++ [(op, payload)] ∧
    (linkOf (askBoth n op payload s) (2 * n + 1)).queue = (linkOf s (2 * n + 1)).queue ++ [(op, payload)] ∧
    (askBoth n op payload s).mdf.shelves = s.mdf.shelves ∧ (askBoth n op payload s).csn = s.csn := by
  have e0 : ask_ (2 * n) op payload s = updLink (2 * n) (fun x => { x with queue := x.queue ++ [(op, payload)] }) s := by
    simp [ask_, h0]
  have k1 : linkOf (ask_ (2 * n) op payload s) (2 * n + 1) = linkOf s (2 * n + 1) := by
    rw [e0, linkOf_updLink_ne _ _ _ _ (by omega)]
  have e1 : askBoth n op payload s = updLink (2 * n + 1) (fun x => { x with queue := x.queue ++ [(op, payload)] })
      (ask_ (2 * n) op payload s) := by
    rw [askBoth, ask_, k1, if_neg (by simp [h1])]
  refine ⟨?_, ?_, ?_, ?_⟩
  · rw [e1, linkOf_updLink_ne _ _ _ _ (by omega), e0, linkOf_updLink_of _ _ _ (link_ne_default (by simp))]
  · rw [e1, linkOf_updLink_of _ _ _ (link_ne_default (by simp)), k1]
  · rw [e1, (updLink_spec ..).2.1, e0, (updLink_spec ..).2.1]
  · rw [e1, (updLink_spec ..).2.2.2.1, e0, (updLink_spec ..).2.2.2.1]

/-- A shelf's change of state leaves the links. -/
theorem linkOf_shelfTo (n k : Nat) (st : ShelfState) (s : State) : linkOf (shelfTo n st s) k = linkOf s k := by
  have h : (shelfTo n st s).mdf.links = s.mdf.links := by simp [shelfTo, updShelf, updMdf]
  rw [linkOf, linkOf, h]

/-- A wake that starts (R182). -/
theorem startWake_spec (n t : Nat) (hok : tablesOk s = true) (hf : inFault s = false) :
    (shelfOf (startWake n t s) n).state = .waking ∧ (shelfOf (startWake n t s) n).step = .identify ∧
    (shelfOf (startWake n t s) n).tag = some t ∧ (startWake n t s).csn = s.csn + 1 ∧
    (linkOf (startWake n t s) (2 * n)).queue = [(.identify, [])] ∧
    (linkOf (startWake n t s) (2 * n + 1)).queue = [(.identify, [])] := by
  obtain ⟨-, -, -, -, -, -, hwl, -⟩ := tablesOk_parts s hok
  obtain ⟨h1, h2, h3, h4, h5⟩ := wakeBegun_spec n t hwl
  obtain ⟨q0, q1, hsh, hcsn⟩ := askBoth_queues (n := n) (op := .identify) (payload := [])
    (s := shelfTo n .waking (wakeBegun n t s)) (by rw [linkOf_shelfTo]; exact h3) (by rw [linkOf_shelfTo]; exact h5)
  have hs : shelfOf (startWake n t s) n = { shelfOf (wakeBegun n t s) n with state := .waking } := by
    rw [startWake_eq, shelfOf_congr hsh, shelfOf_shelfTo _ _ _ (fun h0 => by cases congrArg Shelf.state h0)]
  rw [hs, h1]
  refine ⟨rfl, rfl, rfl, ?_, ?_, ?_⟩
  · rw [startWake_eq, hcsn, shelfTo_csn _ _ _ (by simpa [inFault, wakeBegun] using hf)]
    simp [wakeBegun]
  · rw [startWake_eq, q0, linkOf_shelfTo, h2]; rfl
  · rw [startWake_eq, q1, linkOf_shelfTo, h4]; rfl

/-! ### A shelf that is dropped (R183) -/

/-- The shelf that falls ASLEEP for a cause. -/
def shelfDropped (n cause : Nat) (s : State) : State :=
  shelfTo n .asleep (updShelf n (fun h => { h with cause := cause, dropped := true }) s)

theorem shelfOf_shelfDropped (n cause : Nat) (s : State) :
    shelfOf (shelfDropped n cause s) n = { shelfOf s n with cause := cause, dropped := true, state := .asleep } := by
  have h := shelfOf_updShelf_of n (fun h => { h with cause := cause, dropped := true }) s
    (fun h0 => by cases congrArg Shelf.dropped h0)
  rw [shelfDropped, shelfOf_shelfTo, h]
  rw [h]
  intro h0
  cases congrArg Shelf.dropped h0

/-- The drives of a dropped shelf lost, its links silent, and PERST# and power asked off. -/
def shelfDark (n cause : Nat) (s : State) : State := askOff n (dropExchanges n (loseDrives n (shelfDropped n cause s)))

theorem dropShelf_eq (n cause : Nat) (s : State) :
    dropShelf n cause s = reap stKeyErased (endShelfOp n stMediaTimeout 0 (shelfDark n cause s)) := rfl

theorem shelfDropped_keeps (n cause : Nat) (s : State) : Keeps {} s (shelfDropped n cause s) :=
  shelfTo_keeps n .asleep (updShelf_keeps n _ (Keeps.refl {} s))

theorem shelfDark_keeps (n cause : Nat) (s : State) : Keeps {} (shelfDropped n cause s) (shelfDark n cause s) :=
  askOff_keeps n (dropExchanges_keeps n (loseDrives_keeps n (Keeps.refl {} _)))

theorem ask_shelves (k : Nat) (op : SbOp) (payload : Bytes) (s : State) :
    (ask_ k op payload s).mdf.shelves = s.mdf.shelves := by
  unfold ask_
  split <;> rfl

theorem dropExchanges_shelves (n : Nat) (s : State) : (dropExchanges n s).mdf.shelves = s.mdf.shelves := by
  simp only [dropExchanges, (updLink_spec _ _ _).2.1]

theorem shelfDark_shelf (hok : tablesOk s = true) : ShelvesKept (shelfDropped n cause s) (shelfDark n cause s) := by
  refine (loseDrives_shelf n _ ((shelfDropped_keeps n cause s).tables hok)).trans (.of_shelves ?_)
  simp only [shelfDark, askOff, askBoth, ask_shelves, dropExchanges_shelves]

/-- A dropped shelf whose operation ends keeps its state and its cause. -/
theorem shelfOf_ended (n : Nat) (hok : tablesOk s = true) (hd : (shelfOf s n).dropped = true) :
    (shelfOf (reap stKeyErased (endShelfOp n stMediaTimeout 0 s)) n).state = (shelfOf s n).state ∧
    (shelfOf (reap stKeyErased (endShelfOp n stMediaTimeout 0 s)) n).step = .idle ∧
    (shelfOf (reap stKeyErased (endShelfOp n stMediaTimeout 0 s)) n).cause = (shelfOf s n).cause ∧
    (shelfOf (reap stKeyErased (endShelfOp n stMediaTimeout 0 s)) n).dropped = (shelfOf s n).dropped := by
  have hreap := (reap_fabric stKeyErased (endShelfOp n stMediaTimeout 0 s)).shelf
    ((endShelfOp_keeps n stMediaTimeout 0 (Keeps.refl {} s)).tables hok)
  have h := state_of_shelfView (((endShelfOp_shelf n stMediaTimeout 0 hok).trans hreap) n)
  rwa [shelfOf_updShelf_of n _ s fun h0 => by
    have h1 := congrArg Shelf.dropped h0
    simp [hd] at h1] at h

/-- A dropped shelf is ASLEEP for its cause, with no step left. -/
theorem dropShelf_spec (n cause : Nat) (hok : tablesOk s = true) (hf : inFault s = false) :
    (shelfOf (dropShelf n cause s) n).state = .asleep ∧ (shelfOf (dropShelf n cause s) n).cause = cause ∧
    (shelfOf (dropShelf n cause s) n).step = .idle ∧ (shelfOf (dropShelf n cause s) n).dropped = true ∧
    s.csn < (dropShelf n cause s).csn := by
  have hdark := (shelfDark_keeps n cause s).tables ((shelfDropped_keeps n cause s).tables hok)
  have hcsn : (shelfDropped n cause s).csn = s.csn + 1 := by
    rw [shelfDropped, shelfTo_csn _ _ _ (by simpa [inFault] using hf)]
    simp
  have hle := (reap_keeps stKeyErased (endShelfOp_keeps n stMediaTimeout 0 (shelfDark_keeps n cause s))).csn_le
  obtain ⟨h1, h2, h3, h4⟩ := state_of_shelfView (shelfDark_shelf (n := n) (cause := cause) hok n)
  rw [shelfOf_shelfDropped] at h1 h3 h4
  rw [dropShelf_eq]
  generalize shelfDark n cause s = D at *
  obtain ⟨k1, k2, k3, k4⟩ := shelfOf_ended n hdark h4
  exact ⟨k1.trans h1, k3.trans h3, k2, k4.trans h4, by omega⟩

/-! ### The obligation -/

/-- Settles O37. -/
theorem shelfWakesGoStepByStep : Obligations.ShelfWakesGoStepByStep := by
  unfold Obligations.ShelfWakesGoStepByStep
  refine ⟨fun t s ha hw hi => ⟨fun hs => ?_, fun hs hr => ?_, fun hs hr hq => ?_⟩, fun n t s hq ha hw hi hs hr => ?_,
    fun n t s => startWake_spec n t, fun n s hl hw hi ht => onlyIf_pos (by simp [hl, hw, hi, ht]),
    fun n s hp hf hw hi ht => ?_, fun n s hl hw hi h0 ht hlost hfit hmask => ?_, fun n cause s hp hf hn hs hc => ?_⟩
  · simp [exec, execShelfWake, ha, hw, hi, hs]
  · simp [exec, execShelfWake, ha, hw, hi, hs, hr]
  · simp only [exec, execShelfWake, ha, hw, hi, hs]
    rw [if_neg (by simp), if_neg (by simp), if_neg (by simp), if_neg (by omega)]
    simp only [updMdf, hq]
    rfl
  · simp only [exec, execShelfWakeBegin, hq]
    exact onlyIf_pos (by simp [ha, hw, hi, hs, hr])
  · have he : exec (.powerGoodTimeout n) s = .next (wakeFail n 2 s) := onlyIf_pos (by simp [hp, hf, hw, hi, ht])
    refine ⟨he, fun hok => ⟨_, he, ?_⟩⟩
    obtain ⟨h1, h2, h3, -, h5⟩ := dropShelf_spec n 2 hok hf
    exact ⟨h1, h2, h3, h5⟩
  · have hl' : ((regionOf s 0).state == .lost) = false := by simp [hlost]
    simp only [exec, execGroupRelease, h0, hl']
    rw [if_neg (by simp [hl, hw, hi, ht, hfit])]
    simp [hmask]
  · have he : exec (.shelfDrop n cause) s = .next (dropShelf n cause s) := by
      have hpow : isPowered (shelfOf s n) = true := by simp [isPowered, hs]
      exact onlyIf_pos (by rcases hc with rfl | rfl <;> simp [hp, hf, hn, hpow])
    refine ⟨he, fun hok => ⟨_, he, ?_⟩⟩
    obtain ⟨h1, h2, -, h4, h5⟩ := dropShelf_spec n cause hok hf
    exact ⟨h1, h2, h4, h5⟩

end Sys2Proof.Proofs
end

section
/-! PROOFS. Drives come up or fail (08_media_fabric_and_shelves.md, R171, R177, R183, R186, R190, R192). -/
namespace Sys2Proof.Proofs

open Sys2Proof.Machine Sys2Proof.Safety Sys2Proof.Laws

variable {d : Nat} {s u v : State}

/-! ### What commands leave of a drive -/

/-- A step that changes of drive `d` at most its commands, where it is not one that is unlisted. -/
structure DriveKept (d : Nat) (s u : State) : Prop where
  view : driveView (driveOf s d) ≠ {} → driveView (driveOf u d) = driveView (driveOf s d)

theorem DriveKept.refl (d : Nat) (s : State) : DriveKept d s s := ⟨fun _ => rfl⟩

theorem DriveKept.trans (h : DriveKept d s u) (k : DriveKept d u v) : DriveKept d s v := ⟨fun hs => by
  have hu := h.view hs
  exact (k.view (by rwa [hu])).trans hu⟩

theorem DriveKept.of_drives (h : u.mdf.drives = s.mdf.drives) : DriveKept d s u := ⟨fun _ => by
  rw [driveOf, driveOf, h]⟩

/-- A change of a drive's commands. -/
theorem updDrive_kept (e : Nat) {f : Drive → Drive} (hf : ∀ x, driveView (f x) = driveView x) : DriveKept d s (updDrive e f s) := by
  refine ⟨fun hs => ?_⟩
  by_cases h : d = e
  · subst h
    rw [driveOf_updDrive_of _ _ _ (fun h0 => hs (by rw [← hf, h0]; rfl)), hf]
  · rw [driveOf_updDrive_ne _ _ _ _ h]

theorem sendCmd_kept (e : Nat) (k : CmdKind) (tag : Option Nat) (lba blocks : Nat) (s : State) :
    DriveKept d s (sendCmd e k tag lba blocks s) :=
  (updDrive_kept (s := s) e (f := fun x => { x with
    cmds := tput x.cmds (freeCid (driveOf s e))
      { used := true, kind := k, tag := tag, queue := cmdQueue s e k tag, lba := lba, blocks := blocks
        hold := match tag with | some t => cmdHold (carrOf s t) k blocks | none => ownHold s e k, issuedAt := s.now }
    nextCid := (freeCid (driveOf s e) + 1) % 65536 }) (fun _ => rfl)).trans (.of_drives rfl)

theorem pumpN_kept (n e : Nat) (ws : List (CmdKind × Option Nat × Nat × Nat)) (s : State) : DriveKept d s (pumpN n e ws s) := by
  induction n generalizing ws s with
  | zero => exact .refl d s
  | succ n ih =>
    cases ws with
    | nil => exact .refl d s
    | cons w ws =>
      rw [pumpN]
      split
      · exact ((updDrive_kept e (f := fun x => { x with waitCmds := x.waitCmds.erase w }) (fun _ => rfl)).trans
          (sendCmd_kept e ..)).trans (ih ..)
      · exact ih ..

theorem pump_kept (e : Nat) (s : State) : DriveKept d s (pump e s) := pumpN_kept _ e _ s

theorem issue_kept (e : Nat) (k : CmdKind) (tag : Option Nat) (lba blocks : Nat) (s : State) :
    DriveKept d s (issue e k tag lba blocks s) :=
  (updDrive_kept e (f := fun x => { x with waitCmds := x.waitCmds ++ [(k, tag, lba, blocks)] }) (fun _ => rfl)).trans
    (pump_kept e _)

theorem askEvent_kept (e : Nat) (s : State) : DriveKept d s (askEvent e s) := by
  unfold askEvent
  dsimp only
  split
  · exact .refl d s
  · exact issue_kept ..

theorem initStep_kept (e : Nat) (i : InitCmd) (s : State) : DriveKept d s (initStep e i s) := by
  have h : (initStep e i s).mdf.drives =
      (updDrive e (fun x => { x with nextCid := (freeCid (driveOf s e) + 1) % 65536 }) s).mdf.drives := by
    unfold initStep
    dsimp only
    split <;> rfl
  generalize (freeCid (driveOf s e) + 1) % 65536 = n at h
  exact (updDrive_kept (s := s) e (f := fun x => { x with nextCid := n }) (fun _ => rfl)).trans (.of_drives h)

theorem initSteps_kept (e : Nat) (l : List InitCmd) (s : State) : DriveKept d s (initSteps e l s) := by
  induction l generalizing s with
  | nil => exact .refl d s
  | cons i l ih => exact (initStep_kept e i s).trans (ih _)

theorem FabricStep.kept (h : FabricStep s u) (d : Nat) : DriveKept d s u := ⟨h.drive d⟩

/-! ### An initialisation -/

theorem of_driveView {x y : Drive} (h : driveView x = driveView y) : x.state = y.state ∧ x.ioq = y.ioq ∧ x.nsze = y.nsze :=
  ⟨show (driveView x).state = _ by rw [h]; rfl, show (driveView x).ioq = _ by rw [h]; rfl,
    show (driveView x).nsze = _ by rw [h]; rfl⟩

/-- A drive's state reached. -/
theorem driveOf_driveTo (st : DriveState) (h : st ≠ .absent) (s : State) :
    driveOf (driveTo d st s) d = { driveOf s d with state := st } := by
  have hm : (driveTo d st s).mdf.drives = (updDrive d (fun x => { x with state := st }) s).mdf.drives := by simp [driveTo]
  rw [driveOf_congr hm, driveOf_updDrive_of]
  exact fun h0 => h (congrArg Drive.state h0)

theorem driveOf_driveTo_ne {e : Nat} (st : DriveState) (he : e ≠ d) (s : State) :
    driveOf (driveTo d st s) e = driveOf s e := by
  have hm : (driveTo d st s).mdf.drives = (updDrive d (fun x => { x with state := st }) s).mdf.drives := by simp [driveTo]
  rw [driveOf_congr hm, driveOf_updDrive_ne _ _ _ _ he]

/-- A drive's state is part of what it shows. -/
theorem view_ne_default {x : Drive} (h : x.state ≠ .absent) : driveView x ≠ {} := fun h0 =>
  h (show (driveView x).state = .absent by rw [h0])

/-- A drive that proves unusable. -/
theorem makeUnusable_view (cause : Nat) (s : State) :
    driveView (driveOf (makeUnusable d cause s) d) = driveView { driveOf s d with state := .unusable } := by
  generalize ha : updDiag d (fun x => { x with fail := cause }) (driveRecord d 4 cause 0 (driveTo d .unusable (seqd s))) = a
  have hm : a.mdf.drives = (driveTo d .unusable (seqd s)).mdf.drives := by rw [← ha]; simp [updDiag, updMdf, driveRecord]
  have hd : driveOf a d = { driveOf s d with state := .unusable } := by
    rw [driveOf_congr hm, driveOf_driveTo _ (by simp), driveOf_congr (s := s) (by simp)]
  have hf := ((dropCarriages_fabric d stShelfOffline (fun c => eOp c.entry != 0x22) a).trans (reap_fabric stKeyErased _)).drive
    d (view_ne_default (by rw [hd]; simp))
  rw [makeUnusable, ha, hf, hd]

/-- A drive that is READY with its queues. -/
theorem makeReady_view (q : Nat) (h : (driveOf s d).state ≠ .absent) :
    driveView (driveOf (makeReady d q s) d) = driveView { driveOf s d with
      ioq := q, depth := min (s.mdf.depth + 1) ((driveOf s d).mqes + 1), state := .ready } := by
  generalize ha : updDrive d (fun x => { x with ioq := q, depth := min (s.mdf.depth + 1) (x.mqes + 1) }) s = a
  have hd : driveOf a d = { driveOf s d with ioq := q, depth := min (s.mdf.depth + 1) ((driveOf s d).mqes + 1) } := by
    rw [← ha]
    exact driveOf_updDrive_of _ _ _ fun h0 => h (congrArg Drive.state h0)
  have hv := (initSteps_kept (d := d) d (queueSteps q) a).view (view_ne_default (by rw [hd]; exact h))
  rw [makeReady, ha, driveOf_driveTo _ (by simp), driveOf_congr (s := initSteps d (queueSteps q) a) (by simp)]
  have hs : ∀ x : Drive, driveView { x with state := .ready } = { driveView x with state := .ready } := fun _ => rfl
  rw [hs, hv, hd]
  rfl

/-- The drive once its identification is kept, its commands and its reset over. -/
def identifyKept (d : Nat) (r : InitReport) (s : State) : State :=
  keepIdentify d r (updDrive d (fun x => { x with resetting := false, ioq := 0, cmds := [] }) s)

theorem driveOf_identifyKept (r : InitReport) (h : (driveOf s d).state ≠ .absent) :
    driveOf (identifyKept d r s) d = { driveOf s d with
      resetting := false, ioq := 0, cmds := [], mdts := r.mdts, rtd3e := r.rtd3e, formats := r.formats
      nsze := if nsOk r then r.nsze else 0, idleAt := s.now } := by
  have h1 : driveOf (updDrive d (fun x => { x with resetting := false, ioq := 0, cmds := [] }) s) d =
      { driveOf s d with resetting := false, ioq := 0, cmds := [] } :=
    driveOf_updDrive_of _ _ _ fun h0 => h (congrArg Drive.state h0)
  rw [identifyKept, keepIdentify, driveOf_updDrive_of, h1]
  · rfl
  · rw [h1]
    exact fun h0 => h (congrArg Drive.state h0)

/-- A drive with a namespace that it cannot serve is UNUSABLE; one that it can is READY (R186). -/
theorem initDrive_view {cause : Nat} {r : InitReport} (hx : (driveOf s d).state ≠ .absent) (hr : r.ok = true)
    (ht : (driveOf s d).topoBad = false) (hk : r.topoOk = true) :
    (nsOk r = false → (driveOf (initDrive d cause r s) d).state = .unusable ∧ (driveOf (initDrive d cause r s) d).ioq = 0) ∧
    (nsOk r = true → (driveOf (initDrive d cause r s) d).state = .ready ∧
      (driveOf (initDrive d cause r s) d).ioq = min s.mdf.qpairs r.queues ∧
      (driveOf (initDrive d cause r s) d).nsze = r.nsze) := by
  generalize hc : initSteps d [.identifyController, .identifyNamespace] (identifyKept d r s) = c
  have he : initDrive d cause r s = pump d (askEvent d
      (if nsOk r then makeReady d (min s.mdf.qpairs r.queues) c else makeUnusable d 6 c)) := by
    simp only [initDrive, hr, ht, hk, ← hc]
    rfl
  have hkept := driveOf_identifyKept r hx
  have hcv : driveView (driveOf c d) = driveView (driveOf (identifyKept d r s) d) := by
    rw [← hc]
    exact (initSteps_kept d _ _).view (view_ne_default (by rw [hkept]; exact hx))
  obtain ⟨hc1, hc2, hc3⟩ := of_driveView hcv
  rw [hkept] at hc1 hc2 hc3
  have hview : ∀ u : State, (driveOf u d).state ≠ .absent →
      driveView (driveOf (pump d (askEvent d u)) d) = driveView (driveOf u d) := fun u hu =>
    ((askEvent_kept d u).trans (pump_kept d _)).view (view_ne_default hu)
  rw [he]
  refine ⟨fun hn => ?_, fun hn => ?_⟩
  · obtain ⟨h1, h2, -⟩ := of_driveView (makeUnusable_view (d := d) 6 c)
    obtain ⟨k1, k2, -⟩ := of_driveView (hview (makeUnusable d 6 c) (by rw [h1]; simp))
    simp only [hn, Bool.false_eq_true, if_false]
    exact ⟨k1.trans h1, k2.trans (h2.trans hc2)⟩
  · obtain ⟨h1, h2, h3⟩ := of_driveView (makeReady_view (min s.mdf.qpairs r.queues) (by rw [hc1]; exact hx))
    obtain ⟨k1, k2, k3⟩ := of_driveView (hview (makeReady d (min s.mdf.qpairs r.queues) c) (by rw [h1]; simp))
    simp only [hn, if_true]
    exact ⟨k1.trans h1, k2.trans h2, k3.trans (h3.trans (hc3.trans (if_pos hn)))⟩

/-! ### The obligation -/

/-- Settles O39. -/
theorem drivesComeUpOrFail : Obligations.DrivesComeUpOrFail := by
  unfold Obligations.DrivesComeUpOrFail
  refine ⟨fun d speed capTo mqes topoOk s hl hw hd hs hlane hup hdown ht hsp => ?_,
    fun d s hp hf hd hs hlane hup hdown hw ht => onlyIf_pos (by simp [hp, hf, hd, hs, hlane, hup, hdown, hw, ht]),
    fun d s hp hf hd hs hup hdis hw ht => onlyIf_pos (by simp [hp, hf, hd, hs, hup, hdis, hw, ht]),
    fun d r s hl hw hd hs hup hlink hres ht => ⟨?_, fun hr hn hb htb hk _ => ?_, fun hr hn htb hk _ => ?_⟩,
    fun d s hp hf hd hsh h1 h2 hdown => ⟨fun hpr hs => ?_, fun hpr hs => ?_, fun hpr => ?_⟩,
    fun d s hl hd hlink hs => ?_, fun d r s hl hw hd hlink hs hres => ⟨fun hdis => ?_, fun hdis ht => ?_⟩⟩
  · refine ⟨_, onlyIf_pos (by simp [hl, hw, hd, hs, hlane, hup, hdown, ht, hsp]), ?_, ?_, rfl, rfl, fun e he => ?_⟩
    · exact driveOf_updDrive_of _ _ _ fun h0 => by
        have h1 := congrArg Drive.state h0
        simp [hs] at h1
    · simp
    · exact driveOf_updDrive_ne _ _ _ _ he
  · have hi : isIdentifying (driveOf s d) = false := by
      simp only [isIdentifying, Option.isNone_eq_false_iff.mpr hup]
      simp
    simp only [exec, execDriveInit, hi]
    rw [if_neg (by simp)]
    exact onlyIf_pos (by simp [hl, hw, hd, hs, hup, hlink, hres, ht])
  · exact (initDrive_view (by rw [hs]; simp) hr htb hk).1 (by simp [nsOk, hb])
  · exact (initDrive_view (by rw [hs]; simp) hr htb hk).2 hn
  · have he : exec (.presenceChange d false) s = .next (seqd (updDrive d (fun x => { x with present := false }) s)) := by
      refine (onlyIf_pos (by simp [hp, hf, hd, h1, h2, hdown])).trans (congrArg Host.Outcome.next ?_)
      simp [presenceTo, hpr, hs]
    refine ⟨_, he, ?_, seqd_csn _ hf, by simp⟩
    rw [driveOf_congr (s := updDrive d (fun x => { x with present := false }) s) (by simp), driveOf_updDrive_of]
    exact fun h0 => by
      have h3 := congrArg Drive.state h0
      simp [hs] at h3
  · refine (onlyIf_pos (by simp [hp, hf, hd, h1, h2, hdown])).trans (congrArg Host.Outcome.next ?_)
    simp [presenceTo, hpr, hs, hsh]
  · have he : exec (.presenceChange d true) s =
        .next (driveTo d .off (seqd (updDrive d (fun x => { x with present := true, perst := true }) s))) := by
      refine (onlyIf_pos (by simp [hp, hf, hd, h1, h2, hdown])).trans (congrArg Host.Outcome.next ?_)
      simp [presenceTo, hpr]
    have hdr : (seqd (updDrive d (fun x => { x with present := true, perst := true }) s)).mdf.drives =
        (updDrive d (fun x => { x with present := true, perst := true }) s).mdf.drives := by simp
    refine ⟨_, he, ?_, ?_, by simp [driveTo], fun e hne => ?_⟩
    · rw [driveOf_driveTo _ (by simp), driveOf_congr hdr, driveOf_updDrive_of]
      exact fun h0 => by cases congrArg Drive.present h0
    · have hc : (seqd (updDrive d (fun x => { x with present := true, perst := true }) s)).csn = s.csn + 1 := seqd_csn _ hf
      simp [driveTo, hc]
    · rw [driveOf_driveTo_ne _ hne, driveOf_congr hdr, driveOf_updDrive_ne _ _ _ _ hne]
  · simp only [exec, execControllerReset, hlink, hl]
    rw [if_neg (by simp [hd]), if_pos trivial]
    exact onlyIf_pos (by simp [hs])
  · simp [exec, execControllerReset, hlink, hl, hd, hs, hres, hw, hdis]
  · simp [exec, execControllerReset, hlink, hl, hd, hs, hres, hw, hdis, ht]

end Sys2Proof.Proofs
end

section
/-! PROOFS. Slice commands, bindings and mailboxes (13_slices_and_migration.md). -/
namespace Sys2Proof.Proofs

open Sys2Proof.Machine Sys2Proof.Safety Sys2Proof.Laws

variable {p : Port} {n o : Nat} {s u : State}

/-! ### Slices and bindings shown by equal tables -/

theorem sliceOf_congr (h : u.slc = s.slc) (n : Nat) : sliceOf u n = sliceOf s n := by rw [sliceOf, sliceOf, h]

theorem bindOf_congr (h : u.slc = s.slc) (o : Nat) : bindOf u o = bindOf s o := by rw [bindOf, bindOf, h]

/-- A slice that is not EMPTY is not the one that an unlisted key shows. -/
theorem slice_ne_default {x : Slice} (h : x.state ≠ .empty) : x ≠ {} := fun h0 => h (by rw [h0])

/-- A share epoch closes alike where the slices, the epoch and the time are the same. -/
theorem sliceOf_shareSync_congr (h : u.slc = s.slc) (hc : u.cay.epoch = s.cay.epoch) (ht : u.now = s.now) (m : Nat) :
    sliceOf (shareSync u) m = sliceOf (shareSync s) m := by
  simp only [shareSync, hc, ht]
  split
  · simp only [sliceOf, updSlc, updCay, h]
  · exact sliceOf_congr h m

theorem shareSync_tables (hok : tablesOk s = true) : twf {} (shareSync s).slc.slices = true := by
  obtain ⟨-, -, -, -, -, -, -, -, -, -, -, -, hw, -⟩ := tablesOk_parts s hok
  unfold shareSync
  split
  · exact twf_tmap _ _ _ hw
  · exact hw

/-! ### Slice commands (R278, R279, R288, R289) -/

/-- A slice command taken: it reports OK, and is BUSY for its time. -/
def slcTaken (p : Port) (most : Nat) (s : State) : State :=
  updWin p (fun w => { w with slc := { w.slc with result := 0, busyUntil := within most (cmdWritten p s) } })
    (draw (cmdWritten p s))

/-- A slice command that its checks pass. -/
theorem slcCommand_ok {most : Nat} {check : State → Nat} {act : State → State} (h : wr p .slc s = true)
    (hh : holds p 1 s = true) (hn : n < 8192) (hb : (s.win.get p).slc.busyUntil ≤ s.now) (hc : check (cmdWritten p s) = 0) :
    slcCommand p n most check act s = .next (act (slcTaken p most s)) := by
  have hc' : check (seqd (legTouch p (cntWr p s))) = 0 := hc
  simp [slcCommand, h, hh, hc', Nat.not_lt.mpr hb, Nat.not_le.mpr hn, slcTaken, cmdWritten]

/-- Without its turntable a slice command is counted and changes nothing else. -/
theorem slcCommand_unheld {most : Nat} {check : State → Nat} {act : State → State} (h : wr p .slc s = true)
    (hh : holds p 1 s = false) : slcCommand p n most check act s = .next (guardErr p (legTouch p (cntWr p s))) := by
  simp [slcCommand, h, hh]

/-- What a command taken leaves. -/
theorem slcTaken_spec {most : Nat} (h : wr p .slc s = true) : (slcTaken p most s).slc = s.slc ∧
    (slcTaken p most s).car = s.car ∧ (slcTaken p most s).kst = s.kst ∧ (slcTaken p most s).now = s.now ∧
    (slcTaken p most s).cay = s.cay ∧ (slcTaken p most s).csn = s.csn + 1 ∧
    ((slcTaken p most s).win.get p).slc.data = (s.win.get p).slc.data ∧ ((slcTaken p most s).win.get p).slc.result = 0 ∧
    s.now ≤ ((slcTaken p most s).win.get p).slc.busyUntil ∧
    ((slcTaken p most s).win.get p).slc.busyUntil ≤ s.now + most := by
  have hc := cmdWritten_csn h
  have hs : (cmdWritten p s).slc = s.slc ∧ (cmdWritten p s).now = s.now ∧ (cmdWritten p s).cay = s.cay := by
    simp [cmdWritten]
  obtain ⟨hslc, hnow, hcay⟩ := hs
  simp only [slcTaken, updWin_frame, draw_frame, cmdWritten_frame, hslc, hnow, hcay, true_and]
  refine ⟨hc, ?_, ?_, ?_, ?_⟩ <;> simp [updWin, within, hnow, Nat.min_le_left]

/-- The rows of the slice commands. -/
theorem slcRead_row : exec (.slcRead p n) s = slcCommand p n 10 (fun _ => 0)
    (fun s => updWin p (fun w => { w with slc := { w.slc with data := entryBytes (sliceOf s n) } }) s) s := rfl

/-- Closing the share epoch keeps the slices canonical, and changes nothing else that a command reads. -/
theorem slcTaken_sync {most : Nat} (h : wr p .slc s = true) (hok : tablesOk s = true) :
    twf {} (shareSync (slcTaken p most s)).slc.slices = true ∧
    (∀ m, sliceOf (shareSync (slcTaken p most s)) m = sliceOf (shareSync s) m) ∧
    (shareSync (slcTaken p most s)).win = (slcTaken p most s).win ∧
    (shareSync (slcTaken p most s)).csn = s.csn + 1 ∧ (shareSync (slcTaken p most s)).car = s.car := by
  obtain ⟨k1, k2, -, k4, k5, k6, -⟩ := slcTaken_spec (p := p) (most := most) h
  have hok' : tablesOk (slcTaken p most s) = true :=
    (seqd_keeps (legTouch_keeps p (cntWr_keeps p (Keeps.refl {} s)))).tables hok
  refine ⟨shareSync_tables hok', sliceOf_shareSync_congr k1 (by rw [k5]) k4, ?_, ?_, ?_⟩
  · rw [shareSync_rest]
  · rw [shareSync_rest]
    exact k6
  · rw [shareSync_rest]
    exact k2

/-- A slice of the closed epoch changed by a command. -/
theorem slcTaken_updSlice {most : Nat} {f : Slice → Slice} (h : wr p .slc s = true) (hok : tablesOk s = true) :
    sliceOf (updSlice n f (shareSync (slcTaken p most s))) n = f (sliceOf (shareSync s) n) ∧
    ((updSlice n f (shareSync (slcTaken p most s))).win.get p).slc.result = 0 ∧
    (updSlice n f (shareSync (slcTaken p most s))).csn = s.csn + 1 ∧
    (updSlice n f (shareSync (slcTaken p most s))).car = s.car ∧
    ∀ m, m ≠ n → sliceOf (updSlice n f (shareSync (slcTaken p most s))) m = sliceOf (shareSync s) m := by
  obtain ⟨-, -, -, -, -, -, -, k8, -, -⟩ := slcTaken_spec (p := p) (most := most) h
  obtain ⟨hw, hs, hwin, hcsn, hcar⟩ := slcTaken_sync (p := p) (most := most) h hok
  refine ⟨?_, ?_, hcsn, hcar, fun m hm => ?_⟩
  · rw [sliceOf_updSlice _ _ _ hw, hs]
  · have hu : (updSlice n f (shareSync (slcTaken p most s))).win = (slcTaken p most s).win := hwin
    rw [hu]
    exact k8
  · rw [sliceOf_updSlice_ne _ _ _ _ hm, hs]

/-- A slice that a staged entry creates (R279). -/
def sliceCreated (b : Bytes) : Slice :=
  { stagedSlice b {} with state := if bit (fld b 0 4) 24 then .frozen else .active }

/-- A slice without SQs thawed. -/
theorem unfreeze_row (h : wr p .slc s = true) (hh : holds p 1 s = true) (hn : n < 8192)
    (hb : (s.win.get p).slc.busyUntil ≤ s.now) (hf : (sliceOf s n).state = .frozen) (hsq : sliceSqs s n = []) :
    exec (.unfreeze p n) s = .next (updSlice n (fun x => { x with state := .active }) (slcTaken p 10 s)) := by
  obtain ⟨k1, k2, -⟩ := slcTaken_spec (p := p) (most := 10) h
  have hcs : (cmdWritten p s).slc = s.slc := by simp [cmdWritten]
  have hsl : sliceOf (cmdWritten p s) n = sliceOf s n := sliceOf_congr hcs n
  have ha : sliceOf (updSlice n (fun x => { x with state := .active }) (slcTaken p 10 s)) n =
      { sliceOf s n with state := .active } := by
    rw [sliceOf_updSlice_of, sliceOf_congr k1]
    intro h0
    cases congrArg Slice.state h0
  have hrings : ∀ u : State, u.car = s.car → sliceOf u n = { sliceOf s n with state := .active } →
      sliceSqs u n = sliceSqs s n := fun u hu hx => by
    simp only [sliceSqs, sliceRings, ringOf, hu, hx, hf]
    rfl
  simp only [exec, execUnfreeze]
  rw [slcCommand_ok h hh hn hb (by simp [hsl, hf])]
  rw [hrings (updSlice n (fun x => { x with state := .active }) (slcTaken p 10 s)) k2 ha, hsq]
  rfl

/-- The bindings without those to a slice. -/
def bindsWithout (n : Nat) (t : Tbl Binding) : Tbl Binding :=
  tmap {} (fun _ y => if y.bound && y.slice == n then {} else y) t

/-- A slice without rings and without keys removed. -/
theorem remove_row (h : wr p .slc s = true) (hh : holds p 1 s = true) (hn : n < 8192)
    (hb : (s.win.get p).slc.busyUntil ≤ s.now) (hf : (sliceOf s n).state = .frozen) (hr : sliceRings s n = [])
    (hk : tkeys s.kst.slots (fun _ x => x.state != .free && x.scope == n) = []) :
    exec (.remove p n) s = .next (updSlice n (fun _ => {})
      (updSlc (fun c => { c with binds := bindsWithout n c.binds }) (relieve (slcTaken p 200 s)))) := by
  obtain ⟨k1, k2, k3, -⟩ := slcTaken_spec (p := p) (most := 200) h
  have hcs : (cmdWritten p s).slc = s.slc := by simp [cmdWritten]
  have hsl : sliceOf (cmdWritten p s) n = sliceOf s n := sliceOf_congr hcs n
  have hr' : sliceRings (slcTaken p 200 s) n = [] := by
    rw [← hr]
    simp only [sliceRings, k2, sliceOf_congr k1]
  have hk' : tkeys (relieve (slcTaken p 200 s)).kst.slots (fun _ x => x.state != .free && x.scope == n) = [] := by
    rw [← hk]
    simp [k3]
  simp only [exec, execRemove]
  rw [slcCommand_ok h hh hn hb (by simp [hsl, hf]), hr']
  simp only [List.foldl_nil, hk']
  rfl

/-- Settles O42: each command as its checks pass. -/
theorem sliceCommandsAct : Obligations.SliceCommandsAct := by
  unfold Obligations.SliceCommandsAct
  refine ⟨fun p n s hok h hh hn hb => ?_, fun p n s h hh => ?_⟩
  case refine_2 =>
    simp only [exec, execSlcRead, execSlcWrite, execSlcCreate, execUnfreeze, execRemove]
    exact ⟨slcCommand_unheld h hh, slcCommand_unheld h hh, slcCommand_unheld h hh, slcCommand_unheld h hh,
      slcCommand_unheld h hh⟩
  obtain ⟨-, -, -, -, -, -, -, -, -, -, -, -, hws, hwb, -⟩ := tablesOk_parts s hok
  have hcs : (cmdWritten p s).slc = s.slc := by simp [cmdWritten]
  have hcm : (cmdWritten p s).chp = s.chp := by simp [cmdWritten]
  have hst : staged p (cmdWritten p s) = staged p s := by simp [staged]
  have hov : ∀ b, overlaps (cmdWritten p s) n b = overlaps s n b := fun b => by simp only [overlaps, hcs]
  have hsl : sliceOf (cmdWritten p s) n = sliceOf s n := sliceOf_congr hcs n
  have hstk : staged p (slcTaken p 10 s) = staged p s := by
    obtain ⟨-, -, -, -, -, -, k7, -⟩ := slcTaken_spec (p := p) (most := 10) h
    exact k7
  refine ⟨?_, fun hf hso hno hmv => ?_, fun he hrun hso hno => ?_, fun hf hsq => ?_, fun hf hr hk => ?_⟩
  · obtain ⟨k1, k2, -, -, -, k6, -, k8, k9, k10⟩ := slcTaken_spec (p := p) (most := 10) h
    refine ⟨_, slcRead_row.trans (slcCommand_ok h hh hn hb rfl), ?_, ?_, k6, k1, k2, ?_, ?_⟩
    · simp [updWin, sliceOf_congr k1]
    · simpa [updWin] using k8
    · simpa [updWin] using k9
    · simpa [updWin] using k10
  · obtain ⟨h1, h2, h3, h4, h5⟩ := slcTaken_updSlice (p := p) (n := n) (most := 10) (f := stagedSlice (staged p s)) h hok
    refine ⟨_, ?_, h1, h2, h3, h4, h5⟩
    simp only [exec, execSlcWrite]
    rw [slcCommand_ok h hh hn hb (by simp [hsl, hf, hst, hmv, hso, hov, hno]), hstk]
  · obtain ⟨h1, h2, h3, -, h5⟩ := slcTaken_updSlice (p := p) (n := n) (most := 10)
      (f := fun _ => sliceCreated (staged p s)) h hok
    refine ⟨updSlice n (fun _ => sliceCreated (staged p s)) (shareSync (slcTaken p 10 s)), ?_, ?_⟩
    · simp only [exec, execSlcCreate]
      rw [slcCommand_ok h hh hn hb (by simp [hsl, he, hst, hcm, hrun, hso, hov, hno]), hstk]
      rfl
    · rw [h1]
      exact ⟨rfl, rfl, rfl, rfl, rfl, rfl, h2, h3, h5⟩
  · obtain ⟨k1, -, -, -, -, k6, -, k8, -⟩ := slcTaken_spec (p := p) (most := 10) h
    refine ⟨_, unfreeze_row h hh hn hb hf hsq, ?_, k8, k6⟩
    rw [sliceOf_updSlice_of, sliceOf_congr k1]
    intro h0
    cases congrArg Slice.state h0
  · obtain ⟨k1, -, -, -, -, k6, -, k8, -⟩ := slcTaken_spec (p := p) (most := 200) h
    have hrel : (relieve (slcTaken p 200 s)).slc = s.slc := by simp [k1]
    have hbind : ∀ o, bindOf (updSlice n (fun _ => {}) (updSlc (fun c => { c with binds := bindsWithout n c.binds })
        (relieve (slcTaken p 200 s)))) o =
        if (bindOf s o).bound && (bindOf s o).slice == n then {} else bindOf s o := fun o => by
      have hb : (updSlice n (fun _ => {}) (updSlc (fun c => { c with binds := bindsWithout n c.binds })
          (relieve (slcTaken p 200 s)))).slc.binds = bindsWithout n s.slc.binds :=
        congrArg (fun c : Slc => bindsWithout n c.binds) hrel
      rw [bindOf, hb]
      exact tget_tmap o hwb rfl
    have hslc : ∀ m, sliceOf (updSlc (fun c => { c with binds := bindsWithout n c.binds })
        (relieve (slcTaken p 200 s))) m = sliceOf s m := fun m => by
      simp only [sliceOf, updSlc, hrel]
    refine ⟨_, remove_row h hh hn hb hf hr hk, ?_, ?_, ?_, fun o hbo hbs => ?_, fun o hbs => ?_, fun m hm => ?_⟩
    · refine sliceOf_updSlice _ _ _ ?_
      simp only [updSlc, hrel]
      exact hws
    · simpa [updSlice, updSlc] using k8
    · simpa using k6
    · rw [hbind, hbo, hbs]
      simp
    · rw [hbind, if_neg (by simp [hbs])]
    · rw [sliceOf_updSlice_ne _ _ _ _ hm, hslc]

end Sys2Proof.Proofs
end

section
/-! PROOFS. Bindings and mailboxes (13_slices_and_migration.md, R281, R284, R285). -/
namespace Sys2Proof.Proofs

open Sys2Proof.Machine Sys2Proof.Safety Sys2Proof.Laws

variable {p : Port} {n : Nat} {s u : State}

/-! ### Bindings -/

/-- The state that a bind command finds. -/
theorem cmdWritten_slc (p : Port) (s : State) :
    (cmdWritten p s).slc = s.slc ∧ (cmdWritten p s).now = s.now ∧ (cmdWritten p s).chp = s.chp := by
  simp [cmdWritten]

/-- An answer of a bind command leaves the bindings. -/
theorem bindAnswer_spec (f : SlcWin → SlcWin) : (bindAnswer p f s).slc = s.slc ∧ (bindAnswer p f s).kst = s.kst ∧
    (bindAnswer p f s).car = s.car ∧ (bindAnswer p f s).csn = s.csn ∧
    ((bindAnswer p f s).win.get p).slc.bindRes = (f (s.win.get p).slc).bindRes ∧
    ((bindAnswer p f s).win.get p).slc.bound = (f (s.win.get p).slc).bound ∧
    ((bindAnswer p f s).win.get p).slc.boundTo = (f (s.win.get p).slc).boundTo ∧
    ((bindAnswer p f s).win.get p).slc.bindBusyUntil ≤ s.now + 4 := by
  simp [bindAnswer, updWin, within, Nat.min_le_left]

theorem bindOf_tset (o k : Nat) (v : Binding) (h : k ≠ o) :
    bindOf (updSlc (fun c => { c with binds := tset {} c.binds o v }) s) k = bindOf s k := tget_tset_ne _ _ _ _ _ h

theorem bindOf_tset_of (o : Nat) (v : Binding) (h : v ≠ {}) :
    bindOf (updSlc (fun c => { c with binds := tset {} c.binds o v }) s) o = v := tget_tset_of_ne _ _ _ _ h

theorem bindOf_tset_same (o : Nat) (v : Binding) (h : twf {} s.slc.binds = true) :
    bindOf (updSlc (fun c => { c with binds := tset {} c.binds o v }) s) o = v := tget_tset_same _ _ _ _ h

/-- The bind command of a port, its turntable held. -/
theorem bind_row (h : wr p .slc s = true) (hh : holds p 1 s = true)
    (hb : (bindOf s (s.win.get p).slc.bindOwner).bound = false)
    (ho : (ownerOf s (s.win.get p).slc.bindOwner).state = .active)
    (hn : (sliceOf s n).state = .active ∨ (sliceOf s n).state = .frozen) (hc : bindCount s n < 65536) :
    exec (.bind p n) s = .next (updSlc (fun c => { c with
        binds := tset {} c.binds (s.win.get p).slc.bindOwner { bound := true, slice := n } })
      (bindAnswer p (fun w => { w with bindRes := 0 }) (cmdWritten p s))) := by
  obtain ⟨hwin, -, -, hv, -⟩ := cmdWritten_frame p s
  have hs := (cmdWritten_slc p s).1
  have hcheck : bindCheck (cmdWritten p s) n (s.win.get p).slc.bindOwner = 0 := by
    have h2 : ¬bindCount s n ≥ 65536 := by omega
    have h3 : bindCount (cmdWritten p s) n = bindCount s n := by simp only [bindCount, hs]
    have h4 : ownerOf (cmdWritten p s) (s.win.get p).slc.bindOwner = ownerOf s (s.win.get p).slc.bindOwner := by
      simp only [ownerOf, hv]
    rcases hn with hn | hn <;> simp [bindCheck, bindOf_congr hs, sliceOf_congr hs, h3, h4, hb, ho, hn, h2]
  have hb' : (bindOf (cmdWritten p s) (s.win.get p).slc.bindOwner).bound = false := by rwa [bindOf_congr hs]
  have he : seqd (legTouch p (cntWr p s)) = cmdWritten p s := rfl
  simp only [exec, execBind, h, hh, he, hwin, hcheck, hb']
  rfl

/-- The unbind command of a port whose owner is bound to the slice it names. -/
theorem unbind_row (h : wr p .slc s = true) (hh : holds p 1 s = true)
    (hb : (bindOf s (s.win.get p).slc.bindOwner).bound = true)
    (hn : (bindOf s (s.win.get p).slc.bindOwner).slice = n) :
    exec (.unbind p n) s = .next (updSlc (fun c => { c with binds := tset {} c.binds (s.win.get p).slc.bindOwner {} })
      (bindAnswer p (fun w => { w with bindRes := 0 }) (cmdWritten p s))) := by
  have hs := (cmdWritten_slc p s).1
  have hx := bindOf_congr hs (s.win.get p).slc.bindOwner
  have he : seqd (legTouch p (cntWr p s)) = cmdWritten p s := rfl
  simp [exec, execUnbind, h, hh, he, hx, hb, hn]

/-! ### Mailboxes -/

/-- A change of a slice's mailbox. -/
theorem sliceOf_mailbox {f : Slice → Slice} (hs : (f (sliceOf s n)).state ≠ .empty) (hu : u.slc = (updSlice n f s).slc) :
    sliceOf u n = f (sliceOf s n) ∧ ∀ m, m ≠ n → sliceOf u m = sliceOf s m := by
  refine ⟨?_, fun m hm => ?_⟩
  · rw [sliceOf_congr hu, sliceOf_updSlice_of _ _ _ (slice_ne_default hs)]
  · rw [sliceOf_congr hu, sliceOf_updSlice_ne _ _ _ _ hm]

/-- The state that a tenant's mailbox write that acts finds. -/
def mbxWritten (p : Port) (s : State) : State := seqd (cntWr p s)

theorem mbxWritten_spec {k : Blk} (h : wr p k s = true) : (mbxWritten p s).csn = s.csn + 1 ∧ (mbxWritten p s).slc = s.slc ∧
    (mbxWritten p s).car = s.car ∧ (mbxWritten p s).kst = s.kst := by
  refine ⟨seqd_cntWr (inFault_of_wr h), ?_⟩
  simp [mbxWritten]

/-- A tenant's write to its mailbox that acts. -/
theorem tenantMbxWrite_acts {o : MbxOp} (h : wr p .page s = true) (hn : n < 8192) (hs : (sliceOf s n).state ≠ .empty)
    (ho : mbxChanges (sliceOf s n).inFull o = true) :
    tenantMbxWrite p n [o] s = .next (tenantMbx p n (mbxWritten p s) o) := by
  simp only [tenantMbxWrite]
  rw [if_neg (by simp [h, hn]), if_neg (by simpa using hs)]
  simp [ho, seqIf, mbxWritten]

/-- A manager's write to the mailbox of its window's slice that acts. -/
theorem managerMbxWrite_acts {o : MbxOp} (h : wr p .slc s = true) (hs : (sliceOf s (s.win.get p).slc.mbxSel).state ≠ .empty)
    (ho : mbxChanges (sliceOf s (s.win.get p).slc.mbxSel).outFull o = true) :
    managerMbxWrite p [o] s = .next (managerMbx p (s.win.get p).slc.mbxSel (cmdWritten p s) o) := by
  refine (onlyIf_pos h).trans (congrArg Host.Outcome.next ?_)
  rw [if_neg (by simpa using hs)]
  simp [ho, seqIf, cmdWritten]

/-- Settles O43. -/
theorem bindingsAndMailboxesFollowCommands : Obligations.BindingsAndMailboxesFollowCommands := by
  unfold Obligations.BindingsAndMailboxesFollowCommands
  refine ⟨fun p n s hok h hh hb ho hn hc => ?_, fun p n s hok h hh hb hn => ?_, fun p s h => ?_,
    fun p n len s h hn hs hf h1 h2 => ?_, fun p s h hs => ?_, fun p len s h hs hf h1 h2 => ?_, fun p n s h hn hs => ?_⟩
  · obtain ⟨k1, k2, k3, k4, k5, -, -, k8⟩ := bindAnswer_spec (p := p) (s := cmdWritten p s) (fun w => { w with bindRes := 0 })
    obtain ⟨-, -, hk, -, -, hcar, -⟩ := cmdWritten_frame p s
    obtain ⟨hs, hnow, -⟩ := cmdWritten_slc p s
    refine ⟨_, bind_row h hh hb ho hn hc, ?_, k5, k4.trans (cmdWritten_csn h), k3.trans hcar, k2.trans hk,
      by rw [← hnow]; exact k8, fun o ho => ?_⟩
    · exact bindOf_tset_of _ _ (by simp)
    · rw [bindOf_tset _ _ _ ho, bindOf_congr k1, bindOf_congr hs]
  · obtain ⟨k1, -, -, k4, k5, -⟩ := bindAnswer_spec (p := p) (s := cmdWritten p s) (fun w => { w with bindRes := 0 })
    obtain ⟨hs, -⟩ := cmdWritten_slc p s
    obtain ⟨-, -, -, -, -, -, -, -, -, -, -, -, -, hwb, -⟩ := tablesOk_parts s hok
    refine ⟨_, unbind_row h hh hb hn, ?_, k5, k4.trans (cmdWritten_csn h), fun o ho => ?_⟩
    · refine bindOf_tset_same _ _ ?_
      rw [k1, hs]
      exact hwb
    · rw [bindOf_tset _ _ _ ho, bindOf_congr k1, bindOf_congr hs]
  · obtain ⟨hwin, -⟩ := cmdWritten_frame p s
    obtain ⟨hs, -⟩ := cmdWritten_slc p s
    have he : exec (.query p) s = .next (bindAnswer p (fun w => { w with
        bindRes := 0
        boundTo := if (bindOf s (s.win.get p).slc.bindOwner).bound then (bindOf s (s.win.get p).slc.bindOwner).slice else 0
        bound := (bindOf s (s.win.get p).slc.bindOwner).bound }) (cmdWritten p s)) := by
      have he : seqd (legTouch p (cntWr p s)) = cmdWritten p s := rfl
      simp [exec, execQuery, h, he, hwin, bindOf_congr hs]
    obtain ⟨k1, -, -, k4, k5, k6, k7, -⟩ := bindAnswer_spec (p := p) (s := cmdWritten p s) (fun w => { w with
        bindRes := 0
        boundTo := if (bindOf s (s.win.get p).slc.bindOwner).bound then (bindOf s (s.win.get p).slc.bindOwner).slice else 0
        bound := (bindOf s (s.win.get p).slc.bindOwner).bound })
    exact ⟨_, he, k6, fun hb => k7.trans (if_pos hb), k5, k1.trans hs, k4.trans (cmdWritten_csn h)⟩
  · obtain ⟨k1, k2, k3, k4⟩ := mbxWritten_spec h
    have hlen : (len == 0 || decide (len > 256)) = false := by simp; omega
    have hrow : exec (.inPost p n len) s = .next (setIntBoth 1 (updSlice n (fun x => { x with inFull := true, inLen := len })
        (mbxWritten p s))) := by
      refine (tenantMbxWrite_acts h hn hs (by simp [mbxChanges, hf, h1, h2])).trans (congrArg Host.Outcome.next ?_)
      simp only [tenantMbx, hlen, sliceOf_congr k2, hf]
      rfl
    obtain ⟨j1, j2⟩ := sliceOf_mailbox (n := n) (s := mbxWritten p s) (f := fun x => { x with inFull := true, inLen := len })
      (u := setIntBoth 1 (updSlice n (fun x => { x with inFull := true, inLen := len }) (mbxWritten p s)))
      (by rw [sliceOf_congr k2]; exact hs) (by simp)
    refine ⟨_, hrow, by rw [j1, sliceOf_congr k2], by simpa using k1, by simpa using k3, by simpa using k4, fun m hm => ?_⟩
    rw [j2 m hm, sliceOf_congr k2]
  · obtain ⟨-, -, hk, -, -, hcar, -⟩ := cmdWritten_frame p s
    obtain ⟨hsl, -⟩ := cmdWritten_slc p s
    refine ⟨_, managerMbxWrite_acts h hs rfl, ?_, cmdWritten_csn h, hcar, hk⟩
    have hx := (sliceOf_mailbox (n := (s.win.get p).slc.mbxSel) (s := cmdWritten p s)
      (f := fun x => { x with inFull := false, inLen := 0, inBox := zeros 256 })
      (by rw [sliceOf_congr hsl]; exact hs) rfl).1
    rwa [sliceOf_congr hsl] at hx
  · obtain ⟨-, -, hk, -, -, hcar, -⟩ := cmdWritten_frame p s
    obtain ⟨hsl, -⟩ := cmdWritten_slc p s
    have hlen : (len == 0 || decide (len > 256)) = false := by simp; omega
    have hrow : exec (.outPost p len) s = .next (msixFire (sliceOf s (s.win.get p).slc.mbxSel).home
        (sliceOf s (s.win.get p).slc.mbxSel).vecBase
        (updSlice (s.win.get p).slc.mbxSel (fun x => { x with outFull := true, outLen := len }) (cmdWritten p s))) := by
      refine (managerMbxWrite_acts h hs (by simp [mbxChanges, hf, h1, h2])).trans (congrArg Host.Outcome.next ?_)
      simp only [managerMbx, hlen, sliceOf_congr hsl, hf]
      rfl
    refine ⟨_, hrow, ?_, by simpa using cmdWritten_csn h, by simpa using hcar, by simpa using hk⟩
    have hx := (sliceOf_mailbox (n := (s.win.get p).slc.mbxSel) (s := cmdWritten p s)
      (f := fun x => { x with outFull := true, outLen := len }) (u := msixFire (sliceOf s (s.win.get p).slc.mbxSel).home
        (sliceOf s (s.win.get p).slc.mbxSel).vecBase
        (updSlice (s.win.get p).slc.mbxSel (fun x => { x with outFull := true, outLen := len }) (cmdWritten p s)))
      (by rw [sliceOf_congr hsl]; exact hs) (by simp)).1
    rwa [sliceOf_congr hsl] at hx
  · obtain ⟨k1, k2, k3, k4⟩ := mbxWritten_spec h
    refine ⟨_, tenantMbxWrite_acts h hn hs rfl, ?_, k1, k3, k4⟩
    have hx := (sliceOf_mailbox (n := n) (s := mbxWritten p s)
      (f := fun x => { x with outFull := false, outLen := 0, outBox := zeros 256 })
      (by rw [sliceOf_congr k2]; exact hs) rfl).1
    rwa [sliceOf_congr k2] at hx

end Sys2Proof.Proofs
end

section
/-! PROOFS. A slice freezes, is saved and restored (13_slices_and_migration.md). -/
namespace Sys2Proof.Proofs

open Sys2Proof.Machine Sys2Proof.Safety Sys2Proof.Laws

variable {n t : Nat} {s : State}

/-- A drained slice whose sessions are sealed becomes FROZEN, and its freezers end (R286, R287). -/
theorem freezeDrainDone_row (hl : live s = true) (hs : (sliceOf s n).state = .freezing)
    (hq : (sliceSqs s n).all (fun g => (ringOf s g).outstanding == 0) = true) (hv : s.vlt.mode ≠ .closed)
    (hf : (freezeSeals n (sessions s n) s).1 = true) :
    exec (.freezeDrainDone n) s = .next ((sliceOf (freezeSeals n (sessions s n) s).2 n).freezers.foldl
      (fun s t => done t stDone 0 s)
      (updSlice n (fun x => { x with state := .frozen, freezes := satInc 16 x.freezes, freezers := [] })
        (seqd (freezeSeals n (sessions s n) s).2))) := by
  simp only [exec, execFreezeDrainDone]
  rw [if_neg (by simp [hl, hs, hq, hv]), if_neg (by simp [hf])]

/-- A carriage that runs is no longer admitted. -/
theorem not_admitted_of_running {op : Nat} (h : isAt s t op .running = true) : isAt s t op .admitted = false := by
  simp only [isAt, Bool.and_eq_true, beq_iff_eq] at h
  simp [isAt, h.2]

/-- Settles O44. -/
theorem slicesFreezeSaveAndRestore : Obligations.SlicesFreezeSaveAndRestore := by
  unfold Obligations.SlicesFreezeSaveAndRestore
  refine ⟨fun t s h => onlyIf_pos h, fun n s hl hs hq hv hses hfz => ?_, fun n s => freezeDrainDone_row,
    fun t k s hw ha hs hk hlen => ?_, fun t img k s hw ha hr hk => ⟨fun ho => ?_, fun m ho ht => ?_, fun m ho ht => ?_⟩⟩
  · have hseal : freezeSeals n (sessions s n) s = (true, s) := by rw [hses]; rfl
    have hrow := freezeDrainDone_row hl hs hq hv (by rw [hseal])
    rw [hseal, hfz] at hrow
    refine ⟨_, hrow, ?_, seqd_csn _ (inFault_of_live hl), by simp, by simp⟩
    rw [List.foldl_nil, sliceOf_updSlice_of, sliceOf_congr (s := s) (by simp), ← hfz]
    intro h0
    cases congrArg Slice.state h0
  · have hlen' : ¬eLength (carrOf s t).entry <
        (sliceImage (seqd s) (fld (carrOf s t).entry 48 2) (fld (carrOf s t).entry 50 2) k).length := Nat.not_lt.mpr hlen
    simp [exec, execSliceSave, hw, not_admitted_of_running ha, ha, hs, hk, hlen']
  all_goals simp only [exec, execSliceRestore, hw, not_admitted_of_running ha, ha, hr, hk, ho]
  · rfl
  · simp [ht]
  · simp [ht]

end Sys2Proof.Proofs
end

section
/-! SUPPORT. What the end of a carriage leaves of the vault (10_owners_vault_dual_control.md). -/
namespace Sys2Proof.Laws

open Sys2Proof.Machine Sys2Proof.Safety

/-- What the end of its carriage leaves of a proposal. -/
def propView (p : Proposal) : Proposal := { p with by_ := none, committing := false, approvals := [] }

/-- A step that takes at most carriages' names, and the approvals they would commit, from the proposals. -/
def PropStep (s u : State) : Prop :=
  twf {} s.vlt.props = true → twf {} u.vlt.props = true ∧ (∀ i, propView (propOf u i) = propView (propOf s i)) ∧
    u.vlt = { s.vlt with props := u.vlt.props, snap := u.vlt.snap }

theorem propStep_endRel : EndRel PropStep where
  trans h k hs := by
    obtain ⟨hu, h1, h2⟩ := h hs
    obtain ⟨hv, k1, k2⟩ := k hu
    exact ⟨hv, fun i => (k1 i).trans (h1 i), by rw [k2, h2]⟩
  same _ h _ _ hs := by
    simp only [propOf, h] at hs ⊢
    exact ⟨hs, fun _ => trivial, trivial⟩
  forget t s hs := by
    refine ⟨twf_tmap _ _ _ hs, fun i => view_tmap (d := ({} : Proposal)) (f := fun p => if p.by_ == some t then
        if p.begun || p.state == .committed then { p with by_ := none }
        else { p with by_ := none, committing := false, approvals := p.approvals.dropLast }
      else p) propView hs (fun p => ?_) i, rfl⟩
    split
    · split <;> rfl
    · rfl

end Sys2Proof.Laws
end

section
/-! PROOFS. The quorum (05_carriages.md, 10_owners_vault_dual_control.md). -/
namespace Sys2Proof.Proofs

open Sys2Proof.Machine Sys2Proof.Safety Sys2Proof.Laws

variable {t id o : Nat} {r : Bytes} {s u : State}

/-! ### Proposals (R235, R236) -/

theorem live_of_isAt {op : Nat} {st : Stage} (h : isAt s t op st = true) : live s = true := by
  simp only [isAt, Bool.and_eq_true] at h
  exact h.1.1

/-- A PROPOSE with its record and its package's checks over runs. -/
theorem propose_runs (hw : worldServes s 0x30 = true) (hact : s.fwu.activating = false)
    (hid : s.vlt.nextId < s.vlt.img.idCeiling) (hturn : waitsTurn s t = false) (ha : isAt s t 0x30 .running = true)
    (hr : (carrOf s t).record = some r)
    (hs : (carrOf s t).sigs = some 0 ∨ (carrOf s t).sigs = none ∧ wantsPackage s t r = false) :
    exec (.propose t) s = .next (runPropose t s) := by
  have ho : idsOpen s = true := by simp [idsOpen, hid]
  have hp : ((carrOf s t).sigs.isNone && wantsPackage s t ((carrOf s t).record.getD [])) = false := by
    rcases hs with h | ⟨h, hwp⟩
    · simp [h]
    · simp [hr, hwp]
  have hz : ((carrOf s t).sigs.getD 0 == 0) = true := by
    rcases hs with h | ⟨h, -⟩ <;> simp [h]
  simp only [exec, execPropose, Bool.and_assoc, hp, hz]
  rw [if_neg (by simp [hw, hact, ho, hturn]), if_neg (by simp [not_admitted_of_running ha]), if_neg (by simp)]
  exact onlyIf_pos (by simp [ha, hr])

/-- A record for an initialisation passes in no open vault. -/
theorem op_of_passes (hv : vaultLive s = true) (hp : propPasses s t r = true) : (rOp r == 0x30) = false := by
  refine Bool.eq_false_iff.mpr fun h => ?_
  have ho : rOp r = 0x30 := by simpa using h
  have hn : initAllowed s = false := by
    simp only [vaultLive, Bool.or_eq_true, beq_iff_eq] at hv
    rcases hv with h | h <;> simp [initAllowed, h]
  simp only [propPasses, propForm, permits, ho, hn] at hp
  simp at hp

/-- The proposal opened under the next id. -/
def openedProp (t : Nat) (r : Bytes) (k : Bytes × Bytes) (pol : Policy) (s : State) : Proposal :=
  { used := true, record := r, m := pol.m, officers := pol.officers, end_ := (carrOf s t).admAt + 1000000 * (carrOf s t).aux
    port := carrPort s t, digest := propDigest s.vlt.nextId r, drawn := k.1, mask := k.2 }

/-- The state with the next proposal in its table. -/
def propOpened (t : Nat) (r : Bytes) (k : Bytes × Bytes) (pol : Policy) (s u : State) : State :=
  updVlt (fun v => { v with nextId := s.vlt.nextId + 1, props := tput v.props s.vlt.nextId (openedProp t r k pol s) }) u

/-- Drawing a mask leaves all but what is drawn. -/
theorem maskKey_state (key : Bytes) (s : State) : (maskKey key s).2 = { s with free := (maskKey key s).2.free } := by
  unfold maskKey
  split <;> rfl

/-- A proposal in an open vault that has ids. -/
theorem openProposal_eq {key : Bytes} {pol : Policy} (ho : (rOp r == 0x30) = false)
    (hid : s.vlt.nextId < s.vlt.img.idCeiling) :
    openProposal t r key pol s = done t stDone s.vlt.nextId
      (dmaWriteMps (carrPort s t) (ringPasid s (ringOf s (carrOf s t).sq)) (s.stats.get (carrPort s t)).cfg.roEn
        (fld (carrOf s t).entry 48 8) (propDigest s.vlt.nextId r)
        (propOpened t r (maskKey key s).1 pol s (maskKey key s).2)) := by
  have hr : idsReady (rOp r) (maskKey key s).2 = (maskKey key s).2 := by
    have hlt : ¬(maskKey key s).2.vlt.nextId ≥ (maskKey key s).2.vlt.img.idCeiling := by
      rw [maskKey_state]
      exact Nat.not_le.mpr hid
    rw [idsReady, if_neg (by simp [ho]), if_neg hlt]
  have hv : (maskKey key s).2.vlt = s.vlt := by rw [maskKey_state]
  simp only [openProposal, hr, hv]
  rw [maskKey_state]
  rfl

/-- A new proposal stands under the next id after its PROPOSE has completed. -/
theorem openProposal_spec {key : Bytes} {pol : Policy} (ho : (rOp r == 0x30) = false)
    (hid : s.vlt.nextId < s.vlt.img.idCeiling) (hw : twf {} s.vlt.props = true) :
    (openProposal t r key pol s).vlt.nextId = s.vlt.nextId + 1 ∧
    propView (propOf (openProposal t r key pol s) s.vlt.nextId) = propView (openedProp t r (maskKey key s).1 pol s) := by
  have hv : (maskKey key s).2.vlt = s.vlt := by rw [maskKey_state]
  rw [openProposal_eq ho hid]
  generalize hd : dmaWriteMps (carrPort s t) _ _ _ _ (propOpened t r (maskKey key s).1 pol s (maskKey key s).2) = d
  have hvd : d.vlt = (propOpened t r (maskKey key s).1 pol s (maskKey key s).2).vlt := by rw [← hd]; simp
  have hprops : d.vlt.props = tput s.vlt.props s.vlt.nextId (openedProp t r (maskKey key s).1 pol s) := by
    rw [hvd, propOpened, updVlt, hv]
  have hnext : d.vlt.nextId = s.vlt.nextId + 1 := by rw [hvd]; rfl
  have hwf : twf {} d.vlt.props = true := by
    rw [hprops]
    exact twf_tput _ _ _ _ hw (by intro h0; cases congrArg Proposal.used h0)
  obtain ⟨-, h1, h2⟩ := propStep_endRel.done t stDone s.vlt.nextId d hwf
  refine ⟨by rw [h2]; exact hnext, ?_⟩
  rw [h1, propOf, hprops, tget_tput_same]

/-- The two shares of a key give the key. -/
theorem maskKey_xor (key : Bytes) (s : State) : xorBytes (maskKey key s).1.1 (maskKey key s).1.2 = key := by
  unfold maskKey
  split
  · next h => simpa [xorBytes] using (List.isEmpty_iff.mp h).symm
  · exact xorBytes_xorBytes _ _ (by simp)

/-- What a PROPOSE with its record and its checks over does (R124, R235-R238). -/
theorem propose_judged (hw : worldServes s 0x30 = true) (hact : s.fwu.activating = false)
    (hid : s.vlt.nextId < s.vlt.img.idCeiling) (hturn : waitsTurn s t = false) (ha : isAt s t 0x30 .running = true)
    (hr : (carrOf s t).record = some r) (hv : vaultLive s = true)
    (hs : (carrOf s t).sigs = some 0 ∨ (carrOf s t).sigs = none ∧ wantsPackage s t r = false) :
    (propPasses s t r = false → exec (.propose t) s = .next (done t stQuorumRejected 0 (giveBack t s))) ∧
    (∀ key, propPasses s t r = true → propDraw r = 0 → importedKey s r = some key →
      exec (.propose t) s = .next (openProposal t r key (governing s t r) s)) ∧
    (propPasses s t r = true → propDraw r ≠ 0 → propDraw r ≤ (carrOf s t).rnd.length →
      exec (.propose t) s = .next (openProposal t r (carrOf s t).rnd (governing s t r) s)) ∧
    (propPasses s t r = true → propDraw r ≠ 0 → (carrOf s t).rnd.length < propDraw r →
      exec (.propose t) s = .next (done t stRngNotSeeded 0 s)) := by
  have hrow := propose_runs hw hact hid hturn ha hr hs
  have hm : modeRefuses s r = false := by simp [modeRefuses, hv]
  rw [hrow]
  refine ⟨fun hp => ?_, fun key hp h0 hk => ?_, fun hp h0 hl => ?_, fun hp h0 hl => ?_⟩
  · simp [runPropose, hr, hm, hp]
  · simp [runPropose, hr, hm, hp, h0, hk]
  · simp [runPropose, hr, hm, hp, h0, Nat.not_lt.mpr hl]
  · simp [runPropose, hr, hm, hp, hl]

/-- What its carriage leaves of a drawn proposal. -/
theorem of_propView {p q : Proposal} (h : propView p = propView q) :
    p.used = q.used ∧ p.state = q.state ∧ p.record = q.record ∧ p.digest = q.digest ∧ propKey p = propKey q :=
  ⟨show (propView p).used = _ by rw [h]; rfl, show (propView p).state = _ by rw [h]; rfl,
    show (propView p).record = _ by rw [h]; rfl, show (propView p).digest = _ by rw [h]; rfl,
    show propKey (propView p) = _ by rw [h]; rfl⟩

/-- A drawn key's proposal stands with the key it holds. -/
theorem openProposal_drawn (hok : tablesOk s = true) (ho : (rOp r == 0x30) = false)
    (hid : s.vlt.nextId < s.vlt.img.idCeiling) {key : Bytes} {pol : Policy} :
    (openProposal t r key pol s).vlt.nextId = s.vlt.nextId + 1 ∧
    (propOf (openProposal t r key pol s) s.vlt.nextId).used = true ∧
    (propOf (openProposal t r key pol s) s.vlt.nextId).state = .open_ ∧
    (propOf (openProposal t r key pol s) s.vlt.nextId).record = r ∧
    propKey (propOf (openProposal t r key pol s) s.vlt.nextId) = key ∧
    (propOf (openProposal t r key pol s) s.vlt.nextId).digest = propDigest s.vlt.nextId r := by
  obtain ⟨-, -, -, -, -, -, -, -, -, -, -, hw, -⟩ := tablesOk_parts s hok
  obtain ⟨hn, hv⟩ := openProposal_spec (t := t) (pol := pol) (key := key) ho hid hw
  obtain ⟨h1, h2, h3, h4, h5⟩ := of_propView hv
  exact ⟨hn, h1, h2, h3, h5.trans (maskKey_xor key s), h4⟩

/-! ### Approvals (R237, R238) -/

/-- An approval whose signature's check is over is judged, where none before it waits. -/
theorem approve_judged (hw : worldServes s 0x31 = true) (ha : isAt s t 0x31 .running = true) {b : Bytes}
    (hr : (carrOf s t).record = some b) (hs : (carrOf s t).sigs = some 0)
    (hb : approvesBefore s (fld (carrOf s t).entry 48 4) (carrOf s t).admCsn = false)
    (hc : (propOf s (fld (carrOf s t).entry 48 4)).committing = false) : exec (.approve t) s = .next (judge t s) := by
  simp only [exec, execApprove]
  rw [if_neg (by simp [hw]), if_neg (by simp [not_admitted_of_running ha]), if_neg (by simp [hs])]
  exact onlyIf_pos (by simp [ha, hr, hs, hb, hc])

/-- A proposal that is used is not the one that an unlisted id shows. -/
theorem prop_ne_default {p : Proposal} (h : p.used = true) : p ≠ {} := by
  rintro rfl
  cases h

/-- The approval of an officer in an open proposal, by its signature and by how many it lacks. -/
theorem judge_open {b : Bytes} (hr : (carrOf s t).record = some b) (hid : fld (carrOf s t).entry 48 4 = id)
    (ho : fld (carrOf s t).entry 52 1 = o) (hu : (propOf s id).used = true) (hst : (propOf s id).state = .open_)
    (he : (carrOf s t).admAt < (propOf s id).end_) (hof : (propOf s id).officers.contains o = true)
    (hact : (tget {} (officersFor s t (propOf s id)) o).state = .active)
    (hno : (propOf s id).approvals.contains o = false)
    (hlen : eLength (carrOf s t).entry = sgnLen (tget {} (officersFor s t (propOf s id)) o).alg) :
    (signedBy (tget {} (officersFor s t (propOf s id)) o).alg (tget {} (officersFor s t (propOf s id)) o).key
        (propOf s id).digest b = false → judge t s = done t stQuorumRejected (quorumWord (propOf s id) 1) s) ∧
    (signedBy (tget {} (officersFor s t (propOf s id)) o).alg (tget {} (officersFor s t (propOf s id)) o).key
        (propOf s id).digest b = true →
      ((propOf s id).approvals.length + 1 < (propOf s id).m →
        judge t s = done t stQuorumPending ((propOf s id).approvals.length + 1 + (propOf s id).m * 2 ^ 8)
          (updProp id (fun p => { p with approvals := p.approvals ++ [o] }) s)) ∧
      ((propOf s id).m ≤ (propOf s id).approvals.length + 1 →
        judge t s = updProp id (fun p => { p with committing := true, by_ := some t })
          (updProp id (fun p => { p with approvals := p.approvals ++ [o] }) s))) := by
  have hlate : tooLate (propOf s id) (carrOf s t) = false := by simp [tooLate, hst, he]
  have hj : judge t s =
      if !signedBy (tget {} (officersFor s t (propOf s id)) o).alg (tget {} (officersFor s t (propOf s id)) o).key
          (propOf s id).digest b then done t stQuorumRejected (quorumWord (propOf s id) 1) s
      else if (propOf s id).approvals.length + 1 < (propOf s id).m then
        done t stQuorumPending (quorumWord (propOf (updProp id (fun p => { p with approvals := p.approvals ++ [o] }) s) id) 0)
          (updProp id (fun p => { p with approvals := p.approvals ++ [o] }) s)
      else updProp id (fun p => { p with committing := true, by_ := some t })
        (updProp id (fun p => { p with approvals := p.approvals ++ [o] }) s) := by
    simp only [judge, hid, ho, hlate, hr]
    rw [if_neg (by simp [hu]), if_neg (by simp [hst]), if_neg (by simp), if_neg (by rw [hof, hact]; decide),
      if_neg (by rw [hno]; decide), if_neg (c := ((propOf s id).state == .closed) = true) (by simp [hst])]
    simp [hlen]
  have hp : propOf (updProp id (fun p => { p with approvals := p.approvals ++ [o] }) s) id =
      { propOf s id with approvals := (propOf s id).approvals ++ [o] } :=
    propOf_updProp_of _ _ _ (prop_ne_default hu)
  rw [hj]
  refine ⟨fun hs => by simp [hs], fun hs => ⟨fun hm => ?_, fun hm => ?_⟩⟩
  · rw [if_neg (by simp [hs]), if_pos hm, hp]
    simp [quorumWord]
  · rw [if_neg (by simp [hs]), if_neg (Nat.not_lt.mpr hm)]

/-- The proposal that an approval completes. -/
theorem propOf_completed (hu : (propOf s id).used = true) :
    propOf (updProp id (fun p => { p with committing := true, by_ := some t })
      (updProp id (fun p => { p with approvals := p.approvals ++ [o] }) s)) id =
      { propOf s id with approvals := (propOf s id).approvals ++ [o], committing := true, by_ := some t } := by
  have hp : propOf (updProp id (fun p => { p with approvals := p.approvals ++ [o] }) s) id =
      { propOf s id with approvals := (propOf s id).approvals ++ [o] } :=
    propOf_updProp_of _ _ _ (prop_ne_default hu)
  rw [propOf_updProp_of, hp]
  rw [hp]
  exact prop_ne_default hu

/-! ### A window that ends (R239) -/

/-- A proposal that no carriage commits closes. -/
theorem closeProp_eq (hu : (propOf s id).used = true) (hs : (propOf s id).state = .open_) (hb : (propOf s id).by_ = none)
    (ho : (propOf s id).outs = []) :
    closeProp id s = updProp id (fun p => { p with
      state := .closed, drawn := [], mask := [], committing := false, by_ := none, begun := false, closedCsn := s.csn }) s := by
  have hp : propOf (updProp id (fun p => { p with
      state := .closed, drawn := [], mask := [], committing := false, by_ := none, begun := false, closedCsn := s.csn }) s) id =
      { propOf s id with
        state := .closed, drawn := [], mask := [], committing := false, by_ := none, begun := false, closedCsn := s.csn } :=
    propOf_updProp_of _ _ _ (prop_ne_default hu)
  simp only [closeProp, hb, dropSign, hp, ho]
  rw [if_neg (by simp [hu, hs])]
  rfl

/-! ### The obligation -/

/-- Settles O45. -/
theorem quorumJudgesProposals : Obligations.QuorumJudgesProposals := by
  unfold Obligations.QuorumJudgesProposals
  refine ⟨fun t s hw hact hid hturn => ⟨fun ha => ?_, fun r ha hr hv => ⟨fun hwp hs => ?_, fun hs => ?_⟩⟩,
    fun t s hw => ?_, maskKey_xor, fun t s hw => ⟨fun ha hl => ?_, fun ha hl => ?_, fun ha hr hs hg => ?_⟩,
    fun t id o b s hok hw ha hr hs hid ho hb hu hst hc he hof hact hno hlen => ?_,
    fun t s ha hw hu => ⟨fun hs => ?_, fun hs he => ?_, fun hs he hc hb => ?_, fun hs => ?_⟩,
    fun id s hok hl hu hs hc hb ho he hlate => ?_⟩
  · have hopen : idsOpen s = true := by simp [idsOpen, hid]
    simp [exec, execPropose, hw, hact, hopen, hturn, ha]
  · have hopen : idsOpen s = true := by simp [idsOpen, hid]
    simp [exec, execPropose, hw, hact, hopen, hturn, not_admitted_of_running ha, ha, hs, hr, hwp]
  · obtain ⟨h1, h2, h3, h4⟩ := propose_judged hw hact hid hturn ha hr hv hs
    refine ⟨h1, fun hp h0 hk => ?_, h2, fun hp h0 hl => ⟨h3 hp h0 hl, fun hok => ⟨_, h3 hp h0 hl, ?_⟩⟩, h4⟩
    · rw [h2 [] hp h0 hk, openProposal_eq (op_of_passes hv hp) hid]
      rfl
    · exact openProposal_drawn hok (op_of_passes hv hp) hid
  · simp only [giveBack, Bool.and_eq_true, beq_iff_eq, decide_eq_true_eq]
    split
    · exact serveAll_of_none hw
    · rfl
  · simp [exec, execApprove, hw, ha, hl]
  · simp [exec, execApprove, hw, ha, hl]
  · simp [exec, execApprove, hw, not_admitted_of_running ha, ha, hr, hs, hg]
  · have hrow := approve_judged hw ha hr hs (by rw [hid]; exact hb) (by rw [hid]; exact hc)
    obtain ⟨h1, h2⟩ := judge_open hr hid ho hu hst he hof hact hno hlen
    rw [hrow]
    refine ⟨fun hs => by rw [h1 hs], fun hs => ⟨fun hm => by rw [(h2 hs).1 hm], fun hm => ?_⟩⟩
    refine ⟨_, by rw [(h2 hs).2 hm], propOf_completed hu, rfl, rfl, rfl, fun i hi => ?_⟩
    rw [propOf_updProp_ne _ _ _ _ hi, propOf_updProp_ne _ _ _ _ hi]
  · refine (onlyIf_pos (by simp [ha, hw])).trans (congrArg Host.Outcome.next ?_)
    simp [hu, hs]
  · refine (onlyIf_pos (by simp [ha, hw])).trans (congrArg Host.Outcome.next ?_)
    simp [hu, hs, he]
  · refine (onlyIf_pos (by simp [ha, hw])).trans (congrArg Host.Outcome.next ?_)
    simp [hu, hs, Nat.not_lt.mpr he, hc, hb]
  · refine (onlyIf_pos (by simp [ha, hw])).trans (congrArg Host.Outcome.next ?_)
    simp [hu, hs]
  · refine ⟨_, (onlyIf_pos (by simp [hl, hu, hs, hc, he, hlate])).trans
      (congrArg Host.Outcome.next (closeProp_eq hu hs hb ho)), propOf_updProp_of _ _ _ (prop_ne_default hu), rfl, rfl, rfl,
      rfl, fun i hi => propOf_updProp_ne _ _ _ _ hi⟩

end Sys2Proof.Proofs
end

section
/-! PROOFS. The event recorder's flushes and its read window (16_event_recorder.md, R328 to R334). -/
namespace Sys2Proof.Proofs

open Sys2Proof.Machine Sys2Proof.Safety Sys2Proof.Laws

variable {p : Port} {r : EvRec} {s : State}

/-! ### The start of a flush -/

/-- The recorder of a flush that starts where the partition has room. -/
def flushBegun (s : State) : Evr :=
  { s.evr with flushing := true, flushAt := s.now, flushTo := s.evr.nextSeq
               flushFrom := if s.evr.flushing then s.evr.flushFrom else s.now }

theorem flushStart_eq (h : s.evr.full = false) : flushStart false s = { s with evr := flushBegun s } := by
  simp [flushStart, h, flushBegun]

/-- Abandoning a key load writes the same record whatever the ports have counted. -/
theorem legAbandon_stats (c : Nat) (x : Both HptStats) (s : State) :
    (legAbandon c { s with stats := x }).evr = (legAbandon c s).evr := by
  unfold legAbandon
  split
  · simp only [legEvent]
    split <;> simp [recordSeq, record, recordAt] <;> split <;> rfl
  · rfl

/-- Counting a write changes no record that it makes. -/
theorem legTouch_cntWr_evr (p : Port) (s : State) : (legTouch p (cntWr p s)).evr = (legTouch p s).evr := by
  have hl : legLate (cntWr p s) = legLate s := rfl
  have hp : (cntWr p s).leg = s.leg := rfl
  unfold legTouch
  rw [hl, hp]
  split
  · exact legAbandon_stats 3 _ s
  · split
    · exact legAbandon_stats 2 _ s
    · rfl

/-- A write that abandons a key load leaves FULL. -/
theorem legTouch_full (p : Port) (s : State) : (legTouch p s).evr.full = s.evr.full := by
  simp only [legTouch, legAbandon]
  split <;> split <;> simp

theorem flush_ends (h : wr p .evr s = true) (hf : s.evr.full = false) :
    exec (.flush p) s = .next { cmdWritten p s with evr := flushBegun (cmdWritten p s) } := by
  have hF : (cmdWritten p s).evr.full = false := by simp [cmdWritten, legTouch_full, hf]
  have he : seqd (legTouch p (cntWr p s)) = cmdWritten p s := rfl
  simp [exec, execFlush, h, hf, seqIf, he, flushStart_eq hF]

/-! ### A flush of one record -/

theorem overflowEnd_none (h : s.evr.ovfEndDue = false) : overflowEnd s = s := by simp [overflowEnd, h]

theorem flushSet_one (hb : s.evr.buf = [r]) (hp : s.gov.pfail = false) (hr : seqFrom s.evr.flushTo r.seq = false) :
    flushSet s = ([r], []) := by
  simp [flushSet, hp, hb, hr]

theorem paginate_one (h : recLen r ≤ 4096) : paginate [r] [] 0 = [[r]] := by simp [paginate, h]

/-- A plain record extends the hash chain, and no seal is due (R330, R331). -/
theorem chainRec_plain (seed : Bytes) (boot now : Nat) (e : Evr) (h1 : r.type ≠ .seal) (h2 : r.type ≠ .sealSig)
    (hc : e.sealCnt + 1 < 4096) : chainRec seed boot now e r = ({ e with
      chain := sha3_256 (chainNow e ++ recBytes r), sinceSeal := e.sinceSeal + 1, sealCnt := e.sealCnt + 1
      lastChained := r.seq, sealFirst := if e.sinceSeal == 0 then r.seq else e.sealFirst }, r) := by
  have hc' : ¬4096 ≤ e.sealCnt + 1 := by omega
  unfold chainRec
  split
  · contradiction
  · contradiction
  · simp [hc']

/-- The recorder after a page of one plain record. -/
def pageWritten (r : EvRec) (e : Evr) : Evr :=
  { e with
    chain := sha3_256 (chainNow e ++ recBytes r), sinceSeal := e.sinceSeal + 1, sealCnt := e.sealCnt + 1
    lastChained := r.seq, sealFirst := if e.sinceSeal == 0 then r.seq else e.sealFirst
    flushed := e.flushed ++ [(e.page, r)], page := e.page + 1, flushedSeq := r.seq, full := false }

theorem flushPages_one (seed : Bytes) (boot now : Nat) (e : Evr) (h1 : r.type ≠ .seal) (h2 : r.type ≠ .sealSig)
    (hc : e.sealCnt + 1 < 4096) (hp : e.page % 64 ≠ 0) (hn : (e.page + 1) % 64 ≠ 0) :
    flushPages seed boot now [[r]] e = (pageWritten r e, [(e.page, [r])]) := by
  have hb : beginBlock e = e := by simp [beginBlock, hp]
  simp [flushPages, pageBlocked, hp, hn, flushPage, hb, chainRec_plain seed boot now e h1 h2 hc, pageWritten]

theorem fullInt_none {w : Bool} (h : s.evr.full = false) : fullInt w s = s := by simp [fullInt, h]

theorem clearCopied_none (h : s.bbr.copied = false) : clearCopied s = s := by simp [clearCopied, h]

/-- The state after a flush of one page inside a block, sent to both devices. -/
def oneFlushed (r : EvRec) (s : State) : State :=
  emit (.eventWrite 1 (eventBlock s.evr.page) (s.evr.page % 64) (pageBytes s.chp.bootCnt [r]))
    (emit (.eventWrite 0 (eventBlock s.evr.page) (s.evr.page % 64) (pageBytes s.chp.bootCnt [r]))
      { s with evr := { pageWritten r { s.evr with buf := [] } with
          freeBlocks := countFree (pageWritten r { s.evr with buf := [] }) } })

theorem flushPlan_one (ho : s.evr.ovfEndDue = false) (hb : s.evr.buf = [r]) (hp : s.gov.pfail = false)
    (hr : seqFrom s.evr.flushTo r.seq = false) (hl : recLen r ≤ 4096) : flushPlan s = [[r]] := by
  simp [flushPlan, overflowEnd_none ho, flushSet_one hb hp hr, paginate_one hl]

theorem flushWrite_one (ho : s.evr.ovfEndDue = false) (hb : s.evr.buf = [r]) (hp : s.gov.pfail = false)
    (hr : seqFrom s.evr.flushTo r.seq = false) (hl : recLen r ≤ 4096) (h1 : r.type ≠ .seal) (h2 : r.type ≠ .sealSig)
    (hc : s.evr.sealCnt + 1 < 4096) (hg : s.evr.page % 64 ≠ 0) (hn : (s.evr.page + 1) % 64 ≠ 0)
    (hk : s.bbr.copied = false) : flushWrite true true s = oneFlushed r s := by
  have hm := flushPages_one (attestSeedOf s) s.chp.bootCnt s.now { s.evr with buf := [] } h1 h2 hc hg hn
  have he : flushPart 1 true true s = clearCopied (fullInt s.evr.full (oneFlushed r s)) := by
    simp only [flushPart, overflowEnd_none ho, flushSet_one hb hp hr, paginate_one hl, List.take_succ_cons, List.take_nil,
      List.drop_succ_cons, List.drop_nil, List.flatten_nil, List.nil_append, hm, List.foldl_cons, List.foldl_nil, if_true]
    simp [sendPage, hg, oneFlushed, emit]
  rw [flushWrite, flushPlan_one ho hb hp hr hl]
  refine he.trans ?_
  rw [fullInt_none (by rfl), clearCopied_none (by simpa [oneFlushed, emit] using hk)]

/-! ### The end of a flush -/

/-- The recorder as a flush ends (R328). -/
def flushOver (now : Nat) (e : Evr) : Evr :=
  { e with flushing := false, flushCnt := satInc 32 e.flushCnt, flushLat := min 0xFFFF (now - e.flushFrom) }

/-- Both devices take a whole flush. -/
theorem flushDone_both {page : Nat} (ho : evrOpen s = true) (hf : s.evr.flushing = true) (hd : evrDevs s = 3) :
    exec (.flushDone true true page) s = .next (updEvr (flushOver s.now) (flushWrite true true s)) := by
  have h0 : bit 3 0 = true := rfl
  have h1 : bit 3 1 = true := rfl
  simp only [exec, execFlushDone]
  exact (onlyIf_pos (by simp [ho, hf])).trans (by simp [hd, h0, h1]; rfl)

theorem evrDevs_of_open (h : s.vlt.mode ≠ .single) : evrDevs s = s.evr.devs := by simp [evrDevs, h]

/-- The recorder `e'` has the stream of `e` on the devices: its pages, its devices and its counts. -/
structure SameStream (e e' : Evr) : Prop where
  flushed : e'.flushed = e.flushed
  page : e'.page = e.page
  devs : e'.devs = e.devs
  flushCnt : e'.flushCnt = e.flushCnt

theorem makeRoom_stream (k n : Nat) (e : Evr) : SameStream e (makeRoom k n e).2 := by
  induction k generalizing e with
  | zero => exact ⟨rfl, rfl, rfl, rfl⟩
  | succ k ih =>
    unfold makeRoom
    split
    · exact ⟨rfl, rfl, rfl, rfl⟩
    · split
      · exact ⟨rfl, rfl, rfl, rfl⟩
      next r rest _ =>
        obtain ⟨h1, h2, h3, h4⟩ := ih (countLost r.seq { e with buf := rest })
        exact ⟨h1, h2, h3, h4⟩

/-- A record that enters the buffer leaves the stream on the devices. -/
theorem push_stream (t : RecType) (time : Nat) (payload : Bytes) (e : Evr) : SameStream e (push t time payload e) := by
  obtain ⟨h1, h2, h3, h4⟩ := makeRoom_stream 64 (recLen { type := t, seq := e.nextSeq, time := time, payload := payload })
    { e with nextSeq := (e.nextSeq + 1) % 2 ^ 32 }
  simp only [push]
  split <;> exact ⟨h1, h2, h3, h4⟩

theorem create_stream (t : RecType) (now time : Nat) (payload : Bytes) (e : Evr) :
    SameStream e (create t now time payload e) := by
  obtain ⟨h1, h2, h3, h4⟩ := push_stream t time payload e
  simp only [create]
  split
  · obtain ⟨k1, k2, k3, k4⟩ := push_stream .overflow now
      (natLe 4 (push t time payload e).ovfFirst ++ zeros 4) (push t time payload e)
    exact ⟨k1.trans h1, k2.trans h2, k3.trans h3, k4.trans h4⟩
  · exact ⟨h1, h2, h3, h4⟩

theorem record_stream (t : RecType) (payload : Bytes) (s : State) : SameStream s.evr (record t payload s).evr := by
  simp only [record, recordAt]
  split
  · exact create_stream t s.now s.now payload s.evr
  · exact ⟨rfl, rfl, rfl, rfl⟩

/-- A page that a device could not take leaves the stream, but for that device. -/
theorem flushFailed_spec (dev seq : Nat) (s : State) : (flushFailed dev seq s).evr.flushed = s.evr.flushed ∧
    (flushFailed dev seq s).evr.page = s.evr.page ∧ (flushFailed dev seq s).evr.flushCnt = s.evr.flushCnt ∧
    (flushFailed dev seq s).evr.devs = s.evr.devs - (if bit s.evr.devs dev then 2 ^ dev else 0) ∧
    (flushFailed dev seq s).out = s.out := by
  obtain ⟨h1, h2, h3, h4⟩ := record_stream .flushFail (natLe 1 dev ++ zeros 3 ++ natLe 4 seq)
    (updEvr (fun e => { e with devs := e.devs - (if bit e.devs dev then 2 ^ dev else 0) }) s)
  exact ⟨h1, h2, h4, h3, by simp [flushFailed, updEvr]⟩

/-- Both devices fail at the flush's first page. -/
theorem flushDone_neither (ho : evrOpen s = true) (hf : s.evr.flushing = true) (hd : evrDevs s = 3)
    (hp : flushPlan s ≠ []) : exec (.flushDone false false 0) s = .next (updEvr (flushOver s.now)
      (flushFailed 1 (((flushPlan s).getD 0 []).headD {}).seq
        (flushFailed 0 (((flushPlan s).getD 0 []).headD {}).seq s))) := by
  have h0 : bit 3 0 = true := rfl
  have h1 : bit 3 1 = true := rfl
  have hl : 0 < (flushPlan s).length := List.length_pos_iff.mpr hp
  simp only [exec, execFlushDone]
  exact (onlyIf_pos (by simp [ho, hf])).trans (by simp [hd, h0, h1, hl]; rfl)

/-- The second device fails at a page that the first takes. -/
theorem flushDone_first {page : Nat} (ho : evrOpen s = true) (hf : s.evr.flushing = true) (hd : evrDevs s = 3)
    (h0 : 0 < page) (hp : page < (flushPlan s).length) :
    exec (.flushDone true false page) s = .next (updEvr (flushOver s.now) (flushWrite true false
      (flushFailed 1 (((flushPlan s).getD page []).headD {}).seq (flushPart page true true s)))) := by
  have hb0 : bit 3 0 = true := rfl
  have hb1 : bit 3 1 = true := rfl
  have hne : page ≠ 0 := by omega
  simp only [exec, execFlushDone]
  exact (onlyIf_pos (by simp [ho, hf])).trans (by simp [hd, hb0, hb1, hp, hne]; rfl)

/-- In a SINGLE vault only the device in use takes the flush. -/
theorem flushDone_single {page : Nat} (ho : evrOpen s = true) (hf : s.evr.flushing = true) (hd : evrDevs s = 1) :
    exec (.flushDone true true page) s = .next (updEvr (flushOver s.now) (flushWrite true false s)) := by
  have h0 : bit 1 0 = true := rfl
  have h1 : bit 1 1 = false := rfl
  simp only [exec, execFlushDone]
  exact (onlyIf_pos (by simp [ho, hf])).trans (by simp [hd, h0, h1]; rfl)

/-! ### The read window -/

theorem recBytes_length (r : EvRec) : (recBytes r).length = recLen r := by
  simp only [recBytes, recLen, List.length_append, natLe_length, padTo_length]
  omega

/-- The records of a window fit 4 KiB with what is in it already. -/
theorem windowRecs_length (l : List EvRec) {n : Nat} (h : n ≤ 4096) :
    n + ((windowRecs l n).map recBytes).flatten.length ≤ 4096 := by
  induction l generalizing n with
  | nil => simpa [windowRecs] using h
  | cons r l ih =>
    unfold windowRecs
    split
    next hr =>
      have := ih hr
      simp only [List.map_cons, List.flatten_cons, List.length_append, recBytes_length]
      omega
    next => simpa using h

/-- Settles O47: each command's outcome is written out once; what a flush writes follows from the plan of its pages, and a
window holds whole records while they fit. -/
theorem eventRecorderFlushesAndReads : Obligations.EventRecorderFlushesAndReads := by
  unfold Obligations.EventRecorderFlushesAndReads
  refine ⟨?_, ?_, ?_, ?_, ?_, ?_, ?_, ?_, ?_⟩
  · intro p s h hf
    have hle := legTouch_cntWr_evr p s
    refine ⟨_, flush_ends h hf, cmdWritten_csn h, ?_, by simp, by simp, (cmdWritten_out p s)⟩
    simp [flushBegun, cmdWritten, hle]
  · intro s ho hf
    refine ⟨fun hp => ?_, fun hn hb => ?_⟩
    · simp only [exec, execFlushPeriodExpiry]
      exact (onlyIf_pos (by simp [ho, hp])).trans (by rw [flushStart_eq hf]; rfl)
    · simp only [exec, execBufferThresholdFlush]
      exact (onlyIf_pos (by simp [ho, hn, hb])).trans (by rw [flushStart_eq hf]; simp [flushBegun, hn])
  · intro r page s ho hv hd hf hp hb h1 h2 h3 hr hl hv2 hg hc hk hfull hn
    refine ⟨_, (flushDone_both ho hf (evrDevs_of_open hv ▸ hd)).trans
      (by rw [flushWrite_one hv2 hb hp hr hl h1 h2 hc hg hn hk]), ?_⟩
    exact ⟨rfl, rfl, rfl, rfl, rfl, rfl, rfl, rfl, rfl, by simp [updEvr, oneFlushed, emit], rfl, rfl, rfl⟩
  · intro page s ho hv hf hd
    exact flushDone_both ho hf (evrDevs_of_open hv ▸ hd)
  · intro page s ho hv hf hd ha
    exact flushDone_single ho hf (by simp [evrDevs, hv, hd, ha])
  · intro page s ho hv hf hd h0 hp
    exact flushDone_first ho hf (evrDevs_of_open hv ▸ hd) h0 hp
  · intro s ho hv hf hd hp
    have hd' : evrDevs s = 3 := evrDevs_of_open hv ▸ hd
    refine ⟨_, flushDone_neither ho hf hd' hp, ?_⟩
    generalize (((flushPlan s).getD 0 []).headD {}).seq = q
    obtain ⟨a1, a2, a3, a4, a5⟩ := flushFailed_spec 0 q s
    obtain ⟨b1, b2, b3, b4, b5⟩ := flushFailed_spec 1 q (flushFailed 0 q s)
    refine ⟨?_, rfl, b1.trans a1, b2.trans a2, ?_, b5.trans a5⟩
    · refine b4.trans ?_
      rw [a4, hd]
      rfl
    · exact congrArg (satInc 32) (b3.trans a3)
  · intro p q s h
    have he : seqd (legTouch p (cntWr p s)) = cmdWritten p s := rfl
    refine ⟨_, by simp only [exec, execCursor, h, if_true, he]; rfl, ?_⟩
    refine ⟨by simp [updWin], by simp [updWin], by simp [updWin], cmdWritten_csn h, ?_, by simp [updWin]⟩
    simp [cmdWritten, updWin, legTouch_cntWr_evr]
  · intro p s hp hf hb
    refine ⟨_, onlyIf_pos (by simp [hp, hf, hb]), ?_⟩
    have hw := windowRecs_length (fromCursor (s.win.get p).evr.cursor (heldRecs s.evr)) (Nat.zero_le 4096)
    refine ⟨by simp [updWin], by simp [updWin], by simp [updWin], ?_, rfl, rfl⟩
    simpa [updWin] using hw

end Sys2Proof.Proofs
end

section
/-! PROOFS. The ends of NVMe commands: a refutation (08_media_fabric_and_shelves.md). -/
namespace Sys2Proof.Proofs

open Sys2Proof.Machine Sys2Proof.Safety

/-- A carriage whose table of segments lists segment 0 twice (`tablesOk` says nothing of that table), and the Read of
drive 0 that its segment still waits for. -/
def twiceListed : State :=
  { chp := { inReset := false, mode := .running }
    mdf := { drives := [(0, { cmds := [(0, { used := true, kind := .segRead 0 0, tag := some 0 })] })] }
    car := { cars := [(0, { stage := .running, segs := [(0, { left := 1 }), (0, { left := 5 })] })] } }

/-- The commands that segment 0 of carriage 0 still waits for after an outcome. -/
def leftAfter (r : Res) : Nat :=
  match r with
  | .next t => (segOf t 0 0).left
  | _ => 0

/-- The segment's entry, back at the default, is deleted; the entry behind it then shows. -/
theorem leftAfter_twiceListed : leftAfter (exec (.nvmeCompletion 0 0 0 0 ⟨false, []⟩) twiceListed) = 5 := by decide

/-- Refutes O41: its first clause has a segment's Read that completes lower the segment's count by one, in every state
with `tablesOk`; but that says nothing of the table of a carriage's segments, and where this lists a segment twice the
older entry shows once the first is gone. -/
theorem not_nvmeCommandsEnd : ¬Obligations.NvmeCommandsEnd := by
  unfold Obligations.NvmeCommandsEnd
  intro h
  obtain ⟨hread, -⟩ := h
  obtain ⟨-, hin⟩ := hread 0 0 0 [] twiceListed (by decide) (by decide) (by decide) (by decide) (by decide) (by decide)
    (by decide) (by decide)
  obtain ⟨-, hseg⟩ := hin (by decide)
  obtain ⟨u, hu, -, -, hleft, -⟩ := hseg 0 0 0 (by decide) (by decide) (by decide)
  have hn := congrArg leftAfter hu
  rw [leftAfter_twiceListed] at hn
  have hl : leftAfter (.next u) = 0 := hleft.trans (by decide)
  exact absurd (hn.trans hl) (by decide)

end Sys2Proof.Proofs
end

section
/-! SUPPORT. The steps of a vault change (10_owners_vault_dual_control.md, R225 to R228). -/
namespace Sys2Proof.Laws

open Sys2Proof.Machine Sys2Proof.Safety

variable {id : Nat} {y : Bytes} {s u : State}

/-- Sending a record changes what was sent alone. -/
theorem sendRec_eq (y : Bytes) (s : State) : sendRec y s = { s with out := (sendRec y s).out } := by
  unfold sendRec
  repeat' split
  all_goals rfl

/-- The record that a change writes. -/
def changeRec (kind : JKind) (id : Nat) (img : VaultImg) (s : State) : Bytes := jrecBytes (vaultMacKey s) (jrec kind id img s)

/-- A change through the devices that take part: record, epoch, floor and CSN (R35, R225). -/
theorem journalWith_spec (ra rb : ProgResult) (kind : JKind) (img : VaultImg) (hF : inFault s = false) :
    (journalWith ra rb kind id img s).vlt = { s.vlt with
      epoch := s.vlt.epoch + 1, img := img
      a := devAppend s.vlt.devA ra (changeRec kind id img s) s.vlt.a
      b := devAppend s.vlt.devB rb (changeRec kind id img s) s.vlt.b } ∧
    (journalWith ra rb kind id img s).csn = s.csn + 1 ∧ (journalWith ra rb kind id img s).bbr.floor = s.vlt.epoch + 1 ∧
    (journalWith ra rb kind id img s).car = s.car ∧ (journalWith ra rb kind id img s).kst = s.kst ∧
    (journalWith ra rb kind id img s).now = s.now ∧ (journalWith ra rb kind id img s).chp = s.chp ∧
    (journalWith ra rb kind id img s).bbr.buffer = s.bbr.buffer := by
  simp only [journalWith]
  rw [sendRec_eq]
  refine ⟨?_, ?_, ?_, ?_, ?_, ?_, ?_, ?_⟩
  · simp [updVlt, changeRec]
  · rw [seqd_csn _ (by simpa [inFault] using hF)]
    simp
  all_goals simp [updVlt]

/-! ### The vault's mode (R228) -/

/-- The vault in another mode, before its open proposals close. -/
def vaultMoved (m : VaultMode) (cause : Nat) (s : State) : State :=
  let gone := m == .locked || m == .empty
  let a := updVlt (fun v => { v with
    mode := m, cause := cause, id := if gone then 0 else v.id, img := if gone then {} else v.img }) s
  setIntBoth 7 (vaultRecord (if gone then updKst (fun k => { k with kek := [] }) a else a))

theorem vaultMoved_vlt (m : VaultMode) (cause : Nat) (s : State) : (vaultMoved m cause s).vlt = { s.vlt with
    mode := m, cause := cause, id := if m == .locked || m == .empty then 0 else s.vlt.id
    img := if m == .locked || m == .empty then {} else s.vlt.img } := by
  unfold vaultMoved
  dsimp only
  split <;> simp [updVlt, updKst]

theorem vaultMoved_frame (m : VaultMode) (cause : Nat) (s : State) : (vaultMoved m cause s).csn = s.csn ∧
    (vaultMoved m cause s).car = s.car ∧ (vaultMoved m cause s).now = s.now ∧ (vaultMoved m cause s).chp = s.chp ∧
    (vaultMoved m cause s).bbr = s.bbr ∧ (vaultMoved m cause s).gov = s.gov := by
  unfold vaultMoved
  dsimp only
  split <;> simp [updVlt, updKst]

theorem vaultMoved_kst {m : VaultMode} (cause : Nat) (hl : m ≠ .locked) (he : m ≠ .empty) (s : State) :
    (vaultMoved m cause s).kst = s.kst := by
  simp [vaultMoved, hl, he, updVlt]

theorem vaultLive_moved (m : VaultMode) (cause : Nat) (s : State) :
    vaultLive (vaultMoved m cause s) = (m == .normal || m == .rebuilding) := by
  rw [vaultLive, vaultMoved_vlt]

theorem vaultTo_eq {m : VaultMode} (cause : Nat) (h : s.vlt.mode ≠ m) : vaultTo m cause s =
    if vaultLive s && !(m == .normal || m == .rebuilding) then closeProps (vaultMoved m cause s)
    else vaultMoved m cause s := by
  have hm : (s.vlt.mode == m) = false := by simpa using h
  rw [← vaultLive_moved m cause s]
  simp only [vaultTo, hm]
  rfl

/-- A vault that was not open, or that stays open, keeps its proposals as it takes another mode. -/
theorem vaultTo_keepsOpen {m : VaultMode} (cause : Nat) (h : s.vlt.mode ≠ m)
    (ho : vaultLive s = false ∨ m = .normal) : vaultTo m cause s = vaultMoved m cause s := by
  rw [vaultTo_eq cause h]
  rcases ho with h | h <;> simp [h]

/-- An open vault whose good device stands alone closes its proposals. -/
theorem vaultTo_single (cause : Nat) (hv : vaultLive s = true) (h : s.vlt.mode ≠ .single) :
    vaultTo .single cause s = closeProps (vaultMoved .single cause s) := by
  rw [vaultTo_eq cause h]
  simp [hv]

end Sys2Proof.Laws
end

section
/-! PROOFS. The vault's commits, its opening and its upkeep (10_owners_vault_dual_control.md). -/
namespace Sys2Proof.Proofs

open Sys2Proof.Machine Sys2Proof.Safety Sys2Proof.Laws

variable {id : Nat} {a b v : ProgResult} {y : Bytes} {s u : State}

/-! ### A commit that begins (R225) -/

theorem commit_begins (h : commitDue id s = true) : exec (.vaultCommit id a b v) s = .next (beginCommit id s) := by
  simp [exec, execVaultCommit, h]

/-- A commit that needs no signature begins with nothing but its mark. -/
theorem beginCommit_spec (hok : tablesOk s = true) (h4 : rOp (propOf s id).record ≠ 0x04) :
    propOf (beginCommit id s) id = { propOf s id with begun := true, begunAt := s.now } ∧
    (beginCommit id s).vlt.epoch = s.vlt.epoch ∧ (beginCommit id s).vlt.img = s.vlt.img ∧
    (beginCommit id s).vlt.a = s.vlt.a ∧ (beginCommit id s).vlt.b = s.vlt.b ∧ (beginCommit id s).csn = s.csn ∧
    (beginCommit id s).out = s.out ∧ ((propOf s id).by_ = none → (beginCommit id s).car = s.car) ∧
    ∀ k, (propOf s id).by_ = some k → carrOf (beginCommit id s) k = { carrOf s k with started := true } := by
  obtain ⟨-, -, -, -, -, -, -, -, -, -, -, hw, -⟩ := tablesOk_parts s hok
  have hp := propOf_updProp id (fun p => { p with begun := true, begunAt := s.now }) s hw
  cases hb : (propOf s id).by_ with
  | none =>
    have he : beginCommit id s = updProp id (fun p => { p with begun := true, begunAt := s.now }) s := by
      simp [beginCommit, h4, hb]
    rw [he]
    exact ⟨hp, rfl, rfl, rfl, rfl, rfl, rfl, fun _ => rfl, nofun⟩
  | some t =>
    have he : beginCommit id s = updCarr t (fun c => { c with started := true })
        (updProp id (fun p => { p with begun := true, begunAt := s.now }) s) := by
      simp [beginCommit, h4, hb]
    rw [he]
    refine ⟨hp, rfl, rfl, rfl, rfl, rfl, rfl, nofun, fun k hk => ?_⟩
    cases hk
    exact carrOf_updCarr_of _ _ _ (fun h0 => by cases congrArg Carriage.started h0)

/-! ### A commit on both devices (R35, R225) -/

/-- The bookkeeping of a commit of which no output waits and which no carriage waits for. -/
def booked (id : Nat) (s : State) : State :=
  updProp id (fun p => { p with by_ := none }) (countCommit (s.now - (propOf s id).begunAt)
    (updProp id (fun p => { p with
      state := .committed, drawn := [], mask := [], committing := false, begun := false }) s))

theorem propOf_countCommit (n i : Nat) (s : State) : propOf (countCommit n s) i = propOf s i := rfl

/-- The proposal as its commit leaves it. -/
def committedProp (p : Proposal) : Proposal :=
  { p with state := .committed, drawn := [], mask := [], committing := false, begun := false, by_ := none }

theorem commitDone_eq (hu : (propOf s id).used = true) (h21 : rOp (propOf s id).record ≠ 0x21)
    (ho : (propOf s id).outs = []) (hb : (propOf s id).by_ = none) : commitDone id s = booked id s := by
  have hp : propOf (countCommit (s.now - (propOf s id).begunAt) (updProp id (fun p => { p with
      state := .committed, drawn := [], mask := [], committing := false, begun := false }) s)) id =
      { propOf s id with state := .committed, drawn := [], mask := [], committing := false, begun := false } := by
    rw [propOf_countCommit]
    exact propOf_updProp_of _ _ _ (prop_ne_default hu)
  simp [commitDone, h21, ho, outputDone, dropSign, hp, hb, booked]

theorem propOf_booked (hu : (propOf s id).used = true) : propOf (booked id s) id = committedProp (propOf s id) := by
  have hp : propOf (countCommit (s.now - (propOf s id).begunAt) (updProp id (fun p => { p with
      state := .committed, drawn := [], mask := [], committing := false, begun := false }) s)) id =
      { propOf s id with state := .committed, drawn := [], mask := [], committing := false, begun := false } := by
    rw [propOf_countCommit]
    exact propOf_updProp_of _ _ _ (prop_ne_default hu)
  rw [booked, propOf_updProp_of, hp]
  · rfl
  · rw [hp]
    exact prop_ne_default hu

theorem propOf_booked_ne {i : Nat} (h : i ≠ id) : propOf (booked id s) i = propOf s i := by
  rw [booked, propOf_updProp_ne _ _ _ _ h, propOf_countCommit, propOf_updProp_ne _ _ _ _ h]

/-- What a commit's bookkeeping leaves of the vault and of the rest. -/
theorem booked_spec (id : Nat) (s : State) : (booked id s).vlt = { s.vlt with
      props := (booked id s).vlt.props, commitCnt := satInc 32 s.vlt.commitCnt, commitAts := (booked id s).vlt.commitAts
      commitLat := min 20000 (s.now - (propOf s id).begunAt) } ∧
    (booked id s).csn = s.csn ∧ (booked id s).bbr = s.bbr ∧ (booked id s).car = s.car ∧ (booked id s).kst = s.kst := by
  unfold booked
  generalize hn : s.now - (propOf s id).begunAt = n
  simp [countCommit, updProp, updVlt]

/-- A commit that begins is followed by the one that ends it. -/
theorem commit_ends (hl : live s = true) (hu : (propOf s id).used = true) (hs : (propOf s id).state = .open_)
    (hg : (propOf s id).begun = true) (ho : (propOf s id).outs = []) (hd : commitDue id s = false)
    (ha : alarmA s = false) : exec (.vaultCommit id a b v) s = .next (
      if rOp (propOf s id).record == 0x04 && !(s.hpt.get (propOf s id).port).up then closeProp id s
      else if rOp (propOf s id).record == 0x30 && !(progOk a && progOk b) then closeProp id s
      else if rOp (propOf s id).record == 0x30 then commitInit id a b s
      else if !progOk a then commitFailA id a (jrecBytes (vaultMacKey s) (commitRec id s)) s
      else if !progOk b then commitFailB id (commitRec id s) a b v s
      else commitNow id a b s) := by
  simp only [exec, execVaultCommit, hd]
  exact onlyIf_pos (by simp [hl, hu, hs, hg, ho, ha])

/-- The operations that change the vault alone, and the bindings of an owner. -/
def plainOps : List Nat := [0x01, 0x05, 0x06, 0x10, 0x11, 0x12, 0x18, 0x19, 0x1B]

/-- After a plain operation's commit at most the bindings change. -/
theorem afterCommit_plain {p : Proposal} {head : Bytes} (h : rOp p.record ∈ plainOps) (s : State) :
    (afterCommit id p head s).vlt = s.vlt ∧ (afterCommit id p head s).csn = s.csn ∧ (afterCommit id p head s).bbr = s.bbr ∧
    (afterCommit id p head s).car = s.car ∧ (afterCommit id p head s).kst = s.kst ∧
    (afterCommit id p head s).now = s.now := by
  simp only [plainOps, List.mem_cons, List.not_mem_nil, or_false] at h
  rcases h with h | h | h | h | h | h | h | h | h <;> simp [afterCommit, h, updSlc]

/-- What a change keeps for the quorum carriages changes no record. -/
theorem changeRec_keepSnap (kind : JKind) (img : VaultImg) (s : State) :
    changeRec kind id img (keepSnap s) = changeRec kind id img s := rfl

/-- The state in which a commit's record is written. -/
def snapKept (id : Nat) (s : State) : State := if changesQuorum (rOp (propOf s id).record) then keepSnap s else s

/-- The state that a plain operation's commit leaves, before its bookkeeping. -/
def written (id : Nat) (a b : ProgResult) (s : State) : State :=
  afterCommit id (propOf s id) (certHead s (rTarget (propOf s id).record) (if rOp (propOf s id).record == 0x02 then 1 else 2)
    id (s.vlt.epoch + 1) (s.csn + 1)) (journalWith a b .commit id (commitImg id s) (snapKept id s))

theorem commitNow_eq (id : Nat) (a b : ProgResult) (s : State) : commitNow id a b s = commitDone id (written id a b s) := rfl

theorem snapKept_spec (id : Nat) (s : State) : (snapKept id s).vlt = { s.vlt with snap := (snapKept id s).vlt.snap } ∧
    (snapKept id s).csn = s.csn ∧ (snapKept id s).car = s.car ∧ (snapKept id s).kst = s.kst ∧
    (snapKept id s).now = s.now ∧ (snapKept id s).chp = s.chp ∧
    ∀ kind img, changeRec kind id img (snapKept id s) = changeRec kind id img s := by
  unfold snapKept
  split
  · exact ⟨rfl, rfl, rfl, rfl, rfl, rfl, fun kind img => changeRec_keepSnap kind img s⟩
  · exact ⟨rfl, rfl, rfl, rfl, rfl, rfl, fun _ _ => rfl⟩

/-- A plain operation's record on both devices, with the contents that it makes (R35, R225). -/
theorem written_spec (h : rOp (propOf s id).record ∈ plainOps) (hF : inFault s = false) (a b : ProgResult) :
    (written id a b s).vlt = { s.vlt with
      snap := (snapKept id s).vlt.snap, epoch := s.vlt.epoch + 1, img := commitImg id s
      a := devAppend s.vlt.devA a (changeRec .commit id (commitImg id s) s) s.vlt.a
      b := devAppend s.vlt.devB b (changeRec .commit id (commitImg id s) s) s.vlt.b } ∧
    (written id a b s).csn = s.csn + 1 ∧ (written id a b s).bbr.floor = s.vlt.epoch + 1 ∧
    (written id a b s).car = s.car ∧ (written id a b s).kst = s.kst ∧ (written id a b s).now = s.now := by
  obtain ⟨hv, hc, hcar, hk, hn, hchp, hrec⟩ := snapKept_spec id s
  obtain ⟨j1, j2, j3, j4, j5, j6, -⟩ := journalWith_spec (id := id) a b .commit (commitImg id s)
    (s := snapKept id s) (by simpa [inFault, hchp] using hF)
  obtain ⟨k1, k2, k3, k4, k5, k6⟩ := afterCommit_plain (id := id) (head := certHead s (rTarget (propOf s id).record)
    (if rOp (propOf s id).record == 0x02 then 1 else 2) id (s.vlt.epoch + 1) (s.csn + 1)) h
    (journalWith a b .commit id (commitImg id s) (snapKept id s))
  have he : (snapKept id s).vlt.epoch = s.vlt.epoch := by rw [hv]
  refine ⟨k1.trans (j1.trans ?_), k2.trans (j2.trans (by rw [hc])), ?_, k4.trans (j4.trans hcar),
    k5.trans (j5.trans hk), k6.trans (j6.trans hn)⟩
  · rw [hrec, hv]
  · exact (congrArg Backup.floor k3).trans (j3.trans (by rw [he]))

theorem commitNow_spec (h : rOp (propOf s id).record ∈ plainOps) (hF : inFault s = false)
    (hu : (propOf s id).used = true) (ho : (propOf s id).outs = []) (hb : (propOf s id).by_ = none) :
    ∃ t, commitNow id a b s = t ∧ t.vlt.epoch = s.vlt.epoch + 1 ∧ t.csn = s.csn + 1 ∧
      t.bbr.floor = s.vlt.epoch + 1 ∧ t.vlt.img = commitImg id s ∧
      t.vlt.a = devAppend s.vlt.devA a (changeRec .commit id (commitImg id s) s) s.vlt.a ∧
      t.vlt.b = devAppend s.vlt.devB b (changeRec .commit id (commitImg id s) s) s.vlt.b ∧
      propOf t id = committedProp (propOf s id) ∧ t.vlt.mode = s.vlt.mode ∧
      t.vlt.commitCnt = satInc 32 s.vlt.commitCnt ∧
      t.vlt.commitLat = min 20000 (s.now - (propOf s id).begunAt) ∧ t.car = s.car ∧ t.kst = s.kst ∧
      ∀ i, i ≠ id → propOf t i = propOf s i := by
  obtain ⟨hv, hc, hfl, hcar, hk, hn⟩ := written_spec h hF a b
  have hp : ∀ i, propOf (written id a b s) i = propOf s i := fun i => by rw [propOf, hv, propOf]
  obtain ⟨b1, b2, b3, b4, b5⟩ := booked_spec id (written id a b s)
  have h21 : rOp (propOf s id).record ≠ 0x21 := fun h0 => by simp [h0, plainOps] at h
  have he : commitNow id a b s = booked id (written id a b s) := by
    rw [commitNow_eq, commitDone_eq] <;> rw [hp] <;> assumption
  refine ⟨_, he, ?_, b2.trans hc, ?_, ?_, ?_, ?_, ?_, ?_, ?_, ?_, b4.trans hcar, b5.trans hk, fun i hi => ?_⟩
  · rw [b1, hv]
  · rw [b3, hfl]
  · rw [b1, hv]
  · rw [b1, hv]
  · rw [b1, hv]
  · rw [propOf_booked (by rwa [hp]), hp]
  · rw [b1, hv]
  · rw [b1, hv]
  · rw [b1, hn, hp]
  · rw [propOf_booked_ne hi, hp]

/-! ### A commit that one device does not take (R226) -/

/-- A proposal closed by a vault that stands alone, or by itself. -/
def closedIn (id : Nat) (s : State) : State := updProp id (fun p => { p with
  state := .closed, drawn := [], mask := [], committing := false, by_ := none, begun := false, closedCsn := s.csn }) s

theorem propOf_closedIn (hu : (propOf s id).used = true) : propOf (closedIn id s) id = { propOf s id with
    state := .closed, drawn := [], mask := [], committing := false, by_ := none, begun := false, closedCsn := s.csn } :=
  propOf_updProp_of _ _ _ (prop_ne_default hu)

theorem closeProp_closed (h : (propOf s id).state = .closed) : closeProp id s = s := by
  simp [closeProp, h]

/-- Where no other proposal is open, closing all and closing this one is one thing. -/
theorem closeProps_one (hu : (propOf s id).used = true) (hs : (propOf s id).state = .open_) (hb : (propOf s id).by_ = none)
    (ho : (propOf s id).outs = []) (hw : twf {} s.vlt.props = true)
    (hn : tkeys s.vlt.props (fun i p => i != id && p.used && p.state == .open_) = []) :
    closeProp id (closeProps s) = closedIn id s := by
  have hc : closeProp id s = closedIn id s := closeProp_eq hu hs hb ho
  have hcc : closeProp id (closedIn id s) = closedIn id s := closeProp_closed (by rw [propOf_closedIn hu])
  have hl : ∀ i ∈ tkeys s.vlt.props (fun _ p => p.used && p.state == .open_), i = id := fun i hi => by
    refine Classical.byContradiction fun hne => ?_
    have hi' := tkeys_spec hw hi
    have hmem : i ∈ tkeys s.vlt.props (fun i p => i != id && p.used && p.state == .open_) :=
      mem_tkeys (d := {}) (fun h0 => by simp [h0] at hi') (by simpa [hne] using hi')
    rw [hn] at hmem
    cases hmem
  have hf : ∀ l : List Nat, (∀ i ∈ l, i = id) →
      l.foldl (fun s i => closeProp i s) (closedIn id s) = closedIn id s := fun l => by
    induction l with
    | nil => exact fun _ => rfl
    | cons i l ih =>
      intro h
      rw [List.foldl_cons, h i List.mem_cons_self, hcc]
      exact ih fun j hj => h j (List.mem_cons_of_mem _ hj)
  unfold closeProps
  revert hl
  cases tkeys s.vlt.props (fun _ p => p.used && p.state == .open_) with
  | nil => exact fun _ => hc
  | cons i l =>
    intro h
    rw [List.foldl_cons, h i List.mem_cons_self, hc, hf l fun j hj => h j (List.mem_cons_of_mem _ hj), hcc]

/-- The vault left to one device with a cause, and the commit abandoned. -/
def leftAlone (id cause : Nat) (s : State) : State := closedIn id (vaultMoved .single cause s)

/-- What an abandoned commit leaves. -/
theorem leftAlone_spec (hu : (propOf s id).used = true) (cause : Nat) : (leftAlone id cause s).vlt = { s.vlt with
      mode := .single, cause := cause, props := (leftAlone id cause s).vlt.props } ∧
    (leftAlone id cause s).csn = s.csn ∧ (propOf (leftAlone id cause s) id).state = .closed ∧
    (propOf (leftAlone id cause s) id).drawn = [] := by
  have hv := vaultMoved_vlt .single cause s
  have hp : propOf (vaultMoved .single cause s) id = propOf s id := by rw [propOf, hv, propOf]
  have hc := propOf_closedIn (s := vaultMoved .single cause s) (id := id) (by rwa [hp])
  obtain ⟨h1, -⟩ := vaultMoved_frame .single cause s
  refine ⟨?_, h1, by rw [leftAlone, hc], by rw [leftAlone, hc]⟩
  calc (leftAlone id cause s).vlt
      = { (vaultMoved .single cause s).vlt with props := (leftAlone id cause s).vlt.props } := rfl
    _ = _ := by rw [hv]; rfl

/-- The vault stands alone after a device failed, in a state `u` that has the proposals of `s`. -/
theorem closeProp_single {cause : Nat} (hu : (propOf u id).used = true) (hs : (propOf u id).state = .open_)
    (hb : (propOf u id).by_ = none) (ho : (propOf u id).outs = []) (hw : twf {} u.vlt.props = true)
    (hn : tkeys u.vlt.props (fun i p => i != id && p.used && p.state == .open_) = []) (hm : u.vlt.mode = .normal) :
    closeProp id (vaultTo .single cause u) = leftAlone id cause u := by
  have hv := vaultMoved_vlt .single cause u
  have hp : propOf (vaultMoved .single cause u) id = propOf u id := by rw [propOf, hv, propOf]
  rw [vaultTo_single cause (by simp [vaultLive, hm]) (by simp [hm]), closeProps_one (by rwa [hp]) (by rwa [hp])
    (by rwa [hp]) (by rwa [hp]) (by rwa [hv]) (by rwa [hv]), leftAlone]

/-- Vault A's failure: what was written on it stands, and vault B goes on alone. -/
theorem commitFailA_eq (hu : (propOf s id).used = true) (hs : (propOf s id).state = .open_) (hb : (propOf s id).by_ = none)
    (ho : (propOf s id).outs = []) (hw : twf {} s.vlt.props = true)
    (hn : tkeys s.vlt.props (fun i p => i != id && p.used && p.state == .open_) = []) (hm : s.vlt.mode = .normal) :
    commitFailA id a y s = leftAlone id 5 (devFailed false (progOne false a y s)) := by
  have hv : vaultLive s = true := by simp [vaultLive, hm]
  simp only [commitFailA, hv, if_true]
  exact closeProp_single hu hs hb ho hw hn hm

/-- The devices after vault B's failure and the VOID record on vault A. -/
def voided (jr : JRec) (a b v : ProgResult) (s : State) : State :=
  progOne false v (jrecBytes (vaultMacKey s) { jr with kind := .void, body := [] })
    (devFailed true (progOne true b (jrecBytes (vaultMacKey s) jr) (progOne false a (jrecBytes (vaultMacKey s) jr) s)))

/-- Vault B's failure, its record cancelled on vault A, which goes on alone. -/
theorem commitFailB_eq {jr : JRec} (hu : (propOf s id).used = true) (hs : (propOf s id).state = .open_)
    (hb : (propOf s id).by_ = none) (ho : (propOf s id).outs = []) (hw : twf {} s.vlt.props = true)
    (hn : tkeys s.vlt.props (fun i p => i != id && p.used && p.state == .open_) = []) (hm : s.vlt.mode = .normal)
    (hp : progOk v = true) : commitFailB id jr a b v s = leftAlone id 6 (voided jr a b v s) := by
  have hv : vaultLive s = true := by simp [vaultLive, hm]
  simp only [commitFailB, hv, hp, if_true]
  exact closeProp_single (u := voided jr a b v s) hu hs hb ho hw hn hm

/-- Without the VOID record the device enters FAULT. -/
theorem commitFailB_fault {jr : JRec} (hl : powered s = true) (hF : inFault s = false) (hp : progOk v = false) :
    (commitFailB id jr a b v s).chp.mode = .fault ∧ (commitFailB id jr a b v s).chp.faultCause = 5 := by
  have he : commitFailB id jr a b v s = enterFault 5 (voided jr a b v s) := by
    simp only [commitFailB, hp]
    exact if_neg (by simp)
  rw [he, enterFault_eq 5 (by simpa [powered, voided, progOne, devFailed, emit, updVlt] using hl)
    (by simpa [inFault, voided, progOne, devFailed, emit, updVlt] using hF)]
  simp [faultShown, faultKeys, faultEnds, atFault]

end Sys2Proof.Proofs
end

section
/-! PROOFS. The vault's opening and its upkeep, and the obligation (10_owners_vault_dual_control.md). -/
namespace Sys2Proof.Proofs

open Sys2Proof.Machine Sys2Proof.Safety Sys2Proof.Laws

variable {mk wk : Bytes} {n : Nat} {s u : State}

/-! ### What an opening finds (R227) -/

theorem openBoth_mode (mk wk : Bytes) (f : Nat) (a b : VaultDev) : (openBoth mk wk f a b).mode ≠ .closed := by
  simp only [openBoth, openAt]
  repeat' split
  all_goals exact nofun

/-- An opening finds some mode for the vault. -/
theorem openVault_mode (s : State) : (openVault s).mode ≠ .closed := by
  have hb := openBoth_mode (vaultMacKey s) (vaultWrapKey s) s.bbr.floor s.vlt.a s.vlt.b
  simp only [openVault]
  repeat' split
  all_goals first | exact hb | exact nofun

theorem openVault_empty (hf : s.fuses.bdEpoch < 255) (hr : s.lcs.state ≠ .return_) (hp : s.lcs.pending = false)
    (hs : noShares s = true) (ha : s.vlt.a.answers = true) (hba : devBlank s.vlt.a = true) (hb : s.vlt.b.answers = true)
    (hbb : devBlank s.vlt.b = true) (hfl : s.bbr.floor = 0) : (openVault s).mode = .empty := by
  have hf' : ¬255 ≤ s.fuses.bdEpoch := by omega
  simp only [openVault]
  rw [if_neg (by simp [hf', hr, hp]), if_pos (by simp [hs, ha, hb, hba, hbb, hfl])]

/-- Two good devices at one epoch, at or past the floor. -/
theorem openVault_normal (hmk : vaultMacKey s = mk) (hwk : vaultWrapKey s = wk) (hf : s.fuses.bdEpoch < 255)
    (hr : s.lcs.state ≠ .return_) (hp : s.lcs.pending = false) (hs : noShares s = false)
    (ha : devGood mk s.vlt.a = true) (hb : devGood mk s.vlt.b = true)
    (he : (devChain mk s.vlt.a).1 = (devChain mk s.vlt.b).1) (hfl : s.bbr.floor ≤ (devChain mk s.vlt.a).1) :
    (openVault s).mode = .normal ∧ (openVault s).epoch = (devChain mk s.vlt.a).1 ∧
      (openVault s).img = imgOf wk (devChain mk s.vlt.a).2 := by
  have hf' : ¬255 ≤ s.fuses.bdEpoch := by omega
  have hm : ¬max (devChain mk s.vlt.a).1 (devChain mk s.vlt.b).1 < s.bbr.floor := by omega
  have ho : openVault s = openBoth mk wk s.bbr.floor s.vlt.a s.vlt.b := by
    simp only [openVault, hmk, hwk, devCode, ha, hb]
    rw [if_neg (by simp [hf', hr, hp]), if_neg (by simp [hs]), if_neg (by simp [hs])]
    rfl
  have hx : openBoth mk wk s.bbr.floor s.vlt.a s.vlt.b = openAt wk (devChain mk s.vlt.a)
      { mode := .normal, a := devCleaned mk s.vlt.a
        b := if (devChain mk s.vlt.a).2 == (devChain mk s.vlt.b).2 then devCleaned mk s.vlt.b
          else devCopy (devCleaned mk s.vlt.a) (devCleaned mk s.vlt.b) } := by
    simp only [openBoth]
    rw [if_neg hm, if_pos (by simp [he])]
  rw [ho, hx]
  exact ⟨rfl, rfl, rfl⟩

/-! ### The alarms copied, and no carriage held (R229, R322) -/

theorem record_eq (t : RecType) (payload : Bytes) (s : State) :
    record t payload s = { s with evr := (record t payload s).evr } := by
  simp only [record, recordAt]
  split <;> rfl

theorem records_eq (l : List Bytes) (s : State) : l.foldl (fun s r => record .alarm r s) s =
    { s with evr := (l.foldl (fun s r => record .alarm r s) s).evr } := by
  induction l generalizing s with
  | nil => rfl
  | cons r l ih =>
    rw [List.foldl_cons, ih, record_eq]

/-- Copying the alarms changes the event recorder, and marks them copied. -/
theorem copyAlarms_eq (s : State) : copyAlarms s = { s with
    evr := (copyAlarms s).evr, bbr := { s.bbr with copied := s.bbr.copied || !s.bbr.buffer.isEmpty } } := by
  unfold copyAlarms
  split
  · next h => simp [h]
  · next h =>
    dsimp only
    rw [records_eq]
    simp [h]

theorem admitHeld_none (h : s.car.cars = []) : admitHeld s = s := by
  simp [admitHeld, takeOrder, h, tkeys]

/-! ### VAULT_OPEN (R227, R229, R236) -/

/-- The devices and the contents that an opening finds. -/
def contentsFound (s : State) : State :=
  let o := openVault s
  let mk := vaultMacKey s
  updVlt (fun v => { v with
    devA := o.devA, devB := o.devB, a := o.a, b := o.b, epoch := o.epoch, replayed := o.replayed
    id := if devGood mk o.a then devId mk o.a else devId mk o.b
    img := o.img, nextId := o.img.idCeiling, firstId := o.img.idCeiling, passAt := s.now
    discarded := min 255 ((if devGood mk s.vlt.a then devDiscards mk s.vlt.a else 0) +
      (if devGood mk s.vlt.b then devDiscards mk s.vlt.b else 0)) }) s

/-- The event floor of an open vault's contents taken over, and its stale copies counted. -/
def floorFound (img : VaultImg) (s : State) : State :=
  if s.vlt.mode == .normal || s.vlt.mode == .rebuilding || s.vlt.mode == .single then
    countPurge (setFloor (if seqFrom img.evrFloor s.evr.floor then s.evr.floor else img.evrFloor) s)
  else s

/-- The next ids reserved where a record can be written. -/
def idsFound (s : State) : State := if vaultLive s && !s.gov.pfail && journalRoom 1 s then reserveIds s else s

/-- The vault marked open. -/
def openMarked (s : State) : State := { s with chp := { s.chp with vaultOpen := true, opened := true } }

theorem execVaultOpen_eq (s : State) : execVaultOpen s =
    onlyIf (live s && !s.chp.vaultOpen) s (admitHeld
      (if s.chp.opened then openMarked (idsFound (floorFound (openVault s).img
          (vaultTo (openVault s).mode (openVault s).cause (contentsFound s))))
        else copyAlarms (openMarked (idsFound (floorFound (openVault s).img
          (vaultTo (openVault s).mode (openVault s).cause (contentsFound s))))))) := rfl

/-- The vault with what an opening finds, in its mode. -/
def vaultFound (s : State) : State := vaultMoved (openVault s).mode (openVault s).cause (contentsFound s)

theorem contentsFound_spec (s : State) :
    (contentsFound s).vlt.devA = (openVault s).devA ∧ (contentsFound s).vlt.devB = (openVault s).devB ∧
    (contentsFound s).vlt.a = (openVault s).a ∧ (contentsFound s).vlt.b = (openVault s).b ∧
    (contentsFound s).vlt.epoch = (openVault s).epoch ∧ (contentsFound s).vlt.nextId = (openVault s).img.idCeiling ∧
    (contentsFound s).vlt.img = (openVault s).img ∧ (contentsFound s).vlt.mode = s.vlt.mode ∧
    (contentsFound s).csn = s.csn ∧ (contentsFound s).car = s.car ∧ (contentsFound s).now = s.now ∧
    (contentsFound s).chp = s.chp ∧ (contentsFound s).bbr = s.bbr ∧ (contentsFound s).gov = s.gov :=
  ⟨rfl, rfl, rfl, rfl, rfl, rfl, rfl, rfl, rfl, rfl, rfl, rfl, rfl, rfl⟩

theorem vaultFound_spec (s : State) :
    (vaultFound s).vlt.mode = (openVault s).mode ∧ (vaultFound s).vlt.cause = (openVault s).cause ∧
    (vaultFound s).vlt.devA = (openVault s).devA ∧ (vaultFound s).vlt.devB = (openVault s).devB ∧
    (vaultFound s).vlt.a = (openVault s).a ∧ (vaultFound s).vlt.b = (openVault s).b ∧
    (vaultFound s).vlt.epoch = (openVault s).epoch ∧ (vaultFound s).vlt.nextId = (openVault s).img.idCeiling ∧
    (vaultFound s).vlt.img =
      (if (openVault s).mode == .locked || (openVault s).mode == .empty then {} else (openVault s).img) ∧
    ((openVault s).mode = .locked ∨ (openVault s).mode = .empty → (vaultFound s).vlt.id = 0) ∧
    (vaultFound s).csn = s.csn ∧ (vaultFound s).car = s.car ∧ (vaultFound s).now = s.now ∧
    (vaultFound s).chp = s.chp ∧ (vaultFound s).bbr = s.bbr ∧ (vaultFound s).gov = s.gov := by
  have hv := vaultMoved_vlt (openVault s).mode (openVault s).cause (contentsFound s)
  have hm := vaultMoved_frame (openVault s).mode (openVault s).cause (contentsFound s)
  obtain ⟨c1, c2, c3, c4, c5, c6, c7, -, hc⟩ := contentsFound_spec s
  simp only [vaultFound]
  rw [hv]
  generalize contentsFound s = c at *
  obtain ⟨d1, d2, d3, d4, d5, d6⟩ := hc
  obtain ⟨m1, m2, m3, m4, m5, m6⟩ := hm
  refine ⟨rfl, rfl, c1, c2, c3, c4, c5, c6, ?_, fun h => ?_, m1.trans d1, m2.trans d2, m3.trans d3, m4.trans d4,
    m5.trans d5, m6.trans d6⟩
  · rw [← c7]
  · rcases h with h | h <;> simp [h]

/-- Counting the stale copies writes a number. -/
theorem countPurge_eq (s : State) : ∃ n, countPurge s = updVlt (fun v => { v with purge := n }) s := ⟨_, rfl⟩

theorem floorFound_eq (img : VaultImg) (s : State) : ∃ n f, floorFound img s = updVlt (fun v => { v with purge := n }) (updEvr f s) := by
  unfold floorFound
  split
  · obtain ⟨n, hn⟩ := countPurge_eq
      (setFloor (if seqFrom img.evrFloor s.evr.floor then s.evr.floor else img.evrFloor) s)
    exact ⟨n, _, hn⟩
  · exact ⟨s.vlt.purge, fun e => e, rfl⟩

/-- Taking over the floor leaves all but the recorder and the purge count. -/
theorem floorFound_spec (img : VaultImg) (s : State) :
    (floorFound img s).vlt = { s.vlt with purge := (floorFound img s).vlt.purge } ∧
    (floorFound img s).csn = s.csn ∧ (floorFound img s).car = s.car ∧ (floorFound img s).now = s.now ∧
    (floorFound img s).chp = s.chp ∧ (floorFound img s).bbr = s.bbr ∧ (floorFound img s).gov = s.gov := by
  obtain ⟨n, f, h⟩ := floorFound_eq img s
  rw [h]
  exact ⟨rfl, rfl, rfl, rfl, rfl, rfl, rfl⟩

/-- The next ids reserved, or nothing. -/
theorem idsFound_spec (hF : inFault s = false) : (idsFound s).vlt.mode = s.vlt.mode ∧
    (idsFound s).vlt.cause = s.vlt.cause ∧ (idsFound s).vlt.devA = s.vlt.devA ∧ (idsFound s).vlt.devB = s.vlt.devB ∧
    (idsFound s).car = s.car ∧ (idsFound s).now = s.now ∧ (idsFound s).chp = s.chp ∧
    (idsFound s).bbr.buffer = s.bbr.buffer := by
  unfold idsFound
  split
  · obtain ⟨h1, -, -, h4, -, h6, h7, h8⟩ := journalWith_spec (id := 0) (.written 0) (.written 0) .reserve
      { s.vlt.img with idCeiling := s.vlt.img.idCeiling + 65536 } hF
    simp only [reserveIds, journal]
    rw [h1]
    exact ⟨rfl, rfl, rfl, rfl, h4, h6, h7, h8⟩
  · exact ⟨rfl, rfl, rfl, rfl, rfl, rfl, rfl, rfl⟩

theorem idsFound_reserves (hF : inFault s = false) (hv : vaultLive s = true) (hp : s.gov.pfail = false)
    (hr : journalRoom 1 s = true) : (idsFound s).csn = s.csn + 1 ∧ (idsFound s).vlt.epoch = s.vlt.epoch + 1 ∧
    (idsFound s).bbr.floor = s.vlt.epoch + 1 ∧ (idsFound s).vlt.nextId = s.vlt.nextId ∧
    (idsFound s).vlt.img.idCeiling = s.vlt.img.idCeiling + 65536 := by
  obtain ⟨h1, h2, h3, -⟩ := journalWith_spec (id := 0) (.written 0) (.written 0) .reserve
    { s.vlt.img with idCeiling := s.vlt.img.idCeiling + 65536 } hF
  have he : idsFound s = reserveIds s := if_pos (by simp [hv, hp, hr])
  rw [he]
  simp only [reserveIds, journal]
  refine ⟨h2, ?_, h3, ?_, ?_⟩ <;> rw [h1]

theorem idsFound_closed (hv : vaultLive s = false) : idsFound s = s := if_neg (by simp [hv])

/-- The vault opened, before the alarms are copied. -/
def vaultOpened (s : State) : State := openMarked (idsFound (floorFound (openVault s).img (vaultFound s)))

/-- The vault opened, the alarms copied in the boot's first open. -/
def vaultShown (s : State) : State := if s.chp.opened then vaultOpened s else copyAlarms (vaultOpened s)

theorem vaultShown_spec (s : State) : (vaultShown s).vlt = (vaultOpened s).vlt ∧ (vaultShown s).csn = (vaultOpened s).csn ∧
    (vaultShown s).car = (vaultOpened s).car ∧ (vaultShown s).now = (vaultOpened s).now ∧
    (vaultShown s).chp = (vaultOpened s).chp ∧ (vaultShown s).bbr.floor = (vaultOpened s).bbr.floor ∧
    (s.chp.opened = false → (vaultOpened s).bbr.buffer ≠ [] → (vaultShown s).bbr.copied = true) := by
  unfold vaultShown
  generalize vaultOpened s = u
  split
  · next h => exact ⟨rfl, rfl, rfl, rfl, rfl, rfl, fun h0 => by simp [h] at h0⟩
  · rw [copyAlarms_eq]
    exact ⟨rfl, rfl, rfl, rfl, rfl, rfl, fun _ hb => by simp [hb]⟩

/-- A closed vault takes the mode that an opening finds. -/
theorem found_of_closed (hm : s.vlt.mode = .closed) :
    vaultTo (openVault s).mode (openVault s).cause (contentsFound s) = vaultFound s := by
  have hc : (contentsFound s).vlt.mode = .closed := hm
  refine vaultTo_keepsOpen _ ?_ (.inl (by simp [vaultLive, hc]))
  rw [hc]
  exact fun h => openVault_mode s h.symm

end Sys2Proof.Proofs
end

section
/-! PROOFS. VAULT_OPEN as a whole, the vault's upkeep, and the obligation (10_owners_vault_dual_control.md). -/
namespace Sys2Proof.Proofs

open Sys2Proof.Machine Sys2Proof.Safety Sys2Proof.Laws

variable {mk : Bytes} {n : Nat} {s u : State}

/-! ### VAULT_OPEN as a whole -/

/-- What an opening leaves of a device that is out of FAULT. -/
theorem vaultOpened_spec (hF : inFault s = false) : (vaultOpened s).vlt.mode = (openVault s).mode ∧
    (vaultOpened s).vlt.cause = (openVault s).cause ∧ (vaultOpened s).vlt.devA = (openVault s).devA ∧
    (vaultOpened s).vlt.devB = (openVault s).devB ∧ (vaultOpened s).car = s.car ∧ (vaultOpened s).now = s.now ∧
    (vaultOpened s).chp.vaultOpen = true ∧ (vaultOpened s).chp.opened = true ∧
    (vaultOpened s).bbr.buffer = s.bbr.buffer := by
  obtain ⟨f1, f2, f3, f4, -, -, -, -, -, -, -, f12, f13, f14, f15, -⟩ := vaultFound_spec s
  obtain ⟨g1, -, g3, g4, g5, g6, -⟩ := floorFound_spec (openVault s).img (vaultFound s)
  have hF' : inFault (floorFound (openVault s).img (vaultFound s)) = false := by rw [inFault, g5, f14]; exact hF
  obtain ⟨i1, i2, i3, i4, i5, i6, -, i8⟩ := idsFound_spec hF'
  simp only [vaultOpened, openMarked]
  rw [i1, i2, i3, i4, i5, i6, i8, g1, g3, g4, g6, f12, f13, f15]
  exact ⟨f1, f2, f3, f4, rfl, rfl, trivial, trivial, rfl⟩

/-- A NORMAL vault that can write reserves the next ids (R236). -/
theorem vaultOpened_normal (hF : inFault s = false) (hm : (openVault s).mode = .normal) (hp : s.gov.pfail = false)
    (ha : ringRoom 1 (openVault s).a = true) (hb : ringRoom 1 (openVault s).b = true) :
    (vaultOpened s).csn = s.csn + 1 ∧ (vaultOpened s).vlt.epoch = (openVault s).epoch + 1 ∧
    (vaultOpened s).bbr.floor = (openVault s).epoch + 1 ∧
    (vaultOpened s).vlt.nextId = (openVault s).img.idCeiling ∧
    (vaultOpened s).vlt.img.idCeiling = (openVault s).img.idCeiling + 65536 := by
  obtain ⟨f1, -, -, -, f5, f6, f7, f8, f9, -, f11, -, -, f14, -, f16⟩ := vaultFound_spec s
  obtain ⟨g1, g2, -, -, g5, -, g7⟩ := floorFound_spec (openVault s).img (vaultFound s)
  have hF' : inFault (floorFound (openVault s).img (vaultFound s)) = false := by rw [inFault, g5, f14]; exact hF
  have hv : vaultLive (floorFound (openVault s).img (vaultFound s)) = true := by rw [vaultLive, g1]; simp [f1, hm]
  have hr : journalRoom 1 (floorFound (openVault s).img (vaultFound s)) = true := by
    rw [journalRoom, g1]
    simp [f5, f6, ha, hb]
  obtain ⟨r1, r2, r3, r4, r5⟩ := idsFound_reserves hF' hv (by rw [g7, f16]; exact hp) hr
  have hi : (vaultFound s).vlt.img = (openVault s).img := by rw [f9, hm]; rfl
  simp only [vaultOpened, openMarked]
  rw [r1, r2, r3, r4, r5, g1, g2, f11, f7, f8, hi]
  exact ⟨rfl, rfl, rfl, rfl, rfl⟩

/-- A vault that is not opened shows nothing. -/
theorem vaultOpened_shut (hm : (openVault s).mode = .locked ∨ (openVault s).mode = .empty) :
    (vaultOpened s).vlt.img = {} ∧ (vaultOpened s).vlt.id = 0 ∧ (vaultOpened s).csn = s.csn := by
  obtain ⟨f1, -, -, -, -, -, -, -, f9, f10, f11, -⟩ := vaultFound_spec s
  obtain ⟨g1, g2, -⟩ := floorFound_spec (openVault s).img (vaultFound s)
  have hv : vaultLive (floorFound (openVault s).img (vaultFound s)) = false := by
    rw [vaultLive, g1]
    rcases hm with h | h <;> simp [f1, h]
  simp only [vaultOpened, openMarked]
  rw [idsFound_closed hv, g1, g2, f11, f9, f10 hm]
  rcases hm with h | h <;> simp [h]

theorem vaultOpen_ends (hl : live s = true) (hF : inFault s = false) (ho : s.chp.vaultOpen = false)
    (hm : s.vlt.mode = .closed) (hc : s.car.cars = []) : exec .vaultOpen s = .next (vaultShown s) := by
  have hcar : (vaultShown s).car.cars = [] := by
    obtain ⟨-, -, h1, -⟩ := vaultShown_spec s
    obtain ⟨-, -, -, -, h2, -⟩ := vaultOpened_spec hF
    rw [h1, h2, hc]
  have he : exec .vaultOpen s = execVaultOpen s := rfl
  rw [he, execVaultOpen_eq, found_of_closed hm, onlyIf_pos (by simp [hl, ho])]
  exact congrArg Host.Outcome.next (admitHeld_none hcar)

/-! ### Rebuilding, settling and scrubbing (R227, R230, R231) -/

/-- The devices with the one that was rebuilt. -/
def rebuilt (s : State) : State := updVlt (fun v => { v with
  a := if v.devA == 3 then devCopy v.b v.a else v.a, b := if v.devB == 3 then devCopy v.a v.b else v.b
  devA := 0, devB := 0 }) s

theorem rebuild_ends (hl : live s = true) (hm : s.vlt.mode = .rebuilding) :
    ∃ n, exec .vaultRebuildDone s = .next (vaultMoved .normal 0 (updVlt (fun v => { v with purge := n }) (rebuilt s))) := by
  obtain ⟨n, hn⟩ := countPurge_eq (rebuilt s)
  refine ⟨n, ?_⟩
  rw [← hn, ← vaultTo_keepsOpen 0 (by rw [hn]; simp [rebuilt, updVlt, hm]) (.inr rfl)]
  exact onlyIf_pos (by simp [hl, hm])

/-- A change's record depends on the vault's key, epoch and contents, and on the boot. -/
theorem changeRec_congr {kind : JKind} {id : Nat} {img : VaultImg} (hb : u.bbr = s.bbr) (hc : u.chp = s.chp)
    (he : u.vlt.epoch = s.vlt.epoch) (hi : u.vlt.img = s.vlt.img) : changeRec kind id img u = changeRec kind id img s := by
  simp only [changeRec, vaultMacKey, vaultWrapKey, vaultKey, jrec, hb, hc, he, hi]

/-- The devices with their committed patches in the record area. -/
def settledDevs (mk : Bytes) (s : State) : State := updVlt (fun v => { v with
  a := settleDev mk v.devA (upkeepFails s) s.vlt.epoch v.a
  b := settleDev mk v.devB (upkeepFails (draw s)) s.vlt.epoch v.b }) (draw (draw s))

theorem settle_ends (hl : live s = true) (hv : vaultLive s = true ∨ s.vlt.mode = .single) (hp : s.gov.pfail = false)
    (hr : commitRuns s = false) (ha : alarmA s = false) (hmk : vaultMacKey s = mk)
    (hd : takesPart s.vlt.devA = true ∧ journalDue mk s.vlt.a = true ∨
      takesPart s.vlt.devB = true ∧ journalDue mk s.vlt.b = true) :
    ∃ n, exec .vaultSettle s = .next (updVlt (fun v => { v with purge := n })
      (journal .settled 0 { s.vlt.img with settledEpoch := s.vlt.epoch } (settledDevs mk s))) := by
  obtain ⟨n, hn⟩ := countPurge_eq (journal .settled 0 { s.vlt.img with settledEpoch := s.vlt.epoch } (settledDevs mk s))
  refine ⟨n, ?_⟩
  have hc : (live s && (vaultLive s || s.vlt.mode == .single) && !s.gov.pfail && !commitRuns s && !alarmA s &&
      ((takesPart s.vlt.devA && journalDue mk s.vlt.a) || (takesPart s.vlt.devB && journalDue mk s.vlt.b))) = true := by
    simp [hl, hv, hp, hr, ha, hd]
  rw [← hn]
  subst hmk
  exact onlyIf_pos hc

/-- Writes sent one after another. -/
theorem foldl_emit {α : Type} (f : α → Output) (l : List α) (s : State) :
    l.foldl (fun s x => emit (f x) s) s = { s with out := s.out ++ l.map f } := by
  induction l generalizing s with
  | nil => simp
  | cons x l ih => rw [List.foldl_cons, ih]; simp [emit]

/-- What a scrub sends to a device. -/
theorem scrubDev_eq (code dev lo hi : Nat) (d : VaultDev) (s : State) : scrubDev code dev lo hi d s = { s with
    out := s.out ++ if takesPart code then (passPages lo hi d).map (fun p => Output.vaultWrite dev (p.data ++ p.spare))
      else [] } := by
  unfold scrubDev
  split
  · exact foldl_emit _ _ s
  · simp

/-- A report starts a new pass. -/
def passFresh (n : Nat) (s : State) : Bool :=
  s.vlt.passPct == 100 || n < s.vlt.passPct || s.now ≥ s.vlt.passAt + passBound s

/-- The vault after a scrub's report. -/
def scrubbedVlt (n : Nat) (s : State) (v : Vault) : Vault :=
  { v with
    passPct := n, passAt := if passFresh n s then s.now else v.passAt
    passes := if n == 100 then satInc 16 v.passes else v.passes
    a := blocksFail (upkeepFails s) 0 v.a, b := blocksFail (upkeepFails (draw s)) 0 v.b }

theorem scrub_ends (hl : live s = true) (hv : vaultLive s = true ∨ s.vlt.mode = .single) (hp : s.gov.pfail = false)
    (hn : n ≤ 100) : exec (.vaultScrub n) s = .next (updVlt (scrubbedVlt n s)
      (scrubDev s.vlt.devB 1 (if passFresh n s then 0 else s.vlt.passPct) n s.vlt.b
        (scrubDev s.vlt.devA 0 (if passFresh n s then 0 else s.vlt.passPct) n s.vlt.a (draw (draw s))))) := by
  have hc : (live s && (vaultLive s || s.vlt.mode == .single) && n ≤ 100 && !s.gov.pfail) = true := by
    simp [hl, hv, hp, hn]
  exact onlyIf_pos hc

/-! ### The obligation -/

/-- Settles O46: a commit is its record on the devices and its bookkeeping; an opening takes what the recovery table gives
step by step; the upkeep writes to the devices alone. -/
theorem vaultCommitsOpensAndIsKept : Obligations.VaultCommitsOpensAndIsKept := by
  unfold Obligations.VaultCommitsOpensAndIsKept
  refine ⟨fun id a b v s hok hd h4 => ⟨_, commit_begins hd, beginCommit_spec hok h4⟩, ?_, ?_, ?_, ?_, ?_, ?_, ?_⟩
  · intro id s hl hu hs hg ho hd ha y hy
    have hF := inFault_of_live hl
    have hpow : powered s = true := by
      simp only [live, Bool.and_eq_true] at hl
      exact hl.1
    have hrow := fun a b v => commit_ends (a := a) (b := b) (v := v) hl hu hs hg ho hd ha
    refine ⟨fun a b v ha hb => ⟨fun _ hby hop => ?_, fun h30 h4 => ?_, fun h30 => ?_⟩, fun a b v hab h30 => ?_,
      fun a b v h4 hup => ?_, fun hok h10 hby hm hn => ?_⟩
    · obtain ⟨t, ht, h1, h2, h3, h5, h6, h7, h8, h9, h10, h11, h12, h13, h14⟩ :=
        commitNow_spec (a := a) (b := b) hop hF hu ho hby
      have hne4 : rOp (propOf s id).record ≠ 0x04 := fun h0 => by simp [h0] at hop
      have hne30 : rOp (propOf s id).record ≠ 0x30 := fun h0 => by simp [h0] at hop
      have hy' : changeRec .commit id (commitImg id s) s = y := hy
      rw [hy'] at h6 h7
      refine ⟨t, (hrow a b v).trans ?_, h1, h2, h3, h5, h6, h7, by rw [h8]; rfl, by rw [h8]; rfl, by rw [h8]; rfl,
        by rw [h8]; rfl, by rw [h8]; rfl, h9, h10, h11, h12, h13, h14⟩
      rw [if_neg (by simp [hne4]), if_neg (by simp [hne30]), if_neg (by simp [hne30]), if_neg (by simp [ha]),
        if_neg (by simp [hb]), ht]
    · refine (hrow a b v).trans ?_
      rw [if_neg (by simpa using h4), if_neg (by simp [h30]), if_neg (by simp [h30]), if_neg (by simp [ha]),
        if_neg (by simp [hb])]
    · refine (hrow a b v).trans ?_
      rw [if_neg (by simp [h30]), if_neg (by simp [ha, hb]), if_pos (by simp [h30])]
    · refine (hrow a b v).trans ?_
      rw [if_neg (by simp [h30]), if_pos (by rcases hab with h | h <;> simp [h30, h])]
    · refine (hrow a b v).trans ?_
      rw [if_pos (by simp [h4, hup])]
    · obtain ⟨-, -, -, -, -, -, -, -, -, -, -, hw, -⟩ := tablesOk_parts s hok
      have hrow' := fun a b v => (hrow a b v).trans (by
        rw [if_neg (by simp [h10]), if_neg (by simp [h10]), if_neg (by simp [h10]), hy])
      refine ⟨fun a b v ha => ?_, fun a b v ha hb hv => ?_, fun a b v ha hb hv => ?_⟩
      · obtain ⟨h1, h2, h3, h4⟩ := leftAlone_spec (s := devFailed false (progOne false a y s)) hu 5
        refine ⟨_, (hrow' a b v).trans (by
          rw [if_pos (by simp [ha]), commitFailA_eq hu hs hby ho hw hn hm]), ?_⟩
        rw [h1, h2, h3, h4]
        exact ⟨rfl, rfl, rfl, rfl, rfl, rfl, rfl, rfl, rfl, rfl⟩
      · obtain ⟨h1, h2, h3, h4⟩ := leftAlone_spec (s := voided (commitRec id s) a b v s) hu 6
        refine ⟨_, (hrow' a b v).trans (by
          rw [if_neg (by simp [ha]), if_pos (by simp [hb]), commitFailB_eq hu hs hby ho hw hn hm hv]), ?_⟩
        rw [h1, h2, h3, voided, hy]
        exact ⟨rfl, rfl, rfl, rfl, rfl, rfl, rfl, rfl, rfl⟩
      · exact ⟨_, (hrow' a b v).trans (by rw [if_neg (by simp [ha]), if_pos (by simp [hb])]),
          commitFailB_fault hpow hF hv⟩
  · intro s hl ho hm hc
    have hF := inFault_of_live hl
    obtain ⟨a1, a2, a3, a4, a5, a6, a7⟩ := vaultShown_spec s
    obtain ⟨b1, b2, b3, b4, b5, b6, b7, b8, b9⟩ := vaultOpened_spec hF
    refine ⟨_, vaultOpen_ends hl hF ho hm hc, ?_⟩
    rw [a1, a2, a3, a4, a5, a6]
    refine ⟨b7, b1, b2, b3, b4, b5, b6, b8, fun hb hop => a7 hop (by rwa [b9]), fun hn hp ha hb => ?_, fun hm => ?_⟩
    · exact vaultOpened_normal hF hn hp ha hb
    · exact vaultOpened_shut hm
  · intro s hf hr hp hs ha hba hb hbb hfl
    exact openVault_empty hf hr hp hs ha hba hb hbb hfl
  · intro mk wk s hmk hwk hf hr hp hs ha hb he hfl
    exact openVault_normal hmk hwk hf hr hp hs ha hb he hfl
  · intro s hl hm
    obtain ⟨n, hn⟩ := rebuild_ends hl hm
    have hv := vaultMoved_vlt .normal 0 (updVlt (fun v => { v with purge := n }) (rebuilt s))
    obtain ⟨h1, h2, -⟩ := vaultMoved_frame .normal 0 (updVlt (fun v => { v with purge := n }) (rebuilt s))
    have hk := vaultMoved_kst 0 (m := .normal) nofun nofun (updVlt (fun v => { v with purge := n }) (rebuilt s))
    refine ⟨_, hn, ?_⟩
    rw [hv, h1, h2, hk]
    refine ⟨rfl, rfl, rfl, fun hb ha => ?_, fun ha hb => ?_, rfl, rfl, rfl, rfl, rfl⟩
    · simp [rebuilt, updVlt, hb, ha]
    · simp [rebuilt, updVlt, hb, ha]
  · intro mk y img s hl hv hp hr ha hmk hd hi hy
    obtain ⟨n, hn⟩ := settle_ends hl hv hp hr ha hmk hd
    have hrec : changeRec .settled 0 img (settledDevs mk s) = y := by
      rw [changeRec_congr (u := settledDevs mk s) (s := s) rfl rfl rfl rfl, changeRec, hmk, hy]
    obtain ⟨j1, j2, j3, j4, j5, -⟩ := journalWith_spec (id := 0) (.written 0) (.written 0) .settled img
      (s := settledDevs mk s) (inFault_of_live hl)
    rw [hi, journal] at hn
    rw [hrec] at j1
    refine ⟨_, hn, ?_⟩
    simp only [updVlt]
    rw [j1, j2, j3, j4, j5]
    exact ⟨rfl, rfl, rfl, rfl, rfl, rfl, rfl, rfl, rfl, rfl⟩
  · intro n s hl hv hp hn
    refine ⟨_, scrub_ends hl hv hp hn, ?_⟩
    rw [scrubDev_eq, scrubDev_eq]
    refine ⟨rfl, ?_, fun h1 h2 h3 => ?_, fun h => ?_, rfl, rfl, rfl, rfl, rfl, rfl⟩
    · simp [updVlt, scrubbedVlt, draw]
    · have hf : passFresh n s = false := by simp [passFresh]; omega
      refine ⟨by simp [updVlt, scrubbedVlt, hf, draw], fun hda hdb => ?_⟩
      simp [updVlt, hf, hda, hdb, takesPart, draw]
    · have hf : passFresh n s = true := by simp [passFresh]; omega
      simp [updVlt, scrubbedVlt, hf]

end Sys2Proof.Proofs
end

section
/-! SUPPORT. What a restart of a world leaves of the state (14_control_worlds.md). -/
namespace Sys2Proof.Laws

open Sys2Proof.Machine Sys2Proof.Safety

/-- What `writePieces` leaves. -/
@[simp] theorem writePieces_frame (p : Port) (pasid : Option Nat) (relaxed : Bool) (l : List (Nat × Nat)) (data : Bytes)
    (s : State) :
    (writePieces p pasid relaxed l data s).pending = s.pending ∧ (writePieces p pasid relaxed l data s).free = s.free ∧
    (writePieces p pasid relaxed l data s).now = s.now ∧ (writePieces p pasid relaxed l data s).csn = s.csn ∧
    (writePieces p pasid relaxed l data s).chp = s.chp ∧ (writePieces p pasid relaxed l data s).pins = s.pins ∧
    (writePieces p pasid relaxed l data s).hpt = s.hpt ∧ (writePieces p pasid relaxed l data s).win = s.win ∧
    (writePieces p pasid relaxed l data s).ttb = s.ttb ∧ (writePieces p pasid relaxed l data s).car = s.car ∧
    (writePieces p pasid relaxed l data s).cay = s.cay ∧ (writePieces p pasid relaxed l data s).mdf = s.mdf ∧
    (writePieces p pasid relaxed l data s).kst = s.kst ∧ (writePieces p pasid relaxed l data s).leg = s.leg ∧
    (writePieces p pasid relaxed l data s).vlt = s.vlt ∧ (writePieces p pasid relaxed l data s).slc = s.slc ∧
    (writePieces p pasid relaxed l data s).evr = s.evr ∧ (writePieces p pasid relaxed l data s).rng = s.rng ∧
    (writePieces p pasid relaxed l data s).lat = s.lat ∧ (writePieces p pasid relaxed l data s).bnv = s.bnv ∧
    (writePieces p pasid relaxed l data s).ucp = s.ucp ∧ (writePieces p pasid relaxed l data s).wld = s.wld ∧
    (writePieces p pasid relaxed l data s).tmp = s.tmp ∧ (writePieces p pasid relaxed l data s).bbr = s.bbr ∧
    (writePieces p pasid relaxed l data s).lcs = s.lcs ∧ (writePieces p pasid relaxed l data s).fuses = s.fuses ∧
    (writePieces p pasid relaxed l data s).mnf = s.mnf ∧ (writePieces p pasid relaxed l data s).flash = s.flash ∧
    (writePieces p pasid relaxed l data s).fwu = s.fwu ∧ (writePieces p pasid relaxed l data s).drb = s.drb ∧
    (writePieces p pasid relaxed l data s).mem = s.mem ∧ (writePieces p pasid relaxed l data s).gov = s.gov ∧
    (writePieces p pasid relaxed l data s).shown = s.shown := by
  induction l generalizing data s with
  | nil => simp [writePieces]
  | cons x l ih => simp [writePieces, ih]

/-- What `ask_` leaves. -/
@[simp] theorem ask__frame (l : Nat) (op : SbOp) (payload : Bytes) (s : State) :
    (ask_ l op payload s).pending = s.pending ∧ (ask_ l op payload s).out = s.out ∧
    (ask_ l op payload s).free = s.free ∧ (ask_ l op payload s).now = s.now ∧ (ask_ l op payload s).csn = s.csn ∧
    (ask_ l op payload s).chp = s.chp ∧ (ask_ l op payload s).pins = s.pins ∧ (ask_ l op payload s).hpt = s.hpt ∧
    (ask_ l op payload s).stats = s.stats ∧ (ask_ l op payload s).win = s.win ∧ (ask_ l op payload s).ttb = s.ttb ∧
    (ask_ l op payload s).car = s.car ∧ (ask_ l op payload s).cay = s.cay ∧ (ask_ l op payload s).kst = s.kst ∧
    (ask_ l op payload s).leg = s.leg ∧ (ask_ l op payload s).vlt = s.vlt ∧ (ask_ l op payload s).slc = s.slc ∧
    (ask_ l op payload s).evr = s.evr ∧ (ask_ l op payload s).rng = s.rng ∧ (ask_ l op payload s).lat = s.lat ∧
    (ask_ l op payload s).bnv = s.bnv ∧ (ask_ l op payload s).ucp = s.ucp ∧ (ask_ l op payload s).wld = s.wld ∧
    (ask_ l op payload s).tmp = s.tmp ∧ (ask_ l op payload s).bbr = s.bbr ∧ (ask_ l op payload s).lcs = s.lcs ∧
    (ask_ l op payload s).fuses = s.fuses ∧ (ask_ l op payload s).mnf = s.mnf ∧
    (ask_ l op payload s).flash = s.flash ∧ (ask_ l op payload s).fwu = s.fwu ∧ (ask_ l op payload s).drb = s.drb ∧
    (ask_ l op payload s).mem = s.mem ∧ (ask_ l op payload s).gov = s.gov ∧
    (ask_ l op payload s).shown = s.shown := by
  simp [ask_]

/-- What `askBoth` leaves. -/
@[simp] theorem askBoth_frame (n : Nat) (op : SbOp) (payload : Bytes) (s : State) :
    (askBoth n op payload s).pending = s.pending ∧ (askBoth n op payload s).out = s.out ∧
    (askBoth n op payload s).free = s.free ∧ (askBoth n op payload s).now = s.now ∧
    (askBoth n op payload s).csn = s.csn ∧ (askBoth n op payload s).chp = s.chp ∧
    (askBoth n op payload s).pins = s.pins ∧ (askBoth n op payload s).hpt = s.hpt ∧
    (askBoth n op payload s).stats = s.stats ∧ (askBoth n op payload s).win = s.win ∧
    (askBoth n op payload s).ttb = s.ttb ∧ (askBoth n op payload s).car = s.car ∧
    (askBoth n op payload s).cay = s.cay ∧ (askBoth n op payload s).kst = s.kst ∧
    (askBoth n op payload s).leg = s.leg ∧ (askBoth n op payload s).vlt = s.vlt ∧
    (askBoth n op payload s).slc = s.slc ∧ (askBoth n op payload s).evr = s.evr ∧
    (askBoth n op payload s).rng = s.rng ∧ (askBoth n op payload s).lat = s.lat ∧
    (askBoth n op payload s).bnv = s.bnv ∧ (askBoth n op payload s).ucp = s.ucp ∧
    (askBoth n op payload s).wld = s.wld ∧ (askBoth n op payload s).tmp = s.tmp ∧
    (askBoth n op payload s).bbr = s.bbr ∧ (askBoth n op payload s).lcs = s.lcs ∧
    (askBoth n op payload s).fuses = s.fuses ∧ (askBoth n op payload s).mnf = s.mnf ∧
    (askBoth n op payload s).flash = s.flash ∧ (askBoth n op payload s).fwu = s.fwu ∧
    (askBoth n op payload s).drb = s.drb ∧ (askBoth n op payload s).mem = s.mem ∧
    (askBoth n op payload s).gov = s.gov ∧ (askBoth n op payload s).shown = s.shown := by
  simp [askBoth]

/-- What `askOff` leaves. -/
@[simp] theorem askOff_frame (n : Nat) (s : State) :
    (askOff n s).pending = s.pending ∧ (askOff n s).out = s.out ∧ (askOff n s).free = s.free ∧
    (askOff n s).now = s.now ∧ (askOff n s).csn = s.csn ∧ (askOff n s).chp = s.chp ∧ (askOff n s).pins = s.pins ∧
    (askOff n s).hpt = s.hpt ∧ (askOff n s).stats = s.stats ∧ (askOff n s).win = s.win ∧ (askOff n s).ttb = s.ttb ∧
    (askOff n s).car = s.car ∧ (askOff n s).cay = s.cay ∧ (askOff n s).kst = s.kst ∧ (askOff n s).leg = s.leg ∧
    (askOff n s).vlt = s.vlt ∧ (askOff n s).slc = s.slc ∧ (askOff n s).evr = s.evr ∧ (askOff n s).rng = s.rng ∧
    (askOff n s).lat = s.lat ∧ (askOff n s).bnv = s.bnv ∧ (askOff n s).ucp = s.ucp ∧ (askOff n s).wld = s.wld ∧
    (askOff n s).tmp = s.tmp ∧ (askOff n s).bbr = s.bbr ∧ (askOff n s).lcs = s.lcs ∧ (askOff n s).fuses = s.fuses ∧
    (askOff n s).mnf = s.mnf ∧ (askOff n s).flash = s.flash ∧ (askOff n s).fwu = s.fwu ∧ (askOff n s).drb = s.drb ∧
    (askOff n s).mem = s.mem ∧ (askOff n s).gov = s.gov ∧ (askOff n s).shown = s.shown := by
  simp [askOff]

/-- What `dropCarriages` leaves. -/
@[simp] theorem dropCarriages_frame (d status : Nat) (f : Carriage → Bool) (s : State) :
    (dropCarriages d status f s).pending = s.pending ∧ (dropCarriages d status f s).free = s.free ∧
    (dropCarriages d status f s).now = s.now ∧ (dropCarriages d status f s).chp = s.chp ∧
    (dropCarriages d status f s).pins = s.pins ∧ (dropCarriages d status f s).hpt = s.hpt ∧
    (dropCarriages d status f s).win = s.win ∧ (dropCarriages d status f s).ttb = s.ttb ∧
    (dropCarriages d status f s).leg = s.leg ∧ (dropCarriages d status f s).ucp = s.ucp ∧
    (dropCarriages d status f s).wld = s.wld ∧ (dropCarriages d status f s).tmp = s.tmp ∧
    (dropCarriages d status f s).bbr = s.bbr ∧ (dropCarriages d status f s).lcs = s.lcs ∧
    (dropCarriages d status f s).fuses = s.fuses ∧ (dropCarriages d status f s).mnf = s.mnf ∧
    (dropCarriages d status f s).flash = s.flash ∧ (dropCarriages d status f s).fwu = s.fwu ∧
    (dropCarriages d status f s).drb = s.drb ∧ (dropCarriages d status f s).mem = s.mem ∧
    (dropCarriages d status f s).gov = s.gov ∧ (dropCarriages d status f s).shown = s.shown := by
  simp [dropCarriages]

/-- What `clearDrive` leaves. -/
@[simp] theorem clearDrive_frame (d : Nat) (s : State) :
    (clearDrive d s).pending = s.pending ∧ (clearDrive d s).out = s.out ∧ (clearDrive d s).free = s.free ∧
    (clearDrive d s).now = s.now ∧ (clearDrive d s).csn = s.csn ∧ (clearDrive d s).chp = s.chp ∧
    (clearDrive d s).pins = s.pins ∧ (clearDrive d s).hpt = s.hpt ∧ (clearDrive d s).stats = s.stats ∧
    (clearDrive d s).win = s.win ∧ (clearDrive d s).ttb = s.ttb ∧ (clearDrive d s).car = s.car ∧
    (clearDrive d s).cay = s.cay ∧ (clearDrive d s).kst = s.kst ∧ (clearDrive d s).leg = s.leg ∧
    (clearDrive d s).vlt = s.vlt ∧ (clearDrive d s).slc = s.slc ∧ (clearDrive d s).evr = s.evr ∧
    (clearDrive d s).rng = s.rng ∧ (clearDrive d s).lat = s.lat ∧ (clearDrive d s).bnv = s.bnv ∧
    (clearDrive d s).ucp = s.ucp ∧ (clearDrive d s).wld = s.wld ∧ (clearDrive d s).tmp = s.tmp ∧
    (clearDrive d s).bbr = s.bbr ∧ (clearDrive d s).lcs = s.lcs ∧ (clearDrive d s).fuses = s.fuses ∧
    (clearDrive d s).mnf = s.mnf ∧ (clearDrive d s).flash = s.flash ∧ (clearDrive d s).fwu = s.fwu ∧
    (clearDrive d s).drb = s.drb ∧ (clearDrive d s).mem = s.mem ∧ (clearDrive d s).gov = s.gov ∧
    (clearDrive d s).shown = s.shown := by
  simp [clearDrive]

/-- What `loseDrives` leaves. -/
@[simp] theorem loseDrives_frame (n : Nat) (s : State) :
    (loseDrives n s).pending = s.pending ∧ (loseDrives n s).free = s.free ∧ (loseDrives n s).now = s.now ∧
    (loseDrives n s).chp = s.chp ∧ (loseDrives n s).pins = s.pins ∧ (loseDrives n s).hpt = s.hpt ∧
    (loseDrives n s).win = s.win ∧ (loseDrives n s).ttb = s.ttb ∧ (loseDrives n s).leg = s.leg ∧
    (loseDrives n s).ucp = s.ucp ∧ (loseDrives n s).wld = s.wld ∧ (loseDrives n s).tmp = s.tmp ∧
    (loseDrives n s).bbr = s.bbr ∧ (loseDrives n s).lcs = s.lcs ∧ (loseDrives n s).fuses = s.fuses ∧
    (loseDrives n s).mnf = s.mnf ∧ (loseDrives n s).flash = s.flash ∧ (loseDrives n s).fwu = s.fwu ∧
    (loseDrives n s).drb = s.drb ∧ (loseDrives n s).mem = s.mem ∧ (loseDrives n s).gov = s.gov ∧
    (loseDrives n s).shown = s.shown := by
  simp [loseDrives]

/-- What `endShelfOp` leaves. -/
@[simp] theorem endShelfOp_frame (n status result : Nat) (s : State) :
    (endShelfOp n status result s).pending = s.pending ∧ (endShelfOp n status result s).free = s.free ∧
    (endShelfOp n status result s).now = s.now ∧ (endShelfOp n status result s).chp = s.chp ∧
    (endShelfOp n status result s).pins = s.pins ∧ (endShelfOp n status result s).hpt = s.hpt ∧
    (endShelfOp n status result s).ttb = s.ttb ∧ (endShelfOp n status result s).leg = s.leg ∧
    (endShelfOp n status result s).wld = s.wld ∧ (endShelfOp n status result s).tmp = s.tmp ∧
    (endShelfOp n status result s).bbr = s.bbr ∧ (endShelfOp n status result s).lcs = s.lcs ∧
    (endShelfOp n status result s).fuses = s.fuses ∧ (endShelfOp n status result s).mnf = s.mnf ∧
    (endShelfOp n status result s).flash = s.flash ∧ (endShelfOp n status result s).fwu = s.fwu ∧
    (endShelfOp n status result s).drb = s.drb ∧ (endShelfOp n status result s).mem = s.mem ∧
    (endShelfOp n status result s).gov = s.gov ∧ (endShelfOp n status result s).shown = s.shown := by
  unfold endShelfOp
  dsimp only
  repeat' split
  all_goals simp

/-- What `dropExchanges` leaves. -/
@[simp] theorem dropExchanges_frame (n : Nat) (s : State) :
    (dropExchanges n s).pending = s.pending ∧ (dropExchanges n s).out = s.out ∧ (dropExchanges n s).free = s.free ∧
    (dropExchanges n s).now = s.now ∧ (dropExchanges n s).csn = s.csn ∧ (dropExchanges n s).chp = s.chp ∧
    (dropExchanges n s).pins = s.pins ∧ (dropExchanges n s).hpt = s.hpt ∧ (dropExchanges n s).stats = s.stats ∧
    (dropExchanges n s).win = s.win ∧ (dropExchanges n s).ttb = s.ttb ∧ (dropExchanges n s).car = s.car ∧
    (dropExchanges n s).cay = s.cay ∧ (dropExchanges n s).kst = s.kst ∧ (dropExchanges n s).leg = s.leg ∧
    (dropExchanges n s).vlt = s.vlt ∧ (dropExchanges n s).slc = s.slc ∧ (dropExchanges n s).evr = s.evr ∧
    (dropExchanges n s).rng = s.rng ∧ (dropExchanges n s).lat = s.lat ∧ (dropExchanges n s).bnv = s.bnv ∧
    (dropExchanges n s).ucp = s.ucp ∧ (dropExchanges n s).wld = s.wld ∧ (dropExchanges n s).tmp = s.tmp ∧
    (dropExchanges n s).bbr = s.bbr ∧ (dropExchanges n s).lcs = s.lcs ∧ (dropExchanges n s).fuses = s.fuses ∧
    (dropExchanges n s).mnf = s.mnf ∧ (dropExchanges n s).flash = s.flash ∧ (dropExchanges n s).fwu = s.fwu ∧
    (dropExchanges n s).drb = s.drb ∧ (dropExchanges n s).mem = s.mem ∧ (dropExchanges n s).gov = s.gov ∧
    (dropExchanges n s).shown = s.shown := by
  simp [dropExchanges]

/-- What `dropShelf` leaves. -/
@[simp] theorem dropShelf_frame (n cause : Nat) (s : State) :
    (dropShelf n cause s).pending = s.pending ∧ (dropShelf n cause s).free = s.free ∧
    (dropShelf n cause s).now = s.now ∧ (dropShelf n cause s).chp = s.chp ∧ (dropShelf n cause s).pins = s.pins ∧
    (dropShelf n cause s).ttb = s.ttb ∧ (dropShelf n cause s).leg = s.leg ∧ (dropShelf n cause s).wld = s.wld ∧
    (dropShelf n cause s).tmp = s.tmp ∧ (dropShelf n cause s).bbr = s.bbr ∧ (dropShelf n cause s).lcs = s.lcs ∧
    (dropShelf n cause s).fuses = s.fuses ∧ (dropShelf n cause s).mnf = s.mnf ∧
    (dropShelf n cause s).flash = s.flash ∧ (dropShelf n cause s).fwu = s.fwu ∧ (dropShelf n cause s).drb = s.drb ∧
    (dropShelf n cause s).mem = s.mem ∧ (dropShelf n cause s).gov = s.gov ∧
    (dropShelf n cause s).shown = s.shown := by
  simp [dropShelf]

/-- What `wakeFail` leaves. -/
@[simp] theorem wakeFail_frame (n cause : Nat) (s : State) :
    (wakeFail n cause s).pending = s.pending ∧ (wakeFail n cause s).free = s.free ∧ (wakeFail n cause s).now = s.now ∧
    (wakeFail n cause s).chp = s.chp ∧ (wakeFail n cause s).pins = s.pins ∧ (wakeFail n cause s).ttb = s.ttb ∧
    (wakeFail n cause s).leg = s.leg ∧ (wakeFail n cause s).wld = s.wld ∧ (wakeFail n cause s).tmp = s.tmp ∧
    (wakeFail n cause s).bbr = s.bbr ∧ (wakeFail n cause s).lcs = s.lcs ∧ (wakeFail n cause s).fuses = s.fuses ∧
    (wakeFail n cause s).mnf = s.mnf ∧ (wakeFail n cause s).flash = s.flash ∧ (wakeFail n cause s).fwu = s.fwu ∧
    (wakeFail n cause s).drb = s.drb ∧ (wakeFail n cause s).mem = s.mem ∧ (wakeFail n cause s).gov = s.gov ∧
    (wakeFail n cause s).shown = s.shown := by
  simp [wakeFail]

/-- What `mediaStop` leaves. -/
@[simp] theorem mediaStop_frame (w : World) (s : State) :
    (mediaStop w s).pending = s.pending ∧ (mediaStop w s).free = s.free ∧ (mediaStop w s).now = s.now ∧
    (mediaStop w s).chp = s.chp ∧ (mediaStop w s).pins = s.pins ∧ (mediaStop w s).ttb = s.ttb ∧
    (mediaStop w s).leg = s.leg ∧ (mediaStop w s).wld = s.wld ∧ (mediaStop w s).tmp = s.tmp ∧
    (mediaStop w s).bbr = s.bbr ∧ (mediaStop w s).lcs = s.lcs ∧ (mediaStop w s).fuses = s.fuses ∧
    (mediaStop w s).mnf = s.mnf ∧ (mediaStop w s).flash = s.flash ∧ (mediaStop w s).fwu = s.fwu ∧
    (mediaStop w s).drb = s.drb ∧ (mediaStop w s).mem = s.mem ∧ (mediaStop w s).gov = s.gov ∧
    (mediaStop w s).shown = s.shown := by
  simp [mediaStop]

/-- What `writeBuffer` leaves. -/
@[simp] theorem writeBuffer_frame (t off : Nat) (data : Bytes) (s : State) :
    (writeBuffer t off data s).pending = s.pending ∧ (writeBuffer t off data s).free = s.free ∧
    (writeBuffer t off data s).now = s.now ∧ (writeBuffer t off data s).csn = s.csn ∧
    (writeBuffer t off data s).chp = s.chp ∧ (writeBuffer t off data s).pins = s.pins ∧
    (writeBuffer t off data s).hpt = s.hpt ∧ (writeBuffer t off data s).win = s.win ∧
    (writeBuffer t off data s).ttb = s.ttb ∧ (writeBuffer t off data s).car = s.car ∧
    (writeBuffer t off data s).cay = s.cay ∧ (writeBuffer t off data s).mdf = s.mdf ∧
    (writeBuffer t off data s).kst = s.kst ∧ (writeBuffer t off data s).leg = s.leg ∧
    (writeBuffer t off data s).vlt = s.vlt ∧ (writeBuffer t off data s).slc = s.slc ∧
    (writeBuffer t off data s).evr = s.evr ∧ (writeBuffer t off data s).rng = s.rng ∧
    (writeBuffer t off data s).lat = s.lat ∧ (writeBuffer t off data s).bnv = s.bnv ∧
    (writeBuffer t off data s).ucp = s.ucp ∧ (writeBuffer t off data s).wld = s.wld ∧
    (writeBuffer t off data s).tmp = s.tmp ∧ (writeBuffer t off data s).bbr = s.bbr ∧
    (writeBuffer t off data s).lcs = s.lcs ∧ (writeBuffer t off data s).fuses = s.fuses ∧
    (writeBuffer t off data s).mnf = s.mnf ∧ (writeBuffer t off data s).flash = s.flash ∧
    (writeBuffer t off data s).fwu = s.fwu ∧ (writeBuffer t off data s).drb = s.drb ∧
    (writeBuffer t off data s).mem = s.mem ∧ (writeBuffer t off data s).gov = s.gov ∧
    (writeBuffer t off data s).shown = s.shown := by
  simp [writeBuffer]

/-- What `saveTorn` leaves. -/
@[simp] theorem saveTorn_frame (t : Nat) (s : State) :
    (saveTorn t s).pending = s.pending ∧ (saveTorn t s).now = s.now ∧ (saveTorn t s).csn = s.csn ∧
    (saveTorn t s).chp = s.chp ∧ (saveTorn t s).pins = s.pins ∧ (saveTorn t s).hpt = s.hpt ∧
    (saveTorn t s).win = s.win ∧ (saveTorn t s).ttb = s.ttb ∧ (saveTorn t s).car = s.car ∧
    (saveTorn t s).cay = s.cay ∧ (saveTorn t s).mdf = s.mdf ∧ (saveTorn t s).kst = s.kst ∧
    (saveTorn t s).leg = s.leg ∧ (saveTorn t s).vlt = s.vlt ∧ (saveTorn t s).slc = s.slc ∧
    (saveTorn t s).evr = s.evr ∧ (saveTorn t s).rng = s.rng ∧ (saveTorn t s).lat = s.lat ∧
    (saveTorn t s).bnv = s.bnv ∧ (saveTorn t s).ucp = s.ucp ∧ (saveTorn t s).wld = s.wld ∧
    (saveTorn t s).tmp = s.tmp ∧ (saveTorn t s).bbr = s.bbr ∧ (saveTorn t s).lcs = s.lcs ∧
    (saveTorn t s).fuses = s.fuses ∧ (saveTorn t s).mnf = s.mnf ∧ (saveTorn t s).flash = s.flash ∧
    (saveTorn t s).fwu = s.fwu ∧ (saveTorn t s).drb = s.drb ∧ (saveTorn t s).mem = s.mem ∧
    (saveTorn t s).gov = s.gov ∧ (saveTorn t s).shown = s.shown := by
  simp [saveTorn]

/-- What `secureStop` leaves. -/
@[simp] theorem secureStop_frame (s : State) :
    (secureStop s).pending = s.pending ∧ (secureStop s).now = s.now ∧ (secureStop s).chp = s.chp ∧
    (secureStop s).pins = s.pins ∧ (secureStop s).ttb = s.ttb ∧ (secureStop s).leg = s.leg ∧
    (secureStop s).tmp = s.tmp ∧ (secureStop s).bbr = s.bbr ∧ (secureStop s).lcs = s.lcs ∧
    (secureStop s).fuses = s.fuses ∧ (secureStop s).mnf = s.mnf ∧ (secureStop s).flash = s.flash ∧
    (secureStop s).fwu = s.fwu ∧ (secureStop s).drb = s.drb ∧ (secureStop s).mem = s.mem ∧
    (secureStop s).gov = s.gov ∧ (secureStop s).shown = s.shown := by
  simp [secureStop]

/-- What `normalStop` leaves. -/
@[simp] theorem normalStop_frame (s : State) :
    (normalStop s).pending = s.pending ∧ (normalStop s).free = s.free ∧ (normalStop s).now = s.now ∧
    (normalStop s).chp = s.chp ∧ (normalStop s).pins = s.pins ∧ (normalStop s).ttb = s.ttb ∧
    (normalStop s).leg = s.leg ∧ (normalStop s).tmp = s.tmp ∧ (normalStop s).bbr = s.bbr ∧
    (normalStop s).lcs = s.lcs ∧ (normalStop s).fuses = s.fuses ∧ (normalStop s).mnf = s.mnf ∧
    (normalStop s).flash = s.flash ∧ (normalStop s).fwu = s.fwu ∧ (normalStop s).drb = s.drb ∧
    (normalStop s).mem = s.mem ∧ (normalStop s).gov = s.gov ∧ (normalStop s).shown = s.shown := by
  simp [normalStop]

/-- What `initAgain` leaves. -/
@[simp] theorem initAgain_frame (s : State) (d : Nat) :
    (initAgain s d).pending = s.pending ∧ (initAgain s d).free = s.free ∧ (initAgain s d).now = s.now ∧
    (initAgain s d).csn = s.csn ∧ (initAgain s d).chp = s.chp ∧ (initAgain s d).pins = s.pins ∧
    (initAgain s d).hpt = s.hpt ∧ (initAgain s d).stats = s.stats ∧ (initAgain s d).win = s.win ∧
    (initAgain s d).ttb = s.ttb ∧ (initAgain s d).car = s.car ∧ (initAgain s d).cay = s.cay ∧
    (initAgain s d).kst = s.kst ∧ (initAgain s d).leg = s.leg ∧ (initAgain s d).vlt = s.vlt ∧
    (initAgain s d).slc = s.slc ∧ (initAgain s d).evr = s.evr ∧ (initAgain s d).rng = s.rng ∧
    (initAgain s d).lat = s.lat ∧ (initAgain s d).bnv = s.bnv ∧ (initAgain s d).ucp = s.ucp ∧
    (initAgain s d).wld = s.wld ∧ (initAgain s d).tmp = s.tmp ∧ (initAgain s d).bbr = s.bbr ∧
    (initAgain s d).lcs = s.lcs ∧ (initAgain s d).fuses = s.fuses ∧ (initAgain s d).mnf = s.mnf ∧
    (initAgain s d).flash = s.flash ∧ (initAgain s d).fwu = s.fwu ∧ (initAgain s d).drb = s.drb ∧
    (initAgain s d).mem = s.mem ∧ (initAgain s d).gov = s.gov ∧ (initAgain s d).shown = s.shown := by
  simp [initAgain]

/-- What `worldRecord` leaves. -/
@[simp] theorem worldRecord_frame (kind who cause outcome n : Nat) (s : State) :
    (worldRecord kind who cause outcome n s).pending = s.pending ∧
    (worldRecord kind who cause outcome n s).out = s.out ∧ (worldRecord kind who cause outcome n s).free = s.free ∧
    (worldRecord kind who cause outcome n s).now = s.now ∧ (worldRecord kind who cause outcome n s).csn = s.csn ∧
    (worldRecord kind who cause outcome n s).chp = s.chp ∧ (worldRecord kind who cause outcome n s).pins = s.pins ∧
    (worldRecord kind who cause outcome n s).hpt = s.hpt ∧ (worldRecord kind who cause outcome n s).stats = s.stats ∧
    (worldRecord kind who cause outcome n s).win = s.win ∧ (worldRecord kind who cause outcome n s).ttb = s.ttb ∧
    (worldRecord kind who cause outcome n s).car = s.car ∧ (worldRecord kind who cause outcome n s).cay = s.cay ∧
    (worldRecord kind who cause outcome n s).mdf = s.mdf ∧ (worldRecord kind who cause outcome n s).kst = s.kst ∧
    (worldRecord kind who cause outcome n s).leg = s.leg ∧ (worldRecord kind who cause outcome n s).vlt = s.vlt ∧
    (worldRecord kind who cause outcome n s).slc = s.slc ∧ (worldRecord kind who cause outcome n s).rng = s.rng ∧
    (worldRecord kind who cause outcome n s).lat = s.lat ∧ (worldRecord kind who cause outcome n s).bnv = s.bnv ∧
    (worldRecord kind who cause outcome n s).ucp = s.ucp ∧ (worldRecord kind who cause outcome n s).wld = s.wld ∧
    (worldRecord kind who cause outcome n s).tmp = s.tmp ∧ (worldRecord kind who cause outcome n s).bbr = s.bbr ∧
    (worldRecord kind who cause outcome n s).lcs = s.lcs ∧ (worldRecord kind who cause outcome n s).fuses = s.fuses ∧
    (worldRecord kind who cause outcome n s).mnf = s.mnf ∧ (worldRecord kind who cause outcome n s).flash = s.flash ∧
    (worldRecord kind who cause outcome n s).fwu = s.fwu ∧ (worldRecord kind who cause outcome n s).drb = s.drb ∧
    (worldRecord kind who cause outcome n s).mem = s.mem ∧ (worldRecord kind who cause outcome n s).gov = s.gov ∧
    (worldRecord kind who cause outcome n s).shown = s.shown := by
  simp [worldRecord]

end Sys2Proof.Laws
end

section
/-! PROOFS. The worlds' failures, restarts and debug halts (14_control_worlds.md, R304 to R310). -/
namespace Sys2Proof.Proofs

open Sys2Proof.Machine Sys2Proof.Safety Sys2Proof.Laws

variable {w : World} {c : Instr} {cause : Nat} {s : State}

/-! ### FAULT out of a world's failure -/

/-- A device that is not in FAULT enters it with the cause. -/
theorem enterFault_chp (cause : Nat) (hl : live s = true) :
    (enterFault cause s).chp.mode = .fault ∧ (enterFault cause s).chp.faultCause = cause := by
  have hp : powered s = true := by
    simp only [live, Bool.and_eq_true] at hl
    exact hl.1
  rw [enterFault_eq cause hp (inFault_of_live hl)]
  simp [faultShown, faultKeys, faultEnds, atFault]

@[simp] theorem live_updWorld (w : World) (f : WorldSt → WorldSt) (s : State) : live (updWorld w f s) = live s := by
  cases w <;> rfl

@[simp] theorem worldOf_updWorld (w : World) (f : WorldSt → WorldSt) (s : State) :
    worldOf (updWorld w f s) w = f (worldOf s w) := by
  cases w <;> rfl

/-! ### A failed world (R304-R306) -/

/-- The failures of a running world, each with its cause. -/
theorem fails_ends (hl : live s = true) (hr : (worldOf s w).state = .running)
    (hc : c = .watchdogExpiry w ∧ cause = 1 ∧ (worldOf s w).kickAt + 1000 * (worldOf s w).wdt ≤ s.now ∨
      c = .worldException w ∧ cause = 2 ∨ c = .monitorCheckFail w ∧ cause = 3) :
    exec c s = .next (worldFail w cause s) := by
  rcases hc with ⟨rfl, rfl, ht⟩ | ⟨rfl, rfl⟩ | ⟨rfl, rfl⟩
  · exact onlyIf_pos (by simp [hl, hr, ht])
  · exact onlyIf_pos (by simp [hl, hr])
  · exact onlyIf_pos (by simp [hl, hr])

/-- The restarts of a world within the last hour. -/
def recentRestarts (w : World) (s : State) : List Nat := (worldOf s w).restarts.filter (fun t => s.now < t + 3600000000)

/-- The failed world marked restarting, every debug enable cleared. -/
def restartMarked (w : World) (cause : Nat) (s : State) : State :=
  grantEnd (updWorld w (fun x => { x with
    state := .restarting, cause := cause, failAt := s.now, restarts := recentRestarts w s ++ [s.now] }) s)

/-- Steps 1 to 4 of the world's restart. -/
def worldStop (w : World) (s : State) : State :=
  match w with
  | .secure => secureStop s
  | .normal => normalStop s

theorem worldFail_restarts (ha : s.fwu.activating = false) (hr : (worldOf s w).state = .running)
    (hn : w = .secure → (recentRestarts w s).length < 4) : worldFail w cause s = worldStop w (restartMarked w cause s) := by
  have h4 : ¬(w == .secure && (recentRestarts w s).length ≥ 4) = true := by
    intro h
    simp only [Bool.and_eq_true, beq_iff_eq, decide_eq_true_eq] at h
    have := hn h.1
    omega
  rw [recentRestarts] at h4
  simp only [worldFail]
  rw [if_neg (by simp [ha]), if_neg (by simp [hr]), if_neg h4]
  cases w <;> rfl

/-- The fifth restart of the secure world within an hour is none. -/
theorem worldFail_fifth (hl : live s = true) (ha : s.fwu.activating = false) (hr : s.wld.secure.state = .running)
    (hn : 4 ≤ (recentRestarts .secure s).length) :
    (worldFail .secure cause s).chp.mode = .fault ∧ (worldFail .secure cause s).chp.faultCause = 4 := by
  have he : worldFail .secure cause s = enterFault 4 (updWorld .secure (fun x => { x with state := .failed }) s) := by
    rw [recentRestarts] at hn
    simp only [worldFail]
    rw [if_neg (by simp [ha]), if_neg (by simp [worldOf, hr]), if_pos (by simpa using hn)]
  rw [he]
  exact enterFault_chp 4 (by simpa using hl)

/-- A failure during a restart. -/
theorem worldFail_again (hl : live s = true) (ha : s.fwu.activating = false) (hr : (worldOf s w).state = .restarting) :
    (worldFail w cause s).chp.mode = .fault ∧ (worldFail w cause s).chp.faultCause = 7 := by
  have he : worldFail w cause s = enterFault 7 (updWorld w (fun x => { x with state := .failed }) s) := by
    simp only [worldFail]
    rw [if_neg (by simp [ha]), if_pos (by simp [hr])]
  rw [he]
  exact enterFault_chp 7 (by simpa using hl)

/-- What a restart leaves of the worlds: the secure one's gates are unmarked. -/
theorem secureStop_wld (s : State) : (secureStop s).wld = { s.wld with
    gates := tmap {} (fun _ g => { g with mark := false }) s.wld.gates
    secure := { s.wld.secure with aborts := (secureRunning s).length + (stopMedia .secure s).length, wiped := true } } := by
  simp [secureStop, updWld]

theorem normalStop_wld (s : State) : (normalStop s).wld =
    { s.wld with normal := { s.wld.normal with aborts := (stopMedia .normal s).length, wiped := true } } := by
  simp [normalStop, updWld]

theorem worldFor_congr {u : State} (h : u.wld.assign = s.wld.assign) (f : WorldFn) : worldFor u f = worldFor s f := by
  cases f <;> simp [worldFor, assigned, h]

@[simp] theorem updWorld_rest (w : World) (f : WorldSt → WorldSt) (s : State) : (updWorld w f s).car = s.car ∧
    (updWorld w f s).vlt = s.vlt ∧ (updWorld w f s).chp = s.chp ∧ (updWorld w f s).csn = s.csn ∧
    (updWorld w f s).kst = s.kst ∧ (updWorld w f s).now = s.now ∧ (updWorld w f s).gov = s.gov ∧
    (updWorld w f s).wld.assign = s.wld.assign := by
  cases w <;> exact ⟨rfl, rfl, rfl, rfl, rfl, rfl, rfl, rfl⟩

theorem restartMarked_rest (w : World) (cause : Nat) (s : State) :
    (restartMarked w cause s).lcs.granted = 0 ∧ (restartMarked w cause s).chp = s.chp ∧
    (restartMarked w cause s).car = s.car ∧ (restartMarked w cause s).vlt = s.vlt ∧
    (restartMarked w cause s).wld.assign = s.wld.assign := by
  simp [restartMarked, grantEnd, updLcs, updRng, updWld]

/-- The mark of a restart, and the end of a grant, leave what the restart ends. -/
theorem stopped_restartMarked (w : World) (cause : Nat) (s : State) :
    secureRunning (restartMarked w cause s) = secureRunning s ∧
    ∀ v, stopMedia v (restartMarked w cause s) = stopMedia v s := by
  obtain ⟨-, -, hc, hv, ha⟩ := restartMarked_rest w cause s
  exact ⟨by simp only [secureRunning, hc, hv], fun v => by simp only [stopMedia, hc, worldFor_congr ha]⟩

theorem restartMarked_secure (cause : Nat) (s : State) :
    (restartMarked .secure cause s).wld = { s.wld with
      dbg := 0, normal := unhalt s.now s.wld.normal
      secure := { s.wld.secure with
        state := .restarting, cause := cause, failAt := s.now, restarts := recentRestarts .secure s ++ [s.now] } } := rfl

theorem restartMarked_normal (cause : Nat) (s : State) :
    (restartMarked .normal cause s).wld = { s.wld with
      dbg := 0, secure := unhalt s.now s.wld.secure
      normal := { s.wld.normal with
        state := .restarting, cause := cause, failAt := s.now, restarts := recentRestarts .normal s ++ [s.now] } } := rfl

/-! ### The end of a restart (R305-R307) -/

/-- A world whose image measured as at boot runs. -/
def worldRuns (now : Nat) (x : WorldSt) : WorldSt :=
  { x with state := .running, wiped := false, kickAt := now, rstCnt := satInc 16 x.rstCnt }

/-- The restart recorded, and the world running again. -/
def restarted (w : World) (s : State) : State :=
  setIntBoth 9 (updWorld w (worldRuns s.now) (worldRecord 1 (worldNum w) (worldOf s w).cause 0 (worldOf s w).aborts s))

/-- The drives of `l` taken up again where the world does so. -/
def drivesTaken (b : Bool) (l : List Nat) (s : State) : State := if b then l.foldl initAgain s else s

theorem restartComplete_right (hl : live s = true) (hr : (worldOf s w).state = .restarting)
    (ht : s.now < (worldOf s w).failAt + 250000) (hm : measureOf w (slotImage s s.fwu.active) = (worldOf s w).meas) :
    exec (.restartComplete w) s = .next (drivesTaken (w == worldFor s .nvmeAdmin) (List.range 512) (restarted w s)) := by
  have hsame : (measureOf w (slotImage s s.fwu.active) == (worldOf s w).meas) = true := by simp [hm]
  simp only [exec, execRestartComplete, hsame]
  exact (onlyIf_pos (by simp [hl, hr, ht])).trans (by simp [restarted, drivesTaken]; rfl)

/-- The restart recorded as failed. -/
def notRestarted (w : World) (s : State) : State :=
  setIntBoth 9 (updWorld w (fun x => { x with
    state := .failed, wiped := false, kickAt := s.now, rstCnt := satInc 16 x.rstCnt })
    (worldRecord 1 (worldNum w) (worldOf s w).cause 1 (worldOf s w).aborts s))

theorem live_notRestarted (w : World) (s : State) : live (notRestarted w s) = live s := by
  simp [live, powered, notRestarted]

theorem restartComplete_wrong (hl : live s = true) (hr : (worldOf s w).state = .restarting)
    (ht : s.now < (worldOf s w).failAt + 250000) (hm : measureOf w (slotImage s s.fwu.active) ≠ (worldOf s w).meas) :
    exec (.restartComplete w) s =
      .next (enterFault (match w with | .secure => 1 | .normal => 2) (notRestarted w s)) := by
  have hsame : (measureOf w (slotImage s s.fwu.active) == (worldOf s w).meas) = false := by simp [hm]
  simp only [exec, execRestartComplete, hsame]
  refine (onlyIf_pos (by simp [hl, hr, ht])).trans ?_
  cases w <;> simp [notRestarted]

theorem restarted_spec (w : World) (s : State) : worldOf (restarted w s) w = worldRuns s.now (worldOf s w) ∧
    (restarted w s).csn = s.csn ∧ (restarted w s).car = s.car ∧ (restarted w s).kst = s.kst := by
  refine ⟨?_, by simp [restarted], by simp [restarted], by simp [restarted]⟩
  cases w <;> simp [restarted, worldOf, updWorld, updWld]

/-- Taking up the drives again leaves the worlds, the CSN, the carriages and the keys. -/
theorem drivesTaken_spec (b : Bool) (l : List Nat) (s : State) : (drivesTaken b l s).wld = s.wld ∧
    (drivesTaken b l s).csn = s.csn ∧ (drivesTaken b l s).car = s.car ∧ (drivesTaken b l s).kst = s.kst := by
  unfold drivesTaken
  split <;> simp

/-! ### Debug halts (R308, R310) -/

theorem jtagSelect_debug (hl : live s = true) : jtagSelect .debug s =
    { s with lcs := { s.lcs with jtag := if jtagOffers s .debug then .debug else .bypass } } := by
  simp only [live, Bool.and_eq_true] at hl
  simp [jtagSelect, hl.1, updLcs]

/-- Selecting the debug instruction leaves what a debugger may do. -/
theorem jtagSelect_spec (hl : live s = true) : live (jtagSelect .debug s) = true ∧
    worldOf (jtagSelect .debug s) = worldOf s ∧ (jtagSelect .debug s).now = s.now ∧
    jtagOffers (jtagSelect .debug s) .debug = jtagOffers s .debug ∧
    dbgEnables (jtagSelect .debug s) = dbgEnables s := by
  rw [jtagSelect_debug hl]
  exact ⟨hl, rfl, rfl, rfl, rfl⟩

theorem debugHalt_ends (hl : live s = true) (hr : (worldOf s w).state = .running) (hj : jtagOffers s .debug = true)
    (hb : bit (dbgEnables s) (invasiveBit w) = true) : exec (.debugHalt w) s =
      .next (updWorld w (fun x => { x with state := .halted, haltAt := s.now }) (jtagSelect .debug s)) := by
  obtain ⟨h1, h2, h3, h4, h5⟩ := jtagSelect_spec hl
  rw [← h3]
  exact onlyIf_pos (by simp [debugMay, h1, h2, h4, h5, hj, hb, hr])

theorem debugResume_ends (hl : live s = true) (hr : (worldOf s w).state = .halted) : exec (.debugResume w) s =
    .next (updWorld w (fun x => { x with state := .running, kickAt := x.kickAt + (s.now - x.haltAt) })
      (jtagSelect .debug s)) := by
  obtain ⟨h1, h2, h3, -⟩ := jtagSelect_spec hl
  refine (onlyIf_pos (by simp [h1, h2, hr])).trans (congrArg Host.Outcome.next ?_)
  rw [h3]
  have hr' : (worldOf (jtagSelect .debug s) w).state = .halted := by rw [h2, hr]
  cases w <;> simp only [worldOf] at hr' <;> simp [updWorld, updWld, unhalt, hr']

/-- What a world's failure leaves, once it restarts. -/
theorem worldStop_spec (w : World) (cause : Nat) (s : State) :
    (worldOf (worldStop w (restartMarked w cause s)) w).state = .restarting ∧
    (worldOf (worldStop w (restartMarked w cause s)) w).cause = cause ∧
    (worldOf (worldStop w (restartMarked w cause s)) w).failAt = s.now ∧
    (worldOf (worldStop w (restartMarked w cause s)) w).wiped = true ∧
    (worldOf (worldStop w (restartMarked w cause s)) w).restarts = recentRestarts w s ++ [s.now] ∧
    (worldOf (worldStop w (restartMarked w cause s)) w).rstCnt = (worldOf s w).rstCnt ∧
    (worldStop w (restartMarked w cause s)).wld.dbg = 0 ∧ (worldStop w (restartMarked w cause s)).lcs.granted = 0 ∧
    (worldStop w (restartMarked w cause s)).chp.mode = s.chp.mode ∧
    (w = .secure → (worldOf (worldStop w (restartMarked w cause s)) w).aborts =
        (secureRunning s).length + (stopMedia .secure s).length ∧
      (worldStop w (restartMarked w cause s)).wld.normal = unhalt s.now s.wld.normal) ∧
    (w = .normal → (worldOf (worldStop w (restartMarked w cause s)) w).aborts = (stopMedia .normal s).length ∧
      (worldStop w (restartMarked w cause s)).wld.secure = unhalt s.now s.wld.secure) := by
  obtain ⟨h1, h2, -⟩ := restartMarked_rest w cause s
  obtain ⟨h3, h4⟩ := stopped_restartMarked w cause s
  cases w with
  | secure =>
    simp [worldStop, worldOf, secureStop_wld, restartMarked_secure, h3, h4, h1, h2]
  | normal =>
    simp [worldStop, worldOf, normalStop_wld, restartMarked_normal, h4, h1, h2]

/-! ### The obligation -/

/-- Settles O49: each failure is `worldFail`, whose four ends are taken in turn; what a restart stops leaves the worlds. -/
theorem worldsFailAndRestartAlone : Obligations.WorldsFailAndRestartAlone := by
  unfold Obligations.WorldsFailAndRestartAlone
  refine ⟨fun c w cause s hl ha hr hc hn => ?_, fun c s hl ha hr hn hc => ?_, fun w s hl hr => ?_, fun w s hl => ?_⟩
  · exact ⟨_, (fails_ends hl hr hc).trans (congrArg Host.Outcome.next (worldFail_restarts ha hr hn)),
      worldStop_spec w cause s⟩
  · have hcause : ∃ cause, c = .watchdogExpiry .secure ∧ cause = 1 ∧
        (worldOf s .secure).kickAt + 1000 * (worldOf s .secure).wdt ≤ s.now ∨
        c = .worldException .secure ∧ cause = 2 ∨ c = .monitorCheckFail .secure ∧ cause = 3 := by
      rcases hc with h | h | ⟨h, ht⟩
      · exact ⟨2, .inr (.inl ⟨h, rfl⟩)⟩
      · exact ⟨3, .inr (.inr ⟨h, rfl⟩)⟩
      · exact ⟨1, .inl ⟨h, rfl, ht⟩⟩
    obtain ⟨cause, hcause⟩ := hcause
    exact ⟨_, fails_ends (w := .secure) hl hr hcause, worldFail_fifth hl ha hr hn⟩
  · refine ⟨fun ha => ⟨_, onlyIf_pos (by simp [hl, hr]), worldFail_again hl ha hr⟩, fun ht hm => ?_, fun ht hm => ?_,
      fun ht => ⟨_, onlyIf_pos (by simp [hl, hr, ht]), enterFault_chp 3 (by simpa using hl)⟩⟩
    · obtain ⟨h1, h2, h3, h4⟩ := restarted_spec w s
      refine ⟨_, restartComplete_right hl hr ht hm, ?_⟩
      obtain ⟨i1, i2, i3, i4⟩ := drivesTaken_spec (w == worldFor s .nvmeAdmin) (List.range 512) (restarted w s)
      refine ⟨Eq.trans ?_ h1, i2.trans h2, i3.trans h3, i4.trans h4⟩
      cases w <;> simp only [worldOf, i1]
    · refine ⟨_, restartComplete_wrong hl hr ht hm, ?_⟩
      cases w <;> exact enterFault_chp _ (by rw [live_notRestarted, hl])
  · exact ⟨fun hr hj hb => debugHalt_ends hl hr hj hb, fun hr => debugResume_ends hl hr, jtagSelect_debug hl⟩

end Sys2Proof.Proofs
end

section
/-! SUPPORT. What the steps of a boot leave of the state (18_manifest_boot_update.md, R355). -/
namespace Sys2Proof.Laws

open Sys2Proof.Machine Sys2Proof.Safety

/-- What `rngRecord` leaves. -/
@[simp] theorem rngRecord_frame (kind cause : Nat) (s : State) :
    (rngRecord kind cause s).pending = s.pending ∧ (rngRecord kind cause s).out = s.out ∧
    (rngRecord kind cause s).free = s.free ∧ (rngRecord kind cause s).now = s.now ∧
    (rngRecord kind cause s).csn = s.csn ∧ (rngRecord kind cause s).chp = s.chp ∧
    (rngRecord kind cause s).pins = s.pins ∧ (rngRecord kind cause s).hpt = s.hpt ∧
    (rngRecord kind cause s).stats = s.stats ∧ (rngRecord kind cause s).win = s.win ∧
    (rngRecord kind cause s).ttb = s.ttb ∧ (rngRecord kind cause s).car = s.car ∧
    (rngRecord kind cause s).cay = s.cay ∧ (rngRecord kind cause s).mdf = s.mdf ∧
    (rngRecord kind cause s).kst = s.kst ∧ (rngRecord kind cause s).leg = s.leg ∧
    (rngRecord kind cause s).vlt = s.vlt ∧ (rngRecord kind cause s).slc = s.slc ∧
    (rngRecord kind cause s).rng = s.rng ∧ (rngRecord kind cause s).lat = s.lat ∧
    (rngRecord kind cause s).bnv = s.bnv ∧ (rngRecord kind cause s).ucp = s.ucp ∧
    (rngRecord kind cause s).wld = s.wld ∧ (rngRecord kind cause s).tmp = s.tmp ∧
    (rngRecord kind cause s).bbr = s.bbr ∧ (rngRecord kind cause s).lcs = s.lcs ∧
    (rngRecord kind cause s).fuses = s.fuses ∧ (rngRecord kind cause s).mnf = s.mnf ∧
    (rngRecord kind cause s).flash = s.flash ∧ (rngRecord kind cause s).fwu = s.fwu ∧
    (rngRecord kind cause s).drb = s.drb ∧ (rngRecord kind cause s).mem = s.mem ∧
    (rngRecord kind cause s).gov = s.gov ∧ (rngRecord kind cause s).shown = s.shown := by
  simp [rngRecord]

/-- What `rngStart` leaves. -/
@[simp] theorem rngStart_frame (s : State) :
    (rngStart s).pending = s.pending ∧ (rngStart s).out = s.out ∧ (rngStart s).free = s.free ∧
    (rngStart s).now = s.now ∧ (rngStart s).chp = s.chp ∧ (rngStart s).pins = s.pins ∧ (rngStart s).hpt = s.hpt ∧
    (rngStart s).stats = s.stats ∧ (rngStart s).win = s.win ∧ (rngStart s).ttb = s.ttb ∧ (rngStart s).car = s.car ∧
    (rngStart s).cay = s.cay ∧ (rngStart s).mdf = s.mdf ∧ (rngStart s).leg = s.leg ∧ (rngStart s).vlt = s.vlt ∧
    (rngStart s).slc = s.slc ∧ (rngStart s).lat = s.lat ∧ (rngStart s).bnv = s.bnv ∧ (rngStart s).ucp = s.ucp ∧
    (rngStart s).wld = s.wld ∧ (rngStart s).tmp = s.tmp ∧ (rngStart s).bbr = s.bbr ∧ (rngStart s).lcs = s.lcs ∧
    (rngStart s).fuses = s.fuses ∧ (rngStart s).mnf = s.mnf ∧ (rngStart s).flash = s.flash ∧
    (rngStart s).fwu = s.fwu ∧ (rngStart s).drb = s.drb ∧ (rngStart s).mem = s.mem ∧ (rngStart s).gov = s.gov ∧
    (rngStart s).shown = s.shown := by
  simp [rngStart]

/-- What `mnfRecords` leaves. -/
@[simp] theorem mnfRecords_frame (m : Manifest) (s : State) :
    (mnfRecords m s).pending = s.pending ∧ (mnfRecords m s).out = s.out ∧ (mnfRecords m s).free = s.free ∧
    (mnfRecords m s).now = s.now ∧ (mnfRecords m s).csn = s.csn ∧ (mnfRecords m s).chp = s.chp ∧
    (mnfRecords m s).pins = s.pins ∧ (mnfRecords m s).hpt = s.hpt ∧ (mnfRecords m s).stats = s.stats ∧
    (mnfRecords m s).win = s.win ∧ (mnfRecords m s).ttb = s.ttb ∧ (mnfRecords m s).car = s.car ∧
    (mnfRecords m s).cay = s.cay ∧ (mnfRecords m s).mdf = s.mdf ∧ (mnfRecords m s).kst = s.kst ∧
    (mnfRecords m s).leg = s.leg ∧ (mnfRecords m s).vlt = s.vlt ∧ (mnfRecords m s).slc = s.slc ∧
    (mnfRecords m s).rng = s.rng ∧ (mnfRecords m s).lat = s.lat ∧ (mnfRecords m s).bnv = s.bnv ∧
    (mnfRecords m s).ucp = s.ucp ∧ (mnfRecords m s).wld = s.wld ∧ (mnfRecords m s).tmp = s.tmp ∧
    (mnfRecords m s).bbr = s.bbr ∧ (mnfRecords m s).lcs = s.lcs ∧ (mnfRecords m s).fuses = s.fuses ∧
    (mnfRecords m s).mnf = s.mnf ∧ (mnfRecords m s).flash = s.flash ∧ (mnfRecords m s).fwu = s.fwu ∧
    (mnfRecords m s).drb = s.drb ∧ (mnfRecords m s).mem = s.mem ∧ (mnfRecords m s).gov = s.gov ∧
    (mnfRecords m s).shown = s.shown := by
  simp [mnfRecords]

/-- What `setFloor` leaves. -/
@[simp] theorem setFloor_frame (f : Nat) (s : State) :
    (setFloor f s).pending = s.pending ∧ (setFloor f s).out = s.out ∧ (setFloor f s).free = s.free ∧
    (setFloor f s).now = s.now ∧ (setFloor f s).csn = s.csn ∧ (setFloor f s).chp = s.chp ∧
    (setFloor f s).pins = s.pins ∧ (setFloor f s).hpt = s.hpt ∧ (setFloor f s).stats = s.stats ∧
    (setFloor f s).win = s.win ∧ (setFloor f s).ttb = s.ttb ∧ (setFloor f s).car = s.car ∧
    (setFloor f s).cay = s.cay ∧ (setFloor f s).mdf = s.mdf ∧ (setFloor f s).kst = s.kst ∧
    (setFloor f s).leg = s.leg ∧ (setFloor f s).vlt = s.vlt ∧ (setFloor f s).slc = s.slc ∧
    (setFloor f s).rng = s.rng ∧ (setFloor f s).lat = s.lat ∧ (setFloor f s).bnv = s.bnv ∧
    (setFloor f s).ucp = s.ucp ∧ (setFloor f s).wld = s.wld ∧ (setFloor f s).tmp = s.tmp ∧
    (setFloor f s).bbr = s.bbr ∧ (setFloor f s).lcs = s.lcs ∧ (setFloor f s).fuses = s.fuses ∧
    (setFloor f s).mnf = s.mnf ∧ (setFloor f s).flash = s.flash ∧ (setFloor f s).fwu = s.fwu ∧
    (setFloor f s).drb = s.drb ∧ (setFloor f s).mem = s.mem ∧ (setFloor f s).gov = s.gov ∧
    (setFloor f s).shown = s.shown := by
  simp [setFloor]

/-- What `fullInt` leaves. -/
@[simp] theorem fullInt_frame (was : Bool) (s : State) :
    (fullInt was s).pending = s.pending ∧ (fullInt was s).free = s.free ∧ (fullInt was s).now = s.now ∧
    (fullInt was s).csn = s.csn ∧ (fullInt was s).chp = s.chp ∧ (fullInt was s).pins = s.pins ∧
    (fullInt was s).win = s.win ∧ (fullInt was s).ttb = s.ttb ∧ (fullInt was s).car = s.car ∧
    (fullInt was s).cay = s.cay ∧ (fullInt was s).mdf = s.mdf ∧ (fullInt was s).kst = s.kst ∧
    (fullInt was s).leg = s.leg ∧ (fullInt was s).vlt = s.vlt ∧ (fullInt was s).slc = s.slc ∧
    (fullInt was s).evr = s.evr ∧ (fullInt was s).rng = s.rng ∧ (fullInt was s).lat = s.lat ∧
    (fullInt was s).bnv = s.bnv ∧ (fullInt was s).ucp = s.ucp ∧ (fullInt was s).wld = s.wld ∧
    (fullInt was s).tmp = s.tmp ∧ (fullInt was s).bbr = s.bbr ∧ (fullInt was s).lcs = s.lcs ∧
    (fullInt was s).fuses = s.fuses ∧ (fullInt was s).mnf = s.mnf ∧ (fullInt was s).flash = s.flash ∧
    (fullInt was s).fwu = s.fwu ∧ (fullInt was s).drb = s.drb ∧ (fullInt was s).mem = s.mem ∧
    (fullInt was s).gov = s.gov ∧ (fullInt was s).shown = s.shown := by
  simp [fullInt]

/-- What `openEvents` leaves. -/
@[simp] theorem openEvents_frame (s : State) :
    (openEvents s).pending = s.pending ∧ (openEvents s).free = s.free ∧ (openEvents s).now = s.now ∧
    (openEvents s).csn = s.csn ∧ (openEvents s).chp = s.chp ∧ (openEvents s).pins = s.pins ∧
    (openEvents s).win = s.win ∧ (openEvents s).ttb = s.ttb ∧ (openEvents s).car = s.car ∧
    (openEvents s).cay = s.cay ∧ (openEvents s).mdf = s.mdf ∧ (openEvents s).kst = s.kst ∧
    (openEvents s).leg = s.leg ∧ (openEvents s).vlt = s.vlt ∧ (openEvents s).slc = s.slc ∧
    (openEvents s).rng = s.rng ∧ (openEvents s).lat = s.lat ∧ (openEvents s).bnv = s.bnv ∧
    (openEvents s).ucp = s.ucp ∧ (openEvents s).wld = s.wld ∧ (openEvents s).tmp = s.tmp ∧
    (openEvents s).bbr = s.bbr ∧ (openEvents s).lcs = s.lcs ∧ (openEvents s).fuses = s.fuses ∧
    (openEvents s).mnf = s.mnf ∧ (openEvents s).flash = s.flash ∧ (openEvents s).fwu = s.fwu ∧
    (openEvents s).drb = s.drb ∧ (openEvents s).mem = s.mem ∧ (openEvents s).gov = s.gov ∧
    (openEvents s).shown = s.shown := by
  simp [openEvents]

/-- What `transStart` leaves. -/
@[simp] theorem transStart_frame (target : Nat) (s : State) :
    (transStart target s).pending = s.pending ∧ (transStart target s).free = s.free ∧
    (transStart target s).now = s.now ∧ (transStart target s).chp = s.chp ∧ (transStart target s).pins = s.pins ∧
    (transStart target s).win = s.win ∧ (transStart target s).ttb = s.ttb ∧ (transStart target s).ucp = s.ucp ∧
    (transStart target s).wld = s.wld ∧ (transStart target s).tmp = s.tmp ∧ (transStart target s).bbr = s.bbr ∧
    (transStart target s).fuses = s.fuses ∧ (transStart target s).mnf = s.mnf ∧
    (transStart target s).flash = s.flash ∧ (transStart target s).fwu = s.fwu ∧ (transStart target s).drb = s.drb ∧
    (transStart target s).mem = s.mem ∧ (transStart target s).gov = s.gov ∧
    (transStart target s).shown = s.shown := by
  simp [transStart]

/-- What `advanceArb` leaves. -/
@[simp] theorem advanceArb_frame (s : State) :
    (advanceArb s).pending = s.pending ∧ (advanceArb s).out = s.out ∧ (advanceArb s).free = s.free ∧
    (advanceArb s).now = s.now ∧ (advanceArb s).csn = s.csn ∧ (advanceArb s).chp = s.chp ∧
    (advanceArb s).pins = s.pins ∧ (advanceArb s).hpt = s.hpt ∧ (advanceArb s).stats = s.stats ∧
    (advanceArb s).win = s.win ∧ (advanceArb s).ttb = s.ttb ∧ (advanceArb s).car = s.car ∧
    (advanceArb s).cay = s.cay ∧ (advanceArb s).mdf = s.mdf ∧ (advanceArb s).kst = s.kst ∧
    (advanceArb s).leg = s.leg ∧ (advanceArb s).vlt = s.vlt ∧ (advanceArb s).slc = s.slc ∧
    (advanceArb s).evr = s.evr ∧ (advanceArb s).rng = s.rng ∧ (advanceArb s).lat = s.lat ∧
    (advanceArb s).bnv = s.bnv ∧ (advanceArb s).ucp = s.ucp ∧ (advanceArb s).wld = s.wld ∧
    (advanceArb s).tmp = s.tmp ∧ (advanceArb s).bbr = s.bbr ∧ (advanceArb s).lcs = s.lcs ∧
    (advanceArb s).mnf = s.mnf ∧ (advanceArb s).flash = s.flash ∧ (advanceArb s).drb = s.drb ∧
    (advanceArb s).mem = s.mem ∧ (advanceArb s).gov = s.gov ∧ (advanceArb s).shown = s.shown := by
  simp [advanceArb]

end Sys2Proof.Laws
end

section
/-! PROOFS. The boot (17_life_cycle_and_debug.md, 18_manifest_boot_update.md, R355). -/
namespace Sys2Proof.Proofs

open Sys2Proof.Machine Sys2Proof.Safety Sys2Proof.Laws

variable {env : BootEnv} {n : Nat} {c : MnfChoice} {s u v : State}

/-- What a boot samples before it decodes the life-cycle state. -/
def sampled (env : BootEnv) (s : State) : State :=
  { s with
    chp := { s.chp with inReset := false }
    pins := { pfail := env.pfail, haClkmode := env.haClkmode, hbClkmode := env.hbClkmode, drbHead := env.drbHead }
    gov := { s.gov with pfail := env.pfail }
    drb := { s.drb with head := env.drbHead, selIn := env.selIn } }

theorem boot_ends (h : s.chp.inReset = true) : exec (.boot env) s = .next
    (if (fuseBoot (sampled env s)).lcs.state == .terminal then startPorts env (fuseBoot (sampled env s))
     else if bootStops (fuseBoot (sampled env s)) then
      { fuseBoot (sampled env s) with chp := { (fuseBoot (sampled env s)).chp with waitEnv := some env } }
     else bootOn env (fuseBoot (sampled env s))) := onlyIf_pos h

/-- Decoding the life-cycle state changes it, and the fuses' copies that it repairs. -/
theorem fuseBoot_spec (s : State) : (fuseBoot s).lcs.state = decodeLife s.fuses ∧ (fuseBoot s).chp = s.chp ∧
    (fuseBoot s).pins = s.pins ∧ (fuseBoot s).gov = s.gov ∧ (fuseBoot s).csn = s.csn ∧ (fuseBoot s).bbr = s.bbr ∧
    (fuseBoot s).hpt = s.hpt ∧ (fuseBoot s).flash = s.flash ∧ (fuseBoot s).mem = s.mem ∧
    (fuseBoot s).fuses.bdEpoch = s.fuses.bdEpoch ∧ (decodeLife s.fuses = .terminal → (fuseBoot s).fuses = s.fuses) := by
  refine ⟨rfl, rfl, rfl, rfl, rfl, rfl, rfl, rfl, rfl, ?_, fun h => ?_⟩
  · simp only [fuseBoot]
    split <;> rfl
  · simp [fuseBoot, h]

/-- A port out of its reset trains. -/
def portStarted (env : BootEnv) (s : State) (p : Port) : HptPort :=
  { s.hpt.get p with perst := env.perst.get p, training := !env.perst.get p }

theorem startPorts_spec (env : BootEnv) (s : State) : startPorts env s =
    { s with out := (startPorts env s).out, hpt := ⟨portStarted env s .a, portStarted env s .b⟩ } := by
  unfold startPorts
  dsimp only
  split <;> split <;> rfl

theorem startPorts_hpt (env : BootEnv) (s : State) (p : Port) : (startPorts env s).hpt.get p = portStarted env s p := by
  rw [startPorts_spec]
  cases p <;> rfl

/-! ### Recovery (R359, R360) -/

/-- An empty slot does not pass: its header's magic is not there. -/
theorem trySlot_empty (h : slotImage s n = []) : trySlot s n = none := by
  have hf : fld [] 0 4 = 0 := by decide
  have hm : headerCheck s [] = 2 := by
    have hb : (fld [] 0 4 != 0x4D49574B) = true := by rw [hf]; decide
    simp only [headerCheck, hb, Bool.true_or, if_true]
  have hc : (headerCheck s [] != 0) = true := by rw [hm]; decide
  simp only [trySlot, h, hc, if_true]

theorem pickSlot_empty (h0 : s.flash.slot0 = []) (h1 : s.flash.slot1 = []) : pickSlot s = none := by
  have hi : ∀ k, trySlot s k = none := fun k => trySlot_empty (by
    unfold slotImage
    split <;> assumption)
  unfold pickSlot
  generalize ((standingCtl s.flash).map (·.1.active)).getD 0 = n
  simp only [hi, Option.map_none]

/-- The boot ROM alone, in recovery. -/
theorem bootRecovery_spec (env : BootEnv) (s : State) : (bootRecovery env s).chp = { s.chp with mode := .recovery } ∧
    (bootRecovery env s).fwu.recovery = true ∧ (bootRecovery env s).lcs = s.lcs ∧ (bootRecovery env s).bbr = s.bbr ∧
    (bootRecovery env s).flash = s.flash ∧ (bootRecovery env s).csn = s.csn ∧
    (bootRecovery env s).mem = memTrained env s.mem := ⟨rfl, rfl, rfl, rfl, rfl, rfl, rfl⟩

/-- A boot that goes on. -/
theorem bootOn_goes (h : (s.gov.pfail && epochDue s) = false) : bootOn env s = startPorts env
    (match pickSlot (backupBoot { s with chp := { s.chp with waitEnv := none } }) with
     | some (n, c) => bootImage env n c (backupBoot { s with chp := { s.chp with waitEnv := none } })
     | none => bootRecovery env (backupBoot { s with chp := { s.chp with waitEnv := none } })) := by
  rw [bootOn, if_neg (by simp [h]), bootRest] <;> rfl

theorem bootOn_waits (h : (s.gov.pfail && epochDue s) = true) :
    bootOn env s = { s with chp := { s.chp with waitEnv := some env } } := by
  rw [bootOn, if_pos h]

/-- The backup domain of a boot whose counter goes on. -/
theorem backupBoot_counts (hm : s.bbr.markOk = true) (hc : s.bbr.counter < 0xFFFFFF) :
    (backupBoot s).bbr.counter = s.bbr.counter + 1 ∧
    (backupBoot s).chp.bootCnt = s.fuses.bdEpoch * 2 ^ 24 + (s.bbr.counter + 1) ∧
    (backupBoot s).chp.inReset = s.chp.inReset ∧ (backupBoot s).lcs = s.lcs ∧ (backupBoot s).flash = s.flash ∧
    (backupBoot s).csn = s.csn := by
  have hc' : ¬s.bbr.counter ≥ 0xFFFFFF := by omega
  simp [backupBoot, hm, hc']

/-! ### An image that starts (R355) -/

/-- The state with the manifest applied, the recorder open, the random chain and the worlds started. -/
def imageStarted (env : BootEnv) (n : Nat) (c : MnfChoice) (s : State) : State :=
  let img := slotImage s n
  let ctl := (standingCtl s.flash).map (·.1)
  let service := c.copy == 0 || s.lcs.state == .return_
  let m := choiceFields c
  let onTrial := (ctl.map (fun x => x.trial && x.active == n)).getD false
  let vals : Manifest := if service then {} else m
  worldsStart img (rngStart (mnfRecords m (openEvents (applyManifest vals { s with
    mnf := { mnfBlock service c vals with reports := m.reports.take 256, reportOvf := m.reports.length > 256 }
    fwu := { s.fwu with
      active := n, trial := (ctl.map (·.trial)).getD false, fallback := (ctl.map (·.active)).getD 0 != n
      activating := onTrial, ver := sub img 8 8, migrating := onTrial && migrates s img
      migFrom := if onTrial && migrates s img then s.fwu.vaultFmt else 0
      migTo := if onTrial && migrates s img then fld img 40 2 else 0 }
    mem := memTrained env s.mem }))))

/-- The state with boot lock set, in its mode. -/
def bootLocked (service : Bool) (s : State) : State :=
  seqd { s with
    chp := { s.chp with mode := if service then .service else .running, bootLock := true }
    wld := { s.wld with assignLock := true } }

/-- What an earlier boot had to defer. -/
def deferred (s : State) : State :=
  let e := if s.fwu.arbDue then advanceArb s else s
  if e.lcs.state == .field && (openVault e).img.returnDue then transStart 7 e else e

theorem bootImage_eq (env : BootEnv) (n : Nat) (c : MnfChoice) (s : State) : bootImage env n c s =
    deferred (bootLocked (c.copy == 0 || s.lcs.state == .return_) (imageStarted env n c s)) := rfl

theorem imageStarted_spec (env : BootEnv) (n : Nat) (c : MnfChoice) (s : State) :
    (imageStarted env n c s).wld.secure.state = .running ∧ (imageStarted env n c s).wld.normal.state = .running ∧
    (imageStarted env n c s).fwu.active = n ∧ (imageStarted env n c s).mnf.copy = c.copy := by
  simp [imageStarted, worldsStart, updWld, applyManifest, mnfBlock]

theorem bootLocked_spec (service : Bool) (s : State) : (bootLocked service s).chp =
      { s.chp with mode := if service then .service else .running, bootLock := true } ∧
    (bootLocked service s).wld = { s.wld with assignLock := true } ∧ (bootLocked service s).fwu = s.fwu ∧
    (bootLocked service s).mnf = s.mnf := by
  simp [bootLocked]

theorem deferred_spec (s : State) : (deferred s).chp = s.chp ∧ (deferred s).wld = s.wld ∧
    (deferred s).fwu.active = s.fwu.active ∧ (deferred s).mnf = s.mnf := by
  have ha : (advanceArb s).fwu.active = s.fwu.active := by
    unfold advanceArb
    split <;> rfl
  simp only [deferred]
  split <;> split <;> simp [ha]

/-- A boot whose image starts has boot lock set and both worlds running. -/
theorem bootImage_spec (env : BootEnv) (n : Nat) (c : MnfChoice) (s : State) :
    (bootImage env n c s).chp.bootLock = true ∧ (bootImage env n c s).wld.assignLock = true ∧
    (bootImage env n c s).wld.secure.state = .running ∧ (bootImage env n c s).wld.normal.state = .running ∧
    (bootImage env n c s).fwu.active = n ∧ (bootImage env n c s).mnf.copy = c.copy ∧
    (bootImage env n c s).chp.mode = (if c.copy = 0 ∨ s.lcs.state = .return_ then .service else .running) := by
  obtain ⟨i1, i2, i3, i4⟩ := imageStarted_spec env n c s
  obtain ⟨l1, l2, l3, l4⟩ := bootLocked_spec (c.copy == 0 || s.lcs.state == .return_) (imageStarted env n c s)
  obtain ⟨d1, d2, d3, d4⟩ :=
    deferred_spec (bootLocked (c.copy == 0 || s.lcs.state == .return_) (imageStarted env n c s))
  rw [bootImage_eq, d1, d2, d3, d4, l1, l2, l3, l4, i3, i4]
  exact ⟨rfl, rfl, i1, i2, rfl, rfl, by simp⟩

/-! ### The obligation -/

/-- Settles O53: the boot's stages in turn; each leaves what the ones before it set. -/
theorem bootRunsItsSequence : Obligations.BootRunsItsSequence := by
  unfold Obligations.BootRunsItsSequence
  intro env s h
  obtain ⟨f1, f2, f3, f4, f5, f6, f7, f8, f9, f10, f11⟩ := fuseBoot_spec (sampled env s)
  have hrow := boot_ends (env := env) h
  have hd : decodeLife (sampled env s).fuses = decodeLife s.fuses := rfl
  have hgo : decodeLife s.fuses = .field ∨ decodeLife s.fuses = .mfg ∨ decodeLife s.fuses = .return_ →
      exec (.boot env) s = .next (bootOn env (fuseBoot (sampled env s))) := fun hl => by
    rw [hrow, if_neg, if_neg]
    · rw [bootStops, f1, hd]
      rcases hl with hl | hl | hl <;> simp [hl]
    · rw [f1, hd]
      rcases hl with hl | hl | hl <;> simp [hl]
  refine ⟨fun hl => ?_, fun hl => ?_, fun hl hm hc h0 h1 hmem => ?_, fun hl u hu => ⟨fun hp he => ?_, fun hpe v hv => ?_⟩,
    fun n c u => bootImage_spec env n c u⟩
  · refine ⟨_, hrow.trans (by rw [if_neg (by simp [f1, hd, hl]), if_pos (by simp [bootStops, f1, hd, hl])]), ?_⟩
    generalize fuseBoot (sampled env s) = b at *
    simp [f1, f2, f3, f5, f6, f7, hd, hl]
    simp [sampled]
  · refine ⟨_, hrow.trans (by rw [if_pos (by simp [f1, hd, hl])]), ?_⟩
    have f11' := f11 (hd.trans hl)
    generalize fuseBoot (sampled env s) = b at *
    refine ⟨?_, ?_, ?_, ?_, ?_, ?_, fun p => by rw [startPorts_hpt]; exact ⟨rfl, rfl⟩⟩ <;> rw [startPorts_spec]
    · simp [f2, sampled]
    · simp [f1, hd, hl]
    · simp [f2, sampled]
    · simp [f6, sampled]
    · simp [f5, sampled]
    · simp [f11', sampled]
  · have hw : ((fuseBoot (sampled env s)).gov.pfail && epochDue (fuseBoot (sampled env s))) = false := by
      have h' : epochDue (fuseBoot (sampled env s)) = false := by
        rw [epochDue, f6]
        simp [sampled, hm, hc]
      rw [h', Bool.and_false]
    have hb6 : (fuseBoot (sampled env s)).bbr = s.bbr := f6
    obtain ⟨b1, b2, b3, b4, b5, b6⟩ := backupBoot_counts
      (s := { fuseBoot (sampled env s) with chp := { (fuseBoot (sampled env s)).chp with waitEnv := none } })
      (by simpa [hb6] using hm) (by simpa [hb6] using hc)
    have hp := pickSlot_empty
      (s := backupBoot { fuseBoot (sampled env s) with chp := { (fuseBoot (sampled env s)).chp with waitEnv := none } })
      (by rw [b5]; exact (congrArg Flash.slot0 f8).trans h0) (by rw [b5]; exact (congrArg Flash.slot1 f8).trans h1)
    refine ⟨_, (hgo hl).trans (congrArg Host.Outcome.next ((bootOn_goes hw).trans (by rw [hp]))), ?_⟩
    revert b1 b2 b3 b4 b5 b6
    generalize backupBoot { fuseBoot (sampled env s) with chp := { (fuseBoot (sampled env s)).chp with waitEnv := none } } = v
    generalize fuseBoot (sampled env s) = b at *
    intro b1 b2 b3 b4 b5 b6
    obtain ⟨r1, r2, r3, r4, r5, r6, r7⟩ := bootRecovery_spec env v
    refine ⟨?_, ?_, ?_, ?_, ?_, ?_, ?_, ?_, ?_, ?_, fun p => by rw [startPorts_hpt]; exact ⟨rfl, rfl⟩⟩ <;>
      rw [startPorts_spec]
    · simp [r1]
    · exact r2
    · simp [r3, b4, f1, hd]
    · simp [r4, b1, hb6]
    · simp [r1, b2, hb6, f10, sampled]
    · simp [r1, b3, f2, sampled]
    · simp [r5, b5, f8, sampled]
    · simp [r6, b6, f5, sampled]
    · simp [r7, memTrained, hmem]
    · simp [r7, memTrained, hmem]
  · rw [hgo hl]
    have hw : ((fuseBoot (sampled env s)).gov.pfail && epochDue (fuseBoot (sampled env s))) = true := by
      rw [f4, epochDue, f6]
      simpa [sampled, hp, epochDue] using he
    rw [bootOn_waits hw]
    have hu' : fuseBoot (sampled env s) = u := hu
    rw [hu']
  · rw [hgo hl]
    have hw : ((fuseBoot (sampled env s)).gov.pfail && epochDue (fuseBoot (sampled env s))) = false := by
      rw [f4, epochDue, f6]
      rcases hpe with h | h
      · simp [sampled, h]
      · have h' : (!s.bbr.markOk || decide (s.bbr.counter ≥ 0xFFFFFF)) = false := h
        simp [sampled, h']
    have hu' : fuseBoot (sampled env s) = u := hu
    rw [bootOn_goes hw, hu', hv] <;> rfl

end Sys2Proof.Proofs
end

section
/-! SUPPORT. What staging and activation leave of the state (18_manifest_boot_update.md). -/
namespace Sys2Proof.Laws

open Sys2Proof.Machine Sys2Proof.Safety

/-- What `stopWorlds` leaves. -/
@[simp] theorem stopWorlds_frame (s : State) :
    (stopWorlds s).pending = s.pending ∧ (stopWorlds s).now = s.now ∧ (stopWorlds s).chp = s.chp ∧
    (stopWorlds s).pins = s.pins ∧ (stopWorlds s).ttb = s.ttb ∧ (stopWorlds s).leg = s.leg ∧
    (stopWorlds s).tmp = s.tmp ∧ (stopWorlds s).bbr = s.bbr ∧ (stopWorlds s).lcs = s.lcs ∧
    (stopWorlds s).fuses = s.fuses ∧ (stopWorlds s).mnf = s.mnf ∧ (stopWorlds s).flash = s.flash ∧
    (stopWorlds s).fwu = s.fwu ∧ (stopWorlds s).drb = s.drb ∧ (stopWorlds s).mem = s.mem ∧
    (stopWorlds s).gov = s.gov ∧ (stopWorlds s).shown = s.shown := by
  simp [stopWorlds]

/-- What `worldsStart` leaves. -/
@[simp] theorem worldsStart_frame (img : Bytes) (s : State) :
    (worldsStart img s).pending = s.pending ∧ (worldsStart img s).out = s.out ∧ (worldsStart img s).free = s.free ∧
    (worldsStart img s).now = s.now ∧ (worldsStart img s).csn = s.csn ∧ (worldsStart img s).chp = s.chp ∧
    (worldsStart img s).pins = s.pins ∧ (worldsStart img s).hpt = s.hpt ∧ (worldsStart img s).stats = s.stats ∧
    (worldsStart img s).win = s.win ∧ (worldsStart img s).ttb = s.ttb ∧ (worldsStart img s).car = s.car ∧
    (worldsStart img s).cay = s.cay ∧ (worldsStart img s).mdf = s.mdf ∧ (worldsStart img s).kst = s.kst ∧
    (worldsStart img s).leg = s.leg ∧ (worldsStart img s).vlt = s.vlt ∧ (worldsStart img s).slc = s.slc ∧
    (worldsStart img s).evr = s.evr ∧ (worldsStart img s).rng = s.rng ∧ (worldsStart img s).lat = s.lat ∧
    (worldsStart img s).bnv = s.bnv ∧ (worldsStart img s).ucp = s.ucp ∧ (worldsStart img s).tmp = s.tmp ∧
    (worldsStart img s).bbr = s.bbr ∧ (worldsStart img s).lcs = s.lcs ∧ (worldsStart img s).fuses = s.fuses ∧
    (worldsStart img s).mnf = s.mnf ∧ (worldsStart img s).flash = s.flash ∧ (worldsStart img s).fwu = s.fwu ∧
    (worldsStart img s).drb = s.drb ∧ (worldsStart img s).mem = s.mem ∧ (worldsStart img s).gov = s.gov ∧
    (worldsStart img s).shown = s.shown := by
  simp [worldsStart]

/-- What `runSlot` leaves. -/
@[simp] theorem runSlot_frame (n : Nat) (s : State) :
    (runSlot n s).pending = s.pending ∧ (runSlot n s).out = s.out ∧ (runSlot n s).free = s.free ∧
    (runSlot n s).now = s.now ∧ (runSlot n s).csn = s.csn ∧ (runSlot n s).chp = s.chp ∧ (runSlot n s).pins = s.pins ∧
    (runSlot n s).hpt = s.hpt ∧ (runSlot n s).stats = s.stats ∧ (runSlot n s).win = s.win ∧
    (runSlot n s).ttb = s.ttb ∧ (runSlot n s).car = s.car ∧ (runSlot n s).cay = s.cay ∧ (runSlot n s).mdf = s.mdf ∧
    (runSlot n s).kst = s.kst ∧ (runSlot n s).leg = s.leg ∧ (runSlot n s).vlt = s.vlt ∧ (runSlot n s).slc = s.slc ∧
    (runSlot n s).evr = s.evr ∧ (runSlot n s).rng = s.rng ∧ (runSlot n s).lat = s.lat ∧ (runSlot n s).bnv = s.bnv ∧
    (runSlot n s).ucp = s.ucp ∧ (runSlot n s).tmp = s.tmp ∧ (runSlot n s).bbr = s.bbr ∧ (runSlot n s).lcs = s.lcs ∧
    (runSlot n s).fuses = s.fuses ∧ (runSlot n s).mnf = s.mnf ∧ (runSlot n s).flash = s.flash ∧
    (runSlot n s).drb = s.drb ∧ (runSlot n s).mem = s.mem ∧ (runSlot n s).gov = s.gov ∧
    (runSlot n s).shown = s.shown := by
  simp [runSlot]

/-- What `actEnd` leaves. -/
@[simp] theorem actEnd_frame (code : Nat) (s : State) :
    (actEnd code s).pending = s.pending ∧ (actEnd code s).free = s.free ∧ (actEnd code s).now = s.now ∧
    (actEnd code s).csn = s.csn ∧ (actEnd code s).chp = s.chp ∧ (actEnd code s).pins = s.pins ∧
    (actEnd code s).win = s.win ∧ (actEnd code s).ttb = s.ttb ∧ (actEnd code s).car = s.car ∧
    (actEnd code s).cay = s.cay ∧ (actEnd code s).mdf = s.mdf ∧ (actEnd code s).kst = s.kst ∧
    (actEnd code s).leg = s.leg ∧ (actEnd code s).vlt = s.vlt ∧ (actEnd code s).slc = s.slc ∧
    (actEnd code s).evr = s.evr ∧ (actEnd code s).rng = s.rng ∧ (actEnd code s).lat = s.lat ∧
    (actEnd code s).bnv = s.bnv ∧ (actEnd code s).ucp = s.ucp ∧ (actEnd code s).wld = s.wld ∧
    (actEnd code s).tmp = s.tmp ∧ (actEnd code s).bbr = s.bbr ∧ (actEnd code s).lcs = s.lcs ∧
    (actEnd code s).fuses = s.fuses ∧ (actEnd code s).mnf = s.mnf ∧ (actEnd code s).flash = s.flash ∧
    (actEnd code s).drb = s.drb ∧ (actEnd code s).mem = s.mem ∧ (actEnd code s).gov = s.gov ∧
    (actEnd code s).shown = s.shown := by
  simp [actEnd]

/-- What `flashWrite` leaves. -/
@[simp] theorem flashWrite_frame (addr : Nat) (b : Bytes) (f : Flash → Flash) (s : State) :
    (flashWrite addr b f s).pending = s.pending ∧ (flashWrite addr b f s).free = s.free ∧
    (flashWrite addr b f s).now = s.now ∧ (flashWrite addr b f s).csn = s.csn ∧ (flashWrite addr b f s).chp = s.chp ∧
    (flashWrite addr b f s).pins = s.pins ∧ (flashWrite addr b f s).hpt = s.hpt ∧
    (flashWrite addr b f s).stats = s.stats ∧ (flashWrite addr b f s).win = s.win ∧
    (flashWrite addr b f s).ttb = s.ttb ∧ (flashWrite addr b f s).car = s.car ∧ (flashWrite addr b f s).cay = s.cay ∧
    (flashWrite addr b f s).mdf = s.mdf ∧ (flashWrite addr b f s).kst = s.kst ∧ (flashWrite addr b f s).leg = s.leg ∧
    (flashWrite addr b f s).vlt = s.vlt ∧ (flashWrite addr b f s).slc = s.slc ∧ (flashWrite addr b f s).evr = s.evr ∧
    (flashWrite addr b f s).rng = s.rng ∧ (flashWrite addr b f s).lat = s.lat ∧ (flashWrite addr b f s).bnv = s.bnv ∧
    (flashWrite addr b f s).ucp = s.ucp ∧ (flashWrite addr b f s).wld = s.wld ∧ (flashWrite addr b f s).tmp = s.tmp ∧
    (flashWrite addr b f s).bbr = s.bbr ∧ (flashWrite addr b f s).lcs = s.lcs ∧
    (flashWrite addr b f s).fuses = s.fuses ∧ (flashWrite addr b f s).mnf = s.mnf ∧
    (flashWrite addr b f s).fwu = s.fwu ∧ (flashWrite addr b f s).drb = s.drb ∧ (flashWrite addr b f s).mem = s.mem ∧
    (flashWrite addr b f s).gov = s.gov ∧ (flashWrite addr b f s).shown = s.shown := by
  simp [flashWrite]

/-- What `writeCtl` leaves. -/
@[simp] theorem writeCtl_frame (active : Nat) (trial : Bool) (previous : Nat) (s : State) :
    (writeCtl active trial previous s).pending = s.pending ∧ (writeCtl active trial previous s).free = s.free ∧
    (writeCtl active trial previous s).now = s.now ∧ (writeCtl active trial previous s).csn = s.csn ∧
    (writeCtl active trial previous s).chp = s.chp ∧ (writeCtl active trial previous s).pins = s.pins ∧
    (writeCtl active trial previous s).hpt = s.hpt ∧ (writeCtl active trial previous s).stats = s.stats ∧
    (writeCtl active trial previous s).win = s.win ∧ (writeCtl active trial previous s).ttb = s.ttb ∧
    (writeCtl active trial previous s).car = s.car ∧ (writeCtl active trial previous s).cay = s.cay ∧
    (writeCtl active trial previous s).mdf = s.mdf ∧ (writeCtl active trial previous s).kst = s.kst ∧
    (writeCtl active trial previous s).leg = s.leg ∧ (writeCtl active trial previous s).vlt = s.vlt ∧
    (writeCtl active trial previous s).slc = s.slc ∧ (writeCtl active trial previous s).evr = s.evr ∧
    (writeCtl active trial previous s).rng = s.rng ∧ (writeCtl active trial previous s).lat = s.lat ∧
    (writeCtl active trial previous s).bnv = s.bnv ∧ (writeCtl active trial previous s).ucp = s.ucp ∧
    (writeCtl active trial previous s).wld = s.wld ∧ (writeCtl active trial previous s).tmp = s.tmp ∧
    (writeCtl active trial previous s).bbr = s.bbr ∧ (writeCtl active trial previous s).lcs = s.lcs ∧
    (writeCtl active trial previous s).fuses = s.fuses ∧ (writeCtl active trial previous s).mnf = s.mnf ∧
    (writeCtl active trial previous s).fwu = s.fwu ∧ (writeCtl active trial previous s).drb = s.drb ∧
    (writeCtl active trial previous s).mem = s.mem ∧ (writeCtl active trial previous s).gov = s.gov ∧
    (writeCtl active trial previous s).shown = s.shown := by
  simp [writeCtl]

/-- What `fallBack` leaves. -/
@[simp] theorem fallBack_frame (code : Nat) (s : State) :
    (fallBack code s).pending = s.pending ∧ (fallBack code s).free = s.free ∧ (fallBack code s).now = s.now ∧
    (fallBack code s).csn = s.csn ∧ (fallBack code s).chp = s.chp ∧ (fallBack code s).pins = s.pins ∧
    (fallBack code s).win = s.win ∧ (fallBack code s).ttb = s.ttb ∧ (fallBack code s).car = s.car ∧
    (fallBack code s).cay = s.cay ∧ (fallBack code s).mdf = s.mdf ∧ (fallBack code s).kst = s.kst ∧
    (fallBack code s).leg = s.leg ∧ (fallBack code s).vlt = s.vlt ∧ (fallBack code s).slc = s.slc ∧
    (fallBack code s).evr = s.evr ∧ (fallBack code s).rng = s.rng ∧ (fallBack code s).lat = s.lat ∧
    (fallBack code s).bnv = s.bnv ∧ (fallBack code s).ucp = s.ucp ∧ (fallBack code s).tmp = s.tmp ∧
    (fallBack code s).bbr = s.bbr ∧ (fallBack code s).lcs = s.lcs ∧ (fallBack code s).fuses = s.fuses ∧
    (fallBack code s).mnf = s.mnf ∧ (fallBack code s).drb = s.drb ∧ (fallBack code s).mem = s.mem ∧
    (fallBack code s).gov = s.gov ∧ (fallBack code s).shown = s.shown := by
  simp [fallBack]

/-- What `loadNew` leaves. -/
@[simp] theorem loadNew_frame (n : Nat) (s : State) :
    (loadNew n s).pending = s.pending ∧ (loadNew n s).free = s.free ∧ (loadNew n s).now = s.now ∧
    (loadNew n s).csn = s.csn ∧ (loadNew n s).chp = s.chp ∧ (loadNew n s).pins = s.pins ∧ (loadNew n s).win = s.win ∧
    (loadNew n s).ttb = s.ttb ∧ (loadNew n s).car = s.car ∧ (loadNew n s).cay = s.cay ∧ (loadNew n s).mdf = s.mdf ∧
    (loadNew n s).kst = s.kst ∧ (loadNew n s).leg = s.leg ∧ (loadNew n s).vlt = s.vlt ∧ (loadNew n s).slc = s.slc ∧
    (loadNew n s).evr = s.evr ∧ (loadNew n s).rng = s.rng ∧ (loadNew n s).lat = s.lat ∧ (loadNew n s).bnv = s.bnv ∧
    (loadNew n s).ucp = s.ucp ∧ (loadNew n s).tmp = s.tmp ∧ (loadNew n s).bbr = s.bbr ∧ (loadNew n s).lcs = s.lcs ∧
    (loadNew n s).fuses = s.fuses ∧ (loadNew n s).mnf = s.mnf ∧ (loadNew n s).drb = s.drb ∧
    (loadNew n s).mem = s.mem ∧ (loadNew n s).gov = s.gov ∧ (loadNew n s).shown = s.shown := by
  simp [loadNew]

/-- What `fwRecord` leaves. -/
@[simp] theorem fwRecord_frame (kind slot : Nat) (version : Bytes) (s : State) :
    (fwRecord kind slot version s).pending = s.pending ∧ (fwRecord kind slot version s).out = s.out ∧
    (fwRecord kind slot version s).free = s.free ∧ (fwRecord kind slot version s).now = s.now ∧
    (fwRecord kind slot version s).csn = s.csn ∧ (fwRecord kind slot version s).chp = s.chp ∧
    (fwRecord kind slot version s).pins = s.pins ∧ (fwRecord kind slot version s).hpt = s.hpt ∧
    (fwRecord kind slot version s).stats = s.stats ∧ (fwRecord kind slot version s).win = s.win ∧
    (fwRecord kind slot version s).ttb = s.ttb ∧ (fwRecord kind slot version s).car = s.car ∧
    (fwRecord kind slot version s).cay = s.cay ∧ (fwRecord kind slot version s).mdf = s.mdf ∧
    (fwRecord kind slot version s).kst = s.kst ∧ (fwRecord kind slot version s).leg = s.leg ∧
    (fwRecord kind slot version s).vlt = s.vlt ∧ (fwRecord kind slot version s).slc = s.slc ∧
    (fwRecord kind slot version s).rng = s.rng ∧ (fwRecord kind slot version s).lat = s.lat ∧
    (fwRecord kind slot version s).bnv = s.bnv ∧ (fwRecord kind slot version s).ucp = s.ucp ∧
    (fwRecord kind slot version s).wld = s.wld ∧ (fwRecord kind slot version s).tmp = s.tmp ∧
    (fwRecord kind slot version s).bbr = s.bbr ∧ (fwRecord kind slot version s).lcs = s.lcs ∧
    (fwRecord kind slot version s).fuses = s.fuses ∧ (fwRecord kind slot version s).mnf = s.mnf ∧
    (fwRecord kind slot version s).flash = s.flash ∧ (fwRecord kind slot version s).fwu = s.fwu ∧
    (fwRecord kind slot version s).drb = s.drb ∧ (fwRecord kind slot version s).mem = s.mem ∧
    (fwRecord kind slot version s).gov = s.gov ∧ (fwRecord kind slot version s).shown = s.shown := by
  simp [fwRecord]

/-- What `confirmCtl` leaves. -/
@[simp] theorem confirmCtl_frame (s : State) :
    (confirmCtl s).pending = s.pending ∧ (confirmCtl s).free = s.free ∧ (confirmCtl s).now = s.now ∧
    (confirmCtl s).csn = s.csn ∧ (confirmCtl s).chp = s.chp ∧ (confirmCtl s).pins = s.pins ∧
    (confirmCtl s).hpt = s.hpt ∧ (confirmCtl s).stats = s.stats ∧ (confirmCtl s).win = s.win ∧
    (confirmCtl s).ttb = s.ttb ∧ (confirmCtl s).car = s.car ∧ (confirmCtl s).cay = s.cay ∧
    (confirmCtl s).mdf = s.mdf ∧ (confirmCtl s).kst = s.kst ∧ (confirmCtl s).leg = s.leg ∧
    (confirmCtl s).vlt = s.vlt ∧ (confirmCtl s).slc = s.slc ∧ (confirmCtl s).evr = s.evr ∧
    (confirmCtl s).rng = s.rng ∧ (confirmCtl s).lat = s.lat ∧ (confirmCtl s).bnv = s.bnv ∧
    (confirmCtl s).ucp = s.ucp ∧ (confirmCtl s).wld = s.wld ∧ (confirmCtl s).tmp = s.tmp ∧
    (confirmCtl s).bbr = s.bbr ∧ (confirmCtl s).lcs = s.lcs ∧ (confirmCtl s).fuses = s.fuses ∧
    (confirmCtl s).mnf = s.mnf ∧ (confirmCtl s).fwu = s.fwu ∧ (confirmCtl s).drb = s.drb ∧
    (confirmCtl s).mem = s.mem ∧ (confirmCtl s).gov = s.gov ∧ (confirmCtl s).shown = s.shown := by
  unfold confirmCtl
  repeat' split
  all_goals simp

/-- What `arbBegin` leaves. -/
@[simp] theorem arbBegin_frame (s : State) :
    (arbBegin s).pending = s.pending ∧ (arbBegin s).out = s.out ∧ (arbBegin s).free = s.free ∧
    (arbBegin s).now = s.now ∧ (arbBegin s).csn = s.csn ∧ (arbBegin s).chp = s.chp ∧ (arbBegin s).pins = s.pins ∧
    (arbBegin s).hpt = s.hpt ∧ (arbBegin s).stats = s.stats ∧ (arbBegin s).win = s.win ∧ (arbBegin s).ttb = s.ttb ∧
    (arbBegin s).car = s.car ∧ (arbBegin s).cay = s.cay ∧ (arbBegin s).mdf = s.mdf ∧ (arbBegin s).kst = s.kst ∧
    (arbBegin s).leg = s.leg ∧ (arbBegin s).vlt = s.vlt ∧ (arbBegin s).slc = s.slc ∧ (arbBegin s).evr = s.evr ∧
    (arbBegin s).rng = s.rng ∧ (arbBegin s).lat = s.lat ∧ (arbBegin s).bnv = s.bnv ∧ (arbBegin s).ucp = s.ucp ∧
    (arbBegin s).wld = s.wld ∧ (arbBegin s).tmp = s.tmp ∧ (arbBegin s).bbr = s.bbr ∧ (arbBegin s).lcs = s.lcs ∧
    (arbBegin s).fuses = s.fuses ∧ (arbBegin s).mnf = s.mnf ∧ (arbBegin s).flash = s.flash ∧
    (arbBegin s).drb = s.drb ∧ (arbBegin s).mem = s.mem ∧ (arbBegin s).gov = s.gov ∧
    (arbBegin s).shown = s.shown := by
  simp [arbBegin]

/-- What `confirmOnly` leaves. -/
@[simp] theorem confirmOnly_frame (s : State) :
    (confirmOnly s).pending = s.pending ∧ (confirmOnly s).free = s.free ∧ (confirmOnly s).now = s.now ∧
    (confirmOnly s).csn = s.csn ∧ (confirmOnly s).chp = s.chp ∧ (confirmOnly s).pins = s.pins ∧
    (confirmOnly s).win = s.win ∧ (confirmOnly s).ttb = s.ttb ∧ (confirmOnly s).car = s.car ∧
    (confirmOnly s).cay = s.cay ∧ (confirmOnly s).mdf = s.mdf ∧ (confirmOnly s).kst = s.kst ∧
    (confirmOnly s).leg = s.leg ∧ (confirmOnly s).vlt = s.vlt ∧ (confirmOnly s).slc = s.slc ∧
    (confirmOnly s).rng = s.rng ∧ (confirmOnly s).lat = s.lat ∧ (confirmOnly s).bnv = s.bnv ∧
    (confirmOnly s).ucp = s.ucp ∧ (confirmOnly s).wld = s.wld ∧ (confirmOnly s).tmp = s.tmp ∧
    (confirmOnly s).bbr = s.bbr ∧ (confirmOnly s).lcs = s.lcs ∧ (confirmOnly s).fuses = s.fuses ∧
    (confirmOnly s).mnf = s.mnf ∧ (confirmOnly s).drb = s.drb ∧ (confirmOnly s).mem = s.mem ∧
    (confirmOnly s).gov = s.gov ∧ (confirmOnly s).shown = s.shown := by
  simp [confirmOnly]

/-- What `confirm` leaves. -/
@[simp] theorem confirm_frame (s : State) :
    (confirm s).pending = s.pending ∧ (confirm s).free = s.free ∧ (confirm s).now = s.now ∧ (confirm s).csn = s.csn ∧
    (confirm s).chp = s.chp ∧ (confirm s).pins = s.pins ∧ (confirm s).win = s.win ∧ (confirm s).ttb = s.ttb ∧
    (confirm s).car = s.car ∧ (confirm s).cay = s.cay ∧ (confirm s).mdf = s.mdf ∧ (confirm s).kst = s.kst ∧
    (confirm s).leg = s.leg ∧ (confirm s).vlt = s.vlt ∧ (confirm s).slc = s.slc ∧ (confirm s).rng = s.rng ∧
    (confirm s).lat = s.lat ∧ (confirm s).bnv = s.bnv ∧ (confirm s).ucp = s.ucp ∧ (confirm s).wld = s.wld ∧
    (confirm s).tmp = s.tmp ∧ (confirm s).bbr = s.bbr ∧ (confirm s).lcs = s.lcs ∧ (confirm s).fuses = s.fuses ∧
    (confirm s).mnf = s.mnf ∧ (confirm s).drb = s.drb ∧ (confirm s).mem = s.mem ∧ (confirm s).gov = s.gov ∧
    (confirm s).shown = s.shown := by
  simp [confirm]

/-- What `stageEnd` leaves. -/
@[simp] theorem stageEnd_frame (code : Nat) (s : State) :
    (stageEnd code s).pending = s.pending ∧ (stageEnd code s).free = s.free ∧ (stageEnd code s).now = s.now ∧
    (stageEnd code s).csn = s.csn ∧ (stageEnd code s).chp = s.chp ∧ (stageEnd code s).pins = s.pins ∧
    (stageEnd code s).win = s.win ∧ (stageEnd code s).ttb = s.ttb ∧ (stageEnd code s).car = s.car ∧
    (stageEnd code s).cay = s.cay ∧ (stageEnd code s).mdf = s.mdf ∧ (stageEnd code s).kst = s.kst ∧
    (stageEnd code s).leg = s.leg ∧ (stageEnd code s).vlt = s.vlt ∧ (stageEnd code s).slc = s.slc ∧
    (stageEnd code s).evr = s.evr ∧ (stageEnd code s).rng = s.rng ∧ (stageEnd code s).lat = s.lat ∧
    (stageEnd code s).bnv = s.bnv ∧ (stageEnd code s).ucp = s.ucp ∧ (stageEnd code s).wld = s.wld ∧
    (stageEnd code s).tmp = s.tmp ∧ (stageEnd code s).bbr = s.bbr ∧ (stageEnd code s).lcs = s.lcs ∧
    (stageEnd code s).fuses = s.fuses ∧ (stageEnd code s).mnf = s.mnf ∧ (stageEnd code s).flash = s.flash ∧
    (stageEnd code s).drb = s.drb ∧ (stageEnd code s).mem = s.mem ∧ (stageEnd code s).gov = s.gov ∧
    (stageEnd code s).shown = s.shown := by
  simp [stageEnd]

/-- What `putSlot` leaves. -/
@[simp] theorem putSlot_frame (n : Nat) (written kept : Bytes) (s : State) :
    (putSlot n written kept s).pending = s.pending ∧ (putSlot n written kept s).free = s.free ∧
    (putSlot n written kept s).now = s.now ∧ (putSlot n written kept s).csn = s.csn ∧
    (putSlot n written kept s).chp = s.chp ∧ (putSlot n written kept s).pins = s.pins ∧
    (putSlot n written kept s).hpt = s.hpt ∧ (putSlot n written kept s).stats = s.stats ∧
    (putSlot n written kept s).win = s.win ∧ (putSlot n written kept s).ttb = s.ttb ∧
    (putSlot n written kept s).car = s.car ∧ (putSlot n written kept s).cay = s.cay ∧
    (putSlot n written kept s).mdf = s.mdf ∧ (putSlot n written kept s).kst = s.kst ∧
    (putSlot n written kept s).leg = s.leg ∧ (putSlot n written kept s).vlt = s.vlt ∧
    (putSlot n written kept s).slc = s.slc ∧ (putSlot n written kept s).evr = s.evr ∧
    (putSlot n written kept s).rng = s.rng ∧ (putSlot n written kept s).lat = s.lat ∧
    (putSlot n written kept s).bnv = s.bnv ∧ (putSlot n written kept s).ucp = s.ucp ∧
    (putSlot n written kept s).wld = s.wld ∧ (putSlot n written kept s).tmp = s.tmp ∧
    (putSlot n written kept s).bbr = s.bbr ∧ (putSlot n written kept s).lcs = s.lcs ∧
    (putSlot n written kept s).fuses = s.fuses ∧ (putSlot n written kept s).mnf = s.mnf ∧
    (putSlot n written kept s).fwu = s.fwu ∧ (putSlot n written kept s).drb = s.drb ∧
    (putSlot n written kept s).mem = s.mem ∧ (putSlot n written kept s).gov = s.gov ∧
    (putSlot n written kept s).shown = s.shown := by
  simp [putSlot]

/-- What `countCommit` leaves. -/
@[simp] theorem countCommit_frame (latency : Nat) (s : State) :
    (countCommit latency s).pending = s.pending ∧ (countCommit latency s).out = s.out ∧
    (countCommit latency s).free = s.free ∧ (countCommit latency s).now = s.now ∧
    (countCommit latency s).csn = s.csn ∧ (countCommit latency s).chp = s.chp ∧
    (countCommit latency s).pins = s.pins ∧ (countCommit latency s).hpt = s.hpt ∧
    (countCommit latency s).stats = s.stats ∧ (countCommit latency s).win = s.win ∧
    (countCommit latency s).ttb = s.ttb ∧ (countCommit latency s).car = s.car ∧ (countCommit latency s).cay = s.cay ∧
    (countCommit latency s).mdf = s.mdf ∧ (countCommit latency s).kst = s.kst ∧ (countCommit latency s).leg = s.leg ∧
    (countCommit latency s).slc = s.slc ∧ (countCommit latency s).evr = s.evr ∧ (countCommit latency s).rng = s.rng ∧
    (countCommit latency s).lat = s.lat ∧ (countCommit latency s).bnv = s.bnv ∧ (countCommit latency s).ucp = s.ucp ∧
    (countCommit latency s).wld = s.wld ∧ (countCommit latency s).tmp = s.tmp ∧ (countCommit latency s).bbr = s.bbr ∧
    (countCommit latency s).lcs = s.lcs ∧ (countCommit latency s).fuses = s.fuses ∧
    (countCommit latency s).mnf = s.mnf ∧ (countCommit latency s).flash = s.flash ∧
    (countCommit latency s).fwu = s.fwu ∧ (countCommit latency s).drb = s.drb ∧ (countCommit latency s).mem = s.mem ∧
    (countCommit latency s).gov = s.gov ∧ (countCommit latency s).shown = s.shown := by
  simp [countCommit]

/-- What `sendRec` leaves. -/
@[simp] theorem sendRec_frame (y : Bytes) (s : State) :
    (sendRec y s).pending = s.pending ∧ (sendRec y s).free = s.free ∧ (sendRec y s).now = s.now ∧
    (sendRec y s).csn = s.csn ∧ (sendRec y s).chp = s.chp ∧ (sendRec y s).pins = s.pins ∧ (sendRec y s).hpt = s.hpt ∧
    (sendRec y s).stats = s.stats ∧ (sendRec y s).win = s.win ∧ (sendRec y s).ttb = s.ttb ∧
    (sendRec y s).car = s.car ∧ (sendRec y s).cay = s.cay ∧ (sendRec y s).mdf = s.mdf ∧ (sendRec y s).kst = s.kst ∧
    (sendRec y s).leg = s.leg ∧ (sendRec y s).vlt = s.vlt ∧ (sendRec y s).slc = s.slc ∧ (sendRec y s).evr = s.evr ∧
    (sendRec y s).rng = s.rng ∧ (sendRec y s).lat = s.lat ∧ (sendRec y s).bnv = s.bnv ∧ (sendRec y s).ucp = s.ucp ∧
    (sendRec y s).wld = s.wld ∧ (sendRec y s).tmp = s.tmp ∧ (sendRec y s).bbr = s.bbr ∧ (sendRec y s).lcs = s.lcs ∧
    (sendRec y s).fuses = s.fuses ∧ (sendRec y s).mnf = s.mnf ∧ (sendRec y s).flash = s.flash ∧
    (sendRec y s).fwu = s.fwu ∧ (sendRec y s).drb = s.drb ∧ (sendRec y s).mem = s.mem ∧ (sendRec y s).gov = s.gov ∧
    (sendRec y s).shown = s.shown := by
  simp [sendRec]

/-- What `journalWith` leaves. -/
@[simp] theorem journalWith_frame (ra rb : ProgResult) (kind : JKind) (proposal : Nat) (img : VaultImg) (s : State) :
    (journalWith ra rb kind proposal img s).pending = s.pending ∧
    (journalWith ra rb kind proposal img s).free = s.free ∧ (journalWith ra rb kind proposal img s).now = s.now ∧
    (journalWith ra rb kind proposal img s).chp = s.chp ∧ (journalWith ra rb kind proposal img s).pins = s.pins ∧
    (journalWith ra rb kind proposal img s).hpt = s.hpt ∧ (journalWith ra rb kind proposal img s).stats = s.stats ∧
    (journalWith ra rb kind proposal img s).win = s.win ∧ (journalWith ra rb kind proposal img s).ttb = s.ttb ∧
    (journalWith ra rb kind proposal img s).car = s.car ∧ (journalWith ra rb kind proposal img s).cay = s.cay ∧
    (journalWith ra rb kind proposal img s).mdf = s.mdf ∧ (journalWith ra rb kind proposal img s).kst = s.kst ∧
    (journalWith ra rb kind proposal img s).leg = s.leg ∧ (journalWith ra rb kind proposal img s).slc = s.slc ∧
    (journalWith ra rb kind proposal img s).evr = s.evr ∧ (journalWith ra rb kind proposal img s).rng = s.rng ∧
    (journalWith ra rb kind proposal img s).lat = s.lat ∧ (journalWith ra rb kind proposal img s).bnv = s.bnv ∧
    (journalWith ra rb kind proposal img s).ucp = s.ucp ∧ (journalWith ra rb kind proposal img s).wld = s.wld ∧
    (journalWith ra rb kind proposal img s).tmp = s.tmp ∧ (journalWith ra rb kind proposal img s).lcs = s.lcs ∧
    (journalWith ra rb kind proposal img s).fuses = s.fuses ∧ (journalWith ra rb kind proposal img s).mnf = s.mnf ∧
    (journalWith ra rb kind proposal img s).flash = s.flash ∧ (journalWith ra rb kind proposal img s).fwu = s.fwu ∧
    (journalWith ra rb kind proposal img s).drb = s.drb ∧ (journalWith ra rb kind proposal img s).mem = s.mem ∧
    (journalWith ra rb kind proposal img s).gov = s.gov ∧
    (journalWith ra rb kind proposal img s).shown = s.shown := by
  simp [journalWith]

/-- What `headersAt` leaves. -/
@[simp] theorem headersAt_frame (all : Bool) (s : State) :
    (headersAt all s).pending = s.pending ∧ (headersAt all s).out = s.out ∧ (headersAt all s).free = s.free ∧
    (headersAt all s).now = s.now ∧ (headersAt all s).csn = s.csn ∧ (headersAt all s).chp = s.chp ∧
    (headersAt all s).pins = s.pins ∧ (headersAt all s).hpt = s.hpt ∧ (headersAt all s).stats = s.stats ∧
    (headersAt all s).win = s.win ∧ (headersAt all s).ttb = s.ttb ∧ (headersAt all s).car = s.car ∧
    (headersAt all s).cay = s.cay ∧ (headersAt all s).mdf = s.mdf ∧ (headersAt all s).kst = s.kst ∧
    (headersAt all s).leg = s.leg ∧ (headersAt all s).slc = s.slc ∧ (headersAt all s).evr = s.evr ∧
    (headersAt all s).rng = s.rng ∧ (headersAt all s).lat = s.lat ∧ (headersAt all s).bnv = s.bnv ∧
    (headersAt all s).ucp = s.ucp ∧ (headersAt all s).wld = s.wld ∧ (headersAt all s).tmp = s.tmp ∧
    (headersAt all s).bbr = s.bbr ∧ (headersAt all s).lcs = s.lcs ∧ (headersAt all s).fuses = s.fuses ∧
    (headersAt all s).mnf = s.mnf ∧ (headersAt all s).flash = s.flash ∧ (headersAt all s).fwu = s.fwu ∧
    (headersAt all s).drb = s.drb ∧ (headersAt all s).mem = s.mem ∧ (headersAt all s).gov = s.gov ∧
    (headersAt all s).shown = s.shown := by
  simp [headersAt]

end Sys2Proof.Laws
end

section
/-! PROOFS. Staging and activation (18_manifest_boot_update.md, R361 to R367). -/
namespace Sys2Proof.Proofs

open Sys2Proof.Machine Sys2Proof.Safety Sys2Proof.Laws

variable {p : Port} {n target most : Nat} {d : Bytes} {s u : State}

/-! ### Staging (R361, R362) -/

/-- The state of a stage that has begun through a port. -/
def stageBegun (p : Port) (target : Nat) (s : State) : State :=
  updFwu (fun f => { f with
    stage := 1, stageResult := 0, stagePort := p, stageTarget := target, stageLen := s.fwu.len, stageData := none }) s

theorem stageStart_begins (hs : s.fwu.stage ≠ 1) (ha : actPending s = false) (ht : s.fwu.trial = false)
    (hc : s.fwu.activating = false) (hp : s.gov.pfail = false) (hl : s.fwu.len ≤ most) (h0 : 0 < s.fwu.len) :
    stageStart p target most s =
      dmaRead .stage p none (addr64 s.fwu.addrLo s.fwu.addrHi) s.fwu.len (stageBegun p target s) := by
  have hl' : ¬s.fwu.len > most := by omega
  have h0' : (s.fwu.len == 0) = false := by simp; omega
  simp only [stageStart]
  rw [if_neg (by simp [hs]), if_neg (by simp [ha, ht, hc]), if_neg (by simp [hp]), if_neg hl', h0']
  simp [stageBegun, updFwu, Nat.ne_of_gt h0]

theorem cmdWritten_fwu (p : Port) (s : State) : (cmdWritten p s).fwu = s.fwu ∧ (cmdWritten p s).gov = s.gov ∧
    (cmdWritten p s).flash = s.flash ∧ (cmdWritten p s).vlt = s.vlt := by
  simp [cmdWritten]

/-- A slot written is the slot that shows it; the other is as it was. -/
theorem slotImage_putSlot (n : Nat) (w k : Bytes) (s : State) : slotImage (putSlot n w k s) n = k := by
  by_cases h : n = 0 <;> simp [slotImage, putSlot, flashWrite, emit, h]

theorem slotImage_putSlot_ne {m : Nat} (w k : Bytes) (h : (m == 0) ≠ (n == 0)) (s : State) :
    slotImage (putSlot n w k s) m = slotImage s m := by
  by_cases hn : n = 0
  · have hm : m ≠ 0 := fun hm => h (by rw [hm, hn])
    simp [slotImage, putSlot, flashWrite, emit, hn, hm]
  · have hm : m = 0 := Classical.byContradiction fun hm =>
      h ((beq_eq_false_iff_ne.mpr hm).trans (beq_eq_false_iff_ne.mpr hn).symm)
    simp [slotImage, putSlot, flashWrite, emit, hn, hm]

theorem otherSlot_ne (s : State) : (s.fwu.active == 0) ≠ (otherSlot s == 0) := by
  rcases h : s.fwu.active with _ | k <;> simp [otherSlot, h]

/-- Erasing the inactive slot writes it. -/
theorem eraseSlot_eq (s : State) : ∃ w, eraseSlot s = putSlot (otherSlot s) w [] s := ⟨_, rfl⟩

theorem stageImage_ends (h : wr p .fwu s = true) (hs : s.fwu.stage ≠ 1) (ha : actPending s = false)
    (ht : s.fwu.trial = false) (hc : s.fwu.activating = false) (hp : s.gov.pfail = false) (hl : s.fwu.len ≤ slotLen)
    (h0 : 0 < s.fwu.len) : exec (.stageImage p) s = .next (eraseSlot
      (dmaRead .stage p none (addr64 s.fwu.addrLo s.fwu.addrHi) s.fwu.len (stageBegun p 0 (cmdWritten p s)))) := by
  obtain ⟨hf, hg, -, hv⟩ := cmdWritten_fwu p s
  have ha' : actPending (cmdWritten p s) = false := by rw [actPending, hv, hf]; exact ha
  have hst := stageStart_begins (p := p) (target := 0) (most := slotLen) (s := cmdWritten p s) (by rwa [hf]) ha'
    (by rwa [hf]) (by rwa [hf]) (by rwa [hg]) (by rwa [hf]) (by rwa [hf])
  rw [hf] at hst
  have he : seqd (legTouch p (cntWr p s)) = cmdWritten p s := rfl
  simp only [exec, execStageImage, he, hst]
  exact (onlyIf_pos h).trans (by rw [if_pos]; simp [hs, stageBegun, updFwu])

/-- What an image's stage leaves, once it has begun. -/
theorem stageImage_spec (h : wr p .fwu s = true) (u : State)
    (hu : u = dmaRead .stage p none (addr64 s.fwu.addrLo s.fwu.addrHi) s.fwu.len (stageBegun p 0 (cmdWritten p s))) :
    (eraseSlot u).fwu = { s.fwu with
      stage := 1, stageResult := 0, stagePort := p, stageTarget := 0, stageLen := s.fwu.len, stageData := none } ∧
    slotImage (eraseSlot u) (otherSlot s) = [] ∧ slotImage (eraseSlot u) s.fwu.active = slotImage s s.fwu.active ∧
    (eraseSlot u).csn = s.csn + 1 ∧ (eraseSlot u).car = s.car ∧ (eraseSlot u).kst = s.kst := by
  obtain ⟨hf, -, hfl, -⟩ := cmdWritten_fwu p s
  obtain ⟨w, hw⟩ := eraseSlot_eq u
  have hfwu : u.fwu = { s.fwu with
      stage := 1, stageResult := 0, stagePort := p, stageTarget := 0, stageLen := s.fwu.len, stageData := none } := by
    rw [hu]
    simp [stageBegun, updFwu, hf]
  have hflash : u.flash = s.flash := by rw [hu]; simp [stageBegun, updFwu, hfl]
  have ho : otherSlot u = otherSlot s := by rw [otherSlot, hfwu, otherSlot]
  rw [hw, ho]
  refine ⟨by simp [hfwu], slotImage_putSlot _ _ _ _, ?_, ?_, ?_, ?_⟩
  · rw [slotImage_putSlot_ne _ _ (otherSlot_ne s), slotImage, hflash, slotImage]
  · rw [hu]
    simp [stageBegun, updFwu, cmdWritten_csn h]
  · rw [hu]
    simp [stageBegun, updFwu]
  · rw [hu]
    simp [stageBegun, updFwu]

theorem stageManifest_ends (h : wr p .fwu s = true) (hs : s.fwu.stage ≠ 1) (ha : actPending s = false)
    (ht : s.fwu.trial = false) (hc : s.fwu.activating = false) (hp : s.gov.pfail = false) (hl : s.fwu.len ≤ 65536)
    (h0 : 0 < s.fwu.len) : exec (.stageManifest p) s = .next
      (dmaRead .stage p none (addr64 s.fwu.addrLo s.fwu.addrHi) s.fwu.len (stageBegun p 1 (cmdWritten p s))) := by
  obtain ⟨hf, hg, -, hv⟩ := cmdWritten_fwu p s
  have ha' : actPending (cmdWritten p s) = false := by rw [actPending, hv, hf]; exact ha
  have hst := stageStart_begins (p := p) (target := 1) (most := 65536) (s := cmdWritten p s) (by rwa [hf]) ha'
    (by rwa [hf]) (by rwa [hf]) (by rwa [hg]) (by rwa [hf]) (by rwa [hf])
  rw [hf] at hst
  have he : seqd (legTouch p (cntWr p s)) = cmdWritten p s := rfl
  simp only [exec, execStageManifest, he, hst]
  exact onlyIf_pos h

theorem stageAbort_ends (h : wr p .fwu s = true) (hs : s.fwu.stage = 1) : exec (.stageAbort p) s = .next
    (updFwu (fun f => { f with stage := 0, stageResult := 0, stageData := none }) (cmdWritten p s)) := by
  have he : seqd (legTouch p (cntWr p s)) = cmdWritten p s := rfl
  simp only [exec, execStageAbort, he]
  exact (onlyIf_pos h).trans (by simp [hs])

/-- A stage that ends. -/
theorem stageEnd_fwu (code : Nat) (s : State) : (stageEnd code s).fwu =
    { s.fwu with stage := if code == 0 then 2 else 3, stageResult := code, stageData := none } := by
  simp [stageEnd, updFwu]

/-- Data that has come is written, once no PFAIL_N is asserted. -/
theorem stageDone_ends {ok : Bool} (hl : live s = true) (hs : s.fwu.stage = 1) (hd : s.fwu.stageData = some d)
    (hp : s.gov.pfail = false) : exec (.stageDone ok) s = .next
      (if s.fwu.stageTarget == 1 then stageManifestEnd d ok s else if ok then stageImageEnd d s else stageEnd 10 s) := by
  have hpow : powered s = true := by
    simp only [live, Bool.and_eq_true] at hl
    exact hl.1
  simp only [exec, execStageDone, hd, Option.getD_some]
  exact onlyIf_pos (by simp [hpow, hl, hs, hp])

theorem slotImage_congr {n : Nat} (h : u.flash = s.flash) : slotImage u n = slotImage s n := by
  rw [slotImage, h, slotImage]

/-- A staged image stands in the inactive slot. -/
theorem stageImageEnd_spec (d : Bytes) (s : State) : slotImage (stageImageEnd d s) (otherSlot s) = d ∧
    (stageImageEnd d s).fwu.stageData = none := by
  have hfl : ∀ c w u, (fwRecord 1 (otherSlot s) w (stageEnd c u)).flash = u.flash := fun c w u => by simp
  refine ⟨?_, ?_⟩
  · exact (slotImage_congr (hfl _ _ _)).trans (slotImage_putSlot _ _ _ _)
  · simp [stageImageEnd, stageEnd_fwu]

/-- A manifest that its checks pass stands in both copies; one that they do not changes no flash. -/
theorem stageManifestEnd_spec (d : Bytes) (s : State) :
    if (checkManifest (anchorOf s.lcs.state s.lcs.unlocked s.fuses) (fmtMaxNow s) (some d)).fail = 0 then
      (stageManifestEnd d true s).flash.manA = some d ∧ (stageManifestEnd d true s).flash.manB = some d ∧
      (stageManifestEnd d true s).fwu.stage = 2 ∧ (stageManifestEnd d true s).fwu.stageResult = 0
    else
      (stageManifestEnd d true s).flash = s.flash ∧ (stageManifestEnd d true s).fwu.stage = 3 ∧
      (stageManifestEnd d true s).fwu.stageResult = 14 := by
  simp only [stageManifestEnd]
  generalize checkManifest (anchorOf s.lcs.state s.lcs.unlocked s.fuses) (fmtMaxNow s) (some d) = c
  split
  · next h => simp [h, stageEnd_fwu, flashWrite, emit]
  · next h => simp [h, stageEnd_fwu]

end Sys2Proof.Proofs
end

section
/-! PROOFS. Activation, its confirmation and its fallback, and the obligation (18_manifest_boot_update.md, R363 to R367). -/
namespace Sys2Proof.Proofs

open Sys2Proof.Machine Sys2Proof.Safety Sys2Proof.Laws

variable {mark : Nat} {y : Bytes} {s u : State}

/-! ### Results and confirmations (R365, R367) -/

theorem actEnd_fwu (code : Nat) (s : State) : (actEnd code s).fwu = { s.fwu with actResult := code } := by
  simp [actEnd, updFwu]

theorem fwRecord_fwu (kind slot : Nat) (v : Bytes) (s : State) : (fwRecord kind slot v s).fwu = s.fwu := by simp

/-- A burn that begins is marked due, and dated. -/
theorem arbBegin_fwu (s : State) : (arbBegin s).fwu =
    { s.fwu with arbDue := (arbBegin s).fwu.arbDue, arbAt := (arbBegin s).fwu.arbAt } := by
  unfold arbBegin
  split <;> rfl

/-- The burn that an activation asks for, or nothing. -/
def burnAsked (s : State) : State := if wantsArb s then arbBegin s else s

theorem burnAsked_fwu (s : State) : (burnAsked s).fwu =
    { s.fwu with arbDue := (burnAsked s).fwu.arbDue, arbAt := (burnAsked s).fwu.arbAt } := by
  unfold burnAsked
  split
  · exact arbBegin_fwu s
  · rfl

@[simp] theorem burnAsked_frame (s : State) : (burnAsked s).wld = s.wld ∧ (burnAsked s).vlt = s.vlt ∧
    (burnAsked s).csn = s.csn := by
  unfold burnAsked
  split <;> simp

/-- Confirming what is on trial. -/
def trialOver (s : State) : State :=
  if s.fwu.trial then updFwu (fun f => { f with trial := false, activating := false }) (confirmCtl s) else s

theorem confirmOnly_eq (s : State) :
    confirmOnly s = actEnd 1 (fwRecord 2 s.fwu.active s.fwu.ver (burnAsked (trialOver s))) := rfl

theorem confirmOnly_spec (s : State) : (confirmOnly s).wld = s.wld ∧ (confirmOnly s).fwu.actResult = 1 ∧
    (confirmOnly s).fwu.trial = false := by
  have ht : (trialOver s).fwu.trial = false := by
    unfold trialOver
    split
    · rfl
    · next h => simpa using h
  have hw : (trialOver s).wld = s.wld := by
    unfold trialOver
    split <;> simp [updFwu]
  rw [confirmOnly_eq, actEnd_fwu, fwRecord_fwu, burnAsked_fwu]
  exact ⟨by simp [hw], rfl, ht⟩

/-- The state with its trial over and its image confirmed. -/
def confirmed (s : State) : State :=
  updFwu (fun f => { f with trial := false, activating := false, migCommits := 0 }) (confirmCtl s)

theorem confirm_eq (s : State) : confirm s = actEnd 1 (fwRecord (if s.fwu.migCommits > 0 then 3 else 2) s.fwu.active
    s.fwu.ver (burnAsked (confirmed s))) := rfl

theorem confirm_spec (s : State) : (confirm s).fwu.trial = false ∧ (confirm s).fwu.activating = false ∧
    (confirm s).fwu.actResult = 1 ∧ (confirm s).fwu.migPct = s.fwu.migPct ∧ (confirm s).vlt = s.vlt ∧
    (confirm s).csn = s.csn := by
  have hc : (confirmCtl s).fwu = s.fwu := by simp
  have hf : (confirmed s).fwu = { s.fwu with trial := false, activating := false, migCommits := 0 } := by
    rw [confirmed, updFwu, hc]
  have hb : (fwRecord (if s.fwu.migCommits > 0 then 3 else 2) s.fwu.active s.fwu.ver (burnAsked (confirmed s))).fwu =
      { s.fwu with trial := false, activating := false, migCommits := 0
                   arbDue := (burnAsked (confirmed s)).fwu.arbDue, arbAt := (burnAsked (confirmed s)).fwu.arbAt } := by
    rw [fwRecord_fwu, burnAsked_fwu, hf]
  rw [confirm_eq, actEnd_fwu, hb]
  refine ⟨rfl, rfl, rfl, rfl, ?_, ?_⟩ <;> simp [confirmed, updFwu]

/-! ### The barrier (R364) -/

/-- The pending activation begun, at its CSN. -/
def barrierAt (s : State) : State :=
  seqd (updFwu (fun f => { f with actDone := s.vlt.img.activation, firstMark := none, actCnt := satInc 16 f.actCnt }) s)

/-- The worlds set running again after a stop. -/
def worldsRun (now : Nat) (s : State) : State :=
  updWld (fun w => { w with
    secure := { w.secure with state := .running, kickAt := now }
    normal := { w.normal with state := .running, kickAt := now } }) s

theorem barrier_ends (hl : live s = true) (hv : s.chp.vaultOpen = true) (ha : actPending s = true)
    (hp : s.gov.pfail = false) (hm : s.fwu.firstMark = some mark)
    (hr : s.fwu.activating = false ∨
      headerDigest (slotImage s s.fwu.active) = sub s.vlt.img.activation 16 48 ∧ s.fwu.migrating = false) :
    exec (.activationBarrier mark) s = .next
      (if headerDigest (slotImage s s.fwu.active) == sub s.vlt.img.activation 16 48 then confirmOnly (barrierAt s)
       else if imageCheck s s.mnf.fwCosign (slotImage s (otherSlot s)) != 0 ||
           headerDigest (slotImage s (otherSlot s)) != sub s.vlt.img.activation 16 48 then
         actEnd 2 (worldsRun s.now (stopWorlds (barrierAt s)))
       else loadNew (otherSlot s) (stopWorlds (barrierAt s))) := by
  have hready : (actReady s && s.fwu.firstMark == some mark) = true := by
    rw [actReady, hl, hv, ha, hp, hm]
    rcases hr with h | ⟨h, hg⟩
    · simp [h]
    · simp [h, hg]
  exact onlyIf_pos hready

theorem barrierAt_spec (s : State) : (barrierAt s).wld = s.wld ∧ (barrierAt s).fwu.active = s.fwu.active ∧
    (barrierAt s).flash = s.flash := by
  simp [barrierAt, updFwu]

/-- Where the staged image does not stand, the worlds run the old one. -/
theorem notLoaded_spec (s : State) : (actEnd 2 (worldsRun s.now (stopWorlds (barrierAt s)))).fwu.actResult = 2 ∧
    (actEnd 2 (worldsRun s.now (stopWorlds (barrierAt s)))).fwu.active = s.fwu.active ∧
    (actEnd 2 (worldsRun s.now (stopWorlds (barrierAt s)))).flash = s.flash ∧
    (actEnd 2 (worldsRun s.now (stopWorlds (barrierAt s)))).wld.secure.state = .running ∧
    (actEnd 2 (worldsRun s.now (stopWorlds (barrierAt s)))).wld.normal.state = .running := by
  obtain ⟨-, h2, h3⟩ := barrierAt_spec s
  refine ⟨by rw [actEnd_fwu], ?_, ?_, ?_, ?_⟩
  · rw [actEnd_fwu]
    simpa [worldsRun, updWld] using h2
  · simpa [worldsRun, updWld] using h3
  · simp [worldsRun, updWld]
  · simp [worldsRun, updWld]

/-! ### Confirmation (R365, R366) -/

/-- A confirmation whose conditions hold. -/
theorem confirm_ends (hl : live s = true) (hv : s.chp.vaultOpen = true) (ha : s.fwu.activating = true)
    (hp : s.gov.pfail = false) (hs : s.wld.secure.state = .running) (hn : s.wld.normal.state = .running)
    (hb : s.fwu.arbAt = none) (hm : s.fwu.migrating = false ∨ migFree s = true) {a : State}
    (ha' : a = if s.fwu.migrating then migrateOne s else s) :
    exec .activationConfirm s = .next (if inFault a || a.fwu.migrating then a else confirm a) := by
  have hok : (live s && s.chp.vaultOpen && s.fwu.activating && !s.gov.pfail && s.wld.secure.state == .running &&
      s.wld.normal.state == .running && (!s.fwu.migrating || migFree s)) = true := by
    rw [hl, hv, ha, hp, hs, hn]
    rcases hm with h | h <;> simp [h]
  simp only [exec, execActivationConfirm, hb]
  rw [ha']
  exact onlyIf_pos hok

/-- The next page group, migrated by a commit that both devices take. -/
def migrated (s : State) : State :=
  countCommit 0 (updFwu (fun f => { f with
    migPct := migNext s, migCommits := f.migCommits + 1, migrating := migNext s < 100
    vaultFmt := if migNext s < 100 then f.vaultFmt else f.migTo })
    (journalWith (freeProg (draw s)) (freeProg (draw (draw s))) .commit 0 (migImg (migNext s) (draw (draw (draw (draw s)))))
      (headersAt (migNext s ≥ 100) (draw (draw (draw (draw s)))))))

theorem migrateOne_both (h1 : progOk (freeProg (draw s)) = true) (h2 : progOk (freeProg (draw (draw s))) = true) :
    migrateOne s = migrated s := by
  simp only [migrateOne, h1, h2]
  rfl

theorem migrateOne_failA (h1 : progOk (freeProg (draw s)) = false) : ∃ y, migrateOne s =
    commitFailA 0 (freeProg (draw s)) y (draw (draw (draw (draw s)))) := by
  simp only [migrateOne, h1]
  exact ⟨_, rfl⟩

theorem headersAt_vlt (b : Bool) (s : State) :
    (headersAt b s).vlt = { s.vlt with a := (headersAt b s).vlt.a, b := (headersAt b s).vlt.b } := rfl

theorem migNext_gt (h : migNext s < 100) : s.fwu.migPct < migNext s := by
  simp only [migNext] at h ⊢
  generalize drawn s % 100 = x at *
  omega

/-- What a migrated page group leaves. -/
theorem migrated_spec (hF : inFault s = false) : (migrated s).vlt.epoch = s.vlt.epoch + 1 ∧ (migrated s).csn = s.csn + 1 ∧
    (migrated s).fwu.migPct = migNext s ∧ (migrated s).fwu.migrating = decide (migNext s < 100) ∧
    (migrated s).fwu.activating = s.fwu.activating ∧ (migrated s).chp = s.chp := by
  have hd : inFault (headersAt (migNext s ≥ 100) (draw (draw (draw (draw s))))) = false := by
    simpa [inFault, draw] using hF
  obtain ⟨j1, j2, -, -, -, -, j7, -⟩ := journalWith_spec (id := 0) (freeProg (draw s)) (freeProg (draw (draw s))) .commit
    (migImg (migNext s) (draw (draw (draw (draw s))))) hd
  have jf : ∀ a b k i w u, (journalWith a b k i w u).fwu = u.fwu := fun a b k i w u => by simp
  simp only [migrated, countCommit, updVlt, updFwu]
  rw [j1, j2, j7, jf, headersAt_vlt]
  refine ⟨rfl, by simp [draw], trivial, trivial, ?_, ?_⟩ <;> simp [draw]

/-! ### A migration that vault A does not take (R226) -/

/-- A step that leaves of the vault all but its proposals and what is kept for carriages. -/
def VaultRest (s u : State) : Prop := u.vlt = { s.vlt with props := u.vlt.props, snap := u.vlt.snap }

theorem VaultRest.trans {v : State} (h : VaultRest s u) (k : VaultRest u v) : VaultRest s v := by
  unfold VaultRest at *
  rw [k, h]

theorem vaultRest_endRel : EndRel VaultRest where
  trans := VaultRest.trans
  same _ h _ _ := by rw [VaultRest, h]
  forget _ _ := rfl

theorem updProp_vaultRest (id : Nat) (f : Proposal → Proposal) (s : State) : VaultRest s (updProp id f s) := rfl

theorem dropSign_vaultRest (id : Nat) (s : State) : VaultRest s (dropSign id s) := by
  unfold dropSign
  split <;> rfl

theorem closeProp_vaultRest (id : Nat) (s : State) : VaultRest s (closeProp id s) := by
  unfold closeProp
  dsimp only
  split
  · rfl
  · split
    · exact ((updProp_vaultRest id _ s).trans (dropSign_vaultRest id _)).trans (vaultRest_endRel.done _ _ _ _)
    · exact (updProp_vaultRest id _ s).trans (dropSign_vaultRest id _)

theorem closeProps_vaultRest (s : State) : VaultRest s (closeProps s) :=
  vaultRest_endRel.foldl (fun u i => closeProp_vaultRest i u) _ s

/-- Vault A's failure leaves vault B alone, whatever proposals close with it. -/
theorem commitFailA_spec (r : ProgResult) (y : Bytes) (hv : s.vlt.mode = .normal) :
    (commitFailA 0 r y s).vlt.mode = .single ∧ (commitFailA 0 r y s).vlt.cause = 5 ∧
    (commitFailA 0 r y s).vlt.devA = 2 ∧ (commitFailA 0 r y s).vlt.epoch = s.vlt.epoch ∧
    (commitFailA 0 r y s).vlt.img = s.vlt.img ∧ (commitFailA 0 r y s).fwu = s.fwu ∧
    (commitFailA 0 r y s).chp = s.chp := by
  have hl : vaultLive s = true := by simp [vaultLive, hv]
  have he : commitFailA 0 r y s =
      closeProp 0 (closeProps (vaultMoved .single 5 (devFailed false (progOne false r y s)))) := by
    have hm : vaultTo .single 5 (devFailed false (progOne false r y s)) =
        closeProps (vaultMoved .single 5 (devFailed false (progOne false r y s))) :=
      vaultTo_single 5 hl (by simp [devFailed, progOne, emit, updVlt, hv])
    simp only [commitFailA, hl, if_true, hm]
  have hw := (closeProps_vaultRest (vaultMoved .single 5 (devFailed false (progOne false r y s)))).trans
    (closeProp_vaultRest 0 _)
  rw [he]
  unfold VaultRest at hw
  rw [hw, vaultMoved_vlt]
  refine ⟨rfl, rfl, rfl, rfl, rfl, ?_, ?_⟩ <;> simp [vaultMoved, devFailed, progOne, emit, updVlt]

/-! ### A burn's steps and the fallback (R347, R365, R366) -/

theorem arbNext_spec (s : State) : (arbNext s).fuses = burnArb (arbCount s.fuses + 1) s.fuses ∧
    (arbCount (arbNext s).fuses < arbTarget s →
      (arbNext s).fwu = { s.fwu with arbDue := true, arbAt := if s.gov.pfail then none else some s.now }) ∧
    (arbTarget s ≤ arbCount (arbNext s).fuses → (arbNext s).fwu = { s.fwu with arbDue := false, arbAt := none }) ∧
    arbNext s = { s with fuses := (arbNext s).fuses, fwu := (arbNext s).fwu } := by
  have hf : (arbNext s).fuses = burnArb (arbCount s.fuses + 1) s.fuses := rfl
  refine ⟨hf, fun h => ?_, fun h => ?_, rfl⟩
  · rw [hf] at h
    have h' : ¬arbTarget s ≤ arbCount (burnArb (arbCount s.fuses + 1) s.fuses) := by omega
    simp [arbNext, updFwu, h']
  · rw [hf] at h
    simp [arbNext, updFwu, h]

theorem fallBack_spec (code : Nat) (s : State) : (fallBack code s).fwu.activating = false ∧
    (fallBack code s).fwu.trial = false ∧ (fallBack code s).fwu.actResult = code ∧
    (fallBack code s).wld.secure.state = .running ∧ (fallBack code s).wld.normal.state = .running ∧
    (fallBack code s).fwu.fallbacks = satInc 16 s.fwu.fallbacks := by
  simp only [fallBack]
  rw [actEnd_fwu]
  refine ⟨rfl, rfl, rfl, ?_, ?_, ?_⟩ <;> simp [updFwu, runSlot, worldsStart, updWld]

/-! ### The obligation -/

/-- Settles O54: each command's outcome is written out once; what it stops, writes and confirms is then read off. -/
theorem firmwareStagesAndActivates : Obligations.FirmwareStagesAndActivates := by
  unfold Obligations.FirmwareStagesAndActivates
  refine ⟨fun p s h hs ha ht hc hp => ⟨fun hl h0 => ?_, fun hl h0 => ?_⟩, fun p s h hs => ?_, fun d s hl hs hd hp => ?_,
    fun mark s hl hv ha hp hm u hu => ⟨fun hd hr => ?_, fun hd hr => ?_⟩, fun s hl hv ha hp hs hn hb => ⟨fun hm => ?_,
    fun hm hf => ?_⟩, fun at_ s hl hb ht => ?_, fun s hl ha hw => ⟨fun hm hp => ?_, fun hm => ?_⟩⟩
  · obtain ⟨h1, h2, h3, h4, h5, h6⟩ := stageImage_spec h _ rfl
    exact ⟨_, stageImage_ends h hs ha ht hc hp hl h0, by rw [h1], by rw [h1], by rw [h1], by rw [h1], by rw [h1], h2, h3,
      h4, h5, h6⟩
  · obtain ⟨hf, -, hfl, -⟩ := cmdWritten_fwu p s
    refine ⟨_, stageManifest_ends h hs ha ht hc hp hl h0, ?_⟩
    simp [stageBegun, updFwu, hf, hfl, cmdWritten_csn h]
  · obtain ⟨hf, -, hfl, -⟩ := cmdWritten_fwu p s
    refine ⟨_, stageAbort_ends h hs, ?_⟩
    simp [updFwu, hf, hfl, cmdWritten_csn h]
  · have hrow := fun ok => stageDone_ends (ok := ok) hl hs hd hp
    obtain ⟨i1, i2⟩ := stageImageEnd_spec d s
    refine ⟨fun ht => ⟨?_, i1, i2⟩, fun ht => ?_, fun ht ok => ?_, stageManifestEnd_spec d s⟩
    · simpa [ht] using hrow true
    · simpa [ht] using hrow false
    · simpa [ht] using hrow ok
  · obtain ⟨h1, -⟩ := barrierAt_spec s
    obtain ⟨c1, c2, c3⟩ := confirmOnly_spec (barrierAt s)
    have hu' : barrierAt s = u := hu
    rw [hu'] at c1 c2 c3 h1
    refine ⟨?_, c1.trans h1, c2, c3⟩
    rw [barrier_ends hl hv ha hp hm (hr.elim .inl fun h => .inr ⟨hd, h⟩), if_pos (by simp [hd]), hu']
  · have hu' : barrierAt s = u := hu
    have hrow := barrier_ends hl hv ha hp hm (.inl hr)
    rw [if_neg (by simpa using hd)] at hrow
    refine ⟨_, hrow, ?_⟩
    split
    · next h => rw [if_neg (by simp [h.1, h.2]), hu']
    · next h =>
      rw [if_pos (by
        simp only [Bool.or_eq_true, bne_iff_ne]
        exact Decidable.not_and_iff_or_not.mp h)]
      exact notLoaded_spec s
  · obtain ⟨h1, h2, h3, -⟩ := confirm_spec s
    refine ⟨?_, h1, h2, h3⟩
    rw [confirm_ends hl hv ha hp hs hn hb (.inl hm) rfl, hm]
    simp [inFault_of_live hl, hm]
  · have hF := inFault_of_live hl
    refine ⟨_, confirm_ends hl hv ha hp hs hn hb (.inr hf) rfl, fun hok => ?_, fun hno => ?_⟩
    · obtain ⟨m1, m2, m3, m4, m5, m6⟩ := migrated_spec hF
      have hFm : inFault (migrated s) = false := by rw [inFault, m6]; exact hF
      obtain ⟨-, -, -, c4, c5, c6⟩ := confirm_spec (migrated s)
      rw [hm, if_pos rfl, migrateOne_both hok.1 hok.2, hFm, Bool.false_or]
      by_cases hn : migNext s < 100
      · rw [if_pos (by simp [m4, hn]), m5, m3]
        exact ⟨m1, m2, fun h => ⟨ha, migNext_gt h⟩⟩
      · rw [if_neg (by simp [m4, hn]), c4, c5, c6, m3]
        exact ⟨m1, m2, fun h => absurd h hn⟩
    · obtain ⟨y, hy⟩ := migrateOne_failA hno.1
      obtain ⟨a1, a2, a3, a4, a5, a6, a7⟩ :=
        commitFailA_spec (freeProg (draw s)) y (s := draw (draw (draw (draw s)))) hno.2
      have hg : (commitFailA 0 (freeProg (draw s)) y (draw (draw (draw (draw s))))).fwu.migrating = true := by
        rw [a6]
        exact hm
      rw [hm, if_pos rfl, hy, hg, Bool.or_true, if_pos rfl, a1, a2, a3, a4, a5, a6]
      exact ⟨rfl, rfl, rfl, rfl, rfl, ha, rfl⟩
  · obtain ⟨a1, a2, a3, a4⟩ := arbNext_spec s
    refine ⟨arbNext s, ?_, a1, a2, a3, a4⟩
    simp only [exec, execActivationConfirm, hb]
    exact onlyIf_pos (by simp [hl, ht])
  · obtain ⟨f1, f2, f3, f4, f5, f6⟩ := fallBack_spec 3 (stopWorlds s)
    refine ⟨?_, f1, f2, f3, f4, f5, f6.trans (by simp)⟩
    exact (onlyIf_pos (by rcases hw with h | h <;> simp [hl, ha, h, hp])).trans (by simp [hm])
  · refine ⟨_, (onlyIf_pos (by rcases hw with h | h <;> simp [hl, ha, h, hm])).trans (by rw [if_pos hm]),
      enterFault_chp 6 hl⟩

end Sys2Proof.Proofs
end

section
/-! PROOFS. A member of the drawbar chain (19_drawbar_chain.md, R371 to R378). -/
namespace Sys2Proof.Proofs

open Sys2Proof.Machine Sys2Proof.Safety Sys2Proof.Laws

variable {b : Bytes} {x : Frame} {s u : State}

/-! ### Frames and records -/

/-- A frame that stands its checks, of the type and length that the command takes. -/
theorem onFrame_takes {type : Nat} {ok : Frame → Bool} {f : Frame → State → State} (hl : live s = true)
    (hx : readFrame b = some x) (ht : x.type = type) (hn : frameLen type = some x.body.length) (hok : ok x = true) :
    onFrame b type ok f s = .next (f x s) := by
  refine (onlyIf_pos hl).trans ?_
  rw [hx]
  simp [ht, hn, hok]

/-- A record of the drawbar changes the event recorder alone. -/
theorem drbRecord_eq (kind addr : Nat) (id : Bytes) (s : State) : ∃ e, drbRecord kind addr id s = { s with evr := e } :=
  ⟨_, record_eq .drawbar _ s⟩

theorem dropAddr_eq (h : s.drb.addr ≠ 0) : ∃ e, dropAddr s = { s with
    drb := { s.drb with addr := 0, selOut := false, joinTry := 0 }, evr := e } := by
  obtain ⟨e, he⟩ := drbRecord_eq 3 s.drb.addr unitId16
    (updDrb (fun d => { d with addr := 0, selOut := false, joinTry := 0 }) s)
  exact ⟨e, (if_neg (by simp [h])).trans he⟩

/-! ### A mark (R364, R375) -/

/-- Whether an activation can begin depends on neither time, the chain, what was sent nor the recorder. -/
theorem actReady_congr (hc : u.chp = s.chp) (hv : u.vlt = s.vlt) (hf : u.fwu = s.fwu) (hg : u.gov = s.gov)
    (hfl : u.flash = s.flash) : actReady u = actReady s := by
  simp only [actReady, actPending, live, powered, slotImage, hc, hv, hf, hg, hfl]

/-- The barrier that a mark is, or nothing. -/
theorem markBarrier_fwu (hc : u.chp = s.chp) (hv : u.vlt = s.vlt) (hf : u.fwu = s.fwu) (hg : u.gov = s.gov)
    (hfl : u.flash = s.flash) (mark : Nat) : markBarrier mark u = { u with fwu := (markBarrier mark s).fwu } := by
  have ht : actTime u = actTime s := by rw [actTime, hv, actTime]
  simp only [markBarrier, actReady_congr hc hv hf hg hfl, ht, hf]
  split
  · simp only [updFwu, hf]
  · rw [← hf]

theorem markBarrier_marks {mark : Nat} (hf : s.fwu.firstMark = none) (ha : actReady s = true) (ht : actTime s ≤ mark) :
    (markBarrier mark s).fwu.firstMark = some mark := by
  simp [markBarrier, hf, ha, ht, updFwu]

theorem markBarrier_none {mark : Nat} (h : s.fwu.firstMark ≠ none ∨ actReady s = false ∨ mark < actTime s) :
    markBarrier mark s = s := by
  rw [markBarrier, if_neg]
  rcases h with h | h | h
  · simp [Option.isNone_iff_eq_none, h]
  · simp [h]
  · simp [Nat.not_le.mpr h]

/-- The offset that a mark shows. -/
def markOffset (mark : Nat) (s : State) : Int := (mark : Int) + ((s.drb.delay + 500) / 1000 : Nat) - (s.now : Int)

/-- The chain's state once a mark has been taken. -/
def markTaken (mark cycle : Nat) (s : State) : Drb :=
  { s.drb with
    marksRx := satInc 32 s.drb.marksRx, marksMissed := satAdd 32 s.drb.marksMissed (missedSince s - s.drb.missRun), missRun := 0
    timeValid := true, lastE := max (-32768) (min 32767 (markOffset mark s)), cycle := cycle, mark := mark, sent := false
    state := if markOffset mark s ≤ -1 then .slewing else .locked, slewLeft := (-markOffset mark s).toNat, halfTick := false }

/-- Time stepped forward, and the step counted. -/
theorem stepTime_eq (e : Nat) (s : State) : ∃ v, stepTime e s = { s with
    now := s.now + e, evr := v
    drb := { s.drb with steps := satInc 16 s.drb.steps, stepMax := max s.drb.stepMax (min 0xFFFFFFFF e) } } := by
  simp only [stepTime]
  split
  · obtain ⟨v, hv⟩ := drbRecord_eq 8 s.drb.addr unitId16 { s with
      now := s.now + e
      drb := { s.drb with steps := satInc 16 s.drb.steps, stepMax := max s.drb.stepMax (min 0xFFFFFFFF e) } }
    exact ⟨v, hv⟩
  · exact ⟨s.evr, rfl⟩

/-- The step of device time that a mark asks for, or none. -/
theorem markStep_eq (e : Int) (s : State) : ∃ v m, (if e ≥ 1 then stepTime e.toNat s else s) = { s with
    now := s.now + e.toNat, evr := v
    drb := { s.drb with steps := if 1 ≤ e then satInc 16 s.drb.steps else s.drb.steps, stepMax := m } } := by
  by_cases h : 1 ≤ e
  · obtain ⟨v, hv⟩ := stepTime_eq e.toNat s
    exact ⟨v, _, by rw [if_pos h, hv, if_pos h]⟩
  · have h0 : e.toNat = 0 := by omega
    exact ⟨s.evr, s.drb.stepMax, by rw [if_neg h, h0, if_neg h]; rfl⟩

/-- The chain's state once a mark has been applied, the step counted and the cycle's start set. -/
def markApplied (mark cycle m : Nat) (s : State) : Drb :=
  { markTaken mark cycle s with
    steps := if 1 ≤ markOffset mark s then satInc 16 s.drb.steps else s.drb.steps, stepMax := m
    cycleAt := s.now + (markOffset mark s).toNat }

/-- The state that a mark's time, chain and records give. -/
def markMoved (mark cycle m : Nat) (v : Evr) (s : State) : State :=
  { s with now := s.now + (markOffset mark s).toNat, drb := markApplied mark cycle m s, evr := v }

theorem markBarrier_moved (mark cycle m : Nat) (v : Evr) (s : State) :
    markBarrier mark (markMoved mark cycle m v s) = { markMoved mark cycle m v s with fwu := (markBarrier mark s).fwu } :=
  markBarrier_fwu (s := s) (u := markMoved mark cycle m v s) rfl rfl rfl rfl rfl mark

/-- What a mark does to time and the chain, before its records and the barrier. -/
def markCycle (mark cycle : Nat) (s : State) : State :=
  let t := if markOffset mark s ≥ 1 then stepTime (markOffset mark s).toNat { s with drb := markTaken mark cycle s }
    else { s with drb := markTaken mark cycle s }
  updDrb (fun d => { d with cycleAt := t.now }) t

theorem markCycle_eq (mark cycle : Nat) (s : State) : ∃ v m, markCycle mark cycle s = markMoved mark cycle m v s := by
  obtain ⟨v, m, hv⟩ := markStep_eq (markOffset mark s) { s with drb := markTaken mark cycle s }
  exact ⟨v, m, by rw [markCycle, hv]; rfl⟩

/-- A mark applied: time, the chain's state, the records and the barrier. -/
theorem applyMark_eq (mark cycle : Nat) (s : State) : ∃ v m,
    applyMark mark cycle s = { markMoved mark cycle m v s with fwu := (markBarrier mark s).fwu } := by
  obtain ⟨v, m, hv⟩ := markCycle_eq mark cycle s
  have he : applyMark mark cycle s = markBarrier mark (if s.drb.state == .headLost then
      drbRecord 6 s.drb.addr unitId16 (markCycle mark cycle s) else markCycle mark cycle s) := rfl
  rw [he, hv]
  split
  · obtain ⟨w, hw⟩ := drbRecord_eq 6 s.drb.addr unitId16 (markMoved mark cycle m v s)
    exact ⟨w, m, hw ▸ markBarrier_moved mark cycle m w s⟩
  · exact ⟨v, m, markBarrier_moved mark cycle m v s⟩

/-! ### The obligation -/

/-- Settles O55: a frame that stands its checks is what its command does; the records that it leaves are the event
recorder's. -/
theorem drawbarMemberFollowsItsHead : Obligations.DrawbarMemberFollowsItsHead := by
  unfold Obligations.DrawbarMemberFollowsItsHead
  refine ⟨fun b x s hl hh hx hsrc => ⟨fun ht hn hd hsel ha h2 h126 => ?_, fun ht hn ha hd => ?_, fun ht hn hme ha => ?_,
    fun ht hn ha => ?_, fun ht hn e he => ?_⟩, fun s hl hs h0 => ?_, fun s hl hh hs hm => ?_,
    fun s hl hh hs hsent => ⟨fun ha hc h1 h2 => ?_, fun hsel ha hc h1 h2 => ?_⟩⟩
  · obtain ⟨v, hv⟩ := drbRecord_eq 1 (fld x.body 0 1) unitId16 (sendFrame 3 1 (fld x.body 0 1)
      (unitId16 ++ natLe 8 s.now ++ natLe 1 (b2n s.drb.timeValid) ++ zeros 3)
      (updDrb (fun d => { d with addr := fld x.body 0 1, selOut := true, joinTry := 0 }) s))
    have ht' : execAssign b s = .next _ := onFrame_takes hl hx ht (by rw [hn]; rfl)
      (by simp [hh, hd, hsrc, hsel, ha, h2, h126])
    exact ⟨_, ht'.trans (congrArg Host.Outcome.next hv), rfl, rfl, rfl⟩
  · exact onFrame_takes hl hx ht (by rw [hn]; rfl) (by simp [hh, hsrc, ha, hd])
  · obtain ⟨v, hv⟩ := dropAddr_eq ha
    exact ⟨_, (onFrame_takes hl hx ht (by rw [hn]; rfl) (by simp [hh, hsrc, hme])).trans
      (congrArg Host.Outcome.next hv), rfl, rfl⟩
  · obtain ⟨v, hv⟩ := dropAddr_eq ha
    exact ⟨_, (onFrame_takes hl hx ht (by rw [hn]; rfl) (by simp [hh, hsrc])).trans
      (congrArg Host.Outcome.next hv), rfl, rfl⟩
  · obtain ⟨v, m, hm⟩ := applyMark_eq (fld x.body 0 8) (fld x.body 8 1) s
    obtain rfl : e = markOffset (fld x.body 0 8) s := he
    exact ⟨_, (onFrame_takes hl hx ht (by rw [hn]; rfl) (by simp [hh, hsrc])).trans (congrArg Host.Outcome.next hm),
      rfl, rfl, rfl, rfl, rfl, rfl, rfl, rfl, rfl, rfl, rfl, fun hf hr ht => markBarrier_marks hf hr ht,
      fun h => (congrArg State.fwu (markBarrier_none h) : (markBarrier (fld x.body 0 8) s).fwu = s.fwu), rfl⟩
  · exact onlyIf_pos (by simp [hl, hs, h0])
  · obtain ⟨v, hv⟩ := drbRecord_eq 5 s.drb.addr unitId16
      (updDrb (fun d => { d with state := .headLost, slewLeft := 0, halfTick := false }) s)
    exact ⟨_, (onlyIf_pos (by simp [hl, hh, hs, hm])).trans (congrArg Host.Outcome.next hv), rfl, rfl⟩
  · have hc' : cycleNow s = (s.drb.addr - 2) / 2 := hc
    have h1' : 200 + 100 * ((s.drb.addr - 2) % 2) ≤ cycleOff s := h1
    have h2' : cycleOff s < 200 + 100 * ((s.drb.addr - 2) % 2) + 100 := h2
    exact onlyIf_pos (by simp [hl, hh, hs, hsent, ha, hc', h1', h2'])
  · have hc' : cycleNow s = 99 := hc
    have h1' : 200 + 40 * joinSlot s.drb.joinTry ≤ cycleOff s := h1
    have h2' : cycleOff s < 200 + 40 * joinSlot s.drb.joinTry + 40 := h2
    exact onlyIf_pos (by simp [hl, hh, hs, hsent, hsel, ha, hc', h1', h2'])

end Sys2Proof.Proofs
end

section
/-! PROOFS. The head of the drawbar chain and its table (19_drawbar_chain.md, R370 to R378). -/
namespace Sys2Proof.Proofs

open Sys2Proof.Machine Sys2Proof.Safety Sys2Proof.Laws

variable {b : Bytes} {x : Frame} {s : State}

/-! ### Frames sent and the members' entries -/

theorem sendFrameAt_now {t : Nat} (h : t ≤ s.now) (type dest src : Nat) (body : Bytes) :
    sendFrameAt t type dest src body s = { s with out := s.out ++ [.drawbar (frameBytes type dest src body)] } :=
  if_pos h

theorem sendFrameAt_later {t : Nat} (h : s.now < t) (type dest src : Nat) (body : Bytes) :
    sendFrameAt t type dest src body s =
      { s with drb := { s.drb with queue := s.drb.queue ++ [(t, frameBytes type dest src body)] } } :=
  if_neg (Nat.not_le.mpr h)

theorem sendAssign_now (a misses : Nat) (s : State) : sendAssign a misses s.now s = { s with
    drb := { s.drb with offer := some (a, misses, s.now), join := none }
    out := s.out ++ [.drawbar (frameBytes 2 0 1 (natLe 1 a ++ zeros 3))] } := by
  rw [sendAssign, sendFrameAt_now (Nat.le_refl s.now)]
  rfl

theorem sendAssign_later {t : Nat} (h : s.now < t) (a misses : Nat) : sendAssign a misses t s = { s with
    drb := { s.drb with offer := some (a, misses, t), join := none
                        queue := s.drb.queue ++ [(t, frameBytes 2 0 1 (natLe 1 a ++ zeros 3))] } } := by
  rw [sendAssign, sendFrameAt_later h]
  rfl

/-- Inside a command window a frame leaves at once. -/
theorem windowFrom_inside {t : Nat} (h1 : 20 ≤ t % 1000) (h2 : t % 1000 < 180) : windowFrom t = t := by
  simp [windowFrom, Nat.not_lt.mpr h1, h2]

/-- Outside of one it waits. -/
theorem lt_windowFrom {t : Nat} (h : t % 1000 < 20 ∨ 180 ≤ t % 1000) : t < windowFrom t := by
  simp only [windowFrom]
  split
  · omega
  · split <;> omega

/-- The head's naming of an unexpected id changes no member: it leaves at once inside a command window, and is queued
outside of one. -/
theorem sendRelease_eq (hf : s.drb.first = false) (a id : Nat) : ∃ e,
    (20 ≤ s.now % 1000 → s.now % 1000 < 180 → sendRelease a id s =
      { s with out := s.out ++ [.drawbar (frameBytes 7 127 1 (natLe 16 id))], evr := e }) ∧
    (s.now % 1000 < 20 ∨ 180 ≤ s.now % 1000 → sendRelease a id s = { s with
      drb := { s.drb with queue := s.drb.queue ++ [(windowFrom s.now, frameBytes 7 127 1 (natLe 16 id))] }, evr := e }) := by
  have ho : sendRelease a id s = drbRecord 7 a (natLe 16 id) (sendFrameAt (windowFrom s.now) 7 127 1 (natLe 16 id) s) := by
    rw [sendRelease, if_neg (by simp [hf])]
  obtain ⟨e, he⟩ := drbRecord_eq 7 a (natLe 16 id) (sendFrameAt (windowFrom s.now) 7 127 1 (natLe 16 id) s)
  rw [ho, he]
  refine ⟨e, fun h1 h2 => ?_, fun h => ?_⟩
  · rw [windowFrom_inside h1 h2, sendFrameAt_now (Nat.le_refl s.now)]
  · rw [sendFrameAt_later (lt_windowFrom h)]

/-- What a named id leaves, in the words of both statements. -/
theorem sendRelease_spec (hf : s.drb.first = false) (a id : Nat) :
    (∀ c, memberOf (sendRelease a id s) c = memberOf s c) ∧ (sendRelease a id s).drb.offer = s.drb.offer ∧
    (20 ≤ s.now % 1000 → s.now % 1000 < 180 → (sendRelease a id s).drb = s.drb ∧
      (sendRelease a id s).out = s.out ++ [.drawbar (frameBytes 7 127 1 (natLe 16 id))]) ∧
    (s.now % 1000 < 20 ∨ 180 ≤ s.now % 1000 → (sendRelease a id s).out = s.out ∧ (sendRelease a id s).drb =
      { s.drb with queue := s.drb.queue ++ [(windowFrom s.now, frameBytes 7 127 1 (natLe 16 id))] }) := by
  obtain ⟨e, hin, hout⟩ := sendRelease_eq hf a id
  refine ⟨fun c => ?_, ?_, fun h1 h2 => ?_, fun h => ?_⟩
  · by_cases h : 20 ≤ s.now % 1000 ∧ s.now % 1000 < 180
    · rw [hin h.1 h.2]; rfl
    · rw [hout (by omega)]; rfl
  · by_cases h : 20 ≤ s.now % 1000 ∧ s.now % 1000 < 180
    · rw [hin h.1 h.2]
    · rw [hout (by omega)]
  · rw [hin h1 h2]
    exact ⟨rfl, rfl⟩
  · rw [hout h]
    exact ⟨rfl, rfl⟩

theorem memberOf_updMember_ne {a c : Nat} {f : Member → Member} (h : c ≠ a) :
    memberOf (updMember a f s) c = memberOf s c :=
  tget_tupd_ne _ _ _ _ _ h

/-- An entry that is in use is what it was changed to. -/
theorem memberOf_updMember {a : Nat} {f : Member → Member} (h : (f (memberOf s a)).state ≠ 0) :
    memberOf (updMember a f s) a = f (memberOf s a) :=
  tget_tupd_of_ne _ _ _ _ fun h0 => h (congrArg Member.state h0)

theorem freeAddr_eq (a : Nat) (s : State) : ∃ e, freeAddr a s = { s with
    drb := { s.drb with members := tset {} s.drb.members a {} }, evr := e } := by
  obtain ⟨e, he⟩ := drbRecord_eq 3 a (natLe 16 (memberOf s a).id) (updMember a (fun _ => {}) s)
  exact ⟨e, he⟩

/-- Addresses freed in turn: their entries alone change. -/
theorem freeAddrs_eq (l : List Nat) (s : State) : ∃ T e, l.foldl (fun s x => freeAddr x s) s = { s with
      drb := { s.drb with members := T }, evr := e } ∧
    (twf {} s.drb.members = true → ∀ a, tget {} T a = if a ∈ l then {} else memberOf s a) := by
  induction l generalizing s with
  | nil => exact ⟨_, _, rfl, fun _ a => by simp [memberOf]⟩
  | cons c l ih =>
    obtain ⟨e, he⟩ := freeAddr_eq c s
    obtain ⟨T, e', hT, hg⟩ := ih (freeAddr c s)
    refine ⟨T, e', by rw [List.foldl_cons, hT, he], fun hw a => ?_⟩
    rw [hg (by rw [he]; exact twf_tset _ _ c {} hw) a]
    by_cases hl : a ∈ l
    · simp [hl]
    by_cases hc : a = c
    · subst hc
      simp [hl, memberOf, he, tget_tset_same _ _ _ _ hw]
    · simp [hl, hc, memberOf, he, tget_tset_ne _ _ _ _ _ hc]

/-- The three CLEARs of the first enumeration: one leaves at once, two are queued; no member stays present. -/
theorem sendClear_first (hf : s.drb.first = true) : ∃ T e, sendClear s = { s with
      drb := { s.drb with
        queue := s.drb.queue ++ [(s.now + 100, frameBytes 8 127 1 []), (s.now + 200, frameBytes 8 127 1 [])], members := T }
      out := s.out ++ [.drawbar (frameBytes 8 127 1 [])], evr := e } ∧
    (twf {} s.drb.members = true → ∀ a, 2 ≤ a → a ≤ 126 → (tget {} T a).state ≠ 1) := by
  have hs : (clearTimes s).foldl (fun s t => sendFrameAt t 8 127 1 [] s) s = { s with
      drb := { s.drb with
        queue := s.drb.queue ++ [(s.now + 100, frameBytes 8 127 1 []), (s.now + 200, frameBytes 8 127 1 [])] }
      out := s.out ++ [.drawbar (frameBytes 8 127 1 [])] } := by
    have h1 : ¬s.now + 100 ≤ s.now := by omega
    have h2 : ¬s.now + 200 ≤ s.now := by omega
    simp [clearTimes, hf, sendFrameAt, sendFrame, emit, updDrb, h1, h2]
  obtain ⟨T, e, hT, hg⟩ := freeAddrs_eq (memberAddrs.filter (fun x => (memberOf s x).state == 1))
    ((clearTimes s).foldl (fun s t => sendFrameAt t 8 127 1 [] s) s)
  refine ⟨T, e, (show sendClear s = _ from hT).trans (by rw [hs]), fun hw a h2 h126 => ?_⟩
  rw [hg (by rw [hs]; exact hw) a]
  by_cases h1 : (memberOf s a).state = 1
  · have ha : a ∈ memberAddrs := List.mem_map.mpr ⟨a - 2, List.mem_range.mpr (by omega), by omega⟩
    rw [if_pos (List.mem_filter.mpr ⟨ha, by simp [h1]⟩)]
    decide
  · rw [if_neg (by simp [h1]), hs]
    exact h1

/-- Enumeration starts afresh: three CLEARs and the first ASSIGN. -/
theorem enumStart_eq (hf : s.drb.first = true) : ∃ T e, sendAssign 2 0 (s.now + 200) (sendClear s) = { s with
      drb := { s.drb with
        offer := some (2, 0, s.now + 200), join := none
        queue := s.drb.queue ++ [(s.now + 100, frameBytes 8 127 1 []), (s.now + 200, frameBytes 8 127 1 []),
          (s.now + 200, frameBytes 2 0 1 (natLe 1 2 ++ zeros 3))]
        members := T }
      out := s.out ++ [.drawbar (frameBytes 8 127 1 [])], evr := e } ∧
    (twf {} s.drb.members = true → ∀ a, 2 ≤ a → a ≤ 126 → (tget {} T a).state ≠ 1) := by
  obtain ⟨T, e, hc, hg⟩ := sendClear_first hf
  refine ⟨T, e, ?_, hg⟩
  rw [hc, sendAssign_later (by simp)]
  simp

/-! ### TIME and the answers to an ASSIGN -/

theorem headRuns_live (h : headRuns s = true) : live s = true := by simp_all [headRuns]

/-- The state once the head has sent a mark. -/
def timeSent (s : State) : State :=
  { s with
    drb := { s.drb with cycle := s.now / 1000 % 100, cycleAt := s.now, mark := s.now }
    out := s.out ++ [.drawbar (frameBytes 1 127 1 (natLe 8 s.now ++ natLe 1 (s.now / 1000 % 100) ++ zeros 3))] }

/-- The ASSIGN that waits follows the mark where nothing else is under way. -/
def timeJoined (s : State) : State :=
  match s.drb.join with
  | some a =>
    if drbServed s && s.drb.offer.isNone && s.drb.queue.isEmpty then sendAssign a 0 (s.now + 20) (timeSent s) else timeSent s
  | none => timeSent s

theorem execTime_eq (hr : headRuns s = true) (hf : s.drb.first = false) (h0 : s.now % 1000 = 0) (hc : s.drb.cycleAt < s.now) :
    exec .time s = .next (if standsAlone s then timeJoined s else markBarrier s.now (timeJoined s)) :=
  onlyIf_pos (by simp [hr, hf, h0, hc])

theorem timeJoined_none (h : s.drb.join = none ∨ s.drb.offer ≠ none ∨ drbServed s = false ∨ s.drb.queue ≠ []) :
    timeJoined s = timeSent s := by
  unfold timeJoined
  split
  case h_2 => rfl
  next a ha =>
    refine if_neg ?_
    rcases h with h | h | h | h
    · rw [ha] at h
      cases h
    all_goals simp [h]

theorem timeJoined_some {a : Nat} (ha : s.drb.join = some a) (ho : s.drb.offer = none) (hs : drbServed s = true)
    (hq : s.drb.queue = []) : timeJoined s = { timeSent s with drb := { (timeSent s).drb with
      join := none, offer := some (a, 0, s.now + 20), queue := [(s.now + 20, frameBytes 2 0 1 (natLe 1 a ++ zeros 3))] } } := by
  have hj : timeJoined s = sendAssign a 0 (s.now + 20) (timeSent s) := by simp [timeJoined, ha, ho, hs, hq]
  rw [hj, sendAssign_later (by simp [timeSent])]
  simp [timeSent, hq]

/-- The barrier of a mark that a head sends, or none where it stands alone. -/
theorem headMark_eq {u : State} (hu : u = { s with drb := u.drb, out := u.out }) (alone : Bool) :
    (if alone then u else markBarrier s.now u) =
      { u with fwu := if alone then s.fwu else (markBarrier s.now s).fwu } := by
  rw [hu]
  cases alone
  · exact markBarrier_fwu (s := s) (u := { s with drb := u.drb, out := u.out }) rfl rfl rfl rfl rfl s.now
  · rfl

theorem enumEnd_later (hf : s.drb.first = false) :
    enumEnd s = { s with drb := { s.drb with state := .locked, offer := none, join := none } } := by
  simp [enumEnd, hf, updDrb]

theorem assignTimeout_eq {a misses at_ : Nat} (ho : s.drb.offer = some (a, misses, at_)) (hr : headRuns s = true)
    (hs : drbServed s = true) (ht : at_ + 20 ≤ s.now) : exec .assignTimeout s = .next
      (if misses < 2 then sendAssign a (misses + 1) s.now s
       else if s.drb.state == .enumerating then enumEnd s
       else updDrb (fun d => { d with offer := none }) s) := by
  simp only [exec, execAssignTimeout, ho]
  exact onlyIf_pos (by simp [hr, hs, ht])

/-- The delay that a member's answer gives. -/
def answerDelay (rho : Nat) : Nat := min 0xFFFF ((rho - 2000) / 2)

/-- The entry of a new member. -/
def newMember (s : State) (id rho : Nat) : Member :=
  { state := 1, id := id, delay := answerDelay rho, judged := s.now / 100000 }

/-- An id that is not in the table yet becomes a member. -/
theorem takeMember_new {a id : Nat} (rho : Nat) (hi : addrOfId s id = none) : ∃ e, takeMember a id rho s = { s with
    drb := { s.drb with members := tupd {} s.drb.members a (fun _ => newMember s id rho) }
    out := s.out ++ [.drawbar (frameBytes 4 a 1 (natLe 2 (answerDelay rho) ++ zeros 2))], evr := e } := by
  obtain ⟨e, he⟩ := drbRecord_eq 1 a (natLe 16 id) (updMember a (fun _ => newMember s id rho) s)
  refine ⟨e, ?_⟩
  simp only [takeMember, hi]
  exact congrArg (sendFrame 4 a 1 _) he

/-- Whether the head takes an answer: it has offered the address that answers. -/
def answerOk (s : State) (x : Frame) : Bool :=
  headRuns s && drbServed s && x.dest == 1 && (s.drb.offer.map (·.1)).getD 0 == x.src && s.drb.offer.isSome

/-- An id that is present elsewhere, or that the address is not reserved for. -/
def answerClash (s : State) (x : Frame) : Bool :=
  (match addrOfId s (fld x.body 0 16) with
    | some y => (memberOf s y).state == 1
    | none => false) ||
  ((memberOf s x.src).state == 2 && (memberOf s x.src).id != fld x.body 0 16)

/-- What an answer that is taken does. -/
def answerTaken (rho : Nat) (x : Frame) (s : State) : State :=
  if answerClash s x then sendRelease x.src (fld x.body 0 16) s
  else
    let a := takeMember x.src (fld x.body 0 16) rho s
    let b := if s.drb.first && bit (fld x.body 24 1) 0 then
        updDrb (fun d => { d with heard := d.heard ++ [(fld x.body 16 8, s.now)] }) a
      else a
    if s.drb.state == .enumerating then offerNext b else updDrb (fun d => { d with offer := none }) b

theorem execAssignReply_eq (b : Bytes) (rho : Nat) (s : State) :
    exec (.assignReply b rho) s = onFrame b 3 (answerOk s) (answerTaken rho) s := rfl

/-- The answer to an ASSIGN after enumeration, by a unit whose id is named or that becomes a member. -/
theorem answered_eq {rho : Nat} (hf : s.drb.first = false) (hl : s.drb.state = .locked) (hr : headRuns s = true)
    (hs : drbServed s = true) (hx : readFrame b = some x) (ht : x.type = 3) (hn : x.body.length = 28) (hd : x.dest = 1)
    (ho : s.drb.offer.map (·.1) = some x.src) : exec (.assignReply b rho) s = .next
      (if answerClash s x then sendRelease x.src (fld x.body 0 16) s
      else updDrb (fun d => { d with offer := none }) (takeMember x.src (fld x.body 0 16) rho s)) := by
  have hio : s.drb.offer.isSome = true := by cases h : s.drb.offer <;> simp_all
  rw [execAssignReply_eq, onFrame_takes (headRuns_live hr) hx ht (by rw [hn]; rfl) (by simp [answerOk, hr, hs, hd, ho, hio])]
  simp [answerTaken, hf, hl]

/-- Whether the head takes a beacon: it comes from a member's address. -/
def beaconOk (s : State) (x : Frame) : Bool := headRuns s && x.dest == 1 && 2 ≤ x.src && x.src ≤ 126

/-- What a beacon that is taken does. -/
def beaconTaken (x : Frame) (s : State) : State :=
  if (memberOf s x.src).state == 0 || (memberOf s x.src).id != fld x.body 0 16 then
    sendRelease x.src (fld x.body 0 16) s
  else
    let a := updMember x.src (fun m => { m with state := 1, missed := 0, absentAt := 0, judged := s.now / 100000 }) s
    if (memberOf s x.src).state == 2 then drbRecord 4 x.src (natLe 16 (memberOf s x.src).id) a else a

theorem beaconHeard_eq (hr : headRuns s = true) (hx : readFrame b = some x) (ht : x.type = 5) (hn : x.body.length = 20)
    (hd : x.dest = 1) (h2 : 2 ≤ x.src) (h126 : x.src ≤ 126) :
    exec (.beacon (some b)) s = .next (beaconTaken x s) :=
  (show exec (.beacon (some b)) s = onFrame b 5 (beaconOk s) beaconTaken s from rfl).trans
    (onFrame_takes (headRuns_live hr) hx ht (by rw [hn]; rfl) (by simp [beaconOk, hr, hd, h2, h126]))

/-- A beacon of the id that the table holds. -/
theorem beaconTaken_known (h0 : (memberOf s x.src).state ≠ 0) (hi : (memberOf s x.src).id = fld x.body 0 16) : ∃ e,
    beaconTaken x s = { updMember x.src (fun m =>
      { m with state := 1, missed := 0, absentAt := 0, judged := s.now / 100000 }) s with evr := e } := by
  rw [beaconTaken, if_neg (by simp [h0, hi])]
  split
  · exact drbRecord_eq _ _ _ _
  · exact ⟨s.evr, rfl⟩

/-- A beacon of another id. -/
theorem beaconTaken_unknown (h : (memberOf s x.src).state = 0 ∨ (memberOf s x.src).id ≠ fld x.body 0 16) :
    beaconTaken x s = sendRelease x.src (fld x.body 0 16) s :=
  if_pos (by simpa using h)

/-- The missed beacon counted, and the third in a row marked as an absence. -/
def missCounted (s : State) (m : Member) : Member :=
  let n := { m with missed := m.missed + 1, judged := m.judged + 1 }
  if m.missed < 2 then n else { n with state := 2, absentAt := s.now }

theorem beaconMiss_eq {a : Nat} (hr : headRuns s = true) (hf : s.drb.first = false)
    (h1 : (memberOf s a).state = 1) (hd : slotEnd a ((memberOf s a).judged + 1) ≤ s.now) : ∃ t,
    exec (.beaconMiss a) s = .next t ∧ memberOf t a = missCounted s (memberOf s a) ∧
    ∀ c, c ≠ a → memberOf t c = memberOf s c := by
  have hn : ({ memberOf s a with missed := (memberOf s a).missed + 1, judged := (memberOf s a).judged + 1 } : Member).state ≠ 0 := by
    simp [h1]
  by_cases hm : (memberOf s a).missed < 2
  · refine ⟨_, onlyIf_pos (by simp [hr, hf, h1, hd]), ?_⟩
    rw [if_pos hm]
    exact ⟨(memberOf_updMember hn).trans (if_pos hm).symm, fun c hc => memberOf_updMember_ne hc⟩
  · obtain ⟨e, he⟩ := drbRecord_eq 2 a (natLe 16 (memberOf s a).id) (updMember a (fun m =>
      { m with state := 2, absentAt := s.now }) (updMember a (fun m =>
      { m with missed := m.missed + 1, judged := m.judged + 1 }) s))
    refine ⟨_, onlyIf_pos (by simp [hr, hf, h1, hd]), ?_⟩
    rw [if_neg hm, he]
    refine ⟨?_, fun c hc => (memberOf_updMember_ne hc).trans (memberOf_updMember_ne hc)⟩
    refine (memberOf_updMember (by simp)).trans ?_
    rw [memberOf_updMember hn]
    exact (if_neg hm).symm

/-- Whether the head takes a join request: it comes in the join slot of cycle 99. -/
def joinOk (s : State) (x : Frame) : Bool := headRuns s && !s.drb.first && x.src == 0 && s.drb.cycle == 99

/-- What a join request that is taken does. -/
def joinTaken (x : Frame) (s : State) : State :=
  let mine := (addrOfId s (fld x.body 0 16)).filter (fun a => (memberOf s a).state == 2)
  if memberAddrs.all (fun a => (memberOf s a).state != 0) then
    updDrb (fun d => { d with joinRefused := satInc 16 d.joinRefused }) s
  else if s.drb.state == .locked && s.drb.join.isNone && s.drb.offer.isNone && drbServed s then
    updDrb (fun d => { d with join := if mine.isSome then mine else lowestFree s }) s
  else s

theorem joinHeard_eq (hr : headRuns s = true) (hf : s.drb.first = false) (hx : readFrame b = some x) (ht : x.type = 6)
    (hn : x.body.length = 16) (h0 : x.src = 0) (hc : s.drb.cycle = 99) :
    exec (.joinReq (some b)) s = .next (joinTaken x s) :=
  (show exec (.joinReq (some b)) s = onFrame b 6 (joinOk s) joinTaken s from rfl).trans
    (onFrame_takes (headRuns_live hr) hx ht (by rw [hn]; rfl) (by simp [joinOk, hr, hf, h0, hc]))

/-! ### The obligation -/

theorem headStart_eq (hw : twf {} s.drb.members = true) (hl : live s = true) (hh : s.drb.head = true)
    (h0 : s.drb.started = false) (hc : s.drb.state ≠ .conflict) (hs : drbServed s = true) :
    ∃ t, exec .headStart s = .next t ∧ t.drb.state = .enumerating ∧ t.drb.addr = 1 ∧ t.drb.selOut = true ∧
      t.drb.started = true ∧ t.drb.offer = some (2, 0, s.now + 200) ∧
      t.out = s.out ++ [.drawbar (frameBytes 8 127 1 [])] ∧
      t.drb.queue = s.drb.queue ++ [(s.now + 100, frameBytes 8 127 1 []), (s.now + 200, frameBytes 8 127 1 []),
        (s.now + 200, frameBytes 2 0 1 (natLe 1 2 ++ zeros 3))] ∧
      (∀ a, 2 ≤ a → a ≤ 126 → (memberOf t a).state ≠ 1) ∧ t = { s with drb := t.drb, out := t.out, evr := t.evr } := by
  obtain ⟨T, e, ht, hg⟩ := enumStart_eq (s := updDrb (fun d =>
    { d with started := true, first := true, state := .enumerating, addr := 1, selOut := true, heard := [] }) s) rfl
  have he : exec .headStart s = .next (sendAssign 2 0 (s.now + 200) (sendClear (updDrb (fun d =>
    { d with started := true, first := true, state := .enumerating, addr := 1, selOut := true, heard := [] }) s))) :=
    onlyIf_pos (by simp [hl, hh, h0, hc, hs])
  exact ⟨_, he.trans (congrArg Host.Outcome.next ht), rfl, rfl, rfl, rfl, rfl, rfl, rfl, hg hw, rfl⟩

/-- REENUM on a head after its first enumeration, in it, and on a member. -/
theorem reenum_eq {p : Port} (hw : wr p .drb s = true) : exec (.reenum p) s = .next
    (if headRuns s && s.drb.first then
      sendAssign 2 0 (s.now + 200) (sendClear (updDrb (fun d => { d with queue := [], heard := [] }) (cmdWritten p s)))
    else if headRuns s then
      offerNext (updDrb (fun d => { d with state := .enumerating, offer := none, join := none }) (sendClear (cmdWritten p s)))
    else legTouch p (cntWr p s)) := by
  have hd : (legTouch p (cntWr p s)).drb = s.drb := by simp
  have hl : live (legTouch p (cntWr p s)) = live s := by simp [live, powered]
  have hr : headRuns (legTouch p (cntWr p s)) = headRuns s := by rw [headRuns, hd, hl, headRuns]
  refine (onlyIf_pos hw).trans ?_
  rw [hr, hd]
  rfl

/-- Settles O56: the table's entries change by `updMember` and `freeAddr` alone; every record is the event recorder's. -/
theorem drawbarHeadKeepsItsTable : Obligations.DrawbarHeadKeepsItsTable := by
  unfold Obligations.DrawbarHeadKeepsItsTable
  refine ⟨fun s hok hl hh h0 hc hs => ?_, fun p s hw => ⟨fun hh => ?_, fun hr hf => ?_, fun hr hf => ?_⟩,
    fun s hr hf => ⟨fun h0 hc m hm => ⟨fun h => ?_, fun a ha ho hs hq => ?_⟩,
      fun a misses at_ ho hs ht => ⟨fun h2 => ?_, fun h2 he => ?_, fun h2 hl => ?_⟩⟩,
    fun b x rho s hr hs hx ht hn hd ho hf hl => ⟨fun hi hm => ?_, fun h => ?_⟩,
    fun b x s hr hx ht hn hd h2 h126 => ⟨fun h0 hi => ?_, fun h hf => ?_⟩,
    fun a s hok hr => ⟨fun hf h1 hd => ?_, fun hs h2 hd => ?_⟩,
    fun b x s hl hh hc hx hsrc => ?_, fun b x s hr hf hx ht hn hsrc hc => ⟨fun hall => ?_, fun a ha hl hj ho hs hi => ?_⟩⟩
  · obtain ⟨-, -, -, -, -, -, -, -, -, -, -, -, -, -, -, hw⟩ := tablesOk_parts s hok
    exact headStart_eq hw hl hh h0 hc hs
  · rw [reenum_eq hw]
    simp [headRuns, hh]
  · rw [reenum_eq hw]
    simp [hr, hf, cmdWritten]
  · obtain ⟨T, e, ht, -⟩ := enumStart_eq (s := updDrb (fun d => { d with queue := [], heard := [] }) (cmdWritten p s))
      (by simpa [cmdWritten, updDrb] using hf)
    have hn : (updDrb (fun d => { d with queue := [], heard := [] }) (cmdWritten p s)).now = s.now := by simp [cmdWritten, updDrb]
    rw [hn] at ht
    refine ⟨_, (reenum_eq hw).trans (congrArg Host.Outcome.next ((if_pos (by simp [hr, hf])).trans ht)), rfl, rfl,
      cmdWritten_csn hw, rfl⟩
  · rw [execTime_eq hr hf h0 hc, timeJoined_none h, headMark_eq rfl, ← hm]
    rfl
  · rw [execTime_eq hr hf h0 hc, timeJoined_some ha ho hs hq, headMark_eq rfl, ← hm]
    rfl
  · rw [assignTimeout_eq ho hr hs ht, if_pos h2, sendAssign_now]
  · rw [assignTimeout_eq ho hr hs ht, if_neg (Nat.not_lt.mpr h2), if_pos (by simp [he]), enumEnd_later hf]
  · rw [assignTimeout_eq ho hr hs ht, if_neg (Nat.not_lt.mpr h2), if_neg (by simp [hl])]
    rfl
  · obtain ⟨e, he⟩ := takeMember_new (s := s) (a := x.src) rho hi
    have hcl : ¬ answerClash s x = true := by simp [answerClash, hi, hm]
    refine ⟨_, answered_eq hf hl hr hs hx ht hn hd ho, ?_⟩
    rw [if_neg hcl, he]
    have hin := memberOf_updMember (s := s) (a := x.src) (f := fun _ => newMember s (fld x.body 0 16) rho) Nat.one_ne_zero
    have hne : ∀ a, a ≠ x.src → memberOf (updMember x.src (fun _ => newMember s (fld x.body 0 16) rho) s) a = memberOf s a :=
      fun a ha => memberOf_updMember_ne ha
    exact ⟨hin, rfl, hne, rfl, rfl⟩
  · have hcl : answerClash s x = true := by
      rcases h with h | ⟨h2, hi⟩
      · cases ha : addrOfId s (fld x.body 0 16) <;> simp_all [answerClash]
      · simp [answerClash, h2, hi]
    refine ⟨_, answered_eq hf hl hr hs hx ht hn hd ho, ?_⟩
    rw [if_pos hcl]
    exact sendRelease_spec hf x.src _
  · obtain ⟨e, he⟩ := beaconTaken_known h0 hi
    refine ⟨_, (beaconHeard_eq hr hx ht hn hd h2 h126).trans (congrArg Host.Outcome.next he), ?_⟩
    exact ⟨memberOf_updMember (s := s) (by simp), fun a ha => memberOf_updMember_ne ha, rfl, rfl⟩
  · obtain ⟨hm, -, hin, hout⟩ := sendRelease_spec hf x.src (fld x.body 0 16)
    refine ⟨_, (beaconHeard_eq hr hx ht hn hd h2 h126).trans (congrArg Host.Outcome.next (beaconTaken_unknown h)), hm, hin,
      fun h => ⟨(hout h).1, ?_⟩⟩
    rw [(hout h).2]
  · obtain ⟨-, -, -, -, -, -, -, -, -, -, -, -, -, -, -, hw⟩ := tablesOk_parts s hok
    obtain ⟨t, he, hm, hne⟩ := beaconMiss_eq hr hf h1 hd
    refine ⟨t, he, ?_, ?_, ?_, ?_, hne⟩ <;> rw [hm, missCounted] <;> split <;> simp_all
  · obtain ⟨-, -, -, -, -, -, -, -, -, -, -, -, -, -, -, hw⟩ := tablesOk_parts s hok
    obtain ⟨e, he⟩ := freeAddr_eq a s
    have hx : exec (.reservationExpiry a) s = .next (freeAddr a s) := onlyIf_pos (by simp [hr, hs, h2, hd])
    have ha : tget {} (tset {} s.drb.members a {}) a = ({} : Member) := tget_tset_same _ _ _ _ hw
    have hne : ∀ c, c ≠ a → tget {} (tset {} s.drb.members a {}) c = memberOf s c := fun c hc => tget_tset_ne _ _ _ _ _ hc
    exact ⟨_, hx.trans (congrArg Host.Outcome.next he), ha, hne, rfl⟩
  · obtain ⟨e, he⟩ := drbRecord_eq 7 1 unitId16 (updDrb (fun d =>
      { d with state := .conflict, selOut := false, offer := none, join := none, queue := [] }) s)
    have hx' : exec (.foreignHeadFrame b) s = .next (drbRecord 7 1 unitId16 (updDrb (fun d =>
        { d with state := .conflict, selOut := false, offer := none, join := none, queue := [] }) s)) := by
      refine (onlyIf_pos (by simp [hl, hh, hc])).trans ?_
      simp [hx, hsrc]
    exact ⟨_, hx'.trans (congrArg Host.Outcome.next he), rfl, rfl⟩
  · exact (joinHeard_eq hr hf hx ht hn hsrc hc).trans (congrArg Host.Outcome.next (if_pos hall))
  · have hfree : ¬ memberAddrs.all (fun a => (memberOf s a).state != 0) = true := by
      have h0 := List.find?_some ha
      have hm := List.mem_of_find?_eq_some ha
      exact fun h => absurd (List.all_eq_true.mp h a hm) (by simpa using h0)
    rw [joinHeard_eq hr hf hx ht hn hsrc hc, joinTaken, if_neg hfree]
    simp [hl, hj, ho, hs, hi, ha, updDrb]

end Sys2Proof.Proofs
end

section
/-! SUPPORT. What a failed memory line and the entry of Dormant leave of the state (20_memory_clocks_power.md). -/
namespace Sys2Proof.Laws

open Sys2Proof.Machine Sys2Proof.Safety

/-- What `memRecord` leaves. -/
@[simp] theorem memRecord_frame (s : State) :
    (memRecord s).pending = s.pending ∧ (memRecord s).out = s.out ∧ (memRecord s).free = s.free ∧
    (memRecord s).now = s.now ∧ (memRecord s).csn = s.csn ∧ (memRecord s).chp = s.chp ∧ (memRecord s).pins = s.pins ∧
    (memRecord s).hpt = s.hpt ∧ (memRecord s).stats = s.stats ∧ (memRecord s).win = s.win ∧
    (memRecord s).ttb = s.ttb ∧ (memRecord s).car = s.car ∧ (memRecord s).cay = s.cay ∧ (memRecord s).mdf = s.mdf ∧
    (memRecord s).kst = s.kst ∧ (memRecord s).leg = s.leg ∧ (memRecord s).vlt = s.vlt ∧ (memRecord s).slc = s.slc ∧
    (memRecord s).rng = s.rng ∧ (memRecord s).lat = s.lat ∧ (memRecord s).bnv = s.bnv ∧ (memRecord s).ucp = s.ucp ∧
    (memRecord s).wld = s.wld ∧ (memRecord s).tmp = s.tmp ∧ (memRecord s).bbr = s.bbr ∧ (memRecord s).lcs = s.lcs ∧
    (memRecord s).fuses = s.fuses ∧ (memRecord s).mnf = s.mnf ∧ (memRecord s).flash = s.flash ∧
    (memRecord s).fwu = s.fwu ∧ (memRecord s).drb = s.drb ∧ (memRecord s).mem = s.mem ∧ (memRecord s).gov = s.gov ∧
    (memRecord s).shown = s.shown := by
  simp [memRecord]

/-- What `askClkreq` leaves. -/
@[simp] theorem askClkreq_frame (d : Nat) (on : Bool) (s : State) :
    (askClkreq d on s).pending = s.pending ∧ (askClkreq d on s).out = s.out ∧ (askClkreq d on s).free = s.free ∧
    (askClkreq d on s).now = s.now ∧ (askClkreq d on s).csn = s.csn ∧ (askClkreq d on s).chp = s.chp ∧
    (askClkreq d on s).pins = s.pins ∧ (askClkreq d on s).hpt = s.hpt ∧ (askClkreq d on s).stats = s.stats ∧
    (askClkreq d on s).win = s.win ∧ (askClkreq d on s).ttb = s.ttb ∧ (askClkreq d on s).car = s.car ∧
    (askClkreq d on s).cay = s.cay ∧ (askClkreq d on s).kst = s.kst ∧ (askClkreq d on s).leg = s.leg ∧
    (askClkreq d on s).vlt = s.vlt ∧ (askClkreq d on s).slc = s.slc ∧ (askClkreq d on s).evr = s.evr ∧
    (askClkreq d on s).rng = s.rng ∧ (askClkreq d on s).lat = s.lat ∧ (askClkreq d on s).bnv = s.bnv ∧
    (askClkreq d on s).ucp = s.ucp ∧ (askClkreq d on s).wld = s.wld ∧ (askClkreq d on s).tmp = s.tmp ∧
    (askClkreq d on s).bbr = s.bbr ∧ (askClkreq d on s).lcs = s.lcs ∧ (askClkreq d on s).fuses = s.fuses ∧
    (askClkreq d on s).mnf = s.mnf ∧ (askClkreq d on s).flash = s.flash ∧ (askClkreq d on s).fwu = s.fwu ∧
    (askClkreq d on s).drb = s.drb ∧ (askClkreq d on s).mem = s.mem ∧ (askClkreq d on s).gov = s.gov ∧
    (askClkreq d on s).shown = s.shown := by
  simp [askClkreq]

/-- What `parkPort` leaves. -/
@[simp] theorem parkPort_frame (d : Nat) (s : State) :
    (parkPort d s).pending = s.pending ∧ (parkPort d s).out = s.out ∧ (parkPort d s).free = s.free ∧
    (parkPort d s).now = s.now ∧ (parkPort d s).csn = s.csn ∧ (parkPort d s).chp = s.chp ∧
    (parkPort d s).pins = s.pins ∧ (parkPort d s).hpt = s.hpt ∧ (parkPort d s).stats = s.stats ∧
    (parkPort d s).win = s.win ∧ (parkPort d s).ttb = s.ttb ∧ (parkPort d s).car = s.car ∧
    (parkPort d s).cay = s.cay ∧ (parkPort d s).kst = s.kst ∧ (parkPort d s).leg = s.leg ∧
    (parkPort d s).vlt = s.vlt ∧ (parkPort d s).slc = s.slc ∧ (parkPort d s).evr = s.evr ∧
    (parkPort d s).rng = s.rng ∧ (parkPort d s).lat = s.lat ∧ (parkPort d s).bnv = s.bnv ∧
    (parkPort d s).ucp = s.ucp ∧ (parkPort d s).wld = s.wld ∧ (parkPort d s).tmp = s.tmp ∧
    (parkPort d s).bbr = s.bbr ∧ (parkPort d s).lcs = s.lcs ∧ (parkPort d s).fuses = s.fuses ∧
    (parkPort d s).mnf = s.mnf ∧ (parkPort d s).flash = s.flash ∧ (parkPort d s).fwu = s.fwu ∧
    (parkPort d s).drb = s.drb ∧ (parkPort d s).mem = s.mem ∧ (parkPort d s).gov = s.gov ∧
    (parkPort d s).shown = s.shown := by
  simp [parkPort]

/-- What `finishWake` leaves. -/
@[simp] theorem finishWake_frame (n : Nat) (s : State) :
    (finishWake n s).pending = s.pending ∧ (finishWake n s).free = s.free ∧ (finishWake n s).now = s.now ∧
    (finishWake n s).chp = s.chp ∧ (finishWake n s).pins = s.pins ∧ (finishWake n s).ttb = s.ttb ∧
    (finishWake n s).leg = s.leg ∧ (finishWake n s).wld = s.wld ∧ (finishWake n s).tmp = s.tmp ∧
    (finishWake n s).bbr = s.bbr ∧ (finishWake n s).lcs = s.lcs ∧ (finishWake n s).fuses = s.fuses ∧
    (finishWake n s).mnf = s.mnf ∧ (finishWake n s).flash = s.flash ∧ (finishWake n s).fwu = s.fwu ∧
    (finishWake n s).drb = s.drb ∧ (finishWake n s).mem = s.mem ∧ (finishWake n s).gov = s.gov ∧
    (finishWake n s).shown = s.shown := by
  simp [finishWake]

/-- What `answered` leaves. -/
@[simp] theorem answered_frame (l : Nat) (s : State) :
    (answered l s).pending = s.pending ∧ (answered l s).out = s.out ∧ (answered l s).free = s.free ∧
    (answered l s).now = s.now ∧ (answered l s).csn = s.csn ∧ (answered l s).chp = s.chp ∧
    (answered l s).pins = s.pins ∧ (answered l s).hpt = s.hpt ∧ (answered l s).stats = s.stats ∧
    (answered l s).win = s.win ∧ (answered l s).ttb = s.ttb ∧ (answered l s).car = s.car ∧
    (answered l s).cay = s.cay ∧ (answered l s).kst = s.kst ∧ (answered l s).leg = s.leg ∧
    (answered l s).vlt = s.vlt ∧ (answered l s).slc = s.slc ∧ (answered l s).evr = s.evr ∧
    (answered l s).rng = s.rng ∧ (answered l s).lat = s.lat ∧ (answered l s).bnv = s.bnv ∧
    (answered l s).ucp = s.ucp ∧ (answered l s).wld = s.wld ∧ (answered l s).tmp = s.tmp ∧
    (answered l s).bbr = s.bbr ∧ (answered l s).lcs = s.lcs ∧ (answered l s).fuses = s.fuses ∧
    (answered l s).mnf = s.mnf ∧ (answered l s).flash = s.flash ∧ (answered l s).fwu = s.fwu ∧
    (answered l s).drb = s.drb ∧ (answered l s).mem = s.mem ∧ (answered l s).gov = s.gov ∧
    (answered l s).shown = s.shown := by
  simp [answered]

/-- What `wakeStep` leaves. -/
@[simp] theorem wakeStep_frame (n : Nat) (st : ShelfStep) (s : State) :
    (wakeStep n st s).pending = s.pending ∧ (wakeStep n st s).out = s.out ∧ (wakeStep n st s).free = s.free ∧
    (wakeStep n st s).now = s.now ∧ (wakeStep n st s).chp = s.chp ∧ (wakeStep n st s).pins = s.pins ∧
    (wakeStep n st s).hpt = s.hpt ∧ (wakeStep n st s).stats = s.stats ∧ (wakeStep n st s).win = s.win ∧
    (wakeStep n st s).ttb = s.ttb ∧ (wakeStep n st s).car = s.car ∧ (wakeStep n st s).cay = s.cay ∧
    (wakeStep n st s).kst = s.kst ∧ (wakeStep n st s).leg = s.leg ∧ (wakeStep n st s).vlt = s.vlt ∧
    (wakeStep n st s).slc = s.slc ∧ (wakeStep n st s).evr = s.evr ∧ (wakeStep n st s).rng = s.rng ∧
    (wakeStep n st s).lat = s.lat ∧ (wakeStep n st s).bnv = s.bnv ∧ (wakeStep n st s).ucp = s.ucp ∧
    (wakeStep n st s).wld = s.wld ∧ (wakeStep n st s).tmp = s.tmp ∧ (wakeStep n st s).bbr = s.bbr ∧
    (wakeStep n st s).lcs = s.lcs ∧ (wakeStep n st s).fuses = s.fuses ∧ (wakeStep n st s).mnf = s.mnf ∧
    (wakeStep n st s).flash = s.flash ∧ (wakeStep n st s).fwu = s.fwu ∧ (wakeStep n st s).drb = s.drb ∧
    (wakeStep n st s).mem = s.mem ∧ (wakeStep n st s).gov = s.gov ∧ (wakeStep n st s).shown = s.shown := by
  simp [wakeStep]

/-- What `sleepPerst` leaves. -/
@[simp] theorem sleepPerst_frame (n : Nat) (s : State) :
    (sleepPerst n s).pending = s.pending ∧ (sleepPerst n s).out = s.out ∧ (sleepPerst n s).free = s.free ∧
    (sleepPerst n s).now = s.now ∧ (sleepPerst n s).chp = s.chp ∧ (sleepPerst n s).pins = s.pins ∧
    (sleepPerst n s).hpt = s.hpt ∧ (sleepPerst n s).stats = s.stats ∧ (sleepPerst n s).win = s.win ∧
    (sleepPerst n s).ttb = s.ttb ∧ (sleepPerst n s).car = s.car ∧ (sleepPerst n s).cay = s.cay ∧
    (sleepPerst n s).kst = s.kst ∧ (sleepPerst n s).leg = s.leg ∧ (sleepPerst n s).vlt = s.vlt ∧
    (sleepPerst n s).slc = s.slc ∧ (sleepPerst n s).evr = s.evr ∧ (sleepPerst n s).rng = s.rng ∧
    (sleepPerst n s).lat = s.lat ∧ (sleepPerst n s).bnv = s.bnv ∧ (sleepPerst n s).ucp = s.ucp ∧
    (sleepPerst n s).wld = s.wld ∧ (sleepPerst n s).tmp = s.tmp ∧ (sleepPerst n s).bbr = s.bbr ∧
    (sleepPerst n s).lcs = s.lcs ∧ (sleepPerst n s).fuses = s.fuses ∧ (sleepPerst n s).mnf = s.mnf ∧
    (sleepPerst n s).flash = s.flash ∧ (sleepPerst n s).fwu = s.fwu ∧ (sleepPerst n s).drb = s.drb ∧
    (sleepPerst n s).mem = s.mem ∧ (sleepPerst n s).gov = s.gov ∧ (sleepPerst n s).shown = s.shown := by
  simp [sleepPerst]

/-- What `shelfCheck` leaves. -/
@[simp] theorem shelfCheck_frame (n : Nat) (s : State) :
    (shelfCheck n s).pending = s.pending ∧ (shelfCheck n s).free = s.free ∧ (shelfCheck n s).now = s.now ∧
    (shelfCheck n s).chp = s.chp ∧ (shelfCheck n s).pins = s.pins ∧ (shelfCheck n s).ttb = s.ttb ∧
    (shelfCheck n s).leg = s.leg ∧ (shelfCheck n s).wld = s.wld ∧ (shelfCheck n s).tmp = s.tmp ∧
    (shelfCheck n s).bbr = s.bbr ∧ (shelfCheck n s).lcs = s.lcs ∧ (shelfCheck n s).fuses = s.fuses ∧
    (shelfCheck n s).mnf = s.mnf ∧ (shelfCheck n s).flash = s.flash ∧ (shelfCheck n s).fwu = s.fwu ∧
    (shelfCheck n s).drb = s.drb ∧ (shelfCheck n s).mem = s.mem ∧ (shelfCheck n s).gov = s.gov ∧
    (shelfCheck n s).shown = s.shown := by
  simp [shelfCheck]

/-- What `driveTo` leaves. -/
@[simp] theorem driveTo_frame (d : Nat) (st : DriveState) (s : State) :
    (driveTo d st s).pending = s.pending ∧ (driveTo d st s).free = s.free ∧ (driveTo d st s).now = s.now ∧
    (driveTo d st s).csn = s.csn ∧ (driveTo d st s).chp = s.chp ∧ (driveTo d st s).pins = s.pins ∧
    (driveTo d st s).win = s.win ∧ (driveTo d st s).ttb = s.ttb ∧ (driveTo d st s).car = s.car ∧
    (driveTo d st s).cay = s.cay ∧ (driveTo d st s).kst = s.kst ∧ (driveTo d st s).leg = s.leg ∧
    (driveTo d st s).vlt = s.vlt ∧ (driveTo d st s).slc = s.slc ∧ (driveTo d st s).evr = s.evr ∧
    (driveTo d st s).rng = s.rng ∧ (driveTo d st s).lat = s.lat ∧ (driveTo d st s).bnv = s.bnv ∧
    (driveTo d st s).ucp = s.ucp ∧ (driveTo d st s).wld = s.wld ∧ (driveTo d st s).tmp = s.tmp ∧
    (driveTo d st s).bbr = s.bbr ∧ (driveTo d st s).lcs = s.lcs ∧ (driveTo d st s).fuses = s.fuses ∧
    (driveTo d st s).mnf = s.mnf ∧ (driveTo d st s).flash = s.flash ∧ (driveTo d st s).fwu = s.fwu ∧
    (driveTo d st s).drb = s.drb ∧ (driveTo d st s).mem = s.mem ∧ (driveTo d st s).gov = s.gov ∧
    (driveTo d st s).shown = s.shown := by
  simp [driveTo]

/-- What `beginReset` leaves. -/
@[simp] theorem beginReset_frame (d : Nat) (s : State) :
    (beginReset d s).pending = s.pending ∧ (beginReset d s).free = s.free ∧ (beginReset d s).now = s.now ∧
    (beginReset d s).chp = s.chp ∧ (beginReset d s).pins = s.pins ∧ (beginReset d s).ttb = s.ttb ∧
    (beginReset d s).leg = s.leg ∧ (beginReset d s).wld = s.wld ∧ (beginReset d s).tmp = s.tmp ∧
    (beginReset d s).bbr = s.bbr ∧ (beginReset d s).lcs = s.lcs ∧ (beginReset d s).fuses = s.fuses ∧
    (beginReset d s).mnf = s.mnf ∧ (beginReset d s).flash = s.flash ∧ (beginReset d s).fwu = s.fwu ∧
    (beginReset d s).drb = s.drb ∧ (beginReset d s).mem = s.mem ∧ (beginReset d s).gov = s.gov ∧
    (beginReset d s).shown = s.shown := by
  simp [beginReset]

/-- What `loseQueueLine` leaves. -/
@[simp] theorem loseQueueLine_frame (s : State) :
    (loseQueueLine s).pending = s.pending ∧ (loseQueueLine s).now = s.now ∧ (loseQueueLine s).chp = s.chp ∧
    (loseQueueLine s).pins = s.pins ∧ (loseQueueLine s).ttb = s.ttb ∧ (loseQueueLine s).leg = s.leg ∧
    (loseQueueLine s).wld = s.wld ∧ (loseQueueLine s).tmp = s.tmp ∧ (loseQueueLine s).bbr = s.bbr ∧
    (loseQueueLine s).lcs = s.lcs ∧ (loseQueueLine s).fuses = s.fuses ∧ (loseQueueLine s).mnf = s.mnf ∧
    (loseQueueLine s).flash = s.flash ∧ (loseQueueLine s).fwu = s.fwu ∧ (loseQueueLine s).drb = s.drb ∧
    (loseQueueLine s).mem = s.mem ∧ (loseQueueLine s).gov = s.gov ∧ (loseQueueLine s).shown = s.shown := by
  simp [loseQueueLine]

/-- What `loseTicketLine` leaves. -/
@[simp] theorem loseTicketLine_frame (s : State) :
    (loseTicketLine s).pending = s.pending ∧ (loseTicketLine s).out = s.out ∧ (loseTicketLine s).now = s.now ∧
    (loseTicketLine s).chp = s.chp ∧ (loseTicketLine s).pins = s.pins ∧ (loseTicketLine s).hpt = s.hpt ∧
    (loseTicketLine s).stats = s.stats ∧ (loseTicketLine s).win = s.win ∧ (loseTicketLine s).ttb = s.ttb ∧
    (loseTicketLine s).car = s.car ∧ (loseTicketLine s).cay = s.cay ∧ (loseTicketLine s).mdf = s.mdf ∧
    (loseTicketLine s).kst = s.kst ∧ (loseTicketLine s).leg = s.leg ∧ (loseTicketLine s).vlt = s.vlt ∧
    (loseTicketLine s).evr = s.evr ∧ (loseTicketLine s).rng = s.rng ∧ (loseTicketLine s).lat = s.lat ∧
    (loseTicketLine s).ucp = s.ucp ∧ (loseTicketLine s).wld = s.wld ∧ (loseTicketLine s).tmp = s.tmp ∧
    (loseTicketLine s).bbr = s.bbr ∧ (loseTicketLine s).lcs = s.lcs ∧ (loseTicketLine s).fuses = s.fuses ∧
    (loseTicketLine s).mnf = s.mnf ∧ (loseTicketLine s).flash = s.flash ∧ (loseTicketLine s).fwu = s.fwu ∧
    (loseTicketLine s).drb = s.drb ∧ (loseTicketLine s).mem = s.mem ∧ (loseTicketLine s).gov = s.gov ∧
    (loseTicketLine s).shown = s.shown := by
  simp [loseTicketLine]

/-- What `loseSpillLine` leaves. -/
@[simp] theorem loseSpillLine_frame (x granule : Nat) (s : State) :
    (loseSpillLine x granule s).pending = s.pending ∧ (loseSpillLine x granule s).free = s.free ∧
    (loseSpillLine x granule s).now = s.now ∧ (loseSpillLine x granule s).chp = s.chp ∧
    (loseSpillLine x granule s).pins = s.pins ∧ (loseSpillLine x granule s).hpt = s.hpt ∧
    (loseSpillLine x granule s).ttb = s.ttb ∧ (loseSpillLine x granule s).leg = s.leg ∧
    (loseSpillLine x granule s).wld = s.wld ∧ (loseSpillLine x granule s).tmp = s.tmp ∧
    (loseSpillLine x granule s).bbr = s.bbr ∧ (loseSpillLine x granule s).lcs = s.lcs ∧
    (loseSpillLine x granule s).fuses = s.fuses ∧ (loseSpillLine x granule s).mnf = s.mnf ∧
    (loseSpillLine x granule s).flash = s.flash ∧ (loseSpillLine x granule s).fwu = s.fwu ∧
    (loseSpillLine x granule s).drb = s.drb ∧ (loseSpillLine x granule s).mem = s.mem ∧
    (loseSpillLine x granule s).gov = s.gov ∧ (loseSpillLine x granule s).shown = s.shown := by
  unfold loseSpillLine
  repeat' split
  all_goals simp

/-- What `updMem` leaves. -/
@[simp] theorem updMem_frame (f : Mem → Mem) (s : State) :
    (updMem f s).pending = s.pending ∧ (updMem f s).out = s.out ∧ (updMem f s).free = s.free ∧
    (updMem f s).now = s.now ∧ (updMem f s).csn = s.csn ∧ (updMem f s).chp = s.chp ∧ (updMem f s).pins = s.pins ∧
    (updMem f s).hpt = s.hpt ∧ (updMem f s).stats = s.stats ∧ (updMem f s).win = s.win ∧ (updMem f s).ttb = s.ttb ∧
    (updMem f s).car = s.car ∧ (updMem f s).cay = s.cay ∧ (updMem f s).mdf = s.mdf ∧ (updMem f s).kst = s.kst ∧
    (updMem f s).leg = s.leg ∧ (updMem f s).vlt = s.vlt ∧ (updMem f s).slc = s.slc ∧ (updMem f s).evr = s.evr ∧
    (updMem f s).rng = s.rng ∧ (updMem f s).lat = s.lat ∧ (updMem f s).bnv = s.bnv ∧ (updMem f s).ucp = s.ucp ∧
    (updMem f s).wld = s.wld ∧ (updMem f s).tmp = s.tmp ∧ (updMem f s).bbr = s.bbr ∧ (updMem f s).lcs = s.lcs ∧
    (updMem f s).fuses = s.fuses ∧ (updMem f s).mnf = s.mnf ∧ (updMem f s).flash = s.flash ∧
    (updMem f s).fwu = s.fwu ∧ (updMem f s).drb = s.drb ∧ (updMem f s).gov = s.gov ∧
    (updMem f s).shown = s.shown := by
  simp [updMem]

/-- What `countMemError` leaves. -/
@[simp] theorem countMemError_frame (r : MemRegion) (mac : Bool) (s : State) :
    (countMemError r mac s).pending = s.pending ∧ (countMemError r mac s).free = s.free ∧
    (countMemError r mac s).now = s.now ∧ (countMemError r mac s).csn = s.csn ∧ (countMemError r mac s).chp = s.chp ∧
    (countMemError r mac s).pins = s.pins ∧ (countMemError r mac s).win = s.win ∧
    (countMemError r mac s).ttb = s.ttb ∧ (countMemError r mac s).car = s.car ∧ (countMemError r mac s).cay = s.cay ∧
    (countMemError r mac s).mdf = s.mdf ∧ (countMemError r mac s).kst = s.kst ∧ (countMemError r mac s).leg = s.leg ∧
    (countMemError r mac s).vlt = s.vlt ∧ (countMemError r mac s).slc = s.slc ∧ (countMemError r mac s).evr = s.evr ∧
    (countMemError r mac s).rng = s.rng ∧ (countMemError r mac s).lat = s.lat ∧ (countMemError r mac s).bnv = s.bnv ∧
    (countMemError r mac s).ucp = s.ucp ∧ (countMemError r mac s).wld = s.wld ∧ (countMemError r mac s).tmp = s.tmp ∧
    (countMemError r mac s).bbr = s.bbr ∧ (countMemError r mac s).lcs = s.lcs ∧
    (countMemError r mac s).fuses = s.fuses ∧ (countMemError r mac s).mnf = s.mnf ∧
    (countMemError r mac s).flash = s.flash ∧ (countMemError r mac s).fwu = s.fwu ∧
    (countMemError r mac s).drb = s.drb ∧ (countMemError r mac s).gov = s.gov ∧
    (countMemError r mac s).shown = s.shown := by
  unfold countMemError
  repeat' split
  all_goals simp

/-- What `updWorld` leaves. -/
@[simp] theorem updWorld_frame (w : World) (f : WorldSt → WorldSt) (s : State) :
    (updWorld w f s).pending = s.pending ∧ (updWorld w f s).out = s.out ∧ (updWorld w f s).free = s.free ∧
    (updWorld w f s).now = s.now ∧ (updWorld w f s).csn = s.csn ∧ (updWorld w f s).chp = s.chp ∧
    (updWorld w f s).pins = s.pins ∧ (updWorld w f s).hpt = s.hpt ∧ (updWorld w f s).stats = s.stats ∧
    (updWorld w f s).win = s.win ∧ (updWorld w f s).ttb = s.ttb ∧ (updWorld w f s).car = s.car ∧
    (updWorld w f s).cay = s.cay ∧ (updWorld w f s).mdf = s.mdf ∧ (updWorld w f s).kst = s.kst ∧
    (updWorld w f s).leg = s.leg ∧ (updWorld w f s).vlt = s.vlt ∧ (updWorld w f s).slc = s.slc ∧
    (updWorld w f s).evr = s.evr ∧ (updWorld w f s).rng = s.rng ∧ (updWorld w f s).lat = s.lat ∧
    (updWorld w f s).bnv = s.bnv ∧ (updWorld w f s).ucp = s.ucp ∧ (updWorld w f s).tmp = s.tmp ∧
    (updWorld w f s).bbr = s.bbr ∧ (updWorld w f s).lcs = s.lcs ∧ (updWorld w f s).fuses = s.fuses ∧
    (updWorld w f s).mnf = s.mnf ∧ (updWorld w f s).flash = s.flash ∧ (updWorld w f s).fwu = s.fwu ∧
    (updWorld w f s).drb = s.drb ∧ (updWorld w f s).mem = s.mem ∧ (updWorld w f s).gov = s.gov ∧
    (updWorld w f s).shown = s.shown := by
  unfold updWorld
  repeat' split
  all_goals simp

/-- What `worldFail` leaves. -/
@[simp] theorem worldFail_frame (w : World) (cause : Nat) (s : State) :
    (worldFail w cause s).pending = s.pending ∧ (worldFail w cause s).now = s.now ∧
    (worldFail w cause s).pins = s.pins ∧ (worldFail w cause s).ttb = s.ttb ∧ (worldFail w cause s).tmp = s.tmp ∧
    (worldFail w cause s).bbr = s.bbr ∧ (worldFail w cause s).fuses = s.fuses ∧ (worldFail w cause s).mnf = s.mnf ∧
    (worldFail w cause s).flash = s.flash ∧ (worldFail w cause s).fwu = s.fwu ∧ (worldFail w cause s).drb = s.drb ∧
    (worldFail w cause s).mem = s.mem ∧ (worldFail w cause s).gov = s.gov := by
  unfold worldFail
  repeat' split
  all_goals simp

/-- What `overflowEnd` leaves. -/
@[simp] theorem overflowEnd_frame (s : State) :
    (overflowEnd s).pending = s.pending ∧ (overflowEnd s).out = s.out ∧ (overflowEnd s).free = s.free ∧
    (overflowEnd s).now = s.now ∧ (overflowEnd s).csn = s.csn ∧ (overflowEnd s).chp = s.chp ∧
    (overflowEnd s).pins = s.pins ∧ (overflowEnd s).hpt = s.hpt ∧ (overflowEnd s).stats = s.stats ∧
    (overflowEnd s).win = s.win ∧ (overflowEnd s).ttb = s.ttb ∧ (overflowEnd s).car = s.car ∧
    (overflowEnd s).cay = s.cay ∧ (overflowEnd s).mdf = s.mdf ∧ (overflowEnd s).kst = s.kst ∧
    (overflowEnd s).leg = s.leg ∧ (overflowEnd s).vlt = s.vlt ∧ (overflowEnd s).slc = s.slc ∧
    (overflowEnd s).rng = s.rng ∧ (overflowEnd s).lat = s.lat ∧ (overflowEnd s).bnv = s.bnv ∧
    (overflowEnd s).ucp = s.ucp ∧ (overflowEnd s).wld = s.wld ∧ (overflowEnd s).tmp = s.tmp ∧
    (overflowEnd s).bbr = s.bbr ∧ (overflowEnd s).lcs = s.lcs ∧ (overflowEnd s).fuses = s.fuses ∧
    (overflowEnd s).mnf = s.mnf ∧ (overflowEnd s).flash = s.flash ∧ (overflowEnd s).fwu = s.fwu ∧
    (overflowEnd s).drb = s.drb ∧ (overflowEnd s).mem = s.mem ∧ (overflowEnd s).gov = s.gov ∧
    (overflowEnd s).shown = s.shown := by
  simp [overflowEnd]

/-- What `clearCopied` leaves. -/
@[simp] theorem clearCopied_frame (s : State) :
    (clearCopied s).pending = s.pending ∧ (clearCopied s).out = s.out ∧ (clearCopied s).free = s.free ∧
    (clearCopied s).now = s.now ∧ (clearCopied s).csn = s.csn ∧ (clearCopied s).chp = s.chp ∧
    (clearCopied s).pins = s.pins ∧ (clearCopied s).hpt = s.hpt ∧ (clearCopied s).stats = s.stats ∧
    (clearCopied s).win = s.win ∧ (clearCopied s).ttb = s.ttb ∧ (clearCopied s).car = s.car ∧
    (clearCopied s).cay = s.cay ∧ (clearCopied s).mdf = s.mdf ∧ (clearCopied s).kst = s.kst ∧
    (clearCopied s).leg = s.leg ∧ (clearCopied s).vlt = s.vlt ∧ (clearCopied s).slc = s.slc ∧
    (clearCopied s).evr = s.evr ∧ (clearCopied s).rng = s.rng ∧ (clearCopied s).lat = s.lat ∧
    (clearCopied s).bnv = s.bnv ∧ (clearCopied s).ucp = s.ucp ∧ (clearCopied s).wld = s.wld ∧
    (clearCopied s).tmp = s.tmp ∧ (clearCopied s).lcs = s.lcs ∧ (clearCopied s).fuses = s.fuses ∧
    (clearCopied s).mnf = s.mnf ∧ (clearCopied s).flash = s.flash ∧ (clearCopied s).fwu = s.fwu ∧
    (clearCopied s).drb = s.drb ∧ (clearCopied s).mem = s.mem ∧ (clearCopied s).gov = s.gov ∧
    (clearCopied s).shown = s.shown := by
  simp [clearCopied]

/-- What `sendPage` leaves. -/
@[simp] theorem sendPage_frame (dev : Nat) (x : Nat × List EvRec) (s : State) :
    (sendPage dev x s).pending = s.pending ∧ (sendPage dev x s).free = s.free ∧ (sendPage dev x s).now = s.now ∧
    (sendPage dev x s).csn = s.csn ∧ (sendPage dev x s).chp = s.chp ∧ (sendPage dev x s).pins = s.pins ∧
    (sendPage dev x s).hpt = s.hpt ∧ (sendPage dev x s).stats = s.stats ∧ (sendPage dev x s).win = s.win ∧
    (sendPage dev x s).ttb = s.ttb ∧ (sendPage dev x s).car = s.car ∧ (sendPage dev x s).cay = s.cay ∧
    (sendPage dev x s).mdf = s.mdf ∧ (sendPage dev x s).kst = s.kst ∧ (sendPage dev x s).leg = s.leg ∧
    (sendPage dev x s).vlt = s.vlt ∧ (sendPage dev x s).slc = s.slc ∧ (sendPage dev x s).evr = s.evr ∧
    (sendPage dev x s).rng = s.rng ∧ (sendPage dev x s).lat = s.lat ∧ (sendPage dev x s).bnv = s.bnv ∧
    (sendPage dev x s).ucp = s.ucp ∧ (sendPage dev x s).wld = s.wld ∧ (sendPage dev x s).tmp = s.tmp ∧
    (sendPage dev x s).bbr = s.bbr ∧ (sendPage dev x s).lcs = s.lcs ∧ (sendPage dev x s).fuses = s.fuses ∧
    (sendPage dev x s).mnf = s.mnf ∧ (sendPage dev x s).flash = s.flash ∧ (sendPage dev x s).fwu = s.fwu ∧
    (sendPage dev x s).drb = s.drb ∧ (sendPage dev x s).mem = s.mem ∧ (sendPage dev x s).gov = s.gov ∧
    (sendPage dev x s).shown = s.shown := by
  simp [sendPage]

/-- What `flushPart` leaves. -/
@[simp] theorem flushPart_frame (k : Nat) (aOk bOk : Bool) (s : State) :
    (flushPart k aOk bOk s).pending = s.pending ∧ (flushPart k aOk bOk s).free = s.free ∧
    (flushPart k aOk bOk s).now = s.now ∧ (flushPart k aOk bOk s).csn = s.csn ∧ (flushPart k aOk bOk s).chp = s.chp ∧
    (flushPart k aOk bOk s).pins = s.pins ∧ (flushPart k aOk bOk s).win = s.win ∧
    (flushPart k aOk bOk s).ttb = s.ttb ∧ (flushPart k aOk bOk s).car = s.car ∧ (flushPart k aOk bOk s).cay = s.cay ∧
    (flushPart k aOk bOk s).mdf = s.mdf ∧ (flushPart k aOk bOk s).kst = s.kst ∧ (flushPart k aOk bOk s).leg = s.leg ∧
    (flushPart k aOk bOk s).vlt = s.vlt ∧ (flushPart k aOk bOk s).slc = s.slc ∧ (flushPart k aOk bOk s).rng = s.rng ∧
    (flushPart k aOk bOk s).lat = s.lat ∧ (flushPart k aOk bOk s).bnv = s.bnv ∧ (flushPart k aOk bOk s).ucp = s.ucp ∧
    (flushPart k aOk bOk s).wld = s.wld ∧ (flushPart k aOk bOk s).tmp = s.tmp ∧ (flushPart k aOk bOk s).lcs = s.lcs ∧
    (flushPart k aOk bOk s).fuses = s.fuses ∧ (flushPart k aOk bOk s).mnf = s.mnf ∧
    (flushPart k aOk bOk s).flash = s.flash ∧ (flushPart k aOk bOk s).fwu = s.fwu ∧
    (flushPart k aOk bOk s).drb = s.drb ∧ (flushPart k aOk bOk s).mem = s.mem ∧ (flushPart k aOk bOk s).gov = s.gov ∧
    (flushPart k aOk bOk s).shown = s.shown := by
  simp [flushPart]

/-- What `flushWrite` leaves. -/
@[simp] theorem flushWrite_frame (aOk bOk : Bool) (s : State) :
    (flushWrite aOk bOk s).pending = s.pending ∧ (flushWrite aOk bOk s).free = s.free ∧
    (flushWrite aOk bOk s).now = s.now ∧ (flushWrite aOk bOk s).csn = s.csn ∧ (flushWrite aOk bOk s).chp = s.chp ∧
    (flushWrite aOk bOk s).pins = s.pins ∧ (flushWrite aOk bOk s).win = s.win ∧ (flushWrite aOk bOk s).ttb = s.ttb ∧
    (flushWrite aOk bOk s).car = s.car ∧ (flushWrite aOk bOk s).cay = s.cay ∧ (flushWrite aOk bOk s).mdf = s.mdf ∧
    (flushWrite aOk bOk s).kst = s.kst ∧ (flushWrite aOk bOk s).leg = s.leg ∧ (flushWrite aOk bOk s).vlt = s.vlt ∧
    (flushWrite aOk bOk s).slc = s.slc ∧ (flushWrite aOk bOk s).rng = s.rng ∧ (flushWrite aOk bOk s).lat = s.lat ∧
    (flushWrite aOk bOk s).bnv = s.bnv ∧ (flushWrite aOk bOk s).ucp = s.ucp ∧ (flushWrite aOk bOk s).wld = s.wld ∧
    (flushWrite aOk bOk s).tmp = s.tmp ∧ (flushWrite aOk bOk s).lcs = s.lcs ∧ (flushWrite aOk bOk s).fuses = s.fuses ∧
    (flushWrite aOk bOk s).mnf = s.mnf ∧ (flushWrite aOk bOk s).flash = s.flash ∧ (flushWrite aOk bOk s).fwu = s.fwu ∧
    (flushWrite aOk bOk s).drb = s.drb ∧ (flushWrite aOk bOk s).mem = s.mem ∧ (flushWrite aOk bOk s).gov = s.gov ∧
    (flushWrite aOk bOk s).shown = s.shown := by
  simp [flushWrite]

/-- What `flushAll` leaves. -/
@[simp] theorem flushAll_frame (s : State) :
    (flushAll s).pending = s.pending ∧ (flushAll s).free = s.free ∧ (flushAll s).now = s.now ∧
    (flushAll s).csn = s.csn ∧ (flushAll s).chp = s.chp ∧ (flushAll s).pins = s.pins ∧ (flushAll s).win = s.win ∧
    (flushAll s).ttb = s.ttb ∧ (flushAll s).car = s.car ∧ (flushAll s).cay = s.cay ∧ (flushAll s).mdf = s.mdf ∧
    (flushAll s).kst = s.kst ∧ (flushAll s).leg = s.leg ∧ (flushAll s).vlt = s.vlt ∧ (flushAll s).slc = s.slc ∧
    (flushAll s).rng = s.rng ∧ (flushAll s).lat = s.lat ∧ (flushAll s).bnv = s.bnv ∧ (flushAll s).ucp = s.ucp ∧
    (flushAll s).wld = s.wld ∧ (flushAll s).tmp = s.tmp ∧ (flushAll s).lcs = s.lcs ∧ (flushAll s).fuses = s.fuses ∧
    (flushAll s).mnf = s.mnf ∧ (flushAll s).flash = s.flash ∧ (flushAll s).fwu = s.fwu ∧ (flushAll s).drb = s.drb ∧
    (flushAll s).mem = s.mem ∧ (flushAll s).gov = s.gov ∧ (flushAll s).shown = s.shown := by
  simp [flushAll]

/-- What `gateCore` leaves. -/
@[simp] theorem gateCore_frame (s : State) :
    (gateCore s).pending = s.pending ∧ (gateCore s).out = s.out ∧ (gateCore s).free = s.free ∧
    (gateCore s).now = s.now ∧ (gateCore s).csn = s.csn ∧ (gateCore s).chp = s.chp ∧ (gateCore s).pins = s.pins ∧
    (gateCore s).hpt = s.hpt ∧ (gateCore s).stats = s.stats ∧ (gateCore s).win = s.win ∧ (gateCore s).ttb = s.ttb ∧
    (gateCore s).car = s.car ∧ (gateCore s).cay = s.cay ∧ (gateCore s).mdf = s.mdf ∧ (gateCore s).leg = s.leg ∧
    (gateCore s).vlt = s.vlt ∧ (gateCore s).slc = s.slc ∧ (gateCore s).evr = s.evr ∧ (gateCore s).lat = s.lat ∧
    (gateCore s).ucp = s.ucp ∧ (gateCore s).wld = s.wld ∧ (gateCore s).tmp = s.tmp ∧ (gateCore s).bbr = s.bbr ∧
    (gateCore s).lcs = s.lcs ∧ (gateCore s).fuses = s.fuses ∧ (gateCore s).mnf = s.mnf ∧
    (gateCore s).flash = s.flash ∧ (gateCore s).fwu = s.fwu ∧ (gateCore s).shown = s.shown := by
  simp [gateCore]

end Sys2Proof.Laws
end

section
/-! PROOFS. Failed memory lines and the governor (20_memory_clocks_power.md, R381 to R391). -/
namespace Sys2Proof.Proofs

open Sys2Proof.Machine Sys2Proof.Safety Sys2Proof.Laws

variable {r n : Nat} {s : State}

/-! ### A line that fails (R384) -/

/-- What a line that fails does once it is counted, by its region. -/
def lineFails (line : Nat) (a : State) : State :=
  match memRegion line with
  | .rings => ringError line 0x06 a
  | .queues => memRecord (loseQueueLine a)
  | .tickets => memRecord (loseTicketLine a)
  | .spill => memRecord (loseSpillLine ((line - 0xE80000) / 0xE0000) (sramSize + (line - 0xE80000) % 0xE0000 / 64) a)
  | .control =>
    let w := ownerWorld a line
    if (worldOf a w).state == .starting || (worldOf a w).state == .failed then memRecord a else memRecord (worldFail w 2 a)
  | .vault => memRecord (updVlt (fun v => { v with reload := true }) a)
  | .dormant => memRecord (updKst (fun k => { k with image := [] }) a)
  | _ => memRecord a

/-- Whether a failure of a line is seen. -/
def lineServed (line : Nat) (s : State) : Bool :=
  match memRegion line with
  | .dormant => s.gov.dormant && !s.chp.inReset
  | .rings => live s && !isCached s line && !isPinned (ringOf s line)
  | .none => false
  | _ => live s

theorem memLineError_eq (line : Nat) (mac : Bool) (s : State) : exec (.memLineError line mac) s =
    onlyIf (lineServed line s && (!mac || hasMac (memRegion line))) s
      (lineFails line (countMemError (memRegion line) mac s)) := rfl

/-- No failure of a line changes the counts again, the fuses or time. -/
theorem lineFails_keeps (line : Nat) (s : State) : (lineFails line s).mem = s.mem ∧ (lineFails line s).fuses = s.fuses ∧
    (lineFails line s).now = s.now := by
  unfold lineFails
  split <;> simp

/-- A device that enters FAULT shows the mode and the cause. -/
theorem enterFault_mode (cause : Nat) (hp : powered s = true) (hf : inFault s = false) :
    (enterFault cause s).chp.mode = .fault ∧ (enterFault cause s).chp.faultCause = cause := by
  rw [enterFault_eq cause hp hf]
  simp [faultShown, faultKeys, faultEnds, atFault]

/-! ### A region's step (R149, R387, R388, R391) -/

/-- A region brought to a step by its clock and its rail. -/
def stepped (n : Nat) (x : GovRegion) : GovRegion :=
  { x with step := n, rail := railOf n, changes := satInc 16 x.changes }

theorem stepTo_same (h : n = (govOf s r).step) : stepTo r n s = s := by simp [stepTo, h]

/-- A rise takes the rail first, a fall the clock. -/
theorem stepTo_eq (hw : twf {} s.gov.regions = true) (ha : s.gov.avsHold = false) (h : n ≠ (govOf s r).step) : ∃ T,
    stepTo r n s = { s with
      gov := { s.gov with regions := T }
      out := s.out ++ if (govOf s r).step < n then [.avs r (railOf n), .clock r n] else [.clock r n, .avs r (railOf n)] } ∧
    twf {} T = true ∧ tget {} T r = stepped n (govOf s r) ∧ ∀ k, k ≠ r → tget {} T k = govOf s k := by
  by_cases hn : (govOf s r).step < n
  · refine ⟨tupd {} (tupd {} s.gov.regions r (fun x => { x with rail := railOf n })) r
      (fun x => { x with step := n, changes := satInc 16 x.changes }), ?_, twf_tupd _ _ _ _ (twf_tupd _ _ _ _ hw), ?_, fun k hk => ?_⟩
    · simp [stepTo, h, hn, clockTo, railTo, ha, emit, updGov]
    · rw [tget_tupd_same _ _ _ _ (twf_tupd _ _ _ _ hw), tget_tupd_same _ _ _ _ hw]
      rfl
    · rw [tget_tupd_ne _ _ _ _ _ hk, tget_tupd_ne _ _ _ _ _ hk]
      rfl
  · refine ⟨tupd {} (tupd {} s.gov.regions r (fun x => { x with step := n, changes := satInc 16 x.changes })) r
      (fun x => { x with rail := railOf n }), ?_, twf_tupd _ _ _ _ (twf_tupd _ _ _ _ hw), ?_, fun k hk => ?_⟩
    · simp [stepTo, h, hn, clockTo, railTo, ha, emit, updGov]
    · rw [tget_tupd_same _ _ _ _ (twf_tupd _ _ _ _ hw), tget_tupd_same _ _ _ _ hw]
      rfl
    · rw [tget_tupd_ne _ _ _ _ _ hk, tget_tupd_ne _ _ _ _ _ hk]
      rfl

/-- How a region may move in one interval: by at most one step, by none while a regulator is silent. -/
def Moved (hold : Bool) (x : GovReading) (old new : GovRegion) : Prop :=
  new.step ≤ old.step + 1 ∧ old.step ≤ new.step + 1 ∧ (hold = true → new.step = old.step) ∧ new.busy = min 100 x.busy

theorem loopStep_kept (g : Gov) (x : GovReading) (m : GovRegion) :
    (loopStep g x m).2.step = m.step ∧ (loopStep g x m).2.busy = min 100 x.busy := by
  simp only [loopStep]
  repeat' split
  all_goals exact ⟨rfl, rfl⟩

/-- The step that a region moves to. -/
def nextStep (s : State) (x : GovReading) (r : Nat) : Nat :=
  let old := govOf s r
  let want := clamp (effFloor s) (effCeil s) (loopStep s.gov x old).1
  if s.gov.avsHold then old.step else if want > old.step then old.step + 1 else if want < old.step then old.step - 1 else old.step

theorem nextStep_near (s : State) (x : GovReading) (r : Nat) : nextStep s x r ≤ (govOf s r).step + 1 ∧
    (govOf s r).step ≤ nextStep s x r + 1 ∧ (s.gov.avsHold = true → nextStep s x r = (govOf s r).step) := by
  simp only [nextStep]
  split
  · omega
  next h =>
    split
    · exact ⟨by omega, by omega, fun h' => absurd h' h⟩
    · split <;> exact ⟨by omega, by omega, fun h' => absurd h' h⟩

theorem moveRegion_eq (x : GovReading) (hw : twf {} s.gov.regions = true) : ∃ T o,
    moveRegion r x s = { s with gov := { s.gov with regions := T }, out := o } ∧ twf {} T = true ∧
    Moved s.gov.avsHold x (govOf s r) (tget {} T r) ∧ ∀ k, k ≠ r → tget {} T k = govOf s k := by
  obtain ⟨hstep, hbusy⟩ := loopStep_kept s.gov x (govOf s r)
  obtain ⟨hup, hdown, hhold⟩ := nextStep_near s x r
  have hw1 := twf_tset {} s.gov.regions r (loopStep s.gov x (govOf s r)).2 hw
  have h1 := tget_tset_same {} s.gov.regions r (loopStep s.gov x (govOf s r)).2 hw
  have hne : ∀ k, k ≠ r → tget {} (tset {} s.gov.regions r (loopStep s.gov x (govOf s r)).2) k = govOf s k :=
    fun k hk => tget_tset_ne _ _ _ _ _ hk
  have he : moveRegion r x s = stepTo r (nextStep s x r) (updGov (fun g =>
    { g with regions := tset {} g.regions r (loopStep s.gov x (govOf s r)).2 }) s) := rfl
  rw [he]
  by_cases h : nextStep s x r = (govOf s r).step
  · rw [stepTo_same (by rw [h, ← hstep]; exact congrArg GovRegion.step h1.symm)]
    exact ⟨_, _, rfl, hw1, by rw [Moved, h1, hstep, hbusy]; omega, hne⟩
  · have ha : s.gov.avsHold = false := Bool.eq_false_iff.mpr fun h' => h (hhold h')
    obtain ⟨T, hT, hwT, hr, hk⟩ := stepTo_eq (r := r) (n := nextStep s x r) (s := updGov (fun g =>
      { g with regions := tset {} g.regions r (loopStep s.gov x (govOf s r)).2 }) s) hw1 ha
      (fun h' => h (h'.trans ((congrArg GovRegion.step h1).trans hstep)))
    have hx : govOf (updGov (fun g => { g with regions := tset {} g.regions r (loopStep s.gov x (govOf s r)).2 }) s) r =
      (loopStep s.gov x (govOf s r)).2 := h1
    refine ⟨T, _, hT, hwT, ?_, fun k hk' => (hk k hk').trans (hne k hk')⟩
    rw [hr, hx, Moved, ha]
    exact ⟨hup, hdown, fun h => absurd h (by decide), hbusy⟩

/-- Each region moved once, in turn. -/
theorem moveRegions_eq (rs : List GovReading) (l : List Nat) (hl : l.Nodup) (s : State) (hw : twf {} s.gov.regions = true) :
    ∃ T o, l.foldl (fun s r => moveRegion r (rs.getD r {}) s) s = { s with gov := { s.gov with regions := T }, out := o } ∧
      (∀ k ∈ l, Moved s.gov.avsHold (rs.getD k {}) (govOf s k) (tget {} T k)) ∧ ∀ k ∉ l, tget {} T k = govOf s k := by
  induction l generalizing s with
  | nil => exact ⟨_, _, rfl, by simp, fun k _ => rfl⟩
  | cons c l ih =>
    obtain ⟨hc, hl⟩ := List.nodup_cons.mp hl
    obtain ⟨T, o, hm, hw1, hmoved, hne⟩ := moveRegion_eq (r := c) (rs.getD c {}) hw
    obtain ⟨T', o', hf, hin, hout⟩ := ih hl (moveRegion c (rs.getD c {}) s) (by rw [hm]; exact hw1)
    rw [hm] at hf hin hout
    refine ⟨T', o', by rw [List.foldl_cons, hm, hf], fun k hk => ?_, fun k hk => ?_⟩
    · rcases List.mem_cons.mp hk with rfl | hk
      · rw [hout k hc]
        exact hmoved
      · have hkc : k ≠ c := fun h => hc (h ▸ hk)
        have hin' : Moved s.gov.avsHold (rs.getD k {}) (tget {} T k) (tget {} T' k) := hin k hk
        rwa [hne k hkc] at hin'
    · rw [List.mem_cons, not_or] at hk
      exact (hout k hk.2).trans (hne k hk.1)

/-! ### The interval, the thermal step and a silent regulator (R387 to R391, R421) -/

theorem clampRecord_eq (s : State) : ∃ e, clampRecord s = { s with
    gov := { s.gov with clampRecAt := some s.now }, evr := e } :=
  ⟨_, record_eq .govClamp _ _⟩

/-- A governor conflict's record: at most one a second. -/
theorem clampNote_eq (s : State) : ∃ t e, clampNote s = { s with gov := { s.gov with clampRecAt := t }, evr := e } := by
  obtain ⟨e, he⟩ := clampRecord_eq s
  unfold clampNote
  split
  · split
    · exact ⟨_, _, he⟩
    · exact ⟨s.gov.clampRecAt, s.evr, rfl⟩
  · exact ⟨_, _, he⟩

/-- A conflict whose last record is a second old, or that has none, is recorded. -/
theorem clampNote_due (h : s.gov.clampRecAt.all (fun t => t + 1000000 ≤ s.now) = true) : clampNote s = clampRecord s := by
  unfold clampNote
  split
  next t ht =>
    rw [ht, Option.all_some] at h
    have hle : t + 1000000 ≤ s.now := of_decide_eq_true h
    rw [if_pos hle]
  · rfl

theorem clampCheck_eq (s : State) : ∃ c t e, clampCheck s = { s with
    gov := { s.gov with clampCnt := c, clampRecAt := t }, evr := e } := by
  unfold clampCheck
  split
  · exact ⟨s.gov.clampCnt, s.gov.clampRecAt, s.evr, rfl⟩
  · obtain ⟨t, e, he⟩ := clampNote_eq (updGov (fun g => { g with clampCnt := satInc 32 g.clampCnt }) s)
    exact ⟨_, t, e, he⟩

/-- What the cap loop leaves of the governor. -/
theorem capLoop_spec (power : Nat) (proj : List Nat) {l : List Nat} (hl : (power :: s.gov.powers).take 10 = l) {mean : Nat}
    (hm : l.sum / l.length = mean) : ∃ st lim since, capLoop power proj s = { s with gov := { s.gov with
      powers := l, power := mean % 2 ^ 16, powerMax := max s.gov.powerMax (mean % 2 ^ 16), capStep := st
      capLimit := lim, lowSince := since } } ∧ (100 * s.gov.pwrCap < mean → st ≤ s.gov.capStep - 1) := by
  subst hl hm
  refine ⟨_, _, _, rfl, fun h => ?_⟩
  rw [if_pos h]
  exact Nat.min_le_right _ _

theorem govInterval_eq (power : Nat) (proj : List Nat) (rs : List GovReading) (hw : twf {} s.gov.regions = true)
    (hl : live s = true) (ht : s.gov.intervalAt + 100 ≤ s.now) {l : List Nat} (hp : (power :: s.gov.powers).take 10 = l)
    {mean : Nat} (hm : l.sum / l.length = mean) :
    ∃ t, exec (.govInterval power proj rs) s = .next t ∧ t.gov.intervalAt = s.now ∧ t.gov.powers = l ∧
      t.gov.power = mean % 2 ^ 16 ∧ t.gov.powerMax = max s.gov.powerMax (mean % 2 ^ 16) ∧ t.csn = s.csn ∧ t.car = s.car ∧
      t.kst = s.kst ∧ (100 * s.gov.pwrCap < mean → t.gov.capStep ≤ s.gov.capStep - 1) ∧
      (∀ r, r < 4 → Moved s.gov.avsHold (rs.getD r {}) (govOf s r) (govOf t r)) := by
  obtain ⟨st, lim, since, hcap, hst⟩ := capLoop_spec power proj hp hm
  obtain ⟨c, t, e, hcl⟩ := clampCheck_eq (capLoop power proj s)
  rw [hcap] at hcl
  obtain ⟨T, o, hmv, hin, -⟩ := moveRegions_eq rs (List.range 4) List.nodup_range (clampCheck (capLoop power proj s))
    (by rw [hcap, hcl]; exact hw)
  rw [hcap, hcl] at hmv hin
  refine ⟨updGov (fun g => { g with intervalAt := s.now }) ((List.range 4).foldl (fun s r => moveRegion r (rs.getD r {}) s)
    (clampCheck (capLoop power proj s))), onlyIf_pos (by simp [hl, ht]), ?_⟩
  rw [hcap, hcl, hmv]
  exact ⟨rfl, rfl, rfl, rfl, rfl, rfl, rfl, hst, fun r hr => hin r (List.mem_range.mpr hr)⟩

/-- The thermal step after a reading of the hottest sensor. -/
def thermStepAfter (x : Int) (s : State) : Nat :=
  if 1000 ≤ x then (if s.gov.thermAt + 10000 ≤ s.now then s.gov.thermStep - 1 else s.gov.thermStep)
  else if 950 ≤ x then s.gov.thermStep
  else if s.gov.thermStep < 7 ∧ s.gov.warmAt + 100000 ≤ s.now then s.gov.thermStep + 1 else s.gov.thermStep

theorem sense_eq (i v : Nat) (s : State) : ∃ t, sense i v s = { s with tmp := t } := by
  unfold sense
  split
  · exact ⟨s.tmp, rfl⟩
  · exact ⟨_, rfl⟩

theorem thermalStep_eq (x : Int) (hl : live s = true) : ∃ t, exec (.thermalStep x) s = .next t ∧
    t.gov.thermStep = thermStepAfter x s ∧ t = { s with gov := t.gov, tmp := t.tmp } := by
  obtain ⟨w, hw⟩ := sense_eq 4 (enc16 x) s
  refine ⟨_, onlyIf_pos hl, ?_⟩
  rw [hw, thermStepAfter]
  split
  · exact ⟨rfl, rfl⟩
  split
  · exact ⟨rfl, rfl⟩
  by_cases h : s.gov.thermStep < 7 ∧ s.gov.warmAt + 100000 ≤ s.now
  · rw [if_pos h, if_pos (by simp [h])]
    exact ⟨rfl, rfl⟩
  · rw [if_neg h, if_neg (by simpa using h)]
    exact ⟨rfl, rfl⟩

/-! ### The obligation -/

/-- Settles O57: a failed line does its region's one thing, and each region moves once in an interval. -/
theorem memoryAndGovernorFollowReadings : Obligations.MemoryAndGovernorFollowReadings := by
  unfold Obligations.MemoryAndGovernorFollowReadings
  refine ⟨fun line mac s hl hn hd hmac hr => ?_, fun line s hd h0 hr => ?_, fun ch s hl ht hc => onlyIf_pos (by simp [hl, ht, hc]),
    fun line mac s hr h => ?_, fun s hp hf hc hr => ⟨_, onlyIf_pos ?_, enterFault_mode 0x10000 hp hf⟩,
    fun power proj rs s hok hl ht l mean hp hm => ?_, fun x s hl => thermalStep_eq x hl,
    fun s hl ha => ⟨fun hc => ?_, fun at_ hc ht => ?_⟩, fun r n s hok ha => ?_⟩
  · obtain ⟨h1, h2, h3⟩ := lineFails_keeps line (countMemError (memRegion line) mac s)
    have hs : lineServed line s = true := by
      unfold lineServed
      split <;> simp_all
    refine ⟨_, (memLineError_eq line mac s).trans (onlyIf_pos (by cases mac <;> simp_all)), h1, fun h => ?_, fun h hv => ?_,
      fun hv => ?_, fun hv => ?_, h2.trans (by simp), h3.trans (by simp)⟩
    · rw [h1, h]
      simp [countMemError, updMem]
    · rw [h1, h, hv]
      simp [countMemError, updMem]
    · simp [lineFails, hv, updVlt]
    · simp [lineFails, hv]
  · obtain ⟨-, h2, h3⟩ := lineFails_keeps line (countMemError (memRegion line) false s)
    refine ⟨_, (memLineError_eq line false s).trans (onlyIf_pos (by simp [lineServed, hr, hd, h0])), ?_, ?_, h2.trans (by simp),
      h3.trans (by simp)⟩
    · simp [lineFails, hr, updKst]
    · simp [lineFails, hr, countMemError, updMem]
  · refine (memLineError_eq line mac s).trans (onlyIf_neg ?_)
    rcases h with h | h <;> simp [lineServed, hr, h]
  · rcases hr with hr | hr <;> simp [hp, hf, hc, hr]
  · obtain ⟨-, -, -, -, -, -, -, -, -, -, -, -, -, -, hw, -⟩ := tablesOk_parts s hok
    obtain ⟨t, he, h1, h2, h3, h4, h5, h6, h7, h8, hmv⟩ := govInterval_eq power proj rs hw hl ht hp hm
    exact ⟨t, he, h1, h2, h3, h4, h5, h6, h7, h8, hmv⟩
  · obtain ⟨e, he⟩ := clampRecord_eq (updGov (fun g => { g with avsHold := true }) s)
    have hx : exec .avsTimeout s = .next (clampRecord (updGov (fun g => { g with avsHold := true }) s)) := by
      refine (onlyIf_pos (by simp [hl, ha])).trans (congrArg Host.Outcome.next (clampNote_due hc))
    exact ⟨_, hx.trans (congrArg Host.Outcome.next he), rfl, rfl⟩
  · refine (onlyIf_pos (by simp [hl, ha])).trans ?_
    simp [clampNote, hc, updGov, Nat.not_le.mpr ht]
  · obtain ⟨-, -, -, -, -, -, -, -, -, -, -, -, -, -, hw, -⟩ := tablesOk_parts s hok
    refine ⟨fun hn => ?_, fun hn => ?_, fun hn => ?_⟩
    · obtain ⟨T, he, -⟩ := stepTo_eq hw ha (Nat.ne_of_gt hn)
      rw [he, if_pos hn]
    · obtain ⟨T, he, -⟩ := stepTo_eq hw ha (Nat.ne_of_lt hn)
      rw [he, if_neg (Nat.not_lt.mpr (Nat.le_of_lt hn))]
    · obtain ⟨T, he, -, hT, -⟩ := stepTo_eq hw ha hn
      have hg : govOf (stepTo r n s) r = stepped n (govOf s r) := by
        rw [he]
        exact hT
      rw [hg]
      exact ⟨rfl, rfl⟩

end Sys2Proof.Proofs
end

section
/-! PROOFS. The image that Dormant seals, and a carriage that ends before it is sealed (20_memory_clocks_power.md, R210,
R393). -/
namespace Sys2Proof.Proofs

open Sys2Proof.Machine Sys2Proof.Safety Sys2Proof.Laws

theorem slotBytes_length (i : Nat) (x : Slot) : (slotBytes i x).length = 128 := by
  rw [slotBytes, padTo, List.length_take, List.length_append, zeros, List.length_replicate]
  omega

theorem imageSeal_length (v : Nat) (l : List (Nat × Slot)) : (imageSeal v l).length = 128 * l.length + 16 := by
  have h : (l.map (fun e => slotBytes e.1 e.2)).flatten.length = 128 * l.length := by
    induction l with
    | nil => rfl
    | cons e l ih => rw [List.map_cons, List.flatten_cons, List.length_append, slotBytes_length, ih, List.length_cons]; omega
  rw [imageSeal, List.length_append, gcmCrypt_length, gcmTag_length, h]

/-- A device that has accepted a Dormant request, with both links down, a PENDING slot, and a carriage that holds the slot
as its destination and the legacy register as its source. -/
def pendingHeld : State :=
  { chp := { inReset := false, mode := .running }
    gov := { dormReady := true }
    kst := { slots := [(1, { state := .pending, use := 1 })] }
    car := { cars := [(0, { stage := .running, key := .legacy, dstKey := .slot 1 0 })] } }

/-- The state that the image is sealed from. -/
def beforeSeal (s : State) : State :=
  grantEnd (debugLost (legErase 10 stKeyErased (seqd (dropShadows (fun _ => true) (closeProps (ucpForce stAborted s))))))

/-- The legacy register's erasure has ended the carriage, and its end has freed the slot. -/
theorem beforeSeal_pendingHeld : (beforeSeal pendingHeld).kst.slots = [] := by decide

/-- Of no slot, an empty image is sealed. -/
theorem sealSlots_none {s : State} (h : s.kst.slots = []) :
    (sealSlots s).kst.image = imageSeal (sealSlots s).bbr.dseal [] := by
  simp [sealSlots, h, tkeys]

theorem dormantEntry_pendingHeld : exec .dormantEntry pendingHeld =
    .next (gateCore (flushAll (sealSlots (beforeSeal pendingHeld)))) := rfl

/-- Refutes O58: the image is not of the slots that stood at the entry. In `pendingHeld` the erasure of the legacy register
ends the carriage, whose end frees the PENDING slot that it alone used, so that the image is of no slot. -/
theorem not_dormantAndSupplyKeepWhatTheyMust : ¬ Obligations.DormantAndSupplyKeepWhatTheyMust := by
  unfold Obligations.DormantAndSupplyKeepWhatTheyMust
  rintro ⟨-, -, h, -⟩
  obtain ⟨t, he, -, -, -, -, -, -, -, -, -, -, hi, -⟩ := h pendingHeld (by decide) (by decide) rfl rfl rfl rfl (by decide)
  have ht : t = gateCore (flushAll (sealSlots (beforeSeal pendingHeld))) :=
    Host.Outcome.next.inj (he.symm.trans dormantEntry_pendingHeld)
  have hns : ∀ i, (slotOf pendingHeld i).session = false := fun i => by
    by_cases h : i = 1 <;> simp [slotOf, pendingHeld, tget, Ne.symm, h]
  have hk : tkeys pendingHeld.kst.slots (fun _ x => x.state != .free) = [1] := by decide
  have hl := congrArg List.length (hi hns rfl (by decide))
  have hg : t.kst.image = (sealSlots (beforeSeal pendingHeld)).kst.image := by
    rw [ht]
    simp [gateCore, rngZeroise]
  rw [hk, imageSeal_length, hg, sealSlots_none beforeSeal_pendingHeld, imageSeal_length] at hl
  exact absurd hl (by decide)

end Sys2Proof.Proofs
end

section
/-! SUPPORT. What a port loss and the ends of host reads leave of the state (03_host_ports_and_turntables.md). -/
namespace Sys2Proof.Laws

open Sys2Proof.Machine Sys2Proof.Safety

/-- What `tellWaiter` leaves besides. -/
@[simp] theorem tellWaiter_rest (w : Port) (n : Nat) (s : State) :
    (tellWaiter w n s).pending = s.pending ∧ (tellWaiter w n s).free = s.free ∧ (tellWaiter w n s).now = s.now ∧
    (tellWaiter w n s).csn = s.csn ∧ (tellWaiter w n s).chp = s.chp ∧ (tellWaiter w n s).pins = s.pins ∧
    (tellWaiter w n s).win = s.win ∧ (tellWaiter w n s).ttb = s.ttb ∧ (tellWaiter w n s).car = s.car ∧
    (tellWaiter w n s).cay = s.cay ∧ (tellWaiter w n s).mdf = s.mdf ∧ (tellWaiter w n s).kst = s.kst ∧
    (tellWaiter w n s).leg = s.leg ∧ (tellWaiter w n s).vlt = s.vlt ∧ (tellWaiter w n s).slc = s.slc ∧
    (tellWaiter w n s).evr = s.evr ∧ (tellWaiter w n s).rng = s.rng ∧ (tellWaiter w n s).lat = s.lat ∧
    (tellWaiter w n s).bnv = s.bnv ∧ (tellWaiter w n s).ucp = s.ucp ∧ (tellWaiter w n s).wld = s.wld ∧
    (tellWaiter w n s).tmp = s.tmp ∧ (tellWaiter w n s).bbr = s.bbr ∧ (tellWaiter w n s).lcs = s.lcs ∧
    (tellWaiter w n s).fuses = s.fuses ∧ (tellWaiter w n s).mnf = s.mnf ∧ (tellWaiter w n s).flash = s.flash ∧
    (tellWaiter w n s).fwu = s.fwu ∧ (tellWaiter w n s).drb = s.drb ∧ (tellWaiter w n s).mem = s.mem ∧
    (tellWaiter w n s).gov = s.gov ∧ (tellWaiter w n s).shown = s.shown := by
  simp [tellWaiter]

/-- What `dropTable` leaves. -/
@[simp] theorem dropTable_frame (n : Nat) (forced : Bool) (s : State) :
    (dropTable n forced s).pending = s.pending ∧ (dropTable n forced s).free = s.free ∧
    (dropTable n forced s).now = s.now ∧ (dropTable n forced s).chp = s.chp ∧ (dropTable n forced s).pins = s.pins ∧
    (dropTable n forced s).win = s.win ∧ (dropTable n forced s).ucp = s.ucp ∧ (dropTable n forced s).wld = s.wld ∧
    (dropTable n forced s).tmp = s.tmp ∧ (dropTable n forced s).bbr = s.bbr ∧ (dropTable n forced s).lcs = s.lcs ∧
    (dropTable n forced s).fuses = s.fuses ∧ (dropTable n forced s).mnf = s.mnf ∧
    (dropTable n forced s).flash = s.flash ∧ (dropTable n forced s).fwu = s.fwu ∧ (dropTable n forced s).drb = s.drb ∧
    (dropTable n forced s).mem = s.mem ∧ (dropTable n forced s).gov = s.gov ∧
    (dropTable n forced s).shown = s.shown := by
  unfold dropTable
  dsimp only
  repeat' split
  all_goals simp

/-- What `linkLost` leaves. -/
@[simp] theorem linkLost_frame (p : Port) (c : LossCause) (s : State) :
    (linkLost p c s).pending = s.pending ∧ (linkLost p c s).out = s.out ∧ (linkLost p c s).free = s.free ∧
    (linkLost p c s).now = s.now ∧ (linkLost p c s).csn = s.csn ∧ (linkLost p c s).chp = s.chp ∧
    (linkLost p c s).pins = s.pins ∧ (linkLost p c s).stats = s.stats ∧ (linkLost p c s).win = s.win ∧
    (linkLost p c s).ttb = s.ttb ∧ (linkLost p c s).car = s.car ∧ (linkLost p c s).cay = s.cay ∧
    (linkLost p c s).mdf = s.mdf ∧ (linkLost p c s).kst = s.kst ∧ (linkLost p c s).leg = s.leg ∧
    (linkLost p c s).vlt = s.vlt ∧ (linkLost p c s).slc = s.slc ∧ (linkLost p c s).evr = s.evr ∧
    (linkLost p c s).rng = s.rng ∧ (linkLost p c s).lat = s.lat ∧ (linkLost p c s).bnv = s.bnv ∧
    (linkLost p c s).ucp = s.ucp ∧ (linkLost p c s).wld = s.wld ∧ (linkLost p c s).tmp = s.tmp ∧
    (linkLost p c s).bbr = s.bbr ∧ (linkLost p c s).lcs = s.lcs ∧ (linkLost p c s).fuses = s.fuses ∧
    (linkLost p c s).mnf = s.mnf ∧ (linkLost p c s).flash = s.flash ∧ (linkLost p c s).fwu = s.fwu ∧
    (linkLost p c s).drb = s.drb ∧ (linkLost p c s).mem = s.mem ∧ (linkLost p c s).gov = s.gov ∧
    (linkLost p c s).shown = s.shown := by
  simp [linkLost]

/-- What `dropTables` leaves. -/
@[simp] theorem dropTables_frame (p : Port) (s : State) :
    (dropTables p s).pending = s.pending ∧ (dropTables p s).free = s.free ∧ (dropTables p s).now = s.now ∧
    (dropTables p s).chp = s.chp ∧ (dropTables p s).pins = s.pins ∧ (dropTables p s).win = s.win ∧
    (dropTables p s).ucp = s.ucp ∧ (dropTables p s).wld = s.wld ∧ (dropTables p s).tmp = s.tmp ∧
    (dropTables p s).bbr = s.bbr ∧ (dropTables p s).lcs = s.lcs ∧ (dropTables p s).fuses = s.fuses ∧
    (dropTables p s).mnf = s.mnf ∧ (dropTables p s).flash = s.flash ∧ (dropTables p s).fwu = s.fwu ∧
    (dropTables p s).drb = s.drb ∧ (dropTables p s).mem = s.mem ∧ (dropTables p s).gov = s.gov ∧
    (dropTables p s).shown = s.shown := by
  simp [dropTables]

/-- What `dropHeld` leaves. -/
@[simp] theorem dropHeld_frame (p : Port) (s : State) :
    (dropHeld p s).pending = s.pending ∧ (dropHeld p s).out = s.out ∧ (dropHeld p s).free = s.free ∧
    (dropHeld p s).now = s.now ∧ (dropHeld p s).chp = s.chp ∧ (dropHeld p s).pins = s.pins ∧
    (dropHeld p s).hpt = s.hpt ∧ (dropHeld p s).stats = s.stats ∧ (dropHeld p s).win = s.win ∧
    (dropHeld p s).ttb = s.ttb ∧ (dropHeld p s).cay = s.cay ∧ (dropHeld p s).mdf = s.mdf ∧
    (dropHeld p s).kst = s.kst ∧ (dropHeld p s).leg = s.leg ∧ (dropHeld p s).vlt = s.vlt ∧
    (dropHeld p s).slc = s.slc ∧ (dropHeld p s).evr = s.evr ∧ (dropHeld p s).rng = s.rng ∧
    (dropHeld p s).lat = s.lat ∧ (dropHeld p s).bnv = s.bnv ∧ (dropHeld p s).ucp = s.ucp ∧
    (dropHeld p s).wld = s.wld ∧ (dropHeld p s).tmp = s.tmp ∧ (dropHeld p s).bbr = s.bbr ∧
    (dropHeld p s).lcs = s.lcs ∧ (dropHeld p s).fuses = s.fuses ∧ (dropHeld p s).mnf = s.mnf ∧
    (dropHeld p s).flash = s.flash ∧ (dropHeld p s).fwu = s.fwu ∧ (dropHeld p s).drb = s.drb ∧
    (dropHeld p s).mem = s.mem ∧ (dropHeld p s).gov = s.gov ∧ (dropHeld p s).shown = s.shown := by
  simp [dropHeld]

/-- What `loseRings` leaves. -/
@[simp] theorem loseRings_frame (p : Port) (s : State) :
    (loseRings p s).pending = s.pending ∧ (loseRings p s).free = s.free ∧ (loseRings p s).now = s.now ∧
    (loseRings p s).chp = s.chp ∧ (loseRings p s).pins = s.pins ∧ (loseRings p s).win = s.win ∧
    (loseRings p s).ttb = s.ttb ∧ (loseRings p s).cay = s.cay ∧ (loseRings p s).mdf = s.mdf ∧
    (loseRings p s).kst = s.kst ∧ (loseRings p s).leg = s.leg ∧ (loseRings p s).vlt = s.vlt ∧
    (loseRings p s).slc = s.slc ∧ (loseRings p s).rng = s.rng ∧ (loseRings p s).lat = s.lat ∧
    (loseRings p s).bnv = s.bnv ∧ (loseRings p s).ucp = s.ucp ∧ (loseRings p s).wld = s.wld ∧
    (loseRings p s).tmp = s.tmp ∧ (loseRings p s).bbr = s.bbr ∧ (loseRings p s).lcs = s.lcs ∧
    (loseRings p s).fuses = s.fuses ∧ (loseRings p s).mnf = s.mnf ∧ (loseRings p s).flash = s.flash ∧
    (loseRings p s).fwu = s.fwu ∧ (loseRings p s).drb = s.drb ∧ (loseRings p s).mem = s.mem ∧
    (loseRings p s).gov = s.gov ∧ (loseRings p s).shown = s.shown := by
  simp [loseRings]

/-- What `loseCarrs` leaves. -/
@[simp] theorem loseCarrs_frame (p : Port) (s : State) :
    (loseCarrs p s).pending = s.pending ∧ (loseCarrs p s).free = s.free ∧ (loseCarrs p s).now = s.now ∧
    (loseCarrs p s).chp = s.chp ∧ (loseCarrs p s).pins = s.pins ∧ (loseCarrs p s).ttb = s.ttb ∧
    (loseCarrs p s).leg = s.leg ∧ (loseCarrs p s).wld = s.wld ∧ (loseCarrs p s).tmp = s.tmp ∧
    (loseCarrs p s).bbr = s.bbr ∧ (loseCarrs p s).lcs = s.lcs ∧ (loseCarrs p s).fuses = s.fuses ∧
    (loseCarrs p s).mnf = s.mnf ∧ (loseCarrs p s).flash = s.flash ∧ (loseCarrs p s).fwu = s.fwu ∧
    (loseCarrs p s).drb = s.drb ∧ (loseCarrs p s).mem = s.mem ∧ (loseCarrs p s).gov = s.gov ∧
    (loseCarrs p s).shown = s.shown := by
  simp [loseCarrs]

/-- What `dbgEnd` leaves. -/
@[simp] theorem dbgEnd_frame (result : Nat) (s : State) :
    (dbgEnd result s).pending = s.pending ∧ (dbgEnd result s).out = s.out ∧ (dbgEnd result s).free = s.free ∧
    (dbgEnd result s).now = s.now ∧ (dbgEnd result s).csn = s.csn ∧ (dbgEnd result s).chp = s.chp ∧
    (dbgEnd result s).pins = s.pins ∧ (dbgEnd result s).hpt = s.hpt ∧ (dbgEnd result s).stats = s.stats ∧
    (dbgEnd result s).win = s.win ∧ (dbgEnd result s).ttb = s.ttb ∧ (dbgEnd result s).car = s.car ∧
    (dbgEnd result s).cay = s.cay ∧ (dbgEnd result s).mdf = s.mdf ∧ (dbgEnd result s).kst = s.kst ∧
    (dbgEnd result s).leg = s.leg ∧ (dbgEnd result s).vlt = s.vlt ∧ (dbgEnd result s).slc = s.slc ∧
    (dbgEnd result s).evr = s.evr ∧ (dbgEnd result s).rng = s.rng ∧ (dbgEnd result s).lat = s.lat ∧
    (dbgEnd result s).bnv = s.bnv ∧ (dbgEnd result s).ucp = s.ucp ∧ (dbgEnd result s).wld = s.wld ∧
    (dbgEnd result s).tmp = s.tmp ∧ (dbgEnd result s).bbr = s.bbr ∧ (dbgEnd result s).fuses = s.fuses ∧
    (dbgEnd result s).mnf = s.mnf ∧ (dbgEnd result s).flash = s.flash ∧ (dbgEnd result s).fwu = s.fwu ∧
    (dbgEnd result s).drb = s.drb ∧ (dbgEnd result s).mem = s.mem ∧ (dbgEnd result s).gov = s.gov ∧
    (dbgEnd result s).shown = s.shown := by
  simp [dbgEnd]

/-- What `dropChallenge` leaves. -/
@[simp] theorem dropChallenge_frame (s : State) :
    (dropChallenge s).pending = s.pending ∧ (dropChallenge s).out = s.out ∧ (dropChallenge s).free = s.free ∧
    (dropChallenge s).now = s.now ∧ (dropChallenge s).csn = s.csn ∧ (dropChallenge s).chp = s.chp ∧
    (dropChallenge s).pins = s.pins ∧ (dropChallenge s).hpt = s.hpt ∧ (dropChallenge s).stats = s.stats ∧
    (dropChallenge s).win = s.win ∧ (dropChallenge s).ttb = s.ttb ∧ (dropChallenge s).car = s.car ∧
    (dropChallenge s).cay = s.cay ∧ (dropChallenge s).mdf = s.mdf ∧ (dropChallenge s).kst = s.kst ∧
    (dropChallenge s).leg = s.leg ∧ (dropChallenge s).vlt = s.vlt ∧ (dropChallenge s).slc = s.slc ∧
    (dropChallenge s).evr = s.evr ∧ (dropChallenge s).bnv = s.bnv ∧ (dropChallenge s).ucp = s.ucp ∧
    (dropChallenge s).wld = s.wld ∧ (dropChallenge s).tmp = s.tmp ∧ (dropChallenge s).bbr = s.bbr ∧
    (dropChallenge s).fuses = s.fuses ∧ (dropChallenge s).mnf = s.mnf ∧ (dropChallenge s).flash = s.flash ∧
    (dropChallenge s).fwu = s.fwu ∧ (dropChallenge s).drb = s.drb ∧ (dropChallenge s).mem = s.mem ∧
    (dropChallenge s).gov = s.gov ∧ (dropChallenge s).shown = s.shown := by
  simp [dropChallenge]

/-- What `loseEngines` leaves. -/
@[simp] theorem loseEngines_frame (p : Port) (s : State) :
    (loseEngines p s).pending = s.pending ∧ (loseEngines p s).free = s.free ∧ (loseEngines p s).now = s.now ∧
    (loseEngines p s).chp = s.chp ∧ (loseEngines p s).pins = s.pins ∧ (loseEngines p s).ttb = s.ttb ∧
    (loseEngines p s).leg = s.leg ∧ (loseEngines p s).tmp = s.tmp ∧ (loseEngines p s).bbr = s.bbr ∧
    (loseEngines p s).fuses = s.fuses ∧ (loseEngines p s).mnf = s.mnf ∧ (loseEngines p s).flash = s.flash ∧
    (loseEngines p s).drb = s.drb ∧ (loseEngines p s).mem = s.mem ∧ (loseEngines p s).gov = s.gov ∧
    (loseEngines p s).shown = s.shown := by
  simp [loseEngines]

/-- What `blockReset` leaves. -/
@[simp] theorem blockReset_frame (p : Port) (s : State) :
    (blockReset p s).pending = s.pending ∧ (blockReset p s).out = s.out ∧ (blockReset p s).free = s.free ∧
    (blockReset p s).now = s.now ∧ (blockReset p s).csn = s.csn ∧ (blockReset p s).chp = s.chp ∧
    (blockReset p s).pins = s.pins ∧ (blockReset p s).stats = s.stats ∧ (blockReset p s).win = s.win ∧
    (blockReset p s).ttb = s.ttb ∧ (blockReset p s).car = s.car ∧ (blockReset p s).cay = s.cay ∧
    (blockReset p s).mdf = s.mdf ∧ (blockReset p s).kst = s.kst ∧ (blockReset p s).leg = s.leg ∧
    (blockReset p s).vlt = s.vlt ∧ (blockReset p s).slc = s.slc ∧ (blockReset p s).evr = s.evr ∧
    (blockReset p s).rng = s.rng ∧ (blockReset p s).lat = s.lat ∧ (blockReset p s).bnv = s.bnv ∧
    (blockReset p s).ucp = s.ucp ∧ (blockReset p s).wld = s.wld ∧ (blockReset p s).tmp = s.tmp ∧
    (blockReset p s).bbr = s.bbr ∧ (blockReset p s).lcs = s.lcs ∧ (blockReset p s).fuses = s.fuses ∧
    (blockReset p s).mnf = s.mnf ∧ (blockReset p s).flash = s.flash ∧ (blockReset p s).fwu = s.fwu ∧
    (blockReset p s).drb = s.drb ∧ (blockReset p s).mem = s.mem ∧ (blockReset p s).gov = s.gov ∧
    (blockReset p s).shown = s.shown := by
  simp [blockReset]

/-- What `portReset` leaves. -/
@[simp] theorem portReset_frame (p : Port) (s : State) :
    (portReset p s).pending = s.pending ∧ (portReset p s).out = s.out ∧ (portReset p s).free = s.free ∧
    (portReset p s).now = s.now ∧ (portReset p s).csn = s.csn ∧ (portReset p s).chp = s.chp ∧
    (portReset p s).pins = s.pins ∧ (portReset p s).ttb = s.ttb ∧ (portReset p s).car = s.car ∧
    (portReset p s).cay = s.cay ∧ (portReset p s).mdf = s.mdf ∧ (portReset p s).kst = s.kst ∧
    (portReset p s).leg = s.leg ∧ (portReset p s).vlt = s.vlt ∧ (portReset p s).slc = s.slc ∧
    (portReset p s).evr = s.evr ∧ (portReset p s).rng = s.rng ∧ (portReset p s).lat = s.lat ∧
    (portReset p s).bnv = s.bnv ∧ (portReset p s).ucp = s.ucp ∧ (portReset p s).wld = s.wld ∧
    (portReset p s).tmp = s.tmp ∧ (portReset p s).bbr = s.bbr ∧ (portReset p s).lcs = s.lcs ∧
    (portReset p s).fuses = s.fuses ∧ (portReset p s).mnf = s.mnf ∧ (portReset p s).flash = s.flash ∧
    (portReset p s).fwu = s.fwu ∧ (portReset p s).drb = s.drb ∧ (portReset p s).mem = s.mem ∧
    (portReset p s).gov = s.gov ∧ (portReset p s).shown = s.shown := by
  simp [portReset]

/-- What `portLoss` leaves. -/
@[simp] theorem portLoss_frame (p : Port) (c : LossCause) (s : State) :
    (portLoss p c s).pending = s.pending ∧ (portLoss p c s).free = s.free ∧ (portLoss p c s).now = s.now ∧
    (portLoss p c s).chp = s.chp ∧ (portLoss p c s).pins = s.pins ∧ (portLoss p c s).tmp = s.tmp ∧
    (portLoss p c s).bbr = s.bbr ∧ (portLoss p c s).fuses = s.fuses ∧ (portLoss p c s).mnf = s.mnf ∧
    (portLoss p c s).flash = s.flash ∧ (portLoss p c s).drb = s.drb ∧ (portLoss p c s).mem = s.mem ∧
    (portLoss p c s).gov = s.gov ∧ (portLoss p c s).shown = s.shown := by
  simp [portLoss]

/-- What `dropReads` leaves. -/
@[simp] theorem dropReads_frame (w : DmaRead) (p : Port) (s : State) :
    (dropReads w p s).pending = s.pending ∧ (dropReads w p s).free = s.free ∧ (dropReads w p s).now = s.now ∧
    (dropReads w p s).csn = s.csn ∧ (dropReads w p s).chp = s.chp ∧ (dropReads w p s).pins = s.pins ∧
    (dropReads w p s).hpt = s.hpt ∧ (dropReads w p s).win = s.win ∧ (dropReads w p s).ttb = s.ttb ∧
    (dropReads w p s).car = s.car ∧ (dropReads w p s).cay = s.cay ∧ (dropReads w p s).mdf = s.mdf ∧
    (dropReads w p s).kst = s.kst ∧ (dropReads w p s).leg = s.leg ∧ (dropReads w p s).vlt = s.vlt ∧
    (dropReads w p s).slc = s.slc ∧ (dropReads w p s).evr = s.evr ∧ (dropReads w p s).rng = s.rng ∧
    (dropReads w p s).lat = s.lat ∧ (dropReads w p s).bnv = s.bnv ∧ (dropReads w p s).ucp = s.ucp ∧
    (dropReads w p s).wld = s.wld ∧ (dropReads w p s).tmp = s.tmp ∧ (dropReads w p s).bbr = s.bbr ∧
    (dropReads w p s).lcs = s.lcs ∧ (dropReads w p s).fuses = s.fuses ∧ (dropReads w p s).mnf = s.mnf ∧
    (dropReads w p s).flash = s.flash ∧ (dropReads w p s).fwu = s.fwu ∧ (dropReads w p s).drb = s.drb ∧
    (dropReads w p s).mem = s.mem ∧ (dropReads w p s).gov = s.gov ∧ (dropReads w p s).shown = s.shown := by
  simp [dropReads]

/-- What `readOver` leaves. -/
@[simp] theorem readOver_frame (w : DmaRead) (j : ReadJob) (ok : Bool) (s : State) :
    (readOver w j ok s).pending = s.pending ∧ (readOver w j ok s).free = s.free ∧ (readOver w j ok s).now = s.now ∧
    (readOver w j ok s).csn = s.csn ∧ (readOver w j ok s).chp = s.chp ∧ (readOver w j ok s).pins = s.pins ∧
    (readOver w j ok s).hpt = s.hpt ∧ (readOver w j ok s).win = s.win ∧ (readOver w j ok s).ttb = s.ttb ∧
    (readOver w j ok s).car = s.car ∧ (readOver w j ok s).cay = s.cay ∧ (readOver w j ok s).mdf = s.mdf ∧
    (readOver w j ok s).kst = s.kst ∧ (readOver w j ok s).leg = s.leg ∧ (readOver w j ok s).vlt = s.vlt ∧
    (readOver w j ok s).slc = s.slc ∧ (readOver w j ok s).evr = s.evr ∧ (readOver w j ok s).rng = s.rng ∧
    (readOver w j ok s).lat = s.lat ∧ (readOver w j ok s).bnv = s.bnv ∧ (readOver w j ok s).ucp = s.ucp ∧
    (readOver w j ok s).wld = s.wld ∧ (readOver w j ok s).tmp = s.tmp ∧ (readOver w j ok s).bbr = s.bbr ∧
    (readOver w j ok s).lcs = s.lcs ∧ (readOver w j ok s).fuses = s.fuses ∧ (readOver w j ok s).mnf = s.mnf ∧
    (readOver w j ok s).flash = s.flash ∧ (readOver w j ok s).fwu = s.fwu ∧ (readOver w j ok s).drb = s.drb ∧
    (readOver w j ok s).mem = s.mem ∧ (readOver w j ok s).gov = s.gov ∧ (readOver w j ok s).shown = s.shown := by
  simp [readOver]

/-- What `perstPin` leaves. -/
@[simp] theorem perstPin_frame (p : Port) (v : Bool) (s : State) :
    (perstPin p v s).pending = s.pending ∧ (perstPin p v s).out = s.out ∧ (perstPin p v s).free = s.free ∧
    (perstPin p v s).now = s.now ∧ (perstPin p v s).csn = s.csn ∧ (perstPin p v s).pins = s.pins ∧
    (perstPin p v s).stats = s.stats ∧ (perstPin p v s).win = s.win ∧ (perstPin p v s).ttb = s.ttb ∧
    (perstPin p v s).car = s.car ∧ (perstPin p v s).cay = s.cay ∧ (perstPin p v s).mdf = s.mdf ∧
    (perstPin p v s).kst = s.kst ∧ (perstPin p v s).leg = s.leg ∧ (perstPin p v s).vlt = s.vlt ∧
    (perstPin p v s).slc = s.slc ∧ (perstPin p v s).evr = s.evr ∧ (perstPin p v s).rng = s.rng ∧
    (perstPin p v s).lat = s.lat ∧ (perstPin p v s).bnv = s.bnv ∧ (perstPin p v s).ucp = s.ucp ∧
    (perstPin p v s).wld = s.wld ∧ (perstPin p v s).tmp = s.tmp ∧ (perstPin p v s).bbr = s.bbr ∧
    (perstPin p v s).lcs = s.lcs ∧ (perstPin p v s).fuses = s.fuses ∧ (perstPin p v s).mnf = s.mnf ∧
    (perstPin p v s).flash = s.flash ∧ (perstPin p v s).fwu = s.fwu ∧ (perstPin p v s).drb = s.drb ∧
    (perstPin p v s).mem = s.mem ∧ (perstPin p v s).gov = s.gov ∧ (perstPin p v s).shown = s.shown := by
  simp [perstPin]

/-- What `idleLoss` leaves. -/
@[simp] theorem idleLoss_frame (p : Port) (s : State) :
    (idleLoss p s).pending = s.pending ∧ (idleLoss p s).out = s.out ∧ (idleLoss p s).free = s.free ∧
    (idleLoss p s).now = s.now ∧ (idleLoss p s).csn = s.csn ∧ (idleLoss p s).pins = s.pins ∧
    (idleLoss p s).ttb = s.ttb ∧ (idleLoss p s).car = s.car ∧ (idleLoss p s).cay = s.cay ∧
    (idleLoss p s).mdf = s.mdf ∧ (idleLoss p s).kst = s.kst ∧ (idleLoss p s).leg = s.leg ∧
    (idleLoss p s).vlt = s.vlt ∧ (idleLoss p s).slc = s.slc ∧ (idleLoss p s).evr = s.evr ∧
    (idleLoss p s).rng = s.rng ∧ (idleLoss p s).lat = s.lat ∧ (idleLoss p s).bnv = s.bnv ∧
    (idleLoss p s).ucp = s.ucp ∧ (idleLoss p s).wld = s.wld ∧ (idleLoss p s).tmp = s.tmp ∧
    (idleLoss p s).bbr = s.bbr ∧ (idleLoss p s).lcs = s.lcs ∧ (idleLoss p s).fuses = s.fuses ∧
    (idleLoss p s).mnf = s.mnf ∧ (idleLoss p s).flash = s.flash ∧ (idleLoss p s).fwu = s.fwu ∧
    (idleLoss p s).drb = s.drb ∧ (idleLoss p s).mem = s.mem ∧ (idleLoss p s).gov = s.gov ∧
    (idleLoss p s).shown = s.shown := by
  simp [idleLoss]

/-- What `aerRead` leaves. -/
@[simp] theorem aerRead_frame (p : Port) (s : State) :
    (aerRead p s).pending = s.pending ∧ (aerRead p s).out = s.out ∧ (aerRead p s).now = s.now ∧
    (aerRead p s).csn = s.csn ∧ (aerRead p s).chp = s.chp ∧ (aerRead p s).pins = s.pins ∧ (aerRead p s).hpt = s.hpt ∧
    (aerRead p s).win = s.win ∧ (aerRead p s).ttb = s.ttb ∧ (aerRead p s).car = s.car ∧ (aerRead p s).cay = s.cay ∧
    (aerRead p s).mdf = s.mdf ∧ (aerRead p s).kst = s.kst ∧ (aerRead p s).leg = s.leg ∧ (aerRead p s).vlt = s.vlt ∧
    (aerRead p s).slc = s.slc ∧ (aerRead p s).evr = s.evr ∧ (aerRead p s).rng = s.rng ∧ (aerRead p s).lat = s.lat ∧
    (aerRead p s).bnv = s.bnv ∧ (aerRead p s).ucp = s.ucp ∧ (aerRead p s).wld = s.wld ∧ (aerRead p s).tmp = s.tmp ∧
    (aerRead p s).bbr = s.bbr ∧ (aerRead p s).lcs = s.lcs ∧ (aerRead p s).fuses = s.fuses ∧
    (aerRead p s).mnf = s.mnf ∧ (aerRead p s).flash = s.flash ∧ (aerRead p s).fwu = s.fwu ∧
    (aerRead p s).drb = s.drb ∧ (aerRead p s).mem = s.mem ∧ (aerRead p s).gov = s.gov ∧
    (aerRead p s).shown = s.shown := by
  simp [aerRead]

/-- What `badRead` leaves. -/
@[simp] theorem badRead_frame (p : Port) (s : State) :
    (badRead p s).pending = s.pending ∧ (badRead p s).out = s.out ∧ (badRead p s).now = s.now ∧
    (badRead p s).csn = s.csn ∧ (badRead p s).chp = s.chp ∧ (badRead p s).pins = s.pins ∧ (badRead p s).win = s.win ∧
    (badRead p s).ttb = s.ttb ∧ (badRead p s).car = s.car ∧ (badRead p s).cay = s.cay ∧ (badRead p s).mdf = s.mdf ∧
    (badRead p s).kst = s.kst ∧ (badRead p s).leg = s.leg ∧ (badRead p s).vlt = s.vlt ∧ (badRead p s).slc = s.slc ∧
    (badRead p s).evr = s.evr ∧ (badRead p s).rng = s.rng ∧ (badRead p s).lat = s.lat ∧ (badRead p s).bnv = s.bnv ∧
    (badRead p s).ucp = s.ucp ∧ (badRead p s).wld = s.wld ∧ (badRead p s).tmp = s.tmp ∧ (badRead p s).bbr = s.bbr ∧
    (badRead p s).lcs = s.lcs ∧ (badRead p s).fuses = s.fuses ∧ (badRead p s).mnf = s.mnf ∧
    (badRead p s).flash = s.flash ∧ (badRead p s).fwu = s.fwu ∧ (badRead p s).drb = s.drb ∧
    (badRead p s).mem = s.mem ∧ (badRead p s).gov = s.gov ∧ (badRead p s).shown = s.shown := by
  simp [badRead]

end Sys2Proof.Laws
end

section
/-! SUPPORT. Links, rings' homes and carriages over the steps of a port loss (03_host_ports_and_turntables.md, R64, R65). -/
namespace Sys2Proof.Laws

open Sys2Proof.Machine Sys2Proof.Safety Sys2Proof.Proofs

variable {s u v : State} {g : Nat} {p : Port}

/-! ### A port's link and its losses -/

/-- What only its own link's events change of a port. -/
def linkView (h : HptPort) : Bool × Bool × LossCause × Nat := (h.ready, h.up, h.lossCause, h.lossCnt)

/-- The states show the same of both ports' links and losses. -/
def LinksKept (s u : State) : Prop := ∀ p, linkView (u.hpt.get p) = linkView (s.hpt.get p)

theorem LinksKept.refl (s : State) : LinksKept s s := fun _ => rfl

theorem LinksKept.trans (h : LinksKept s u) (k : LinksKept u v) : LinksKept s v := fun p => (k p).trans (h p)

theorem LinksKept.of_hpt (h : u.hpt = s.hpt) : LinksKept s u := fun p => by rw [h]

theorem LinksKept.foldl {α : Type} {f : State → α → State} (hf : ∀ s x, LinksKept s (f s x)) (l : List α) (s : State) :
    LinksKept s (l.foldl f s) := by
  induction l generalizing s with
  | nil => exact .refl s
  | cons x l ih => exact (hf s x).trans (ih (f s x))

theorem LinksKept.ite {c : Prop} [Decidable c] (h : LinksKept s u) (k : LinksKept s v) :
    LinksKept s (if c then u else v) := by
  split <;> assumption

theorem updHpt_links (q : Port) {f : HptPort → HptPort} (hf : ∀ h, linkView (f h) = linkView h) (s : State) :
    LinksKept s (updHpt q f s) := fun p => by
  by_cases h : p = q
  · subst h
    rw [updHpt, get_upd_same, hf]
  · rw [updHpt, get_upd_ne _ _ _ _ h]

theorem setInt_links (q : Port) (i : Nat) (s : State) : LinksKept s (setInt q i s) := by
  have hu : LinksKept s (updHpt q (fun h => { h with intStat := h.intStat ||| (1 <<< i) }) s) :=
    updHpt_links q (f := fun h => { h with intStat := h.intStat ||| (1 <<< i) }) (fun _ => rfl) s
  unfold setInt
  dsimp only
  exact .ite (.refl s) (.ite (hu.trans (.of_hpt (by simp))) hu)

theorem ringError_links (g code : Nat) (s : State) : LinksKept s (ringError g code s) := by
  unfold ringError
  dsimp only
  refine .trans (.of_hpt (u := recordSeq .ringError (natLe 4 g ++ natLe 1 code ++ zeros 3) (if (ringOf s g).type == .cq then
    relieve (dropSiding g (seqd (updRing g (fun r => { r with error := code }) (setRing g .error s))))
    else stampBrake (ringOf s g).cq (seqd (updRing g (fun r => { r with error := code }) (setRing g .error s))))) ?_)
    (setInt_links _ _ _)
  simp

theorem evalSq_links (g v : Nat) (s : State) : LinksKept s (evalSq g v s) := by
  have ho : ∀ code, LinksKept s (overrun g code s) := fun code =>
    (ringError_links g code s).trans (.of_hpt (by simp [overrun]))
  unfold evalSq
  dsimp only
  exact .ite (.of_hpt (by simp)) (.ite (ho 2) (.ite (ho 1) (.of_hpt (by simp))))

theorem evalQueued_links (s : State) (x : Nat × Nat) : LinksKept s (evalQueued s x) := by
  unfold evalQueued evalDoorbell
  dsimp only
  generalize hw : (if isCached s x.1 = true then _ else _ : State) = w
  have hs : LinksKept s w := .of_hpt (by rw [← hw]; split <;> simp)
  refine hs.trans ?_
  split
  · exact evalSq_links _ _ _
  · exact .of_hpt (by simp)
  · exact .of_hpt (by simp)

theorem flushDb_links (g : Nat) (s : State) : LinksKept s (flushDb g s) := .foldl evalQueued_links _ s

theorem legEvent_links (code : Nat) (s : State) : LinksKept s (legEvent code s) := by
  unfold legEvent
  dsimp only
  generalize hb : recordSeq .legacy _ _ = b
  have hs : LinksKept s b := .of_hpt (by rw [← hb]; simp)
  exact .ite (hs.trans ((setInt_links .a 11 b).trans (setInt_links .b 11 _))) hs

theorem legErase_links (code status : Nat) (s : State) : LinksKept s (legErase code status s) := by
  unfold legErase
  dsimp only
  generalize hw : purgeStaging (· == .legacy) _ = w
  have hs : LinksKept s w := .of_hpt (by rw [← hw]; simp)
  exact .trans (.trans hs (legEvent_links code w)) (.of_hpt (by simp))

theorem tellWaiter_links (w : Port) (n : Nat) (s : State) : LinksKept s (tellWaiter w n s) := by
  unfold tellWaiter
  exact .ite (.refl s) (.trans (updHpt_links w (f := fun h => { h with ttbFreed := h.ttbFreed ||| (1 <<< n) }) (fun _ => rfl) s)
    (setInt_links w 2 _))

theorem dropTable_links (n : Nat) (forced : Bool) (s : State) : LinksKept s (dropTable n forced s) := by
  unfold dropTable
  dsimp only
  split
  · exact .refl s
  · refine .ite (.trans ?_ (legErase_links 8 stKeyErased _)) ?_ <;>
      exact .trans (.of_hpt (by simp)) (.ite (tellWaiter_links _ _ _) (.refl _))

theorem dropTables_links (p : Port) (s : State) : LinksKept s (dropTables p s) :=
  .foldl (fun s n => dropTable_links n true s) _ s

theorem loseRings_links (p : Port) (s : State) : LinksKept s (loseRings p s) :=
  .foldl (fun s g => (flushDb_links g s).trans (.ite (ringError_links g 4 _) (.refl _))) _ s

theorem loseCarrs_links (p : Port) (s : State) : LinksKept s (loseCarrs p s) := by
  unfold loseCarrs
  dsimp only
  generalize ha : reap stKeyErased _ = a
  have hs : LinksKept s a := .of_hpt (by rw [← ha]; simp)
  exact hs.trans ((updHpt_links p (f := fun h => { h with lossAborts := (portCarrs p s).length }) (fun _ => rfl) a).trans
    (.of_hpt (by simp)))

theorem stageEnd_links (code : Nat) (s : State) : LinksKept s (stageEnd code s) := by
  unfold stageEnd
  exact .trans (.of_hpt rfl) (setInt_links _ _ _)

/-- The port's lattice command, its privileged channel and its hold of the utility cipher ended. -/
def enginesEnded (p : Port) (s : State) : State :=
  let b := updBnv (fun v => { v with priv := v.priv.set p {} }) (latEnd p stAborted 0 s)
  if b.ucp.holder == some (.port p) then ucpForce stAborted b else b

/-- A stage through the port ended. -/
def stageDropped (p : Port) (s : State) : State :=
  if s.fwu.stage == 1 && s.fwu.stagePort == p && s.fwu.stageData.isNone then stageEnd 1 s else s

/-- The removals that the port proposed closed. -/
def removalsClosed (p : Port) (s : State) : State :=
  (tkeys s.vlt.props (fun _ x => x.used && x.state == .open_ && x.port == p && rOp x.record == 0x04)).foldl
    (fun s i => closeProp i s) s

/-- The debug request through the port ended. -/
def debugDropped (p : Port) (s : State) : State :=
  if s.lcs.chal == 2 && s.lcs.resp.isNone && s.lcs.reqPort == p then dbgEnd 6 (dropChallenge s) else s

theorem loseEngines_eq (p : Port) (s : State) : loseEngines p s =
    reap stKeyErased (grantEnd (debugDropped p (removalsClosed p (stageDropped p (enginesEnded p s))))) := rfl

theorem loseEngines_links (p : Port) (s : State) : LinksKept s (loseEngines p s) := by
  have h1 : LinksKept s (enginesEnded p s) := .of_hpt (by simp [enginesEnded])
  have h2 : LinksKept (enginesEnded p s) (stageDropped p (enginesEnded p s)) := .ite (stageEnd_links 1 _) (.refl _)
  rw [loseEngines_eq]
  exact (h1.trans h2).trans (.of_hpt (by simp [removalsClosed, debugDropped]))

/-! ### Rings' homes -/

/-- A ring's type and the port it is homed on. -/
def homeView (r : Ring) : RingType × Port := (r.type, r.home)

theorem homeView_tellsType : TellsType homeView := fun _ _ h => congrArg Prod.fst h

theorem homeView_of_takeView (r r' : Ring) (h : takeView r = takeView r') : homeView r = homeView r' :=
  Prod.ext (takeView_tellsType r r' h) (show (takeView r).home = (takeView r').home from congrArg Ring.home h)

theorem takeView_of_drainView (r r' : Ring) (h : drainView r = drainView r') : takeView r = takeView r' :=
  show takeView (drainView r) = takeView (drainView r') by rw [h]

theorem relieve_home (g : Nat) (s : State) : SameRing homeView g s (relieve s) :=
  (relieve_sameRing g s).mono fun r r' h => homeView_of_takeView r r' (brakeView_takeView r r' h)

theorem drain_home (q g : Nat) (s : State) : SameRing homeView g s (drain q s) :=
  (drain_sameRing q g s).mono fun r r' h => homeView_of_takeView r r' (takeView_of_drainView r r' h)

theorem writeBack_home (k g : Nat) (s : State) : SameRing homeView g s (writeBack k s) :=
  (writeBack_sameRing k g s).mono homeView_of_takeView

theorem place_home (q : Nat) (imm : Bool) (e : Bytes) (g : Nat) (s : State) : SameRing homeView g s (place q imm e s) := by
  have hu : SameRing homeView g s (updRing q (fun r => { r with siding := r.siding ++ [(e, imm)] }) s) :=
    .upd homeView_tellsType rfl
  unfold place
  dsimp only
  exact .ite (.of_rings rfl) (.ite ((writeCqe_sameRing q g false imm e s).mono fun r r' h =>
    homeView_of_takeView r r' (takeView_of_drainView r r' h)) hu)

theorem unreserve_rings (t : Nat) (s : State) : (unreserve t s).car.rings = s.car.rings := by
  unfold unreserve
  split <;> rfl

/-- A returned entry's two rings get back what it held of them. -/
theorem release_home (t g : Nat) (s : State) : SameRing homeView g s (release t s) := by
  unfold release
  dsimp only
  generalize hb : purgeStaging (· == .carriage t) _ = b
  have hs : SameRing homeView g s b := .of_rings (by rw [← hb]; simp [unreserve_rings])
  generalize hd : updRing (carrOf s t).sq _ b = d
  have hd' : SameRing homeView g b d := by
    rw [← hd]
    exact .upd homeView_tellsType rfl
  generalize he : updRing (ringOf s (carrOf s t).sq).cq _ d = e
  have he' : SameRing homeView g d e := by
    rw [← he]
    exact .upd homeView_tellsType rfl
  exact (hs.trans (hd'.trans he')).trans (.of_rings rfl)

theorem finishAt_home (t status result g : Nat) (s : State) : SameRing homeView g s (finishAt t status result s) := by
  unfold finishAt
  dsimp only
  generalize hb : place _ _ _ (writeBack (carrOf s t).sq s) = b
  have hs : SameRing homeView g s b := by
    rw [← hb]
    exact (writeBack_home _ g s).trans (place_home _ _ _ g _)
  have hc : SameRing homeView g b (countEnd (carrOf s t) status b) := .of_rings rfl
  have hm : ∀ w : State, SameRing homeView g w (markSiding w) := fun w => .of_rings rfl
  exact (hs.trans (hc.trans (release_home t g _))).trans ((hm _).trans ((drain_home _ g _).trans (relieve_home g _)))

theorem complete_home (t status result g : Nat) (s : State) : SameRing homeView g s (complete t status result s) := by
  unfold complete finish
  refine .ite (.refl ..) (.ite (.of_rings rfl) ?_)
  generalize hw : (if status == stInternalFault then seqdAlways s else seqd s) = w
  have hs : SameRing homeView g s w := .of_rings (by rw [← hw]; split <;> simp)
  exact hs.trans (finishAt_home t status result g w)

theorem stopOne_home (t status result g : Nat) (s : State) : SameRing homeView g s (stopOne t status result s) := by
  unfold stopOne
  exact .ite (.trans (.of_rings (scrub_letGo_rings t s)) (complete_home t status result g _)) (.refl ..)

/-! ### Carriages and their ports -/

/-- A step that brings no carriage: those that are open were, on the same SQ, and every ring keeps its home. -/
def Thins (s u : State) : Prop :=
  tablesOk s = true → tablesOk u = true ∧ (∀ g, (ringOf u g).home = (ringOf s g).home) ∧
    ∀ t, (carrOf u t).stage ≠ .free → (carrOf s t).stage ≠ .free ∧ (carrOf u t).sq = (carrOf s t).sq

theorem Thins.refl (s : State) : Thins s s := fun h => ⟨h, fun _ => rfl, fun _ h => ⟨h, rfl⟩⟩

theorem Thins.trans (h : Thins s u) (k : Thins u v) : Thins s v := fun hs => by
  obtain ⟨hu, h1, h2⟩ := h hs
  obtain ⟨hv, k1, k2⟩ := k hu
  refine ⟨hv, fun g => (k1 g).trans (h1 g), fun t ht => ?_⟩
  obtain ⟨h3, h4⟩ := k2 t ht
  obtain ⟨h5, h6⟩ := h2 t h3
  exact ⟨h5, h4.trans h6⟩

theorem Thins.of_car (hk : Keeps {} s u) (h : u.car = s.car) : Thins s u := fun hs =>
  ⟨hk.tables hs, fun g => by rw [ringOf, h, ringOf], fun t ht => by
    rw [carrOf_congr (congrArg Car.cars h)] at ht ⊢
    exact ⟨ht, rfl⟩⟩

theorem Thins.foldl {α : Type} {f : State → α → State} (hf : ∀ s x, Thins s (f s x)) (l : List α) (s : State) :
    Thins s (l.foldl f s) := by
  induction l generalizing s with
  | nil => exact .refl s
  | cons x l ih => exact (hf s x).trans (ih (f s x))

theorem home_of_sameRing (hs : tablesOk s = true) (h : ∀ g, SameRing homeView g s u) (g : Nat) :
    (ringOf u g).home = (ringOf s g).home :=
  congrArg Prod.snd ((h g).shows (.inl (tablesOk_parts s hs).2.1)).1

/-- A step that changes one carriage alone, and that one by its end. -/
theorem Thins.of_one {t : Nat} (hk : Keeps {} s u) (hh : ∀ g, SameRing homeView g s u)
    (hne : ∀ k, k ≠ t → carrOf u k = carrOf s k)
    (ht : tablesOk s = true → (carrOf u t).stage ≠ .free → (carrOf s t).stage ≠ .free ∧ (carrOf u t).sq = (carrOf s t).sq) :
    Thins s u := fun hs => by
  refine ⟨hk.tables hs, home_of_sameRing hs hh, fun k h => ?_⟩
  by_cases hkt : k = t
  · subst hkt
    exact ht hs h
  · rw [hne k hkt] at h ⊢
    exact ⟨h, rfl⟩

theorem complete_thins (t status result : Nat) (s : State) : Thins s (complete t status result s) := by
  refine .of_one (t := t) (complete_keeps t status result (Keeps.refl {} s)) (fun g => complete_home t status result g s)
    (fun k h => complete_carrOf_ne status result h) fun hs h => ?_
  by_cases hf : (carrOf s t).stage = .free
  · have he : complete t status result s = s := by simp [complete, hf]
    rw [he] at h
    exact absurd hf h
  · refine ⟨hf, ?_⟩
    rw [complete_carrOf status result (tablesOk_parts s hs).2.2.1 hf] at h ⊢
    split at h
    · rw [if_pos ‹_›]
    · exact absurd rfl h

theorem stopOne_thins (t status result : Nat) (s : State) : Thins s (stopOne t status result s) := by
  refine .of_one (t := t) (stopOne_keeps t status result (Keeps.refl {} s)) (fun g => stopOne_home t status result g s)
    (fun k h => stopOne_carrOf_ne status result h) fun hs h => ?_
  by_cases hi : inFlight (carrOf s t) = true
  · obtain ⟨hf, -, -⟩ := inFlight_iff.mp hi
    obtain ⟨h1, h2, -⟩ := letGo_scrub_carrOf hf
    refine ⟨hf, ?_⟩
    rw [stopOne, if_pos hi] at h ⊢
    rw [complete_carrOf status result (twf_letGo_scrub hs) (by rw [h1]; exact hf)] at h ⊢
    split at h
    · rw [if_pos ‹_›]
      exact h2
    · exact absurd rfl h
  · rw [stopOne, if_neg hi] at h ⊢
    exact ⟨h, rfl⟩

theorem reap_thins (status : Nat) (s : State) : Thins s (reap status s) := by
  unfold reap
  refine (Thins.foldl (fun s t => stopOne_thins t status 0 s) (orphans s) s).trans (.of_car ?_ (by simp))
  exact reapEngines_keeps status (Keeps.refl {} _)

theorem done_thins (t status result : Nat) (s : State) : Thins s (done t status result s) :=
  (complete_thins t status result s).trans (reap_thins _ _)

theorem closeProp_thins (id : Nat) (s : State) : Thins s (closeProp id s) := by
  unfold closeProp
  dsimp only
  split
  · exact .refl s
  · generalize ha : dropSign id _ = a
    have hs : Thins s a := by
      rw [← ha]
      refine .of_car ?_ (by simp)
      exact dropSign_keeps id (updProp_keeps id _ (Keeps.refl {} s))
    split
    · exact hs.trans (done_thins _ _ _ a)
    · exact hs

/-- What a carriage that vanishes is released from: what it left unscrubbed is counted. -/
def unscrubbed (t : Nat) (s : State) : State :=
  if (provisional (carrOf s t)).isSome then updCar (fun x => { x with unscrubCnt := satInc 16 x.unscrubCnt }) s else s

theorem vanish_eq (t : Nat) (s : State) : vanish t s = release t (unscrubbed t s) := rfl

theorem unscrubbed_car (t : Nat) (s : State) :
    (unscrubbed t s).car.cars = s.car.cars ∧ (unscrubbed t s).car.rings = s.car.rings := by
  unfold unscrubbed
  split
  · exact ⟨rfl, rfl⟩
  · exact ⟨rfl, rfl⟩

/-- A carriage that vanishes leaves the others. -/
theorem vanish_carrOf_ne {t k : Nat} (h : k ≠ t) : carrOf (vanish t s) k = carrOf s k := by
  rw [vanish_eq, carrOf, release_cars, tget_tdel_ne _ _ _ _ h]
  exact (unreserve_carrOf_ne h).trans (carrOf_congr (unscrubbed_car t s).1 k)

/-- It frees its tag. -/
theorem vanish_carrOf (t : Nat) (hw : twf {} s.car.cars = true) : carrOf (vanish t s) t = {} := by
  rw [vanish_eq, carrOf, release_cars]
  exact tget_tdel_same _ _ _ (unreserve_twf (by rw [(unscrubbed_car t s).1]; exact hw))

theorem vanish_thins (t : Nat) (s : State) : Thins s (vanish t s) := by
  refine .of_one (t := t) (vanish_keeps t (Keeps.refl {} s))
    (fun g => by rw [vanish_eq]; exact (SameRing.of_rings (unscrubbed_car t s).2).trans (release_home t g _))
    (fun k h => vanish_carrOf_ne h) fun hs h => ?_
  rw [vanish_carrOf t (tablesOk_parts s hs).2.2.1] at h
  exact absurd rfl h

/-- Carriages that vanish in turn are all gone. -/
theorem vanishes_free (l : List Nat) (hs : tablesOk s = true) {t : Nat} (ht : t ∈ l) :
    (carrOf (l.foldl (fun s t => vanish t s) s) t).stage = .free := by
  induction l generalizing s with
  | nil => cases ht
  | cons k l ih =>
    obtain ⟨hv, -, -⟩ := vanish_thins k s hs
    rcases List.mem_cons.mp ht with rfl | ht
    · obtain ⟨-, -, h⟩ := Thins.foldl (fun s t => vanish_thins t s) l (vanish t s) hv
      refine Classical.byContradiction fun hf => ?_
      obtain ⟨hf', -⟩ := h t hf
      exact hf' (by rw [vanish_carrOf t (tablesOk_parts s hs).2.2.1])
    · exact ih hv ht

theorem relieve_thins (s : State) : Thins s (relieve s) := fun hs =>
  ⟨(relieve_keeps (Keeps.refl {} s)).tables hs, home_of_sameRing hs fun g => relieve_home g s, fun t ht => by
    have hc : carrOf (relieve s) t = carrOf s t := carrOf_congr (by simp) t
    rw [hc] at ht ⊢
    exact ⟨ht, rfl⟩⟩

theorem loseEngines_thins (p : Port) (s : State) : Thins s (loseEngines p s) := by
  have h1 : Thins s (enginesEnded p s) := by
    refine .of_car ?_ (by simp [enginesEnded])
    exact keeps_ite (ucpForce_keeps _ (updBnv_keeps (latEnd_keeps _ _ _ (Keeps.refl {} s))))
      (updBnv_keeps (latEnd_keeps _ _ _ (Keeps.refl {} s)))
  have h2 : ∀ s, Thins s (stageDropped p s) := fun s =>
    .of_car (keeps_ite (stageEnd_keeps _ (Keeps.refl {} s)) (Keeps.refl {} s)) (by unfold stageDropped; split <;> simp)
  have h3 : ∀ s, Thins s (removalsClosed p s) := fun s => .foldl (fun s i => closeProp_thins i s) _ s
  have h4 : ∀ s, Thins s (debugDropped p s) := fun s =>
    .of_car (keeps_ite (dbgEnd_keeps _ (dropChallenge_keeps (Keeps.refl {} s))) (Keeps.refl {} s))
      (by unfold debugDropped; split <;> simp)
  have h5 : ∀ s, Thins s (grantEnd s) := fun s => .of_car (grantEnd_keeps (Keeps.refl {} s)) (by simp)
  rw [loseEngines_eq]
  exact (((h1.trans (h2 _)).trans (h3 _)).trans (h4 _)).trans ((h5 _).trans (reap_thins _ _))

/-- No carriage of the port's rings is open. -/
theorem portCarrs_nil_iff (hs : tablesOk s = true) : portCarrs p s = [] ↔
    ∀ t, (carrOf s t).stage ≠ .free → (ringOf s (carrOf s t).sq).home ≠ p := by
  obtain ⟨-, -, hw, -⟩ := tablesOk_parts s hs
  refine ⟨fun h t hf hp => ?_, fun h => ?_⟩
  · have hm : t ∈ portCarrs p s :=
      mem_tkeys (d := ({} : Carriage)) (fun h0 => hf (congrArg Carriage.stage h0))
        (show ((carrOf s t).stage != .free && (ringOf s (carrOf s t).sq).home == p) = true by simp [hf, hp])
    rw [h] at hm
    cases hm
  · refine List.eq_nil_iff_forall_not_mem.mpr fun t ht => ?_
    have hk := tkeys_spec hw ht
    simp only [Bool.and_eq_true, bne_iff_ne, beq_iff_eq] at hk
    exact h t hk.1 hk.2

/-- A step that brings no carriage leaves a port without carriages so. -/
theorem portCarrs_nil_of_thins (h : Thins s u) (hs : tablesOk s = true)
    (hp : ∀ t, (carrOf s t).stage ≠ .free → (ringOf s (carrOf s t).sq).home ≠ p) (t : Nat) (ht : (carrOf u t).stage ≠ .free) :
    (ringOf u (carrOf u t).sq).home ≠ p := by
  obtain ⟨-, h1, h2⟩ := h hs
  obtain ⟨h3, h4⟩ := h2 t ht
  rw [h1, h4]
  exact hp t h3

end Sys2Proof.Laws
end

section
/-! PROOFS. The host ports: training, readiness, loss, and the ends of host reads (03_host_ports_and_turntables.md). -/
namespace Sys2Proof.Proofs

open Sys2Proof.Machine Sys2Proof.Safety Sys2Proof.Laws

variable {p q : Port} {c : LossCause} {s : State}

/-! ### Turntables released (R61, R65) -/

/-- A turntable dropped is held by none, and the others are as before. -/
theorem dropTable_tables (n : Nat) (forced : Bool) (hw : twf {} s.ttb.tables = true) :
    (tableOf (dropTable n forced s) n).holder = none ∧ (∀ m, m ≠ n → tableOf (dropTable n forced s) m = tableOf s m) ∧
    twf {} (dropTable n forced s).ttb.tables = true := by
  cases hh : (tableOf s n).holder with
  | none =>
    have he : dropTable n forced s = s := by simp [dropTable, hh]
    rw [he]
    exact ⟨hh, fun _ _ => rfl, hw⟩
  | some h =>
    have ht : (dropTable n forced s).ttb =
        (updTable n (fun t => { t with holder := none, forced := forced, leaseLen := 0, leaseFrom := 0 }) s).ttb := by
      simp only [dropTable, hh]
      split <;> split <;> simp
    obtain ⟨hn, hm⟩ := tableOf_of_updTable hw ht
    have hu := twf_tupd {} s.ttb.tables n (fun t =>
      { t with holder := none, forced := forced, leaseLen := 0, leaseFrom := 0 }) hw
    exact ⟨by rw [hn], hm, by rw [ht]; exact hu⟩

/-- Turntables dropped in turn are held by none. -/
theorem dropAll_tables (l : List Nat) (hw : twf {} s.ttb.tables = true) (n : Nat) :
    (n ∈ l → (tableOf (l.foldl (fun s n => dropTable n true s) s) n).holder = none) ∧
    (n ∉ l → tableOf (l.foldl (fun s n => dropTable n true s) s) n = tableOf s n) := by
  induction l generalizing s with
  | nil => exact ⟨fun h => (by cases h), fun _ => rfl⟩
  | cons k l ih =>
    obtain ⟨hk, hne, hw'⟩ := dropTable_tables k true hw
    obtain ⟨h1, h2⟩ := ih hw'
    refine ⟨fun h => ?_, fun h => ?_⟩
    · by_cases hl : n ∈ l
      · exact h1 hl
      · obtain rfl : n = k := (List.mem_cons.mp h).resolve_right hl
        exact (congrArg Turntable.holder (h2 hl)).trans hk
    · rw [List.mem_cons, not_or] at h
      exact (h2 h.2).trans (hne n h.1)

/-- The port holds no turntable once its turntables are dropped. -/
theorem dropTables_holder (hw : twf {} s.ttb.tables = true) (n : Nat) : (tableOf (dropTables p s) n).holder ≠ some p := by
  obtain ⟨h1, h2⟩ := dropAll_tables (tkeys s.ttb.tables (fun _ t => t.holder == some p)) hw n
  by_cases h : n ∈ tkeys s.ttb.tables (fun _ t => t.holder == some p)
  · rw [dropTables, h1 h]
    exact fun h => by cases h
  · rw [dropTables, h2 h]
    exact fun hp => h (mem_tkeys (d := ({} : Turntable)) (fun h0 => by
      have : (tableOf s n).holder = none := congrArg Turntable.holder h0
      rw [hp] at this
      cases this) (by simpa [tableOf] using hp))

/-! ### A port loss step by step (R65) -/

/-- The link down, and the loss counted with its cause. -/
def lossNoted (p : Port) (c : LossCause) (s : State) : State :=
  updHpt p (fun h => { h with lossCnt := satInc 16 h.lossCnt, lossCause := c, lossAborts := 0 }) (linkLost p c s)

/-- The carriages, rings and turntables of the port gone. -/
def lossCleared (p : Port) (c : LossCause) (s : State) : State :=
  loseEngines p (loseCarrs p (loseRings p (dropHeld p (dropTables p (lossNoted p c s)))))

/-- The port's block and registers at reset, and the other port told. -/
def lossTold (p : Port) (c : LossCause) (s : State) : State :=
  setInt p.other 3 (seqd (portReset p (seqd (lossCleared p c s))))

theorem portLoss_eq (hF : inFault s = false) : portLoss p c s = recordSeq .portLoss
    (natLe 1 p.num ++ natLe 1 (lossCode c) ++ zeros 2 ++ natLe 4 ((lossTold p c s).hpt.get p).lossAborts)
    (seqd (lossTold p c s)) :=
  if_neg (c := inFault s = true) (by simp [hF])

theorem inFault_lossTold (hF : inFault s = false) : inFault (lossCleared p c s) = false ∧ inFault (lossTold p c s) = false := by
  simpa [inFault, lossTold, lossCleared, lossNoted] using hF

theorem lossNoted_link (p : Port) (c : LossCause) (s : State) : linkView ((lossNoted p c s).hpt.get p) =
    (false, if c = .flr then (s.hpt.get p).up else false, c, satInc 16 (s.hpt.get p).lossCnt) := by
  simp only [lossNoted, linkLost, updHpt, get_upd_same]
  by_cases h : c = .flr <;> simp [h, linkView]

theorem portReset_links (p : Port) (s : State) : LinksKept s (portReset p s) := fun q => by
  have hh : (portReset p s).hpt = (blockReset p s).hpt := by simp [portReset]
  rw [hh, blockReset, updHpt]
  by_cases h : q = p
  · subst h
    rw [get_upd_same]
    rfl
  · rw [get_upd_ne _ _ _ _ h]

theorem portLoss_links (hF : inFault s = false) : LinksKept (lossNoted p c s) (portLoss p c s) := by
  have h1 : LinksKept (lossNoted p c s) (lossCleared p c s) :=
    (((dropTables_links p _).trans (.of_hpt (by simp))).trans (loseRings_links p (dropHeld p _))).trans
      ((loseCarrs_links p _).trans (loseEngines_links p _))
  have hq : ∀ s, LinksKept s (seqd s) := fun s => .of_hpt (by simp)
  have h2 : LinksKept (lossCleared p c s) (lossTold p c s) :=
    ((hq _).trans (portReset_links p _)).trans ((hq _).trans (setInt_links p.other 3 _))
  rw [portLoss_eq hF]
  exact (h1.trans h2).trans ((hq _).trans (.of_hpt (by simp)))

/-- An interrupt of one port leaves the other's statistics. -/
theorem setInt_stats_ne (i : Nat) (h : p ≠ q) : (setInt q i s).stats.get p = s.stats.get p := by
  have hm : ∀ (v : Nat) (s : State), (msixFire q v s).stats.get p = s.stats.get p := fun v s => by
    unfold msixFire
    dsimp only
    split
    · rfl
    · split <;> exact get_upd_ne _ _ _ _ h
  unfold setInt
  dsimp only
  split
  · rfl
  · split
    · exact hm _ _
    · rfl

theorem other_ne (p : Port) : p ≠ p.other := by cases p <;> decide

/-- The port's own registers and statistics are at reset. -/
theorem portReset_own (p : Port) (s : State) : (portReset p s).win.get p = {} ∧ (portReset p s).stats.get p = {} := by
  simp [portReset, updWin, updStats]

theorem portLoss_own (hF : inFault s = false) :
    (portLoss p c s).win.get p = {} ∧ (portLoss p c s).stats.get p = {} := by
  obtain ⟨hw, hs⟩ := portReset_own p (seqd (lossCleared p c s))
  rw [portLoss_eq hF]
  simp [lossTold, setInt_stats_ne 3 (other_ne p), hw, hs]

/-- A port loss takes at least three CSNs. -/
theorem portLoss_csn (hF : inFault s = false) : s.csn + 3 ≤ (portLoss p c s).csn := by
  obtain ⟨h1, h2⟩ := inFault_lossTold (p := p) (c := c) hF
  have hk : Keeps {} s (lossCleared p c s) :=
    loseEngines_keeps p (loseCarrs_keeps p (loseRings_keeps p (dropHeld_keeps p (dropTables_keeps p
      (updHpt_keeps (linkLost_keeps p c (Keeps.refl {} s)))))))
  have h3 : inFault (portReset p (seqd (lossCleared p c s))) = false := by simpa [inFault] using h1
  have hc : (portLoss p c s).csn = (lossCleared p c s).csn + 3 := by
    rw [portLoss_eq hF]
    simp only [recordSeq_frame, seqd_csn _ h2]
    simp only [lossTold, setInt_frame, seqd_csn _ h3, portReset_frame, seqd_csn _ h1]
  rw [hc]
  exact Nat.add_le_add_right hk.csn_le 3

/-- After a loss no turntable is the port's. -/
theorem portLoss_tables (hok : tablesOk s = true) (hF : inFault s = false) (n : Nat) :
    (tableOf (portLoss p c s) n).holder ≠ some p := by
  have ht : (portLoss p c s).ttb = (dropTables p (lossNoted p c s)).ttb := by
    rw [portLoss_eq hF]
    simp [lossTold, lossCleared]
  rw [tableOf, ht]
  exact dropTables_holder (by simpa [lossNoted] using (tablesOk_parts s hok).1) n

/-- Once the port's carriages have vanished, none of its rings has one. -/
theorem loseCarrs_none (p : Port) (hok : tablesOk s = true) (t : Nat) (ht : (carrOf (loseCarrs p s) t).stage ≠ .free) :
    (ringOf (loseCarrs p s) (carrOf (loseCarrs p s) t).sq).home ≠ p := by
  have hq : Thins s (seqd s) := .of_car (seqd_keeps (Keeps.refl {} s)) (by simp)
  have hv : Thins (seqd s) ((portCarrs p s).foldl (fun s t => vanish t s) (seqd s)) := .foldl (fun s t => vanish_thins t s) _ _
  have hr : Thins ((portCarrs p s).foldl (fun s t => vanish t s) (seqd s)) (loseCarrs p s) :=
    (reap_thins stKeyErased _).trans (.trans (.of_car (updHpt_keeps (Keeps.refl {} _)) (by simp)) (relieve_thins _))
  have hok1 := (hq hok).1
  obtain ⟨-, hh, hc⟩ := (hq.trans (hv.trans hr)) hok
  obtain ⟨hf, hsq⟩ := hc t ht
  rw [hh, hsq]
  intro hp
  have hm : t ∈ portCarrs p s :=
    mem_tkeys (d := ({} : Carriage)) (fun h0 => hf (congrArg Carriage.stage h0))
      (show ((carrOf s t).stage != .free && (ringOf s (carrOf s t).sq).home == p) = true by simp [hf, hp])
  obtain ⟨-, -, hc'⟩ := hr (hv hok1).1
  exact (hc' t ht).1 (vanishes_free _ hok1 hm)

/-- After a loss no carriage is the port's. -/
theorem portLoss_carrs (hok : tablesOk s = true) (hF : inFault s = false) : portCarrs p (portLoss p c s) = [] := by
  have hk0 : Keeps {} s (loseRings p (dropHeld p (dropTables p (lossNoted p c s)))) :=
    loseRings_keeps p (dropHeld_keeps p (dropTables_keeps p (updHpt_keeps (linkLost_keeps p c (Keeps.refl {} s)))))
  have hok0 := hk0.tables hok
  generalize hd : loseRings p (dropHeld p (dropTables p (lossNoted p c s))) = d at hk0 hok0
  have hq : ∀ s, Thins s (seqd s) := fun s => .of_car (seqd_keeps (Keeps.refl {} s)) (by simp)
  have hgone := loseCarrs_none p hok0
  have hrest : Thins (loseCarrs p d) (portLoss p c s) := by
    rw [portLoss_eq hF, lossTold, lossCleared, hd]
    refine (loseEngines_thins p _).trans ((hq _).trans (.trans (.of_car (portReset_keeps p (Keeps.refl {} _)) (by simp)) ?_))
    exact ((hq _).trans (.of_car (setInt_keeps _ _ (Keeps.refl {} _)) (by simp))).trans
      ((hq _).trans (.of_car (recordSeq_keeps _ _ (Keeps.refl {} _)) (by simp)))
  have hokc := (loseCarrs_keeps p (Keeps.refl {} d)).tables hok0
  exact (portCarrs_nil_iff (hrest hokc).1).mpr (portCarrs_nil_of_thins hrest hokc hgone)

/-- After a loss no debug grant stands. -/
theorem portLoss_dbg (hF : inFault s = false) : (portLoss p c s).wld.dbg = 0 := by
  have hw : (portLoss p c s).wld = (lossCleared p c s).wld := by
    rw [portLoss_eq hF]
    simp [lossTold]
  rw [hw, lossCleared, loseEngines_eq]
  simp [grantEnd, updWld, updRng, updLcs]

theorem linkView_eq_iff {h : HptPort} {r u : Bool} {x : LossCause} {n : Nat} :
    linkView h = (r, u, x, n) ↔ h.ready = r ∧ h.up = u ∧ h.lossCause = x ∧ h.lossCnt = n := by
  simp [linkView]

/-- A cause set on a port whose block is not held at reset shows. -/
theorem setInt_sets {i : Nat} (hi : i < 32) (h : held (s.hpt.get p) = false) :
    ((setInt p i s).hpt.get p).intStat.getLsbD i = true := by
  have hm : ∀ v (u : State), (msixFire p v u).hpt = u.hpt := fun v u => by simp
  have hb : ∀ b : BitVec 32, (b ||| (1 <<< i)).getLsbD i = true := fun b => by
    simp only [BitVec.getLsbD_or, BitVec.natCast_eq_ofNat, BitVec.getLsbD_ofNat, Nat.one_shiftLeft, Nat.testBit_two_pow_self]
    simp [hi]
  rw [setInt, if_neg (by simp [h])]
  split
  · rw [hm, updHpt, get_upd_same]
    exact hb _
  · rw [updHpt, get_upd_same]
    exact hb _

/-! ### Readiness, and PERST in Dormant (R48, R49, R67) -/

/-- The port ready again, its block and its counts as at reset. -/
def readyAgain (p : Port) (s : State) : State :=
  updStats p (fun t => { cfg := t.cfg, msix := t.msix, pba := t.pba, reads := t.reads })
    (blockReset p (updHpt p (fun h => { h with ready := true }) s))

/-- A port that returns from a loss sets PEER_UP on the other, where that is ready. -/
theorem hostReady_returns (hw : powered s = true) (hu : (s.hpt.get p).up = true) (hr : (s.hpt.get p).ready = false)
    (hb : bootDone s = true) (hl : s.lcs.burning = false) (h0 : 0 < (s.hpt.get p).lossCnt) (hF : inFault s = false) :
    ∃ t, exec (.hostReady p) s = .next t ∧ (t.hpt.get p).ready = true ∧ t.csn = s.csn + 1 ∧
      ((s.hpt.get p.other).ready = true → (t.hpt.get p.other).intStat.getLsbD 4 = true) := by
  have hfb : inFault (readyAgain p s) = false := hF
  refine ⟨setInt p.other 4 (seqd (readyAgain p s)), ?_, ?_, ?_, fun ho => ?_⟩
  · refine (onlyIf_pos (by simp [hw, hu, hr, hb, hl])).trans (congrArg Host.Outcome.next ?_)
    exact if_pos (by simp [Nat.ne_of_gt h0, hF])
  · have hl := setInt_links p.other 4 (seqd (readyAgain p s)) p
    refine (congrArg Prod.fst hl).trans ?_
    simp [linkView, readyAgain, blockReset, updHpt]
  · simp only [setInt_frame, seqd_csn _ hfb]
    simp [readyAgain]
  · refine setInt_sets (by decide) ?_
    simp [readyAgain, blockReset, updHpt, get_upd_ne _ _ _ _ (other_ne p).symm, held, ho]

/-- A PERST asserted in Dormant loses nothing but the port's own state. -/
theorem perstAssert_dormant (h0 : s.chp.inReset = false) (hp : (s.hpt.get p).perst = false) (hd : s.gov.dormant = true) :
    ∃ t, exec (.perstAssert p) s = .next t ∧ (t.hpt.get p).perst = true ∧ (t.hpt.get p).lossCause = .perst ∧
      (t.hpt.get p).lossCnt = satInc 16 (s.hpt.get p).lossCnt ∧ (t.hpt.get p).ready = false ∧ (t.win.get p) = {} ∧
      (t.stats.get p) = {} ∧ t.hpt.get p.other = s.hpt.get p.other ∧ t.csn = s.csn ∧ t.car = s.car ∧ t.kst = s.kst := by
  refine ⟨idleLoss p s, (onlyIf_pos (by simp [h0, hp])).trans (congrArg Host.Outcome.next (if_pos (by simp [hd]))), ?_⟩
  simp [idleLoss, updHpt, perstPin, portReset, blockReset, get_upd_ne _ _ _ _ (other_ne p).symm]

/-! ### The ends of host reads (R45, R52, R53) -/

theorem hostDmaReadDone_eq {what : DmaRead} {j : ReadJob} (hj : readJob s what = some j) (hp : powered s = true)
    (hF : inFault s = false) {data : Bytes} (hu : (s.hpt.get j.port).up = true) (hw : readWaits what j.port s = false)
    (hn : data.length = j.len) : exec (.hostDmaReadDone what data) s = .next (land what data (readOver what j true s)) := by
  simp only [exec, execHostDmaReadDone, hj]
  exact onlyIf_pos (by simp [hp, hF, hu, hw, hn])

theorem dmaReadError_eq {what : DmaRead} {j : ReadJob} (hj : readJob s what = some j) (hp : powered s = true)
    (hF : inFault s = false) (hs : speculative s what = false) :
    exec (.dmaReadError what) s = .next (landError what (badRead j.port (readOver what j false s))) := by
  simp only [exec, execDmaReadError, hj]
  refine (onlyIf_pos (by simp [hp, hF])).trans (congrArg Host.Outcome.next ?_)
  rw [hs]
  cases what <;> rfl

/-- A prefetch that fails leaves no trace. -/
theorem dmaReadError_prefetch {sq pos : Nat} {j : ReadJob} (hj : readJob s (.descriptor sq pos) = some j)
    (hp : powered s = true) (hF : inFault s = false) (hs : (tget {} (ringOf s sq).copies pos).final = false) :
    exec (.dmaReadError (.descriptor sq pos)) s = .next (updRing sq (fun r => { r with copies := tdel r.copies pos })
      (readOver (.descriptor sq pos) j false s)) := by
  have hsp : speculative s (.descriptor sq pos) = true := by simp [speculative, hs]
  simp only [exec, execDmaReadError, hj]
  refine (onlyIf_pos (by simp [hp, hF])).trans (congrArg Host.Outcome.next ?_)
  rw [hsp]

theorem badRead_counts (h : held (s.hpt.get p) = false) :
    ((badRead p s).hpt.get p).dmaErrCnt = satInc 32 (s.hpt.get p).dmaErrCnt := by
  rw [badRead, if_neg (by simp [h])]
  simp [aerRead, updHpt]

/-- A register write of fewer than four bytes, counted. -/
def sizeCounted (p : Port) (s : State) : State :=
  updHpt p (fun h => { h with sizeErrCnt := satInc 32 h.sizeErrCnt }) (cntWr p s)

/-- What a partial write leaves, whether it touches a legacy load or not. -/
theorem partialWritten_spec (p : Port) (bar0 : Bool) (s : State) :
    ∃ t, t = (if bar0 then legTouch p (sizeCounted p s) else sizeCounted p s) ∧
      t.hpt = s.hpt.upd p (fun h => { h with sizeErrCnt := satInc 32 h.sizeErrCnt }) ∧
      (t.stats.get p).regWr = satInc 32 (s.stats.get p).regWr ∧ t.csn = s.csn ∧ t.car = s.car ∧ t.kst = s.kst := by
  refine ⟨_, rfl, ?_⟩
  have hs : (sizeCounted p s).hpt = s.hpt.upd p (fun h => { h with sizeErrCnt := satInc 32 h.sizeErrCnt }) ∧
      ((sizeCounted p s).stats.get p).regWr = satInc 32 (s.stats.get p).regWr ∧ (sizeCounted p s).csn = s.csn ∧
      (sizeCounted p s).car = s.car ∧ (sizeCounted p s).kst = s.kst := by
    refine ⟨rfl, ?_, rfl, rfl, rfl⟩
    simp [sizeCounted, cntWr, updStats]
  cases bar0
  · exact hs
  · rw [if_pos rfl, legTouch_eq]
    exact hs

/-! ### The obligation -/

/-- Settles O59: a loss is its steps in turn, none of which brings a carriage or a turntable back. -/
theorem portsTrainAreLostAndReturn : Obligations.PortsTrainAreLostAndReturn := by
  unfold Obligations.PortsTrainAreLostAndReturn
  refine ⟨fun p flit w v s hp ht hr hu hok => onlyIf_pos (by simp [hp, ht, hr, hu, hok]),
    fun p s hp hu hr hb hl => ⟨fun h0 => ?_, fun h0 hF => hostReady_returns hp hu hr hb hl h0 hF⟩,
    fun p s h0 hd hp hw => ?_, fun c p cause s hp hu hc => ?_,
    fun p s h0 hp hd => perstAssert_dormant h0 hp hd,
    fun p cause s hok hF => ?_,
    fun p off s hp hu h4 hn => ⟨fun hr w => ?_, fun hr => ⟨?_, fun v => ?_⟩⟩,
    fun what j s hj hp hF => ⟨fun data hu hw hn => hostDmaReadDone_eq hj hp hF hu hw hn,
      fun hs => dmaReadError_eq hj hp hF hs, fun h => badRead_counts h⟩,
    fun sq pos j s hj hp hF hs => dmaReadError_prefetch hj hp hF hs,
    fun data s hp hF h1 hn hu hw hl => ?_,
    fun p q bar off s hr hF ha => ⟨fun hv => ⟨?_, ?_⟩, fun hv => ⟨?_, ?_⟩⟩,
    fun p s hr hF => ⟨?_, ?_⟩,
    fun p bar off s hw hb => ⟨fun hv => ?_, fun hv => ?_⟩,
    fun p cause s hF => ?_⟩
  · exact (onlyIf_pos (by simp [hp, hu, hr, hb, hl])).trans (congrArg Host.Outcome.next (if_neg (by simp [h0])))
  · have hx : exec (.perstDeassert p) s = execPerstDeassert p s := rfl
    rw [hx, execPerstDeassert, if_neg (by simp [hd])]
    exact (onlyIf_pos (by simp [h0, hp])).trans (congrArg Host.Outcome.next (if_neg (by simp [hw])))
  · rcases hc with ⟨rfl, rfl⟩ | ⟨rfl, rfl⟩ | ⟨rfl, rfl⟩ | ⟨rfl, rfl⟩ | ⟨rfl, rfl, hpe, hwe⟩
    · exact onlyIf_pos (by simp [hp, hu])
    · exact onlyIf_pos (by simp [hp, hu])
    · exact onlyIf_pos (by simp [hp, hu])
    · exact onlyIf_pos (by simp [hp, hu])
    · simp only [powered, Bool.and_eq_true, Bool.not_eq_true'] at hp
      exact (onlyIf_pos (by simp [hp, hpe])).trans (congrArg Host.Outcome.next (if_neg (by simp [hp, hwe])))
  · have hv := (portLoss_links (p := p) (c := cause) hF p).trans (lossNoted_link p cause s)
    obtain ⟨h1, h2, h3, h4⟩ := linkView_eq_iff.mp hv
    obtain ⟨h5, h6⟩ := portLoss_own (p := p) (c := cause) hF
    exact ⟨h1, h3, h4, fun h => by rw [h2, if_neg h], fun h => by rw [h2, if_pos h], portLoss_tables hok hF,
      portLoss_carrs hok hF, h5, h6, portLoss_dbg hF, portLoss_csn hF, by simp⟩
  · exact (onlyIf_pos (by simp [hp, hu, h4, hn])).trans (congrArg Host.Outcome.next (if_pos (by simp [hr])))
  · exact (onlyIf_pos (by simp [hp, hu, h4, hn])).trans (congrArg Host.Outcome.next (if_neg (by simp [hr])))
  · exact (onlyIf_pos (by simp [hp, hu, h4, hn])).trans (congrArg Host.Outcome.next (if_neg (by simp [hr])))
  · have hj : readJob s .stage = some (oneRead s.fwu.stagePort s.fwu.stageLen false) := by simp [readJob, h1, hn]
    refine ⟨_, hostDmaReadDone_eq hj hp hF hu hw hl, ?_⟩
    simp [land, updFwu]
  · exact (onlyIf_pos (by simp [hr, ha])).trans (congrArg Host.Outcome.next (by simp [turnAway, hv, discarded, hF, answer]))
  · exact (onlyIf_pos (by simp [hr, ha])).trans (congrArg Host.Outcome.next (by simp [turnAway, hv, discarded, hF]))
  · exact (onlyIf_pos (by simp [hr, ha])).trans (congrArg Host.Outcome.next (by simp [turnAway, hv, answer]))
  · exact (onlyIf_pos (by simp [hr, ha])).trans (congrArg Host.Outcome.next (by simp [turnAway, hv]))
  · exact (onlyIf_pos hr).trans (congrArg Host.Outcome.next (by simp [turnAway, hF, answer]))
  · exact (onlyIf_pos hr).trans (congrArg Host.Outcome.next (by simp [turnAway, hF]))
  · refine (onlyIf_pos (by cases bar <;> simp_all [anyEnables])).trans (congrArg Host.Outcome.next ?_)
    simp [hv]
  · obtain ⟨t, ht, hspec⟩ := partialWritten_spec p (bar == .bar0) s
    refine ⟨t, (onlyIf_pos (by cases bar <;> simp_all [anyEnables])).trans (congrArg Host.Outcome.next ?_), hspec⟩
    rw [ht, hv]
    rfl
  · obtain ⟨h1, h2⟩ := portReset_own p (linkLost p cause s)
    have he : portLoss p cause s = portReset p (linkLost p cause s) := if_pos hF
    rw [he]
    exact ⟨h1, h2, by simp⟩

end Sys2Proof.Proofs
end

section
/-! PROOFS. Register reads of a state that shows what FAULT kept (21_register_reference.md, R29, R31). -/
namespace Sys2Proof.Proofs

open Sys2Proof.Machine Sys2Proof.Safety

/-- A running device whose port A has counted five refused writes, and which still holds register values that a FAULT kept,
with that count at 0 (no hypothesis says that outside FAULT no values are kept). -/
def keptValues : State :=
  { chp := { inReset := false, mode := .running }
    hpt := ⟨{ up := true, ready := true, guardCnt := 5 }, {}⟩
    shown := (keepShown {}).shown }

/-- What a command puts out. -/
def outOf (r : Res) : List Output :=
  match r with
  | .next t => t.out
  | _ => []

/-- A read of HPT_GUARD_CNT is answered with the value kept. -/
theorem outOf_keptValues : outOf (exec (.rcRead .a none (.word ⟨.bar0, 0x2018⟩)) keptValues) = [.answer .a 0] := by decide

/-- Refutes O60: a read returns what FAULT kept wherever something is kept, in FAULT or not, so in `keptValues` the read of
HPT_GUARD_CNT returns 0 and not the count of 5. -/
theorem not_registersReadAndStore : ¬ Obligations.RegistersReadAndStore := by
  unfold Obligations.RegistersReadAndStore
  rintro ⟨-, h, -⟩
  obtain ⟨⟨t, ht, hout, -⟩, -⟩ := h .a keptValues (by decide)
  have ho : t.out = [.answer .a 0] := (congrArg outOf ht).symm.trans outOf_keptValues
  rw [ho] at hout
  exact absurd hout (by decide)

end Sys2Proof.Proofs
end
